-- ==== Sys2Proof/Word.lean ====
section
/-! DEFINITION. The word types of the KVR2560 register pages (R27) and of its byte memories (R6). -/
namespace Sys2Proof

/-- A byte of a memory, a frame or a message. -/
abbrev Byte := BitVec 8

/-- A register, and a word of a table, is 32 bits wide (R27). -/
abbrev Word := BitVec 32

end Sys2Proof
end

