-- ==== Sys2Proof/Machine/Layout.lean ====
section
/-! DEFINITION. The registers of every kind of page: where each field stands, how it is accessed, whether it is
shadowed or trusted, and its reset value, as the register tables of the chapters give them (R4, R27, R29, R35). -/
namespace Sys2Proof.Machine

/-- A field of a register page: the register's offset in the page, the field's lowest bit and its width. -/
structure Fld where
  off : Nat
  lsb : Nat
  width : Nat
  deriving DecidableEq, Repr

/-- A register, or a run of `count` registers `stride` bytes apart: which bits have each access type (R4), which bits
have a shadow copy (R35), whether the trusted processor alone writes it (R39), and its reset value. -/
structure RegSpec where
  off : Nat
  stride : Nat
  count : Nat
  rw : Nat
  w1c : Nat
  w1s : Nat
  wo : Nat
  rc : Nat
  ro : Nat
  shadow : Nat
  trusted : Bool
  reset : Nat
  deriving DecidableEq, Repr

namespace Hdr
/-- R29: ID.TYPE. -/
def ID_TYPE : Fld := ⟨0x0, 16, 16⟩
/-- R29: ID.INST. -/
def ID_INST : Fld := ⟨0x0, 8, 8⟩
/-- R29: ID.VER. -/
def ID_VER : Fld := ⟨0x0, 0, 8⟩
/-- R29: CAPS.TIMING. -/
def CAPS_TIMING : Fld := ⟨0x4, 31, 1⟩
/-- R29: CAPS.VALUE. -/
def CAPS_VALUE : Fld := ⟨0x4, 0, 31⟩
/-- R29: CTRL.EN. -/
def CTRL_EN : Fld := ⟨0x8, 0, 1⟩
/-- R29: CTRL.DRAIN. -/
def CTRL_DRAIN : Fld := ⟨0x8, 1, 1⟩
/-- R29: CTRL.BLKRST. -/
def CTRL_BLKRST : Fld := ⟨0x8, 2, 1⟩
/-- R29: CTRL.FREEZE. -/
def CTRL_FREEZE : Fld := ⟨0x8, 3, 1⟩
/-- R29: STATE.ST. -/
def STATE_ST : Fld := ⟨0xC, 0, 3⟩
/-- R29: STATE.FCODE. -/
def STATE_FCODE : Fld := ⟨0xC, 8, 8⟩
/-- R29: OWNER.CLASS. -/
def OWNER_CLASS : Fld := ⟨0x10, 0, 2⟩
/-- R29: OWNER.LOCKED. -/
def OWNER_LOCKED : Fld := ⟨0x10, 8, 1⟩
/-- R29: GEN.GEN. -/
def GEN_GEN : Fld := ⟨0x14, 0, 32⟩
/-- R29: COMMIT.REQUEST. -/
def COMMIT_REQUEST : Fld := ⟨0x18, 0, 1⟩
/-- R29: COMMIT.ABANDON. -/
def COMMIT_ABANDON : Fld := ⟨0x18, 1, 1⟩
/-- R29: COMMIT_STATUS.STATUS. -/
def COMMIT_STATUS_STATUS : Fld := ⟨0x1C, 0, 4⟩
/-- R29: COMMIT_STATUS.PENDING. -/
def COMMIT_STATUS_PENDING : Fld := ⟨0x1C, 4, 1⟩
/-- R29: COMMIT_STATUS.DETAIL. -/
def COMMIT_STATUS_DETAIL : Fld := ⟨0x1C, 16, 16⟩
/-- R29: EVT_RAW.RAW. -/
def EVT_RAW_RAW : Fld := ⟨0x20, 0, 32⟩
/-- R29: EVT_EN.EN. -/
def EVT_EN_EN : Fld := ⟨0x24, 0, 32⟩
/-- R29: EVT_PEND.PEND. -/
def EVT_PEND_PEND : Fld := ⟨0x28, 0, 32⟩
/-- R29: EVT_CLR.CLR. -/
def EVT_CLR_CLR : Fld := ⟨0x2C, 0, 32⟩
/-- R29: ERR_CODE.CODE. -/
def ERR_CODE_CODE : Fld := ⟨0x30, 0, 8⟩
/-- R29: ERR_CODE.CLEAR. -/
def ERR_CODE_CLEAR : Fld := ⟨0x30, 31, 1⟩
/-- R29: ERR_INFO.SRC. -/
def ERR_INFO_SRC : Fld := ⟨0x34, 0, 3⟩
/-- R29: ERR_INFO.COUNT. -/
def ERR_INFO_COUNT : Fld := ⟨0x34, 8, 8⟩
/-- R29: ERR_INFO.DETAIL. -/
def ERR_INFO_DETAIL : Fld := ⟨0x34, 16, 16⟩
/-- R29: ERR_ADDR_LO.ADDR. -/
def ERR_ADDR_LO_ADDR : Fld := ⟨0x38, 0, 32⟩
/-- R29: ERR_ADDR_HI.ADDR. -/
def ERR_ADDR_HI_ADDR : Fld := ⟨0x3C, 0, 32⟩
/-- R29: SNAP.SNAP. -/
def SNAP_SNAP : Fld := ⟨0x40, 0, 1⟩
/-- R29: DRAIN_LIMIT.LIMIT. -/
def DRAIN_LIMIT_LIMIT : Fld := ⟨0x44, 0, 24⟩
/-- R29: DRAIN_DISCARD_LO.COUNT. -/
def DRAIN_DISCARD_LO_COUNT : Fld := ⟨0x48, 0, 32⟩
/-- R29: DRAIN_DISCARD_HI.COUNT. -/
def DRAIN_DISCARD_HI_COUNT : Fld := ⟨0x4C, 0, 32⟩
/-- R29: SNAP_TIME.NS. -/
def SNAP_TIME_NS : Fld := ⟨0x50, 0, 32⟩
/-- The registers of this kind of page. -/
def specs : List RegSpec := [
  ⟨0x0, 4, 1, 0x0, 0x0, 0x0, 0x0, 0x0, 0xFFFFFFFF, 0x0, false, 0x0⟩ /- ID -/,
  ⟨0x4, 4, 1, 0x0, 0x0, 0x0, 0x0, 0x0, 0xFFFFFFFF, 0x0, false, 0x0⟩ /- CAPS -/,
  ⟨0x8, 4, 1, 0xB, 0x0, 0x4, 0x0, 0x0, 0x0, 0x0, false, 0x0⟩ /- CTRL -/,
  ⟨0xC, 4, 1, 0x0, 0x0, 0x0, 0x0, 0x0, 0xFF07, 0x0, false, 0x0⟩ /- STATE -/,
  ⟨0x10, 4, 1, 0x3, 0x0, 0x100, 0x0, 0x0, 0x0, 0x0, false, 0x2⟩ /- OWNER -/,
  ⟨0x14, 4, 1, 0x0, 0x0, 0x0, 0x0, 0x0, 0xFFFFFFFF, 0x0, false, 0x0⟩ /- GEN -/,
  ⟨0x18, 4, 1, 0x0, 0x0, 0x0, 0x3, 0x0, 0x0, 0x0, false, 0x0⟩ /- COMMIT -/,
  ⟨0x1C, 4, 1, 0x0, 0x0, 0x0, 0x0, 0x0, 0xFFFF001F, 0x0, false, 0x0⟩ /- COMMIT_STATUS -/,
  ⟨0x20, 4, 1, 0x0, 0x0, 0x0, 0x0, 0x0, 0xFFFFFFFF, 0x0, false, 0x0⟩ /- EVT_RAW -/,
  ⟨0x24, 4, 1, 0xFFFFFFFF, 0x0, 0x0, 0x0, 0x0, 0x0, 0x0, false, 0x0⟩ /- EVT_EN -/,
  ⟨0x28, 4, 1, 0x0, 0x0, 0x0, 0x0, 0x0, 0xFFFFFFFF, 0x0, false, 0x0⟩ /- EVT_PEND -/,
  ⟨0x2C, 4, 1, 0x0, 0xFFFFFFFF, 0x0, 0x0, 0x0, 0x0, 0x0, false, 0x0⟩ /- EVT_CLR -/,
  ⟨0x30, 4, 1, 0x0, 0x0, 0x0, 0x80000000, 0x0, 0xFF, 0x0, false, 0x0⟩ /- ERR_CODE -/,
  ⟨0x34, 4, 1, 0x0, 0x0, 0x0, 0x0, 0x0, 0xFFFFFF07, 0x0, false, 0x0⟩ /- ERR_INFO -/,
  ⟨0x38, 4, 1, 0x0, 0x0, 0x0, 0x0, 0x0, 0xFFFFFFFF, 0x0, false, 0x0⟩ /- ERR_ADDR_LO -/,
  ⟨0x3C, 4, 1, 0x0, 0x0, 0x0, 0x0, 0x0, 0xFFFFFFFF, 0x0, false, 0x0⟩ /- ERR_ADDR_HI -/,
  ⟨0x40, 4, 1, 0x0, 0x0, 0x0, 0x1, 0x0, 0x0, 0x0, false, 0x0⟩ /- SNAP -/,
  ⟨0x44, 4, 1, 0xFFFFFF, 0x0, 0x0, 0x0, 0x0, 0x0, 0x0, false, 0x3E8⟩ /- DRAIN_LIMIT -/,
  ⟨0x48, 4, 1, 0x0, 0x0, 0x0, 0x0, 0x0, 0xFFFFFFFF, 0x0, false, 0x0⟩ /- DRAIN_DISCARD_LO -/,
  ⟨0x4C, 4, 1, 0x0, 0x0, 0x0, 0x0, 0x0, 0xFFFFFFFF, 0x0, false, 0x0⟩ /- DRAIN_DISCARD_HI -/,
  ⟨0x50, 4, 1, 0x0, 0x0, 0x0, 0x0, 0x0, 0xFFFFFFFF, 0x0, false, 0x0⟩ /- SNAP_TIME -/]
/-- The offsets of the 64-bit counters of this kind of page (R28). -/
def counters : List Nat := []
end Hdr

namespace Sys
/-- R42: EVT_SUMMARY.PAGES, register i of 9. -/
def EVT_SUMMARY_PAGES (i : Nat) : Fld := ⟨0x100 + 4 * i, 0, 32⟩
/-- R42: EVT_ROUTE.VECTOR, register i of 266. -/
def EVT_ROUTE_VECTOR (i : Nat) : Fld := ⟨0x200 + 4 * i, 0, 8⟩
/-- R42: EVT_ROUTE.HOST_EN, register i of 266. -/
def EVT_ROUTE_HOST_EN (i : Nat) : Fld := ⟨0x200 + 4 * i, 15, 1⟩
/-- R42: EVT_ROUTE.MP_LINE, register i of 266. -/
def EVT_ROUTE_MP_LINE (i : Nat) : Fld := ⟨0x200 + 4 * i, 16, 6⟩
/-- R42: EVT_ROUTE.MP_MASK, register i of 266. -/
def EVT_ROUTE_MP_MASK (i : Nat) : Fld := ⟨0x200 + 4 * i, 24, 4⟩
/-- R54: MDIO_CFG.DIV, register i of 2. -/
def MDIO_CFG_DIV (i : Nat) : Fld := ⟨0x700 + 4 * i, 0, 8⟩
/-- R54: MDIO_CFG.NO_PRE, register i of 2. -/
def MDIO_CFG_NO_PRE (i : Nat) : Fld := ⟨0x700 + 4 * i, 8, 1⟩
/-- R54: MDIO_CFG.BUSY, register i of 2. -/
def MDIO_CFG_BUSY (i : Nat) : Fld := ⟨0x700 + 4 * i, 16, 1⟩
/-- R507: RST_CTRL.DEVICE. -/
def RST_CTRL_DEVICE : Fld := ⟨0x710, 0, 1⟩
/-- R507: RST_CTRL.SYSTEM. -/
def RST_CTRL_SYSTEM : Fld := ⟨0x710, 1, 1⟩
/-- R507: RST_CTRL.MGMT. -/
def RST_CTRL_MGMT : Fld := ⟨0x710, 2, 1⟩
/-- R507: RST_CAUSE.LEVEL. -/
def RST_CAUSE_LEVEL : Fld := ⟨0x714, 0, 3⟩
/-- R507: RST_CAUSE.SOURCE. -/
def RST_CAUSE_SOURCE : Fld := ⟨0x714, 4, 4⟩
/-- R507: RST_CAUSE.COUNT. -/
def RST_CAUSE_COUNT : Fld := ⟨0x714, 16, 16⟩
/-- The registers of this kind of page. -/
def specs : List RegSpec := [
  ⟨0x100, 4, 9, 0x0, 0x0, 0x0, 0x0, 0x0, 0xFFFFFFFF, 0x0, false, 0x0⟩ /- EVT_SUMMARY -/,
  ⟨0x200, 4, 266, 0xF3F80FF, 0x0, 0x0, 0x0, 0x0, 0x0, 0x0, false, 0x0⟩ /- EVT_ROUTE -/,
  ⟨0x700, 4, 2, 0x1FF, 0x0, 0x0, 0x0, 0x0, 0x10000, 0x0, false, 0x4⟩ /- MDIO_CFG -/,
  ⟨0x710, 4, 1, 0x0, 0x0, 0x0, 0x7, 0x0, 0x0, 0x0, true, 0x0⟩ /- RST_CTRL -/,
  ⟨0x714, 4, 1, 0x0, 0x0, 0x0, 0x0, 0x0, 0xFFFF00F7, 0x0, false, 0x0⟩ /- RST_CAUSE -/]
/-- The offsets of the 64-bit counters of this kind of page (R28). -/
def counters : List Nat := []
end Sys

namespace Clk
/-- R486: ISL_V.VREQ, register i of 14. -/
def ISL_V_VREQ (i : Nat) : Fld := ⟨0x100 + 4 * i, 0, 5⟩
/-- R486: ISL_V.VNOW, register i of 14. -/
def ISL_V_VNOW (i : Nat) : Fld := ⟨0x100 + 4 * i, 8, 5⟩
/-- R486: ISL_V.V_CEIL, register i of 14. -/
def ISL_V_V_CEIL (i : Nat) : Fld := ⟨0x100 + 4 * i, 16, 5⟩
/-- R486: ISL_F.K, register i of 14. -/
def ISL_F_K (i : Nat) : Fld := ⟨0x140 + 4 * i, 0, 4⟩
/-- R486: ISL_F.KNOW, register i of 14. -/
def ISL_F_KNOW (i : Nat) : Fld := ⟨0x140 + 4 * i, 8, 4⟩
/-- R486: ALARM.CANARY. -/
def ALARM_CANARY : Fld := ⟨0x180, 0, 14⟩
/-- R486: ALARM.XTAL. -/
def ALARM_XTAL : Fld := ⟨0x180, 16, 1⟩
/-- R486: ALARM.SUPPLY. -/
def ALARM_SUPPLY : Fld := ⟨0x180, 17, 1⟩
/-- R486: ALARM.THERM. -/
def ALARM_THERM : Fld := ⟨0x180, 18, 1⟩
/-- R486: TEMP.T, register i of 14. -/
def TEMP_T (i : Nat) : Fld := ⟨0x1C0 + 4 * i, 0, 9⟩
/-- R487: the counter V_STEPS. -/
def CNT_V_STEPS : Nat := 0x200
/-- R487: the counter F_STEPS. -/
def CNT_F_STEPS : Nat := 0x208
/-- R487: the counter CANARY_ALARMS. -/
def CNT_CANARY_ALARMS : Nat := 0x210
/-- The registers of this kind of page. -/
def specs : List RegSpec := [
  ⟨0x100, 4, 14, 0x1F001F, 0x0, 0x0, 0x0, 0x0, 0x1F00, 0x0, false, 0x140000⟩ /- ISL_V -/,
  ⟨0x140, 4, 14, 0x0, 0x0, 0x0, 0x0, 0x0, 0xF0F, 0xF, false, 0x0⟩ /- ISL_F -/,
  ⟨0x180, 4, 1, 0x0, 0x73FFF, 0x0, 0x0, 0x0, 0x0, 0x0, false, 0x0⟩ /- ALARM -/,
  ⟨0x1C0, 4, 14, 0x0, 0x0, 0x0, 0x0, 0x0, 0x1FF, 0x0, false, 0x0⟩ /- TEMP -/]
/-- The offsets of the 64-bit counters of this kind of page (R28). -/
def counters : List Nat := [0x200, 0x208, 0x210]
end Clk

namespace Pwr
/-- R438: REQ.STATE. -/
def REQ_STATE : Fld := ⟨0x100, 0, 3⟩
/-- R438: STATUS.ST. -/
def STATUS_ST : Fld := ⟨0x104, 0, 3⟩
/-- R438: STATUS.PHASE. -/
def STATUS_PHASE : Fld := ⟨0x104, 4, 3⟩
/-- R438: STATUS.TARGET. -/
def STATUS_TARGET : Fld := ⟨0x104, 8, 3⟩
/-- R438: STATUS.RESULT. -/
def STATUS_RESULT : Fld := ⟨0x104, 12, 2⟩
/-- R438: STATUS.CAUSE. -/
def STATUS_CAUSE : Fld := ⟨0x104, 16, 8⟩
/-- R438: PARTIAL_MAP.MAP. -/
def PARTIAL_MAP_MAP : Fld := ⟨0x108, 0, 30⟩
/-- R438: ISLAND_STATE.MAP. -/
def ISLAND_STATE_MAP : Fld := ⟨0x10C, 0, 30⟩
/-- R438: PREPARE.MS. -/
def PREPARE_MS : Fld := ⟨0x110, 0, 16⟩
/-- R438: CFG.HOST_EN. -/
def CFG_HOST_EN : Fld := ⟨0x114, 0, 1⟩
/-- R438: THERM.TRIP. -/
def THERM_TRIP : Fld := ⟨0x118, 0, 8⟩
/-- R438: THERM.RESUME. -/
def THERM_RESUME : Fld := ⟨0x118, 8, 8⟩
/-- R438: FORCED_LOG.CAUSE. -/
def FORCED_LOG_CAUSE : Fld := ⟨0x11C, 0, 2⟩
/-- R438: FORCED_LOG.ISLANDS. -/
def FORCED_LOG_ISLANDS : Fld := ⟨0x11C, 16, 16⟩
/-- R438: FORCED_TIME.NS. -/
def FORCED_TIME_NS : Fld := ⟨0x120, 0, 32⟩
/-- R438: NOT_QUIET_PAGE.PAGE. -/
def NOT_QUIET_PAGE_PAGE : Fld := ⟨0x124, 0, 9⟩
/-- R438: LIMIT.US, register i of 14. -/
def LIMIT_US (i : Nat) : Fld := ⟨0x140 + 4 * i, 0, 16⟩
/-- R439: the counter TRANSITIONS. -/
def CNT_TRANSITIONS : Nat := 0x180
/-- R439: the counter REFUSED. -/
def CNT_REFUSED : Nat := 0x188
/-- R439: the counter SLEEP_ABORTS. -/
def CNT_SLEEP_ABORTS : Nat := 0x190
/-- R439: the counter WAKES_AFTER_COMMIT. -/
def CNT_WAKES_AFTER_COMMIT : Nat := 0x198
/-- R439: the counter FORCED. -/
def CNT_FORCED : Nat := 0x1A0
/-- The registers of this kind of page. -/
def specs : List RegSpec := [
  ⟨0x100, 4, 1, 0x0, 0x0, 0x0, 0x7, 0x0, 0x0, 0x0, false, 0x0⟩ /- REQ -/,
  ⟨0x104, 4, 1, 0x0, 0x0, 0x0, 0x0, 0x0, 0xFF3777, 0x0, false, 0x0⟩ /- STATUS -/,
  ⟨0x108, 4, 1, 0x3FFFFFFF, 0x0, 0x0, 0x0, 0x0, 0x0, 0x0, false, 0x2AAAAAAA⟩ /- PARTIAL_MAP -/,
  ⟨0x10C, 4, 1, 0x0, 0x0, 0x0, 0x0, 0x0, 0x3FFFFFFF, 0x0, false, 0x2AAAAAAA⟩ /- ISLAND_STATE -/,
  ⟨0x110, 4, 1, 0xFFFF, 0x0, 0x0, 0x0, 0x0, 0x0, 0x0, false, 0x32⟩ /- PREPARE -/,
  ⟨0x114, 4, 1, 0x1, 0x0, 0x0, 0x0, 0x0, 0x0, 0x0, true, 0x1⟩ /- CFG -/,
  ⟨0x118, 4, 1, 0xFFFF, 0x0, 0x0, 0x0, 0x0, 0x0, 0x0, true, 0x6E7D⟩ /- THERM -/,
  ⟨0x11C, 4, 1, 0x0, 0x0, 0x0, 0x0, 0x0, 0xFFFF0003, 0x0, false, 0x0⟩ /- FORCED_LOG -/,
  ⟨0x120, 4, 1, 0x0, 0x0, 0x0, 0x0, 0x0, 0xFFFFFFFF, 0x0, false, 0x0⟩ /- FORCED_TIME -/,
  ⟨0x124, 4, 1, 0x0, 0x0, 0x0, 0x0, 0x0, 0x1FF, 0x0, false, 0x0⟩ /- NOT_QUIET_PAGE -/,
  ⟨0x140, 4, 14, 0xFFFF, 0x0, 0x0, 0x0, 0x0, 0x0, 0x0, false, 0x7D0⟩ /- LIMIT -/]
/-- The offsets of the 64-bit counters of this kind of page (R28). -/
def counters : List Nat := [0x180, 0x188, 0x190, 0x198, 0x1A0]
end Pwr

namespace Age
/-- R488: MARGIN.MARGIN, register i of 14. -/
def MARGIN_MARGIN (i : Nat) : Fld := ⟨0x100 + 32 * i, 0, 10⟩
/-- R488: MARGIN.MARGIN_WC, register i of 14. -/
def MARGIN_MARGIN_WC (i : Nat) : Fld := ⟨0x100 + 32 * i, 16, 10⟩
/-- R488: DEGRADE.D_PPM, register i of 14. -/
def DEGRADE_D_PPM (i : Nat) : Fld := ⟨0x104 + 32 * i, 0, 32⟩
/-- R488: CAL.TC_HOT, register i of 14. -/
def CAL_TC_HOT (i : Nat) : Fld := ⟨0x108 + 32 * i, 0, 8⟩
/-- R488: CAL.TC_COLD, register i of 14. -/
def CAL_TC_COLD (i : Nat) : Fld := ⟨0x108 + 32 * i, 8, 8⟩
/-- R488: SAMPLE_S.S, register i of 14. -/
def SAMPLE_S_S (i : Nat) : Fld := ⟨0x10C + 32 * i, 0, 32⟩
/-- R488: FORECAST.Y10, register i of 14. -/
def FORECAST_Y10 (i : Nat) : Fld := ⟨0x110 + 32 * i, 0, 16⟩
/-- R488: FORECAST.EOM, register i of 14. -/
def FORECAST_EOM (i : Nat) : Fld := ⟨0x110 + 32 * i, 31, 1⟩
/-- R488: CFG.PERIOD_S. -/
def CFG_PERIOD_S : Fld := ⟨0x300, 0, 8⟩
/-- R488: CFG.M_MIN. -/
def CFG_M_MIN : Fld := ⟨0x300, 8, 10⟩
/-- R488: CFG.M_ACT. -/
def CFG_M_ACT : Fld := ⟨0x300, 18, 10⟩
/-- R488: YEAR.YEAR_H. -/
def YEAR_YEAR_H : Fld := ⟨0x304, 0, 16⟩
/-- R488: POWERED_S.S. -/
def POWERED_S_S : Fld := ⟨0x308, 0, 32⟩
/-- R489: the counter SAMPLES. -/
def CNT_SAMPLES : Nat := 0x380
/-- R489: the counter EOM_ALARMS. -/
def CNT_EOM_ALARMS : Nat := 0x388
/-- The registers of this kind of page. -/
def specs : List RegSpec := [
  ⟨0x100, 32, 14, 0x0, 0x0, 0x0, 0x0, 0x0, 0x3FF03FF, 0x0, false, 0x0⟩ /- MARGIN -/,
  ⟨0x104, 32, 14, 0x0, 0x0, 0x0, 0x0, 0x0, 0xFFFFFFFF, 0x0, false, 0x0⟩ /- DEGRADE -/,
  ⟨0x108, 32, 14, 0x0, 0x0, 0x0, 0x0, 0x0, 0xFFFF, 0x0, false, 0x0⟩ /- CAL -/,
  ⟨0x10C, 32, 14, 0x0, 0x0, 0x0, 0x0, 0x0, 0xFFFFFFFF, 0x0, false, 0x0⟩ /- SAMPLE_S -/,
  ⟨0x110, 32, 14, 0x8000FFFF, 0x0, 0x0, 0x0, 0x0, 0x0, 0x0, false, 0xFFFF⟩ /- FORECAST -/,
  ⟨0x300, 4, 1, 0xFFFFFFF, 0x0, 0x0, 0x0, 0x0, 0x0, 0x0, false, 0xA0180A⟩ /- CFG -/,
  ⟨0x304, 4, 1, 0xFFFF, 0x0, 0x0, 0x0, 0x0, 0x0, 0x0, false, 0x1D4C⟩ /- YEAR -/,
  ⟨0x308, 4, 1, 0x0, 0x0, 0x0, 0x0, 0x0, 0xFFFFFFFF, 0x0, false, 0x0⟩ /- POWERED_S -/]
/-- The offsets of the 64-bit counters of this kind of page (R28). -/
def counters : List Nat := [0x380, 0x388]
end Age

namespace Wake
/-- R440: PIN_CFG.EN, register i of 16. -/
def PIN_CFG_EN (i : Nat) : Fld := ⟨0x100 + 4 * i, 0, 1⟩
/-- R440: PIN_CFG.POL, register i of 16. -/
def PIN_CFG_POL (i : Nat) : Fld := ⟨0x100 + 4 * i, 1, 1⟩
/-- R440: PIN_CFG.FILTER, register i of 16. -/
def PIN_CFG_FILTER (i : Nat) : Fld := ⟨0x100 + 4 * i, 8, 8⟩
/-- R440: LATCH.SRC. -/
def LATCH_SRC : Fld := ⟨0x140, 0, 21⟩
/-- R440: MASK.SRC. -/
def MASK_SRC : Fld := ⟨0x144, 0, 21⟩
/-- R440: LAST_WAKE.SRC. -/
def LAST_WAKE_SRC : Fld := ⟨0x148, 0, 5⟩
/-- R440: LAST_WAKE.FROM. -/
def LAST_WAKE_FROM : Fld := ⟨0x148, 8, 3⟩
/-- R440: LAST_WAKE_S.S. -/
def LAST_WAKE_S_S : Fld := ⟨0x14C, 0, 32⟩
/-- R440: CONFIRM.CONFIRM. -/
def CONFIRM_CONFIRM : Fld := ⟨0x150, 0, 1⟩
/-- R440: FALSE_CFG.FALSE_LIMIT. -/
def FALSE_CFG_FALSE_LIMIT : Fld := ⟨0x154, 0, 8⟩
/-- R440: FALSE_CFG.CONFIRM_MS. -/
def FALSE_CFG_CONFIRM_MS : Fld := ⟨0x154, 16, 16⟩
/-- R440: UNMASK_S.S. -/
def UNMASK_S_S : Fld := ⟨0x158, 0, 32⟩
/-- R440: TIMER_S.S. -/
def TIMER_S_S : Fld := ⟨0x15C, 0, 32⟩
/-- R440: AON_S.S. -/
def AON_S_S : Fld := ⟨0x160, 0, 32⟩
/-- R440: CONSEC.COUNT, register i of 21. -/
def CONSEC_COUNT (i : Nat) : Fld := ⟨0x200 + 4 * i, 0, 8⟩
/-- R441: the counter MASKED_HITS. -/
def CNT_MASKED_HITS : Nat := 0x180
/-- R441: the counter WAKES, number i of 21. -/
def CNT_WAKES (i : Nat) : Nat := 0x300 + 16 * i
/-- R441: the counter FALSE_WAKES, number i of 21. -/
def CNT_FALSE_WAKES (i : Nat) : Nat := 0x308 + 16 * i
/-- The registers of this kind of page. -/
def specs : List RegSpec := [
  ⟨0x100, 4, 16, 0xFF03, 0x0, 0x0, 0x0, 0x0, 0x0, 0x0, false, 0x400⟩ /- PIN_CFG -/,
  ⟨0x140, 4, 1, 0x0, 0x1FFFFF, 0x0, 0x0, 0x0, 0x0, 0x0, false, 0x0⟩ /- LATCH -/,
  ⟨0x144, 4, 1, 0x1FFFFF, 0x0, 0x0, 0x0, 0x0, 0x0, 0x0, false, 0x0⟩ /- MASK -/,
  ⟨0x148, 4, 1, 0x0, 0x0, 0x0, 0x0, 0x0, 0x71F, 0x0, false, 0x0⟩ /- LAST_WAKE -/,
  ⟨0x14C, 4, 1, 0x0, 0x0, 0x0, 0x0, 0x0, 0xFFFFFFFF, 0x0, false, 0x0⟩ /- LAST_WAKE_S -/,
  ⟨0x150, 4, 1, 0x0, 0x0, 0x0, 0x1, 0x0, 0x0, 0x0, false, 0x0⟩ /- CONFIRM -/,
  ⟨0x154, 4, 1, 0xFFFF00FF, 0x0, 0x0, 0x0, 0x0, 0x0, 0x0, false, 0x3E80005⟩ /- FALSE_CFG -/,
  ⟨0x158, 4, 1, 0xFFFFFFFF, 0x0, 0x0, 0x0, 0x0, 0x0, 0x0, false, 0xE10⟩ /- UNMASK_S -/,
  ⟨0x15C, 4, 1, 0xFFFFFFFF, 0x0, 0x0, 0x0, 0x0, 0x0, 0x0, false, 0x0⟩ /- TIMER_S -/,
  ⟨0x160, 4, 1, 0x0, 0x0, 0x0, 0x0, 0x0, 0xFFFFFFFF, 0x0, false, 0x0⟩ /- AON_S -/,
  ⟨0x200, 4, 21, 0x0, 0x0, 0x0, 0x0, 0x0, 0xFF, 0x0, false, 0x0⟩ /- CONSEC -/]
/-- The offsets of the 64-bit counters of this kind of page (R28). -/
def counters : List Nat := [0x180] ++ (List.range 21).map (fun i => 0x300 + 16 * i) ++ (List.range 21).map (fun i => 0x308 + 16 * i)
end Wake

namespace Nm
/-- R442: NM_CFG.ETYPE. -/
def NM_CFG_ETYPE : Fld := ⟨0x100, 0, 16⟩
/-- R442: NM_CFG.AUTO. -/
def NM_CFG_AUTO : Fld := ⟨0x100, 16, 1⟩
/-- R442: NM_CFG.SLEEP_STATE. -/
def NM_CFG_SLEEP_STATE : Fld := ⟨0x100, 17, 3⟩
/-- R442: CHARM_DA_LO.DA. -/
def CHARM_DA_LO_DA : Fld := ⟨0x104, 0, 32⟩
/-- R442: CHARM_DA_HI.DA. -/
def CHARM_DA_HI_DA : Fld := ⟨0x108, 0, 16⟩
/-- R442: PORTS_LO.PORTS. -/
def PORTS_LO_PORTS : Fld := ⟨0x10C, 0, 32⟩
/-- R442: PORTS_HI.PORT37. -/
def PORTS_HI_PORT37 : Fld := ⟨0x110, 5, 1⟩
/-- R442: TIMEOUT.NET_TIMEOUT_MS. -/
def TIMEOUT_NET_TIMEOUT_MS : Fld := ⟨0x114, 0, 16⟩
/-- R442: TIMEOUT.CHARM_PERIOD_MS. -/
def TIMEOUT_CHARM_PERIOD_MS : Fld := ⟨0x114, 16, 16⟩
/-- R442: HOLD.HOLD. -/
def HOLD_HOLD : Fld := ⟨0x118, 0, 1⟩
/-- R442: HOLD.REASON. -/
def HOLD_REASON : Fld := ⟨0x118, 8, 8⟩
/-- R442: STATUS.NMS. -/
def STATUS_NMS : Fld := ⟨0x11C, 0, 1⟩
/-- R442: STATUS.NT_MS. -/
def STATUS_NT_MS : Fld := ⟨0x11C, 16, 16⟩
/-- R442: HOLD_ALERT.S. -/
def HOLD_ALERT_S : Fld := ⟨0x120, 0, 16⟩
/-- R442: HOLDER_SEL.ENTRY. -/
def HOLDER_SEL_ENTRY : Fld := ⟨0x130, 0, 5⟩
/-- R442: HOLDER_W0.NM_ID. -/
def HOLDER_W0_NM_ID : Fld := ⟨0x134, 0, 16⟩
/-- R442: HOLDER_W0.REASON. -/
def HOLDER_W0_REASON : Fld := ⟨0x134, 16, 8⟩
/-- R442: HOLDER_W0.RELEASED. -/
def HOLDER_W0_RELEASED : Fld := ⟨0x134, 30, 1⟩
/-- R442: HOLDER_W0.VALID. -/
def HOLDER_W0_VALID : Fld := ⟨0x134, 31, 1⟩
/-- R442: HOLDER_W1.SA. -/
def HOLDER_W1_SA : Fld := ⟨0x138, 0, 32⟩
/-- R442: HOLDER_W2.SA. -/
def HOLDER_W2_SA : Fld := ⟨0x13C, 0, 16⟩
/-- R442: HOLDER_W3.FIRST_S. -/
def HOLDER_W3_FIRST_S : Fld := ⟨0x140, 0, 32⟩
/-- R442: HOLDER_W4.LAST_S. -/
def HOLDER_W4_LAST_S : Fld := ⟨0x144, 0, 32⟩
/-- R442: HOLDER_W5.KEEPS. -/
def HOLDER_W5_KEEPS : Fld := ⟨0x148, 0, 32⟩
/-- R442: HLOG_SEL.ENTRY. -/
def HLOG_SEL_ENTRY : Fld := ⟨0x150, 0, 3⟩
/-- R442: HLOG_W.W, register i of 6. -/
def HLOG_W_W (i : Nat) : Fld := ⟨0x154 + 4 * i, 0, 32⟩
/-- R443: the counter CHARM_RX. -/
def CNT_CHARM_RX : Nat := 0x180
/-- R443: the counter CHARM_BAD. -/
def CNT_CHARM_BAD : Nat := 0x188
/-- R443: the counter RELEASE_RX. -/
def CNT_RELEASE_RX : Nat := 0x190
/-- R443: the counter LONG_HOLDERS. -/
def CNT_LONG_HOLDERS : Nat := 0x198
/-- R443: the counter AUTO_REQS. -/
def CNT_AUTO_REQS : Nat := 0x1A0
/-- The registers of this kind of page. -/
def specs : List RegSpec := [
  ⟨0x100, 4, 1, 0xFFFFF, 0x0, 0x0, 0x0, 0x0, 0x0, 0x0, false, 0x60000⟩ /- NM_CFG -/,
  ⟨0x104, 4, 1, 0xFFFFFFFF, 0x0, 0x0, 0x0, 0x0, 0x0, 0x0, false, 0xB502⟩ /- CHARM_DA_LO -/,
  ⟨0x108, 4, 1, 0xFFFF, 0x0, 0x0, 0x0, 0x0, 0x0, 0x0, false, 0x300⟩ /- CHARM_DA_HI -/,
  ⟨0x10C, 4, 1, 0xFFFFFFFF, 0x0, 0x0, 0x0, 0x0, 0x0, 0x0, false, 0x0⟩ /- PORTS_LO -/,
  ⟨0x110, 4, 1, 0x20, 0x0, 0x0, 0x0, 0x0, 0x0, 0x0, false, 0x0⟩ /- PORTS_HI -/,
  ⟨0x114, 4, 1, 0xFFFFFFFF, 0x0, 0x0, 0x0, 0x0, 0x0, 0x0, false, 0xC807D0⟩ /- TIMEOUT -/,
  ⟨0x118, 4, 1, 0xFF01, 0x0, 0x0, 0x0, 0x0, 0x0, 0x0, false, 0x0⟩ /- HOLD -/,
  ⟨0x11C, 4, 1, 0x0, 0x0, 0x0, 0x0, 0x0, 0xFFFF0001, 0x0, false, 0x0⟩ /- STATUS -/,
  ⟨0x120, 4, 1, 0xFFFF, 0x0, 0x0, 0x0, 0x0, 0x0, 0x0, false, 0x258⟩ /- HOLD_ALERT -/,
  ⟨0x130, 4, 1, 0x1F, 0x0, 0x0, 0x0, 0x0, 0x0, 0x0, false, 0x0⟩ /- HOLDER_SEL -/,
  ⟨0x134, 4, 1, 0x0, 0x0, 0x0, 0x0, 0x0, 0xC0FFFFFF, 0x0, false, 0x0⟩ /- HOLDER_W0 -/,
  ⟨0x138, 4, 1, 0x0, 0x0, 0x0, 0x0, 0x0, 0xFFFFFFFF, 0x0, false, 0x0⟩ /- HOLDER_W1 -/,
  ⟨0x13C, 4, 1, 0x0, 0x0, 0x0, 0x0, 0x0, 0xFFFF, 0x0, false, 0x0⟩ /- HOLDER_W2 -/,
  ⟨0x140, 4, 1, 0x0, 0x0, 0x0, 0x0, 0x0, 0xFFFFFFFF, 0x0, false, 0x0⟩ /- HOLDER_W3 -/,
  ⟨0x144, 4, 1, 0x0, 0x0, 0x0, 0x0, 0x0, 0xFFFFFFFF, 0x0, false, 0x0⟩ /- HOLDER_W4 -/,
  ⟨0x148, 4, 1, 0x0, 0x0, 0x0, 0x0, 0x0, 0xFFFFFFFF, 0x0, false, 0x0⟩ /- HOLDER_W5 -/,
  ⟨0x150, 4, 1, 0x7, 0x0, 0x0, 0x0, 0x0, 0x0, 0x0, false, 0x0⟩ /- HLOG_SEL -/,
  ⟨0x154, 4, 6, 0x0, 0x0, 0x0, 0x0, 0x0, 0xFFFFFFFF, 0x0, false, 0x0⟩ /- HLOG_W -/]
/-- The offsets of the 64-bit counters of this kind of page (R28). -/
def counters : List Nat := [0x180, 0x188, 0x190, 0x198, 0x1A0]
end Nm

namespace Gpio
/-- R508: DIR.OE. -/
def DIR_OE : Fld := ⟨0x100, 0, 16⟩
/-- R508: OUT.LEVEL. -/
def OUT_LEVEL : Fld := ⟨0x104, 0, 16⟩
/-- R508: IN.LEVEL. -/
def IN_LEVEL : Fld := ⟨0x108, 0, 16⟩
/-- R508: RISE.EN. -/
def RISE_EN : Fld := ⟨0x10C, 0, 16⟩
/-- R508: FALL.EN. -/
def FALL_EN : Fld := ⟨0x110, 0, 16⟩
/-- The registers of this kind of page. -/
def specs : List RegSpec := [
  ⟨0x100, 4, 1, 0xFFFF, 0x0, 0x0, 0x0, 0x0, 0x0, 0x0, false, 0x0⟩ /- DIR -/,
  ⟨0x104, 4, 1, 0xFFFF, 0x0, 0x0, 0x0, 0x0, 0x0, 0x0, false, 0x0⟩ /- OUT -/,
  ⟨0x108, 4, 1, 0x0, 0x0, 0x0, 0x0, 0x0, 0xFFFF, 0x0, false, 0x0⟩ /- IN -/,
  ⟨0x10C, 4, 1, 0xFFFF, 0x0, 0x0, 0x0, 0x0, 0x0, 0x0, false, 0x0⟩ /- RISE -/,
  ⟨0x110, 4, 1, 0xFFFF, 0x0, 0x0, 0x0, 0x0, 0x0, 0x0, false, 0x0⟩ /- FALL -/]
/-- The offsets of the 64-bit counters of this kind of page (R28). -/
def counters : List Nat := []
end Gpio

namespace Otp
/-- R467: SERIAL_LO.SERIAL. -/
def SERIAL_LO_SERIAL : Fld := ⟨0x100, 0, 32⟩
/-- R467: SERIAL_HI.SERIAL. -/
def SERIAL_HI_SERIAL : Fld := ⟨0x104, 0, 24⟩
/-- R467: PCI_VID.VID. -/
def PCI_VID_VID : Fld := ⟨0x108, 0, 16⟩
/-- R467: LC.STATE. -/
def LC_STATE : Fld := ⟨0x10C, 0, 3⟩
/-- R467: SEC_VERSION.COUNT. -/
def SEC_VERSION_COUNT : Fld := ⟨0x110, 0, 7⟩
/-- R467: KEY_STATUS.ROOT_PRESENT. -/
def KEY_STATUS_ROOT_PRESENT : Fld := ⟨0x114, 0, 4⟩
/-- R467: KEY_STATUS.ROOT_REVOKED. -/
def KEY_STATUS_ROOT_REVOKED : Fld := ⟨0x114, 4, 4⟩
/-- R467: KEY_STATUS.DEBUG_PRESENT. -/
def KEY_STATUS_DEBUG_PRESENT : Fld := ⟨0x114, 8, 1⟩
/-- R467: KEY_STATUS.OWNER_PRESENT. -/
def KEY_STATUS_OWNER_PRESENT : Fld := ⟨0x114, 9, 1⟩
/-- R467: KEY_STATUS.EPOCH. -/
def KEY_STATUS_EPOCH : Fld := ⟨0x114, 16, 6⟩
/-- R467: KEY_SEL.KEY. -/
def KEY_SEL_KEY : Fld := ⟨0x118, 0, 3⟩
/-- R467: KEY_W.KEY, register i of 24. -/
def KEY_W_KEY (i : Nat) : Fld := ⟨0x120 + 4 * i, 0, 32⟩
/-- R467: PROG_ADDR.BIT. -/
def PROG_ADDR_BIT : Fld := ⟨0x180, 0, 13⟩
/-- R467: PROG_CTRL.GO. -/
def PROG_CTRL_GO : Fld := ⟨0x184, 0, 1⟩
/-- R467: PROG_STATUS.BUSY. -/
def PROG_STATUS_BUSY : Fld := ⟨0x188, 0, 1⟩
/-- R467: PROG_STATUS.FAIL. -/
def PROG_STATUS_FAIL : Fld := ⟨0x188, 1, 1⟩
/-- The registers of this kind of page. -/
def specs : List RegSpec := [
  ⟨0x100, 4, 1, 0x0, 0x0, 0x0, 0x0, 0x0, 0xFFFFFFFF, 0x0, false, 0x0⟩ /- SERIAL_LO -/,
  ⟨0x104, 4, 1, 0x0, 0x0, 0x0, 0x0, 0x0, 0xFFFFFF, 0x0, false, 0x0⟩ /- SERIAL_HI -/,
  ⟨0x108, 4, 1, 0x0, 0x0, 0x0, 0x0, 0x0, 0xFFFF, 0x0, false, 0x0⟩ /- PCI_VID -/,
  ⟨0x10C, 4, 1, 0x0, 0x0, 0x0, 0x0, 0x0, 0x7, 0x0, false, 0x0⟩ /- LC -/,
  ⟨0x110, 4, 1, 0x0, 0x0, 0x0, 0x0, 0x0, 0x7F, 0x0, false, 0x0⟩ /- SEC_VERSION -/,
  ⟨0x114, 4, 1, 0x0, 0x0, 0x0, 0x0, 0x0, 0x3F03FF, 0x0, false, 0x0⟩ /- KEY_STATUS -/,
  ⟨0x118, 4, 1, 0x7, 0x0, 0x0, 0x0, 0x0, 0x0, 0x0, false, 0x0⟩ /- KEY_SEL -/,
  ⟨0x120, 4, 24, 0x0, 0x0, 0x0, 0x0, 0x0, 0xFFFFFFFF, 0x0, false, 0x0⟩ /- KEY_W -/,
  ⟨0x180, 4, 1, 0x1FFF, 0x0, 0x0, 0x0, 0x0, 0x0, 0x0, true, 0x0⟩ /- PROG_ADDR -/,
  ⟨0x184, 4, 1, 0x0, 0x0, 0x0, 0x1, 0x0, 0x0, 0x0, true, 0x0⟩ /- PROG_CTRL -/,
  ⟨0x188, 4, 1, 0x0, 0x0, 0x0, 0x0, 0x0, 0x3, 0x0, false, 0x0⟩ /- PROG_STATUS -/]
/-- The offsets of the 64-bit counters of this kind of page (R28). -/
def counters : List Nat := []
end Otp

namespace Trng
/-- R468: HEALTH_CFG.RCT_CUTOFF. -/
def HEALTH_CFG_RCT_CUTOFF : Fld := ⟨0x100, 0, 6⟩
/-- R468: HEALTH_CFG.APT_CUTOFF. -/
def HEALTH_CFG_APT_CUTOFF : Fld := ⟨0x100, 16, 10⟩
/-- R468: STATUS.HEALTHY. -/
def STATUS_HEALTHY : Fld := ⟨0x104, 0, 1⟩
/-- R468: STATUS.RCT_FAIL. -/
def STATUS_RCT_FAIL : Fld := ⟨0x104, 1, 1⟩
/-- R468: STATUS.APT_FAIL. -/
def STATUS_APT_FAIL : Fld := ⟨0x104, 2, 1⟩
/-- R468: the counter RAW_BITS. -/
def CNT_RAW_BITS : Nat := 0x180
/-- R468: the counter SEEDS. -/
def CNT_SEEDS : Nat := 0x188
/-- R468: the counter RCT_FAILS. -/
def CNT_RCT_FAILS : Nat := 0x190
/-- R468: the counter APT_FAILS. -/
def CNT_APT_FAILS : Nat := 0x198
/-- The registers of this kind of page. -/
def specs : List RegSpec := [
  ⟨0x100, 4, 1, 0x3FF003F, 0x0, 0x0, 0x0, 0x0, 0x0, 0x0, true, 0x30D0029⟩ /- HEALTH_CFG -/,
  ⟨0x104, 4, 1, 0x0, 0x6, 0x0, 0x0, 0x0, 0x1, 0x0, false, 0x0⟩ /- STATUS -/]
/-- The offsets of the 64-bit counters of this kind of page (R28). -/
def counters : List Nat := [0x180, 0x188, 0x190, 0x198]
end Trng

namespace Etp
/-- R60: MODE.MODE. -/
def MODE_MODE : Fld := ⟨0x100, 0, 3⟩
/-- R60: MODE.FEC. -/
def MODE_FEC : Fld := ⟨0x100, 4, 1⟩
/-- R60: MODE.ROLE. -/
def MODE_ROLE : Fld := ⟨0x100, 8, 1⟩
/-- R60: SERDES.TX_POL. -/
def SERDES_TX_POL : Fld := ⟨0x104, 0, 1⟩
/-- R60: SERDES.RX_POL. -/
def SERDES_RX_POL : Fld := ⟨0x104, 1, 1⟩
/-- R60: SERDES.LOOP. -/
def SERDES_LOOP : Fld := ⟨0x104, 2, 1⟩
/-- R60: SERDES.TX_PRE. -/
def SERDES_TX_PRE : Fld := ⟨0x104, 8, 4⟩
/-- R60: SERDES.TX_MAIN. -/
def SERDES_TX_MAIN : Fld := ⟨0x104, 16, 6⟩
/-- R60: SERDES.TX_POST. -/
def SERDES_TX_POST : Fld := ⟨0x104, 24, 4⟩
/-- R60: MAX_LEN.LEN. -/
def MAX_LEN_LEN : Fld := ⟨0x108, 0, 14⟩
/-- R60: CT_MAP.MAP. -/
def CT_MAP_MAP : Fld := ⟨0x10C, 0, 32⟩
/-- R60: PHY.ADDR. -/
def PHY_ADDR : Fld := ⟨0x110, 0, 5⟩
/-- R60: PHY.BUS. -/
def PHY_BUS : Fld := ⟨0x110, 8, 1⟩
/-- R60: PHY.CL45. -/
def PHY_CL45 : Fld := ⟨0x110, 9, 1⟩
/-- R60: LINK_CFG.DOWN_HOLD. -/
def LINK_CFG_DOWN_HOLD : Fld := ⟨0x114, 0, 16⟩
/-- R60: LINK_CFG.UP_HOLD. -/
def LINK_CFG_UP_HOLD : Fld := ⟨0x114, 16, 16⟩
/-- R60: LINK_STATUS.LST. -/
def LINK_STATUS_LST : Fld := ⟨0x118, 0, 3⟩
/-- R60: LINK_STATUS.LOCAL_FAULT. -/
def LINK_STATUS_LOCAL_FAULT : Fld := ⟨0x118, 8, 1⟩
/-- R60: LINK_STATUS.REMOTE_FAULT. -/
def LINK_STATUS_REMOTE_FAULT : Fld := ⟨0x118, 9, 1⟩
/-- R60: LINK_STATUS.PCS_LOCK. -/
def LINK_STATUS_PCS_LOCK : Fld := ⟨0x118, 10, 1⟩
/-- R60: LINK_STATUS.FEC_LOCK. -/
def LINK_STATUS_FEC_LOCK : Fld := ⟨0x118, 11, 1⟩
/-- R60: LINK_STATUS.SPEED_MISMATCH. -/
def LINK_STATUS_SPEED_MISMATCH : Fld := ⟨0x118, 12, 1⟩
/-- R60: TC10_REG.ADDR. -/
def TC10_REG_ADDR : Fld := ⟨0x11C, 0, 16⟩
/-- R60: TC10_REG.DEVAD. -/
def TC10_REG_DEVAD : Fld := ⟨0x11C, 16, 5⟩
/-- R60: TC10_REG.SLEEP_BIT. -/
def TC10_REG_SLEEP_BIT : Fld := ⟨0x11C, 24, 4⟩
/-- R60: TC10_REG.WAKE_BIT. -/
def TC10_REG_WAKE_BIT : Fld := ⟨0x11C, 28, 4⟩
/-- R60: TC10_CTRL.SLEEP_REQ. -/
def TC10_CTRL_SLEEP_REQ : Fld := ⟨0x120, 0, 1⟩
/-- R60: TC10_CTRL.WAKE_REQ. -/
def TC10_CTRL_WAKE_REQ : Fld := ⟨0x120, 1, 1⟩
/-- R60: TC10_CTRL.ASLEEP_BIT. -/
def TC10_CTRL_ASLEEP_BIT : Fld := ⟨0x120, 4, 4⟩
/-- R60: TC10_CTRL.TIMEOUT. -/
def TC10_CTRL_TIMEOUT : Fld := ⟨0x120, 16, 16⟩
/-- R60: TC10_STATUS.TST. -/
def TC10_STATUS_TST : Fld := ⟨0x124, 0, 2⟩
/-- R60: TC10_STATUS.REMOTE_WAKE. -/
def TC10_STATUS_REMOTE_WAKE : Fld := ⟨0x124, 8, 1⟩
/-- R60: LOSSLESS.CABLE_M. -/
def LOSSLESS_CABLE_M : Fld := ⟨0x128, 0, 7⟩
/-- R60: LOSSLESS.PHY_NS. -/
def LOSSLESS_PHY_NS : Fld := ⟨0x128, 16, 12⟩
/-- R60: CREDIT_CFG.INTERVAL. -/
def CREDIT_CFG_INTERVAL : Fld := ⟨0x12C, 0, 14⟩
/-- R60: CREDIT_CFG.STALL_LIMIT. -/
def CREDIT_CFG_STALL_LIMIT : Fld := ⟨0x12C, 16, 16⟩
/-- R60: HEADROOM.CELLS. -/
def HEADROOM_CELLS : Fld := ⟨0x130, 0, 12⟩
/-- R60: CREDIT_STATUS.CREDIT6. -/
def CREDIT_STATUS_CREDIT6 : Fld := ⟨0x134, 0, 16⟩
/-- R60: CREDIT_STATUS.CREDIT7. -/
def CREDIT_STATUS_CREDIT7 : Fld := ⟨0x134, 16, 16⟩
/-- R60: MDIO_ADDR.REG. -/
def MDIO_ADDR_REG : Fld := ⟨0x140, 0, 16⟩
/-- R60: MDIO_ADDR.DEVAD. -/
def MDIO_ADDR_DEVAD : Fld := ⟨0x140, 16, 5⟩
/-- R60: MDIO_ADDR.CL45. -/
def MDIO_ADDR_CL45 : Fld := ⟨0x140, 24, 1⟩
/-- R60: MDIO_DATA.DATA. -/
def MDIO_DATA_DATA : Fld := ⟨0x144, 0, 16⟩
/-- R60: MDIO_CMD.OP. -/
def MDIO_CMD_OP : Fld := ⟨0x148, 0, 2⟩
/-- R60: MDIO_CMD.BUSY. -/
def MDIO_CMD_BUSY : Fld := ⟨0x148, 8, 1⟩
/-- R60: MDIO_CMD.ERROR. -/
def MDIO_CMD_ERROR : Fld := ⟨0x148, 9, 1⟩
/-- R61: the counter RX_FRAMES. -/
def CNT_RX_FRAMES : Nat := 0x180
/-- R61: the counter RX_BYTES. -/
def CNT_RX_BYTES : Nat := 0x188
/-- R61: the counter RX_FCS_ERR. -/
def CNT_RX_FCS_ERR : Nat := 0x190
/-- R61: the counter RX_RUNT. -/
def CNT_RX_RUNT : Nat := 0x198
/-- R61: the counter RX_OVERSIZE. -/
def CNT_RX_OVERSIZE : Nat := 0x1A0
/-- R61: the counter RX_MAC_CTRL. -/
def CNT_RX_MAC_CTRL : Nat := 0x1A8
/-- R61: the counter RX_FEC_CORR. -/
def CNT_RX_FEC_CORR : Nat := 0x1B0
/-- R61: the counter RX_FEC_UNCORR. -/
def CNT_RX_FEC_UNCORR : Nat := 0x1B8
/-- R61: the counter TX_FRAMES. -/
def CNT_TX_FRAMES : Nat := 0x1C0
/-- R61: the counter TX_BYTES. -/
def CNT_TX_BYTES : Nat := 0x1C8
/-- R61: the counter TX_CT_FRAMES. -/
def CNT_TX_CT_FRAMES : Nat := 0x1D0
/-- R61: the counter TX_STOMPED. -/
def CNT_TX_STOMPED : Nat := 0x1D8
/-- R61: the counter TX_REFUSED. -/
def CNT_TX_REFUSED : Nat := 0x1E0
/-- R61: the counter LINK_DOWNS. -/
def CNT_LINK_DOWNS : Nat := 0x1E8
/-- R61: the counter CREDIT_STALLS. -/
def CNT_CREDIT_STALLS : Nat := 0x1F0
/-- The registers of this kind of page. -/
def specs : List RegSpec := [
  ⟨0x100, 4, 1, 0x0, 0x0, 0x0, 0x0, 0x0, 0x117, 0x117, false, 0x0⟩ /- MODE -/,
  ⟨0x104, 4, 1, 0xF3F0F07, 0x0, 0x0, 0x0, 0x0, 0x0, 0x0, false, 0x4300200⟩ /- SERDES -/,
  ⟨0x108, 4, 1, 0x0, 0x0, 0x0, 0x0, 0x0, 0x3FFF, 0x3FFF, false, 0x2400⟩ /- MAX_LEN -/,
  ⟨0x10C, 4, 1, 0x0, 0x0, 0x0, 0x0, 0x0, 0xFFFFFFFF, 0xFFFFFFFF, false, 0x0⟩ /- CT_MAP -/,
  ⟨0x110, 4, 1, 0x31F, 0x0, 0x0, 0x0, 0x0, 0x0, 0x0, false, 0x200⟩ /- PHY -/,
  ⟨0x114, 4, 1, 0xFFFFFFFF, 0x0, 0x0, 0x0, 0x0, 0x0, 0x0, false, 0x0⟩ /- LINK_CFG -/,
  ⟨0x118, 4, 1, 0x0, 0x0, 0x0, 0x0, 0x0, 0x1F07, 0x0, false, 0x0⟩ /- LINK_STATUS -/,
  ⟨0x11C, 4, 1, 0xFF1FFFFF, 0x0, 0x0, 0x0, 0x0, 0x0, 0x0, false, 0x0⟩ /- TC10_REG -/,
  ⟨0x120, 4, 1, 0xFFFF00F0, 0x0, 0x3, 0x0, 0x0, 0x0, 0x0, false, 0x140000⟩ /- TC10_CTRL -/,
  ⟨0x124, 4, 1, 0x0, 0x100, 0x0, 0x0, 0x0, 0x3, 0x0, false, 0x0⟩ /- TC10_STATUS -/,
  ⟨0x128, 4, 1, 0x0, 0x0, 0x0, 0x0, 0x0, 0xFFF007F, 0xFFF007F, false, 0x0⟩ /- LOSSLESS -/,
  ⟨0x12C, 4, 1, 0x0, 0x0, 0x0, 0x0, 0x0, 0xFFFF3FFF, 0xFFFF3FFF, false, 0x6401F4⟩ /- CREDIT_CFG -/,
  ⟨0x130, 4, 1, 0x0, 0x0, 0x0, 0x0, 0x0, 0xFFF, 0x0, false, 0x0⟩ /- HEADROOM -/,
  ⟨0x134, 4, 1, 0x0, 0x0, 0x0, 0x0, 0x0, 0xFFFFFFFF, 0x0, false, 0x0⟩ /- CREDIT_STATUS -/,
  ⟨0x140, 4, 1, 0x11FFFFF, 0x0, 0x0, 0x0, 0x0, 0x0, 0x0, false, 0x0⟩ /- MDIO_ADDR -/,
  ⟨0x144, 4, 1, 0xFFFF, 0x0, 0x0, 0x0, 0x0, 0x0, 0x0, false, 0x0⟩ /- MDIO_DATA -/,
  ⟨0x148, 4, 1, 0x0, 0x0, 0x0, 0x3, 0x0, 0x300, 0x0, false, 0x0⟩ /- MDIO_CMD -/]
/-- The offsets of the 64-bit counters of this kind of page (R28). -/
def counters : List Nat := [0x180, 0x188, 0x190, 0x198, 0x1A0, 0x1A8, 0x1B0, 0x1B8, 0x1C0, 0x1C8, 0x1D0, 0x1D8, 0x1E0, 0x1E8, 0x1F0]
end Etp

namespace Prs
/-- R83: TPID_CFG.TPID_X. -/
def TPID_CFG_TPID_X : Fld := ⟨0x100, 0, 16⟩
/-- R83: TPID_CFG.X_EN. -/
def TPID_CFG_X_EN : Fld := ⟨0x100, 16, 1⟩
/-- R83: TPID_CFG.S_EN. -/
def TPID_CFG_S_EN : Fld := ⟨0x100, 17, 1⟩
/-- R83: BAROST_CFG.ETYPE. -/
def BAROST_CFG_ETYPE : Fld := ⟨0x104, 0, 16⟩
/-- R83: RTAG_CFG.ETYPE. -/
def RTAG_CFG_ETYPE : Fld := ⟨0x108, 0, 16⟩
/-- R83: LEN_ACTION.SHORT_ACT. -/
def LEN_ACTION_SHORT_ACT : Fld := ⟨0x10C, 0, 1⟩
/-- R83: LEN_ACTION.BAD_ACT. -/
def LEN_ACTION_BAD_ACT : Fld := ⟨0x10C, 1, 1⟩
/-- R83: USER_ETYPE.ETYPE, register i of 4. -/
def USER_ETYPE_ETYPE (i : Nat) : Fld := ⟨0x110 + 4 * i, 0, 16⟩
/-- R83: USER_ETYPE.OFF, register i of 4. -/
def USER_ETYPE_OFF (i : Nat) : Fld := ⟨0x110 + 4 * i, 16, 8⟩
/-- R83: USER_ETYPE.EN, register i of 4. -/
def USER_ETYPE_EN (i : Nat) : Fld := ⟨0x110 + 4 * i, 31, 1⟩
/-- R83: RECIRC_CNT0.COUNT. -/
def RECIRC_CNT0_COUNT : Fld := ⟨0x140, 0, 18⟩
/-- R83: RECIRC_CNT1.COUNT. -/
def RECIRC_CNT1_COUNT : Fld := ⟨0x144, 0, 18⟩
/-- R83: LAST_DROP.PORT. -/
def LAST_DROP_PORT : Fld := ⟨0x148, 0, 6⟩
/-- R83: LAST_DROP.PASS. -/
def LAST_DROP_PASS : Fld := ⟨0x148, 6, 1⟩
/-- R83: LAST_DROP.PROFILE. -/
def LAST_DROP_PROFILE : Fld := ⟨0x148, 8, 5⟩
/-- R83: LAST_DROP.FLAGS. -/
def LAST_DROP_FLAGS : Fld := ⟨0x148, 16, 16⟩
/-- R85: the counter WINDOWS_FIRST. -/
def CNT_WINDOWS_FIRST : Nat := 0x180
/-- R85: the counter WINDOWS_SECOND. -/
def CNT_WINDOWS_SECOND : Nat := 0x188
/-- R85: the counter UNPARSED. -/
def CNT_UNPARSED : Nat := 0x190
/-- R85: the counter LEN_SHORT. -/
def CNT_LEN_SHORT : Nat := 0x198
/-- R85: the counter LEN_LONG. -/
def CNT_LEN_LONG : Nat := 0x1A0
/-- R85: the counter ACF_LEN. -/
def CNT_ACF_LEN : Nat := 0x1A8
/-- R85: the counter IP_BAD. -/
def CNT_IP_BAD : Nat := 0x1B0
/-- R85: the counter PARSE_DROPS. -/
def CNT_PARSE_DROPS : Nat := 0x1B8
/-- R85: the counter RECIRC_LOOP. -/
def CNT_RECIRC_LOOP : Nat := 0x1C0
/-- R85: the counter RECIRC_EXPIRED. -/
def CNT_RECIRC_EXPIRED : Nat := 0x1C8
/-- R85: the counter INPUT_REFUSED. -/
def CNT_INPUT_REFUSED : Nat := 0x1D0
/-- The registers of this kind of page. -/
def specs : List RegSpec := [
  ⟨0x100, 4, 1, 0x0, 0x0, 0x0, 0x0, 0x0, 0x3FFFF, 0x3FFFF, false, 0x29100⟩ /- TPID_CFG -/,
  ⟨0x104, 4, 1, 0x0, 0x0, 0x0, 0x0, 0x0, 0xFFFF, 0xFFFF, false, 0x88B5⟩ /- BAROST_CFG -/,
  ⟨0x108, 4, 1, 0x0, 0x0, 0x0, 0x0, 0x0, 0xFFFF, 0xFFFF, false, 0xF1C1⟩ /- RTAG_CFG -/,
  ⟨0x10C, 4, 1, 0x0, 0x0, 0x0, 0x0, 0x0, 0x3, 0x3, false, 0x0⟩ /- LEN_ACTION -/,
  ⟨0x110, 4, 4, 0x0, 0x0, 0x0, 0x0, 0x0, 0x80FFFFFF, 0x80FFFFFF, false, 0x0⟩ /- USER_ETYPE -/,
  ⟨0x140, 4, 1, 0x0, 0x0, 0x0, 0x0, 0x0, 0x3FFFF, 0x0, false, 0x0⟩ /- RECIRC_CNT0 -/,
  ⟨0x144, 4, 1, 0x0, 0x0, 0x0, 0x0, 0x0, 0x3FFFF, 0x0, false, 0x0⟩ /- RECIRC_CNT1 -/,
  ⟨0x148, 4, 1, 0x0, 0x0, 0x0, 0x0, 0x0, 0xFFFF1F7F, 0x0, false, 0x0⟩ /- LAST_DROP -/]
/-- The offsets of the 64-bit counters of this kind of page (R28). -/
def counters : List Nat := [0x180, 0x188, 0x190, 0x198, 0x1A0, 0x1A8, 0x1B0, 0x1B8, 0x1C0, 0x1C8, 0x1D0]
end Prs

namespace Cls
/-- R117: PORT_CFG.ZONE, register i of 38. -/
def PORT_CFG_ZONE (i : Nat) : Fld := ⟨0x110 + 4 * i, 0, 4⟩
/-- R117: PORT_CFG.PVID, register i of 38. -/
def PORT_CFG_PVID (i : Nat) : Fld := ⟨0x110 + 4 * i, 4, 12⟩
/-- R117: PORT_CFG.DEF_TC, register i of 38. -/
def PORT_CFG_DEF_TC (i : Nat) : Fld := ⟨0x110 + 4 * i, 16, 3⟩
/-- R117: PORT_CFG.TRUST_PCP, register i of 38. -/
def PORT_CFG_TRUST_PCP (i : Nat) : Fld := ⟨0x110 + 4 * i, 19, 1⟩
/-- R117: PORT_CFG.HAIRPIN, register i of 38. -/
def PORT_CFG_HAIRPIN (i : Nat) : Fld := ⟨0x110 + 4 * i, 20, 1⟩
/-- R117: ZONE_CFG.DEFAULT, register i of 16. -/
def ZONE_CFG_DEFAULT (i : Nat) : Fld := ⟨0x1B0 + 4 * i, 0, 1⟩
/-- R117: HASH_SEL.SEL, register i of 32. -/
def HASH_SEL_SEL (i : Nat) : Fld := ⟨0x200 + 4 * i, 0, 32⟩
/-- R117: HASH_SEED.SEED, register i of 8. -/
def HASH_SEED_SEED (i : Nat) : Fld := ⟨0x280 + 4 * i, 0, 32⟩
/-- R117: WALK_ERR_ACT_LO.ACT. -/
def WALK_ERR_ACT_LO_ACT : Fld := ⟨0x2A0, 0, 32⟩
/-- R117: WALK_ERR_ACT_HI.ACT. -/
def WALK_ERR_ACT_HI_ACT : Fld := ⟨0x2A4, 0, 32⟩
/-- R117: HOST_SPREAD.TABLE. -/
def HOST_SPREAD_TABLE : Fld := ⟨0x2A8, 0, 4⟩
/-- R117: HOST_SPREAD.PROFILE. -/
def HOST_SPREAD_PROFILE : Fld := ⟨0x2A8, 4, 3⟩
/-- R117: BANK_STATUS.ACTIVE. -/
def BANK_STATUS_ACTIVE : Fld := ⟨0x2C0, 0, 1⟩
/-- R117: BANK_STATUS.CLONE_BUSY. -/
def BANK_STATUS_CLONE_BUSY : Fld := ⟨0x2C0, 1, 1⟩
/-- R117: LAST_WALK_ERR.BANK. -/
def LAST_WALK_ERR_BANK : Fld := ⟨0x2C8, 0, 1⟩
/-- R117: LAST_WALK_ERR.TREE. -/
def LAST_WALK_ERR_TREE : Fld := ⟨0x2C8, 1, 2⟩
/-- R117: LAST_WALK_ERR.ZONE. -/
def LAST_WALK_ERR_ZONE : Fld := ⟨0x2C8, 3, 4⟩
/-- R117: LAST_WALK_ERR.WORD. -/
def LAST_WALK_ERR_WORD : Fld := ⟨0x2C8, 8, 19⟩
/-- R117: LAST_WALK_ERR.CAUSE. -/
def LAST_WALK_ERR_CAUSE : Fld := ⟨0x2C8, 28, 3⟩
/-- R117: RULE_SEL.RULE. -/
def RULE_SEL_RULE : Fld := ⟨0x2CC, 0, 16⟩
/-- R117: RULE_FRAMES.COUNT, register i of 2. -/
def RULE_FRAMES_COUNT (i : Nat) : Fld := ⟨0x2D0 + 4 * i, 0, 32⟩
/-- R117: RULE_BYTES.COUNT, register i of 2. -/
def RULE_BYTES_COUNT (i : Nat) : Fld := ⟨0x2D8 + 4 * i, 0, 32⟩
/-- R118: the counter KEYS. -/
def CNT_KEYS : Nat := 0x300
/-- R118: the counter DROP_RULE. -/
def CNT_DROP_RULE : Nat := 0x308
/-- R118: the counter DROP_DEFAULT. -/
def CNT_DROP_DEFAULT : Nat := 0x310
/-- R118: the counter EFW_PRUNED. -/
def CNT_EFW_PRUNED : Nat := 0x318
/-- R118: the counter WALK_ERR. -/
def CNT_WALK_ERR : Nat := 0x320
/-- R118: the counter CTX_INVALID. -/
def CNT_CTX_INVALID : Nat := 0x328
/-- R118: the counter SPREAD_INVALID. -/
def CNT_SPREAD_INVALID : Nat := 0x330
/-- R118: the counter HAIRPIN_REMOVED. -/
def CNT_HAIRPIN_REMOVED : Nat := 0x338
/-- R118: the counter NO_DEST. -/
def CNT_NO_DEST : Nat := 0x340
/-- R118: the counter ECC_CORR. -/
def CNT_ECC_CORR : Nat := 0x348
/-- R118: the counter SWAPS. -/
def CNT_SWAPS : Nat := 0x350
/-- The registers of this kind of page. -/
def specs : List RegSpec := [
  ⟨0x110, 4, 38, 0x0, 0x0, 0x0, 0x0, 0x0, 0x1FFFFF, 0x1FFFFF, false, 0x80010⟩ /- PORT_CFG -/,
  ⟨0x1B0, 4, 16, 0x0, 0x0, 0x0, 0x0, 0x0, 0x1, 0x1, false, 0x0⟩ /- ZONE_CFG -/,
  ⟨0x200, 4, 32, 0x0, 0x0, 0x0, 0x0, 0x0, 0xFFFFFFFF, 0xFFFFFFFF, false, 0x0⟩ /- HASH_SEL -/,
  ⟨0x280, 4, 8, 0x0, 0x0, 0x0, 0x0, 0x0, 0xFFFFFFFF, 0xFFFFFFFF, false, 0xFFFFFFFF⟩ /- HASH_SEED -/,
  ⟨0x2A0, 4, 1, 0x0, 0x0, 0x0, 0x0, 0x0, 0xFFFFFFFF, 0xFFFFFFFF, false, 0x2⟩ /- WALK_ERR_ACT_LO -/,
  ⟨0x2A4, 4, 1, 0x0, 0x0, 0x0, 0x0, 0x0, 0xFFFFFFFF, 0xFFFFFFFF, false, 0x0⟩ /- WALK_ERR_ACT_HI -/,
  ⟨0x2A8, 4, 1, 0x0, 0x0, 0x0, 0x0, 0x0, 0x7F, 0x7F, false, 0x0⟩ /- HOST_SPREAD -/,
  ⟨0x2C0, 4, 1, 0x0, 0x0, 0x0, 0x0, 0x0, 0x3, 0x0, false, 0x0⟩ /- BANK_STATUS -/,
  ⟨0x2C8, 4, 1, 0x0, 0x0, 0x0, 0x0, 0x0, 0x77FFFF7F, 0x0, false, 0x0⟩ /- LAST_WALK_ERR -/,
  ⟨0x2CC, 4, 1, 0xFFFF, 0x0, 0x0, 0x0, 0x0, 0x0, 0x0, false, 0x0⟩ /- RULE_SEL -/,
  ⟨0x2D0, 4, 2, 0x0, 0x0, 0x0, 0x0, 0x0, 0xFFFFFFFF, 0x0, false, 0x0⟩ /- RULE_FRAMES -/,
  ⟨0x2D8, 4, 2, 0x0, 0x0, 0x0, 0x0, 0x0, 0xFFFFFFFF, 0x0, false, 0x0⟩ /- RULE_BYTES -/]
/-- The offsets of the 64-bit counters of this kind of page (R28). -/
def counters : List Nat := [0x300, 0x308, 0x310, 0x318, 0x320, 0x328, 0x330, 0x338, 0x340, 0x348, 0x350]
end Cls

namespace Fib
/-- R120: STAGE_CLR.CLR. -/
def STAGE_CLR_CLR : Fld := ⟨0x100, 0, 1⟩
/-- R120: the counter LOOKUPS. -/
def CNT_LOOKUPS : Nat := 0x180
/-- R120: the counter HITS. -/
def CNT_HITS : Nat := 0x188
/-- R120: the counter MISS_FLOOD. -/
def CNT_MISS_FLOOD : Nat := 0x190
/-- R120: the counter MISS_DROP. -/
def CNT_MISS_DROP : Nat := 0x198
/-- R120: the counter VID_INVALID. -/
def CNT_VID_INVALID : Nat := 0x1A0
/-- R120: the counter VLAN_INGRESS_DROP. -/
def CNT_VLAN_INGRESS_DROP : Nat := 0x1A8
/-- R120: the counter ECC_CORR. -/
def CNT_ECC_CORR : Nat := 0x1B0
/-- The registers of this kind of page. -/
def specs : List RegSpec := [
  ⟨0x100, 4, 1, 0x0, 0x0, 0x0, 0x1, 0x0, 0x0, 0x0, false, 0x0⟩ /- STAGE_CLR -/]
/-- The offsets of the 64-bit counters of this kind of page (R28). -/
def counters : List Nat := [0x180, 0x188, 0x190, 0x198, 0x1A0, 0x1A8, 0x1B0]
end Fib

namespace Buf
/-- R144: POOL_SIZE.SHARED_SIZE. -/
def POOL_SIZE_SHARED_SIZE : Fld := ⟨0x100, 0, 18⟩
/-- R144: POOL_FREE.CELLS. -/
def POOL_FREE_CELLS : Fld := ⟨0x104, 0, 18⟩
/-- R144: POOL_SHARED.S. -/
def POOL_SHARED_S : Fld := ⟨0x108, 0, 18⟩
/-- R144: DESC_FREE.COUNT. -/
def DESC_FREE_COUNT : Fld := ⟨0x10C, 0, 19⟩
/-- R144: POOL_LOW.TH. -/
def POOL_LOW_TH : Fld := ⟨0x110, 0, 18⟩
/-- R144: QTAB_ADDR.QUEUE. -/
def QTAB_ADDR_QUEUE : Fld := ⟨0x120, 0, 12⟩
/-- R144: QTAB_DATA.ENTRY. -/
def QTAB_DATA_ENTRY : Fld := ⟨0x124, 0, 32⟩
/-- R144: QSTAT_SEL.QUEUE. -/
def QSTAT_SEL_QUEUE : Fld := ⟨0x128, 0, 12⟩
/-- R144: QSTAT_OCC.U. -/
def QSTAT_OCC_U : Fld := ⟨0x12C, 0, 18⟩
/-- R144: QSTAT_PEAK.U. -/
def QSTAT_PEAK_U : Fld := ⟨0x130, 0, 18⟩
/-- R144: QSTAT_COUNT.COUNT, register i of 8. -/
def QSTAT_COUNT_COUNT (i : Nat) : Fld := ⟨0x138 + 4 * i, 0, 32⟩
/-- R144: PSTAT_SEL.PORT. -/
def PSTAT_SEL_PORT : Fld := ⟨0x160, 0, 6⟩
/-- R144: PSTAT_HR.HR6. -/
def PSTAT_HR_HR6 : Fld := ⟨0x164, 0, 12⟩
/-- R144: PSTAT_HR.HR7. -/
def PSTAT_HR_HR7 : Fld := ⟨0x164, 16, 12⟩
/-- R144: PSTAT_COUNT.COUNT, register i of 6. -/
def PSTAT_COUNT_COUNT (i : Nat) : Fld := ⟨0x168 + 4 * i, 0, 32⟩
/-- R144: MIR_CFG.EN, register i of 4. -/
def MIR_CFG_EN (i : Nat) : Fld := ⟨0x300 + 16 * i, 0, 1⟩
/-- R144: MIR_CFG.ALLOW_PROT, register i of 4. -/
def MIR_CFG_ALLOW_PROT (i : Nat) : Fld := ⟨0x300 + 16 * i, 1, 1⟩
/-- R144: MIR_CFG.DEST, register i of 4. -/
def MIR_CFG_DEST (i : Nat) : Fld := ⟨0x300 + 16 * i, 8, 6⟩
/-- R144: MIR_CFG.QUEUE, register i of 4. -/
def MIR_CFG_QUEUE (i : Nat) : Fld := ⟨0x300 + 16 * i, 16, 12⟩
/-- R144: MIR_EG_LO.EG_SRC, register i of 4. -/
def MIR_EG_LO_EG_SRC (i : Nat) : Fld := ⟨0x304 + 16 * i, 0, 32⟩
/-- R144: MIR_EG_HI.EG_SRC, register i of 4. -/
def MIR_EG_HI_EG_SRC (i : Nat) : Fld := ⟨0x308 + 16 * i, 0, 6⟩
/-- R144: LOUPE_CFG.N_M1. -/
def LOUPE_CFG_N_M1 : Fld := ⟨0x340, 0, 24⟩
/-- R144: LOUPE_CFG.MODE. -/
def LOUPE_CFG_MODE : Fld := ⟨0x340, 24, 1⟩
/-- R144: LOUPE_CFG.EN. -/
def LOUPE_CFG_EN : Fld := ⟨0x340, 31, 1⟩
/-- R144: LOUPE_DEST.DEST. -/
def LOUPE_DEST_DEST : Fld := ⟨0x344, 0, 6⟩
/-- R144: LOUPE_DEST.QUEUE. -/
def LOUPE_DEST_QUEUE : Fld := ⟨0x344, 16, 12⟩
/-- R144: LOUPE_STATUS.COUNT. -/
def LOUPE_STATUS_COUNT : Fld := ⟨0x348, 0, 25⟩
/-- R144: DPROF_LO.MIN, register i of 96. -/
def DPROF_LO_MIN (i : Nat) : Fld := ⟨0x400 + 8 * i, 0, 17⟩
/-- R144: DPROF_LO.EN, register i of 96. -/
def DPROF_LO_EN (i : Nat) : Fld := ⟨0x400 + 8 * i, 31, 1⟩
/-- R144: DPROF_HI.MAX, register i of 96. -/
def DPROF_HI_MAX (i : Nat) : Fld := ⟨0x404 + 8 * i, 0, 17⟩
/-- R144: DPROF_HI.MAXP, register i of 96. -/
def DPROF_HI_MAXP (i : Nat) : Fld := ⟨0x404 + 8 * i, 24, 8⟩
/-- R146: the counter ENQ_COPIES. -/
def CNT_ENQ_COPIES : Nat := 0x200
/-- R146: the counter TAIL_DROPS. -/
def CNT_TAIL_DROPS : Nat := 0x208
/-- R146: the counter RED_DROPS. -/
def CNT_RED_DROPS : Nat := 0x210
/-- R146: the counter ECN_MARKS. -/
def CNT_ECN_MARKS : Nat := 0x218
/-- R146: the counter HEADROOM_ADMITS. -/
def CNT_HEADROOM_ADMITS : Nat := 0x220
/-- R146: the counter DESC_EXHAUSTED. -/
def CNT_DESC_EXHAUSTED : Nat := 0x228
/-- R146: the counter SAMPLE_OFFERED. -/
def CNT_SAMPLE_OFFERED : Nat := 0x230
/-- R146: the counter SAMPLE_TAKEN. -/
def CNT_SAMPLE_TAKEN : Nat := 0x238
/-- R146: the counter SAMPLE_DROPS. -/
def CNT_SAMPLE_DROPS : Nat := 0x240
/-- R146: the counter MIR_OFF. -/
def CNT_MIR_OFF : Nat := 0x248
/-- R146: the counter MIR_PROT_BLOCKED. -/
def CNT_MIR_PROT_BLOCKED : Nat := 0x250
/-- R146: the counter ECC_CORR. -/
def CNT_ECC_CORR : Nat := 0x258
/-- R146: the counter ECC_UNCORR. -/
def CNT_ECC_UNCORR : Nat := 0x260
/-- R146: the counter LINK_REPAIR. -/
def CNT_LINK_REPAIR : Nat := 0x268
/-- R146: the counter SCRUB_FRAMES. -/
def CNT_SCRUB_FRAMES : Nat := 0x270
/-- R146: the counter INPUT_REFUSED. -/
def CNT_INPUT_REFUSED : Nat := 0x278
/-- R146: the counter MIR_COPIES, number i of 4. -/
def CNT_MIR_COPIES (i : Nat) : Nat := 0x380 + 16 * i
/-- R146: the counter MIR_DROPS, number i of 4. -/
def CNT_MIR_DROPS (i : Nat) : Nat := 0x388 + 16 * i
/-- The registers of this kind of page. -/
def specs : List RegSpec := [
  ⟨0x100, 4, 1, 0x0, 0x0, 0x0, 0x0, 0x0, 0x3FFFF, 0x0, false, 0x1FDA0⟩ /- POOL_SIZE -/,
  ⟨0x104, 4, 1, 0x0, 0x0, 0x0, 0x0, 0x0, 0x3FFFF, 0x0, false, 0x20000⟩ /- POOL_FREE -/,
  ⟨0x108, 4, 1, 0x0, 0x0, 0x0, 0x0, 0x0, 0x3FFFF, 0x0, false, 0x0⟩ /- POOL_SHARED -/,
  ⟨0x10C, 4, 1, 0x0, 0x0, 0x0, 0x0, 0x0, 0x7FFFF, 0x0, false, 0x40000⟩ /- DESC_FREE -/,
  ⟨0x110, 4, 1, 0x3FFFF, 0x0, 0x0, 0x0, 0x0, 0x0, 0x0, false, 0x2000⟩ /- POOL_LOW -/,
  ⟨0x120, 4, 1, 0xFFF, 0x0, 0x0, 0x0, 0x0, 0x0, 0x0, false, 0x0⟩ /- QTAB_ADDR -/,
  ⟨0x124, 4, 1, 0x0, 0x0, 0x0, 0x0, 0x0, 0xFFFFFFFF, 0xFFFFFFFF, false, 0x8⟩ /- QTAB_DATA -/,
  ⟨0x128, 4, 1, 0xFFF, 0x0, 0x0, 0x0, 0x0, 0x0, 0x0, false, 0x0⟩ /- QSTAT_SEL -/,
  ⟨0x12C, 4, 1, 0x0, 0x0, 0x0, 0x0, 0x0, 0x3FFFF, 0x0, false, 0x0⟩ /- QSTAT_OCC -/,
  ⟨0x130, 4, 1, 0x0, 0x0, 0x0, 0x0, 0x3FFFF, 0x0, 0x0, false, 0x0⟩ /- QSTAT_PEAK -/,
  ⟨0x138, 4, 8, 0x0, 0x0, 0x0, 0x0, 0x0, 0xFFFFFFFF, 0x0, false, 0x0⟩ /- QSTAT_COUNT -/,
  ⟨0x160, 4, 1, 0x3F, 0x0, 0x0, 0x0, 0x0, 0x0, 0x0, false, 0x0⟩ /- PSTAT_SEL -/,
  ⟨0x164, 4, 1, 0x0, 0x0, 0x0, 0x0, 0x0, 0xFFF0FFF, 0x0, false, 0x0⟩ /- PSTAT_HR -/,
  ⟨0x168, 4, 6, 0x0, 0x0, 0x0, 0x0, 0x0, 0xFFFFFFFF, 0x0, false, 0x0⟩ /- PSTAT_COUNT -/,
  ⟨0x300, 16, 4, 0x0, 0x0, 0x0, 0x0, 0x0, 0xFFF3F03, 0xFFF3F03, false, 0x0⟩ /- MIR_CFG -/,
  ⟨0x304, 16, 4, 0x0, 0x0, 0x0, 0x0, 0x0, 0xFFFFFFFF, 0xFFFFFFFF, false, 0x0⟩ /- MIR_EG_LO -/,
  ⟨0x308, 16, 4, 0x0, 0x0, 0x0, 0x0, 0x0, 0x3F, 0x3F, false, 0x0⟩ /- MIR_EG_HI -/,
  ⟨0x340, 4, 1, 0x0, 0x0, 0x0, 0x0, 0x0, 0x81FFFFFF, 0x81FFFFFF, false, 0x0⟩ /- LOUPE_CFG -/,
  ⟨0x344, 4, 1, 0x0, 0x0, 0x0, 0x0, 0x0, 0xFFF003F, 0xFFF003F, false, 0x0⟩ /- LOUPE_DEST -/,
  ⟨0x348, 4, 1, 0x0, 0x0, 0x0, 0x0, 0x0, 0x1FFFFFF, 0x0, false, 0x0⟩ /- LOUPE_STATUS -/,
  ⟨0x400, 8, 96, 0x0, 0x0, 0x0, 0x0, 0x0, 0x8001FFFF, 0x8001FFFF, false, 0x0⟩ /- DPROF_LO -/,
  ⟨0x404, 8, 96, 0x0, 0x0, 0x0, 0x0, 0x0, 0xFF01FFFF, 0xFF01FFFF, false, 0x0⟩ /- DPROF_HI -/]
/-- The offsets of the 64-bit counters of this kind of page (R28). -/
def counters : List Nat := [0x200, 0x208, 0x210, 0x218, 0x220, 0x228, 0x230, 0x238, 0x240, 0x248, 0x250, 0x258, 0x260, 0x268, 0x270, 0x278] ++
  (List.range 4).map (fun i => 0x380 + 16 * i) ++ (List.range 4).map (fun i => 0x388 + 16 * i)
end Buf

namespace Qsch
/-- R172: TAB_ADDR.WORD. -/
def TAB_ADDR_WORD : Fld := ⟨0x100, 0, 3⟩
/-- R172: TAB_ADDR.ENTRY. -/
def TAB_ADDR_ENTRY : Fld := ⟨0x100, 4, 12⟩
/-- R172: TAB_ADDR.TABLE. -/
def TAB_ADDR_TABLE : Fld := ⟨0x100, 16, 4⟩
/-- R172: TAB_ADDR.AUTO. -/
def TAB_ADDR_AUTO : Fld := ⟨0x100, 31, 1⟩
/-- R172: TAB_DATA.DATA. -/
def TAB_DATA_DATA : Fld := ⟨0x104, 0, 32⟩
/-- R172: METER_CLR.METER. -/
def METER_CLR_METER : Fld := ⟨0x108, 0, 11⟩
/-- R172: METER_CLR.GO. -/
def METER_CLR_GO : Fld := ⟨0x108, 31, 1⟩
/-- R172: LOCAL_NS_LO.NS. -/
def LOCAL_NS_LO_NS : Fld := ⟨0x110, 0, 32⟩
/-- R172: LOCAL_NS_HI.NS. -/
def LOCAL_NS_HI_NS : Fld := ⟨0x114, 0, 32⟩
/-- R177: the counter SDU_DROPS. -/
def CNT_SDU_DROPS : Nat := 0x180
/-- R177: the counter METER_DROPS. -/
def CNT_METER_DROPS : Nat := 0x188
/-- R177: the counter ECC_REPAIR. -/
def CNT_ECC_REPAIR : Nat := 0x190
/-- R177: the counter SELECTIONS. -/
def CNT_SELECTIONS : Nat := 0x198
/-- The registers of this kind of page. -/
def specs : List RegSpec := [
  ⟨0x100, 4, 1, 0x800FFFF7, 0x0, 0x0, 0x0, 0x0, 0x0, 0x0, false, 0x0⟩ /- TAB_ADDR -/,
  ⟨0x104, 4, 1, 0x0, 0x0, 0x0, 0x0, 0x0, 0xFFFFFFFF, 0xFFFFFFFF, false, 0x0⟩ /- TAB_DATA -/,
  ⟨0x108, 4, 1, 0x0, 0x0, 0x0, 0x800007FF, 0x0, 0x0, 0x0, false, 0x0⟩ /- METER_CLR -/,
  ⟨0x110, 4, 1, 0x0, 0x0, 0x0, 0x0, 0x0, 0xFFFFFFFF, 0x0, false, 0x0⟩ /- LOCAL_NS_LO -/,
  ⟨0x114, 4, 1, 0x0, 0x0, 0x0, 0x0, 0x0, 0xFFFFFFFF, 0x0, false, 0x0⟩ /- LOCAL_NS_HI -/]
/-- The offsets of the 64-bit counters of this kind of page (R28). -/
def counters : List Nat := [0x180, 0x188, 0x190, 0x198]
end Qsch

namespace Tgate
/-- R195: GATE_CFG.GATE_EN. -/
def GATE_CFG_GATE_EN : Fld := ⟨0x100, 0, 1⟩
/-- R195: GATE_CFG.GUARD. -/
def GATE_CFG_GUARD : Fld := ⟨0x100, 1, 1⟩
/-- R195: GATE_CFG.DOMAIN. -/
def GATE_CFG_DOMAIN : Fld := ⟨0x100, 4, 2⟩
/-- R195: CYCLE_TIME.NS. -/
def CYCLE_TIME_NS : Fld := ⟨0x104, 0, 32⟩
/-- R195: BASE_NS.NS. -/
def BASE_NS_NS : Fld := ⟨0x108, 0, 30⟩
/-- R195: BASE_S_LO.S. -/
def BASE_S_LO_S : Fld := ⟨0x10C, 0, 32⟩
/-- R195: BASE_S_HI.S. -/
def BASE_S_HI_S : Fld := ⟨0x110, 0, 16⟩
/-- R195: LIST_LEN.LEN. -/
def LIST_LEN_LEN : Fld := ⟨0x114, 0, 11⟩
/-- R195: EXT_NS.NS. -/
def EXT_NS_NS : Fld := ⟨0x118, 0, 32⟩
/-- R195: LIST_STATUS.ACTIVE. -/
def LIST_STATUS_ACTIVE : Fld := ⟨0x11C, 0, 1⟩
/-- R195: LIST_STATUS.CLONE_BUSY. -/
def LIST_STATUS_CLONE_BUSY : Fld := ⟨0x11C, 1, 1⟩
/-- R195: LIST_STATUS.CHANGE_PENDING. -/
def LIST_STATUS_CHANGE_PENDING : Fld := ⟨0x11C, 2, 1⟩
/-- R195: LIST_STATUS.GATES. -/
def LIST_STATUS_GATES : Fld := ⟨0x11C, 8, 8⟩
/-- R195: LIST_STATUS.ENTRY. -/
def LIST_STATUS_ENTRY : Fld := ⟨0x11C, 16, 10⟩
/-- R195: CT_NS.NS. -/
def CT_NS_NS : Fld := ⟨0x120, 0, 30⟩
/-- R195: CT_S_LO.S. -/
def CT_S_LO_S : Fld := ⟨0x124, 0, 32⟩
/-- R195: CT_S_HI.S. -/
def CT_S_HI_S : Fld := ⟨0x128, 0, 16⟩
/-- R195: TIMING.LEAD. -/
def TIMING_LEAD : Fld := ⟨0x12C, 0, 20⟩
/-- R195: GROW.BYTES. -/
def GROW_BYTES : Fld := ⟨0x130, 0, 8⟩
/-- R195: GUARD_TIME.GUARD_NS. -/
def GUARD_TIME_GUARD_NS : Fld := ⟨0x134, 0, 32⟩
/-- R195: MAXWIN_SEL.CLASS. -/
def MAXWIN_SEL_CLASS : Fld := ⟨0x138, 0, 3⟩
/-- R195: MAXWIN.NS. -/
def MAXWIN_NS : Fld := ⟨0x13C, 0, 32⟩
/-- R197: the counter CYCLES. -/
def CNT_CYCLES : Nat := 0x180
/-- R197: the counter CHANGES. -/
def CNT_CHANGES : Nat := 0x188
/-- R197: the counter TRUNCATED. -/
def CNT_TRUNCATED : Nat := 0x190
/-- R197: the counter EXTENDED. -/
def CNT_EXTENDED : Nat := 0x198
/-- R197: the counter GATE_OVERSIZE. -/
def CNT_GATE_OVERSIZE : Nat := 0x1A0
/-- R197: the counter GATE_OVERRUNS. -/
def CNT_GATE_OVERRUNS : Nat := 0x1A8
/-- R197: the counter TIME_STEPS. -/
def CNT_TIME_STEPS : Nat := 0x1B0
/-- R197: the counter LIST_REPAIR. -/
def CNT_LIST_REPAIR : Nat := 0x1B8
/-- The registers of this kind of page. -/
def specs : List RegSpec := [
  ⟨0x100, 4, 1, 0x0, 0x0, 0x0, 0x0, 0x0, 0x33, 0x33, false, 0x0⟩ /- GATE_CFG -/,
  ⟨0x104, 4, 1, 0x0, 0x0, 0x0, 0x0, 0x0, 0xFFFFFFFF, 0xFFFFFFFF, false, 0xF4240⟩ /- CYCLE_TIME -/,
  ⟨0x108, 4, 1, 0x0, 0x0, 0x0, 0x0, 0x0, 0x3FFFFFFF, 0x3FFFFFFF, false, 0x0⟩ /- BASE_NS -/,
  ⟨0x10C, 4, 1, 0x0, 0x0, 0x0, 0x0, 0x0, 0xFFFFFFFF, 0xFFFFFFFF, false, 0x0⟩ /- BASE_S_LO -/,
  ⟨0x110, 4, 1, 0x0, 0x0, 0x0, 0x0, 0x0, 0xFFFF, 0xFFFF, false, 0x0⟩ /- BASE_S_HI -/,
  ⟨0x114, 4, 1, 0x0, 0x0, 0x0, 0x0, 0x0, 0x7FF, 0x7FF, false, 0x1⟩ /- LIST_LEN -/,
  ⟨0x118, 4, 1, 0x0, 0x0, 0x0, 0x0, 0x0, 0xFFFFFFFF, 0xFFFFFFFF, false, 0x0⟩ /- EXT_NS -/,
  ⟨0x11C, 4, 1, 0x0, 0x0, 0x0, 0x0, 0x0, 0x3FFFF07, 0x0, false, 0xFF00⟩ /- LIST_STATUS -/,
  ⟨0x120, 4, 1, 0x0, 0x0, 0x0, 0x0, 0x0, 0x3FFFFFFF, 0x0, false, 0x0⟩ /- CT_NS -/,
  ⟨0x124, 4, 1, 0x0, 0x0, 0x0, 0x0, 0x0, 0xFFFFFFFF, 0x0, false, 0x0⟩ /- CT_S_LO -/,
  ⟨0x128, 4, 1, 0x0, 0x0, 0x0, 0x0, 0x0, 0xFFFF, 0x0, false, 0x0⟩ /- CT_S_HI -/,
  ⟨0x12C, 4, 1, 0x0, 0x0, 0x0, 0x0, 0x0, 0xFFFFF, 0x0, false, 0x0⟩ /- TIMING -/,
  ⟨0x130, 4, 1, 0x0, 0x0, 0x0, 0x0, 0x0, 0xFF, 0x0, false, 0x0⟩ /- GROW -/,
  ⟨0x134, 4, 1, 0x0, 0x0, 0x0, 0x0, 0x0, 0xFFFFFFFF, 0x0, false, 0x0⟩ /- GUARD_TIME -/,
  ⟨0x138, 4, 1, 0x7, 0x0, 0x0, 0x0, 0x0, 0x0, 0x0, false, 0x0⟩ /- MAXWIN_SEL -/,
  ⟨0x13C, 4, 1, 0x0, 0x0, 0x0, 0x0, 0x0, 0xFFFFFFFF, 0x0, false, 0xFFFFFFFF⟩ /- MAXWIN -/]
/-- The offsets of the 64-bit counters of this kind of page (R28). -/
def counters : List Nat := [0x180, 0x188, 0x190, 0x198, 0x1A0, 0x1A8, 0x1B0, 0x1B8]
end Tgate

namespace Asy
/-- R223: TAB_ADDR.WORD. -/
def TAB_ADDR_WORD : Fld := ⟨0x100, 0, 3⟩
/-- R223: TAB_ADDR.ENTRY. -/
def TAB_ADDR_ENTRY : Fld := ⟨0x100, 4, 13⟩
/-- R223: TAB_ADDR.TABLE. -/
def TAB_ADDR_TABLE : Fld := ⟨0x100, 20, 2⟩
/-- R223: TAB_ADDR.AUTO. -/
def TAB_ADDR_AUTO : Fld := ⟨0x100, 31, 1⟩
/-- R223: TAB_DATA.DATA. -/
def TAB_DATA_DATA : Fld := ⟨0x104, 0, 32⟩
/-- R223: HALLMARK_GEN.GEN. -/
def HALLMARK_GEN_GEN : Fld := ⟨0x110, 0, 32⟩
/-- R223: HALLMARK_DIGEST.DIGEST. -/
def HALLMARK_DIGEST_DIGEST : Fld := ⟨0x114, 0, 32⟩
/-- R223: HALLMARK_PATHS.PATHS. -/
def HALLMARK_PATHS_PATHS : Fld := ⟨0x118, 0, 17⟩
/-- R223: HALLMARK_STREAMS.STREAMS. -/
def HALLMARK_STREAMS_STREAMS : Fld := ⟨0x11C, 0, 14⟩
/-- R223: HALLMARK_TIME.NS. -/
def HALLMARK_TIME_NS : Fld := ⟨0x120, 0, 32⟩
/-- R223: REFUSE_DETAIL.DETAIL. -/
def REFUSE_DETAIL_DETAIL : Fld := ⟨0x130, 0, 16⟩
/-- R223: REFUSE_PATH.CTX. -/
def REFUSE_PATH_CTX : Fld := ⟨0x134, 0, 13⟩
/-- R223: REFUSE_PATH.HOP36. -/
def REFUSE_PATH_HOP36 : Fld := ⟨0x134, 13, 1⟩
/-- R223: REFUSE_PATH.IN. -/
def REFUSE_PATH_IN : Fld := ⟨0x134, 16, 6⟩
/-- R223: REFUSE_PATH.OUT. -/
def REFUSE_PATH_OUT : Fld := ⟨0x134, 22, 6⟩
/-- R223: REFUSE_PATH.CLASS. -/
def REFUSE_PATH_CLASS : Fld := ⟨0x134, 28, 3⟩
/-- R223: REFUSE_PATH.VALID. -/
def REFUSE_PATH_VALID : Fld := ⟨0x134, 31, 1⟩
/-- R223: REFUSE_VALUE.VALUE. -/
def REFUSE_VALUE_VALUE : Fld := ⟨0x138, 0, 32⟩
/-- R223: REFUSE_LIMIT.LIMIT. -/
def REFUSE_LIMIT_LIMIT : Fld := ⟨0x13C, 0, 32⟩
/-- R223: REFUSE_WHERE.PAGE. -/
def REFUSE_WHERE_PAGE : Fld := ⟨0x140, 0, 9⟩
/-- R223: REFUSE_WHERE.QUEUE. -/
def REFUSE_WHERE_QUEUE : Fld := ⟨0x140, 16, 12⟩
/-- R223: CHECK_TIME.NS. -/
def CHECK_TIME_NS : Fld := ⟨0x144, 0, 32⟩
/-- R225: the counter PLANS_CHECKED. -/
def CNT_PLANS_CHECKED : Nat := 0x180
/-- R225: the counter PLANS_ACCEPTED. -/
def CNT_PLANS_ACCEPTED : Nat := 0x188
/-- R225: the counter PLANS_REFUSED. -/
def CNT_PLANS_REFUSED : Nat := 0x190
/-- R225: the counter CHECKS_ABANDONED. -/
def CNT_CHECKS_ABANDONED : Nat := 0x198
/-- R225: the counter VERIFIES. -/
def CNT_VERIFIES : Nat := 0x1A0
/-- R225: the counter ECC_CORR. -/
def CNT_ECC_CORR : Nat := 0x1A8
/-- The registers of this kind of page. -/
def specs : List RegSpec := [
  ⟨0x100, 4, 1, 0x8031FFF7, 0x0, 0x0, 0x0, 0x0, 0x0, 0x0, false, 0x0⟩ /- TAB_ADDR -/,
  ⟨0x104, 4, 1, 0x0, 0x0, 0x0, 0x0, 0x0, 0xFFFFFFFF, 0xFFFFFFFF, false, 0x0⟩ /- TAB_DATA -/,
  ⟨0x110, 4, 1, 0x0, 0x0, 0x0, 0x0, 0x0, 0xFFFFFFFF, 0x0, false, 0x0⟩ /- HALLMARK_GEN -/,
  ⟨0x114, 4, 1, 0x0, 0x0, 0x0, 0x0, 0x0, 0xFFFFFFFF, 0x0, false, 0x0⟩ /- HALLMARK_DIGEST -/,
  ⟨0x118, 4, 1, 0x0, 0x0, 0x0, 0x0, 0x0, 0x1FFFF, 0x0, false, 0x0⟩ /- HALLMARK_PATHS -/,
  ⟨0x11C, 4, 1, 0x0, 0x0, 0x0, 0x0, 0x0, 0x3FFF, 0x0, false, 0x0⟩ /- HALLMARK_STREAMS -/,
  ⟨0x120, 4, 1, 0x0, 0x0, 0x0, 0x0, 0x0, 0xFFFFFFFF, 0x0, false, 0x0⟩ /- HALLMARK_TIME -/,
  ⟨0x130, 4, 1, 0x0, 0x0, 0x0, 0x0, 0x0, 0xFFFF, 0x0, false, 0x0⟩ /- REFUSE_DETAIL -/,
  ⟨0x134, 4, 1, 0x0, 0x0, 0x0, 0x0, 0x0, 0xFFFF3FFF, 0x0, false, 0x0⟩ /- REFUSE_PATH -/,
  ⟨0x138, 4, 1, 0x0, 0x0, 0x0, 0x0, 0x0, 0xFFFFFFFF, 0x0, false, 0x0⟩ /- REFUSE_VALUE -/,
  ⟨0x13C, 4, 1, 0x0, 0x0, 0x0, 0x0, 0x0, 0xFFFFFFFF, 0x0, false, 0x0⟩ /- REFUSE_LIMIT -/,
  ⟨0x140, 4, 1, 0x0, 0x0, 0x0, 0x0, 0x0, 0xFFF01FF, 0x0, false, 0x0⟩ /- REFUSE_WHERE -/,
  ⟨0x144, 4, 1, 0x0, 0x0, 0x0, 0x0, 0x0, 0xFFFFFFFF, 0x0, false, 0x0⟩ /- CHECK_TIME -/]
/-- The offsets of the 64-bit counters of this kind of page (R28). -/
def counters : List Nat := [0x180, 0x188, 0x190, 0x198, 0x1A0, 0x1A8]
end Asy

namespace Time
/-- R244: SLEW_CFG.MAX_PPM. -/
def SLEW_CFG_MAX_PPM : Fld := ⟨0x100, 0, 9⟩
/-- R244: SLEW_LIMIT.LIMIT. -/
def SLEW_LIMIT_LIMIT : Fld := ⟨0x104, 0, 22⟩
/-- R244: AVTP_CFG.DOMAIN. -/
def AVTP_CFG_DOMAIN : Fld := ⟨0x108, 0, 2⟩
/-- R244: AVTP_CFG.PT34_EN. -/
def AVTP_CFG_PT34_EN : Fld := ⟨0x108, 8, 1⟩
/-- R244: AVTP_CFG.PT35_EN. -/
def AVTP_CFG_PT35_EN : Fld := ⟨0x108, 9, 1⟩
/-- R244: PT_OFFSET34.NS. -/
def PT_OFFSET34_NS : Fld := ⟨0x10C, 0, 32⟩
/-- R244: PT_OFFSET35.NS. -/
def PT_OFFSET35_NS : Fld := ⟨0x110, 0, 32⟩
/-- R244: TSNAP.GO. -/
def TSNAP_GO : Fld := ⟨0x120, 0, 1⟩
/-- R244: TSNAP_LOCAL_LO.NS. -/
def TSNAP_LOCAL_LO_NS : Fld := ⟨0x124, 0, 32⟩
/-- R244: TSNAP_LOCAL_HI.NS. -/
def TSNAP_LOCAL_HI_NS : Fld := ⟨0x128, 0, 32⟩
/-- R244: TSNAP_D_NS.NS, register i of 4. -/
def TSNAP_D_NS_NS (i : Nat) : Fld := ⟨0x130 + 16 * i, 0, 30⟩
/-- R244: TSNAP_D_S_LO.S, register i of 4. -/
def TSNAP_D_S_LO_S (i : Nat) : Fld := ⟨0x134 + 16 * i, 0, 32⟩
/-- R244: TSNAP_D_S_HI.S, register i of 4. -/
def TSNAP_D_S_HI_S (i : Nat) : Fld := ⟨0x138 + 16 * i, 0, 16⟩
/-- R244: TSNAP_D_S_HI.STEPS, register i of 4. -/
def TSNAP_D_S_HI_STEPS (i : Nat) : Fld := ⟨0x138 + 16 * i, 24, 8⟩
/-- R244: DOM_CFG.NUMBER, register i of 4. -/
def DOM_CFG_NUMBER (i : Nat) : Fld := ⟨0x200 + 32 * i, 0, 8⟩
/-- R244: DOM_CFG.EN, register i of 4. -/
def DOM_CFG_EN (i : Nat) : Fld := ⟨0x200 + 32 * i, 8, 1⟩
/-- R244: DOM_ADJ.ADJ, register i of 4. -/
def DOM_ADJ_ADJ (i : Nat) : Fld := ⟨0x204 + 32 * i, 0, 32⟩
/-- R244: DOM_STEP_NS.NS, register i of 4. -/
def DOM_STEP_NS_NS (i : Nat) : Fld := ⟨0x208 + 32 * i, 0, 32⟩
/-- R244: DOM_SET_NS.NS, register i of 4. -/
def DOM_SET_NS_NS (i : Nat) : Fld := ⟨0x20C + 32 * i, 0, 30⟩
/-- R244: DOM_SET_S_LO.S, register i of 4. -/
def DOM_SET_S_LO_S (i : Nat) : Fld := ⟨0x210 + 32 * i, 0, 32⟩
/-- R244: DOM_SET_S_HI.S, register i of 4. -/
def DOM_SET_S_HI_S (i : Nat) : Fld := ⟨0x214 + 32 * i, 0, 16⟩
/-- R244: DOM_CTRL.STEP, register i of 4. -/
def DOM_CTRL_STEP (i : Nat) : Fld := ⟨0x218 + 32 * i, 0, 1⟩
/-- R244: DOM_CTRL.SET, register i of 4. -/
def DOM_CTRL_SET (i : Nat) : Fld := ⟨0x218 + 32 * i, 1, 1⟩
/-- R244: DOM_CTRL.STEPS, register i of 4. -/
def DOM_CTRL_STEPS (i : Nat) : Fld := ⟨0x218 + 32 * i, 16, 16⟩
/-- R244: INGRESS_ASYM.ASYM, register i of 38. -/
def INGRESS_ASYM_ASYM (i : Nat) : Fld := ⟨0x300 + 16 * i, 0, 32⟩
/-- R244: EGRESS_ASYM.ASYM, register i of 38. -/
def EGRESS_ASYM_ASYM (i : Nat) : Fld := ⟨0x304 + 16 * i, 0, 32⟩
/-- R244: PORT_TS_CFG.RX_SEL, register i of 38. -/
def PORT_TS_CFG_RX_SEL (i : Nat) : Fld := ⟨0x308 + 16 * i, 0, 3⟩
/-- R244: PORT_TS_CFG.TC_EN, register i of 38. -/
def PORT_TS_CFG_TC_EN (i : Nat) : Fld := ⟨0x308 + 16 * i, 8, 1⟩
/-- R244: TXTS_SEL.PORT. -/
def TXTS_SEL_PORT : Fld := ⟨0x600, 0, 6⟩
/-- R244: TXTS_LEVEL.COUNT. -/
def TXTS_LEVEL_COUNT : Fld := ⟨0x604, 0, 6⟩
/-- R244: TXTS_POP.POP. -/
def TXTS_POP_POP : Fld := ⟨0x608, 0, 1⟩
/-- R244: TXTS_W0.TAG. -/
def TXTS_W0_TAG : Fld := ⟨0x610, 0, 8⟩
/-- R244: TXTS_W0.DOMAIN. -/
def TXTS_W0_DOMAIN : Fld := ⟨0x610, 8, 2⟩
/-- R244: TXTS_W0.STEPS. -/
def TXTS_W0_STEPS : Fld := ⟨0x610, 16, 8⟩
/-- R244: TXTS_W0.VALID. -/
def TXTS_W0_VALID : Fld := ⟨0x610, 31, 1⟩
/-- R244: TXTS_W1.LOCAL_LO. -/
def TXTS_W1_LOCAL_LO : Fld := ⟨0x614, 0, 32⟩
/-- R244: TXTS_W2.LOCAL_HI. -/
def TXTS_W2_LOCAL_HI : Fld := ⟨0x618, 0, 32⟩
/-- R244: TXTS_W3.FRAC. -/
def TXTS_W3_FRAC : Fld := ⟨0x61C, 0, 16⟩
/-- R244: TXTS_W3.SEQ. -/
def TXTS_W3_SEQ : Fld := ⟨0x61C, 16, 16⟩
/-- R244: TXTS_W4.NS. -/
def TXTS_W4_NS : Fld := ⟨0x620, 0, 30⟩
/-- R244: TXTS_W5.S_LO. -/
def TXTS_W5_S_LO : Fld := ⟨0x624, 0, 32⟩
/-- R244: TXTS_W6.S_HI. -/
def TXTS_W6_S_HI : Fld := ⟨0x628, 0, 16⟩
/-- R245: the counter ADJ_CLAMPED. -/
def CNT_ADJ_CLAMPED : Nat := 0x180
/-- R245: the counter STEPS. -/
def CNT_STEPS : Nat := 0x188
/-- R245: the counter INSERTS. -/
def CNT_INSERTS : Nat := 0x190
/-- R245: the counter TC_UPDATES. -/
def CNT_TC_UPDATES : Nat := 0x198
/-- R245: the counter TC_NO_DOMAIN. -/
def CNT_TC_NO_DOMAIN : Nat := 0x1A0
/-- R245: the counter INSERT_BAD. -/
def CNT_INSERT_BAD : Nat := 0x1A8
/-- R245: the counter INSERT_PROT. -/
def CNT_INSERT_PROT : Nat := 0x1B0
/-- R245: the counter CORR_SATURATED. -/
def CNT_CORR_SATURATED : Nat := 0x1B8
/-- R245: the counter TXTS_LOST. -/
def CNT_TXTS_LOST : Nat := 0x1C0
/-- R245: the counter PT_INSERTS. -/
def CNT_PT_INSERTS : Nat := 0x1C8
/-- The registers of this kind of page. -/
def specs : List RegSpec := [
  ⟨0x100, 4, 1, 0x1FF, 0x0, 0x0, 0x0, 0x0, 0x0, 0x0, true, 0x64⟩ /- SLEW_CFG -/,
  ⟨0x104, 4, 1, 0x0, 0x0, 0x0, 0x0, 0x0, 0x3FFFFF, 0x0, false, 0x68DB8⟩ /- SLEW_LIMIT -/,
  ⟨0x108, 4, 1, 0x303, 0x0, 0x0, 0x0, 0x0, 0x0, 0x0, false, 0x0⟩ /- AVTP_CFG -/,
  ⟨0x10C, 4, 1, 0xFFFFFFFF, 0x0, 0x0, 0x0, 0x0, 0x0, 0x0, false, 0x0⟩ /- PT_OFFSET34 -/,
  ⟨0x110, 4, 1, 0xFFFFFFFF, 0x0, 0x0, 0x0, 0x0, 0x0, 0x0, false, 0x0⟩ /- PT_OFFSET35 -/,
  ⟨0x120, 4, 1, 0x0, 0x0, 0x0, 0x1, 0x0, 0x0, 0x0, false, 0x0⟩ /- TSNAP -/,
  ⟨0x124, 4, 1, 0x0, 0x0, 0x0, 0x0, 0x0, 0xFFFFFFFF, 0x0, false, 0x0⟩ /- TSNAP_LOCAL_LO -/,
  ⟨0x128, 4, 1, 0x0, 0x0, 0x0, 0x0, 0x0, 0xFFFFFFFF, 0x0, false, 0x0⟩ /- TSNAP_LOCAL_HI -/,
  ⟨0x130, 16, 4, 0x0, 0x0, 0x0, 0x0, 0x0, 0x3FFFFFFF, 0x0, false, 0x0⟩ /- TSNAP_D_NS -/,
  ⟨0x134, 16, 4, 0x0, 0x0, 0x0, 0x0, 0x0, 0xFFFFFFFF, 0x0, false, 0x0⟩ /- TSNAP_D_S_LO -/,
  ⟨0x138, 16, 4, 0x0, 0x0, 0x0, 0x0, 0x0, 0xFF00FFFF, 0x0, false, 0x0⟩ /- TSNAP_D_S_HI -/,
  ⟨0x200, 32, 4, 0x1FF, 0x0, 0x0, 0x0, 0x0, 0x0, 0x0, false, 0x0⟩ /- DOM_CFG -/,
  ⟨0x204, 32, 4, 0xFFFFFFFF, 0x0, 0x0, 0x0, 0x0, 0x0, 0x0, false, 0x0⟩ /- DOM_ADJ -/,
  ⟨0x208, 32, 4, 0xFFFFFFFF, 0x0, 0x0, 0x0, 0x0, 0x0, 0x0, false, 0x0⟩ /- DOM_STEP_NS -/,
  ⟨0x20C, 32, 4, 0x3FFFFFFF, 0x0, 0x0, 0x0, 0x0, 0x0, 0x0, false, 0x0⟩ /- DOM_SET_NS -/,
  ⟨0x210, 32, 4, 0xFFFFFFFF, 0x0, 0x0, 0x0, 0x0, 0x0, 0x0, false, 0x0⟩ /- DOM_SET_S_LO -/,
  ⟨0x214, 32, 4, 0xFFFF, 0x0, 0x0, 0x0, 0x0, 0x0, 0x0, false, 0x0⟩ /- DOM_SET_S_HI -/,
  ⟨0x218, 32, 4, 0x0, 0x0, 0x3, 0x0, 0x0, 0xFFFF0000, 0x0, false, 0x0⟩ /- DOM_CTRL -/,
  ⟨0x300, 16, 38, 0xFFFFFFFF, 0x0, 0x0, 0x0, 0x0, 0x0, 0x0, false, 0x0⟩ /- INGRESS_ASYM -/,
  ⟨0x304, 16, 38, 0xFFFFFFFF, 0x0, 0x0, 0x0, 0x0, 0x0, 0x0, false, 0x0⟩ /- EGRESS_ASYM -/,
  ⟨0x308, 16, 38, 0x107, 0x0, 0x0, 0x0, 0x0, 0x0, 0x0, false, 0x4⟩ /- PORT_TS_CFG -/,
  ⟨0x600, 4, 1, 0x3F, 0x0, 0x0, 0x0, 0x0, 0x0, 0x0, false, 0x0⟩ /- TXTS_SEL -/,
  ⟨0x604, 4, 1, 0x0, 0x0, 0x0, 0x0, 0x0, 0x3F, 0x0, false, 0x0⟩ /- TXTS_LEVEL -/,
  ⟨0x608, 4, 1, 0x0, 0x0, 0x0, 0x1, 0x0, 0x0, 0x0, false, 0x0⟩ /- TXTS_POP -/,
  ⟨0x610, 4, 1, 0x0, 0x0, 0x0, 0x0, 0x0, 0x80FF03FF, 0x0, false, 0x0⟩ /- TXTS_W0 -/,
  ⟨0x614, 4, 1, 0x0, 0x0, 0x0, 0x0, 0x0, 0xFFFFFFFF, 0x0, false, 0x0⟩ /- TXTS_W1 -/,
  ⟨0x618, 4, 1, 0x0, 0x0, 0x0, 0x0, 0x0, 0xFFFFFFFF, 0x0, false, 0x0⟩ /- TXTS_W2 -/,
  ⟨0x61C, 4, 1, 0x0, 0x0, 0x0, 0x0, 0x0, 0xFFFFFFFF, 0x0, false, 0x0⟩ /- TXTS_W3 -/,
  ⟨0x620, 4, 1, 0x0, 0x0, 0x0, 0x0, 0x0, 0x3FFFFFFF, 0x0, false, 0x0⟩ /- TXTS_W4 -/,
  ⟨0x624, 4, 1, 0x0, 0x0, 0x0, 0x0, 0x0, 0xFFFFFFFF, 0x0, false, 0x0⟩ /- TXTS_W5 -/,
  ⟨0x628, 4, 1, 0x0, 0x0, 0x0, 0x0, 0x0, 0xFFFF, 0x0, false, 0x0⟩ /- TXTS_W6 -/]
/-- The offsets of the 64-bit counters of this kind of page (R28). -/
def counters : List Nat := [0x180, 0x188, 0x190, 0x198, 0x1A0, 0x1A8, 0x1B0, 0x1B8, 0x1C0, 0x1C8]
end Time

namespace Frer
/-- R274: TAB_ADDR.WORD. -/
def TAB_ADDR_WORD : Fld := ⟨0x100, 0, 5⟩
/-- R274: TAB_ADDR.ENTRY. -/
def TAB_ADDR_ENTRY : Fld := ⟨0x100, 5, 12⟩
/-- R274: TAB_ADDR.TABLE. -/
def TAB_ADDR_TABLE : Fld := ⟨0x100, 20, 2⟩
/-- R274: TAB_ADDR.AUTO. -/
def TAB_ADDR_AUTO : Fld := ⟨0x100, 31, 1⟩
/-- R274: TAB_DATA.DATA. -/
def TAB_DATA_DATA : Fld := ⟨0x104, 0, 32⟩
/-- R274: PORT_CFG.RTAG_TX, register i of 38. -/
def PORT_CFG_RTAG_TX (i : Nat) : Fld := ⟨0x110 + 4 * i, 0, 1⟩
/-- R277: the counter RTAG_INSERTED. -/
def CNT_RTAG_INSERTED : Nat := 0x200
/-- R277: the counter RTAG_REMOVED. -/
def CNT_RTAG_REMOVED : Nat := 0x208
/-- R277: the counter GENERATED. -/
def CNT_GENERATED : Nat := 0x210
/-- R277: the counter ECC_CORR. -/
def CNT_ECC_CORR : Nat := 0x218
/-- The registers of this kind of page. -/
def specs : List RegSpec := [
  ⟨0x100, 4, 1, 0x8031FFFF, 0x0, 0x0, 0x0, 0x0, 0x0, 0x0, false, 0x0⟩ /- TAB_ADDR -/,
  ⟨0x104, 4, 1, 0x0, 0x0, 0x0, 0x0, 0x0, 0xFFFFFFFF, 0xFFFFFFFF, false, 0x0⟩ /- TAB_DATA -/,
  ⟨0x110, 4, 38, 0x0, 0x0, 0x0, 0x0, 0x0, 0x1, 0x1, false, 0x0⟩ /- PORT_CFG -/]
/-- The offsets of the 64-bit counters of this kind of page (R28). -/
def counters : List Nat := [0x200, 0x208, 0x210, 0x218]
end Frer

namespace Fab
/-- R271: NODE.ID. -/
def NODE_ID : Fld := ⟨0x100, 0, 4⟩
/-- R271: NODE.VALID. -/
def NODE_VALID : Fld := ⟨0x100, 8, 1⟩
/-- R271: FAB_CFG.HOP_LIMIT. -/
def FAB_CFG_HOP_LIMIT : Fld := ⟨0x104, 0, 4⟩
/-- R271: FAB_CFG.FAILOVER_EN. -/
def FAB_CFG_FAILOVER_EN : Fld := ⟨0x104, 8, 1⟩
/-- R271: LINK_DA_LO.DA. -/
def LINK_DA_LO_DA : Fld := ⟨0x108, 0, 32⟩
/-- R271: LINK_DA_HI.DA. -/
def LINK_DA_HI_DA : Fld := ⟨0x10C, 0, 16⟩
/-- R271: LINK_SA_LO.SA. -/
def LINK_SA_LO_SA : Fld := ⟨0x110, 0, 32⟩
/-- R271: LINK_SA_HI.SA. -/
def LINK_SA_HI_SA : Fld := ⟨0x114, 0, 16⟩
/-- R271: TAB_ADDR.WORD. -/
def TAB_ADDR_WORD : Fld := ⟨0x120, 0, 2⟩
/-- R271: TAB_ADDR.ENTRY. -/
def TAB_ADDR_ENTRY : Fld := ⟨0x120, 4, 12⟩
/-- R271: TAB_ADDR.TABLE. -/
def TAB_ADDR_TABLE : Fld := ⟨0x120, 16, 4⟩
/-- R271: TAB_ADDR.AUTO. -/
def TAB_ADDR_AUTO : Fld := ⟨0x120, 31, 1⟩
/-- R271: TAB_DATA.DATA. -/
def TAB_DATA_DATA : Fld := ⟨0x124, 0, 32⟩
/-- R273: the counter HDR_BAD. -/
def CNT_HDR_BAD : Nat := 0x180
/-- R273: the counter LOOP_DROPS. -/
def CNT_LOOP_DROPS : Nat := 0x188
/-- R273: the counter HOP_EXPIRED. -/
def CNT_HOP_EXPIRED : Nat := 0x190
/-- R273: the counter NO_ORIGIN. -/
def CNT_NO_ORIGIN : Nat := 0x198
/-- R273: the counter ROUTE_PRUNED. -/
def CNT_ROUTE_PRUNED : Nat := 0x1A0
/-- R273: the counter MC_PRUNED. -/
def CNT_MC_PRUNED : Nat := 0x1A8
/-- R273: the counter FAB_OFF. -/
def CNT_FAB_OFF : Nat := 0x1B0
/-- R273: the counter EDGE_STRIPPED. -/
def CNT_EDGE_STRIPPED : Nat := 0x1B8
/-- R273: the counter ORIGINATED. -/
def CNT_ORIGINATED : Nat := 0x1C0
/-- R273: the counter TRANSIT. -/
def CNT_TRANSIT : Nat := 0x1C8
/-- R273: the counter CREDIT_SENT. -/
def CNT_CREDIT_SENT : Nat := 0x1D0
/-- R273: the counter CREDIT_RECEIVED. -/
def CNT_CREDIT_RECEIVED : Nat := 0x1D8
/-- R273: the counter CREDIT_RESYNC. -/
def CNT_CREDIT_RESYNC : Nat := 0x1E0
/-- R273: the counter GRANT_BAD. -/
def CNT_GRANT_BAD : Nat := 0x1E8
/-- R273: the counter REROUTES. -/
def CNT_REROUTES : Nat := 0x1F0
/-- R273: the counter ECC_CORR. -/
def CNT_ECC_CORR : Nat := 0x1F8
/-- The registers of this kind of page. -/
def specs : List RegSpec := [
  ⟨0x100, 4, 1, 0x10F, 0x0, 0x0, 0x0, 0x0, 0x0, 0x0, false, 0x0⟩ /- NODE -/,
  ⟨0x104, 4, 1, 0x10F, 0x0, 0x0, 0x0, 0x0, 0x0, 0x0, false, 0x10F⟩ /- FAB_CFG -/,
  ⟨0x108, 4, 1, 0xFFFFFFFF, 0x0, 0x0, 0x0, 0x0, 0x0, 0x0, false, 0xB501⟩ /- LINK_DA_LO -/,
  ⟨0x10C, 4, 1, 0xFFFF, 0x0, 0x0, 0x0, 0x0, 0x0, 0x0, false, 0x300⟩ /- LINK_DA_HI -/,
  ⟨0x110, 4, 1, 0xFFFFFFFF, 0x0, 0x0, 0x0, 0x0, 0x0, 0x0, false, 0x0⟩ /- LINK_SA_LO -/,
  ⟨0x114, 4, 1, 0xFFFF, 0x0, 0x0, 0x0, 0x0, 0x0, 0x0, false, 0x0⟩ /- LINK_SA_HI -/,
  ⟨0x120, 4, 1, 0x800FFFF3, 0x0, 0x0, 0x0, 0x0, 0x0, 0x0, false, 0x0⟩ /- TAB_ADDR -/,
  ⟨0x124, 4, 1, 0x0, 0x0, 0x0, 0x0, 0x0, 0xFFFFFFFF, 0xFFFFFFFF, false, 0x0⟩ /- TAB_DATA -/]
/-- The offsets of the 64-bit counters of this kind of page (R28). -/
def counters : List Nat := [0x180, 0x188, 0x190, 0x198, 0x1A0, 0x1A8, 0x1B0, 0x1B8, 0x1C0, 0x1C8, 0x1D0, 0x1D8, 0x1E0, 0x1E8, 0x1F0, 0x1F8]
end Fab

namespace Clsp
/-- R303: PAIR_CFG.PAIR_EN. -/
def PAIR_CFG_PAIR_EN : Fld := ⟨0x100, 0, 1⟩
/-- R303: PAIR_CFG.PREFER. -/
def PAIR_CFG_PREFER : Fld := ⟨0x100, 1, 1⟩
/-- R303: PAIR_CFG.PAIR_ID. -/
def PAIR_CFG_PAIR_ID : Fld := ⟨0x100, 2, 1⟩
/-- R303: PAIR_CFG.HW_TAKEOVER. -/
def PAIR_CFG_HW_TAKEOVER : Fld := ⟨0x100, 3, 1⟩
/-- R303: PAIR_CFG.DIV_TAKEOVER. -/
def PAIR_CFG_DIV_TAKEOVER : Fld := ⟨0x100, 4, 1⟩
/-- R303: PAIR_CFG.DIG_EN. -/
def PAIR_CFG_DIG_EN : Fld := ⟨0x100, 5, 1⟩
/-- R303: PAIR_CFG.DIG_DOMAIN. -/
def PAIR_CFG_DIG_DOMAIN : Fld := ⟨0x100, 6, 2⟩
/-- R303: PAIR_CFG.HEALTH_HOLD. -/
def PAIR_CFG_HEALTH_HOLD : Fld := ⟨0x100, 8, 4⟩
/-- R303: PAIR_CFG.DIV_WINDOWS. -/
def PAIR_CFG_DIV_WINDOWS : Fld := ⟨0x100, 12, 3⟩
/-- R303: PAIR_CFG.CTL_ETYPE. -/
def PAIR_CFG_CTL_ETYPE : Fld := ⟨0x100, 16, 16⟩
/-- R303: HOLD_CFG.HOLD_NS. -/
def HOLD_CFG_HOLD_NS : Fld := ⟨0x104, 0, 15⟩
/-- R303: LISTEN_CFG.LISTEN_MS. -/
def LISTEN_CFG_LISTEN_MS : Fld := ⟨0x108, 0, 16⟩
/-- R303: HEALTH_MASK.MASK. -/
def HEALTH_MASK_MASK : Fld := ⟨0x10C, 0, 12⟩
/-- R303: PAIR_PORTS.PORTS. -/
def PAIR_PORTS_PORTS : Fld := ⟨0x110, 0, 32⟩
/-- R303: HEALTH_SET.SYNC. -/
def HEALTH_SET_SYNC : Fld := ⟨0x114, 4, 1⟩
/-- R303: FW_WDOG.LIMIT_US. -/
def FW_WDOG_LIMIT_US : Fld := ⟨0x118, 0, 16⟩
/-- R303: FW_WDOG.KICK. -/
def FW_WDOG_KICK : Fld := ⟨0x118, 31, 1⟩
/-- R303: ROLE_CMD.CMD. -/
def ROLE_CMD_CMD : Fld := ⟨0x120, 0, 2⟩
/-- R303: ROLE_STATUS.ROLE. -/
def ROLE_STATUS_ROLE : Fld := ⟨0x124, 0, 3⟩
/-- R303: ROLE_STATUS.TOOK. -/
def ROLE_STATUS_TOOK : Fld := ⟨0x124, 3, 1⟩
/-- R303: ROLE_STATUS.FENCE_IN. -/
def ROLE_STATUS_FENCE_IN : Fld := ⟨0x124, 4, 1⟩
/-- R303: ROLE_STATUS.FENCE_OUT. -/
def ROLE_STATUS_FENCE_OUT : Fld := ⟨0x124, 5, 1⟩
/-- R303: ROLE_STATUS.HB_OK. -/
def ROLE_STATUS_HB_OK : Fld := ⟨0x124, 6, 1⟩
/-- R303: ROLE_STATUS.LANE0_UP. -/
def ROLE_STATUS_LANE0_UP : Fld := ⟨0x124, 7, 1⟩
/-- R303: ROLE_STATUS.LANE1_UP. -/
def ROLE_STATUS_LANE1_UP : Fld := ⟨0x124, 8, 1⟩
/-- R303: ROLE_STATUS.GATE_OPEN. -/
def ROLE_STATUS_GATE_OPEN : Fld := ⟨0x124, 9, 1⟩
/-- R303: ROLE_STATUS.DIGEST_ON. -/
def ROLE_STATUS_DIGEST_ON : Fld := ⟨0x124, 10, 1⟩
/-- R303: ROLE_STATUS.PLAN_DIFF. -/
def ROLE_STATUS_PLAN_DIFF : Fld := ⟨0x124, 11, 1⟩
/-- R303: ROLE_STATUS.JOIN_BUSY. -/
def ROLE_STATUS_JOIN_BUSY : Fld := ⟨0x124, 12, 1⟩
/-- R303: HEALTH.OWN. -/
def HEALTH_OWN : Fld := ⟨0x128, 0, 12⟩
/-- R303: HEALTH.PEER. -/
def HEALTH_PEER : Fld := ⟨0x128, 16, 12⟩
/-- R303: HB_SEQ.TX. -/
def HB_SEQ_TX : Fld := ⟨0x12C, 0, 16⟩
/-- R303: HB_SEQ.RX. -/
def HB_SEQ_RX : Fld := ⟨0x12C, 16, 16⟩
/-- R303: SELFTEST.ISLANDS. -/
def SELFTEST_ISLANDS : Fld := ⟨0x130, 0, 9⟩
/-- R303: TAKEOVER_LOG.CAUSE. -/
def TAKEOVER_LOG_CAUSE : Fld := ⟨0x134, 0, 3⟩
/-- R303: TAKEOVER_LOG.FROM. -/
def TAKEOVER_LOG_FROM : Fld := ⟨0x134, 4, 3⟩
/-- R303: TAKEOVER_LOG.TO. -/
def TAKEOVER_LOG_TO : Fld := ⟨0x134, 8, 3⟩
/-- R303: TAKEOVER_LOG.PEER_HEALTH. -/
def TAKEOVER_LOG_PEER_HEALTH : Fld := ⟨0x134, 16, 12⟩
/-- R303: TAKEOVER_TIME.NS. -/
def TAKEOVER_TIME_NS : Fld := ⟨0x138, 0, 32⟩
/-- R303: DIV_STATUS.CLASSES. -/
def DIV_STATUS_CLASSES : Fld := ⟨0x140, 0, 8⟩
/-- R303: DIV_STATUS.DIVERGED. -/
def DIV_STATUS_DIVERGED : Fld := ⟨0x140, 8, 1⟩
/-- R303: DIV_STATUS.WINDOW. -/
def DIV_STATUS_WINDOW : Fld := ⟨0x140, 16, 16⟩
/-- R303: TRACE_CTRL.INDEX. -/
def TRACE_CTRL_INDEX : Fld := ⟨0x144, 0, 9⟩
/-- R303: TRACE_CTRL.FROZEN. -/
def TRACE_CTRL_FROZEN : Fld := ⟨0x144, 16, 1⟩
/-- R303: TRACE_CTRL.RELEASE. -/
def TRACE_CTRL_RELEASE : Fld := ⟨0x144, 31, 1⟩
/-- R303: TRACE_W0.CTX. -/
def TRACE_W0_CTX : Fld := ⟨0x148, 0, 13⟩
/-- R303: TRACE_W0.SEQ. -/
def TRACE_W0_SEQ : Fld := ⟨0x148, 16, 16⟩
/-- R303: TRACE_W1.PORT. -/
def TRACE_W1_PORT : Fld := ⟨0x14C, 0, 6⟩
/-- R303: TRACE_W1.COLOUR. -/
def TRACE_W1_COLOUR : Fld := ⟨0x14C, 8, 2⟩
/-- R303: TRACE_W1.OUTCOME. -/
def TRACE_W1_OUTCOME : Fld := ⟨0x14C, 12, 3⟩
/-- R303: TRACE_W2.DEST. -/
def TRACE_W2_DEST : Fld := ⟨0x150, 0, 32⟩
/-- R303: TRACE_W3.NS. -/
def TRACE_W3_NS : Fld := ⟨0x154, 0, 32⟩
/-- R304: the counter TAKEOVERS. -/
def CNT_TAKEOVERS : Nat := 0x180
/-- R304: the counter YIELDS. -/
def CNT_YIELDS : Nat := 0x188
/-- R304: the counter HB_LOST. -/
def CNT_HB_LOST : Nat := 0x190
/-- R304: the counter HB_BAD. -/
def CNT_HB_BAD : Nat := 0x198
/-- R304: the counter DIGEST_MATCH. -/
def CNT_DIGEST_MATCH : Nat := 0x1A0
/-- R304: the counter DIGEST_SLIPS. -/
def CNT_DIGEST_SLIPS : Nat := 0x1A8
/-- R304: the counter DIGEST_MISSING. -/
def CNT_DIGEST_MISSING : Nat := 0x1B0
/-- R304: the counter DIGEST_SKIPPED. -/
def CNT_DIGEST_SKIPPED : Nat := 0x1B8
/-- R304: the counter DIVERGENCES. -/
def CNT_DIVERGENCES : Nat := 0x1C0
/-- R304: the counter DIV_UNRESOLVED. -/
def CNT_DIV_UNRESOLVED : Nat := 0x1C8
/-- R304: the counter LATE_RECORDS. -/
def CNT_LATE_RECORDS : Nat := 0x1D0
/-- R304: the counter SHADOW_DISCARDS. -/
def CNT_SHADOW_DISCARDS : Nat := 0x1D8
/-- R304: the counter HELD_RELEASED. -/
def CNT_HELD_RELEASED : Nat := 0x1E0
/-- R304: the counter LANE_DOWNS. -/
def CNT_LANE_DOWNS : Nat := 0x1E8
/-- R304: the counter CTL_TX. -/
def CNT_CTL_TX : Nat := 0x1F0
/-- R304: the counter CTL_RX. -/
def CNT_CTL_RX : Nat := 0x1F8
/-- R304: the counter CTL_RETX. -/
def CNT_CTL_RETX : Nat := 0x200
/-- The registers of this kind of page. -/
def specs : List RegSpec := [
  ⟨0x100, 4, 1, 0x0, 0x0, 0x0, 0x0, 0x0, 0xFFFF7FFF, 0xFFFF7FFF, false, 0x88B63228⟩ /- PAIR_CFG -/,
  ⟨0x104, 4, 1, 0x0, 0x0, 0x0, 0x0, 0x0, 0x7FFF, 0x7FFF, false, 0x4E20⟩ /- HOLD_CFG -/,
  ⟨0x108, 4, 1, 0xFFFF, 0x0, 0x0, 0x0, 0x0, 0x0, 0x0, false, 0x32⟩ /- LISTEN_CFG -/,
  ⟨0x10C, 4, 1, 0xFFF, 0x0, 0x0, 0x0, 0x0, 0x0, 0x0, false, 0xFFE⟩ /- HEALTH_MASK -/,
  ⟨0x110, 4, 1, 0xFFFFFFFF, 0x0, 0x0, 0x0, 0x0, 0x0, 0x0, false, 0x0⟩ /- PAIR_PORTS -/,
  ⟨0x114, 4, 1, 0x10, 0x0, 0x0, 0x0, 0x0, 0x0, 0x0, false, 0x0⟩ /- HEALTH_SET -/,
  ⟨0x118, 4, 1, 0xFFFF, 0x0, 0x0, 0x80000000, 0x0, 0x0, 0x0, false, 0x0⟩ /- FW_WDOG -/,
  ⟨0x120, 4, 1, 0x0, 0x0, 0x0, 0x3, 0x0, 0x0, 0x0, false, 0x0⟩ /- ROLE_CMD -/,
  ⟨0x124, 4, 1, 0x0, 0x0, 0x0, 0x0, 0x0, 0x1FFF, 0x0, false, 0x0⟩ /- ROLE_STATUS -/,
  ⟨0x128, 4, 1, 0x0, 0x0, 0x0, 0x0, 0x0, 0xFFF0FFF, 0x0, false, 0x0⟩ /- HEALTH -/,
  ⟨0x12C, 4, 1, 0x0, 0x0, 0x0, 0x0, 0x0, 0xFFFFFFFF, 0x0, false, 0x0⟩ /- HB_SEQ -/,
  ⟨0x130, 4, 1, 0x0, 0x1FF, 0x0, 0x0, 0x0, 0x0, 0x0, false, 0x0⟩ /- SELFTEST -/,
  ⟨0x134, 4, 1, 0x0, 0x0, 0x0, 0x0, 0x0, 0xFFF0777, 0x0, false, 0x0⟩ /- TAKEOVER_LOG -/,
  ⟨0x138, 4, 1, 0x0, 0x0, 0x0, 0x0, 0x0, 0xFFFFFFFF, 0x0, false, 0x0⟩ /- TAKEOVER_TIME -/,
  ⟨0x140, 4, 1, 0x0, 0x0, 0x0, 0x0, 0x0, 0xFFFF01FF, 0x0, false, 0x0⟩ /- DIV_STATUS -/,
  ⟨0x144, 4, 1, 0x1FF, 0x0, 0x0, 0x80000000, 0x0, 0x10000, 0x0, false, 0x0⟩ /- TRACE_CTRL -/,
  ⟨0x148, 4, 1, 0x0, 0x0, 0x0, 0x0, 0x0, 0xFFFF1FFF, 0x0, false, 0x0⟩ /- TRACE_W0 -/,
  ⟨0x14C, 4, 1, 0x0, 0x0, 0x0, 0x0, 0x0, 0x733F, 0x0, false, 0x0⟩ /- TRACE_W1 -/,
  ⟨0x150, 4, 1, 0x0, 0x0, 0x0, 0x0, 0x0, 0xFFFFFFFF, 0x0, false, 0x0⟩ /- TRACE_W2 -/,
  ⟨0x154, 4, 1, 0x0, 0x0, 0x0, 0x0, 0x0, 0xFFFFFFFF, 0x0, false, 0x0⟩ /- TRACE_W3 -/]
/-- The offsets of the 64-bit counters of this kind of page (R28). -/
def counters : List Nat := [0x180, 0x188, 0x190, 0x198, 0x1A0, 0x1A8, 0x1B0, 0x1B8, 0x1C0, 0x1C8, 0x1D0, 0x1D8, 0x1E0, 0x1E8, 0x1F0, 0x1F8, 0x200]
end Clsp

namespace Cip
/-- R385: KEY_BIND.SLOT. -/
def KEY_BIND_SLOT : Fld := ⟨0x100, 0, 10⟩
/-- R385: KEY_BIND.BOUND. -/
def KEY_BIND_BOUND : Fld := ⟨0x100, 16, 1⟩
/-- R385: KEY_BIND.AES256. -/
def KEY_BIND_AES256 : Fld := ⟨0x100, 17, 1⟩
/-- R385: IV_FIXED.FIXED. -/
def IV_FIXED_FIXED : Fld := ⟨0x104, 0, 32⟩
/-- R385: JOB_W0.OP. -/
def JOB_W0_OP : Fld := ⟨0x110, 0, 3⟩
/-- R385: JOB_W0.SRC_SPACE. -/
def JOB_W0_SRC_SPACE : Fld := ⟨0x110, 4, 2⟩
/-- R385: JOB_W0.DST_SPACE. -/
def JOB_W0_DST_SPACE : Fld := ⟨0x110, 6, 2⟩
/-- R385: JOB_W0.IV_GEN. -/
def JOB_W0_IV_GEN : Fld := ⟨0x110, 8, 1⟩
/-- R385: JOB_W0.IRQ. -/
def JOB_W0_IRQ : Fld := ⟨0x110, 9, 1⟩
/-- R385: JOB_W0.TAG_LEN. -/
def JOB_W0_TAG_LEN : Fld := ⟨0x110, 16, 5⟩
/-- R385: JOB_W0.TAG. -/
def JOB_W0_TAG : Fld := ⟨0x110, 24, 8⟩
/-- R385: JOB_SRC_LO.ADDR. -/
def JOB_SRC_LO_ADDR : Fld := ⟨0x114, 0, 32⟩
/-- R385: JOB_SRC_HI.ADDR. -/
def JOB_SRC_HI_ADDR : Fld := ⟨0x118, 0, 32⟩
/-- R385: JOB_DST_LO.ADDR. -/
def JOB_DST_LO_ADDR : Fld := ⟨0x11C, 0, 32⟩
/-- R385: JOB_DST_HI.ADDR. -/
def JOB_DST_HI_ADDR : Fld := ⟨0x120, 0, 32⟩
/-- R385: JOB_LEN.DATA_LEN. -/
def JOB_LEN_DATA_LEN : Fld := ⟨0x124, 0, 24⟩
/-- R385: JOB_AAD.AAD_LEN. -/
def JOB_AAD_AAD_LEN : Fld := ⟨0x128, 0, 16⟩
/-- R385: JOB_IV.IV, register i of 4. -/
def JOB_IV_IV (i : Nat) : Fld := ⟨0x12C + 4 * i, 0, 32⟩
/-- R385: JOB_GO.GO. -/
def JOB_GO_GO : Fld := ⟨0x13C, 0, 1⟩
/-- R385: QUEUE_STATUS.QUEUED. -/
def QUEUE_STATUS_QUEUED : Fld := ⟨0x140, 0, 4⟩
/-- R385: QUEUE_STATUS.DONE. -/
def QUEUE_STATUS_DONE : Fld := ⟨0x140, 8, 4⟩
/-- R385: DONE_W0.TAG. -/
def DONE_W0_TAG : Fld := ⟨0x144, 0, 8⟩
/-- R385: DONE_W0.RESULT. -/
def DONE_W0_RESULT : Fld := ⟨0x144, 8, 4⟩
/-- R385: DONE_W0.ZERO_INCOMPLETE. -/
def DONE_W0_ZERO_INCOMPLETE : Fld := ⟨0x144, 12, 1⟩
/-- R385: DONE_W0.VALID. -/
def DONE_W0_VALID : Fld := ⟨0x144, 31, 1⟩
/-- R385: DONE_IV.IV, register i of 3. -/
def DONE_IV_IV (i : Nat) : Fld := ⟨0x148 + 4 * i, 0, 32⟩
/-- R385: DONE_POP.POP. -/
def DONE_POP_POP : Fld := ⟨0x154, 0, 1⟩
/-- R385: WIN_BASE_LO.ADDR, register i of 3. -/
def WIN_BASE_LO_ADDR (i : Nat) : Fld := ⟨0x200 + 16 * i, 0, 32⟩
/-- R385: WIN_BASE_HI.ADDR, register i of 3. -/
def WIN_BASE_HI_ADDR (i : Nat) : Fld := ⟨0x204 + 16 * i, 0, 32⟩
/-- R385: WIN_LIMIT_LO.ADDR, register i of 3. -/
def WIN_LIMIT_LO_ADDR (i : Nat) : Fld := ⟨0x208 + 16 * i, 0, 32⟩
/-- R385: WIN_LIMIT_HI.ADDR, register i of 3. -/
def WIN_LIMIT_HI_ADDR (i : Nat) : Fld := ⟨0x20C + 16 * i, 0, 32⟩
/-- R386: the counter JOBS. -/
def CNT_JOBS : Nat := 0x180
/-- R386: the counter AUTH_FAILS. -/
def CNT_AUTH_FAILS : Nat := 0x188
/-- R386: the counter BYTES. -/
def CNT_BYTES : Nat := 0x190
/-- R386: the counter KEY_EXHAUSTED. -/
def CNT_KEY_EXHAUSTED : Nat := 0x198
/-- R386: the counter BUS_ERRORS. -/
def CNT_BUS_ERRORS : Nat := 0x1A0
/-- The registers of this kind of page. -/
def specs : List RegSpec := [
  ⟨0x100, 4, 1, 0x0, 0x0, 0x0, 0x0, 0x0, 0x303FF, 0x0, false, 0x0⟩ /- KEY_BIND -/,
  ⟨0x104, 4, 1, 0xFFFFFFFF, 0x0, 0x0, 0x0, 0x0, 0x0, 0x0, true, 0x0⟩ /- IV_FIXED -/,
  ⟨0x110, 4, 1, 0xFF1F03F7, 0x0, 0x0, 0x0, 0x0, 0x0, 0x0, false, 0x100000⟩ /- JOB_W0 -/,
  ⟨0x114, 4, 1, 0xFFFFFFFF, 0x0, 0x0, 0x0, 0x0, 0x0, 0x0, false, 0x0⟩ /- JOB_SRC_LO -/,
  ⟨0x118, 4, 1, 0xFFFFFFFF, 0x0, 0x0, 0x0, 0x0, 0x0, 0x0, false, 0x0⟩ /- JOB_SRC_HI -/,
  ⟨0x11C, 4, 1, 0xFFFFFFFF, 0x0, 0x0, 0x0, 0x0, 0x0, 0x0, false, 0x0⟩ /- JOB_DST_LO -/,
  ⟨0x120, 4, 1, 0xFFFFFFFF, 0x0, 0x0, 0x0, 0x0, 0x0, 0x0, false, 0x0⟩ /- JOB_DST_HI -/,
  ⟨0x124, 4, 1, 0xFFFFFF, 0x0, 0x0, 0x0, 0x0, 0x0, 0x0, false, 0x0⟩ /- JOB_LEN -/,
  ⟨0x128, 4, 1, 0xFFFF, 0x0, 0x0, 0x0, 0x0, 0x0, 0x0, false, 0x0⟩ /- JOB_AAD -/,
  ⟨0x12C, 4, 4, 0xFFFFFFFF, 0x0, 0x0, 0x0, 0x0, 0x0, 0x0, false, 0x0⟩ /- JOB_IV -/,
  ⟨0x13C, 4, 1, 0x0, 0x0, 0x0, 0x1, 0x0, 0x0, 0x0, false, 0x0⟩ /- JOB_GO -/,
  ⟨0x140, 4, 1, 0x0, 0x0, 0x0, 0x0, 0x0, 0xF0F, 0x0, false, 0x0⟩ /- QUEUE_STATUS -/,
  ⟨0x144, 4, 1, 0x0, 0x0, 0x0, 0x0, 0x0, 0x80001FFF, 0x0, false, 0x0⟩ /- DONE_W0 -/,
  ⟨0x148, 4, 3, 0x0, 0x0, 0x0, 0x0, 0x0, 0xFFFFFFFF, 0x0, false, 0x0⟩ /- DONE_IV -/,
  ⟨0x154, 4, 1, 0x0, 0x0, 0x0, 0x1, 0x0, 0x0, 0x0, false, 0x0⟩ /- DONE_POP -/,
  ⟨0x200, 16, 3, 0xFFFFFFFF, 0x0, 0x0, 0x0, 0x0, 0x0, 0x0, true, 0x0⟩ /- WIN_BASE_LO -/,
  ⟨0x204, 16, 3, 0xFFFFFFFF, 0x0, 0x0, 0x0, 0x0, 0x0, 0x0, true, 0x0⟩ /- WIN_BASE_HI -/,
  ⟨0x208, 16, 3, 0xFFFFFFFF, 0x0, 0x0, 0x0, 0x0, 0x0, 0x0, true, 0x0⟩ /- WIN_LIMIT_LO -/,
  ⟨0x20C, 16, 3, 0xFFFFFFFF, 0x0, 0x0, 0x0, 0x0, 0x0, 0x0, true, 0x0⟩ /- WIN_LIMIT_HI -/]
/-- The offsets of the 64-bit counters of this kind of page (R28). -/
def counters : List Nat := [0x180, 0x188, 0x190, 0x198, 0x1A0]
end Cip

namespace Can
/-- R340: MODE.PROTO. -/
def MODE_PROTO : Fld := ⟨0x100, 0, 2⟩
/-- R340: MODE.LISTEN_ONLY. -/
def MODE_LISTEN_ONLY : Fld := ⟨0x100, 2, 1⟩
/-- R340: MODE.BO_AUTO. -/
def MODE_BO_AUTO : Fld := ⟨0x100, 3, 1⟩
/-- R340: MODE.XL_FAST. -/
def MODE_XL_FAST : Fld := ⟨0x100, 4, 1⟩
/-- R340: MODE.BO_HOLD. -/
def MODE_BO_HOLD : Fld := ⟨0x100, 16, 16⟩
/-- R340: NBT.BRP_M1. -/
def NBT_BRP_M1 : Fld := ⟨0x104, 0, 8⟩
/-- R340: NBT.TSEG1_M1. -/
def NBT_TSEG1_M1 : Fld := ⟨0x104, 8, 8⟩
/-- R340: NBT.TSEG2_M1. -/
def NBT_TSEG2_M1 : Fld := ⟨0x104, 16, 7⟩
/-- R340: NBT.SJW_M1. -/
def NBT_SJW_M1 : Fld := ⟨0x104, 24, 7⟩
/-- R340: DBT.BRP_M1. -/
def DBT_BRP_M1 : Fld := ⟨0x108, 0, 5⟩
/-- R340: DBT.TSEG1_M1. -/
def DBT_TSEG1_M1 : Fld := ⟨0x108, 8, 5⟩
/-- R340: DBT.TSEG2_M1. -/
def DBT_TSEG2_M1 : Fld := ⟨0x108, 16, 4⟩
/-- R340: DBT.SJW_M1. -/
def DBT_SJW_M1 : Fld := ⟨0x108, 24, 4⟩
/-- R340: XBT.BRP_M1. -/
def XBT_BRP_M1 : Fld := ⟨0x10C, 0, 5⟩
/-- R340: XBT.TSEG1_M1. -/
def XBT_TSEG1_M1 : Fld := ⟨0x10C, 8, 5⟩
/-- R340: XBT.TSEG2_M1. -/
def XBT_TSEG2_M1 : Fld := ⟨0x10C, 16, 4⟩
/-- R340: XBT.SJW_M1. -/
def XBT_SJW_M1 : Fld := ⟨0x10C, 24, 4⟩
/-- R340: XL_PWM.PWMS. -/
def XL_PWM_PWMS : Fld := ⟨0x110, 0, 6⟩
/-- R340: XL_PWM.PWML. -/
def XL_PWM_PWML : Fld := ⟨0x110, 8, 6⟩
/-- R340: XL_PWM.PWMO. -/
def XL_PWM_PWMO : Fld := ⟨0x110, 16, 6⟩
/-- R340: TDC.TDCO. -/
def TDC_TDCO : Fld := ⟨0x114, 0, 7⟩
/-- R340: TDC.EN. -/
def TDC_EN : Fld := ⟨0x114, 8, 1⟩
/-- R340: GW_CFG.NET_ID. -/
def GW_CFG_NET_ID : Fld := ⟨0x120, 0, 5⟩
/-- R340: GW_CFG.RX_EN. -/
def GW_CFG_RX_EN : Fld := ⟨0x120, 8, 1⟩
/-- R340: GW_CFG.VLAN_EN. -/
def GW_CFG_VLAN_EN : Fld := ⟨0x120, 9, 1⟩
/-- R340: GW_CFG.FORMAT. -/
def GW_CFG_FORMAT : Fld := ⟨0x120, 10, 1⟩
/-- R340: GW_CFG.MTV_EN. -/
def GW_CFG_MTV_EN : Fld := ⟨0x120, 11, 1⟩
/-- R340: GW_TCI.TCI. -/
def GW_TCI_TCI : Fld := ⟨0x124, 0, 16⟩
/-- R340: GW_DA_LO.DA. -/
def GW_DA_LO_DA : Fld := ⟨0x128, 0, 32⟩
/-- R340: GW_DA_HI.DA. -/
def GW_DA_HI_DA : Fld := ⟨0x12C, 0, 16⟩
/-- R340: GW_SA_LO.SA. -/
def GW_SA_LO_SA : Fld := ⟨0x130, 0, 32⟩
/-- R340: GW_SA_HI.SA. -/
def GW_SA_HI_SA : Fld := ⟨0x134, 0, 16⟩
/-- R340: GW_STREAM_LO.STREAM. -/
def GW_STREAM_LO_STREAM : Fld := ⟨0x138, 0, 32⟩
/-- R340: GW_STREAM_HI.STREAM. -/
def GW_STREAM_HI_STREAM : Fld := ⟨0x13C, 0, 32⟩
/-- R340: EG_IDS.IDS. -/
def EG_IDS_IDS : Fld := ⟨0x140, 0, 32⟩
/-- R340: TX_TTL.MS. -/
def TX_TTL_MS : Fld := ⟨0x144, 0, 16⟩
/-- R340: GW_XL_TYPE.TYPE. -/
def GW_XL_TYPE_TYPE : Fld := ⟨0x148, 0, 7⟩
/-- R340: PN_CTRL.SLEEP_REQ. -/
def PN_CTRL_SLEEP_REQ : Fld := ⟨0x160, 0, 1⟩
/-- R340: PN_CTRL.WAKE_REQ. -/
def PN_CTRL_WAKE_REQ : Fld := ⟨0x160, 1, 1⟩
/-- R340: PN_CTRL.RECOVER. -/
def PN_CTRL_RECOVER : Fld := ⟨0x160, 2, 1⟩
/-- R340: PN_ID.ID. -/
def PN_ID_ID : Fld := ⟨0x164, 0, 29⟩
/-- R340: PN_ID.EFF. -/
def PN_ID_EFF : Fld := ⟨0x164, 29, 1⟩
/-- R340: PN_IDMASK.MASK. -/
def PN_IDMASK_MASK : Fld := ⟨0x168, 0, 29⟩
/-- R340: PN_CFG.DLC. -/
def PN_CFG_DLC : Fld := ⟨0x16C, 0, 4⟩
/-- R340: PN_CFG.DLC_EN. -/
def PN_CFG_DLC_EN : Fld := ⟨0x16C, 4, 1⟩
/-- R340: PN_CFG.FD_TOL. -/
def PN_CFG_FD_TOL : Fld := ⟨0x16C, 5, 1⟩
/-- R340: PN_DATA_LO.MASK. -/
def PN_DATA_LO_MASK : Fld := ⟨0x170, 0, 32⟩
/-- R340: PN_DATA_HI.MASK. -/
def PN_DATA_HI_MASK : Fld := ⟨0x174, 0, 32⟩
/-- R340: STATUS.CST. -/
def STATUS_CST : Fld := ⟨0x180, 0, 3⟩
/-- R340: STATUS.TXQ. -/
def STATUS_TXQ : Fld := ⟨0x180, 8, 8⟩
/-- R340: ERRCNT.TEC. -/
def ERRCNT_TEC : Fld := ⟨0x184, 0, 9⟩
/-- R340: ERRCNT.REC. -/
def ERRCNT_REC : Fld := ⟨0x184, 16, 8⟩
/-- R340: ERRCNT.FEC. -/
def ERRCNT_FEC : Fld := ⟨0x184, 24, 6⟩
/-- R340: LASTERR.LEC. -/
def LASTERR_LEC : Fld := ⟨0x188, 0, 3⟩
/-- R340: LASTERR.WAKE_CAUSE. -/
def LASTERR_WAKE_CAUSE : Fld := ⟨0x188, 8, 2⟩
/-- R340: AUTH_ID.ID, register i of 8. -/
def AUTH_ID_ID (i : Nat) : Fld := ⟨0x400 + 32 * i, 0, 29⟩
/-- R340: AUTH_ID.EFF, register i of 8. -/
def AUTH_ID_EFF (i : Nat) : Fld := ⟨0x400 + 32 * i, 29, 1⟩
/-- R340: AUTH_MASK.MASK, register i of 8. -/
def AUTH_MASK_MASK (i : Nat) : Fld := ⟨0x404 + 32 * i, 0, 29⟩
/-- R340: AUTH_CFG.EN, register i of 8. -/
def AUTH_CFG_EN (i : Nat) : Fld := ⟨0x408 + 32 * i, 0, 1⟩
/-- R340: AUTH_CFG.VERIFY, register i of 8. -/
def AUTH_CFG_VERIFY (i : Nat) : Fld := ⟨0x408 + 32 * i, 1, 1⟩
/-- R340: AUTH_CFG.SIGN, register i of 8. -/
def AUTH_CFG_SIGN (i : Nat) : Fld := ⟨0x408 + 32 * i, 2, 1⟩
/-- R340: AUTH_CFG.STRIP, register i of 8. -/
def AUTH_CFG_STRIP (i : Nat) : Fld := ⟨0x408 + 32 * i, 3, 1⟩
/-- R340: AUTH_CFG.CUP, register i of 8. -/
def AUTH_CFG_CUP (i : Nat) : Fld := ⟨0x408 + 32 * i, 4, 6⟩
/-- R340: AUTH_CFG.DATA_LEN, register i of 8. -/
def AUTH_CFG_DATA_LEN (i : Nat) : Fld := ⟨0x408 + 32 * i, 10, 7⟩
/-- R340: AUTH_CFG.FV_BYTES, register i of 8. -/
def AUTH_CFG_FV_BYTES (i : Nat) : Fld := ⟨0x408 + 32 * i, 17, 3⟩
/-- R340: AUTH_CFG.MAC_LEN, register i of 8. -/
def AUTH_CFG_MAC_LEN (i : Nat) : Fld := ⟨0x408 + 32 * i, 20, 5⟩
/-- R340: AUTH_LAST_LO.FV, register i of 8. -/
def AUTH_LAST_LO_FV (i : Nat) : Fld := ⟨0x40C + 32 * i, 0, 32⟩
/-- R340: AUTH_LAST_HI.FV, register i of 8. -/
def AUTH_LAST_HI_FV (i : Nat) : Fld := ⟨0x410 + 32 * i, 0, 32⟩
/-- R340: AUTH_NEXT_LO.FV, register i of 8. -/
def AUTH_NEXT_LO_FV (i : Nat) : Fld := ⟨0x414 + 32 * i, 0, 32⟩
/-- R340: AUTH_NEXT_HI.FV, register i of 8. -/
def AUTH_NEXT_HI_FV (i : Nat) : Fld := ⟨0x418 + 32 * i, 0, 32⟩
/-- R341: the counter RX_FRAMES. -/
def CNT_RX_FRAMES : Nat := 0x200
/-- R341: the counter TX_FRAMES. -/
def CNT_TX_FRAMES : Nat := 0x208
/-- R341: the counter RX_ERRORS. -/
def CNT_RX_ERRORS : Nat := 0x210
/-- R341: the counter BUS_OFFS. -/
def CNT_BUS_OFFS : Nat := 0x218
/-- R341: the counter RX_OVERRUN. -/
def CNT_RX_OVERRUN : Nat := 0x220
/-- R341: the counter RX_OVERSIZE. -/
def CNT_RX_OVERSIZE : Nat := 0x228
/-- R341: the counter TX_DROPS. -/
def CNT_TX_DROPS : Nat := 0x230
/-- R341: the counter TX_EXPIRED. -/
def CNT_TX_EXPIRED : Nat := 0x238
/-- R341: the counter PN_IGNORED. -/
def CNT_PN_IGNORED : Nat := 0x240
/-- R341: the counter PN_DISCARDS. -/
def CNT_PN_DISCARDS : Nat := 0x248
/-- R341: the counter AUTH_PASS. -/
def CNT_AUTH_PASS : Nat := 0x250
/-- R341: the counter AUTH_FAIL. -/
def CNT_AUTH_FAIL : Nat := 0x258
/-- R341: the counter AUTH_SIGNED. -/
def CNT_AUTH_SIGNED : Nat := 0x260
/-- R341: the counter EG_FRAME_DROPS. -/
def CNT_EG_FRAME_DROPS : Nat := 0x268
/-- R341: the counter EG_UNKNOWN. -/
def CNT_EG_UNKNOWN : Nat := 0x270
/-- R341: the counter EG_UNMAPPED. -/
def CNT_EG_UNMAPPED : Nat := 0x278
/-- The registers of this kind of page. -/
def specs : List RegSpec := [
  ⟨0x100, 4, 1, 0x0, 0x0, 0x0, 0x0, 0x0, 0xFFFF001F, 0xFFFF001F, false, 0x8⟩ /- MODE -/,
  ⟨0x104, 4, 1, 0x0, 0x0, 0x0, 0x0, 0x0, 0x7F7FFFFF, 0x7F7FFFFF, false, 0xF1F7E01⟩ /- NBT -/,
  ⟨0x108, 4, 1, 0x0, 0x0, 0x0, 0x0, 0x0, 0xF0F1F1F, 0xF0F1F1F, false, 0x9091C01⟩ /- DBT -/,
  ⟨0x10C, 4, 1, 0x0, 0x0, 0x0, 0x0, 0x0, 0xF0F1F1F, 0xF0F1F1F, false, 0x3030A00⟩ /- XBT -/,
  ⟨0x110, 4, 1, 0x0, 0x0, 0x0, 0x0, 0x0, 0x3F3F3F, 0x3F3F3F, false, 0x0⟩ /- XL_PWM -/,
  ⟨0x114, 4, 1, 0x0, 0x0, 0x0, 0x0, 0x0, 0x17F, 0x17F, false, 0x0⟩ /- TDC -/,
  ⟨0x120, 4, 1, 0x0, 0x0, 0x0, 0x0, 0x0, 0xF1F, 0xF1F, false, 0x0⟩ /- GW_CFG -/,
  ⟨0x124, 4, 1, 0x0, 0x0, 0x0, 0x0, 0x0, 0xFFFF, 0xFFFF, false, 0x0⟩ /- GW_TCI -/,
  ⟨0x128, 4, 1, 0x0, 0x0, 0x0, 0x0, 0x0, 0xFFFFFFFF, 0xFFFFFFFF, false, 0x0⟩ /- GW_DA_LO -/,
  ⟨0x12C, 4, 1, 0x0, 0x0, 0x0, 0x0, 0x0, 0xFFFF, 0xFFFF, false, 0x0⟩ /- GW_DA_HI -/,
  ⟨0x130, 4, 1, 0x0, 0x0, 0x0, 0x0, 0x0, 0xFFFFFFFF, 0xFFFFFFFF, false, 0x0⟩ /- GW_SA_LO -/,
  ⟨0x134, 4, 1, 0x0, 0x0, 0x0, 0x0, 0x0, 0xFFFF, 0xFFFF, false, 0x0⟩ /- GW_SA_HI -/,
  ⟨0x138, 4, 1, 0x0, 0x0, 0x0, 0x0, 0x0, 0xFFFFFFFF, 0xFFFFFFFF, false, 0x0⟩ /- GW_STREAM_LO -/,
  ⟨0x13C, 4, 1, 0x0, 0x0, 0x0, 0x0, 0x0, 0xFFFFFFFF, 0xFFFFFFFF, false, 0x0⟩ /- GW_STREAM_HI -/,
  ⟨0x140, 4, 1, 0x0, 0x0, 0x0, 0x0, 0x0, 0xFFFFFFFF, 0xFFFFFFFF, false, 0x0⟩ /- EG_IDS -/,
  ⟨0x144, 4, 1, 0x0, 0x0, 0x0, 0x0, 0x0, 0xFFFF, 0xFFFF, false, 0x0⟩ /- TX_TTL -/,
  ⟨0x148, 4, 1, 0x0, 0x0, 0x0, 0x0, 0x0, 0x7F, 0x7F, false, 0x7E⟩ /- GW_XL_TYPE -/,
  ⟨0x160, 4, 1, 0x0, 0x0, 0x7, 0x0, 0x0, 0x0, 0x0, false, 0x0⟩ /- PN_CTRL -/,
  ⟨0x164, 4, 1, 0x3FFFFFFF, 0x0, 0x0, 0x0, 0x0, 0x0, 0x0, false, 0x0⟩ /- PN_ID -/,
  ⟨0x168, 4, 1, 0x1FFFFFFF, 0x0, 0x0, 0x0, 0x0, 0x0, 0x0, false, 0x1FFFFFFF⟩ /- PN_IDMASK -/,
  ⟨0x16C, 4, 1, 0x3F, 0x0, 0x0, 0x0, 0x0, 0x0, 0x0, false, 0x20⟩ /- PN_CFG -/,
  ⟨0x170, 4, 1, 0xFFFFFFFF, 0x0, 0x0, 0x0, 0x0, 0x0, 0x0, false, 0x0⟩ /- PN_DATA_LO -/,
  ⟨0x174, 4, 1, 0xFFFFFFFF, 0x0, 0x0, 0x0, 0x0, 0x0, 0x0, false, 0x0⟩ /- PN_DATA_HI -/,
  ⟨0x180, 4, 1, 0x0, 0x0, 0x0, 0x0, 0x0, 0xFF07, 0x0, false, 0x0⟩ /- STATUS -/,
  ⟨0x184, 4, 1, 0x0, 0x0, 0x0, 0x0, 0x0, 0x3FFF01FF, 0x0, false, 0x0⟩ /- ERRCNT -/,
  ⟨0x188, 4, 1, 0x0, 0x0, 0x0, 0x0, 0x0, 0x307, 0x0, false, 0x0⟩ /- LASTERR -/,
  ⟨0x400, 32, 8, 0x0, 0x0, 0x0, 0x0, 0x0, 0x3FFFFFFF, 0x3FFFFFFF, false, 0x0⟩ /- AUTH_ID -/,
  ⟨0x404, 32, 8, 0x0, 0x0, 0x0, 0x0, 0x0, 0x1FFFFFFF, 0x1FFFFFFF, false, 0x0⟩ /- AUTH_MASK -/,
  ⟨0x408, 32, 8, 0x0, 0x0, 0x0, 0x0, 0x0, 0x1FFFFFF, 0x1FFFFFF, false, 0x400000⟩ /- AUTH_CFG -/,
  ⟨0x40C, 32, 8, 0xFFFFFFFF, 0x0, 0x0, 0x0, 0x0, 0x0, 0x0, false, 0x0⟩ /- AUTH_LAST_LO -/,
  ⟨0x410, 32, 8, 0xFFFFFFFF, 0x0, 0x0, 0x0, 0x0, 0x0, 0x0, false, 0x0⟩ /- AUTH_LAST_HI -/,
  ⟨0x414, 32, 8, 0xFFFFFFFF, 0x0, 0x0, 0x0, 0x0, 0x0, 0x0, false, 0x0⟩ /- AUTH_NEXT_LO -/,
  ⟨0x418, 32, 8, 0xFFFFFFFF, 0x0, 0x0, 0x0, 0x0, 0x0, 0x0, false, 0x0⟩ /- AUTH_NEXT_HI -/]
/-- The offsets of the 64-bit counters of this kind of page (R28). -/
def counters : List Nat := [0x200, 0x208, 0x210, 0x218, 0x220, 0x228, 0x230, 0x238, 0x240, 0x248, 0x250, 0x258, 0x260, 0x268, 0x270, 0x278]
end Can

namespace Tdm
/-- R357: LINK_CFG.CRC4_EN. -/
def LINK_CFG_CRC4_EN : Fld := ⟨0x100, 0, 1⟩
/-- R357: LINK_CFG.NFAS_CHK. -/
def LINK_CFG_NFAS_CHK : Fld := ⟨0x100, 1, 1⟩
/-- R357: LINK_CFG.CRC_LOF_EN. -/
def LINK_CFG_CRC_LOF_EN : Fld := ⟨0x100, 2, 1⟩
/-- R357: LINK_CFG.E_EN. -/
def LINK_CFG_E_EN : Fld := ⟨0x100, 3, 1⟩
/-- R357: LINK_CFG.AUTO_RDI. -/
def LINK_CFG_AUTO_RDI : Fld := ⟨0x100, 4, 1⟩
/-- R357: LINK_CFG.TX_AIS. -/
def LINK_CFG_TX_AIS : Fld := ⟨0x100, 5, 1⟩
/-- R357: LINK_CFG.TX_RDI. -/
def LINK_CFG_TX_RDI : Fld := ⟨0x100, 6, 1⟩
/-- R357: LINK_CFG.LOS_N. -/
def LINK_CFG_LOS_N : Fld := ⟨0x100, 8, 8⟩
/-- R357: LINK_CFG.RDI_N. -/
def LINK_CFG_RDI_N : Fld := ⟨0x100, 16, 4⟩
/-- R357: TX_SA.SA. -/
def TX_SA_SA : Fld := ⟨0x104, 0, 5⟩
/-- R357: STATUS.FST. -/
def STATUS_FST : Fld := ⟨0x110, 0, 3⟩
/-- R357: STATUS.MFA. -/
def STATUS_MFA : Fld := ⟨0x110, 3, 1⟩
/-- R357: STATUS.LOS. -/
def STATUS_LOS : Fld := ⟨0x110, 8, 1⟩
/-- R357: STATUS.AIS. -/
def STATUS_AIS : Fld := ⟨0x110, 9, 1⟩
/-- R357: STATUS.LOF. -/
def STATUS_LOF : Fld := ⟨0x110, 10, 1⟩
/-- R357: STATUS.RDI. -/
def STATUS_RDI : Fld := ⟨0x110, 11, 1⟩
/-- R357: STATUS.UAS. -/
def STATUS_UAS : Fld := ⟨0x110, 12, 1⟩
/-- R357: STATUS.RX_SA. -/
def STATUS_RX_SA : Fld := ⟨0x110, 16, 5⟩
/-- R357: STATUS.CAND. -/
def STATUS_CAND : Fld := ⟨0x110, 24, 8⟩
/-- R357: SLIP_STATUS.LAG. -/
def SLIP_STATUS_LAG : Fld := ⟨0x114, 0, 10⟩
/-- The registers of this kind of page. -/
def specs : List RegSpec := [
  ⟨0x100, 4, 1, 0x0, 0x0, 0x0, 0x0, 0x0, 0xFFF7F, 0xFFF7F, false, 0x4201D⟩ /- LINK_CFG -/,
  ⟨0x104, 4, 1, 0x1F, 0x0, 0x0, 0x0, 0x0, 0x0, 0x0, false, 0x1F⟩ /- TX_SA -/,
  ⟨0x110, 4, 1, 0x0, 0x0, 0x0, 0x0, 0x0, 0xFF1F1F0F, 0x0, false, 0x400⟩ /- STATUS -/,
  ⟨0x114, 4, 1, 0x0, 0x0, 0x0, 0x0, 0x0, 0x3FF, 0x0, false, 0x0⟩ /- SLIP_STATUS -/]
/-- The offsets of the 64-bit counters of this kind of page (R28). -/
def counters : List Nat := []
end Tdm

namespace Tsi
/-- R359: TAB_ADDR.WORD. -/
def TAB_ADDR_WORD : Fld := ⟨0x100, 0, 4⟩
/-- R359: TAB_ADDR.ENTRY. -/
def TAB_ADDR_ENTRY : Fld := ⟨0x100, 4, 6⟩
/-- R359: TAB_ADDR.TABLE. -/
def TAB_ADDR_TABLE : Fld := ⟨0x100, 16, 4⟩
/-- R359: TAB_ADDR.AUTO. -/
def TAB_ADDR_AUTO : Fld := ⟨0x100, 31, 1⟩
/-- R359: TAB_DATA.DATA. -/
def TAB_DATA_DATA : Fld := ⟨0x104, 0, 32⟩
/-- R359: TSI_STATUS.ACTIVE. -/
def TSI_STATUS_ACTIVE : Fld := ⟨0x110, 0, 1⟩
/-- R359: TSI_STATUS.CLONE_BUSY. -/
def TSI_STATUS_CLONE_BUSY : Fld := ⟨0x110, 1, 1⟩
/-- R359: TSI_STATUS.CONN_PENDING. -/
def TSI_STATUS_CONN_PENDING : Fld := ⟨0x110, 2, 1⟩
/-- R359: FRAME_COUNT.COUNT. -/
def FRAME_COUNT_COUNT : Fld := ⟨0x114, 0, 32⟩
/-- R359: IDLE.CODE. -/
def IDLE_CODE : Fld := ⟨0x118, 0, 8⟩
/-- R359: AAF_SA_LO.SA. -/
def AAF_SA_LO_SA : Fld := ⟨0x120, 0, 32⟩
/-- R359: AAF_SA_HI.SA. -/
def AAF_SA_HI_SA : Fld := ⟨0x124, 0, 16⟩
/-- R361: the counter NOT_AAF. -/
def CNT_NOT_AAF : Nat := 0x180
/-- R361: the counter UNKNOWN_STREAM. -/
def CNT_UNKNOWN_STREAM : Nat := 0x188
/-- R361: the counter SWAPS. -/
def CNT_SWAPS : Nat := 0x190
/-- The registers of this kind of page. -/
def specs : List RegSpec := [
  ⟨0x100, 4, 1, 0x800F03FF, 0x0, 0x0, 0x0, 0x0, 0x0, 0x0, false, 0x0⟩ /- TAB_ADDR -/,
  ⟨0x104, 4, 1, 0x0, 0x0, 0x0, 0x0, 0x0, 0xFFFFFFFF, 0xFFFFFFFF, false, 0x0⟩ /- TAB_DATA -/,
  ⟨0x110, 4, 1, 0x0, 0x0, 0x0, 0x0, 0x0, 0x7, 0x0, false, 0x0⟩ /- TSI_STATUS -/,
  ⟨0x114, 4, 1, 0x0, 0x0, 0x0, 0x0, 0x0, 0xFFFFFFFF, 0x0, false, 0x0⟩ /- FRAME_COUNT -/,
  ⟨0x118, 4, 1, 0xFF, 0x0, 0x0, 0x0, 0x0, 0x0, 0x0, false, 0xD5⟩ /- IDLE -/,
  ⟨0x120, 4, 1, 0x0, 0x0, 0x0, 0x0, 0x0, 0xFFFFFFFF, 0xFFFFFFFF, false, 0x0⟩ /- AAF_SA_LO -/,
  ⟨0x124, 4, 1, 0x0, 0x0, 0x0, 0x0, 0x0, 0xFFFF, 0xFFFF, false, 0x0⟩ /- AAF_SA_HI -/]
/-- The offsets of the 64-bit counters of this kind of page (R28). -/
def counters : List Nat := [0x180, 0x188, 0x190]
end Tsi

namespace Pcie
/-- R414: IDENT.SUBSYS_VID. -/
def IDENT_SUBSYS_VID : Fld := ⟨0x100, 0, 16⟩
/-- R414: IDENT.SUBSYS_ID. -/
def IDENT_SUBSYS_ID : Fld := ⟨0x100, 16, 16⟩
/-- R414: LINK_CFG.LINK_EN. -/
def LINK_CFG_LINK_EN : Fld := ⟨0x104, 0, 1⟩
/-- R414: LINK_CFG.MAX_SPEED. -/
def LINK_CFG_MAX_SPEED : Fld := ⟨0x104, 1, 3⟩
/-- R414: LINK_CFG.CFG_READY. -/
def LINK_CFG_CFG_READY : Fld := ⟨0x104, 8, 1⟩
/-- R414: LINK_STATUS.SPEED. -/
def LINK_STATUS_SPEED : Fld := ⟨0x108, 0, 3⟩
/-- R414: LINK_STATUS.WIDTH. -/
def LINK_STATUS_WIDTH : Fld := ⟨0x108, 4, 3⟩
/-- R414: LINK_STATUS.DL_UP. -/
def LINK_STATUS_DL_UP : Fld := ⟨0x108, 8, 1⟩
/-- R414: LINK_STATUS.BME. -/
def LINK_STATUS_BME : Fld := ⟨0x108, 9, 1⟩
/-- R414: LINK_STATUS.MSIX_EN. -/
def LINK_STATUS_MSIX_EN : Fld := ⟨0x108, 10, 1⟩
/-- R414: LINK_STATUS.NS_EN. -/
def LINK_STATUS_NS_EN : Fld := ⟨0x108, 11, 1⟩
/-- R414: LINK_STATUS.ATOMIC_EN. -/
def LINK_STATUS_ATOMIC_EN : Fld := ⟨0x108, 12, 1⟩
/-- R414: LINK_STATUS.CFG_LATE. -/
def LINK_STATUS_CFG_LATE : Fld := ⟨0x108, 13, 1⟩
/-- R414: LINK_STATUS.LTSSM. -/
def LINK_STATUS_LTSSM : Fld := ⟨0x108, 16, 6⟩
/-- R414: the counter CA_SENT. -/
def CNT_CA_SENT : Nat := 0x180
/-- R414: the counter UR_SENT. -/
def CNT_UR_SENT : Nat := 0x188
/-- R414: the counter CPL_TIMEOUTS. -/
def CNT_CPL_TIMEOUTS : Nat := 0x190
/-- R414: the counter POISONED_RX. -/
def CNT_POISONED_RX : Nat := 0x198
/-- R414: the counter MSIX_DROPPED. -/
def CNT_MSIX_DROPPED : Nat := 0x1A0
/-- R414: the counter LINK_DOWNS. -/
def CNT_LINK_DOWNS : Nat := 0x1A8
/-- R414: the counter FLRS. -/
def CNT_FLRS : Nat := 0x1B0
/-- The registers of this kind of page. -/
def specs : List RegSpec := [
  ⟨0x100, 4, 1, 0xFFFFFFFF, 0x0, 0x0, 0x0, 0x0, 0x0, 0x0, true, 0x0⟩ /- IDENT -/,
  ⟨0x104, 4, 1, 0xF, 0x0, 0x100, 0x0, 0x0, 0x0, 0x0, true, 0x9⟩ /- LINK_CFG -/,
  ⟨0x108, 4, 1, 0x0, 0x0, 0x0, 0x0, 0x0, 0x3F3F77, 0x0, false, 0x0⟩ /- LINK_STATUS -/]
/-- The offsets of the 64-bit counters of this kind of page (R28). -/
def counters : List Nat := [0x180, 0x188, 0x190, 0x198, 0x1A0, 0x1A8, 0x1B0]
end Pcie

namespace Brg
/-- R415: WIN_CFG.EN, register i of 16. -/
def WIN_CFG_EN (i : Nat) : Fld := ⟨0x100 + 16 * i, 0, 1⟩
/-- R415: WIN_CFG.TARGET, register i of 16. -/
def WIN_CFG_TARGET (i : Nat) : Fld := ⟨0x100 + 16 * i, 1, 1⟩
/-- R415: WIN_CFG.SWAP, register i of 16. -/
def WIN_CFG_SWAP (i : Nat) : Fld := ⟨0x100 + 16 * i, 2, 2⟩
/-- R415: WIN_CFG.ATOMIC, register i of 16. -/
def WIN_CFG_ATOMIC (i : Nat) : Fld := ⟨0x100 + 16 * i, 4, 1⟩
/-- R415: WIN_CFG.NS, register i of 16. -/
def WIN_CFG_NS (i : Nat) : Fld := ⟨0x100 + 16 * i, 5, 1⟩
/-- R415: WIN_CFG.LOG2, register i of 16. -/
def WIN_CFG_LOG2 (i : Nat) : Fld := ⟨0x100 + 16 * i, 8, 6⟩
/-- R415: WIN_REMOTE_LO.ADDR, register i of 16. -/
def WIN_REMOTE_LO_ADDR (i : Nat) : Fld := ⟨0x104 + 16 * i, 12, 20⟩
/-- R415: WIN_REMOTE_HI.ADDR, register i of 16. -/
def WIN_REMOTE_HI_ADDR (i : Nat) : Fld := ⟨0x108 + 16 * i, 0, 32⟩
/-- R415: PEER_CFG.EN. -/
def PEER_CFG_EN : Fld := ⟨0x200, 0, 1⟩
/-- R415: PEER_CFG.POLL_US. -/
def PEER_CFG_POLL_US : Fld := ⟨0x200, 16, 16⟩
/-- R415: PEER_TIMEOUT.US. -/
def PEER_TIMEOUT_US : Fld := ⟨0x204, 0, 16⟩
/-- R415: PEER_STATUS.PATH_UP. -/
def PEER_STATUS_PATH_UP : Fld := ⟨0x208, 0, 1⟩
/-- R415: PEER_STATUS.BACKOFF. -/
def PEER_STATUS_BACKOFF : Fld := ⟨0x208, 1, 1⟩
/-- R415: PEER_STATUS.OPEN. -/
def PEER_STATUS_OPEN : Fld := ⟨0x208, 8, 7⟩
/-- R415: PEER_STATUS.SUMMARY_VALID. -/
def PEER_STATUS_SUMMARY_VALID : Fld := ⟨0x208, 16, 1⟩
/-- R415: PEER_SUMMARY.PAGES, register i of 9. -/
def PEER_SUMMARY_PAGES (i : Nat) : Fld := ⟨0x210 + 4 * i, 0, 32⟩
/-- R415: PWLOG_LEVEL.COUNT. -/
def PWLOG_LEVEL_COUNT : Fld := ⟨0x240, 0, 5⟩
/-- R415: PWLOG_W0.CAUSE. -/
def PWLOG_W0_CAUSE : Fld := ⟨0x244, 0, 3⟩
/-- R415: PWLOG_W0.ORIG. -/
def PWLOG_W0_ORIG : Fld := ⟨0x244, 4, 4⟩
/-- R415: PWLOG_W0.WINDOW. -/
def PWLOG_W0_WINDOW : Fld := ⟨0x244, 8, 5⟩
/-- R415: PWLOG_W0.CODE. -/
def PWLOG_W0_CODE : Fld := ⟨0x244, 16, 8⟩
/-- R415: PWLOG_W0.VALID. -/
def PWLOG_W0_VALID : Fld := ⟨0x244, 31, 1⟩
/-- R415: PWLOG_W1.ADDR. -/
def PWLOG_W1_ADDR : Fld := ⟨0x248, 0, 32⟩
/-- R415: PWLOG_W2.ADDR. -/
def PWLOG_W2_ADDR : Fld := ⟨0x24C, 0, 32⟩
/-- R415: PWLOG_W3.TIME. -/
def PWLOG_W3_TIME : Fld := ⟨0x250, 0, 32⟩
/-- R415: PWLOG_POP.POP. -/
def PWLOG_POP_POP : Fld := ⟨0x254, 0, 1⟩
/-- R416: the counter PEER_REQ_TX. -/
def CNT_PEER_REQ_TX : Nat := 0x300
/-- R416: the counter PEER_REQ_RX. -/
def CNT_PEER_REQ_RX : Nat := 0x308
/-- R416: the counter PEER_RETRIES. -/
def CNT_PEER_RETRIES : Nat := 0x310
/-- R416: the counter PEER_TIMEOUTS. -/
def CNT_PEER_TIMEOUTS : Nat := 0x318
/-- R416: the counter LATE_CPL. -/
def CNT_LATE_CPL : Nat := 0x320
/-- R416: the counter POLL_FAIL. -/
def CNT_POLL_FAIL : Nat := 0x328
/-- R416: the counter PW_FAILS. -/
def CNT_PW_FAILS : Nat := 0x330
/-- R416: the counter PWLOG_LOST. -/
def CNT_PWLOG_LOST : Nat := 0x338
/-- R416: the counter SEM_FAILS. -/
def CNT_SEM_FAILS : Nat := 0x340
/-- The registers of this kind of page. -/
def specs : List RegSpec := [
  ⟨0x100, 16, 16, 0x3F3F, 0x0, 0x0, 0x0, 0x0, 0x0, 0x0, false, 0xC00⟩ /- WIN_CFG -/,
  ⟨0x104, 16, 16, 0xFFFFF000, 0x0, 0x0, 0x0, 0x0, 0x0, 0x0, false, 0x0⟩ /- WIN_REMOTE_LO -/,
  ⟨0x108, 16, 16, 0xFFFFFFFF, 0x0, 0x0, 0x0, 0x0, 0x0, 0x0, false, 0x0⟩ /- WIN_REMOTE_HI -/,
  ⟨0x200, 4, 1, 0xFFFF0001, 0x0, 0x0, 0x0, 0x0, 0x0, 0x0, false, 0x640000⟩ /- PEER_CFG -/,
  ⟨0x204, 4, 1, 0xFFFF, 0x0, 0x0, 0x0, 0x0, 0x0, 0x0, false, 0x32⟩ /- PEER_TIMEOUT -/,
  ⟨0x208, 4, 1, 0x0, 0x0, 0x0, 0x0, 0x0, 0x17F03, 0x0, false, 0x0⟩ /- PEER_STATUS -/,
  ⟨0x210, 4, 9, 0x0, 0x0, 0x0, 0x0, 0x0, 0xFFFFFFFF, 0x0, false, 0x0⟩ /- PEER_SUMMARY -/,
  ⟨0x240, 4, 1, 0x0, 0x0, 0x0, 0x0, 0x0, 0x1F, 0x0, false, 0x0⟩ /- PWLOG_LEVEL -/,
  ⟨0x244, 4, 1, 0x0, 0x0, 0x0, 0x0, 0x0, 0x80FF1FF7, 0x0, false, 0x0⟩ /- PWLOG_W0 -/,
  ⟨0x248, 4, 1, 0x0, 0x0, 0x0, 0x0, 0x0, 0xFFFFFFFF, 0x0, false, 0x0⟩ /- PWLOG_W1 -/,
  ⟨0x24C, 4, 1, 0x0, 0x0, 0x0, 0x0, 0x0, 0xFFFFFFFF, 0x0, false, 0x0⟩ /- PWLOG_W2 -/,
  ⟨0x250, 4, 1, 0x0, 0x0, 0x0, 0x0, 0x0, 0xFFFFFFFF, 0x0, false, 0x0⟩ /- PWLOG_W3 -/,
  ⟨0x254, 4, 1, 0x0, 0x0, 0x0, 0x1, 0x0, 0x0, 0x0, false, 0x0⟩ /- PWLOG_POP -/]
/-- The offsets of the 64-bit counters of this kind of page (R28). -/
def counters : List Nat := [0x300, 0x308, 0x310, 0x318, 0x320, 0x328, 0x330, 0x338, 0x340]
end Brg

namespace Ring
/-- R417: TAB_ADDR.WORD. -/
def TAB_ADDR_WORD : Fld := ⟨0x100, 0, 3⟩
/-- R417: TAB_ADDR.ENTRY. -/
def TAB_ADDR_ENTRY : Fld := ⟨0x100, 4, 6⟩
/-- R417: TAB_ADDR.TABLE. -/
def TAB_ADDR_TABLE : Fld := ⟨0x100, 16, 4⟩
/-- R417: TAB_ADDR.AUTO. -/
def TAB_ADDR_AUTO : Fld := ⟨0x100, 31, 1⟩
/-- R417: TAB_DATA.DATA. -/
def TAB_DATA_DATA : Fld := ⟨0x104, 0, 32⟩
/-- R417: RX_TAIL.TAIL, register i of 64. -/
def RX_TAIL_TAIL (i : Nat) : Fld := ⟨0x200 + 4 * i, 0, 12⟩
/-- R417: TX_TAIL.TAIL, register i of 64. -/
def TX_TAIL_TAIL (i : Nat) : Fld := ⟨0x300 + 4 * i, 0, 12⟩
/-- R417: RX_HEAD.HEAD, register i of 64. -/
def RX_HEAD_HEAD (i : Nat) : Fld := ⟨0x400 + 4 * i, 0, 12⟩
/-- R417: TX_HEAD.HEAD, register i of 64. -/
def TX_HEAD_HEAD (i : Nat) : Fld := ⟨0x500 + 4 * i, 0, 12⟩
/-- R418: the counter RX_FRAMES. -/
def CNT_RX_FRAMES : Nat := 0x180
/-- R418: the counter TX_FRAMES. -/
def CNT_TX_FRAMES : Nat := 0x188
/-- R418: the counter RX_RING_FULL. -/
def CNT_RX_RING_FULL : Nat := 0x190
/-- R418: the counter TX_DESC_ERR. -/
def CNT_TX_DESC_ERR : Nat := 0x198
/-- R418: the counter HOST_PATH_DROPS. -/
def CNT_HOST_PATH_DROPS : Nat := 0x1A0
/-- The registers of this kind of page. -/
def specs : List RegSpec := [
  ⟨0x100, 4, 1, 0x800F03F7, 0x0, 0x0, 0x0, 0x0, 0x0, 0x0, false, 0x0⟩ /- TAB_ADDR -/,
  ⟨0x104, 4, 1, 0xFFFFFFFF, 0x0, 0x0, 0x0, 0x0, 0x0, 0x0, false, 0x0⟩ /- TAB_DATA -/,
  ⟨0x200, 4, 64, 0xFFF, 0x0, 0x0, 0x0, 0x0, 0x0, 0x0, false, 0x0⟩ /- RX_TAIL -/,
  ⟨0x300, 4, 64, 0xFFF, 0x0, 0x0, 0x0, 0x0, 0x0, 0x0, false, 0x0⟩ /- TX_TAIL -/,
  ⟨0x400, 4, 64, 0x0, 0x0, 0x0, 0x0, 0x0, 0xFFF, 0x0, false, 0x0⟩ /- RX_HEAD -/,
  ⟨0x500, 4, 64, 0x0, 0x0, 0x0, 0x0, 0x0, 0xFFF, 0x0, false, 0x0⟩ /- TX_HEAD -/]
/-- The offsets of the 64-bit counters of this kind of page (R28). -/
def counters : List Nat := [0x180, 0x188, 0x190, 0x198, 0x1A0]
end Ring

namespace Dma
/-- R419: TAB_ADDR.ALL. -/
def TAB_ADDR_ALL : Fld := ⟨0x100, 0, 32⟩
/-- R419: TAB_DATA.DATA. -/
def TAB_DATA_DATA : Fld := ⟨0x104, 0, 32⟩
/-- R419: MS_WIN_BASE.OFFSET. -/
def MS_WIN_BASE_OFFSET : Fld := ⟨0x110, 0, 24⟩
/-- R419: MS_WIN_LIMIT.OFFSET. -/
def MS_WIN_LIMIT_OFFSET : Fld := ⟨0x114, 0, 24⟩
/-- R419: SP_WIN_BASE.OFFSET. -/
def SP_WIN_BASE_OFFSET : Fld := ⟨0x118, 0, 21⟩
/-- R419: SP_WIN_LIMIT.OFFSET. -/
def SP_WIN_LIMIT_OFFSET : Fld := ⟨0x11C, 0, 21⟩
/-- R419: DONE_MAP.MAP. -/
def DONE_MAP_MAP : Fld := ⟨0x120, 0, 32⟩
/-- R419: HALT_MAP.MAP. -/
def HALT_MAP_MAP : Fld := ⟨0x124, 0, 32⟩
/-- R419: TAIL.TAIL, register i of 32. -/
def TAIL_TAIL (i : Nat) : Fld := ⟨0x200 + 4 * i, 0, 10⟩
/-- R419: HEAD.HEAD, register i of 32. -/
def HEAD_HEAD (i : Nat) : Fld := ⟨0x280 + 4 * i, 0, 10⟩
/-- R419: CH_CTRL.RESUME, register i of 32. -/
def CH_CTRL_RESUME (i : Nat) : Fld := ⟨0x300 + 4 * i, 0, 1⟩
/-- R419: CH_CTRL.SKIP, register i of 32. -/
def CH_CTRL_SKIP (i : Nat) : Fld := ⟨0x300 + 4 * i, 1, 1⟩
/-- R419: CH_CTRL.ABORT, register i of 32. -/
def CH_CTRL_ABORT (i : Nat) : Fld := ⟨0x300 + 4 * i, 2, 1⟩
/-- R419: CH_CTRL.ST, register i of 32. -/
def CH_CTRL_ST (i : Nat) : Fld := ⟨0x300 + 4 * i, 8, 3⟩
/-- R420: the counter DESCS. -/
def CNT_DESCS : Nat := 0x180
/-- R420: the counter BYTES. -/
def CNT_BYTES : Nat := 0x188
/-- R420: the counter BUS_ERRORS. -/
def CNT_BUS_ERRORS : Nat := 0x190
/-- R420: the counter MISALIGNED. -/
def CNT_MISALIGNED : Nat := 0x198
/-- R420: the counter RANGE_ERRORS. -/
def CNT_RANGE_ERRORS : Nat := 0x1A0
/-- The registers of this kind of page. -/
def specs : List RegSpec := [
  ⟨0x100, 4, 1, 0x800F01F7, 0x0, 0x0, 0x0, 0x0, 0x0, 0x0, false, 0x0⟩ /- TAB_ADDR -/,
  ⟨0x104, 4, 1, 0xFFFFFFFF, 0x0, 0x0, 0x0, 0x0, 0x0, 0x0, false, 0x0⟩ /- TAB_DATA -/,
  ⟨0x110, 4, 1, 0xFFFFFF, 0x0, 0x0, 0x0, 0x0, 0x0, 0x0, true, 0xFFFFFF⟩ /- MS_WIN_BASE -/,
  ⟨0x114, 4, 1, 0xFFFFFF, 0x0, 0x0, 0x0, 0x0, 0x0, 0x0, true, 0x0⟩ /- MS_WIN_LIMIT -/,
  ⟨0x118, 4, 1, 0x1FFFFF, 0x0, 0x0, 0x0, 0x0, 0x0, 0x0, true, 0x1FFFFF⟩ /- SP_WIN_BASE -/,
  ⟨0x11C, 4, 1, 0x1FFFFF, 0x0, 0x0, 0x0, 0x0, 0x0, 0x0, true, 0x0⟩ /- SP_WIN_LIMIT -/,
  ⟨0x120, 4, 1, 0x0, 0xFFFFFFFF, 0x0, 0x0, 0x0, 0x0, 0x0, false, 0x0⟩ /- DONE_MAP -/,
  ⟨0x124, 4, 1, 0x0, 0x0, 0x0, 0x0, 0x0, 0xFFFFFFFF, 0x0, false, 0x0⟩ /- HALT_MAP -/,
  ⟨0x200, 4, 32, 0x3FF, 0x0, 0x0, 0x0, 0x0, 0x0, 0x0, false, 0x0⟩ /- TAIL -/,
  ⟨0x280, 4, 32, 0x0, 0x0, 0x0, 0x0, 0x0, 0x3FF, 0x0, false, 0x0⟩ /- HEAD -/,
  ⟨0x300, 4, 32, 0x0, 0x0, 0x7, 0x0, 0x0, 0x700, 0x0, false, 0x0⟩ /- CH_CTRL -/]
/-- The offsets of the 64-bit counters of this kind of page (R28). -/
def counters : List Nat := [0x180, 0x188, 0x190, 0x198, 0x1A0]
end Dma

namespace Mpc
/-- R321: MP_CTRL.START, register i of 4. -/
def MP_CTRL_START (i : Nat) : Fld := ⟨0x100 + 16 * i, 0, 1⟩
/-- R321: MP_CTRL.GO, register i of 4. -/
def MP_CTRL_GO (i : Nat) : Fld := ⟨0x100 + 16 * i, 1, 1⟩
/-- R321: MP_CTRL.FENCE_REQ, register i of 4. -/
def MP_CTRL_FENCE_REQ (i : Nat) : Fld := ⟨0x100 + 16 * i, 2, 1⟩
/-- R321: MP_CTRL.SPARE, register i of 4. -/
def MP_CTRL_SPARE (i : Nat) : Fld := ⟨0x100 + 16 * i, 3, 1⟩
/-- R321: MP_CTRL.REDIRECT, register i of 4. -/
def MP_CTRL_REDIRECT (i : Nat) : Fld := ⟨0x100 + 16 * i, 4, 2⟩
/-- R321: MP_ENTRY.OFFSET, register i of 4. -/
def MP_ENTRY_OFFSET (i : Nat) : Fld := ⟨0x104 + 16 * i, 2, 22⟩
/-- R321: MP_STATUS.ST, register i of 4. -/
def MP_STATUS_ST (i : Nat) : Fld := ⟨0x108 + 16 * i, 0, 3⟩
/-- R321: MP_STATUS.CAUSE, register i of 4. -/
def MP_STATUS_CAUSE (i : Nat) : Fld := ⟨0x108 + 16 * i, 4, 2⟩
/-- R321: MP_STATUS.CHANNEL, register i of 4. -/
def MP_STATUS_CHANNEL (i : Nat) : Fld := ⟨0x108 + 16 * i, 8, 2⟩
/-- R321: MP_MISMATCH.PC, register i of 4. -/
def MP_MISMATCH_PC (i : Nat) : Fld := ⟨0x10C + 16 * i, 0, 32⟩
/-- R321: SPARE_CFG.AUTO. -/
def SPARE_CFG_AUTO : Fld := ⟨0x140, 0, 1⟩
/-- R321: FENCE.FENCE. -/
def FENCE_FENCE : Fld := ⟨0x144, 0, 1⟩
/-- R321: MBX_RING.RING. -/
def MBX_RING_RING : Fld := ⟨0x148, 0, 1⟩
/-- R321: MRING_BASE.BASE, register i of 16. -/
def MRING_BASE_BASE (i : Nat) : Fld := ⟨0x200 + 16 * i, 6, 18⟩
/-- R321: MRING_CFG.LOG2, register i of 16. -/
def MRING_CFG_LOG2 (i : Nat) : Fld := ⟨0x204 + 16 * i, 0, 4⟩
/-- R321: MRING_CFG.EN, register i of 16. -/
def MRING_CFG_EN (i : Nat) : Fld := ⟨0x204 + 16 * i, 31, 1⟩
/-- R321: MRING_HEAD.HEAD, register i of 16. -/
def MRING_HEAD_HEAD (i : Nat) : Fld := ⟨0x208 + 16 * i, 0, 12⟩
/-- R321: MRING_TAIL.TAIL, register i of 16. -/
def MRING_TAIL_TAIL (i : Nat) : Fld := ⟨0x20C + 16 * i, 0, 12⟩
/-- R322: the counter TX_FRAMES. -/
def CNT_TX_FRAMES : Nat := 0x300
/-- R322: the counter RX_FRAMES. -/
def CNT_RX_FRAMES : Nat := 0x308
/-- R322: the counter RX_RING_FULL. -/
def CNT_RX_RING_FULL : Nat := 0x310
/-- R322: the counter TX_DESC_ERR. -/
def CNT_TX_DESC_ERR : Nat := 0x318
/-- R322: the counter MISMATCHES. -/
def CNT_MISMATCHES : Nat := 0x320
/-- R322: the counter FENCES. -/
def CNT_FENCES : Nat := 0x328
/-- R322: the counter SRAM_ECC_CORR. -/
def CNT_SRAM_ECC_CORR : Nat := 0x330
/-- The registers of this kind of page. -/
def specs : List RegSpec := [
  ⟨0x100, 16, 4, 0x38, 0x0, 0x7, 0x0, 0x0, 0x0, 0x0, false, 0x0⟩ /- MP_CTRL -/,
  ⟨0x104, 16, 4, 0xFFFFFC, 0x0, 0x0, 0x0, 0x0, 0x0, 0x0, false, 0x0⟩ /- MP_ENTRY -/,
  ⟨0x108, 16, 4, 0x0, 0x0, 0x0, 0x0, 0x0, 0x337, 0x0, false, 0x0⟩ /- MP_STATUS -/,
  ⟨0x10C, 16, 4, 0x0, 0x0, 0x0, 0x0, 0x0, 0xFFFFFFFF, 0x0, false, 0x0⟩ /- MP_MISMATCH -/,
  ⟨0x140, 4, 1, 0x1, 0x0, 0x0, 0x0, 0x0, 0x0, 0x0, false, 0x1⟩ /- SPARE_CFG -/,
  ⟨0x144, 4, 1, 0x0, 0x0, 0x0, 0x1, 0x0, 0x0, 0x0, false, 0x0⟩ /- FENCE -/,
  ⟨0x148, 4, 1, 0x0, 0x0, 0x0, 0x1, 0x0, 0x0, 0x0, false, 0x0⟩ /- MBX_RING -/,
  ⟨0x200, 16, 16, 0xFFFFC0, 0x0, 0x0, 0x0, 0x0, 0x0, 0x0, false, 0x0⟩ /- MRING_BASE -/,
  ⟨0x204, 16, 16, 0x8000000F, 0x0, 0x0, 0x0, 0x0, 0x0, 0x0, false, 0x4⟩ /- MRING_CFG -/,
  ⟨0x208, 16, 16, 0x0, 0x0, 0x0, 0x0, 0x0, 0xFFF, 0x0, false, 0x0⟩ /- MRING_HEAD -/,
  ⟨0x20C, 16, 16, 0xFFF, 0x0, 0x0, 0x0, 0x0, 0x0, 0x0, false, 0x0⟩ /- MRING_TAIL -/]
/-- The offsets of the 64-bit counters of this kind of page (R28). -/
def counters : List Nat := [0x300, 0x308, 0x310, 0x318, 0x320, 0x328, 0x330]
end Mpc

namespace Tru
/-- R323: MBX_STATUS.ST, register i of 5. -/
def MBX_STATUS_ST (i : Nat) : Fld := ⟨0x100 + 4 * i, 0, 2⟩
/-- R323: MBX_STATUS.SEQ, register i of 5. -/
def MBX_STATUS_SEQ (i : Nat) : Fld := ⟨0x100 + 4 * i, 16, 16⟩
/-- R323: TP_STATUS.RUNNING. -/
def TP_STATUS_RUNNING : Fld := ⟨0x120, 0, 1⟩
/-- R323: TP_STATUS.RESTARTING. -/
def TP_STATUS_RESTARTING : Fld := ⟨0x120, 1, 1⟩
/-- R323: TP_STATUS.CHANNEL. -/
def TP_STATUS_CHANNEL : Fld := ⟨0x120, 8, 2⟩
/-- R323: the counter TP_RESTARTS. -/
def CNT_TP_RESTARTS : Nat := 0x180
/-- R323: the counter MBX_REQUESTS. -/
def CNT_MBX_REQUESTS : Nat := 0x188
/-- The registers of this kind of page. -/
def specs : List RegSpec := [
  ⟨0x100, 4, 5, 0xFFFF0003, 0x0, 0x0, 0x0, 0x0, 0x0, 0x0, true, 0x0⟩ /- MBX_STATUS -/,
  ⟨0x120, 4, 1, 0x0, 0x0, 0x0, 0x0, 0x0, 0x303, 0x0, false, 0x0⟩ /- TP_STATUS -/]
/-- The offsets of the 64-bit counters of this kind of page (R28). -/
def counters : List Nat := [0x180, 0x188]
end Tru

namespace Lck
/-- R469: TAMPER_EN.EN. -/
def TAMPER_EN_EN : Fld := ⟨0x100, 0, 7⟩
/-- R469: TAMPER_LATCH.TRIP. -/
def TAMPER_LATCH_TRIP : Fld := ⟨0x104, 0, 7⟩
/-- R469: WIPE_STATUS.LOCKET_WIPED. -/
def WIPE_STATUS_LOCKET_WIPED : Fld := ⟨0x108, 0, 1⟩
/-- R469: WIPE_STATUS.SLOTS_ZEROED. -/
def WIPE_STATUS_SLOTS_ZEROED : Fld := ⟨0x108, 1, 1⟩
/-- R469: WIPE_STATUS.DEBUG_WIPED. -/
def WIPE_STATUS_DEBUG_WIPED : Fld := ⟨0x108, 2, 1⟩
/-- R469: BOOT_STATUS.SLOT. -/
def BOOT_STATUS_SLOT : Fld := ⟨0x110, 0, 2⟩
/-- R469: BOOT_STATUS.KIND. -/
def BOOT_STATUS_KIND : Fld := ⟨0x110, 2, 2⟩
/-- R469: BOOT_STATUS.TRIAL. -/
def BOOT_STATUS_TRIAL : Fld := ⟨0x110, 4, 1⟩
/-- R469: BOOT_STATUS.REASON. -/
def BOOT_STATUS_REASON : Fld := ⟨0x110, 8, 8⟩
/-- R469: FW_RUNNING.VERSION. -/
def FW_RUNNING_VERSION : Fld := ⟨0x114, 0, 32⟩
/-- R469: FW_COMPAT_MIN.VERSION. -/
def FW_COMPAT_MIN_VERSION : Fld := ⟨0x118, 0, 32⟩
/-- R469: FW_STAGED.VERSION. -/
def FW_STAGED_VERSION : Fld := ⟨0x11C, 0, 32⟩
/-- R469: REC_SEQ.SEQ. -/
def REC_SEQ_SEQ : Fld := ⟨0x120, 0, 32⟩
/-- R469: REC_INFO.VERSION. -/
def REC_INFO_VERSION : Fld := ⟨0x124, 0, 16⟩
/-- R469: REC_INFO.MIGRATED. -/
def REC_INFO_MIGRATED : Fld := ⟨0x124, 16, 1⟩
/-- R469: REC_INFO.MIGRATE. -/
def REC_INFO_MIGRATE : Fld := ⟨0x124, 17, 1⟩
/-- R469: TRIAL_LEFT.S. -/
def TRIAL_LEFT_S : Fld := ⟨0x128, 0, 32⟩
/-- R469: CODE_LOCK.LOCKED, register i of 2. -/
def CODE_LOCK_LOCKED (i : Nat) : Fld := ⟨0x130 + 8 * i, 0, 1⟩
/-- R470: the counter TAMPERS. -/
def CNT_TAMPERS : Nat := 0x180
/-- R470: the counter WIPES. -/
def CNT_WIPES : Nat := 0x188
/-- R470: the counter BOOTS_COLD. -/
def CNT_BOOTS_COLD : Nat := 0x190
/-- R470: the counter BOOTS_WARM. -/
def CNT_BOOTS_WARM : Nat := 0x198
/-- R470: the counter IMG_BLOCKS. -/
def CNT_IMG_BLOCKS : Nat := 0x1A0
/-- R470: the counter CRC_FAILS. -/
def CNT_CRC_FAILS : Nat := 0x1A8
/-- R470: the counter VERIFY_FAILS. -/
def CNT_VERIFY_FAILS : Nat := 0x1B0
/-- R470: the counter LC_FAILS. -/
def CNT_LC_FAILS : Nat := 0x1B8
/-- The registers of this kind of page. -/
def specs : List RegSpec := [
  ⟨0x100, 4, 1, 0x0, 0x0, 0x7F, 0x0, 0x0, 0x0, 0x0, true, 0x0⟩ /- TAMPER_EN -/,
  ⟨0x104, 4, 1, 0x0, 0x7F, 0x0, 0x0, 0x0, 0x0, 0x0, true, 0x0⟩ /- TAMPER_LATCH -/,
  ⟨0x108, 4, 1, 0x0, 0x0, 0x0, 0x0, 0x0, 0x7, 0x0, false, 0x0⟩ /- WIPE_STATUS -/,
  ⟨0x110, 4, 1, 0x0, 0x0, 0x0, 0x0, 0x0, 0xFF1F, 0x0, false, 0x3⟩ /- BOOT_STATUS -/,
  ⟨0x114, 4, 1, 0x0, 0x0, 0x0, 0x0, 0x0, 0xFFFFFFFF, 0x0, false, 0x0⟩ /- FW_RUNNING -/,
  ⟨0x118, 4, 1, 0x0, 0x0, 0x0, 0x0, 0x0, 0xFFFFFFFF, 0x0, false, 0x0⟩ /- FW_COMPAT_MIN -/,
  ⟨0x11C, 4, 1, 0x0, 0x0, 0x0, 0x0, 0x0, 0xFFFFFFFF, 0x0, false, 0x0⟩ /- FW_STAGED -/,
  ⟨0x120, 4, 1, 0x0, 0x0, 0x0, 0x0, 0x0, 0xFFFFFFFF, 0x0, false, 0x0⟩ /- REC_SEQ -/,
  ⟨0x124, 4, 1, 0x0, 0x0, 0x0, 0x0, 0x0, 0x3FFFF, 0x0, false, 0x0⟩ /- REC_INFO -/,
  ⟨0x128, 4, 1, 0x0, 0x0, 0x0, 0x0, 0x0, 0xFFFFFFFF, 0x0, false, 0x0⟩ /- TRIAL_LEFT -/,
  ⟨0x130, 8, 2, 0x1, 0x0, 0x0, 0x0, 0x0, 0x0, 0x0, true, 0x0⟩ /- CODE_LOCK -/]
/-- The offsets of the 64-bit counters of this kind of page (R28). -/
def counters : List Nat := [0x180, 0x188, 0x190, 0x198, 0x1A0, 0x1A8, 0x1B0, 0x1B8]
end Lck

namespace Scr
/-- R421: MBX_RING.RING. -/
def MBX_RING_RING : Fld := ⟨0x100, 0, 1⟩
/-- R421: DB_SET.BITS. -/
def DB_SET_BITS : Fld := ⟨0x104, 0, 16⟩
/-- R421: the counter ECC_CORR. -/
def CNT_ECC_CORR : Nat := 0x180
/-- The registers of this kind of page. -/
def specs : List RegSpec := [
  ⟨0x100, 4, 1, 0x0, 0x0, 0x0, 0x1, 0x0, 0x0, 0x0, false, 0x0⟩ /- MBX_RING -/,
  ⟨0x104, 4, 1, 0x0, 0x0, 0xFFFF, 0x0, 0x0, 0x0, 0x0, false, 0x0⟩ /- DB_SET -/]
/-- The offsets of the 64-bit counters of this kind of page (R28). -/
def counters : List Nat := [0x180]
end Scr

namespace Dbg
/-- R471: STATE.ST. -/
def STATE_ST : Fld := ⟨0x100, 0, 2⟩
/-- R471: CHAL.NONCE, register i of 3. -/
def CHAL_NONCE (i : Nat) : Fld := ⟨0x104 + 4 * i, 0, 32⟩
/-- R471: CHAL_REQ.GO. -/
def CHAL_REQ_GO : Fld := ⟨0x110, 0, 1⟩
/-- R471: TOKEN_W.TOKEN, register i of 30. -/
def TOKEN_W_TOKEN (i : Nat) : Fld := ⟨0x140 + 4 * i, 0, 32⟩
/-- R471: REQ.GO. -/
def REQ_GO : Fld := ⟨0x1B8, 0, 1⟩
/-- R471: RESULT.RES. -/
def RESULT_RES : Fld := ⟨0x1BC, 0, 3⟩
/-- R471: the counter TOKEN_FAILS. -/
def CNT_TOKEN_FAILS : Nat := 0x1C0
/-- R471: the counter OPENS. -/
def CNT_OPENS : Nat := 0x1C8
/-- The registers of this kind of page. -/
def specs : List RegSpec := [
  ⟨0x100, 4, 1, 0x0, 0x0, 0x0, 0x0, 0x0, 0x3, 0x0, false, 0x0⟩ /- STATE -/,
  ⟨0x104, 4, 3, 0x0, 0x0, 0x0, 0x0, 0x0, 0xFFFFFFFF, 0x0, false, 0x0⟩ /- CHAL -/,
  ⟨0x110, 4, 1, 0x0, 0x0, 0x0, 0x1, 0x0, 0x0, 0x0, false, 0x0⟩ /- CHAL_REQ -/,
  ⟨0x140, 4, 30, 0xFFFFFFFF, 0x0, 0x0, 0x0, 0x0, 0x0, 0x0, false, 0x0⟩ /- TOKEN_W -/,
  ⟨0x1B8, 4, 1, 0x0, 0x0, 0x0, 0x1, 0x0, 0x0, 0x0, false, 0x0⟩ /- REQ -/,
  ⟨0x1BC, 4, 1, 0x0, 0x0, 0x0, 0x0, 0x0, 0x7, 0x0, false, 0x0⟩ /- RESULT -/]
/-- The offsets of the 64-bit counters of this kind of page (R28). -/
def counters : List Nat := [0x1C0, 0x1C8]
end Dbg

namespace Msec
/-- R382: TAB_ADDR.WORD. -/
def TAB_ADDR_WORD : Fld := ⟨0x100, 0, 5⟩
/-- R382: TAB_ADDR.ENTRY. -/
def TAB_ADDR_ENTRY : Fld := ⟨0x100, 5, 10⟩
/-- R382: TAB_ADDR.TABLE. -/
def TAB_ADDR_TABLE : Fld := ⟨0x100, 16, 4⟩
/-- R382: TAB_ADDR.AUTO. -/
def TAB_ADDR_AUTO : Fld := ⟨0x100, 31, 1⟩
/-- R382: TAB_DATA.DATA. -/
def TAB_DATA_DATA : Fld := ⟨0x104, 0, 32⟩
/-- R382: PN_THRESH32.PN. -/
def PN_THRESH32_PN : Fld := ⟨0x110, 0, 32⟩
/-- R382: PN_THRESH64_LO.PN. -/
def PN_THRESH64_LO_PN : Fld := ⟨0x114, 0, 32⟩
/-- R382: PN_THRESH64_HI.PN. -/
def PN_THRESH64_HI_PN : Fld := ⟨0x118, 0, 32⟩
/-- R382: EXEMPT_ETYPE.ETYPE, register i of 2. -/
def EXEMPT_ETYPE_ETYPE (i : Nat) : Fld := ⟨0x11C + 4 * i, 0, 16⟩
/-- R382: EXEMPT_ETYPE.EN, register i of 2. -/
def EXEMPT_ETYPE_EN (i : Nat) : Fld := ⟨0x11C + 4 * i, 31, 1⟩
/-- R382: PN_EVENT.PORT. -/
def PN_EVENT_PORT : Fld := ⟨0x124, 0, 5⟩
/-- R382: PN_EVENT.AN. -/
def PN_EVENT_AN : Fld := ⟨0x124, 8, 2⟩
/-- R382: PN_EVENT.SC. -/
def PN_EVENT_SC : Fld := ⟨0x124, 10, 2⟩
/-- R382: PN_EVENT.RX. -/
def PN_EVENT_RX : Fld := ⟨0x124, 12, 1⟩
/-- R382: LANES.USED. -/
def LANES_USED : Fld := ⟨0x128, 0, 7⟩
/-- R382: TX_AN.AN, register i of 32. -/
def TX_AN_AN (i : Nat) : Fld := ⟨0x200 + 4 * i, 0, 2⟩
/-- R382: KEY_SEL.SLOT. -/
def KEY_SEL_SLOT : Fld := ⟨0x400, 0, 10⟩
/-- R382: KEY_W.KEY, register i of 8. -/
def KEY_W_KEY (i : Nat) : Fld := ⟨0x404 + 4 * i, 0, 32⟩
/-- R382: SALT_W.SALT, register i of 3. -/
def SALT_W_SALT (i : Nat) : Fld := ⟨0x424 + 4 * i, 0, 32⟩
/-- R382: KEY_CTRL.BIND. -/
def KEY_CTRL_BIND : Fld := ⟨0x430, 0, 2⟩
/-- R382: KEY_CTRL.PAGE. -/
def KEY_CTRL_PAGE : Fld := ⟨0x430, 8, 6⟩
/-- R382: KEY_CTRL.AES256. -/
def KEY_CTRL_AES256 : Fld := ⟨0x430, 16, 1⟩
/-- R382: KEY_CTRL.LOAD. -/
def KEY_CTRL_LOAD : Fld := ⟨0x430, 24, 1⟩
/-- R382: KEY_CTRL.ZERO. -/
def KEY_CTRL_ZERO : Fld := ⟨0x430, 25, 1⟩
/-- R382: KEY_GCM.COUNT, register i of 2. -/
def KEY_GCM_COUNT (i : Nat) : Fld := ⟨0x434 + 4 * i, 0, 32⟩
/-- R382: KEY_CMAC.COUNT, register i of 2. -/
def KEY_CMAC_COUNT (i : Nat) : Fld := ⟨0x43C + 4 * i, 0, 32⟩
/-- The registers of this kind of page. -/
def specs : List RegSpec := [
  ⟨0x100, 4, 1, 0x800F7FFF, 0x0, 0x0, 0x0, 0x0, 0x0, 0x0, false, 0x0⟩ /- TAB_ADDR -/,
  ⟨0x104, 4, 1, 0x0, 0x0, 0x0, 0x0, 0x0, 0xFFFFFFFF, 0xFFFFFFFF, false, 0x0⟩ /- TAB_DATA -/,
  ⟨0x110, 4, 1, 0xFFFFFFFF, 0x0, 0x0, 0x0, 0x0, 0x0, 0x0, false, 0xF0000000⟩ /- PN_THRESH32 -/,
  ⟨0x114, 4, 1, 0xFFFFFFFF, 0x0, 0x0, 0x0, 0x0, 0x0, 0x0, false, 0x0⟩ /- PN_THRESH64_LO -/,
  ⟨0x118, 4, 1, 0xFFFFFFFF, 0x0, 0x0, 0x0, 0x0, 0x0, 0x0, false, 0xFFFFFF00⟩ /- PN_THRESH64_HI -/,
  ⟨0x11C, 4, 2, 0x8000FFFF, 0x0, 0x0, 0x0, 0x0, 0x0, 0x0, false, 0x0⟩ /- EXEMPT_ETYPE -/,
  ⟨0x124, 4, 1, 0x0, 0x0, 0x0, 0x0, 0x0, 0x1F1F, 0x0, false, 0x0⟩ /- PN_EVENT -/,
  ⟨0x128, 4, 1, 0x0, 0x0, 0x0, 0x0, 0x0, 0x7F, 0x0, false, 0x0⟩ /- LANES -/,
  ⟨0x200, 4, 32, 0x3, 0x0, 0x0, 0x0, 0x0, 0x0, 0x0, false, 0x0⟩ /- TX_AN -/,
  ⟨0x400, 4, 1, 0x3FF, 0x0, 0x0, 0x0, 0x0, 0x0, 0x0, true, 0x0⟩ /- KEY_SEL -/,
  ⟨0x404, 4, 8, 0x0, 0x0, 0x0, 0xFFFFFFFF, 0x0, 0x0, 0x0, true, 0x0⟩ /- KEY_W -/,
  ⟨0x424, 4, 3, 0x0, 0x0, 0x0, 0xFFFFFFFF, 0x0, 0x0, 0x0, true, 0x0⟩ /- SALT_W -/,
  ⟨0x430, 4, 1, 0x13F03, 0x0, 0x0, 0x3000000, 0x0, 0x0, 0x0, true, 0x0⟩ /- KEY_CTRL -/,
  ⟨0x434, 4, 2, 0xFFFFFFFF, 0x0, 0x0, 0x0, 0x0, 0x0, 0x0, true, 0x0⟩ /- KEY_GCM -/,
  ⟨0x43C, 4, 2, 0xFFFFFFFF, 0x0, 0x0, 0x0, 0x0, 0x0, 0x0, true, 0x0⟩ /- KEY_CMAC -/]
/-- The offsets of the 64-bit counters of this kind of page (R28). -/
def counters : List Nat := []
end Msec

namespace Lin
/-- R342: MODE.ROLE. -/
def MODE_ROLE : Fld := ⟨0x100, 0, 1⟩
/-- R342: MODE.BAUD. -/
def MODE_BAUD : Fld := ⟨0x100, 8, 16⟩
/-- R342: LIN_CTRL.SLEEP_REQ. -/
def LIN_CTRL_SLEEP_REQ : Fld := ⟨0x160, 0, 1⟩
/-- R342: LIN_CTRL.WAKE_REQ. -/
def LIN_CTRL_WAKE_REQ : Fld := ⟨0x160, 1, 1⟩
/-- R342: SCHED_CFG.SCHED_LEN. -/
def SCHED_CFG_SCHED_LEN : Fld := ⟨0x164, 0, 7⟩
/-- R342: STATUS.LST. -/
def STATUS_LST : Fld := ⟨0x168, 0, 2⟩
/-- R342: STATUS.ENTRY. -/
def STATUS_ENTRY : Fld := ⟨0x168, 8, 6⟩
/-- R342: ID.DIR, register i of 64. -/
def ID_DIR (i : Nat) : Fld := ⟨0x200 + 4 * i, 0, 2⟩
/-- R342: ID.CHK, register i of 64. -/
def ID_CHK (i : Nat) : Fld := ⟨0x200 + 4 * i, 2, 1⟩
/-- R342: ID.LEN, register i of 64. -/
def ID_LEN (i : Nat) : Fld := ⟨0x200 + 4 * i, 8, 4⟩
/-- R342: SCHED.ID, register i of 64. -/
def SCHED_ID (i : Nat) : Fld := ⟨0x300 + 4 * i, 0, 6⟩
/-- R342: SCHED.SLOT, register i of 64. -/
def SCHED_SLOT (i : Nat) : Fld := ⟨0x300 + 4 * i, 16, 16⟩
/-- R342: LOADED.MAP, register i of 2. -/
def LOADED_MAP (i : Nat) : Fld := ⟨0x400 + 4 * i, 0, 32⟩
/-- R342: BUFFER.DATA, register i of 128. -/
def BUFFER_DATA (i : Nat) : Fld := ⟨0x600 + 4 * i, 0, 32⟩
/-- R342: GW_CFG.NET_ID. -/
def GW_CFG_NET_ID : Fld := ⟨0x120, 0, 5⟩
/-- R342: GW_CFG.RX_EN. -/
def GW_CFG_RX_EN : Fld := ⟨0x120, 8, 1⟩
/-- R342: GW_CFG.VLAN_EN. -/
def GW_CFG_VLAN_EN : Fld := ⟨0x120, 9, 1⟩
/-- R342: GW_CFG.FORMAT. -/
def GW_CFG_FORMAT : Fld := ⟨0x120, 10, 1⟩
/-- R342: GW_CFG.MTV_EN. -/
def GW_CFG_MTV_EN : Fld := ⟨0x120, 11, 1⟩
/-- R342: GW_TCI.TCI. -/
def GW_TCI_TCI : Fld := ⟨0x124, 0, 16⟩
/-- R342: GW_DA_LO.DA. -/
def GW_DA_LO_DA : Fld := ⟨0x128, 0, 32⟩
/-- R342: GW_DA_HI.DA. -/
def GW_DA_HI_DA : Fld := ⟨0x12C, 0, 16⟩
/-- R342: GW_SA_LO.SA. -/
def GW_SA_LO_SA : Fld := ⟨0x130, 0, 32⟩
/-- R342: GW_SA_HI.SA. -/
def GW_SA_HI_SA : Fld := ⟨0x134, 0, 16⟩
/-- R342: GW_STREAM_LO.STREAM. -/
def GW_STREAM_LO_STREAM : Fld := ⟨0x138, 0, 32⟩
/-- R342: GW_STREAM_HI.STREAM. -/
def GW_STREAM_HI_STREAM : Fld := ⟨0x13C, 0, 32⟩
/-- R342: EG_IDS.IDS. -/
def EG_IDS_IDS : Fld := ⟨0x140, 0, 32⟩
/-- R342: TX_TTL.MS. -/
def TX_TTL_MS : Fld := ⟨0x144, 0, 16⟩
/-- R343: the counter RX_FRAMES. -/
def CNT_RX_FRAMES : Nat := 0x180
/-- R343: the counter TX_FRAMES. -/
def CNT_TX_FRAMES : Nat := 0x188
/-- R343: the counter NO_RESPONSE. -/
def CNT_NO_RESPONSE : Nat := 0x190
/-- R343: the counter CHECKSUM. -/
def CNT_CHECKSUM : Nat := 0x198
/-- R343: the counter FRAMING. -/
def CNT_FRAMING : Nat := 0x1A0
/-- R343: the counter BIT_ERR. -/
def CNT_BIT_ERR : Nat := 0x1A8
/-- R343: the counter NO_DATA. -/
def CNT_NO_DATA : Nat := 0x1B0
/-- R343: the counter TX_DROPS. -/
def CNT_TX_DROPS : Nat := 0x1B8
/-- The registers of this kind of page. -/
def specs : List RegSpec := [
  ⟨0x100, 4, 1, 0x0, 0x0, 0x0, 0x0, 0x0, 0xFFFF01, 0xFFFF01, false, 0x4B0000⟩ /- MODE -/,
  ⟨0x160, 4, 1, 0x0, 0x0, 0x3, 0x0, 0x0, 0x0, 0x0, false, 0x0⟩ /- LIN_CTRL -/,
  ⟨0x164, 4, 1, 0x0, 0x0, 0x0, 0x0, 0x0, 0x7F, 0x7F, false, 0x0⟩ /- SCHED_CFG -/,
  ⟨0x168, 4, 1, 0x0, 0x0, 0x0, 0x0, 0x0, 0x3F03, 0x0, false, 0x0⟩ /- STATUS -/,
  ⟨0x200, 4, 64, 0x0, 0x0, 0x0, 0x0, 0x0, 0xF07, 0xF07, false, 0x804⟩ /- ID -/,
  ⟨0x300, 4, 64, 0x0, 0x0, 0x0, 0x0, 0x0, 0xFFFF003F, 0xFFFF003F, false, 0x640000⟩ /- SCHED -/,
  ⟨0x400, 4, 2, 0x0, 0x0, 0x0, 0x0, 0x0, 0xFFFFFFFF, 0x0, false, 0x0⟩ /- LOADED -/,
  ⟨0x600, 4, 128, 0x0, 0x0, 0x0, 0x0, 0x0, 0xFFFFFFFF, 0x0, false, 0x0⟩ /- BUFFER -/,
  ⟨0x120, 4, 1, 0x0, 0x0, 0x0, 0x0, 0x0, 0xF1F, 0xF1F, false, 0x0⟩ /- GW_CFG -/,
  ⟨0x124, 4, 1, 0x0, 0x0, 0x0, 0x0, 0x0, 0xFFFF, 0xFFFF, false, 0x0⟩ /- GW_TCI -/,
  ⟨0x128, 4, 1, 0x0, 0x0, 0x0, 0x0, 0x0, 0xFFFFFFFF, 0xFFFFFFFF, false, 0x0⟩ /- GW_DA_LO -/,
  ⟨0x12C, 4, 1, 0x0, 0x0, 0x0, 0x0, 0x0, 0xFFFF, 0xFFFF, false, 0x0⟩ /- GW_DA_HI -/,
  ⟨0x130, 4, 1, 0x0, 0x0, 0x0, 0x0, 0x0, 0xFFFFFFFF, 0xFFFFFFFF, false, 0x0⟩ /- GW_SA_LO -/,
  ⟨0x134, 4, 1, 0x0, 0x0, 0x0, 0x0, 0x0, 0xFFFF, 0xFFFF, false, 0x0⟩ /- GW_SA_HI -/,
  ⟨0x138, 4, 1, 0x0, 0x0, 0x0, 0x0, 0x0, 0xFFFFFFFF, 0xFFFFFFFF, false, 0x0⟩ /- GW_STREAM_LO -/,
  ⟨0x13C, 4, 1, 0x0, 0x0, 0x0, 0x0, 0x0, 0xFFFFFFFF, 0xFFFFFFFF, false, 0x0⟩ /- GW_STREAM_HI -/,
  ⟨0x140, 4, 1, 0x0, 0x0, 0x0, 0x0, 0x0, 0xFFFFFFFF, 0xFFFFFFFF, false, 0x0⟩ /- EG_IDS -/,
  ⟨0x144, 4, 1, 0x0, 0x0, 0x0, 0x0, 0x0, 0xFFFF, 0xFFFF, false, 0x0⟩ /- TX_TTL -/]
/-- The offsets of the 64-bit counters of this kind of page (R28). -/
def counters : List Nat := [0x180, 0x188, 0x190, 0x198, 0x1A0, 0x1A8, 0x1B0, 0x1B8]
end Lin

end Sys2Proof.Machine
end

