-- ==== Sys2Proof/Machine/Page.lean ====
section
/-! DEFINITION. The register pages of BAR0 (R22): their kinds, bases, summary indices, and the page an address falls in. -/
namespace Sys2Proof.Machine

/-- A register page of BAR0 (R22); a numbered page carries its instance number. -/
inductive Page where
  | sys | clk | pwr | age | wake | nm | gpio | otp | trng
  | etp (n : Nat)
  | prs | cls | fib | buf
  | qsch | tgate (n : Nat) | asy
  | time | frer | fab | clsp
  | cip (n : Nat) | can (n : Nat) | tdm (n : Nat) | tsi
  | pcie | brg | ring | dma
  | mpc | tru | lck | scr | dbg
  | msec | lin (n : Nat)
  deriving DecidableEq, Repr

/-- The summary index of a page: its bit position in SYS.EVT_SUMMARY (R22). -/
def Page.index : Page → Nat
  | .sys => 0 | .clk => 1 | .pwr => 2 | .age => 3 | .wake => 4 | .nm => 5 | .gpio => 6 | .otp => 7 | .trng => 8
  | .etp n => 9 + n
  | .prs => 47 | .cls => 48 | .fib => 49 | .buf => 50
  | .qsch => 51 | .tgate n => 52 + n | .asy => 90
  | .time => 91 | .frer => 92 | .fab => 93 | .clsp => 94
  | .cip n => 95 + n | .can n => 159 + n | .tdm n => 223 + n | .tsi => 239
  | .pcie => 240 | .brg => 241 | .ring => 242 | .dma => 243
  | .mpc => 244 | .tru => 245 | .lck => 246 | .scr => 247 | .dbg => 248
  | .msec => 249 | .lin n => 250 + n

/-- The base address of a page in BAR0 (R22); pages are 16 KiB apart in their region. -/
def Page.base : Page → Nat
  | .sys => 0x0 | .clk => 0x4000 | .pwr => 0x8000 | .age => 0xC000 | .wake => 0x10000 | .nm => 0x14000
  | .gpio => 0x18000 | .otp => 0x1C000 | .trng => 0x20000
  | .etp n => 0x100000 + 0x4000 * n
  | .prs => 0x200000 | .cls => 0x204000 | .fib => 0x208000 | .buf => 0x20C000
  | .qsch => 0x300000 | .tgate n => 0x304000 + 0x4000 * n | .asy => 0x39C000
  | .time => 0x400000 | .frer => 0x404000 | .fab => 0x408000 | .clsp => 0x40C000
  | .cip n => 0x500000 + 0x4000 * n
  | .can n => 0x600000 + 0x4000 * n
  | .tdm n => 0x700000 + 0x4000 * n | .tsi => 0x740000
  | .pcie => 0x800000 | .brg => 0x804000 | .ring => 0x808000 | .dma => 0x80C000
  | .mpc => 0x900000 | .tru => 0x904000 | .lck => 0x908000 | .scr => 0x90C000 | .dbg => 0x910000
  | .msec => 0xA00000 | .lin n => 0xA04000 + 0x4000 * n

/-- The number of instances of the page's kind: its instance number is below it. -/
def Page.instances : Page → Nat
  | .etp _ => 38 | .tgate _ => 38 | .cip _ => 64 | .can _ => 64 | .tdm _ => 16 | .lin _ => 16
  | _ => 1

/-- The instance number of a page (R29, ID.INST); 0 for a page that is alone. -/
def Page.inst : Page → Nat
  | .etp n => n | .tgate n => n | .cip n => n | .can n => n | .tdm n => n | .lin n => n
  | _ => 0

/-- The page exists: its instance number is one the device has (R22). -/
def Page.ok (p : Page) : Bool := decide (p.inst < p.instances)

/-- The page whose place is `k` in the region `r`, where a region is 1 MiB of 64 pages (R22). -/
def Page.ofRegion (r k : Nat) : Option Page :=
  match r with
  | 0 =>
    match k with
    | 0 => some .sys | 1 => some .clk | 2 => some .pwr | 3 => some .age | 4 => some .wake | 5 => some .nm
    | 6 => some .gpio | 7 => some .otp | 8 => some .trng | _ => none
  | 1 => if k < 38 then some (.etp k) else none
  | 2 => match k with | 0 => some .prs | 1 => some .cls | 2 => some .fib | 3 => some .buf | _ => none
  | 3 => if k = 0 then some .qsch else if k < 39 then some (.tgate (k - 1)) else if k = 39 then some .asy else none
  | 4 => match k with | 0 => some .time | 1 => some .frer | 2 => some .fab | 3 => some .clsp | _ => none
  | 5 => if k < 64 then some (.cip k) else none
  | 6 => if k < 64 then some (.can k) else none
  | 7 => if k < 16 then some (.tdm k) else if k = 16 then some .tsi else none
  | 8 => match k with | 0 => some .pcie | 1 => some .brg | 2 => some .ring | 3 => some .dma | _ => none
  | 9 => match k with | 0 => some .mpc | 1 => some .tru | 2 => some .lck | 3 => some .scr | 4 => some .dbg | _ => none
  | 10 => if k = 0 then some .msec else if k < 17 then some (.lin (k - 1)) else none
  | _ => none

/-- The page that an address of BAR0 falls in, if any (R22, R25). -/
def Page.ofAddr (a : Nat) : Option Page := Page.ofRegion (a / 0x100000) (a % 0x100000 / 0x4000)

/-- The page with a summary index, if any (R22, R42). -/
def Page.ofIndex (n : Nat) : Option Page :=
  if n < 9 then Page.ofRegion 0 n
  else if n < 47 then some (.etp (n - 9))
  else if n < 51 then Page.ofRegion 2 (n - 47)
  else if n < 91 then Page.ofRegion 3 (n - 51)
  else if n < 95 then Page.ofRegion 4 (n - 91)
  else if n < 159 then some (.cip (n - 95))
  else if n < 223 then some (.can (n - 159))
  else if n < 240 then Page.ofRegion 7 (n - 223)
  else if n < 244 then Page.ofRegion 8 (n - 240)
  else if n < 249 then Page.ofRegion 9 (n - 244)
  else if n < 266 then Page.ofRegion 10 (n - 249)
  else none

/-- A page of timing configuration, CAPS.TIMING = 1: it takes part in plan commits (R29, R37; R60, R112, R190, R289, R481
and the page introductions of the chapters). -/
def Page.timing : Page → Bool
  | .clk => true | .etp _ => true | .cls => true | .buf => true
  | .qsch => true | .tgate _ => true | .asy => true
  | .frer => true | .clsp => true | .msec => true
  | _ => false

end Sys2Proof.Machine
end

