-- ==== Sys2Proof/Machine/Operands.lean ====
section
/-! DEFINITION. The operands that commands carry, apart from plain numbers: who makes an access, and which page it is made on. -/
namespace Sys2Proof.Machine

/-- The originator of an access (R29, R39): the host, a management processor, the trusted processor, the debug port, or the
peer bridge with the class its originator has on the partner. -/
inductive Src where
  | host
  | mp (i : Fin 4)
  | tp
  | peerHost
  | peerMgmt
  | dbg
  deriving DecidableEq, Repr

/-- The originator is a management processor. -/
def Src.isMp : Src → Bool
  | .mp _ => true
  | _ => false

/-- Which BAR a write to a register is made in: BAR0, or BAR2 with the MSI-X table (R389). -/
inductive Bar where
  | bar0 | bar2
  deriving DecidableEq, Repr

/-- What a processor does at an address (R306, R459). `sync` is FENCE with W before O, which drains the write buffer (R315); `fenceI`
is FENCE.I, after which fetches read memory anew (R307). Both are instructions of the processor and name no address. -/
inductive AccessKind where
  | load | store | fetch | sync | fenceI
  deriving DecidableEq, Repr

/-- What SECDED finds in the words an access reads: nothing, a word it corrects, a word it cannot correct (R307). -/
inductive EccResult where
  | clean | corrected | lost
  deriving DecidableEq, Repr

/-- ERR_INFO.SRC of an access's originator (R29). The debug port acts as the trusted processor (R39). -/
def Src.code : Src → Nat
  | .host => 0
  | .mp i => 1 + i.val
  | .tp => 5
  | .peerHost => 6
  | .peerMgmt => 6
  | .dbg => 5

/-- ERR_INFO.SRC of an error that the device itself meets (R29). -/
def srcDevice : Nat := 7

/-- The ownership class of an originator (R29, R39): 0 HOST, 1 MGMT, 2 TRUSTED. -/
def Src.cls : Src → Nat
  | .host => 0
  | .mp _ => 1
  | .tp => 2
  | .peerHost => 0
  | .peerMgmt => 1
  | .dbg => 2

/-- The originator acts as the trusted processor (R39). -/
def Src.trusted : Src → Bool
  | .tp => true
  | .dbg => true
  | _ => false

/-- The registers of an ETP page: all of R60 on ports 0–31; MAX_LEN alone on ports 32–36; on port 37 those of R302, with MODE
not shadowed. -/
def etpSpecs (n : Nat) : List RegSpec :=
  if n < 32 then Etp.specs
  else if n = 37 then
    ⟨0x100, 4, 1, 0, 0, 0, 0, 0, 0x117, 0, false, 0x104⟩ ::
      Etp.specs.filter (fun r => r.off = 0x104 ∨ r.off = 0x108 ∨ r.off = 0x118 ∨ r.off = 0x130 ∨ r.off = 0x134)
  else Etp.specs.filter (fun r => r.off = 0x108)

/-- The counters of an ETP page (R60, R61, R302). -/
def etpCounters (n : Nat) : List Nat :=
  if n < 32 then Etp.counters
  else if n = 37 then
    [Etp.CNT_RX_FRAMES, Etp.CNT_RX_BYTES, Etp.CNT_RX_FCS_ERR, Etp.CNT_RX_RUNT, Etp.CNT_RX_OVERSIZE, Etp.CNT_TX_FRAMES,
     Etp.CNT_TX_BYTES, Etp.CNT_TX_REFUSED, Etp.CNT_LINK_DOWNS, Etp.CNT_CREDIT_STALLS]
  else [Etp.CNT_RX_FRAMES, Etp.CNT_RX_BYTES, Etp.CNT_TX_FRAMES, Etp.CNT_TX_BYTES, Etp.CNT_TX_REFUSED]

/-- The register specifications of a page from offset 0x100 upward. -/
def Page.specs : Page → List RegSpec
  | .sys => Sys.specs | .clk => Clk.specs | .pwr => Pwr.specs | .age => Age.specs | .wake => Wake.specs
  | .nm => Nm.specs | .gpio => Gpio.specs | .otp => Otp.specs | .trng => Trng.specs
  | .etp n => etpSpecs n
  | .prs => Prs.specs | .cls => Cls.specs | .fib => Fib.specs | .buf => Buf.specs
  | .qsch => Qsch.specs | .tgate _ => Tgate.specs | .asy => Asy.specs
  | .time => Time.specs | .frer => Frer.specs | .fab => Fab.specs | .clsp => Clsp.specs
  | .cip _ => Cip.specs | .can n => (if n = 0 then Can.specs else Can.specs.filter (fun r => r.off ≠ 0x148)) | .tdm _ => Tdm.specs | .tsi => Tsi.specs
  | .pcie => Pcie.specs | .brg => Brg.specs | .ring => Ring.specs | .dma => Dma.specs
  | .mpc => Mpc.specs | .tru => Tru.specs | .lck => Lck.specs | .scr => Scr.specs | .dbg => Dbg.specs
  | .msec => Msec.specs | .lin _ => Lin.specs

/-- The offsets of a page's 64-bit counters. -/
def Page.counters : Page → List Nat
  | .clk => Clk.counters | .pwr => Pwr.counters | .age => Age.counters | .wake => Wake.counters
  | .nm => Nm.counters | .trng => Trng.counters
  | .etp n => etpCounters n
  | .prs => Prs.counters | .cls => Cls.counters | .fib => Fib.counters | .buf => Buf.counters
  | .qsch => Qsch.counters | .tgate _ => Tgate.counters | .asy => Asy.counters
  | .time => Time.counters | .frer => Frer.counters | .fab => Fab.counters | .clsp => Clsp.counters
  | .cip _ => Cip.counters
  | .can n => if n = 0 then Can.counters else
      Can.counters.filter (fun o => o ≠ Can.CNT_EG_FRAME_DROPS ∧ o ≠ Can.CNT_EG_UNKNOWN ∧ o ≠ Can.CNT_EG_UNMAPPED)
  | .tdm _ => (List.range 11).map (fun i => 0x180 + 8 * i)
  | .tsi => Tsi.counters
  | .pcie => Pcie.counters | .brg => Brg.counters | .ring => Ring.counters | .dma => Dma.counters
  | .mpc => Mpc.counters | .tru => Tru.counters | .lck => Lck.counters | .scr => Scr.counters | .dbg => Dbg.counters
  | .lin _ => Lin.counters
  | _ => []

/-- The register of a list that stands at an offset. -/
def specFind (off : Nat) : List RegSpec → Option RegSpec
  | [] => none
  | r :: t => if r.off ≤ off ∧ (off - r.off) % r.stride = 0 ∧ (off - r.off) / r.stride < r.count then some r else specFind off t

/-- The register of a page at an offset of the active view, if there is one. -/
def Page.spec (p : Page) (off : Nat) : Option RegSpec :=
  if off < 0x100 then specFind off Hdr.specs else specFind off p.specs

/-- The counter word at an offset: the counter's offset and whether the word is its high one. -/
def counterFind (off : Nat) : List Nat → Option (Nat × Bool)
  | [] => none
  | c :: t => if off = c then some (c, false) else if off = c + 4 then some (c, true) else counterFind off t

/-- Voltage code of an island at reset: 5 mV steps above 0.70 V, from the column "Voltage at reset" of R13. The islands are
numbered PORT0–3, CLS, BUF, QS, CIP, TIME, MGMT, TRUST, BUS, TDM, HOST as in R13. -/
def islandVReset : Nat → Nat
  | 0 => 10 | 1 => 10 | 2 => 8 | 3 => 8 | 4 => 12 | 5 => 10 | 6 => 12 | 7 => 12 | 8 => 8 | 9 => 10 | 10 => 4 | 11 => 4
  | 12 => 4 | 13 => 8 | _ => 0

/-- The reset value of a register whose value depends on the page or the register's index, where the tables say so;
PWR and CLK stay in RUN in every state except OFF (chapters 18 and 20). -/
def Page.resetFix (p : Page) (off : Nat) : Option Nat :=
  match p with
  | .pwr => if off = 0xC then some 1 else none
  | .cls => if off = 0x110 + 4 * 34 then some (1 * 16 + 1 * 0x80000 + 1 * 0x100000) else none
  | .time => if off = 0x200 then some 0x100 else none
  | .mpc =>
    if off = 0x130 then some 8 else if off = 0x100 ∨ off = 0x110 ∨ off = 0x120 then some 0x30 else none
  | .clk =>
    if off = 0xC then some 1 else
    if 0x100 ≤ off ∧ off < 0x138 ∧ off % 4 = 0 then
      let v := islandVReset ((off - 0x100) / 4)
      some (v + v * 0x100 + 20 * 0x10000)
    else none
  | _ => none

/-- ID of a page: TYPE and VER read 0 (the tables say "per block" and give no value), INST is the instance number (R29). -/
def Page.idWord (p : Page) : Nat := p.inst * 0x100

/-- The highest MODE that an external port supports (R44). -/
def topMode (p : Nat) : Nat := if p ≤ 7 then 4 else if p ≤ 15 then 3 else 2

/-- CAPS of a page: TIMING, and for an external port its highest MODE and whether it supports RS-FEC (R29, R60). -/
def Page.capsWord (p : Page) : Nat :=
  (if p.timing then 0x80000000 else 0) +
  (match p with | .etp n => if n < 32 then topMode n + (if n ≤ 7 then 16 else 0) else 0 | _ => 0)

/-- The reset value of the register of a page at an offset of the active view. -/
def Page.resetAt (p : Page) (off : Nat) : Nat :=
  if off = 0 then p.idWord else if off = 4 then p.capsWord else
  match p.resetFix off with
  | some v => v
  | none => match p.spec off with | some r => r.reset | none => 0

/-- The shadow copy's bits of the register at an offset of the active view (R35). -/
def Page.shadowBits (p : Page) (off : Nat) : Nat :=
  match p.spec off with | some r => r.shadow | none => 0

/-- What the register at a BAR0 address holds after reset: the active view at offsets 0x000–0x7FF of its page, the shadow
view at 0x800–0xEFF (R35), nothing elsewhere. -/
def resetWord (a : Nat) : Word :=
  match Page.ofAddr a with
  | none => 0
  | some p =>
    let off := a % 0x4000
    if off < 0x800 then BitVec.ofNat 32 (p.resetAt off)
    else if off < 0xF00 then BitVec.ofNat 32 (p.resetAt (off - 0x700) &&& p.shadowBits (off - 0x700))
    else 0

/-- The key of a word of a table behind TAB_ADDR and TAB_DATA (or QTAB_DATA, which is table 0 of BUF): page, table, entry
and word. -/
def tabKey (p : Page) (table entry word : Nat) : Nat := ((p.index * 16 + table) * 8192 + entry) * 32 + word

/-- The reset value of a word of QSCH's configuration tables (R174). -/
def qschReset (table entry word : Nat) : Nat :=
  match table, word with
  | 0, 0 => (if entry < 304 then entry / 8 + 0x100 * (entry % 8) else 63) + 24 * 0x10000
  | 1, 0 => 24 * 0x100 + entry * 0x10000
  | _, _ => 0

/-- The reset value of a word of a table: QTAB_DATA (R144), QSCH (R174), FRER (R275), RING (R417); every other word is 0. -/
def tabReset (k : Nat) : Word :=
  let word := k % 32
  let entry := k / 32 % 8192
  let table := k / 262144 % 16
  let page := k / 4194304
  BitVec.ofNat 32 (
    if page = 50 then (if table = 0 ∧ word = 0 then 8 else 0)
    else if page = 51 then qschReset table entry word
    else if page = 92 then
      (match table, word with
       | 0, 0 => 32 * 0x100
       | 0, 1 => 20
       | 0, 2 => 2000 * 0x10000
       | _, _ => 0)
    else if page = 242 then
      (match table, word with
       | 0, 2 => 4 + 16 * 0x10000
       | 1, 2 => 4
       | 0, 3 => 0x10000
       | 1, 3 => 0x10000
       | _, _ => 0)
    else 0)

end Sys2Proof.Machine
end

