-- ==== Sys2Proof/Machine/Store.lean ====
section
/-! DEFINITION. Sparse stores in one canonical form: keys strictly rising, and no entry that equals what an unlisted key
reads as. Byte memories, registers, tables, counters and per-instance records are all held so; equal stores are
equal data. -/
namespace Sys2Proof.Machine

/-- Every key of the list is above `lo` (when given), keys rise strictly, and no value is its key's default. -/
def cellsOk {α : Type} (d : Nat → α) : Option Nat → List (Nat × α) → Prop
  | _, [] => True
  | none, (k, v) :: t => v ≠ d k ∧ cellsOk d (some k) t
  | some l, (k, v) :: t => l < k ∧ v ≠ d k ∧ cellsOk d (some k) t

/-- What key `k` holds; a key that is not listed reads as its default. -/
def cellsGet {α : Type} (d : Nat → α) : List (Nat × α) → Nat → α
  | [], k => d k
  | (k', v) :: t, k => if k = k' then v else if k < k' then d k else cellsGet d t k

/-- The list with `v` at `k`: the entry leaves the list where `v` is the default. -/
def cellsSet {α : Type} [DecidableEq α] (d : Nat → α) : List (Nat × α) → Nat → α → List (Nat × α)
  | [], k, v => if v = d k then [] else [(k, v)]
  | (k', v') :: t, k, v =>
    if k < k' then (if v = d k then (k', v') :: t else (k, v) :: (k', v') :: t)
    else if k = k' then (if v = d k then t else (k, v) :: t)
    else (k', v') :: cellsSet d t k v

theorem cellsOk_mono {α : Type} (d : Nat → α) (t : List (Nat × α)) (l m : Nat) (h : l ≤ m)
    (ht : cellsOk d (some m) t) : cellsOk d (some l) t := by
  cases t with
  | nil => trivial
  | cons c t => exact ⟨Nat.lt_of_le_of_lt h ht.1, ht.2⟩

theorem cellsOk_none {α : Type} (d : Nat → α) (t : List (Nat × α)) (m : Nat)
    (ht : cellsOk d (some m) t) : cellsOk d none t := by
  cases t with
  | nil => trivial
  | cons c t => exact ht.2

theorem cellsSet_ok_some {α : Type} [DecidableEq α] (d : Nat → α) (t : List (Nat × α)) (l k : Nat) (v : α)
    (hl : l < k) (ht : cellsOk d (some l) t) : cellsOk d (some l) (cellsSet d t k v) := by
  induction t generalizing l with
  | nil => by_cases h : v = d k <;> simp [cellsSet, cellsOk, h, hl]
  | cons c t ih =>
    obtain ⟨k', v'⟩ := c
    obtain ⟨h1, h2, h3⟩ := ht
    by_cases hk : k < k'
    · by_cases h : v = d k <;> simp [cellsSet, cellsOk, h, hk, hl, h1, h2, h3]
    · by_cases he : k = k'
      · subst he
        by_cases h : v = d k
        · simp only [cellsSet, Nat.lt_irrefl, if_false, if_true, h]
          exact cellsOk_mono d t l k (Nat.le_of_lt hl) h3
        · simp [cellsSet, cellsOk, h, hl, h3]
      · have hlt : k' < k := Nat.lt_of_le_of_ne (Nat.le_of_not_lt hk) (fun e => he e.symm)
        simp [cellsSet, cellsOk, hk, he, h1, h2, ih k' hlt h3]

theorem cellsSet_ok {α : Type} [DecidableEq α] (d : Nat → α) (t : List (Nat × α)) (k : Nat) (v : α)
    (ht : cellsOk d none t) : cellsOk d none (cellsSet d t k v) := by
  cases t with
  | nil => by_cases h : v = d k <;> simp [cellsSet, cellsOk, h]
  | cons c t =>
    obtain ⟨k', v'⟩ := c
    obtain ⟨h2, h3⟩ := ht
    by_cases hk : k < k'
    · by_cases h : v = d k <;> simp [cellsSet, cellsOk, h, hk, h2, h3]
    · by_cases he : k = k'
      · subst he
        by_cases h : v = d k
        · simp only [cellsSet, Nat.lt_irrefl, if_false, if_true, h]
          exact cellsOk_none d t k h3
        · simp [cellsSet, cellsOk, h, h3]
      · have hlt : k' < k := Nat.lt_of_le_of_ne (Nat.le_of_not_lt hk) (fun e => he e.symm)
        simp [cellsSet, cellsOk, hk, he, h2, cellsSet_ok_some d t k' k v hlt h3]

theorem cellsFilter_ok_some {α : Type} (d : Nat → α) (f : Nat → Bool) (t : List (Nat × α)) (l : Nat)
    (ht : cellsOk d (some l) t) : cellsOk d (some l) (t.filter (fun c => f c.1)) := by
  induction t generalizing l with
  | nil => trivial
  | cons c t ih =>
    obtain ⟨k, v⟩ := c
    obtain ⟨h1, h2, h3⟩ := ht
    by_cases hf : f k = true
    · simp [List.filter, cellsOk, hf, h1, h2, ih k h3]
    · simp only [List.filter, hf]
      exact cellsOk_mono d _ l k (Nat.le_of_lt h1) (ih k h3)

theorem cellsFilter_ok {α : Type} (d : Nat → α) (f : Nat → Bool) (t : List (Nat × α))
    (ht : cellsOk d none t) : cellsOk d none (t.filter (fun c => f c.1)) := by
  cases t with
  | nil => trivial
  | cons c t =>
    obtain ⟨k, v⟩ := c
    obtain ⟨h2, h3⟩ := ht
    by_cases hf : f k = true
    · simp [List.filter, cellsOk, hf, h2, cellsFilter_ok_some d f t k h3]
    · simp only [List.filter, hf]
      exact cellsOk_none d _ k (cellsFilter_ok_some d f t k h3)

/-- A sparse store whose unlisted keys read as `d`. It carries the proof of its canonical form. -/
structure Sparse (α : Type) (d : Nat → α) where
  cells : List (Nat × α)
  ok : cellsOk d none cells
  deriving DecidableEq, Repr

section
variable {α : Type} {d : Nat → α}

/-- The store in which nothing is listed. -/
def Sparse.empty : Sparse α d := ⟨[], trivial⟩

/-- What key `k` holds. -/
def Sparse.get (m : Sparse α d) (k : Nat) : α := cellsGet d m.cells k

/-- The store with `v` at `k`. -/
def Sparse.set [DecidableEq α] (m : Sparse α d) (k : Nat) (v : α) : Sparse α d :=
  ⟨cellsSet d m.cells k v, cellsSet_ok d m.cells k v m.ok⟩

/-- The store that keeps the keys `f` accepts; every other key reads as its default again. -/
def Sparse.keep (m : Sparse α d) (f : Nat → Bool) : Sparse α d :=
  ⟨m.cells.filter (fun c => f c.1), cellsFilter_ok d f m.cells m.ok⟩

/-- The value at `k` changed by `f`. -/
def Sparse.modify [DecidableEq α] (m : Sparse α d) (k : Nat) (f : α → α) : Sparse α d := m.set k (f (m.get k))

/-- The values `f k` written at the keys of a list, in order. -/
def Sparse.setAll [DecidableEq α] (m : Sparse α d) : List (Nat × α) → Sparse α d
  | [] => m
  | (k, v) :: t => (m.set k v).setAll t

/-- The keys that are listed, rising. -/
def Sparse.keys (m : Sparse α d) : List Nat := m.cells.map (fun c => c.1)

end

/-- A byte memory: what an unlisted address reads as is 0 (R427: every memory is zero-filled). -/
abbrev Mem := Sparse Byte (fun _ => 0)

/-- The canonical form of a byte memory, as a test that runs: addresses strictly rising, and no listed byte is 0. -/
def cellsWf : List Host.Cell → Bool
  | [] => true
  | [(_, v)] => v != 0
  | (k, v) :: (k', v') :: t => v != 0 && decide (k < k') && cellsWf ((k', v') :: t)

/-- The canonical form of a byte memory. -/
def Mem.wf (m : Mem) : Bool := cellsWf m.cells

end Sys2Proof.Machine
end

