-- ==== Sys2Proof/Machine/Units.lean ====
section
/-! DEFINITION. The records of the engines that stand beside the data path: recovery functions, timestamps, the pair. -/
namespace Sys2Proof.Machine

/-- The state of a sequence recovery or generation function (R265–R267, R275). `last` is the local time of its last pass. -/
structure FrerFn where
  recov : Nat := 0
  takeAny : Bool := true
  genSeq : Nat := 0
  hist : Nat := 0
  last : Nat := 0
  passed : Nat := 0
  discarded : Nat := 0
  deriving DecidableEq, Repr

/-- A key slot (R365, R367, R382, R383): the key, the second of the two shares it is held in (the first is the key combined with it),
the salt, and the binding: BIND is 0 free, 1 MACsec, 2 a user page. -/
structure Slot where
  key : List Byte := []
  share : List Byte := []
  salt : List Byte := []
  bind : Nat := 0
  page : Nat := 0
  aes256 : Bool := false
  loaded : Bool := false
  gcm : Nat := 0
  cmac : Nat := 0
  deriving DecidableEq, Repr

/-- An entry of a transmit timestamp FIFO (R237): the corrected transmit time in units of 2^-16 ns. -/
structure TxTs where
  tag : Nat
  domain : Nat
  steps : Nat
  time : Nat
  seq : Nat
  domNs : Nat
  deriving DecidableEq, Repr

/-- What an MDIO access is for: software, a TC10 access that sets or clears a bit of the PHY register, or a read of the PHY's asleep bit (R55,
R56). -/
inductive MdioUse where
  | soft
  | tc10 (bit : Nat) (set : Bool)
  | asleep
  deriving DecidableEq, Repr

/-- An MDIO access that waits or is in progress at a master (R55). A TC10 access is a read followed by a write. -/
structure MdioReq where
  port : Nat
  use : MdioUse
  write : Bool
  cl45 : Bool
  devad : Nat
  reg : Nat
  data : Nat
  deriving DecidableEq, Repr

/-- A decision record of a paired pass (R290) with the low word of its ingress time (R294). -/
structure DigRec where
  ctx : Nat
  seq : Nat
  port : Nat
  colour : Nat
  outcome : Nat
  dest : Nat
  ns : Nat
  deriving DecidableEq, Repr

/-- The digest of a window: its number, its record count and its eight sub-sums (R282, R290). -/
structure DigWin where
  w : Nat
  count : Nat := 0
  sums : List Nat := List.replicate 8 0
  deriving DecidableEq, Repr

/-- A control frame of a kind that is acknowledged (R284): its SEQ, its LAST bit, its payload. -/
structure CtlFrame where
  seq : Nat
  last : Bool
  payload : List Byte
  deriving DecidableEq, Repr

/-- The state of one KIND of control frame (R284): SEQ of the next frame sent and of the next frame kept, frames sent and not
acknowledged, frames that wait for room among the 64. -/
structure CtlKind where
  txSeq : Nat := 0
  rxSeq : Nat := 0
  sent : List CtlFrame := []
  wait : List (Bool × List Byte) := []
  deriving DecidableEq, Repr

/-- A beat block (R280): its sync header, its block type, its payload bytes. -/
structure BeatBlock where
  sync : Nat
  type : Nat
  payload : List Byte
  deriving DecidableEq, Repr

/-- What the last accepted heartbeat of the partner said (R281). -/
structure PeerBeat where
  role : Nat := 0
  pairId : Nat := 0
  prefer : Bool := false
  digest : Nat := 0
  deriving DecidableEq, Repr

/-- The pair (R278–R298). -/
structure Clasp where
  /-- Windows of this member that are open or wait for comparison, and the partner's digests. -/
  own : List DigWin := []
  partner : List DigWin := []
  /-- The newest window of this member that has closed. -/
  closed : Option Nat := none
  /-- The trace, oldest first (R294). -/
  trace : List DigRec := []
  /-- The running balance: dC and d_j, the run of mismatches, and how many windows are still left out (R292, R293). -/
  dC : Nat := 0
  d : List Nat := List.replicate 8 0
  run : Nat := 0
  skip : Nat := 0
  /-- Block lock of lane i (R278). -/
  lock : Sparse Bool (fun _ => false) := Sparse.empty
  /-- The last accepted heartbeat, if any, and how many in a row differed in DIGEST (R293) or compared worse (R296). -/
  peer : Option PeerBeat := none
  /-- BEAT_SEQ of the last 16 heartbeats accepted, newest first: the copy of one on the other lane is ignored (R283). -/
  heard : List Nat := []
  planRun : Nat := 0
  healthRun : Nat := 0
  /-- Local time of the last heartbeat emitted, and of the last role change. -/
  sentAt : Option Nat := none
  roleAt : Nat := 0
  /-- YIELD in every heartbeat (R297); expiries of LISTEN_MS since the last entry into LISTEN; LISTEN_MS runs. -/
  yielding : Bool := false
  expiries : Nat := 0
  /-- The snapshot for the JOINING partner has been queued (R298). -/
  joinSent : Bool := false
  /-- The firmware watchdog has run out (R295); an uncorrectable error lies less than 1 ms back (R295). -/
  fwLate : Bool := false
  eccBad : Bool := false
  /-- Control frames by KIND (R284). -/
  ctl : Sparse CtlKind (fun _ => {}) := Sparse.empty
  deriving DecidableEq, Repr

/-- What an atomic memory operation computes (R395; RV64A). -/
inductive Amo where
  | swap | add | xor | and | or | smin | smax | umin | umax
  deriving DecidableEq, Repr

/-- Who waits for a request to the host or the partner, and for what (R395, R400, R402). Addresses are processor addresses. -/
inductive BridgeUse where
  | load (m : Nat) (addr size : Nat)
  | lr (m : Nat) (addr size : Nat)
  | sc (m : Nat) (addr size expect : Nat)
  | amoRead (m : Nat) (addr size : Nat) (op : Amo) (arg tries : Nat)
  | amoCas (m : Nat) (addr size : Nat) (op : Amo) (arg tries expect : Nat)
  | hostRead (off size : Nat) (got : List Byte)
  | poll
  deriving DecidableEq, Repr

/-- How an access through a bridge window goes: what the window's registers held when the access was issued (R393), and the offset in the window. -/
structure WinView where
  peer : Bool := false
  unit : Nat := 1
  remote : Nat := 0
  ns : Bool := false
  off : Nat := 0
  deriving DecidableEq, Repr

/-- A READ or CAS toward the partner that is open, or waits to be reissued after a RETRY (R398, R399). `words` counts the words of a
READ; a CAS carries its compare value and its new value. -/
structure PeerReq where
  tag : Nat
  use : BridgeUse
  cas : Bool
  orig : Nat
  addr : Nat
  words : Nat
  old : Nat
  new : Nat
  retries : Nat := 0
  parked : Bool := false
  win : WinView := {}
  deriving DecidableEq, Repr

/-- A read or AtomicOp toward the host that is open (R402); `cas` holds the compare value and the new value of an AtomicOp. -/
structure HostReq where
  id : Nat
  use : BridgeUse
  addr : Nat
  size : Nat
  cas : Option (Nat × Nat) := none
  win : WinView := {}
  deriving DecidableEq, Repr

/-- An entry of PWLOG (R401). -/
structure PwEntry where
  cause : Nat
  orig : Nat
  window : Nat
  code : Nat
  addr : Nat
  time : Nat
  deriving DecidableEq, Repr

/-- A reservation of a management processor (R395): processor address, size, value. -/
structure Resv where
  addr : Nat
  size : Nat
  value : Nat
  deriving DecidableEq, Repr

/-- The bridge (R393–R402). -/
structure Bridge where
  peerOpen : List PeerReq := []
  /-- Requests that wait for a free tag, oldest first. -/
  peerWait : List PeerReq := []
  hostOpen : List HostReq := []
  /-- Requests to the host beyond the 256 that may be outstanding, oldest first (R387). -/
  hostWait : List HostReq := []
  nextId : Nat := 0
  resv : Sparse (Option Resv) (fun _ => none) := Sparse.empty
  pwlog : List PwEntry := []
  deriving DecidableEq, Repr

/-- An entry of a write buffer (R315): the number of the aligned 8-byte unit and the bytes written, in order. -/
structure WbEntry where
  unit : Nat
  bytes : List (Nat × Byte)
  deriving DecidableEq, Repr

/-- A line that a cache of an MP holds (R305): the offset of its first byte in management SRAM, and the bytes as it holds them. -/
structure CacheLine where
  base : Nat
  bytes : List Byte
  deriving DecidableEq, Repr

/-- The processors (R305–R320): the write buffer of each MP, its instruction cache and its data cache, which MPs have been in RUN, the
requests copied at the mailbox by slot, doorbells rung while Signet does not run, and what the TP does: 0 held in reset, 1 its comparator
test, 2 the boot ROM, 3 Signet, 4 stopped. -/
structure Procs where
  wbuf : Sparse (List WbEntry) (fun _ => []) := Sparse.empty
  icache : Sparse (List CacheLine) (fun _ => []) := Sparse.empty
  dcache : Sparse (List CacheLine) (fun _ => []) := Sparse.empty
  ran : Sparse Bool (fun _ => false) := Sparse.empty
  mbx : Sparse (List Byte) (fun _ => []) := Sparse.empty
  rung : List Nat := []
  tp : Nat := 0
  deriving DecidableEq, Repr

/-- An entry of NM's holder table or of its log (R437); times of AON in ns beside the seconds of R442. -/
structure Holder where
  valid : Bool := false
  sa : Nat := 0
  nmId : Nat := 0
  reason : Nat := 0
  released : Bool := false
  firstS : Nat := 0
  lastS : Nat := 0
  keeps : Nat := 0
  lastNs : Nat := 0
  /-- LONG_HOLDER has been raised for this hold. -/
  alerted : Bool := false
  deriving DecidableEq, Repr

/-- Power, wake and network management (R422–R443): nanoseconds since the device left OFF; the transition under way is a wake; the
sources that occurred after COMMIT, during a RAISE, or in FORCED while its cause stands, and those of the first AON cycle among them; the sources of the
last wake; the sources of the wakes whose CONFIRM_MS runs, oldest first; whether a forced power-down's cause stands, and the islands whose monitor read
above TRIP; the conditions that the transition under way goes to; the powered hours of the retained history when the device left OFF; the sources masked by FALSE_LIMIT; when COMMIT was entered; the network
timer; the holder table and log; when HOLD was last cleared; the level that the regulator of island i moves to (R480). -/
structure Power where
  aonNs : Nat := 0
  waking : Bool := false
  occurred : Nat := 0
  first : Nat := 0
  wakeSrcs : Nat := 0
  unconfirmed : List Nat := []
  stands : Bool := false
  hot : List Nat := []
  goal : Nat := 0
  ageHours : Nat := 0
  autoMasked : Nat := 0
  commitAt : Nat := 0
  ntRun : Bool := false
  ntAt : Nat := 0
  holders : Sparse Holder (fun _ => {}) := Sparse.empty
  hlog : Sparse Holder (fun _ => {}) := Sparse.empty
  hlogNext : Nat := 0
  freeSince : Nat := 0
  vMove : Sparse (Option Nat) (fun _ => none) := Sparse.empty
  deriving DecidableEq, Repr

/-- A CAN frame or a message for a CAN channel (R329): `xl` marks a CAN XL frame, whose fields follow. -/
structure CanFrame where
  id : Nat
  eff : Bool := false
  rtr : Bool := false
  fdf : Bool := false
  brs : Bool := false
  esi : Bool := false
  xl : Bool := false
  sdt : Nat := 0
  vcid : Nat := 0
  af : Nat := 0
  sec : Bool := false
  rrs : Bool := false
  data : List Byte := []
  deriving DecidableEq, Repr

/-- A message in a transmit queue with the local time at which it was queued (R332). -/
structure CanTx where
  frame : CanFrame
  at' : Nat
  deriving DecidableEq, Repr

/-- A frame received that waits for presentation: its message_timestamp and, where a verification is in progress, the entry
and the full freshness value (R326, R333). -/
structure CanRx where
  frame : CanFrame
  ts : Nat
  job : Option (Nat × Nat) := none
  deriving DecidableEq, Repr

/-- A message that is being signed: the entry and the full freshness value (R333). -/
structure CanSign where
  frame : CanFrame
  entry : Nat
  fresh : Nat
  deriving DecidableEq, Repr

/-- A CAN channel (R324–R336): messages queued in order of arrival, the message in transmission, frames that wait for presentation,
messages being signed, sequence_num, a pending SLEEP_REQ, BO_HOLD running, and the local time at which the page entered DRAINING. -/
structure CanCh where
  txq : List CanTx := []
  inTx : Option CanTx := none
  rxq : List CanRx := []
  signq : List CanSign := []
  seq : Nat := 0
  sleepPend : Bool := false
  boHold : Bool := false
  drainAt : Option Nat := none
  deriving DecidableEq, Repr

/-- A LIN channel (R337–R339): the header whose response is awaited and whether this channel publishes it, the schedule's next
entry, a pending SLEEP_REQ, whether the schedule waits for its restart after a wake, sequence_num. -/
structure LinCh where
  hdr : Option (Nat × Bool) := none
  next : Nat := 0
  sleepReq : Bool := false
  restart : Bool := false
  seq : Nat := 0
  deriving DecidableEq, Repr

/-- A TDM link (R344–R350): whether the next slot 0 carries the FAS, the excluded position and how many others the scan still has
to pass, runs of bad FAS and NFAS, the last six NFAS bits 1 and the frames at which an MFAS ended, the frame of the multiframe,
the CRC-4 of the received sub-multiframes and of those sent, defects that are present, the slip buffer, and the seconds of G.826. -/
structure TdmLink where
  fas : Bool := false
  excl : Option Nat := none
  exclLeft : Nat := 0
  fasRun : Nat := 0
  nfasRun : Nat := 0
  mfBits : Nat := 63
  mfSeen : List Nat := []
  frame : Nat := 0
  rxCrc : Nat := 0
  rxPrev : Option Nat := none
  rxC : Nat := 0
  rxLen : Nat := 0
  /-- The last sub-multiframe I, and II, received with a CRC-4 error (R345). -/
  bad1 : Bool := false
  bad2 : Bool := false
  smf : Nat := 0
  smfBad : Nat := 0
  rdiRun : Nat := 0
  rdi : Bool := false
  los : Bool := false
  ais : Bool := false
  /-- Zeros in the last frames, newest first; whether the frame received last ended a double frame. -/
  zeros : List Nat := []
  even : Bool := true
  /-- Received frames that wait to be read, oldest first, and the frame read last. -/
  slip : List (List Byte) := []
  cur : List Byte := []
  txCrc : Nat := 0
  txC : Nat := 0
  /-- Slot 0 that the link sends in the device frame in progress (R345). -/
  slot0 : Byte := 0xFF
  /-- Errored blocks, FAS errors and defects of this second; the seconds that wait to be added: ES, SES, errored blocks (0 for
  one classified with CRC4_EN = 0). -/
  blocks : Nat := 0
  fasErrs : Nat := 0
  defect : Bool := false
  secs : List (Bool × Bool × Nat) := []
  deriving DecidableEq, Repr

/-- An AAF transmit stream (R353): sample sets of the group under way, and sequence_num. -/
structure TxStream where
  group : Option (List (List Byte)) := none
  seq : Nat := 0
  deriving DecidableEq, Repr

/-- An AAF receive stream (R354, R355): the playout store by device frame, the last sequence_num, whether the frame read last had samples. -/
structure RxStream where
  play : List (Nat × List Byte) := []
  seq : Option Nat := none
  had : Bool := false
  deriving DecidableEq, Repr

/-- The slot interchange (R351–R355): writes of FIXED entries that wait for the next device frame, the streams, the low 32 bits of
the AVTP domain at the last frame start. -/
structure TsiState where
  fixed : List (Nat × List Byte) := []
  txs : Sparse TxStream (fun _ => {}) := Sparse.empty
  rxs : Sparse RxStream (fun _ => {}) := Sparse.empty
  frameNs : Nat := 0
  /-- The connection page that the clone under way copies (R352). -/
  cloneOf : Nat := 0
  /-- IDLE.CODE as the device frame in progress found it (R359: "next frame"). -/
  idle : Byte := 0xD5
  deriving DecidableEq, Repr

/-- A job of a cipher user page: a copy of its JOB registers (R377, R385). -/
structure CipJob where
  op : Nat
  srcSpace : Nat
  dstSpace : Nat
  ivGen : Bool
  irq : Bool
  tagLen : Nat
  tag : Nat
  src : Nat
  dst : Nat
  len : Nat
  aad : Nat
  iv : List Byte
  deriving DecidableEq, Repr

/-- A completion entry (R385). -/
structure CipDone where
  tag : Nat
  result : Nat
  zeroBad : Bool
  iv : List Byte
  deriving DecidableEq, Repr

/-- A cipher user page: its queued jobs and its completion entries, oldest first (R381). -/
structure CipPage where
  jobs : List CipJob := []
  done : List CipDone := []
  deriving DecidableEq, Repr

/-- A key id in Locket (R445, R447): usage 0 CAK, 1 CUP key, 2 TKEK; the invocation counts of R369. -/
structure KeyRec where
  id : Nat
  usage : Nat
  key : List Byte
  gcm : Nat := 0
  cmac : Nat := 0
  deriving DecidableEq, Repr

/-- A handle of MKA_KEYS (R368). -/
structure MkaHandle where
  handle : Nat
  ckn : List Byte
  ick : List Byte
  kek : List Byte
  deriving DecidableEq, Repr

/-- A boot header (R455): the states of slots A and B, 0 EMPTY, 1 ACTIVE, 2 TRIAL, 3 FALLBACK. -/
structure BootHdr where
  seq : Nat
  a : Nat
  b : Nat
  tries : Nat
  deriving DecidableEq, Repr

/-- The health tests of the entropy source (R468): the last sample and how often it has come in a row; the first sample of the window of 1024, how
often it has come in it, and how many samples of the window have come; how many samples have come in all, up to the 1024 of the start-up tests;
whether the last millisecond delivered no seed. -/
structure Trng where
  last : Option Bool := none
  run : Nat := 0
  first : Bool := false
  count : Nat := 0
  pos : Nat := 0
  seen : Nat := 0
  starved : Bool := false
  deriving DecidableEq, Repr

/-- The wake seal (R458): flash addresses and lengths of SIGNET, MP_BOOT, MP_MAIN and of the record's trusted part, their digests,
and the entry offset in MP_BOOT. -/
structure WakeSeal where
  parts : List (Nat × Nat)
  digests : List (List Byte)
  entry : Nat
  deriving DecidableEq, Repr

/-- A delivery under way: the target slot, the length, the blocks written as offset and length (R460, R463). -/
structure Delivery where
  slot : Nat
  length : Nat
  blocks : List (Nat × Nat) := []
  verified : Bool := false
  deriving DecidableEq, Repr

/-- What Signet keeps (R445–R466): Locket's key ids and copies of the bound slots with the key id each was bound from,
handles, the current nonce, token failures since reset, the TOKEN sensor's lock, whether an opening of debug has shut the key commands, times of TP
mismatches, the wake seal, deliveries, the region of a staged image and whether its Signet runs, the region in use, the trial,
the values of the trusted part with the record slot in use and the one whose trusted part was applied, how the TP came out of its reset,
the image slot of the SIGNET that runs, the mailbox slot whose IMG_SIGNET, or IMG_ABANDON where marked, completes when the restart
it asked for has ended, and the health tests of the entropy source. The sealed store and the boot headers lie in flash. -/
structure Sec where
  keys : List KeyRec := []
  copies : Sparse Slot (fun _ => {}) := Sparse.empty
  bound : List (Nat × Nat) := []
  handles : List MkaHandle := []
  nextHandle : Nat := 0
  nonce : Option (List Byte) := none
  tokenFails : Nat := 0
  locked : Bool := false
  shut : Bool := false
  mismatches : List Nat := []
  wakeSeal : Option WakeSeal := none
  img : Option Delivery := none
  recDel : Option Delivery := none
  staged : Option Nat := none
  signetNew : Bool := false
  region : Nat := 0
  trialAt : Option Nat := none
  updateSlots : Nat := 31
  trialS : Nat := 600
  recSlot : Option Nat := none
  trustSlot : Option Nat := none
  fromSleep : Bool := false
  recovery : Bool := false
  mainDue : Bool := false
  runSlot : Nat := 0
  onRestart : Option (Nat × Bool) := none
  trng : Trng := {}
  deriving DecidableEq, Repr

/-- A configuration register (R387–R389): the manual gives the identification registers and names the settings; `atomicControl` is Device
Control 2. -/
inductive CfgReg where
  | vendorDevice | command | classRevision | bar (k : Nat) | subsystem | interruptPin
  | deviceControl | msixControl | atomicControl | linkControl | powerControl | aerStatus | other (off : Nat)
  deriving DecidableEq, Repr

/-- A read of a DMA channel that failed (R412): the rows completed before it, none where it was the read of the descriptor; its address; and
whether it timed out (R414). -/
structure BadRead where
  rows : Option Nat
  addr : Nat
  timeout : Bool
  deriving DecidableEq, Repr

/-- What the sensors of an island read (R472, R473): the slack of its slowest canary in ps, the counts of the unstressed and the stressed
oscillator, its temperature in °C. -/
structure Sensor where
  margin : Nat := 0
  cu : Nat := 0
  cs : Nat := 0
  temp : Int := 0
  deriving DecidableEq, Repr

/-- The reset sources that a state remembers (R494, R504, R505): the device is in OFF; it went there by a brown-out; POR_N is low with
the supplies present; SYS_RST_N is low; PERST# is low; and when XSPI_RESET_N goes high again, as the nanoseconds of AON (R501). -/
structure Rst where
  off : Bool := true
  brown : Bool := false
  por : Bool := false
  sys : Bool := false
  perst : Bool := false
  xspiAt : Nat := 0
  deriving DecidableEq, Repr

/-- A reset pin (R504, R505). -/
inductive ResetPin where
  | por | sys | perst
  deriving DecidableEq, Repr

/-- The instruction in the TAP's instruction register (R509). -/
inductive TapInstr where
  | bypass | idcode | sample | extest | clamp | highz | dbgAccess
  deriving DecidableEq, Repr

/-- The code of an instruction in the 6-bit instruction register (R509). -/
def TapInstr.code : TapInstr → Nat
  | .bypass => 0x3F
  | .idcode => 0x01
  | .sample => 0x02
  | .extest => 0x00
  | .clamp => 0x04
  | .highz => 0x05
  | .dbgAccess => 0x10

/-- What the pins of the boundary register carry (R509): what the device presents, the boundary register, or nothing. -/
inductive PinDrive where
  | device | boundary (v : Nat) | highz
  deriving DecidableEq, Repr

/-- The TAP (R509): its instruction, and the boundary register with cell i in bit i. -/
structure Tap where
  ir : TapInstr := .idcode
  boundary : Nat := 0
  deriving DecidableEq, Repr

/-- What the pins carry while an instruction is in force (R509): with EXTEST and CLAMP the boundary register, with HIGHZ nothing. -/
def Tap.pins (t : Tap) : PinDrive :=
  match t.ir with
  | .extest | .clamp => .boundary t.boundary
  | .highz => .highz
  | _ => .device


end Sys2Proof.Machine
end

