-- ==== Sys2Proof/Syntax.lean ====
section
/-! DEFINITION. The commands of the KVR2560-G2: one constructor per row of the opcode table, with the operands the row's rule names.
`src` is the master that writes, `p` a port or a page, `v` the word written, `img` the bytes of host memory that the device reads,
`bad` what a memory check finds. -/
namespace Sys2Proof
open Machine

/-- A command. -/
inductive Instr where
  /-- R27: A write to any register that has no row of its own is performed, or discarded and logged, under the access, alias,
  reserved-window and ownership rules. -/
  | registerWrite (src : Src) (bar : Bar) (a : Nat) (bytes : List Byte)
  /-- R24: A write to the scratchpad set or clear alias performs an atomic read-modify-write of every 64-bit word it touches. -/
  | scratchpadAliasWrite (src : Src) (clear : Bool) (off : Nat) (bytes : List Byte)
  /-- R31: Writing CTRL.EN 0 to 1 moves the block from OFF to RUN, or to QUIET when DRAIN is 1. -/
  | ctrlEnSet (src : Src) (p : Page)
  /-- R31: Writing CTRL.EN 1 to 0 stops the block accepting work and starts the DRAIN_LIMIT timer, or takes QUIET to OFF. -/
  | ctrlEnClear (src : Src) (p : Page)
  /-- R31: Writing CTRL.DRAIN 0 to 1 in RUN moves the block to DRAINING with no time limit. -/
  | ctrlDrainSet (src : Src) (p : Page)
  /-- R31: Writing CTRL.DRAIN 1 to 0 returns a DRAINING block with no running timer, or a QUIET block, to RUN. -/
  | ctrlDrainClear (src : Src) (p : Page)
  /-- R510: A write of CTRL.BLKRST resets the registers, counters and work of a block in OFF, QUIET, HALTED or FAULT, keeping its
  memories, and is refused as BUSY in RUN or DRAINING. -/
  | blkrst (src : Src) (p : Page)
  /-- R32: Writing CTRL.FREEZE as 1 moves a QUIET block to HALTED, or is stored until QUIET is reached. -/
  | freezeSet (src : Src) (p : Page)
  /-- R31: Writing CTRL.FREEZE as 0 returns a HALTED block to QUIET. -/
  | freezeClear (src : Src) (p : Page)
  /-- R31: A DRAINING block finishes its last held work and goes to QUIET or OFF, entering HALTED at once when FREEZE is stored. -/
  | workFinished (p : Page)
  /-- R31: The DRAIN_LIMIT timer expires, remaining work is discarded and counted, DRAIN_TIMEOUT is logged and the block goes to OFF.
  -/
  | drainLimitExpiry (p : Page)
  /-- R31: An uncorrectable internal error moves a block to FAULT, discarding its work and setting FCODE. -/
  | blockFault (p : Page) (code addr : Nat)
  /-- R35: A write to the shadow view sets PENDING, or is discarded as BUSY while the page is CHECKING. -/
  | shadowWrite (src : Src) (p : Page) (off v : Nat)
  /-- R37: A write of COMMIT.REQUEST starts a range-checked commit or a plan commit, or is discarded with BUSY while a commit is
  CHECKING. -/
  | commitRequest (src : Src) (p : Page)
  /-- R37: A write of COMMIT.ABANDON stops a check before its verdict, or copies the active view into the shadow view and returns
  STATUS to IDLE. -/
  | commitAbandon (src : Src) (p : Page)
  /-- R215: The Assayer completes its phased check of a plan commit and passes or refuses it. -/
  | assayerVerdict (bad : Option Nat) (corr : Nat)
  /-- R36: Accepted shadow values apply at their TRANSFER, FRAME or CYCLE boundary, and after the last boundary the pages report
  ACCEPTED and GEN and the Hallmark registers update. -/
  | boundaryApply (p : Page)
  /-- R30: Writing ERR_CODE.CLEAR clears ERR_CODE, ERR_INFO and ERR_ADDR. -/
  | errClear (src : Src) (p : Page)
  /-- R28: Writing SNAP copies all counters of the page in one cycle and records SNAP_TIME. -/
  | snap (src : Src) (p : Page)
  /-- R39: The trusted processor sets OWNER.CLASS of a page while LOCKED is 0. -/
  | ownerWrite (src : Src) (p : Page) (cls : Nat)
  /-- R39: Writing OWNER.LOCKED as 1 makes OWNER read-only until device reset. -/
  | ownerLock (src : Src) (p : Page)
  /-- R43: Writing EVT_CLR clears RAW bits and resends the MSI-X message when EVT_PEND stays non-zero. -/
  | evtClr (src : Src) (p : Page) (v : Nat)
  /-- R42: A write of EVT_ROUTE takes effect at once, asserting or releasing MP lines and sending MSI-X when HOST_EN is newly set on a
  pending page. -/
  | evtRouteWrite (src : Src) (n v : Nat)
  /-- R234: A frame begins at an ingress port; it is timestamped and its cells start to be written into the ingress reserve. -/
  | frameRxStart (p : Nat) (head : List Byte) (frac : Nat)
  /-- R49: A frame ends at its ingress; FCS, length and deferred checks are made, provisional charges are corrected and errored frames
  are dropped. -/
  | frameRxEnd (p : Nat) (rest : List Byte) (code : Bool) (corr uncorr : Nat) (secBad : Option (Nat × Nat × Nat))
  /-- R52: When the first two cells are stored and classification is complete, each copy is fixed as cut-through or store-and-forward.
  -/
  | cutThroughDecision (p : Nat)
  /-- R53: PCS lock held for UP_HOLD takes the link to UP, raising LINK_UP and starting credit exchange on a fabric port. -/
  | upHoldExpiry (p : Nat)
  /-- R53: Loss of PCS lock in UP or FAULT starts the DOWN_HOLD wait. -/
  | pcsLockLoss (p : Nat)
  /-- R53: Lock loss held for DOWN_HOLD takes the link to DOWN, clears credit and re-enters TRAINING. -/
  | downHoldExpiry (p : Nat)
  /-- R53: A lock loss ending within DOWN_HOLD leaves the link state unchanged, counting touched frames in RX_FCS_ERR. -/
  | pcsLockRegained (p : Nat)
  /-- R53: A received local or remote fault ordered set takes the link to FAULT and stops frame starts. -/
  | faultOrderedSet (p : Nat) (remote : Bool)
  /-- R53: Fault ordered sets absent for 128 µs return the link from FAULT to UP. -/
  | faultSetsCease (p : Nat)
  /-- R45: SGMII in-band status reporting other than 1000 Mb/s full duplex sets SPEED_MISMATCH and holds or takes the link down. -/
  | speedMismatch (p : Nat)
  /-- R45: In-band status reporting 1000 Mb/s full duplex clears SPEED_MISMATCH. -/
  | speedMismatchClear (p : Nat)
  /-- R55: Writing MDIO_CMD.OP = 1 queues a Clause 22 or 45 read frame on the port's MDIO master. -/
  | mdioRead (src : Src) (p : Nat)
  /-- R55: Writing MDIO_CMD.OP = 2 queues a Clause 22 or 45 write frame on the port's MDIO master. -/
  | mdioWrite (src : Src) (p : Nat)
  /-- R55: An MDIO frame completes, returning data or ERROR with MDIO_NO_RESPONSE, and the master takes its next queued request. -/
  | mdioFrameDone (m : Nat) (answer : Option Nat)
  /-- R56: TC10_CTRL.SLEEP_REQ moves an ACTIVE port to SLEEP_PENDING, refusing enqueues and starting TIMEOUT. -/
  | tc10SleepReq (src : Src) (p : Nat)
  /-- R56: TC10_CTRL.WAKE_REQ cancels a pending sleep or sets the PHY wake-request bit from SLEEP. -/
  | tc10WakeReq (src : Src) (p : Nat)
  /-- R56: In SLEEP_PENDING, once the port's egress queues are empty the device sets the PHY sleep-request bit. -/
  | tc10QueuesEmpty (p : Nat)
  /-- R56: The TC10 TIMEOUT expires, returning SLEEP_PENDING to ACTIVE or re-requesting wake in WAKING, and logs TC10_TIMEOUT. -/
  | tc10Timeout (p : Nat)
  /-- R53: The PHY reports TC10 sleep, taking the link from UP to SLEEP without LINK_DOWN. -/
  | phyTc10Sleep (p : Nat)
  /-- R56: The PHY begins training or asserts its wake line in SLEEP, moving TST to WAKING. -/
  | tc10RemoteWake (p : Nat)
  /-- R59: The INTERVAL timer of a fabric port expires and a credit frame becomes due. -/
  | creditIntervalExpiry (p : Nat)
  /-- R256: A due standalone 64 B credit frame is sent at the first decision point where the port is idle and a gate change does not
  intervene. -/
  | standaloneCreditSend (p : Nat)
  /-- R59: A lossless class waiting with zero credit for STALL_LIMIT µs raises CREDIT_STALL. -/
  | creditStall (p c : Nat)
  /-- R63: The parser starts on a window once 192 B have crossed or the frame has ended, selecting the profile and building the key.
  -/
  | parseWindow (recirc : Bool)
  /-- R95: A key enters the classifier, which walks the trees and builds the pass result presented 112 CLS cycles later. -/
  | classify (bad badFib : List Nat) (corr corrFib : Nat)
  /-- R111: A write to tree memory, a context configuration copy or a bank register is performed on the standby bank or discarded with
  BANK_IN_USE or BUSY. -/
  | bankWrite (src : Src) (a v : Nat)
  /-- R108: A write to bytes 0–11 of a MAC or VLAN entry is held in the writing master's staging register. -/
  | fibStageWrite (src : Src) (a v : Nat)
  /-- R108: A write to bytes 12–15 applies the staged 16 B entry in one cycle and clears the staging. -/
  | fibEntryApply (src : Src) (a v : Nat)
  /-- R120: Writing FIB.STAGE_CLR clears the writing master's staging. -/
  | stageClr (src : Src)
  /-- R82: 9 µs after a bank swap, unread RECIRC copies of the former bank are discarded and counted. -/
  | recircExpiry
  /-- R112: RECIRC_CNT of the former bank reaches 0, the bank becomes writable standby and CLS and PRS report ACCEPTED. -/
  | recircCountZero
  /-- R114: The bank clone ends, raising CLONE_DONE, clearing PENDING and setting STATUS IDLE. -/
  | bankCloneDone
  /-- R164: A pass result arrives at the policer, which runs the fabric check, recovery, stream filter and meter over 6 BUF cycles. -/
  | police (fabBad : List Nat) (frerBad : Bool) (corrFab corrFrer : Nat)
  /-- R129: Each copy of a pass is considered in port order against egress state, descriptors, tiers and random early drop. -/
  | admission
  /-- R142: The background scrubber reads both copies of every link and descriptor word, repairing or faulting BUF. -/
  | linkMemoryScrub (bad : Nat)
  /-- R134: The random early drop generator is reseeded from TRNG every 1 ms. -/
  | rngReseed (bits : List Bool)
  /-- R144: A read of QSTAT_PEAK returns the highest occupancy and clears it. -/
  | qstatPeakRead
  /-- R156: At a decision point the scheduler selects a copy through queue, service and port levels under gates and shapers. -/
  | schedDecision (p wait : Nat)
  /-- R156: A selected copy starts at its egress, releases its queue charge and receives its egress edits. -/
  | transmitStart (p lead corr corrDesc : Nat) (bad : Option Nat) (secBad : Option (Nat × Nat × Nat))
  /-- R160: A frame ends on the wire, correcting shaper and deficit values and reaching the next decision point. -/
  | transmitEnd (p corr : Nat) (bad : Option Nat)
  /-- R167: Writing METER_CLR with GO clears MARKED of the named meter. -/
  | meterClr (src : Src) (v : Nat)
  /-- R172: A read of LOCAL_NS_LO returns the low word and latches the high word. -/
  | localNsRead
  /-- R172: An access to an indirect TAB_DATA reads or writes the selected table word and advances WORD with AUTO. -/
  | tabDataAccess (src : Src) (p : Page) (shadow : Bool) (v : Option Nat) (ecc : EccResult)
  /-- R176: The scrubber reads both copies of every QSCH table word, repairing or faulting QSCH. -/
  | qschTableScrub (bad : Nat)
  /-- R181: A gate control list entry begins, changing gate states and starting a cycle at each cycle boundary. -/
  | gateEntryStart (p : Nat)
  /-- R188: A write to the gate list window is performed on the standby bank or discarded with LIST_IN_USE or BUSY. -/
  | gateListWrite (src : Src) (p b k w v : Nat)
  /-- R190: At CT the standby list becomes active, the old cycle is cut or extended, and the page reports ACCEPTED. -/
  | gateTakeover (p : Nat)
  /-- R189: The list clone ends and raises CLONE_DONE. -/
  | gateCloneDone (p : Nat)
  /-- R194: The scrubber reads both copies of every list entry, repairing or faulting the page. -/
  | gateListScrub (p b k bad : Nat)
  /-- R228: A write of DOMd_ADJ sets the domain's rate, clamped to SLEW_LIMIT. -/
  | adjWrite (src : Src) (d v : Nat)
  /-- R228: Signet writes MAX_PPM, clamping any stored ADJ above the new limit. -/
  | slewCfgWrite (src : Src) (v : Nat)
  /-- R229: A DOMd_CTRL.STEP request adds DOMd_STEP_NS to the domain clock within 2 TIME cycles. -/
  | domainStep (src : Src) (d : Nat)
  /-- R229: A DOMd_CTRL.SET request loads the domain clock from DOMd_SET_S and DOMd_SET_NS. -/
  | domainSet (src : Src) (d : Nat)
  /-- R244: Writing TSNAP.GO copies the local time base and all domains in one TIME cycle. -/
  | tsnap (src : Src)
  /-- R244: Writing TXTS_POP removes the head entry of the selected transmit timestamp FIFO. -/
  | txtsPop (src : Src)
  /-- R253: After a fabric port leaves UP or RUN, FAB rewrites the indirection entries that named it within 20 µs. -/
  | failoverScan (p : Nat)
  /-- R261: A write of FAB.NODE changes the node ID or VALID between two pass results and raises NODE_CHANGE. -/
  | nodeWrite (src : Src) (id : Nat) (valid : Bool)
  /-- R267: The scanner visits every recovery function each 100 µs, resetting idle ones and running latent error detection. -/
  | frerScan
  /-- R278: A Clasp lane whose block lock has held for 1 µs becomes UP and takes back its traffic. -/
  | laneUp (i : Nat)
  /-- R279: A Clasp lane loses block lock, its traffic moves to the other lane and LANE_DOWN is raised. -/
  | laneDown (i : Nat)
  /-- R283: Each member sends a heartbeat on every UP lane every 1000 ns. -/
  | heartbeatSend
  /-- R283: A valid heartbeat is accepted, updating peer health, grants and role state. -/
  | heartbeatReceive (lane : Nat) (l : List BeatBlock)
  /-- R283: No valid heartbeat for 3000 ns declares loss and drives the role table. -/
  | heartbeatLoss
  /-- R291: A digest window closes and its digest is sent on the lanes. -/
  | digestSend
  /-- R292: A partner digest arrives and the window is compared when both digests are held. -/
  | digestReceive (lane : Nat) (l : List BeatBlock)
  /-- R292: A window still missing 2000 ns after its close counts DIGEST_MISSING and resets the balance. -/
  | digestWaitExpiry
  /-- R297: FENCE_I is seen rising after its 100 ns filter. -/
  | fenceRise
  /-- R297: FENCE_I is seen falling, letting a STANDBY or ORPHAN member take over. -/
  | fenceFall
  /-- R297: The LISTEN_MS timer expires and the member goes SOLO, ORPHAN or listens again. -/
  | listenTimeout
  /-- R297: ROLE_CMD TAKE moves a STANDBY member to ACTIVE, or is refused with CMD_REFUSED. -/
  | roleCmdTake (src : Src)
  /-- R297: ROLE_CMD YIELD makes an ACTIVE member send YIELD in every heartbeat. -/
  | roleCmdYield (src : Src)
  /-- R297: ROLE_CMD FORCE moves a LISTEN or ORPHAN member to SOLO. -/
  | roleCmdForce (src : Src)
  /-- R284: A Clasp control frame arrives and is kept in order, acknowledged or dispatched by KIND. -/
  | controlFrameReceive (lane : Nat) (bytes : List Byte) (ecc : EccResult)
  /-- R284: After 10 µs without acknowledgement the sender resends unacknowledged control frames. -/
  | controlRetransmit (kind : Nat)
  /-- R287: A gated paired copy held past TS_LOCAL + HOLD_NS is discarded and counted in SHADOW_DISCARDS. -/
  | heldCopyExpiry (q : Nat)
  /-- R294: Writing TRACE_CTRL.RELEASE clears DIVERGED and resumes the trace. -/
  | traceRelease (src : Src)
  /-- R303: Writing FW_WDOG.KICK restarts the firmware watchdog. -/
  | fwWdogKick (src : Src)
  /-- R295: The watchdog runs LIMIT_US without a KICK and sets health bit FW. -/
  | fwWatchdogExpiry
  /-- R295: An island completes a background self-test pass, setting its SELFTEST bit on a mismatch. -/
  | selftestPass (i : Nat) (bad : Bool)
  /-- R312: MPm_CTRL.START moves an OFF or FENCED MP to BOOT and runs the comparator test. -/
  | mpStart (src : Src) (m : Nat)
  /-- R312: MPm_CTRL.GO moves a SPARE MP to RUN within 20 ns. -/
  | mpGo (src : Src) (m : Nat)
  /-- R312: MPm_CTRL.FENCE_REQ moves a RUN MP to FENCING, or is discarded as LAST_RUNNING. -/
  | mpFenceReq (src : Src) (m : Nat)
  /-- R310: The comparator self-test ends, taking the processor to RUN, SPARE or FENCED, or stopping the TP boot. -/
  | comparatorTestDone (unit : Nat) (bad : Option Nat)
  /-- R312: A FENCING MP has drained and enters FENCED with interrupts redirected. -/
  | mpFenceDrained (m : Nat)
  /-- R308: An MP's comparator reports a mismatch and the MP is fenced within 200 ns. -/
  | lockstepMismatch (m channel pc : Nat)
  /-- R311: A TP lockstep mismatch holds TRUST and restarts the TP from the boot ROM. -/
  | tpMismatch (channel : Nat)
  /-- R311: The TP restart completes, Signet re-verifies and BUSY mailbox requests complete RESTARTED. -/
  | tpRestartDone (corr : Nat × Nat)
  /-- R315: A write of MPC.FENCE completes only when the writing MP's write buffer is empty. -/
  | mpcFence (src : Src)
  /-- R320: MPC.MBX_RING rings the writing MP's mailbox slot and Signet copies the request. -/
  | mbxRing (src : Src) (corr : Nat)
  /-- R316: A write of MRINGr_TAIL passes management ring descriptors to the device after draining the write buffer. -/
  | mringTail (src : Src) (r v : Nat)
  /-- R317: The device takes a management transmit descriptor and sends its frame, DIRECT frame or FW_RECORD. -/
  | mgmtTxFrame (r : Nat) (ecc : Bool) (corr : Nat)
  /-- R368: Signet derives ICK and KEK from a CAK and returns a handle. -/
  | mkaKeys (slot : Nat)
  /-- R368: Signet returns the ICV of an MKPDU under ICK. -/
  | mkaIcv (slot : Nat)
  /-- R368: Signet draws a SAK, loads it into a slot and returns it wrapped under KEK. -/
  | sakNew (slot : Nat)
  /-- R368: Signet unwraps a SAK into a slot. -/
  | sakInstall (slot : Nat)
  /-- R368: Signet zeroes a MACsec key slot not named by a valid SA. -/
  | slotFree (slot : Nat)
  /-- R368: Signet binds a key id to a cipher user page's slot with its invocation counts. -/
  | cupBind (slot : Nat)
  /-- R368: Signet unbinds a page's slot and stores its invocation counts. -/
  | cupUnbind (slot : Nat)
  /-- R447: Signet stores a plaintext key id in Locket during PROVISION. -/
  | keyPut (slot : Nat)
  /-- R447: Signet unwraps and stores a key id under a TKEK. -/
  | keyPutWrapped (slot : Nat)
  /-- R447: Signet deletes a key id not loaded in a slot. -/
  | keyDelete (slot : Nat)
  /-- R452: Signet draws and returns a fresh 12 B nonce. -/
  | lcChallenge (slot : Nat)
  /-- R449: Signet verifies a token, programs life-cycle fuses, performs wipes and resets the device. -/
  | lcTransition (slot : Nat)
  /-- R460: Signet opens the free image slot for a new image. -/
  | imgBegin (slot : Nat)
  /-- R460: Signet checks, programs and reads back one image block. -/
  | imgBlock (slot : Nat) (bad : Bool)
  /-- R460: Signet checks the delivered image and its compatibility and raises IMG_VERIFIED. -/
  | imgVerify (slot : Nat)
  /-- R460: Signet loads and locks the free code region, marks the slot TRIAL and starts TRIAL_S. -/
  | imgStage (slot : Nat)
  /-- R460: Signet restarts the TP into the staged Signet. -/
  | imgSignet (slot : Nat)
  /-- R460: Signet makes the trial slot ACTIVE, raises SEC_VERSION and releases the old region. -/
  | imgCommit (slot : Nat)
  /-- R460: Signet empties the trial slot and releases the staged region. -/
  | imgAbandon (slot : Nat)
  /-- R463: Signet opens a record slot for a delivered configuration record. -/
  | recBegin (slot : Nat)
  /-- R463: Signet programs one block of a configuration record. -/
  | recBlock (slot : Nat) (bad : Bool)
  /-- R463: Signet checks and activates a delivered record whose SEQ exceeds every stored SEQ. -/
  | recActivate (slot : Nat)
  /-- R463: Signet copies part of the plan part to a given address. -/
  | recRead (slot : Nat)
  /-- R466: Signet writes a migrated plan part as a new MIGRATED record. -/
  | recSeal (slot : Nat)
  /-- R485: Signet writes the ageing history to the older flash copy. -/
  | ageSave (slot : Nat)
  /-- R485: Signet reads the newer valid ageing history copy to a given offset. -/
  | ageLoad (slot : Nat)
  /-- R504: Signet issues a MGMT reset on command from an update slot. -/
  | mgmtReset (slot : Nat)
  /-- R326: A valid CAN frame is received and wrapped as an ACF frame, verified or matched against the wake pattern. -/
  | canFrameReceived (n : Nat) (f : CanFrame) (dlc ago : Nat)
  /-- R333: An authentication CMAC job completes, passing or dropping a received frame or signing a message. -/
  | cmacJobDone (n : Nat) (sign : Bool)
  /-- R334: A CMAC job not complete within 20 µs fails and logs CIPHER_FAIL. -/
  | cmacJobTimeout (n : Nat) (sign : Bool)
  /-- R330: Port 34 receives a whole copy, checks it and distributes its messages to channels. -/
  | busEgressFrame
  /-- R332: At an arbitration start, expired messages are discarded and the winning queued message is sent. -/
  | canArbitrationStart (n : Nat)
  /-- R332: A CAN frame completes on the bus and leaves the transmit queue. -/
  | canTxDone (n : Nat)
  /-- R335: A bus error updates TEC or REC, moving the channel to PASSIVE or BUS_OFF. -/
  | canError (n lec : Nat) (tx big : Bool) (ago : Nat)
  /-- R335: BO_HOLD expires in BUS_OFF with BO_AUTO and the channel starts recovering. -/
  | boHoldExpiry (n : Nat)
  /-- R335: PN_CTRL.RECOVER moves a BUS_OFF channel to RECOVERING. -/
  | canRecover (src : Src) (n : Nat)
  /-- R335: 11 recessive bits take an INTEGRATING channel to ACTIVE. -/
  | canIntegrated (n : Nat)
  /-- R335: 128 occurrences of 11 recessive bits return a RECOVERING channel to ACTIVE. -/
  | canRecovered (n : Nat)
  /-- R335: PN_CTRL.SLEEP_REQ asks the channel to enter PN_LISTEN, or is held pending. -/
  | pnSleepReq (src : Src) (n : Nat)
  /-- R335: PN_CTRL.WAKE_REQ wakes a PN_LISTEN channel or cancels a pending sleep. -/
  | pnWakeReq (src : Src) (n : Nat)
  /-- R335: At the end of the frame on the bus the channel enters PN_LISTEN, discarding its queue. -/
  | pnListenEnter (n : Nat)
  /-- R337: A commander schedule slot elapses and the next entry's header is sent. -/
  | linScheduleSlot (n : Nat)
  /-- R337: A LIN header is received and a responder answers from a loaded buffer. -/
  | linHeaderReceived (n id rate : Nat) (parity : Bool)
  /-- R338: A LIN response completes and is wrapped or counted as an error. -/
  | linResponseReceived (n : Nat) (data : List Byte) (check : Byte) (err ago : Nat)
  /-- R338: No complete response arrives within its limit after a header. -/
  | linNoResponse (n : Nat)
  /-- R339: LIN_CTRL.SLEEP_REQ makes a commander send go-to-sleep and enter SLEEP. -/
  | linSleepReq (src : Src) (n : Nat)
  /-- R339: LIN_CTRL.WAKE_REQ in SLEEP sends a 1 ms dominant pulse and returns to ACTIVE. -/
  | linWakeReq (src : Src) (n : Nat)
  /-- R339: A responder receives the go-to-sleep command and enters SLEEP. -/
  | linGoToSleepReceived (n : Nat)
  /-- R339: A responder enters SLEEP after 4 s without bus activity. -/
  | linIdleTimeout (n : Nat)
  /-- R339: A dominant level held 150 µs in SLEEP returns the channel to ACTIVE. -/
  | linDominantWake (n : Nat)
  /-- R339: 100 ms after a wake the commander restarts its schedule at entry 0. -/
  | linScheduleRestart (n : Nat)
  /-- R346: The framer judges a candidate slot 0 each frame, advancing or losing alignment and updating defects. -/
  | slot0Received (n pos scanned : Nat) (frame : List Byte)
  /-- R346: The 8 ms timer expires in MF_SEARCH, excluding P and counting FALSE_ALIGN. -/
  | mfSearchTimeout (n : Nat)
  /-- R348: Loss of signal is detected and the framer returns to SEARCH. -/
  | losRise (n : Nat) (pin : Bool) (zeros : Nat)
  /-- R348: Loss of signal clears and the framer scan resumes. -/
  | losClear (n : Nat) (pin : Bool) (ones : Nat)
  /-- R351: A 125 µs device frame starts; slips, connection changes, stream groups and playout are processed. -/
  | deviceFrameStart (bits badConn badStream : List Nat)
  /-- R349: Each second is classified under G.826 and added 10 s after it ends. -/
  | performanceSecond (n : Nat)
  /-- R352: A write to a connection page is performed on the standby page or discarded with PAGE_IN_USE or BUSY. -/
  | connPageWrite (src : Src) (a v : Nat)
  /-- R352: The connection page clone ends and raises CLONE_DONE. -/
  | tsiCloneDone
  /-- R354: A copy to port 35 is checked and its samples placed into the stream's playout store. -/
  | tdmEgressFrame
  /-- R381: Writing JOB_GO queues a copy of the JOB registers, or is discarded as QUEUE_FULL. -/
  | jobGo (src : Src) (n : Nat)
  /-- R377: A cipher job completes and posts its completion entry, zero-filling a failed decryption. -/
  | cipherJobDone (n : Nat) (img : List (Nat × List Byte)) (bad : Option (Nat × Nat)) (zeroFails : Bool) (corr : Nat × Nat)
  /-- R385: Writing DONE_POP removes the head completion entry. -/
  | donePop (src : Src) (n : Nat)
  /-- R367: KEY_CTRL.LOAD loads KEY_W, SALT_W and the binding into a slot. -/
  | keyLoad (src : Src)
  /-- R367: KEY_CTRL.ZERO overwrites a slot and frees its binding. -/
  | keyZero (src : Src)
  /-- R365: The key store re-masks each slot every 1 ms and the mask generator is reseeded. -/
  | slotRemask
  /-- R366: No valid seed for 1 s after a health failure puts MSEC and every CIP page in FAULT. -/
  | rngSeedTimeout
  /-- R369: Signet reads bound invocation counts back into Locket and the sealed store every 10 s. -/
  | keyCountSync
  /-- R414: The PCIe data link comes up and LINK_UP is raised. -/
  | pcieLinkUp (speed width : Nat)
  /-- R391: Loss of the data link stops rings, halts host DMA and abandons host requests. -/
  | pcieLinkDown
  /-- R391: A Function Level Reset resets rings, DMA and the configuration space within 100 ms. -/
  | flr
  /-- R391: A PCIe hot reset resets the HOST island's host-facing state. -/
  | hotReset
  /-- R504: PERST# low resets the HOST island and returns the link to Detect. -/
  | perst
  /-- R388: A PCIe configuration request is answered, with Retry Status until CFG_READY. -/
  | configRequest (r : CfgReg) (v : Option Nat)
  /-- R388: CFG_READY still 0 at 900 ms after PERST# is set with IDENT 0 and CFG_LATE. -/
  | cfgReadyTimeout
  /-- R392: A host read through BAR4 is carried to the partner as a BRIDGE READ. -/
  | hostBar4Read (off size : Nat)
  /-- R392: A host write through BAR4 is carried to the partner as a BRIDGE WRITE. -/
  | hostBar4Write (off : Nat) (words : List Nat)
  /-- R392: A host write with poisoned data is discarded and logged. -/
  | hostPoisonedWrite (addr : Nat)
  /-- R392: An AtomicOp, I/O request or message to the device is answered Unsupported Request. -/
  | hostUnsupportedRequest
  /-- R390: Clearing an MSI-X mask sends one message for a pending vector. -/
  | msixUnmask (v : Nat)
  /-- R393: An MP load or store to a bridge window is checked and sent to the host or partner. -/
  | bridgeWindowAccess (m : Fin 4) (a size : Nat) (store : Option (List Byte))
  /-- R395: An LR through a window reads and records the MP's reservation. -/
  | bridgeLr (m : Fin 4) (a size : Nat)
  /-- R395: An SC through a window is emulated with compare-and-swap against the reservation. -/
  | bridgeSc (m : Fin 4) (a size new : Nat)
  /-- R395: An AMO through a window is emulated by up to 8 compare-and-swap attempts. -/
  | bridgeAmo (m : Fin 4) (a size : Nat) (op : Amo) (arg : Nat)
  /-- R395: An MP's reservation ends 10 µs after its LR. -/
  | reservationExpiry (m : Fin 4)
  /-- R397: A BRIDGE WRITE is performed at BAR0 on arrival or answered with WRITE_FAIL. -/
  | bridgeWriteReceived (orig a : Nat) (data : List Byte)
  /-- R397: A BRIDGE READ is performed and answered with CPL, or answered RETRY under contention. -/
  | bridgeReadReceived (orig tag a words : Nat) (ecc : EccResult)
  /-- R397: A BRIDGE CAS is performed as one read-modify-write at the scratchpad, or answered ERROR or RETRY. -/
  | bridgeCasReceived (orig tag a words : Nat) (data : List Byte) (ecc : EccResult)
  /-- R398: A CPL completes an open request, starts a retry wait on RETRY, or is counted LATE_CPL. -/
  | bridgeCplReceived (tag status : Nat) (data : List Byte)
  /-- R401: A WRITE_FAIL appends a PWLOG entry with cause PEER_REFUSED. -/
  | bridgeWriteFailReceived (orig code addr : Nat)
  /-- R398: A request open for PEER_TIMEOUT µs completes with ERROR. -/
  | peerRequestTimeout (tag : Nat)
  /-- R399: The random retry wait ends and the request is reissued with the same TAG. -/
  | peerRetryWait (tag : Nat)
  /-- R400: Every POLL_US µs the bridge reads the partner's event summary into PEER_SUMMARY. -/
  | peerPoll
  /-- R415: Writing PWLOG_POP removes the head posted-write failure entry. -/
  | pwlogPop (src : Src)
  /-- R403: A write of RX_TAILr passes receive descriptors to the device. -/
  | rxTailDoorbell (src : Src) (r v : Nat)
  /-- R403: A write of TX_TAILr passes transmit descriptors to the device. -/
  | txTailDoorbell (src : Src) (r v : Nat)
  /-- R407: The device reads a complete transmit frame from a ring, presents it as port 32 and writes DONE. -/
  | hostTxFrame (img : List (Nat × List Byte)) (bad : Option (Nat × Bool))
  /-- R409: USEC after the first pending completion the ring sends its MSI-X vector. -/
  | ringIrqTimer (tx : Bool) (r : Nat)
  /-- R412: A write of DMA TAILc passes descriptors and starts an IDLE channel. -/
  | dmaDoorbell (src : Src) (c v : Nat)
  /-- R412: A DMA descriptor completes or halts on error and signals under IRQ. -/
  | dmaDescriptorDone (c : Nat) (img : List (Nat × List Byte)) (bad : Option BadRead) (corr : Nat × Nat)
  /-- R412: CH_CTRL.ABORT halts a BUSY channel after its current burst. -/
  | dmaAbort (src : Src) (c rows : Nat) (img : List (Nat × List Byte)) (corr : Nat × Nat)
  /-- R412: CH_CTRL.RESUME reruns the HEAD descriptor of a HALTED channel from row 0. -/
  | dmaResume (src : Src) (c : Nat)
  /-- R412: CH_CTRL.SKIP advances a HALTED channel past its HEAD descriptor. -/
  | dmaSkip (src : Src) (c : Nat)
  /-- R421: SCR.MBX_RING from the host rings mailbox slot 0. -/
  | scrMbxRing (src : Src) (corr : Nat)
  /-- R421: Writing DB_SET sets the matching DOORBELL events. -/
  | dbSet (src : Src) (v : Nat)
  /-- R428: PWR.REQ with state RUN starts a transition raising islands to RUN. -/
  | powerReqRun (src : Src)
  /-- R428: PWR.REQ with state PARTIAL starts a transition to PARTIAL_MAP. -/
  | powerReqPartial (src : Src)
  /-- R428: PWR.REQ with state DOZE starts a transition to DOZE. -/
  | powerReqDoze (src : Src)
  /-- R428: PWR.REQ with state SLEEP starts a transition to SLEEP. -/
  | powerReqSleep (src : Src)
  /-- R428: The RAISE phase completes and the transition moves on or ends. -/
  | raiseDone
  /-- R428: The PREPARE_MS window ends and QUIESCE starts. -/
  | prepareEnd
  /-- R429: No page of an island to be lowered is working, and COMMIT withholds ready at its crossings. -/
  | quiesceDone
  /-- R429: An island reaches its LIMIT with a page still working and the request is refused. -/
  | quiesceLimit (i : Nat)
  /-- R428: The islands reach RET or DOWN and STATE_DONE is raised. -/
  | lowerDone
  /-- R430: A temperature above THERM.TRIP forces the data islands to RET. -/
  | thermalTrip (i : Nat) (t : Int)
  /-- R494: VDD_CORE outside 0.800–0.900 V for 1 µs sets SUPPLY and forces power-down. -/
  | supplyAlarm
  /-- R430: The monitor reads below THERM.RESUME for 1 s and the forced cause ends. -/
  | forcedCauseClear
  /-- R431: A WAKE_IN ball is active for FILTER ticks and the wake source occurs. -/
  | wakeIn (pins : Nat)
  /-- R431: TIMER_S seconds after entering a lower state, wake source 19 occurs. -/
  | wakeTimer
  /-- R425: A wake returns every island to ON and the device reaches RUN. -/
  | wakeComplete
  /-- R434: Writing WAKE.CONFIRM confirms the last wake and clears its consecutive counts. -/
  | wakeConfirm (src : Src)
  /-- R434: CONFIRM_MS passes without confirmation, counting a false wake and possibly masking its source. -/
  | confirmTimeout
  /-- R434: UNMASK_S after a source was masked, its mask clears. -/
  | unmaskTimer (n : Nat)
  /-- R435: A Charm KEEP or RELEASE reaches NM, updating the holder table and the network timer. -/
  | charmReceived (p : Nat) (bytes : List Byte)
  /-- R436: NT expires with HOLD 0 and NM goes READY, requesting sleep with AUTO. -/
  | netTimeout
  /-- R436: Writing NM.HOLD restarts NT or wakes a READY network. -/
  | nmHoldWrite (src : Src) (hold : Bool) (reason : Nat)
  /-- R435: A write of NM_CFG.ETYPE is accepted, turns NM off, or is discarded as ETYPE_CLASH. -/
  | nmEtypeWrite (src : Src) (etype : Nat) (auto : Bool) (sleep : Nat)
  /-- R442: Every CHARM_PERIOD_MS while HOLD is 1 the TX_DUE event is raised. -/
  | charmTxDue
  /-- R444: PROG_CTRL.GO programs one fuse, or fails with OTP_LOCKED. -/
  | otpProgram (src : Src)
  /-- R450: An enabled tamper sensor trips and the hardware wipes secrets within 20 µs. -/
  | tamperTrip (n : Nat)
  /-- R452: Writing DBG.CHAL_REQ draws a fresh nonce into CHAL0–CHAL2. -/
  | dbgChalReq (src : Src)
  /-- R454: Writing DBG.REQ submits a token; a valid one wipes secrets and opens debug. -/
  | dbgTokenSubmit (src : Src)
  /-- R457: After the TP's release the boot ROM selects and verifies an image, and Signet loads firmware and the record. -/
  | coldBoot
  /-- R458: A wake from SLEEP with a wake seal loads components by hash without signature checks. -/
  | warmBoot
  /-- R458: MP_MAIN arrives after a warm boot and MAIN_READY is raised. -/
  | mainReady
  /-- R460: TRIAL_S expires without a COMMIT and TRIES is written 0. -/
  | trialExpired
  /-- R475: Every PERIOD_S the AGE page samples margin and degradation of each ON island. -/
  | ageSample (l : List Sensor)
  /-- R480: A write of ISL_Vi.VREQ starts a regulator move or is discarded as V_RANGE. -/
  | vreqWrite (src : Src) (i v : Nat)
  /-- R480: A regulator completes a 5 mV step; on a fall the canaries are checked and the move may stop with V_MARGIN. -/
  | voltageMoveStep (i : Nat) (x : Sensor)
  /-- R476: A canary fails with no added delay, setting CANARY and raising the island by one step. -/
  | canaryFail (i : Nat)
  /-- R481: An island's period reaches its new value after a K step and CLK reports ACCEPTED. -/
  | frequencyGlideDone (i : Nat)
  /-- R496: The reference stops or drifts beyond 200 ppm and CLK.ALARM.XTAL is set. -/
  | xtalAlarm
  /-- R506: POR_N rises after OFF; the device starts clocks, zero-fills, searches margins and releases the TP. -/
  | coldReset (search : List (List Nat))
  /-- R504: POR_N low for 10 µs with supplies present starts a DEVICE reset. -/
  | porNLow
  /-- R504: SYS_RST_N low for 10 µs starts a SYSTEM reset. -/
  | sysRstNLow
  /-- R507: SYS.RST_CTRL.DEVICE starts a DEVICE reset. -/
  | rstCtrlDevice (src : Src)
  /-- R507: SYS.RST_CTRL.SYSTEM starts a SYSTEM reset. -/
  | rstCtrlSystem (src : Src)
  /-- R507: SYS.RST_CTRL.MGMT starts a MGMT reset. -/
  | rstCtrlMgmt (src : Src)
  /-- R494: VDD_CORE below 0.700 V for 100 ns puts the device in OFF at once. -/
  | brownOut
  /-- R504: No MP in RUN for 1 s makes Signet issue a MGMT reset. -/
  | noMpTimeout
  /-- R508: An enabled rising or falling edge on a GPIO raises its EDGE event. -/
  | gpioEdge (i : Nat) (high : Bool)
  /-- R509: TRST_N low or five TCK cycles with TMS high resets the TAP. -/
  | tapReset
  /-- R509: The BYPASS instruction selects the bypass register. -/
  | bypass
  /-- R509: The IDCODE instruction selects the identification register. -/
  | idcode
  /-- R509: The SAMPLE/PRELOAD instruction samples or loads the boundary register. -/
  | samplePreload (balls v : Nat)
  /-- R509: EXTEST drives pins from the boundary register where permitted. -/
  | extest (balls v : Nat)
  /-- R509: CLAMP holds pins at the boundary register values where permitted. -/
  | clamp
  /-- R509: HIGHZ places outputs in high impedance where permitted. -/
  | highz
  /-- R509: DBG_ACCESS carries one 4 B BAR0 read or write as the debug port. -/
  | dbgAccess (a : Nat) (v : Option Nat)
  /-- R53: A port in TRAINING, or a Clasp lane, gains PCS or block lock, setting PCS_LOCK and starting the UP_HOLD or 1 µs hold. -/
  | pcsLockAcquired (p lane : Nat)
  /-- R402: A PCIe completion from the host ends an open MP read, CAS or AtomicOp through a HOST window, delivering data or raising an
  access fault on Unsupported Request or Completer Abort. -/
  | hostCompletionReceived (id : Nat) (data : Option (List Byte))
  /-- R402: A device request to the host stays open past the PCIe Completion Timeout, so the MP load or store faults, BUS_ERROR is
  logged and CPL_TIMEOUT is raised. -/
  | completionTimeout (id : Nat)
  /-- R505: POR_N or SYS_RST_N is released after a DEVICE or SYSTEM reset, and the device completes the zero-fill, releases the TP at
  0.42 ms and cold-boots. -/
  | resetSourceRelease (pin : ResetPin)
  /-- R27: A BAR0 read that crosses a 4 B boundary, or a host read above 8 B outside the scratchpad, is discarded and logged as
  MISALIGNED, and a host read gets a Completer Abort. -/
  | misalignedRead (src : Src) (bar : Bar) (a size : Nat) (ecc : EccResult)
  /-- R306: An MP or TP load, store or fetch outside BAR0 and the bridge windows either completes or raises an access fault, logging
  BUS_ERROR, ECC_UNCORRECTED or NOT_OWNER under R306, R307 and R459. -/
  | processorMemoryAccess (who : Option (Fin 4)) (kind : AccessKind) (a size : Nat) (data : List Byte) (ecc : EccResult)
  /-- R295: One ms after the last ECC_UNCORRECTED log by CLS, FIB, BUF or a TGATE page, health bit ECC clears and HEALTH_CHANGE is
  raised. -/
  | eccHealthExpiry
  deriving DecidableEq, Repr

end Sys2Proof
end

