-- ==== Sys2Proof/Config.lean ====
section
/-! DEFINITION. The free values: what the manual leaves open, as constants that nothing can evaluate. A statement that holds
of the model holds whatever these are. Each use is named in the assumption log. -/
namespace Sys2Proof.Config

/-- The k-th value of the machine's own that the manual does not fix: a random draw (R134, R366, R399), the content of
a bank whose clone was stopped (R510), or a value it calls undefined. State.frees counts the draws. -/
opaque freeNat : Nat → Nat

/-- Byte `i` of the k-th free value that is longer than a word. -/
opaque freeByte : Nat → Nat → Byte

/-- Where the block grid of a port's PCS lies against the gate time, in ps (R180): the manual gives the grid's spacing
alone. -/
opaque gridPhase : Nat → Nat

/-- Byte `i` of the key that the derivation hardware makes of HUK for a use (R446, R463). -/
opaque hukKey : List Byte → Nat → Nat → Byte

/-- The base-2 logarithm of how many SECDED words of 8 bytes a line of an MP's caches holds, modulo 8 (R305, R307): the manual gives the
caches' sizes and no line. -/
opaque lineLog2 : Nat

/-- Where Signet places component c of an image in the memory it loads it into (R457, R459): the manual gives no place. -/
opaque loadPlace : Nat → Nat

end Sys2Proof.Config
end

