-- ==== Sys2Proof/Machine/Frames.lean ====
section
/-! DEFINITION. The records of the data path: a stored frame, a pass of the classifier, a copy in a subscriber queue, the
scheduler's nodes, the meters and each port's egress (chapters 3 to 8). -/
namespace Sys2Proof.Machine

/-- What a meter charged for a pass at a provisional length, so that it can be returned at the frame's end (R168). -/
structure MeterCharge where
  meter : Nat
  green : Bool
  bits : Nat
  deriving DecidableEq, Repr

/-- A time instruction word (R236). -/
structure TimeInstr where
  insert : Nat := 0
  capture : Bool := false
  domain : Nat := 0
  tag : Nat := 0
  refFrac : Nat := 0
  refNs : Nat := 0
  deriving DecidableEq, Repr

/-- What is recorded of a Barost header that the RECIRC edit removed (R249). -/
structure Decap where
  src : Nat
  hops : Nat
  origPort : Nat
  sv : Nat
  stream : Nat
  deriving DecidableEq, Repr

/-- A frame held in the buffer, or being received (R49, R121, R234). `bytes` runs from the destination address to the FCS
as far as it has been received. -/
structure Frame where
  bytes : List Byte := []
  /-- The last byte has been received. -/
  ended : Bool := false
  /-- The frame was dropped at its ingress, by the parser or by a refused crossing: it makes no copy. -/
  gone : Bool := false
  /-- BUF withheld ready at its start: it is dropped at the receive side and no counter of its port counts it (chapter 6, BUF page). -/
  refused : Bool := false
  /-- It is a frame that the port itself sends, received in near-end loopback (R60). -/
  loop : Bool := false
  /-- The chain of cells that store it, the first cell at the head (R121, R122). -/
  cells : List Nat := []
  /-- Original ingress logical port, key PORT (R76, R80). -/
  ingress : Nat := 0
  /-- Logical port the frame enters from in this pass; 36 on a second pass. -/
  current : Nat := 0
  pass : Nat := 0
  /-- Bank tag (R81). -/
  bank : Nat := 0
  /-- t_in in units of 2^-16 ns of the local time base (R234). -/
  tsLocal : Int := 0
  tsSw : Nat := 0
  /-- Decrypted by MACsec on ingress (R75). -/
  prot : Bool := false
  profile : Nat := 0
  flags : Nat := 0
  l3 : Nat := 0
  key : List Byte := []
  parsed : Bool := false
  /-- The deferred length check of R72: whether it is the ACF check, and the declared length. -/
  deferred : Option (Bool × Nat) := none
  /-- Provisional length L of R125. -/
  provLen : Nat := 0
  /-- Class whose headroom the frame is charged to (R130); none: charged to its queues. -/
  headroom : Option Nat := none
  lossless : Option Nat := none
  decided : Bool := false
  /-- Descriptors not yet released, and how many of them are of copies charged to headroom (R122). -/
  refs : Nat := 0
  hrRefs : Nat := 0
  meter : Option MeterCharge := none
  /-- MAX_SDU of the stream filter when the pass was admitted provisionally (R165), 0 for none; and its context. -/
  sduLimit : Nat := 0
  ctx : Option Nat := none
  /-- The function that accepted the pass and the sequence number it accepted, none for a pass without an R-tag (R263, R264, R268). -/
  frer : Option (Nat × Option Nat) := none
  seq : Option Nat := none
  tiw : Option TimeInstr := none
  /-- Port and class of a DIRECT frame (R317). -/
  direct : Option (Nat × Nat) := none
  decap : Option Decap := none
  /-- The avtp_timestamp that every copy of a frame of port 34 or 35 is to carry (R243). -/
  ptime : Option Nat := none
  /-- Keys of the byte counters that are owed the frame's length at its end (R93, R103). -/
  owed : List Nat := []
  /-- A loss of PCS lock touched the frame in reception (R53). -/
  code : Bool := false
  /-- The frame is inside the cipher: it began at an RX_EN port while MSEC was in RUN (R376). -/
  secured : Bool := false
  /-- The bytes received so far of a frame whose stored bytes are decrypted (R374). -/
  wire : List Byte := []
  deriving DecidableEq, Repr

/-- The bytes of a frame as they have been received so far. -/
def Frame.received (f : Frame) : List Byte := if f.wire.isEmpty then f.bytes else f.wire

/-- Why a copy is made (R98, R138, R140, R151). -/
inductive CopyKind where
  | dest
  | cpu
  | recirc (edit : Nat)
  | mirror (session : Nat)
  | sample
  deriving DecidableEq, Repr

/-- A pass of the classifier: the key that enters it and the result it presents (R76, R97, R98). -/
structure Pass where
  frame : Nat := 0
  second : Bool := false
  bank : Nat := 0
  key : List Byte := []
  direct : Option (Nat × Nat) := none
  dropped : Bool := false
  ctx : Option Nat := none
  dests : List Nat := []
  recirc : Option Nat := none
  cpuMgmt : Bool := false
  cpuHost : Bool := false
  mirrors : List Nat := []
  sample : Bool := false
  tc : Nat := 0
  colour : Nat := 0
  /-- Host ring of the copy to port 32 (R99). -/
  ring : Nat := 0
  /-- The context the trees bound, whether valid or not (R101). -/
  bound : Option Nat := none
  paired : Bool := false
  /-- The queues of its copies by port, as the values active at the policer give them (R151, R169). -/
  queues : List (Nat × Nat) := []
  deriving DecidableEq, Repr

/-- A copy: a descriptor linked into a subscriber queue (R122). Its first cell, length and l3 offset are those of the frame it names. -/
structure Copy where
  frame : Nat := 0
  port : Nat := 0
  queue : Nat := 0
  kind : CopyKind := .dest
  /-- Cells charged to the queue; 0 for a copy of a frame charged to headroom (R125, R130). -/
  charge : Nat := 0
  colour : Nat := 0
  tc : Nat := 0
  ctx : Option Nat := none
  mark : Bool := false
  /-- Cut-through as decided under R52; none before the decision. -/
  cut : Option Bool := none
  ring : Nat := 0
  paired : Bool := false
  /-- SA and packet number assigned under R372. -/
  pn : Option (Nat × Nat) := none
  deriving DecidableEq, Repr

/-- A subscriber queue (R122, R145, R154, R159). -/
structure Queue where
  copies : List Copy := []
  used : Nat := 0
  peak : Nat := 0
  deficit : Nat := 0
  tokens : Int := 0
  last : Nat := 0
  deriving DecidableEq, Repr

/-- A service node: its credit or tokens, the queue its pointer names, its deficit in the port's group (R154, R160). -/
structure SvcNode where
  credit : Int := 0
  last : Nat := 0
  ptr : Nat := 0
  deficit : Nat := 0
  deriving DecidableEq, Repr

/-- A port node (R153, R155, R159). -/
structure PortNode where
  tokens : Int := 0
  last : Nat := 0
  groupPtr : Nat := 0
  lastSvc : Nat := 0
  deriving DecidableEq, Repr

/-- A flow meter (R166). -/
structure Meter where
  ct : Nat := 0
  et : Nat := 0
  last : Nat := 0
  marked : Bool := false
  deriving DecidableEq, Repr

/-- The egress of a port: the copy selected at the last decision with the deficits to keep when it starts, and the copy in
transmission with the length charged at its start and the local time it started. -/
structure Egress where
  selected : Option Copy := none
  /-- What the selection's loop added to deficits: (queue or service node, bytes) of the service node's queues and of the port's group. -/
  qDef : List (Nat × Nat) := []
  sDef : List (Nat × Nat) := []
  qPtr : Nat := 0
  sPtr : Option Nat := none
  sending : Option Copy := none
  charged : Nat := 0
  started : Nat := 0
  /-- Local time in 2^-16 ns at which its timestamp point, the end of the SFD, is at the balls (R232). -/
  point : Nat := 0
  /-- The bytes of the copy in transmission after the egress edits, without its FCS, and how many bytes of the stored frame they
  cover. -/
  wire : List Byte := []
  covered : Nat := 0
  /-- The copy ends with an inverted FCS (R51, R141); the link left UP meanwhile, so the frame is lost (R53). -/
  stomp : Bool := false
  lost : Bool := false
  /-- The copy started before its frame had ended (cut-through, R52), and its later bytes are still to be appended. -/
  early : Bool := false
  /-- It was charged at the provisional length, and the frame's length once that is known (R154, R159, R160). -/
  prov : Bool := false
  flen : Option Nat := none
  /-- Its port has no wire and took it whole at its start: its bytes are counted (ports 32, 33 and 36). -/
  sent : Bool := false
  /-- The lane of the Clasp link that a copy of port 37 started on (R279). -/
  lane : Nat := 0
  /-- The port's DWRR group chose it (R155); the cells of credit it was charged (R57). -/
  grouped : Bool := false
  credit : Nat := 0
  deriving DecidableEq, Repr

/-- The gate engine of a port: the take-over time CT of a pending change in domain ns (R190), the cycle whose start was counted last
(R197), and the words of the standby list that cannot be read any more (R194), word w of entry k as 2k + w. -/
structure Gate where
  ct : Option Nat := none
  cycle : Option Int := none
  lost : List Nat := []
  deriving DecidableEq, Repr

end Sys2Proof.Machine
end

