-- ==== Sys2Proof/Machine/Output.lean ====
section
/-! DEFINITION. What the device presents outside: every output, in the order it is made. -/
namespace Sys2Proof.Machine

/-- A ball that R501 gives a level. -/
inductive Ball where
  | canTx (n : Nat)
  | canMode (n : Nat)
  | linTx (n : Nat)
  | tdmTd (n : Nat)
  | serdesTx (p : Nat)
  | claspTx (lane : Nat)
  | pcieTx
  | fenceO
  | xspiCs
  | xspiReset
  | psuEn
  | gpio (i : Nat)
  deriving DecidableEq, Repr

/-- What a ball shows: a level, electrical idle, an input, or what the block behind it drives. -/
inductive Level where
  | low | high | idle | input | driven
  deriving DecidableEq, Repr

/-- Something the device presents outside itself. -/
inductive Output where
  /-- An MSI-X message: its address and its data (R43, R390). -/
  | msix (addr data : Nat)
  /-- The data returned to a read at a BAR0 address (R4, R27). -/
  | readData (addr size value : Nat)
  /-- A read that gets a Completer Abort or an Unsupported Request (R392). -/
  | completerAbort (addr : Nat)
  | unsupported
  /-- A frame on the wire of a port, from the destination address to the FCS (R156). -/
  | frame (port : Nat) (bytes : List Byte)
  /-- An MDIO frame of master `master` to a PHY, with or without its preamble (R54, R55). -/
  | mdio (master : Nat) (preamble : Bool) (phy : Nat) (write cl45 : Bool) (devad reg data : Nat)
  /-- A beat sequence on a lane of the Clasp link, block by block (R280–R282). -/
  | beat (lane : Nat) (blocks : List BeatBlock)
  /-- A control frame on a lane of the Clasp link (R284). -/
  | control (lane : Nat) (bytes : List Byte)
  /-- A load of a processor completes with a value: 1–4 for MP0–MP3, 5 for the TP (R306). -/
  | procData (src value : Nat)
  /-- A store or a fetch of a processor completes. -/
  | procDone (src : Nat)
  /-- An access fault in a processor (R306, R393, R402). -/
  | procFault (src : Nat)
  /-- A request to the host: a read, a posted write, an AtomicOp (R387, R408); `ns` is its No Snoop bit. -/
  | hostRead (addr len : Nat) (ns : Bool)
  | hostWrite (addr : Nat) (bytes : List Byte) (ns : Bool)
  | hostCas (addr size old new : Nat) (ns : Bool)
  /-- The completion of a host read in BAR2 or through BAR4 (R389, R392). -/
  | hostData (bytes : List Byte)
  /-- The answer to a configuration request: data, or Configuration Request Retry Status (R388). -/
  | configData (value : Nat)
  | configRetry
  /-- A frame sent on a CAN channel (R332). -/
  | canFrame (ch : Nat) (f : CanFrame)
  /-- The level that a CAN channel drives on CANn_MODE from now on: high in PN_LISTEN alone (R324). -/
  | canMode (ch : Nat) (high : Bool)
  /-- A header, a response and a wake pulse on a LIN channel (R337–R339). -/
  | linHeader (ch id : Nat)
  | linResponse (ch id : Nat) (data : List Byte) (checksum : Byte)
  | linWake (ch : Nat)
  /-- What the 16 links drive on TDMn_TD in one device frame, 32 octets each (R344, R345). -/
  | tdm (links : List (List Byte))
  /-- PSU_EN takes a level (R493, R495). -/
  | psuEn (high : Bool)
  /-- Balls take the levels of R501. -/
  | levels (l : List (Ball × Level))
  /-- A read of host memory by a ring or a channel (R408, R411); the command that emits it carries what it returns. -/
  | hostFetch (addr size : Nat) (ns : Bool)
  /-- The pins of the boundary register go over to something else (R509): until they carry `device` again, every other output stands behind them. -/
  | pins (d : PinDrive)
  /-- What TDO shifts out of the data register selected: its length in bits and its value (R509); length 0 for the boundary register,
  whose length the manual does not give. -/
  | tdo (bits value : Nat)
  deriving DecidableEq, Repr

end Sys2Proof.Machine
end

