-- ==== Sys2Proof/Machine/State.lean ====
section
/-! DEFINITION. The state of the block: registers, tables, counters, memories, the data path's frames and queues, every
engine's own state, what it has presented outside, and the queue of the commands that wait. -/
namespace Sys2Proof.Machine

/-- Why the machine stops with a fault. No command of this block faults: the manual gives every command its effect. The type
is closed by this one reason, which nothing raises (safe). -/
inductive Fault where
  /-- Raised by nothing. -/
  | none
  deriving DecidableEq, Repr

/-- Why a command is refused. -/
inductive Refusal where
  /-- The dispatch raises it for a command that has no meaning yet (safe). -/
  | notModelled (mnemonic : String)
  deriving DecidableEq, Repr

/-- The byte memories (R6, R23, R24, R305, R445): the table windows 0x0100_0000–0x01FF_FFFF of BAR0 keyed by BAR0 address,
the host scratchpad, management SRAM, the trusted processor's SRAM, Locket, the external flash, the memory of the host
that the device reaches over PCIe, and the OTP fuses (one bit per key). -/
structure Mems where
  win : Mem := Sparse.empty
  scratch : Mem := Sparse.empty
  msram : Mem := Sparse.empty
  tsram : Mem := Sparse.empty
  locket : Mem := Sparse.empty
  flash : Mem := Sparse.empty
  host : Mem := Sparse.empty
  otp : Mem := Sparse.empty
  deriving DecidableEq, Repr

/-- A plan commit in progress (R37): the page whose REQUEST started it, the pages included, whether it is a verify (R221; its one page is
then ASY), whether ASY was in RUN at the REQUEST (R215), whether the verdict has passed, and the pages whose boundary has not come yet. Of a
plan that has passed: its generation, digest, paths and streams, its RESULT and NODE words by table key (R219), and whether PRS reports
ACCEPTED with CLS (R84). -/
structure Plan where
  requester : Page
  included : List Page
  verify : Bool
  asyOk : Bool
  passed : Bool := false
  waiting : List Page := []
  gen : Nat := 0
  digest : Nat := 0
  paths : Nat := 0
  streams : Nat := 0
  table : List (Nat × Word) := []
  prs : Bool := false
  /-- Local time of the REQUEST (R217). -/
  start : Nat := 0
  deriving DecidableEq, Repr

/-- The data path (chapters 3 to 8). -/
structure DataPath where
  frames : Sparse Frame (fun _ => {}) := Sparse.empty
  nextFrame : Nat := 1
  /-- The frame in reception at each ingress port, 0 for none. -/
  rx : Sparse Nat (fun _ => 0) := Sparse.empty
  /-- Frames whose parse window waits at the parser's inputs, in order of arrival. -/
  windows : List Nat := []
  /-- The parser's arbiter: the port granted last among the inputs served in turn, and the slots granted since RECIRC's last (R65). -/
  prsLast : Nat := 37
  prsSlots : Nat := 0
  /-- Keys between the parser and the classifier. -/
  keys : List Pass := []
  /-- Pass results between the classifier and the policer. -/
  results : List Pass := []
  /-- Pass results between the policer and admission. -/
  admits : List Pass := []
  queues : Sparse Queue (fun _ => {}) := Sparse.empty
  svcs : Sparse SvcNode (fun _ => {}) := Sparse.empty
  portNodes : Sparse PortNode (fun _ => {}) := Sparse.empty
  meters : Sparse Meter (fun _ => {}) := Sparse.empty
  egress : Sparse Egress (fun _ => {}) := Sparse.empty
  gates : Sparse Gate (fun _ => {}) := Sparse.empty
  /-- Headroom cells in use, and credit granted and received, of lossless ingress port p and class c, at key 8p + c (R131). -/
  hrUsed : Sparse Nat (fun _ => 0) := Sparse.empty
  granted : Sparse Nat (fun _ => 0) := Sparse.empty
  received : Sparse Nat (fun _ => 0) := Sparse.empty
  /-- Cells the sender has used, USED_c, by egress port and class (R255). -/
  used : Sparse Nat (fun _ => 0) := Sparse.empty
  /-- The port sends CRST = 1 until a valid header has arrived (R257); the local time it entered UP. -/
  crst : Sparse Bool (fun _ => false) := Sparse.empty
  upAt : Sparse Nat (fun _ => 0) := Sparse.empty
  /-- A credit frame is due at the port (R59, R256); class c of the port has stalled, key 8p + c (R59). -/
  creditDue : Sparse Bool (fun _ => false) := Sparse.empty
  stalled : Sparse Bool (fun _ => false) := Sparse.empty
  /-- DOWN_HOLD runs at the port (R53). -/
  downHold : Sparse Bool (fun _ => false) := Sparse.empty
  /-- TIMEOUT of TC10 runs at the port (R56). -/
  tc10Timer : Sparse Bool (fun _ => false) := Sparse.empty
  /-- Accesses at the two MDIO masters, the one in progress first (R55). -/
  mdio : Sparse (List MdioReq) (fun _ => []) := Sparse.empty
  /-- Whole copies that ports 34 and 35 have received and not taken yet, oldest first (R330, R354). -/
  busIn : List (List Byte) := []
  tdmIn : List (List Byte) := []
  /-- The staging registers of the FIB (R108): word w of the master with code c at key 4c + w. -/
  fibStage : Sparse Word (fun _ => 0) := Sparse.empty
  /-- The transmit ring of the host served last (R407). -/
  txRing : Nat := 63
  /-- How far the descriptor of a BUSY channel has been copied: whole rows, and bytes of the row after them; the channel that the engine
  served last (R411). -/
  dmaPos : Sparse (Nat × Nat) (fun _ => (0, 0)) := Sparse.empty
  dmaLast : Nat := 31
  /-- Writes to tables RXSC and RXSA that wait for the end of the frame in reception at their port, oldest first: table, entry, word and
  value (R373). -/
  saWrites : List (Nat × Nat × Nat × Word) := []
  deriving DecidableEq, Repr

/-- Reset value of a word of the MSI-X table: the vector is masked (PCIe; R390). -/
def msixReset (k : Nat) : Word := if k % 4 = 3 then 1 else 0

/-- The PCIe endpoint (R388–R391): the MSI-X table of BAR2 by word, the Function mask, the Pending Bit Array, the base addresses of
the three BARs, and the settings of R387: the codes of Max_Payload_Size and Max_Read_Request_Size, the ASPM bits, D3hot, the Completion Timeout
value and its disable bit, and AER's Uncorrectable Error Status. -/
structure PcieState where
  bars : Sparse Nat (fun _ => 0) := Sparse.empty
  mps : Nat := 0
  mrrs : Nat := 2
  aspm : Nat := 0
  d3 : Bool := false
  timeout : Nat := 0
  noTimeout : Bool := false
  aer : Nat := 0
  msix : Sparse Word msixReset := Sparse.empty
  msixFuncMask : Bool := false
  pba : Sparse Bool (fun _ => false) := Sparse.empty
  deriving DecidableEq, Repr

/-- One of the four gPTP domain clocks (R227, R228): seconds and nanoseconds as one count of ns, and the fraction of a ns in
units of 2^-32. -/
structure DomClock where
  ns : Nat := 0
  frac : Nat := 0
  deriving DecidableEq, Repr

/-- The state of the block. -/
structure State where
  /-- Registers, keyed by BAR0 address of the direct window; the shadow copy of a register stands 0x700 above it (R35). -/
  regs : Sparse Word resetWord
  /-- Words of the tables behind TAB_ADDR and TAB_DATA, active view and shadow view. -/
  tabs : Sparse Word tabReset
  tabsShadow : Sparse Word tabReset
  /-- Live counters and their snapshots (R28). -/
  counters : Sparse Nat (fun _ => 0)
  snapshot : Sparse Nat (fun _ => 0)
  mem : Mems
  /-- The DRAIN_LIMIT timer of the page with that summary index runs (R31). -/
  drainTimer : Sparse Bool (fun _ => false)
  /-- Pages of CAPS.TIMING = 0 whose commit has passed its checks and waits for its boundary (R37). -/
  applying : List Page
  plan : Option Plan
  dp : DataPath
  pcie : PcieState
  /-- The local time base, ns (R159), and the gPTP domain clocks. -/
  now : Nat
  dom : Sparse DomClock (fun _ => {})
  /-- Transmit timestamp FIFOs by port, oldest entry first (R237). -/
  txts : Sparse (List TxTs) (fun _ => [])
  frer : Sparse FrerFn (fun _ => {})
  /-- Local time of the last FRER_SCAN (R267). -/
  frerScan : Nat
  clasp : Clasp
  bridge : Bridge
  procs : Procs
  power : Power
  cans : Sparse CanCh (fun _ => {})
  lins : Sparse LinCh (fun _ => {})
  tdms : Sparse TdmLink (fun _ => {})
  tsi : TsiState
  cips : Sparse CipPage (fun _ => {})
  sec : Sec
  /-- Completions a host ring has pending for its interrupt (R409): receive ring r at r, transmit ring r at 64 + r. -/
  ringPend : Sparse Nat (fun _ => 0)
  /-- The key store (R367). -/
  slots : Sparse Slot (fun _ => {})
  /-- Reset sources, and the TAP (R504, R509). -/
  rst : Rst
  tap : Tap
  /-- How many free values have been drawn. -/
  frees : Nat
  out : List Output
  pending : List Instr
  deriving DecidableEq, Repr

/-- Every field at its reset value: the machine in OFF, before COLD_RESET has run (R506; log entry 12). -/
def State.reset : State where
  regs := Sparse.empty
  tabs := Sparse.empty
  tabsShadow := Sparse.empty
  counters := Sparse.empty
  snapshot := Sparse.empty
  mem := {}
  drainTimer := Sparse.empty
  applying := []
  plan := none
  dp := {}
  pcie := {}
  now := 0
  dom := Sparse.empty
  txts := Sparse.empty
  frer := Sparse.empty
  frerScan := 0
  clasp := {}
  bridge := {}
  procs := {}
  power := {}
  cans := Sparse.empty
  lins := Sparse.empty
  tdms := Sparse.empty
  tsi := {}
  cips := Sparse.empty
  sec := {}
  ringPend := Sparse.empty
  slots := Sparse.empty
  rst := {}
  tap := {}
  frees := 0
  out := []
  pending := []

end Sys2Proof.Machine
end

