-- ==== Sys2Proof/Machine/Ops.lean ====
section
/-! DEFINITION. The named operations over registers, tables, counters, memories and free values. -/
namespace Sys2Proof.Machine

/-! ## Fields of a word -/

/-- The mask of a field in its word. -/
def Fld.mask (f : Fld) : Nat := (2 ^ f.width - 1) * 2 ^ f.lsb

/-- The field's value in a word. -/
def Fld.ex (f : Fld) (w : Word) : Nat := w.toNat / 2 ^ f.lsb % 2 ^ f.width

/-- The word with the field set to a value, taken modulo the field's size. -/
def Fld.ins (f : Fld) (w : Word) (v : Nat) : Word :=
  (w &&& ~~~ BitVec.ofNat 32 f.mask) ||| (BitVec.ofNat 32 (v % 2 ^ f.width * 2 ^ f.lsb))

/-- The field's shadow copy stands 0x700 above it (R35). -/
def Fld.sh (f : Fld) : Fld := ⟨f.off + 0x700, f.lsb, f.width⟩

/-- The bits hi to lo of a number. -/
def bitsOf (n hi lo : Nat) : Nat := n / 2 ^ lo % 2 ^ (hi - lo + 1)

/-- 1 for true. -/
def b2n (b : Bool) : Nat := if b then 1 else 0

/-- The quotient rounded up. -/
def ceilDiv (a b : Nat) : Nat := (a + b - 1) / b

/-- The value of a signed field of `n` bits. -/
def signed (n v : Nat) : Int := if v < 2 ^ (n - 1) then (v : Int) else (v : Int) - 2 ^ n

/-- A number as a signed field of `n` bits. -/
def unsigned (n : Nat) (v : Int) : Nat := (v % (2 ^ n : Int)).toNat

/-! ## Registers -/

section
variable (s : State)

/-- The word of a register of a page. -/
def State.word (p : Page) (off : Nat) : Word := s.regs.get (p.base + off)

/-- The register of a page set to a word. -/
def State.setWord (p : Page) (off : Nat) (w : Word) : State := { s with regs := s.regs.set (p.base + off) w }

/-- A field of a register of a page. -/
def State.fld (p : Page) (f : Fld) : Nat := f.ex (s.word p f.off)

/-- A one-bit field of a register of a page. -/
def State.flag (p : Page) (f : Fld) : Bool := s.fld p f == 1

/-- A field of a register of a page set to a value. -/
def State.setFld (p : Page) (f : Fld) (v : Nat) : State := s.setWord p f.off (f.ins (s.word p f.off) v)

/-- Two words, the low one first, as one number. -/
def State.wide (p : Page) (lo hi : Fld) : Nat := s.fld p lo + s.fld p hi * 2 ^ lo.width

/-! ## Tables behind TAB_ADDR and TAB_DATA -/

/-- A word of the active view of a table. -/
def State.tab (p : Page) (table entry word : Nat) : Word := s.tabs.get (tabKey p table entry word)

/-- Bits hi to lo of a word of a table's active view. -/
def State.tabF (p : Page) (table entry word hi lo : Nat) : Nat := bitsOf (s.tab p table entry word).toNat hi lo

/-- A word of a table's active view set. -/
def State.setTab (p : Page) (table entry word : Nat) (w : Word) : State :=
  { s with tabs := s.tabs.set (tabKey p table entry word) w }

/-- Bits hi to lo of a word of a table's active view set. -/
def State.setTabF (p : Page) (table entry word hi lo v : Nat) : State :=
  s.setTab p table entry word ((⟨0, lo, hi - lo + 1⟩ : Fld).ins (s.tab p table entry word) v)

/-- A word of the shadow view of a table. -/
def State.tabSh (p : Page) (table entry word : Nat) : Word := s.tabsShadow.get (tabKey p table entry word)

/-- A word of a table's shadow view set. -/
def State.setTabSh (p : Page) (table entry word : Nat) (w : Word) : State :=
  { s with tabsShadow := s.tabsShadow.set (tabKey p table entry word) w }

/-! ## Counters (R28) -/

/-- The live value of the counter at an offset of a page. -/
def State.cnt (p : Page) (off : Nat) : Nat := s.counters.get (p.base + off)

/-- A counter of a page counts `n`. -/
def State.bump (p : Page) (off : Nat) (n : Nat := 1) : State :=
  { s with counters := s.counters.modify (p.base + off) (· + n) }

/-- A counter that stands behind a table or a selector counts `n`; its key is 2^32 above the table's key. -/
def State.bumpTab (p : Page) (table entry word : Nat) (n : Nat := 1) : State :=
  { s with counters := s.counters.modify (2 ^ 32 + tabKey p table entry word) (· + n) }

/-- The live value of a counter behind a table or a selector. -/
def State.cntTab (p : Page) (table entry word : Nat) : Nat := s.counters.get (2 ^ 32 + tabKey p table entry word)

/-! ## Fuses (R444) -/

/-- Fuse bit `i` is 1; `n` fuse bits from `i` as a number, the lowest first. -/
def State.fuse (i : Nat) : Bool := s.mem.otp.get i != 0
def State.fuses (i n : Nat) : Nat := (List.range n).foldr (fun k v => (if s.fuse (i + k) then 1 else 0) + 2 * v) 0

/-- How many of `n` fuse bits from `i` are 1. -/
def State.fuseCount (i n : Nat) : Nat := ((List.range n).filter (fun k => s.fuse (i + k))).length

/-- A fuse is programmed. -/
def State.blow (i : Nat) : State := { s with mem := { s.mem with otp := s.mem.otp.set i 1 } }

/-! ## Free values, outputs, time -/

/-- `n` more free values have been drawn. -/
def State.drew (n : Nat) : State := { s with frees := s.frees + n }

/-- A free value below `n` (0 where n is 0), and the state that has drawn it. -/
def State.draw (n : Nat) : Nat × State := (Config.freeNat s.frees % n, s.drew 1)

/-- A free value drawn as a list of `len` bytes. -/
def State.drawBytes (len : Nat) : List Byte × State :=
  ((List.range len).map (Config.freeByte s.frees), s.drew 1)

/-- The device presents an output. -/
def State.emit (o : Output) : State := { s with out := s.out ++ [o] }

/-- The time of a gPTP domain in ns since its epoch (R227). -/
def State.domNs (d : Nat) : Nat := (s.dom.get d).ns

/-- The time of domain 0 as a 32-bit count of ns within its second and seconds' wrap: the low 32 bits of its ns. -/
def State.ns32 : Nat := s.domNs 0 % 2 ^ 32

end

/-! ## Byte memories -/

/-- `n` bytes from an address. -/
def Sparse.bytes (m : Mem) (a n : Nat) : List Byte := (List.range n).map (fun i => m.get (a + i))

/-- A list of bytes written from an address upward. -/
def Sparse.putBytes (m : Mem) (a : Nat) : List Byte → Mem
  | [] => m
  | b :: t => (m.set a b).putBytes (a + 1) t

/-- Bytes as a number, the first the least significant (R6). -/
def leNat : List Byte → Nat
  | [] => 0
  | b :: t => b.toNat + 256 * leNat t

/-- A number as `n` bytes, the least significant first (R6). -/
def leBytes : Nat → Nat → List Byte
  | 0, _ => []
  | n + 1, v => BitVec.ofNat 8 v :: leBytes n (v / 256)

/-- Bytes as a number, the first the most significant: frame fields and headers (R6). -/
def beNat (l : List Byte) : Nat := leNat l.reverse

/-- A number as `n` bytes, the most significant first. -/
def beBytes (n v : Nat) : List Byte := (leBytes n v).reverse

/-- A little-endian number of `n` bytes of a memory (R6). -/
def Sparse.num (m : Mem) (a n : Nat) : Nat := leNat (m.bytes a n)

/-- A little-endian number of `n` bytes written to a memory. -/
def Sparse.putNum (m : Mem) (a n v : Nat) : Mem := m.putBytes a (leBytes n v)

/-- Byte `i` of a list, 0 beyond its end. -/
def byteAt (l : List Byte) (i : Nat) : Nat := (l.getD i 0).toNat

/-- The number in bytes `i` to `i + n − 1` of a list, the first the most significant; bytes beyond its end are 0. -/
def beAt (l : List Byte) (i n : Nat) : Nat := beNat ((List.range n).map (fun j => l.getD (i + j) 0))

/-- The number in bytes `i` to `i + n − 1` of a list, the first the least significant. -/
def leAt (l : List Byte) (i n : Nat) : Nat := leNat ((List.range n).map (fun j => l.getD (i + j) 0))

/-- A list with its bytes from `i` on replaced by those of `b`, as far as the list goes. -/
def overlay (l : List Byte) (i : Nat) (b : List Byte) : List Byte :=
  (l.take i ++ b ++ l.drop (i + b.length)).take l.length

/-- `n` bytes taken out of a list at `i`. -/
def cutBytes (l : List Byte) (i n : Nat) : List Byte := l.take i ++ l.drop (i + n)

/-- Bytes put into a list at `i`. -/
def insBytes (l : List Byte) (i : Nat) (b : List Byte) : List Byte := l.take i ++ b ++ l.drop i

/-! ## Checksums -/

/-- One bit of a reflected CRC with polynomial `poly`. -/
def crcBit (poly : Nat) (c : Nat) : Nat := if c % 2 = 1 then c / 2 ^^^ poly else c / 2

/-- One byte of a reflected CRC, least significant bit first. -/
def crcByte (poly : Nat) (c : Nat) (b : Byte) : Nat :=
  let f := crcBit poly
  f (f (f (f (f (f (f (f (c ^^^ b.toNat))))))))

/-- CRC-32C from a start value (R109). -/
def crc32c (start : Nat) (l : List Byte) : Nat := l.foldl (crcByte 0x82F63B78) start ^^^ 0xFFFFFFFF

/-- The frame check sequence of IEEE 802.3 over a frame's bytes. -/
def fcsNat (l : List Byte) : Nat := l.foldl (crcByte 0xEDB88320) 0xFFFFFFFF ^^^ 0xFFFFFFFF

/-- The frame check sequence as the four bytes that end a frame. -/
def fcsBytes (l : List Byte) : List Byte := leBytes 4 (fcsNat l)

/-- A frame's bytes without its frame check sequence. -/
def dropFcs (l : List Byte) : List Byte := l.take (l.length - 4)

/-- A frame given its frame check sequence anew. -/
def refcs (l : List Byte) : List Byte := l ++ fcsBytes l

/-- A frame ended with the bitwise inverse of its correct frame check sequence (R51). -/
def stompFcs (l : List Byte) : List Byte := l ++ (fcsBytes l).map (fun b => ~~~ b)

/-! ## Lists -/

/-- The list without its first element that satisfies a test. -/
def dropFirst {α : Type} (f : α → Bool) : List α → List α
  | [] => []
  | a :: t => if f a then t else a :: dropFirst f t

/-- The ports whose bits are set in a bitmap, ascending (R10, R11). -/
def portsOf (bitmap : Nat) : List Nat := (List.range 38).filter (fun p => bitmap.testBit p)

/-- The bitmap of a list of ports. -/
def bitmapOf (l : List Nat) : Nat := l.foldl (fun b p => b ||| 2 ^ p) 0

/-- A state changed once per element of a list, in order. -/
def State.each {α : Type} (s : State) (l : List α) (f : State → α → State) : State := l.foldl f s

end Sys2Proof.Machine
end

