-- ==== Sys2Proof/Machine/Flags.lean ====
section
/-! DEFINITION. Events, errors, interrupts and the state of a page: what the common header of every page does (R28–R43). -/
namespace Sys2Proof.Machine

section
variable (s : State)

/-! ## MSI-X (R390) -/

/-- Address of vector `v`'s entry, word `w`, in the MSI-X table; the table and the pending bits are kept in `host.msix`. -/
def msixKey (v w : Nat) : Nat := 4 * v + w

/-- The vector's own mask, or the Function's, is set (R390). -/
def State.msixMasked (v : Nat) : Bool := s.pcie.msixFuncMask || (s.pcie.msix.get (msixKey v 3)).toNat % 2 == 1

/-- The message of a vector, as its table entry gives it. -/
def State.msixMessage (v : Nat) : Output :=
  .msix ((s.pcie.msix.get (msixKey v 0)).toNat + 2 ^ 32 * (s.pcie.msix.get (msixKey v 1)).toNat)
    (s.pcie.msix.get (msixKey v 2)).toNat

/-- A message of a vector arises (R390): it is lost while MSI-X Enable, Bus Master Enable or the data link is 0; its pending bit
is set while it is masked; otherwise it is sent. -/
def State.msixSend (v : Nat) : State :=
  if s.flag .pcie Pcie.LINK_STATUS_MSIX_EN && s.flag .pcie Pcie.LINK_STATUS_BME && s.flag .pcie Pcie.LINK_STATUS_DL_UP then
    if s.msixMasked v then { s with pcie := { s.pcie with pba := s.pcie.pba.set v true } }
    else s.emit (s.msixMessage v)
  else s.bump .pcie Pcie.CNT_MSIX_DROPPED

/-! ## Events (R42, R43) -/

/-- EVT_PEND of a page: RAW AND EN (R29). -/
def State.pend (p : Page) : Word := s.word p Hdr.EVT_RAW_RAW.off &&& s.word p Hdr.EVT_EN_EN.off

/-- A word of EVT_ROUTE of a page. -/
def State.route (p : Page) (f : Nat → Fld) : Nat := s.fld .sys (f p.index)

/-- The page's MSI-X message, where the page is routed to the host (R43). -/
def State.pageMessage (p : Page) : State :=
  if s.route p Sys.EVT_ROUTE_HOST_EN = 1 then s.msixSend (s.route p Sys.EVT_ROUTE_VECTOR) else s

/-- EVT_RAW and EVT_EN of a page set; the message goes out where EVT_PEND leaves zero (R43). -/
def State.setEvents (p : Page) (raw en : Word) : State :=
  let t := (s.setWord p Hdr.EVT_RAW_RAW.off raw).setWord p Hdr.EVT_EN_EN.off en
  if s.pend p = 0 ∧ raw &&& en ≠ 0 then t.pageMessage p else t

/-- An event of a page occurs: its RAW bit is latched (R42). -/
def State.raise (p : Page) (bit : Nat) : State :=
  s.setEvents p (s.word p Hdr.EVT_RAW_RAW.off ||| BitVec.ofNat 32 (2 ^ bit)) (s.word p Hdr.EVT_EN_EN.off)

/-- The interrupt line `line` of management processor `m` is asserted: some page routed to it has a non-zero EVT_PEND (R43). -/
def State.mpLine (m line : Nat) : Bool :=
  (List.range 266).any (fun n =>
    match Page.ofIndex n with
    | none => false
    | some p =>
      (s.fld .sys (Sys.EVT_ROUTE_MP_MASK n)).testBit m && s.fld .sys (Sys.EVT_ROUTE_MP_LINE n) == line && s.pend p != 0)

/-- Word `k` of EVT_SUMMARY (R42). -/
def State.summary (k : Nat) : Nat :=
  (List.range 32).foldl (fun acc j =>
    match Page.ofIndex (32 * k + j) with
    | none => acc
    | some p => if s.pend p = 0 then acc else acc ||| 2 ^ j) 0

/-! ## Errors (R30) -/

/-- A page whose uncorrectable errors count in the health word (R295). -/
def Page.eccHealth : Page → Bool
  | .cls => true | .fib => true | .buf => true | .tgate _ => true | _ => false

/-- An uncorrectable error of a memory that the health word watches is noted for the pair (R295). -/
def State.eccNote (p : Page) (code : Nat) : State :=
  if code = 5 ∧ p.eccHealth then { s with clasp := { s.clasp with eccBad := true } } else s

/-- An error of a page (R30): the first since the last CLEAR is held and raises EVT_RAW.ERR, each later one counts. -/
def State.logErr (p : Page) (code src : Nat) (addr : Nat := 0) (detail : Nat := 0) : State :=
  let s := s.eccNote p code
  if s.fld p Hdr.ERR_CODE_CODE = 0 then
    (((((s.setFld p Hdr.ERR_CODE_CODE code).setFld p Hdr.ERR_INFO_SRC src).setFld p Hdr.ERR_INFO_DETAIL detail).setWord p
      Hdr.ERR_ADDR_LO_ADDR.off (BitVec.ofNat 32 addr)).setWord p Hdr.ERR_ADDR_HI_ADDR.off
      (BitVec.ofNat 32 (addr / 2 ^ 32))).raise p 0
  else s.setFld p Hdr.ERR_INFO_COUNT (min 255 (s.fld p Hdr.ERR_INFO_COUNT + 1))

/-- Where a refused commit names a field location it writes ERR_ADDR, whatever error is held (R30, R37). -/
def State.refusalAddr (p : Page) (lo hi : Nat) : State :=
  (s.setWord p Hdr.ERR_ADDR_LO_ADDR.off (BitVec.ofNat 32 lo)).setWord p Hdr.ERR_ADDR_HI_ADDR.off (BitVec.ofNat 32 hi)

/-! ## Block state (R31) -/

/-- STATE.ST of a page. -/
def State.st (p : Page) : Nat := s.fld p Hdr.STATE_ST

/-- The page is in RUN. -/
def State.inRun (p : Page) : Bool := s.st p == 1

/-- STATE.ST of a page set; EVT_RAW.STATE is set where it changes (R31). -/
def State.setSt (p : Page) (st : Nat) : State :=
  if s.st p = st then s else (s.setFld p Hdr.STATE_ST st).raise p 1

/-- COMMIT_STATUS.STATUS of a page. -/
def State.status (p : Page) : Nat := s.fld p Hdr.COMMIT_STATUS_STATUS

/-- The page's commit is CHECKING. -/
def State.checking (p : Page) : Bool := s.status p == 1

/-- COMMIT_STATUS of a page goes to a state with a detail; EVT_RAW.COMMIT is set where STATUS leaves CHECKING (R37). -/
def State.setStatus (p : Page) (st detail : Nat) : State :=
  let t := (s.setFld p Hdr.COMMIT_STATUS_STATUS st).setFld p Hdr.COMMIT_STATUS_DETAIL detail
  if s.checking p ∧ st ≠ 1 then t.raise p 2 else t

/-- A write to the shadow view or the standby bank of a page marks it PENDING (R35). -/
def State.setPending (p : Page) : State := s.setFld p Hdr.COMMIT_STATUS_PENDING 1

/-- Work discarded is added to DRAIN_DISCARD (R31). -/
def State.addDiscard (p : Page) (n : Nat) : State :=
  s.bump p Hdr.DRAIN_DISCARD_LO_COUNT.off n

end

end Sys2Proof.Machine
end

