-- ==== Sys2Proof/Machine/Access.lean ====
section
/-! DEFINITION. Who may write what: the write buffer that a processor's write drains first, ownership, trusted registers, and the log
of a write that is refused (R38, R39, R41, R315). -/
namespace Sys2Proof.Machine

section
variable (s : State)

/-- The processors' state changed by `f`; management SRAM changed by `f`. -/
def State.mapProcs (f : Procs → Procs) : State := { s with procs := f s.procs }
def State.mapMsram (f : Mem → Mem) : State := { s with mem := { s.mem with msram := f s.mem.msram } }

/-- An offset of management SRAM lies in a locked code region (R459). -/
def State.codeLocked (a : Nat) : Bool :=
  (decide (a < 0x440000) && s.flag .lck (Lck.CODE_LOCK_LOCKED 0)) ||
  (decide (0x440000 ≤ a ∧ a < 0x880000) && s.flag .lck (Lck.CODE_LOCK_LOCKED 1))

/-- Bytes of a locked code region lie among `n` from an offset (R459). -/
def State.codeWithin (a n : Nat) : Bool :=
  decide (0 < n) && (decide (a < 0x440000) && s.flag .lck (Lck.CODE_LOCK_LOCKED 0) ||
    decide (a < 0x880000 ∧ 0x440000 < a + n) && s.flag .lck (Lck.CODE_LOCK_LOCKED 1))

/-- Every line that holds one of `n` bytes from an offset leaves the data caches of MP0–MP3 (R307). Lines of the instruction caches
stay. -/
def State.dropLines (a n : Nat) : State :=
  let apart (l : CacheLine) : Bool := decide (l.base + l.bytes.length ≤ a ∨ a + n ≤ l.base)
  s.mapProcs (fun p => { p with dcache := p.dcache.setAll (p.dcache.cells.map (fun c => (c.1, c.2.filter apart))) })

/-- The device or the DMA writes management SRAM: the data caches drop the lines first (R307), and what falls into a locked code region is
discarded (R459). -/
def State.msramPut (a : Nat) (l : List Byte) : State :=
  let s := s.dropLines a l.length
  if s.codeWithin a l.length then
    s.mapMsram (fun m => ((List.range l.length).zip l).foldl (fun m x => if s.codeLocked (a + x.1) then m else m.set (a + x.1) x.2) m)
  else s.mapMsram (fun m => m.putBytes a l)

/-! ## Write buffers (R315) -/

/-- A store of MP `m` at an offset of a locked code region raises a fault, and LCK logs it (R459). -/
def State.codeFault (m off : Nat) : State := (s.logErr .lck 1 (1 + m) off).emit (.procFault (1 + m))

/-- The oldest entry of a write buffer reaches management SRAM. What falls into a locked code region is discarded (R459); Signet has the buffers drain
before it locks one (State.loadCode). -/
def State.releaseOne (m : Nat) : State :=
  match s.procs.wbuf.get m with
  | [] => s
  | e :: rest =>
    (s.mapProcs (fun p => { p with wbuf := p.wbuf.set m rest })).mapMsram (fun mem =>
      e.bytes.foldl (fun mem b => if s.codeLocked b.1 then mem else mem.set b.1 b.2) mem)

/-- The write buffer of an MP drains, in program order. -/
def State.drainMp (m : Nat) : State := s.each (s.procs.wbuf.get m) (fun s _ => s.releaseOne m)

/-- The write buffer of the originator of a write, where it has one, drains before the write takes effect. -/
def State.drainFor (src : Src) : State := match src with | .mp i => s.drainMp i.val | _ => s

/-- MPm_STATUS.ST: 0 OFF, 1 BOOT, 2 RUN, 3 SPARE, 4 FENCING, 5 FENCED (R321). -/
def State.mpSt (m : Nat) : Nat := s.fld .mpc (Mpc.MP_STATUS_ST m)

/-- The TP restarts (R311). -/
def State.restarting : Bool := s.flag .tru Tru.TP_STATUS_RESTARTING

end

/-! ## Islands (R13, R22, R422, R438) -/

/-- The island a page lies in (chapter 1, "Blocks and where they sit"), by the indices of R438: 14 is AON. -/
def Page.island : Page → Nat
  | .sys => 14 | .clk => 14 | .pwr => 14 | .age => 14 | .wake => 14 | .nm => 14 | .gpio => 14
  | .otp => 10 | .trng => 10 | .tru => 10 | .lck => 10 | .dbg => 10
  | .etp n => if n < 32 then n / 8 else
      match n with | 32 => 13 | 33 => 9 | 34 => 11 | 35 => 12 | 36 => 5 | _ => 0
  | .clsp => 0
  | .prs => 4 | .cls => 4 | .fib => 4 | .fab => 4 | .frer => 4
  | .buf => 5
  | .qsch => 6 | .tgate _ => 6 | .asy => 6
  | .time => 8
  | .cip _ => 7 | .msec => 7
  | .can _ => 11 | .lin _ => 11
  | .tdm _ => 12 | .tsi => 12
  | .pcie => 13 | .brg => 13 | .ring => 13 | .dma => 13 | .scr => 13
  | .mpc => 9

/-- Condition of an island: 0 DOWN, 1 RET, 2 ON (R422). -/
def State.islandCond (s : State) (i : Nat) : Nat := if i = 14 then 2 else s.fld .pwr ⟨Pwr.ISLAND_STATE_MAP.off, 2 * i, 2⟩

/-- From COMMIT on the crossings into an island that the transition lowers withhold ready (R428): what is sent to it arrives when it is lower. -/
def State.leaving (s : State) (i : Nat) : Bool := decide (4 ≤ s.fld .pwr Pwr.STATUS_PHASE) && decide (s.power.goal / 4 ^ i % 4 < 2)

/-- The island of a page is ON and takes transfers: PERST#, while it is low, holds HOST in its reset (R505; DEDUCED, log entry 12). -/
def State.pageOn (s : State) (p : Page) : Bool :=
  s.islandCond p.island == 2 && !s.leaving p.island && !(s.rst.perst && p.island == 13)

/-- POR_N or SYS_RST_N is low and holds every island in reset (R505); AON is held by POR_N alone (R504). -/
def State.resetHeld (s : State) : Bool := s.rst.por || s.rst.sys

/-- What happens in a device that no pin holds in reset: nothing happens in one that is held (R505). `liveAon` is for what AON does of itself. -/
def State.live (s : State) (act : State → State) : State := if s.resetHeld then s else act s
def State.liveAon (s : State) (act : State → State) : State := if s.rst.por then s else act s

/-- What a block does of itself: nothing while its island is not ON, since its clock is stopped (R422). -/
def State.clocked (s : State) (p : Page) (act : State → State) : State := if s.pageOn p then act s else s

/-! ## Who can issue a request (R308, R311, R312) -/

/-- An MP executes: RUN alone issues requests, and its island is ON (R312, R422). -/
def State.mpRuns (s : State) (m : Nat) : Bool := s.mpSt m == 2 && s.islandCond 9 == 2

/-- The TP executes its boot ROM or Signet, and TRUST is ON (R311, R422). -/
def State.tpRuns (s : State) : Bool := (s.procs.tp == 2 || s.procs.tp == 3) && s.islandCond 10 == 2

/-- An originator can make a request. What a processor presents after a mismatch, in FENCING, SPARE, BOOT, FENCED or OFF does not leave
it; the TP makes requests from its boot ROM on, in a restart too. -/
def State.issues (s : State) (src : Src) : Bool :=
  match src with
  | .mp i => s.mpRuns i.val
  | .tp => s.tpRuns
  | _ => true

/-- A write of an originator that can make it reaches the device, the originator's write buffer drained (R315). -/
def State.arrives (s : State) (src : Src) (act : State → State) : State := if s.issues src then act (s.drainFor src) else s

/-! ## Ownership (R39) -/

/-- OWNER.CLASS of a page. -/
def State.ownerClass (s : State) (p : Page) : Nat := s.fld p Hdr.OWNER_CLASS

/-- Debug is open: the debug port then acts as the trusted processor (R39, R454). -/
def State.dbgOpen (s : State) : Bool := s.fld .dbg Dbg.STATE_ST == 1

/-- The originator acts as the trusted processor now (R39). -/
def State.actsTrusted (s : State) (src : Src) : Bool := match src with | .dbg => s.dbgOpen | _ => src.trusted

/-- The originator owns the page, or the page is SHARED (R39). The debug port has no class while debug is closed. -/
def State.owns (s : State) (src : Src) (p : Page) : Bool :=
  (src != .dbg || s.dbgOpen) && (s.ownerClass p == 3 || s.ownerClass p == src.cls)

/-- A write that ownership refuses is discarded and logged (R39). -/
def State.notOwner (s : State) (src : Src) (p : Page) (addr : Nat) : State := s.logErr p 1 src.code addr

/-- The TP writes nothing to a page of its own class while it restarts (R311). -/
def State.barred (s : State) (src : Src) (p : Page) : Bool := src == .tp && s.restarting && s.ownerClass p == src.cls

/-- A write to a register of a page at an offset is performed for the owner, and discarded for others (R39); in an island that is not
ON it is discarded and logged on SYS (R25, R422). -/
def State.guard (s : State) (src : Src) (p : Page) (off : Nat) (act : State → State) : State :=
  s.arrives src (fun s =>
    if !s.pageOn p then s.logErr .sys 3 src.code (p.base + off)
    else if s.owns src p then (if s.barred src p then s else act s)
    else s.notOwner src p (p.base + off))

/-- A write to a register marked trusted (R39): none occurs while the TP restarts (R311). -/
def State.guardTrusted (s : State) (src : Src) (p : Page) (off : Nat) (act : State → State) : State :=
  s.arrives src (fun s =>
    if !s.pageOn p then s.logErr .sys 3 src.code (p.base + off)
    else if !s.actsTrusted src then s.notOwner src p (p.base + off)
    else if s.restarting then s else act s)

/-- A write to a register that the owner of the page writes, but for a field of it that is marked trusted (R39, R486). -/
def State.guardMixed (s : State) (src : Src) (p : Page) (off : Nat) (act : State → State) : State :=
  s.arrives src (fun s =>
    if !s.pageOn p then s.logErr .sys 3 src.code (p.base + off)
    else if s.owns src p || s.actsTrusted src then (if s.barred src p || s.actsTrusted src && s.restarting then s else act s)
    else s.notOwner src p (p.base + off))

/-- A write that is discarded and logged under a code (R41). -/
def State.refuse (s : State) (src : Src) (p : Page) (code off : Nat) : State := s.logErr p code src.code (p.base + off)

end Sys2Proof.Machine
end

