-- ==== Sys2Proof/Machine/Clocks.lean ====
section
/-! DEFINITION. The domain clocks: their time at an instant of the local time base, the 32-bit software times, and one
nanosecond of local time (R227–R235). -/
namespace Sys2Proof.Machine

/-- ADJ of a domain, signed (R228). -/
def State.adj (s : State) (d : Nat) : Int := signed 32 (s.fld .time (Time.DOM_ADJ_ADJ d))

/-- The full count of a domain, in units of 2^-32 ns, at a local time `t` in units of 2^-16 ns: its count now moved by the rate it
has now (R227, R239). -/
def State.domAt (s : State) (d : Nat) (t : Int) : Int :=
  let c := s.dom.get d
  let delta := t * 2 ^ 16 - (s.now : Int) * 2 ^ 32
  ((c.ns * 2 ^ 32 + c.frac : Nat) : Int) + delta * (2 ^ 32 + s.adj d) / 2 ^ 32

/-- The nanoseconds of a domain at a local time, 0 where the count would be negative. -/
def State.domNsAt (s : State) (d : Nat) (t : Int) : Nat := (s.domAt d t / 2 ^ 32).toNat

/-- A clock of PORT_TS_CFG.RX_SEL at a local time: a domain for 0–3, the local time base for 4–7 (R235). -/
def State.selNs (s : State) (sel : Nat) (t : Int) : Nat := if sel < 4 then s.domNsAt sel t else (t / 2 ^ 16).toNat

/-- The clock that stamps an ingress port's frames (R235). -/
def State.rxSel (s : State) (p : Nat) : Nat :=
  if p = 34 ∨ p = 35 then s.fld .time Time.AVTP_CFG_DOMAIN else s.fld .time (Time.PORT_TS_CFG_RX_SEL p)

/-- t_in of a frame whose raw timestamp is now and `frac` units of 2^-16 ns (R232, R233). -/
def State.ingressTime (s : State) (p frac : Nat) : Int :=
  let raw := ((s.now * 2 ^ 16 + frac : Nat) : Int)
  if p < 32 ∨ p = 37 then raw - signed 32 (s.fld .time (Time.INGRESS_ASYM_ASYM p)) else raw

/-- t_eg of a copy whose timestamp point reaches the balls `lead` units of 2^-16 ns after now (R233). -/
def State.egressTime (s : State) (p lead : Nat) : Int :=
  ((s.now * 2 ^ 16 + lead : Nat) : Int) + signed 32 (s.fld .time (Time.EGRESS_ASYM_ASYM p))

/-- extend(v, ref) of R235. -/
def extend32 (v : Nat) (ref : Int) : Int :=
  let d := ((v : Int) - ref) % 2 ^ 32
  ref + (if d < 2 ^ 31 then d else d - 2 ^ 32)

/-- The span of a domain's full count: S wraps from 2^48 − 1 to 0 (R227). -/
def domSpan : Nat := 2 ^ 48 * 10 ^ 9

/-- A domain after one nanosecond of local time (R227). -/
def State.domTick (s : State) (d : Nat) : State :=
  let c := s.dom.get d
  let n := ((c.ns * 2 ^ 32 + c.frac : Nat) : Int) + 2 ^ 32 + s.adj d
  { s with dom := s.dom.set d { ns := (n / 2 ^ 32).toNat % domSpan, frac := (n % 2 ^ 32).toNat } }

end Sys2Proof.Machine
end

