-- ==== Sys2Proof/Machine/Parser.lean ====
section
/-! DEFINITION. The parser: tag sequence, frame profiles, length checks, the key, drops (R63–R86). -/
namespace Sys2Proof.Machine

/-- The active rule bank (R110). -/
def State.activeBank (s : State) : Nat := s.fld .cls Cls.BANK_STATUS_ACTIVE

/-- A field of CLS or PRS in the configuration of bank `b`: the active view is the active bank's, the shadow view the standby's
(R83, R110). -/
def State.bankFld (s : State) (p : Page) (f : Fld) (b : Nat) : Nat :=
  if s.activeBank = b then s.fld p f else s.fld p f.sh

/-- A window byte: a byte at or beyond frame_len − 4 of an ended frame, or beyond the window's 192, reads 0 (R63, R64). -/
def winByte (bytes : List Byte) (ended : Bool) (i : Nat) : Nat :=
  if i < 192 ∧ (ended = false ∨ i + 4 < bytes.length) then byteAt bytes i else 0

/-- A two-byte value of the window. -/
def win16 (w : Nat → Nat) (i : Nat) : Nat := 256 * w i + w (i + 1)

/-- A value of `n` bytes of the window, the first the most significant. -/
def winBE (w : Nat → Nat) (i n : Nat) : Nat := (List.range n).foldl (fun acc j => 256 * acc + w (i + j)) 0

/-- The parser's configuration of a bank (R83). -/
structure PrsCfg where
  tpidX : Nat
  xEn : Bool
  sEn : Bool
  barost : Nat
  rtag : Nat
  user : List (Bool × Nat × Nat)
  shortAct : Nat
  badAct : Nat
  deriving DecidableEq, Repr

/-- The parser's configuration of bank `b`. -/
def State.prsCfg (s : State) (b : Nat) : PrsCfg where
  tpidX := s.bankFld .prs Prs.TPID_CFG_TPID_X b
  xEn := s.bankFld .prs Prs.TPID_CFG_X_EN b == 1
  sEn := s.bankFld .prs Prs.TPID_CFG_S_EN b == 1
  barost := s.bankFld .prs Prs.BAROST_CFG_ETYPE b
  rtag := s.bankFld .prs Prs.RTAG_CFG_ETYPE b
  user := (List.range 4).map (fun k =>
    (s.bankFld .prs (Prs.USER_ETYPE_EN k) b == 1, s.bankFld .prs (Prs.USER_ETYPE_ETYPE k) b,
     s.bankFld .prs (Prs.USER_ETYPE_OFF k) b))
  shortAct := s.bankFld .prs Prs.LEN_ACTION_SHORT_ACT b
  badAct := s.bankFld .prs Prs.LEN_ACTION_BAD_ACT b

/-- A Barost header is recognised on original ingress port `p`: port 37, or an external port with ROLE = FABRIC (R66). -/
def State.barostPort (s : State) (p : Nat) : Bool :=
  p == 37 || (decide (p < 32) && s.flag (.etp p) Etp.MODE_ROLE)

/-- What the tag sequence of a frame holds (R67): the position of the value reached, the Barost header, the VLAN tags with their
TAGKIND and TCI position, the R-tag, and whether parsing ended in DEPTH or in a length field. -/
structure Tags where
  pos : Nat := 12
  barost : Option Nat := none
  vlans : List (Nat × Nat) := []
  rtag : Option Nat := none
  depth : Bool := false
  llc : Bool := false
  deriving DecidableEq, Repr

/-- TAGKIND of a VLAN TPID under a configuration: 0 where it is not recognised (R65, R76). -/
def vlanKind (c : PrsCfg) (v : Nat) : Nat :=
  if v = 0x8100 then 1 else if c.sEn ∧ v = 0x88A8 then 2 else if c.xEn ∧ v = c.tpidX then 3 else 0

/-- The tag walk of R67; at most four tags and one end. -/
def tagWalk (c : PrsCfg) (fabric : Bool) (w : Nat → Nat) : Nat → Tags → Tags
  | 0, t => t
  | fuel + 1, t =>
    let v := win16 w t.pos
    if v < 0x600 then { t with llc := true }
    else if fabric ∧ v = c.barost then
      if t.barost = none ∧ t.vlans = [] ∧ t.rtag = none then
        tagWalk c fabric w fuel { t with barost := some t.pos, pos := t.pos + 16 }
      else { t with depth := true }
    else if vlanKind c v ≠ 0 then
      if t.rtag = none ∧ t.vlans.length < 2 then
        tagWalk c fabric w fuel { t with vlans := t.vlans ++ [(vlanKind c v, t.pos + 2)], pos := t.pos + 4 }
      else { t with depth := true }
    else if v = c.rtag then
      if t.rtag = none then tagWalk c fabric w fuel { t with rtag := some t.pos, pos := t.pos + 6 }
      else { t with depth := true }
    else t

/-- What the layer above the tags gives: the profile, its key bytes as (key byte, value) pairs, its flags, and the length check
that applies: whether it is the ACF check, and the declared length; and whether the ACF conditions of the message itself
fail (R69–R71, R76, R77). -/
structure Layer3 where
  profile : Nat
  key : List (Nat × Nat) := []
  ipBad : Bool := false
  ipOpt : Bool := false
  frag : Bool := false
  check : Option (Bool × Nat) := none
  acfBad : Bool := false
  deriving DecidableEq, Repr

/-- `n` window bytes from `i` copied to key byte `k` upward. -/
def copyKey (w : Nat → Nat) (k i n : Nat) : List (Nat × Nat) := (List.range n).map (fun j => (k + j, w (i + j)))

/-- Layer-4 key fields at origin `l4` (R76). -/
def layer4 (w : Nat → Nat) (proto l4 : Nat) (icmp : Nat) : List (Nat × Nat) :=
  if proto = 6 then copyKey w 26 l4 4 ++ [(72, w (l4 + 13))]
  else if proto = 17 then copyKey w 26 l4 4
  else if proto = icmp then [(72, w l4), (73, w (l4 + 1))]
  else []

/-- An IPv4 frame (R69, R70). IP_BAD clears the key fields; IP_OPT and FRAG stand as R75 sets them. -/
def parseIpv4 (w : Nat → Nat) (l3 : Nat) : Layer3 :=
  let ihl := w l3 % 16
  let total := win16 w (l3 + 2)
  let fr := win16 w (l3 + 6)
  let off := fr % 8192
  let ipOpt := decide (5 < ihl)
  let frag := decide (fr / 8192 % 2 = 1 ∨ off ≠ 0)
  if w l3 / 16 ≠ 4 ∨ ihl < 5 ∨ total < 4 * ihl then { profile := 9, ipBad := true, ipOpt, frag }
  else
    let proto := w (l3 + 9)
    let l4 := decide (ihl = 5 ∧ off = 0)
    { profile := if l4 then (if proto = 6 then 6 else if proto = 17 then 7 else if proto = 1 then 8 else 9) else 9
      key := [(23, w (l3 + 8)), (30, proto), (31, w (l3 + 1))] ++ copyKey w 40 (l3 + 12) 4 ++ copyKey w 56 (l3 + 16) 4 ++
        (if l4 then layer4 w proto (l3 + 20) 1 else [])
      ipOpt, frag, check := some (false, total) }

/-- An IPv6 frame (R69, R70). FLOW stands in [19:0] of bytes 76–79 in wire byte order: its first wire byte at 77 (R76; DEDUCED, log entry
91). -/
def parseIpv6 (w : Nat → Nat) (l3 : Nat) : Layer3 :=
  let nh := w (l3 + 6)
  let frag := decide (nh = 44)
  if w l3 / 16 ≠ 6 then { profile := 13, ipBad := true, frag }
  else
    { profile := if nh = 6 then 10 else if nh = 17 then 11 else if nh = 58 then 12 else 13
      key := [(23, w (l3 + 7)), (30, nh), (31, w l3 % 16 * 16 + w (l3 + 1) / 16)] ++ copyKey w 40 (l3 + 8) 16 ++
        copyKey w 56 (l3 + 24) 16 ++ (77, w (l3 + 1) % 16) :: copyKey w 78 (l3 + 2) 2 ++
        layer4 w nh (l3 + 40) 58
      frag, check := some (false, 40 + win16 w (l3 + 4)) }

/-- The profile area of the first ACF message, which starts at `m` (R77): its type, bus byte and ID word, which stands in wire byte order as
the words copied verbatim do (R76; DEDUCED, log entry 91). -/
def acfKey (w : Nat → Nat) (m : Nat) : List (Nat × Nat) :=
  let ty := w m / 2
  let canId (o : Nat) : List (Nat × Nat) :=
    let f := w (m + 2)
    let id := winBE w (m + o) 4 % 2 ^ 29 + f / 8 % 2 * 2 ^ 29 + f / 16 % 2 * 2 ^ 30 + f / 2 % 2 * 2 ^ 31
    [(81, w (m + 3)), (92, id / 2 ^ 24), (93, id / 65536 % 256), (94, id / 256 % 256), (95, id % 256)]
  (90, ty) ::
    (if ty = 1 then canId 12
     else if ty = 2 then canId 4
     else if ty = 3 then [(81, w (m + 2) % 32), (95, w (m + 3) % 64)]
     else (81, w (m + 2)) :: copyKey w 92 (m + 4) 4)

/-- An IEEE 1722 frame (R69–R71, R77). -/
def parseAvtp (w : Nat → Nat) (l3 : Nat) : Layer3 :=
  let sub := w l3
  let common := (80, sub) :: copyKey w 82 (l3 + 4) 8
  if sub = 2 then
    { profile := 14, key := common ++ copyKey w 90 (l3 + 16) 4 ++ copyKey w 94 (l3 + 20) 2
      check := some (false, 24 + win16 w (l3 + 20)) }
  else if sub = 5 ∨ sub = 0x82 then
    let hdr := if sub = 5 then 24 else 12
    let declared := if sub = 5 then 24 + win16 w (l3 + 20) else 12 + (w (l3 + 1) % 8 * 256 + w (l3 + 2))
    let m := l3 + hdr
    let len := win16 w m % 512
    { profile := 15, key := common ++ acfKey w m, check := some (true, declared)
      acfBad := decide (len = 0 ∨ declared < 4 * len + hdr) }
  else { profile := 16, key := common }

/-- The index and offset of the first enabled USER_ETYPE that equals the final EtherType (R69). -/
def userMatch (etype : Nat) : Nat → List (Bool × Nat × Nat) → Option (Nat × Nat)
  | _, [] => none
  | k, (en, e, off) :: t => if en ∧ e = etype then some (k, off) else userMatch etype (k + 1) t

/-- The profile of a frame whose tags are parsed (R69). -/
def parseLayer3 (c : PrsCfg) (fabric : Bool) (w : Nat → Nat) (t : Tags) : Layer3 :=
  let etype := win16 w t.pos
  let l3 := t.pos + 2
  if t.depth then { profile := 0 }
  else if t.llc then { profile := 1 }
  else match userMatch etype 0 c.user with
    | some (k, off) => { profile := 24 + k, key := copyKey w 80 (l3 + off) 16 }
    | none =>
      if !fabric ∧ etype = c.barost then { profile := 1 }
      else if etype = 0x0806 then { profile := 2 }
      else if etype = 0x88CC then { profile := 3 }
      else if etype = 0x888E then { profile := 4 }
      else if etype = 0x88F7 then
        { profile := 5, key := [(80, w l3), (81, w (l3 + 4))] ++ copyKey w 82 (l3 + 30) 2 ++ copyKey w 84 (l3 + 20) 10 }
      else if etype = 0x0800 then parseIpv4 w l3
      else if etype = 0x86DD then parseIpv6 w l3
      else if etype = 0x22F0 then parseAvtp w l3
      else { profile := 1 }

/-- What the parser makes of a frame: the key of R76, the profile, the flag word of R75, l3, and the deferred check of R72. -/
structure Parsed where
  key : List Byte
  profile : Nat
  flags : Nat
  l3 : Nat
  deferred : Option (Bool × Nat)
  deriving DecidableEq, Repr

/-- The result of the length checks of R70 and R71 against a frame's length: LEN_SHORT, LEN_LONG, ACF_LEN. -/
def lengthFlags (check : Option (Bool × Nat)) (len l3 : Nat) : Nat :=
  match check with
  | none => 0
  | some (acf, declared) =>
    let avail := len - 4 - l3
    if acf then (if avail < declared ∨ (declared < avail ∧ 64 < len) then 0x100 else 0)
    else if avail < declared then 0x20 else if declared < avail then 0x40 else 0

/-- The key with values put at its bytes. -/
def putKey (k : List Byte) (l : List (Nat × Nat)) : List Byte := l.foldl (fun k (i, v) => k.set i (BitVec.ofNat 8 v)) k

/-- The parser's work on one window (R66–R77). `stored` says that the frame's length is known: it has ended, or this is a second
pass. LEN_DEFER is set where a length check of the profile waits for the end, not on a frame that has none (DEDUCED, log entry 92). -/
def parse (c : PrsCfg) (fabric prot stored : Bool) (port pass bank : Nat) (bytes : List Byte) : Parsed :=
  let w := winByte bytes stored
  let t := tagWalk c fabric w 5 {}
  let l := parseLayer3 c fabric w t
  let l3 := t.pos + 2
  let flags := b2n (t.vlans ≠ []) + 2 * b2n (decide (t.vlans.length = 2)) + 4 * b2n t.barost.isSome + 8 * b2n t.rtag.isSome +
    0x10 * b2n t.depth + (if stored then lengthFlags l.check bytes.length l3 else 0x80 * b2n l.check.isSome) +
    0x200 * b2n l.ipBad + 0x400 * b2n l.ipOpt + 0x800 * b2n l.frag + 0x1000 * b2n t.llc + 0x2000 * b2n prot
  let flags := if l.acfBad then flags ||| 0x100 else flags
  let tci (n : Nat) : List (Nat × Nat) :=
    match t.vlans[n]? with | some (_, i) => copyKey w (18 + 2 * n) i 2 | none => []
  let kind (n : Nat) : Nat := match t.vlans[n]? with | some (k, _) => k | none => 0
  let key := putKey (List.replicate 96 0)
    ([(0, port % 64 + 64 * pass + 128 * bank), (1, l.profile), (2, flags % 256), (3, flags / 256)] ++
      copyKey w 4 0 12 ++ copyKey w 16 t.pos 2 ++ tci 0 ++ tci 1 ++ [(22, kind 0 + 4 * kind 1)] ++
      (match t.rtag with | some i => copyKey w 24 (i + 4) 2 | none => []) ++
      (match t.barost with | some i => copyKey w 32 (i + 2) 8 | none => []) ++ l.key)
  { key, profile := l.profile, flags, l3, deferred := if stored then none else l.check }

/-- The cause for which the parser drops a frame with these flags: 1 ACF_LEN, 2 IP_BAD, 3 LEN_SHORT; 0 for none (R74). -/
def dropCause (c : PrsCfg) (flags : Nat) : Nat :=
  if flags.testBit 8 then 1 else if flags.testBit 9 ∧ c.badAct = 0 then 2
  else if flags.testBit 5 ∧ c.shortAct = 0 then 3 else 0

/-- A condition counted and raised on PRS (R85, R86). -/
def State.prsHit (s : State) (on : Bool) (cnt : Nat) (bit : Option Nat) : State :=
  if on then
    match bit with
    | some b => (s.bump .prs cnt).raise .prs b
    | none => s.bump .prs cnt
  else s

/-- The counters and events of a flag word (R85, R86). -/
def State.countFlags (s : State) (flags : Nat) : State :=
  ((((s.prsHit (flags.testBit 4) Prs.CNT_UNPARSED (some 8)).prsHit (flags.testBit 5) Prs.CNT_LEN_SHORT (some 9)).prsHit
    (flags.testBit 6) Prs.CNT_LEN_LONG none).prsHit (flags.testBit 8) Prs.CNT_ACF_LEN (some 10)).prsHit
    (flags.testBit 9) Prs.CNT_IP_BAD (some 11)

/-- LAST_DROP and PARSE_DROPS of a frame the parser drops (R74). -/
def State.parserDrop (s : State) (port pass profile flags : Nat) : State :=
  ((((s.bump .prs Prs.CNT_PARSE_DROPS).setFld .prs Prs.LAST_DROP_PORT port).setFld .prs Prs.LAST_DROP_PASS pass).setFld .prs
    Prs.LAST_DROP_PROFILE profile).setFld .prs Prs.LAST_DROP_FLAGS flags

end Sys2Proof.Machine
end

