-- ==== Sys2Proof/Machine/Classifier.lean ====
section
/-! DEFINITION. The classifier: Facet trees, actions, contexts, the forwarding tables, load spreading, destinations (R87–R120). -/
namespace Sys2Proof.Machine

/-! ## Tree walk (R90–R94) -/

/-- Word `p` of the tree memory of bank `b`, as a 128-bit number (R90). -/
def State.treeWord (s : State) (b p : Nat) : Nat := s.mem.win.num (0x1000000 + 0x400000 * b + 16 * p) 16

/-- Window address of word `p` of bank `b` (R90). -/
def treeAddr (b p : Nat) : Nat := 0x1000000 + 0x400000 * b + 16 * p

/-- The value a TEST or INDEX node cuts from the extended key (R92). -/
def nodeField (x : List Byte) (off shift widthM1 : Nat) : Nat := beAt x off 4 / 2 ^ shift % 2 ^ (widthM1 + 1)

/-- The test of a TEST node (R92). -/
def nodeTest (w v : Nat) : Bool :=
  let lo := bitsOf w 63 32
  let hi := bitsOf w 95 64
  match bitsOf w 3 2 with
  | 0 => v == lo
  | 1 => v != lo
  | 2 => decide (lo ≤ v ∧ v ≤ hi)
  | _ => v &&& hi == lo

/-- How a walk ends: at a leaf with its rule and action, or in an error with its cause and the word read last or the faulty
pointer (R93, R94). -/
inductive WalkEnd where
  | none
  | leaf (rule action word : Nat)
  | error (cause word : Nat)
  deriving DecidableEq, Repr

/-- The walk from pointer `p` with `fuel` words left to read (R93). `bad` lists the words that read with an uncorrectable error. -/
def walkFrom (word : Nat → Nat) (bad : List Nat) (x : List Byte) : Nat → Nat → Nat → WalkEnd
  | 0, _, last => .error 3 last
  | fuel + 1, p, _ =>
    if p < 544 ∨ 262143 < p then .error 0 p
    else if bad.contains p then .error 5 p
    else
      let w := word p
      match w % 4 with
      | 3 => .leaf (bitsOf w 31 16) (bitsOf w 127 64) p
      | 1 =>
        let v := nodeField x (bitsOf w 10 4) (bitsOf w 15 11) (bitsOf w 20 16)
        walkFrom word bad x fuel (bitsOf w 113 96 + b2n (nodeTest w v)) p
      | 2 =>
        if 7 < bitsOf w 20 16 then .error 2 p
        else walkFrom word bad x fuel (bitsOf w 113 96 + nodeField x (bitsOf w 10 4) (bitsOf w 15 11) (bitsOf w 20 16)) p
      | _ => .error 1 p

/-- The root entry of tree `t` for zone `z` in bank `b` (R90): 0 IFW, 1 GW, 2 QOS, 3 EFW. -/
def State.root (s : State) (b z t : Nat) : Nat := s.treeWord b z / 2 ^ (32 * t) % 2 ^ 18

/-- A leaf's action carries a reserved encoding (R96). -/
def actionReserved (a : Nat) : Bool :=
  bitsOf a 1 0 == 3 || decide (4 ≤ bitsOf a 4 2) || bitsOf a 34 33 == 3

/-- Key of rule `r`'s frame counter; its byte counter is the next (R116). -/
def ruleKey (r : Nat) : Nat := 2 ^ 40 + 2 * r

/-- The walk of tree `t` for zone `z` of bank `b` with the effects of R93 and R94: the rule counter, the walk error's
counter, register, event and ECC log. The frame's length is credited now where it is known, and owed else. -/
def State.walk (s : State) (b z t : Nat) (x : List Byte) (len : Option Nat) (bad : List Nat) : Nat × List Nat × State :=
  let fail (s : State) (cause word : Nat) : Nat × List Nat × State :=
    let s1 := (s.bump .cls Cls.CNT_WALK_ERR).raise .cls 8
    let s2 := ((((s1.setFld .cls Cls.LAST_WALK_ERR_BANK b).setFld .cls Cls.LAST_WALK_ERR_TREE t).setFld .cls
      Cls.LAST_WALK_ERR_ZONE z).setFld .cls Cls.LAST_WALK_ERR_WORD word).setFld .cls Cls.LAST_WALK_ERR_CAUSE cause
    let s3 := if cause = 5 then s2.logErr .cls 5 srcDevice (treeAddr b word) else s2
    (s.bankFld .cls Cls.WALK_ERR_ACT_LO_ACT b + 2 ^ 32 * s.bankFld .cls Cls.WALK_ERR_ACT_HI_ACT b, [], s3)
  let rootPtr := s.root b z t
  if bad.contains z then fail s 5 z
  else if rootPtr = 0 then (0, [], s)
  else match walkFrom (s.treeWord b) bad x 24 rootPtr rootPtr with
    | .none => (0, [], s)
    | .error cause word => fail s cause word
    | .leaf rule action word =>
      let s1 := { s with counters := s.counters.modify (ruleKey rule) (· + 1) }
      let s2 := match len with
        | some n => { s1 with counters := s1.counters.modify (ruleKey rule + 1) (· + n) }
        | none => s1
      let owed := match len with | some _ => [] | none => [ruleKey rule + 1]
      if actionReserved action then
        let (a, _, s3) := fail s2 4 word
        (a, owed, s3)
      else (action, owed, s2)

/-! ## Combining actions (R97) -/

/-- What the trees walked so far give. -/
structure Verdict where
  drop : Bool := false
  permit : Bool := false
  fwd : Nat := 0
  arg : Nat := 0
  ctx : Option Nat := none
  tc : Option Nat := none
  colour : Option Nat := none
  recirc : Option Nat := none
  cpuMgmt : Bool := false
  cpuHost : Bool := false
  mirrors : List Nat := []
  sample : Bool := false
  deriving DecidableEq, Repr

/-- The mirror sessions with one more requested, ascending and without repeats. -/
def addSession (l : List Nat) (on : Bool) (m : Nat) : List Nat :=
  (List.range 4).filter (fun k => l.contains k || (on && k == m))

/-- The fields of an action that every tree's action has (R97). -/
def Verdict.copies (v : Verdict) (a : Nat) : Verdict :=
  { v with
    cpuMgmt := v.cpuMgmt || a.testBit 8
    cpuHost := v.cpuHost || a.testBit 9
    mirrors := addSession v.mirrors (a.testBit 10) (bitsOf a 12 11)
    sample := v.sample || a.testBit 13 }

/-- The action of IFW, GW or QOS taken in (R88, R97). -/
def Verdict.take (v : Verdict) (a : Nat) : Verdict :=
  let v := v.copies a
  { v with
    drop := v.drop || bitsOf a 1 0 == 2
    permit := v.permit || bitsOf a 1 0 == 1
    fwd := if bitsOf a 4 2 = 0 then v.fwd else bitsOf a 4 2
    arg := if bitsOf a 4 2 = 0 then v.arg else bitsOf a 63 48
    recirc := if a.testBit 5 then some (bitsOf a 7 6) else v.recirc
    ctx := if a.testBit 14 then some (bitsOf a 28 16) else v.ctx
    tc := if a.testBit 15 then some (bitsOf a 31 29) else v.tc
    colour := if a.testBit 32 then some (bitsOf a 34 33) else v.colour }

/-- The extended key of R89: the key, the ingress zone, what the trees so far give, and for the EFW the destination zones and
set. -/
def extKey (key : List Byte) (zone : Nat) (v : Verdict) (ezones dests : Nat) : List Byte :=
  let soFar := v.tc.getD 0 + 8 * b2n v.tc.isSome + 16 * v.colour.getD 0
  let ctx := v.ctx.getD 0 + 0x8000 * b2n v.ctx.isSome
  key ++ [BitVec.ofNat 8 zone, BitVec.ofNat 8 soFar] ++ leBytes 2 ctx ++ leBytes 2 ezones ++ leBytes 2 0 ++
    leBytes 8 dests ++ leBytes 16 0

/-! ## Contexts, port sets, spreading -/

/-- Word `k` of the configuration of context `n` in bank `b` (R101, R102). -/
def State.ctxWord (s : State) (n b k : Nat) : Nat := s.mem.win.num (0x1A00000 + 256 * n + 32 * b + 4 * k) 4

/-- Bits hi to lo of a word of a context's configuration. -/
def State.ctxF (s : State) (n b k hi lo : Nat) : Nat := bitsOf (s.ctxWord n b k) hi lo

/-- The port set of a bank (R90). -/
def State.portSet (s : State) (b set : Nat) : Nat := s.treeWord b (32 + set / 2) / 2 ^ (64 * (set % 2)) % 2 ^ 64

/-- Key of a state counter of context `n` at byte `o` (R103). -/
def ctxCounter (n o : Nat) : Nat := 0x1A00000 + 256 * n + o

/-- The hash of a pass under profile `h` of a bank (R109). -/
def State.spreadHash (s : State) (b h : Nat) (x : List Byte) : Nat :=
  crc32c (s.bankFld .cls (Cls.HASH_SEED_SEED h) b)
    (((List.range 128).filter (fun i => (s.bankFld .cls (Cls.HASH_SEL_SEL (4 * h + i / 32)) b).testBit (i % 32))).map
      (fun i => x.getD i 0))

/-- Entry `e` of indirection table `t` (R104). -/
def State.indirection (s : State) (t e : Nat) : Nat := s.mem.win.num (0x1910000 + 0x800 * t + 4 * e) 4

/-- The indirection entry a pass selects in table `t` under profile `h` (R107, R109), none where its word is among the uncorrectable ones `bad`:
the access then gives nothing, and FIB logs the word's address (R120). -/
def State.spreadEntry (s : State) (b t h : Nat) (x : List Byte) (bad : List Nat) : Option Nat × State :=
  let e := s.spreadHash b h x % 512
  let a := 0x1910000 + 0x800 * t + 4 * e
  if bad.contains a then (none, s.logErr .fib 5 srcDevice a) else (some (s.indirection t e), s)

/-- The ring that HOST_SPREAD gives a pass, or none where its entry is not valid (R99) or cannot be read. -/
def State.hostRingRead (s : State) (b : Nat) (x : List Byte) (bad : List Nat) : Option Nat × State :=
  let (e, s) := s.spreadEntry b (s.bankFld .cls Cls.HOST_SPREAD_TABLE b) (s.bankFld .cls Cls.HOST_SPREAD_PROFILE b) x bad
  (e.bind (fun e => if e.testBit 15 then some (bitsOf e 13 8) else none), s)

/-- The ring that HOST_SPREAD gives a pass whose entry can be read. -/
def State.hostRing (s : State) (b : Nat) (x : List Byte) : Option Nat := (s.hostRingRead b x []).1

/-- What a forwarding decision gives: the set, the ring of a SPREAD entry at port 32, whether the pass is dropped, and a copy to
port 33 (R98, R105). -/
structure Fwd where
  dests : List Nat := []
  ring : Option Nat := none
  drop : Bool := false
  cpuMgmt : Bool := false
  deriving DecidableEq, Repr

/-- A SPREAD through table `t` and profile `h` (R107). An entry that cannot be read gives an empty set (R120). -/
def State.spread (s : State) (b t h : Nat) (x : List Byte) (bad : List Nat) : Fwd × State :=
  let (e, s) := s.spreadEntry b t h x bad
  match e with
  | none => ({}, s)
  | some e =>
    if e.testBit 15 then
      ({ dests := (portsOf (2 ^ bitsOf e 5 0)), ring := if bitsOf e 5 0 = 32 then some (bitsOf e 13 8) else none }, s)
    else ({}, (s.bump .cls Cls.CNT_SPREAD_INVALID).raise .cls 12)

/-! ## MAC and VLAN table (R104–R106) -/

/-- MAC entry `i` (R106). -/
def State.macEntry (s : State) (i : Nat) : Nat := s.mem.win.num (0x1800000 + 16 * i) 16

/-- VLAN entry of a VID; entry 4095 reads as not valid (R106). -/
def State.vlanEntry (s : State) (vid : Nat) : Nat := if vid = 4095 then 0 else s.mem.win.num (0x1900000 + 16 * vid) 16

/-- The VID of a lookup (R105). -/
def State.lookupVid (s : State) (b : Nat) (key : List Byte) : Nat :=
  let tci := beAt key 18 2 % 4096
  if byteAt key 22 % 4 = 0 ∨ tci = 0 then s.bankFld .cls (Cls.PORT_CFG_PVID (byteAt key 0 % 64)) b else tci

/-- The bucket of a VID and destination address (R105). -/
def fibBucket (vid : Nat) (da : List Byte) : Nat := crc32c 0xFFFFFFFF (beBytes 2 vid ++ da) % 2 ^ 14

/-- The entry among the four ways of a bucket that matches (R105). -/
def State.fibMatch (s : State) (bucket vid da : Nat) : Option Nat :=
  ((List.range 4).map (fun w => s.macEntry (4 * bucket + w))).find?
    (fun e => e.testBit 63 && bitsOf e 47 0 == da && bitsOf e 59 48 == vid)

/-- A FIB lookup of a pass (R105, R107, R120); `bad` lists FIB window words that read with an uncorrectable error. -/
def State.fibLookup (s : State) (b : Nat) (key x : List Byte) (bad : List Nat) : Fwd × State :=
  if !s.inRun .fib then ({}, s.bump .fib Fib.CNT_MISS_DROP)
  else
    let s := s.bump .fib Fib.CNT_LOOKUPS
    let vid := s.lookupVid b key
    let v := s.vlanEntry vid
    let port := byteAt key 0 % 64
    let vlanAt := 0x1900000 + 16 * vid
    let bucket := fibBucket vid ((key.drop 4).take 6)
    let da := beAt key 4 6
    match bad.find? (fun a => decide (vlanAt ≤ a ∧ a < vlanAt + 16)),
        bad.find? (fun a => decide (0x1800000 + 64 * bucket ≤ a ∧ a < 0x1800000 + 64 * bucket + 64)) with
    | some a, _ => ({}, s.logErr .fib 5 srcDevice a)
    | none, lost =>
      if !v.testBit 64 then ({ drop := true }, (s.bump .fib Fib.CNT_VID_INVALID).raise .fib 8)
      else if v.testBit 66 ∧ !v.testBit port then ({ drop := true }, (s.bump .fib Fib.CNT_VLAN_INGRESS_DROP).raise .fib 9)
      else if lost.isSome then ({}, s.logErr .fib 5 srcDevice (lost.getD 0))
      else match s.fibMatch bucket vid da with
        | none =>
          if v.testBit 65 then ({ dests := portsOf (bitsOf v 37 0) }, s.bump .fib Fib.CNT_MISS_FLOOD)
          else ({}, s.bump .fib Fib.CNT_MISS_DROP)
        | some e =>
          let s := s.bump .fib Fib.CNT_HITS
          let arg := bitsOf e 95 80
          let (f, s) := match bitsOf e 65 64 with
            | 0 => (({ dests := portsOf (2 ^ (arg % 64)) } : Fwd), s)
            | 1 => ({ dests := portsOf (s.portSet b (arg % 1024)) }, s)
            | 2 => s.spread b (arg % 16) (bitsOf arg 6 4) x bad
            | _ => ({}, s)
          ({ f with cpuMgmt := e.testBit 96 }, s)

/-! ## The pass result (R97–R101) -/

/-- Class of a pass without a context (R100). -/
def State.plainClass (s : State) (b : Nat) (key : List Byte) (v : Verdict) : Nat :=
  let port := byteAt key 0 % 64
  match v.tc with
  | some t => t
  | none =>
    if s.bankFld .cls (Cls.PORT_CFG_TRUST_PCP port) b = 1 ∧ byteAt key 22 % 4 ≠ 0 then beAt key 18 2 / 8192
    else s.bankFld .cls (Cls.PORT_CFG_DEF_TC port) b

/-- The zones of a set of destinations, as a bitmap (R89). -/
def State.zonesOf (s : State) (b : Nat) (dests : List Nat) : Nat :=
  bitmapOf (dests.map (fun p => s.bankFld .cls (Cls.PORT_CFG_ZONE p) b))

/-- The three trees IFW, GW and QOS in order, each after the bytes 97–99 of the extended key are brought up to date (R88, R97). -/
def State.threeTrees (s : State) (b zone : Nat) (key : List Byte) (len : Option Nat) (bad : List Nat) :
    Verdict × List Nat × State :=
  let (a0, o0, s) := s.walk b zone 0 (extKey key zone {} 0 0) len bad
  let v := ({} : Verdict).take a0
  let (a1, o1, s) := s.walk b zone 1 (extKey key zone v 0 0) len bad
  let v := v.take a1
  let (a2, o2, s) := s.walk b zone 2 (extKey key zone v 0 0) len bad
  (v.take a2, o0 ++ o1 ++ o2, s)

/-- The disposition of a pass: dropped, with the counter of R97 or R101 that it counts. -/
def State.disposition (s : State) (b zone : Nat) (v : Verdict) : Bool × State :=
  match v.ctx with
  | some n =>
    if s.ctxF n b 0 0 0 = 0 then (true, (s.bump .cls Cls.CNT_CTX_INVALID).raise .cls 11)
    else if v.drop then (true, s.bump .cls Cls.CNT_DROP_RULE)
    else if v.permit ∨ s.bankFld .cls (Cls.ZONE_CFG_DEFAULT zone) b = 1 then (false, s)
    else (true, s.bump .cls Cls.CNT_DROP_DEFAULT)
  | none =>
    if v.drop then (true, s.bump .cls Cls.CNT_DROP_RULE)
    else if v.permit ∨ s.bankFld .cls (Cls.ZONE_CFG_DEFAULT zone) b = 1 then (false, s)
    else (true, s.bump .cls Cls.CNT_DROP_DEFAULT)

/-- Steps 1 and 2 of R98: the set before anything is removed. -/
def State.forward (s : State) (b : Nat) (key x : List Byte) (v : Verdict) (bad : List Nat) : Fwd × State :=
  match v.ctx with
  | some n => ({ dests := portsOf (s.portSet b (s.ctxF n b 0 25 16)) }, s)
  | none =>
    match v.fwd with
    | 2 => ({ dests := portsOf (s.portSet b (v.arg % 1024)) }, s)
    | 3 => s.spread b (v.arg % 16) (bitsOf v.arg 6 4) x bad
    | _ => s.fibLookup b key x bad

/-- Steps 3 and 4 of R98: the original ingress port, unless it hairpins, and port 36 leave the set. -/
def State.pruneSelf (s : State) (b port : Nat) (dests : List Nat) : List Nat × State :=
  if dests.contains port ∧ s.bankFld .cls (Cls.PORT_CFG_HAIRPIN port) b = 0 then
    (dests.filter (fun p => p != port && p != 36), s.bump .cls Cls.CNT_HAIRPIN_REMOVED)
  else (dests.filter (fun p => p != 36), s)

/-- Step 5 of R98: the EFW removes destinations by zone; its copies join the verdict. -/
def State.efw (s : State) (b zone : Nat) (key : List Byte) (v : Verdict) (dests : List Nat) (len : Option Nat) (bad : List Nat) :
    List Nat × Verdict × List Nat × State :=
  if dests = [] then ([], v, [], s)
  else
    let (a, owed, s) := s.walk b zone 3 (extKey key zone v (s.zonesOf b dests) (bitmapOf dests)) len bad
    let v := v.copies a
    if bitsOf a 1 0 = 2 then
      let mask := bitsOf a 63 48
      let keep := dests.filter (fun p => mask != 0 && !mask.testBit (s.bankFld .cls (Cls.PORT_CFG_ZONE p) b))
      (keep, v, owed, s.bump .cls Cls.CNT_EFW_PRUNED (dests.length - keep.length))
    else (dests, v, owed, s)

/-- Whole classification of one key (R95–R101): the pass result, the byte counters owed, the state. A pass that the FIB drops counts there and not
in DROP_RULE, a dropped pass never in NO_DEST (R97 and R98 leave both open: DEDUCED, log entry 119); an entry of HOST_SPREAD that cannot be read
counts as one with VALID = 0 (R99 and R120 do not say: DESIGN CHOICE, log entry 120). -/
def State.classify (s : State) (k : Pass) (len : Option Nat) (bad : List Nat) : Pass × List Nat × State :=
  let b := k.bank
  let port := byteAt k.key 0 % 64
  let zone := s.bankFld .cls (Cls.PORT_CFG_ZONE port) b
  let s := s.bump .cls Cls.CNT_KEYS
  let (v, owed, s) := s.threeTrees b zone k.key len bad
  let x := extKey k.key zone v 0 0
  let valid := match v.ctx with | some n => s.ctxF n b 0 0 0 == 1 | none => false
  let s := match v.ctx with
    | some n =>
      if valid then
        let s := { s with counters := s.counters.modify (ctxCounter n 128) (· + 1) }
        match len with
        | some l => { s with counters := s.counters.modify (ctxCounter n 136) (· + l) }
        | none => s
      else s
    | none => s
  let owed := match v.ctx with | some n => if valid ∧ len = none then ctxCounter n 136 :: owed else owed | none => owed
  let (dropped, s) := if k.direct.isSome then (false, s) else s.disposition b zone v
  let (f, s) := match k.direct with
    | some (p, _) => (({ dests := [p] } : Fwd), s)
    | none => if dropped then (({} : Fwd), s) else s.forward b k.key x v bad
  let dropped := dropped || f.drop
  let (dests, s) := if dropped then ([], s) else if k.direct.isSome then (f.dests, s) else s.pruneSelf b port f.dests
  let (dests, v, owed', s) := if dropped then ([], v, [], s) else if k.direct.isSome then (dests, v, [], s)
    else s.efw b zone k.key v dests len bad
  let v := { v with cpuMgmt := v.cpuMgmt || f.cpuMgmt }
  let loop := v.recirc.isSome && !dropped && k.second
  let s := s.prsHit loop Prs.CNT_RECIRC_LOOP (some 12)
  let toHost := dests.contains 32 || v.cpuHost
  let (ring, s) := match f.ring with
    | some r => (some r, s)
    | none => if toHost then s.hostRingRead b x bad else (none, s)
  let s := if toHost ∧ ring = none then (s.bump .cls Cls.CNT_SPREAD_INVALID).raise .cls 12 else s
  let noHost := toHost ∧ ring = none
  let dests := if noHost then dests.filter (· != 32) else dests
  let cpuHost := v.cpuHost && !decide noHost
  let recirc := if dropped ∨ k.second then none else v.recirc
  let none' := !dropped && dests.isEmpty && recirc.isNone && !v.cpuMgmt && !cpuHost && v.mirrors.isEmpty && !v.sample
  let s := if none' then s.bump .cls Cls.CNT_NO_DEST else s
  let plain := match v.ctx with
    | some n => s.ctxF n b 0 6 4
    | none => s.plainClass b k.key v
  let tc := match k.direct with | some (_, c) => c | none => plain
  ({ k with
      key := x, dropped, ctx := if valid then v.ctx else none, dests, recirc, cpuMgmt := v.cpuMgmt, cpuHost,
      mirrors := v.mirrors, sample := v.sample, tc, colour := v.colour.getD 0, ring := ring.getD 0,
      bound := v.ctx
      paired := (match v.ctx with | some n => valid && s.ctxF n s.activeBank 0 3 3 == 1 | none => false) },
   owed ++ owed', s)

end Sys2Proof.Machine
end

