-- ==== Sys2Proof/Machine/Headers.lean ====
section
/-! DEFINITION. The Barost header and the R-tag of a stored frame: reading them, their check, and how the egress edits change a
copy's length (R246–R250, R269). -/
namespace Sys2Proof.Machine

/-- The fields of a Barost header (R246). -/
structure Barost where
  ver : Nat := 1
  type : Nat := 0
  hops : Nat := 0
  mc : Nat := 0
  tc : Nat := 0
  src : Nat := 0
  dst : Nat := 0
  origPort : Nat := 0
  crst : Nat := 0
  sv : Nat := 0
  stream : Nat := 0
  grant6 : Nat := 0
  grant7 : Nat := 0
  deriving DecidableEq, Repr

/-- The ones' complement sum of 16-bit words. -/
def onesSum (l : List Nat) : Nat := l.foldl (fun acc w => let t := acc + w; if 0xFFFF < t then t - 0xFFFF else t) 0

/-- The 16-bit words of a list of bytes from `i`, `n` of them, most significant byte first. -/
def words16 (l : List Byte) (i n : Nat) : List Nat := (List.range n).map (fun k => beAt l (i + 2 * k) 2)

/-- The header that starts at byte `i` of a frame (R246). -/
def readBarost (l : List Byte) (i : Nat) : Barost where
  ver := byteAt l (i + 2) / 16
  type := byteAt l (i + 2) % 16
  hops := byteAt l (i + 3) / 16
  mc := byteAt l (i + 3) / 8 % 2
  tc := byteAt l (i + 3) % 8
  src := byteAt l (i + 4) / 16
  dst := beAt l (i + 5) 2
  origPort := byteAt l (i + 7) % 64
  crst := byteAt l (i + 7) / 64 % 2
  sv := byteAt l (i + 8) / 128
  stream := beAt l (i + 8) 2 % 8192
  grant6 := beAt l (i + 10) 2
  grant7 := beAt l (i + 12) 2

/-- A received header is valid (R247). -/
def barostValid (l : List Byte) (i : Nat) : Bool :=
  let h := readBarost l i
  h.ver == 1 && decide (h.type ≤ 2) && onesSum (words16 l (i + 2) 7) == 0xFFFF

/-- Bytes 2–13 of a header (R246). -/
def barostBody (h : Barost) : List Byte :=
  [BitVec.ofNat 8 (16 * h.ver + h.type), BitVec.ofNat 8 (16 * h.hops + 8 * h.mc + h.tc), BitVec.ofNat 8 (16 * h.src)] ++
    beBytes 2 h.dst ++ [BitVec.ofNat 8 (h.origPort + 64 * h.crst)] ++ beBytes 2 (0x8000 * h.sv + h.stream) ++
    beBytes 2 h.grant6 ++ beBytes 2 h.grant7

/-- CHK of a header's bytes 2–13 (R247). -/
def barostChk (body : List Byte) : Nat := 0xFFFF - onesSum (words16 body 0 6)

/-- A header of 16 bytes with an EtherType (R246). -/
def writeBarost (etype : Nat) (h : Barost) : List Byte :=
  beBytes 2 etype ++ barostBody h ++ beBytes 2 (barostChk (barostBody h))

/-- A fabric port: an external port with ROLE = FABRIC, or port 37 (chapter 11). -/
def State.fabricPort (s : State) (p : Nat) : Bool := p == 37 || (decide (p < 32) && s.flag (.etp p) Etp.MODE_ROLE)

/-- A copy of the frame carries a Barost header that was received on a fabric port: its pass had the flag BAROST (R248). -/
def Frame.hasHeader (f : Frame) : Bool := f.flags.testBit 2

/-- A copy of the frame carries a Barost header written by software (R248). -/
def State.softHeader (s : State) (f : Frame) : Bool :=
  !f.hasHeader && (f.ingress == 32 || f.ingress == 33) && beAt f.bytes 12 2 == s.bankFld .prs Prs.BAROST_CFG_ETYPE f.bank

/-- The frame carries an R-tag (R75). -/
def Frame.hasRtag (f : Frame) : Bool := f.flags.testBit 3

/-- The tag walk of a stored frame; its Barost header is recognised whoever wrote it (R67, R248). -/
def State.frameTags (s : State) (f : Frame) : Tags :=
  tagWalk (s.prsCfg f.bank) (f.hasHeader || s.softHeader f) (winByte f.bytes f.ended) 5 {}

/-- What the Barost edit does to a copy at port `p` (R248): it originates a header, removes one, or neither. -/
def State.barostGrow (s : State) (f : Frame) (p : Nat) : Int :=
  let has := f.hasHeader || s.softHeader f
  if p = 32 ∨ p = 33 ∨ p = 36 then 0
  else if s.fabricPort p then (if has then 0 else 16)
  else if has then -16 else 0

/-- What the R-tag edit adds to a copy at port `p` or takes from it (R269). -/
def State.rtagGrow (s : State) (f : Frame) (p : Nat) : Int :=
  let tagged := (s.frameTags f).rtag.isSome
  if p = 36 then 0
  else if s.flag .frer (Frer.PORT_CFG_RTAG_TX p) then (if !tagged && f.seq.isSome then 6 else 0)
  else if tagged then -6 else 0

/-- The length of a copy after the edit of port 36: the tags it removes, and padding to 64 bytes (R78). -/
def State.recircLen (s : State) (f : Frame) (edit : Nat) : Nat :=
  let b := if (edit = 1 ∨ edit = 2) ∧ (f.hasHeader || s.softHeader f) then 16 else 0
  let r := if (edit = 2 ∨ edit = 3) ∧ (s.frameTags f).rtag.isSome then 6 else 0
  max 64 (f.bytes.length - b - r)

/-- What the edits of R248 and R269 add to a copy at port `p`: nothing to a mirror copy, which leaves as the frame is stored (R138; DEDUCED, log
entry 108). -/
def State.editGrow (s : State) (f : Frame) (kind : CopyKind) (p : Nat) : Int :=
  match kind with
  | .mirror _ => 0
  | _ => s.barostGrow f p + s.rtagGrow f p

/-- The length of the whole frame after the edits of a copy: those of R248 and R269, for port 36 that of R78. -/
def State.editedLen (s : State) (f : Frame) (kind : CopyKind) (p : Nat) : Nat :=
  match kind with
  | .recirc e => s.recircLen f e
  | _ => ((f.bytes.length : Int) + s.editGrow f kind p).toNat

/-- A copy's length after its edits: what R50 compares with MAX_LEN (R250). A sample copy holds at most 128 bytes of the frame (R140). -/
def State.sentLen (s : State) (f : Frame) (kind : CopyKind) (p : Nat) : Nat :=
  match kind with
  | .sample => ((min 128 f.bytes.length : Nat) + s.editGrow f kind p).toNat
  | _ => s.editedLen f kind p

end Sys2Proof.Machine
end

