-- ==== Sys2Proof/Machine/Buffer.lean ====
section
/-! DEFINITION. The shared buffer: cells, charges, tiers, admission, random early drop, mirror and sample copies, and how copies
and frames are released (R121–R148, R511). -/
namespace Sys2Proof.Machine

/-- The data path changed by `f`. -/
def State.mapDp (s : State) (f : DataPath → DataPath) : State := { s with dp := f s.dp }

/-- A stored frame. -/
def State.frame (s : State) (i : Nat) : Frame := s.dp.frames.get i

/-- A stored frame set. -/
def State.setFrame (s : State) (i : Nat) (f : Frame) : State := s.mapDp (fun d => { d with frames := d.frames.set i f })

/-- A subscriber queue. -/
def State.queue (s : State) (q : Nat) : Queue := s.dp.queues.get q

/-- A subscriber queue changed. -/
def State.mapQueue (s : State) (q : Nat) (f : Queue → Queue) : State :=
  s.mapDp (fun d => { d with queues := d.queues.modify q f })

/-! ## Cells and descriptors (R121, R122) -/

/-- Cells a length occupies. -/
def cellsOf (len : Nat) : Nat := ceilDiv len 128

/-- POOL_FREE.CELLS: free cells of the store. -/
def State.freeCells (s : State) : Nat := 131072 - s.dp.frames.cells.foldl (fun n c => n + c.2.cells.length) 0

/-- A number inserted into an ascending list. -/
def insertAsc (n : Nat) : List Nat → List Nat
  | [] => [n]
  | m :: t => if n ≤ m then n :: m :: t else m :: insertAsc n t

/-- The cells of bank `b` that frames hold, numbered within the bank and ascending: cell i lies in bank i mod 2 (R121). -/
def State.bankUsed (s : State) (b : Nat) : List Nat :=
  (s.dp.frames.cells.flatMap (fun c => (c.2.cells.filter (· % 2 == b)).map (· / 2))).foldl (fun l n => insertAsc n l) []

/-- The free cell number `k` of a bank whose cells in use are listed ascending. -/
def nthFree : List Nat → Nat → Nat
  | [], k => k
  | u :: t, k => if u ≤ k then nthFree t (k + 1) else k

/-- The bank that the next cell of frame `i` is taken from (R121): the other than its last cell's; for its first cell the one whose free list is
longer, either where they are equal (a free value, log entry 78). A bank with no free cell gives way to the other. -/
def State.nextBank (s : State) (i : Nat) : Nat × State :=
  let n0 := (s.bankUsed 0).length
  let n1 := (s.bankUsed 1).length
  let (b, s) := match (s.frame i).cells.getLast? with
    | some c => (1 - c % 2, s)
    | none => if n0 < n1 then (0, s) else if n1 < n0 then (1, s) else s.draw 2
  (if 65536 ≤ (if b = 0 then n0 else n1) then 1 - b else b, s)

/-- A cell is taken from a free list and chained to frame `i` (R121, R122). Which of a bank's free cells heads its list is a free value (log
entry 78). POOL_LOW is raised where the free cells fall below TH (R148). -/
def State.chainCell (s : State) (i : Nat) : State :=
  if s.freeCells = 0 then s
  else
    let low := decide (s.freeCells = s.fld .buf Buf.POOL_LOW_TH)
    let (b, s) := s.nextBank i
    let used := s.bankUsed b
    let (k, s) := s.draw (65536 - used.length)
    let f := s.frame i
    let s := s.setFrame i { f with cells := f.cells ++ [2 * nthFree used k + b] }
    if low then s.raise .buf 8 else s

/-- A frame of the store becomes `f` and holds `n` cells from now on, if it held fewer. A frame charged to headroom charges each cell that is
written (R130). -/
def State.storeFrame (s : State) (i : Nat) (f : Frame) (n : Nat) : State :=
  let k := n - f.cells.length
  let s := match f.headroom with
    | some c => s.mapDp (fun d => { d with hrUsed := d.hrUsed.modify (8 * f.current + c) (· + k) })
    | none => s
  (s.setFrame i f).each (List.range k) (fun s _ => s.chainCell i)

/-- DESC_FREE.COUNT: free descriptors. -/
def State.freeDescs (s : State) : Nat := 262144 - s.dp.frames.cells.foldl (fun n c => n + c.2.refs) 0

/-- Descriptors in use by copies that are not charged to headroom: mirror and sample copies of a headroom frame among them (R122, R138). -/
def State.plainDescs (s : State) : Nat := s.dp.frames.cells.foldl (fun n c => n + (c.2.refs - c.2.hrRefs)) 0

/-! ## The pool (R127) -/

/-- RESERVE of a queue in the active queue table (R145). -/
def State.reserve (s : State) (q : Nat) : Nat := s.tabF .buf 0 q 0 27 16

/-- The sum of RESERVE over all queues in a table of words. -/
def reserveSum (cells : List (Nat × Word)) : Nat :=
  cells.foldl (fun n c =>
    if tabKey .buf 0 0 0 ≤ c.1 ∧ c.1 < tabKey .buf 0 4096 0 then n + bitsOf c.2.toNat 27 16 else n) 0

/-- HR: headroom of ports 0–31 and 37, two classes each (R127). -/
def State.hrTotal (s : State) : Nat :=
  ((List.range 32) ++ [37]).foldl (fun n p => n + 2 * s.fld (.etp p) Etp.HEADROOM_CELLS) 0

/-- sh[q]: a queue's use of the shared pool (R127). -/
def State.shared (s : State) (q : Nat) : Nat := (s.queue q).used - s.reserve q

/-- S: the sum of sh[q] (R127). -/
def State.sharedSum (s : State) : Nat := s.dp.queues.cells.foldl (fun n c => n + (c.2.used - s.reserve c.1)) 0

/-- The tiers of R128 for `c` cells to queue `q`. -/
def State.tiers (s : State) (q c : Nat) : Bool :=
  let u := (s.queue q).used
  let res := s.reserve q
  let a8 := s.tabF .buf 0 q 0 6 0
  let sh := s.shared q
  let e := (u + c - res) - sh
  let free := s.fld .buf Buf.POOL_SIZE_SHARED_SIZE - s.sharedSum
  decide (u + c ≤ res) || (decide (0 < a8) && decide (e ≤ free) && decide (sh + e ≤ a8 * free / 8))

/-! ## Where a copy goes (R151) -/

/-- DEFQ of service node (p, t). -/
def State.defq (s : State) (p t : Nat) : Nat := s.tabF .qsch 1 (8 * p + t) 0 27 16

/-- The subscriber queue of a copy of kind `kind` of a pass to port `p` (R151). The port of a DIRECT frame is not from a context's DEST (R317). -/
def State.queueFor (s : State) (r : Pass) (kind : CopyKind) (p : Nat) : Nat :=
  match kind with
  | .mirror m => s.fld .buf (Buf.MIR_CFG_QUEUE m)
  | .sample => s.fld .buf Buf.LOUPE_DEST_QUEUE
  | .dest =>
    (match r.ctx, r.direct with
     | some n, none =>
       let k := s.ctxF n r.bank 0 15 8
       if k = 0 then s.defq p r.tc else s.tabF .qsch 2 p 3 11 0 + k - 1
     | _, _ => s.defq p r.tc)
  | _ => s.defq p r.tc

/-- The subscriber queue of a copy at its admission. DEFQ, QFIRST and QCOUNT that become active after the policer had the pass do not move its
copies (R169); the queue of a mirror or sample copy is a register. -/
def State.copyQueue (s : State) (r : Pass) (kind : CopyKind) (p : Nat) : Nat :=
  match kind with
  | .mirror _ => s.queueFor r kind p
  | .sample => s.queueFor r kind p
  | _ => ((r.queues.find? (fun x => x.1 == p)).map (fun x => x.2)).getD (s.queueFor r kind p)

/-- Cells charged for a frame's copy (R125). -/
def chargeOf (f : Frame) (kind : CopyKind) : Nat :=
  if kind = .sample then 1 else cellsOf (if f.ended then f.bytes.length else f.provLen)

/-! ## Release (R122, R137) -/

/-- Credit and headroom of a frame that is freed (R130, R131): HR_USED falls by its cells. -/
def State.freeHeadroom (s : State) (f : Frame) : State :=
  match f.headroom with
  | none => s
  | some c => s.mapDp (fun d => { d with hrUsed := d.hrUsed.modify (8 * f.current + c) (· - f.cells.length) })

/-- A frame leaves the store. A frame still in reception stays as a mark that its remaining bytes are not stored. -/
def State.freeFrame (s : State) (i : Nat) : State :=
  let f := s.frame i
  let t := s.freeHeadroom f
  if f.ended then t.setFrame i {} else t.setFrame i { f with gone := true, headroom := none, refs := 0, hrRefs := 0, cells := [] }

/-- The descriptor of a copy is released; its frame is freed with its last (R122). A copy with no charge of its own is charged to headroom
(R130). -/
def State.dropRef (s : State) (c : Copy) : State :=
  let f := s.frame c.frame
  if f.refs = 0 then s
  else
    let t := s.setFrame c.frame { f with refs := f.refs - 1, hrRefs := if c.charge = 0 then f.hrRefs - 1 else f.hrRefs }
    if f.refs ≤ 1 then t.freeFrame c.frame else t

/-- A copy's charge leaves its queue (R137). -/
def State.releaseCharge (s : State) (c : Copy) : State :=
  s.mapQueue c.queue (fun q => { q with used := q.used - c.charge })

/-- The service node 8p + s a queue is attached to, by its active SUBQ entry; none where it is unattached (R150). -/
def State.nodeOf (s : State) (q : Nat) : Option Nat :=
  let p := s.tabF .qsch 0 q 0 5 0
  if p < 38 then some (8 * p + s.tabF .qsch 0 q 0 10 8) else none

/-- The queues that hold a copy and are attached to a service node, ascending. -/
def State.busyQueues (s : State) (n : Nat) : List Nat :=
  s.dp.queues.keys.filter (fun q => s.nodeOf q == some n && !(s.queue q).copies.isEmpty)

/-- A class with no copy waiting stalls no more (R59); the key of class c at port p is that of service node (p, c). -/
def State.endStall (s : State) (n : Nat) : State :=
  if (s.busyQueues n).isEmpty then s.mapDp (fun d => { d with stalled := d.stalled.set n false }) else s

/-- A copy is taken out of its queue: the first that equals it. -/
def State.unlink (s : State) (c : Copy) : State :=
  let t := s.mapQueue c.queue (fun q => { q with copies := dropFirst (fun d => d == c) q.copies })
  match t.nodeOf c.queue with
  | some n => t.endStall n
  | none => t

/-- A recirculating copy that ends before its second pass leaves RECIRC_CNT of its bank (R82). -/
def State.recircLeave (s : State) (bank : Nat) : State :=
  let f := if bank = 0 then Prs.RECIRC_CNT0_COUNT else Prs.RECIRC_CNT1_COUNT
  s.setFld .prs f (s.fld .prs f - 1)

/-- A recirculating copy joins RECIRC_CNT of its bank (R82). -/
def State.recircJoin (s : State) (bank : Nat) : State :=
  let f := if bank = 0 then Prs.RECIRC_CNT0_COUNT else Prs.RECIRC_CNT1_COUNT
  s.setFld .prs f (s.fld .prs f + 1)

/-- The copy is a RECIRC copy. -/
def Copy.isRecirc (c : Copy) : Bool := match c.kind with | .recirc _ => true | _ => false

/-- An admitted copy that has not started is discarded (R137). -/
def State.discardCopy (s : State) (c : Copy) : State :=
  let t := (s.unlink c).releaseCharge c
  let t := if c.isRecirc then t.recircLeave (s.frame c.frame).bank else t
  let t := t.mapDp (fun d => { d with egress := d.egress.modify c.port (fun e =>
    if e.selected = some c then { e with selected := none } else e) })
  t.dropRef c

/-- Every copy of a frame that waits in a queue. -/
def State.copiesOf (s : State) (i : Nat) : List Copy :=
  s.dp.queues.cells.flatMap (fun c => c.2.copies.filter (fun d => d.frame == i))

/-- Every copy to a port that waits in a queue. -/
def State.copiesAt (s : State) (p : Nat) : List Copy :=
  s.dp.queues.cells.flatMap (fun c => c.2.copies.filter (fun d => d.port == p))

/-! ## Admission (R129–R136) -/

/-- Step 1 of R129 refuses a copy of a frame at port `p`: the page, the link, TC10, the length, QSCH not in RUN (R33), MSEC
not in RUN for a protected port (R376), or the unit of port 32, 33 or 35 not in RUN (R33). -/
def State.portRefuses (s : State) (f : Frame) (kind : CopyKind) (p : Nat) : Bool :=
  !s.inRun (.etp p) || !s.inRun .qsch ||
  (p == 32 && !s.inRun .ring) || (p == 33 && !s.inRun .mpc) || (p == 35 && !s.inRun .tsi) ||
  (decide (p < 32) && s.tabF .msec 0 p 0 0 0 == 1 && !s.inRun .msec) ||
  ((decide (p < 32) || p == 37) && s.fld (.etp p) Etp.LINK_STATUS_LST != 2) ||
  (decide (p < 32) && s.fld (.etp p) Etp.TC10_STATUS_TST != 0) ||
  (f.ended && decide (s.fld (.etp p) Etp.MAX_LEN_LEN < s.sentLen f kind p))

/-- p16 of R134 for a queue and colour, in units of 1/65 536. -/
def State.redProb (s : State) (q colour : Nat) : Nat :=
  let i := 3 * s.tabF .buf 0 q 0 12 8 + colour
  let mn := s.fld .buf (Buf.DPROF_LO_MIN i)
  let mx := s.fld .buf (Buf.DPROF_HI_MAX i)
  let u := (s.queue q).used
  if s.fld .buf (Buf.DPROF_LO_EN i) = 0 ∨ u < mn then 0
  else if u < mx then s.fld .buf (Buf.DPROF_HI_MAXP i) * (u - mn) * 256 / (mx - mn)
  else 65536

/-- The frame's profile is an IP profile of R135. -/
def ipProfile (profile : Nat) : Bool := decide (6 ≤ profile ∧ profile ≤ 13)

/-- The ECN field of a pass's key (R135). -/
def ecnOf (key : List Byte) : Nat := byteAt key 31 % 4

/-- What step 4 of R129 makes of a copy: pass, pass marked, or drop. -/
inductive RedResult where
  | pass | mark | drop
  deriving DecidableEq, Repr

/-- Random early drop and ECN (R134, R135) for a copy to queue `q` that R136 does not exempt. -/
def State.red (s : State) (f : Frame) (r : Pass) (q colour : Nat) : RedResult × State :=
  let (rnd, t) := s.draw 65536
  if rnd < s.redProb q colour then
    if s.tabF .buf 0 q 0 7 7 = 1 ∧ ipProfile f.profile ∧ ecnOf r.key ≠ 0 then
      if ecnOf r.key = 3 then (.pass, t) else (.mark, t)
    else (.drop, t)
  else (.pass, t)

/-- R136: step 4 does not act on this copy. -/
def State.redExempt (s : State) (f : Frame) (r : Pass) (kind : CopyKind) : Bool :=
  f.lossless.isSome || kind == .sample || kind == .cpu ||
  (r.colour == 0 && (match r.ctx with | some n => s.ctxWord n r.bank 5 != 0 | none => false) &&
    (match kind with | .dest => true | .recirc _ => true | _ => false))

/-- An admitted copy: charged, linked to the tail of its queue, counted (R129). DESC_LOW is raised where the free descriptors fall below 8192
(R148). -/
def State.enqueue (s : State) (r : Pass) (kind : CopyKind) (p q charge : Nat) (mark : Bool) : State :=
  let f := s.frame r.frame
  let c : Copy := {
    frame := r.frame, port := p, queue := q, kind, charge, colour := r.colour, tc := r.tc, ctx := r.ctx, mark
    ring := r.ring, paired := r.paired && (match kind with | .dest => true | _ => false) }
  let s := s.mapQueue q (fun x => { x with copies := x.copies ++ [c], used := x.used + charge, peak := max x.peak (x.used + charge) })
  let s := if s.freeDescs = 8192 then s.raise .buf 9 else s
  let s := s.setFrame r.frame { f with refs := f.refs + 1, hrRefs := if charge = 0 then f.hrRefs + 1 else f.hrRefs }
  let s := if c.isRecirc then s.recircJoin f.bank else s
  (s.bump .buf Buf.CNT_ENQ_COPIES).bumpTab .buf 1 q 0

/-- Why a copy is refused (R129). -/
inductive AdmitResult where
  | admitted | port | descriptor | tail | red
  deriving DecidableEq, Repr

/-- Steps 2 to 4 of R129 for a copy that step 1 lets pass. -/
def State.admitCopy (s : State) (r : Pass) (kind : CopyKind) (p : Nat) : AdmitResult × State :=
  let f := s.frame r.frame
  let q := s.copyQueue r kind p
  let c := chargeOf f kind
  if s.portRefuses f kind p then (.port, s.bump (.etp p) Etp.CNT_TX_REFUSED)
  else if 262144 - 8192 ≤ s.plainDescs ∨ s.freeDescs = 0 then (.descriptor, s.bump .buf Buf.CNT_DESC_EXHAUSTED)
  else if !s.tiers q c then
    (.tail, ((s.bump .buf Buf.CNT_TAIL_DROPS).bumpTab .buf 1 q 1).bumpTab .buf 2 p 0)
  else if s.redExempt f r kind then (.admitted, s.enqueue r kind p q c false)
  else
    let (hit, t) := s.red f r q r.colour
    match hit with
    | .pass => (.admitted, t.enqueue r kind p q c false)
    | .mark => (.admitted, (((t.bump .buf Buf.CNT_ECN_MARKS).bumpTab .buf 1 q 3).bumpTab .buf 2 p 2).enqueue r kind p q c true)
    | .drop => (.red, ((t.bump .buf Buf.CNT_RED_DROPS).bumpTab .buf 1 q 2).bumpTab .buf 2 p 1)

/-- The copies of a pass to ports in ascending order: the destinations, with the copies to 32 and 33 that CPU_HOST and CPU_MGMT
ask for, and the RECIRC copy (R98, R137). -/
def passCopies (r : Pass) : List (Nat × CopyKind) :=
  (List.range 38).filterMap (fun p =>
    if p = 33 ∧ r.cpuMgmt then some (p, .cpu)
    else if p = 32 ∧ r.cpuHost then some (p, .cpu)
    else if p = 36 then r.recirc.map (fun e => (p, CopyKind.recirc e))
    else if r.dests.contains p then some (p, .dest) else none)

/-- The copies of a frame on a lossless path (R130): step 1 for every copy, the tiers for every remaining one, then the
descriptors; where any copy fails the tiers the frame is charged once to headroom. Answers the admitted ports. -/
def State.admitLossless (s : State) (r : Pass) (cls : Nat) : List Nat × State :=
  let f := s.frame r.frame
  let all := passCopies r
  let s := s.each (all.filter (fun c => s.portRefuses f c.2 c.1)) (fun s c => s.bump (.etp c.1) Etp.CNT_TX_REFUSED)
  let rest := all.filter (fun c => !s.portRefuses f c.2 c.1)
  let fits := rest.all (fun c => s.tiers (s.copyQueue r c.2 c.1) (chargeOf f c.2))
  if fits then
    rest.foldl (fun (ports, s) c =>
      if 262144 - 8192 ≤ s.plainDescs ∨ s.freeDescs = 0 then (ports, s.bump .buf Buf.CNT_DESC_EXHAUSTED)
      else (ports ++ [c.1], s.enqueue r c.2 c.1 (s.copyQueue r c.2 c.1) (chargeOf f c.2) false)) ([], s)
  else
    let s := s.setFrame r.frame { f with headroom := some cls }
    let s := s.mapDp (fun d => { d with hrUsed := d.hrUsed.modify (8 * f.current + cls) (· + f.cells.length) })
    let s := s.bump .buf Buf.CNT_HEADROOM_ADMITS
    rest.foldl (fun (ports, s) c =>
      if s.freeDescs = 0 then (ports, s.bump .buf Buf.CNT_DESC_EXHAUSTED)
      else (ports ++ [c.1], s.enqueue r c.2 c.1 (s.copyQueue r c.2 c.1) 0 false)) ([], s)

/-- The copies of a frame on no lossless path, in order (R137). Answers the admitted ports. -/
def State.admitPlain (s : State) (r : Pass) : List Nat × State :=
  (passCopies r).foldl (fun (ports, s) c =>
    let (res, s) := s.admitCopy r c.2 c.1
    (if res = .admitted then ports ++ [c.1] else ports, s)) ([], s)

/-! ## Mirror and sample copies (R138–R140) -/

/-- One mirror copy to session `m` (R138, R139). -/
def State.mirrorCopy (s : State) (r : Pass) (m : Nat) : State :=
  let dest := s.fld .buf (Buf.MIR_CFG_DEST m)
  if s.fld .buf (Buf.MIR_CFG_EN m) = 0 then s.bump .buf Buf.CNT_MIR_OFF
  else if (s.frame r.frame).prot ∧ s.fld .buf (Buf.MIR_CFG_ALLOW_PROT m) = 0 then
    (s.bump .buf Buf.CNT_MIR_PROT_BLOCKED).raise .buf 12
  else
    let r := if dest = 32 then { r with ring := (s.hostRing r.bank r.key).getD 0 } else r
    if dest = 32 ∧ s.hostRing r.bank r.key = none then (s.bump .cls Cls.CNT_SPREAD_INVALID).raise .cls 12
    else
      let (res, s) := s.admitCopy r (.mirror m) dest
      s.bump .buf (if res = .admitted then Buf.CNT_MIR_COPIES m else Buf.CNT_MIR_DROPS m)

/-- The bit of a port in EG_SRC of a session (R138, R144). -/
def State.egSrc (s : State) (m p : Nat) : Bool :=
  if p < 32 then (s.fld .buf (Buf.MIR_EG_LO_EG_SRC m)).testBit p else (s.fld .buf (Buf.MIR_EG_HI_EG_SRC m)).testBit (p - 32)

/-- The reload value of Loupe's countdown (R140). -/
def State.loupeReload (s : State) : Nat × State :=
  let n := s.fld .buf Buf.LOUPE_CFG_N_M1 + 1
  if s.fld .buf Buf.LOUPE_CFG_MODE = 0 then (n, s)
  else
    let (r, t) := s.draw (2 * n - 1)
    (r + 1, t)

/-- The sample copy of a pass, admitted under R129 (R140). -/
def State.sampleCopy (s : State) (r : Pass) : State :=
  let dest := s.fld .buf Buf.LOUPE_DEST_DEST
  let r := if dest = 32 then { r with ring := (s.hostRing r.bank r.key).getD 0 } else r
  if dest = 32 ∧ s.hostRing r.bank r.key = none then (s.bump .cls Cls.CNT_SPREAD_INVALID).raise .cls 12
  else
    let (res, s) := s.admitCopy r .sample dest
    if res = .admitted then s else s.bump .buf Buf.CNT_SAMPLE_DROPS

/-- Loupe is offered a pass (R140): the countdown falls, and at 0 the pass is sampled and the countdown reloaded. -/
def State.loupe (s : State) (r : Pass) : State :=
  let s := s.bump .buf Buf.CNT_SAMPLE_OFFERED
  if s.fld .buf Buf.LOUPE_CFG_EN = 0 then s
  else
    let n := s.fld .buf Buf.LOUPE_STATUS_COUNT - 1
    if n = 0 then
      let (v, t) := s.loupeReload
      ((t.setFld .buf Buf.LOUPE_STATUS_COUNT v).bump .buf Buf.CNT_SAMPLE_TAKEN).sampleCopy r
    else s.setFld .buf Buf.LOUPE_STATUS_COUNT n

/-- The lossless class of a pass of a frame, if it is on a lossless path: class 6 or 7 received on a FABRIC port or port 37 (R130). -/
def State.losslessClass (s : State) (f : Frame) (r : Pass) : Option Nat :=
  if s.fabricPort f.current ∧ (r.tc = 6 ∨ r.tc = 7) then some r.tc else none

/-- The admission decision of a pass (R129–R140). A frame no copy of which is admitted is freed at once. -/
def State.admitted (s : State) (r : Pass) : State :=
  let f := s.frame r.frame
  let lossless := s.losslessClass f r
  let t := s.setFrame r.frame { f with decided := true, lossless, ctx := r.ctx }
  let (ports, t) := match lossless with
    | some c => t.admitLossless r c
    | none => t.admitPlain r
  let t := t.each r.mirrors (fun t m => t.mirrorCopy r m)
  let t := t.each ports (fun t p => t.each ((List.range 4).filter (fun m => t.fld .buf (Buf.MIR_CFG_EN m) == 1 && t.egSrc m p))
    (fun t m => t.mirrorCopy r m))
  let t := if r.sample then t.loupe r else t
  if (t.frame r.frame).refs = 0 then t.freeFrame r.frame else t

end Sys2Proof.Machine
end

