-- ==== Sys2Proof/Machine/Gates.lean ====
section
/-! DEFINITION. Time gates: the schedule of a port, its windows, the fit check and the guard, LEAD and GROW, take-over (R178–R197). -/
namespace Sys2Proof.Machine

/-! ## Port rates and latencies (R10, R44) -/

/-- Data rate of a mode in kb/s (R44). -/
def modeKbps (mode : Nat) : Nat :=
  match mode with | 0 => 1000000 | 1 => 1000000 | 2 => 2500000 | 3 => 10000000 | _ => 25000000

/-- Service rate of an internal port in kb/s (R10). -/
def serviceKbps (p : Nat) : Nat :=
  match p with | 32 => 16000000 | 33 => 4000000 | 34 => 2000000 | 35 => 1000000 | 36 => 10000000 | _ => 8000000

/-- PORT_KBPS of a port (R160). -/
def State.portKbps (s : State) (p : Nat) : Nat :=
  if p < 32 then modeKbps (s.fld (.etp p) Etp.MODE_MODE) else serviceKbps p

/-- TX latency of a mode in ns (R44). -/
def txLatency (mode fec : Nat) : Nat :=
  match mode with | 0 => 64 | 1 => 64 | 2 => 32 | 3 => 28 | _ => if fec = 1 then 42 else 18

/-- RX latency of a mode in ns (R44). -/
def rxLatency (mode fec : Nat) : Nat :=
  match mode with | 0 => 96 | 1 => 96 | 2 => 48 | 3 => 40 | _ => if fec = 1 then 264 else 24

/-- The block grid G of a port, in ps; 0 for ports 32–37 (R180). -/
def State.gridPs (s : State) (p : Nat) : Nat :=
  if p < 32 then
    match s.fld (.etp p) Etp.MODE_MODE with
    | 0 => 8000 | 1 => 8000 | 2 => 3200 | 3 => 6400
    | _ => if s.fld (.etp p) Etp.MODE_FEC = 1 then 10240 else 2560
  else 0

/-- The QS period in ps at the frequency step QS runs at, rounded up: 800 ps nominal, stretched by k % (R13, R15). -/
def State.qsCyclesPs (s : State) (n : Nat) : Nat := ceilDiv (n * 80000) (100 - s.fld .clk (Clk.ISL_F_KNOW 6))

/-- LEAD of a port in ps (R180). -/
def State.leadPs (s : State) (p : Nat) : Nat :=
  if p < 32 then
    s.qsCyclesPs 16 + 7000 + 1000 * txLatency (s.fld (.etp p) Etp.MODE_MODE) (s.fld (.etp p) Etp.MODE_FEC)
  else s.qsCyclesPs 16

/-- A port has MACsec protection on transmit; on receive (R183, R370). -/
def State.txProtected (s : State) (p : Nat) : Bool := decide (p < 32) && s.tabF .msec 0 p 0 0 0 == 1

/-- A port has MACsec protection on receive (R370). -/
def State.rxProtected (s : State) (p : Nat) : Bool := decide (p < 32) && s.tabF .msec 0 p 0 1 1 == 1

/-- GROW of a port (R183). -/
def State.grow (s : State) (p : Nat) : Nat :=
  (if s.fabricPort p then 16 else 0) + (if s.flag .frer (Frer.PORT_CFG_RTAG_TX p) && p != 36 then 6 else 0) +
    (if s.txProtected p then 32 else 0)

/-! ## The schedule of a list (R181, R182) -/

/-- The parameters of a gate schedule: the list as (GATES, INTERVAL) pairs. -/
structure Sched where
  en : Bool
  guard : Bool
  dom : Nat
  cycle : Nat
  base : Nat
  list : List (Nat × Nat)
  deriving DecidableEq, Repr

/-- Address of entry `k` of the list of port `p` in bank `b` (R178). -/
def gateAddr (p b k : Nat) : Nat := 0x1C00000 + 0x4000 * p + 0x2000 * b + 8 * k

/-- The first `n` entries of a list bank. -/
def State.gateList (s : State) (p b n : Nat) : List (Nat × Nat) :=
  (List.range n).map (fun k => (s.mem.win.num (gateAddr p b k) 4 % 256, s.mem.win.num (gateAddr p b k + 4) 4))

/-- The 80-bit BASE as a count of ns. -/
def State.gateBase (s : State) (p off : Nat) : Nat :=
  (s.word (.tgate p) (Tgate.BASE_S_LO_S.off + off)).toNat * 10 ^ 9 +
    (s.word (.tgate p) (Tgate.BASE_S_HI_S.off + off)).toNat % 65536 * 2 ^ 32 * 10 ^ 9 +
    (s.word (.tgate p) (Tgate.BASE_NS_NS.off + off)).toNat % 2 ^ 30

/-- The active schedule of a port; with `sh` the schedule its shadow view and standby bank describe. -/
def State.sched (s : State) (p : Nat) (sh : Bool) : Sched :=
  let g (f : Fld) : Nat := s.fld (.tgate p) (if sh then f.sh else f)
  let act := s.fld (.tgate p) Tgate.LIST_STATUS_ACTIVE
  { en := g Tgate.GATE_CFG_GATE_EN == 1, guard := g Tgate.GATE_CFG_GUARD == 1, dom := g Tgate.GATE_CFG_DOMAIN
    cycle := g Tgate.CYCLE_TIME_NS, base := s.gateBase p (if sh then 0x700 else 0)
    list := s.gateList p (if sh then 1 - act else act) (g Tgate.LIST_LEN_LEN) }

/-- The segments (start, end, gates, entry) of one cycle: entries cut at the cycle's end, the last one's state held to it (R181). -/
def segsFrom (cycle : Nat) : Nat → Nat → List (Nat × Nat) → List (Nat × Nat × Nat × Nat)
  | _, _, [] => []
  | at', k, [(g, _)] => if at' < cycle then [(at', cycle, g, k)] else []
  | at', k, (g, i) :: t =>
    if cycle ≤ at' then []
    else (at', min cycle (at' + i), g, k) :: segsFrom cycle (at' + i) (k + 1) t

/-- The segments of one cycle of a schedule. -/
def Sched.segs (c : Sched) : List (Nat × Nat × Nat × Nat) := segsFrom c.cycle 0 0 c.list

/-- The position of a domain time in its cycle (R181). -/
def Sched.pos (c : Sched) (t : Nat) : Nat := (((t : Int) - c.base) % c.cycle).toNat

/-- The gates and the entry at a position. -/
def Sched.atPos (c : Sched) (x : Nat) : Nat × Nat :=
  match c.segs.find? (fun g => decide (g.1 ≤ x ∧ x < g.2.1)) with
  | some (_, _, g, k) => (g, k)
  | none => (0, 0)

/-- The time from domain time `t`, at which gate `cls` is open, to the first time it is closed; none for a window without end
(R182). -/
def Sched.windowLeft (c : Sched) (cls t : Nat) : Option Nat :=
  let x := c.pos t
  let closed := (c.segs.filter (fun g => !g.2.2.1.testBit cls)).map (fun g => g.1)
  match closed.find? (fun y => decide (x < y)) with
  | some y => some (y - x)
  | none => closed.head?.map (fun y => y + c.cycle - x)

/-- MAXWIN of a class in a schedule; none for a window without end, 0 for a class that is never open (R182, R185). -/
def Sched.maxwin (c : Sched) (cls : Nat) : Option Nat :=
  let opens := (c.segs.filter (fun g => g.2.2.1.testBit cls)).map (fun g => g.1)
  if (c.segs.all (fun g => g.2.2.1.testBit cls)) then none
  else some ((opens.map (fun x => (c.windowLeft cls (c.base + x)).getD 0)).foldl max 0)

/-! ## Pending change (R190, R191) -/

/-- The pending take-over time of a port, if a change is pending. -/
def State.gateCt (s : State) (p : Nat) : Option Nat := (s.dp.gates.get p).ct

/-- S: the last start of an old cycle at or before CT (R191). -/
def Sched.lastStart (c : Sched) (ct : Nat) : Nat := ct - c.pos ct

/-- The old cycle is extended to CT rather than cut (R191); EXT_NS is the new page's. -/
def State.gateExtends (s : State) (p ct : Nat) : Bool :=
  let c := s.sched p false
  let d := ct - c.lastStart ct
  c.en && decide (0 < d ∧ d ≤ s.fld (.tgate p) Tgate.EXT_NS_NS.sh)

/-- The gates and entry at domain time `t` under a schedule that may be about to end at CT (R181, R191). -/
def State.gatesAt (s : State) (p t : Nat) : Nat × Nat :=
  let c := s.sched p false
  if !c.en then (0xFF, 0)
  else match s.gateCt p with
    | some ct =>
      if s.gateExtends p ct ∧ c.lastStart ct ≤ t then (c.atPos (c.cycle - 1)) else c.atPos (c.pos t)
    | none => c.atPos (c.pos t)

/-- Domain time at which the window of `cls` that contains `t` ends; none for no end (R182). -/
def State.windowEnd (s : State) (p cls t : Nat) : Option Nat :=
  let c := s.sched p false
  let plain := if c.en then (c.windowLeft cls t).map (· + t) else none
  match s.gateCt p with
  | none => plain
  | some ct =>
    if s.gateExtends p ct then
      let st := c.lastStart ct
      let lastOpen := (c.atPos (c.cycle - 1)).1.testBit cls
      match plain with
      | some e => if e < st then some e else some (if lastOpen then ct else max t st)
      | none => some ct
    else match plain with
      | some e => some (min e ct)
      | none => some ct

/-- How a port's gates act now (R179): not at all, all closed, or by the length check or the guard. -/
inductive GateMode where
  | free | closed | timed (guard : Bool)
  deriving DecidableEq, Repr

/-- The gate mode of a port (R179). -/
def State.gateMode (s : State) (p : Nat) : GateMode :=
  let st := s.st (.tgate p)
  if st = 5 then .closed
  else if st = 0 ∨ st = 3 ∨ st = 4 then .free
  else if s.flag (.tgate p) Tgate.GATE_CFG_GATE_EN then .timed (s.flag (.tgate p) Tgate.GATE_CFG_GUARD)
  else if (s.gateCt p).isSome ∧ s.flag (.tgate p) Tgate.GATE_CFG_GATE_EN.sh then .timed (s.flag (.tgate p) Tgate.GATE_CFG_GUARD.sh)
  else .free

/-! ## Fit and guard (R183–R186) -/

/-- tx2 of a frame of `len` bytes (R183). -/
def tx2 (len grow kbps : Nat) : Nat :=
  let tx := ceilDiv ((len + grow + 20) * 8 * 1000000) kbps
  tx + ceilDiv tx 1024

/-- GUARD_NS of a port (R186). -/
def State.guardNs (s : State) (p : Nat) : Nat := tx2 (s.fld (.etp p) Etp.MAX_LEN_LEN) (s.grow p) (s.portKbps p)

/-- The guard band is in use at a port: its active values select it, or the pending change whose gates are open until CT does (R179, R186). -/
def State.guarded (s : State) (p : Nat) : Bool := s.flag (.tgate p) Tgate.GATE_CFG_GUARD || s.gateMode p == .timed true

/-- A time in ps rounded up to the port's grid, whose place the manual leaves open (R180). -/
def State.gridUp (s : State) (p t : Nat) : Nat :=
  let g := s.gridPs p
  if g = 0 then t else t + (Config.gridPhase p + g - t % g) % g

/-- ts in ps of domain time: when a copy decided now reaches the balls (R183). `wait` is the time in ps until the port can start a
frame, for a port with a frame in transmission. -/
def State.startPs (s : State) (p : Nat) (wait : Option Nat) : Nat :=
  let d := s.fld (.tgate p) Tgate.GATE_CFG_DOMAIN
  s.gridUp p (1000 * s.domNs d + wait.getD (s.leadPs p))

/-- A candidate of `len` bytes that would start at `ts` fits a window that ends at `stop`, by the guard or by its length (R183, R186). -/
def State.fitsWindow (s : State) (p len ts : Nat) (guard : Bool) (stop : Option Nat) : Bool :=
  match stop with
  | none => true
  | some e =>
    if guard then decide (ts + 1000 * s.guardNs p < 1000 * e)
    else decide (ts + 1000 * tx2 len (s.grow p) (s.portKbps p) ≤ 1000 * e)

/-- The schedule of a pending change admits a candidate that reaches the balls at its take-over or later: a gate that it opens at CT is decided at
CT − LEAD (R180). -/
def State.nextAdmits (s : State) (p cls len ts : Nat) : Bool :=
  let c := s.sched p true
  let t := ts / 1000
  !c.en || ((c.atPos (c.pos t)).1.testBit cls && s.fitsWindow p len ts c.guard ((c.windowLeft cls t).map (· + t)))

/-- Gate `cls` of port `p` admits a candidate of `len` bytes that would start at `ts` (R180, R183, R186). -/
def State.gateAdmits (s : State) (p cls len ts : Nat) : Bool :=
  match s.gateMode p with
  | .free => true
  | .closed => false
  | .timed guard =>
    let t := ts / 1000
    if (s.gateCt p).any (fun ct => decide (1000 * ct ≤ ts)) then s.nextAdmits p cls len ts
    else (s.gatesAt p t).1.testBit cls && s.fitsWindow p len ts guard (s.windowEnd p cls t)

/-- An ended candidate of `len` bytes can never fit a window of its class (R185). -/
def State.gateOversize (s : State) (p cls len : Nat) : Bool :=
  match s.gateMode p with
  | .timed false =>
    let need := tx2 len (s.grow p) (s.portKbps p)
    let tooLong (c : Sched) : Bool := c.en && (match c.maxwin cls with | some w => decide (w < need) | none => false)
    s.flag (.tgate p) Tgate.GATE_CFG_GATE_EN && tooLong (s.sched p false) &&
      (match s.gateCt p with | some _ => tooLong (s.sched p true) | none => true)
  | _ => false

/-- Gate `cls` of port `p` is open now: SVC_STATE.GATE_OPEN (R179). -/
def State.gateOpenNow (s : State) (p cls : Nat) : Bool :=
  match s.gateMode p with
  | .free => true
  | .closed => false
  | .timed _ => (s.gatesAt p (s.domNs (s.fld (.tgate p) Tgate.GATE_CFG_DOMAIN))).1.testBit cls

/-- A class is exclusive in a schedule: whenever its gate is open every other gate is closed (R207). -/
def Sched.excl (c : Sched) (cls : Nat) : Bool :=
  c.en && c.segs.all (fun g => !g.2.2.1.testBit cls || g.2.2.1 == 2 ^ cls)

/-- A gate of a class that is exclusive in the active list is open now (R256). -/
def State.exclusiveOpen (s : State) (p : Nat) : Bool :=
  match s.gateMode p with
  | .timed _ => (List.range 8).any (fun k => (s.sched p false).excl k && s.gateOpenNow p k)
  | _ => false

/-- Domain time of the next change of a port's gate states, where they change at all (R181). -/
def State.nextChange (s : State) (p : Nat) : Option Nat :=
  match s.gateMode p with
  | .timed _ =>
    let t := s.domNs (s.fld (.tgate p) Tgate.GATE_CFG_DOMAIN)
    let now := (s.gatesAt p t).1
    let ends := (List.range 8).filterMap (fun k => if now.testBit k then s.windowEnd p k t else none)
    let c := s.sched p false
    let opens := if c.en then
        (c.segs.filter (fun g => g.2.2.1 ≠ now)).map (fun g => if c.pos t < g.1 then t + (g.1 - c.pos t) else t + (g.1 + c.cycle - c.pos t))
      else []
    (ends ++ opens).foldl (fun m x => match m with | some y => some (min x y) | none => some x) none
  | _ => none

end Sys2Proof.Machine
end

