-- ==== Sys2Proof/Machine/Scheduler.lean ====
section
/-! DEFINITION. The scheduler: shapers, deficit round robin, eligibility, and the decision of a port (R149–R162). -/
namespace Sys2Proof.Machine

/-! ## Token buckets (R159, R161) -/

/-- SIZE of a token bucket in µb (R159). -/
def bucketSize (burst : Nat) : Nat := 8000000 * burst

/-- The count of a token bucket brought up to a time (R159). -/
def refill (tokens : Int) (rate burst last now : Nat) : Int :=
  min (bucketSize burst : Int) (tokens + ((rate * (now - last) : Nat) : Int))

/-- The charge of a frame of `len` bytes in µb (R159, R160). -/
def chargeMicro (len : Nat) : Int := ((8000000 * (len + 20) : Nat) : Int)

/-- RATE of a queue, and its BURST. -/
def State.qRate (s : State) (q : Nat) : Nat := s.tabF .qsch 0 q 1 24 0
def State.qBurst (s : State) (q : Nat) : Nat := s.tabF .qsch 0 q 2 23 0

/-- Tokens of a queue now. -/
def State.qTokens (s : State) (q : Nat) : Int :=
  refill (s.queue q).tokens (s.qRate q) (s.qBurst q) (s.queue q).last s.now

/-- SHAPE, RATE and BURST of a service node. -/
def State.shape (s : State) (n : Nat) : Nat := s.tabF .qsch 1 n 0 1 0
def State.nRate (s : State) (n : Nat) : Nat := s.tabF .qsch 1 n 1 24 0
def State.nBurst (s : State) (n : Nat) : Nat := s.tabF .qsch 1 n 2 23 0

/-- A service node's state. -/
def State.svc (s : State) (n : Nat) : SvcNode := s.dp.svcs.get n

/-- A service node's state changed. -/
def State.mapSvc (s : State) (n : Nat) (f : SvcNode → SvcNode) : State :=
  s.mapDp (fun d => { d with svcs := d.svcs.modify n f })

/-- Credit of a credit-based shaper, or tokens of a token bucket, now (R160, R161). A credit is brought up to date as each
nanosecond passes. -/
def State.nTokens (s : State) (n : Nat) : Int :=
  if s.shape n = 2 then refill (s.svc n).credit (s.nRate n) (s.nBurst n) (s.svc n).last s.now else (s.svc n).credit

/-- A port node's state, and its change. -/
def State.portNode (s : State) (p : Nat) : PortNode := s.dp.portNodes.get p
def State.mapPortNode (s : State) (p : Nat) (f : PortNode → PortNode) : State :=
  s.mapDp (fun d => { d with portNodes := d.portNodes.modify p f })

/-- Tokens of a port node now. -/
def State.pTokens (s : State) (p : Nat) : Int :=
  refill (s.portNode p).tokens (s.tabF .qsch 2 p 1 24 0) (s.tabF .qsch 2 p 2 23 0) (s.portNode p).last s.now

/-- A credit saturates at ±(2^47 − 1) (R160). -/
def satCredit (c : Int) : Int := max (-(2 ^ 47 - 1)) (min (2 ^ 47 - 1) c)

/-! ## Eligibility (R124, R153, R287) -/

/-- The pair gate is open (R287): in ACTIVE, in SOLO, and in DETACHED without PAIR_EN. -/
def State.pairGate (s : State) : Bool :=
  let r := s.fld .clsp Clsp.ROLE_STATUS_ROLE
  r == 4 || r == 5 || (r == 0 && !s.flag .clsp Clsp.PAIR_CFG_PAIR_EN)

/-- The pair gate governs a copy: it is of a paired context and its port is external (R286, R287). -/
def State.gated (s : State) (c : Copy) : Bool :=
  c.paired && decide (c.port < 32) && s.flag .clsp Clsp.PAIR_CFG_PAIR_EN

/-- The pair gate lets a copy pass (R287). -/
def State.pairLets (s : State) (c : Copy) : Bool := !s.gated c || s.pairGate

/-- The head copy of a queue is eligible: its frame is stored in full, or the copy leaves in cut-through (R52, R124), and the
pair gate does not hold it (R287). -/
def State.headReady (s : State) (c : Copy) : Bool :=
  ((s.frame c.frame).ended || c.cut == some true) && s.pairLets c

/-- A queue is eligible (R153). -/
def State.queueEligible (s : State) (q : Nat) : Bool :=
  match (s.queue q).copies.head? with
  | none => false
  | some c => s.headReady c && (s.qRate q == 0 || decide (0 ≤ s.qTokens q))

/-- The length a copy stands for: frame_len where the frame has ended, else the provisional L (R125, R154). A sample copy of a
longer frame is 128 bytes (R140). -/
def State.headLen (s : State) (c : Copy) : Nat :=
  let f := s.frame c.frame
  if f.ended then (if c.kind = .sample then min 128 f.bytes.length else f.bytes.length) else f.provLen

/-! ## Deficit round robin (R154) -/

/-- An eligible member of a round: its number, its quantum in bytes, its deficit, the length of its head. -/
structure Member where
  id : Nat
  quantum : Nat
  dc : Nat
  len : Nat
  deriving DecidableEq, Repr

/-- The eligible member that follows number `p`, wrapping to the lowest (R154). -/
def nextMember (ms : List Member) (p : Nat) : Option Member :=
  match ms.find? (fun m => decide (p < m.id)) with
  | some m => some m
  | none => ms.head?

/-- The loop of R154 past member `p`: each eligible member it moves to gains its quantum, and is taken where that covers its
head. -/
def dwrrLoop : Nat → List Member → Nat → Option (Nat × List Member)
  | 0, _, _ => none
  | fuel + 1, ms, p =>
    match nextMember ms p with
    | none => none
    | some m =>
      let dc := min (2 ^ 24 - 1) (m.dc + m.quantum)
      let ms := ms.map (fun x => if x.id = m.id then { x with dc } else x)
      if m.len ≤ dc then some (m.id, ms) else dwrrLoop fuel ms m.id

/-- select(n) over the eligible members in ascending order, from pointer `p`: the member taken and the members with their
deficits. -/
def dwrrSelect (ms : List Member) (p : Nat) : Option (Nat × List Member) :=
  let fuel := (ms.length + 1) * 200
  match ms.find? (fun m => m.id == p) with
  | some m => if m.len ≤ m.dc then some (p, ms) else dwrrLoop fuel ms p
  | none => dwrrLoop fuel ms p

/-- The eligible queues of a service node as members. -/
def State.queueMembers (s : State) (n : Nat) : List Member :=
  ((s.busyQueues n).filter s.queueEligible).map (fun q =>
    { id := q, quantum := 64 * s.tabF .qsch 0 q 0 23 16, dc := (s.queue q).deficit
      len := match (s.queue q).copies.head? with | some c => s.headLen c | none => 0 })

/-! ## Candidates and nodes (R153, R183–R187) -/

/-- The candidate of a service node: the copy, and the deficits of its eligible queues as the loop leaves them. -/
def State.candidate (s : State) (n : Nat) : Option (Copy × List Member) :=
  match dwrrSelect (s.queueMembers n) (s.svc n).ptr with
  | none => none
  | some (q, ms) => (s.queue q).copies.head?.map (fun c => (c, ms))

/-- Length a copy stands for after the edits of R248 and R269: what R57 takes for `length`. -/
def State.linkLen (s : State) (c : Copy) : Nat :=
  let f := s.frame c.frame
  ((s.headLen c : Int) + s.editGrow f c.kind c.port).toNat

/-- The credit of a lossless class at an external fabric port, or at port 37, covers the candidate (R57, R303). -/
def State.creditCovers (s : State) (p cls : Nat) (c : Copy) : Bool :=
  !(s.fabricPort p && decide (6 ≤ cls)) ||
    decide (cellsOf (s.linkLen c) ≤ s.fld (.etp p) (if cls = 6 then Etp.CREDIT_STATUS_CREDIT6 else Etp.CREDIT_STATUS_CREDIT7))

/-- A service node is eligible with its candidate, which would start at `ts` ps (R153). -/
def State.nodeEligible (s : State) (n : Nat) (c : Copy) (ts : Nat) : Bool :=
  (s.shape n == 0 || decide (0 ≤ s.nTokens n)) && s.gateAdmits (n / 8) (n % 8) (s.headLen c) ts &&
    s.creditCovers (n / 8) (n % 8) c

/-- A copy leaves its queue without starting and is discarded; an emptied queue keeps its deficit. -/
def State.dropHead (s : State) (c : Copy) : State := s.discardCopy c

/-- Candidates of a port's nodes that can never fit are discarded from the head of their queues, one at a time (R185). -/
def State.dropOversize (s : State) (p : Nat) : Nat → State
  | 0 => s
  | fuel + 1 =>
    let bad := (List.range 8).findSome? (fun k =>
      match s.candidate (8 * p + k) with
      | some (c, _) =>
        if (s.frame c.frame).ended && s.gateOversize p k (s.headLen c) then some c else none
      | none => none)
    match bad with
    | none => s
    | some c => State.dropOversize (((s.dropHead c).bump (.tgate p) Tgate.CNT_GATE_OVERSIZE).raise (.tgate p) 9) p fuel

/-- The nodes of a port that are eligible, with their candidates. -/
def State.eligibleNodes (s : State) (p ts : Nat) : List (Nat × Copy × List Member) :=
  (List.range 8).filterMap (fun k =>
    match s.candidate (8 * p + k) with
    | some (c, ms) => if s.nodeEligible (8 * p + k) c ts then some (k, c, ms) else none
    | none => none)

/-- The choice of a port among its eligible nodes (R155): strict priority, 7 highest; the nodes of WRR_MASK form one group that
stands at its highest member. Answers the node, its candidate, the deficits of its queues, and those of the group where the
group chose. -/
def State.choose (s : State) (p ts : Nat) : Option (Nat × Copy × List Member × Option (List Member)) :=
  let ns := s.eligibleNodes p ts
  let mask := s.tabF .qsch 2 p 0 7 0
  let group := ns.filter (fun x => mask.testBit x.1)
  let gms : List Member := group.map (fun x =>
    { id := x.1, quantum := 64 * s.tabF .qsch 1 (8 * p + x.1) 0 15 8, dc := (s.svc (8 * p + x.1)).deficit
      len := s.headLen x.2.1 })
  [7, 6, 5, 4, 3, 2, 1, 0].findSome? (fun k =>
    if mask.testBit k then
      if mask < 2 ^ (k + 1) then
        match dwrrSelect gms (s.portNode p).groupPtr with
        | some (j, ms) => (group.find? (fun x => x.1 == j)).map (fun x => (j, x.2.1, x.2.2, some ms))
        | none => none
      else none
    else (ns.find? (fun x => x.1 == k)).map (fun x => (k, x.2.1, x.2.2, none)))

/-- The port node is eligible (R153): its page in RUN or DRAINING, the link UP on ports 0–31, its shaper not in debt; and QSCH
itself selects only in RUN and DRAINING. -/
def State.portEligible (s : State) (p : Nat) : Bool :=
  let runs (pg : Page) : Bool := s.st pg == 1 || s.st pg == 2
  runs .qsch && runs (.etp p) && (!decide (p < 32) || s.fld (.etp p) Etp.LINK_STATUS_LST == 2) &&
    (s.tabF .qsch 2 p 0 8 8 == 0 || decide (0 ≤ s.pTokens p))

/-- A port's egress, and its change. -/
def State.egress (s : State) (p : Nat) : Egress := s.dp.egress.get p
def State.mapEgress (s : State) (p : Nat) (f : Egress → Egress) : State :=
  s.mapDp (fun d => { d with egress := d.egress.modify p f })

/-! ## MACsec packet numbers at the transmit start order (R372) -/

/-- TXSA entry of the encoding SA of port `p`. -/
def State.txSa (s : State) (p : Nat) : Nat := 4 * p + s.fld .msec (Msec.TX_AN_AN p)

/-- The suite of a port uses extended packet numbers (R370, R383). -/
def State.xpn (s : State) (p : Nat) : Bool := decide (2 ≤ s.tabF .msec 0 p 0 3 2)

/-- NEXT_PN of an entry of an SA table. -/
def State.nextPn (s : State) (table e : Nat) : Nat :=
  (s.tab .msec table e 1).toNat + 2 ^ 32 * (s.tab .msec table e 2).toNat

/-- The largest packet number of a port's suite. -/
def State.pnMax (s : State) (p : Nat) : Nat := if s.xpn p then 2 ^ 64 - 1 else 2 ^ 32 - 1

/-- PN_EVENT names the SA of the last threshold or exhaustion (R382). -/
def State.notePn (s : State) (p an sc : Nat) (rx : Bool) : State :=
  (((s.setFld .msec Msec.PN_EVENT_PORT p).setFld .msec Msec.PN_EVENT_AN an).setFld .msec Msec.PN_EVENT_SC sc).setFld .msec
    Msec.PN_EVENT_RX (b2n rx)

/-- NEXT_PN of an SA goes to `v` (R372, R373): past the largest number EXHAUSTED is set in receive, and where it passes the
threshold the event is raised and PN_EVENT names the SA. -/
def State.setNextPn (s : State) (table p an sc e v : Nat) (rx : Bool) : State :=
  let old := s.nextPn table e
  let th := if s.xpn p then s.wide .msec Msec.PN_THRESH64_LO_PN Msec.PN_THRESH64_HI_PN else s.fld .msec Msec.PN_THRESH32_PN
  let t := (s.setTab .msec table e 1 (BitVec.ofNat 32 v)).setTab .msec table e 2 (BitVec.ofNat 32 (v / 2 ^ 32))
  let t := if old ≤ th ∧ th < v then
      (t.notePn p an sc rx).raise .msec 8
    else t
  if rx ∧ s.pnMax p < v then ((t.setTabF .msec table e 0 30 30 1).notePn p an sc rx).raise .msec 9 else t

/-- The packet number of a copy to a protected port at its selection (R372): the copy with its SA and number, or none where the
copy is discarded. A copy that has its number keeps it. Past 2^64 - 1 NEXT_PN reads 0 with EXHAUSTED set. -/
def State.assignPn (s : State) (c : Copy) : Option Copy × State :=
  if !s.txProtected c.port ∨ c.pn.isSome then (some c, s)
  else
    let p := c.port
    let e := s.txSa p
    let pn := s.nextPn 1 e
    if s.tabF .msec 1 e 0 31 31 = 0 then (none, (s.dropHead c).bumpTab .msec 8 p 10)
    else if s.pnMax p < pn ∨ (pn = 0 ∧ s.tabF .msec 1 e 0 30 30 = 1) then
      (none, ((((s.dropHead c).bumpTab .msec 8 p 11).setTabF .msec 1 e 0 30 30 1).notePn p (e % 4) 0 false).raise .msec 9)
    else
      let t := s.setNextPn 1 p (e % 4) 0 e (pn + 1) false
      let t := if pn = 2 ^ 64 - 1 then t.setTabF .msec 1 e 0 30 30 1 else t
      (some { c with pn := some (e, pn) }, t)

/-! ## The decision (R156) -/

/-- A selection kept for the port: the copy, and what the loop added to deficits, to be kept when it starts (R154). -/
def State.keepSelection (s : State) (p k : Nat) (c : Copy) (ms : List Member) (gms : Option (List Member)) : State :=
  let s := s.mapQueue c.queue (fun q => { q with copies := match q.copies with | [] => [] | _ :: t => c :: t })
  s.mapEgress p (fun e =>
    { e with
      selected := some c, qDef := ms.map (fun m => (m.id, m.dc - (s.queue m.id).deficit)), qPtr := c.queue
      sDef := (gms.getD []).map (fun m => (8 * p + m.id, m.dc - (s.svc (8 * p + m.id)).deficit)), sPtr := gms.map (fun _ => k) })

/-- The selection at a decision point, made again while the copy taken is discarded for want of a packet number. -/
def State.pickCopy (s : State) (p ts : Nat) : Nat → State
  | 0 => s
  | fuel + 1 =>
    match s.choose p ts with
    | none => s
    | some (k, c, ms, gms) =>
      match s.assignPn c with
      | (some c, t) => t.keepSelection p k c ms gms
      | (none, t) => State.pickCopy t p ts fuel

/-- A decision point of a port (R156). `wait` is the time in ps until the port can start a frame where one is in transmission. A
selection already made is final. -/
def State.schedDecision (s : State) (p wait : Nat) : State :=
  if (s.egress p).selected.isSome || !s.portEligible p then s
  else
    let fuel := (s.copiesAt p).length + 1
    let s := s.dropOversize p fuel
    s.pickCopy p (s.startPs p ((s.egress p).sending.map (fun _ => wait))) fuel

/-! ## The start of a copy: charges and deficits (R154, R159, R160) -/

/-- A deficit that rises by `n` bytes saturates at 2^24 − 1 (R154). -/
def raiseDeficit (dc n : Nat) : Nat := min (2 ^ 24 - 1) (dc + n)

/-- What a selection added to deficits is kept, and the queue's lowered by the head's length, as the node's is where the group chose (R154). -/
def State.startDeficits (s : State) (c : Copy) (len : Nat) : State :=
  let e := s.egress c.port
  match s.nodeOf c.queue with
  | none => s
  | some n =>
    let s := s.each e.qDef (fun s x => s.mapQueue x.1 (fun q => { q with deficit := raiseDeficit q.deficit x.2 }))
    let s := s.mapSvc n (fun v => { v with ptr := e.qPtr })
    let s := s.mapQueue c.queue (fun q => { q with deficit := if q.copies.isEmpty then 0 else q.deficit - len })
    match e.sPtr with
    | none => s
    | some k =>
      let s := s.each e.sDef (fun s x => s.mapSvc x.1 (fun v => { v with deficit := raiseDeficit v.deficit x.2 }))
      let s := s.mapPortNode c.port (fun v => { v with groupPtr := k })
      s.mapSvc n (fun v => { v with deficit := if (s.busyQueues n).isEmpty then 0 else v.deficit - len })

/-- The shapers of a copy's queue, node and port change by `d` µb now; a bucket saturates at its size. -/
def State.chargeShapers (s : State) (c : Copy) (d : Int) : State :=
  let q := c.queue
  let s := if s.qRate q = 0 then s else
    s.mapQueue q (fun x => { x with tokens := min (bucketSize (s.qBurst q) : Int) (s.qTokens q + d), last := s.now })
  let s := match s.nodeOf q with
    | none => s
    | some n =>
      match s.shape n with
      | 1 => s.mapSvc n (fun v => { v with credit := satCredit (v.credit + d) })
      | 2 => s.mapSvc n (fun v =>
          { v with credit := min (bucketSize (s.nBurst n) : Int) (s.nTokens n + d), last := s.now })
      | _ => s
  if s.tabF .qsch 2 c.port 0 8 8 = 1 then
    s.mapPortNode c.port (fun v =>
      { v with tokens := min (bucketSize (s.tabF .qsch 2 c.port 2 23 0) : Int) (s.pTokens c.port + d), last := s.now })
  else s

/-- At the end of a frame charged at a provisional length, the difference returns to the shapers, to the queue's deficit and, where the port's
group chose the copy, to its node's (R154, R159, R160). -/
def State.endCharges (s : State) (c : Copy) (charged len : Nat) (grouped : Bool) : State :=
  if charged ≤ len then s
  else
    let s := s.chargeShapers c ((8000000 * (charged - len) : Nat) : Int)
    let s := s.mapQueue c.queue (fun q => { q with deficit := raiseDeficit q.deficit (charged - len) })
    match s.nodeOf c.queue with
    | some n => if grouped then s.mapSvc n (fun v => { v with deficit := raiseDeficit v.deficit (charged - len) }) else s
    | none => s

/-! ## Credit over time (R160) -/

/-- The service nodes that run a credit-based shaper. -/
def State.cbsNodes (s : State) : List Nat :=
  s.tabs.cells.filterMap (fun c =>
    if tabKey .qsch 1 0 0 ≤ c.1 ∧ c.1 < tabKey .qsch 1 304 0 ∧ c.1 % 32 = 0 ∧ bitsOf c.2.toNat 1 0 = 1 then
      some ((c.1 - tabKey .qsch 1 0 0) / 32)
    else none)

/-- A node has a frame in transmission. -/
def State.nodeSending (s : State) (n : Nat) : Bool :=
  match (s.egress (n / 8)).sending with
  | some c => s.nodeOf c.queue == some n
  | none => false

/-- The credit of a node after one nanosecond (R160). -/
def State.creditTick (s : State) (n : Nat) : State :=
  let c := (s.svc n).credit
  if !s.gateOpenNow (n / 8) (n % 8) then s
  else if s.nodeSending n ∨ (s.busyQueues n).any s.queueEligible then
    s.mapSvc n (fun v => { v with credit := satCredit (c + (s.nRate n : Int)) })
  else if 0 < c then s.mapSvc n (fun v => { v with credit := 0 })
  else s.mapSvc n (fun v => { v with credit := min 0 (c + (s.nRate n : Int)) })

/-- An idle node loses a positive credit at once (R160). -/
def State.creditIdle (s : State) (n : Nat) : State :=
  if s.shape n = 1 ∧ 0 < (s.svc n).credit ∧ !s.nodeSending n ∧ !(s.busyQueues n).any s.queueEligible ∧
      s.gateOpenNow (n / 8) (n % 8) then
    s.mapSvc n (fun v => { v with credit := 0 })
  else s

/-- Every credit-based shaper after one nanosecond. -/
def State.creditsTick (s : State) : State := s.each s.cbsNodes State.creditTick

/-- When LST leaves UP: credits of the port to 0, its token buckets full (R158). -/
def State.shapersLinkLost (s : State) (p : Nat) : State :=
  let s := s.each (List.range 8) (fun s k =>
    let n := 8 * p + k
    match s.shape n with
    | 1 => s.mapSvc n (fun v => { v with credit := 0 })
    | 2 => s.mapSvc n (fun v => { v with credit := (bucketSize (s.nBurst n) : Int), last := s.now })
    | _ => s)
  let qs := s.tabs.cells.filterMap (fun c =>
    if tabKey .qsch 0 0 0 ≤ c.1 ∧ c.1 < tabKey .qsch 0 4096 0 ∧ c.1 % 32 = 1 then some ((c.1 - tabKey .qsch 0 0 0) / 32) else none)
  let s := s.each (qs.filter (fun q => s.tabF .qsch 0 q 0 5 0 == p)) (fun s q =>
    s.mapQueue q (fun x => { x with tokens := (bucketSize (s.qBurst q) : Int), last := s.now }))
  s.mapPortNode p (fun v => { v with tokens := (bucketSize (s.tabF .qsch 2 p 2 23 0) : Int), last := s.now })

end Sys2Proof.Machine
end

