-- ==== Sys2Proof/Machine/Fabric.lean ====
section
/-! DEFINITION. The fabric: the check of R252, the credit of R254–R257, failover, and the sequence functions (R246–R277). -/
namespace Sys2Proof.Machine

/-! ## Tables (R272) -/

/-- PORTS of a ROUTE entry (table 1) or an MGRP entry (table 2), port 37 included. -/
def State.fabPorts (s : State) (table e : Nat) : Nat :=
  (s.tab .fab table e 0).toNat + 2 ^ 37 * s.tabF .fab table e 1 0 0

/-- VALID of a ROUTE or MGRP entry. -/
def State.fabValid (s : State) (table e : Nat) : Bool := s.tabF .fab table e 1 31 31 == 1

/-- The neighbour of a port: none where its NBR entry is not valid. -/
def State.neighbour (s : State) (p : Nat) : Option Nat :=
  if s.tabF .fab 3 p 0 31 31 = 1 then some (s.tabF .fab 3 p 0 3 0) else none

/-- NODE.VALID. -/
def State.nodeValid (s : State) : Bool := s.flag .fab Fab.NODE_VALID

/-! ## The header of a pass (R248, R251) -/

/-- Whether a header was received on a fabric port, written by software, recorded at decapsulation, or absent. -/
inductive HeaderKind where
  | received | software | decap | absent
  deriving DecidableEq, Repr

/-- The kind of header a frame's pass has. -/
def State.headerKind (s : State) (f : Frame) : HeaderKind :=
  if f.hasHeader then .received else if s.softHeader f then .software else if f.decap.isSome then .decap else .absent

/-- The header the checks of R252 read: the recorded SRC and HOPS stand in for those of a decapsulated frame, whatever header its second pass
carries (R251). -/
def State.checkedHeader (s : State) (f : Frame) : Barost :=
  match f.decap with
  | some d => if s.headerKind f = .decap then { src := d.src, hops := d.hops } else { readBarost f.bytes 12 with src := d.src, hops := d.hops }
  | none => readBarost f.bytes 12

/-- The destination of an originated copy (R249): MC and DST of the QTAG entry, else the neighbour; none where its NBR entry is
not valid. The last component says that the neighbour gave it. -/
def State.originDst (s : State) (q e : Nat) : Option (Bool × Nat × Bool) :=
  if s.tabF .fab 0 q 0 31 31 = 1 then some (s.tabF .fab 0 q 0 12 12 == 1, s.tabF .fab 0 q 0 11 0, false)
  else (s.neighbour e).map (fun n => (false, n, true))

/-- The destination of a copy to fabric port `e`: the header's where the copy carries one, else the one it would be given. -/
def State.copyDst (s : State) (f : Frame) (q e : Nat) : Option (Bool × Nat × Bool) :=
  match s.headerKind f with
  | .received => some ((readBarost f.bytes 12).mc == 1, (readBarost f.bytes 12).dst, false)
  | .software => some ((readBarost f.bytes 12).mc == 1, (readBarost f.bytes 12).dst, false)
  | _ => s.originDst q e

/-! ## Fabric check (R252) -/

/-- A pass without its copies to fabric ports. -/
def State.dropFabric (s : State) (r : Pass) : Pass := { r with dests := r.dests.filter (fun p => !s.fabricPort p) }

/-- How many copies a pass has to fabric ports. -/
def State.fabricCount (s : State) (r : Pass) : Nat := (r.dests.filter s.fabricPort).length

/-- A pass without its destination and RECIRC copies. -/
def Pass.clear (r : Pass) : Pass := { r with dests := [], recirc := none }

/-- The queue of a destination copy of a pass to port `e`. -/
def State.destQueue (s : State) (r : Pass) (e : Nat) : Nat := s.queueFor r .dest e

/-- Check 6: the copy needs origination and cannot be given a header. -/
def State.noOrigin (s : State) (f : Frame) (r : Pass) (e : Nat) : Bool :=
  let k := s.headerKind f
  (k == .absent || k == .decap) && (!s.nodeValid || (s.originDst (s.destQueue r e) e).isNone)

/-- Check 7: the route does not let the copy go this way. A node stands in DST[3:0], and reserved bits are not checked (R246, R247). -/
def State.routePruned (s : State) (f : Frame) (r : Pass) (e : Nat) : Bool :=
  match s.copyDst f (s.destQueue r e) e with
  | some (false, d, false) =>
    d % 16 == s.fld .fab Fab.NODE_ID || !s.fabValid 1 (d % 16) || !(s.fabPorts 1 (d % 16)).testBit e
  | _ => false

/-- Check 8: the group does not let the copy go this way. -/
def State.groupPruned (s : State) (f : Frame) (r : Pass) (e : Nat) : Bool :=
  match s.copyDst f (s.destQueue r e) e with
  | some (true, g, _) => !s.fabValid 2 (g % 4096) || !(s.fabPorts 2 (g % 4096)).testBit e
  | _ => false

/-- A per-copy check: the copies to fabric ports that fail it leave the pass, each counted. -/
def State.pruneCopies (s : State) (r : Pass) (cnt : Nat) (bad : Nat → Bool) : Pass × State :=
  let gone := r.dests.filter (fun p => s.fabricPort p && bad p)
  ({ r with dests := r.dests.filter (fun p => !(s.fabricPort p && bad p)) },
   if gone = [] then s else s.bump .fab cnt gone.length)

/-- Checks 4 to 8 of R252. A copy that a word which cannot be read governs is removed as R272 says; without a node of its own the device reads
none. -/
def State.fabricRoutes (s : State) (f : Frame) (r : Pass) (bad : List Nat) : Pass × State :=
  let k := s.headerKind f
  let h := s.checkedHeader f
  if k ≠ .absent ∧ h.type = 0 ∧ h.src = s.fld .fab Fab.NODE_ID ∧ s.nodeValid then
    (r.clear, (s.bump .fab Fab.CNT_LOOP_DROPS).raise .fab 9)
  else
    let expired := decide (k ≠ .absent ∧ h.hops = 0)
    let s := if expired ∧ 0 < s.fabricCount r then s.raise .fab 10 else s
    let (r, s) := s.pruneCopies r Fab.CNT_HOP_EXPIRED (fun _ => expired)
    let unreadable (e : Nat) : Bool := bad.contains e
    let (r, s) := s.pruneCopies r Fab.CNT_NO_ORIGIN (fun e => s.noOrigin f r e && !(s.nodeValid && unreadable e))
    let s := s.each (r.dests.filter (fun e => s.fabricPort e && unreadable e)) (fun s _ => s.logErr .fab 5 srcDevice)
    let (r, s) := s.pruneCopies r Fab.CNT_ROUTE_PRUNED (fun e => unreadable e || s.routePruned f r e)
    s.pruneCopies r Fab.CNT_MC_PRUNED (s.groupPruned f r)

/-- The fabric check of a pass (R252). `bad` lists the egress ports whose FAB table words read with an uncorrectable error
(R272). A check that removes the last destination copy ends the checking. -/
def State.fabricCheck (s : State) (r : Pass) (bad : List Nat) : Pass × State :=
  let f := s.frame r.frame
  let k := s.headerKind f
  let h := s.checkedHeader f
  let had := !r.dests.isEmpty
  let off := !s.inRun .fab
  let n := s.fabricCount r
  let s := if off ∧ 0 < n then s.bump .fab Fab.CNT_FAB_OFF n else s
  let r := if off then s.dropFabric r else r
  if off ∧ had ∧ r.dests.isEmpty then (r, s)
  else
    let hdrBad (s : State) : State := (s.bump .fab Fab.CNT_HDR_BAD).raise .fab 8
    if k = .received ∧ f.pass = 0 ∧ !barostValid f.bytes 12 then (r.clear, hdrBad s)
    else
      let credit := decide (k = .software ∧ h.type = 1)
      let s := if credit then hdrBad s else s
      let had := !r.dests.isEmpty
      let r := if credit then s.dropFabric r else r
      if credit ∧ had ∧ r.dests.isEmpty then (r, s)
      else if k = .received ∧ h.type = 2 then (s.dropFabric r, s)
      else if k = .software ∧ h.type = 2 then (r, s)
      else s.fabricRoutes f r bad

/-! ## Sequence recovery (R263–R268) -/

/-- Counter `i` of function `n`: PASSED, DISCARDED, OUT_OF_ORDER, ROGUE, LOST, TAGLESS, RESETS, REVOKED, LATENT_ERRORS (R275). -/
def State.frerCount (s : State) (n i : Nat) (k : Nat := 1) : State := s.bumpTab .frer 2 n i k

/-- A function's configuration: MODE, HIST_LEN, TAKE_NO_SEQ (R275). -/
def State.frerMode (s : State) (n : Nat) : Nat := s.tabF .frer 0 n 0 1 0
def State.histLen (s : State) (n : Nat) : Nat := s.tabF .frer 0 n 0 15 8

/-- A function's state, and its change. -/
def State.frerFn (s : State) (n : Nat) : FrerFn := s.frer.get n
def State.mapFrer (s : State) (n : Nat) (f : FrerFn → FrerFn) : State := { s with frer := s.frer.modify n f }

/-- The number of 0 bits of `h` from bit `a` to bit `b`. -/
def popcount0 (h a b : Nat) : Nat := ((List.range (b + 1)).filter (fun i => decide (a ≤ i) && !h.testBit i)).length

/-- A pass of a function: counted, and its last-pass time set (R265). -/
def State.frerPass (s : State) (n : Nat) (f : FrerFn → FrerFn) : State :=
  (s.mapFrer n (fun x => { f x with last := s.now, passed := (x.passed + 1) % 65536 })).frerCount n 0

/-- A discard of a function: counted under `i`, and in the period's D (R267). -/
def State.frerDiscard (s : State) (n i : Nat) : State :=
  (s.mapFrer n (fun x => { x with discarded := (x.discarded + 1) % 65536 })).frerCount n i

/-- The vector algorithm (R265). Answers whether the pass is passed. -/
def State.frerVector (s : State) (n seq : Nat) : Bool × State :=
  let f := s.frerFn n
  let len := s.histLen n
  if f.takeAny then (true, s.frerPass n (fun x => { x with recov := seq, hist := 1, takeAny := false }))
  else
    let d := signed 16 ((seq + 65536 - f.recov) % 65536)
    if (len : Int) ≤ d ∨ d ≤ -(len : Int) then (false, (s.frerDiscard n 3).raise .frer 8)
    else if d ≤ 0 then
      if f.hist.testBit (-d).toNat then (false, s.frerDiscard n 1)
      else (true, (s.frerPass n (fun x => { x with hist := x.hist ||| 2 ^ (-d).toNat })).frerCount n 2)
    else
      let lost := popcount0 f.hist (len - d.toNat) (len - 1)
      let s := if lost = 0 then s else s.frerCount n 4 lost
      (true, s.frerPass n (fun x => { x with hist := (x.hist * 2 ^ d.toNat + 1) % 2 ^ len, recov := seq }))

/-- The match algorithm (R266). -/
def State.frerMatch (s : State) (n seq : Nat) : Bool × State :=
  let f := s.frerFn n
  if !f.takeAny ∧ seq = f.recov then (false, s.frerDiscard n 1)
  else
    let s := if !f.takeAny ∧ seq ≠ (f.recov + 1) % 65536 then s.frerCount n 2 else s
    (true, s.frerPass n (fun x => { x with recov := seq, takeAny := false }))

/-- A function is reset: TAKE_ANY = 1 and H = 0; with `counts`, P and D return to 0 as well (R267, R270). -/
def State.frerReset (s : State) (n : Nat) (counts : Bool) : State :=
  s.mapFrer n (fun x =>
    { x with
      takeAny := true, hist := 0, passed := if counts then 0 else x.passed, discarded := if counts then 0 else x.discarded })

/-- The check of a frame that function `n` has not passed yet (R263, R264). -/
def State.frerDecide (s : State) (r : Pass) (n : Nat) : Bool × State :=
  let f := s.frame r.frame
  let seq := if f.hasRtag then some (beAt r.key 24 2) else none
  let keep (ok : Bool) (v : Option Nat) (s : State) : Bool × State :=
    (ok, if ok then s.setFrame r.frame { s.frame r.frame with frer := some (n, v) } else s)
  match s.frerMode n, seq with
  | 0, _ => (true, s)
  | 1, some _ => (true, s)
  | 1, none =>
    let g := (s.frerFn n).genSeq
    let s := (s.mapFrer n (fun x => { x with genSeq := (g + 1) % 65536 })).bump .frer Frer.CNT_GENERATED
    (true, s.setFrame r.frame { f with seq := some g, frer := some (n, some g) })
  | _, none => if s.tabF .frer 0 n 0 4 4 = 1 then keep true none (s.frerCount n 5) else (false, s.frerDiscard n 5)
  | 2, some v => let (ok, s) := s.frerVector n v; keep ok (some v) s
  | _, some v => let (ok, s) := s.frerMatch n v; keep ok (some v) s

/-- The function of a pass, with `bad` where its state read with an uncorrectable error (R263, R270). Answers whether the pass
goes on. A frame that the same function has passed already passes without a check. -/
def State.frerRun (s : State) (r : Pass) (n : Nat) (bad : Bool) : Bool × State :=
  let s := if bad then (((s.frerReset n true).frerCount n 6).logErr .frer 5 srcDevice n) else s
  match (s.frame r.frame).frer with
  | some (m, _) => if m = n then (true, s) else s.frerDecide r n
  | none => s.frerDecide r n

/-- A function withdraws its acceptance of a frame that is discarded before its end (R268). A pass without an R-tag passed without a change of
state (R264): there is nothing to withdraw. -/
def State.frerRevoke (s : State) (f : Frame) : State :=
  match f.frer with
  | some (n, some seq) =>
    let x := s.frerFn n
    match s.frerMode n with
    | 2 =>
      let i := (x.recov + 65536 - seq) % 65536
      let s := if i < s.histLen n then s.mapFrer n (fun x => { x with hist := x.hist - (x.hist &&& 2 ^ i) }) else s
      (s.frerCount n 7).raise .frer 11
    | 3 =>
      let s := if x.recov = seq then s.mapFrer n (fun x => { x with takeAny := true }) else s
      (s.frerCount n 7).raise .frer 11
    | _ => s
  | _ => s

/-- One visit of the scanner to a function (R267). A function that already stands reset is not reset again. -/
def State.frerVisit (s : State) (n : Nat) : State :=
  let mode := s.frerMode n
  if mode < 2 then s
  else
    let x := s.frerFn n
    let s := if x.last + 1000000 * s.tabF .frer 0 n 1 15 0 ≤ s.now ∧ (!x.takeAny ∨ x.hist ≠ 0) then
        ((s.frerReset n false).frerCount n 6).raise .frer 10
      else s
    let paths := s.tabF .frer 0 n 2 3 0
    let period := 1000000 * s.tabF .frer 0 n 2 31 16
    if 2 ≤ paths ∧ 0 < period ∧ s.now / period ≠ s.frerScan / period then
      let lat := decide ((s.tabF .frer 0 n 3 15 0 : Int) < (((paths - 1) * x.passed : Nat) : Int) - x.discarded)
      let s := if lat then (s.frerCount n 8).raise .frer 9 else s
      s.mapFrer n (fun x => { x with passed := 0, discarded := 0 })
    else s

/-! ## Credit (R59, R131, R254–R257) -/

/-- Key of the credit figures of port `p` and class `c`. -/
def creditKey (p c : Nat) : Nat := 8 * p + c

/-- CREDIT_STATUS of a class. -/
def creditFld (c : Nat) : Fld := if c = 6 then Etp.CREDIT_STATUS_CREDIT6 else Etp.CREDIT_STATUS_CREDIT7

/-- GRANTED of a class rises as far as R131 lets it: to the HEADROOM that neither the credit outstanding nor the headroom in use
takes. -/
def State.refreshGrant (s : State) (p c : Nat) : State :=
  let k := creditKey p c
  let room := s.fld (.etp p) Etp.HEADROOM_CELLS
  let out := (s.dp.granted.get k + 65536 - s.dp.received.get k) % 65536
  let used := s.dp.hrUsed.get k
  if out + used < room then
    s.mapDp (fun d => { d with granted := d.granted.set k ((s.dp.received.get k + room - used) % 65536) })
  else s

/-- The credit counters of both classes of a port are cleared (R59, R257). -/
def State.clearCredit (s : State) (p : Nat) : State :=
  s.each [6, 7] (fun s c =>
    let k := creditKey p c
    (s.mapDp (fun d =>
      { d with granted := d.granted.set k 0, received := d.received.set k 0, used := d.used.set k 0 })).setFld
      (.etp p) (creditFld c) 0)

/-- INTERVAL of a port in ns (R59, R301). -/
def State.creditInterval (s : State) (p : Nat) : Nat := if p = 37 then 1000 else s.fld (.etp p) Etp.CREDIT_CFG_INTERVAL

/-- Grants that arrive at a port in a valid header or an accepted heartbeat (R254–R257, R301). -/
def State.creditArrives (s : State) (p : Nat) (crst : Bool) (g6 g7 : Nat) : State :=
  let s := if crst ∧ s.dp.upAt.get p + 2 * s.creditInterval p < s.now then
      ((s.clearCredit p).bump .fab Fab.CNT_CREDIT_RESYNC).raise .fab 12
    else s
  let s := s.mapDp (fun d => { d with crst := d.crst.set p false })
  s.each [(6, g6), (7, g7)] (fun s x =>
    let g := (x.2 + 65536 - s.dp.used.get (creditKey p x.1)) % 65536
    if g ≤ 4095 then
      let s := if 0 < g then s.mapDp (fun d => { d with stalled := d.stalled.set (creditKey p x.1) false }) else s
      s.setFld (.etp p) (creditFld x.1) g
    else (s.bump .fab Fab.CNT_GRANT_BAD).raise .fab 14)

/-- The grants of a port are brought up to date and carried in a header (R254, R257). -/
def State.grantHeader (s : State) (p : Nat) (h : Barost) : Barost × State :=
  let s := (s.refreshGrant p 6).refreshGrant p 7
  ({ h with grant6 := s.dp.granted.get (creditKey p 6), grant7 := s.dp.granted.get (creditKey p 7)
            crst := b2n (s.dp.crst.get p) }, s)

/-- The cells of credit that a frame of class `c` and `len` bytes uses at port `p` (R57). -/
def State.creditCells (s : State) (p c len : Nat) : Nat := if s.fabricPort p ∧ 6 ≤ c then cellsOf len else 0

/-- The sender's use of `n` cells of credit at the start of a lossless frame (R57, R255). -/
def State.useCredit (s : State) (p c n : Nat) : State :=
  if n = 0 then s
  else
    (s.mapDp (fun d => { d with used := d.used.modify (creditKey p c) (fun u => (u + n) % 65536) })).setFld (.etp p)
      (creditFld c) (s.fld (.etp p) (creditFld c) - n)

/-- A cut-through frame of a lossless class used `n` cells more at its start than its length needs: they are given back at its end, so that
USED counts ceil(length / 128) for it (R57, R255; DEDUCED, log entry 90). -/
def State.giveBackCredit (s : State) (p c n : Nat) : State :=
  if n = 0 then s
  else
    (s.mapDp (fun d => { d with used := d.used.modify (creditKey p c) (fun u => (u + 65536 - n) % 65536) })).setFld (.etp p)
      (creditFld c) (min 65535 (s.fld (.etp p) (creditFld c) + n))

/-- A lossless frame's cells are received at its ingress (R131). -/
def State.creditReceived (s : State) (f : Frame) : State :=
  match f.lossless with
  | none => s
  | some c =>
    s.mapDp (fun d =>
      { d with received := d.received.modify (creditKey f.current c) (fun r => (r + cellsOf f.bytes.length) % 65536) })

/-! ## Failover (R253) -/

/-- A port is UP for the purposes of failover: its page in RUN and its link UP. -/
def State.portUp (s : State) (p : Nat) : Bool := s.inRun (.etp p) && s.fld (.etp p) Etp.LINK_STATUS_LST == 2

/-- The first entry after `e`, modulo 512, whose PORT is among `ports` and is UP (R253). -/
def State.nextUp (s : State) (t e ports : Nat) : Option Nat :=
  ((List.range 511).map (fun i => s.indirection t ((e + 1 + i) % 512) % 64)).find? (fun q => ports.testBit q && s.portUp q)

/-- The scan of an indirection table for the entries that name port `p` (R253). Answers how many it rewrote. -/
def State.scanTable (s : State) (t p ports : Nat) : Nat × State :=
  (List.range 512).foldl (fun (n, s) e =>
    let w := s.indirection t e
    if w.testBit 15 ∧ w % 64 = p then
      let q := match s.nextUp t e ports with
        | some q => some q
        | none => (portsOf ports).find? s.portUp
      let w := match q with | some q => w - w % 64 + q | none => w - 2 ^ 15
      (n + 1, { s with mem := { s.mem with win := s.mem.win.putNum (0x1910000 + 0x800 * t + 4 * e) 4 w } })
    else (n, s)) (0, s)

/-- The failover of FAB when port `p` has left UP or RUN (R253). -/
def State.failover (s : State) (p : Nat) : State :=
  if s.flag .fab Fab.FAB_CFG_FAILOVER_EN then
    let nodes := (List.range 16).filter (fun d => s.fabValid 1 d && s.tabF .fab 1 d 1 15 15 == 1)
    let (_, n, s) := nodes.foldl (fun (seen, n, s) d =>
      let t := s.tabF .fab 1 d 1 11 8
      if (seen : List Nat).contains t then (seen, n, s)
      else
        let (k, s) := s.scanTable t p (s.fabPorts 1 d)
        (t :: seen, n + k, s)) (([] : List Nat), 0, s)
    (s.bump .fab Fab.CNT_REROUTES n).raise .fab 11
  else s

end Sys2Proof.Machine
end

