-- ==== Sys2Proof/Machine/Primitives.lean ====
section
/-! DEFINITION. The primitives that the manual names by their standards and does not define: the AES block (FIPS 197, R361), SHA-384
(FIPS 180-4, R451) and the check of an ECDSA signature over P-384 (FIPS 186-5, R451). PRESUMED: written from those standards. -/
namespace Sys2Proof.Machine

/-! ## AES -/

/-- The S-box: entry `x` is byte `x` of the number. -/
def aesSBox : Nat :=
  0x16BB54B00F2D99416842E6BF0D89A18CDF2855CEE9871E9B948ED9691198F8E19E1DC186B95735610EF6034866B53E708A8BBD4B1F74DDE8C6B4A61C2E2578BA08AE7A65EAF4566CA94ED58D6D37C8E779E4959162ACD3C25C2406490A3A32E0DB0B5EDE14B8EE4688902A22DC4F816073195D643D7EA7C41744975FEC130CCDD2F3FF1021DAB6BCF5389D928F40A351A89F3C507F02F94585334D43FBAAEFD0CF584C4A39BECB6A5BB1FC20ED00D153842FE329B3D63B52A05A6E1B1A2C830975B227EBE28012079A059618C323C7041531D871F1E5A534CCF73F362693FDB7C072A49CAFA2D4ADF04759FA7DC982CA76ABD7FE2B670130C56F6BF27B777C63
/-- The inverse S-box. -/
def aesInvSBox : Nat :=
  0x7D0C2155631469E126D677BA7E042B17619953833CBBEBC8B0F52AAE4D3BE0A0EF9CC9939F7AE52D0D4AB519A97F51605FEC8027591012B131C7078833A8DD1FF45ACD78FEC0DB9A2079D2C64B3E56FC1BBE18AA0E62B76F89C5291D711AF1476EDF751CE837F9E28535ADE72274AC9673E6B4F0CECFF297EADC674F4111913A6B8A130103BDAFC1020F3FCA8F1E2CD00645B3B80558E4F70AD3BC8C00ABD890849D8DA75746155EDAB9EDFD5048706C92B6655DCC5CA4D41698688664F6F87225D18B6D49A25B76B224D92866A12E084EC3FA420B954CEE3D23C2A632947B54CBE9DEC444438E3487FF2F9B8239E37CFBD7F3819EA340BF38A53630D56A0952

/-- A byte through a box; a byte times 2, times `k`, in the field of AES. -/
def aesSub (box x : Nat) : Nat := (box >>> (8 * x)) % 256
def aesDouble (x : Nat) : Nat := if x < 128 then 2 * x else 2 * x ^^^ 0x11B
def aesTimes (k x : Nat) : Nat :=
  let b (i v : Nat) : Nat := if k.testBit i then v else 0
  b 0 x ^^^ b 1 (aesDouble x) ^^^ b 2 (aesDouble (aesDouble x)) ^^^ b 3 (aesDouble (aesDouble (aesDouble x)))

/-- A 32-bit word with its four bytes through the S-box. -/
def aesSubWord (w : Nat) : Nat :=
  aesSub aesSBox (w % 256) + 256 * aesSub aesSBox (w / 256 % 256) + 65536 * aesSub aesSBox (w / 65536 % 256) +
    16777216 * aesSub aesSBox (w / 16777216)

/-- The key schedule, latest word first: `fuel` more words after the list, of a key of `nk` words. -/
def aesExpand (nk : Nat) : Nat → Nat → List Nat → List Nat
  | 0, _, ws => ws
  | fuel + 1, rcon, ws =>
    let t := ws.getD 0 0
    let i := ws.length
    let t := if i % nk = 0 then aesSubWord ((t * 256) % 2 ^ 32 + t / 2 ^ 24) ^^^ (rcon * 2 ^ 24)
      else if nk = 8 ∧ i % nk = 4 then aesSubWord t else t
    aesExpand nk fuel (if i % nk = 0 then aesDouble rcon else rcon) ((t ^^^ ws.getD (nk - 1) 0) :: ws)

/-- The words of a key as numbers, the first byte of each the most significant; the round keys, in order, each 16 bytes. -/
def aesWords (key : List Byte) (nk : Nat) : List Nat := (List.range nk).map (fun i => beAt key (4 * i) 4)
def aesKeys (key : List Byte) : List (List Nat) :=
  let nk := if key.length ≤ 16 then 4 else 8
  let ws := (aesExpand nk (4 * (nk + 7) - nk) 1 (aesWords key nk).reverse).reverse
  (List.range (nk + 7)).map (fun r => (List.range 16).map (fun i => ws.getD (4 * r + i / 4) 0 / 256 ^ (3 - i % 4) % 256))

/-- Two states added; the bytes of a state taken from other places; its columns multiplied by a circulant matrix. -/
def aesAdd (a b : List Nat) : List Nat := List.zipWith (· ^^^ ·) a b
def aesShift (k : Nat) (a : List Nat) : List Nat := (List.range 16).map (fun i => a.getD ((i + k * (i % 4)) % 16) 0)
def aesMix (m0 m1 m2 m3 : Nat) (a : List Nat) : List Nat :=
  (List.range 16).map (fun i =>
    let x (k : Nat) : Nat := a.getD (i / 4 * 4 + (i + k) % 4) 0
    aesTimes m0 (x 0) ^^^ aesTimes m1 (x 1) ^^^ aesTimes m2 (x 2) ^^^ aesTimes m3 (x 3))

/-- The rounds after the first key, forwards and backwards. -/
def aesRounds : List (List Nat) → List Nat → List Nat
  | [], a => a
  | [k], a => aesAdd (aesShift 4 (a.map (aesSub aesSBox))) k
  | k :: l, a => aesRounds l (aesAdd (aesMix 2 3 1 1 (aesShift 4 (a.map (aesSub aesSBox)))) k)
def aesInvRounds : List (List Nat) → List Nat → List Nat
  | [], a => a
  | [k], a => aesAdd ((aesShift 12 a).map (aesSub aesInvSBox)) k
  | k :: l, a => aesInvRounds l (aesMix 14 11 13 9 (aesAdd ((aesShift 12 a).map (aesSub aesInvSBox)) k))

/-- The first 16 bytes of a list as numbers, and 16 numbers as bytes. -/
def aesState (l : List Byte) : List Nat := (List.range 16).map (fun i => byteAt l i)
def aesBytes (a : List Nat) : List Byte := (List.range 16).map (fun i => BitVec.ofNat 8 (a.getD i 0))

/-- One AES block under a key of 16 or 32 bytes (R361), and its inverse. -/
def aesBlock (key blk : List Byte) : List Byte :=
  let ks := aesKeys key
  aesBytes (aesRounds (ks.drop 1) (aesAdd (aesState blk) (ks.headD [])))
def aesInvBlock (key blk : List Byte) : List Byte :=
  let ks := (aesKeys key).reverse
  aesBytes (aesInvRounds (ks.drop 1) (aesAdd (aesState blk) (ks.headD [])))

/-! ## SHA-384 -/

/-- The constants of the 80 rounds. -/
def shaK : List Nat :=
  [0x428A2F98D728AE22, 0x7137449123EF65CD, 0xB5C0FBCFEC4D3B2F, 0xE9B5DBA58189DBBC, 0x3956C25BF348B538] ++
  [0x59F111F1B605D019, 0x923F82A4AF194F9B, 0xAB1C5ED5DA6D8118, 0xD807AA98A3030242, 0x12835B0145706FBE] ++
  [0x243185BE4EE4B28C, 0x550C7DC3D5FFB4E2, 0x72BE5D74F27B896F, 0x80DEB1FE3B1696B1, 0x9BDC06A725C71235] ++
  [0xC19BF174CF692694, 0xE49B69C19EF14AD2, 0xEFBE4786384F25E3, 0x0FC19DC68B8CD5B5, 0x240CA1CC77AC9C65] ++
  [0x2DE92C6F592B0275, 0x4A7484AA6EA6E483, 0x5CB0A9DCBD41FBD4, 0x76F988DA831153B5, 0x983E5152EE66DFAB] ++
  [0xA831C66D2DB43210, 0xB00327C898FB213F, 0xBF597FC7BEEF0EE4, 0xC6E00BF33DA88FC2, 0xD5A79147930AA725] ++
  [0x06CA6351E003826F, 0x142929670A0E6E70, 0x27B70A8546D22FFC, 0x2E1B21385C26C926, 0x4D2C6DFC5AC42AED] ++
  [0x53380D139D95B3DF, 0x650A73548BAF63DE, 0x766A0ABB3C77B2A8, 0x81C2C92E47EDAEE6, 0x92722C851482353B] ++
  [0xA2BFE8A14CF10364, 0xA81A664BBC423001, 0xC24B8B70D0F89791, 0xC76C51A30654BE30, 0xD192E819D6EF5218] ++
  [0xD69906245565A910, 0xF40E35855771202A, 0x106AA07032BBD1B8, 0x19A4C116B8D2D0C8, 0x1E376C085141AB53] ++
  [0x2748774CDF8EEB99, 0x34B0BCB5E19B48A8, 0x391C0CB3C5C95A63, 0x4ED8AA4AE3418ACB, 0x5B9CCA4F7763E373] ++
  [0x682E6FF3D6B2B8A3, 0x748F82EE5DEFB2FC, 0x78A5636F43172F60, 0x84C87814A1F0AB72, 0x8CC702081A6439EC] ++
  [0x90BEFFFA23631E28, 0xA4506CEBDE82BDE9, 0xBEF9A3F7B2C67915, 0xC67178F2E372532B, 0xCA273ECEEA26619C] ++
  [0xD186B8C721C0C207, 0xEADA7DD6CDE0EB1E, 0xF57D4F7FEE6ED178, 0x06F067AA72176FBA, 0x0A637DC5A2C898A6] ++
  [0x113F9804BEF90DAE, 0x1B710B35131C471B, 0x28DB77F523047D84, 0x32CAAB7B40C72493, 0x3C9EBE0A15C9BEBC] ++
  [0x431D67C49C100D4C, 0x4CC5D4BECB3E42B6, 0x597F299CFC657E2A, 0x5FCB6FAB3AD6FAEC, 0x6C44198C4A475817]

/-- The initial hash value of SHA-384. -/
def shaH : List Nat :=
  [0xCBBB9D5DC1059ED8, 0x629A292A367CD507, 0x9159015A3070DD17, 0x152FECD8F70E5939] ++
  [0x67332667FFC00B31, 0x8EB44A8768581511, 0xDB0C2E0D64F98FA7, 0x47B5481DBEFA4FA4]

/-- A 64-bit word rotated right. -/
def rotr64 (x n : Nat) : Nat := x >>> n + (x % 2 ^ n) * 2 ^ (64 - n)

/-- The message schedule, latest word first, with `n` more words. -/
def shaSchedule : Nat → List Nat → List Nat
  | 0, ws => ws
  | n + 1, ws =>
    let x := ws.getD 14 0
    let y := ws.getD 1 0
    shaSchedule n ((((rotr64 y 19 ^^^ rotr64 y 61 ^^^ y >>> 6) + ws.getD 6 0 + (rotr64 x 1 ^^^ rotr64 x 8 ^^^ x >>> 7) + ws.getD 15 0) % 2 ^ 64) :: ws)

/-- The rounds over pairs of constant and schedule word, with the eight working variables. -/
def shaRounds : List (Nat × Nat) → Nat → Nat → Nat → Nat → Nat → Nat → Nat → Nat → List Nat
  | [], a, b, c, d, e, f, g, h => [a, b, c, d, e, f, g, h]
  | (k, w) :: l, a, b, c, d, e, f, g, h =>
    let t1 := h + (rotr64 e 14 ^^^ rotr64 e 18 ^^^ rotr64 e 41) + ((e &&& f) ^^^ ((2 ^ 64 - 1 - e) &&& g)) + k + w
    let t2 := (rotr64 a 28 ^^^ rotr64 a 34 ^^^ rotr64 a 39) + ((a &&& b) ^^^ (a &&& c) ^^^ (b &&& c))
    shaRounds l ((t1 + t2) % 2 ^ 64) a b c ((d + t1) % 2 ^ 64) e f g

/-- One block of 128 bytes into the hash value. -/
def shaBlock (h : List Nat) (blk : List Byte) : List Nat :=
  let ws := (shaSchedule 64 ((List.range 16).map (fun i => beAt blk (8 * i) 8)).reverse).reverse
  let x (i : Nat) : Nat := h.getD i 0
  List.zipWith (fun a b => (a + b) % 2 ^ 64) h (shaRounds (shaK.zip ws) (x 0) (x 1) (x 2) (x 3) (x 4) (x 5) (x 6) (x 7))

/-- The blocks of a padded message, `n` of them, into the hash value. -/
def shaBlocks : Nat → List Byte → List Nat → List Nat
  | 0, _, h => h
  | n + 1, l, h => shaBlocks n (l.drop 128) (shaBlock h (l.take 128))

/-- The 48-byte digest of a message (R451). -/
def sha384 (l : List Byte) : List Byte :=
  let padded := l ++ [0x80] ++ List.replicate ((239 - l.length % 128) % 128) 0 ++ beBytes 16 (8 * l.length)
  let h := shaBlocks (padded.length / 128) padded shaH
  (List.range 48).map (fun i => BitVec.ofNat 8 (h.getD (i / 8) 0 / 256 ^ (7 - i % 8) % 256))

/-! ## ECDSA over P-384 -/

/-- The prime of the field, the order of the group, the constant b of the curve, and the base point. -/
def p384P : Nat := 2 ^ 384 - 2 ^ 128 - 2 ^ 96 + 2 ^ 32 - 1
def p384N : Nat := 0xFFFFFFFFFFFFFFFFFFFFFFFFFFFFFFFFFFFFFFFFFFFFFFFFC7634D81F4372DDF581A0DB248B0A77AECEC196ACCC52973
def p384B : Nat := 0xB3312FA7E23EE7E4988E056BE3F82D19181D9C6EFE8141120314088F5013875AC656398D8A2ED19D2A85C8EDD3EC2AEF
def p384Gx : Nat := 0xAA87CA22BE8B05378EB1C71EF320AD746E1D3B628BA79B9859F741E082542A385502F25DBF55296C3A545E3872760AB7
def p384Gy : Nat := 0x3617DE4A96262C6F5D9E98BF9292DC29F8F41DBD289A147CE9DA3113B5F0B8C00A60B1CE1D7E819D7A431D7C90EA0E5F

/-- A power modulo `m`: `fuel` bits of the exponent, from the lowest. -/
def powMod (m : Nat) : Nat → Nat → Nat → Nat → Nat
  | 0, _, _, r => r
  | fuel + 1, x, e, r => powMod m fuel (x * x % m) (e / 2) (if e % 2 = 1 then r * x % m else r)

/-- The inverse modulo a prime of 384 bits. -/
def invMod (m x : Nat) : Nat := powMod m 384 (x % m) (m - 2) 1

/-- `a - b` in the field, of values below the prime. -/
def p384Sub (a b : Nat) : Nat := (a + p384P - b) % p384P

/-- A point doubled, and two points added, in Jacobian coordinates (z = 0: the point at infinity). -/
def p384Double (u : Nat × Nat × Nat) : Nat × Nat × Nat :=
  let (x, y, z) := u
  let yy := y * y % p384P
  let s := 4 * x * yy % p384P
  let zz := z * z % p384P
  let m := 3 * p384Sub x zz * (x + zz) % p384P
  let x' := p384Sub (m * m % p384P) (2 * s % p384P)
  (x', p384Sub (m * p384Sub s x' % p384P) (8 * yy * yy % p384P), 2 * y * z % p384P)
def p384Add (u v : Nat × Nat × Nat) : Nat × Nat × Nat :=
  let (x1, y1, z1) := u
  let (x2, y2, z2) := v
  if z1 = 0 then v else if z2 = 0 then u else
  let zz1 := z1 * z1 % p384P
  let zz2 := z2 * z2 % p384P
  let u1 := x1 * zz2 % p384P
  let s1 := y1 * zz2 * z2 % p384P
  let h := p384Sub (x2 * zz1 % p384P) u1
  let r := p384Sub (y2 * zz1 * z1 % p384P) s1
  if h = 0 then (if r = 0 then p384Double u else (1, 1, 0)) else
  let hh := h * h % p384P
  let hhh := h * hh % p384P
  let q := u1 * hh % p384P
  let x' := p384Sub (p384Sub (r * r % p384P) hhh) (2 * q % p384P)
  (x', p384Sub (r * p384Sub q x' % p384P) (s1 * hhh % p384P), h * z1 * z2 % p384P)

/-- `a` times the base point plus `b` times `q`, from bit `n` down. -/
def p384Mul2 (a b : Nat) (q both : Nat × Nat × Nat) : Nat → Nat × Nat × Nat → Nat × Nat × Nat
  | 0, u => u
  | n + 1, u =>
    let u := p384Double u
    let u := if a.testBit n then (if b.testBit n then p384Add u both else p384Add u (p384Gx, p384Gy, 1))
      else if b.testBit n then p384Add u q else u
    p384Mul2 a b q both n u

/-- The check of a signature r, s over a digest under a public key x, y (R451, R453). -/
def ecdsaP384 (key digest sig : List Byte) : Bool :=
  let x := beAt key 0 48
  let y := beAt key 48 48
  let r := beAt sig 0 48
  let s := beAt sig 48 48
  let onCurve := decide (x < p384P ∧ y < p384P ∧ (y * y + 3 * x) % p384P = (x * x * x + p384B) % p384P)
  let w := invMod p384N s
  let q := (x, y, 1)
  let (rx, _, rz) := p384Mul2 (beNat digest * w % p384N) (r * w % p384N) q (p384Add (p384Gx, p384Gy, 1) q) 384 (1, 1, 0)
  onCurve && decide (0 < r ∧ r < p384N ∧ 0 < s ∧ s < p384N ∧ rz ≠ 0) &&
    decide (rx * powMod p384P 384 (rz * rz % p384P) (p384P - 2) 1 % p384P % p384N = r)

end Sys2Proof.Machine
end

