-- ==== Sys2Proof/Machine/Crypto.lean ====
section
/-! DEFINITION. The modes of the ciphers, over the AES block: CTR, GCM, CMAC (R377), as the standards that the manual names define
them. -/
namespace Sys2Proof.Machine

/-- The bytes of two lists combined, as far as both go. -/
def xorBytes (a b : List Byte) : List Byte := List.zipWith (fun x y => x ^^^ y) a b

/-- The counter block with its low 32 bits `n` further on (R377). -/
def ctrBlock (icb : List Byte) (n : Nat) : List Byte :=
  icb.take 12 ++ beBytes 4 ((beAt icb 12 4 + n) % 2 ^ 32)

/-- CTR (SP 800-38A; R377): data XOR the keystream from an initial counter block. -/
def ctrCrypt (key icb data : List Byte) : List Byte :=
  xorBytes data ((List.range ((data.length + 15) / 16)).flatMap (fun n => aesBlock key (ctrBlock icb n)))

/-- A list padded with zero bytes to a multiple of 16. -/
def pad16 (l : List Byte) : List Byte := l ++ List.replicate ((16 - l.length % 16) % 16) 0

/-- The product of two 128-bit values in the field of GCM, bit 0 the most significant (SP 800-38D). -/
def gfMulStep (y : Nat) : Nat → Nat → Nat → Nat
  | 0, z, _ => z
  | n + 1, z, v =>
    let z := if y.testBit n then z ^^^ v else z
    gfMulStep y n z (if v % 2 = 1 then v / 2 ^^^ 0xE1 * 2 ^ 120 else v / 2)

/-- The product of two 128-bit values in the field of GCM. -/
def gfMul (x y : Nat) : Nat := gfMulStep x 128 0 y

/-- The 16-byte blocks of a list, as numbers, `n` of them. -/
def blockNums (l : List Byte) : List Nat := (List.range (l.length / 16)).map (fun i => beAt l (16 * i) 16)

/-- GHASH (SP 800-38D). -/
def ghash (h : Nat) (l : List Byte) : Nat := (blockNums l).foldl (fun y x => gfMul (y ^^^ x) h) 0

/-- The ciphertext, or plaintext, of GCM with a 96-bit IV. -/
def gcmCrypt (key iv data : List Byte) : List Byte := ctrCrypt key (iv ++ beBytes 4 2) data

/-- The 16-byte tag of GCM over additional data and ciphertext. -/
def gcmTag (key iv aad cipher : List Byte) : List Byte :=
  let h := beNat (aesBlock key (List.replicate 16 0))
  let s := ghash h (pad16 aad ++ pad16 cipher ++ beBytes 8 (8 * aad.length) ++ beBytes 8 (8 * cipher.length))
  xorBytes (beBytes 16 s) (aesBlock key (iv ++ beBytes 4 1))

/-- A subkey of CMAC doubled (SP 800-38B). -/
def cmacDouble (x : Nat) : Nat := (2 * x % 2 ^ 128) ^^^ (if x.testBit 127 then 0x87 else 0)

/-- The 16-byte CMAC of a message (SP 800-38B; R377). -/
def aesCmac (key msg : List Byte) : List Byte :=
  let k1 := cmacDouble (beNat (aesBlock key (List.replicate 16 0)))
  let full := decide (msg ≠ [] ∧ msg.length % 16 = 0)
  let last := if full then k1 else cmacDouble k1
  let padded := if full then msg else
    msg ++ [0x80] ++ List.replicate ((31 - msg.length % 16) % 16) 0
  let blocks := blockNums padded
  let n := blocks.length
  ((List.range n).zip blocks).foldl (fun c ib =>
    aesBlock key (beBytes 16 (beNat c ^^^ ib.2 ^^^ (if ib.1 + 1 = n then last else 0)))) (List.replicate 16 0)

end Sys2Proof.Machine
end

