-- ==== Sys2Proof/Machine/Macsec.lean ====
section
/-! DEFINITION. MACsec on ports 0–31: the SecTAG, protection on transmit, the checks on receive (R370–R376). -/
namespace Sys2Proof.Machine

/-- A key slot. -/
def State.slot (s : State) (i : Nat) : Slot := s.slots.get i

/-- The port's suite uses 256-bit keys (R383). -/
def State.suite256 (s : State) (p : Nat) : Bool := s.tabF .msec 0 p 0 3 2 % 2 == 1

/-- The slot of an SA entry serves the port: it is bound to MACsec and its key has the suite's size (R367). -/
def State.slotServes (s : State) (p i : Nat) : Bool := (s.slot i).bind == 1 && (s.slot i).aes256 == s.suite256 p

/-- The IV of a frame (IEEE 802.1AE): SCI and PN, or for XPN the SSCI and the 64-bit PN against the salt. -/
def secIv (xpn : Bool) (sci ssci pn : Nat) (salt : List Byte) : List Byte :=
  if xpn then xorBytes (beBytes 4 ssci ++ beBytes 8 pn) salt else beBytes 8 sci ++ beBytes 4 pn

/-- TX_SCI of a port. -/
def State.txSci (s : State) (p : Nat) : Nat := (s.tab .msec 0 p 1).toNat + 2 ^ 32 * (s.tab .msec 0 p 2).toNat

/-- The 16-byte SecTAG of a copy of `len` bytes after the source address (R371). -/
def State.secTag (s : State) (p an pn len : Nat) : List Byte :=
  let conf := s.tabF .msec 0 p 0 4 4
  beBytes 2 0x88E5 ++ [BitVec.ofNat 8 (0x20 + 12 * conf + an), BitVec.ofNat 8 (if len < 48 then len else 0)] ++
    beBytes 4 pn ++ beBytes 8 (s.txSci p)

/-- A copy protected at port `p` with SA entry `e` and packet number `pn`: its bytes without a frame check sequence (R371). None
where the slot does not serve the port. -/
def State.protect (s : State) (p e pn : Nat) (l : List Byte) : Option (List Byte) × State :=
  let i := s.tabF .msec 1 e 0 9 0
  let k := s.slot i
  if !s.slotServes p i then (none, s.logErr .msec 0x22 srcDevice i)
  else
    let addr := l.take 12
    let data := l.drop 12
    let tag := s.secTag p (e % 4) pn data.length
    let iv := secIv (s.xpn p) (s.txSci p) (s.tab .msec 1 e 3).toNat pn k.salt
    let conf := s.tabF .msec 0 p 0 4 4 == 1
    let body := if conf then gcmCrypt k.key iv data else data
    let icv := if conf then gcmTag k.key iv (addr ++ tag) body else gcmTag k.key iv (addr ++ tag ++ data) []
    let s := (s.bumpTab .msec 8 p 9).bumpTab .msec 8 p 12 data.length
    (some (addr ++ tag ++ body ++ icv), s)

/-- What the handling of a received frame on an RX_EN port gives: the frame goes on with the bytes it is stored with, decrypted or
as received, or it is dropped, with the counter of R383 it counts in, or because its slot does not serve, a table word is unreadable, or MSEC
has discarded its work. -/
inductive RxSec where
  | plain (count : Option Nat)
  | decrypted (bytes : List Byte)
  | drop (count : Nat)
  | slot (i : Nat)
  | lost (addr : Nat)
  | cut
  deriving DecidableEq, Repr

/-- The SecTAG's fields: SC, ES, SCB, E, AN, SL, the low PN, the SCI, and the tag's length (R373). -/
structure SecTag where
  v : Bool
  es : Bool
  sc : Bool
  scb : Bool
  conf : Bool
  an : Nat
  sl : Nat
  pn : Nat
  sci : Nat
  len : Nat
  deriving DecidableEq, Repr

/-- The SecTAG of a received frame. -/
def readSecTag (l : List Byte) : SecTag :=
  let t := l.getD 14 0
  let sc := t.getLsbD 5
  { v := t.getLsbD 7, es := t.getLsbD 6, sc, scb := t.getLsbD 4, conf := t.getLsbD 3, an := t.toNat % 4, sl := byteAt l 15
    pn := beAt l 16 4, sci := if sc then beAt l 20 8 else 0, len := if sc then 16 else 8 }

/-- Step 2 of R373, but for SL: the tag is well formed, with a PN that is not 0 whatever the suite. -/
def SecTag.ok (t : SecTag) : Bool := !t.v && !(t.es && t.scb && t.sc) && t.pn != 0

/-- Step 2 of R373: SL is consistent with `data` bytes between the tag and the ICV. -/
def SecTag.slOk (t : SecTag) (data : Nat) : Bool := if t.sl = 0 then decide (48 ≤ data) else decide (t.sl < 48) && t.sl == data

/-- The receive channel of a frame at port `p`: with SC = 1 the VALID entry of the SCI, else entry 0 (R373). -/
def State.rxChannel (s : State) (p : Nat) (t : SecTag) : Option Nat :=
  if t.sc then
    (List.range 4).find? (fun c =>
      s.tabF .msec 2 (4 * p + c) 3 31 31 == 1 &&
        (s.tab .msec 2 (4 * p + c) 0).toNat + 2 ^ 32 * (s.tab .msec 2 (4 * p + c) 1).toNat == t.sci)
  else some 0

/-- The packet number a frame stands for: its own, or for XPN the one with NEXT_PN's high word, raised by one where the low word of NEXT_PN has
its top bit and that of the frame has not (IEEE 802.1AE, R373). -/
def recoverPn (xpn : Bool) (next pn : Nat) : Nat :=
  if !xpn then pn
  else
    let high := next / 2 ^ 32
    let low := next % 2 ^ 32
    if 2 ^ 31 ≤ low ∧ pn < 2 ^ 31 then (high + 1) * 2 ^ 32 + pn else high * 2 ^ 32 + pn

/-- R375: a frame without a SecTAG on an RX_EN port. -/
def State.rxUntagged (s : State) (p : Nat) (l : List Byte) : RxSec :=
  let ty := beAt l 12 2
  if ty = 0x888E ∨ (List.range 2).any (fun k =>
      s.flag .msec (Msec.EXEMPT_ETYPE_EN k) && s.fld .msec (Msec.EXEMPT_ETYPE_ETYPE k) == ty) then .plain none
  else if s.tabF .msec 0 p 0 5 5 = 1 then .plain (some 7)
  else .drop 6

/-- What steps 3 to 5 of R373 find for a frame with a SecTAG: its channel, its SA entry and its packet number, or the counter of its drop. -/
def State.rxLookup (s : State) (p : Nat) (t : SecTag) : (Nat × Nat × Nat) ⊕ Nat :=
  match s.rxChannel p t with
  | none => .inr 2
  | some c =>
    let e := 16 * p + 4 * c + t.an
    if s.tabF .msec 3 e 0 31 31 = 0 ∨ s.tabF .msec 3 e 0 30 30 = 1 then .inr 3
    else
      let next := s.nextPn 3 e
      let pn := recoverPn (s.xpn p) next t.pn
      if s.tabF .msec 0 p 0 6 6 = 1 ∧ pn < max 1 (next - (s.tab .msec 2 (4 * p + c) 2).toNat) then .inr 4
      else .inl (c, e, pn)

/-- The IV of a frame received with SA entry `e` and packet number `pn` (IEEE 802.1AE). -/
def State.rxIv (s : State) (p : Nat) (t : SecTag) (e pn : Nat) : List Byte :=
  let sci := if t.sc then t.sci else (s.tab .msec 2 (4 * p) 0).toNat + 2 ^ 32 * (s.tab .msec 2 (4 * p) 1).toNat
  secIv (s.xpn p) sci (s.tab .msec 3 e 3).toNat pn (s.slot (s.tabF .msec 3 e 0 9 0)).salt

/-- The bytes that the parser sees of the first bytes of a frame in reception, and whether they are decrypted (R63, R374): the cipher computes the
keystream once it knows the packet number (R363). None where it sees none before the frame's end. -/
def State.rxHead (s : State) (p : Nat) (head : List Byte) : Option (List Byte × Bool) :=
  let seen (l : List Byte) (prot : Bool) : Option (List Byte × Bool) := if 192 ≤ l.length then some (l, prot) else none
  if !s.rxProtected p then seen head false
  else if !s.inRun .msec then none
  else if beAt head 12 2 ≠ 0x88E5 then
    match s.rxUntagged p head with
    | .plain _ => seen head false
    | _ => none
  else
    let t := readSecTag head
    let data := head.drop (12 + t.len)
    if !t.ok then none
    else match s.rxLookup p t with
      | .inl (_, e, pn) =>
        let i := s.tabF .msec 3 e 0 9 0
        if s.slotServes p i then
          seen (head.take 12 ++ if t.conf then gcmCrypt (s.slot i).key (s.rxIv p t e pn) data else data) true
        else none
      | .inr _ => none

/-- The handling of a received frame (with its FCS) on an RX_EN port (R373, R375, R376), with the SA entry and packet number it would advance.
`secured` says that it entered the cipher while MSEC was in RUN; `bad` names a table word whose reading fails (R383). -/
def State.rxSecurity (s : State) (p : Nat) (l : List Byte) (secured : Bool) (bad : Option Nat) : RxSec × Option (Nat × Nat × Nat) :=
  if !secured then (.drop 8, none)
  else if s.st .msec ≠ 1 ∧ s.st .msec ≠ 2 then (.cut, none)
  else match bad with
  | some a => (.lost a, none)
  | none =>
    if beAt l 12 2 ≠ 0x88E5 then (s.rxUntagged p l, none)
    else
      let t := readSecTag l
      let body := dropFcs l
      let n := body.length - (12 + t.len + 16)
      if body.length < 12 + t.len + 16 ∨ !t.ok ∨ !t.slOk n then (.drop 1, none)
      else match s.rxLookup p t with
        | .inr k => (.drop k, none)
        | .inl (c, e, pn) =>
          let i := s.tabF .msec 3 e 0 9 0
          let k := s.slot i
          let iv := s.rxIv p t e pn
          let head := l.take (12 + t.len)
          let data := (l.drop (12 + t.len)).take n
          let icv := (l.drop (12 + t.len + n)).take 16
          let good := if t.conf then gcmTag k.key iv head data else gcmTag k.key iv (head ++ data) []
          if !s.slotServes p i then (.slot i, none)
          else if icv ≠ good then (.drop 5, none)
          else
            let plain := if t.conf then gcmCrypt k.key iv data else data
            (.decrypted (refcs (l.take 12 ++ plain)), some (c, e, pn))

/-- An uncorrectable word of an MSEC table, by its table, entry and word, as ERR_ADDR names it (R37, R383). -/
def secWord (x : Nat × Nat × Nat) : Nat :=
  Page.msec.base + Msec.TAB_DATA_DATA.off + (if x.1 = 0 then 0x700 else 0) + 2 ^ 32 * (2 ^ 31 + x.1 * 2 ^ 24 + x.2.1 * 2 ^ 8 + x.2.2)

/-- The effects of that handling on counters, events, the log and NEXT_PN (R143, R367, R373–R376, R383, R384). -/
def State.rxSecEffects (s : State) (p : Nat) (r : RxSec) (sa : Option (Nat × Nat × Nat)) : State :=
  match r with
  | .plain none => s
  | .plain (some i) => s.bumpTab .msec 8 p i
  | .drop i => if i = 5 then ((s.bumpTab .msec 8 p 5).raise .msec 11).bump .buf Buf.CNT_SCRUB_FRAMES else s.bumpTab .msec 8 p i
  | .slot i => s.logErr .msec 0x22 srcDevice i
  | .lost a => s.logErr .msec 5 srcDevice a
  | .cut => s
  | .decrypted l =>
    let s := (s.bumpTab .msec 8 p 0).bumpTab .msec 8 p 13 (l.length - 16)
    match sa with
    | none => s
    | some (c, e, pn) => if s.nextPn 3 e ≤ pn then s.setNextPn 3 p (e % 4) c e (pn + 1) true else s

/-! ## Writes to the receive tables (R373) -/

/-- EXHAUSTED of a security association clears (R373). -/
def State.saRevive (s : State) (e : Nat) : State := s.setTabF .msec 3 e 0 30 30 0

/-- A write to a word of RXSC (table 2) or RXSA (table 3) is performed, and EXHAUSTED clears (R373). -/
def State.saPut (s : State) (x : Nat × Nat × Nat × Word) : State :=
  let s := s.setTab .msec x.1 x.2.1 x.2.2.1 x.2.2.2
  if x.1 = 2 then s.each (List.range 4) (fun s an => s.saRevive (4 * x.2.1 + an)) else s.saRevive x.2.1

/-- The port of an entry of RXSC or RXSA. -/
def saPort (t e : Nat) : Nat := if t = 2 then e / 4 else e / 16

/-- A write to RXSC or RXSA: it waits while its port receives a frame that is inside the cipher (R373). -/
def State.saWrite (s : State) (t e w : Nat) (v : Word) : State :=
  if (s.frame (s.dp.rx.get (saPort t e))).secured then s.mapDp (fun d => { d with saWrites := d.saWrites ++ [(t, e, w, v)] })
  else s.saPut (t, e, w, v)

/-- Between two frames of port `p` the writes that waited are performed (R373). -/
def State.saSettle (s : State) (p : Nat) : State :=
  let mine (x : Nat × Nat × Nat × Word) : Bool := saPort x.1 x.2.1 == p
  let t := s.mapDp (fun d => { d with saWrites := d.saWrites.filter (fun x => !mine x) })
  t.each (s.dp.saWrites.filter mine) State.saPut

end Sys2Proof.Machine
end

