-- ==== Sys2Proof/Machine/Egress.lean ====
section
/-! DEFINITION. The egress: the edits of a copy as it leaves, the times written into it, its capture, its end on the wire
(R51, R78, R135, R236–R243, R248–R250, R269, R371). -/
namespace Sys2Proof.Machine

/-! ## Tags of a departing copy -/

/-- The R-tag edit of a copy at port `p` (R269). -/
def State.rtagEdit (s : State) (f : Frame) (p : Nat) (t : Tags) (l : List Byte) : List Byte × State :=
  if p = 36 then (l, s)
  else if s.flag .frer (Frer.PORT_CFG_RTAG_TX p) then
    match t.rtag, f.seq with
    | none, some n =>
      (insBytes l t.pos (beBytes 2 (s.bankFld .prs Prs.RTAG_CFG_ETYPE f.bank) ++ [0, 0] ++ beBytes 2 n),
       s.bump .frer Frer.CNT_RTAG_INSERTED)
    | _, _ => (l, s)
  else match t.rtag with
    | some i => (cutBytes l i 6, s.bump .frer Frer.CNT_RTAG_REMOVED)
    | none => (l, s)

/-- The header that a copy is given at fabric port `p` (R249), its credit fields apart. -/
def State.originHeader (s : State) (f : Frame) (c : Copy) (p : Nat) : Barost :=
  let (mc, dst) := match s.originDst c.queue p with | some (m, d, _) => (b2n m, d) | none => (0, s.tabF .fab 3 p 0 3 0)
  match f.decap with
  | some d => { tc := c.tc, mc, dst, hops := d.hops - 1, src := d.src, origPort := d.origPort, sv := d.sv, stream := d.stream }
  | none =>
    let lim := s.fld .fab Fab.FAB_CFG_HOP_LIMIT
    { tc := c.tc, mc, dst, hops := if lim = 0 then 1 else lim, src := s.fld .fab Fab.NODE_ID, origPort := f.ingress
      sv := b2n c.ctx.isSome, stream := c.ctx.getD 0 }

/-- The header at byte 12 with HOPS, CRST and both grants as given and CHK computed anew; every other bit stays (R247, R248). -/
def rewriteBarost (l : List Byte) (h : Barost) : List Byte :=
  let l := overlay l 15 [BitVec.ofNat 8 (16 * h.hops + byteAt l 15 % 16)]
  let l := overlay l 19 [BitVec.ofNat 8 (byteAt l 19 - byteAt l 19 / 64 % 2 * 64 + 64 * h.crst)]
  let l := overlay l 22 (beBytes 2 h.grant6 ++ beBytes 2 h.grant7)
  overlay l 26 (beBytes 2 (barostChk ((l.drop 14).take 12)))

/-- The Barost edit of a copy at port `p` (R248), on bytes whose header, if any, stands at 12. -/
def State.barostEdit (s : State) (f : Frame) (c : Copy) (p : Nat) (l : List Byte) : List Byte × State :=
  let rewrite (s : State) (h : Barost) : List Byte × State :=
    let (h, s) := s.grantHeader p h
    (rewriteBarost l h, s)
  if p = 32 ∨ p = 33 ∨ p = 36 then (l, s)
  else if s.fabricPort p then
    match s.headerKind f with
    | .received =>
      let h := readBarost l 12
      rewrite (s.bump .fab Fab.CNT_TRANSIT) { h with hops := h.hops - 1 }
    | .software => rewrite s (readBarost l 12)
    | _ =>
      let (h, s) := (s.bump .fab Fab.CNT_ORIGINATED).grantHeader p (s.originHeader f c p)
      (insBytes l 12 (writeBarost (s.fld .prs Prs.BAROST_CFG_ETYPE) h), s)
  else match s.headerKind f with
    | .received => (cutBytes l 12 16, s.bump .fab Fab.CNT_EDGE_STRIPPED)
    | .software => (cutBytes l 12 16, s.bump .fab Fab.CNT_EDGE_STRIPPED)
    | _ => (l, s)

/-! ## Marking (R135) -/

/-- A 16-bit header checksum after one word of the header has changed (RFC 1624). -/
def fixChecksum (chk old new : Nat) : Nat :=
  0xFFFF - onesSum [0xFFFF - chk, 0xFFFF - old, new]

/-- CE written into the ECN field of an IP packet that starts at `i` (R135). -/
def markCe (l : List Byte) (i : Nat) : List Byte :=
  if byteAt l i / 16 = 4 then
    let old := beAt l i 2
    let new := old ||| 3
    overlay (overlay l i (beBytes 2 new)) (i + 10) (beBytes 2 (fixChecksum (beAt l (i + 10) 2) old new))
  else overlay l (i + 1) [BitVec.ofNat 8 (byteAt l (i + 1) ||| 0x30)]

/-! ## Times in departing frames (R236–R243) -/

/-- The frame meets R238 with its payload at `i`: profile PTP, a messageType of 0–3, at least 44 bytes before the FCS. -/
def ptpWritable (f : Frame) (l : List Byte) (i : Nat) : Bool :=
  f.profile == 5 && decide (byteAt l i % 16 ≤ 3) && decide (i + 44 ≤ l.length)

/-- add_corr of R241 on the correctionField of the frame whose payload is at `i`. -/
def State.addCorr (s : State) (l : List Byte) (i : Nat) (a : Int) : List Byte × State :=
  let c := beAt l (i + 8) 8
  let put (v : Nat) : List Byte := overlay l (i + 8) (beBytes 8 v)
  if c = 2 ^ 63 - 1 then (l, s)
  else
    let x := signed 64 c + a
    if 2 ^ 63 - 1 < x ∨ x < -(2 ^ 63) then (put (2 ^ 63 - 1), (s.bump .time Time.CNT_CORR_SATURATED).raise .time 12)
    else (put (unsigned 64 x), s)

/-- INSERT_BAD (R236, R239). -/
def State.insertBad (s : State) : State := (s.bump .time Time.CNT_INSERT_BAD).raise .time 13

/-- The insertion of a time instruction word into a copy at port `p` whose timestamp point leaves at `teg` (R239, R242). -/
def State.insertTiw (s : State) (f : Frame) (w : TimeInstr) (p : Nat) (teg : Int) (l : List Byte) (i : Nat) : List Byte × State :=
  if w.insert = 0 then (l, s)
  else if 2 < w.insert then (l, s.insertBad)
  else if s.txProtected p then (l, s.bump .time Time.CNT_INSERT_PROT)
  else if !ptpWritable f l i then (l, s.insertBad)
  else if w.insert = 1 then
    if !s.flag .time (Time.DOM_CFG_EN w.domain) then (l, s.insertBad)
    else
      let t := s.domAt w.domain teg
      let ns := (t / 2 ^ 32).toNat
      let l := overlay (overlay l (i + 34) (beBytes 6 (ns / 10 ^ 9))) (i + 40) (beBytes 4 (ns % 10 ^ 9))
      (s.bump .time Time.CNT_INSERTS).addCorr l i (t % 2 ^ 32 / 2 ^ 16)
  else
    let r := teg - extend32 w.refNs (teg / 2 ^ 16) * 2 ^ 16 + w.refFrac
    if 2 ^ 47 ≤ r ∨ r ≤ -(2 ^ 47) then (l, s.insertBad)
    else (s.bump .time Time.CNT_INSERTS).addCorr l i r

/-- The domain a PTP frame is matched to (R231). -/
def State.ptpDomain (s : State) (number : Nat) : Option Nat :=
  (List.range 4).find? (fun d => s.flag .time (Time.DOM_CFG_EN d) && s.fld .time (Time.DOM_CFG_NUMBER d) == number)

/-- The residence time of a copy without a time instruction (R240, R242). -/
def State.transparent (s : State) (f : Frame) (p : Nat) (teg : Int) (l : List Byte) (i : Nat) : List Byte × State :=
  if s.flag .time (Time.PORT_TS_CFG_TC_EN p) ∧ (p < 34 ∨ p = 37) ∧ (f.ingress < 32 ∨ f.ingress = 37) ∧ ptpWritable f l i then
    if s.txProtected p then (l, s.bump .time Time.CNT_INSERT_PROT)
    else match s.ptpDomain (byteAt f.key 81) with
      | none => (l, s.bump .time Time.CNT_TC_NO_DOMAIN)
      | some d =>
        (s.bump .time Time.CNT_TC_UPDATES).addCorr l i (((teg - f.tsLocal) * (2 ^ 32 + s.adj d) + 2 ^ 31) / 2 ^ 32)
  else (l, s)

/-- The presentation time of a frame that the TDM or the bus gateway made (R243), as it was fixed when the frame came in. -/
def State.present (s : State) (f : Frame) (p : Nat) (l : List Byte) (i : Nat) : List Byte × State :=
  let mine := decide (f.ingress = 35 ∧ f.profile = 14) || decide (f.ingress = 34 ∧ f.profile = 15 ∧ byteAt l i = 5)
  match f.ptime with
  | some v =>
    if (p < 34 ∨ p = 37) ∧ mine then
      (overlay (overlay l (i + 1) [BitVec.ofNat 8 (byteAt l (i + 1) ||| 1)]) (i + 12) (beBytes 4 v), s.bump .time Time.CNT_PT_INSERTS)
    else (l, s)
  | none => (l, s)

/-- The capture of a copy's transmit time (R237). -/
def State.capture (s : State) (f : Frame) (w : TimeInstr) (p : Nat) (teg : Int) : State :=
  if w.capture ∧ (p < 32 ∨ p = 37) then
    let q := s.txts.get p
    if q.length = 32 then (s.bump .time Time.CNT_TXTS_LOST).raise .time 11
    else
      let e : TxTs := {
        tag := w.tag, domain := w.domain, steps := s.fld .time (Time.DOM_CTRL_STEPS w.domain) % 256, time := unsigned 80 teg
        seq := if f.profile = 5 then beAt f.key 82 2 else 0, domNs := s.domNsAt w.domain teg }
      let t := { s with txts := s.txts.set p (q ++ [e]) }
      if q = [] then t.raise .time 10 else t
  else s

/-! ## The whole of a copy's edits (R250) -/

/-- The stored bytes a copy reads, without the FCS (R140). The last four bytes of a frame that has not ended may be its FCS: they wait for what
follows them. -/
def copyBytes (f : Frame) (kind : CopyKind) : List Byte :=
  if f.ended ∧ kind = .sample ∧ 128 < f.bytes.length then f.bytes.take 124 else dropFcs f.bytes

/-- The edits of a copy whose timestamp point leaves at `teg`, in the order of R250. -/
def State.edits (s : State) (f : Frame) (c : Copy) (p : Nat) (teg : Int) : List Byte × State :=
  let t := s.frameTags f
  let i := ((t.pos + 2 : Nat) + s.editGrow f c.kind p : Int).toNat
  let (l, s) := s.rtagEdit f p t (copyBytes f c.kind)
  let (l, s) := s.barostEdit f c p l
  let l := if c.mark then markCe l i else l
  let (l, s) := match f.tiw with
    | some w => s.insertTiw f w p teg l i
    | none => s.transparent f p teg l i
  s.present f p l i

/-- The bytes of a copy after every edit of its egress but the encryption, without an FCS: those stored for a mirror copy (R138; DEDUCED, log entry
108). `lead` is the time to its timestamp point in 2^-16 ns. -/
def State.editCopy (s : State) (f : Frame) (c : Copy) (p lead : Nat) : List Byte × State :=
  let teg := if p < 32 ∨ p = 37 then s.egressTime p lead else ((s.now * 2 ^ 16 : Nat) : Int)
  let (l, s) := match c.kind with
    | .mirror _ => (copyBytes f c.kind, s)
    | _ => s.edits f c p teg
  (l, match f.tiw with | some w => s.capture f w p teg | none => s)

/-- A frame padded to 60 bytes before its FCS, on the ports that have a wire (R328). -/
def padWire (p : Nat) (l : List Byte) : List Byte :=
  if p < 32 ∨ p = 37 then l ++ List.replicate (60 - l.length) 0 else l

/-- The edit of port 36 (R78): the bytes of the second pass, CE written where the copy is marked (R135), with a new FCS, and what is recorded of
a removed header (R249). -/
def State.recircEdit (s : State) (f : Frame) (edit : Nat) (mark : Bool) : List Byte × Option Decap :=
  let t := s.frameTags f
  let l := if mark then markCe (dropFcs f.bytes) (t.pos + 2) else dropFcs f.bytes
  let l := if edit = 2 ∨ edit = 3 then (match t.rtag with | some i => cutBytes l i 6 | none => l) else l
  let strip := decide (edit = 1 ∨ edit = 2) && (f.hasHeader || s.softHeader f)
  let h := readBarost f.bytes 12
  let l := if strip then cutBytes l 12 16 else l
  (refcs (l ++ List.replicate (60 - l.length) 0),
   if strip then some ⟨h.src, h.hops, h.origPort, h.sv, h.stream⟩ else f.decap)

/-! ## The end of a started copy -/

/-- The ports that send a copy of frame `i` that was charged at its provisional length. -/
def State.sendersOf (s : State) (i : Nat) : List Nat :=
  (s.dp.egress.keys).filter (fun p =>
    match (s.egress p).sending with | some c => c.frame == i && (s.egress p).prov | none => false)

/-- Frame `i` has ended with `len` bytes: the ports that send it in cut-through take note of its length (R154, R159, R160). -/
def State.noteLength (s : State) (i len : Nat) : State :=
  s.each (s.sendersOf i) (fun s p => s.mapEgress p (fun e => { e with flen := some len }))

/-- A started cut-through copy of frame `i` is ended at the bytes already received, with its FCS inverted (R51). The last four bytes received
are taken as its FCS, also of a frame whose reception stopped at MAX_LEN + 1 (DEDUCED, log entry 87). -/
def State.stompCopies (s : State) (i : Nat) : State :=
  s.each ((s.sendersOf i).filter (fun p => (s.egress p).early)) (fun s p =>
    (s.mapEgress p (fun e =>
      { e with wire := e.wire ++ (dropFcs (s.frame i).bytes).drop e.covered, covered := (s.frame i).bytes.length
               stomp := true, early := false })).bump (.etp p) Etp.CNT_TX_STOMPED)

/-- A frame and every copy of it that has not started are discarded; a started copy is stomped (R49, R74, R165, R374). -/
def State.discardFrame (s : State) (i : Nat) : State :=
  let s := s.stompCopies i
  let s := s.each (s.copiesOf i) State.discardCopy
  let s := s.mapDp (fun d => { d with
    windows := d.windows.filter (· != i), keys := d.keys.filter (fun r => r.frame != i)
    results := d.results.filter (fun r => r.frame != i), admits := d.admits.filter (fun r => r.frame != i) })
  (s.freeHeadroom (s.frame i)).setFrame i {}

/-- The bytes that a port puts on the wire for the copy that ends: the rest of a frame that had not ended at its start, padding,
and the FCS, inverted where the copy is stomped (R51). -/
def State.wireEnd (s : State) (p : Nat) : List Byte :=
  let e := s.egress p
  let rest := match e.sending with
    | some c => if e.early then (dropFcs (s.frame c.frame).bytes).drop e.covered else []
    | none => []
  let l := padWire p (e.wire ++ rest)
  if e.stomp then stompFcs l else refcs l

end Sys2Proof.Machine
end

