-- ==== Sys2Proof/Machine/Police.lean ====
section
/-! DEFINITION. The policer: stream filter, flow meters, the record of a paired pass (R163–R168, R290–R294), and what the end of a
frame returns. -/
namespace Sys2Proof.Machine

/-! ## Flow meters (R166–R168) -/

/-- Bits hi to lo of a word of METER_CFG. -/
def State.meterF (s : State) (m word hi lo : Nat) : Nat := s.tabF .qsch 3 m word hi lo

/-- A meter's state changed. -/
def State.mapMeter (s : State) (m : Nat) (f : Meter → Meter) : State :=
  s.mapDp (fun d => { d with meters := d.meters.modify m f })

/-- CBSµ and EBSµ of a meter (R166). -/
def State.cbs (s : State) (m : Nat) : Nat := 8000000 * s.meterF m 2 23 0
def State.ebs (s : State) (m : Nat) : Nat := 8000000 * s.meterF m 3 23 0

/-- The buckets of a meter brought up to now (R166). -/
def State.meterFill (s : State) (m : Nat) : Meter :=
  let x := s.dp.meters.get m
  let d := s.now - x.last
  let c := x.ct + s.meterF m 0 24 0 * d
  let spill := if s.meterF m 0 28 28 = 1 then c - s.cbs m else 0
  { x with last := s.now, ct := min c (s.cbs m), et := min (x.et + s.meterF m 1 24 0 * d + spill) (s.ebs m) }

/-- meter(m, ℓ, col) of R166: the result, 0 GREEN, 1 YELLOW, 2 RED, and what it charged. -/
def State.meter (s : State) (m len col : Nat) : Nat × Option MeterCharge × State :=
  let x := s.meterFill m
  let col := if s.meterF m 0 29 29 = 0 then 0 else col
  let b := 8000000 * len
  if x.marked then (2, none, s.mapMeter m (fun _ => x))
  else if col = 0 ∧ b ≤ x.ct then (0, some ⟨m, true, b⟩, s.mapMeter m (fun _ => { x with ct := x.ct - b }))
  else if col ≠ 2 ∧ b ≤ x.et then (1, some ⟨m, false, b⟩, s.mapMeter m (fun _ => { x with et := x.et - b }))
  else (2, none, s.mapMeter m (fun _ => x))

/-- `n` µb return to the bucket a charge was taken from, up to its size (R168). -/
def State.meterReturn (s : State) (c : MeterCharge) (n : Nat) : State :=
  s.mapMeter c.meter (fun x =>
    if c.green then { x with ct := min (s.cbs c.meter) (x.ct + n) } else { x with et := min (s.ebs c.meter) (x.et + n) })

/-- A state counter of a context counts one: SDU_DROPS at 144, METER_DROPS at 152 (R103). -/
def State.bumpCtx (s : State) (n o : Nat) : State :=
  { s with counters := s.counters.modify (ctxCounter n o) (· + 1) }

/-- SDU_DROPS of a pass (R165). -/
def State.countSdu (s : State) (n : Nat) : State := ((s.bumpCtx n 144).bump .qsch Qsch.CNT_SDU_DROPS).raise .qsch 10

/-- What the stream filter and the meter make of a pass. -/
inductive PoliceResult where
  | pass | sdu | metered
  deriving DecidableEq, Repr

/-- The meter of a pass with context `n` (R166, R167). The charge stands with the frame while it has not ended (R168). -/
def State.policeMeter (s : State) (r : Pass) (n : Nat) : PoliceResult × Pass × State :=
  if s.ctxF n r.bank 0 1 1 = 0 then (.pass, r, s)
  else
    let f := s.frame r.frame
    let m := s.ctxF n r.bank 1 10 0
    let (res, charge, s) := s.meter m (if f.ended then f.bytes.length else f.provLen) r.colour
    let s := if f.ended then s else s.setFrame r.frame { f with meter := charge }
    let s := s.bumpTab .qsch 13 m res
    let drop := decide (res = 2 ∨ (res = 1 ∧ s.meterF m 0 30 30 = 1))
    let s := if res = 2 ∧ s.meterF m 0 31 31 = 1 then (s.mapMeter m (fun x => { x with marked := true })).raise .qsch 9 else s
    if drop then (.metered, { r.clear with colour := res }, (s.bumpCtx n 152).bump .qsch Qsch.CNT_METER_DROPS)
    else (.pass, { r with colour := res }, s)

/-- The stream filter, then the meter, of a permitted pass with a valid context (R163–R167). A dropped pass and a pass without a
context go through, and so does every pass while QSCH is not in RUN. -/
def State.police (s : State) (r : Pass) : PoliceResult × Pass × State :=
  match r.ctx with
  | none => (.pass, r, s)
  | some n =>
    let f := s.frame r.frame
    let sdu := s.ctxF n r.bank 2 13 0
    if r.dropped ∨ !s.inRun .qsch then (.pass, r, s)
    else if sdu ≠ 0 ∧ f.ended ∧ sdu < f.bytes.length then
      (.sdu, { r.clear with cpuMgmt := false, cpuHost := false, mirrors := [], sample := false }, s.countSdu n)
    else
      let s := if f.ended ∨ sdu = 0 then s else s.setFrame r.frame { s.frame r.frame with sduLimit := sdu, ctx := some n }
      s.policeMeter r n

/-! ## The record of a paired pass (R290, R291, R294) -/

/-- The 12 bytes of a record (R290). -/
def digBytes (r : DigRec) : List Byte :=
  leBytes 2 r.ctx ++ leBytes 2 r.seq ++ [BitVec.ofNat 8 r.port, BitVec.ofNat 8 (r.colour + 4 * r.outcome)] ++ leBytes 2 0 ++
    leBytes 4 r.dest

/-- The window with a record added to its count and its sub-sum (R290). -/
def DigWin.add (d : DigWin) (r : DigRec) : DigWin :=
  let j := r.ctx % 8
  { d with count := (d.count + 1) % 65536
           sums := d.sums.set j ((d.sums.getD j 0 + crc32c 0xFFFFFFFF (digBytes r) % 65536) % 65536) }

/-- A record enters its window, or is late (R291); the trace keeps the last 512 (R294). -/
def State.digRecord (s : State) (r : DigRec) (w : Nat) : State :=
  let late := match s.clasp.closed with | some c => decide (w ≤ c) | none => false
  let s := if s.flag .clsp Clsp.DIV_STATUS_DIVERGED then s
    else
      let t := s.clasp.trace ++ [r]
      { s with clasp := { s.clasp with trace := t.drop (t.length - 512) } }
  if late then s.bump .clsp Clsp.CNT_LATE_RECORDS
  else
    let own := if s.clasp.own.any (fun d => d.w == w) then
        s.clasp.own.map (fun d => if d.w = w then d.add r else d)
      else s.clasp.own ++ [({ w := w } : DigWin).add r]
    { s with clasp := { s.clasp with own } }

/-- A first pass of a paired context from an external port is recorded (R290). -/
def State.digest (s : State) (r : Pass) (dests : List Nat) (outcome : Nat) : State :=
  let role := s.fld .clsp Clsp.ROLE_STATUS_ROLE
  let f := s.frame r.frame
  let paired : Bool := match r.bound with | some n => s.ctxF n s.activeBank 0 3 3 == 1 | none => false
  if s.flag .clsp Clsp.PAIR_CFG_PAIR_EN ∧ s.flag .clsp Clsp.PAIR_CFG_DIG_EN ∧ (role = 3 ∨ role = 4) ∧ paired ∧ !r.second ∧
      f.ingress < 32 then
    let t := s.domNsAt (s.fld .clsp Clsp.PAIR_CFG_DIG_DOMAIN) f.tsLocal
    s.digRecord { ctx := r.bound.getD 0, seq := if f.hasRtag then beAt r.key 24 2 else 0, port := f.ingress, colour := r.colour
                  outcome, dest := bitmapOf (dests.filter (· < 32)), ns := t % 2 ^ 32 } (t / 2000)
  else s

/-- OUTCOME of a pass that is dropped by no stage: FORWARD, or NO_DEST where it makes no copy. -/
def Pass.outcome (r : Pass) : Nat :=
  if r.dests.isEmpty && r.recirc.isNone && !r.cpuMgmt && !r.cpuHost && r.mirrors.isEmpty && !r.sample then 5 else 0

/-- The provisional length of a pass whose frame has not ended: MAX_SDU of its context where that is not 0 (R125). -/
def State.provision (s : State) (r : Pass) : State :=
  let f := s.frame r.frame
  match r.ctx with
  | some n => if f.ended ∨ s.ctxF n r.bank 2 13 0 = 0 then s else s.setFrame r.frame { f with provLen := s.ctxF n r.bank 2 13 0 }
  | none => s

/-- A pass with the queues of its copies (R151, R169). -/
def State.withQueues (s : State) (r : Pass) : Pass :=
  { r with queues := (passCopies r).map (fun c => (c.1, s.queueFor r c.2 c.1)) }

/-- A pass that is discarded after its meter decision and before its frame's end has its whole charge returned (R168). -/
def State.refund (s : State) (i : Nat) : State :=
  let f := s.frame i
  match f.meter with
  | some c => (s.meterReturn c c.bits).setFrame i { f with meter := none }
  | none => s

/-- A pass result at the policer: the fabric check, the sequence function, the stream filter, the meter, the record
(R164, R251, R263, R290). It goes on to admission. -/
def State.policePass (s : State) (r : Pass) (fabBad : List Nat) (frerBad : Bool) : State :=
  let (r, s) := (s.provision r).fabricCheck r fabBad
  let dests := r.dests
  let (goOn, s) := match r.ctx with
    | some n =>
      if s.inRun .frer ∧ s.ctxF n r.bank 0 2 2 = 1 then s.frerRun r (s.ctxF n r.bank 1 28 16 % 4096) frerBad else (true, s)
    | none => (true, s)
  let (outcome, r, s) :=
    if r.dropped then (1, r, s)
    else if !goOn then (4, r.clear, s)
    else
      let (res, r, s) := s.police r
      (match res with | .sdu => 2 | .metered => 3 | .pass => r.outcome, r, s)
  let s := s.digest r dests outcome
  s.mapDp (fun d => { d with admits := d.admits ++ [s.withQueues r] })

end Sys2Proof.Machine
end

