-- ==== Sys2Proof/Machine/Ingress.lean ====
section
/-! DEFINITION. The ingress: the start and the end of a received frame, frames that the device itself makes, the parse window, the
entry of a key into the classifier, the cut-through decision (R49–R52, R63–R74, R81, R121, R125, R168, R234, R268, R511). -/
namespace Sys2Proof.Machine

/-- A frame's window is handed to the parser. -/
def State.pushWindow (s : State) (i : Nat) : State := s.mapDp (fun d => { d with windows := d.windows ++ [i] })

/-- A new frame enters the store; one that is dropped from its start takes no cell. -/
def State.newFrame (s : State) (f : Frame) : Nat × State :=
  let i := s.dp.nextFrame
  (i, (s.mapDp (fun d => { d with nextFrame := i + 1 })).storeFrame i f (if f.gone then 0 else cellsOf f.bytes.length))

/-- The ingress times of a frame at port `p` (R233, R234). -/
def State.stamp (s : State) (p frac : Nat) (f : Frame) : Frame :=
  let t := s.ingressTime p frac
  { f with tsLocal := t, tsSw := s.selNs (s.rxSel p) t % 2 ^ 32 }

/-- A received frame is a Barost credit frame: its header is of TYPE CREDIT (R57, R246, R256). -/
def State.isCredit (s : State) (l : List Byte) : Bool :=
  beAt l 12 2 == s.fld .prs Prs.BAROST_CFG_ETYPE && (readBarost l 12).type == 1

/-- A frame begins at a wired port, from the wire or in loopback (R60, R234); on a protected port the parser sees its bytes decrypted (R374). It is
refused where BUF withholds ready (R33); a credit frame never enters the buffer (R256). -/
def State.rxBegin (s : State) (p : Nat) (head : List Byte) (frac : Nat) (loop : Bool) : State :=
  if !s.inRun (.etp p) ∨ s.fld (.etp p) Etp.LINK_STATUS_LST ≠ 2 ∨ s.dp.rx.get p ≠ 0 then s
  else
    let refused := !s.inRun .buf
    let credit := decide (p < 32) && s.isCredit head
    let early := s.rxHead p head
    let prot := match early with | some (_, d) => d | none => false
    let (i, t) := s.newFrame (s.stamp p frac
      { bytes := match early with | some (l, _) => l | none => head, wire := if prot then head else [], prot
        secured := s.rxProtected p && s.inRun .msec, ingress := p, current := p, provLen := s.fld (.etp p) Etp.MAX_LEN_LEN
        gone := refused || credit, refused, loop })
    let t := t.mapDp (fun d => { d with rx := d.rx.set p i })
    if early.isSome ∧ !refused ∧ !credit then t.pushWindow i else t

/-- The port's near-end loopback is on (R60): it receives the frames that it sends, and none from the wire. -/
def State.looped (s : State) (p : Nat) : Bool := decide (p < 32) && s.flag (.etp p) Etp.SERDES_LOOP

/-- A frame from the wire begins at a wired port (R234). -/
def State.rxStart (s : State) (p : Nat) (head : List Byte) (frac : Nat) : State :=
  if s.looped p then s else s.rxBegin p head frac false

/-- The presentation time of a frame that port `p` presents (R243): TS_SW and the port's offset, both as they are at its arrival, so that every copy
carries the same (DEDUCED, log entry 109). -/
def State.ptimeOf (s : State) (p ts : Nat) : Option Nat :=
  if p = 35 ∧ s.flag .time Time.AVTP_CFG_PT35_EN then some ((ts + s.fld .time Time.PT_OFFSET35_NS) % 2 ^ 32)
  else if p = 34 ∧ s.flag .time Time.AVTP_CFG_PT34_EN then some ((ts + s.fld .time Time.PT_OFFSET34_NS) % 2 ^ 32)
  else none

/-- A whole frame that the device presents at an internal port (R65, R317, R326, R353, R407). -/
def State.inject (s : State) (p : Nat) (bytes : List Byte) (tiw : Option TimeInstr) (direct : Option (Nat × Nat)) : State :=
  let s := (s.bump (.etp p) Etp.CNT_RX_FRAMES).bump (.etp p) Etp.CNT_RX_BYTES bytes.length
  if !s.inRun .buf then s.clocked .buf (fun s => s.bump .buf Buf.CNT_INPUT_REFUSED)
  else
    let f := s.stamp p 0 { bytes, ended := true, ingress := p, current := p, tiw, direct }
    let (i, t) := s.newFrame { f with ptime := s.ptimeOf p f.tsSw }
    t.pushWindow i

/-! ## The end of a frame -/

/-- The first counter of R49 that a received frame counts in, if it is errored. -/
def State.rxError (s : State) (p : Nat) (l : List Byte) (code : Bool) : Option Nat :=
  let max := s.fld (.etp p) Etp.MAX_LEN_LEN
  let long := decide (max < l.length)
  if code || (!long && decide (l.length < 4 ∨ l.drop (l.length - 4) ≠ fcsBytes (dropFcs l))) then some Etp.CNT_RX_FCS_ERR
  else if l.length < 64 then some Etp.CNT_RX_RUNT
  else if long then some Etp.CNT_RX_OVERSIZE
  else if beAt l 12 2 = 0x8808 then some Etp.CNT_RX_MAC_CTRL
  else none

/-- The bytes of the frame's pass are credited to the counters that waited for its length. -/
def State.creditOwed (s : State) (f : Frame) (len : Nat) : State :=
  { s with counters := f.owed.foldl (fun m k => m.modify k (· + len)) s.counters }

/-- The charge of a waiting copy becomes what the frame's length makes it, in its queue and where its port has selected it (R125). -/
def State.recharge (s : State) (c : Copy) (len : Nat) : State :=
  let n := if c.charge = 0 then 0 else if c.kind = .sample then 1 else cellsOf len
  let t := s.mapQueue c.queue (fun q =>
    { q with copies := q.copies.map (fun d => if d = c then { d with charge := n } else d), used := q.used - (c.charge - n) })
  t.mapEgress c.port (fun e => if e.selected = some c then { e with selected := some { c with charge := n } } else e)

/-- What the end of a frame makes of its pass, policed at a provisional length (R165, R168, R268): the stream filter counts a frame beyond its
MAX_SDU; the meter gets back the difference, or all where the frame is `bad` or beyond its provisional length; then the recovery function
withdraws its acceptance too. -/
def State.settlePass (s : State) (i len : Nat) (bad : Bool) : State :=
  let f := s.frame i
  let drop := bad || decide (f.provLen < len)
  let s := match f.ctx with
    | some n => if f.sduLimit ≠ 0 ∧ f.sduLimit < len then s.countSdu n else s
    | none => s
  let s := match f.meter with
    | some c => if drop then s.refund i else s.meterReturn c (8000000 * (f.provLen - len))
    | none => s
  let s := if drop then s.frerRevoke f else s
  s.setFrame i { s.frame i with meter := none, sduLimit := 0 }

/-- The copies of an admitted frame that is good at its end: those longer than their egress ports allow are discarded, the charges of the
others become actual (R125, R511). -/
def State.settleCopies (s : State) (i len : Nat) : State :=
  let f := s.frame i
  let long (c : Copy) : Bool := decide (s.fld (.etp c.port) Etp.MAX_LEN_LEN < s.sentLen f c.kind c.port)
  let s := s.each ((s.copiesOf i).filter long) (fun s c => (s.discardCopy c).bump (.etp c.port) Etp.CNT_TX_REFUSED)
  s.each (s.copiesOf i) (fun s c => s.recharge c len)

/-- The deferred checks of a frame at its end (R72, R74): the flags they give are counted. Answers whether they drop the frame, which is then
counted and handled as errored. LEN_ACTION is that of the frame's bank (DEDUCED, log entry 93). -/
def State.deferredChecks (s : State) (i len : Nat) : Bool × State :=
  let f := s.frame i
  let fl := lengthFlags f.deferred len f.l3
  if fl = 0 ∨ !f.parsed then (false, s)
  else
    let s := s.countFlags fl
    if dropCause (s.prsCfg f.bank) fl = 0 then (false, s)
    else (true, s.parserDrop f.ingress f.pass f.profile (f.flags ||| fl))

/-- A frame that has not been admitted, with the lossless class that its Barost header names (R131, R246). A credit frame uses no credit
(R256). -/
def State.headerClass (s : State) (f : Frame) : Frame :=
  let tc := (readBarost f.bytes 12).tc
  if s.fabricPort f.current ∧ beAt f.bytes 12 2 = s.fld .prs Prs.BAROST_CFG_ETYPE ∧ 6 ≤ tc ∧ !s.isCredit f.bytes then
    { f with lossless := some tc }
  else { f with lossless := none }

/-- The end of a frame that its port received, stored with the bytes `l` (decrypted on a protected port). The credit that its sender used is
counted, whatever becomes of the frame (R131). `bad` says that it is errored, or refused by a check of its port (R49, R373): it is discarded
with all that it charged (R49, R74, R374). BUF stops writing cells at the provisional length: a started copy ends there at the latest (R125). -/
def State.endFrame (s : State) (i : Nat) (l : List Byte) (prot bad : Bool) : State :=
  let f := s.frame i
  let s := s.storeFrame i { f with bytes := l, ended := true, prot, secured := false, wire := [] } (if f.gone then 0 else cellsOf (min l.length f.provLen))
  let s := (s.creditOwed f l.length).noteLength i l.length
  let s := s.creditReceived (if f.decided then s.frame i else s.headerClass (s.frame i))
  let (dropped, s) := if bad then (false, s) else s.deferredChecks i l.length
  let s := s.settlePass i l.length (bad || dropped)
  if bad || dropped || decide (f.provLen < l.length) then
    (s.setFrame i { s.frame i with bytes := l.take (f.provLen + 4) }).discardFrame i
  else if f.gone then s.setFrame i {}
  else
    let s := if f.decided then s.settleCopies i l.length else s
    if f.parsed || s.dp.windows.contains i then s else s.pushWindow i

/-- The grants of a valid header that arrives on a fabric port (R254). -/
def State.grantsIn (s : State) (p : Nat) (l : List Byte) : State :=
  let h := readBarost l 12
  if s.fabricPort p ∧ beAt l 12 2 = s.fld .prs Prs.BAROST_CFG_ETYPE ∧ barostValid l 12 then
    s.creditArrives p (h.crst == 1) h.grant6 h.grant7
  else s

/-- A received credit frame (R57, R256): an EDGE port drops it as MAC control. -/
def State.creditFrameIn (s : State) (p : Nat) (l : List Byte) : State :=
  if !s.fabricPort p then s.bump (.etp p) Etp.CNT_RX_MAC_CTRL
  else
    let s := s.bump .fab Fab.CNT_CREDIT_RECEIVED
    if barostValid l 12 then s.grantsIn p l else (s.bump .fab Fab.CNT_HDR_BAD).raise .fab 8

/-- The bytes that MSEC lets through of a received frame, and whether it has decrypted them. -/
def RxSec.passes (l : List Byte) : RxSec → Option (List Byte × Bool)
  | .plain _ => some (l, false)
  | .decrypted m => some (m, true)
  | _ => none

/-- A good frame ends at a wired port, whatever it is: on a protected port it takes the steps of R373 and R375 first. A credit frame is consumed (R256),
the grants of another are read (R254), behind its SecTAG on a protected port (R371, R373). RX_FRAMES counts no credit frame (R256). -/
def State.rxGood (s : State) (p i : Nat) (l : List Byte) (bad : Option (Nat × Nat × Nat)) : State :=
  let (r, sa) := if s.rxProtected p then s.rxSecurity p l (s.frame i).secured (bad.map secWord) else (.plain none, none)
  let m := r.passes l
  let credit := decide (p < 32) && s.isCredit (match m with | some x => x.1 | none => l)
  let s := if credit then s else (s.bump (.etp p) Etp.CNT_RX_FRAMES).bump (.etp p) Etp.CNT_RX_BYTES l.length
  let s := s.rxSecEffects p r sa
  match m with
  | some (m, prot) => if credit then (s.creditFrameIn p m).discardFrame i else (s.grantsIn p m).endFrame i m prot false
  | none => if credit then s.discardFrame i else s.endFrame i l false true

/-- The frame in reception at a port ends (R49). `rest` holds its bytes after those of its start, `code` says that a PCS code error or an
uncorrectable codeword lay within it; `bad` names an MSEC table word whose reading fails (R383). A frame that BUF refused is counted there and by no
counter of its port (chapter 6, BUF page). -/
def State.rxClose (s : State) (p : Nat) (rest : List Byte) (code : Bool) (bad : Option (Nat × Nat × Nat)) : State :=
  let i := s.dp.rx.get p
  let f := s.frame i
  let l := (f.received ++ rest).take (s.fld (.etp p) Etp.MAX_LEN_LEN + 1)
  let s := s.mapDp (fun d => { d with rx := d.rx.set p 0 })
  let err := s.rxError p l (code || f.code)
  if err.isNone ∧ p < 32 ∧ s.isCredit l then s.rxGood p i l bad
  else if f.refused then
    let s := s.bump .buf Buf.CNT_INPUT_REFUSED
    if err.isSome then s.endFrame i l false true else (s.grantsIn p l).endFrame i l false true
  else match err with
    | some cnt => (s.bump (.etp p) cnt).endFrame i l false true
    | none => s.rxGood p i l bad

/-- The frame in reception at a port ends, and writes to the port's receive tables that waited for it are performed (R49, R373). -/
def State.rxFinish (s : State) (p : Nat) (rest : List Byte) (code : Bool) (bad : Option (Nat × Nat × Nat)) : State :=
  (s.rxClose p rest code bad).saSettle p

/-- A frame from the wire ends (R49), and the codewords that came meanwhile are counted, within a frame or not: `corr` were corrected and `uncorr`
found uncorrectable (R46, R61, R62); `secBad` names an MSEC table word whose reading for it fails (R383). -/
def State.rxEnd (s : State) (p : Nat) (rest : List Byte) (code : Bool) (corr uncorr : Nat) (secBad : Option (Nat × Nat × Nat)) : State :=
  let s := if corr = 0 then s else s.bump (.etp p) Etp.CNT_RX_FEC_CORR corr
  let s := if uncorr = 0 then s else (s.bump (.etp p) Etp.CNT_RX_FEC_UNCORR uncorr).raise (.etp p) 11
  if s.dp.rx.get p = 0 ∨ (s.frame (s.dp.rx.get p)).loop then s else s.rxFinish p rest code secBad

/-! ## The parse window (R63–R74) -/

/-- The parser drops a frame before its classification: its cells are freed and no copy is made (R74). -/
def State.dropWindow (s : State) (i : Nat) : State :=
  let f := s.frame i
  let s := if f.pass = 1 then s.recircLeave f.bank else s
  s.freeFrame i

/-- The input that the parser grants its next window slot (R65): RECIRC has one slot in eight at least, and the others take turns in ascending port
number. `recirc` says that a slot which may go to either goes to RECIRC. -/
def State.grantPort (s : State) (recirc : Bool) : Option Nat :=
  let ports := s.dp.windows.map (fun i => (s.frame i).current)
  let others := (List.range 38).filter (fun p => p != 36 && ports.contains p)
  if ports.contains 36 ∧ (recirc ∨ others = [] ∨ 7 ≤ s.dp.prsSlots) then some 36
  else match others.find? (fun p => decide (s.dp.prsLast < p)) with
    | some p => some p
    | none => others.head?

/-- The arbiter after a slot for port `p`. -/
def State.slotTaken (s : State) (p : Nat) : State :=
  s.mapDp (fun d => if p = 36 then { d with prsSlots := 0 } else { d with prsLast := p, prsSlots := d.prsSlots + 1 })

/-- The parser's work on frame `i` (R63–R74). A window that it drops gives no key. -/
def State.parseFrame (s : State) (i : Nat) : State :=
  let f := s.frame i
  let b := if f.pass = 1 then f.bank else s.activeBank
  let c := s.prsCfg b
  let r := parse c (s.barostPort f.ingress) f.prot f.ended f.ingress f.pass b f.bytes
  let s := s.countFlags r.flags
  let drop := decide (dropCause c r.flags ≠ 0)
  let s := s.setFrame i { f with parsed := true, profile := r.profile, flags := r.flags, l3 := r.l3, key := r.key
                                 deferred := if drop then none else r.deferred, bank := b }
  if drop then (s.parserDrop f.ingress f.pass r.profile r.flags).dropWindow i
  else
    let s := s.bump .prs (if f.pass = 1 then Prs.CNT_WINDOWS_SECOND else Prs.CNT_WINDOWS_FIRST)
    s.mapDp (fun d => { d with keys := d.keys ++ [{ frame := i, second := f.pass == 1, key := r.key, direct := f.direct }] })

/-- The parser starts on the oldest window of the input that its arbiter grants (R63, R65). While PRS is not in RUN the frame is dropped. -/
def State.parseWindow (s : State) (recirc : Bool) : State :=
  match s.grantPort recirc with
  | none => s
  | some p =>
    match s.dp.windows.find? (fun i => (s.frame i).current == p) with
    | none => s
    | some i =>
      let s := (s.slotTaken p).mapDp (fun d => { d with windows := d.windows.filter (· != i) })
      if !s.inRun .prs then (s.bump .prs Prs.CNT_INPUT_REFUSED).dropWindow i else s.parseFrame i

/-! ## The classifier's entry (R81, R95) -/

/-- The key with its BANK bit (R76, R81). -/
def setBank (key : List Byte) (b : Nat) : List Byte :=
  key.set 0 (BitVec.ofNat 8 (byteAt key 0 % 128 + 128 * b))

/-- The oldest key enters the classifier (R95). A first pass takes the active bank as its tag (R81); a second pass leaves
RECIRC_CNT (R82). `bad` lists tree words, and `badFib` addresses of FIB words, that read with an uncorrectable error; `corr` tree words and
`corrFib` FIB words are corrected (R94, R120). -/
def State.classifyNext (s : State) (bad badFib : List Nat) (corr corrFib : Nat) : State :=
  match s.dp.keys with
  | [] => s
  | k :: rest =>
    let s := s.mapDp (fun d => { d with keys := rest })
    let f := s.frame k.frame
    let s := if k.second then s.recircLeave f.bank else s
    if !s.inRun .cls then (s.bump .prs Prs.CNT_INPUT_REFUSED).freeFrame k.frame
    else
      let b := if k.second then f.bank else s.activeBank
      let len := if f.ended then some f.bytes.length else none
      let s := (s.bump .cls Cls.CNT_ECC_CORR corr).bump .fib Fib.CNT_ECC_CORR corrFib
      let (r, owed, s) := s.classify { k with bank := b, key := setBank k.key b } len (bad ++ badFib)
      let s := s.setFrame k.frame { s.frame k.frame with bank := b, owed := (s.frame k.frame).owed ++ owed }
      s.mapDp (fun d => { d with results := d.results ++ [r] })

/-- The oldest pass result arrives at the policer (R164). BUF not in RUN withholds ready: the result is discarded (R33). `corrFab` words of the
fabric tables and `corrFrer` words of FUNC_STATE are corrected (R272, R277). -/
def State.policeNext (s : State) (fabBad : List Nat) (frerBad : Bool) (corrFab corrFrer : Nat) : State :=
  match s.dp.results with
  | [] => s
  | r :: rest =>
    let s := s.mapDp (fun d => { d with results := rest })
    if !s.inRun .buf then (s.bump .buf Buf.CNT_INPUT_REFUSED).freeFrame r.frame
    else ((s.bump .fab Fab.CNT_ECC_CORR corrFab).bump .frer Frer.CNT_ECC_CORR corrFrer).policePass r fabBad frerBad

/-- The oldest pass result is admitted (R129). -/
def State.admitNext (s : State) : State :=
  match s.dp.admits with
  | [] => s
  | r :: rest =>
    (s.mapDp (fun d => { d with admits := rest })).admitted r

/-! ## Cut-through (R52) -/

/-- The conditions of R52 for a copy of a frame that has stored 256 bytes. An ingress port is MACsec-protected with RX_EN, an egress port with
TX_EN (DEDUCED, log entry 88). -/
def State.cutAllowed (s : State) (f : Frame) (c : Copy) : Bool :=
  decide (f.ingress < 32) && decide (c.port < 32) && (s.fld (.etp f.ingress) Etp.CT_MAP_MAP).testBit c.port &&
  !s.rxProtected f.ingress && !s.txProtected c.port && decide (s.portKbps c.port ≤ s.portKbps f.ingress) &&
  decide (s.fld (.etp f.ingress) Etp.MAX_LEN_LEN ≤ s.fld (.etp c.port) Etp.MAX_LEN_LEN) && f.pass == 0 &&
  c.kind != .sample && (s.queue c.queue).copies.head? == some c &&
  decide (256 ≤ f.bytes.length)

/-- The cut-through decision of the frame in reception at a port: each of its copies is fixed, once (R52). -/
def State.cutDecision (s : State) (p : Nat) : State :=
  let i := s.dp.rx.get p
  let f := s.frame i
  if i = 0 ∨ f.ended ∨ !f.decided ∨ f.bytes.length < 256 then s
  else s.each (s.copiesOf i) (fun s c =>
    if c.cut.isSome then s
    else s.mapQueue c.queue (fun q =>
      { q with copies := q.copies.map (fun d => if d = c then { d with cut := some (s.cutAllowed f c) } else d) }))

end Sys2Proof.Machine
end

