-- ==== Sys2Proof/Machine/Link.lean ====
section
/-! DEFINITION. The links of the external ports: link states, speed mismatch, MDIO, TC10 sleep, headroom and credit frames
(R45, R53–R59, R256). -/
namespace Sys2Proof.Machine

section
variable (s : State)

/-- LST of a port: 0 DOWN, 1 TRAINING, 2 UP, 3 FAULT, 4 SLEEP (R60). -/
def State.lst (p : Nat) : Nat := s.fld (.etp p) Etp.LINK_STATUS_LST
def State.setLst (p v : Nat) : State := s.setFld (.etp p) Etp.LINK_STATUS_LST v

/-- TST of a port: 0 ACTIVE, 1 SLEEP_PENDING, 2 SLEEP, 3 WAKING (R56). -/
def State.tst (p : Nat) : Nat := s.fld (.etp p) Etp.TC10_STATUS_TST
def State.setTst (p v : Nat) : State := s.setFld (.etp p) Etp.TC10_STATUS_TST v

/-- The TIMEOUT timer of TC10 starts or stops. -/
def State.tc10Time (p : Nat) (on : Bool) : State := s.mapDp (fun d => { d with tc10Timer := d.tc10Timer.set p on })

/-- DOWN_HOLD of a port starts or stops. -/
def State.holdDown (p : Nat) (on : Bool) : State := s.mapDp (fun d => { d with downHold := d.downHold.set p on })

/-! ## Leaving and entering UP (R53, R59, R158) -/

/-- A link leaves UP: credits to 0 and buckets full (R158), credit counters cleared and their stalls ended (R59), the frame in transmission lost,
and a copy selected but not started held in its queue (R53). -/
def State.leaveUp (p : Nat) : State :=
  let s := (s.shapersLinkLost p).clearCredit p
  let s := s.mapDp (fun d => { d with
    creditDue := d.creditDue.set p false, stalled := (d.stalled.set (creditKey p 6) false).set (creditKey p 7) false })
  s.mapEgress p (fun e => if e.sending.isSome then { e with lost := true, selected := none } else { e with selected := none })

/-- A link enters UP: on a fabric port the credit counters start again and, on an external one, a credit frame is due at once (R59, R257,
R301). -/
def State.enterUp (p : Nat) : State :=
  let s := (s.setLst p 2).raise (.etp p) 8
  if s.fabricPort p then
    (s.clearCredit p).mapDp (fun d =>
      { d with crst := d.crst.set p true, upAt := d.upAt.set p s.now, creditDue := d.creditDue.set p (decide (p < 32)) })
  else s

/-- The frame in reception was touched by a loss of lock (R53). -/
def State.touchRx (p : Nat) : State :=
  let i := s.dp.rx.get p
  if i = 0 then s else s.setFrame i { s.frame i with code := true }

/-- The MDIO master of a port. -/
def State.mdioMaster (p : Nat) : Nat := s.fld (.etp p) Etp.PHY_BUS

/-- An access joins a master's queue. -/
def State.mdioPush (r : MdioReq) : State :=
  let m := s.mdioMaster r.port
  (s.mapDp (fun d => { d with mdio := d.mdio.set m (d.mdio.get m ++ [r]) })).setFld .sys (Sys.MDIO_CFG_BUSY m) 1

/-- The link leaves UP while a sleep is pending: the device reads the PHY's asleep bit through the port's MDIO master, and goes on when the
answer is there (R56; how it reads the bit is log entry 84). -/
def State.askAsleep (p : Nat) : State :=
  if s.tst p = 1 then
    s.mdioPush { port := p, use := .asleep, write := false, cl45 := s.flag (.etp p) Etp.PHY_CL45
                 devad := s.fld (.etp p) Etp.TC10_REG_DEVAD, reg := s.fld (.etp p) Etp.TC10_REG_ADDR, data := 0 }
  else s

/-- UP or FAULT to DOWN, and at once TRAINING again (R53), but for port 37, which is DOWN until a lane is UP (R279); with a sleep pending, R56
decides by the PHY's asleep bit. -/
def State.linkDown (p : Nat) : State :=
  let up := s.lst p == 2
  let s := if up then s.leaveUp p else s.clearCredit p
  let s := ((s.setLst p (if p = 37 then 0 else 1)).raise (.etp p) 9).bump (.etp p) Etp.CNT_LINK_DOWNS
  let s := s.holdDown p false
  let s := ((s.setFld (.etp p) Etp.LINK_STATUS_LOCAL_FAULT 0).setFld (.etp p) Etp.LINK_STATUS_REMOTE_FAULT 0)
  if up then s.askAsleep p else s

/-- The page's link when the page enters OFF (R53, R56). -/
def State.linkOff (p : Nat) : State :=
  let was := s.lst p
  let s := if was = 2 then s.leaveUp p else s.clearCredit p
  let s := if was = 2 ∨ was = 3 then (s.raise (.etp p) 9).bump (.etp p) Etp.CNT_LINK_DOWNS else s
  let s := (s.setLst p 0).setFld (.etp p) Etp.LINK_STATUS_PCS_LOCK 0
  let s := ((s.setFld (.etp p) Etp.LINK_STATUS_FEC_LOCK 0).setFld (.etp p) Etp.LINK_STATUS_LOCAL_FAULT 0).setFld (.etp p) Etp.LINK_STATUS_REMOTE_FAULT 0
  ((s.setTst p 0).tc10Time p false).holdDown p false

/-- The page's link when the page enters RUN or DRAINING (R53). -/
def State.linkOn (p : Nat) : State := if s.lst p = 0 then s.setLst p 1 else s

/-! ## Events of the link of an external port (R45, R53); the state of port 37 follows its lanes (R302) -/

/-- RS-FEC is in use on the port (R46). -/
def State.fecOn (p : Nat) : Bool := s.fld (.etp p) Etp.MODE_MODE == 4 && s.flag (.etp p) Etp.MODE_FEC

/-- The PCS, and RS-FEC where it is in use, show their locks. -/
def State.showLock (p : Nat) : State :=
  (s.setFld (.etp p) Etp.LINK_STATUS_PCS_LOCK 1).setFld (.etp p) Etp.LINK_STATUS_FEC_LOCK (b2n (s.fecOn p))

/-- PCS lock, block or symbol lock is acquired in TRAINING. -/
def State.pcsLock (p : Nat) : State := if p < 32 ∧ s.lst p = 1 then s.showLock p else s

/-- Lock has been held for UP_HOLD (R53): the lane is powered in every state of the page but OFF, where LST is DOWN (R48). TC10 in WAKING ends
in ACTIVE (R56). -/
def State.upHold (p : Nat) : State :=
  if p < 32 ∧ s.lst p = 1 ∧ s.flag (.etp p) Etp.LINK_STATUS_PCS_LOCK ∧ !s.flag (.etp p) Etp.LINK_STATUS_SPEED_MISMATCH then
    let s := s.enterUp p
    if s.tst p = 3 then (s.setTst p 0).tc10Time p false else s
  else s

/-- PCS lock is lost (R53). -/
def State.pcsLoss (p : Nat) : State :=
  if 32 ≤ p then s
  else
    let s := (s.setFld (.etp p) Etp.LINK_STATUS_PCS_LOCK 0).setFld (.etp p) Etp.LINK_STATUS_FEC_LOCK 0
    if s.lst p = 2 ∨ s.lst p = 3 then (s.touchRx p).holdDown p true else s

/-- The loss has lasted DOWN_HOLD (R53). -/
def State.downHoldEnds (p : Nat) : State :=
  if s.dp.downHold.get p then (if s.lst p = 2 ∨ s.lst p = 3 then s.linkDown p else s.holdDown p false) else s

/-- Lock is regained within DOWN_HOLD (R53). -/
def State.pcsRegained (p : Nat) : State :=
  if s.dp.downHold.get p then (s.holdDown p false).showLock p else s

/-- A fault ordered set is received (R53). -/
def State.faultSet (p : Nat) (remote : Bool) : State :=
  if p < 32 ∧ (s.lst p = 2 ∨ s.lst p = 3) then
    let s := s.setFld (.etp p) (if remote then Etp.LINK_STATUS_REMOTE_FAULT else Etp.LINK_STATUS_LOCAL_FAULT) 1
    if s.lst p = 2 then
      let s := (s.leaveUp p).setLst p 3
      let s := if remote then s.raise (.etp p) 10 else s
      s.askAsleep p
    else s
  else s

/-- Fault ordered sets have ceased for 128 µs (R53). -/
def State.faultEnds (p : Nat) : State :=
  if p < 32 ∧ s.lst p = 3 then
    ((s.setFld (.etp p) Etp.LINK_STATUS_LOCAL_FAULT 0).setFld (.etp p) Etp.LINK_STATUS_REMOTE_FAULT 0).enterUp p
  else s

/-- SGMII in-band status reports a speed other than 1000 Mb/s full duplex (R45). -/
def State.speedBad (p : Nat) : State :=
  if p < 32 ∧ s.fld (.etp p) Etp.MODE_MODE = 0 then
    let was := s.flag (.etp p) Etp.LINK_STATUS_SPEED_MISMATCH
    let s := s.setFld (.etp p) Etp.LINK_STATUS_SPEED_MISMATCH 1
    let s := if was then s else s.raise (.etp p) 16
    if s.lst p = 2 ∨ s.lst p = 3 then s.linkDown p else s
  else s

/-- In-band status reports 1000 Mb/s full duplex (R45). -/
def State.speedGood (p : Nat) : State := if p < 32 then s.setFld (.etp p) Etp.LINK_STATUS_SPEED_MISMATCH 0 else s

/-! ## MDIO (R54, R55) -/

/-- A TC10 access to a bit of the PHY (R56). -/
def State.mdioTc10 (p bit : Nat) (set : Bool) : State :=
  s.mdioPush { port := p, use := .tc10 bit set, write := false, cl45 := s.flag (.etp p) Etp.PHY_CL45
               devad := s.fld (.etp p) Etp.TC10_REG_DEVAD, reg := s.fld (.etp p) Etp.TC10_REG_ADDR, data := 0 }

/-- A write to MDIO_CMD (R55): OP 1 queues a read and OP 2 a write, 0 and 3 are ignored; while BUSY is 1 any write is refused.
Ports 32 to 37 have no such register (R60, R302). -/
def State.mdioCmd (src : Src) (p op : Nat) : State :=
  if 32 ≤ p then s
  else if s.flag (.etp p) Etp.MDIO_CMD_BUSY then s.refuse src (.etp p) 7 0x148
  else if op % 4 = 1 ∨ op % 4 = 2 then
    (s.setFld (.etp p) Etp.MDIO_CMD_BUSY 1).mdioPush
      { port := p, use := .soft, write := op % 4 == 2, cl45 := s.flag (.etp p) Etp.MDIO_ADDR_CL45
        devad := s.fld (.etp p) Etp.MDIO_ADDR_DEVAD, reg := s.fld (.etp p) Etp.MDIO_ADDR_REG, data := s.fld (.etp p) Etp.MDIO_DATA_DATA }
  else s

/-- The bit of a 16-bit word set or cleared. -/
def putBit (w b : Nat) (v : Bool) : Nat := if w.testBit b = v then w else w ^^^ 2 ^ b

/-- The MDIO frame of an access (R54): MDIO_CFG's NO_PRE leaves out its preamble, and a Clause 22 frame has a 5-bit register address. -/
def State.mdioFrame (m : Nat) (r : MdioReq) : Output :=
  .mdio m (!s.flag .sys (Sys.MDIO_CFG_NO_PRE m)) (s.fld (.etp r.port) Etp.PHY_ADDR) r.write r.cl45 r.devad
    (if r.cl45 then r.reg else r.reg % 32) r.data

/-- A read frame completes, whoever asked for it (R55): an answer clears ERROR; without one ERROR is 1, DATA 0xFFFF and the error is logged. -/
def State.mdioRead (p : Nat) (answer : Option Nat) : State :=
  match answer with
  | some _ => s.setFld (.etp p) Etp.MDIO_CMD_ERROR 0
  | none =>
    ((s.setFld (.etp p) Etp.MDIO_DATA_DATA 0xFFFF).setFld (.etp p) Etp.MDIO_CMD_ERROR 1).logErr (.etp p) 0x20 srcDevice

/-- The link goes to SLEEP, without LINK_DOWN (R53, R56). -/
def State.linkSleeps (p : Nat) : State :=
  let s := if s.lst p = 2 then s.leaveUp p else s
  (s.setLst p 4).holdDown p false

/-- The PHY's asleep bit has been read after the link left UP with a sleep pending (R56): 1 ends in SLEEP, 0, or no answer, in ACTIVE. -/
def State.asleepRead (p : Nat) (answer : Option Nat) : State :=
  if s.tst p = 1 then
    if (answer.getD 0).testBit (s.fld (.etp p) Etp.TC10_CTRL_ASLEEP_BIT) then
      (((s.setTst p 2).linkSleeps p).tc10Time p false).raise (.etp p) 14
    else (s.setTst p 0).tc10Time p false
  else s

/-- The frame in progress at master `m` completes (R55). `answer` is the data that the PHY returned, none where it drove no
turnaround. A TC10 access whose read has no answer is given up (DESIGN CHOICE, log entry 85). -/
def State.mdioDone (m : Nat) (answer : Option Nat) : State :=
  match s.dp.mdio.get m with
  | [] => s
  | r :: rest =>
    let s := s.emit (s.mdioFrame m r)
    let s := if r.write then s else s.mdioRead r.port answer
    let put (s : State) (q : List MdioReq) : State :=
      (s.mapDp (fun d => { d with mdio := d.mdio.set m q })).setFld .sys (Sys.MDIO_CFG_BUSY m) (b2n (!q.isEmpty))
    match r.use with
    | .tc10 bit set =>
      (match r.write, answer with
       | false, some v => put s ({ r with write := true, data := putBit v bit set } :: rest)
       | _, _ => put s rest)
    | .asleep => (put s rest).asleepRead r.port answer
    | .soft =>
      let s := put s rest
      let s := match r.write, answer with
        | false, some v => s.setFld (.etp r.port) Etp.MDIO_DATA_DATA v
        | _, _ => s
      (s.setFld (.etp r.port) Etp.MDIO_CMD_BUSY 0).raise (.etp r.port) 12

/-! ## TC10 (R56) -/

/-- The sleep-request bit of the PHY set or cleared; the wake-request bit set. -/
def State.phySleep (p : Nat) (on : Bool) : State := s.mdioTc10 p (s.fld (.etp p) Etp.TC10_REG_SLEEP_BIT) on
def State.phyWake (p : Nat) : State := s.mdioTc10 p (s.fld (.etp p) Etp.TC10_REG_WAKE_BIT) true

/-- SLEEP_REQ taken (R56). -/
def State.tc10Sleep (p : Nat) : State := if p < 32 ∧ s.tst p = 0 then (s.setTst p 1).tc10Time p true else s

/-- WAKE_REQ taken (R56). -/
def State.tc10Wake (p : Nat) : State :=
  if s.tst p = 1 then ((s.setTst p 0).tc10Time p false).phySleep p false
  else if s.tst p = 2 then ((s.setTst p 3).setLst p 1 |>.tc10Time p true).phyWake p
  else s

/-- The egress queues of a port in SLEEP_PENDING are empty (R56). -/
def State.tc10Empty (p : Nat) : State := if s.tst p = 1 ∧ (s.copiesAt p).isEmpty then s.phySleep p true else s

/-- TIMEOUT expires (R56). -/
def State.tc10Timeout (p : Nat) : State :=
  if s.tst p = 1 then
    (((s.setTst p 0).tc10Time p false).phySleep p false).logErr (.etp p) 0x21 srcDevice
  else if s.tst p = 3 then (s.phyWake p).logErr (.etp p) 0x21 srcDevice
  else s

/-- The PHY reports TC10 sleep in UP (R53, R56). R56 lists nothing of it in ACTIVE: the link sleeps and TST stays (DEDUCED, log entry 84). -/
def State.phyAsleep (p : Nat) : State :=
  if p < 32 ∧ s.lst p = 2 then
    let s := s.linkSleeps p
    if s.tst p = 1 then ((s.setTst p 2).tc10Time p false).raise (.etp p) 14 else s
  else s

/-- A remote wake in SLEEP (R56); of a link that sleeps while TST is ACTIVE, LST alone goes to TRAINING (R53; log entry 84). -/
def State.tc10Remote (p : Nat) : State :=
  if s.tst p = 2 then
    (((s.setTst p 3).setFld (.etp p) Etp.TC10_STATUS_REMOTE_WAKE 1).raise (.etp p) 13 |>.setLst p 1).tc10Time p true
  else if s.lst p = 4 then s.setLst p 1
  else s

/-! ## Headroom and credit frames (R57–R59, R256) -/

/-- HEADROOM of an external fabric port, and of port 37 (R58, R301). -/
def State.headroomOf (p : Nat) : Nat :=
  let maxLen := s.fld (.etp p) Etp.MAX_LEN_LEN
  let mode := s.fld (.etp p) Etp.MODE_MODE
  let fec := s.fld (.etp p) Etp.MODE_FEC
  if p = 37 then
    if s.flag .clsp Clsp.PAIR_CFG_PAIR_EN then
      ceilDiv (25000 * (2 * 5 + (2 * (rxLatency 4 0 + txLatency 4 0) + 64) + 1000)) 1024000 + 2 * cellsOf maxLen
    else 0
  else if s.fabricPort p then
    let rtt := 2 * (5 * s.fld (.etp p) Etp.LOSSLESS_CABLE_M + s.fld (.etp p) Etp.LOSSLESS_PHY_NS) +
      (2 * (rxLatency mode fec + txLatency mode fec) + 64) + s.fld (.etp p) Etp.CREDIT_CFG_INTERVAL
    ceilDiv (modeKbps mode / 1000 * rtt) 1024000 + 2 * cellsOf maxLen
  else 0

/-- HEADROOM is computed anew (R58). -/
def State.setHeadroom (p : Nat) : State := s.setFld (.etp p) Etp.HEADROOM_CELLS (s.headroomOf p)

/-- INTERVAL expires on a fabric port whose link is UP: a credit frame is due (R59). -/
def State.creditInterval' (p : Nat) : State :=
  if p < 32 ∧ s.fabricPort p ∧ s.lst p = 2 then s.mapDp (fun d => { d with creditDue := d.creditDue.set p true }) else s

/-- A standalone credit frame of a port (R256), with the grants it carries. -/
def State.creditFrame (p : Nat) : List Byte × State :=
  let h : Barost := { type := 1, tc := 7, src := if s.nodeValid then s.fld .fab Fab.NODE_ID else 0
                      dst := (s.neighbour p).getD 0, origPort := p }
  let (h, s) := s.grantHeader p h
  let addr (hi lo : Fld) : List Byte := beBytes 2 (s.fld .fab hi) ++ beBytes 4 (s.fld .fab lo)
  let sa := addr Fab.LINK_SA_HI_SA Fab.LINK_SA_LO_SA
  let sa := sa.set 5 (BitVec.ofNat 8 (byteAt sa 5 / 64 * 64 + p))
  (refcs (addr Fab.LINK_DA_HI_DA Fab.LINK_DA_LO_DA ++ sa ++ writeBarost (s.fld .prs Prs.BAROST_CFG_ETYPE) h ++
    List.replicate 32 0), s)

/-- The conditions of R256 at a decision point. -/
def State.creditMaySend (p : Nat) : Bool :=
  let d := s.fld (.tgate p) Tgate.GATE_CFG_DOMAIN
  (s.egress p).sending.isNone && (s.egress p).selected.isNone && (s.choose p (s.startPs p none)).isNone &&
    !s.exclusiveOpen p &&
    (match s.nextChange p with
     | none => true
     | some t => decide (s.startPs p none + 84 * 8 * 1000000000 / s.portKbps p < 1000 * t ∧ s.domNs d ≤ t))

/-- A due credit frame is sent at a decision point of an external port that lets it (R256, R301). -/
def State.creditSend (p : Nat) : State :=
  if p < 32 ∧ s.dp.creditDue.get p ∧ s.lst p = 2 ∧ s.creditMaySend p then
    let (l, s) := s.creditFrame p
    ((s.mapDp (fun d => { d with creditDue := d.creditDue.set p false })).bump .fab Fab.CNT_CREDIT_SENT).emit (.frame p l)
  else s

/-- A lossless class has waited with zero credit for STALL_LIMIT (R59): counted once per stall. -/
def State.creditStall (p c : Nat) : State :=
  let waits := !(s.busyQueues (8 * p + c)).isEmpty
  let k := creditKey p c
  if s.fabricPort p ∧ waits ∧ s.fld (.etp p) (creditFld c) = 0 ∧ !s.dp.stalled.get k then
    ((s.mapDp (fun d => { d with stalled := d.stalled.set k true })).bump (.etp p) Etp.CNT_CREDIT_STALLS).raise (.etp p) 15
  else s

end

end Sys2Proof.Machine
end

