-- ==== Sys2Proof/Machine/StateWords.lean ====
section
/-! DEFINITION. The live state of the scheduler's nodes, the meters and the sequence functions as the words that the state tables show
(R175, R275). -/
namespace Sys2Proof.Machine

/-- Bits hi to lo of a value, put at a place of a word. -/
def place (v width lsb : Nat) : Nat := v % 2 ^ width * 2 ^ lsb

/-- Words of SUBQ_STATE (R175). -/
def State.subqWord (s : State) (q k : Nat) : Nat :=
  let t := unsigned 64 (if s.qRate q = 0 then (s.queue q).tokens else s.qTokens q)
  match k with
  | 0 => place (s.queue q).deficit 24 0 + place (b2n (s.queueEligible q)) 1 31
  | 1 => t % 2 ^ 32
  | 2 => t / 2 ^ 32 % 2 ^ 16
  | _ => 0

/-- A service node would be a candidate of its port's choice now (R153): SVC_STATE.ELIGIBLE. -/
def State.svcEligible (s : State) (n : Nat) : Bool :=
  match s.candidate n with
  | some (c, _) => s.nodeEligible n c (s.startPs (n / 8) none)
  | none => false

/-- Words of SVC_STATE (R175). -/
def State.svcWord (s : State) (n k : Nat) : Nat :=
  let t := unsigned 64 (s.nTokens n)
  match k with
  | 0 => t % 2 ^ 32
  | 1 => t / 2 ^ 32 % 2 ^ 16
  | 2 => place (s.svc n).ptr 12 0 + place (b2n (s.svcEligible n)) 1 16 + place (b2n (s.gateOpenNow (n / 8) (n % 8))) 1 17
  | 3 => place (s.svc n).deficit 24 0
  | _ => 0

/-- Words of PORT_STATE (R175). -/
def State.portWord (s : State) (p k : Nat) : Nat :=
  let t := unsigned 64 (s.pTokens p)
  match k with
  | 0 => t % 2 ^ 32
  | 1 => t / 2 ^ 32 % 2 ^ 16
  | 2 => place (s.portNode p).lastSvc 3 0 + place (b2n (s.egress p).sending.isSome) 1 8
  | _ => 0

/-- Words of METER_STATE (R175). -/
def State.meterWord (s : State) (m k : Nat) : Nat :=
  let x := s.meterFill m
  match k with
  | 0 => x.ct % 2 ^ 32
  | 1 => x.ct / 2 ^ 32 % 2 ^ 16
  | 2 => x.et % 2 ^ 32
  | 3 => x.et / 2 ^ 32 % 2 ^ 16 + place (b2n x.marked) 1 31
  | _ => 0

/-- Words of FUNC_STATE (R275). The table gives TAKE_ANY the place of GEN_SEQ's lowest bit: bit 16 of word 0 shows GEN_SEQ for a GENERATE function,
and TAKE_ANY for the others (DEDUCED, log entry 37). -/
def State.funcWord (s : State) (n k : Nat) : Nat :=
  let x := s.frerFn n
  match k with
  | 0 => place x.recov 16 0 + place (if s.frerMode n = 1 then x.genSeq % 2 else b2n x.takeAny) 1 16 + place (x.genSeq / 2) 15 17
  | 1 => x.hist % 2 ^ 32
  | 2 => x.hist / 2 ^ 32 % 2 ^ 32
  | 3 => x.hist / 2 ^ 64 % 2 ^ 32
  | 4 => x.hist / 2 ^ 96 % 2 ^ 32
  | 5 => x.last / 1000 % 2 ^ 32
  | 6 => place x.passed 16 0 + place x.discarded 16 16
  | _ => 0

/-- A meter takes CT, ET and MARKED from four words, as of now (R298). -/
def State.loadMeter (s : State) (m : Nat) (w : List Nat) : State :=
  s.mapMeter m (fun _ =>
    { ct := w.getD 0 0 + w.getD 1 0 % 2 ^ 16 * 2 ^ 32, et := w.getD 2 0 + w.getD 3 0 % 2 ^ 16 * 2 ^ 32
      last := s.now, marked := (w.getD 3 0).testBit 31 })

/-- A function takes RECOV, TAKE_ANY, H, P and D from seven words, its last pass being now (R298). -/
def State.loadFunc (s : State) (n : Nat) (w : List Nat) : State :=
  s.mapFrer n (fun x =>
    { x with
      recov := w.getD 0 0 % 2 ^ 16, takeAny := (w.getD 0 0).testBit 16
      hist := w.getD 1 0 + w.getD 2 0 * 2 ^ 32 + w.getD 3 0 * 2 ^ 64 + w.getD 4 0 * 2 ^ 96
      last := s.now, passed := w.getD 6 0 % 2 ^ 16, discarded := w.getD 6 0 / 2 ^ 16 % 2 ^ 16 })

end Sys2Proof.Machine
end

