-- ==== Sys2Proof/Machine/Pair.lean ====
section
/-! DEFINITION. The Clasp pair: lanes, heartbeats, control frames, health, the role table, the pair gate, digests and the trace
(R278–R304). -/
namespace Sys2Proof.Machine

section
variable (s : State)

/-- The pair's state changed by `f`. -/
def State.mapClasp (f : Clasp → Clasp) : State := { s with clasp := f s.clasp }

/-! ## Beats and frames (R280–R284) -/

/-- One bit of crc16: polynomial 0x1021, most significant bit first (R280). -/
def crc16Bit (c : Nat) : Nat := if c.testBit 15 then (2 * c ^^^ 0x1021) % 2 ^ 16 else 2 * c

/-- crc16 of R280. -/
def crc16 (l : List Byte) : Nat :=
  l.foldl (fun c b =>
    crc16Bit (crc16Bit (crc16Bit (crc16Bit (crc16Bit (crc16Bit (crc16Bit (crc16Bit (c ^^^ b.toNat * 256))))))))) 0xFFFF

/-- ROLE of this member (R297). -/
def State.role : Nat := s.fld .clsp Clsp.ROLE_STATUS_ROLE

/-- A lane is UP (R278). -/
def State.laneUp (i : Nat) : Bool := s.flag .clsp (if i = 0 then Clsp.ROLE_STATUS_LANE0_UP else Clsp.ROLE_STATUS_LANE1_UP)

/-- Lanes that are UP. -/
def State.lanesUp : List Nat := [0, 1].filter s.laneUp

/-- The lane that carries control frames; that carries data frames (R279). -/
def State.ctlLane : Option Nat := if s.laneUp 1 then some 1 else if s.laneUp 0 then some 0 else none
def State.dataLane : Option Nat := if s.laneUp 0 then some 0 else if s.laneUp 1 then some 1 else none

/-- CLSP works: it is in RUN, or drains with its role kept. -/
def State.clspOn : Bool := s.st .clsp == 1 || s.st .clsp == 2

/-- The blocks of a sequence of `n` blocks with the payload bytes `l` from P0 upward: sync header 0b10, block type 0xC3 for the first and 0x3C for
every later one (R280). -/
def beatBlocks (l : List Byte) (n : Nat) : List BeatBlock :=
  (List.range n).map (fun k => { sync := 2, type := if k = 0 then 0xC3 else 0x3C, payload := (l.drop (7 * k)).take 7 })

/-- A sequence of beats goes out on every UP lane (R279). -/
def State.sendBeat (l : List Byte) : State := s.each s.lanesUp (fun s i => s.emit (.beat i (beatBlocks l (l.length / 7))))

/-- The bytes of a heartbeat with sequence number `seq` (R281). -/
def State.beatBytes (seq : Nat) : List Byte :=
  let flags := b2n (s.flag .clsp Clsp.ROLE_STATUS_TOOK) + 2 * b2n s.clasp.yielding + 4 * b2n (s.dp.crst.get 37) +
    8 * s.fld .clsp Clsp.PAIR_CFG_PREFER + 16 * s.fld .clsp Clsp.DIV_STATUS_DIVERGED
  let l := [0x13, BitVec.ofNat 8 (128 * s.fld .clsp Clsp.PAIR_CFG_PAIR_ID + s.role)] ++ beBytes 2 seq ++
    beBytes 2 (s.fld .clsp Clsp.HEALTH_OWN) ++ [BitVec.ofNat 8 flags] ++ beBytes 2 (s.dp.granted.get (creditKey 37 6)) ++
    beBytes 2 (s.dp.granted.get (creditKey 37 7)) ++ beBytes 4 (s.fld .asy Asy.HALLMARK_GEN_GEN) ++
    beBytes 4 (s.fld .asy Asy.HALLMARK_DIGEST_DIGEST)
  l ++ beBytes 2 (crc16 l)

/-- Heartbeats run: in every role but DETACHED (R297). -/
def State.beating : Bool := s.clspOn && s.role != 0

/-- A heartbeat is sent, with a new BEAT_SEQ, where a lane is UP (R283). -/
def State.sendHeartbeat : State :=
  if s.beating ∧ s.lanesUp ≠ [] then
    let s := (s.refreshGrant 37 6).refreshGrant 37 7
    let seq := (s.fld .clsp Clsp.HB_SEQ_TX + 1) % 65536
    ((s.setFld .clsp Clsp.HB_SEQ_TX seq).sendBeat (s.beatBytes seq)).mapClasp (fun c => { c with sentAt := some s.now })
  else s

/-- The bytes of a control frame (R284). -/
def State.ctlBytes (kind seq : Nat) (last : Bool) (payload : List Byte) : List Byte :=
  let l := List.replicate 12 0 ++ beBytes 2 (s.fld .clsp Clsp.PAIR_CFG_CTL_ETYPE) ++
    [BitVec.ofNat 8 (16 * kind + 1), BitVec.ofNat 8 (b2n last)] ++ beBytes 2 seq ++ beBytes 2 payload.length ++ payload
  refcs (l ++ List.replicate (60 - l.length) 0)

/-- A control frame goes out on its lane (R279). With no lane UP it is lost. -/
def State.putControl (kind seq : Nat) (last : Bool) (payload : List Byte) : State :=
  match s.ctlLane with
  | some i => (s.bump .clsp Clsp.CNT_CTL_TX).emit (.control i (s.ctlBytes kind seq last payload))
  | none => s

/-- The state of a KIND, and its change. -/
def State.ctlKind (kind : Nat) : CtlKind := s.clasp.ctl.get kind
def State.mapCtl (kind : Nat) (f : CtlKind → CtlKind) : State := s.mapClasp (fun c => { c with ctl := c.ctl.modify kind f })

/-- A frame of a kind that is not acknowledged is sent (R284). -/
def State.sendPlain (kind : Nat) (payload : List Byte) : State :=
  let seq := (s.ctlKind kind).txSeq
  (s.mapCtl kind (fun k => { k with txSeq := (seq + 1) % 65536 })).putControl kind seq false payload

/-- Frames that wait are sent while fewer than 64 are unacknowledged (R284). -/
def State.fillWindow (s : State) (kind : Nat) : Nat → State
  | 0 => s
  | fuel + 1 =>
    let k := s.ctlKind kind
    match k.wait with
    | [] => s
    | (last, payload) :: rest =>
      if 64 ≤ k.sent.length then s
      else
        let f : CtlFrame := ⟨k.txSeq, last, payload⟩
        State.fillWindow ((s.mapCtl kind (fun k =>
          { k with txSeq := (k.txSeq + 1) % 65536, sent := k.sent ++ [f], wait := rest })).putControl kind f.seq last payload) kind fuel

/-- A frame of a kind that is acknowledged is sent, or waits for room (R284). -/
def State.sendControl (kind : Nat) (last : Bool) (payload : List Byte) : State :=
  (s.mapCtl kind (fun k => { k with wait := k.wait ++ [(last, payload)] })).fillWindow kind 1

/-- An acknowledgement of a kind up to SEQ `seq` arrives (R284). -/
def State.acked (kind seq : Nat) : State :=
  let s := s.mapCtl kind (fun k => { k with sent := k.sent.filter (fun f => decide (32768 ≤ (seq + 65536 - f.seq) % 65536)) })
  let s := s.fillWindow kind 64
  if kind = 1 ∧ (s.ctlKind 1).sent = [] then s.setFld .clsp Clsp.ROLE_STATUS_JOIN_BUSY 0 else s

/-- The unacknowledged frames of a kind are sent again (R284). -/
def State.retransmit (kind : Nat) : State :=
  s.each (s.ctlKind kind).sent (fun s f =>
    (s.bump .clsp Clsp.CNT_CTL_RETX).putControl kind f.seq f.last f.payload)

/-! ## Health and fence (R285, R295) -/

/-- A page is in FAULT. -/
def State.faulted (p : Page) : Bool := s.st p == 5

/-- The 12 conditions of the health word, from bit 0 (R295); the clock and supply monitors of bit 11 are CANARY, XTAL and SUPPLY of CLK.ALARM, and
its THERM is the temperature monitor (R430, R476, R494). -/
def State.healthBits : List Bool :=
  [ s.clasp.fwLate && s.fld .clsp Clsp.FW_WDOG_LIMIT_US != 0
  , s.fld .clsp Clsp.SELFTEST_ISLANDS != 0
  , s.clasp.eccBad
  , (portsOf (s.fld .clsp Clsp.PAIR_PORTS_PORTS)).any (fun p => s.lst p != 2)
  , s.flag .clsp Clsp.HEALTH_SET_SYNC
  , s.faulted .time
  , s.faulted .msec || (List.range 64).any (fun n => s.faulted (.cip n))
  , (List.range 32).any (fun n => s.faulted (.tgate n))
  , s.faulted .prs || s.faulted .cls || s.faulted .fib || s.faulted .fab || s.faulted .frer
  , s.faulted .qsch
  , s.faulted .buf
  , s.fld .clk Clk.ALARM_CANARY != 0 || s.flag .clk Clk.ALARM_XTAL || s.flag .clk Clk.ALARM_SUPPLY ]

/-- The health word (R295). -/
def State.healthWord : Nat := s.healthBits.foldr (fun b n => b2n b + 2 * n) 0

/-- HEALTH.OWN follows the conditions; each change raises HEALTH_CHANGE (R295). -/
def State.refreshHealth : State :=
  let h := s.healthWord
  if h = s.fld .clsp Clsp.HEALTH_OWN then s else (s.setFld .clsp Clsp.HEALTH_OWN h).raise .clsp 13

/-- FENCE_O is to be driven high (R285). -/
def State.fenceWanted : Bool :=
  (s.role == 4 || s.role == 5) && !s.faulted .buf && !s.faulted .qsch &&
    (match s.clasp.sentAt with | some t => decide (s.now ≤ t + 2000) | none => false)

/-- FENCE_O follows its conditions (R285). -/
def State.refreshFence : State := s.setFld .clsp Clsp.ROLE_STATUS_FENCE_OUT (b2n s.fenceWanted)

/-! ## Roles (R287, R297) -/

/-- GATE_OPEN shows the pair gate (R287, R303; that it reads 0 from reset to the first of these steps is log entry 96). -/
def State.showGate : State := s.setFld .clsp Clsp.ROLE_STATUS_GATE_OPEN (b2n s.pairGate)

/-- Copies that the pair gate holds. -/
def State.heldCopies : List Copy := s.dp.queues.cells.flatMap (fun c => c.2.copies.filter (fun x => s.gated x && !s.pairGate))

/-- What the pair gate does when it has changed: where it opens, each copy that `old` held is counted (R287). -/
def State.gateMoves (old : State) : State :=
  let n := old.heldCopies.length
  (if s.pairGate ∧ n ≠ 0 then s.bump .clsp Clsp.CNT_HELD_RELEASED n else s).showGate

/-- Comparison is suspended now (R293), the windows still left out apart. -/
def State.digestOff : Bool :=
  let roleOk (r : Nat) : Bool := r == 3 || r == 4
  !s.flag .clsp Clsp.PAIR_CFG_DIG_EN || !roleOk s.role ||
    (match s.clasp.peer with
     | none => true
     | some b => !roleOk b.role || b.digest != s.fld .asy Asy.HALLMARK_DIGEST_DIGEST)

/-- While comparison is suspended, 4 windows are still to be left out when the condition ends, and the balance and the run are 0 (R293). -/
def State.digestHold : State :=
  if s.digestOff then s.mapClasp (fun c => { c with dC := 0, d := List.replicate 8 0, run := 0, skip := 4 }) else s

/-- The role changes: the log and the time, the counters and events, TOOK and YIELD, the pair gate, a heartbeat at once (R283, R287,
R297). -/
def State.setRole (role cause : Nat) : State :=
  let was := s.role
  let t := (((s.setFld .clsp Clsp.ROLE_STATUS_ROLE role).setFld .clsp Clsp.TAKEOVER_LOG_CAUSE cause).setFld .clsp
    Clsp.TAKEOVER_LOG_FROM was).setFld .clsp Clsp.TAKEOVER_LOG_TO role
  let t := (t.setFld .clsp Clsp.TAKEOVER_LOG_PEER_HEALTH (s.fld .clsp Clsp.HEALTH_PEER)).setFld .clsp
    Clsp.TAKEOVER_TIME_NS s.ns32
  let t := if was = 3 ∧ role = 4 then t.setFld .clsp Clsp.ROLE_STATUS_TOOK 1 else t
  let t := t.mapClasp (fun c => { c with yielding := false, roleAt := s.now, healthRun := 0 })
  let t := if role = 4 ∨ role = 5 then (t.bump .clsp Clsp.CNT_TAKEOVERS).raise .clsp 8 else t
  let t := if was = 4 ∧ role = 3 then (t.bump .clsp Clsp.CNT_YIELDS).raise .clsp 9 else t
  let t := (t.gateMoves s).digestHold
  let t := if role = 2 then t.setFld .clsp Clsp.ROLE_STATUS_JOIN_BUSY 1 else
    if was = 2 then t.setFld .clsp Clsp.ROLE_STATUS_JOIN_BUSY 0 else t
  t.sendHeartbeat.refreshFence

/-- LISTEN is entered: the timer LISTEN_MS starts anew, and its expiries are counted from here (R297). -/
def State.enterListen : State := (s.mapClasp (fun c => { c with expiries := 0 })).setRole 1 0

/-- CLSP enters RUN (R297). -/
def State.clspEnter : State :=
  if s.role = 0 ∧ s.flag .clsp Clsp.PAIR_CFG_PAIR_EN then s.enterListen else s

/-- CLSP leaves RUN, other than to DRAINING (R297). -/
def State.clspLeave : State := if s.role = 0 then s else s.setRole 0 0

/-- The member wins the election against a partner with that PREFER (R297). -/
def State.wins (peerPrefer : Bool) : Bool :=
  let own := s.flag .clsp Clsp.PAIR_CFG_PREFER
  (own && !peerPrefer) || (own == peerPrefer && s.fld .clsp Clsp.PAIR_CFG_PAIR_ID == 0)

/-- (HEALTH AND HEALTH_MASK) of the partner is above this member's (R296). -/
def State.peerWorse : Bool :=
  let m := s.fld .clsp Clsp.HEALTH_MASK_MASK
  decide (s.fld .clsp Clsp.HEALTH_OWN &&& m < s.fld .clsp Clsp.HEALTH_PEER &&& m)

/-- The second condition of R296. -/
def State.takeoverDue : Bool :=
  let m := s.fld .clsp Clsp.HEALTH_MASK_MASK
  let peer := s.fld .clsp Clsp.HEALTH_PEER &&& m
  let logged := s.fld .clsp Clsp.TAKEOVER_LOG_PEER_HEALTH &&& m
  decide (s.clasp.roleAt + 1000000 ≤ s.now) || peer != peer &&& logged

/-- What an accepted heartbeat does in the role table, in the order of its rows (R296, R297). -/
def State.beatRole (role : Nat) (prefer take yield : Bool) : State :=
  let up := role == 4 || role == 5
  if s.role = 1 ∨ s.role = 6 then
    if up then s.setRole 2 0
    else if role = 1 ∨ role = 6 then (if s.wins prefer then s.setRole 4 6 else s.setRole 2 6)
    else s
  else if s.role = 3 then
    if yield then s.setRole 4 5
    else
      let n := if s.peerWorse then s.clasp.healthRun + 1 else 0
      let s := s.mapClasp (fun c => { c with healthRun := n })
      if s.flag .clsp Clsp.PAIR_CFG_HW_TAKEOVER ∧ s.fld .clsp Clsp.PAIR_CFG_HEALTH_HOLD ≤ n ∧ s.peerWorse ∧ s.takeoverDue then
        s.setRole 4 3
      else s
  else if s.role = 4 then
    if take ∨ (up ∧ s.fld .clsp Clsp.ROLE_STATUS_TOOK = 0) then s.setRole 3 7 else s
  else if s.role = 5 then
    if role = 3 then s.setRole 4 0
    else if up ∧ !s.wins prefer then s.setRole 2 6 else s
  else s

/-! ## Join (R298) -/

/-- Contexts that are paired in the active bank (R286). -/
def State.pairedCtxs : List Nat :=
  if s.flag .clsp Clsp.PAIR_CFG_PAIR_EN then
    (List.range 8192).filter (fun n => s.ctxF n s.activeBank 0 3 3 == 1)
  else []

/-- One entry of a snapshot: its header and its words, each sent most significant byte first (R6). -/
def joinEntry (type index : Nat) (words : List Nat) : List Byte :=
  beBytes 4 (type + 65536 * index) ++ words.flatMap (beBytes 4)

/-- The entries of the snapshot. -/
def State.joinEntries : List (List Byte) :=
  let b := s.activeBank
  let cs := s.pairedCtxs
  let meters := ((cs.filter (fun n => s.ctxF n b 0 1 1 == 1)).map (fun n => s.ctxF n b 1 10 0)).eraseDups
  let funcs := ((cs.filter (fun n => s.ctxF n b 0 2 2 == 1)).map (fun n => s.ctxF n b 1 28 16 % 4096)).eraseDups
  meters.map (fun m => joinEntry 0 m ((List.range 4).map (s.meterWord m))) ++
    funcs.map (fun n => joinEntry 1 n ((List.range 7).map (s.funcWord n)))

/-- Entries packed into payloads of at most 1000 bytes. -/
def packEntries : List Byte → List (List Byte) → List (List Byte)
  | cur, [] => [cur]
  | cur, e :: t => if 1000 < cur.length + e.length then cur :: packEntries e t else packEntries (cur ++ e) t

/-- The snapshot is sent, its last frame marked LAST (R298). -/
def State.sendSnapshot : State :=
  let ps := packEntries [] s.joinEntries
  let n := ps.length
  let s := (s.mapClasp (fun c => { c with joinSent := true })).setFld .clsp Clsp.ROLE_STATUS_JOIN_BUSY 1
  s.each ((List.range n).zip ps) (fun s x => s.sendControl 1 (x.1 + 1 == n) x.2)

/-- The entries of a snapshot's payload are applied (R298). -/
def State.applyEntries (s : State) : List Byte → Nat → State
  | _, 0 => s
  | l, fuel + 1 =>
    if l.length < 20 then s
    else
      let h := beAt l 0 4
      let words (n : Nat) : List Nat := (List.range n).map (fun i => beAt l (4 + 4 * i) 4)
      if h % 2 = 0 then State.applyEntries (s.loadMeter (h / 65536 % 2048) (words 4)) (l.drop 20) fuel
      else State.applyEntries (s.loadFunc (h / 65536 % 4096) (words 7)) (l.drop 32) fuel

/-- A JOIN_STATE frame that is kept (R298). -/
def State.joinFrame (last : Bool) (payload : List Byte) : State :=
  if s.role = 2 then
    let s := s.applyEntries payload 50
    if last then
      ((s.mapClasp (fun c => { c with skip := 4 })).setRole 3 0).raise .clsp 16
    else s
  else s

/-! ## Digests (R290–R293) -/

/-- The balance returns to 0 (R292). -/
def Clasp.balance0 (c : Clasp) : Clasp := { c with dC := 0, d := List.replicate 8 0 }

/-- diverge() of R292, and DIV_TAKEOVER (R294). -/
def State.diverge (w : Nat) (d : List Nat) : State :=
  let classes := ((List.range 8).filter (fun j => d.getD j 0 != 0)).foldl (fun m j => m + 2 ^ j) 0
  let s := (s.bump .clsp Clsp.CNT_DIVERGENCES).setFld .clsp Clsp.DIV_STATUS_CLASSES (if classes = 0 then 0xFF else classes)
  let was := s.flag .clsp Clsp.DIV_STATUS_DIVERGED
  let s := s.setFld .clsp Clsp.DIV_STATUS_WINDOW w
  let s := if was then s else
    ((s.setFld .clsp Clsp.DIV_STATUS_DIVERGED 1).setFld .clsp Clsp.TRACE_CTRL_FROZEN 1).raise .clsp 12
  if s.flag .clsp Clsp.PAIR_CFG_DIV_TAKEOVER ∧ s.role = 3 then
    if s.peerWorse then s.setRole 4 3 else s.bump .clsp Clsp.CNT_DIV_UNRESOLVED
  else s

/-- A window is compared, or counted as skipped (R292, R293). -/
def State.compareDigest (a b : DigWin) : State :=
  let s := s.mapClasp (fun c =>
    { c with own := c.own.filter (fun x => x.w != a.w), partner := c.partner.filter (fun x => x.w != b.w) })
  if s.digestOff then
    s.digestHold.bump .clsp Clsp.CNT_DIGEST_SKIPPED
  else if s.clasp.skip ≠ 0 then
    (s.mapClasp (fun c => { c.balance0 with run := 0, skip := c.skip - 1 })).bump .clsp Clsp.CNT_DIGEST_SKIPPED
  else
    let c := s.clasp
    let dC := (c.dC + a.count + 65536 - b.count) % 65536
    let d := (List.range 8).map (fun j => (c.d.getD j 0 + a.sums.getD j 0 + 65536 - b.sums.getD j 0) % 65536)
    if dC = 0 ∧ d.all (fun x => x == 0) then
      let s := s.bump .clsp Clsp.CNT_DIGEST_MATCH
      let s := if 0 < c.run then s.bump .clsp Clsp.CNT_DIGEST_SLIPS else s
      s.mapClasp (fun c => { c with dC, d, run := 0 })
    else if c.run + 1 = s.fld .clsp Clsp.PAIR_CFG_DIV_WINDOWS then
      (s.mapClasp (fun c => { c.balance0 with run := 0 })).diverge a.w d
    else s.mapClasp (fun c => { c with dC, d, run := c.run + 1 })

/-- Window `w` is compared where both digests are held and the own window has closed (R292). -/
def State.tryCompare (w : Nat) : State :=
  let closed : Bool := match s.clasp.closed with | some c => decide (w ≤ c) | none => false
  match s.clasp.own.find? (fun x => x.w == w), s.clasp.partner.find? (fun x => x.w == w) with
  | some a, some b => if closed then s.compareDigest a b else s
  | _, _ => s

/-- The bytes of a digest (R282). -/
def digestBytes (d : DigWin) : List Byte :=
  let l := [0x24] ++ beBytes 2 d.w ++ beBytes 2 d.count ++ d.sums.flatMap (beBytes 2) ++ List.replicate 5 0
  l ++ beBytes 2 (crc16 l)

/-- The window that closes at this time of DIG_DOMAIN closes; its digest is sent and compared (R291, R292), or skipped: with DIG_EN = 0 a window
has no record (R290) and is skipped (R293). -/
def State.closeWindow : State :=
  let t := s.domNs (s.fld .clsp Clsp.PAIR_CFG_DIG_DOMAIN)
  let w := (t - 5000) / 2000
  let done : Bool := match s.clasp.closed with | some c => decide (w ≤ c) | none => false
  if t < 5000 ∨ done ∨ !s.beating then s
  else
    let d : DigWin := (s.clasp.own.find? (fun x => x.w == w)).getD { w := w }
    let s := s.mapClasp (fun c =>
      { c with closed := some w, own := if c.own.any (fun x => x.w == w) then c.own else c.own ++ [d] })
    (s.sendBeat (digestBytes d)).tryCompare w

/-- The full number of a window given modulo 2^16, the one nearest to this member's present window. -/
def State.fullWindow (w16 : Nat) : Nat :=
  let now := s.domNs (s.fld .clsp Clsp.PAIR_CFG_DIG_DOMAIN) / 2000
  let d := (w16 + 65536 - now % 65536) % 65536
  if d < 32768 then now + d else now + d - 65536

/-- A window of the partner is still missing 2000 ns after the own close (R292). -/
def State.digestMissing : State :=
  let closed (w : Nat) : Bool := match s.clasp.closed with | some c => decide (w ≤ c) | none => false
  match s.clasp.own.find? (fun x => closed x.w) with
  | none => s
  | some a =>
    (s.mapClasp (fun c => { c.balance0 with own := c.own.filter (fun x => x.w != a.w) })).bump .clsp Clsp.CNT_DIGEST_MISSING

/-! ## Events of the pair -/

/-- A lane's block lock has held for 1 µs (R278, R279). -/
def State.laneRises (i : Nat) : State :=
  if s.clasp.lock.get i ∧ !s.laneUp i then
    let s := s.setFld .clsp (if i = 0 then Clsp.ROLE_STATUS_LANE0_UP else Clsp.ROLE_STATUS_LANE1_UP) 1
    if s.lst 37 = 2 then s else s.enterUp 37
  else s

/-- A lane gains block lock: PCS_LOCK of ETP37 reads 1 while either lane is locked (R302). With ETP37 in OFF the lanes are powered down (R48). -/
def State.laneLocks (i : Nat) : State :=
  if s.st (.etp 37) = 0 then s
  else (s.mapClasp (fun c => { c with lock := c.lock.set i true })).setFld (.etp 37) Etp.LINK_STATUS_PCS_LOCK 1

/-- A lane leaves UP (R279): the frame that port 37 is sending on it is lost, and LST is DOWN with both lanes down. -/
def State.laneLeaves (i : Nat) : State :=
  if s.laneUp i then
    let s := s.setFld .clsp (if i = 0 then Clsp.ROLE_STATUS_LANE0_UP else Clsp.ROLE_STATUS_LANE1_UP) 0
    let s := (s.bump .clsp Clsp.CNT_LANE_DOWNS).raise .clsp 14
    let s := s.mapEgress 37 (fun e => if e.sending.isSome ∧ e.lane = i then { e with lost := true } else e)
    if s.lanesUp = [] ∧ s.lst 37 = 2 then s.linkDown 37 else s
  else s

/-- A lane loses block lock (R278, R279). -/
def State.laneFalls (i : Nat) : State :=
  let s := s.mapClasp (fun c => { c with lock := c.lock.set i false })
  (s.setFld (.etp 37) Etp.LINK_STATUS_PCS_LOCK (b2n (s.clasp.lock.get 0 || s.clasp.lock.get 1))).laneLeaves i

/-- CLSP is reset: the lanes are UP no more, and rise again as their lock holds on (R278, R279). -/
def State.lanesReset : State := s.each [0, 1] State.laneLeaves

/-- ETP37 enters OFF: its lanes are powered down (R48, R53, R302). -/
def State.lanesOff : State := s.each [0, 1] State.laneFalls

/-- The payload bytes of a sequence. -/
def beatPayload (l : List BeatBlock) : List Byte := l.flatMap BeatBlock.payload

/-- The blocks of a sequence are beat blocks, the first of one type and every later one of the other (R280, R283). -/
def beatFramed : List BeatBlock → Bool
  | [] => false
  | b :: t => b.sync == 2 && b.type == 0xC3 && t.all (fun x => x.sync == 2 && x.type == 0x3C)

/-- The sequence is a valid heartbeat; a valid digest (R281–R283). -/
def beatValid (kind blocks : Nat) (l : List Byte) : Bool :=
  l.length == 7 * blocks && byteAt l 0 == 16 * kind + blocks && beAt l (7 * blocks - 2) 2 == crc16 (l.take (7 * blocks - 2))

/-- The credit of an accepted heartbeat is taken in (R301). -/
def State.beatCredit (l : List Byte) : State :=
  if s.lst 37 = 2 then s.creditArrives 37 ((byteAt l 6).testBit 2) (beAt l 7 2) (beAt l 9 2) else s

/-- What an accepted heartbeat of the partner says is taken in: its health and its plan's digest (R281, R293). -/
def State.beatTaken (l : List Byte) (role : Nat) : State :=
  let flags := byteAt l 6
  let health := beAt l 4 2 % 4096
  let s := if health = s.fld .clsp Clsp.HEALTH_PEER then s else (s.setFld .clsp Clsp.HEALTH_PEER health).raise .clsp 13
  let digest := beAt l 15 4
  let same := digest == s.fld .asy Asy.HALLMARK_DIGEST_DIGEST
  let n := if same then 0 else s.clasp.planRun + 1
  let s := s.mapClasp (fun c =>
    { c with
      planRun := n, joinSent := c.joinSent && role == 2
      peer := some { role, pairId := byteAt l 1 / 128, prefer := flags.testBit 3, digest } })
  let s := if same then s.setFld .clsp Clsp.ROLE_STATUS_PLAN_DIFF 0
    else if n = 100 then (s.setFld .clsp Clsp.ROLE_STATUS_PLAN_DIFF 1).raise .clsp 15 else s
  (if role = 4 ∨ role = 5 then s else s.setFld .clsp Clsp.ROLE_STATUS_TOOK 0).digestHold

/-- A sequence arrives as a heartbeat on a lane (R283, R297, R298). The first valid copy of each BEAT_SEQ is accepted, and what it says is taken in;
of one with this member's own PAIR_ID only the credit is, so that no election, takeover or yield is based on it (DEDUCED, log entry 113). -/
def State.heartbeat (lane : Nat) (blocks : List BeatBlock) : State :=
  let l := beatPayload blocks
  if !s.clspOn ∨ !s.laneUp lane then s
  else if !(beatFramed blocks && beatValid 1 3 l) then s.bump .clsp Clsp.CNT_HB_BAD
  else
    let seq := beAt l 2 2
    let seen := s.clasp.heard.contains seq
    let s := s.setFld .clsp Clsp.ROLE_STATUS_HB_OK 1
    if seen then s
    else
      let s := (s.setFld .clsp Clsp.HB_SEQ_RX seq).mapClasp (fun c => { c with heard := (seq :: c.heard).take 16 })
      let role := byteAt l 1 % 16
      let flags := byteAt l 6
      let s := s.beatCredit l
      if byteAt l 1 / 128 = s.fld .clsp Clsp.PAIR_CFG_PAIR_ID then s.logErr .clsp 0x21 6
      else
        let s := s.beatTaken l role
        let s := s.beatRole role (flags.testBit 3) (flags.testBit 0) (flags.testBit 1)
        if role = 2 ∧ (s.role = 4 ∨ s.role = 5) ∧ !s.clasp.joinSent then s.sendSnapshot else s

/-- No valid heartbeat has arrived for 3000 ns (R283, R297). -/
def State.heartbeatLost : State :=
  if !s.flag .clsp Clsp.ROLE_STATUS_HB_OK ∨ !s.clspOn then s
  else
    let took := s.flag .clsp Clsp.ROLE_STATUS_TOOK
    let fence := s.flag .clsp Clsp.ROLE_STATUS_FENCE_IN
    let s := (s.setFld .clsp Clsp.ROLE_STATUS_HB_OK 0).bump .clsp Clsp.CNT_HB_LOST
    let s := (s.mapClasp (fun c => { c with healthRun := 0 })).setFld .clsp Clsp.ROLE_STATUS_TOOK 0
    match s.role, fence with
    | 2, _ => s.enterListen
    | 3, false => s.setRole 4 1
    | 3, true => (s.setRole 6 1).raise .clsp 11
    | 4, false => (s.setRole 5 1).raise .clsp 10
    | 4, true => if took then s else (s.setRole 6 1).raise .clsp 11
    | _, _ => s

/-- FENCE_I is seen falling (R297). -/
def State.fenceFalls : State :=
  if s.flag .clsp Clsp.ROLE_STATUS_FENCE_IN then
    let s := s.setFld .clsp Clsp.ROLE_STATUS_FENCE_IN 0
    match s.role with
    | 6 => s.setRole 5 2
    | 2 => s.enterListen
    | 3 => s.setRole 4 2
    | 4 =>
      if s.flag .clsp Clsp.ROLE_STATUS_TOOK ∧ !s.flag .clsp Clsp.ROLE_STATUS_HB_OK then (s.setRole 5 2).raise .clsp 10 else s
    | _ => s
  else s

/-- LISTEN_MS expires (R297). -/
def State.listenTimeout : State :=
  if s.role = 1 then
    let n := s.clasp.expiries + 1
    let s := s.mapClasp (fun c => { c with expiries := n })
    if s.flag .clsp Clsp.ROLE_STATUS_FENCE_IN then (s.setRole 6 0).raise .clsp 11
    else if s.flag .clsp Clsp.PAIR_CFG_PREFER ∨ 2 ≤ n then (s.setRole 5 0).raise .clsp 10
    else s
  else s

/-- ROLE_CMD in a state without a row for it (R297). -/
def State.cmdRefused (src : Src) : State :=
  s.logErr .clsp 0x20 src.code (Page.clsp.base + Clsp.ROLE_CMD_CMD.off) s.role

/-- ROLE_CMD (R297). -/
def State.roleTake (src : Src) : State := if s.role = 3 then s.setRole 4 4 else s.cmdRefused src
def State.roleYield (src : Src) : State :=
  let standby : Bool := match s.clasp.peer with | some b => b.role == 3 | none => false
  if s.role = 4 ∧ standby then s.mapClasp (fun c => { c with yielding := true }) else s.cmdRefused src
def State.roleForce (src : Src) : State := if s.role = 1 ∨ s.role = 6 then s.setRole 5 4 else s.cmdRefused src

/-- A write of ROLE_CMD with a value. -/
def State.roleCmd (src : Src) (cmd : Nat) : State :=
  match cmd with
  | 1 => s.roleTake src
  | 2 => s.roleYield src
  | 3 => s.roleForce src
  | _ => s

/-- The head copy of a queue is held past TS_LOCAL + HOLD_NS (R287). -/
def State.holdExpires (q : Nat) : State :=
  match (s.queue q).copies.head? with
  | some c =>
    if s.gated c ∧ !s.pairGate ∧
        (s.frame c.frame).tsLocal + ((s.fld .clsp Clsp.HOLD_CFG_HOLD_NS * 65536 : Nat) : Int) < ((s.now * 65536 : Nat) : Int) then
      (s.discardCopy c).bump .clsp Clsp.CNT_SHADOW_DISCARDS
    else s
  | none => s

/-- A sequence arrives as a digest on a lane; the first copy of each window is kept (R282, R292). -/
def State.digestArrives (lane : Nat) (blocks : List BeatBlock) : State :=
  let l := beatPayload blocks
  if !s.clspOn ∨ !s.laneUp lane then s
  else if !(beatFramed blocks && beatValid 2 4 l) then s.bump .clsp Clsp.CNT_HB_BAD
  else
    let w := s.fullWindow (beAt l 1 2)
    let past : Bool := match s.clasp.closed with | some c => decide (w ≤ c) && !s.clasp.own.any (fun x => x.w == w) | none => false
    if past ∨ s.clasp.partner.any (fun x => x.w == w) then s
    else
      let d : DigWin := { w, count := beAt l 3 2, sums := (List.range 8).map (fun j => beAt l (5 + 2 * j) 2) }
      (s.mapClasp (fun c => { c with partner := c.partner ++ [d] })).tryCompare w

/-- TRACE_CTRL.RELEASE (R294). -/
def State.traceRelease : State := (s.setFld .clsp Clsp.DIV_STATUS_DIVERGED 0).setFld .clsp Clsp.TRACE_CTRL_FROZEN 0

/-- A word of the trace record that TRACE_CTRL.INDEX names: W0 to W3 (R303). -/
def State.traceWord (k : Nat) : Nat :=
  match s.clasp.trace[s.fld .clsp Clsp.TRACE_CTRL_INDEX]? with
  | none => 0
  | some r =>
    match k with
    | 0 => place r.ctx 13 0 + place r.seq 16 16
    | 1 => place r.port 6 0 + place r.colour 2 8 + place r.outcome 3 12
    | 2 => r.dest
    | _ => r.ns

end

end Sys2Proof.Machine
end

