-- ==== Sys2Proof/Machine/Mgmt.lean ====
section
/-! DEFINITION. The processors: write buffers, the states of the management processors, their frame rings on port 33, the mailbox
(R305–R323). -/
namespace Sys2Proof.Machine

section
variable (s : State)

/-- Size of management SRAM (R305). -/
def msramSize : Nat := 0xC00000

/-! ## Write buffers (R315) -/

/-- A store of an MP enters its write buffer: merged with the newest entry where that is for the same aligned 8 bytes, so that no store passes
an older one (DEDUCED, log entry 111), or after the oldest of 8 has left. -/
def State.bufferStore (m addr : Nat) (l : List Byte) : State :=
  let bytes := (List.range l.length).zip l |>.map (fun x => (addr + x.1, x.2))
  let es := s.procs.wbuf.get m
  let put (es : List WbEntry) (s : State) : State := s.mapProcs (fun p => { p with wbuf := p.wbuf.set m es })
  match es.getLast? with
  | some e =>
    if e.unit = addr / 8 then put (es.dropLast ++ [{ e with bytes := e.bytes ++ bytes }]) s
    else
      let t := if es.length < 8 then s else s.releaseOne m
      put (t.procs.wbuf.get m ++ [⟨addr / 8, bytes⟩]) t
  | none => put [⟨addr / 8, bytes⟩] s

/-- The bytes an MP loads from management SRAM: its own buffered writes are the newest. -/
def State.mpBytes (m addr n : Nat) : List Byte :=
  let mem := (s.procs.wbuf.get m).foldl (fun mem e => e.bytes.foldl (fun mem b => mem.set b.1 b.2) mem) s.mem.msram
  mem.bytes addr n

/-! ## The caches of the management processors (R305, R307) -/

/-- Bytes of a line; lines that 32 KiB hold. -/
def lineBytes : Nat := 8 * 2 ^ (Config.lineLog2 % 8)
def cacheLines : Nat := 32768 / lineBytes

/-- The instruction cache of an MP, or its data cache. -/
def Procs.cache (p : Procs) (code : Bool) (m : Nat) : List CacheLine := if code then p.icache.get m else p.dcache.get m
def Procs.setCache (p : Procs) (code : Bool) (m : Nat) (l : List CacheLine) : Procs :=
  if code then { p with icache := p.icache.set m l } else { p with dcache := p.dcache.set m l }

/-- The byte that a cache holds of an offset. -/
def lineByte (ls : List CacheLine) (a : Nat) : Option Byte :=
  (ls.find? (fun l => decide (l.base ≤ a ∧ a < l.base + l.bytes.length))).bind (fun l => l.bytes[a - l.base]?)

/-- A cache holds the line of an offset. -/
def State.cached (code : Bool) (m off : Nat) : Bool := (lineByte (s.procs.cache code m) off).isSome

/-- The bytes an MP sees at an offset through a cache: a held line's, else management SRAM's; a load sees its own buffered writes. -/
def State.seenBytes (code : Bool) (m off n : Nat) : List Byte :=
  let ls := s.procs.cache code m
  let mem := if code then s.mem.msram.bytes off n else s.mpBytes m off n
  ((List.range n).zip mem).map (fun x => (lineByte ls (off + x.1)).getD x.2)

/-- The line of an offset is taken into a cache as memory holds it now. Which line gives way, or whether one does before the cache is
full, the manual leaves open. -/
def State.fillLine (code : Bool) (m off : Nat) : State :=
  let ls := s.procs.cache code m
  let base := off - off % lineBytes
  let l := if code then s.mem.msram.bytes base lineBytes else s.mpBytes m base lineBytes
  let (k, s) := s.draw (ls.length + 1)
  let left := if k < ls.length then ls.eraseIdx k else if ls.length < cacheLines then ls else ls.drop 1
  s.mapProcs (fun p => p.setCache code m (left ++ [⟨base, l⟩]))

/-- A store of an MP writes the data cache's bytes where it holds them, and memory behind it (write-through). -/
def State.storeLines (m a : Nat) (l : List Byte) : State :=
  let put (c : CacheLine) : CacheLine :=
    { c with bytes := ((List.range c.bytes.length).zip c.bytes).map (fun x =>
        if a ≤ c.base + x.1 then (l[c.base + x.1 - a]?).getD x.2 else x.2) }
  s.mapProcs (fun p => p.setCache false m ((p.cache false m).map put))

/-- FENCE.I: the instruction cache is empty, so that fetches read memory anew (R307). -/
def State.fenceI (m : Nat) : State := s.mapProcs (fun p => p.setCache true m [])

/-! ## States of the management processors (R310–R314) -/

/-- MPm_STATUS.ST is set (R321); an MP that enters RUN has been in RUN from then on (R313). -/
def State.setMp (m st : Nat) : State :=
  let s := s.setFld .mpc (Mpc.MP_STATUS_ST m) st
  if st = 2 then s.mapProcs (fun p => { p with ran := p.ran.set m true }) else s

/-- An MP enters FENCED (R312). -/
def State.mpFenced (m cause : Nat) : State :=
  (((s.setMp m 5).setFld .mpc (Mpc.MP_STATUS_CAUSE m) cause).bump .mpc Mpc.CNT_FENCES).raise .mpc 8

/-- START (R312). -/
def State.mpStart (m : Nat) : State := if s.mpSt m = 0 ∨ s.mpSt m = 5 then s.setMp m 1 else s

/-- GO (R312). -/
def State.mpGo (m : Nat) : State := if s.mpSt m = 3 then s.setMp m 2 else s

/-- FENCE_REQ (R312, R314). -/
def State.mpFenceReq (src : Src) (m : Nat) : State :=
  if s.mpSt m ≠ 2 then s
  else if ((List.range 4).filter (fun k => k != m)).any (fun k => s.mpSt k == 2) then s.setMp m 4
  else s.logErr .mpc 0x21 src.code (Page.mpc.base + (Mpc.MP_CTRL_FENCE_REQ m).off)

/-- The MP for which a request of the bridge is open. -/
def BridgeUse.mp : BridgeUse → Option Nat
  | .load m _ _ | .lr m _ _ | .sc m _ _ _ | .amoRead m _ _ _ _ _ | .amoCas m _ _ _ _ _ _ => some m
  | .hostRead _ _ _ | .poll => none

/-- Reads of an MP are outstanding at the bridge. -/
def State.mpWaits (m : Nat) : Bool :=
  s.bridge.hostOpen.any (fun r => r.use.mp == some m) || s.bridge.hostWait.any (fun r => r.use.mp == some m) || s.bridge.peerOpen.any (fun r => r.use.mp == some m) ||
    s.bridge.peerWait.any (fun r => r.use.mp == some m)

/-- A FENCING processor has drained: its write buffer is released and no read of it is outstanding (R312). -/
def State.mpDrained (m : Nat) : State := if s.mpSt m = 4 ∧ !s.mpWaits m then (s.drainMp m).mpFenced m 1 else s

/-- The comparator test of an MP ends; `bad` is the channel it failed on (R310, R312). -/
def State.mpTested (m : Nat) (bad : Option Nat) : State :=
  if s.mpSt m ≠ 1 then s
  else match bad with
    | some c => (s.setFld .mpc (Mpc.MP_STATUS_CHANNEL m) c).mpFenced m 3
    | none => s.setMp m (if s.flag .mpc (Mpc.MP_CTRL_SPARE m) then 3 else 2)

/-- A lockstep mismatch of an MP on a channel at a pc (R308, R312, R314). -/
def State.mpMismatch (m channel pc : Nat) : State :=
  if s.mpSt m = 2 ∨ s.mpSt m = 4 ∨ s.mpSt m = 3 then
    let s := (s.drainMp m).setFld .mpc (Mpc.MP_STATUS_CHANNEL m) channel
    let s := ((s.setFld .mpc (Mpc.MP_MISMATCH_PC m) pc).bump .mpc Mpc.CNT_MISMATCHES).mpFenced m 2
    let s := s.raise .mpc 9
    if s.flag .mpc Mpc.SPARE_CFG_AUTO then
      match (List.range 4).find? (fun k => s.mpSt k == 3) with
      | some k => s.mpGo k
      | none => s.raise .mpc 13
    else s
  else s

/-- The MP on which the lines routed to MP `m` are asserted; none where no MP is in RUN (R313). After having been in RUN an MP is
redirected in OFF, BOOT and FENCED, and in SPARE too, since only RUN ends it; FENCING comes before. -/
def State.redirect (m : Nat) : Option Nat :=
  let st := s.mpSt m
  if (st ≠ 2 ∧ st ≠ 4) ∧ s.procs.ran.get m then
    let r := s.fld .mpc (Mpc.MP_CTRL_REDIRECT m)
    if s.mpSt r = 2 then some r else (List.range 4).find? (fun k => s.mpSt k == 2)
  else some m

/-- Interrupt line `line` is asserted on MP `k`: by its own routing, or redirected from another MP (R43, R313). -/
def State.irqLine (k line : Nat) : Bool := (List.range 4).any (fun m => s.redirect m == some k && s.mpLine m line)

/-! ## Mailbox (R319, R320) -/

/-- The request block of a slot: bytes in the scratchpad for slot 0, in management SRAM for the others. -/
def State.mbxBytes (slot at' n : Nat) : List Byte :=
  if slot = 0 then s.mem.scratch.bytes (0x1FFF00 + at') n else s.mem.msram.bytes (0xBFF000 + 256 * (slot - 1) + at') n

/-- Bytes of a slot's block written by Signet. -/
def State.mbxPut (slot at' : Nat) (l : List Byte) : State :=
  if slot = 0 then { s with mem := { s.mem with scratch := s.mem.scratch.putBytes (0x1FFF00 + at') l } }
  else (s.dropLines (0xBFF000 + 256 * (slot - 1) + at') l.length).mapMsram (fun m =>
    m.putBytes (0xBFF000 + 256 * (slot - 1) + at') l)

/-- MBX_STATUS.ST of a slot: 0 IDLE, 1 BUSY, 2 DONE. -/
def State.mbxSt (slot : Nat) : Nat := s.fld .tru (Tru.MBX_STATUS_ST slot)

/-- Signet executes. -/
def State.signet : Bool := s.flag .tru Tru.TP_STATUS_RUNNING

/-- A slot is served: Signet executes, or the boot ROM is in recovery, which serves slot 0 (R457). -/
def State.served (slot : Nat) : Bool := s.signet || (s.sec.recovery && slot == 0)

/-- A request in work at a slot, with its CMD (R319). -/
def State.mbxCmd (slot : Nat) : Nat := leAt (s.procs.mbx.get slot) 0 2

/-- ARG of the request at a slot. -/
def State.mbxArg (slot : Nat) : List Byte :=
  let l := s.procs.mbx.get slot
  (l.drop 8).take (min 120 (leAt l 4 2))

/-- Signet answers a slot's request and sets DONE (R319, R320). -/
def State.mbxDone (slot status : Nat) (rsp : List Byte) : State :=
  let seq := leAt (s.procs.mbx.get slot) 2 2
  let s := s.mbxPut slot 128 (leBytes 2 status ++ leBytes 2 seq ++ leBytes 2 rsp.length)
  let s := s.mbxPut slot 136 (rsp ++ List.replicate (120 - rsp.length) 0)
  (s.setFld .tru (Tru.MBX_STATUS_ST slot) 2).raise .tru 8

/-- The CMD codes that Signet serves (R368, R447–R452, R460, R463, R466, R485, R504), and those of the boot ROM in recovery (R457). -/
def mbxKnown (signet : Bool) (cmd : Nat) : Bool :=
  decide (0xD01 ≤ cmd ∧ cmd ≤ 0xD03) ||
    signet && (decide (0xC01 ≤ cmd ∧ cmd ≤ 0xC05) || decide (0xD04 ≤ cmd ∧ cmd ≤ 0xD07) || decide (0xD10 ≤ cmd ∧ cmd ≤ 0xD14) ||
      [0xC10, 0xC11, 0xE01, 0xE02, 0xE10, 0xE11, 0xE12, 0xE20, 0xE21, 0xE30].contains cmd)

/-- Signet takes the request of a slot: it copies bytes 0–127 (R320). A CMD that is not served is answered with BAD_CMD (R319). -/
def State.mbxTake (slot : Nat) : State :=
  let l := s.mbxBytes slot 0 128
  let s := s.mapProcs (fun p => { p with mbx := p.mbx.set slot l, rung := p.rung.filter (fun k => k != slot) })
  let s := ((s.setFld .tru (Tru.MBX_STATUS_ST slot) 1).setFld .tru (Tru.MBX_STATUS_SEQ slot) (leAt l 2 2)).bump .tru
    Tru.CNT_MBX_REQUESTS
  if mbxKnown s.signet (leAt l 0 2) then s else s.mbxDone slot 1 []

/-- Words that SECDED corrects in reads of management SRAM and of the scratchpad are counted (R307, R421). -/
def State.eccSeen (msram scratch : Nat) : State := (s.bump .mpc Mpc.CNT_SRAM_ECC_CORR msram).bump .scr Scr.CNT_ECC_CORR scratch

/-- Signet takes new requests: TRU in RUN, or in OFF, which no rule has it leave before the mailbox is used; in the other states it accepts no new
work (R31; DEDUCED, log entry 112). -/
def State.mailOpen : Bool := s.st .tru == 1 || s.st .tru == 0

/-- The doorbells that wait are taken, where their slots are served. -/
def State.takeRung : State := s.each (s.procs.rung.filter (fun k => decide (k < 5))) (fun s k => if s.served k ∧ s.mbxSt k ≠ 1 then s.mbxTake k else s)

/-- The doorbell of a slot, written on page `p` at an offset (R311, R320). `corr` words of the block are corrected as Signet copies it. -/
def State.mbxRing (src : Src) (p : Page) (off slot corr : Nat) : State :=
  if s.mbxSt slot = 1 then s.refuse src p 7 off
  else if s.served slot ∧ s.mailOpen then (if slot = 0 then s.eccSeen 0 corr else s.eccSeen corr 0).mbxTake slot
  else s.mapProcs (fun q => { q with rung := if q.rung.contains slot then q.rung else q.rung ++ [slot] })

/-- The originator that rings a slot, and its class: 0 HOST, 1 MGMT. -/
def slotClass (slot : Nat) : Nat := if slot = 0 then 0 else 1

/-- A mailbox command runs on the request of a slot: the slot is served and BUSY, and its CMD is `cmd`. In recovery IMG_BEGIN, IMG_BLOCK
and IMG_VERIFY alone are served (R457). -/
def State.mbxRun (slot cmd : Nat) (act : State → State) : State :=
  if s.pageOn .tru ∧ s.served slot ∧ s.mbxSt slot = 1 ∧ s.mbxCmd slot = cmd ∧ (s.signet ∨ (0xD01 ≤ cmd ∧ cmd ≤ 0xD03)) then act s else s

/-! ## TP (R310, R311) -/

/-- What the TP does. -/
def State.setTp (v : Nat) : State := s.mapProcs (fun p => { p with tp := v })

/-- The comparator test of the TP ends (R310, R311). A restart goes on to the boot ROM with OWNER and keys kept. -/
def State.tpTested (bad : Option Nat) : State :=
  if s.procs.tp ≠ 1 then s
  else match bad with
    | none => s.setTp 2
    | some c => ((s.setTp 4).setFld .tru Tru.TP_STATUS_CHANNEL c).logErr .tru 0x20 srcDevice

/-- Signet stops, and the TP restarts with its comparator test (R311). -/
def State.tpLeaves : State := ((s.setFld .tru Tru.TP_STATUS_RUNNING 0).setFld .tru Tru.TP_STATUS_RESTARTING 1).setTp 1

/-- A lockstep mismatch of the TP (R311). -/
def State.tpMismatch (channel : Nat) : State :=
  if s.signet then
    let s := s.tpLeaves.setFld .tru Tru.TP_STATUS_CHANNEL channel
    (s.bump .tru Tru.CNT_TP_RESTARTS).raise .tru 9
  else if s.procs.tp = 2 then
    (((s.setTp 1).setFld .tru Tru.TP_STATUS_CHANNEL channel).bump .tru Tru.CNT_TP_RESTARTS).raise .tru 9
  else s

/-- Signet resumes after a restart (R311): requests that were BUSY complete with RESTARTED, but for the slots of `apart`. -/
def State.tpResumes (apart : Nat → Bool) : State :=
  let s := ((s.setTp 3).setFld .tru Tru.TP_STATUS_RESTARTING 0).setFld .tru Tru.TP_STATUS_RUNNING 1
  s.each ((List.range 5).filter (fun k => s.mbxSt k == 1 && !apart k)) (fun s k => s.mbxDone k 4 [])

/-! ## Rings of port 33 (R316–R318) -/

/-- Number of descriptors of a ring (R321). -/
def State.mringSize (r : Nat) : Nat :=
  let n := s.fld .mpc (Mpc.MRING_CFG_LOG2 r)
  2 ^ (if 4 ≤ n ∧ n ≤ 12 then n else 4)

/-- Address of the descriptor at HEAD. -/
def State.mringDesc (r : Nat) : Nat :=
  64 * s.fld .mpc (Mpc.MRING_BASE_BASE r) + 32 * (s.fld .mpc (Mpc.MRING_HEAD_HEAD r) % s.mringSize r)

/-- The device owns a descriptor of the ring, the page runs and the ring is in use. -/
def State.mringReady (r : Nat) : Bool :=
  s.inRun .mpc && s.flag .mpc (Mpc.MRING_CFG_EN r) &&
    s.fld .mpc (Mpc.MRING_HEAD_HEAD r) % s.mringSize r != s.fld .mpc (Mpc.MRING_TAIL_TAIL r) % s.mringSize r

/-- HEAD of a ring moves on. -/
def State.mringNext (r : Nat) : State :=
  s.setFld .mpc (Mpc.MRING_HEAD_HEAD r) ((s.fld .mpc (Mpc.MRING_HEAD_HEAD r) + 1) % s.mringSize r)

/-- Word `k` of a descriptor in management SRAM. -/
def State.mword (a k : Nat) : Nat := s.mem.msram.num (a + 4 * k) 4

/-- A time instruction word of 8 bytes (R236). -/
def tiwOf (w : Nat) : TimeInstr where
  insert := bitsOf w 2 0
  capture := w.testBit 3
  domain := bitsOf w 5 4
  tag := bitsOf w 15 8
  refFrac := bitsOf w 31 16
  refNs := bitsOf w 63 32

/-- CAUSE of a transmit descriptor that is not sent, 0 for none (R317). -/
def State.mtxCause (w0 w1 : Nat) (ecc : Bool) : Nat :=
  let len := bitsOf w1 13 0
  let fwrec := w1.testBit 17
  let port := bitsOf w1 29 24
  if (if fwrec then len < 1 ∨ 1000 < len else len < 64 ∨ 9216 < len) then 1
  else if msramSize < bitsOf w0 23 0 + len then 2
  else if ecc then 3
  else if fwrec ∧ !s.inRun .clsp then 4
  else if w1.testBit 16 ∧ (port = 36 ∨ 37 < port) then 5
  else 0

/-- The device takes the descriptor at HEAD of a transmit ring; `ecc` says that a word of the frame read with an uncorrectable error
(R317), and `corr` how many of its words and of the descriptor's were corrected (R307). -/
def State.mgmtTx (r : Nat) (ecc : Bool) (corr : Nat) : State :=
  if 8 ≤ r ∨ !s.mringReady r then s
  else
    let s := s.eccSeen corr 0
    let a := s.mringDesc r
    let w0 := s.mword a 0
    let w1 := s.mword a 1
    let cause := s.mtxCause w0 w1 ecc
    let data := s.mem.msram.bytes (bitsOf w0 23 0) (bitsOf w1 13 0)
    let tiw := tiwOf (s.mem.msram.num (a + 8) 8)
    let t := if cause ≠ 0 then s.bump .mpc Mpc.CNT_TX_DESC_ERR
      else
        let t := s.bump .mpc Mpc.CNT_TX_FRAMES
        if w1.testBit 17 then t.sendControl 2 false data
        else t.inject 33 data (some tiw) (if w1.testBit 16 then some (bitsOf w1 29 24, bitsOf w1 21 19) else none)
    let t := t.msramPut (a + 16)
      (leBytes 4 (1 + (if cause = 0 then 0 else 2) + 256 * cause) ++ leBytes 4 0 ++ leBytes 8 0)
    let t := t.mringNext r
    if w1.testBit 18 then t.raise .mpc 10 else t

/-- A descriptor of receive ring `r` is filled with bytes and the words 2 to 4 (R318). Bytes that would lie beyond management SRAM are
not written. -/
def State.mringFill (r : Nat) (l : List Byte) (orig w2 w3 w4 : Nat) : State :=
  if !s.mringReady r then (s.bump .mpc Mpc.CNT_RX_RING_FULL).raise .mpc 12
  else
    let a := s.mringDesc r
    let buf := bitsOf (s.mword a 0) 23 0
    let n := min l.length (min (bitsOf (s.mword a 1) 13 0) (msramSize - buf))
    let s := s.msramPut buf (l.take n)
    let s := s.msramPut (a + 8) (leBytes 4 w2 ++ leBytes 4 w3 ++ leBytes 4 w4 ++ leBytes 4 (n + 65536 * orig) ++
      leBytes 4 (1 + (if n < l.length then 2 else 0)) ++ leBytes 4 0)
    ((s.mringNext r).bump .mpc Mpc.CNT_RX_FRAMES).raise .mpc 11

/-- Words 2 to 4 of a receive descriptor of ports 32 and 33 (R318, R404). -/
def rxWords (f : Frame) (c : Copy) : Nat × Nat × Nat :=
  (f.tsSw, place f.ingress 6 0 + place f.profile 5 8 + place f.flags 16 16,
   place (c.ctx.getD 0) 13 0 + place (b2n c.ctx.isSome) 1 15 + place c.tc 3 16 + place (b2n (c.kind == .sample)) 1 20)

/-- A copy that starts at port 33 is delivered (R316). -/
def State.mgmtDeliver (f : Frame) (c : Copy) (l : List Byte) : State :=
  let (w2, w3, w4) := rxWords f c
  s.mringFill (8 + c.tc) l (s.editedLen f c.kind 33) w2 w3 w4

/-- A received FW_RECORD payload goes to ring 15 (R318). -/
def State.fwRecord (payload : List Byte) : State := s.mringFill 15 payload payload.length 0 0 (2 ^ 21)

end

end Sys2Proof.Machine
end

