-- ==== Sys2Proof/Machine/HostRings.lean ====
section
/-! DEFINITION. The host rings of port 32 and the DMA channels (R403–R413, R417–R420). -/
namespace Sys2Proof.Machine

section
variable (s : State)

/-! ## Host memory -/

/-- The device can send requests to the host: the data link is up, Bus Master Enable is 1, and the function is in D0 (R387). -/
def State.hostUp : Bool := s.flag .pcie Pcie.LINK_STATUS_DL_UP && s.flag .pcie Pcie.LINK_STATUS_BME && !s.pcie.d3

/-- The pieces of a transfer of `n` bytes at `a` that end at multiples of `u`: sizes that stand in the configuration space (R387). -/
def pieces (u : Nat) : Nat → Nat → Nat → List (Nat × Nat)
  | 0, _, _ => []
  | fuel + 1, a, n => if n = 0 then [] else let k := min n (u - a % u); (a, k) :: pieces u fuel (a + k) (n - k)

/-- An error of AER's Uncorrectable Error Status, by its bit. -/
def State.aerSet (n : Nat) : State := { s with pcie := { s.pcie with aer := s.pcie.aer ||| 2 ^ n } }

/-- A completion from the host has timed out (R414). -/
def State.cplTimeout : State := ((s.aerSet 14).bump .pcie Pcie.CNT_CPL_TIMEOUTS).raise .pcie 12

/-- Host memory changed by `f`. -/
def State.mapHost (f : Mem → Mem) : State := { s with mem := { s.mem with host := f s.mem.host } }

/-- What the host has written to its own memory before the device reads it: runs of bytes at addresses. -/
def State.hostImage (img : List (Nat × List Byte)) : State := s.mapHost (fun m => img.foldl (fun m r => m.putBytes r.1 r.2) m)

/-- A posted write of the device to host memory, in packets of at most Max_Payload_Size (R387). -/
def State.hostPut (a : Nat) (l : List Byte) (ns : Bool) : State :=
  (s.mapHost (fun m => m.putBytes a l)).each (pieces (128 * 2 ^ min 2 s.pcie.mps) l.length a l.length) (fun s x =>
    s.emit (.hostWrite x.1 ((l.drop (x.1 - a)).take x.2) ns))

/-- A read of host memory by a ring or a channel, in requests of at most Max_Read_Request_Size (R387). -/
def State.hostFetch (a n : Nat) (ns : Bool) : State :=
  s.each (pieces (128 * 2 ^ min 5 s.pcie.mrrs) n a n) (fun s x => s.emit (.hostFetch x.1 x.2 ns))

/-! ## Ring configuration (R417) -/

/-- Bits of word `k` of the configuration of ring `r`: table 0 for receive, 1 for transmit. -/
def State.ringF (tx : Bool) (r k hi lo : Nat) : Nat := s.tabF .ring (b2n tx) r k hi lo

def State.ringSize (tx : Bool) (r : Nat) : Nat :=
  let n := s.ringF tx r 2 3 0
  2 ^ (if 4 ≤ n ∧ n ≤ 12 then n else 4)
def State.ringEn (tx : Bool) (r : Nat) : Bool := s.ringF tx r 2 8 8 == 1
def State.ringNs (tx : Bool) (r : Nat) : Bool := s.ringF tx r 2 9 9 == 1 && s.flag .pcie Pcie.LINK_STATUS_NS_EN
def State.ringBase (tx : Bool) (r : Nat) : Nat :=
  128 * s.ringF tx r 0 31 7 + 2 ^ 32 * (s.tab .ring (b2n tx) r 1).toNat
def ringHeadF (tx : Bool) (r : Nat) : Fld := if tx then Ring.TX_HEAD_HEAD r else Ring.RX_HEAD_HEAD r
def ringTailF (tx : Bool) (r : Nat) : Fld := if tx then Ring.TX_TAIL_TAIL r else Ring.RX_TAIL_TAIL r
def State.ringHead (tx : Bool) (r : Nat) : Nat := s.fld .ring (ringHeadF tx r) % s.ringSize tx r

/-- How many descriptors the device owns. -/
def State.ringOwned (tx : Bool) (r : Nat) : Nat :=
  let n := s.ringSize tx r
  (s.fld .ring (ringTailF tx r) % n + n - s.ringHead tx r) % n

/-- Address of the descriptor `i` places after HEAD. -/
def State.ringDesc (tx : Bool) (r i : Nat) : Nat := s.ringBase tx r + 32 * ((s.ringHead tx r + i) % s.ringSize tx r)

/-- HEAD of a ring moves on by `n`. -/
def State.ringAdvance (tx : Bool) (r n : Nat) : State := s.setFld .ring (ringHeadF tx r) ((s.ringHead tx r + n) % s.ringSize tx r)

/-- A write of TAIL, taken modulo the ring's size (R403, R417). -/
def State.ringTail (tx : Bool) (r v : Nat) : State := s.setFld .ring (ringTailF tx r) (v % 4096 % s.ringSize tx r)

/-! ## Interrupts (R409) -/

/-- Key of the pending completions of a ring. -/
def ringKey (tx : Bool) (r : Nat) : Nat := if tx then 64 + r else r

/-- The vector of a ring is sent; its pending count clears. -/
def State.ringSignal (tx : Bool) (r : Nat) : State :=
  ({ s with ringPend := s.ringPend.set (ringKey tx r) 0 }).msixSend (s.ringF tx r 3 7 0)

/-- A completion of a ring pends (R409). -/
def State.ringComplete (tx : Bool) (r : Nat) : State :=
  let t := { s with ringPend := s.ringPend.modify (ringKey tx r) (· + 1) }
  if t.ringF tx r 3 8 8 = 1 ∧ max 1 (t.ringF tx r 3 23 16) ≤ t.ringPend.get (ringKey tx r) then t.ringSignal tx r else t

/-- USEC µs have passed since a ring's first pending completion (R409). -/
def State.ringTimer (tx : Bool) (r : Nat) : State :=
  if s.ringPend.get (ringKey tx r) ≠ 0 ∧ s.ringF tx r 3 8 8 = 1 ∧ s.ringF tx r 3 31 24 ≠ 0 then s.ringSignal tx r else s

/-! ## Receive (R404, R405) -/

/-- Buffers of a receive ring hold this many bytes. -/
def State.rxBuf (r : Nat) : Nat :=
  let n := s.ringF false r 2 22 16
  128 * (if n = 0 then 1 else min n 72)

/-- One descriptor of a delivered frame is filled: `part` is what goes to its buffer. -/
def State.rxFill (r i n orig : Nat) (w : Nat × Nat × Nat) (part : List Byte) : State :=
  let a := s.ringDesc false r i
  let ns := s.ringNs false r
  let w4 := w.2.2 + place (b2n (i == 0)) 1 21 + place (b2n (i + 1 == n)) 1 22
  let t := (s.hostFetch a 32 ns).hostPut (s.mem.host.num a 8) part ns
  let t := t.hostPut (a + 8) (leBytes 4 w.1 ++ leBytes 4 w.2.1 ++ leBytes 4 w4 ++ leBytes 4 (part.length + 65536 * orig)) ns
  (t.hostPut (a + 28) (leBytes 4 0) ns).hostPut (a + 24) (leBytes 4 1) ns

/-- A frame to or from the host is lost with the host (R391, R405). -/
def State.hostPathDrop : State := (s.bump .ring Ring.CNT_HOST_PATH_DROPS).raise .ring 10

/-- The copy at port 32 is done with before its end: its descriptor is released. -/
def State.hostTaken (c : Copy) : State := (s.dropRef c).mapEgress 32 (fun e => { e with sent := true })

/-- A copy that starts at port 32 goes to its ring, or is discarded (R405). `l` is the frame without its FCS, as the port keeps it until the copy
ends. -/
def State.hostDeliver (c : Copy) (l : List Byte) : State :=
  let r := c.ring
  if !s.hostUp then s.hostPathDrop.hostTaken c
  else if !s.ringEn false r ∨ s.ringOwned false r < ceilDiv l.length (s.rxBuf r) then
    (((s.bump .ring Ring.CNT_RX_RING_FULL).bumpTab .ring 2 r 2).raise .ring 8).hostTaken c
  else s.mapEgress 32 (fun e => { e with wire := l })

/-- The copy in progress at port 32 ends: it stands in its ring's buffers (R405). -/
def State.hostFilled (c : Copy) (l : List Byte) : State :=
  if !s.hostUp then s.hostPathDrop.hostTaken c
  else
    let f := s.frame c.frame
    let r := c.ring
    let b := s.rxBuf r
    let n := ceilDiv l.length b
    let t := s.each (List.range n) (fun s i =>
      s.rxFill r i n (s.editedLen f c.kind 32 - 4) (rxWords f c) ((l.drop (b * i)).take b))
    let t := ((t.ringAdvance false r n).bump .ring Ring.CNT_RX_FRAMES).bumpTab .ring 2 r 0
    ((t.bumpTab .ring 2 r 1 l.length).ringComplete false r).hostTaken c

/-- The copy in progress at port 32 is abandoned (R391). -/
def State.hostCut : State :=
  match (s.egress 32).sending with
  | some c => if (s.egress 32).sent then s else s.hostPathDrop.hostTaken c
  | none => s

/-! ## Transmit (R406, R407) -/

/-- A transmit descriptor as the device reads it. -/
structure TxDesc where
  addr : Nat
  w2 : Nat
  tiw : Nat
  deriving DecidableEq, Repr

/-- The descriptor `i` places after HEAD of a transmit ring. -/
def State.txDesc (r i : Nat) : TxDesc :=
  let a := s.ringDesc true r i
  ⟨s.mem.host.num a 8, s.mem.host.num (a + 8) 4, s.mem.host.num (a + 16) 8⟩

/-- How many descriptors the frame at HEAD takes, if the device owns it whole: one where the first has SOP = 0, else up to the first
with EOP. -/
def State.txFrameLen (r : Nat) : Option Nat :=
  let n := s.ringOwned true r
  if n = 0 then none
  else if !(s.txDesc r 0).w2.testBit 16 then some 1
  else ((List.range n).find? (fun i => (s.txDesc r i).w2.testBit 17)).map (· + 1)

/-- CAUSE of a frame that is not sent, 0 for none (R407); `bad` says that a data read failed. -/
def txCause (ds : List TxDesc) (bad : Bool) : Nat :=
  let w := (ds.head?.map TxDesc.w2).getD 0
  let lens := ds.map (fun d => bitsOf d.w2 13 0)
  let total : Nat := lens.sum
  let port := bitsOf w 29 24
  if !w.testBit 16 ∨ 16 < ds.length ∨ total < 14 ∨ 9212 < total ∨ lens.any (fun n => n == 0) then 1
  else if w.testBit 18 ∧ (port = 32 ∨ port = 36 ∨ 37 < port) then 5
  else if bad then 6
  else 0

/-- The ring whose frame is served next: rings that hold a complete frame are served in round robin (R407). -/
def State.txGrant : Option Nat :=
  let ready := (List.range 64).filter (fun r => s.ringEn true r && (s.txFrameLen r).isSome)
  match ready.find? (fun r => decide (s.dp.txRing < r)) with
  | some r => some r
  | none => ready.head?

/-- The reads by which the device takes descriptors and data of a transmit ring (R408). -/
def State.txFetch (r : Nat) (ds : List TxDesc) (data : Bool) : State :=
  let ns := s.ringNs true r
  let t := s.each (List.range ds.length) (fun t i => t.hostFetch (s.ringDesc true r i) 32 ns)
  if data then t.each ds (fun t d => t.hostFetch d.addr (bitsOf d.w2 13 0) ns) else t

/-- The device takes the frame at HEAD of transmit ring `r` (R407). `bad` is the address of a data read that failed, and whether it timed out
(R414). -/
def State.hostTx (r : Nat) (bad : Option (Nat × Bool)) : State :=
  match s.txFrameLen r with
  | none => s
  | some n =>
      let s := s.mapDp (fun d => { d with txRing := r })
      let ds := (List.range n).map (s.txDesc r)
      let w := (ds.head?.map TxDesc.w2).getD 0
      let cause := txCause ds bad.isSome
      let data := ds.flatMap (fun d => s.mem.host.bytes d.addr (bitsOf d.w2 13 0))
      let s := s.txFetch r ds (cause == 0 || cause == 6)
      let t := if cause = 0 then
          let t := ((s.bump .ring Ring.CNT_TX_FRAMES).bumpTab .ring 3 r 0).bumpTab .ring 3 r 1 data.length
          t.inject 32 (refcs (data ++ List.replicate (60 - data.length) 0)) (some (tiwOf ((ds.head?.map TxDesc.tiw).getD 0)))
            (if w.testBit 18 then some (bitsOf w 29 24, bitsOf w 22 20) else none)
        else
          let a := bad.getD (0, false)
          let t := if cause = 6 then (if a.2 then s.cplTimeout else s).logErr .ring 3 srcDevice a.1 else s
          ((t.bump .ring Ring.CNT_TX_DESC_ERR).bumpTab .ring 3 r 2).raise .ring 9
      let word := 1 + (if cause = 0 then 0 else 2) + 256 * cause
      let t := t.each (List.range n) (fun t i => t.hostPut (s.ringDesc true r i + 24) (leBytes 4 word) (s.ringNs true r))
      let t := t.ringAdvance true r n
      if w.testBit 16 ∧ w.testBit 19 then t.ringComplete true r else t

/-- The device serves the next transmit ring (R407, R418). -/
def State.hostTxNext (bad : Option (Nat × Bool)) : State :=
  if !s.inRun .ring ∨ !s.hostUp then s
  else match s.txGrant with
    | none => s
    | some r => s.hostTx r bad

/-! ## DMA channels (R410–R413, R419) -/

/-- CH_CTRL.ST: 0 OFF, 1 IDLE, 2 BUSY, 3 HALTED. -/
def State.chSt (c : Nat) : Nat := s.fld .dma (Dma.CH_CTRL_ST c)
def State.setCh (c st : Nat) : State :=
  let halt := s.fld .dma Dma.HALT_MAP_MAP
  let s := (s.setFld .dma (Dma.CH_CTRL_ST c) st).mapDp (fun d => { d with dmaPos := d.dmaPos.set c (0, 0) })
  if st = 3 then (s.setFld .dma Dma.HALT_MAP_MAP (halt ||| 2 ^ c)).raise .dma 9
  else s.setFld .dma Dma.HALT_MAP_MAP (halt - (halt &&& 2 ^ c))

def State.chF (c k hi lo : Nat) : Nat := s.tabF .dma 0 c k hi lo
def State.chSize (c : Nat) : Nat :=
  let n := s.chF c 2 3 0
  2 ^ (if 2 ≤ n ∧ n ≤ 10 then n else 2)
def State.chSpace (c : Nat) : Nat := s.chF c 2 5 4
def State.chEn (c : Nat) : Bool := s.chF c 2 8 8 == 1
def State.chNs (c : Nat) : Bool := s.chF c 2 9 9 == 1 && s.flag .pcie Pcie.LINK_STATUS_NS_EN
def State.chHead (c : Nat) : Nat := s.fld .dma (Dma.HEAD_HEAD c) % s.chSize c
def State.chEmpty (c : Nat) : Bool := s.chHead c == s.fld .dma (Dma.TAIL_TAIL c) % s.chSize c

/-- Address of the descriptor at HEAD in the ring's space. -/
def State.chDesc (c : Nat) : Nat :=
  64 * s.chF c 0 31 6 + 2 ^ 32 * (s.tab .dma 0 c 1).toNat + 64 * s.chHead c

/-- The memory of a space: 0 host memory, 1 management SRAM, 2 the scratchpad; space 3 has none. -/
def State.spaceMem (space : Nat) : Mem :=
  match space with | 0 => s.mem.host | 1 => s.mem.msram | 2 => s.mem.scratch | _ => Sparse.empty

/-- Bytes written to a space. -/
def State.spacePut (space a : Nat) (l : List Byte) (ns : Bool) : State :=
  match space with
  | 0 => s.hostPut a l ns
  | 1 => s.msramPut a l
  | 2 => { s with mem := { s.mem with scratch := s.mem.scratch.putBytes a l } }
  | _ => s

/-- A DMA descriptor (R410). -/
structure DmaDesc where
  src : Nat
  dst : Nat
  rowLen : Nat
  rows : Nat
  srcStride : Int
  dstStride : Int
  w8 : Nat
  deriving DecidableEq, Repr

/-- The descriptor at HEAD of a channel. -/
def State.dmaDesc (c : Nat) : DmaDesc :=
  let m := s.spaceMem (s.chSpace c)
  let a := s.chDesc c
  { src := m.num a 8, dst := m.num (a + 8) 8, rowLen := m.num (a + 16) 4 % 2 ^ 24, rows := m.num (a + 20) 4 % 2 ^ 16
    srcStride := signed 32 (m.num (a + 24) 4), dstStride := signed 32 (m.num (a + 28) 4), w8 := m.num (a + 32) 4 }

def DmaDesc.srcSpace (d : DmaDesc) : Nat := bitsOf d.w8 1 0
def DmaDesc.dstSpace (d : DmaDesc) : Nat := bitsOf d.w8 3 2
def DmaDesc.elem (d : DmaDesc) : Nat := 2 ^ bitsOf d.w8 5 4

/-- Row starts of a descriptor. -/
def DmaDesc.srcRow (d : DmaDesc) (i : Nat) : Int := d.src + i * d.srcStride
def DmaDesc.dstRow (d : DmaDesc) (i : Nat) : Int := d.dst + i * d.dstStride

/-- A row of `len` bytes lies within its space's windows (R411). Rows in between lie within when the first and the last do. -/
def State.rowOk (space : Nat) (a : Int) (len : Nat) : Bool :=
  let within (b l : Nat) : Bool := decide ((b : Int) ≤ a ∧ a + len ≤ (l : Int) + 1)
  match space with
  | 0 => true
  | 1 => within (s.fld .dma Dma.MS_WIN_BASE_OFFSET) (s.fld .dma Dma.MS_WIN_LIMIT_OFFSET)
  | 2 => within (s.fld .dma Dma.SP_WIN_BASE_OFFSET) (s.fld .dma Dma.SP_WIN_LIMIT_OFFSET) && decide (a + len ≤ 0x200000)
  | _ => false

/-- RESULT of the checks of R411: 0, 2 MISALIGNED or 3 RANGE. -/
def State.dmaCheck (d : DmaDesc) : Nat :=
  let e := d.elem
  if d.src % e ≠ 0 ∨ d.dst % e ≠ 0 ∨ d.srcStride % e ≠ 0 ∨ d.dstStride % e ≠ 0 ∨ d.rowLen % e ≠ 0 then 2
  else if [0, d.rows - 1].all (fun i =>
      s.rowOk d.srcSpace (d.srcRow i) d.rowLen && s.rowOk d.dstSpace (d.dstRow i) d.rowLen) then 0
  else 3

/-- The bytes of each element reversed (R410). -/
def swapElems (e : Nat) : Nat → List Byte → List Byte
  | 0, _ => []
  | n + 1, l => if l.isEmpty then [] else (l.take e).reverse ++ swapElems e n (l.drop e)

/-- The extent of a descriptor's rows in a space. -/
def dmaSpan (first last : Int) (len : Nat) : Int × Int := (min first last, max first last + len)

/-- The source and destination ranges overlap: the content of the destination is then not specified (R410). -/
def DmaDesc.overlaps (d : DmaDesc) : Bool :=
  let a := dmaSpan (d.srcRow 0) (d.srcRow (d.rows - 1)) d.rowLen
  let b := dmaSpan (d.dstRow 0) (d.dstRow (d.rows - 1)) d.rowLen
  d.srcSpace == d.dstSpace && decide (a.1 < b.2 ∧ b.1 < a.2)

/-- How far the descriptor of a channel has been copied: rows, and bytes of the next. -/
def State.chPos (c : Nat) : Nat × Nat := s.dp.dmaPos.get c

/-- A channel's ring can be written: word 14 can. -/
def State.chWritable (c : Nat) : Bool := s.chSpace c != 0 || s.hostUp

/-- A descriptor's copy needs the host, which cannot be reached. -/
def State.hostDead (d : DmaDesc) : Bool := !s.hostUp && (d.srcSpace == 0 || d.dstSpace == 0)

/-- The engine moves one burst of a channel: at most 512 B, of one row (R411). -/
def State.dmaBurst (c : Nat) (d : DmaDesc) : State :=
  let (row, off) := s.chPos c
  let n := min 512 (d.rowLen - off)
  let a := (d.srcRow row).toNat + off
  let s := if d.srcSpace = 0 then s.hostFetch a n (s.chNs c) else s
  let (l, s) := if d.overlaps then s.drawBytes n else ((s.spaceMem d.srcSpace).bytes a n, s)
  let l := if d.w8.testBit 6 then swapElems d.elem l.length l else l
  (s.spacePut d.dstSpace ((d.dstRow row).toNat + off) l (s.chNs c)).mapDp (fun x =>
    { x with dmaPos := x.dmaPos.set c (if d.rowLen ≤ off + n then (row + 1, 0) else (row, off + n)), dmaLast := c })

/-- A BUSY channel has a burst to move before its copy reaches `rows` rows. -/
def State.dmaMoves (c rows : Nat) : Bool :=
  let d := s.dmaDesc c
  s.chSt c == 2 && s.chSpace c != 3 && s.chWritable c && !s.hostDead d && s.dmaCheck d == 0 && decide ((s.chPos c).1 < min rows d.rows) && d.rowLen != 0

/-- A turn of the round robin that ends with channel `c`: each other BUSY channel moves a burst, those after the channel served last first (R411). -/
def State.dmaTurn (c rows : Nat) : State :=
  let order := (List.range 32).map (fun i => (s.dp.dmaLast + 1 + i) % 32)
  (order.takeWhile (fun x => x != c) ++ [c]).foldl (fun s x =>
    if s.dmaMoves x (if x = c then rows else 65535) then s.dmaBurst x (s.dmaDesc x) else s) s

/-- The engine runs until channel `c` has copied `rows` rows of its descriptor. -/
def State.dmaTo (c rows : Nat) : State :=
  let d := s.dmaDesc c
  s.each (List.range ((min rows d.rows - (s.chPos c).1) * ceilDiv d.rowLen 512)) (fun s _ => if s.dmaMoves c rows then s.dmaTurn c rows else s)

/-- Word 14 of the HEAD descriptor is written where its ring can be, and its completion is then signalled where IRQ asks for it (R410, R412, R413). -/
def State.dmaResult (c result rows : Nat) (irq : Bool) : State :=
  if !s.chWritable c then s else
  let s := s.spacePut (s.chSpace c) (s.chDesc c + 56) (leBytes 4 (1 + 2 * result + 65536 * rows)) (s.chNs c)
  if !irq then s
  else if s.chF c 3 8 8 = 1 then s.msixSend (s.chF c 3 7 0)
  else (s.setFld .dma Dma.DONE_MAP_MAP (s.fld .dma Dma.DONE_MAP_MAP ||| 2 ^ c)).raise .dma 8

/-- HEAD of a channel moves on; the channel goes BUSY, IDLE, or OFF where EN has been cleared (R412). -/
def State.dmaNext (c : Nat) : State :=
  let s := s.setFld .dma (Dma.HEAD_HEAD c) ((s.chHead c + 1) % s.chSize c)
  s.setCh c (if !s.chEn c then 0 else if s.chEmpty c then 1 else 2)

/-- A channel halts with a RESULT (R412). -/
def State.dmaHalt (c result rows : Nat) (irq : Bool) : State := ((s.dmaResult c result rows irq).bumpTab .dma 1 c 2).setCh c 3

/-- A write of TAIL (R410, R412). -/
def State.dmaTail (c v : Nat) : State :=
  let s := s.setFld .dma (Dma.TAIL_TAIL c) (v % 1024 % s.chSize c)
  if s.chSt c = 1 ∧ !s.chEmpty c ∧ s.inRun .dma then s.setCh c 2 else s

/-- A channel halts with BUS_ERROR at an address (R412). -/
def State.dmaBusError (c a rows : Nat) (irq timeout : Bool) : State :=
  (((if timeout then s.cplTimeout else s).logErr .dma 3 srcDevice a).bump .dma Dma.CNT_BUS_ERRORS).dmaHalt c 1 rows irq

/-- The HEAD descriptor of a BUSY channel is run to its end (R411–R413). `bad` is a read or write that failed; `corr` counts the words of
management SRAM and of the scratchpad that were corrected. -/
def State.dmaRun (c : Nat) (bad : Option BadRead) (corr : Nat × Nat) : State :=
  if s.chSt c ≠ 2 then s
  else
    let s := s.eccSeen corr.1 corr.2
    let d := s.dmaDesc c
    let irq := d.w8.testBit 7
    let check := s.dmaCheck d
    if !s.chWritable c then s.dmaBusError c (s.chDesc c) (s.chPos c).1 false false
    else
    let s := if s.chSpace c = 0 then s.hostFetch (s.chDesc c) 64 (s.chNs c) else s
    if s.chSpace c = 3 then (s.bump .dma Dma.CNT_RANGE_ERRORS).dmaHalt c 3 0 false
    else if bad.any (fun b => b.rows.isNone) then s.dmaBusError c (s.chDesc c) 0 false (bad.any BadRead.timeout)
    else if check = 2 then ((s.logErr .dma 4 srcDevice d.src).bump .dma Dma.CNT_MISALIGNED).dmaHalt c 2 0 irq
    else if check = 3 then (s.bump .dma Dma.CNT_RANGE_ERRORS).dmaHalt c 3 0 irq
    else if s.hostDead d then s.dmaBusError c (if d.srcSpace = 0 then d.src else d.dst) (s.chPos c).1 irq false
    else match bad with
      | some b =>
        let s := s.dmaTo c (b.rows.getD 0)
        s.dmaBusError c b.addr (s.chPos c).1 irq b.timeout
      | none =>
        let n := d.rows * d.rowLen
        let s := (s.dmaTo c d.rows).dmaResult c 0 d.rows irq
        let s := ((s.bump .dma Dma.CNT_DESCS).bumpTab .dma 1 c 0).bump .dma Dma.CNT_BYTES n
        (s.bumpTab .dma 1 c 1 n).dmaNext c

/-- ABORT, after the burst that ends `rows` rows (R412). -/
def State.dmaAbort (c rows : Nat) (corr : Nat × Nat) : State :=
  if s.chSt c = 2 then
    let s := s.eccSeen corr.1 corr.2
    let s := s.dmaTo c rows
    s.dmaHalt c 4 (s.chPos c).1 ((s.dmaDesc c).w8.testBit 7)
  else s

/-- The page lets a channel run its descriptors: in RUN, and in DRAINING those it owns (R412). -/
def State.dmaRuns : Bool := s.st .dma == 1 || s.st .dma == 2

/-- RESUME and SKIP (R412). -/
def State.dmaResume (c : Nat) : State := if s.chSt c = 3 ∧ s.dmaRuns then s.setCh c 2 else s
def State.dmaSkip (c : Nat) : State := if s.chSt c = 3 ∧ s.dmaRuns then s.dmaNext c else s

/-- DMA enters RUN: idle channels whose TAIL has been written go on (R31, R412). -/
def State.dmaWakes : State :=
  s.each (List.range 32) (fun s c => if s.chSt c = 1 ∧ !s.chEmpty c then s.setCh c 2 else s)

/-- A change of EN of a channel (R412). -/
def State.dmaEn (c : Nat) (was : Bool) : State :=
  if !was ∧ s.chEn c then
    if s.chSt c = 0 then ((s.setFld .dma (Dma.HEAD_HEAD c) 0).setFld .dma (Dma.TAIL_TAIL c) 0).setCh c 1 else s
  else if was ∧ !s.chEn c then (if s.chSt c = 1 ∨ s.chSt c = 3 then s.setCh c 0 else s)
  else s

/-- A change of EN of a ring (R403). -/
def State.ringEnChange (tx : Bool) (r : Nat) (was : Bool) : State :=
  if !was ∧ s.ringEn tx r then (s.setFld .ring (ringHeadF tx r) 0).setFld .ring (ringTailF tx r) 0 else s

/-! ## Loss of the host (R391) -/

/-- A transmit frame may be in progress: a ring holds a complete one, and whether its reading has begun is a free value. -/
def State.txCut : State :=
  if s.inRun .ring ∧ s.txGrant.isSome then
    let (b, s) := s.draw 2
    if b = 1 then s.hostPathDrop else s
  else s

/-- Every ring gets EN = 0 and HEAD = TAIL = 0, and a frame in progress is abandoned; each channel that works in host memory goes to HALTED with
RESULT ABORTED, and ROWS_DONE what it has copied. The host cannot be written, so word 14 of a ring in host memory is not. -/
def State.ringsStop : State :=
  let s := s.hostCut.txCut
  let s := s.each [false, true] (fun s tx => s.each (List.range 64) (fun s r =>
    if s.ringEn tx r ∨ s.fld .ring (ringHeadF tx r) ≠ 0 ∨ s.fld .ring (ringTailF tx r) ≠ 0 then
      ((s.setTabF .ring (b2n tx) r 2 8 8 0).setFld .ring (ringHeadF tx r) 0).setFld .ring (ringTailF tx r) 0
    else s))
  s.each (List.range 32) (fun s c =>
    let d := s.dmaDesc c
    let names0 := s.chSpace c == 0 || (s.chSt c == 2 && (d.srcSpace == 0 || d.dstSpace == 0))
    if (s.chSt c = 1 ∨ s.chSt c = 2) ∧ names0 then
      s.dmaHalt c 4 (s.chPos c).1 (d.w8.testBit 7)
    else s)

end

end Sys2Proof.Machine
end

