-- ==== Sys2Proof/Machine/Bridge.lean ====
section
/-! DEFINITION. The PCIe endpoint and the bridge: windows, byte swapping, exclusive sequences, requests to the partner and to the host,
failed posted writes (R387–R402, R414–R416). -/
namespace Sys2Proof.Machine

section
variable (s : State)

/-- The bridge's state changed by `f`. -/
def State.mapBridge (f : Bridge → Bridge) : State := { s with bridge := f s.bridge }

/-! ## Failed posted writes (R401) -/

/-- An entry joins PWLOG, which holds 16. -/
def State.pwFail (cause orig window code addr : Nat) : State :=
  let t := (s.bump .brg Brg.CNT_PW_FAILS).raise .brg 8
  if 16 ≤ s.bridge.pwlog.length then t.bump .brg Brg.CNT_PWLOG_LOST
  else t.mapBridge (fun b => { b with pwlog := b.pwlog ++ [⟨cause, orig, window, code, addr, s.ns32⟩] })

/-- PWLOG_POP. -/
def State.pwPop : State := s.mapBridge (fun b => { b with pwlog := b.pwlog.drop 1 })

/-- Words W0 to W3 of the head of PWLOG (R415). -/
def State.pwWord (k : Nat) : Nat :=
  match s.bridge.pwlog with
  | [] => 0
  | e :: _ =>
    match k with
    | 0 => place e.cause 3 0 + place e.orig 4 4 + place e.window 5 8 + place e.code 8 16 + 2 ^ 31
    | 1 => e.addr % 2 ^ 32
    | 2 => e.addr / 2 ^ 32 % 2 ^ 32
    | _ => e.time

/-! ## The peer path (R396, R399) -/

/-- The conditions of PATH_UP (R396). -/
def State.pathWanted : Bool :=
  s.flag .brg Brg.PEER_CFG_EN && s.inRun .clsp && s.role != 0 && s.lst 37 == 2 && s.flag .clsp Clsp.ROLE_STATUS_HB_OK

/-- PATH_UP. -/
def State.pathUp : Bool := s.flag .brg Brg.PEER_STATUS_PATH_UP

/-- This member is the one that backs off (R399). -/
def State.backsOff : Bool :=
  let peer := match s.clasp.peer with | some b => b.role | none => 0
  let low (r : Nat) : Bool := r == 3 || r == 2
  let high (r : Nat) : Bool := r == 4 || r == 5
  let nbr := s.neighbour 37
  if low s.role ∧ high peer then true
  else if low peer ∧ high s.role then false
  else match nbr with
    | some n =>
      if s.nodeValid ∧ n ≠ s.fld .fab Fab.NODE_ID then decide (n < s.fld .fab Fab.NODE_ID)
      else s.flag .clsp Clsp.PAIR_CFG_PAIR_ID
    | none => s.flag .clsp Clsp.PAIR_CFG_PAIR_ID

/-- A READ or CAS toward the partner is open: sent, and not in the wait after a RETRY (R399). -/
def State.holdsOpen : Bool := s.bridge.peerOpen.any (fun r => !r.parked)

/-! ## BRIDGE messages (R397) -/

/-- The payload of a BRIDGE frame. -/
def bridgeMsg (op orig tag status count addr : Nat) (data : List Byte) : List Byte :=
  [BitVec.ofNat 8 (16 * op + orig), BitVec.ofNat 8 tag, BitVec.ofNat 8 status, BitVec.ofNat 8 count] ++ beBytes 4 addr ++ data

/-- A request or a response is sent in a BRIDGE frame. -/
def State.sendBridge (l : List Byte) : State := s.sendPlain 3 l

/-- The message of an open request. -/
def PeerReq.msg (r : PeerReq) : List Byte :=
  if r.cas then bridgeMsg 3 r.orig r.tag 0 r.words r.addr (beBytes (4 * r.words) r.old ++ beBytes (4 * r.words) r.new)
  else bridgeMsg 2 r.orig r.tag 0 r.words r.addr []

/-! ## The end of a request for its initiator (R395, R400, R402) -/

/-- An access fault in MP `m` for a request to processor address `addr`, logged on BRG (R393, R402). -/
def State.mpFault (m addr code : Nat) : State := (s.logErr .brg code (1 + m) addr).emit (.procFault (1 + m))

/-- A request of the host ends with Completer Abort (R392, R402). -/
def State.completerAbort (a : Nat) : State := ((s.aerSet 15).emit (.completerAbort a)).bump .pcie Pcie.CNT_CA_SENT

/-- A request fails (R400, R402); `code` is what BRG logs for one of an MP: BUS_ERROR, or DOMAIN_LOST at a forced power-down (R19). -/
def State.useFails (u : BridgeUse) (code : Nat := 3) : State :=
  match u with
  | .load m a _ => s.mpFault m a code
  | .lr m a _ => s.mpFault m a code
  | .sc m a _ _ => s.mpFault m a code
  | .amoRead m a _ _ _ _ => s.mpFault m a code
  | .amoCas m a _ _ _ _ _ => s.mpFault m a code
  | .hostRead off _ _ => s.completerAbort off
  | .poll => (s.bump .brg Brg.CNT_POLL_FAIL).setFld .brg Brg.PEER_STATUS_SUMMARY_VALID 0

/-- What an atomic memory operation stores (R395). -/
def Amo.compute (op : Amo) (size old arg : Nat) : Nat :=
  let n := 8 * size
  match op with
  | .swap => arg
  | .add => (old + arg) % 2 ^ n
  | .xor => old ^^^ arg
  | .and => old &&& arg
  | .or => old ||| arg
  | .smin => if signed n old ≤ signed n arg then old else arg
  | .smax => if signed n arg ≤ signed n old then old else arg
  | .umin => min old arg
  | .umax => max old arg

/-! ## Windows (R393, R394) -/

/-- The window an address of a management processor lies in, and the offset in it. -/
def windowOf (a : Nat) : Option (Nat × Nat) :=
  let k := a / 2 ^ 36
  if 1 ≤ k ∧ k ≤ 16 then some (k - 1, a % 2 ^ 36) else none

/-- The size of a window. -/
def State.winSize (w : Nat) : Nat := 2 ^ (max 12 (min 36 (s.fld .brg (Brg.WIN_CFG_LOG2 w))))

/-- The swap unit of a window (R394). -/
def State.winUnit (w : Nat) : Nat := 2 ^ s.fld .brg (Brg.WIN_CFG_SWAP w)

/-- REMOTE of a window. -/
def State.winRemote (w : Nat) : Nat :=
  4096 * s.fld .brg (Brg.WIN_REMOTE_LO_ADDR w) + 2 ^ 32 * s.fld .brg (Brg.WIN_REMOTE_HI_ADDR w)

def State.winPeer (w : Nat) : Bool := s.flag .brg (Brg.WIN_CFG_TARGET w)
def State.winNs (w : Nat) : Bool := s.flag .brg (Brg.WIN_CFG_NS w) && s.flag .pcie Pcie.LINK_STATUS_NS_EN

/-- o′ of R394. -/
def swapOff (u size o : Nat) : Nat := if size ≤ u then o - o % u + u - size - o % u else o

/-- The bytes of an access as R394 puts them on the other side. -/
def swapData (u : Nat) (l : List Byte) : List Byte := if l.length ≤ u then l.reverse else swapElems u l.length l

/-- The target address of an access through a window. -/
def State.winTarget (w o size : Nat) : Nat := s.winRemote w + swapOff (s.winUnit w) size o

/-- What an access at offset `o` of a window goes by: the registers of the window as they stand when it is issued (R393). -/
def State.winView (w o : Nat) : WinView := { peer := s.winPeer w, unit := s.winUnit w, remote := s.winRemote w, ns := s.winNs w, off := o }

/-- The target address of an issued access of a size. -/
def WinView.target (v : WinView) (size : Nat) : Nat := v.remote + swapOff v.unit size v.off

/-- A value as the other side of the window sees it, and back (R394, R395). -/
def WinView.swapped (v : WinView) (size x : Nat) : Nat := leNat (swapData v.unit (leBytes size x))

/-- The value that a read gives, from the target's bytes from the word that holds it on (R394). -/
def WinView.value (v : WinView) (size : Nat) (l : List Byte) : Nat :=
  leNat (swapData v.unit ((l.drop (if v.peer then v.target size % 4 else 0)).take size))

/-- The window of an access that the bridge does not refuse, and its offset (R393). -/
def State.winCheck (a size : Nat) : Option (Nat × Nat) :=
  match windowOf a with
  | none => none
  | some (w, o) =>
    if s.inRun .brg ∧ s.flag .brg (Brg.WIN_CFG_EN w) ∧ o + size ≤ s.winSize w ∧ size ≠ 0 ∧ o % size = 0 ∧
        (!s.winPeer w ∨ s.winTarget w o size < 0x4000000) then some (w, o) else none

/-- Compare-and-swap works through a window at a target address (R395). -/
def State.casWorks (w target : Nat) : Bool :=
  if s.winPeer w then decide (0x2000000 ≤ target ∧ target < 0x2200000)
  else s.flag .brg (Brg.WIN_CFG_ATOMIC w) && s.flag .pcie Pcie.LINK_STATUS_ATOMIC_EN

/-! ## Requests to the host (R402) -/

/-- A read or a CAS AtomicOp is sent to the host. -/
def State.hostSend (r : HostReq) : State :=
  let id := s.bridge.nextId
  (s.mapBridge (fun b => { b with nextId := id + 1, hostOpen := b.hostOpen ++ [{ r with id }] })).emit
    (match r.cas with | none => .hostRead r.addr r.size r.win.ns | some (old, new) => .hostCas r.addr r.size old new r.win.ns)

/-- A request to the host is sent, waits while 256 are outstanding, or fails at once where the host cannot be reached (R387, R402). -/
def State.hostOpenReq (r : HostReq) : State :=
  if !s.hostUp then s.useFails r.use
  else if 256 ≤ s.bridge.hostOpen.length then s.mapBridge (fun b => { b with hostWait := b.hostWait ++ [r] })
  else s.hostSend r

/-- The oldest request that waits is sent where fewer than 256 are outstanding. -/
def State.hostServe : State :=
  match s.bridge.hostWait with
  | [] => s
  | r :: rest => if 256 ≤ s.bridge.hostOpen.length then s else (s.mapBridge (fun b => { b with hostWait := rest })).hostSend r

/-! ## Requests to the partner (R398) -/

/-- The lowest tag that is not open. -/
def State.freeTag : Option Nat := (List.range 64).find? (fun t => !s.bridge.peerOpen.any (fun r => r.tag == t))

/-- A READ or CAS toward the partner is sent, waits for a tag, or fails at once while PATH_UP is 0 (R398, R402). -/
def State.peerOpenReq (r : PeerReq) : State :=
  if !s.pathUp then s.useFails r.use
  else match s.freeTag with
    | none => s.mapBridge (fun b => { b with peerWait := b.peerWait ++ [r] })
    | some t =>
      let r := { r with tag := t }
      ((s.mapBridge (fun b => { b with peerOpen := b.peerOpen ++ [r] })).sendBridge r.msg).bump .brg Brg.CNT_PEER_REQ_TX

/-- A READ of `words` words at a partner offset. -/
def State.peerRead (u : BridgeUse) (orig addr words : Nat) (win : WinView := {}) : State :=
  s.peerOpenReq { tag := 0, use := u, cas := false, orig, addr, words, old := 0, new := 0, win }

/-- A WRITE of words at a partner offset, or a failed posted write while PATH_UP is 0 (R398, R401). -/
def State.peerWrite (orig window addr : Nat) (words : List Nat) : State :=
  if !s.pathUp then s.pwFail 3 orig window 0 addr
  else (s.sendBridge (bridgeMsg 1 orig 0 0 words.length addr (words.flatMap (beBytes 4)))).bump .brg Brg.CNT_PEER_REQ_TX

/-- A free tag goes to the oldest request that waits (R398). -/
def State.peerServe : State :=
  match s.bridge.peerWait, s.freeTag with
  | r :: rest, some _ => (s.mapBridge (fun b => { b with peerWait := rest })).peerOpenReq r
  | _, _ => s

/-- A request that has ended gives its tag to the oldest that waits. -/
def State.peerClose (tag : Nat) : State :=
  (s.mapBridge (fun b => { b with peerOpen := b.peerOpen.filter (fun r => r.tag != tag) })).peerServe

/-! ## Accesses of the management processors (R393–R395) -/

/-- A reservation of an MP ends. -/
def State.dropResv (m : Nat) : State := s.mapBridge (fun b => { b with resv := b.resv.set m none })

/-- An access that the bridge refuses (R393). -/
def State.winRefused (m a : Nat) : State := s.mpFault m a 3

/-- Little-endian words of a list of bytes. -/
def wordsOf (l : List Byte) : List Nat := (List.range (l.length / 4)).map (fun i => leAt l (4 * i) 4)

/-- Big-endian words of a BRIDGE frame as the bytes they stand for at BAR0. -/
def bridgeBytes (data : List Byte) : List Byte := (List.range (data.length / 4)).flatMap (fun i => leBytes 4 (beAt data (4 * i) 4))

/-- A read through a window: to the host, or as whole words to the partner. -/
def State.winRead (u : BridgeUse) (m : Nat) (v : WinView) (size : Nat) : State :=
  let t := v.target size
  if v.peer then s.peerRead u (1 + m) (t - t % 4) (max 1 (size / 4)) v
  else s.hostOpenReq { id := 0, use := u, addr := t, size, win := v }

/-- A store through a window (R393, R394, R401). -/
def State.winStore (m a w o : Nat) (l : List Byte) : State :=
  let t := s.winTarget w o l.length
  let data := swapData (s.winUnit w) l
  if s.winPeer w then
    if l.length < 4 then (s.logErr .brg 4 (1 + m) a).emit (.procDone (1 + m))
    else (s.peerWrite (1 + m) w t (wordsOf data)).emit (.procDone (1 + m))
  else if !s.flag .pcie Pcie.LINK_STATUS_DL_UP then (s.pwFail 1 (1 + m) w 0 t).emit (.procDone (1 + m))
  else if !s.flag .pcie Pcie.LINK_STATUS_BME then (s.pwFail 2 (1 + m) w 0 t).emit (.procDone (1 + m))
  else (s.hostPut t data (s.winNs w)).emit (.procDone (1 + m))

/-- A load or a store of MP `m` at a processor address of the windows: a store carries its bytes (R393). -/
def State.winAccess (m a size : Nat) (store : Option (List Byte)) : State :=
  let s := s.dropResv m
  match s.winCheck a size with
  | none => s.winRefused m a
  | some (w, o) =>
    match store with
    | some l => s.winStore m a w o (l.take size)
    | none => s.winRead (.load m a size) m (s.winView w o) size

/-- LR (R395): where compare-and-swap does not work it is an ordinary read. -/
def State.winLr (m a size : Nat) : State :=
  let s := s.dropResv m
  match s.winCheck a size with
  | none => s.winRefused m a
  | some (w, o) =>
    s.winRead (if s.casWorks w (s.winTarget w o size) then .lr m a size else .load m a size) m (s.winView w o) size

/-- A compare-and-swap of the value `old` for `new`, both as the processor sees them (R395). -/
def State.winCas (u : BridgeUse) (m : Nat) (v : WinView) (size old new : Nat) : State :=
  let t := v.target size
  let old := v.swapped size old
  let new := v.swapped size new
  if v.peer then s.peerOpenReq { tag := 0, use := u, cas := true, orig := 1 + m, addr := t, words := size / 4, old, new, win := v }
  else s.hostOpenReq { id := 0, use := u, addr := t, size, cas := some (old, new), win := v }

/-- SC (R395). -/
def State.winSc (m a size new : Nat) : State :=
  let r := s.bridge.resv.get m
  let s := s.dropResv m
  match s.winCheck a size with
  | none => s.winRefused m a
  | some (w, o) =>
    if !s.casWorks w (s.winTarget w o size) then s.mpFault m a 0x21
    else match r with
      | some v =>
        if v.addr = a ∧ v.size = size then s.winCas (.sc m a size v.value) m (s.winView w o) size v.value new
        else s.emit (.procData (1 + m) 1)
      | none => s.emit (.procData (1 + m) 1)

/-- AMO: its first read (R395). -/
def State.winAmo (m a size : Nat) (op : Amo) (arg : Nat) : State :=
  let s := s.dropResv m
  match s.winCheck a size with
  | none => s.winRefused m a
  | some (w, o) =>
    if !s.casWorks w (s.winTarget w o size) then s.mpFault m a 0x21
    else s.winRead (.amoRead m a size op arg 1) m (s.winView w o) size

/-! ## The data of a request that succeeds -/

/-- A request ends with the bytes `l` of its target; `w` is what an access of an MP was issued with (R392, R393, R395, R400). -/
def State.useEnds (u : BridgeUse) (w : WinView) (l : List Byte) : State :=
  let here (size : Nat) : Nat := leNat (swapData w.unit (l.take size))
  match u with
  | .load m _ size => s.emit (.procData (1 + m) (w.value size l))
  | .lr m a size =>
    let v := w.value size l
    (s.mapBridge (fun b => { b with resv := b.resv.set m (some ⟨a, size, v⟩) })).emit (.procData (1 + m) v)
  | .sc m _ size expect =>
    if here size = expect then s.emit (.procData (1 + m) 0)
    else (s.bump .brg Brg.CNT_SEM_FAILS).emit (.procData (1 + m) 1)
  | .amoRead m a size op arg tries =>
    let v := w.value size l
    s.winCas (.amoCas m a size op arg tries v) m w size v (op.compute size v arg)
  | .amoCas m a size op arg tries expect =>
    if here size = expect then s.emit (.procData (1 + m) expect)
    else if 8 ≤ tries then (s.mpFault m a 0x22).raise .brg 12
    else s.winRead (.amoRead m a size op arg (tries + 1)) m w size
  | .hostRead off size got =>
    let got := got ++ l
    let need := off % 4 + size
    if got.length < need ∧ l ≠ [] then
      s.peerRead (.hostRead off size got) 0 (off - off % 4 + got.length) (min 64 (ceilDiv (need - got.length) 4))
    else s.emit (.hostData ((got.drop (off % 4)).take size))
  | .poll =>
    let ws := (List.range 9).map (fun k => leAt l (4 * k) 4)
    let fresh := (List.range 9).any (fun k =>
      let old := s.fld .brg (Brg.PEER_SUMMARY_PAGES k)
      ws.getD k 0 != ws.getD k 0 &&& old)
    let s := s.each (List.range 9) (fun s k => s.setFld .brg (Brg.PEER_SUMMARY_PAGES k) (ws.getD k 0))
    let s := s.setFld .brg Brg.PEER_STATUS_SUMMARY_VALID 1
    if fresh then s.raise .brg 9 else s

/-! ## Completions from the host (R402) -/

/-- A completion from the host for the open request `id`: its data, or none for Unsupported Request and Completer Abort. -/
def State.hostCompletes (id : Nat) (data : Option (List Byte)) : State :=
  match s.bridge.hostOpen.find? (fun r => r.id == id) with
  | none => s
  | some r =>
    let s := (s.mapBridge (fun b => { b with hostOpen := b.hostOpen.filter (fun q => q.id != id) })).hostServe
    match data with
    | some l => s.useEnds r.use r.win l
    | none => s.useFails r.use

/-- A request to the host times out, unless the Completion Timeout is disabled (R387, R402, R414). -/
def State.hostTimesOut (id : Nat) : State :=
  if s.bridge.hostOpen.any (fun r => r.id == id) ∧ !s.pcie.noTimeout then s.cplTimeout.hostCompletes id none else s

/-- Every open or waiting request to the host fails (R391, R402). -/
def State.hostOpenFail : State :=
  let us := (s.bridge.hostOpen ++ s.bridge.hostWait).map HostReq.use
  (s.mapBridge (fun b => { b with hostOpen := [], hostWait := [] })).each us (fun s u => s.useFails u)

/-! ## Messages from the partner (R398–R401) -/

/-- Every open or waiting request to the partner fails. -/
def State.peerOpenFail : State :=
  let us := (s.bridge.peerOpen ++ s.bridge.peerWait).map PeerReq.use
  (s.mapBridge (fun b => { b with peerOpen := [], peerWait := [] })).each us (fun s u => s.useFails u)

/-- A forced power-down takes HOST: the requests of MPs that stand open across the bridge end with DOMAIN_LOST (R19, R430). -/
def State.openLost : State :=
  let us := ((s.bridge.hostOpen ++ s.bridge.hostWait).map HostReq.use ++ (s.bridge.peerOpen ++ s.bridge.peerWait).map PeerReq.use).filter
    (fun u => u.mp.isSome)
  (s.mapBridge (fun b => { b with
    hostOpen := b.hostOpen.filter (fun r => r.use.mp.isNone), hostWait := b.hostWait.filter (fun r => r.use.mp.isNone)
    peerOpen := b.peerOpen.filter (fun r => r.use.mp.isNone), peerWait := b.peerWait.filter (fun r => r.use.mp.isNone) })).each us
      (fun s u => s.useFails u 6)

/-- A CPL arrives: status 0 OK with data, 1 RETRY, 2 ERROR (R398, R399). -/
def State.cplArrives (tag status : Nat) (data : List Byte) : State :=
  match s.bridge.peerOpen.find? (fun r => r.tag == tag && !r.parked) with
  | none => s.bump .brg Brg.CNT_LATE_CPL
  | some r =>
    match status with
    | 0 =>
      let l := if r.cas then leBytes (4 * r.words) (beNat (data.take (4 * r.words))) else bridgeBytes data
      (s.peerClose tag).useEnds r.use r.win l
    | 1 =>
      if 16 ≤ r.retries then ((s.logErr .brg 0x23 r.orig r.addr).peerClose tag).useFails r.use
      else s.mapBridge (fun b =>
        { b with peerOpen := b.peerOpen.map (fun q => if q.tag = tag then { q with parked := true, retries := q.retries + 1 } else q) })
    | _ => (s.peerClose tag).useFails r.use

/-- The wait after a RETRY ends: the request is reissued with the same TAG (R399). -/
def State.retryEnds (tag : Nat) : State :=
  match s.bridge.peerOpen.find? (fun r => r.tag == tag && r.parked) with
  | none => s
  | some r =>
    let s := s.mapBridge (fun b =>
      { b with peerOpen := b.peerOpen.map (fun q => if q.tag = tag then { q with parked := false } else q) })
    ((s.sendBridge r.msg).bump .brg Brg.CNT_PEER_REQ_TX).bump .brg Brg.CNT_PEER_RETRIES

/-- PEER_TIMEOUT of an open request (R398). -/
def State.peerTimesOut (tag : Nat) : State :=
  match s.bridge.peerOpen.find? (fun r => r.tag == tag) with
  | none => s
  | some r => ((s.bump .brg Brg.CNT_PEER_TIMEOUTS).peerClose tag).useFails r.use

/-- The window of a failed write of originator `orig` at a partner offset: 16 for the host, else the lowest PEER window that reaches the
offset (R401). -/
def State.failedWindow (orig addr : Nat) : Nat :=
  if orig = 0 then 16
  else ((List.range 16).find? (fun w =>
    s.flag .brg (Brg.WIN_CFG_EN w) && s.winPeer w && decide (s.winRemote w ≤ addr ∧ addr < s.winRemote w + s.winSize w))).getD 16

/-- A poll of the partner's event summary (R400). -/
def State.peerPoll : State :=
  if s.fld .brg Brg.PEER_CFG_POLL_US = 0 ∨ !s.inRun .brg then s else s.peerRead .poll 7 0x100 9

/-! ## BAR4 (R392) -/

/-- A read through BAR4: one of more than 64 words is carried in several READs, one after the other (R397). -/
def State.bar4Read (off size : Nat) : State :=
  let u : BridgeUse := .hostRead off size []
  if s.inRun .brg ∧ off + size ≤ 0x4000000 ∧ 0 < size then s.peerRead u 0 (off - off % 4) (min 64 (ceilDiv (off % 4 + size) 4))
  else s.useFails u

/-- A write of words through BAR4, in frames of at most 64 words. -/
def State.bar4Write (off : Nat) (words : List Nat) : State :=
  s.each (List.range (ceilDiv words.length 64)) (fun s i =>
    let part := (words.drop (64 * i)).take 64
    if s.inRun .brg then s.peerWrite 0 16 (off + 256 * i) part else s.pwFail 3 0 16 0 (off + 256 * i))

/-! ## Followers (R285, R295, R396) -/

/-- PATH_UP follows its conditions: its changes raise events, and its fall ends every open request (R396, R402). -/
def State.refreshPath : State :=
  let want := s.pathWanted
  if want = s.pathUp then s
  else if want then (s.setFld .brg Brg.PEER_STATUS_PATH_UP 1).raise .brg 11
  else ((s.setFld .brg Brg.PEER_STATUS_PATH_UP 0).raise .brg 10).peerOpenFail

/-- The signals that follow the state of the device: the health word, the fence line, the pair gate's bit, the peer path. A page whose clock is
stopped keeps what it shows (R422). -/
def State.follow : State :=
  (s.clocked .clsp (fun s => ((s.refreshHealth).refreshFence).showGate)).clocked .brg (fun s => s.refreshPath)

/-! ## The PCIe endpoint (R388–R391, R414) -/

/-- A pending vector whose masks are clear is sent (R390). -/
def State.msixFlush (v : Nat) : State :=
  if s.pcie.pba.get v ∧ !s.msixMasked v then
    ({ s with pcie := { s.pcie with pba := s.pcie.pba.set v false } }).msixSend v
  else s

/-- A bit of LINK_STATUS that mirrors the configuration space changes; BME 1→0 raises BME_OFF. -/
def State.cfgBit (f : Fld) (b : Bool) : State :=
  let fell := f == Pcie.LINK_STATUS_BME && s.flag .pcie f && !b
  let s := s.setFld .pcie f (b2n b)
  if fell then (s.raise .pcie 11).hostOpenFail else s

/-- Loss of the host: R391. Tags that the host's own reads held are free again (R398). -/
def State.hostLost : State :=
  let s := s.ringsStop.hostOpenFail.mapBridge (fun b =>
    { b with peerOpen := b.peerOpen.filter (fun r => r.orig != 0), peerWait := b.peerWait.filter (fun r => r.orig != 0) })
  s.each s.bridge.peerWait (fun s _ => s.peerServe)

/-- The configuration space, the MSI-X table and the Pending Bit Array return to their PCIe reset values (R391); AER's status is sticky through a
hot reset and an FLR (PCIe; PRESUMED, log entry 57). -/
def State.cfgReset : State :=
  let s := (((s.cfgBit Pcie.LINK_STATUS_BME false).cfgBit Pcie.LINK_STATUS_MSIX_EN false).cfgBit
    Pcie.LINK_STATUS_NS_EN false).cfgBit Pcie.LINK_STATUS_ATOMIC_EN false
  { s with pcie := { aer := s.pcie.aer } }

/-- The data link comes up, no faster than MAX_SPEED (R414). The LTSSM code of the link is the state machine's own: the manual gives no codes. -/
def State.pcieUp (speed width : Nat) : State :=
  if s.pageOn .pcie ∧ !s.rst.perst ∧ s.flag .pcie Pcie.LINK_CFG_LINK_EN ∧ !s.flag .pcie Pcie.LINK_STATUS_DL_UP then
    let top := s.fld .pcie Pcie.LINK_CFG_MAX_SPEED
    let (code, s) := s.draw 64
    ((((s.setFld .pcie Pcie.LINK_STATUS_DL_UP 1).setFld .pcie Pcie.LINK_STATUS_SPEED (if 1 ≤ top then min speed top else speed)).setFld .pcie Pcie.LINK_STATUS_WIDTH
      width).setFld .pcie Pcie.LINK_STATUS_LTSSM code).raise .pcie 8
  else s

/-- The data link is lost (R391). -/
def State.pcieDown : State :=
  if s.flag .pcie Pcie.LINK_STATUS_DL_UP then
    let (code, s) := s.draw 64
    ((((s.setFld .pcie Pcie.LINK_STATUS_DL_UP 0).setFld .pcie Pcie.LINK_STATUS_LTSSM code).bump .pcie Pcie.CNT_LINK_DOWNS).raise
      .pcie 9).hostLost.cfgReset
  else s

/-- A reset of level PCIE is recorded in RST_CAUSE (R504, R507). -/
def State.rstCause (level source : Nat) : State :=
  let s := (s.setFld .sys Sys.RST_CAUSE_LEVEL level).setFld .sys Sys.RST_CAUSE_SOURCE source
  s.setFld .sys Sys.RST_CAUSE_COUNT (min 65535 (s.fld .sys Sys.RST_CAUSE_COUNT + 1))

/-- A Function Level Reset; a hot reset: both return the link to Detect (R391, R504, R505). -/
def State.flr : State :=
  if s.resetHeld ∨ s.rst.perst then s
  else ((((s.pcieDown.hostLost).cfgReset).bump .pcie Pcie.CNT_FLRS).raise .pcie 10).rstCause 4 8
def State.hotReset : State := if s.resetHeld ∨ s.rst.perst then s else ((s.pcieDown.hostLost).cfgReset).rstCause 4 7

/-- OTP.PCI_VID: fuse bits 64–79 (R444). -/
def State.pciVid : Nat := s.fuses 64 16

/-- The mask of a BAR's writable bits: 64 MiB, 16 KiB, 64 MiB, each of 64 bits (R389). -/
def barMask (k v : Nat) : Nat :=
  if k = 0 ∨ k = 4 then v / 2 ^ 26 * 2 ^ 26 % 2 ^ 32 + 4 else if k = 2 then v / 2 ^ 14 * 2 ^ 14 % 2 ^ 32 + 4 else v % 2 ^ 32

/-- What a configuration read returns: 32-bit words; the settings that the manual names stand in the places PCIe gives them (PRESUMED, log entry 57). A
register that the manual does not name reads as a free value. -/
def State.cfgRead (r : CfgReg) : Nat × State :=
  let bit (f : Fld) (n : Nat) : Nat := s.fld .pcie f * 2 ^ n
  match r with
  | .vendorDevice => (s.pciVid + 0x2560 * 2 ^ 16, s)
  | .command => (bit Pcie.LINK_STATUS_BME 2, s)
  | .classRevision => (s.fld .sys Hdr.ID_VER + 0x028000 * 2 ^ 8, s)
  | .bar k => (barMask k (s.pcie.bars.get k), s)
  | .subsystem => (s.fld .pcie Pcie.IDENT_SUBSYS_VID + 2 ^ 16 * s.fld .pcie Pcie.IDENT_SUBSYS_ID, s)
  | .interruptPin => (0, s)
  | .deviceControl => (s.pcie.mps * 2 ^ 5 + bit Pcie.LINK_STATUS_NS_EN 11 + s.pcie.mrrs * 2 ^ 12, s)
  | .msixControl => (255 * 2 ^ 16 + b2n s.pcie.msixFuncMask * 2 ^ 30 + bit Pcie.LINK_STATUS_MSIX_EN 31, s)
  | .atomicControl => (s.pcie.timeout + b2n s.pcie.noTimeout * 2 ^ 4 + bit Pcie.LINK_STATUS_ATOMIC_EN 6, s)
  | .linkControl => (s.pcie.aspm, s)
  | .powerControl => (if s.pcie.d3 then 3 else 0, s)
  | .aerStatus => (s.pcie.aer, s)
  | .other _ => s.draw (2 ^ 32)

/-- What a configuration write does (R387–R390). Of Link Control the bits of L1 alone can be set, since L0s is not supported; a bit of AER's status
is cleared by a 1. -/
def State.cfgWrite (r : CfgReg) (v : Nat) : State :=
  match r with
  | .command => s.cfgBit Pcie.LINK_STATUS_BME (v.testBit 2)
  | .bar k => if k < 6 then { s with pcie := { s.pcie with bars := s.pcie.bars.set k (barMask k v) } } else s
  | .deviceControl =>
    let s := s.cfgBit Pcie.LINK_STATUS_NS_EN (v.testBit 11)
    { s with pcie := { s.pcie with mps := bitsOf v 7 5, mrrs := bitsOf v 14 12 } }
  | .msixControl =>
    let s := s.cfgBit Pcie.LINK_STATUS_MSIX_EN (v.testBit 31)
    let s := { s with pcie := { s.pcie with msixFuncMask := v.testBit 30 } }
    s.each s.pcie.pba.keys State.msixFlush
  | .atomicControl =>
    let s := s.cfgBit Pcie.LINK_STATUS_ATOMIC_EN (v.testBit 6)
    { s with pcie := { s.pcie with timeout := bitsOf v 3 0, noTimeout := v.testBit 4 } }
  | .linkControl => { s with pcie := { s.pcie with aspm := v &&& 2 } }
  | .powerControl => { s with pcie := { s.pcie with d3 := bitsOf v 1 0 == 3 } }
  | .aerStatus => { s with pcie := { s.pcie with aer := s.pcie.aer &&& (v ^^^ (2 ^ 32 - 1)) } }
  | _ => s

/-- A configuration request: a read, or a write with a value (R388). -/
def State.cfgRequest (r : CfgReg) (v : Option Nat) : State :=
  if !s.flag .pcie Pcie.LINK_CFG_CFG_READY then s.emit .configRetry
  else match v with
    | some v => s.cfgWrite r v
    | none => let (d, s) := s.cfgRead r; s.emit (.configData d)

/-- CFG_READY is still 0 at 900 ms (R388). -/
def State.cfgLate : State :=
  if s.flag .pcie Pcie.LINK_CFG_CFG_READY then s
  else ((s.setFld .pcie Pcie.LINK_CFG_CFG_READY 1).setWord .pcie Pcie.IDENT_SUBSYS_VID.off 0).setFld .pcie
    Pcie.LINK_STATUS_CFG_LATE 1

/-- The host writes an entry of the MSI-X table: word `k` of vector `v` (R389, R390). -/
def State.msixWrite (v k x : Nat) : State :=
  let s := { s with pcie := { s.pcie with msix := s.pcie.msix.set (msixKey v k) (BitVec.ofNat 32 x) } }
  if k = 3 then s.msixFlush v else s

end

end Sys2Proof.Machine
end

