-- ==== Sys2Proof/Machine/Wake.lean ====
section
/-! DEFINITION. Power requests, wake sources, false wakes and the Charm protocol (R422–R443). -/
namespace Sys2Proof.Machine

/-- A condition per island as a map of R438, islands 0 to 13 from a list; AON is ON. -/
def islandMap (l : List Nat) : Nat := l.foldr (fun c n => c + 4 * n) 0 + 2 * 4 ^ 14

/-- The condition of island `i` in a map. -/
def mapCond (m i : Nat) : Nat := m / 4 ^ i % 4

section
variable (s : State)

/-- Power's state changed by `f`. -/
def State.mapPower (f : Power → Power) : State := { s with power := f s.power }

/-- STATUS.ST and STATUS.PHASE of PWR. -/
def State.pwrSt : Nat := s.fld .pwr Pwr.STATUS_ST
def State.phase : Nat := s.fld .pwr Pwr.STATUS_PHASE
def State.setPhase (v : Nat) : State := s.setFld .pwr Pwr.STATUS_PHASE v
def State.setResult (v : Nat) : State := s.setFld .pwr Pwr.STATUS_RESULT v
def State.setCause (v : Nat) : State := s.setFld .pwr Pwr.STATUS_CAUSE v

/-- AON_S: seconds since the device left OFF. -/
def State.aonS : Nat := s.power.aonNs / 10 ^ 9

/-- The conditions of a state (R423): 0 RUN, 1 PARTIAL, 2 DOZE, 3 SLEEP, 4 FORCED (R430). -/
def State.targetMap (st : Nat) : Nat :=
  let host := if s.flag .pwr Pwr.CFG_HOST_EN then 2 else 0
  match st with
  | 0 => islandMap [2, 2, 2, 2, 2, 2, 2, 2, 2, 2, 2, 2, 2, host]
  | 1 => s.fld .pwr Pwr.PARTIAL_MAP_MAP % 4 ^ 14 + 2 * 4 ^ 14
  | 2 => islandMap [1, 1, 1, 1, 1, 1, 1, 1, 2, 1, 1, 2, 1, host]
  | 3 => islandMap (List.replicate 14 0)
  | _ => islandMap [1, 1, 1, 1, 1, 1, 1, 1, 2, 2, 2, 1, 1, 1]

/-- The lowest island that breaks a rule of R423 in PARTIAL_MAP. The presets break none, and the rule that TRUST, MGMT, TIME, CLS,
BUF and QS are ON implies the others. -/
def State.badIsland : Option Nat :=
  (List.range 14).find? (fun i =>
    let c := mapCond (s.targetMap 1) i
    c == 3 || ([4, 5, 6, 8, 9, 10].contains i && c != 2))

/-- Islands that the transition under way raises; that it lowers. Its map is the one that the request named, or RUN's at the start of a wake. -/
def State.islandsUp : List Nat := (List.range 14).filter (fun i => s.islandCond i < mapCond s.power.goal i)
def State.islandsDown : List Nat := (List.range 14).filter (fun i => mapCond s.power.goal i < s.islandCond i)

/-- PSU_EN: low in SLEEP until a wake from it starts, high in every other state but OFF (R493, R495). -/
def State.psuEn : Bool := !s.rst.off && (s.pwrSt != 3 || s.power.waking)

/-- The target of the transition under way. -/
def State.target : Nat := s.fld .pwr Pwr.STATUS_TARGET

/-! ## The network timer (R435, R436) -/

/-- NM works: its page is in RUN, and ETYPE is not 0 (R435, R436). -/
def State.nmOn : Bool := s.inRun .nm && s.fld .nm Nm.NM_CFG_ETYPE != 0

/-- NT starts anew (R436). -/
def State.ntStart : State := s.mapPower (fun p => { p with ntRun := true, ntAt := p.aonNs })

/-- NT, in ms. -/
def State.ntMs : Nat := max 1 (s.fld .nm Nm.TIMEOUT_NET_TIMEOUT_MS)

/-- STATUS.NT_MS: what is left of NT; HOLD = 1 restarts it all the time (R436). -/
def State.ntLeft : Nat :=
  if s.nmOn ∧ s.flag .nm Nm.HOLD_HOLD then s.ntMs
  else if s.power.ntRun then s.ntMs - (s.power.aonNs - s.power.ntAt) / 10 ^ 6 else 0

/-- NM's page leaves RUN, or ETYPE is 0 (R436). -/
def State.nmStop : State := (s.setFld .nm Nm.STATUS_NMS 0).mapPower (fun p => { p with ntRun := false })

/-- The device reaches RUN (R436). -/
def State.nmReachedRun : State := if s.nmOn then (s.setFld .nm Nm.STATUS_NMS 0).ntStart else s

/-! ## Transitions (R423, R428, R430) -/

/-- A transition is complete (R428). -/
def State.pwrDone : State :=
  let st := s.target
  let s := ((((s.setFld .pwr Pwr.STATUS_ST st).setPhase 0).setResult 1).bump .pwr Pwr.CNT_TRANSITIONS).raise .pwr 8
  if st = 0 then s.nmReachedRun else s

/-- A transition that has nothing left to raise goes on: to PREPARE, to QUIESCE where there is no window, or to its end where nothing is
to be lowered (R428). -/
def State.enterPrepare : State :=
  if s.islandsDown.isEmpty then s.pwrDone else s.setPhase (if s.fld .pwr Pwr.PREPARE_MS = 0 then 3 else 2)

/-- A request is refused. -/
def State.pwrRefused : State := ((s.setResult 2).bump .pwr Pwr.CNT_REFUSED).raise .pwr 9

/-- A write of REQ with a state by an originator with code `src` (R423, R428, R430). -/
def State.pwrReq (src st : Nat) : State :=
  let at' := Page.pwr.base + Pwr.REQ_STATE.off
  if s.phase ≠ 0 then s.logErr .pwr 7 src at'
  else
    let s := s.setFld .pwr Pwr.STATUS_TARGET st
    if 4 ≤ st then (s.logErr .pwr 0x21 src at').pwrRefused
    else match (if st = 1 then s.badIsland else none) with
      | some i => ((s.logErr .pwr 0x21 src at').setCause i).pwrRefused
      | none =>
        if s.pwrSt = 4 ∧ s.power.stands then (s.logErr .pwr 0x22 src at').pwrRefused
        else if s.pwrSt = st then s.setResult 1
        else
          let s := (s.setResult 0).mapPower (fun p => { p with waking := false, occurred := 0, first := 0, goal := s.targetMap st })
          if s.islandsUp.isEmpty then s.enterPrepare else s.setPhase 1

/-! ## Wakes (R431–R434) -/

/-- The sources whose bits are set, ascending. -/
def sourcesOf (m : Nat) : List Nat := (List.range 21).filter m.testBit

/-- The lowest source of a bitmap. -/
def lowSource (m : Nat) : Nat := ((sourcesOf m).head?).getD 0

/-- The wake to RUN starts, by these sources, `first` those of the first AON cycle (R432); from SLEEP PSU_EN goes high with it (R493). -/
def State.startWake (first srcs : Nat) : State :=
  let s := (s.setFld .wake Wake.LAST_WAKE_SRC (lowSource first)).setFld .wake Wake.LAST_WAKE_FROM s.pwrSt
  let s := s.setWord .wake Wake.LAST_WAKE_S_S.off (BitVec.ofNat 32 s.aonS)
  let s := s.mapPower (fun p => { p with waking := true, occurred := 0, first := 0, wakeSrcs := srcs, goal := s.targetMap 0 })
  let s := if s.pwrSt = 3 then s.emit (.psuEn true) else s
  ((s.setFld .pwr Pwr.STATUS_TARGET 0).setResult 0).setPhase 1

/-- A transition is aborted before COMMIT by source `n` (R432); the device is in RUN after the abort (R436). -/
def State.pwrAbort (n : Nat) : State :=
  let s := ((((s.setPhase 0).setResult 3).setCause n).bump .pwr Pwr.CNT_SLEEP_ABORTS).raise .pwr 10
  if s.pwrSt = 0 then s.nmReachedRun else s

/-- Sources have occurred that start a wake, or end a transition, later. -/
def State.wakeWaits (srcs : Nat) : State :=
  s.mapPower (fun p => { p with occurred := p.occurred ||| srcs, first := if p.first = 0 then srcs else p.first })

/-- What the occurrence of unmasked sources does at this moment of the device (R432). -/
def State.wakeActs (srcs : Nat) : State :=
  match s.phase with
  | 0 =>
    if s.pwrSt = 0 then s
    else if s.pwrSt = 4 ∧ s.power.stands then s.wakeWaits srcs
    else s.startWake srcs srcs
  | 1 =>
    if s.power.waking ∨ s.target = 0 then s else s.wakeWaits srcs
  | 2 => s.pwrAbort (lowSource srcs)
  | 3 => s.pwrAbort (lowSource srcs)
  | _ => (s.bump .pwr Pwr.CNT_WAKES_AFTER_COMMIT).wakeWaits srcs

/-- The sources of a bitmap occur in one AON cycle (R432). -/
def State.wakeOccurs (srcs : Nat) : State :=
  let masked := s.fld .wake Wake.MASK_SRC
  let hit := (sourcesOf srcs).filter (fun n => !masked.testBit n)
  let s := s.bump .wake Wake.CNT_MASKED_HITS ((sourcesOf srcs).filter masked.testBit).length
  if hit.isEmpty then s
  else
    let on := hit.foldl (fun m n => m ||| 2 ^ n) 0
    let s := s.setFld .wake Wake.LATCH_SRC (s.fld .wake Wake.LATCH_SRC ||| on)
    let s := (s.each hit (fun s n => s.bump .wake (Wake.CNT_WAKES n))).raise .wake 8
    s.wakeActs on

/-- CONFIRM_MS runs for a wake. -/
def State.confirming : Bool := !s.power.unconfirmed.isEmpty

/-- The wakes that wait for it are confirmed (R434). -/
def State.confirmWake : State :=
  (s.each (s.power.unconfirmed.flatMap sourcesOf) (fun s n => s.setFld .wake (Wake.CONSEC_COUNT n) 0)).mapPower (fun p =>
    { p with unconfirmed := [] })

/-- A false wake of a source: its counts, and its mask at FALSE_LIMIT (R434). -/
def State.falseWake (n : Nat) : State :=
  let c := min 255 (s.fld .wake (Wake.CONSEC_COUNT n) + 1)
  let s := (s.bump .wake (Wake.CNT_FALSE_WAKES n)).setFld .wake (Wake.CONSEC_COUNT n) c
  let limit := s.fld .wake Wake.FALSE_CFG_FALSE_LIMIT
  let mask := s.fld .wake Wake.MASK_SRC ||| 2 ^ n
  if limit ≠ 0 ∧ limit ≤ c ∧ mask ≠ 2 ^ 21 - 1 ∧ mask ≠ s.fld .wake Wake.MASK_SRC then
    ((s.setFld .wake Wake.MASK_SRC mask).mapPower (fun p => { p with autoMasked := p.autoMasked ||| 2 ^ n })).raise .wake 9
  else s

/-- CONFIRM_MS has passed since a wake reached RUN (R434): the oldest that waits. -/
def State.confirmTimeout : State :=
  match s.power.unconfirmed with
  | [] => s
  | m :: rest => ((s.each (sourcesOf m) State.falseWake).raise .wake 10).mapPower (fun p => { p with unconfirmed := rest })

/-- UNMASK_S seconds have passed since the mask of a source was set (R434). -/
def State.unmaskTimer (n : Nat) : State :=
  if s.power.autoMasked.testBit n ∧ s.fld .wake Wake.UNMASK_S_S ≠ 0 then
    (s.setFld .wake Wake.MASK_SRC (putBit (s.fld .wake Wake.MASK_SRC) n false)).mapPower (fun p =>
      { p with autoMasked := putBit p.autoMasked n false })
  else s

/-- A write of MASK: a source whose mask software clears is no longer waiting for UNMASK_S. -/
def State.maskWrite (v : Nat) : State :=
  (s.setFld .wake Wake.MASK_SRC v).mapPower (fun p => { p with autoMasked := p.autoMasked &&& v })

/-- Balls WAKE_IN become active, a bitmap (R431): those in use occur. -/
def State.wakeIn (pins : Nat) : State :=
  let used := ((List.range 16).filter (fun n => pins.testBit n && s.flag .wake (Wake.PIN_CFG_EN n))).foldl (fun m n => m ||| 2 ^ n) 0
  if used = 0 then s else s.wakeOccurs used

/-- The timer of source 19 expires (R431). -/
def State.wakeTimer : State :=
  if s.pwrSt ≠ 0 ∧ s.fld .wake Wake.TIMER_S_S ≠ 0 then s.wakeOccurs (2 ^ 19) else s

/-! ## Charm (R435–R443) -/

/-- The network is needed: a KEEP has arrived, or HOLD is written 1 (R436). Wake source 20 is detected while CLS is ON (R431). -/
def State.nmNeeded : State :=
  if s.flag .nm Nm.STATUS_NMS then
    let s := ((s.setFld .nm Nm.STATUS_NMS 0).ntStart).raise .nm 9
    if s.islandCond 4 = 2 then s.wakeOccurs (2 ^ 20) else s
  else s.ntStart

/-- The entry of the holder table for a source address: the one that holds it, the lowest that is free, or the one with the
oldest LAST_S (R437). -/
def State.holderSlot (sa : Nat) : Nat :=
  let h := s.power.holders
  match (List.range 32).find? (fun i => (h.get i).valid && (h.get i).sa == sa) with
  | some i => i
  | none =>
    match (List.range 32).find? (fun i => !(h.get i).valid) with
    | some i => i
    | none => (List.range 32).foldl (fun b i => if (h.get i).lastS < (h.get b).lastS then i else b) 0

/-- The holder table after a KEEP or a RELEASE of a node (R437). -/
def State.holderUpdate (sa nmId reason : Nat) (keep : Bool) : State :=
  let i := s.holderSlot sa
  let h := s.power.holders.get i
  let known := h.valid && h.sa == sa
  let gap := !known || h.released || s.ntMs * 10 ^ 6 < s.power.aonNs - h.lastNs
  let h : Holder := if known then h else {}
  let h := { h with valid := true, sa := sa, nmId := nmId, reason := reason, released := !keep, lastS := s.aonS,
                    lastNs := s.power.aonNs }
  let h := if keep then { h with keeps := min (2 ^ 32 - 1) (h.keeps + 1), firstS := if gap then s.aonS else h.firstS,
                                 alerted := !gap && h.alerted } else h
  let alert := s.fld .nm Nm.HOLD_ALERT_S
  let long := keep && alert != 0 && !h.alerted && !s.flag .nm Nm.HOLD_HOLD &&
    decide (alert ≤ s.aonS - max h.firstS s.power.freeSince)
  let h := if long then { h with alerted := true } else h
  let s := s.mapPower (fun p => { p with holders := p.holders.set i h })
  if long then
    ((s.mapPower (fun p => { p with hlog := p.hlog.set p.hlogNext h, hlogNext := (p.hlogNext + 1) % 8 })).bump .nm
      Nm.CNT_LONG_HOLDERS).raise .nm 10
  else s

/-- A port is in NM.PORTS. -/
def State.nmPort (p : Nat) : Bool :=
  if p < 32 then (s.fld .nm Nm.PORTS_LO_PORTS).testBit p else p == 37 && s.flag .nm Nm.PORTS_HI_PORT37

/-- The parser presents the first 20 bytes of a first-pass frame of a port to NM (R435, R436). -/
def State.charm (p : Nat) (l : List Byte) : State :=
  let da := s.fld .nm Nm.CHARM_DA_LO_DA + 2 ^ 32 * s.fld .nm Nm.CHARM_DA_HI_DA
  if s.nmOn ∧ s.islandCond 4 = 2 ∧ s.nmPort p ∧ beAt l 0 6 = da ∧ beAt l 12 2 = s.fld .nm Nm.NM_CFG_ETYPE then
    let kind := byteAt l 14 % 16
    if byteAt l 14 / 16 ≠ 1 ∨ (kind ≠ 1 ∧ kind ≠ 2) then s.bump .nm Nm.CNT_CHARM_BAD
    else
      let s := (s.bump .nm Nm.CNT_CHARM_RX).holderUpdate (beAt l 6 6) (beAt l 16 2) (byteAt l 15) (kind == 1)
      if kind = 2 then s.bump .nm Nm.CNT_RELEASE_RX else s.nmNeeded.confirmWake
  else s

/-- NT expires (R436). -/
def State.netTimeout : State :=
  if s.nmOn ∧ s.power.ntRun ∧ s.flag .nm Nm.STATUS_NMS = false then
    if s.flag .nm Nm.HOLD_HOLD then s.ntStart
    else
      let s := ((s.setFld .nm Nm.STATUS_NMS 1).raise .nm 8).mapPower (fun p => { p with ntRun := false })
      if s.flag .nm Nm.NM_CFG_AUTO then
        let st := s.fld .nm Nm.NM_CFG_SLEEP_STATE
        (s.bump .nm Nm.CNT_AUTO_REQS).pwrReq 7 (if st = 1 ∨ st = 2 then st else 3)
      else s
  else s

/-- A write of HOLD (R434, R436). While HOLD is 1 the network timer is held at its start. -/
def State.holdWrite (hold : Bool) (reason : Nat) : State :=
  let was := s.flag .nm Nm.HOLD_HOLD
  let s := (s.setFld .nm Nm.HOLD_HOLD (b2n hold)).setFld .nm Nm.HOLD_REASON reason
  if hold then
    let s := s.confirmWake
    if s.nmOn then s.nmNeeded else s
  else if was then
    let s := s.mapPower (fun p => { p with freeSince := s.aonS })
    if s.nmOn then s.ntStart else s
  else s

/-- The EtherTypes that R69 names. -/
def namedEtypes : List Nat := [0x0806, 0x88CC, 0x888E, 0x88F7, 0x0800, 0x86DD, 0x22F0]

/-- The EtherTypes that NM_CFG.ETYPE must differ from (R435). -/
def State.etypeTaken : List Nat :=
  namedEtypes ++ [s.fld .prs Prs.BAROST_CFG_ETYPE, s.fld .prs Prs.BAROST_CFG_ETYPE.sh, s.fld .prs Prs.RTAG_CFG_ETYPE,
   s.fld .prs Prs.RTAG_CFG_ETYPE.sh, s.fld .clsp Clsp.PAIR_CFG_CTL_ETYPE, s.fld .clsp Clsp.PAIR_CFG_CTL_ETYPE.sh]

/-- A write of NM_CFG (R435). -/
def State.nmCfgWrite (src : Src) (etype : Nat) (auto : Bool) (sleep : Nat) : State :=
  if etype ≠ 0 ∧ (etype < 0x600 ∨ s.etypeTaken.contains etype) then s.refuse src .nm 0x20 Nm.NM_CFG_ETYPE.off
  else
    let s := ((s.setFld .nm Nm.NM_CFG_ETYPE etype).setFld .nm Nm.NM_CFG_AUTO (b2n auto)).setFld .nm Nm.NM_CFG_SLEEP_STATE sleep
    if etype = 0 then s.nmStop else s

/-- CHARM_PERIOD_MS has passed with HOLD = 1 (R442). -/
def State.charmDue : State := if s.nmOn ∧ s.flag .nm Nm.HOLD_HOLD then s.raise .nm 11 else s

/-- A word of an entry of the holder table or its log (R442). -/
def Holder.word (h : Holder) (k : Nat) : Nat :=
  match k with
  | 0 => h.nmId + h.reason * 2 ^ 16 + b2n h.released * 2 ^ 30 + b2n h.valid * 2 ^ 31
  | 1 => h.sa % 2 ^ 32
  | 2 => h.sa / 2 ^ 32
  | 3 => h.firstS
  | 4 => h.lastS
  | _ => h.keeps

end

end Sys2Proof.Machine
end

