-- ==== Sys2Proof/Machine/Bus.lean ====
section
/-! DEFINITION. The bus gateway: CAN and LIN channels, the wrapping of their frames, the messages of port 34, authentication
(R324–R343). -/
namespace Sys2Proof.Machine

section
variable (s : State)

/-- A channel's state changed by `f`. -/
def State.mapCan (n : Nat) (f : CanCh → CanCh) : State := { s with cans := s.cans.modify n f }
def State.mapLin (n : Nat) (f : LinCh → LinCh) : State := { s with lins := s.lins.modify n f }

/-- STATUS.CST of a CAN channel: 0 STOPPED, 1 INTEGRATING, 2 ACTIVE, 3 PASSIVE, 4 BUS_OFF, 5 RECOVERING, 6 PN_LISTEN. -/
def State.cst (n : Nat) : Nat := s.fld (.can n) Can.STATUS_CST

/-- A channel goes to a state: CANn_MODE is high in PN_LISTEN and low in every other state (R324, R335). -/
def State.setCst (n v : Nat) : State :=
  let t := s.setFld (.can n) Can.STATUS_CST v
  if (s.cst n = 6) = (v = 6) then t else t.emit (.canMode n (v == 6))

/-- STATUS.LST of a LIN channel: 0 STOPPED, 1 ACTIVE, 2 SLEEP. -/
def State.linLst (n : Nat) : Nat := s.fld (.lin n) Lin.STATUS_LST
def State.setLinLst (n v : Nat) : State := s.setFld (.lin n) Lin.STATUS_LST v

/-! ## Wrapping (R328, R329) -/

/-- The bytes that complete the last quadlet of `n` bytes. -/
def padOf (n : Nat) : Nat := (4 - n % 4) % 4

/-- The ACF message of a CAN frame (R329): `mtv` tells that the timestamp is valid. -/
def canMessage (xlType netId : Nat) (mtv : Bool) (ts : Nat) (f : CanFrame) : List Byte :=
  let n := f.data.length
  let body := f.data ++ List.replicate (padOf n) 0
  if f.xl then
    let quads := 6 + (n + 3) / 4
    beBytes 2 (xlType * 512 + min 511 quads) ++ beBytes 1 netId ++ beBytes 1 (4 * b2n mtv + 2 * b2n f.sec + b2n f.rrs) ++
      beBytes 4 (f.id % 2048) ++ beBytes 1 f.sdt ++ beBytes 1 f.vcid ++ beBytes 2 (n - 1) ++ beBytes 4 f.af ++ beBytes 8 ts ++ body
  else
    let flags := 64 * padOf n + 32 * b2n mtv + 16 * b2n f.rtr + 8 * b2n f.eff + 4 * b2n f.brs + 2 * b2n f.fdf + b2n f.esi
    beBytes 2 (512 + 4 + (n + 3) / 4) ++ beBytes 1 flags ++ beBytes 1 netId ++ beBytes 8 ts ++ beBytes 4 f.id ++ body

/-- The ACF message of a LIN response (R329). -/
def linMessage (netId : Nat) (mtv : Bool) (ts id : Nat) (data : List Byte) : List Byte :=
  let n := data.length
  beBytes 2 (3 * 512 + 3 + (n + 3) / 4) ++ beBytes 1 (64 * padOf n + 32 * b2n mtv + netId) ++ beBytes 1 id ++ beBytes 8 ts ++
    data ++ List.replicate (padOf n) 0

/-- The frame of a page of the gateway around one message (R328), with its FCS. -/
def State.gwFrame (p : Page) (seq : Nat) (tscf : Bool) (m : List Byte) : List Byte :=
  let da := s.fld p Can.GW_DA_LO_DA + 2 ^ 32 * s.fld p Can.GW_DA_HI_DA
  let sa := s.fld p Can.GW_SA_LO_SA + 2 ^ 32 * s.fld p Can.GW_SA_HI_SA
  let stream := s.fld p Can.GW_STREAM_LO_STREAM + 2 ^ 32 * s.fld p Can.GW_STREAM_HI_STREAM
  let vlan := if s.flag p Can.GW_CFG_VLAN_EN then beBytes 2 0x8100 ++ beBytes 2 (s.fld p Can.GW_TCI_TCI) else []
  let head :=
    if tscf then beBytes 4 (0x05800000 + seq * 256) ++ beBytes 8 stream ++ beBytes 8 0 ++ beBytes 2 m.length ++ beBytes 2 0
    else beBytes 4 (0x82800000 + m.length % 2048 * 256 + seq) ++ beBytes 8 stream
  refcs (beBytes 6 da ++ beBytes 6 sa ++ vlan ++ beBytes 2 0x22F0 ++ head ++ m)

/-- A wrapped frame is presented at port 34, unless it is too long or the crossing is not ready (R326, R327). Answers whether it was. -/
def State.gwPresent (l : List Byte) : Bool × Bool × State :=
  if s.fld (.etp 34) Etp.MAX_LEN_LEN < l.length then (false, false, s)
  else (true, s.inRun .buf, s.inject 34 l none none)

/-- message_timestamp of a frame whose reference instant lies `ago` ns back (R329). -/
def State.mtvTime (p : Page) (ago : Nat) : Nat :=
  if s.flag p Can.GW_CFG_MTV_EN then
    s.domNsAt (s.fld .time Time.AVTP_CFG_DOMAIN) (((s.now : Int) - ago) * 2 ^ 16) % 2 ^ 64
  else 0

/-- A CAN frame is wrapped and presented (R326–R328). -/
def State.canWrap (n : Nat) (f : CanFrame) (ts : Nat) : State :=
  let p := Page.can n
  let m := canMessage (s.fld (.can 0) Can.GW_XL_TYPE_TYPE) (s.fld p Can.GW_CFG_NET_ID) (s.flag p Can.GW_CFG_MTV_EN) ts f
  let l := s.gwFrame p (s.cans.get n).seq (s.flag p Can.GW_CFG_FORMAT || decide (2044 < m.length)) m
  match s.gwPresent l with
  | (false, _, s) => s.bump p Can.CNT_RX_OVERSIZE
  | (true, ok, s) =>
    let s := s.mapCan n (fun c => { c with seq := (c.seq + 1) % 256 })
    if ok then s.bump p Can.CNT_RX_FRAMES else (s.bump p Can.CNT_RX_OVERRUN).raise p 14

/-! ## Authentication (R333, R334) -/

/-- The lowest authentication entry that a frame meets, if any. CAN XL frames meet none. -/
def State.authEntry (n : Nat) (f : CanFrame) : Option Nat :=
  if f.xl then none
  else (List.range 8).find? (fun k =>
    s.flag (.can n) (Can.AUTH_CFG_EN k) && s.flag (.can n) (Can.AUTH_ID_EFF k) == f.eff &&
    f.id &&& s.fld (.can n) (Can.AUTH_MASK_MASK k) == s.fld (.can n) (Can.AUTH_ID_ID k) &&& s.fld (.can n) (Can.AUTH_MASK_MASK k))

def State.authData (n k : Nat) : Nat := s.fld (.can n) (Can.AUTH_CFG_DATA_LEN k)
def State.authFv (n k : Nat) : Nat := min 4 (s.fld (.can n) (Can.AUTH_CFG_FV_BYTES k))
def State.authMac (n k : Nat) : Nat := s.fld (.can n) (Can.AUTH_CFG_MAC_LEN k)
def State.authLast (n k : Nat) : Nat := s.wide (.can n) (Can.AUTH_LAST_LO_FV k) (Can.AUTH_LAST_HI_FV k)
def State.authNext (n k : Nat) : Nat := s.wide (.can n) (Can.AUTH_NEXT_LO_FV k) (Can.AUTH_NEXT_HI_FV k)

/-- A 64-bit value into a pair of registers. -/
def State.setWide (p : Page) (lo hi : Fld) (v : Nat) : State := (s.setFld p lo (v % 2 ^ 32)).setFld p hi (v / 2 ^ 32 % 2 ^ 32)

/-- The input of the CMAC: identifier word of R77, bus identifier, data, freshness value. -/
def State.authInput (n : Nat) (f : CanFrame) (data : List Byte) (c : Nat) : List Byte :=
  beBytes 4 (f.id % 2 ^ 29 + b2n f.eff * 2 ^ 29 + b2n f.rtr * 2 ^ 30 + b2n f.fdf * 2 ^ 31) ++
    beBytes 1 (s.fld (.can n) Can.GW_CFG_NET_ID) ++ data ++ beBytes 8 c

/-- The full freshness value that a received frame carries (R333). -/
def freshOf (last w v : Nat) : Nat :=
  let c := last - last % 2 ^ w + v
  if c ≤ last then c + 2 ^ w else c

/-- A CMAC job of the gateway on a cipher user page: the CMAC, where the page runs, a slot is bound to it and its CMAC count allows
one more (R334, R367, R379). -/
def State.gwCmac (cup : Nat) (msg : List Byte) : Option (List Byte) × State :=
  let p := Page.cip cup
  let i := s.fld p Cip.KEY_BIND_SLOT
  let k := s.slots.get i
  if !s.inRun p || !s.flag p Cip.KEY_BIND_BOUND then (none, s)
  else if k.bind ≠ 2 ∨ k.page ≠ cup then (none, s.logErr .msec 0x22 7)
  else if 2 ^ 48 ≤ k.cmac then (none, (s.bump p Cip.CNT_KEY_EXHAUSTED).raise p 10)
  else (some (aesCmac k.key msg), { s with slots := s.slots.set i { k with cmac := k.cmac + 1 } })

/-- A received frame fails authentication. -/
def State.authFail (n : Nat) : State := (s.bump (.can n) Can.CNT_AUTH_FAIL).raise (.can n) 12

/-- A job of the channel fails (R334). -/
def State.cipherFail (n : Nat) : State := s.logErr (.can n) 0x20 7

/-- The entry that verifies a received frame; that signs a message. -/
def State.verifier (n : Nat) (f : CanFrame) : Option Nat :=
  (s.authEntry n f).filter (fun k => s.flag (.can n) (Can.AUTH_CFG_VERIFY k))
def State.signer (n : Nat) (f : CanFrame) : Option Nat :=
  (s.authEntry n f).filter (fun k => s.flag (.can n) (Can.AUTH_CFG_SIGN k))

/-- The frame at the head of a channel's received frames leaves it. -/
def State.canShift (n : Nat) : State := s.mapCan n (fun c => { c with rxq := c.rxq.drop 1 })

/-- The received frames of a channel are presented in order up to the first that is being verified; at most `fuel` of them (R326, R333). -/
def State.canPump (s : State) (n : Nat) : Nat → State
  | 0 => s
  | fuel + 1 =>
    match (s.cans.get n).rxq with
    | [] => s
    | r :: rest =>
      if r.job.isSome then s
      else match s.verifier n r.frame with
        | none => ((s.canShift n).canWrap n r.frame r.ts).canPump n fuel
        | some k =>
          let d := s.authData n k
          let v := s.authFv n k
          if r.frame.data.length ≠ d + v + s.authMac n k then ((s.canShift n).authFail n).canPump n fuel
          else if !s.inRun (.cip (s.fld (.can n) (Can.AUTH_CFG_CUP k))) then
            (((s.canShift n).authFail n).cipherFail n).canPump n fuel
          else
            let c := freshOf (s.authLast n k) (8 * v) (beAt r.frame.data d v)
            s.mapCan n (fun ch => { ch with rxq := { r with job := some (k, c % 2 ^ 64) } :: rest })

/-- The channel's received frames go on. -/
def State.canFlow (n : Nat) : State := s.canPump n (s.cans.get n).rxq.length

/-- The verification in progress at a channel ends: by its job, or at its time limit (R333, R334). -/
def State.canVerified (n : Nat) (inTime : Bool) : State :=
  match (s.cans.get n).rxq with
  | [] => s
  | r :: _ =>
    match r.job with
    | none => s
    | some (k, c) =>
      let d := s.authData n k
      let data := r.frame.data.take d
      let (mac, s) := if inTime then s.gwCmac (s.fld (.can n) (Can.AUTH_CFG_CUP k)) (s.authInput n r.frame data c) else (none, s)
      let s := s.canShift n
      let s := match mac with
        | none => (s.authFail n).cipherFail n
        | some m =>
          if m.take (s.authMac n k) = r.frame.data.drop (d + s.authFv n k) then
            let s := (s.setWide (.can n) (Can.AUTH_LAST_LO_FV k) (Can.AUTH_LAST_HI_FV k) c).bump (.can n) Can.CNT_AUTH_PASS
            s.canWrap n (if s.flag (.can n) (Can.AUTH_CFG_STRIP k) then { r.frame with data := data } else r.frame) r.ts
          else s.authFail n
      s.canFlow n

/-! ## Messages toward CAN (R332) -/

/-- Messages of a channel that are queued or in transmission, and their data bytes. -/
def CanCh.held (c : CanCh) : List CanTx := c.inTx.toList ++ c.txq
def CanCh.bytes (c : CanCh) : Nat := (c.held.map (fun t => t.frame.data.length)).sum

/-- A data length is one of a format (R332). -/
def canLenOk (fdf : Bool) (n : Nat) : Bool := decide (n ≤ 8) || (fdf && [12, 16, 20, 24, 32, 48, 64].contains n)

/-- A message is refused at a channel. -/
def State.canDrop (n : Nat) : State := s.bump (.can n) Can.CNT_TX_DROPS

/-- A message joins the transmit queue, where it has room (R332). -/
def State.canQueue (n : Nat) (f : CanFrame) : State :=
  let c := s.cans.get n
  if 32 ≤ c.held.length ∨ 4096 < c.bytes + f.data.length then s.canDrop n
  else s.mapCan n (fun c => { c with txq := c.txq ++ [⟨f, s.now⟩] })

/-- A message is taken for a channel (R332, R333); `fits` tells that its length agrees with its header. -/
def State.canSend (n : Nat) (f : CanFrame) (fits : Bool) : State :=
  let p := Page.can n
  let proto := s.fld p Can.MODE_PROTO
  if !s.inRun p ∨ s.cst n = 6 ∨ s.flag p Can.MODE_LISTEN_ONLY ∨ (f.fdf ∧ proto = 0) ∨ (f.xl ∧ proto < 2) ∨ !fits ∨
      (!f.xl ∧ !canLenOk f.fdf f.data.length) then s.canDrop n
  else match s.signer n f with
    | none => s.canQueue n f
    | some k =>
      if f.data.length ≠ s.authData n k then (s.authFail n).canDrop n
      else
        let c := s.authNext n k
        let s := s.setWide p (Can.AUTH_NEXT_LO_FV k) (Can.AUTH_NEXT_HI_FV k) (c + 1)
        if s.inRun (.cip (s.fld p (Can.AUTH_CFG_CUP k))) then s.mapCan n (fun ch => { ch with signq := ch.signq ++ [⟨f, k, c⟩] })
        else (s.canDrop n).cipherFail n

/-- The oldest signing job of a channel ends (R333, R334). -/
def State.canSigned (n : Nat) (inTime : Bool) : State :=
  match (s.cans.get n).signq with
  | [] => s
  | j :: rest =>
    let s := s.mapCan n (fun c => { c with signq := rest })
    let (mac, s) := if inTime then
      s.gwCmac (s.fld (.can n) (Can.AUTH_CFG_CUP j.entry)) (s.authInput n j.frame j.frame.data j.fresh) else (none, s)
    match mac with
    | none => (s.canDrop n).cipherFail n
    | some m =>
      let v := s.authFv n j.entry
      let l := j.frame.data ++ beBytes v (j.fresh % 2 ^ (8 * v)) ++ m.take (s.authMac n j.entry)
      (s.bump (.can n) Can.CNT_AUTH_SIGNED).canQueue n { j.frame with data := l }

/-- The arbitration field of a frame as a number: the lower one wins (R332; ISO 11898-1). -/
def CanFrame.arb (f : CanFrame) : Nat :=
  if f.xl then f.id % 2048 * 2 ^ 21 + b2n f.rrs * 2 ^ 20
  else if f.eff then f.id / 2 ^ 18 % 2048 * 2 ^ 21 + 3 * 2 ^ 19 + f.id % 2 ^ 18 * 2 + b2n f.rtr
  else f.id % 2048 * 2 ^ 21 + b2n f.rtr * 2 ^ 20

/-- The first message of a queue with the lowest arbitration field. -/
def canWinner : List CanTx → Option CanTx
  | [] => none
  | a :: t =>
    match canWinner t with
    | none => some a
    | some b => if b.frame.arb < a.frame.arb then some b else some a

/-- The message in transmission goes back into the queue: arbitration lost, an error, BUS_OFF (R325, R335). -/
def CanCh.untx (c : CanCh) : CanCh := { c with txq := c.inTx.toList ++ c.txq, inTx := none }

/-- The channel takes part in the bus. -/
def State.canOnBus (n : Nat) : Bool := s.cst n == 2 || s.cst n == 3

/-- Arbitration starts (R332). -/
def State.canArbitrate (n : Nat) : State :=
  let p := Page.can n
  if s.canOnBus n ∧ (s.st p = 1 ∨ s.st p = 2) ∧ !s.flag p Can.MODE_LISTEN_ONLY then
    let s := s.mapCan n CanCh.untx
    let ttl := s.fld p Can.TX_TTL_MS * 10 ^ 6
    let old := fun (t : CanTx) => decide (ttl ≠ 0 ∧ ttl < s.now - t.at')
    let gone := (s.cans.get n).txq.filter old
    let s := if gone.isEmpty then s else (s.bump p Can.CNT_TX_EXPIRED gone.length).raise p 13
    let s := s.mapCan n (fun c => { c with txq := c.txq.filter (fun t => !old t) })
    match canWinner (s.cans.get n).txq with
    | none => s
    | some t => s.mapCan n (fun c => { c with txq := dropFirst (fun x => x == t) c.txq, inTx := some t })
  else s

/-! ## Error counters and channel states (R335) -/

def State.tec (n : Nat) : Nat := s.fld (.can n) Can.ERRCNT_TEC
def State.rec' (n : Nat) : Nat := s.fld (.can n) Can.ERRCNT_REC
def State.fec (n : Nat) : Nat := s.fld (.can n) Can.ERRCNT_FEC

/-- The rows of R335 that follow the error counters. -/
def State.canConfine (n : Nat) : State :=
  if s.canOnBus n then
    if 255 < s.tec n then
      let s := (s.mapCan n (fun c => { c.untx with boHold := true })).setCst n 4
      (s.bump (.can n) Can.CNT_BUS_OFFS).raise (.can n) 8
    else if s.cst n = 2 ∧ (127 < s.tec n ∨ 127 < s.rec' n) then (s.setCst n 3).raise (.can n) 10
    else if s.cst n = 3 ∧ s.tec n ≤ 127 ∧ s.rec' n ≤ 127 then s.setCst n 2
    else s
  else s

/-- A transmission has ended well (R332); ISO 11898-1 takes 1 from TEC. -/
def State.canTxDone (n : Nat) : State :=
  match (s.cans.get n).inTx with
  | none => s
  | some t =>
    let esi := s.cst n == 3
    let s := (s.mapCan n (fun c => { c with inTx := none })).bump (.can n) Can.CNT_TX_FRAMES
    let f := if t.frame.rtr then { t.frame with data := [] } else t.frame
    let s := s.emit (.canFrame n { f with esi := f.fdf && esi })
    (s.setFld (.can n) Can.ERRCNT_TEC (s.tec n - 1)).canConfine n

/-- A channel leaves PN_LISTEN (R335). -/
def State.pnWake (n cause : Nat) : State :=
  let s := s.setCst n (if 127 < s.tec n ∨ 127 < s.rec' n then 3 else 2)
  let s := (s.setFld (.can n) Can.LASTERR_WAKE_CAUSE cause).raise (.can n) 11
  s.wakeOccurs (2 ^ 16)

/-- FEC rises (R335). -/
def State.fecUp (n : Nat) : State :=
  let s := s.setFld (.can n) Can.ERRCNT_FEC (s.fec n + 1)
  if s.fec n = 32 then s.pnWake n 2 else s

/-- A valid frame matches the wake pattern (R336). -/
def State.pnMatch (n : Nat) (f : CanFrame) (dlc : Nat) : Bool :=
  let p := Page.can n
  let mask := s.fld p Can.PN_IDMASK_MASK
  let pat := s.fld p Can.PN_DATA_LO_MASK + 2 ^ 32 * s.fld p Can.PN_DATA_HI_MASK
  !f.rtr && (f.id &&& mask == s.fld p Can.PN_ID_ID &&& mask) && s.flag p Can.PN_ID_EFF == f.eff &&
    (!s.flag p Can.PN_CFG_DLC_EN || dlc == s.fld p Can.PN_CFG_DLC) && (pat == 0 || leAt f.data 0 8 &&& pat != 0)

/-- A frame joins the frames that wait for presentation (R326). -/
def State.canTake (n : Nat) (f : CanFrame) (ago : Nat) : State :=
  if s.flag (.can n) Can.GW_CFG_RX_EN then
    let f := if f.rtr then { f with data := [] } else f
    let ts := s.mtvTime (.can n) ago
    (s.mapCan n (fun c => { c with rxq := c.rxq ++ [⟨f, ts, none⟩] })).canFlow n
  else s

/-- The channel receives a frame whose SOF sample point lies `ago` ns back: its page is in RUN, or in DRAINING, where it finishes the frame on
the bus and starts none (R335). -/
def State.canHears (n ago : Nat) : Bool :=
  match s.st (.can n), (s.cans.get n).drainAt with
  | 1, _ => true
  | 2, some t => decide (s.now ≤ t + ago)
  | 2, none => true
  | _, _ => false

/-- A valid frame is received, its SOF sample point `ago` ns back (R326, R335, R336). ISO 11898-1 takes 1 from REC, or sets it to a value
from 119 to 127 where it was above. -/
def State.canReceived (n : Nat) (f : CanFrame) (dlc ago : Nat) : State :=
  let p := Page.can n
  if !s.canHears n ago then s
  else if s.cst n = 6 then
    if f.fdf ∨ f.xl then
      if s.flag p Can.PN_CFG_FD_TOL then s.bump p Can.CNT_PN_IGNORED else s.fecUp n
    else if s.pnMatch n f dlc then (s.pnWake n 1).canTake n f ago
    else (s.setFld p Can.ERRCNT_FEC (s.fec n - 1)).bump p Can.CNT_PN_IGNORED
  else if s.canOnBus n then
    let s := s.mapCan n CanCh.untx
    let (r, s) := if 127 < s.rec' n then
        let (v, s) := s.draw 9
        (119 + v, s)
      else (s.rec' n - 1, s)
    ((s.setFld p Can.ERRCNT_REC r).canConfine n).canTake n f ago
  else s

/-- A bus error of a kind (LEC) is seen, as transmitter or as receiver (R325, R335). A receiver's REC rises by 8 where `big`, else by 1. A
transmitter's TEC rises by 8, but for the two exceptions of ISO 11898-1, which `big` does not hold in: an acknowledgement error while
error-passive with no dominant bit in its flag, and a stuff error in arbitration. The frame's SOF sample point lies `ago` ns back; in DRAINING the
channel still sends. -/
def State.canError (n lec : Nat) (tx big : Bool) (ago : Nat) : State :=
  let p := Page.can n
  if !(s.canHears n ago || tx && s.st p == 2) then s
  else if s.cst n = 6 then
    let s := (s.setFld p Can.LASTERR_LEC lec).bump p Can.CNT_RX_ERRORS
    if lec = 1 ∨ lec = 2 ∨ lec = 6 then s.fecUp n else s
  else if s.canOnBus n then
    let s := ((s.setFld p Can.LASTERR_LEC lec).bump p Can.CNT_RX_ERRORS).mapCan n CanCh.untx
    let spared := !big && ((lec == 3 && s.cst n == 3) || lec == 1)
    let s := if tx then (if spared then s else s.setFld p Can.ERRCNT_TEC (s.tec n + 8))
      else s.setFld p Can.ERRCNT_REC (min 255 (s.rec' n + if big then 8 else 1))
    s.canConfine n
  else s

/-- BO_HOLD expires (R335). -/
def State.boExpires (n : Nat) : State :=
  if s.cst n = 4 ∧ (s.cans.get n).boHold then
    let s := s.mapCan n (fun c => { c with boHold := false })
    if s.flag (.can n) Can.MODE_BO_AUTO then s.setCst n 5 else s
  else s

/-- RECOVER (R335). -/
def State.canRecover (n : Nat) : State :=
  if s.cst n = 4 then (s.mapCan n (fun c => { c with boHold := false })).setCst n 5 else s

/-- 11 recessive bits have been seen while integrating (R335). -/
def State.canIntegrated (n : Nat) : State := if s.cst n = 1 then s.setCst n 2 else s

/-- 128 occurrences of 11 recessive bits while recovering (R335). -/
def State.canRecovered (n : Nat) : State :=
  if s.cst n = 5 then
    (((s.setCst n 2).setFld (.can n) Can.ERRCNT_TEC 0).setFld (.can n) Can.ERRCNT_REC 0).raise (.can n) 9
  else s

/-- SLEEP_REQ and WAKE_REQ (R335). -/
def State.pnSleepReq (n : Nat) : State :=
  if s.cst n = 0 ∨ s.cst n = 6 then s else s.mapCan n (fun c => { c with sleepPend := true })
def State.pnWakeReq (n : Nat) : State :=
  if s.cst n = 6 then s.pnWake n 3 else s.mapCan n (fun c => { c with sleepPend := false })

/-- The frame on the bus has ended and a SLEEP_REQ is pending (R335). -/
def State.pnEnter (n : Nat) : State :=
  if s.canOnBus n ∧ (s.cans.get n).sleepPend then
    let s := s.bump (.can n) Can.CNT_PN_DISCARDS (s.cans.get n).held.length
    let s := s.mapCan n (fun c => { c with txq := [], inTx := none, sleepPend := false })
    (s.setFld (.can n) Can.ERRCNT_FEC 0).setCst n 6
  else s

/-- A CAN page enters RUN; DRAINING; OFF (R335). The work discarded is counted by the page. -/
def State.canEnter (n : Nat) : State :=
  let s := s.mapCan n (fun c => { c with drainAt := none })
  if s.cst n = 0 then s.setCst n 1 else s
def State.canDrain (n : Nat) : State := s.mapCan n (fun c => { c with drainAt := some s.now })
def State.canStop (n : Nat) : State :=
  let s := s.mapCan n (fun c => { seq := c.seq })
  (((s.setCst n 0).setFld (.can n) Can.ERRCNT_TEC 0).setFld (.can n) Can.ERRCNT_REC 0).setFld (.can n) Can.ERRCNT_FEC 0

/-- Messages a CAN page holds. -/
def State.canWork (n : Nat) : Nat := (s.cans.get n).held.length + (s.cans.get n).signq.length

/-! ## LIN (R337–R339) -/

/-- The protected identifier of an identifier (ISO 17987): its two parity bits above it. -/
def linPid (i : Nat) : Nat :=
  let b (k : Nat) : Nat := b2n (i.testBit k)
  i % 64 + 64 * ((b 0 + b 1 + b 2 + b 4) % 2) + 128 * ((1 + b 1 + b 3 + b 4 + b 5) % 2)

/-- The checksum of a response (R337; ISO 17987): the inverted sum with carry of the data, and of the protected identifier in front of them where
the entry's CHK bit says enhanced; identifiers 60 and 61 take the classic one. -/
def State.linChecksum (n i : Nat) (data : List Byte) : Byte :=
  let enhanced := s.flag (.lin n) (Lin.ID_CHK i) && i != 60 && i != 61
  let add (a b : Nat) : Nat := if a + b < 256 then a + b else a + b - 255
  BitVec.ofNat 8 (255 - data.foldl (fun a b => add a b.toNat) (if enhanced then linPid i else 0))

/-- The buffer of identifier `i` has been loaded; its bytes. -/
def State.linLoaded (n i : Nat) : Bool := (s.fld (.lin n) (Lin.LOADED_MAP (i / 32))).testBit (i % 32)
def State.linData (n i : Nat) : List Byte :=
  (leBytes 8 (s.fld (.lin n) (Lin.BUFFER_DATA (2 * i)) + 2 ^ 32 * s.fld (.lin n) (Lin.BUFFER_DATA (2 * i + 1)))).take
    (s.fld (.lin n) (Lin.ID_LEN i))

/-- A LIN message is taken for a channel (R338). -/
def State.linSend (n i : Nat) (data : List Byte) : State :=
  let p := Page.lin n
  if s.inRun p ∧ s.fld p (Lin.ID_DIR i) = 1 ∧ data.length = s.fld p (Lin.ID_LEN i) then
    let s := s.setWide p (Lin.BUFFER_DATA (2 * i)) (Lin.BUFFER_DATA (2 * i + 1)) (leNat data)
    s.setFld p (Lin.LOADED_MAP (i / 32)) (putBit (s.fld p (Lin.LOADED_MAP (i / 32))) (i % 32) true)
  else s.bump p Lin.CNT_TX_DROPS

/-- A channel works: its page is in RUN or DRAINING, and it is not asleep. -/
def State.linOn (n : Nat) : Bool := (s.st (.lin n) == 1 || s.st (.lin n) == 2) && s.linLst n == 1

def State.linCommander (n : Nat) : Bool := !s.flag (.lin n) Lin.MODE_ROLE

/-- A channel enters SLEEP; returns to ACTIVE, a commander's schedule then waiting for its restart (R339). -/
def State.linSleep (n : Nat) : State :=
  ((s.mapLin n (fun c => { c with hdr := none, sleepReq := false })).setLinLst n 2).raise (.lin n) 11
def State.linAwake (n : Nat) : State :=
  (s.setLinLst n 1).mapLin n (fun c => { c with restart := s.linCommander n })

/-- A header of identifier `i` of this channel's own, or one it received: the response it then sends, or awaits (R337). -/
def State.linHeader (n i : Nat) (own : Bool) : State :=
  let dir := s.fld (.lin n) (Lin.ID_DIR i)
  if dir = 1 ∧ s.linLoaded n i then
    (s.mapLin n (fun c => { c with hdr := some (i, true) })).emit (.linResponse n i (s.linData n i) (s.linChecksum n i (s.linData n i)))
  else if own ∨ dir = 2 then s.mapLin n (fun c => { c with hdr := some (i, false) })
  else s.mapLin n (fun c => { c with hdr := none })

/-- The next entry of a commander's schedule starts (R337, R339). -/
def State.linSlot (n : Nat) : State :=
  let p := Page.lin n
  let c := s.lins.get n
  if s.linOn n ∧ s.linCommander n ∧ !c.restart then
    if c.sleepReq then
      let go : List Byte := 0 :: List.replicate 7 0xFF
      let s := (s.emit (.linHeader n 60)).emit (.linResponse n 60 go (s.linChecksum n 60 go))
      (s.bump p Lin.CNT_TX_FRAMES).linSleep n
    else
      let len := min 64 (s.fld p Lin.SCHED_CFG_SCHED_LEN)
      if len = 0 then s
      else
        let k := c.next % len
        let i := s.fld p (Lin.SCHED_ID k)
        let s := (s.setFld p Lin.STATUS_ENTRY k).mapLin n (fun c => { c with next := (k + 1) % len, hdr := none })
        if s.fld p (Lin.ID_DIR i) = 1 ∧ !s.linLoaded n i then s.bump p Lin.CNT_NO_DATA
        else (s.emit (.linHeader n i)).linHeader n i true
  else s

/-- A LIN framing error. -/
def State.linFraming (n : Nat) : State := (s.bump (.lin n) Lin.CNT_FRAMING).raise (.lin n) 12

/-- A responder receives a header whose sync field implies `rate` b/s (R337, R338). -/
def State.linHeaderIn (n i rate : Nat) (parity : Bool) : State :=
  let baud := s.fld (.lin n) Lin.MODE_BAUD
  if s.linOn n ∧ !s.linCommander n then
    if 100 * rate < 85 * baud ∨ 115 * baud < 100 * rate ∨ !parity then s.linFraming n else s.linHeader n i false
  else s

/-- A response has been seen with its checksum byte, complete or with an error: 0 none, 1 stop bit, 2 readback differs (R337, R338). The break
of its header lies `ago` ns back. -/
def State.linResponse (n : Nat) (data : List Byte) (check : Byte) (err ago : Nat) : State :=
  let p := Page.lin n
  match (s.lins.get n).hdr with
  | none => s
  | some (i, mine) =>
    let s := s.mapLin n (fun c => { c with hdr := none })
    if err = 1 then s.linFraming n
    else if mine then (if err = 2 then s.bump p Lin.CNT_BIT_ERR else s.bump p Lin.CNT_TX_FRAMES)
    else if check ≠ s.linChecksum n i data then (s.bump p Lin.CNT_CHECKSUM).raise p 9
    else if s.fld p (Lin.ID_DIR i) = 2 ∧ data.length = s.fld p (Lin.ID_LEN i) ∧ s.flag p Lin.GW_CFG_RX_EN then
      let m := linMessage (s.fld p Lin.GW_CFG_NET_ID) (s.flag p Lin.GW_CFG_MTV_EN) (s.mtvTime p ago) i data
      match s.gwPresent (s.gwFrame p (s.lins.get n).seq (s.flag p Lin.GW_CFG_FORMAT) m) with
      | (false, _, s) => s
      | (true, ok, s) =>
        let s := s.mapLin n (fun c => { c with seq := (c.seq + 1) % 256 })
        if ok then s.bump p Lin.CNT_RX_FRAMES else s
    else s

/-- No complete response has come in time (R338). -/
def State.linSilent (n : Nat) : State :=
  match (s.lins.get n).hdr with
  | some (_, false) => ((s.mapLin n (fun c => { c with hdr := none })).bump (.lin n) Lin.CNT_NO_RESPONSE).raise (.lin n) 8
  | _ => s

/-- SLEEP_REQ and WAKE_REQ (R339). -/
def State.linSleepReq (n : Nat) : State :=
  if s.linLst n = 1 ∧ s.linCommander n then s.mapLin n (fun c => { c with sleepReq := true }) else s
def State.linWakeReq (n : Nat) : State := if s.linLst n = 2 then (s.emit (.linWake n)).linAwake n else s

/-- A responder receives the go-to-sleep command, or sees no bus activity for 4 s (R339). -/
def State.linSleepIn (n : Nat) : State := if s.linOn n ∧ !s.linCommander n then s.linSleep n else s

/-- A dominant level is held for 150 µs in SLEEP (R339). -/
def State.linDominant (n : Nat) : State :=
  if s.linLst n = 2 then ((s.linAwake n).raise (.lin n) 10).wakeOccurs (2 ^ 17) else s

/-- 100 ms after a wake a commander's schedule restarts (R339). -/
def State.linRestart (n : Nat) : State :=
  if (s.lins.get n).restart then s.mapLin n (fun c => { c with restart := false, next := 0 }) else s

/-- A LIN page enters RUN; enters OFF. -/
def State.linEnter (n : Nat) : State := if s.linLst n = 0 then s.setLinLst n 1 else s
def State.linStop (n : Nat) : State := (s.mapLin n (fun c => { seq := c.seq })).setLinLst n 0

/-- Responses a LIN page holds. -/
def State.linWork (n : Nat) : Nat := match (s.lins.get n).hdr with | some (_, true) => 1 | _ => 0

/-! ## Frames of port 34 (R330, R331) -/

/-- The length in bytes that the ACF message at `m` takes, from its header. -/
def acfLen (xlType : Nat) (l : List Byte) (m : Nat) : Nat :=
  let w := beAt l m 2
  if w / 512 = xlType ∧ w % 512 = 511 then 24 + 4 * ((beAt l (m + 10) 2 % 2048 + 1 + 3) / 4) else 4 * (w % 512)

/-- The messages of a frame's payload as offsets; none where R330 drops the frame. `left` is how many bytes the declared length leaves. -/
def acfWalk (xlType : Nat) (l : List Byte) : Nat → Nat → Nat → Option (List Nat)
  | 0, _, left => if left = 0 then some [] else none
  | fuel + 1, m, left =>
    if left = 0 then some []
    else
      let w := beAt l m 2
      let n := acfLen xlType l m
      let kind := w / 512
      let head := if kind = 1 then 16 else 8
      if w % 512 = 0 ∨ left < n ∨ (kind = xlType ∧ w % 512 = 511 ∧ left ≠ n) ∨
          ((kind = 1 ∨ kind = 2) ∧ n ≤ head ∧ 64 ≤ byteAt l (m + 2)) then none
      else (acfWalk xlType l fuel (m + n) (left - n)).map (fun t => m :: t)

/-- Position after at most two VLAN tags of the EtherType of a frame. -/
def State.etypeAt (l : List Byte) : Nat :=
  let c := s.prsCfg s.activeBank
  if vlanKind c (beAt l 12 2) = 0 then 12 else if vlanKind c (beAt l 16 2) = 0 then 16 else 20

/-- The messages of a frame that port 34 has received, as offsets (R330). `l` is the frame without its FCS. -/
def State.busMessages (l : List Byte) : Option (List Nat) :=
  let e := s.etypeAt l
  let sub := byteAt l (e + 2)
  let head := if sub = 0x82 then e + 14 else e + 26
  let len := if sub = 0x82 then beAt l (e + 3) 2 % 2048 else beAt l (e + 22) 2
  let rest := l.length - head
  if beAt l e 2 ≠ 0x22F0 ∨ (sub ≠ 0x82 ∧ sub ≠ 0x05) ∨ l.length < head then none
  else if rest = len ∨ (l.length = 60 ∧ len ≤ rest ∧ (l.drop (head + len)).all (fun b => b == 0)) then
    acfWalk (s.fld (.can 0) Can.GW_XL_TYPE_TYPE) l (len / 4 + 1) head len
  else none

/-- A CAN, CAN_BRIEF or CAN XL message at `m` as a frame, and whether its length agrees with its header (R329, R332). -/
def canOf (xl : Bool) (brief : Bool) (n : Nat) (l : List Byte) (m : Nat) : CanFrame × Bool :=
  let b := byteAt l (m + 2)
  if xl then
    let len := beAt l (m + 10) 2 % 2048 + 1
    ({ id := beAt l (m + 4) 4 % 2048, xl := true, sdt := byteAt l (m + 8), vcid := byteAt l (m + 9), af := beAt l (m + 12) 4,
       sec := (byteAt l (m + 3)).testBit 1, rrs := (byteAt l (m + 3)).testBit 0, data := (l.drop (m + 24)).take len },
     n == 24 + 4 * ((len + 3) / 4))
  else
    let head := if brief then 8 else 16
    let pad := b / 64
    ({ id := beAt l (m + head - 4) 4 % 2 ^ 29, rtr := b.testBit 4, eff := b.testBit 3, brs := b.testBit 2, fdf := b.testBit 1,
       data := (l.drop (m + head)).take (n - head - pad) }, decide (head + pad ≤ n))

/-- The channels of a kind whose EG_IDS has bit `k` and that did not produce the frame (R331). -/
def State.egChannels (pages : List Page) (k sa : Nat) : List Page :=
  pages.filter (fun p => (s.fld p Can.EG_IDS_IDS).testBit k &&
    s.fld p Can.GW_SA_LO_SA + 2 ^ 32 * s.fld p Can.GW_SA_HI_SA != sa)

/-- One message of a frame is taken (R331). -/
def State.busMessage (l : List Byte) (m : Nat) : State :=
  let kind := beAt l m 2 / 512
  let xlType := s.fld (.can 0) Can.GW_XL_TYPE_TYPE
  let n := acfLen xlType l m
  let sa := beAt l 6 6
  if kind = 3 then
    let b := byteAt l (m + 2)
    let chs := s.egChannels ((List.range 16).map Page.lin) (b % 32) sa
    let data := (l.drop (m + 12)).take (n - 12 - b / 64)
    if chs.isEmpty then s.bump (.can 0) Can.CNT_EG_UNMAPPED
    else s.each chs (fun s p => s.linSend p.inst (byteAt l (m + 3) % 64) data)
  else if kind = 1 ∨ kind = 2 ∨ kind = xlType then
    let xl := decide (kind ≠ 1 ∧ kind ≠ 2)
    let k := (if xl then byteAt l (m + 2) else byteAt l (m + 3)) % 32
    let chs := s.egChannels ((List.range 64).map Page.can) k sa
    let (f, fits) := canOf xl (kind == 2) n l m
    if chs.isEmpty then s.bump (.can 0) Can.CNT_EG_UNMAPPED else s.each chs (fun s p => s.canSend p.inst f fits)
  else s.bump (.can 0) Can.CNT_EG_UNKNOWN

/-- Port 34 unwraps the oldest whole copy it has received (R330, R331). -/
def State.busEgress : State :=
  match s.dp.busIn with
  | [] => s
  | l :: rest =>
    let s := s.mapDp (fun d => { d with busIn := rest })
    let l := dropFcs l
    match s.busMessages l with
    | none => (s.bump (.can 0) Can.CNT_EG_FRAME_DROPS).raise (.can 0) 15
    | some ms => s.each ms (fun s m => s.busMessage l m)

end

end Sys2Proof.Machine
end

