-- ==== Sys2Proof/Machine/Tdm.lean ====
section
/-! DEFINITION. TDM links and the slot interchange (R344–R361). -/
namespace Sys2Proof.Machine

/-- Offsets of the counters of a TDM page (R358). -/
def tdmFasErr : Nat := 0x180
def tdmCrcErr : Nat := 0x188
def tdmEErr : Nat := 0x190
def tdmSlipRep : Nat := 0x198
def tdmSlipDel : Nat := 0x1A0
def tdmFalseAlign : Nat := 0x1A8
def tdmLofEntries : Nat := 0x1B0
def tdmEs : Nat := 0x1B8
def tdmSes : Nat := 0x1C0
def tdmBbe : Nat := 0x1C8
def tdmUas : Nat := 0x1D0

/-- One bit through the CRC-4 of G.704, x^4 + x + 1. -/
def crc4Bit (c : Nat) (b : Bool) : Nat := (2 * c % 16) ^^^ (if c.testBit 3 = b then 0 else 3)

/-- Bytes through the CRC-4, bit 1 (the most significant) first. -/
def crc4 (c : Nat) (l : List Byte) : Nat :=
  l.foldl (fun c b => (List.range 8).foldl (fun c i => crc4Bit c (b.toNat.testBit (7 - i))) c) c

/-- Zeros in a list of bytes. -/
def zeroBits (l : List Byte) : Nat :=
  l.foldl (fun n b => n + ((List.range 8).filter (fun i => !b.toNat.testBit i)).length) 0

section
variable (s : State)

/-- A link's state, and its change. -/
def State.link (n : Nat) : TdmLink := s.tdms.get n
def State.mapTdm (n : Nat) (f : TdmLink → TdmLink) : State := { s with tdms := s.tdms.modify n f }

/-- STATUS.FST: 0 SEARCH, 1 FAS_FOUND, 2 NFAS_OK, 3 MF_SEARCH, 4 IN_FRAME. -/
def State.fst (n : Nat) : Nat := s.fld (.tdm n) Tdm.STATUS_FST
def State.setFst (n v : Nat) : State := s.setFld (.tdm n) Tdm.STATUS_FST v
def State.crc4En (n : Nat) : Bool := s.flag (.tdm n) Tdm.LINK_CFG_CRC4_EN
def State.mfa (n : Nat) : Bool := s.flag (.tdm n) Tdm.STATUS_MFA

/-! ## Defects (R348) -/

/-- One shown defect takes a value; a change raises its event. -/
def State.showDefect (n : Nat) (f : Fld) (bit : Nat) (v : Bool) : State :=
  if s.flag (.tdm n) f = v then s else (s.setFld (.tdm n) f (b2n v)).raise (.tdm n) bit

/-- The defects shown follow those that are present, by precedence (R348). A defect of this second is remembered (R349). -/
def State.showDefects (n : Nat) : State :=
  let l := s.link n
  let lof := decide (s.fst n ≠ 4)
  let s := if l.los ∨ l.ais ∨ lof then s.mapTdm n (fun l => { l with defect := true }) else s
  let s := s.showDefect n Tdm.STATUS_LOS 8 l.los
  let s := s.showDefect n Tdm.STATUS_AIS 9 (l.ais && !l.los)
  let s := s.showDefect n Tdm.STATUS_LOF 10 (lof && !l.los && !l.ais)
  s.showDefect n Tdm.STATUS_RDI 11 (l.rdi && !lof && !l.los && !l.ais)

/-- LOS, AIS or LOF is shown (R345, R348). -/
def State.tdmDefect (n : Nat) : Bool :=
  s.flag (.tdm n) Tdm.STATUS_LOS || s.flag (.tdm n) Tdm.STATUS_AIS || s.flag (.tdm n) Tdm.STATUS_LOF

/-! ## The framer (R346, R347) -/

/-- The framer goes to SEARCH. No sub-multiframe is received from then on, so the E bits are 1 again (R345). -/
def State.toSearch (n : Nat) : State :=
  ((s.setFst n 0).setFld (.tdm n) Tdm.STATUS_MFA 0).mapTdm n (fun l =>
    { l with rdi := false, rdiRun := 0, slip := [], bad1 := false, bad2 := false })

/-- Alignment is lost (R346, R347). -/
def State.tdmLost (n : Nat) : State := (s.toSearch n).bump (.tdm n) tdmLofEntries

/-- IN_FRAME is entered: LAG is 384 (R346, R350). A link sends and is read in whole frames here, so the frames that wait to be read follow LAG one
by one: two of them at 384, whose octets the manual does not say, at most four before a slip (log entry 124). -/
def State.tdmInFrame (n : Nat) : State :=
  let (a, s) := s.drawBytes 32
  let (b, s) := s.drawBytes 32
  ((s.setFst n 4).setFld (.tdm n) Tdm.SLIP_STATUS_LAG 384).mapTdm n (fun l => { l with slip := [a, b], rdi := false, rdiRun := 0 })

/-- A sub-multiframe has been judged: errored or not (R347, R349). -/
def State.smfJudged (n : Nat) (bad second : Bool) : State :=
  let s := if bad then s.bump (.tdm n) tdmCrcErr else s
  let s := s.mapTdm n (fun l =>
    { l with blocks := l.blocks + b2n bad, smf := l.smf + 1, smfBad := l.smfBad + b2n bad,
             bad1 := if second then l.bad1 else bad, bad2 := if second then bad else l.bad2 })
  let l := s.link n
  if 915 ≤ l.smfBad ∧ s.flag (.tdm n) Tdm.LINK_CFG_CRC_LOF_EN then s.tdmLost n
  else if l.smf = 1000 then s.mapTdm n (fun l => { l with smf := 0, smfBad := 0 }) else s

/-- The CRC-4 of the frame just received of an aligned multiframe (R345, R347): the C bits of a sub-multiframe carry the CRC of the one
before, and both count only where every frame of it has been received since alignment. -/
def State.tdmCrc (n : Nat) (frame : List Byte) : State :=
  let l := s.link n
  let w := byteAt frame 0
  let m := l.frame
  let plain := if m % 2 = 0 then BitVec.ofNat 8 (w % 128) :: frame.drop 1 else frame
  let crc := crc4 (if m % 8 = 0 then 0 else l.rxCrc) plain
  let c := if m % 2 = 0 then 2 * (if m % 8 = 0 then 0 else l.rxC) + w / 128 else l.rxC
  let len := if m % 8 = 0 then 1 else l.rxLen + 1
  let s := s.mapTdm n (fun l => { l with rxCrc := crc, rxC := c, rxLen := len })
  let s := if (m = 13 ∨ m = 15) ∧ w < 128 then s.bump (.tdm n) tdmEErr else s
  if m % 8 = 7 ∧ len = 8 then
    let s := s.mapTdm n (fun l => { l with rxPrev := some crc })
    match l.rxPrev with
    | none => s
    | some p => s.smfJudged n (p ≠ c) (decide (m < 8))
  else s

/-- A FAS is received in MF_SEARCH or IN_FRAME (R347). -/
def State.tdmFas (n w : Nat) : State :=
  let ok := decide (w % 128 = 0x1B)
  let s := if s.fst n = 4 ∧ !ok then (s.bump (.tdm n) tdmFasErr).mapTdm n (fun l => { l with fasErrs := l.fasErrs + 1 }) else s
  let s := s.mapTdm n (fun l => { l with fasRun := if ok then 0 else l.fasRun + 1, fas := false })
  if (s.link n).fasRun = 3 then s.tdmLost n else s

/-- The A bit of an NFAS in IN_FRAME (R348). -/
def State.tdmRdi (n : Nat) (a : Bool) : State :=
  if s.fst n = 4 then
    let l := s.link n
    let run := if a = l.rdi then 0 else l.rdiRun + 1
    if s.fld (.tdm n) Tdm.LINK_CFG_RDI_N ≤ run ∧ a ≠ l.rdi then s.mapTdm n (fun l => { l with rdi := a, rdiRun := 0 })
    else s.mapTdm n (fun l => { l with rdiRun := run })
  else s

/-- An NFAS is received in MF_SEARCH or IN_FRAME (R346, R347). -/
def State.tdmNfas (n w : Nat) : State :=
  let ok := w.testBit 6
  let s := (s.setFld (.tdm n) Tdm.STATUS_RX_SA (w % 32)).tdmRdi n (w.testBit 5)
  let s := s.mapTdm n (fun l => { l with nfasRun := if ok then 0 else l.nfasRun + 1, fas := true,
                                         mfBits := (2 * l.mfBits + w / 128) % 64 })
  if 3 ≤ (s.link n).nfasRun ∧ s.flag (.tdm n) Tdm.LINK_CFG_NFAS_CHK then s.tdmLost n
  else if s.fst n = 3 ∧ (s.link n).mfBits = 0x0B then
    if (s.link n).mfSeen.contains (s.link n).frame then
      ((s.tdmInFrame n).setFld (.tdm n) Tdm.STATUS_MFA 1).mapTdm n (fun l =>
        { l with frame := 11, rxPrev := none, rxCrc := 0, rxC := 0, rxLen := 0, smf := 0, smfBad := 0 })
    else s.mapTdm n (fun l => { l with mfSeen := l.mfSeen ++ [l.frame] })
  else s

/-- Two double frames in a row decide AIS (R348). -/
def State.tdmAis (n : Nat) (frame : List Byte) : State :=
  s.mapTdm n (fun l =>
    let z := (zeroBits frame :: l.zeros).take 4
    let l := { l with zeros := z, even := !l.even }
    if l.even ∧ z.length = 4 then
      let a := z.getD 0 0 + z.getD 1 0
      let b := z.getD 2 0 + z.getD 3 0
      if a ≤ 2 ∧ b ≤ 2 then { l with ais := true } else if 3 ≤ a ∧ 3 ≤ b then { l with ais := false } else l
    else l)

/-- The framer judges a slot 0 (R346): `frame` holds the 32 octets of the received frame, `pos` is the position at which the scan
stands, and `scanned` how many positions it has passed since the last judgement. -/
def State.slot0 (n pos scanned : Nat) (frame : List Byte) : State :=
  let p := Page.tdm n
  let w := byteAt frame 0
  let s := s.tdmAis n frame
  let s :=
    if !s.inRun p ∨ (s.link n).los then s
    else match s.fst n with
      | 0 =>
        let s := s.mapTdm n (fun l =>
          { l with exclLeft := l.exclLeft - scanned, excl := if l.exclLeft ≤ scanned then none else l.excl })
        if w % 128 = 0x1B ∧ (s.link n).excl ≠ some pos then (s.setFst n 1).setFld p Tdm.STATUS_CAND pos else s
      | 1 => if w.testBit 6 then s.setFst n 2 else s.toSearch n
      | 2 =>
        if w % 128 = 0x1B then
          let s := s.mapTdm n (fun l => { l with fas := false, fasRun := 0, nfasRun := 0, mfBits := 63, mfSeen := [], frame := 0 })
          if s.crc4En n then s.setFst n 3 else s.tdmInFrame n
        else s.toSearch n
      | _ =>
        let s := s.mapTdm n (fun l => { l with frame := (l.frame + 1) % 16 })
        let s := if (s.link n).fas then s.tdmFas n w else s.tdmNfas n w
        let s := if s.fst n = 4 ∧ s.mfa n then s.tdmCrc n frame else s
        if s.fst n = 4 then s.mapTdm n (fun l => { l with slip := (l.slip ++ [frame]).drop (l.slip.length + 1 - 4) }) else s
  s.showDefects n

/-- The 8 ms timer expires (R346). -/
def State.mfTimeout (n : Nat) : State :=
  if s.fst n = 3 then
    let cand := s.fld (.tdm n) Tdm.STATUS_CAND
    let s := (s.toSearch n).mapTdm n (fun l => { l with excl := some cand, exclLeft := 255 })
    ((s.bump (.tdm n) tdmFalseAlign).raise (.tdm n) 13).showDefects n
  else s

/-- LOS is detected: TDMn_LOS is high, or TDMn_RD has carried no 1 for LOS_N bit periods, `zeros` in all (R346, R348). -/
def State.losRise (n : Nat) (pin : Bool) (zeros : Nat) : State :=
  if pin ∨ s.fld (.tdm n) Tdm.LINK_CFG_LOS_N ≤ zeros then ((s.mapTdm n (fun l => { l with los := true })).toSearch n).showDefects n else s

/-- LOS is cleared: TDMn_LOS is low, and the last LOS_N bit periods hold `ones` ones, an eighth of them at the least (R348). -/
def State.losClear (n : Nat) (pin : Bool) (ones : Nat) : State :=
  if !pin ∧ ceilDiv (s.fld (.tdm n) Tdm.LINK_CFG_LOS_N) 8 ≤ ones then (s.mapTdm n (fun l => { l with los := false })).showDefects n else s

/-- A change of CRC4_EN applies (R346). -/
def State.crc4Changed (n : Nat) : State :=
  ((s.toSearch n).mapTdm n (fun l => { l with excl := none, exclLeft := 0 })).showDefects n

/-- A TDM page leaves RUN: the framer stays in SEARCH. -/
def State.tdmStop (n : Nat) : State := (s.toSearch n).showDefects n

/-! ## Performance (R349) -/

/-- The oldest of eleven seconds is added to the counters (R349). -/
def State.addSecond (n : Nat) : State :=
  let p := Page.tdm n
  let l := s.link n
  match l.secs with
  | [] => s
  | (es, ses, blocks) :: rest =>
    if l.secs.length < 11 then s
    else
      let ten := l.secs.take 10
      let was := s.flag p Tdm.STATUS_UAS
      let ua := if was then !(ten.all (fun x => !x.2.1)) else ten.all (fun x => x.2.1)
      let s := s.mapTdm n (fun l => { l with secs := rest })
      let s := if ua = was then s else (s.setFld p Tdm.STATUS_UAS (b2n ua)).raise p 14
      if ua then s.bump p tdmUas
      else
        let s := if es then s.bump p tdmEs else s
        let s := if ses then s.bump p tdmSes else s
        if ses then s else s.bump p tdmBbe blocks

/-- A second of the local time base ends (R349): each link classifies every second, but for a page in HALTED, which holds its state. -/
def State.tdmSecond (n : Nat) : State :=
  if s.st (.tdm n) ≠ 4 ∧ s.pageOn (.tdm n) then
    let l := s.link n
    let es := l.defect || decide (0 < if s.crc4En n then l.blocks else l.fasErrs)
    let ses := l.defect || (s.crc4En n && decide (300 ≤ l.blocks))
    let s := s.mapTdm n (fun l => { l with secs := l.secs ++ [(es, ses, if s.crc4En n then l.blocks else 0)], blocks := 0, fasErrs := 0, defect := false })
    (s.addSecond n).showDefects n
  else s

/-! ## The slip buffer (R350) -/

/-- The frame at the read position; a free value before anything has been written there. -/
def State.slipRead (n : Nat) : State :=
  match (s.link n).slip with
  | f :: rest => s.mapTdm n (fun l => { l with slip := rest, cur := f })
  | [] =>
    let (l, s) := s.drawBytes 32
    s.mapTdm n (fun k => { k with cur := l })

/-- A device frame starts at a link that has received `bits` bits since the last: LAG is checked, a whole frame is repeated or
skipped, and a frame is read. -/
def State.slipFrame (n bits : Nat) : State :=
  let p := Page.tdm n
  if s.inRun p ∧ s.fst n = 4 then
    let lag := s.fld p Tdm.SLIP_STATUS_LAG + bits - 256
    if lag < 128 then ((s.setFld p Tdm.SLIP_STATUS_LAG (lag + 256)).bump p tdmSlipRep).raise p 12
    else if 640 < lag then
      let s := ((s.setFld p Tdm.SLIP_STATUS_LAG (lag - 256)).bump p tdmSlipDel).raise p 12
      (s.mapTdm n (fun l => { l with slip := l.slip.drop 1 })).slipRead n
    else (s.setFld p Tdm.SLIP_STATUS_LAG lag).slipRead n
  else s

/-- The 32 octets a link delivers to the interchange in this frame (R348 and chapter 15, "TDM pages"). -/
def State.linkSlots (n : Nat) : List Byte :=
  if s.inRun (.tdm n) ∧ !s.tdmDefect n then (List.range 32).map (fun j => (s.link n).cur.getD j 0xFF)
  else List.replicate 32 0xFF

/-! ## Streams (R353–R355) -/

/-- Word `k` of an entry of a stream table: 0 TXS_CFG, 1 RXS_CFG. -/
def State.strF (t i k hi lo : Nat) : Nat := s.tabF .tsi t i k hi lo
def State.strEn (t i : Nat) : Bool := s.strF t i 0 0 0 == 1
def State.strCoding (t i : Nat) : Bool := s.strF t i 0 1 1 == 1
def State.strFpp (t i : Nat) : Nat := s.strF t i 0 11 8 + 1
def State.strCh (t i : Nat) : Nat := s.strF t i 0 20 16 + 1
def State.strFirst (t i : Nat) : Nat := s.strF t i 1 8 0
def State.strId (t i : Nat) : Nat := s.strF t i 2 31 0 * 2 ^ 32 + s.strF t i 3 31 0
/-- Bytes of a stream's samples. -/
def State.strLen (t i : Nat) : Nat := s.strCh t i * s.strFpp t i * (if s.strCoding t i then 2 else 1)

/-- The 13-bit linear value of an A-law octet (G.711). -/
def alawExpand (b : Byte) : Int :=
  let x := b.toNat ^^^ 0x55
  let seg := x / 16 % 8
  let m := x % 16
  let v : Nat := if seg = 0 then 2 * m + 1 else (2 * m + 33) * 2 ^ (seg - 1)
  if x.testBit 7 then v else -(v : Int)

/-- The segment of a magnitude of 12 bits, and the magnitude brought into the range 16–31 (G.711). -/
def alawSeg : Nat → Nat → Nat → Nat × Nat
  | 0, e, x => (e, x)
  | n + 1, e, x => if 31 < x then alawSeg n (e + 1) (x / 2) else (e, x)

/-- The A-law octet of a 13-bit linear value (G.711). -/
def alawCompress (v : Int) : Byte :=
  let x := (if v < 0 then -v - 1 else v).toNat / 2
  let y := if x ≤ 15 then x else
    let (e, z) := alawSeg 8 1 x
    z - 16 + 16 * e
  BitVec.ofNat 8 ((y + if v < 0 then 0 else 128) ^^^ 0x55)

/-- The bytes of a sample: the octet itself, or its linear value in bits 15–3 (R353). -/
def sampleBytes (coding : Bool) (b : Byte) : List Byte :=
  if coding then beBytes 2 (unsigned 16 (8 * alawExpand b)) else [b]

/-- The octets of sample bytes (R354). -/
def sampleOctets (coding : Bool) (n : Nat) (l : List Byte) : List Byte :=
  if coding then (List.range n).map (fun i => alawCompress (signed 13 (beAt l (2 * i) 2 / 8)))
  else (List.range n).map (fun i => l.getD i 0)

/-- The AAF header of a stream with a sequence number (R353). -/
def State.aafHeader (t i seq : Nat) : List Byte :=
  let coding := s.strCoding t i
  beBytes 4 (0x02800000 + seq * 256) ++ beBytes 8 (s.strId t i) ++ beBytes 4 0 ++ beBytes 1 (if coding then 4 else 0) ++
    beBytes 2 (0x1000 + s.strCh t i) ++ beBytes 1 (if coding then 16 else 8) ++ beBytes 2 (s.strLen t i) ++ beBytes 2 0

/-- The frame of a stream's group (R353). -/
def State.aafFrame (i : Nat) (group : List (List Byte)) : List Byte :=
  let da := s.strF 0 i 4 31 0 + 2 ^ 32 * s.strF 0 i 5 15 0
  let sa := s.fld .tsi Tsi.AAF_SA_LO_SA + 2 ^ 32 * s.fld .tsi Tsi.AAF_SA_HI_SA
  let vlan := if s.strF 0 i 0 2 2 = 1 then beBytes 2 0x8100 ++ beBytes 2 (s.strF 0 i 5 31 16) else []
  refcs (beBytes 6 da ++ beBytes 6 sa ++ vlan ++ beBytes 2 0x22F0 ++ s.aafHeader 0 i (s.tsi.txs.get i).seq ++
    group.flatMap (fun set => set.flatMap (sampleBytes (s.strCoding 0 i))))

def State.mapTsi (f : TsiState → TsiState) : State := { s with tsi := f s.tsi }
def State.mapTxs (i : Nat) (f : TxStream → TxStream) : State := s.mapTsi (fun t => { t with txs := t.txs.modify i f })
def State.mapRxs (i : Nat) (f : RxStream → RxStream) : State := s.mapTsi (fun t => { t with rxs := t.rxs.modify i f })

/-- A stream whose group has ended presents its frame (R353). -/
def State.aafPresent (i : Nat) : State :=
  match (s.tsi.txs.get i).group with
  | none => s
  | some g =>
    if g.length < s.strFpp 0 i then s
    else
      let l := s.aafFrame i g
      let s := s.mapTxs i (fun t => { t with group := none, seq := (t.seq + 1) % 256 })
      let refused (s : State) : State := (s.bumpTab .tsi 8 i 1).bump .prs Prs.CNT_INPUT_REFUSED
      if !s.inRun .prs then refused s
      else if !s.inRun .buf then refused (s.inject 35 l none none)
      else (s.inject 35 l none none).bumpTab .tsi 8 i 0

/-- FRAME_COUNT. -/
def State.frameCount : Nat := s.fld .tsi Tsi.FRAME_COUNT_COUNT

/-- A device frame starts: groups that ended with the last frame go out, the frame counter advances, the domain's time is recorded
(R351, R353, R355), and the idle code with it (R359). -/
def State.tdmBegin : State :=
  let s := s.each (List.range 32) State.aafPresent
  let s := s.setFld .tsi Tsi.FRAME_COUNT_COUNT (s.frameCount + 1)
  s.mapTsi (fun t => { t with frameNs := s.domNs (s.fld .time Time.AVTP_CFG_DOMAIN) % 2 ^ 32, idle := BitVec.ofNat 8 (s.fld .tsi Tsi.IDLE_CODE) })

/-- Writes of FIXED entries apply (R351). -/
def State.applyFixed : State :=
  let w := s.tsi.fixed
  ({ s with mem := { s.mem with win := w.foldl (fun (m : Mem) (r : Nat × List Byte) => m.putBytes r.1 r.2) s.mem.win } }).mapTsi (fun t => { t with fixed := [] })

/-- The octets of the network receive slots of this frame: each stream's sample set, or the idle code (R355). -/
def State.netSlots : List (Nat × Byte) :=
  (List.range 32).flatMap (fun i =>
    if s.strEn 1 i then
      match (s.tsi.rxs.get i).play.find? (fun x => x.1 == s.frameCount) with
      | some x => (List.range (s.strCh 1 i)).map (fun c => (s.strFirst 1 i + c, x.2.getD c 0))
      | none => (List.range (s.strCh 1 i)).map (fun c => (s.strFirst 1 i + c, s.tsi.idle))
    else [])

/-- A receive stream is read in this frame: an underrun counts, and what has been read leaves the store. -/
def State.rxsRead (i : Nat) : State :=
  if s.strEn 1 i then
    let f := s.frameCount
    let has := (s.tsi.rxs.get i).play.any (fun x => x.1 == f)
    let had := (s.tsi.rxs.get i).had
    let ahead (k : Nat) : Nat := (k + 2 ^ 32 - f) % 2 ^ 32
    let s := s.mapRxs i (fun r => { r with had := has, play := r.play.filter (fun x => decide (0 < ahead x.1 ∧ ahead x.1 < 128)) })
    if has then s
    else
      let s := s.bumpTab .tsi 9 i 3
      if had then s.raise .tsi 9 else s
  else s

/-- The window addresses of the FIXED entry of output `o` and of its entry in the active page (R351). -/
def fixedAddr (o : Nat) : Nat := 0x1E02000 + 4 * o
def State.pagedAddr (o : Nat) : Nat := 0x1E00000 + 0x1000 * s.fld .tsi Tsi.TSI_STATUS_ACTIVE + 4 * o

/-- The entry of the active page is read for output `o`: TSI is in RUN, and no FIXED entry prevails. -/
def State.pagedRead (bad : List Nat) (o : Nat) : Bool :=
  s.inRun .tsi && !bad.contains (1024 + o) && !(s.mem.win.num (fixedAddr o) 4).testBit 15

/-- The octet that output `o` carries (R351, R361); `src` gives what each source delivers, and `bad` the outputs whose word in the active
page cannot be read, or whose FIXED word where 1024 is added. -/
def State.connOctet (src : Nat → Byte) (bad : List Nat) (o : Nat) : Byte :=
  let idle := s.tsi.idle
  let fixed := s.mem.win.num (fixedAddr o) 4
  let paged := s.mem.win.num (s.pagedAddr o) 4
  if bad.contains (1024 + o) then idle
  else if fixed.testBit 15 then src (fixed % 1024)
  else if bad.contains o then idle
  else if s.inRun .tsi ∧ paged.testBit 15 then src (paged % 1024)
  else idle

/-- The errors of the connection words read in this frame (R361). -/
def State.connErrors (bad : List Nat) : State :=
  s.each bad (fun s o =>
    if 1024 ≤ o then s.logErr .tsi 5 7 (fixedAddr (o - 1024))
    else if s.pagedRead bad o then s.logErr .tsi 5 7 (s.pagedAddr o)
    else s)

/-- The error of a stream word: stream `k % 64`, receive streams from 32, word `k / 64`; its table address as R37 lays it out. -/
def State.streamError (k : Nat) : State :=
  let i := k % 64
  s.logErr .tsi 5 7 (Page.tsi.base + Tsi.TAB_DATA_DATA.off + 0x700 +
    2 ^ 32 * (2 ^ 31 + i / 32 * 2 ^ 24 + i % 32 * 2 ^ 8 + k / 64 % 32))

/-- Slot 0 that a link sends in this frame (R345). -/
def State.txSlot0 (n : Nat) : Byte :=
  let p := Page.tdm n
  let m := s.frameCount % 16
  let l := s.link n
  let crc := s.crc4En n
  let si : Bool :=
    if !crc then true
    else if m % 2 = 0 then l.txC.testBit (3 - m % 8 / 2)
    else if m < 12 then Nat.testBit 0x0B (5 - m / 2)
    else if !s.flag p Tdm.LINK_CFG_E_EN then true
    else if m = 13 then !l.bad1 else !l.bad2
  if m % 2 = 0 then BitVec.ofNat 8 (128 * b2n si + 0x1B)
  else
    let a := s.flag p Tdm.LINK_CFG_TX_RDI || (s.flag p Tdm.LINK_CFG_AUTO_RDI && s.tdmDefect n)
    BitVec.ofNat 8 (128 * b2n si + 64 + 32 * b2n a + s.fld p Tdm.TX_SA_SA)

/-- The 32 octets that a link sends in this frame, and the CRC-4 of what it sends. -/
def State.txLink (n : Nat) (octets : List Byte) : List Byte × State :=
  let p := Page.tdm n
  if !s.inRun p ∨ s.flag p Tdm.LINK_CFG_TX_AIS then (List.replicate 32 0xFF, s)
  else
    let m := s.frameCount % 16
    let z := (s.link n).slot0
    let l := z :: octets.drop 1
    let plain := if m % 2 = 0 then (z &&& 0x7F) :: octets.drop 1 else l
    let crc := crc4 (if m % 8 = 0 then 0 else (s.link n).txCrc) plain
    (l, s.mapTdm n (fun k => { k with txCrc := crc, txC := if m % 8 = 7 then crc else k.txC }))

/-- A transmit stream's group starts with a frame where FRAME_COUNT mod FPP is 0 (R353). -/
def State.txsStart (i : Nat) : State :=
  if s.strEn 0 i && s.inRun .tsi && s.frameCount % s.strFpp 0 i == 0 then s.mapTxs i (fun t => { t with group := some [] }) else s

/-- A transmit stream's group takes its slots of the frame (R353). -/
def State.txsFrame (octets : Nat → Byte) (i : Nat) : State :=
  match (s.tsi.txs.get i).group with
  | none => s
  | some g =>
    let set := (List.range (s.strCh 0 i)).map (fun c => octets (512 + s.strFirst 0 i + c))
    s.mapTxs i (fun t => { t with group := some (g ++ [set]) })

/-- A frame starts: each link reads its slip buffer and sends its slot 0, groups start. `bits` lists the bits each link has received since the
last frame (R345, R350, R353). -/
def State.tdmStart (bits : List Nat) : State :=
  let s := s.each (List.range 16) (fun s n => (s.slipFrame n (bits.getD n 256)).mapTdm n (fun l => { l with slot0 := s.txSlot0 n }))
  s.each (List.range 32) State.txsStart

/-- The frame in progress has been switched, and shows as a whole at its end: sample sets that came in it for it are in its slots; outputs carry
their sources, links send, groups grow. `badConn` lists the outputs and `badStream` the streams whose words read with an uncorrectable error, as
`connOctet` and `streamError` number them (R351–R355, R361). -/
def State.tdmRun (badConn badStream : List Nat) : State :=
  let lines := (List.range 16).map s.linkSlots
  let idle := s.tsi.idle
  let net := if s.inRun .tsi ∨ s.st .tsi = 2 then s.netSlots else []
  let src := fun (k : Nat) =>
    if k < 512 then (lines.getD (k / 32) []).getD (k % 32) 0xFF
    else match net.find? (fun x => x.1 == k - 512) with
      | some x => if badStream.any (fun b =>
          let i := b % 64 - 32
          decide (32 ≤ b % 64 ∧ s.strFirst 1 i ≤ k - 512 ∧ k - 512 < s.strFirst 1 i + s.strCh 1 i)) then idle else x.2
      | none => idle
  let s := (s.connErrors badConn).each badStream State.streamError
  let s := if s.inRun .tsi ∨ s.st .tsi = 2 then s.each (List.range 32) State.rxsRead else s
  let octet := s.connOctet src badConn
  let (links, s) := (List.range 16).foldl (fun (acc : List (List Byte) × State) n =>
    let (l, s) := acc.2.txLink n ((List.range 32).map (fun j => octet (32 * n + j)))
    (acc.1 ++ [l], s)) ([], s)
  (s.emit (.tdm links)).each (List.range 32) (fun s i =>
    s.txsFrame (fun o => if badStream.any (fun b => b % 64 == i) then idle else octet o) i)

/-! ## Port 35 (R354, R355) -/

/-- The first frame of a copy's samples (R355), which may lie in the past. -/
def State.playTarget (i : Nat) (tv : Bool) (ts : Nat) : Int :=
  if s.strF 1 i 0 24 24 = 1 ∧ tv then
    let d := extend32 ts s.tsi.frameNs - s.tsi.frameNs
    (s.frameCount : Int) - (-d) / 125000
  else (s.frameCount : Int) + s.strF 1 i 0 30 25

/-- Port 35 takes the oldest whole copy it has received. -/
def State.tdmEgress : State :=
  match s.dp.tdmIn with
  | [] => s
  | l :: rest =>
    let s := s.mapDp (fun d => { d with tdmIn := rest })
    let l := dropFcs l
    let e := s.etypeAt l
    let h := e + 2
    if beAt l e 2 ≠ 0x22F0 ∨ byteAt l h ≠ 2 then s.bump .tsi Tsi.CNT_NOT_AAF
    else match (List.range 32).find? (fun i => s.strEn 1 i && s.strId 1 i == beAt l (h + 4) 8) with
      | none => s.bump .tsi Tsi.CNT_UNKNOWN_STREAM
      | some i =>
        if byteAt l (h + 1) < 128 then s.bump .tsi Tsi.CNT_UNKNOWN_STREAM
        else
          let want := s.aafHeader 1 i 0
          if (l.drop (h + 16)).take 1 ≠ (want.drop 16).take 1 ∨ beAt l (h + 17) 2 / 4096 ≠ 1 ∨
              beAt l (h + 17) 2 % 1024 ≠ s.strCh 1 i ∨ byteAt l (h + 19) ≠ byteAt want 19 ∨
              beAt l (h + 20) 2 ≠ s.strLen 1 i ∨ l.length < h + 24 + s.strLen 1 i then
            (s.bumpTab .tsi 9 i 5).raise .tsi 10
          else
            let r := s.tsi.rxs.get i
            let seq := byteAt l (h + 2)
            let gap := match r.seq with | some q => decide (seq ≠ (q + 1) % 256) | none => false
            let s := if gap then s.bumpTab .tsi 9 i 4 else s
            let s := (s.mapRxs i (fun r => { r with seq := some seq })).bumpTab .tsi 9 i 0
            let target := s.playTarget i ((byteAt l (h + 1)).testBit 0) (beAt l (h + 12) 4)
            if target < s.frameCount then (s.bumpTab .tsi 9 i 1).raise .tsi 11
            else if (s.frameCount : Int) + 63 < target then s.bumpTab .tsi 9 i 2
            else
              let coding := s.strCoding 1 i
              let ch := s.strCh 1 i
              let w := ch * (if coding then 2 else 1)
              let sets := (List.range (s.strFpp 1 i)).map (fun k =>
                ((target.toNat + k) % 2 ^ 32, sampleOctets coding ch (l.drop (h + 24 + k * w))))
              s.mapRxs i (fun r => { r with play := r.play.filter (fun x => !sets.any (fun y => y.1 == x.1)) ++ sets })

/-! ## The connection window (R351, R352) -/

/-- A connection entry keeps its fields: SRC and VALID (R351). -/
def connMask (a : Nat) (l : List Byte) : List Byte :=
  (List.range l.length).map (fun i => match (a + i) % 4 with | 0 => l.getD i 0 | 1 => l.getD i 0 &&& 0x83 | _ => 0)

/-- A write to the connection window below its reserved part. -/
def State.connWrite (src : Src) (addr : Nat) (l : List Byte) : State :=
  let l := connMask addr l
  if 0x1E02000 ≤ addr then s.mapTsi (fun t => { t with fixed := t.fixed ++ [(addr, l)] })
  else
    let b := (addr - 0x1E00000) / 0x1000
    if b = s.fld .tsi Tsi.TSI_STATUS_ACTIVE then s.logErr .tsi 0x20 src.code addr
    else if s.flag .tsi Tsi.TSI_STATUS_CLONE_BUSY ∨ s.checking .tsi then s.logErr .tsi 7 src.code addr
    else (({ s with mem := { s.mem with win := s.mem.win.putBytes addr l } }).setFld .tsi Tsi.TSI_STATUS_CONN_PENDING 1).setPending .tsi

/-- Work of TSI: groups under way. -/
def State.tsiWork : Nat := ((List.range 32).filter (fun i => (s.tsi.txs.get i).group.isSome)).length

/-- TSI's work is discarded. -/
def State.tsiDrop : State := s.each (List.range 32) (fun s i => s.mapTxs i (fun t => { t with group := none }))

/-- Connection pages that swap: CONN_PENDING clears, SWAPS counts (R352). -/
def State.connSwap : State :=
  if s.flag .tsi Tsi.TSI_STATUS_CONN_PENDING then
    ((s.setFld .tsi Tsi.TSI_STATUS_ACTIVE (1 - s.fld .tsi Tsi.TSI_STATUS_ACTIVE)).setFld .tsi Tsi.TSI_STATUS_CONN_PENDING 0).bump .tsi
      Tsi.CNT_SWAPS
  else s

end

end Sys2Proof.Machine
end

