-- ==== Sys2Proof/Machine/Balls.lean ====
section
/-! DEFINITION. The levels of the balls that a reset or an island without supply leaves (R501). -/
namespace Sys2Proof.Machine

/-- The balls of R501 that belong to an island. -/
def islandBalls (i : Nat) : List Ball :=
  let tx := (List.range 8).map (fun k => Ball.serdesTx (8 * i + k))
  match i with
  | 0 => tx ++ [.claspTx 0, .claspTx 1, .fenceO]
  | 1 => tx
  | 2 => tx
  | 3 => tx
  | 10 => [.xspiCs]
  | 11 => (List.range 64).flatMap (fun n => [.canTx n, .canMode n]) ++ (List.range 16).map Ball.linTx
  | 12 => (List.range 16).map Ball.tdmTd
  | 13 => [.pcieTx]
  | _ => []

/-- The balls of R501 that AON holds. -/
def aonBalls : List Ball := (List.range 16).map Ball.gpio

section
variable (s : State)

/-- The block behind a ball drives it: its island is ON, and no reset holds it. -/
def State.drives (p : Page) : Bool :=
  s.pageOn p && !(s.rst.off || s.rst.por || (s.rst.sys && p.island != 14) || (s.rst.perst && p.island == 13))

/-- The level of a ball, its bank present: R501's where the block behind it does not drive it (R324, R493, R501, R508). -/
def State.level (b : Ball) : Level :=
  let held (p : Page) (l : Level) : Level := if s.drives p then .driven else l
  match b with
  | .canTx n => held (.can n) .high
  | .canMode n => if s.drives (.can n) ∧ s.cst n = 6 then .high else .low
  | .linTx n => held (.lin n) .high
  | .tdmTd n => held (.tdm n) .high
  | .serdesTx p => held (.etp p) .idle
  | .claspTx _ => held .clsp .idle
  | .pcieTx => held .pcie .idle
  | .fenceO => if s.drives .clsp ∧ s.flag .clsp Clsp.ROLE_STATUS_FENCE_OUT then .high else .low
  | .xspiCs => held .otp .high
  | .xspiReset => if s.rst.off ∨ s.rst.por ∨ s.power.aonNs < s.rst.xspiAt then .low else .high
  | .psuEn => if s.psuEn then .high else .low
  | .gpio i =>
    if s.drives .gpio ∧ (s.fld .gpio Gpio.DIR_OE).testBit i then (if (s.fld .gpio Gpio.OUT_LEVEL).testBit i then .high else .low) else .input

/-- Balls take their levels. -/
def State.showBalls (l : List Ball) : State := if l.isEmpty then s else s.emit (.levels (l.map (fun b => (b, s.level b))))

end

end Sys2Proof.Machine
end

