-- ==== Sys2Proof/Machine/Cipher.lean ====
section
/-! DEFINITION. Cipher user pages and key slots (R365–R369, R377–R386). -/
namespace Sys2Proof.Machine

section
variable (s : State)

/-- A cipher page's state, and its change. -/
def State.cip (n : Nat) : CipPage := s.cips.get n
def State.mapCip (n : Nat) (f : CipPage → CipPage) : State := { s with cips := s.cips.modify n f }
def State.setSlot (i : Nat) (k : Slot) : State := { s with slots := s.slots.set i k }

/-! ## Jobs -/

/-- JOB_GO: a copy of the JOB registers is queued (R381). -/
def State.jobGo (src : Src) (n : Nat) : State :=
  let p := Page.cip n
  let c := s.cip n
  if !s.inRun p then s
  else if 8 ≤ c.jobs.length ∨ 8 ≤ c.done.length then s.refuse src p 0x20 Cip.JOB_GO_GO.off
  else s.mapCip n (fun c => { c with jobs := c.jobs ++ [
    { op := s.fld p Cip.JOB_W0_OP, srcSpace := s.fld p Cip.JOB_W0_SRC_SPACE, dstSpace := s.fld p Cip.JOB_W0_DST_SPACE
      ivGen := s.flag p Cip.JOB_W0_IV_GEN, irq := s.flag p Cip.JOB_W0_IRQ, tagLen := s.fld p Cip.JOB_W0_TAG_LEN
      tag := s.fld p Cip.JOB_W0_TAG, src := s.wide p Cip.JOB_SRC_LO_ADDR Cip.JOB_SRC_HI_ADDR
      dst := s.wide p Cip.JOB_DST_LO_ADDR Cip.JOB_DST_HI_ADDR, len := s.fld p Cip.JOB_LEN_DATA_LEN
      aad := s.fld p Cip.JOB_AAD_AAD_LEN
      iv := (List.range 4).flatMap (fun i => leBytes 4 (s.fld p (Cip.JOB_IV_IV i))) }] })

/-- Bytes that a job reads; that it writes (R377). -/
def CipJob.srcLen (j : CipJob) : Nat :=
  match j.op with
  | 0 => j.aad + j.len
  | 1 => j.aad + j.len + j.tagLen
  | 4 => j.len + j.tagLen
  | _ => j.len
def CipJob.dstLen (j : CipJob) : Nat :=
  match j.op with
  | 0 => j.len + j.tagLen
  | 3 => j.tagLen
  | 4 => 0
  | _ => j.len

/-- A range of bytes lies within the page's window of a space (R378). -/
def State.cipRange (n space a len : Nat) : Bool :=
  let p := Page.cip n
  len == 0 || (decide (space < 3 ∧ s.wide p (Cip.WIN_BASE_LO_ADDR space) (Cip.WIN_BASE_HI_ADDR space) ≤ a ∧
    a + len ≤ s.wide p (Cip.WIN_LIMIT_LO_ADDR space) (Cip.WIN_LIMIT_HI_ADDR space) + 1))

/-- A job's checks of R377–R379 that give RANGE. -/
def State.cipRangeBad (n : Nat) (j : CipJob) : Bool :=
  decide (4 < j.op ∨ j.tagLen < 4 ∨ 16 < j.tagLen) || j.srcSpace == 3 || j.dstSpace == 3 ||
    !s.cipRange n j.srcSpace j.src j.srcLen || !s.cipRange n j.dstSpace j.dst j.dstLen ||
    (j.op == 2 && decide (2 ^ 32 < beAt j.iv 12 4 + (j.len + 15) / 16))

/-- A job counts on its key's GCM invocations; on its CMAC invocations. -/
def CipJob.gcm (j : CipJob) : Bool := decide (j.op ≤ 1)
def CipJob.cmac (j : CipJob) : Bool := j.op == 3 || j.op == 4

/-- A memory of the device ends before a range does. -/
def spaceEnds (space a len : Nat) : Bool := (space == 1 && decide (msramSize < a + len)) || (space == 2 && decide (0x200000 < a + len))

/-- The head job of a page completes with a result (R381, R385, R386). -/
def State.cipComplete (n : Nat) (j : CipJob) (result : Nat) (zeroBad : Bool) (iv : List Byte) : State :=
  let p := Page.cip n
  let s := s.mapCip n (fun c => { jobs := c.jobs.drop 1, done := c.done ++ [⟨j.tag, result, zeroBad, iv⟩] })
  let s := s.bump p Cip.CNT_JOBS
  let s := if result = 0 then s.bump p Cip.CNT_BYTES j.len else s
  let s := if result = 1 then (s.bump p Cip.CNT_AUTH_FAILS).raise p 9 else s
  let s := if result = 2 then s.bump p Cip.CNT_BUS_ERRORS else s
  let s := if result = 5 then (s.bump p Cip.CNT_KEY_EXHAUSTED).raise p 10 else s
  if j.irq then s.raise p 8 else s

/-- What a job makes of its source: the bytes it writes and whether its check holds (R377). -/
def CipJob.output (j : CipJob) (key iv l : List Byte) : List Byte × Bool :=
  match j.op with
  | 0 =>
    let c := gcmCrypt key iv (l.drop j.aad)
    (c ++ (gcmTag key iv (l.take j.aad) c).take j.tagLen, true)
  | 1 =>
    let c := (l.drop j.aad).take j.len
    (gcmCrypt key iv c, (gcmTag key iv (l.take j.aad) c).take j.tagLen == l.drop (j.aad + j.len))
  | 2 => (ctrCrypt key j.iv l, true)
  | 3 => ((aesCmac key l).take j.tagLen, true)
  | _ => ([], (aesCmac key (l.take j.len)).take j.tagLen == l.drop j.len)

/-- The bytes of a job's destination written; host memory through the DMA path. -/
def State.cipPut (j : CipJob) (l : List Byte) : State := if l.isEmpty then s else s.spacePut j.dstSpace j.dst l false

/-- The whole destination of a failed job overwritten with zeros; where the write fails BUS_ERROR is logged (R380). -/
def State.cipZero (n : Nat) (j : CipJob) (fails : Bool) : State :=
  if fails then s.logErr (.cip n) 3 7 j.dst else s.cipPut j (List.replicate j.dstLen 0)

/-- The invocation counts of a job's key. -/
def Slot.counted (k : Slot) (j : CipJob) : Slot :=
  { k with gcm := k.gcm + b2n j.gcm, cmac := k.cmac + b2n j.cmac }

/-- The slot that serves a page: bound to it (R367). -/
def State.cipSlot (n : Nat) : Option Nat :=
  let i := s.fld (.cip n) Cip.KEY_BIND_SLOT
  if s.flag (.cip n) Cip.KEY_BIND_BOUND then some i else none

/-- A page holds as many completion entries as it can: its next job waits for one to be read (R381). -/
def State.cipFull (n : Nat) : Bool := decide (8 ≤ (s.cip n).done.length)

/-- A range of a job's space cannot be reached: host memory without the host, or bytes past the end of a memory. -/
def State.cipDead (space a len : Nat) : Bool := (space == 0 && len != 0 && !s.hostUp) || spaceEnds space a len

/-- A job starts (R377–R379): its slot and its IV, the invocation counted; or the RESULT of the check that it fails. -/
def State.cipStart (n : Nat) (j : CipJob) : (Nat ⊕ (Nat × List Byte)) × State :=
  if s.cipRangeBad n j then (.inl 3, s)
  else match s.cipSlot n with
    | none => (.inl 4, s)
    | some i =>
      let k := s.slot i
      if k.bind ≠ 2 ∨ k.page ≠ n then (.inl 4, s.logErr .msec 0x22 7 i)
      else if (j.gcm ∧ 2 ^ 32 ≤ k.gcm) ∨ (j.cmac ∧ 2 ^ 48 ≤ k.cmac) then (.inl 5, s)
      else
        let iv := if j.gcm ∧ j.ivGen then leBytes 4 (s.fld (.cip n) Cip.IV_FIXED_FIXED) ++ beBytes 8 k.gcm else j.iv.take 12
        (.inr (i, iv), s.setSlot i (k.counted j))

/-- The head job of a page runs to its end. `bad` tells that an access failed: how many bytes of the destination had been written, and
the address; `zeroFails` that the zero-fill fails too; `corr` counts the words of management SRAM and of the scratchpad that were
corrected (R377–R381). -/
def State.cipRun (n : Nat) (bad : Option (Nat × Nat)) (zeroFails : Bool) (corr : Nat × Nat) : State :=
  let p := Page.cip n
  match (s.cip n).jobs with
  | [] => s
  | j :: _ =>
    if (s.st p ≠ 1 ∧ s.st p ≠ 2) ∨ s.cipFull n then s
    else
      let (x, s) := (s.eccSeen corr.1 corr.2).cipStart n j
      match x with
      | .inl r => s.cipComplete n j r false []
      | .inr (i, iv) =>
        let l := (s.spaceMem j.srcSpace).bytes j.src j.srcLen
        let (o, ok) := j.output (s.slot i).key iv l
        let unwritten := zeroFails || s.cipDead j.dstSpace j.dst j.dstLen
        let bad := if s.cipDead j.srcSpace j.src j.srcLen then some (0, j.src)
          else if s.cipDead j.dstSpace j.dst j.dstLen then some (0, j.dst) else bad
        match bad with
        | some (done, a) =>
          let s := s.logErr p 3 7 a
          if j.op = 1 then (s.cipZero n j unwritten).cipComplete n j 2 unwritten iv
          else (s.cipPut j (o.take done)).cipComplete n j 2 false iv
        | none =>
          if ok then (s.cipPut j o).cipComplete n j 0 false iv
          else if j.op = 1 then (s.cipZero n j zeroFails).cipComplete n j 1 zeroFails iv
          else s.cipComplete n j 1 false iv

/-- DONE_POP (R385). -/
def State.donePop (n : Nat) : State := s.mapCip n (fun c => { c with done := c.done.drop 1 })

/-- Jobs a page holds. -/
def State.cipWork (n : Nat) : Nat := (s.cip n).jobs.length

/-- The jobs of a page that wait are discarded. -/
def State.cipDrop (n : Nat) : State := s.mapCip n (fun c => { c with jobs := [] })

/-- A GCM_DEC job that has started ends without its check: its destination is zero-filled (R380). Answers whether that failed. -/
def State.cipStop (n : Nat) (j : CipJob) : Bool × State :=
  if j.op = 1 then
    let dead := s.cipDead j.dstSpace j.dst j.dstLen
    (dead, s.cipZero n j dead)
  else (false, s)

/-- DRAIN_LIMIT of a cipher page: the job in progress, which has started, completes ABORTED, the others are discarded (R379–R381). While no
completion entry is free no job is in progress. Answers how many are discarded. -/
def State.cipAbort (n : Nat) : Nat × State :=
  match (s.cip n).jobs with
  | [] => (0, s)
  | j :: rest =>
    if s.cipFull n then (rest.length + 1, s.cipDrop n)
    else
      match s.cipStart n j with
      | (.inl _, s) => (rest.length, (s.cipComplete n j 6 false []).cipDrop n)
      | (.inr (_, iv), s) =>
        let (dead, s) := s.cipStop n j
        (rest.length, (s.cipComplete n j 6 dead iv).cipDrop n)

/-- A FAULT of a cipher page: its jobs are discarded, and the one in progress has counted as started (R379); after a forced power-down that one reads
DOMAIN_LOST, and how much of its destination has been written is open (R380, R430). -/
def State.cipFault (n : Nat) (lost : Bool) : Nat × State :=
  match (s.cip n).jobs with
  | [] => (0, s)
  | j :: rest =>
    if s.cipFull n then (rest.length + 1, s.cipDrop n)
    else match s.cipStart n j with
      | (.inl _, s) => if lost then (rest.length, (s.cipComplete n j 7 false []).cipDrop n) else (rest.length + 1, s.cipDrop n)
      | (.inr (_, iv), s) =>
        if lost then
          let (k, s) := s.draw (j.dstLen + 1)
          let (o, s) := s.drawBytes k
          (rest.length, ((s.cipPut j o).cipComplete n j 7 false iv).cipDrop n)
        else (rest.length + 1, (s.cipStop n j).2.cipDrop n)

/-- The word of the head completion entry: W0, or a word of its IV (R385). -/
def State.doneWord (n k : Nat) : Nat :=
  match (s.cip n).done with
  | [] => 0
  | d :: _ => if k = 0 then d.tag + d.result * 256 + b2n d.zeroBad * 4096 + 2 ^ 31 else leAt d.iv (4 * (k - 1)) 4

/-! ## Key slots (R365, R367, R382) -/

/-- KEY_BIND of the pages that name a slot is cleared. -/
def State.unbindSlot (i : Nat) : State :=
  s.each (List.range 64) (fun s n =>
    if s.flag (.cip n) Cip.KEY_BIND_BOUND ∧ s.fld (.cip n) Cip.KEY_BIND_SLOT = i then s.setWord (.cip n) Cip.KEY_BIND_SLOT.off 0 else s)

/-- A slot takes a key, shared anew, and a binding; a page's KEY_BIND follows. -/
def State.loadSlot (i : Nat) (k : Slot) : State :=
  let (share, s) := (s.unbindSlot i).drawBytes 32
  let s := s.setSlot i { k with share := share.take k.key.length, loaded := true }
  if k.bind = 2 then
    ((s.setFld (.cip k.page) Cip.KEY_BIND_SLOT i).setFld (.cip k.page) Cip.KEY_BIND_BOUND 1).setFld (.cip k.page)
      Cip.KEY_BIND_AES256 (b2n k.aes256)
  else s

/-- A slot is zeroed: both shares are overwritten and its binding is free (R367). -/
def State.zeroSlot (i : Nat) : State := (s.unbindSlot i).setSlot i {}

/-- Every slot is zeroed. -/
def State.zeroSlots : State := s.each s.slots.keys (fun s i => s.zeroSlot i)

/-- KEY_W and SALT_W are cleared (R382). -/
def State.clearKeyWords : State :=
  let s := s.each (List.range 8) (fun s i => s.setWord .msec (Msec.KEY_W_KEY i).off 0)
  s.each (List.range 3) (fun s i => s.setWord .msec (Msec.SALT_W_SALT i).off 0)

/-- KEY_CTRL.LOAD (R382). -/
def State.keyLoad : State :=
  let aes256 := s.flag .msec Msec.KEY_CTRL_AES256
  let key := (List.range (if aes256 then 8 else 4)).flatMap (fun i => leBytes 4 (s.fld .msec (Msec.KEY_W_KEY i)))
  let salt := (List.range 3).flatMap (fun i => leBytes 4 (s.fld .msec (Msec.SALT_W_SALT i)))
  (s.loadSlot (s.fld .msec Msec.KEY_SEL_SLOT)
    { key, salt, bind := s.fld .msec Msec.KEY_CTRL_BIND, page := s.fld .msec Msec.KEY_CTRL_PAGE, aes256
      gcm := s.wide .msec (Msec.KEY_GCM_COUNT 0) (Msec.KEY_GCM_COUNT 1)
      cmac := s.wide .msec (Msec.KEY_CMAC_COUNT 0) (Msec.KEY_CMAC_COUNT 1) }).clearKeyWords

/-- KEY_CTRL.ZERO (R367). -/
def State.keyZero : State := (s.zeroSlot (s.fld .msec Msec.KEY_SEL_SLOT)).clearKeyWords

/-- The key store re-masks each slot: the shares change and the keys do not (R365). -/
def State.remask : State :=
  if s.islandCond 7 = 2 then
    s.each s.slots.keys (fun s i =>
      let (m, s) := s.drawBytes 32
      let k := s.slot i
      s.setSlot i { k with share := m.take k.key.length })
  else s

/-- A word of table SLOT_INFO (R383). -/
def State.slotInfo (i k : Nat) : Nat :=
  let x := s.slot i
  match k with
  | 0 => x.bind + x.page * 256 + b2n x.aes256 * 2 ^ 16 + b2n x.loaded * 2 ^ 31
  | 1 => x.gcm % 2 ^ 32
  | 2 => x.gcm / 2 ^ 32
  | 3 => x.cmac % 2 ^ 32
  | 4 => x.cmac / 2 ^ 32
  | _ => 0

end

end Sys2Proof.Machine
end

