-- ==== Sys2Proof/Machine/Security.lean ====
section
/-! DEFINITION. Signet's key commands, the life cycle, tamper sensors, tokens and debug, OTP (R368, R369, R444–R454). -/
namespace Sys2Proof.Machine

/-- The key derivation of IEEE 802.1X-2020, `n` bytes (R368): label and context are bytes, the length is given in bits. -/
def kdf8021x (key label ctx : List Byte) (n : Nat) : List Byte :=
  ((List.range ((n + 15) / 16)).flatMap (fun i =>
    aesCmac key (beBytes 1 (i + 1) ++ label ++ [0] ++ ctx ++ beBytes 2 (8 * n)))).take n

/-- One step of the key wrap of RFC 3394: A, and the blocks R in order. -/
def wrapStep (kek : List Byte) (n j : Nat) (ar : Nat × List Nat) (i : Nat) : Nat × List Nat :=
  let b := beNat (aesBlock kek (beBytes 8 ar.1 ++ beBytes 8 (ar.2.getD i 0)))
  (b / 2 ^ 64 ^^^ (n * j + i + 1), ar.2.set i (b % 2 ^ 64))

/-- The key wrap of RFC 3394. -/
def keyWrap (kek plain : List Byte) : List Byte :=
  let n := plain.length / 8
  let r := (List.range n).map (fun i => beAt plain (8 * i) 8)
  let (a, r) := (List.range 6).foldl (fun ar j => (List.range n).foldl (wrapStep kek n j) ar) (0xA6A6A6A6A6A6A6A6, r)
  beBytes 8 a ++ r.flatMap (beBytes 8)

/-- One step of the unwrap. -/
def unwrapStep (kek : List Byte) (n j : Nat) (ar : Nat × List Nat) (i : Nat) : Nat × List Nat :=
  let x := beBytes 8 (ar.1 ^^^ (n * j + i + 1)) ++ beBytes 8 (ar.2.getD i 0)
  let b := beNat (aesInvBlock kek x)
  (b / 2 ^ 64, ar.2.set i (b % 2 ^ 64))

/-- The unwrap of RFC 3394, or none where its check fails. -/
def keyUnwrap (kek l : List Byte) : Option (List Byte) :=
  let n := l.length / 8 - 1
  let r := (List.range n).map (fun i => beAt l (8 + 8 * i) 8)
  let (a, r) := (List.range 6).reverse.foldl (fun ar j => (List.range n).reverse.foldl (unwrapStep kek n j) ar) (beAt l 0 8, r)
  if a = 0xA6A6A6A6A6A6A6A6 then some (r.flatMap (beBytes 8)) else none

section
variable (s : State)

/-- What Signet keeps, changed by `f`. -/
def State.mapSec (f : Sec → Sec) : State := { s with sec := f s.sec }

/-! ## OTP (R444, R448) -/

/-- LC transition fuse `k` reads 1 by majority. -/
def State.lcFuse (k : Nat) : Bool := decide (2 ≤ s.fuseCount (80 + 3 * k) 3)

/-- The life-cycle state: 0 RAW, 1 TEST, 2 PROVISION, 3 DEPLOYED, 4 RMA, 5 SCRAP. -/
def State.lc : Nat := min 5 ((List.range 6).filter s.lcFuse).length

/-- STORE_EPOCH; SEC_VERSION. -/
def State.epoch : Nat := s.fuseCount 200 32
def State.secVersion : Nat := s.fuseCount 128 64

/-- First fuse of a key: 0–3 ROOT, 4 DEBUG, 5 OWNER; its 96 bytes; whether it is present and not revoked. -/
def keyFuse (k : Nat) : Nat := if k < 4 then 256 + 768 * k else if k = 4 then 3328 else 4096
def State.pubKey (k : Nat) : List Byte := (List.range 96).map (fun i => BitVec.ofNat 8 (s.fuses (keyFuse k + 8 * i) 8))
def State.keyPresent (k : Nat) : Bool := decide (0 < s.fuseCount (keyFuse k) 768)
def State.keyUsable (k : Nat) : Bool := s.keyPresent k && (decide (4 ≤ k) || !s.fuse (192 + k))
def State.huk : List Byte := (List.range 32).map (fun i => BitVec.ofNat 8 (s.fuses (5120 + 8 * i) 8))

/-- A fuse may be programmed by request in this life-cycle state (R444). LC, STORE_EPOCH and HUK have their own procedures. -/
def State.fuseAllowed (i : Nat) : Bool :=
  let st := s.lc
  let within (lo hi : Nat) : Bool := decide (lo ≤ i ∧ i ≤ hi)
  ((within 0 55 || within 64 79 || within 112 122) && st == 0) ||
  ((within 128 191 || within 192 195) && st != 5) ||
  (within 256 3327 && decide (st ≤ 1)) ||
  ((within 3328 4095 || within 4096 4863) && st == 2)

/-- PROG_CTRL.GO (R444). -/
def State.otpProgram (src : Src) : State :=
  let i := s.fld .otp Otp.PROG_ADDR_BIT
  if s.fuseAllowed i ∧ !s.fuse i then (s.blow i).setFld .otp Otp.PROG_STATUS_FAIL 0
  else (s.setFld .otp Otp.PROG_STATUS_FAIL 1).refuse src .otp 0x20 Otp.PROG_CTRL_GO.off

/-- A word of the OTP page that shows fuses; none for the others (R467). -/
def State.otpWord (off : Nat) : Option Nat :=
  match off with
  | 0x100 => some (s.fuses 0 32)
  | 0x104 => some (s.fuses 32 24)
  | 0x108 => some (s.fuses 64 16)
  | 0x10C => some s.lc
  | 0x110 => some s.secVersion
  | 0x114 => some ((List.range 4).foldl (fun w k => w + b2n (s.keyPresent k) * 2 ^ k) 0 + 16 * s.fuses 192 4 +
      256 * b2n (s.keyPresent 4) + 512 * b2n (s.keyPresent 5) + 65536 * s.epoch)
  | _ =>
    if 0x120 ≤ off ∧ off < 0x180 ∧ s.fld .otp Otp.KEY_SEL_KEY < 6 then
      some (leAt (s.pubKey (s.fld .otp Otp.KEY_SEL_KEY)) (off - 0x120) 4)
    else none

/-- HUK has been programmed. -/
def State.hukSet : Bool := decide (0 < s.fuseCount 5120 256)

/-- Signet programs HUK from TRNG, once, in PROVISION (R444). The model does it at a boot (DESIGN CHOICE, log entry 127). -/
def State.makeHuk : State :=
  if s.lc = 2 ∧ !s.hukSet then
    let (l, s) := s.drawBytes 32
    s.each (List.range 256) (fun s i => if (l.getD (i / 8) 0).toNat.testBit (i % 8) then s.blow (5120 + i) else s)
  else s

/-- STORE_EPOCH advances by one fuse, where one is left (R450). -/
def State.advanceEpoch : State :=
  match (List.range 32).find? (fun k => !s.fuse (200 + k)) with
  | none => s
  | some k => s.blow (200 + k)

/-! ## Wipes and restarts (R311, R449, R450, R454) -/

/-- Locket is wiped: its bytes, key ids, slot copies and the wake seal. -/
def State.wipeLocket : State :=
  let s := s.mapSec (fun x => { x with keys := [], copies := Sparse.empty, bound := [], wakeSeal := none })
  ({ s with mem := { s.mem with locket := Sparse.empty } }).setFld .lck Lck.WIPE_STATUS_LOCKET_WIPED 1

/-- Every key slot is zeroed by a wipe. -/
def State.wipeSlots : State := s.zeroSlots.setFld .lck Lck.WIPE_STATUS_SLOTS_ZEROED 1

/-- The TP restarts from the boot ROM (R311). -/
def State.tpRestart : State :=
  if s.signet then
    (s.tpLeaves.bump .tru Tru.CNT_TP_RESTARTS).raise .tru 9
  else s

/-- A tamper sensor trips (R450): the hardware's wipe first, then Signet's response. -/
def State.tamper (n : Nat) : State :=
  if (s.fld .lck Lck.TAMPER_EN_EN).testBit n ∧ n < 7 then
    let s := s.setFld .lck Lck.TAMPER_LATCH_TRIP (s.fld .lck Lck.TAMPER_LATCH_TRIP ||| 2 ^ n)
    let s := if n = 6 then s else ((s.wipeLocket.wipeSlots).bump .lck Lck.CNT_WIPES).raise .lck 9
    let s := if n < 5 then s.advanceEpoch else s
    let s := (s.bump .lck Lck.CNT_TAMPERS).raise .lck 8
    if n = 5 then (s.setFld .tru Tru.TP_STATUS_RUNNING 0).setTp 4
    else if n = 6 then (s.mapSec (fun x => { x with locked := true })).tpRestart
    else s.tpRestart
  else s

/-- A lockstep mismatch of the TP; the third within 1 s trips TP_REPEAT (R311, R450). -/
def State.tpMismatched (channel : Nat) : State :=
  if s.signet ∨ s.procs.tp = 2 then
    let t := s.tpMismatch channel
    let near := s.sec.mismatches.filter (fun x => decide (s.power.aonNs < x + 10 ^ 9))
    let t := t.mapSec (fun x => { x with mismatches := near ++ [s.power.aonNs] })
    if 2 ≤ near.length then t.tamper 5 else t
  else s

/-- The TOKEN sensor counts a failure: the eighth since reset trips it (R450). -/
def State.tokenFailed : State :=
  let s := s.mapSec (fun x => { x with tokenFails := x.tokenFails + 1 })
  if s.sec.tokenFails = 8 then s.tamper 6 else s

/-! ## Answers (R319, R368, R447) -/

def State.ansOk (slot : Nat) (rsp : List Byte) : State := s.mbxDone slot 0 rsp
def State.ansBadArg (slot : Nat) : State := s.mbxDone slot 2 []
def State.ansReason (slot r : Nat) : State := s.mbxDone slot 2 [BitVec.ofNat 8 r]
def State.ansDenied (slot : Nat) : State := s.mbxDone slot 3 []

/-- Key commands are answered with DENIED once debug has been opened, until a reset (R454). -/
def State.keysShut : Bool := s.sec.shut

/-- A key command of R368 from an MP slot. -/
def State.mkaServe (slot : Nat) (act : State) : State := if slot = 0 ∨ s.keysShut then s.ansDenied slot else act

/-- A command of chapter 19 from a slot of UPDATE_SLOTS, outside SCRAP (R447). -/
def State.updServe (slot : Nat) (act : State) : State :=
  if s.lc ≠ 5 ∧ (s.sec.recovery ∨ s.sec.updateSlots.testBit slot) then act else s.ansDenied slot

/-- A key command of R447. -/
def State.keyServe (slot : Nat) (act : State) : State := s.updServe slot (if s.keysShut then s.ansDenied slot else act)

/-! ## The key store (R445–R447) -/

/-- The record of a key id. -/
def State.keyRec (id : Nat) : Option KeyRec := s.sec.keys.find? (fun k => k.id == id)

/-- Bytes written to flash. -/
def State.putFlash (a : Nat) (l : List Byte) : State := { s with mem := { s.mem with flash := s.mem.flash.putBytes a l } }

/-! The sealed store is two copies of 256 KiB in flash (R446, R455). The layout of a copy is a DESIGN CHOICE (log entry 127): magic, sequence number,
epoch and number of key ids, 4 bytes each; the tag; from byte 32 the ciphertext of 54 bytes a key id. -/

/-- A key id as it is sealed. -/
def KeyRec.bytes (k : KeyRec) : List Byte :=
  leBytes 4 k.id ++ leBytes 1 k.usage ++ leBytes 1 k.key.length ++ (k.key ++ List.replicate 32 0).take 32 ++ leBytes 8 k.gcm ++ leBytes 8 k.cmac

/-- A key id from its sealed bytes. -/
def keyOfBytes (l : List Byte) : KeyRec :=
  { id := leAt l 0 4, usage := byteAt l 4, key := (l.drop 6).take (byteAt l 5), gcm := leAt l 38 8, cmac := leAt l 46 8 }

/-- Flash address of a copy; its head, its tag and its ciphertext; the numbers of its head. -/
def sealBase (c : Nat) : Nat := 0x20000 + 0x40000 * c
def State.sealNum (c i : Nat) : Nat := s.mem.flash.num (sealBase c + 4 * i) 4
def State.sealHead (c : Nat) : List Byte := s.mem.flash.bytes (sealBase c) 16
def State.sealTag (c : Nat) : List Byte := s.mem.flash.bytes (sealBase c + 16) 16
def State.sealText (c : Nat) : List Byte := s.mem.flash.bytes (sealBase c + 32) (54 * s.sealNum c 3)

/-- The key of the store, derived from HUK and the present epoch (R446). -/
def State.sealKey : List Byte := (List.range 32).map (Config.hukKey s.huk (2 + s.epoch))

/-- A copy can be opened: it was sealed under the present key, and its tag is right. -/
def State.sealOpens (c : Nat) : Bool :=
  s.sealNum c 0 == 0x4B565353 && s.sealNum c 2 == s.epoch && decide (s.sealNum c 3 ≤ 2048) &&
    gcmTag s.sealKey (beBytes 12 (s.sealNum c 1)) (s.sealHead c) (s.sealText c) == s.sealTag c

/-- One more than the sequence number of a copy that can be opened, 0 for another. -/
def State.sealRank (c : Nat) : Nat := if s.sealOpens c then s.sealNum c 1 + 1 else 0

/-- The key ids that a copy holds. -/
def State.sealKeys (c : Nat) : List KeyRec :=
  let l := gcmCrypt s.sealKey (beBytes 12 (s.sealNum c 1)) (s.sealText c)
  (List.range (s.sealNum c 3)).map (fun i => keyOfBytes ((l.drop (54 * i)).take 54))

/-- The bytes of a copy of Locket's key ids with a sequence number. -/
def State.sealBytes (seq : Nat) : List Byte :=
  let head := leBytes 4 0x4B565353 ++ leBytes 4 seq ++ leBytes 4 s.epoch ++ leBytes 4 s.sec.keys.length
  let iv := beBytes 12 (seq % 2 ^ 32)
  let text := gcmCrypt s.sealKey iv (s.sec.keys.flatMap KeyRec.bytes)
  head ++ gcmTag s.sealKey iv head text ++ text

/-- Signet rewrites the sealed store: the copy with the lower sequence number, while an epoch fuse is left (R446, R450). -/
def State.sealStore : State :=
  if s.epoch = 32 then s
  else s.putFlash (sealBase (if s.sealRank 0 ≤ s.sealRank 1 then 0 else 1)) (s.sealBytes (max (s.sealRank 0) (s.sealRank 1)))

/-- A key id is stored, in place of one with the same number. -/
def State.keyStore (k : KeyRec) : State :=
  (s.mapSec (fun x => { x with keys := x.keys.filter (fun y => y.id != k.id) ++ [k] })).sealStore

/-- KEY_PUT and KEY_PUT_WRAPPED store a key where their checks pass (R445, R447, R450). -/
def State.keyPutChecked (slot id usage size : Nat) (key : Option (List Byte)) : State :=
  if s.epoch = 32 then s.ansDenied slot
  else if 2 < usage ∨ 1 < size ∨ (2048 ≤ s.sec.keys.length ∧ s.keyRec id = none) then s.ansBadArg slot
  else match key with
    | none => s.ansBadArg slot
    | some k => (s.keyStore { id, usage, key := k }).ansOk slot []

def State.keyPut (slot : Nat) : State :=
  let a := s.mbxArg slot
  s.keyServe slot (
    if s.lc ≠ 2 then s.ansDenied slot
    else s.keyPutChecked slot (leAt a 0 4) (byteAt a 4) (byteAt a 5)
      (some ((a.drop 8 ++ List.replicate 32 0).take (if byteAt a 5 = 0 then 16 else 32))))

def State.keyPutWrapped (slot : Nat) : State :=
  let a := s.mbxArg slot
  let n := if byteAt a 5 = 0 then 24 else 40
  s.keyServe slot (
    if s.lc ≠ 2 ∧ s.lc ≠ 3 then s.ansDenied slot
    else match s.keyRec (leAt a 8 4) with
      | none => s.ansBadArg slot
      | some t =>
        if t.usage ≠ 2 ∨ a.length < 12 + n then s.ansBadArg slot
        else s.keyPutChecked slot (leAt a 0 4) (byteAt a 4) (byteAt a 5) (keyUnwrap t.key ((a.drop 12).take n)))

def State.keyDelete (slot : Nat) : State :=
  let id := leAt (s.mbxArg slot) 0 4
  s.keyServe slot (
    if s.lc ≠ 2 ∧ s.lc ≠ 3 then s.ansDenied slot
    else if s.keyRec id = none then s.ansBadArg slot
    else if s.sec.bound.any (fun b => b.2 == id && (s.slot b.1).loaded) then s.ansDenied slot
    else ((s.mapSec (fun x => { x with keys := x.keys.filter (fun y => y.id != id) })).sealStore).ansOk slot [])

/-! ## Slots loaded and freed by Signet (R368, R369) -/

/-- The lowest free slot. -/
def State.freeSlot : Option Nat := (List.range 1024).find? (fun i => (s.slot i).bind == 0)

/-- Signet loads a slot, and keeps its copy in Locket. -/
def State.signetLoad (i : Nat) (k : Slot) : State :=
  let s := s.loadSlot i k
  s.mapSec (fun x => { x with copies := x.copies.set i { k with loaded := true }, bound := x.bound.filter (fun b => b.1 != i) })

/-- Signet zeroes a slot. -/
def State.signetZero (i : Nat) : State :=
  (s.zeroSlot i).mapSec (fun x => { x with copies := x.copies.set i {}, bound := x.bound.filter (fun b => b.1 != i) })

/-- The counts of the slots bound from key ids are read back into Locket (R369): what a slot has counted since it was read last adds to its key id,
so that the key's counts go on whatever pages it is bound to. -/
def State.readCounts : State :=
  s.each s.sec.bound (fun s b =>
    let k := s.slot b.1
    let o := s.sec.copies.get b.1
    if k.loaded then
      s.mapSec (fun x => { x with
        keys := x.keys.map (fun r => if r.id = b.2 then { r with gcm := r.gcm + (k.gcm - o.gcm), cmac := r.cmac + (k.cmac - o.cmac) } else r)
        copies := x.copies.set b.1 { k with share := [] } })
    else s)

/-- Every 10 s while keys are bound (R369, R446). -/
def State.keyCountSync : State := if s.signet ∧ !s.sec.bound.isEmpty then s.readCounts.sealStore else s

/-- A mailbox slot's class owns a cipher page (R368). -/
def State.slotOwnsCip (slot page : Nat) : Bool := s.ownerClass (.cip page) == 3 || s.ownerClass (.cip page) == slotClass slot

/-- The slot bound to a page is freed, its counts read back first. -/
def State.cupFree (page : Nat) : State :=
  if s.flag (.cip page) Cip.KEY_BIND_BOUND then s.readCounts.signetZero (s.fld (.cip page) Cip.KEY_BIND_SLOT) else s

def State.cupBind (slot : Nat) : State :=
  let a := s.mbxArg slot
  let page := byteAt a 0
  let id := leAt a 1 4
  if 64 ≤ page then s.ansBadArg slot
  else if s.keysShut ∨ !s.slotOwnsCip slot page then s.ansDenied slot
  else match s.keyRec id with
    | none => s.ansBadArg slot
    | some _ =>
      let s := s.cupFree page
      match s.keyRec id, s.freeSlot with
      | some r, some i =>
        if r.usage ≠ 1 then s.ansBadArg slot
        else
          let s := s.signetLoad i { key := r.key, bind := 2, page, aes256 := r.key.length == 32, gcm := r.gcm, cmac := r.cmac }
          (s.mapSec (fun x => { x with bound := x.bound ++ [(i, id)] })).ansOk slot (leBytes 2 i)
      | _, _ => s.ansBadArg slot

def State.cupUnbind (slot : Nat) : State :=
  let page := byteAt (s.mbxArg slot) 0
  if 64 ≤ page then s.ansBadArg slot
  else if s.keysShut ∨ !s.slotOwnsCip slot page then s.ansDenied slot
  else (s.cupFree page).ansOk slot []

/-! ## MACsec keys (R368) -/

/-- The handle of a number. -/
def State.mka (h : Nat) : Option MkaHandle := s.sec.handles.find? (fun x => x.handle == h)

/-- The first free handle from the next one on; none where each of the 65 536 is in use (log entry 127). -/
def freeHandle (l : List MkaHandle) (next : Nat) : Option Nat :=
  ((List.range (min 65536 (l.length + 1))).map (fun k => (next + k) % 65536)).find? (fun h => l.all (fun x => x.handle != h))

def State.mkaKeys (slot : Nat) : State :=
  let a := s.mbxArg slot
  let n := byteAt a 4
  let ckn := (a.drop 5).take n
  s.mkaServe slot (match s.keyRec (leAt a 0 4) with
    | none => s.ansBadArg slot
    | some r =>
      if r.usage ≠ 0 ∨ n = 0 ∨ 32 < n ∨ ckn.length < n then s.ansBadArg slot
      else
        let ctx := (ckn ++ List.replicate 16 0).take 16
        let label (t : List Nat) : List Byte := [0x49, 0x45, 0x45, 0x45, 0x38, 0x30, 0x32, 0x31, 0x20] ++ t.map (BitVec.ofNat 8)
        let rest := s.sec.handles.filter (fun y => y.ckn != ckn)
        match freeHandle rest s.sec.nextHandle with
        | none => s.ansBadArg slot
        | some h =>
        let m : MkaHandle := { handle := h, ckn, ick := kdf8021x r.key (label [0x49, 0x43, 0x4B]) ctx r.key.length
                               kek := kdf8021x r.key (label [0x4B, 0x45, 0x4B]) ctx r.key.length }
        (s.mapSec (fun x => { x with handles := rest ++ [m], nextHandle := (h + 1) % 65536 })).ansOk slot (leBytes 2 h))

def State.mkaIcv (slot : Nat) : State :=
  let a := s.mbxArg slot
  let off := leAt a 2 4
  let n := leAt a 6 2
  s.mkaServe slot (match s.mka (leAt a 0 2) with
    | none => s.ansBadArg slot
    | some m =>
      if n = 0 ∨ 1500 < n ∨ msramSize < off + n then s.ansBadArg slot
      else s.ansOk slot (aesCmac m.ick (s.mem.msram.bytes off n)))

/-- A SAK is loaded into a free slot for MACsec. -/
def State.sakLoad (slot suite : Nat) (sak salt : List Byte) (rsp : List Byte) : State :=
  match s.freeSlot with
  | none => s.ansBadArg slot
  | some i => (s.signetLoad i { key := sak, salt, bind := 1, aes256 := suite % 2 == 1 }).ansOk slot (leBytes 2 i ++ rsp)

def State.sakNew (slot : Nat) : State :=
  let a := s.mbxArg slot
  let suite := byteAt a 2
  s.mkaServe slot (match s.mka (leAt a 0 2) with
    | none => s.ansBadArg slot
    | some m =>
      if 3 < suite then s.ansBadArg slot
      else
        let (sak, s) := s.drawBytes (if suite % 2 = 1 then 32 else 16)
        s.sakLoad slot suite sak ((a.drop 3 ++ List.replicate 12 0).take 12) (keyWrap m.kek sak))

def State.sakInstall (slot : Nat) : State :=
  let a := s.mbxArg slot
  let suite := byteAt a 2
  let n := if suite % 2 = 1 then 40 else 24
  s.mkaServe slot (match s.mka (leAt a 0 2) with
    | none => s.ansBadArg slot
    | some m =>
      if 3 < suite ∨ a.length < 3 + n then s.ansBadArg slot
      else match keyUnwrap m.kek ((a.drop 3).take n) with
        | none => s.ansBadArg slot
        | some sak => s.sakLoad slot suite sak ((a.drop (3 + n) ++ List.replicate 12 0).take 12) [])

/-- A VALID SA entry names a slot. -/
def State.saNames (i : Nat) : Bool :=
  (List.range 128).any (fun e => s.tabF .msec 1 e 0 31 31 == 1 && s.tabF .msec 1 e 0 9 0 == i) ||
  (List.range 512).any (fun e => s.tabF .msec 3 e 0 31 31 == 1 && s.tabF .msec 3 e 0 9 0 == i)

def State.slotFree (slot : Nat) : State :=
  let i := leAt (s.mbxArg slot) 0 2
  s.mkaServe slot (
    if 1024 ≤ i ∨ (s.slot i).bind = 2 then s.ansBadArg slot
    else if s.saNames i then s.ansDenied slot
    else (s.signetZero i).ansOk slot [])

/-! ## Tokens (R449, R451–R454) -/

/-- A fresh nonce is drawn (R452). -/
def State.newNonce : List Byte × State :=
  let (l, s) := s.drawBytes 12
  (l, s.mapSec (fun x => { x with nonce := some l }))

/-- A token for a purpose under a key is valid (R453). -/
def State.tokenOk (t : List Byte) (purpose key : Nat) : Bool :=
  byteAt t 0 == purpose && byteAt t 1 == key && s.keyUsable key && beAt t 4 8 == s.fuses 0 56 &&
    s.sec.nonce == some ((t.drop 12).take 12) && ecdsaP384 (s.pubKey key) (sha384 (t.take 24)) ((t.drop 24).take 96)

/-- The nonce has been used. -/
def State.useNonce : State := s.mapSec (fun x => { x with nonce := none })

def State.lcChallenge (slot : Nat) : State :=
  s.updServe slot (let (l, s) := s.newNonce; s.ansOk slot l)

/-- The token lets the life cycle go from its state to a target (R449). -/
def State.lcAllowed (t : List Byte) (goal : Nat) : Bool :=
  let key := byteAt t 1
  match s.lc, goal with
  | 0, 1 => s.tokenOk t 1 0
  | 1, 2 => decide (key < 4) && s.tokenOk t 2 key
  | 2, 3 => s.tokenOk t 3 5
  | 3, 4 => decide (key < 4) && s.tokenOk t 4 key
  | 0, 5 => true
  | 1, 5 => true
  | 2, 5 => s.tokenOk t 5 5
  | 3, 5 => decide (key < 4) && s.tokenOk t 5 key
  | 4, 5 => decide (key < 4) && s.tokenOk t 5 key
  | _, _ => false

/-- LC_TRANSITION (R449, R452). Answers whether the device reset follows. A token that is valid for DEPLOYED while HUK is not programmed is no token that
fails: it is DENIED alone (log entry 127). -/
def State.lcTransition (slot : Nat) : Bool × State :=
  let t := s.mbxArg slot
  let goal := byteAt t 0
  if !(s.sec.updateSlots.testBit slot && s.lc != 5) || s.sec.locked then (false, s.ansDenied slot)
  else if t.length = 120 ∧ s.lcAllowed t goal then
    if s.lc = 2 ∧ goal = 3 ∧ !s.hukSet then (false, s.useNonce.ansDenied slot)
    else
    let from' := s.lc
    let s := s.useNonce
    let fuses := if goal = 5 then 6 else goal
    let s := s.each (List.range (3 * fuses)) (fun s k => s.blow (80 + k))
    let s := if from' = 2 ∧ goal = 3 then s else s.wipeLocket
    let s := if goal = 4 ∨ goal = 5 then s.wipeSlots.advanceEpoch else s
    (true, s.ansOk slot [])
  else (false, (((s.useNonce).bump .lck Lck.CNT_LC_FAILS).ansDenied slot).tokenFailed)

/-- A write to a register of DBG that R454 opens to the host and the debug port while debug is closed. -/
def State.guardOpen (src : Src) (off : Nat) (act : State → State) : State :=
  s.arrives src (fun s =>
    if !s.pageOn .dbg then s.logErr .sys 3 src.code (Page.dbg.base + off)
    else if (s.fld .dbg Dbg.STATE_ST = 0 ∧ (src = .host ∨ src = .dbg)) ∨ s.owns src .dbg then act s
    else s.notOwner src .dbg (Page.dbg.base + off))

/-- CHAL_REQ (R452). -/
def State.chalReq : State := if s.signet then s.newNonce.2 else s

/-- The token of TOKEN_W. -/
def State.dbgToken : List Byte := (List.range 30).flatMap (fun i => leBytes 4 (s.fld .dbg (Dbg.TOKEN_W_TOKEN i)))

end

end Sys2Proof.Machine
end

