-- ==== Sys2Proof/Machine/Commit.lean ====
section
/-! DEFINITION. How accepted shadow values take effect: shadow views and active views, what a page does when new values apply, and the
last boundary of a plan commit (R35–R37, R84, R112, R127, R132, R162, R169, R219, R270, R301). -/
namespace Sys2Proof.Machine

/-! ## Shadow views (R35) -/

/-- The tables behind TAB_DATA of a page that have a shadow view (R144, R173, R223, R272, R274, R359, R383). -/
def Page.shadowTables : Page → List Nat
  | .qsch => [0, 1, 2, 3] | .fab => [0, 1, 2] | .frer => [0] | .msec => [0] | .tsi => [0, 1] | .buf => [0] | .asy => [0]
  | _ => []

/-- The key of a table word lies in a shadowed table of the page. -/
def Page.shadowKey (p : Page) (k : Nat) : Bool := k / 4194304 == p.index && p.shadowTables.contains (k / 262144 % 16)

/-- The offsets of a page's registers that have shadowed fields, each with the mask of those fields. -/
def Page.shadowed (p : Page) : List (Nat × Nat) :=
  p.specs.flatMap (fun r => if r.shadow = 0 then [] else (List.range r.count).map (fun i => (r.off + r.stride * i, r.shadow)))

/-- A word with the masked bits of another. -/
def mixWord (old new : Word) (m : Nat) : Word := (old &&& ~~~ BitVec.ofNat 32 m) ||| (new &&& BitVec.ofNat 32 m)

section
variable (s : State)

/-- The shadow words of a page become active; the active words are copied into the shadow; the two change places. -/
def State.applyRegs (p : Page) : State :=
  s.each p.shadowed (fun s x => s.setWord p x.1 (mixWord (s.word p x.1) (s.word p (x.1 + 0x700)) x.2))
def State.keepRegs (p : Page) : State :=
  s.each p.shadowed (fun s x => s.setWord p (x.1 + 0x700) (mixWord (s.word p (x.1 + 0x700)) (s.word p x.1) x.2))
def State.swapRegs (p : Page) : State :=
  s.each p.shadowed (fun s x =>
    let a := s.word p x.1
    (s.setWord p x.1 (mixWord a (s.word p (x.1 + 0x700)) x.2)).setWord p (x.1 + 0x700) (mixWord 0 a x.2))

/-- The shadow words of a page's tables become active; the active words are copied into the shadow. -/
def State.applyTabs (p : Page) : State :=
  { s with tabs := (s.tabs.keep (fun k => !p.shadowKey k)).setAll (s.tabsShadow.cells.filter (fun c => p.shadowKey c.1)) }
def State.keepTabs (p : Page) : State :=
  { s with tabsShadow := (s.tabsShadow.keep (fun k => !p.shadowKey k)).setAll (s.tabs.cells.filter (fun c => p.shadowKey c.1)) }

/-- Some shadowed field of a page differs from its active value. -/
def State.differs (p : Page) : Bool :=
  p.shadowed.any (fun x => mixWord 0 (s.word p x.1) x.2 != mixWord 0 (s.word p (x.1 + 0x700)) x.2)

/-! ## The pool (R127, R132) -/

/-- SHARED_SIZE that the active values give. -/
def State.poolTarget : Nat := 130464 - reserveSum s.tabs.cells - s.hrTotal

/-- The ports that hold headroom. -/
def hrPorts : List Nat := List.range 32 ++ [37]

/-- SHARED_SIZE that the values of a list of pages give once they are active. -/
def State.poolOf (pages : List Page) : Nat :=
  let on (p : Page) : Bool := match p with | .etp _ => true | .buf => true | .clsp => true | _ => false
  let t := s.each (pages.filter on) (fun t p => (t.applyRegs p).applyTabs p)
  (t.each hrPorts State.setHeadroom).poolTarget

/-- A lowered SHARED_SIZE takes effect at a boundary of a commit that includes `pages` (R132). -/
def State.poolLower (pages : List Page) : State :=
  let n := s.poolOf pages
  if n < s.fld .buf Buf.POOL_SIZE_SHARED_SIZE then s.setFld .buf Buf.POOL_SIZE_SHARED_SIZE n else s

/-! ## What new values reset (R162, R169, R270) -/

/-- A meter's buckets are full, and it is not marked. -/
def State.meterReset (m : Nat) : State := s.mapMeter m (fun _ => { ct := s.cbs m, et := s.ebs m, last := s.now, marked := false })

/-- The shaper of a service node is reset: credit 0, or tokens full. -/
def State.nodeReset (n : Nat) : State :=
  s.mapSvc n (fun v => { v with credit := if s.shape n = 2 then (bucketSize (s.nBurst n) : Int) else 0, last := s.now })

/-- The tokens of a queue are full. -/
def State.queueReset (q : Nat) : State :=
  s.mapQueue q (fun x => { x with tokens := (bucketSize (s.qBurst q) : Int), last := s.now })

/-- The deficits of the nodes of a port's DWRR group are 0. R169's "group DC 0" is read so for a change of one SVC entry too, where R162 names the
node alone (DEDUCED, log entry 121). -/
def State.groupReset (p : Nat) : State := s.each (List.range 8) (fun s k => s.mapSvc (8 * p + k) (fun v => { v with deficit := 0 }))

/-- Keys of a page's tables whose word changed. -/
def changedKeys (p : Page) (old new : State) : List Nat :=
  ((old.tabs.cells ++ new.tabs.cells).map (fun c => c.1)).filter (fun k => k / 4194304 == p.index && old.tabs.get k != new.tabs.get k)

/-- The resets of QSCH for one changed word (R169). -/
def State.qschChanged (old : State) (k : Nat) : State :=
  let e := k / 32 % 8192
  let w := k % 32
  let diff (hi lo : Nat) : Bool := bitsOf (old.tabs.get k).toNat hi lo != bitsOf (s.tabs.get k).toNat hi lo
  match k / 262144 % 16 with
  | 0 =>
    if w = 0 then
      let s := s.mapQueue e (fun x => { x with deficit := 0 })
      if diff 5 0 then s.queueReset e else s
    else s.queueReset e
  | 1 => if w = 0 ∧ !(diff 1 0 || diff 15 8) then s else (s.nodeReset e).groupReset (e / 8)
  | 2 =>
    if w = 3 then s
    else (s.mapPortNode e (fun v => { v with tokens := (bucketSize (s.tabF .qsch 2 e 2 23 0) : Int), last := s.now })).groupReset e
  | 3 => s.meterReset e
  | _ => s

/-- A changed entry of FUNC_CFG resets its function (R270). -/
def State.frerChanged (k : Nat) : State :=
  s.mapFrer (k / 32 % 8192) (fun x => { x with takeAny := true, hist := 0, passed := 0, discarded := 0 })

/-! ## Lanes of the cipher (R363) -/

/-- Lanes of one protected direction of a port, at frequency step `k` of CIP. -/
def State.lanesOf (p k : Nat) : Nat :=
  ceilDiv (modeKbps (s.fld (.etp p) Etp.MODE_MODE) / 1000 * 4 * (if s.suite256 p then 15 else 11) * 100) (128 * 1250 * (100 - k))

/-- The lanes that MACsec needs: one allotment per protected direction of every port. -/
def State.lanesSum : Nat :=
  (List.range 32).foldl (fun n p =>
    n + (b2n (s.txProtected p) + b2n (s.rxProtected p)) * s.lanesOf p (s.fld .clk (Clk.ISL_F_K 7))) 0

/-! ## Values apply (R36) -/

/-- What a page does when its new values have become active; `old` is the state before. -/
def State.applied (old : State) (p : Page) : State :=
  match p with
  | .etp n =>
    let s := if n < 32 ∧ old.fld p Etp.MODE_MODE ≠ s.fld p Etp.MODE_MODE then
        let s := s.each (List.range 8) (fun s k => if s.shape (8 * n + k) = 1 then s.mapSvc (8 * n + k) (fun v => { v with credit := 0 }) else s)
        if s.fld p Etp.MODE_MODE = 0 then s else s.setFld p Etp.LINK_STATUS_SPEED_MISMATCH 0
      else s
    if n < 32 ∨ n = 37 then s.setHeadroom n else s
  | .clsp => (s.setHeadroom 37).gateMoves old
  | .buf =>
    if s.flag .buf Buf.LOUPE_CFG_EN ∧ !old.flag .buf Buf.LOUPE_CFG_EN then
      let (v, s) := s.loupeReload
      s.setFld .buf Buf.LOUPE_STATUS_COUNT v
    else s
  | .qsch => s.each (changedKeys .qsch old s) (fun s k => s.qschChanged old k)
  | .frer => s.each (changedKeys .frer old s) State.frerChanged
  | .tdm n => if old.crc4En n = s.crc4En n then s else s.crc4Changed n
  | .tsi =>
    s.each (changedKeys .tsi old s) (fun s k =>
      let i := k / 32 % 8192
      if k / 262144 % 16 = 0 then s.mapTxs i (fun _ => {})
      else s.mapRxs i (fun _ => {}))
  | _ => s

/-- The shadow values of a page become active. -/
def State.applyPage (p : Page) : State := ((s.applyRegs p).applyTabs p).applied s p

/-- The shadow values of a page become active, but for the registers that `regs` names and the bits that `tabs` names of its table words. -/
def State.applyPart (p : Page) (regs : Nat → Bool) (tabs : Nat → Nat) : State :=
  let t := (s.applyRegs p).applyTabs p
  let t := t.each (p.shadowed.filter (fun x => regs x.1)) (fun t x => t.setWord p x.1 (s.word p x.1))
  let t := t.each (changedKeys p s t) (fun t k => { t with tabs := t.tabs.set k (mixWord (t.tabs.get k) (s.tabs.get k) (tabs k)) })
  t.applied s p

/-! ## Frames in progress (R36, R169) -/

/-- A port is sending a frame, or receiving one. -/
def State.portBusy (p : Nat) : Bool := (s.egress p).sending.isSome || s.dp.rx.get p != 0

/-- A copy of a queue is in transmission. -/
def State.queueBusy (q : Nat) : Bool := s.dp.egress.cells.any (fun x => x.2.sending.any (fun c => c.queue == q))

/-- A shadowed register of a page governs a port or a bus on which a frame is in progress: the frame finishes under the old value (R36). -/
def State.regHeld (p : Page) (off : Nat) : Bool :=
  match p with
  | .etp n => s.portBusy n
  | .frer => decide (0x110 ≤ off) && (s.egress ((off - 0x110) / 4)).sending.isSome
  | .can n => (s.cans.get n).inTx.isSome
  | .lin n =>
    let c := s.lins.get n
    c.hdr.isSome || (c.next != 0 && decide (Lin.SCHED_CFG_SCHED_LEN.off ≤ off))
  | _ => false

/-- The bits of a table word that govern a queue or a port with a frame in progress (R36, R169). PORT of a queue, DEFQ of a node, and QFIRST and
QCOUNT of a port wait for none. -/
def State.tabHeld (p : Page) (k : Nat) : Nat :=
  let t := k / 262144 % 16
  let e := k / 32 % 8192
  let w := k % 32
  let all (held : Bool) : Nat := if held then 0xFFFFFFFF else 0
  match p, t with
  | .qsch, 0 => all (s.queueBusy e) &&& (if w = 0 then 0xFFFFFFC0 else 0xFFFFFFFF)
  | .qsch, 1 => all (s.egress (e / 8)).sending.isSome &&& (if w = 0 then 0x0000FFFF else 0xFFFFFFFF)
  | .qsch, 2 => all ((s.egress e).sending.isSome && w != 3)
  | .buf, 0 => all (s.queueBusy e)
  | .msec, 0 => all (s.portBusy e)
  | _, _ => 0

/-- A boundary of a page has come: everything that no frame in progress holds takes effect; in OFF all of it does (R36). -/
def State.applyFree (p : Page) : State := if s.st p = 0 then s.applyPage p else s.applyPart p (s.regHeld p) (s.tabHeld p)

/-- Nothing of a page's shadow waits to take effect. -/
def State.settled (p : Page) : Bool :=
  !s.differs p && (s.tabs.cells ++ s.tabsShadow.cells).all (fun c => !p.shadowKey c.1 || s.tabs.get c.1 == s.tabsShadow.get c.1)

/-- The moves of queues to another port apply at once when their plan has passed (R152, R169). -/
def State.applyMoves : State :=
  s.applyPart .qsch (fun _ => true) (fun k => if k / 262144 % 16 = 0 ∧ k % 32 = 0 then 0xFFFFFFC0 else 0xFFFFFFFF)

/-! ## ACCEPTED (R37, R219) -/

/-- The generation of the active plan. -/
def State.planGen : Nat := s.fld .asy Asy.HALLMARK_GEN_GEN

/-- A page reports ACCEPTED under a generation. -/
def State.accept (p : Page) (gen : Nat) : State :=
  ((s.setFld p Hdr.COMMIT_STATUS_PENDING 0).setFld p Hdr.GEN_GEN gen).setStatus p 2 (gen % 65536)

/-- The Hallmark registers and the RESULT and NODE tables take the new plan's values (R219). -/
def State.hallmark (c : Plan) : State :=
  let s := ((((s.setFld .asy Asy.HALLMARK_GEN_GEN c.gen).setFld .asy Asy.HALLMARK_DIGEST_DIGEST c.digest).setFld .asy
    Asy.HALLMARK_PATHS_PATHS c.paths).setFld .asy Asy.HALLMARK_STREAMS_STREAMS c.streams).setFld .asy Asy.HALLMARK_TIME_NS s.ns32
  let stays (k : Nat) : Bool := k / 4194304 != Page.asy.index || k / 262144 % 16 == 0
  { s with tabs := (s.tabs.keep stays).setAll c.table }

/-- A plan commit that has passed and waits for no boundary ends: every page included reports ACCEPTED (R37, R112, R219). -/
def State.planDone : State :=
  match s.plan with
  | none => s
  | some c =>
    if c.passed ∧ c.waiting.isEmpty then
      let s := s.setFld .buf Buf.POOL_SIZE_SHARED_SIZE s.poolTarget
      let s := { s.hallmark c with plan := none }
      let s := s.each c.included (fun s p => s.accept p c.gen)
      let s := if c.prs then s.setStatus .prs 2 (c.gen % 65536) else s
      s.digestHold.raise .asy 8
    else s

/-- The boundary of a page of the plan has come. -/
def State.arrive (p : Page) : State :=
  { s with plan := s.plan.map (fun (c : Plan) => { c with waiting := c.waiting.filter (· != p) }) }.planDone

/-- The plan that has passed waits for a page. -/
def State.awaits (p : Page) : Bool := match s.plan with | some c => c.passed && c.waiting.contains p | none => false

/-- The pages of the plan in progress. -/
def State.planPages : List Page := match s.plan with | some c => c.included | none => []

/-- Every island runs at the step its K names (R481). -/
def State.glided : Bool := (List.range 14).all (fun i => s.fld .clk (Clk.ISL_F_K i) == s.fld .clk (Clk.ISL_F_KNOW i))

/-- A page of CAPS.TIMING = 0 applies what no frame in progress holds, and reports ACCEPTED when nothing waits. -/
def State.applyOwn (p : Page) : State :=
  let s := s.applyFree p
  if s.settled p then { s with applying := s.applying.filter (· != p) }.accept p s.planGen else s

/-- The boundary of a page's shadowed fields comes (R36): what a frame in progress holds waits for a later one, and the page has reached its boundary
when nothing waits. CLS, PRS and TGATE have boundaries of their own, and the pages of TDM apply at the
device frame start (R84, R112, R190, R352; chapter 15). CLK reports only when every period has reached its new value (R481). -/
def State.boundary (p : Page) : State :=
  match p with
  | .cls => s | .prs => s | .tgate _ => s | .tdm _ => s | .tsi => s
  | _ =>
    if s.applying.contains p then s.applyOwn p
    else if s.awaits p then
      let s := (s.poolLower s.planPages).applyFree p
      if !s.settled p ∨ (p = .clk ∧ !s.glided) then s else s.arrive p
    else s

/-- An island's period has reached its new value (R481). -/
def State.glideDone (i : Nat) : State :=
  if s.fld .clk (Clk.ISL_F_K i) = s.fld .clk (Clk.ISL_F_KNOW i) then s
  else
    let s := ((s.setFld .clk (Clk.ISL_F_KNOW i) (s.fld .clk (Clk.ISL_F_K i))).bump .clk Clk.CNT_F_STEPS).raise .clk 9
    if s.awaits .clk ∧ s.glided then s.arrive .clk else s

/-! ## The rule bank swap (R84, R112) -/

/-- ACTIVE flips, and the configuration of the standby bank becomes active on CLS and PRS. -/
def State.flipBank : State := (((s.setFld .cls Cls.BANK_STATUS_ACTIVE (1 - s.activeBank)).swapRegs .cls).swapRegs .prs)

/-- The swap of a plan of generation `gen`. -/
def State.bankSwap (gen : Nat) : State :=
  let prs := s.differs .prs || s.checking .prs
  let s := ((s.flipBank.bump .cls Cls.CNT_SWAPS).raise .cls 9).setFld .prs Hdr.COMMIT_STATUS_PENDING 0
  let s := s.setFld .prs Hdr.GEN_GEN gen
  { s with applying := s.applying.filter (· != .prs), plan := s.plan.map (fun (c : Plan) => { c with prs }) }

/-- RECIRC_CNT of a bank (R82). -/
def State.recircCount (b : Nat) : Nat := s.fld .prs (if b = 0 then Prs.RECIRC_CNT0_COUNT else Prs.RECIRC_CNT1_COUNT)

/-- 9 µs after a swap: unread RECIRC copies of the former bank are discarded (R82). -/
def State.recircExpire : State :=
  let b := 1 - s.activeBank
  let old := (s.copiesAt 36).filter (fun c => c.isRecirc && (s.frame c.frame).bank == b)
  s.each old (fun s c => ((s.discardCopy c).bump .prs Prs.CNT_RECIRC_EXPIRED).raise .prs 13)

/-- RECIRC_CNT of the former bank is 0: CLS has reached its boundary (R112). -/
def State.recircZero : State := if s.awaits .cls ∧ s.recircCount (1 - s.activeBank) = 0 then s.arrive .cls else s

end

/-! ## The commands -/

def execBoundaryApply (p : Page) (s : State) : Host.Outcome State Fault Refusal := .next (s.live (fun s => s.boundary p))
def execFrequencyGlideDone (i : Nat) (s : State) : Host.Outcome State Fault Refusal := .next (s.liveAon (fun s => s.glideDone i))
def execRecircExpiry (s : State) : Host.Outcome State Fault Refusal := .next (s.live (fun s => s.recircExpire))
def execRecircCountZero (s : State) : Host.Outcome State Fault Refusal := .next (s.live (fun s => s.recircZero))

end Sys2Proof.Machine
end

