-- ==== Sys2Proof/Machine/Control.lean ====
section
/-! DEFINITION. The state machine of a page: CTRL, draining, faults, block resets, and what a page does when its state changes
(R31–R34, R192, R510). -/
namespace Sys2Proof.Machine

section
variable (s : State)

/-! ## Work (R31) -/

/-- A frame in the store is discarded with its copies; a frame in reception stays as a mark, and what its pass was charged is returned (R168). A
second pass whose key has not entered the classifier leaves RECIRC_CNT (R82). -/
def State.discardHeld (i : Nat) : State :=
  let f := s.frame i
  let s := if f.ended then s else s.refund i
  let s := if f.pass = 1 ∧ (s.dp.windows.contains i ∨ s.dp.keys.any (fun r => r.frame == i)) then s.recircLeave f.bank else s
  let s := s.stompCopies i
  let s := s.each (s.copiesOf i) State.discardCopy
  let s := s.mapDp (fun d => { d with
    windows := d.windows.filter (· != i), keys := d.keys.filter (fun r => r.frame != i)
    results := d.results.filter (fun r => r.frame != i), admits := d.admits.filter (fun r => r.frame != i) })
  s.freeFrame i

/-- Frames the store holds. -/
def State.framesHeld : List Nat := (s.dp.frames.cells.filter (fun c => !c.2.gone)).map (fun c => c.1)

/-- Every copy that waits in a queue. -/
def State.copiesAll : List Copy := s.dp.queues.cells.flatMap (fun c => c.2.copies)

/-- Control frames that CLSP holds. -/
def State.ctlWork : Nat := s.clasp.ctl.cells.foldl (fun n c => n + c.2.sent.length + c.2.wait.length) 0

/-- A check of the Assayer is under way, and its verdict has not come (R218). -/
def State.checkOpen : Bool := match s.plan with | some p => !p.passed | none => false

/-- The check under way stops; the included pages go to IDLE and keep their shadow views (R37). -/
def State.stopCheck : State :=
  match s.plan with
  | none => s
  | some p =>
    let s := s.each p.included (fun s q => s.setStatus q 0 0)
    { s with plan := none }

/-- Ports whose frame in reception is inside the cipher; ports whose copy in transmission is (R376). -/
def State.cipherIn : List Nat := (List.range 32).filter (fun p => (s.frame (s.dp.rx.get p)).secured && !(s.frame (s.dp.rx.get p)).gone)
def State.cipherOut : List Nat :=
  (List.range 32).filter (fun p => !(s.egress p).lost && match (s.egress p).sending with | some c => c.pn.isSome | none => false)

/-- Frames received at a port, or made for it, whose parse window waits at the parser; a frame in reception is counted by itself. -/
def State.windowsAt (n : Nat) : List Nat := s.dp.windows.filter (fun i => (s.frame i).current == n && i != s.dp.rx.get n)

/-- Copies that port 34 or 35 has sent and the unit behind it has not taken. -/
def State.handedOver (n : Nat) : Nat := match n with | 34 => s.dp.busIn.length | 35 => s.dp.tdmIn.length | _ => 0

/-- The frame in reception at a port is discarded; the table writes that waited for its end are performed (R373). -/
def State.discardRx (n : Nat) : State :=
  let i := s.dp.rx.get n
  if i = 0 then s
  else (((s.discardHeld i).setFrame i {}).mapDp (fun d => { d with rx := d.rx.set n 0 })).saSettle n

/-- What ports 34 and 35 have sent and their units have not taken is discarded. -/
def State.discardHanded (n : Nat) : State :=
  s.mapDp (fun d => { d with busIn := if n = 34 then [] else d.busIn, tdmIn := if n = 35 then [] else d.tdmIn })

/-- Units of work a page holds, in the unit its chapter names. The parser holds the frames whose key it has not handed over, the classifier
the keys whose result is not at the policer; what waits at an input of a block is no work of it (R33). A port holds its copies, the frame in
reception, the frames that it has not handed to the parser, and at ports 34 and 35 the copies not yet taken (DEDUCED, log entry 110). -/
def State.work (p : Page) : Nat :=
  match p with
  | .etp n => (s.copiesAt n).length + b2n (s.egress n).sending.isSome + b2n (s.dp.rx.get n != 0) + (s.windowsAt n).length + s.handedOver n
  | .prs => s.dp.keys.length
  | .cls => s.dp.results.length
  | .buf => s.framesHeld.length
  | .qsch => s.copiesAll.length
  | .asy => b2n s.checkOpen
  | .clsp => s.ctlWork
  | .cip n => s.cipWork n
  | .msec => s.cipherIn.length + s.cipherOut.length
  | .can n => s.canWork n
  | .lin n => s.linWork n
  | .tsi => s.tsiWork
  | .brg => s.bridge.peerOpen.length + s.bridge.peerWait.length + s.bridge.hostOpen.length +
      s.bridge.hostWait.length
  | .dma => ((List.range 32).filter (fun c => s.chSt c == 2)).foldl (fun n c =>
      n + (s.fld .dma (Dma.TAIL_TAIL c) + s.chSize c - s.chHead c) % s.chSize c) 0
  | .tru => ((List.range 5).filter (fun k => s.mbxSt k == 1)).length
  | _ => 0

/-- A frame whose key waits for the classifier is discarded. -/
def State.dropKey (r : Pass) : State :=
  let s := if r.second then s.recircLeave (s.frame r.frame).bank else s
  s.freeFrame r.frame

/-- The work of a page is discarded. `lost` says that a forced power-down does it (R380, R430). -/
def State.discardWork (p : Page) (fault lost : Bool) : Nat × State :=
  let n := s.work p
  match p with
  | .etp k =>
    let s := s.each (s.copiesAt k) State.discardCopy
    let s := ((s.each (s.windowsAt k) State.discardHeld).discardRx k).discardHanded k
    (n, s.mapEgress k (fun e => if e.sending.isSome then { e with lost := true } else e))
  | .prs => (n, (s.each s.dp.keys State.dropKey).mapDp (fun d => { d with keys := [] }))
  | .cls => (n, (s.each (s.dp.results.map Pass.frame) State.freeFrame).mapDp (fun d => { d with results := [] }))
  | .buf => (n, s.each s.framesHeld State.discardHeld)
  | .qsch => (n, s.each s.copiesAll State.discardCopy)
  | .asy => (n, if s.checkOpen then s.stopCheck else s)
  | .clsp => (n, s.mapClasp (fun c => { c with ctl := ⟨[], trivial⟩ }))
  | .msec =>
    let s' := s.each (s.cipherIn.map s.dp.rx.get) (fun s i => (s.discardHeld i).bump .buf Buf.CNT_SCRUB_FRAMES)
    (n, s'.each s.cipherOut (fun s p => s.mapEgress p (fun e => { e with lost := true })))
  | .cip k => if fault then s.cipFault k lost else s.cipAbort k
  | .can k => (n, s.mapCan k (fun c => { seq := c.seq }))
  | .lin k => (n, s.mapLin k (fun c => { c with hdr := none }))
  | .tsi => (n, s.tsiDrop)
  | .brg => (n, s.peerOpenFail.hostOpenFail)
  | .dma => (n, s.each ((List.range 32).filter (fun c => s.chSt c == 2)) (fun s c => s.dmaAbort c 0 (0, 0)))
  | .ring => (n, s.hostCut)
  | .tru => (n, s.each ((List.range 5).filter (fun k => s.mbxSt k == 1)) (fun s k => s.setFld .tru (Tru.MBX_STATUS_ST k) 0))
  | _ => (n, s)

/-! ## The state of a page changes (R31) -/

/-- What a page does when its state has changed from `was` to `st`. -/
def State.entered (p : Page) (was st : Nat) : State :=
  let on (x : Nat) : Bool := x == 1 || x == 2
  match p with
  | .etp n =>
    if n = 37 then (if st = 0 then s.lanesOff else s) else if 32 ≤ n then s else if on st then s.linkOn n else if st = 0 then s.linkOff n else s
  | .clsp => if st = 1 ∧ !on was then s.clspEnter else if on st then s else s.clspLeave
  | .can n => if st = 1 then s.canEnter n else if st = 2 then s.canDrain n else if st = 0 then s.canStop n else s
  | .lin n => if st = 1 then s.linEnter n else if st = 0 then s.linStop n else s
  | .tdm n => if was = 1 then s.tdmStop n else s
  | .nm => if was = 1 then s.nmStop else s
  | .dma => if st = 1 then s.dmaWakes else s
  | .tru => if st = 1 ∨ st = 0 then s.takeRung else s
  | _ => s

/-- A page goes to a state. -/
def State.goSt (p : Page) (st : Nat) : State :=
  if s.st p = st then s else (s.setSt p st).entered p (s.st p) st

/-- A page reaches QUIET, or at once HALTED where FREEZE is stored (R31, R32). -/
def State.goQuiet (p : Page) : State :=
  let s := s.goSt p 3
  if s.flag p Hdr.CTRL_FREEZE then s.goSt p 4 else s

/-- The page's DRAIN_LIMIT timer starts or stops. -/
def State.drainTime (p : Page) (on : Bool) : State := { s with drainTimer := s.drainTimer.set p.index on }

/-- All work of a draining page is finished (R31). -/
def State.workDone (p : Page) : State :=
  let s := s.drainTime p false
  if s.flag p Hdr.CTRL_EN then s.goQuiet p else s.goSt p 0

/-- DRAIN_LIMIT expires (R31, R41). -/
def State.drainExpires (p : Page) : State :=
  let (n, s) := s.discardWork p false false
  (((s.drainTime p false).addDiscard p n).logErr p 2 srcDevice).goSt p 0

/-- The page passes from DRAINING to QUIET or OFF without delay (R192, R230, chapter 11). -/
def Page.instant : Page → Bool
  | .tgate _ => true | .time => true | .fab => true | _ => false

/-- A page in DRAINING: one that holds no work of its own passes on; a limit of 0 discards at once (R29, R31). -/
def State.drainOn (p : Page) : State :=
  if p.instant then s.workDone p
  else if s.drainTimer.get p.index ∧ s.fld p Hdr.DRAIN_LIMIT_LIMIT = 0 then
    (if s.work p = 0 then s.workDone p else s.drainExpires p)
  else s

/-- WORK_FINISHED: a page in DRAINING that holds no work (R31). TDM pages pass on at the next device frame start (chapter 15). -/
def State.workFinished (p : Page) : State :=
  match p with
  | .tdm _ => s
  | _ => if s.st p = 2 ∧ s.work p = 0 then s.workDone p else s

/-- The device frame start ends the draining of the TDM pages (chapter 15). -/
def State.tdmDrained : State :=
  s.each (List.range 16) (fun s n => if s.st (.tdm n) = 2 then s.workDone (.tdm n) else s)

/-- DRAIN_LIMIT_EXPIRY: the timer runs (R31). -/
def State.drainLimit (p : Page) : State :=
  if s.st p = 2 ∧ s.drainTimer.get p.index then (if s.work p = 0 then s.workDone p else s.drainExpires p) else s

/-- An uncorrectable internal error of a page (R31). -/
def State.fault (p : Page) (code : Nat) (lost : Bool := false) (addr : Nat := 0) : State :=
  let (n, s) := s.discardWork p true lost
  let s := ((s.drainTime p false).addDiscard p n).logErr p code srcDevice addr
  (s.setFld p Hdr.STATE_FCODE code).goSt p 5

/-! ## Block reset (R31, R82, R226, R230, R510) -/

/-- Bits of a register of the active view that a block reset keeps. OWNER is kept (R31), the bank selections and the fields of a rule
bank (R510), RECIRC_CNT (R82), the state of the MDIO masters and of the frames queued at them (R54, R60), of processors, of the TP and of the key
store that a page only shows, what AON keeps (R450, R507), TAMPER_EN and the locks of the code regions (R450, R459). -/
def Page.keptBits (p : Page) (off : Nat) : Nat :=
  if off = Hdr.OWNER_CLASS.off then 2 ^ 32 - 1
  else match p with
    | .cls => p.shadowBits off ||| (if off = Cls.BANK_STATUS_ACTIVE.off then 1 else 0)
    | .prs => p.shadowBits off ||| (if off = Prs.RECIRC_CNT0_COUNT.off ∨ off = Prs.RECIRC_CNT1_COUNT.off then 2 ^ 32 - 1 else 0)
    | .tgate _ => if off = Tgate.LIST_STATUS_ACTIVE.off then 1 else 0
    | .tsi => if off = Tsi.TSI_STATUS_ACTIVE.off then 1 else 0
    | .sys =>
      if off = Sys.RST_CAUSE_LEVEL.off then 2 ^ 32 - 1
      else if off = (Sys.MDIO_CFG_BUSY 0).off ∨ off = (Sys.MDIO_CFG_BUSY 1).off then 2 ^ 16
      else 0
    | .etp n => if n < 32 ∧ off = Etp.MDIO_CMD_BUSY.off then 2 ^ 8 else 0
    | .lck =>
      if off = Lck.TAMPER_LATCH_TRIP.off ∨ off = Lck.TAMPER_EN_EN.off ∨ off = (Lck.CODE_LOCK_LOCKED 0).off ∨ off = (Lck.CODE_LOCK_LOCKED 1).off
      then 2 ^ 32 - 1 else 0
    | .mpc => if (List.range 4).any (fun m => off == (Mpc.MP_STATUS_ST m).off) then 2 ^ 32 - 1 else 0
    | .tru => if off = Tru.TP_STATUS_RUNNING.off then 2 ^ 32 - 1 else 0
    | .cip _ => if off = Cip.KEY_BIND_BOUND.off then 2 ^ 32 - 1 else 0
    | _ => 0

/-- Bits of the word at an offset of the page that a block reset keeps, the shadow view included (R510). -/
def Page.keptWord (p : Page) (off : Nat) : Nat :=
  if off < 0x800 then p.keptBits off
  else match p with
    | .cls => p.shadowBits (off - 0x700)
    | .prs => p.shadowBits (off - 0x700)
    | _ => 0

/-- The words of a page return to their reset values, but for the bits `kept` names. -/
def State.resetWords (p : Page) (kept : Nat → Nat) : State :=
  let b := p.base
  let mine (a : Nat) : Bool := decide (b ≤ a ∧ a < b + 0x1000)
  let saved := (s.regs.cells.filter (fun c => mine c.1 && kept (c.1 - b) != 0)).map (fun c =>
    let k := BitVec.ofNat 32 (kept (c.1 - b))
    (c.1, (c.2 &&& k) ||| (resetWord c.1 &&& ~~~ k)))
  { s with regs := (s.regs.keep (fun a => !mine a)).setAll saved }

/-- The page that a counter's key belongs to, and whether it is a counter of a register or a table. -/
def counterPage (k : Nat) : Option Page :=
  if k < 0x1000000 then Page.ofAddr k
  else if k < 2 ^ 32 then some .cls
  else if k < 2 ^ 40 then Page.ofIndex ((k - 2 ^ 32) / 4194304)
  else some .cls

/-- The counters of a page return to 0, those of its tables too. -/
def State.resetCounters (p : Page) : State :=
  let other (k : Nat) : Bool := counterPage k != some p
  { s with counters := s.counters.keep other, snapshot := s.snapshot.keep other }

/-- The tables of configuration behind TAB_ADDR of a page return to their reset values. -/
def State.resetTabs (p : Page) : State :=
  let other (k : Nat) : Bool := k / 4194304 != p.index
  { s with tabs := s.tabs.keep other, tabsShadow := s.tabsShadow.keep other }

/-- The live state that a page's state tables show, and the state of its engine, return to what they are at reset. -/
def State.resetEngine (p : Page) : State :=
  match p with
  | .etp n => s.mapEgress n (fun e => { e with selected := none })
  | .fib => s.mapDp (fun d => { d with fibStage := Sparse.empty })
  | .buf => s.mapDp (fun d => { d with queues := d.queues.setAll (d.queues.cells.map (fun c => (c.1, { c.2 with peak := 0 }))) })
  | .qsch => s.mapDp (fun d => { d with svcs := Sparse.empty, portNodes := Sparse.empty, meters := Sparse.empty
                                        queues := d.queues.setAll (d.queues.cells.map (fun c =>
                                          (c.1, { c.2 with deficit := 0, tokens := 0, last := 0 }))) })
  | .tgate n => s.mapDp (fun d => { d with gates := d.gates.set n { lost := (d.gates.get n).lost } })
  | .time => { s with txts := Sparse.empty }
  | .frer => { s with frer := Sparse.empty }
  | .trng => { s with sec := { s.sec with trng := {} } }
  | .clsp => { s with clasp := { lock := s.clasp.lock } }
  | .cip n => { s with cips := s.cips.set n {} }
  | .can n => { s with cans := s.cans.set n {} }
  | .lin n => { s with lins := s.lins.set n {} }
  | .tdm n => { s with tdms := s.tdms.set n {} }
  | .tsi => { s with tsi := {} }
  | .brg => { s with bridge := { resv := s.bridge.resv } }
  | .ring => { s.hostCut with ringPend := Sparse.empty }.mapDp (fun d => { d with txRing := 63 })
  | .asy => s.resetTabs .asy
  | .wake => s.mapPower (fun x => { x with autoMasked := 0 })
  | .nm => s.mapPower (fun x => { x with ntRun := false, holders := Sparse.empty, hlog := Sparse.empty, hlogNext := 0 })
  | _ => s

/-- The bank of a page with two banks that a byte of a table window belongs to, and the address of the same byte in the other bank
(R90, R101, R178, R351). -/
def Page.bankMate (p : Page) (a : Nat) : Option (Nat × Nat) :=
  let pair (lo size : Nat) : Option (Nat × Nat) :=
    if a < lo then none
    else if a < lo + size then some (0, a + size)
    else if a < lo + 2 * size then some (1, a - size)
    else none
  match p with
  | .cls => (pair 0x1000000 0x400000).orElse (fun _ =>
      if 0x1A00000 ≤ a ∧ a < 0x1C00000 then pair (0x1A00000 + 256 * ((a - 0x1A00000) / 256)) 32 else none)
  | .tgate n => pair (0x1C00000 + 0x4000 * n) 0x2000
  | .tsi => pair 0x1E00000 0x1000
  | _ => none

/-- The cells of bank `b` of a page, at the addresses of the other bank. -/
def State.bankCells (p : Page) (b : Nat) : List (Nat × Byte) :=
  s.mem.win.cells.filterMap (fun c => match p.bankMate c.1 with | some (k, m) => if k = b then some (m, c.2) else none | none => none)

/-- The table windows with bank `b` of a page copied into the other bank. -/
def State.cloneWin (p : Page) (b : Nat) : Mem :=
  (s.mem.win.keep (fun a => match p.bankMate a with | some (k, _) => k == b | none => true)).setAll (s.bankCells p b)

/-- A memory in place of the table windows. -/
def State.setWin (m : Mem) : State := { s with mem := { s.mem with win := m } }

/-- The unspecified mixture that a clone of bank `b` leaves when it is stopped (R510): each byte of the other bank is the former one or the
copied one, as a free value says. -/
def State.mixBank (p : Page) (b : Nat) : State :=
  let c := s.cloneWin p b
  let keys := (s.bankCells p (1 - b)).filterMap (fun x => (p.bankMate x.1).map (fun y => y.2)) ++ (s.bankCells p b).map (fun x => x.1)
  let mixed := keys.map (fun k => (k, if (Config.freeByte s.frees k).toNat % 2 = 1 then c.get k else s.mem.win.get k))
  (s.setWin (s.mem.win.setAll mixed)).drew 1

/-- The active bank of a page with banks. -/
def State.bankOf (p : Page) : Nat :=
  match p with
  | .cls => s.fld .cls Cls.BANK_STATUS_ACTIVE
  | .tgate n => s.fld (.tgate n) Tgate.LIST_STATUS_ACTIVE
  | .tsi => s.fld .tsi Tsi.TSI_STATUS_ACTIVE
  | _ => 0

/-- A clone runs on the page. -/
def State.cloning (p : Page) : Bool :=
  match p with
  | .cls => s.flag .cls Cls.BANK_STATUS_CLONE_BUSY
  | .tgate n => s.flag (.tgate n) Tgate.LIST_STATUS_CLONE_BUSY
  | .tsi => s.flag .tsi Tsi.TSI_STATUS_CLONE_BUSY
  | _ => false

/-- The shadow registers of a page, which stand for the standby bank (R110), in the same unspecified mixture: each bit is the former one or the
active one, as a free value says. -/
def State.mixRegs (p : Page) : State :=
  s.each p.shadowed (fun s x =>
    let (v, s) := s.draw (2 ^ 32)
    s.setWord p (x.1 + 0x700) (mixWord (s.word p (x.1 + 0x700)) (s.word p x.1) (x.2 &&& v)))

/-- The bank that a clone in progress copies. -/
def State.cloneFrom (p : Page) : Nat := match p with | .tsi => s.tsi.cloneOf | _ => s.bankOf p

/-- A clone in progress stops (R510): the standby bank or page holds a mixture, the registers of a rule bank with it (R110, R114). -/
def State.stopClone (p : Page) : State :=
  let s := s.mixBank p (s.cloneFrom p)
  match p with
  | .cls => (s.mixRegs .cls).mixRegs .prs
  | _ => s

/-- HEADROOM and SHARED_SIZE of the values that a block reset leaves; while a plan that has passed waits for its boundaries, SHARED_SIZE does not
rise above its value `was` (R127, R132). -/
def State.poolReset (p : Page) (was : Nat) : State :=
  let s := match p with
    | .etp n => if n < 32 ∨ n = 37 then s.setHeadroom n else s
    | .clsp => s.setHeadroom 37
    | _ => s
  match p with
  | .etp _ | .clsp | .buf =>
    s.setFld .buf Buf.POOL_SIZE_SHARED_SIZE (if s.plan.any Plan.passed then min was s.poolTarget else s.poolTarget)
  | _ => s

/-- BLKRST of a page in OFF, QUIET, HALTED or FAULT (R31, R510). A commit the page takes part in goes on without it. EVT_RAW.STATE of the change
of ST is set after the registers have been reset, so that it reads 1: the manual does not say which comes first (DESIGN CHOICE, log entry 83).
-/
def State.blkReset (p : Page) : State :=
  let was := s.st p
  let clone := s.cloning p
  let s := if clone then s.stopClone p else s
  let s := match p with | .pcie => s.pcieDown | .clsp => s.lanesReset | _ => s
  let s := (s.drainTime p false).goSt p 0
  let s := (((s.resetEngine p).resetCounters p).resetWords p p.keptWord).poolReset p (s.fld .buf Buf.POOL_SIZE_SHARED_SIZE)
  let s := { s with applying := s.applying.filter (· != p)
                    plan := s.plan.map (fun (c : Plan) => { c with included := c.included.filter (· != p), waiting := c.waiting.filter (· != p) }) }.planDone
  let s := if clone then s.setPending p else s
  if was = 0 then s else s.raise p 1

/-! ## CTRL (R29, R31, R32, R192) -/

/-- The pages that stay in RUN in every power state except OFF (the introductions of the PWR and CLK pages). -/
def Page.staysRun : Page → Bool
  | .pwr => true | .clk => true | _ => false

/-- A write of CTRL with EN, DRAIN and FREEZE. While the DRAIN_LIMIT timer runs in DRAINING, EN and DRAIN keep their values and what was
written is not stored for later; one write in QUIET that takes DRAIN to 0 and sets FREEZE goes to RUN and stores FREEZE, as RUN stores it (R32
names neither case further: DESIGN CHOICE, log entry 83). PWR and CLK store the bits and stay in RUN. -/
def State.ctrlApply (p : Page) (en drain freeze : Bool) : State :=
  let en0 := s.flag p Hdr.CTRL_EN
  let dr0 := s.flag p Hdr.CTRL_DRAIN
  let fr0 := s.flag p Hdr.CTRL_FREEZE
  let held := s.st p == 2 && s.drainTimer.get p.index
  let en := if held then en0 else en
  let drain := if held then dr0 else drain
  let s := ((s.setFld p Hdr.CTRL_EN (b2n en)).setFld p Hdr.CTRL_DRAIN (b2n drain)).setFld p Hdr.CTRL_FREEZE (b2n freeze)
  match s.st p with
  | 0 => if en ∧ !en0 then (if drain then s.goQuiet p else s.goSt p 1) else s
  | 1 =>
    if p.staysRun then s
    else if en0 ∧ !en then ((s.drainTime p true).goSt p 2).drainOn p
    else if drain ∧ !dr0 then (s.goSt p 2).drainOn p
    else s
  | 2 =>
    if held then s
    else if en0 ∧ !en then (s.drainTime p true).drainOn p
    else if dr0 ∧ !drain ∧ en then s.goSt p 1
    else s
  | 3 =>
    if en0 ∧ !en then s.goSt p 0
    else if dr0 ∧ !drain ∧ en then s.goSt p 1
    else if freeze then s.goSt p 4
    else s
  | 4 => if fr0 ∧ !freeze then s.goSt p 3 else s
  | _ => s

/-- A TGATE page refuses to leave RUN while it gates, or while a change is pending (R192). -/
def State.ctrlBarred (p : Page) (en drain : Bool) : Bool :=
  match p with
  | .tgate n =>
    let stops := (s.flag p Hdr.CTRL_EN && !en) || (!s.flag p Hdr.CTRL_DRAIN && drain)
    stops && (s.flag (.tgate n) Tgate.GATE_CFG_GATE_EN || s.flag (.tgate n) Tgate.LIST_STATUS_CHANGE_PENDING)
  | _ => false

/-- A write of CTRL by an owner (R31, R32). -/
def State.ctrlWrite (src : Src) (p : Page) (v : Nat) : State :=
  if v.testBit 2 then
    (if s.st p = 1 ∨ s.st p = 2 then s.refuse src p 7 Hdr.CTRL_BLKRST.off else s.blkReset p)
  else if s.ctrlBarred p (v.testBit 0) (v.testBit 1) then s.refuse src p 8 Hdr.CTRL_EN.off
  else s.ctrlApply p (v.testBit 0) (v.testBit 1) (v.testBit 3)

/-- CTRL as it reads. -/
def State.ctrlWord (p : Page) : Nat :=
  b2n (s.flag p Hdr.CTRL_EN) + 2 * b2n (s.flag p Hdr.CTRL_DRAIN) + 8 * b2n (s.flag p Hdr.CTRL_FREEZE)

/-- One bit of CTRL set or cleared by an owner, the others as they are. -/
def State.ctrlBit (src : Src) (p : Page) (f : Fld) (v : Bool) : State :=
  s.guard src p Hdr.CTRL_EN.off (fun s => s.ctrlWrite src p (putBit (s.ctrlWord p) f.lsb v))

end

/-! ## The commands -/

def execCtrlEnSet (src : Src) (p : Page) (s : State) : Host.Outcome State Fault Refusal := .next (s.live (fun s => s.ctrlBit src p Hdr.CTRL_EN true))
def execCtrlEnClear (src : Src) (p : Page) (s : State) : Host.Outcome State Fault Refusal :=
  .next (s.live (fun s => s.ctrlBit src p Hdr.CTRL_EN false))
def execCtrlDrainSet (src : Src) (p : Page) (s : State) : Host.Outcome State Fault Refusal :=
  .next (s.live (fun s => s.ctrlBit src p Hdr.CTRL_DRAIN true))
def execCtrlDrainClear (src : Src) (p : Page) (s : State) : Host.Outcome State Fault Refusal :=
  .next (s.live (fun s => s.ctrlBit src p Hdr.CTRL_DRAIN false))
def execBlkrst (src : Src) (p : Page) (s : State) : Host.Outcome State Fault Refusal :=
  .next (s.live (fun s => s.guard src p Hdr.CTRL_EN.off (fun s => s.ctrlWrite src p 4)))
def execFreezeSet (src : Src) (p : Page) (s : State) : Host.Outcome State Fault Refusal :=
  .next (s.live (fun s => s.ctrlBit src p Hdr.CTRL_FREEZE true))
def execFreezeClear (src : Src) (p : Page) (s : State) : Host.Outcome State Fault Refusal :=
  .next (s.live (fun s => s.ctrlBit src p Hdr.CTRL_FREEZE false))
def execWorkFinished (p : Page) (s : State) : Host.Outcome State Fault Refusal := .next (s.live (fun s => s.workFinished p))
def execDrainLimitExpiry (p : Page) (s : State) : Host.Outcome State Fault Refusal := .next (s.live (fun s => s.drainLimit p))
def execBlockFault (p : Page) (code addr : Nat) (s : State) : Host.Outcome State Fault Refusal := .next (s.live (fun s => s.clocked p (fun s => s.fault p code false addr)))

end Sys2Proof.Machine
end

