-- ==== Sys2Proof/Machine/Tables.lean ====
section
/-! DEFINITION. The tables behind TAB_ADDR and TAB_DATA, and writes to shadow views (R35, R111, R144, R145, R172–R175, R223, R224,
R271–R275, R359, R360, R372, R373, R383, R403, R412, R417, R419). -/
namespace Sys2Proof.Machine

/-! ## The tables (R173, R224, R272, R275, R360, R383, R417, R419) -/

/-- What a table is: configuration with a shadow, a table written at the active address, live state, or counters in the snapshot. -/
inductive TabKind where
  | shadowed | direct | live | snap
  deriving DecidableEq, Repr

/-- Entries, words of an entry, and kind of a table; none for a reserved one. -/
def Page.table (p : Page) (t : Nat) : Option (Nat × Nat × TabKind) :=
  match p, t with
  | .qsch, 0 => some (4096, 4, .shadowed) | .qsch, 1 => some (304, 4, .shadowed)
  | .qsch, 2 => some (38, 4, .shadowed) | .qsch, 3 => some (2048, 4, .shadowed)
  | .qsch, 8 => some (4096, 4, .live) | .qsch, 9 => some (304, 4, .live)
  | .qsch, 10 => some (38, 4, .live) | .qsch, 11 => some (2048, 4, .live)
  | .qsch, 12 => some (304, 4, .snap) | .qsch, 13 => some (2048, 8, .snap)
  | .asy, 0 => some (8192, 2, .shadowed) | .asy, 1 => some (8192, 2, .live) | .asy, 2 => some (304, 4, .live)
  | .frer, 0 => some (4096, 4, .shadowed) | .frer, 1 => some (4096, 7, .live) | .frer, 2 => some (4096, 18, .snap)
  | .fab, 0 => some (4096, 1, .shadowed) | .fab, 1 => some (16, 2, .shadowed) | .fab, 2 => some (4096, 2, .shadowed)
  | .fab, 3 => some (38, 1, .direct)
  | .tsi, 0 => some (32, 6, .shadowed) | .tsi, 1 => some (32, 4, .shadowed)
  | .tsi, 8 => some (32, 4, .snap) | .tsi, 9 => some (32, 12, .snap)
  | .msec, 0 => some (32, 3, .shadowed) | .msec, 1 => some (128, 4, .direct) | .msec, 2 => some (128, 4, .direct)
  | .msec, 3 => some (512, 4, .direct) | .msec, 4 => some (1024, 5, .live) | .msec, 8 => some (32, 28, .snap)
  | .ring, 0 => some (64, 4, .direct) | .ring, 1 => some (64, 4, .direct)
  | .ring, 2 => some (64, 6, .snap) | .ring, 3 => some (64, 6, .snap)
  | .dma, 0 => some (32, 4, .direct) | .dma, 1 => some (32, 6, .snap)
  | .buf, 0 => some (4096, 1, .shadowed)
  | _, _ => none

/-- The bits of a word of a configuration table that have a field; unlisted bits are 0. -/
def Page.tabMask (p : Page) (t w : Nat) : Nat :=
  match p, t, w with
  | .qsch, 0, 0 => 0x00FF073F | .qsch, 0, 1 => 0x1FFFFFF | .qsch, 0, 2 => 0xFFFFFF
  | .qsch, 1, 0 => 0x0FFFFF03 | .qsch, 1, 1 => 0x1FFFFFF | .qsch, 1, 2 => 0xFFFFFF
  | .qsch, 2, 0 => 0x1FF | .qsch, 2, 1 => 0x1FFFFFF | .qsch, 2, 2 => 0xFFFFFF | .qsch, 2, 3 => 0x1FFF0FFF
  | .qsch, 3, 0 => 0xF1FFFFFF | .qsch, 3, 1 => 0x1FFFFFF | .qsch, 3, 2 => 0xFFFFFF | .qsch, 3, 3 => 0xFFFFFF
  | .asy, 0, 0 => 0xFFFFFFFF | .asy, 0, 1 => 0x713F
  | .frer, 0, 0 => 0xFF13 | .frer, 0, 1 => 0xFFFF | .frer, 0, 2 => 0xFFFF000F | .frer, 0, 3 => 0xFFFF
  | .fab, 0, 0 => 0x80001FFF | .fab, 1, 0 => 0xFFFFFFFF | .fab, 1, 1 => 0x80008F01
  | .fab, 2, 0 => 0xFFFFFFFF | .fab, 2, 1 => 0x80000001 | .fab, 3, 0 => 0x8000000F
  | .tsi, 0, 0 => 0x001F0F07 | .tsi, 0, 1 => 0x1FF | .tsi, 0, _ => 0xFFFFFFFF
  | .tsi, 1, 0 => 0x7F1F0F03 | .tsi, 1, 1 => 0x1FF | .tsi, 1, _ => 0xFFFFFFFF
  | .msec, 0, 0 => 0x7F | .msec, 0, _ => 0xFFFFFFFF
  | .msec, 1, 0 => 0x800003FF | .msec, 1, _ => 0xFFFFFFFF
  | .msec, 2, 3 => 0x80000000 | .msec, 2, _ => 0xFFFFFFFF
  | .msec, 3, 0 => 0x800003FF | .msec, 3, _ => 0xFFFFFFFF
  | .ring, 0, 0 => 0xFFFFFF80 | .ring, 0, 1 => 0xFFFFFFFF | .ring, 0, 2 => 0x7F030F | .ring, 0, 3 => 0xFFFF01FF
  | .ring, 1, 0 => 0xFFFFFF80 | .ring, 1, 1 => 0xFFFFFFFF | .ring, 1, 2 => 0x30F | .ring, 1, 3 => 0xFFFF01FF
  | .dma, 0, 0 => 0xFFFFFFC0 | .dma, 0, 1 => 0xFFFFFFFF | .dma, 0, 2 => 0x33F | .dma, 0, 3 => 0x1FF
  | .buf, 0, 0 => 0x0FFF1FFF
  | _, _, _ => 0

/-- TAB_ADDR's fields WORD, ENTRY and TABLE of a page. -/
def Page.tabSel : Page → Option (Fld × Fld × Fld)
  | .qsch => some (⟨0x100, 0, 3⟩, ⟨0x100, 4, 12⟩, ⟨0x100, 16, 4⟩)
  | .asy => some (⟨0x100, 0, 3⟩, ⟨0x100, 4, 13⟩, ⟨0x100, 20, 2⟩)
  | .frer => some (⟨0x100, 0, 5⟩, ⟨0x100, 5, 12⟩, ⟨0x100, 20, 2⟩)
  | .fab => some (⟨0x120, 0, 2⟩, ⟨0x120, 4, 12⟩, ⟨0x120, 16, 4⟩)
  | .tsi => some (⟨0x100, 0, 4⟩, ⟨0x100, 4, 6⟩, ⟨0x100, 16, 4⟩)
  | .msec => some (⟨0x100, 0, 5⟩, ⟨0x100, 5, 10⟩, ⟨0x100, 16, 4⟩)
  | .ring => some (⟨0x100, 0, 3⟩, ⟨0x100, 4, 6⟩, ⟨0x100, 16, 4⟩)
  | .dma => some (⟨0x100, 0, 3⟩, ⟨0x100, 4, 5⟩, ⟨0x100, 16, 4⟩)
  | .buf => some (⟨0x11C, 0, 1⟩, ⟨0x120, 0, 12⟩, ⟨0x11C, 1, 1⟩)
  | _ => none

/-- The offset of TAB_DATA, or QTAB_DATA, of a page. -/
def Page.tabOff : Page → Option Nat
  | .qsch => some 0x104 | .asy => some 0x104 | .frer => some 0x104 | .fab => some 0x124 | .tsi => some 0x104 | .msec => some 0x104
  | .ring => some 0x104 | .dma => some 0x104 | .buf => some 0x124
  | _ => none

/-- The code of a write to a table that cannot be written at that address: TABLE_RO or TABLE_ACCESS; BUS_ERROR where the page has neither. -/
def Page.tabRo : Page → Nat
  | .qsch => 0x20 | .asy => 0x21 | .frer => 0x20 | .tsi => 0x21 | .msec => 0x21 | .fab => 0x20
  | _ => 3

section
variable (s : State)

/-- TAB_ADDR of a page: table, entry and word. -/
def State.tabAt (p : Page) : Nat × Nat × Nat :=
  match p.tabSel with
  | some (w, e, t) => (s.fld p t, s.fld p e, s.fld p w)
  | none => (0, 0, 0)

/-- A word of a table that shows live state. -/
def State.liveWord (p : Page) (t e w : Nat) : Nat :=
  match p, t with
  | .qsch, 8 => s.subqWord e w
  | .qsch, 9 => s.svcWord e w
  | .qsch, 10 => s.portWord e w
  | .qsch, 11 => s.meterWord e w
  | .frer, 1 => s.funcWord e w
  | .msec, 4 => s.slotInfo e w
  | _, _ => (s.tab p t e w).toNat

/-- A word of a counter: its low half, or its high one. -/
def halfWord (high : Bool) (v : Nat) : Nat := if high then v / 2 ^ 32 % 2 ^ 32 else v % 2 ^ 32

/-- A word of a counter table in the snapshot (R28). -/
def State.snapWord (p : Page) (t e w : Nat) : Nat :=
  halfWord (w % 2 == 1) (s.snapshot.get (2 ^ 32 + tabKey p t e (w / 2)))

/-- A word of a table as TAB_DATA shows it, or as its shadow address does; 0 beyond the table (R172). -/
def State.tabWord (p : Page) (shadow : Bool) (t e w : Nat) : Nat :=
  match p.table t with
  | none => 0
  | some (n, width, kind) =>
    if n ≤ e ∨ width ≤ w then 0
    else match kind, shadow with
      | .shadowed, true => (s.tabSh p t e w).toNat
      | _, true => 0
      | .shadowed, false => (s.tab p t e w).toNat
      | .direct, false => (s.tab p t e w).toNat
      | .live, false => s.liveWord p t e w
      | .snap, false => s.snapWord p t e w

/-- With AUTO = 1 an access advances WORD, and ENTRY after the last word of an entry (R172). -/
def State.tabAdvance (p : Page) : State :=
  match p.tabSel with
  | none => s
  | some (wf, ef, _) =>
    if p ≠ .buf ∧ (s.word p wf.off).toNat.testBit 31 then
      let (t, e, w) := s.tabAt p
      let width := match p.table t with | some (_, width, _) => width | none => 2 ^ wf.width
      if w + 1 = width then (s.setFld p wf 0).setFld p ef (e + 1) else s.setFld p wf (w + 1)
    else s

/-- A read of TAB_DATA, or of its shadow address: the word, and the state after it. -/
def State.tabRead (p : Page) (shadow : Bool) : Nat × State :=
  let (t, e, w) := s.tabAt p
  (s.tabWord p shadow t e w, s.tabAdvance p)

/-- The counter of corrected words of a table (R224, R272, R277). -/
def Page.eccTab : Page → Nat → Option Nat
  | .asy, _ => some Asy.CNT_ECC_CORR
  | .fab, _ => some Fab.CNT_ECC_CORR
  | .frer, 1 => some Frer.CNT_ECC_CORR
  | _, _ => none

/-- SECDED corrects the word of a table that TAB_ADDR selects. -/
def State.tabCorrected (p : Page) : State := match p.eccTab (s.tabAt p).1 with | some c => s.bump p c | none => s

/-- A read of TAB_DATA whose word SECDED finds as `ecc` says: a corrected one is counted; what one that cannot be corrected reads as is a free
value (log entry 114). -/
def State.tabReadEcc (p : Page) (shadow : Bool) (ecc : EccResult) : Nat × State :=
  match ecc, p.eccTab (s.tabAt p).1 with
  | .corrected, _ => s.tabCorrected p |>.tabRead p shadow
  | .lost, some _ => (s.tabRead p shadow).2.draw (2 ^ 32)
  | _, _ => s.tabRead p shadow

/-! ## Writes of tables at their active address -/

/-- A write of a table that has no shadow: it is performed, or refused under SA_IN_USE or RING_ACTIVE (R372, R373, R403, R412). -/
def State.directPut (src : Src) (p : Page) (off t e w v : Nat) : State :=
  let old := (s.tab p t e w).toNat
  let m := p.tabMask t w
  let put (s : State) : State := s.setTab p t e w (mixWord (s.tab p t e w) (BitVec.ofNat 32 v) m)
  let bits (x : Nat) : Nat := ((BitVec.ofNat 32 x) &&& (BitVec.ofNat 32 m)).toNat
  match p, t with
  | .msec, 1 => if e = s.txSa (e / 4) then s.refuse src p 0x20 off else put s
  | .msec, 2 => s.saWrite 2 e w (BitVec.ofNat 32 v &&& BitVec.ofNat 32 m)
  | .msec, 3 => s.saWrite 3 e w (BitVec.ofNat 32 v &&& BitVec.ofNat 32 m)
  | .ring, _ =>
    let tx := t == 1
    let was := s.ringEn tx e
    let same := decide (w = 3) || (decide (w = 2) && bitsOf old 3 0 == bitsOf v 3 0 && (tx || bitsOf old 22 16 == bitsOf v 22 16))
    if was ∧ !same then s.refuse src p 0x20 off else (put s).ringEnChange tx e was
  | .dma, _ =>
    let was := s.chEn e
    let stop := decide (w = 2) && bits old == bits v + 2 ^ 8
    if was ∧ w ≤ 2 ∧ !stop then s.refuse src p 0x20 off else (put s).dmaEn e was
  | _, _ => put s

/-- A write of TAB_DATA at the active address or at its shadow, by an owner: a word or an entry beyond the table is refused at either (R172). While
any plan commit is CHECKING the shadow of ASY takes no write (R218). -/
def State.tabPut (src : Src) (p : Page) (shadow : Bool) (v : Nat) : State :=
  let (t, e, w) := s.tabAt p
  let off := p.tabOff.getD 0 + (if shadow then 0x700 else 0)
  match p.table t with
  | none => s.refuse src p (if p = .qsch ∨ p = .fab ∨ (p = .tsi ∧ t < 8) ∨ p = .msec ∨ !shadow then 3 else p.tabRo) off
  | some (n, width, kind) =>
    match shadow, kind with
    | true, .shadowed =>
      if s.checking p ∨ (p = .asy ∧ s.plan.isSome) then s.refuse src p 7 off
      else if n ≤ e ∨ width ≤ w then s.refuse src p 3 off
      else (s.setTabSh p t e w (BitVec.ofNat 32 v &&& BitVec.ofNat 32 (p.tabMask t w))).setPending p
    | true, _ => s.refuse src p p.tabRo off
    | false, .direct => if n ≤ e ∨ width ≤ w then s.refuse src p 3 off else s.directPut src p off t e w v
    | false, .shadowed =>
      if p = .fab ∨ p = .msec then s.refuse src p p.tabRo off else if n ≤ e ∨ width ≤ w then s.refuse src p 3 off else s
    | false, _ =>
      if p = .msec ∨ p = .ring ∨ p = .dma then s.refuse src p p.tabRo off
      else if n ≤ e ∨ width ≤ w then s.refuse src p 3 off
      else s

/-- A write of TAB_DATA, and the advance it makes. -/
def State.tabWrite (src : Src) (p : Page) (shadow : Bool) (v : Nat) : State := (s.tabPut src p shadow v).tabAdvance p

/-! ## Shadow writes (R35, R37, R111) -/

/-- Why the standby bank cannot be written now (R111): the code, if any. `p` is the page written. -/
def State.standbyShut (p : Page) : Option Nat :=
  if s.flag .cls Cls.BANK_STATUS_CLONE_BUSY then some 7
  else if s.checking .cls ∨ s.checking p then some 7
  else if s.recircCount (1 - s.activeBank) ≠ 0 then some 0x20
  else none

/-- A write to the shadow view of a page by an owner: `off` is the offset in the page, 0x800 to 0xEFF. -/
def State.shadowPut (src : Src) (p : Page) (off v : Nat) : State :=
  if p.tabOff = some (off - 0x700) then s.tabWrite src p true v
  else
    let m := p.shadowBits (off - 0x700)
    let put (s : State) : State := (s.setWord p off (mixWord (s.word p off) (BitVec.ofNat 32 v) m)).setPending p
    if m = 0 then s
    else if p = .cls ∨ p = .prs then
      match s.standbyShut p with
      | some code => s.refuse src p code off
      | none => (put s).setPending .cls
    else if s.checking p then s.refuse src p 7 off
    else put s

end

/-! ## The commands -/

def execShadowWrite (src : Src) (p : Page) (off v : Nat) (s : State) : Host.Outcome State Fault Refusal :=
  .next (s.live (fun s => s.guard src p off (fun s => s.shadowPut src p off v)))
def execTabDataAccess (src : Src) (p : Page) (shadow : Bool) (v : Option Nat) (ecc : EccResult) (s : State) :
    Host.Outcome State Fault Refusal :=
  let off := p.tabOff.getD 0 + (if shadow then 0x700 else 0)
  .next (s.live (fun s => match v with
    | some x => s.guard src p off (fun s => s.tabWrite src p shadow x)
    | none =>
      if s.pageOn p then
        let (x, s) := s.tabReadEcc p shadow ecc
        s.emit (.readData (p.base + off) 4 x)
      else s.emit (.readData (p.base + off) 4 0)))

end Sys2Proof.Machine
end

