-- ==== Sys2Proof/Machine/Timegate.lean ====
section
/-! DEFINITION. The gate lists and their banks, take-over of a list change, and the domain clocks' slews and steps (R180–R197,
R227–R230, R244). -/
namespace Sys2Proof.Machine

section
variable (s : State)

/-- The gate engine of a port. -/
def State.gate (p : Nat) : Gate := s.dp.gates.get p
def State.mapGate (p : Nat) (f : Gate → Gate) : State := s.mapDp (fun d => { d with gates := d.gates.modify p f })

/-- The domain that the active values of a port's gates name. -/
def State.gateDom (p : Nat) : Nat := s.fld (.tgate p) Tgate.GATE_CFG_DOMAIN

/-! ## Take-over (R190, R191) -/

/-- Which counter a take-over at `ct` counts besides CHANGES, if any (R191). -/
def State.gateCut (p ct : Nat) : Option Nat :=
  let c := s.sched p false
  if !c.en ∨ c.lastStart ct = ct then none
  else some (if s.gateExtends p ct then Tgate.CNT_EXTENDED else Tgate.CNT_TRUNCATED)

/-- CT of a port comes: the standby list becomes active with every shadowed field of the page. -/
def State.gateTake (p : Nat) : State :=
  let g : Page := .tgate p
  let s := s.poolLower s.planPages
  let s := match s.gateCt p with
    | some ct => (match s.gateCut p ct with | some c => s.bump g c | none => s)
    | none => s
  let s := (s.applyRegs g).setFld g Tgate.LIST_STATUS_ACTIVE (1 - s.fld g Tgate.LIST_STATUS_ACTIVE)
  let s := (s.mapGate p (fun x => { x with ct := none, cycle := none, lost := [] })).setFld g Tgate.LIST_STATUS_CHANGE_PENDING 0
  ((s.bump g Tgate.CNT_CHANGES).raise g 8).arrive g

/-- A pending change of a port applies once CT has come (R190, R193). -/
def State.gateDue (p : Nat) : State :=
  match s.gateCt p with
  | some ct => if ct ≤ s.domNs (s.gateDom p) then s.gateTake p else s
  | none => s

/-! ## Entries and cycles (R181) -/

/-- The cycle of the grid that a domain time lies in. -/
def Sched.index (c : Sched) (t : Nat) : Int := ((t : Int) - c.base) / c.cycle

/-- An entry of the list of a port begins: the first entry starts a cycle, which CYCLES counts once. -/
def State.gateEntry (p : Nat) : State :=
  let c := s.sched p false
  let t := s.domNs (s.gateDom p)
  let stretched := match s.gateCt p with | some ct => s.gateExtends p ct && decide (c.lastStart ct ≤ t) | none => false
  if s.inRun (.tgate p) ∧ c.en ∧ !stretched ∧ (c.atPos (c.pos t)).2 = 0 ∧ (s.gate p).cycle ≠ some (c.index t) then
    (s.mapGate p (fun x => { x with cycle := some (c.index t) })).bump (.tgate p) Tgate.CNT_CYCLES
  else s

/-! ## The list window (R178, R188, R189, R194) -/

/-- The port of an address of the gate list window, and the bank. -/
def gatePort (a : Nat) : Nat := (a - 0x1C00000) / 0x4000
def gateBank (a : Nat) : Nat := a / 0x2000 % 2

/-- A word of a list entry is written, by the owner of the page. -/
def State.gatePut (src : Src) (a v : Nat) : State :=
  let p := gatePort a
  let g : Page := .tgate p
  let bad (code : Nat) : State := s.logErr g code src.code a
  if gateBank a = s.fld g Tgate.LIST_STATUS_ACTIVE then bad 0x20
  else if s.cloning g then bad 7
  else if s.checking g then bad 7
  else
    let s := { s with mem := { s.mem with win := s.mem.win.putNum a 4 v } }
    (s.mapGate p (fun x => { x with lost := x.lost.filter (· != a % 0x2000 / 4) })).setPending g

/-- A write of a word of the gate list window: the owner of TGATEp owns both banks of port p (R188). -/
def State.gateWrite (src : Src) (a v : Nat) : State :=
  let g : Page := .tgate (gatePort a)
  s.arrives src (fun s =>
    if !s.pageOn g then s.logErr .sys 3 src.code a
    else if s.owns src g then s.gatePut src a v else s.notOwner src g a)

/-- The clone of a port's list ends (R189). -/
def State.gateCloned (p : Nat) : State :=
  let g : Page := .tgate p
  if s.cloning g then
    let s := s.setWin (s.cloneWin g (s.bankOf g))
    ((s.mapGate p (fun x => { x with lost := [] })).setFld g Tgate.LIST_STATUS_CLONE_BUSY 0).raise g 12
  else s

/-- The scrubber reads both copies of entry `k` of bank `b`; `bad` copies of it are uncorrectable (R194). What an entry lost reads as
the manual does not say: free bytes. -/
def State.gateScrub (p b k bad : Nat) : State :=
  let g : Page := .tgate p
  if bad = 0 then s
  else if bad = 1 then (s.bump g Tgate.CNT_LIST_REPAIR).raise g 13
  else
    let a := gateAddr p b k
    let (l, s) := s.drawBytes 8
    let s := { s with mem := { s.mem with win := s.mem.win.putBytes a l } }
    if b = s.fld g Tgate.LIST_STATUS_ACTIVE then s.fault g 0x21 false a
    else (s.logErr g 0x21 srcDevice a).mapGate p (fun x => { x with lost := x.lost ++ [2 * k, 2 * k + 1] })

/-! ## Slews (R228, R230) -/

/-- The rate limit that MAX_PPM gives. -/
def slewLimit (ppm : Nat) : Nat := max 1 (min 500 ppm) * 2 ^ 32 / 10 ^ 6

/-- A rate of a domain stored, as the nearer limit where it lies outside. -/
def State.putAdj (d : Nat) (v : Int) : State :=
  let lim : Int := slewLimit (s.fld .time Time.SLEW_CFG_MAX_PPM)
  let c := max (-lim) (min lim v)
  let s := s.setFld .time (Time.DOM_ADJ_ADJ d) (unsigned 32 c)
  if c = v then s else (s.bump .time Time.CNT_ADJ_CLAMPED).raise .time 9

/-- A write of DOMd_ADJ by an owner. -/
def State.adjPut (src : Src) (d v : Nat) : State :=
  if s.inRun .time then s.putAdj d (signed 32 v) else s.refuse src .time 0x20 (Time.DOM_ADJ_ADJ d).off

/-- A write of SLEW_CFG: a stored rate above the new limit is clamped at once. -/
def State.slewPut (v : Nat) : State :=
  let s := s.setFld .time Time.SLEW_CFG_MAX_PPM v
  let lim := slewLimit (s.fld .time Time.SLEW_CFG_MAX_PPM)
  let s := s.setFld .time Time.SLEW_LIMIT_LIMIT lim
  s.each ((List.range 4).filter (fun d => decide (lim < (s.adj d).natAbs))) (fun s d => s.putAdj d (s.adj d))

/-! ## Steps (R193, R229) -/

/-- Local time in ns at which the copy in transmission at a port ends at the balls: its bytes follow its timestamp point (R193, R232). -/
def State.wireDone (p : Nat) : Nat :=
  let e := s.egress p
  let plain := (padWire p e.wire).length + 4
  let len := match e.sending with | some c => if e.early then max plain (s.headLen c) else plain | none => plain
  ceilDiv e.point 65536 + ceilDiv (len * 8 * 1000000) (s.portKbps p)

/-- The copy in transmission at a port ends beyond the close of its window. -/
def State.overruns (p : Nat) : Bool :=
  match (s.egress p).sending, s.gateMode p with
  | some c, .timed _ =>
    let d := s.gateDom p
    let t := s.domNs d
    let stop := s.domNsAt d (((max s.now (s.wireDone p) : Nat) : Int) * 2 ^ 16)
    let cls := match s.nodeOf c.queue with | some n => n % 8 | none => c.tc
    if (s.gatesAt p t).1.testBit cls then (match s.windowEnd p cls t with | some e => decide (e < stop) | none => false)
    else decide (t < stop)
  | _, _ => false

/-- A step of the gate domain of a port (R193). The entry that covers the new position runs; a cycle the step lands inside is not
counted as started. -/
def State.gateStep (p : Nat) : State :=
  let g : Page := .tgate p
  let s := (s.bump g Tgate.CNT_TIME_STEPS).raise g 11
  let s := if s.overruns p then (s.bump g Tgate.CNT_GATE_OVERRUNS).raise g 10 else s
  let c := s.sched p false
  let t := s.domNs (s.gateDom p)
  let s := s.mapGate p (fun x => { x with cycle := if c.en && c.pos t != 0 then some (c.index t) else none })
  s.gateDue p

/-- A step moves a domain clock to a count and a fraction; every gate engine and timestamp unit sees it at this instant. -/
def State.domStep (d ns frac : Nat) : State :=
  let s := { s with dom := s.dom.set d { ns := ns % domSpan, frac } }
  let n := s.fld .time (Time.DOM_CTRL_STEPS d)
  let s := (((s.setFld .time (Time.DOM_CTRL_STEPS d) (min 65535 (n + 1))).bump .time Time.CNT_STEPS).raise .time 8)
  let s := if s.fld .clsp Clsp.PAIR_CFG_DIG_DOMAIN = d then s.mapClasp (fun c => { c with skip := 4 }) else s
  if s.pageOn .qsch then s.each ((List.range 38).filter (fun p => s.gateDom p == d)) State.gateStep else s

/-- A STEP or SET request of a domain by an owner. The request applies with the write, so that its bit reads 0 after it. -/
def State.domAsk (src : Src) (d : Nat) (set : Bool) : State :=
  let off := (Time.DOM_CTRL_STEP d).off
  if s.flag .time (Time.DOM_CTRL_STEP d) ∨ s.flag .time (Time.DOM_CTRL_SET d) then s.refuse src .time 7 off
  else if !s.inRun .time then s.refuse src .time 0x20 off
  else if set then
    let ns := s.fld .time (Time.DOM_SET_NS_NS d)
    if 999999999 < ns then s.refuse src .time 3 off
    else s.domStep d ((s.fld .time (Time.DOM_SET_S_LO_S d) + 2 ^ 32 * s.fld .time (Time.DOM_SET_S_HI_S d)) * 10 ^ 9 + ns) 0
  else
    let c := s.dom.get d
    s.domStep d ((c.ns : Int) + signed 32 (s.fld .time (Time.DOM_STEP_NS_NS d))).toNat c.frac

/-! ## Snapshots of the clocks, transmit timestamps (R237, R244) -/

/-- TSNAP.GO: the local time base and the domains are copied in one cycle. -/
def State.tsnap : State :=
  let s := (s.setFld .time Time.TSNAP_LOCAL_LO_NS s.now).setFld .time Time.TSNAP_LOCAL_HI_NS (s.now / 2 ^ 32)
  s.each (List.range 4) (fun s d =>
    let n := s.domNs d
    (((s.setFld .time (Time.TSNAP_D_NS_NS d) (n % 10 ^ 9)).setFld .time (Time.TSNAP_D_S_LO_S d) (n / 10 ^ 9)).setFld .time
      (Time.TSNAP_D_S_HI_S d) (n / 10 ^ 9 / 2 ^ 32)).setFld .time (Time.TSNAP_D_S_HI_STEPS d) (s.fld .time (Time.DOM_CTRL_STEPS d)))

/-- The transmit timestamp FIFO that TXTS_SEL shows. -/
def State.txtsShown : List TxTs :=
  let p := s.fld .time Time.TXTS_SEL_PORT
  if p < 32 ∨ p = 37 then s.txts.get p else []

/-- TXTS_POP: the head entry of the FIFO shown goes. -/
def State.txtsPop : State :=
  let p := s.fld .time Time.TXTS_SEL_PORT
  if s.txtsShown.isEmpty then s else { s with txts := s.txts.modify p (fun l => l.drop 1) }

end

/-! ## The commands -/

def execGateEntryStart (p : Nat) (s : State) : Host.Outcome State Fault Refusal :=
  .next (s.live (fun s => s.clocked (.tgate p) (fun s => s.gateEntry p)))
def execGateListWrite (src : Src) (p b k w v : Nat) (s : State) : Host.Outcome State Fault Refusal :=
  .next (s.live (fun s => s.gateWrite src (gateAddr p b k + 4 * w) v))
def execGateTakeover (p : Nat) (s : State) : Host.Outcome State Fault Refusal := .next (s.live (fun s => s.clocked (.tgate p) (fun s => s.gateDue p)))
def execGateCloneDone (p : Nat) (s : State) : Host.Outcome State Fault Refusal :=
  .next (s.live (fun s => s.clocked (.tgate p) (fun s => s.gateCloned p)))
def execGateListScrub (p b k bad : Nat) (s : State) : Host.Outcome State Fault Refusal :=
  .next (s.live (fun s => s.clocked (.tgate p) (fun s => s.gateScrub p b k bad)))
def execAdjWrite (src : Src) (d v : Nat) (s : State) : Host.Outcome State Fault Refusal :=
  .next (s.live (fun s => s.guard src .time (Time.DOM_ADJ_ADJ d).off (fun s => s.adjPut src d v)))
def execSlewCfgWrite (src : Src) (v : Nat) (s : State) : Host.Outcome State Fault Refusal :=
  .next (s.live (fun s => s.guardTrusted src .time Time.SLEW_CFG_MAX_PPM.off (fun s => s.slewPut v)))
def execDomainStep (src : Src) (d : Nat) (s : State) : Host.Outcome State Fault Refusal :=
  .next (s.live (fun s => s.guard src .time (Time.DOM_CTRL_STEP d).off (fun s => s.domAsk src d false)))
def execDomainSet (src : Src) (d : Nat) (s : State) : Host.Outcome State Fault Refusal :=
  .next (s.live (fun s => s.guard src .time (Time.DOM_CTRL_SET d).off (fun s => s.domAsk src d true)))
def execTsnap (src : Src) (s : State) : Host.Outcome State Fault Refusal :=
  .next (s.live (fun s => s.guard src .time Time.TSNAP_GO.off State.tsnap))
def execTxtsPop (src : Src) (s : State) : Host.Outcome State Fault Refusal :=
  .next (s.live (fun s => s.guard src .time Time.TXTS_POP_POP.off State.txtsPop))

end Sys2Proof.Machine
end

