-- ==== Sys2Proof/Machine/Admission.lean ====
section
/-! DEFINITION. Admission: budgeted streams and their paths, service nodes, path bounds and reserves (R198–R216). Every definition reads
the state whose active values are those the plan would make active. -/
namespace Sys2Proof.Machine

/-- A refusal: the detail, and what the refusal registers hold (R216): the path (context, port-36 hop, ingress, egress, class) for phases 3
to 5, the page for phases 1 and 2, the queue, and the words of ERR_ADDR where the rule names a field (R37). -/
structure Refuse where
  detail : Nat
  value : Nat := 0
  limit : Nat := 0
  path : Option (Nat × Bool × Nat × Nat × Nat) := none
  page : Nat := 0
  queue : Nat := 0
  addr : Option (Nat × Nat) := none
  deriving DecidableEq, Repr

/-! ## Gates in a plan (R207, R210, R211) -/

/-- What the gates of a port are under one schedule, as the Assayer takes them. -/
inductive GateSide where
  | free
  | list (c : Sched)
  deriving DecidableEq, Repr

/-- The gates of a port in a plan: the schedules that count, the last of them the one the plan would make active; and of a change the
take-over time, the verdict's domain time, and whether the old cycle is extended. -/
structure PlanGates where
  sides : List GateSide
  change : Option (Nat × Nat × Bool) := none
  deriving DecidableEq, Repr

/-- The first start of a cycle of a schedule at or after a domain time (R190). -/
def Sched.nextStart (c : Sched) (t : Nat) : Nat := t + (((c.base : Int) - t) % c.cycle).toNat

/-- CT at a verdict at domain time `tv` (R190). -/
def takeover (old new : Sched) (tv : Nat) : Nat :=
  if new.en then new.nextStart (tv + 10000) else if old.en then old.nextStart (tv + 10000) else tv

/-- The side of a schedule. -/
def Sched.side (c : Sched) : GateSide := if c.en then .list c else .free

/-- The gates of a port in a plan. `s` is the state as it is and `t` the state the plan would make, whose page TGATE is included where
`inc` holds. -/
def planGates (s t : State) (p : Nat) (inc : Bool) : PlanGates :=
  let st := s.st (.tgate p)
  let old := s.sched p false
  let new := t.sched p false
  if st = 5 then { sides := [.list { new with en := true, base := 0, list := [(0, new.cycle)] }] }
  else if st ≠ 1 ∧ st ≠ 2 then { sides := [.free] }
  else if inc ∧ (old.en ∨ new.en) then
    let tv := s.domNs (t.gateDom p)
    let ct := takeover old new tv
    let d := ct - old.lastStart ct
    { sides := [old.side, new.side]
      change := some (ct, tv, old.en && decide (0 < d ∧ d ≤ t.fld (.tgate p) Tgate.EXT_NS_NS)) }
  else { sides := [new.side] }

/-- Two gates are open together at some instant of a side. -/
def GateSide.overlap (g : GateSide) (a b : Nat) : Bool :=
  match g with | .free => true | .list c => c.segs.any (fun x => x.2.2.1.testBit a && x.2.2.1.testBit b)

/-- Gate `a` is exclusive in a side. -/
def GateSide.excl (g : GateSide) (a : Nat) : Bool := match g with | .free => false | .list c => c.excl a

/-- Positions at which a window of a class starts in one cycle. -/
def Sched.opens (c : Sched) (cls : Nat) : List Nat :=
  (c.segs.filter (fun g => g.2.2.1.testBit cls && !(c.atPos ((g.1 + c.cycle - 1) % c.cycle)).1.testBit cls)).map (fun g => g.1)

/-- A class is open in every entry. -/
def Sched.always (c : Sched) (cls : Nat) : Bool := c.segs.all (fun g => g.2.2.1.testBit cls)

/-- Usable parts of the windows of a class in one cycle, start and length: each window without its last `z` ns (R210). -/
def Sched.parts (c : Sched) (cls z : Nat) : List (Nat × Nat) :=
  (c.opens cls).filterMap (fun x =>
    let len := (c.windowLeft cls (c.base + x)).getD 0
    if z < len then some (x, len - z) else none)

/-- The longest time from the end of a part to the start of the next; `first` is the start of the first part of the next cycle. -/
def gapsOf (first : Nat) : List (Nat × Nat) → Nat
  | [] => 0
  | [(x, n)] => first - (x + n)
  | (x, n) :: (y, m) :: t => max (y - (x + n)) (gapsOf first ((y, m) :: t))

/-- OPEN, CYC and GAP in ns of a class in a side (R209, R210). -/
def GateSide.open (g : GateSide) (cls z : Nat) : Nat × Nat × Nat :=
  match g with
  | .free => (1, 1, 0)
  | .list c =>
    if c.always cls then (c.cycle, c.cycle, 0)
    else
      let ps := c.parts cls z
      (ps.foldl (fun n x => n + x.2) 0, c.cycle, gapsOf (((ps.head?.map (fun x => x.1)).getD 0) + c.cycle) ps)

/-- End of the last usable part of the old side before CT; none where it has none (R211). -/
def oldEnd (g : GateSide) (cls z ct : Nat) (ext : Bool) : Option Int :=
  let whole : Option Int := some ((ct : Int) - z)
  match g with
  | .free => whole
  | .list c =>
    if c.always cls then whole
    else
      let st : Int := (ct : Int) - c.pos ct
      let stop : Int := if ext then st else ct
      let last := (c.atPos (c.cycle - 1)).1.testBit cls
      let ends := [2, 1, 0].flatMap (fun (k : Nat) => (c.opens cls).filterMap (fun (x : Nat) =>
        let a : Int := st - (k * c.cycle : Nat) + x
        let e : Int := a + (c.windowLeft cls (c.base + x)).getD 0
        let e : Int := if ext then (if st ≤ e ∧ last then (ct : Int) else min e st) else min e ct
        if a < stop ∧ a + z < e then some (e - z) else none))
      ends.foldl (fun (m : Option Int) e => match m with | some y => some (max e y) | none => some e) none

/-- Start of the first usable part of the new side at or after CT; none where it has none. -/
def newStart (g : GateSide) (cls z ct : Nat) : Option Int :=
  match g with
  | .free => some ct
  | .list c =>
    if c.always cls then some ct
    else if (c.atPos 0).1.testBit cls ∧ z < (c.windowLeft cls c.base).getD 0 then some ct
    else
      let ps := c.parts cls z
      match ps.find? (fun x => decide (0 < x.1)) with
      | some x => some ((ct : Int) + x.1)
      | none => ps.head?.map (fun x => (ct : Int) + x.1 + c.cycle)

/-- The service a class gets from its gates: GAP in ns, the sides' (OPEN, CYC) that count, and whether the new side is closed (R211). -/
def PlanGates.service (g : PlanGates) (cls z : Nat) : Nat × List (Nat × Nat) × Bool :=
  let sides := g.sides.map (fun x => (x.open cls z))
  let live := sides.filter (fun x => x.1 != 0)
  let gap := live.foldl (fun m x => max m x.2.2) 0
  let closed := match sides.getLast? with | some x => x.1 == 0 | none => false
  let trans := match g.change, g.sides.head?, g.sides.getLast? with
    | some (ct, tv, ext), some o, some n =>
      (match newStart n cls z ct with
       | some b => if (n.open cls z).1 = 0 then 0 else
         ((b - (if (o.open cls z).1 = 0 then (tv : Int) else (oldEnd o cls z ct ext).getD tv)).toNat)
       | none => 0)
    | _, _, _ => 0
  (max gap trans, live.map (fun x => (x.1, x.2.1)), closed)

/-! ## Streams and paths (R198, R200) -/

/-- A budgeted stream: its context, the parameters of R102 and of its SRC entry, and its egress ports, each with the ingress ports of its
paths. -/
structure Stream where
  n : Nat
  len : Nat
  burst : Nat
  interval : Nat
  sdu : Nat
  budget : Nat
  tc : Nat
  qsel : Nat
  paired : Bool
  ins : List Nat
  pass2 : Bool
  rc : Nat
  outs : List (Nat × List Nat)
  deriving DecidableEq, Repr

section
variable (s : State)

/-- Contexts that are valid in the bank that is active. -/
def State.validCtxs : List Nat := (List.range 8192).filter (fun n => s.ctxF n s.activeBank 0 0 0 == 1)

/-- The ports of SRC.IN of a context. -/
def State.srcPorts (n : Nat) : List Nat := portsOf ((s.tab .asy 0 n 0).toNat + 2 ^ 32 * s.tabF .asy 0 n 1 5 0)

/-- The ports of the DEST port set of a context. -/
def State.ctxDest (n : Nat) : List Nat := portsOf (s.portSet s.activeBank (s.ctxF n s.activeBank 0 25 16))

/-- The stream of a context. -/
def State.stream (n : Nat) : Stream :=
  let f := s.ctxF n s.activeBank
  let ins := s.srcPorts n
  let outs := ((s.ctxDest n).filter (· != 36)).filterMap (fun e =>
    let ii := ins.filter (fun i => i != e || s.flag .cls (Cls.PORT_CFG_HAIRPIN i))
    if ii.isEmpty then none else some (e, ii))
  { n, len := f 2 29 16, burst := f 3 15 0, interval := f 4 31 0, sdu := f 2 13 0, budget := f 5 31 0, tc := f 0 6 4, qsel := f 0 15 8
    paired := f 0 3 3 == 1, ins, pass2 := s.tabF .asy 0 n 1 8 8 == 1, rc := s.tabF .asy 0 n 1 14 12, outs }

/-- The budgeted streams, in ascending number. -/
def State.streams : List Stream :=
  (s.validCtxs.filter (fun n => s.ctxF n s.activeBank 5 31 0 != 0)).map s.stream

/-- How many paths a stream has. -/
def Stream.paths (st : Stream) : Nat := st.outs.foldl (fun n o => n + o.2.length) 0

/-- The refusal of phases 3 to 5 for a context, without a path. -/
def ctxRefusal (detail n value limit : Nat) : Refuse := { detail, value, limit, path := some (n, false, 0, 0, 0) }

/-- The TSPEC_RANGE conditions of a stream, in their order (R216). -/
def State.tspecRefusal (st : Stream) : Option Refuse :=
  let bad (v l : Nat) : Option Refuse := some (ctxRefusal 0x11 st.n v l)
  let ports := (List.range 38).filter (fun p => st.outs.any (fun o => o.1 == p || o.2.contains p))
  if st.len < 64 then bad st.len 64
  else if 9216 < st.len then bad st.len 9216
  else match ports.find? (fun p => decide (s.fld (.etp p) Etp.MAX_LEN_LEN < st.len)) with
    | some p => bad st.len (s.fld (.etp p) Etp.MAX_LEN_LEN)
    | none =>
      if st.burst = 0 then bad 0 1
      else if st.interval = 0 then bad 0 1
      else if st.sdu = 0 then bad 0 1
      else if st.len < st.sdu then bad st.sdu st.len
      else none

/-- Phase 3 (R215): NO_PATH, TSPEC_RANGE and PATH_LIMIT in ascending context; `count` paths stand before. -/
def State.phase3 (s : State) : Nat → List Stream → Option Refuse
  | _, [] => none
  | count, st :: t =>
    if st.ins.isEmpty ∨ st.ins.contains 36 ∨ st.outs.isEmpty then some (ctxRefusal 0x10 st.n 0 0)
    else match s.tspecRefusal st with
      | some r => some r
      | none => if 65536 < count + st.paths then some (ctxRefusal 0x12 st.n 65537 65536) else s.phase3 (count + st.paths) t

/-! ## Terms (R203, R204) -/

/-- The time of `b` bytes at `r` kb/s in ps. -/
def tbPs (b r : Nat) : Nat := ceilDiv (b * 8 * 10 ^ 9) r

/-- Frequency step of an island in the plan. -/
def State.kOf (i : Nat) : Nat := s.fld .clk (Clk.ISL_F_K i)

/-- `c` cycles of an island of `f` MHz at step `k`, in ps. -/
def cycPs (c f k : Nat) : Nat := ceilDiv (c * 10 ^ 8) (f * (100 - k))

def State.parsePs : Nat := cycPs 24 1250 (s.kOf 4)
def State.classifyPs : Nat := cycPs 112 1250 (s.kOf 4)
def State.policePs : Nat := cycPs 6 1000 (s.kOf 5)
def State.decidePs : Nat := cycPs 16 1250 (s.kOf 6)
def State.decPs : Nat := cycPs 128 1250 (s.kOf 7)
def State.encPs : Nat := cycPs 96 1250 (s.kOf 7)

/-- RX and TX latencies of a port in ps. -/
def State.rxPs (p : Nat) : Nat :=
  if p < 32 then 1000 * rxLatency (s.fld (.etp p) Etp.MODE_MODE) (s.fld (.etp p) Etp.MODE_FEC) else if p = 37 then 1000 * rxLatency 4 0 else 0
def State.txPs (p : Nat) : Nat :=
  if p < 32 then 1000 * txLatency (s.fld (.etp p) Etp.MODE_MODE) (s.fld (.etp p) Etp.MODE_FEC) else if p = 37 then 1000 * txLatency 4 0 else 0

/-- PRE of a port. -/
def preOf (p : Nat) : Nat := if p < 32 ∨ p = 37 then 8 else 0

/-- The crossings port → CLS and port → BUF, and BUF → port, in ps. -/
def crossIn (p : Nat) : Nat := match p with | 32 => 5000 | 33 => 4000 | 34 => 10000 | 35 => 33000 | _ => 5000
def crossOut (p : Nat) : Nat := match p with | 32 => 6000 | 33 => 4000 | 34 => 16000 | 35 => 63000 | _ => 7000

/-- M of a port, and ℓ of a stream at a port, in bytes. -/
def State.maxOn (e : Nat) : Nat := s.fld (.etp e) Etp.MAX_LEN_LEN + s.grow e + 20
def State.lenOn (st : Stream) (e : Nat) : Nat := st.len + s.grow e + 20

/-- t_in of a frame of `len` bytes at an ingress (R205). -/
def State.tIn (len i : Nat) : Nat :=
  let k := s.portKbps i
  let f := len + preOf i
  let (st, key) :=
    if s.rxProtected i then
      (tbPs f k + s.rxPs i + 5000 + s.decPs + 4000, tbPs (min len 208 + preOf i) k + s.rxPs i + 5000 + s.decPs + 3000)
    else (tbPs f k + s.rxPs i + crossIn i, tbPs (min len 192 + preOf i) k + s.rxPs i + crossIn i)
  max st (key + s.parsePs + s.classifyPs + 4000 + s.policePs) + 3000

/-- t_out of an egress (R212). -/
def State.tOut (e : Nat) : Nat :=
  s.decidePs + (if s.txProtected e then 4000 + 3000 + s.encPs + 7000 else 4000 + crossOut e) + s.txPs e + s.gridPs e

/-! ## Service nodes (R207–R211) -/

/-- What budgeted streams bring to a service node: node, TSPEC_BURST × ℓ in bytes, and its rate in kb/s (R208). -/
def State.loads (l : List Stream) : List (Nat × Nat × Nat) :=
  l.flatMap (fun st =>
    let hops := st.outs.map (fun o => (o.1, 8 * o.1 + st.tc)) ++ (if st.pass2 then [(36, 8 * 36 + st.rc)] else [])
    hops.map (fun h =>
      let b := st.burst * s.lenOn st h.1
      (h.2, b, ceilDiv (b * 8 * 10 ^ 6) st.interval)))

/-- SUMB and RHO of a node. -/
def loadSum (loads : List (Nat × Nat × Nat)) (n : Nat) : Nat × Nat :=
  (loads.filter (fun x => x.1 == n)).foldl (fun (a : Nat × Nat) x => (a.1 + x.2.1, a.2 + x.2.2)) (0, 0)

/-- The result of the computation of a node: RS in kb/s, THETA in ps, SUMB, RHO, its own shortage of residual rate (rh, C), the failure it
reports (rh, C, class), and CYCLE_TIME where its class is closed. -/
structure NodeBound where
  rs : Nat := 0
  theta : Nat := 0
  sumb : Nat := 0
  rho : Nat := 0
  own : Option (Nat × Nat) := none
  fail : Option (Nat × Nat × Nat) := none
  closed : Option Nat := none
  carries : Bool := false
  excl : Bool := false
  deriving DecidableEq, Repr

/-- The rank of a node on its port (R207). -/
def rankOf (mask h : Nat) : Nat := if mask.testBit h then Nat.log2 mask else h

/-- The failure of the highest-ranked node among those that made a node fail, each (rh, C, class) (R209). -/
def highest (mask : Nat) (l : List (Nat × Nat × Nat)) : Option (Nat × Nat × Nat) :=
  l.foldl (fun (m : Option (Nat × Nat × Nat)) x =>
    match m with
    | none => some x
    | some y => if rankOf mask y.2.2 < rankOf mask x.2.2 then some x else some y) none

/-- The node (e, k), the higher-ranked nodes of the port being known (R208, R209). A node that fails has RS and THETA 0, which NODE shows where no
path uses it: R224 gives no value (DESIGN CHOICE, log entry 123). -/
def State.nodeBound (g : PlanGates) (loads : List (Nat × Nat × Nat)) (e k : Nat) (above : List (Nat × NodeBound)) : NodeBound :=
  let kbps := s.portKbps e
  let m := s.maxOn e
  let shaped := s.tabF .qsch 2 e 0 8 8 == 1
  let c := if shaped then min kbps (s.tabF .qsch 2 e 1 24 0) else kbps
  let mx := if shaped then m else 0
  let mask := s.tabF .qsch 2 e 0 7 0
  let n := 8 * e + k
  let (sumb, rho) := loadSum loads n
  let excl := g.sides.all (fun x => x.excl k)
  let hs := if excl then [] else above.filter (fun x => decide (rankOf mask k < rankOf mask x.1) && g.sides.any (fun y => y.overlap x.1 k))
  let terms := hs.map (fun (x : Nat × NodeBound) =>
    let r := s.nRate (8 * e + x.1)
    match s.shape (8 * e + x.1) with
    | 2 => (r, s.nBurst (8 * e + x.1) + m)
    | 1 => (r, ceilDiv (r * x.2.theta) (8 * 10 ^ 9) + m)
    | _ => (x.2.rho, x.2.sumb))
  let rh := terms.foldl (fun n x => n + x.1) 0
  let bh := terms.foldl (fun n x => n + x.2) 0
  let mo := if excl then 0 else m
  let own : Option (Nat × Nat) := if c ≤ rh then some (rh, c) else none
  let used := hs.filter (fun x => s.shape (8 * e + x.1) == 1 && x.2.fail.isSome)
  let fails := own.isSome || !used.isEmpty
  let origins := (own.map (fun o => (o.1, o.2, k))).toList ++ hs.filterMap (fun (x : Nat × NodeBound) => x.2.own.map (fun o => (o.1, o.2, x.1))) ++
    used.filterMap (fun x => x.2.fail)
  let base := if s.shape n = 0 then c - rh else min (s.nRate n) (c - rh)
  let (gap, live, shut) := g.service k (s.guardNs e)
  let rates := live.map (fun (x : Nat × Nat) => base * x.1 / x.2)
  let rs := match rates with | [] => 0 | r :: t => t.foldl min r
  { rs := if fails then 0 else rs, theta := if fails then 0 else tbPs (mo + mx + bh) (c - rh) + 1000 * gap, sumb, rho, own
    fail := if fails then highest mask origins else none
    closed := if shut then (match g.sides.getLast? with | some (.list x) => some x.cycle | _ => none) else none
    carries := loads.any (fun x => x.1 == n), excl }

/-- The eight nodes of a port in descending rank, by class. -/
def State.portBounds (g : PlanGates) (loads : List (Nat × Nat × Nat)) (e : Nat) : List (Nat × NodeBound) :=
  let mask := s.tabF .qsch 2 e 0 7 0
  let order := [7, 6, 5, 4, 3, 2, 1, 0].flatMap (fun r => [7, 6, 5, 4, 3, 2, 1, 0].filter (fun h => rankOf mask h == r))
  order.foldl (fun acc k => acc ++ [(k, s.nodeBound g loads e k acc)]) []

/-- Every node of the device, by index. -/
def State.allBounds (gates : Nat → PlanGates) (loads : List (Nat × Nat × Nat)) : List NodeBound :=
  (List.range 38).flatMap (fun e =>
    let l := s.portBounds (gates e) loads e
    (List.range 8).map (fun k => ((l.find? (fun x => x.1 == k)).map (fun x => x.2)).getD {}))

/-! ## Paths (R212, R213) -/

/-- The queue of a path (R151). -/
def State.pathQueue (st : Stream) (e : Nat) : Nat :=
  if st.qsel = 0 then s.defq e st.tc else (s.tabF .qsch 2 e 3 11 0 + st.qsel - 1) % 4096

/-- node_delay in ps. -/
def State.nodeDelay (bounds : List NodeBound) (st : Stream) (e k : Nat) : Nat :=
  let b := bounds.getD (8 * e + k) {}
  let l := s.lenOn st e
  b.theta + tbPs (b.sumb - l) b.rs + tbPs l (s.portKbps e)

/-- path_bound in ns. -/
def State.pathBound (bounds : List NodeBound) (st : Stream) (i e : Nat) : Nat :=
  let second := if st.pass2 then
      s.nodeDelay bounds st 36 st.rc + s.decidePs + 4000 + 3000 + s.parsePs + s.classifyPs + 4000 + s.policePs + 3000
    else 0
  ceilDiv (s.tIn st.len i + second + s.nodeDelay bounds st e st.tc + s.tOut e) 1000

/-- The checks of R213 of one node of a path. -/
def State.nodeRefusal (bounds : List NodeBound) (st : Stream) (i e : Nat) (hop36 : Bool) : Option Refuse :=
  let p := if hop36 then 36 else e
  let k := if hop36 then st.rc else st.tc
  let q := if hop36 then s.defq 36 st.rc else s.pathQueue st e
  let b := bounds.getD (8 * p + k) {}
  let bad (detail value limit cls : Nat) : Option Refuse := some { detail, value, limit, path := some (st.n, hop36, i, e, cls) }
  if (s.tabF .qsch 2 p 0 7 0).testBit k then bad 0x13 (8 * p + k) 0 k
  else match b.fail, b.closed with
    | some (rh, c, cls), _ => bad 0x14 rh c cls
    | none, some cyc => bad 0x15 0 cyc k
    | none, none =>
      if b.rs < b.rho then bad 0x16 b.rho b.rs k
      else if 64 * s.tabF .qsch 0 q 0 23 16 < st.len then bad 0x17 st.len (64 * s.tabF .qsch 0 q 0 23 16) k
      else none

/-- One path checked in full: R213, then OVER_BUDGET. -/
def State.pathRefusal (bounds : List NodeBound) (st : Stream) (i e : Nat) : Option Refuse :=
  let first := if st.pass2 then s.nodeRefusal bounds st i e true else none
  (first.orElse (fun _ => s.nodeRefusal bounds st i e false)).orElse (fun _ =>
    let b := s.pathBound bounds st i e
    if st.budget < b then some { detail := 0x18, value := b, limit := st.budget, path := some (st.n, false, i, e, st.tc) } else none)

/-- The paths of a stream, in order (R215). -/
def Stream.pathList (st : Stream) : List (Nat × Nat) := st.outs.flatMap (fun o => o.2.map (fun i => (i, o.1)))

/-- The first refusal of phase 4. -/
def State.phase4 (bounds : List NodeBound) (l : List Stream) : Option Refuse :=
  l.findSome? (fun st => st.pathList.findSome? (fun x => s.pathRefusal bounds st x.1 x.2))

/-- The largest bound over a list of paths (ingress, egress), with the first path that has it. -/
def State.largest (bounds : List NodeBound) (st : Stream) (l : List (Nat × Nat)) : Nat × Nat × Nat :=
  l.foldl (fun (m : Nat × Nat × Nat) x =>
    let b := s.pathBound bounds st x.1 x.2
    if m.1 < b then (b, x.1, x.2) else m) (0, 0, 0)

/-! ## Reserves (R214, R288) -/

/-- What a stream adds to the backlog of its queues: queue, cells, and the path named where the queue falls short. -/
def State.backlogs (bounds : List NodeBound) (st : Stream) : List (Nat × Nat × Nat × Bool × Nat × Nat × Nat) :=
  let hold := if st.paired && s.flag .clsp Clsp.PAIR_CFG_PAIR_EN then s.fld .clsp Clsp.HOLD_CFG_HOLD_NS else 0
  let cells (d c : Nat) : Nat := st.burst * (1 + ceilDiv (max d hold) st.interval) * c
  let own := st.outs.map (fun o =>
    let (d, i, _) := s.largest bounds st (o.2.map (fun i => (i, o.1)))
    (s.pathQueue st o.1, cells d (cellsOf st.sdu), st.n, false, i, o.1, st.tc))
  let rc := match st.pass2, st.outs with
    | true, o :: _ =>
      let d := (s.largest bounds st st.pathList).1
      let i := (s.largest bounds st (o.2.map (fun i => (i, o.1)))).2.1
      let m := st.ins.foldl (fun m i => max m (s.fld (.etp i) Etp.MAX_LEN_LEN)) 0
      [(s.defq 36 st.rc, cells d (cellsOf m), st.n, true, i, o.1, st.rc)]
    | _, _ => []
  own ++ rc

/-- The first refusal of phase 5: RESERVE_SHORT by ascending queue. -/
def State.phase5 (bounds : List NodeBound) (l : List Stream) : Option Refuse :=
  let all := l.flatMap (s.backlogs bounds)
  let short (q : Nat) : Option Refuse :=
    let mine := all.filter (fun x => x.1 == q)
    let sum := mine.foldl (fun n x => n + x.2.1) 0
    if s.reserve q < sum then
      mine.head?.map (fun x =>
        { detail := 0x19, value := sum, limit := s.reserve q, queue := q, path := some (x.2.2.1, x.2.2.2.1, x.2.2.2.2.1, x.2.2.2.2.2.1, x.2.2.2.2.2.2) })
    else none
  (List.range 4096).findSome? short

/-! ## The digest and the tables of a pass (R219, R220, R224) -/

/-- The record of a path. -/
def State.pathRecord (bounds : List NodeBound) (st : Stream) (i e : Nat) : List Byte :=
  leBytes 2 st.n ++ leBytes 1 i ++ leBytes 1 e ++ leBytes 4 st.budget ++ leBytes 4 (s.pathBound bounds st i e)

/-- The digest of a plan. -/
def State.planDigest (bounds : List NodeBound) (l : List Stream) : Nat :=
  let r := l.flatMap (fun st => st.pathList.flatMap (fun x => s.pathRecord bounds st x.1 x.2))
  if r.isEmpty then 0 else crc32c 0xFFFFFFFF r

/-- The words of RESULT of a stream. Of two egress ports with the same largest bound the lower is named, as R212 says of ingress ports (DESIGN
CHOICE, log entry 123). -/
def State.resultWords (bounds : List NodeBound) (st : Stream) : List (Nat × Word) :=
  let (d, i, e) := s.largest bounds st st.pathList
  [(tabKey .asy 1 st.n 0, BitVec.ofNat 32 d), (tabKey .asy 1 st.n 1, BitVec.ofNat 32 (e + 2 ^ 8 * i + 2 ^ 31))]

/-- The words of NODE of a node. A THETA beyond its word reads as the manual does not say: `open'`. -/
def nodeWords (n : Nat) (gated : Bool) (b : NodeBound) (open' : Nat) : List (Nat × Word) :=
  let th := ceilDiv b.theta 1000
  [(tabKey .asy 2 n 0, BitVec.ofNat 32 (b.rs % 2 ^ 25)), (tabKey .asy 2 n 1, BitVec.ofNat 32 (if th < 2 ^ 32 then th else open')),
   (tabKey .asy 2 n 2, BitVec.ofNat 32 (b.rho % 2 ^ 25)),
   (tabKey .asy 2 n 3, BitVec.ofNat 32 (b2n b.carries + 2 * b2n gated + 4 * b2n b.excl))]

end

end Sys2Proof.Machine
end

