-- ==== Sys2Proof/Machine/Checks.lean ====
section
/-! DEFINITION. The checks of a commit: field ranges, and what the chapters place under the Assayer's verdict (R37, R47, R58, R84, R147,
R170, R196, R272, R276, R289, R325, R333, R340, R342, R356, R357, R364, R482). -/
namespace Sys2Proof.Machine

/-- Where a field of a register lies for a refusal: the BAR0 address of its shadow register (R37). -/
def regPlace (p : Page) (off : Nat) : Option (Nat × Nat) := some (p.base + off + 0x700, 0)

/-- Where a word of a table lies for a refusal: the shadow TAB_DATA, and the word's place in ERR_ADDR_HI (R37). -/
def tabPlace (p : Page) (t e w : Nat) : Option (Nat × Nat) :=
  some (p.base + p.tabOff.getD 0 + 0x700, 2 ^ 31 + t * 2 ^ 24 + e * 2 ^ 8 + w)

/-- The refusal of a range check on a page. -/
def outOfRange (p : Page) (addr : Option (Nat × Nat)) : Refuse := { detail := 1, page := p.index, addr }

/-- The first failure of a list of checks: whether it fails, and where. -/
def firstBad (p : Page) (l : List (Bool × Option (Nat × Nat))) : Option Refuse :=
  (l.find? (fun x => x.1)).map (fun x => outOfRange p x.2)

/-- A refusal of a page with a detail. -/
def pageRefusal (p : Page) (detail : Nat) (value limit : Nat := 0) : Option Refuse := some { detail, value, limit, page := p.index }

/-- Nominal frequency of an island whose clock can be stepped, in MHz (R13). -/
def steppedMhz (i : Nat) : Option Nat :=
  match i with | 4 => some 1250 | 5 => some 1000 | 6 => some 1250 | 7 => some 1250 | 9 => some 1000 | 10 => some 400 | _ => none

/-- A data length that an authenticated frame of a channel of a PROTO can have (R332, R333): a classic frame's, or, where PROTO allows FD, an
FD frame's. CAN XL frames are never authenticated. -/
def authLenOk (proto n : Nat) : Bool := canLenOk (proto != 0) n

section
variable (t : State)

/-! ## Ranges of one page, on the values that would be active -/

/-- Ranges of an ETP page (R44, R60). -/
def State.etpRanges (n : Nat) : List (Bool × Option (Nat × Nat)) :=
  let p : Page := .etp n
  let mode := t.fld p Etp.MODE_MODE
  let max' := (decide (t.fld p Etp.MAX_LEN_LEN < 64) || decide (9216 < t.fld p Etp.MAX_LEN_LEN), regPlace p Etp.MAX_LEN_LEN.off)
  if n < 32 then
    [(decide (topMode n < mode) || (t.flag p Etp.MODE_FEC && mode != 4), regPlace p Etp.MODE_MODE.off), max',
     (decide (t.fld p Etp.CREDIT_CFG_INTERVAL < 200) || decide (10000 < t.fld p Etp.CREDIT_CFG_INTERVAL) ||
        t.fld p Etp.CREDIT_CFG_STALL_LIMIT == 0, regPlace p Etp.CREDIT_CFG_INTERVAL.off)]
  else [max']

/-- Ranges of BUF (R145, R147). -/
def State.bufRanges : List (Bool × Option (Nat × Nat)) :=
  (List.range 4096).map (fun q => (decide (64 < t.tabF .buf 0 q 0 6 0), tabPlace .buf 0 q 0)) ++
  (List.range 96).flatMap (fun i =>
    let on := t.flag .buf (Buf.DPROF_LO_EN i)
    [(on && decide (t.fld .buf (Buf.DPROF_HI_MAX i) < t.fld .buf (Buf.DPROF_LO_MIN i)), regPlace .buf (Buf.DPROF_LO_MIN i).off),
     (on && t.fld .buf (Buf.DPROF_HI_MAXP i) == 0, regPlace .buf (Buf.DPROF_HI_MAXP i).off)])

/-- Ranges of QSCH (R170, R174). -/
def State.qschRanges : List (Bool × Option (Nat × Nat)) :=
  let f := t.tabF .qsch
  let top (tab e w : Nat) : Bool × Option (Nat × Nat) := (decide (25000000 < f tab e w 24 0), tabPlace .qsch tab e w)
  (List.range 4096).flatMap (fun q =>
    [((decide (38 ≤ f 0 q 0 5 0) && f 0 q 0 5 0 != 63) || f 0 q 0 23 16 == 0, tabPlace .qsch 0 q 0), top 0 q 1]) ++
  (List.range 304).flatMap (fun n =>
    [(f 1 n 0 1 0 == 3 || f 1 n 0 15 8 == 0, tabPlace .qsch 1 n 0), top 1 n 1, (f 1 n 0 1 0 == 2 && f 1 n 1 24 0 == 0, tabPlace .qsch 1 n 1)]) ++
  (List.range 38).flatMap (fun p => [top 2 p 1, (f 2 p 0 8 8 == 1 && f 2 p 1 24 0 == 0, tabPlace .qsch 2 p 1)]) ++
  (List.range 2048).flatMap (fun m => [top 3 m 0, top 3 m 1])

/-- Ranges of a TGATE page and of the list it would make active (R196); `lost` are the words of that bank that cannot be read, at any place of
it (R194). -/
def State.gateRanges (n : Nat) (lost : List Nat) : List (Bool × Option (Nat × Nat)) :=
  let p : Page := .tgate n
  let len := t.fld p Tgate.LIST_LEN_LEN
  let a (k w : Nat) : Nat := gateAddr n (t.fld p Tgate.LIST_STATUS_ACTIVE) k + 4 * w
  let word (k w : Nat) : Nat := t.mem.win.num (a k w) 4
  [(decide (t.fld p Tgate.CYCLE_TIME_NS < 1000), regPlace p Tgate.CYCLE_TIME_NS.off),
   (decide (999999999 < t.fld p Tgate.BASE_NS_NS), regPlace p Tgate.BASE_NS_NS.off),
   (len == 0 || decide (1024 < len), regPlace p Tgate.LIST_LEN_LEN.off)] ++
  (List.range (min 1024 len)).flatMap (fun k =>
    [(256 ≤ word k 0 || lost.contains (2 * k), some (a k 0, 0)), (word k 1 == 0 || lost.contains (2 * k + 1), some (a k 1, 0))]) ++
  lost.map (fun x => (true, some (a 0 x, 0)))

/-- Ranges of FRER (R276). -/
def State.frerRanges : List (Bool × Option (Nat × Nat)) :=
  let f := t.tabF .frer 0
  (List.range 4096).flatMap (fun n =>
    [(f n 0 1 0 == 2 && (decide (f n 0 15 8 < 2) || decide (128 < f n 0 15 8)), tabPlace .frer 0 n 0),
     (f n 1 15 0 == 0, tabPlace .frer 0 n 1),
     (f n 2 3 0 == 1 || decide (8 < f n 2 3 0) || (decide (2 ≤ f n 2 3 0) && f n 2 31 16 == 0), tabPlace .frer 0 n 2)])

/-- Ranges of the pages that plans include (R215, phase 1). -/
def State.planRanges (p : Page) (lost : List Nat) : List (Bool × Option (Nat × Nat)) :=
  match p with
  | .clk => (List.range 14).map (fun i =>
      (decide (10 < t.kOf i) || ((steppedMhz i).isNone && t.kOf i != 0), regPlace .clk (Clk.ISL_F_K i).off))
  | .etp n => t.etpRanges n
  | .cls => (List.range 38).map (fun n => (t.fld .cls (Cls.PORT_CFG_PVID n) == 4095, regPlace .cls (Cls.PORT_CFG_PVID n).off))
  | .buf => t.bufRanges
  | .qsch => t.qschRanges
  | .tgate n => t.gateRanges n lost
  | .frer => t.frerRanges
  | .clsp =>
    let f := t.fld .clsp
    [(decide (f Clsp.PAIR_CFG_HEALTH_HOLD < 1) || decide (8 < f Clsp.PAIR_CFG_HEALTH_HOLD) || decide (f Clsp.PAIR_CFG_DIV_WINDOWS < 2),
      regPlace .clsp Clsp.PAIR_CFG_PAIR_EN.off),
     (decide (20000 < f Clsp.HOLD_CFG_HOLD_NS), regPlace .clsp Clsp.HOLD_CFG_HOLD_NS.off)]
  | _ => []

/-- Ranges of PRS (R84). -/
def State.prsRanges : List (Bool × Option (Nat × Nat)) :=
  let f := t.fld .prs
  [(decide (f Prs.BAROST_CFG_ETYPE < 0x600), regPlace .prs Prs.BAROST_CFG_ETYPE.off),
   (decide (f Prs.RTAG_CFG_ETYPE < 0x600), regPlace .prs Prs.RTAG_CFG_ETYPE.off)] ++
  (List.range 4).map (fun k =>
    (t.flag .prs (Prs.USER_ETYPE_EN k) && (decide (f (Prs.USER_ETYPE_ETYPE k) < 0x600) || decide (128 < f (Prs.USER_ETYPE_OFF k)) ||
      f (Prs.USER_ETYPE_OFF k) % 4 != 0), regPlace .prs (Prs.USER_ETYPE_ETYPE k).off))

/-- The enabled EtherTypes of PRS (R84). -/
def State.prsEtypes : List Nat :=
  let f := t.fld .prs
  [f Prs.BAROST_CFG_ETYPE, f Prs.RTAG_CFG_ETYPE] ++ (if t.flag .prs Prs.TPID_CFG_X_EN then [f Prs.TPID_CFG_TPID_X] else []) ++
  ((List.range 4).filter (fun k => t.flag .prs (Prs.USER_ETYPE_EN k))).map (fun k => f (Prs.USER_ETYPE_ETYPE k))

/-- The checks of R84 on a PRS configuration. -/
def State.prsRefusal : Option Refuse :=
  (firstBad .prs t.prsRanges).orElse (fun _ =>
    let l := t.prsEtypes
    let nm := t.fld .nm Nm.NM_CFG_ETYPE
    if l.eraseDups.length ≠ l.length ∨ l.any (fun e => namedEtypes.contains e || (nm != 0 && e == nm)) then pageRefusal .prs 0x30 else none)

/-! ## Pages of CAPS.TIMING = 0 -/

/-- Some word of a range of registers changes. -/
def wordsDiffer (s t : State) (p : Page) (offs : List Nat) : Bool := offs.any (fun o => s.word p o != t.word p o)

/-- The checks of a CAN page (R325, R333, R340); `s` is the state as it is. -/
def State.canRefusal (s t : State) (n : Nat) : Option Refuse :=
  let p : Page := .can n
  let f := t.fld p
  let phase (brp t1 t2 sjw : Fld) (low : Nat) : Bool × Option (Nat × Nat) :=
    (decide (f t1 < low) || decide (f t2 < low) || decide (f t2 < f sjw), regPlace p brp.off)
  let slow (brp t1 t2 : Fld) (top : Nat) : Bool := decide (160000000 ≤ top * ((f brp + 1) * (f t1 + f t2 + 3)))
  let auth (k : Nat) : Bool × Option (Nat × Nat) :=
    (decide (64 < f (Can.AUTH_CFG_DATA_LEN k)) || decide (4 < f (Can.AUTH_CFG_FV_BYTES k)) || f (Can.AUTH_CFG_MAC_LEN k) == 0 ||
      decide (16 < f (Can.AUTH_CFG_MAC_LEN k)), regPlace p (Can.AUTH_CFG_EN k).off)
  let ranges := [(f Can.MODE_PROTO == 3, regPlace p Can.MODE_PROTO.off),
    phase Can.NBT_BRP_M1 Can.NBT_TSEG1_M1 Can.NBT_TSEG2_M1 Can.NBT_SJW_M1 1,
    phase Can.DBT_BRP_M1 Can.DBT_TSEG1_M1 Can.DBT_TSEG2_M1 Can.DBT_SJW_M1 0,
    phase Can.XBT_BRP_M1 Can.XBT_TSEG1_M1 Can.XBT_TSEG2_M1 Can.XBT_SJW_M1 0,
    (t.flag p Can.MODE_XL_FAST && (f Can.XL_PWM_PWMS == 0 || f Can.XL_PWM_PWML == 0), regPlace p Can.XL_PWM_PWMS.off)] ++
    (List.range 8).map auth
  (firstBad p ranges).orElse (fun _ =>
    if s.st p ≠ 0 ∧ wordsDiffer s t p [0x100, 0x104, 0x108, 0x10C, 0x110, 0x114] then pageRefusal p 0xA0
    else if !(slow Can.NBT_BRP_M1 Can.NBT_TSEG1_M1 Can.NBT_TSEG2_M1 1000000 && slow Can.DBT_BRP_M1 Can.DBT_TSEG1_M1 Can.DBT_TSEG2_M1 10000000 &&
        slow Can.XBT_BRP_M1 Can.XBT_TSEG1_M1 Can.XBT_TSEG2_M1 20000000) then pageRefusal p 0xA1
    else if (List.range 8).any (fun k =>
        !authLenOk (f Can.MODE_PROTO) (f (Can.AUTH_CFG_DATA_LEN k) + f (Can.AUTH_CFG_FV_BYTES k) + f (Can.AUTH_CFG_MAC_LEN k))) then pageRefusal p 0xA2
    else none)

/-- The checks of a LIN page (R342). -/
def State.linRefusal (s t : State) (n : Nat) : Option Refuse :=
  let p : Page := .lin n
  let f := t.fld p
  let ranges := [(decide (f Lin.MODE_BAUD < 1000) || decide (20000 < f Lin.MODE_BAUD), regPlace p Lin.MODE_BAUD.off),
    (decide (64 < f Lin.SCHED_CFG_SCHED_LEN), regPlace p Lin.SCHED_CFG_SCHED_LEN.off)] ++
    (List.range 64).map (fun i => (f (Lin.ID_DIR i) == 3 || f (Lin.ID_LEN i) == 0 || decide (8 < f (Lin.ID_LEN i)), regPlace p (Lin.ID_DIR i).off)) ++
    (List.range 64).map (fun k => (f (Lin.SCHED_SLOT k) == 0, regPlace p (Lin.SCHED_SLOT k).off))
  (firstBad p ranges).orElse (fun _ => if s.st p ≠ 0 ∧ wordsDiffer s t p [0x100] then pageRefusal p 0xA0 else none)

/-- The enabled streams of a TSI table. -/
def State.enabled (tab : Nat) : List Nat := (List.range 32).filter (fun i => t.strEn tab i)

/-- The checks of TSI (R356). -/
def State.tsiRefusal : Option Refuse :=
  let rx := t.enabled 1
  let ranges := [0, 1].flatMap (fun tab => (List.range 32).flatMap (fun i =>
    [(tab == 1 && t.strEn 1 i && t.strF 1 i 0 30 25 == 0, tabPlace .tsi 1 i 0),
     (decide (512 < t.strFirst tab i + t.strCh tab i), tabPlace .tsi tab i 1)]))
  let clash (g : Nat → Nat → Bool) : Bool := rx.any (fun i => rx.any (fun j => decide (i < j) && g i j))
  let entry (a : Nat) : Bool :=
    let w := t.mem.win.num a 4
    w.testBit 15 && decide (w % 1024 < 512) && w % 32 == 0
  let page := 0x1E00000 + 0x1000 * (1 - t.fld .tsi Tsi.TSI_STATUS_ACTIVE)
  (firstBad .tsi ranges).orElse (fun _ =>
    if (t.enabled 0).any (fun i => decide (14 + (if t.strF 0 i 0 2 2 = 1 then 4 else 0) + 24 + t.strLen 0 i + 4 < 64)) then pageRefusal .tsi 0xB0
    else if clash (fun i j => t.strId 1 i == t.strId 1 j) then pageRefusal .tsi 0xB1
    else if clash (fun i j => decide (t.strFirst 1 i < t.strFirst 1 j + t.strCh 1 j) && decide (t.strFirst 1 j < t.strFirst 1 i + t.strCh 1 i)) then
      pageRefusal .tsi 0xB2
    else if (List.range 1024).any (fun o => entry (page + 4 * o) || entry (0x1E02000 + 4 * o)) then pageRefusal .tsi 0xB3
    else none)

/-- The checks of a REQUEST on a page of CAPS.TIMING = 0. -/
def State.ownRefusal (s : State) (p : Page) : Option Refuse :=
  let t := (s.applyRegs p).applyTabs p
  match p with
  | .prs => t.prsRefusal
  | .can n => State.canRefusal s t n
  | .lin n => State.linRefusal s t n
  | .tdm n => firstBad p [(decide (t.fld p Tdm.LINK_CFG_LOS_N < 10) || t.fld p Tdm.LINK_CFG_RDI_N == 0, regPlace (.tdm n) Tdm.LINK_CFG_LOS_N.off)]
  | .tsi => t.applyFixed.tsiRefusal
  | .fab => firstBad .fab ((List.range 4096).map (fun q =>
      let w := (t.tab .fab 0 q 0).toNat
      (w.testBit 31 && !w.testBit 12 && decide (15 < w % 4096), tabPlace .fab 0 q 0)))
  | _ => none

/-! ## Block checks of the verdict (R215, phase 2) -/

/-- A queue is attached to a port (R150, R174). -/
def State.attached (q p : Nat) : Bool := t.tabF .qsch 0 q 0 5 0 == p

/-- CLK (R482). -/
def State.clkCheck (s t : State) : Option Refuse :=
  let short (i : Nat) : Bool :=
    match steppedMhz i with
    | none => false
    | some f =>
      let ko := s.kOf i
      let kn := t.kOf i
      let left : Int := (s.fld .age (Age.MARGIN_MARGIN_WC i) : Int) - s.fld .age Age.CFG_M_MIN
      decide (kn < ko) && decide (left * ((f * (100 - ko) * (100 - kn) : Nat) : Int) < ((10 ^ 8 * (ko - kn) : Nat) : Int))
  if (List.range 14).any short then pageRefusal .clk 0xD0 else none

/-- An ETP page (R47, R58). -/
def State.etpCheck (s t : State) (n : Nat) : Option Refuse :=
  let p : Page := .etp n
  let same (f : Fld) : Bool := s.fld p f == t.fld p f
  if n < 32 then
    if s.st p ≠ 0 ∧ !(same Etp.MODE_MODE && same Etp.MODE_FEC && same Etp.MODE_ROLE) then pageRefusal p 0x20
    else if 64 < t.fld p Etp.LOSSLESS_CABLE_M then pageRefusal p 0x21
    else none
  else none

/-- BUF (R147). -/
def State.bufCheck : Option Refuse :=
  let okDest (d q : Nat) : Bool := decide (d ≤ 35) && t.attached q d
  if 130464 < reserveSum t.tabs.cells + t.hrTotal then pageRefusal .buf 0x50
  else if 64 < ((List.range 4096).filter (fun q => t.tabF .buf 0 q 0 7 7 == 1)).length then pageRefusal .buf 0x51
  else if (List.range 4).any (fun m => t.flag .buf (Buf.MIR_CFG_EN m) && !okDest (t.fld .buf (Buf.MIR_CFG_DEST m)) (t.fld .buf (Buf.MIR_CFG_QUEUE m))) ||
      (t.flag .buf Buf.LOUPE_CFG_EN && !okDest (t.fld .buf Buf.LOUPE_DEST_DEST) (t.fld .buf Buf.LOUPE_DEST_QUEUE)) then pageRefusal .buf 0x52
  else none

/-- QSCH (R152, R170). -/
def State.qschCheck (s t : State) : Option Refuse :=
  let f := t.tabF .qsch
  let b := t.activeBank
  let cbs (p : Nat) : List Nat := ((List.range 8).map (fun k => 8 * p + k)).filter (fun n => f 1 n 0 1 0 == 1)
  let slope (p : Nat) : Bool := (cbs p).any (fun n => f 1 n 1 24 0 == 0) ||
    (!(cbs p).isEmpty && decide (t.portKbps p ≤ (cbs p).foldl (fun m n => m + f 1 n 1 24 0) 0))
  let badSel (n : Nat) : Bool :=
    let k := t.ctxF n b 0 15 8
    k != 0 && (t.ctxDest n).any (fun p =>
      let q := f 2 p 3 11 0 + k - 1
      decide (f 2 p 3 28 16 < k) || decide (4096 ≤ q) || !t.attached q p || f 0 q 0 10 8 != t.ctxF n b 0 6 4)
  let moved (q : Nat) : Bool :=
    let o := s.tabF .qsch 0 q 0 5 0
    o != f 0 q 0 5 0 && o != 63 && !(s.st (.etp o) == 0 && (s.queue q).copies.isEmpty)
  let range (p : Nat) : Bool :=
    decide (4096 < f 2 p 3 11 0 + f 2 p 3 28 16) || (List.range (f 2 p 3 28 16)).any (fun i => !t.attached (f 2 p 3 11 0 + i) p)
  let node (n : Nat) : Bool := !t.attached (f 1 n 0 27 16) (n / 8) || f 0 (f 1 n 0 27 16) 0 10 8 != n % 8
  if (List.range 38).any slope then pageRefusal .qsch 0x60
  else if t.validCtxs.any badSel then pageRefusal .qsch 0x61
  else if (List.range 4096).any moved then pageRefusal .qsch 0x62
  else if (List.range 38).any range then pageRefusal .qsch 0x63
  else if (List.range 304).any node then pageRefusal .qsch 0x64
  else none

/-- A TGATE page (R186, R190, R192, R196). -/
def State.gateCheck (s t : State) (n : Nat) : Option Refuse :=
  let p : Page := .tgate n
  let c := t.sched n false
  let narrow (k : Nat) : Bool :=
    let l := (c.opens k).map (fun x => (c.windowLeft k (c.base + x)).getD 0)
    !l.isEmpty && l.all (fun w => decide (w ≤ t.guardNs n))
  let old := s.sched n false
  let tv := s.domNs c.dom
  let far := (old.en || c.en) && decide (tv + 4294967295 < takeover old c tv)
  if s.gateDom n ≠ t.gateDom n ∧ s.st p ≠ 0 then pageRefusal p 0x70
  else if far then pageRefusal p 0x71
  else if c.guard ∧ (List.range 8).any narrow then pageRefusal p 0x72
  else none

/-- FRER (R276). -/
def State.frerCheck : Option Refuse :=
  let b := t.activeBank
  let l := t.validCtxs.filter (fun n => t.ctxF n b 0 2 2 == 1)
  if l.any (fun n => decide (4095 < t.ctxF n b 1 28 16)) then pageRefusal .frer 0x80
  else if l.any (fun n => t.frerMode (t.ctxF n b 1 28 16) == 0) then pageRefusal .frer 0x81
  else none

/-- The queues that a context names through QSEL. -/
def State.ctxQueues (n : Nat) : List Nat :=
  let k := t.ctxF n t.activeBank 0 15 8
  if k = 0 then [] else (t.ctxDest n).map (fun p => t.tabF .qsch 2 p 3 11 0 + k - 1)

/-- CLSP (R289). -/
def State.clspCheck (s t : State) : Option Refuse :=
  let b := t.activeBank
  let paired := t.pairedCtxs
  let plain := t.validCtxs.filter (fun n => !paired.contains n)
  let et := t.fld .clsp Clsp.PAIR_CFG_CTL_ETYPE
  let same (f : Fld) : Bool := s.fld .clsp f == t.fld .clsp f
  if paired.any (fun n => (t.ctxDest n).contains 37) then pageRefusal .clsp 0x90
  else if paired.any (fun n => t.ctxF n b 0 2 2 == 1 && t.frerMode (t.ctxF n b 1 28 16) == 1) then pageRefusal .clsp 0x91
  else if paired.any (fun n => t.ctxF n b 0 15 8 == 0 || (t.ctxQueues n).any (fun q => plain.any (fun m => (t.ctxQueues m).contains q))) then
    pageRefusal .clsp 0x92
  else if s.st .clsp ≠ 0 ∧ !(same Clsp.PAIR_CFG_PAIR_EN && same Clsp.PAIR_CFG_PAIR_ID && same Clsp.PAIR_CFG_CTL_ETYPE) then pageRefusal .clsp 0x93
  else if et < 0x600 ∨ et = t.fld .prs Prs.BAROST_CFG_ETYPE ∨ et = t.fld .prs Prs.BAROST_CFG_ETYPE.sh ∨
      (t.fld .nm Nm.NM_CFG_ETYPE ≠ 0 ∧ et = t.fld .nm Nm.NM_CFG_ETYPE) then pageRefusal .clsp 0x94
  else none

/-- The block checks of one page in a plan that includes `inc`. -/
def State.blockCheck (s t : State) (inc : List Page) (p : Page) : Option Refuse :=
  let has (q : Page) : Bool := inc.contains q
  let etp := inc.any (fun q => match q with | .etp _ => true | _ => false)
  match p with
  | .clk => if has p then State.clkCheck s t else none
  | .etp n => if has p then State.etpCheck s t n else none
  | .prs => if has .cls then t.prsRefusal else none
  | .buf => if has .buf || etp || has .clsp then t.bufCheck else none
  | .qsch => if has .qsch || has .cls then State.qschCheck s t else none
  | .tgate n => if has p then State.gateCheck s t n else none
  | .frer => if has .frer || has .cls then t.frerCheck else none
  | .clsp => if has .clsp || has .cls then State.clspCheck s t else none
  | .msec =>
    let sum := t.lanesSum
    if (has .msec || (has .clk && s.kOf 7 != t.kOf 7)) && decide (124 < sum) then pageRefusal .msec 0xC0 sum 124 else none
  | _ => none

/-- Every page of the device, in ascending summary index. -/
def allPages : List Page := (List.range 266).filterMap Page.ofIndex

/-- Phase 1 of a plan (R215). -/
def State.phase1 (s t : State) (c : Plan) (inc : List Page) : Option Refuse :=
  if !c.asyOk then pageRefusal .asy 2
  else inc.findSome? (fun p =>
    match p with
    | .tgate n =>
      if t.flag p Tgate.GATE_CFG_GATE_EN ∧ s.st p ≠ 1 then pageRefusal p 2
      else firstBad p (t.planRanges p (s.gate n).lost)
    | _ => firstBad p (t.planRanges p []))

/-- Phase 2 of a plan (R215). -/
def State.phase2 (s t : State) (inc : List Page) : Option Refuse := allPages.findSome? (State.blockCheck s t inc)

end

end Sys2Proof.Machine
end

