-- ==== Sys2Proof/Machine/Assayer.lean ====
section
/-! DEFINITION. Commits: REQUEST, ABANDON, and the Assayer's verdict (R36, R37, R84, R112, R114, R115, R189, R190, R215–R221, R352). -/
namespace Sys2Proof.Machine

/-- What a check of the Assayer comes to: a refusal, or a pass with its digest, paths, streams and the words of RESULT and NODE (R219). -/
inductive Assay where
  | refused (r : Refuse)
  | passed (digest paths streams : Nat) (table : List (Nat × Word))
  deriving DecidableEq, Repr

section
variable (s : State)

/-! ## The check (R202, R215) -/

/-- The state whose active values are those that a plan including `inc` would make active. -/
def State.wouldBe (inc : List Page) : State :=
  let t := s.each inc (fun t p =>
    match p with
    | .cls => t.flipBank
    | .tgate _ => (t.applyRegs p).setFld p Tgate.LIST_STATUS_ACTIVE (1 - t.fld p Tgate.LIST_STATUS_ACTIVE)
    | _ => (t.applyRegs p).applyTabs p)
  t.each hrPorts State.setHeadroom

/-- The pages whose shadow values a plan takes: none for a verify (R221). -/
def Plan.takes (c : Plan) : List Page := if c.verify then [] else c.included

/-- The check of a plan, phase by phase. `bad` is the place of an ASY table word found uncorrectable, as ERR_ADDR_HI writes it (R37): the check reads
the SRC table once phases 1 and 2 have passed (R216; DEDUCED, log entry 95). -/
def State.assay (c : Plan) (bad : Option Nat) : Assay :=
  let inc := c.takes
  let t := s.wouldBe inc
  match ((State.phase1 s t c inc).orElse (fun _ => State.phase2 s t inc)).orElse (fun _ =>
      bad.map (fun a => { detail := 0x1A, value := a })) with
  | some r => .refused r
  | none =>
    let l := t.streams
    match t.phase3 0 l with
    | some r => .refused r
    | none =>
      let gates (p : Nat) : PlanGates := planGates s t p (inc.contains (.tgate p))
      let bounds := t.allBounds gates (t.loads l)
      match (t.phase4 bounds l).orElse (fun _ => t.phase5 bounds l) with
      | some r => .refused r
      | none =>
        let gated (n : Nat) : Bool := match (gates (n / 8)).sides.getLast? with | some (.list _) => true | _ => false
        let nodes := (List.range 304).flatMap (fun n => nodeWords n (gated n) (bounds.getD n {}) (Config.freeNat (s.frees + n)))
        .passed (t.planDigest bounds l) (l.foldl (fun n st => n + st.paths) 0) l.length (l.flatMap (t.resultWords bounds) ++ nodes)

/-! ## Refusal (R37, R216) -/

/-- A word of the refusal registers; the manual states none for a value beyond 32 bits. -/
def State.refuseWord (f : Fld) (v : Nat) : State :=
  if v < 2 ^ 32 then s.setFld .asy f v
  else
    let (x, s) := s.draw (2 ^ 32)
    s.setFld .asy f x

/-- The refusal registers of ASY. A refusal of phase 1 or 2 for which no chapter gives REFUSE_VALUE and REFUSE_LIMIT leaves 0 in them (DESIGN
CHOICE, log entry 123). -/
def State.refuseRegs (r : Refuse) : State :=
  let (n, h, i, e, k) := r.path.getD (0, false, 0, 0, 0)
  let w := n % 2 ^ 13 + b2n h * 2 ^ 13 + i % 64 * 2 ^ 16 + e % 64 * 2 ^ 22 + k % 8 * 2 ^ 28 + b2n r.path.isSome * 2 ^ 31
  let s := (s.setFld .asy Asy.REFUSE_DETAIL_DETAIL r.detail).setWord .asy Asy.REFUSE_PATH_CTX.off (BitVec.ofNat 32 w)
  let s := (s.refuseWord Asy.REFUSE_VALUE_VALUE r.value).refuseWord Asy.REFUSE_LIMIT_LIMIT r.limit
  (s.setFld .asy Asy.REFUSE_WHERE_PAGE r.page).setFld .asy Asy.REFUSE_WHERE_QUEUE r.queue

/-- A page reports a refusal. -/
def State.reportRefusal (p : Page) (r : Refuse) : State :=
  let s := s.setStatus p 3 r.detail
  match r.addr with | some (lo, hi) => s.refusalAddr p lo hi | none => s

/-- A plan commit or a verify is refused. -/
def State.refusePlan (c : Plan) (r : Refuse) : State :=
  let s := ({ s with plan := none }.each c.included (fun s p => s.reportRefusal p r)).refuseRegs r
  if c.verify then (s.logErr .asy 0x20 srcDevice).raise .asy 11
  else (s.bump .asy Asy.CNT_PLANS_REFUSED).raise .asy 9

/-! ## Pass (R190, R219) -/

/-- The generation after the present one. -/
def State.nextGen : Nat := if s.planGen = 0xFFFFFFFF then 1 else s.planGen + 1

/-- The take-over of an included TGATE page is set, or comes at once where neither list is gated (R190). -/
def State.gatePlan (p : Nat) : State :=
  let g : Page := .tgate p
  let old := s.sched p false
  let new := s.sched p true
  let ct := takeover old new (s.domNs new.dom)
  let s := ((s.setFld g Tgate.CT_NS_NS (ct % 10 ^ 9)).setFld g Tgate.CT_S_LO_S (ct / 10 ^ 9)).setFld g Tgate.CT_S_HI_S (ct / 10 ^ 9 / 2 ^ 32)
  if old.en ∨ new.en then (s.mapGate p (fun x => { x with ct := some ct })).setFld g Tgate.LIST_STATUS_CHANGE_PENDING 1
  else s.gateTake p

/-- What an included page does at the pass verdict: CLS swaps its bank, TGATE sets its take-over, a page in OFF applies at once, every
other page waits for its boundary, but for the queues that QSCH moves (R152). -/
def State.planStart (gen : Nat) (p : Page) : State :=
  match p with
  | .cls => s.bankSwap gen
  | .tgate n => s.gatePlan n
  | .clk => s
  | _ => if s.st p = 0 then (s.applyPage p).arrive p else if p = .qsch then s.applyMoves else s

/-- A plan passes. -/
def State.passPlan (c : Plan) (digest paths streams : Nat) (table : List (Nat × Word)) : State :=
  let gen := s.nextGen
  let s := { s with plan := some { c with passed := true, waiting := c.included, gen, digest, paths, streams, table } }
  let s := s.bump .asy Asy.CNT_PLANS_ACCEPTED
  let s := if c.included.any (fun p => p = .cls || (s.st p == 0 && p != .clk)) then s.poolLower c.included else s
  (s.each c.included (fun s p => s.planStart gen p)).planDone

/-- A verify passes, or shows another digest (R221). -/
def State.passVerify (c : Plan) (digest : Nat) : State :=
  let was := s.fld .asy Asy.HALLMARK_DIGEST_DIGEST
  if digest = was then { s with plan := none }.setStatus .asy 2 (s.planGen % 65536)
  else s.refusePlan c { detail := 0x1B, value := digest, limit := was }

/-- The Assayer's verdict on the check in progress. The check has corrected `corr` words of the ASY tables (R224), and met the uncorrectable one
`bad`. CHECK_TIME takes the time since the REQUEST (R217). -/
def State.verdict (bad : Option Nat) (corr : Nat) : State :=
  match s.plan with
  | none => s
  | some c =>
    if c.passed then s
    else
      let a := s.assay c bad
      let s := ((s.drew 304).setFld .asy Asy.CHECK_TIME_NS (s.now - c.start)).bump .asy Asy.CNT_ECC_CORR corr
      let s := s.bump .asy Asy.CNT_PLANS_CHECKED
      let s := match a with
        | .refused r => s.refusePlan c r
        | .passed digest paths streams table =>
          if c.verify then s.passVerify c digest else s.passPlan c digest paths streams table
      if c.verify then (s.bump .asy Asy.CNT_VERIFIES).raise .asy 10 else s

/-! ## REQUEST (R37) -/

/-- A REQUEST is discarded: BUSY is logged on the page, and its COMMIT event is set. -/
def State.requestBusy (src : Src) (p : Page) : State := (s.refuse src p 7 Hdr.COMMIT_REQUEST.off).raise p 2

/-- A REQUEST that finds another commit under way: a page that is not part of it goes to BUSY. -/
def State.requestBarred (src : Src) (p : Page) (included : Bool) : State :=
  let s := if included then s else (s.setFld p Hdr.COMMIT_STATUS_STATUS 4).setFld p Hdr.COMMIT_STATUS_DETAIL 0
  s.requestBusy src p

/-- The pages that a REQUEST on a timing page includes besides it: PENDING, and of the requester's class or SHARED (R37). A page whose island
is not ON is left out: the manual does not name it (DESIGN CHOICE, log entry 82). -/
def State.joins (src : Src) (p : Page) : Bool :=
  p.timing && s.pageOn p && s.flag p Hdr.COMMIT_STATUS_PENDING && (s.ownerClass p == 3 || s.ownerClass p == src.cls)

/-- A non-zero root of the standby bank that names no node (R115): the window address of its word. -/
def State.badRoot : Option Nat :=
  let b := 1 - s.activeBank
  ((List.range 16).flatMap (fun z => (List.range 4).map (fun k => (z, s.treeWord b z / 2 ^ (32 * k) % 2 ^ 32)))).findSome? (fun x =>
    if x.2 ≠ 0 ∧ (x.2 < 544 ∨ 262143 < x.2) then some (treeAddr b x.1) else none)

/-- A plan commit or a verify starts. -/
def State.planRequest (src : Src) (p : Page) : State :=
  let others := allPages.filter (fun q => if q = p then q != .asy || s.joins src q else s.joins src q)
  let c : Plan := { requester := p, included := if others.isEmpty then [.asy] else others, verify := others.isEmpty, asyOk := s.inRun .asy
                    start := s.now }
  let s := { s.each c.included (fun s q => s.setStatus q 1 0) with plan := some c }
  if c.included.contains .cls ∧ !c.verify then
    if s.cloning .cls then s.refusePlan c { detail := 0x40, page := Page.cls.index }
    else match s.badRoot with
      | some a => s.refusePlan c { detail := 0x41, page := Page.cls.index, addr := some (a, 0) }
      | none => s
  else s

/-- A REQUEST on a page of CAPS.TIMING = 0. -/
def State.ownRequest (src : Src) (p : Page) : State :=
  if s.checking p then s.requestBusy src p
  else
    let r := s.ownRefusal p
    let s := s.setStatus p 1 0
    match r with
    | some r => s.reportRefusal p r
    | none =>
      let s := { s with applying := s.applying ++ [p] }
      let bare := p.shadowed.isEmpty && p.shadowTables.isEmpty
      if p = .tsi ∧ s.st p = 0 then (s.applyOwn p).connSwap
      else if p ≠ .prs ∧ p ≠ .tsi ∧ (s.st p = 0 ∨ bare) then s.applyOwn p
      else s

/-- A write of COMMIT.REQUEST by an owner. While a plan commit is CHECKING it is discarded on every page, of CAPS.TIMING = 0 too (R37, R84,
R112, R190); a page that shows CHECKING then, by the plan or by a commit of its own, keeps it (log entry 27). -/
def State.request (src : Src) (p : Page) : State :=
  let gate := match p with | .tgate _ => s.cloning p | _ => false
  if s.plan.isSome then s.requestBarred src p (s.checking p)
  else if p.timing then
    if gate then s.requestBarred src p false else s.planRequest src p
  else s.ownRequest src p

/-! ## ABANDON (R37, R114, R189, R352) -/

/-- The active view is copied into the shadow view; PENDING clears, STATUS goes to IDLE. -/
def State.keepView (p : Page) : State :=
  (((s.keepRegs p).keepTabs p).setFld p Hdr.COMMIT_STATUS_PENDING 0).setStatus p 0 0

/-- A write of COMMIT.ABANDON by an owner. While TSI clones it is discarded, whatever STATUS is (R352). On a TGATE page that is CHECKING, for a
REQUEST made elsewhere while its clone runs, it stops the check (R37) and R189's BUSY is not logged (DEDUCED, log entry 122). -/
def State.abandon (src : Src) (p : Page) : State :=
  let busy := s.refuse src p 7 Hdr.COMMIT_ABANDON.off
  if p = .tsi ∧ s.cloning p then busy
  else if s.checking p then
    if p.timing then (if s.checkOpen then s.stopCheck.bump .asy Asy.CNT_CHECKS_ABANDONED else s)
    else if s.applying.contains p then { s with applying := s.applying.filter (· != p) }.setStatus p 0 0
    else s
  else match p with
    | .cls =>
      if s.cloning p then busy
      else if s.recircCount (1 - s.activeBank) ≠ 0 then s.refuse src p 0x20 Hdr.COMMIT_ABANDON.off
      else s.setFld .cls Cls.BANK_STATUS_CLONE_BUSY 1
    | .prs =>
      (match s.standbyShut .prs with
       | some code => s.refuse src p code Hdr.COMMIT_ABANDON.off
       | none => s.keepView p)
    | .tgate _ => if s.cloning p then busy else (s.keepView p).setFld p Tgate.LIST_STATUS_CLONE_BUSY 1
    | .tsi => { (s.keepView p).setFld .tsi Tsi.TSI_STATUS_CLONE_BUSY 1 with tsi := { s.tsi with cloneOf := s.bankOf .tsi } }
    | _ => s.keepView p

/-- A write of COMMIT: ABANDON prevails over REQUEST. -/
def State.commitWrite (src : Src) (p : Page) (v : Nat) : State :=
  if v.testBit 1 then s.abandon src p else if v.testBit 0 then s.request src p else s

end

/-! ## The commands -/

def execCommitRequest (src : Src) (p : Page) (s : State) : Host.Outcome State Fault Refusal :=
  .next (s.live (fun s => s.guard src p Hdr.COMMIT_REQUEST.off (fun s => s.request src p)))
def execCommitAbandon (src : Src) (p : Page) (s : State) : Host.Outcome State Fault Refusal :=
  .next (s.live (fun s => s.guard src p Hdr.COMMIT_ABANDON.off (fun s => s.abandon src p)))
def execAssayerVerdict (bad : Option Nat) (corr : Nat) (s : State) : Host.Outcome State Fault Refusal := .next (s.live (fun s => s.verdict bad corr))

end Sys2Proof.Machine
end

