-- ==== Sys2Proof/Machine/Banks.lean ====
section
/-! DEFINITION. Writes of the rule banks, of the FIB and of the connection pages, clones, and the small rows of BUF, QSCH, FAB and FRER
(R101–R120, R134, R142, R144, R167, R172, R176, R253, R261, R267, R351, R352). -/
namespace Sys2Proof.Machine

/-- The bits of a word of a context's configuration copy that have a field (R102). -/
def ctxMask (k : Nat) : Nat :=
  match k with | 0 => 0x03FFFF7F | 1 => 0x1FFF07FF | 2 => 0x3FFF3FFF | 3 => 0xFFFF | 4 => 0xFFFFFFFF | 5 => 0xFFFFFFFF | _ => 0

/-- The bits of a 32-bit word of tree memory that have a field: the root table and its reserved words have fewer (R90). A node word is held as it
is written, the bits too that R91 gives as 0 for its type: whether they are reserved bits of R5 is not said (DESIGN CHOICE, log entry 118). -/
def treeMask (a : Nat) : Nat :=
  let w := (a - 0x1000000) % 0x400000 / 16
  if w < 16 then 0x3FFFF else if w < 32 then 0 else if w < 544 ∧ a / 4 % 2 = 1 then 0x3F else 0xFFFFFFFF

/-- The bits of a word of a FIB entry that have a field (R106, R107). -/
def fibMask (a : Nat) : Nat :=
  if a < 0x1900000 then (match a / 4 % 4 with | 1 => 0x8FFFFFFF | 2 => 0xFFFF0003 | 3 => 1 | _ => 0xFFFFFFFF)
  else if a < 0x1910000 then (match a / 4 % 4 with | 1 => 0x3F | 2 => 7 | 3 => 0 | _ => 0xFFFFFFFF)
  else 0xBF3F

section
variable (s : State)

/-- A 32-bit word of the table windows. -/
def State.winWord (a v m : Nat) : State := s.setWin (s.mem.win.putNum a 4 ((BitVec.ofNat 32 v) &&& (BitVec.ofNat 32 m)).toNat)

/-- A write of a table window, by the owner of the page that owns the window; others are refused (R39). -/
def State.guardWin (src : Src) (p : Page) (a : Nat) (act : State → State) : State :=
  s.arrives src (fun s =>
    if !s.pageOn p then s.logErr .sys 3 src.code a
    else if s.owns src p then (if s.barred src p then s else act s) else s.notOwner src p a)

/-! ## The rule banks (R110, R111) -/

/-- A write to a bank at its window address, by an owner of CLS. -/
def State.bankPut (src : Src) (a v : Nat) : State :=
  match Page.cls.bankMate a with
  | some (b, _) =>
    if b = s.activeBank then s.logErr .cls 0x20 src.code a
    else match s.standbyShut .cls with
      | some code => s.logErr .cls code src.code a
      | none => (s.winWord a v (if a < 0x1A00000 then treeMask a else ctxMask (a % 32 / 4))).setPending .cls
  | none => s

/-- A word written to tree memory or to a stream context. The state bytes of a context take no write (R103). -/
def State.bankWrite (src : Src) (a v : Nat) : State :=
  if 0x1A00000 ≤ a ∧ 128 ≤ a % 256 then
    s.arrives src (fun s =>
      if !s.pageOn .cls then s.logErr .sys 3 src.code a
      else if s.actsTrusted src then s else s.notOwner src .cls a)
  else s.guardWin src .cls a (fun s => s.bankPut src a v)

/-- The bank clone ends (R114). -/
def State.bankCloned : State :=
  if s.cloning .cls then
    let s := ((s.setWin (s.cloneWin .cls s.activeBank)).keepRegs .cls).keepRegs .prs
    let s := ((s.setFld .cls Cls.BANK_STATUS_CLONE_BUSY 0).setFld .cls Hdr.COMMIT_STATUS_PENDING 0).setFld .prs Hdr.COMMIT_STATUS_PENDING 0
    (s.raise .cls 10).setStatus .cls 0 0
  else s

/-! ## The FIB (R107, R108, R120) -/

/-- The staging of a master. -/
def State.staged (src : Src) (w : Nat) : Word := s.dp.fibStage.get (4 * src.code + w)
def State.stage (src : Src) (w : Nat) (v : Word) : State := s.mapDp (fun d => { d with fibStage := d.fibStage.set (4 * src.code + w) v })
def State.stageClear (src : Src) : State := s.each [0, 1, 2] (fun s w => s.stage src w 0)

/-- A word written to the FIB window by an owner of FIB. -/
def State.fibPut (src : Src) (a v : Nat) : State :=
  if 0x1910000 ≤ a then s.winWord a v (fibMask a)
  else
    let w := a / 4 % 4
    if w < 3 then s.stage src w (BitVec.ofNat 32 v)
    else
      let t := s.each [0, 1, 2] (fun t w => t.winWord (a - 12 + 4 * w) (s.staged src w).toNat (fibMask (a - 12 + 4 * w)))
      (t.winWord a v (fibMask a)).stageClear src

/-- A word written to the FIB window. -/
def State.fibWrite (src : Src) (a v : Nat) : State := s.guardWin src .fib a (fun s => s.fibPut src a v)

/-! ## The connection pages (R352) -/

/-- A word written to the connection window. -/
def State.tsiWrite (src : Src) (a v : Nat) : State := s.guardWin src .tsi a (fun s => s.connWrite src a (leBytes 4 v))

/-- The clone of the connection pages ends: the page that was active at its start has been copied, though a swap came meanwhile (R352). -/
def State.tsiCloned : State :=
  if s.cloning .tsi then ((s.setWin (s.cloneWin .tsi s.tsi.cloneOf)).setFld .tsi Tsi.TSI_STATUS_CLONE_BUSY 0).raise .tsi 8 else s

/-! ## BUF and QSCH (R134, R142, R144, R167, R176) -/

/-- One raw sample of the source in the repetition count test and in the adaptive proportion test of SP 800-90B, whose window is 1024 (R468):
the tests after it, and whether one of them has failed. -/
def Trng.sample (rctCut aptCut : Nat) (x : Trng × Bool × Bool) (b : Bool) : Trng × Bool × Bool :=
  let (t, rct, apt) := x
  let run := if t.last = some b then t.run + 1 else 1
  let first := if t.pos = 0 then b else t.first
  let count := if t.pos = 0 then 1 else if b = first then t.count + 1 else t.count
  ({ t with last := some b, run, first, count, pos := (t.pos + 1) % 1024, seen := min 1024 (t.seen + 1) },
    rct || decide (rctCut ≤ run), apt || decide (aptCut ≤ count))

/-- The raw bits that a seed of 384 bits takes, of half a bit of entropy each (R468). -/
def seedBits : Nat := 768

/-- The entropy source ends a millisecond in which it has sampled `bits`. Its health tests pass, and the start-up tests have: a seed is delivered, and
the generators of its users start anew; their values stay free (R134, R468). A test fails: the seed is withheld. MSEC is told where no seed comes
(R366; log entry 126). -/
def State.reseed (bits : List Bool) : State :=
  let (t, rct, apt) := bits.foldl (Trng.sample (s.fld .trng Trng.HEALTH_CFG_RCT_CUTOFF) (s.fld .trng Trng.HEALTH_CFG_APT_CUTOFF))
    (s.sec.trng, false, false)
  let seed := !rct && !apt && t.seen == 1024 && decide (seedBits ≤ bits.length)
  let s := ({ s with sec := { s.sec with trng := { t with starved := !seed } } }).bump .trng Trng.CNT_RAW_BITS bits.length
  let s := if rct then (s.setFld .trng Trng.STATUS_RCT_FAIL 1).bump .trng Trng.CNT_RCT_FAILS else s
  let s := if apt then (s.setFld .trng Trng.STATUS_APT_FAIL 1).bump .trng Trng.CNT_APT_FAILS else s
  let s := if rct ∨ apt then (s.setFld .trng Trng.STATUS_HEALTHY 0).raise .trng 8 else s
  if seed then (s.bump .trng Trng.CNT_SEEDS).setFld .trng Trng.STATUS_HEALTHY 1
  else s.clocked .msec (fun s => s.raise .msec 10)

/-- A read of QSTAT_PEAK: it shows the highest occupancy of the queue selected. R4 says that an RC read clears the field, R144 that the field
holds the highest occupancy since the last read: it starts again from the present occupancy (DESIGN CHOICE, log entry 117). -/
def State.peakRead : Nat × State :=
  let q := s.fld .buf Buf.QSTAT_SEL_QUEUE
  ((s.queue q).peak, s.mapQueue q (fun x => { x with peak := x.used }))

/-- The scrubber reads both copies of a word: `bad` of them are uncorrectable. -/
def State.scrub (p : Page) (bad cnt evt code : Nat) : State :=
  if bad = 0 then s else if bad = 1 then (s.bump p cnt).raise p evt else s.fault p code

/-- METER_CLR (R167). -/
def State.meterClr (v : Nat) : State := if v.testBit 31 then s.mapMeter (v % 2048) (fun m => { m with marked := false }) else s

/-- A read of LOCAL_NS_LO latches the high word (R172). -/
def State.localRead : Nat × State := (s.now % 2 ^ 32, s.setFld .qsch Qsch.LOCAL_NS_HI_NS (s.now / 2 ^ 32))

/-- A register read that an effect goes with: the word is presented; a page of an island that is not ON reads 0 (R25, R422). -/
def State.readReg (p : Page) (off : Nat) (f : State → Nat × State) : State :=
  if s.pageOn p then
    let (v, s) := f s
    s.emit (.readData (p.base + off) 4 v)
  else s.emit (.readData (p.base + off) 4 0)

/-! ## FAB and FRER (R261, R267) -/

/-- A write of FAB.NODE. -/
def State.nodeWrite (id : Nat) (valid : Bool) : State :=
  let w := s.word .fab Fab.NODE_ID.off
  let s := (s.setFld .fab Fab.NODE_ID id).setFld .fab Fab.NODE_VALID (b2n valid)
  if s.word .fab Fab.NODE_ID.off = w then s else s.raise .fab 13

/-- The failover scan of a fabric port that has left UP or RUN (R253). -/
def State.failoverScan (p : Nat) : State := if p < 32 ∧ s.fabricPort p ∧ !s.portUp p then s.failover p else s

/-- The scanner visits every function (R267). -/
def State.frerSweep : State :=
  let s := s.each s.frer.keys State.frerVisit
  { s with frerScan := s.now }

end

/-! ## The commands -/

def execBankWrite (src : Src) (a v : Nat) (s : State) : Host.Outcome State Fault Refusal := .next (s.live (fun s => s.bankWrite src a v))
def execBankCloneDone (s : State) : Host.Outcome State Fault Refusal := .next (s.live (fun s => s.bankCloned))
def execFibStageWrite (src : Src) (a v : Nat) (s : State) : Host.Outcome State Fault Refusal := .next (s.live (fun s => s.fibWrite src a v))
def execFibEntryApply (src : Src) (a v : Nat) (s : State) : Host.Outcome State Fault Refusal := .next (s.live (fun s => s.fibWrite src a v))
def execStageClr (src : Src) (s : State) : Host.Outcome State Fault Refusal :=
  .next (s.live (fun s => s.guard src .fib Fib.STAGE_CLR_CLR.off (fun s => s.stageClear src)))
def execConnPageWrite (src : Src) (a v : Nat) (s : State) : Host.Outcome State Fault Refusal := .next (s.live (fun s => s.tsiWrite src a v))
def execTsiCloneDone (s : State) : Host.Outcome State Fault Refusal := .next (s.live (fun s => s.tsiCloned))
def execRngReseed (bits : List Bool) (s : State) : Host.Outcome State Fault Refusal :=
  .next (s.live (fun s => s.clocked .trng (fun s => s.reseed bits)))
def execQstatPeakRead (s : State) : Host.Outcome State Fault Refusal :=
  .next (s.live (fun s => s.readReg .buf Buf.QSTAT_PEAK_U.off State.peakRead))
def execLinkMemoryScrub (bad : Nat) (s : State) : Host.Outcome State Fault Refusal :=
  .next (s.live (fun s => s.clocked .buf (fun s => s.scrub .buf bad Buf.CNT_LINK_REPAIR 11 0x20)))
def execQschTableScrub (bad : Nat) (s : State) : Host.Outcome State Fault Refusal :=
  .next (s.live (fun s => s.clocked .qsch (fun s => s.scrub .qsch bad Qsch.CNT_ECC_REPAIR 8 0x21)))
def execMeterClr (src : Src) (v : Nat) (s : State) : Host.Outcome State Fault Refusal :=
  .next (s.live (fun s => s.guard src .qsch Qsch.METER_CLR_METER.off (fun s => s.meterClr v)))
def execLocalNsRead (s : State) : Host.Outcome State Fault Refusal :=
  .next (s.live (fun s => s.readReg .qsch Qsch.LOCAL_NS_LO_NS.off State.localRead))
def execFailoverScan (p : Nat) (s : State) : Host.Outcome State Fault Refusal := .next (s.live (fun s => s.clocked .fab (fun s => s.failoverScan p)))
def execNodeWrite (src : Src) (id : Nat) (valid : Bool) (s : State) : Host.Outcome State Fault Refusal :=
  .next (s.live (fun s => s.guard src .fab Fab.NODE_ID.off (fun s => s.nodeWrite id valid)))
def execFrerScan (s : State) : Host.Outcome State Fault Refusal := .next (s.live (fun s => s.clocked .frer State.frerSweep))

end Sys2Proof.Machine
end

