-- ==== Sys2Proof/Machine/Transmit.lean ====
section
/-! DEFINITION. Transmission: the start of the copy a port has selected, its delivery at the ports that have no wire, its end, and the
commands of the frame path from reception to transmission (R49–R52, R63, R78, R95, R122, R129, R141, R156, R160, R164, R256, R371). -/
namespace Sys2Proof.Machine

section
variable (s : State)

/-- The link of a port lets a copy start: an external port's and port 37's is UP (R53). -/
def State.linkReady (p : Nat) : Bool := (decide (32 ≤ p) && p != 37) || s.fld (.etp p) Etp.LINK_STATUS_LST == 2

/-- The credit of a copy's class covers it at its start (R57). -/
def State.startCovered (c : Copy) : Bool :=
  match s.nodeOf c.queue with
  | some n => s.creditCovers c.port (n % 8) c
  | none => true

/-- The blocks behind a port take a copy: each takes work in RUN alone (R33): MSEC one that it must protect (R376), the unit of port 32, 33 or 35
what its port sends it. -/
def State.takerReady (c : Copy) : Bool :=
  (c.pn.isNone || s.inRun .msec) && (c.port != 32 || s.inRun .ring) && (c.port != 33 || s.inRun .mpc) && (c.port != 35 || s.inRun .tsi)

/-- A protected copy cannot be protected: an MSEC table word is unreadable (R383), or the slot of its SA does not serve its port (R367). Answers
the error code and its address. -/
def State.sealFails (c : Copy) (secBad : Option (Nat × Nat × Nat)) : Option (Nat × Nat) :=
  match c.pn, secBad with
  | some _, some x => some (5, secWord x)
  | some (e, _), none =>
    let i := s.tabF .msec 1 e 0 9 0
    if s.slotServes c.port i then none else some (0x22, i)
  | none, _ => none

/-- The selected copy leaves its queue and is in transmission: its charge, the deficits, the shapers, the credit of its class, the counters
(R57, R137, R154, R160, R175). TX_CT_FRAMES counts a copy that starts before its frame has ended (DEDUCED, log entry 86). -/
def State.startCharges (c : Copy) (lead : Nat) : State :=
  let len := s.headLen c
  let f := s.frame c.frame
  let n := s.nodeOf c.queue
  let early := !f.ended
  let credit := match n with | some n => s.creditCells c.port (n % 8) (s.linkLen c) | none => 0
  let grouped := (s.egress c.port).sPtr.isSome
  let t := ((s.unlink c).releaseCharge c).startDeficits c len
  let t := t.chargeShapers c (-(chargeMicro len))
  let t := match n with
    | none => t
    | some n =>
      let t := ((t.bumpTab .qsch 12 n 0).mapPortNode c.port (fun v => { v with lastSvc := n % 8 })).useCredit c.port (n % 8) credit
      if early then t.setFrame c.frame { f with owed := f.owed ++ [2 ^ 32 + tabKey .qsch 12 n 1] }
      else t.bumpTab .qsch 12 n 1 len
  let t := (t.bump .qsch Qsch.CNT_SELECTIONS).bump (.etp c.port) Etp.CNT_TX_FRAMES
  let t := if early then t.bump (.etp c.port) Etp.CNT_TX_CT_FRAMES else t
  t.mapEgress c.port (fun e =>
    { e with selected := none, sending := some c, charged := len, started := s.now, point := 65536 * s.now + lead, wire := [], covered := (copyBytes f c.kind).length, early := false
             stomp := false, lost := false, prov := early, flen := none, sent := false, grouped, credit })

/-- A received copy of the RECIRC port goes to the parser for its second pass (R78, R80). -/
def State.secondPass (f : Frame) (c : Copy) : State :=
  let edit := match c.kind with | .recirc e => e | _ => 0
  let (l, decap) := s.recircEdit f edit c.mark
  let t := (s.bump (.etp 36) Etp.CNT_TX_BYTES l.length).bump (.etp 36) Etp.CNT_RX_FRAMES
  let t := t.bump (.etp 36) Etp.CNT_RX_BYTES l.length
  if !s.inRun .buf then (t.clocked .buf (fun t => t.bump .buf Buf.CNT_INPUT_REFUSED)).recircLeave f.bank
  else
    let (i, t) := t.newFrame {
      bytes := l, ended := true, ingress := f.ingress, current := 36, pass := 1, bank := f.bank, tsLocal := f.tsLocal
      tsSw := f.tsSw, prot := f.prot, frer := f.frer, seq := f.seq, tiw := f.tiw, ptime := f.ptime, decap }
    t.pushWindow i

/-- The bytes of a copy for the wire, protected where its port is (R371). -/
def State.wireBytes (c : Copy) (l : List Byte) : List Byte × State :=
  match c.pn with
  | some (e, pn) => let (r, s) := s.protect c.port e pn l; (r.getD l, s)
  | none => (l, s)

/-- The copy is on its way at a port without a wire that has taken it whole: its descriptor is released. -/
def State.takenWhole (c : Copy) : State := (s.dropRef c).mapEgress c.port (fun e => { e with sent := true })

/-- The bytes of a started copy at its port: a wired port and ports 32, 34 and 35 keep them until its end. `bad` is how many bytes of the stored frame
had been read when an uncorrectable word ended the copy (R141). -/
def State.deliver (f : Frame) (c : Copy) (lead : Nat) (bad : Option Nat) : State :=
  if c.port = 36 then (s.secondPass f c).takenWhole c
  else
    let s := if s.fabricPort c.port then s.mapDp (fun d => { d with creditDue := d.creditDue.set c.port false }) else s
    let (l, s) := s.editCopy f c c.port lead
    if c.port = 32 ∨ c.port = 33 then
      let s := s.bump (.etp c.port) Etp.CNT_TX_BYTES (l.length + 4)
      if c.port = 32 then s.hostDeliver c l else (s.mgmtDeliver f c (refcs l)).takenWhole c
    else
      let (l, s) := s.wireBytes c l
      match bad with
      | some n =>
        ((s.dropRef c).bump (.etp c.port) Etp.CNT_TX_STOMPED).mapEgress c.port (fun e =>
          { e with wire := l.take (l.length - ((copyBytes f c.kind).length - n)), stomp := true, lane := s.dataLane.getD 0 })
      | none =>
        let s := if f.ended then s.dropRef c else s
        s.mapEgress c.port (fun e => { e with wire := l, early := !f.ended, lane := s.dataLane.getD 0 })

/-- A started copy at its port; one on a port in near-end loopback is received there as well (R60; when its first bit comes back is a free
value, log entry 89). -/
def State.startCopy (f : Frame) (c : Copy) (lead : Nat) (bad : Option Nat) : State :=
  let s := (s.startCharges c lead).deliver f c lead bad
  if s.looped c.port then
    let (frac, s) := s.draw 65536
    s.rxBegin c.port [] frac true
  else s

/-- The words of a copy's cells that its reading finds in error (R141): `corr` corrected; `bad` bytes of the frame had been read before the first
uncorrectable one. -/
def State.readErrors (f : Frame) (corr : Nat) (bad : Option Nat) : State :=
  let s := if corr = 0 then s else s.bump .buf Buf.CNT_ECC_CORR corr
  match bad with
  | some n => ((s.bump .buf Buf.CNT_ECC_UNCORR).raise .buf 10).logErr .buf 5 srcDevice (f.cells.getD (n / 128) 0)
  | none => s

/-- How many of a frame's stored bytes a copy reads: a sample copy its first cell (R140). -/
def readLen (f : Frame) (kind : CopyKind) : Nat := if kind = .sample then min 128 f.bytes.length else f.bytes.length

/-- The copy a port has selected starts (R156), once its link is UP (R53). A class whose credit has been cleared holds its copies (R57, R59), and
the port selects anew; a copy that a block behind the port does not take waits for it (R33). `lead` is the time to the copy's timestamp point in 2^-16 ns. A
copy whose first word is lost, one with a lost word at a port without a wire, one that its SA's slot does not serve and one for which an MSEC table
word (`secBad`) is unreadable is discarded before its start (R137, R141, R367, R383). `corrDesc` words of the receive descriptor that a copy to port 33
fills were corrected (R307). -/
def State.transmitStart (p lead corr corrDesc : Nat) (bad : Option Nat) (secBad : Option (Nat × Nat × Nat)) : State :=
  match (s.egress p).selected with
  | none => s
  | some c =>
    if (s.egress p).sending.isSome ∨ !(s.queue c.queue).copies.contains c ∨ !s.linkReady p ∨ !s.takerReady c then s
    else if !s.startCovered c then s.mapEgress p (fun e => { e with selected := none })
    else
      let f := s.frame c.frame
      let bad := bad.filter (· < readLen f c.kind)
      match s.sealFails c secBad with
      | some (code, a) => (s.logErr .msec code srcDevice a).discardCopy c
      | none =>
        let s := s.readErrors f corr bad
        if bad = some 0 ∨ (bad.isSome ∧ 32 ≤ p ∧ p ≠ 37) then s.discardCopy c
        else (if p = 33 ∧ s.mringReady (8 + c.tc) then s.eccSeen corrDesc 0 else s).startCopy f c lead bad

/-- The bytes of a copy that has ended go where its port sends them: to the bus gateway, to the TDM, or on the wire. -/
def State.wireOut (p : Nat) (l : List Byte) (stomp : Bool) : State :=
  if p = 34 then (if stomp then s else s.mapDp (fun d => { d with busIn := d.busIn ++ [l] }))
  else if p = 35 then (if stomp then s else s.mapDp (fun d => { d with tdmIn := d.tdmIn ++ [l] }))
  else s.emit (.frame p l)

/-- The frame that a port receives from itself ends with the bytes it sent (R60); one lost with its link ends with a code error. -/
def State.loopEnd (p : Nat) (l : List Byte) (lost : Bool) : State :=
  if s.dp.rx.get p ≠ 0 ∧ (s.frame (s.dp.rx.get p)).loop then s.rxFinish p l lost none else s

/-- The bytes of the copy that has ended at port `p` leave and are counted; those of a frame that was in transmission when its link left UP are
lost on the wire (R53, R61). -/
def State.sendEnd (p : Nat) : State :=
  let e := s.egress p
  if e.sent then s
  else if p = 32 then (match e.sending with | some c => s.hostFilled c e.wire | none => s)
  else
    let l := s.wireEnd p
    let t := s.bump (.etp p) Etp.CNT_TX_BYTES l.length
    let t := if e.lost then t else t.wireOut p l e.stomp
    t.loopEnd p l e.lost

/-- What a copy was charged at a provisional length is corrected at its end (R57, R154, R159, R160). -/
def State.correctEnd (c : Copy) (e : Egress) (len wire : Nat) : State :=
  let s := s.endCharges c e.charged len e.grouped
  match s.nodeOf c.queue with
  | some n => (if e.prov ∧ !e.lost then s.giveBackCredit c.port (n % 8) (e.credit - cellsOf wire) else s).creditIdle n
  | none => s

/-- The words in error among those that a cut-through copy has read since its start (R141): at an uncorrectable one the port ends the copy with its
FCS inverted (R51). -/
def State.lateErrors (p corr : Nat) (bad : Option Nat) : State :=
  let e := s.egress p
  match e.early, e.sending with
  | true, some c =>
    let f := s.frame c.frame
    let bad := bad.filter (fun n => decide (e.covered ≤ n) && decide (n < f.bytes.length))
    let s := s.readErrors f corr bad
    match bad with
    | some n => (s.mapEgress p (fun e =>
        { e with wire := e.wire ++ ((dropFcs f.bytes).drop e.covered).take (n - e.covered), covered := f.bytes.length, stomp := true })).bump
          (.etp p) Etp.CNT_TX_STOMPED
    | none => s
  | _, _ => s

/-- The frame in transmission at a port ends (R160). A copy whose frame has not ended yet goes on. `corr` and `bad` are as at its start, for the
words read since. -/
def State.transmitEnd (p corr : Nat) (bad : Option Nat) : State :=
  let e := s.egress p
  match e.sending with
  | none => s
  | some c =>
    let f := s.frame c.frame
    if e.early ∧ !f.ended then s
    else
      let len := if e.prov then e.flen.getD f.bytes.length else e.charged
      let s := s.lateErrors p corr bad
      let wire := (s.wireEnd p).length
      let t := s.sendEnd p
      let t := if e.early then t.dropRef c else t
      let t := t.mapEgress p (fun e => { e with sending := none, wire := [], early := false, stomp := false, lost := false, sent := false })
      t.correctEnd c e len wire

end

/-! ## The commands of the frame path -/

/-- FRAME_RX_START. -/
def execFrameRxStart (p : Nat) (head : List Byte) (frac : Nat) (s : State) : Host.Outcome State Fault Refusal :=
  .next (s.live (fun s => s.rxStart p head frac))

/-- FRAME_RX_END. -/
def execFrameRxEnd (p : Nat) (rest : List Byte) (code : Bool) (corr uncorr : Nat) (secBad : Option (Nat × Nat × Nat)) (s : State) :
    Host.Outcome State Fault Refusal :=
  .next (s.live (fun s => s.rxEnd p rest code corr uncorr secBad))

/-- CUT_THROUGH_DECISION. -/
def execCutThroughDecision (p : Nat) (s : State) : Host.Outcome State Fault Refusal := .next (s.live (fun s => s.cutDecision p))

/-- PARSE_WINDOW. -/
def execParseWindow (recirc : Bool) (s : State) : Host.Outcome State Fault Refusal := .next (s.live (fun s => s.parseWindow recirc))

/-- CLASSIFY. -/
def execClassify (bad badFib : List Nat) (corr corrFib : Nat) (s : State) : Host.Outcome State Fault Refusal :=
  .next (s.live (fun s => s.classifyNext bad badFib corr corrFib))

/-- POLICE. -/
def execPolice (fabBad : List Nat) (frerBad : Bool) (corrFab corrFrer : Nat) (s : State) : Host.Outcome State Fault Refusal :=
  .next (s.live (fun s => s.policeNext fabBad frerBad corrFab corrFrer))

/-- ADMISSION. -/
def execAdmission (s : State) : Host.Outcome State Fault Refusal := .next (s.live (fun s => s.admitNext))

/-- SCHED_DECISION. -/
def execSchedDecision (p wait : Nat) (s : State) : Host.Outcome State Fault Refusal := .next (s.live (fun s => s.schedDecision p wait))

/-- TRANSMIT_START. -/
def execTransmitStart (p lead corr corrDesc : Nat) (bad : Option Nat) (secBad : Option (Nat × Nat × Nat)) (s : State) :
    Host.Outcome State Fault Refusal :=
  .next (s.live (fun s => s.transmitStart p lead corr corrDesc bad secBad))

/-- TRANSMIT_END. -/
def execTransmitEnd (p corr : Nat) (bad : Option Nat) (s : State) : Host.Outcome State Fault Refusal :=
  .next (s.live (fun s => s.transmitEnd p corr bad))

end Sys2Proof.Machine
end

