-- ==== Sys2Proof/Machine/Ports.lean ====
section
/-! DEFINITION. The commands of the port pages: link states, MDIO, TC10, credit frames (R45, R53–R59, R256). -/
namespace Sys2Proof.Machine

/-- A remote wake of a port in SLEEP, which is wake source 18 while the port's island is ON (R56, R431). -/
def State.portWake (s : State) (p : Nat) : State :=
  if s.tst p = 2 then (s.tc10Remote p).wakeOccurs (2 ^ 18) else s.tc10Remote p

/-- PCS lock is gained by a port in TRAINING, or block lock by lane `lane` of the Clasp link for port 37 (R53, R278). -/
def State.lockAcquired (s : State) (p lane : Nat) : State := if p = 37 then s.laneLocks (lane % 2) else s.pcsLock p

def execUpHoldExpiry (p : Nat) (s : State) : Host.Outcome State Fault Refusal := .next (s.live (fun s => s.clocked (.etp p) (fun s => s.upHold p)))
def execPcsLockAcquired (p lane : Nat) (s : State) : Host.Outcome State Fault Refusal :=
  .next (s.live (fun s => s.clocked (.etp p) (fun s => s.lockAcquired p lane)))
def execPcsLockLoss (p : Nat) (s : State) : Host.Outcome State Fault Refusal := .next (s.live (fun s => s.pcsLoss p))
def execDownHoldExpiry (p : Nat) (s : State) : Host.Outcome State Fault Refusal :=
  .next (s.live (fun s => s.clocked (.etp p) (fun s => s.downHoldEnds p)))
def execPcsLockRegained (p : Nat) (s : State) : Host.Outcome State Fault Refusal :=
  .next (s.live (fun s => s.clocked (.etp p) (fun s => s.pcsRegained p)))
def execFaultOrderedSet (p : Nat) (remote : Bool) (s : State) : Host.Outcome State Fault Refusal :=
  .next (s.live (fun s => s.clocked (.etp p) (fun s => s.faultSet p remote)))
def execFaultSetsCease (p : Nat) (s : State) : Host.Outcome State Fault Refusal :=
  .next (s.live (fun s => s.clocked (.etp p) (fun s => s.faultEnds p)))
def execSpeedMismatch (p : Nat) (s : State) : Host.Outcome State Fault Refusal := .next (s.live (fun s => s.clocked (.etp p) (fun s => s.speedBad p)))
def execSpeedMismatchClear (p : Nat) (s : State) : Host.Outcome State Fault Refusal :=
  .next (s.live (fun s => s.clocked (.etp p) (fun s => s.speedGood p)))
def execMdioRead (src : Src) (p : Nat) (s : State) : Host.Outcome State Fault Refusal :=
  .next (s.live (fun s => s.guard src (.etp p) Etp.MDIO_CMD_OP.off (fun s => s.mdioCmd src p 1)))
def execMdioWrite (src : Src) (p : Nat) (s : State) : Host.Outcome State Fault Refusal :=
  .next (s.live (fun s => s.guard src (.etp p) Etp.MDIO_CMD_OP.off (fun s => s.mdioCmd src p 2)))
def execMdioFrameDone (m : Nat) (answer : Option Nat) (s : State) : Host.Outcome State Fault Refusal :=
  .next (s.liveAon (fun s => s.mdioDone m answer))
def execTc10SleepReq (src : Src) (p : Nat) (s : State) : Host.Outcome State Fault Refusal :=
  .next (s.live (fun s => s.guard src (.etp p) Etp.TC10_CTRL_SLEEP_REQ.off (fun s => s.tc10Sleep p)))
def execTc10WakeReq (src : Src) (p : Nat) (s : State) : Host.Outcome State Fault Refusal :=
  .next (s.live (fun s => s.guard src (.etp p) Etp.TC10_CTRL_WAKE_REQ.off (fun s => s.tc10Wake p)))
def execTc10QueuesEmpty (p : Nat) (s : State) : Host.Outcome State Fault Refusal :=
  .next (s.live (fun s => s.clocked (.etp p) (fun s => s.tc10Empty p)))
def execTc10Timeout (p : Nat) (s : State) : Host.Outcome State Fault Refusal :=
  .next (s.live (fun s => s.clocked (.etp p) (fun s => s.tc10Timeout p)))
def execPhyTc10Sleep (p : Nat) (s : State) : Host.Outcome State Fault Refusal := .next (s.live (fun s => s.clocked (.etp p) (fun s => s.phyAsleep p)))
def execTc10RemoteWake (p : Nat) (s : State) : Host.Outcome State Fault Refusal :=
  .next (s.live (fun s => s.clocked (.etp p) (fun s => s.portWake p)))
def execCreditIntervalExpiry (p : Nat) (s : State) : Host.Outcome State Fault Refusal :=
  .next (s.live (fun s => s.clocked (.etp p) (fun s => s.creditInterval' p)))
def execStandaloneCreditSend (p : Nat) (s : State) : Host.Outcome State Fault Refusal :=
  .next (s.live (fun s => s.clocked (.etp p) (fun s => s.creditSend p)))
def execCreditStall (p c : Nat) (s : State) : Host.Outcome State Fault Refusal :=
  .next (s.live (fun s => s.clocked (.etp p) (fun s => s.creditStall p c)))

end Sys2Proof.Machine
end

