-- ==== Sys2Proof/Machine/Couple.lean ====
section
/-! DEFINITION. The commands of the Clasp pair and of the processors (R278–R315, R316, R317, R320). -/
namespace Sys2Proof.Machine

section
variable (s : State)

/-- FENCE_I is seen rising (R297). -/
def State.fenceRises : State := s.setFld .clsp Clsp.ROLE_STATUS_FENCE_IN 1

/-- The firmware watchdog is restarted; it expires (R295, R303). -/
def State.fwKick : State := (s.mapClasp (fun c => { c with fwLate := false })).refreshHealth
def State.fwExpires : State :=
  if s.fld .clsp Clsp.FW_WDOG_LIMIT_US = 0 then s else (s.mapClasp (fun c => { c with fwLate := true })).refreshHealth

/-- An island ends a background pass; a mismatch sets its bit (R295). -/
def State.selftest (i : Nat) (bad : Bool) : State :=
  if bad then (s.setFld .clsp Clsp.SELFTEST_ISLANDS (s.fld .clsp Clsp.SELFTEST_ISLANDS ||| 2 ^ (i % 9))).refreshHealth else s

/-- A millisecond has passed since the last ECC_UNCORRECTED log that counts for the health word (R295). -/
def State.eccAges : State := (s.mapClasp (fun c => { c with eccBad := false })).refreshHealth

/-- A write of MPC.MBX_RING: an MP rings its own slot (R320). -/
def State.mpcRing (src : Src) (corr : Nat) : State :=
  match src with
  | .mp i => s.mbxRing src .mpc Mpc.MBX_RING_RING.off (i.val + 1) corr
  | _ => s.notOwner src .mpc (Page.mpc.base + Mpc.MBX_RING_RING.off)

/-- A write of MRINGr_TAIL (R316). -/
def State.mringTail (r v : Nat) : State := s.setFld .mpc (Mpc.MRING_TAIL_TAIL r) v

end

def execLaneUp (i : Nat) (s : State) : Host.Outcome State Fault Refusal := .next (s.live (fun s => s.clocked .clsp (fun s => s.laneRises i)))
def execLaneDown (i : Nat) (s : State) : Host.Outcome State Fault Refusal := .next (s.live (fun s => s.clocked .clsp (fun s => s.laneFalls i)))
def execHeartbeatSend (s : State) : Host.Outcome State Fault Refusal :=
  .next (s.live (fun s => s.clocked .clsp (fun s => s.sendHeartbeat.refreshFence)))
def execHeartbeatReceive (lane : Nat) (l : List BeatBlock) (s : State) : Host.Outcome State Fault Refusal :=
  .next (s.live (fun s => s.clocked .clsp (fun s => s.heartbeat lane l)))
def execHeartbeatLoss (s : State) : Host.Outcome State Fault Refusal := .next (s.live (fun s => s.clocked .clsp (fun s => s.heartbeatLost)))
def execDigestSend (s : State) : Host.Outcome State Fault Refusal := .next (s.live (fun s => s.clocked .clsp (fun s => s.closeWindow)))
def execDigestReceive (lane : Nat) (l : List BeatBlock) (s : State) : Host.Outcome State Fault Refusal :=
  .next (s.live (fun s => s.clocked .clsp (fun s => s.digestArrives lane l)))
def execDigestWaitExpiry (s : State) : Host.Outcome State Fault Refusal := .next (s.live (fun s => s.clocked .clsp (fun s => s.digestMissing)))
def execFenceRise (s : State) : Host.Outcome State Fault Refusal := .next (s.live (fun s => s.clocked .clsp (fun s => s.fenceRises)))
def execFenceFall (s : State) : Host.Outcome State Fault Refusal := .next (s.live (fun s => s.clocked .clsp (fun s => s.fenceFalls)))
def execListenTimeout (s : State) : Host.Outcome State Fault Refusal := .next (s.live (fun s => s.clocked .clsp (fun s => s.listenTimeout)))
def execRoleCmdTake (src : Src) (s : State) : Host.Outcome State Fault Refusal :=
  .next (s.live (fun s => s.guard src .clsp Clsp.ROLE_CMD_CMD.off (fun s => s.roleTake src)))
def execRoleCmdYield (src : Src) (s : State) : Host.Outcome State Fault Refusal :=
  .next (s.live (fun s => s.guard src .clsp Clsp.ROLE_CMD_CMD.off (fun s => s.roleYield src)))
def execRoleCmdForce (src : Src) (s : State) : Host.Outcome State Fault Refusal :=
  .next (s.live (fun s => s.guard src .clsp Clsp.ROLE_CMD_CMD.off (fun s => s.roleForce src)))
def execControlRetransmit (kind : Nat) (s : State) : Host.Outcome State Fault Refusal :=
  .next (s.live (fun s => s.clocked .clsp (fun s => s.retransmit kind)))
def execHeldCopyExpiry (q : Nat) (s : State) : Host.Outcome State Fault Refusal := .next (s.live (fun s => s.clocked .clsp (fun s => s.holdExpires q)))
def execTraceRelease (src : Src) (s : State) : Host.Outcome State Fault Refusal :=
  .next (s.live (fun s => s.guard src .clsp Clsp.TRACE_CTRL_RELEASE.off (fun s => s.traceRelease)))
def execFwWdogKick (src : Src) (s : State) : Host.Outcome State Fault Refusal :=
  .next (s.live (fun s => s.guard src .clsp Clsp.FW_WDOG_KICK.off (fun s => s.fwKick)))
def execFwWatchdogExpiry (s : State) : Host.Outcome State Fault Refusal := .next (s.live (fun s => s.clocked .clsp (fun s => s.fwExpires)))
def execSelftestPass (i : Nat) (bad : Bool) (s : State) : Host.Outcome State Fault Refusal :=
  .next (s.live (fun s => s.clocked .clsp (fun s => s.selftest i bad)))
def execEccHealthExpiry (s : State) : Host.Outcome State Fault Refusal := .next (s.live (fun s => s.clocked .clsp (fun s => s.eccAges)))
def execMpStart (src : Src) (m : Nat) (s : State) : Host.Outcome State Fault Refusal :=
  .next (s.live (fun s => s.guard src .mpc (Mpc.MP_CTRL_START m).off (fun s => s.mpStart m)))
def execMpGo (src : Src) (m : Nat) (s : State) : Host.Outcome State Fault Refusal :=
  .next (s.live (fun s => s.guard src .mpc (Mpc.MP_CTRL_GO m).off (fun s => s.mpGo m)))
def execMpFenceReq (src : Src) (m : Nat) (s : State) : Host.Outcome State Fault Refusal :=
  .next (s.live (fun s => s.guard src .mpc (Mpc.MP_CTRL_FENCE_REQ m).off (fun s => s.mpFenceReq src m)))
def execComparatorTestDone (unit : Nat) (bad : Option Nat) (s : State) : Host.Outcome State Fault Refusal :=
  .next (s.live (fun s => if unit < 4 then s.clocked .mpc (fun s => s.mpTested unit bad) else s.clocked .tru (fun s => s.tpTested bad)))
def execMpFenceDrained (m : Nat) (s : State) : Host.Outcome State Fault Refusal := .next (s.live (fun s => s.clocked .mpc (fun s => s.mpDrained m)))
def execLockstepMismatch (m channel pc : Nat) (s : State) : Host.Outcome State Fault Refusal := .next (s.live (fun s => s.clocked .mpc (fun s => s.mpMismatch m channel pc)))
def execTpMismatch (channel : Nat) (s : State) : Host.Outcome State Fault Refusal := .next (s.live (fun s => s.clocked .tru (fun s => s.tpMismatched channel)))
def execMpcFence (src : Src) (s : State) : Host.Outcome State Fault Refusal :=
  .next (s.live (fun s => s.guard src .mpc Mpc.FENCE_FENCE.off (fun s => s)))
def execMbxRing (src : Src) (corr : Nat) (s : State) : Host.Outcome State Fault Refusal :=
  .next (s.live (fun s => s.guard src .mpc Mpc.MBX_RING_RING.off (fun s => s.mpcRing src corr)))
def execMringTail (src : Src) (r v : Nat) (s : State) : Host.Outcome State Fault Refusal :=
  .next (s.live (fun s => s.guard src .mpc (Mpc.MRING_TAIL_TAIL r).off (fun s => s.mringTail r v)))
def execMgmtTxFrame (r : Nat) (ecc : Bool) (corr : Nat) (s : State) : Host.Outcome State Fault Refusal :=
  .next (s.live (fun s => s.clocked .mpc (fun s => s.mgmtTx r ecc corr)))

end Sys2Proof.Machine
end

