-- ==== Sys2Proof/Machine/Local.lean ====
section
/-! DEFINITION. The commands of the bus gateway, of TDM and of the cipher engine (R326–R339, R345–R355, R365–R369, R377–R385). -/
namespace Sys2Proof.Machine

section
variable (s : State)

/-- A device frame starts (R351–R355). The frame before it ends, and shows what it carried; what was presented before ends; accepted values of
TDM and TSI apply and the connection pages swap (R352); FIXED writes apply; the new frame starts. -/
def State.deviceFrame (bits badConn badStream : List Nat) : State :=
  if s.islandCond 12 ≠ 2 then s
  else
    let s := (s.tdmRun badConn badStream).tdmBegin.tdmDrained
    let due := s.applying.filter (fun p => p.island == 12)
    let s := s.each due (fun s p => if p = .tsi then (s.applyOwn p).connSwap else s.applyOwn p)
    s.applyFixed.tdmStart bits

/-- A cipher job runs to its end, host memory read as the host holds it now. -/
def State.cipJob (n : Nat) (img : List (Nat × List Byte)) (bad : Option (Nat × Nat)) (zeroFails : Bool) (corr : Nat × Nat) : State :=
  (s.hostImage img).cipRun n bad zeroFails corr

/-- A CMAC job of a channel ends: the oldest signing job, or the verification in progress (R333, R334). -/
def State.cmacEnds (n : Nat) (sign inTime : Bool) : State := if sign then s.canSigned n inTime else s.canVerified n inTime

/-- No valid seed for 1 s (R366). -/
def State.seedLost : State :=
  if !s.sec.trng.starved then s
  else s.each (Page.msec :: (List.range 64).map Page.cip) (fun s p => s.fault p 0x23)

end

def execCanFrameReceived (n : Nat) (f : CanFrame) (dlc ago : Nat) (s : State) : Host.Outcome State Fault Refusal :=
  .next (s.live (fun s => s.clocked (.can n) (fun s => s.canReceived n f dlc ago)))
def execCmacJobDone (n : Nat) (sign : Bool) (s : State) : Host.Outcome State Fault Refusal :=
  .next (s.live (fun s => s.clocked (.can n) (fun s => s.cmacEnds n sign true)))
def execCmacJobTimeout (n : Nat) (sign : Bool) (s : State) : Host.Outcome State Fault Refusal :=
  .next (s.live (fun s => s.clocked (.can n) (fun s => s.cmacEnds n sign false)))
def execBusEgressFrame (s : State) : Host.Outcome State Fault Refusal :=
  .next (s.live (fun s => s.clocked (.can 0) (fun s => s.busEgress)))
def execCanArbitrationStart (n : Nat) (s : State) : Host.Outcome State Fault Refusal :=
  .next (s.live (fun s => s.clocked (.can n) (fun s => s.canArbitrate n)))
def execCanTxDone (n : Nat) (s : State) : Host.Outcome State Fault Refusal :=
  .next (s.live (fun s => s.clocked (.can n) (fun s => s.canTxDone n)))
def execCanError (n lec : Nat) (tx big : Bool) (ago : Nat) (s : State) : Host.Outcome State Fault Refusal :=
  .next (s.live (fun s => s.clocked (.can n) (fun s => s.canError n lec tx big ago)))
def execBoHoldExpiry (n : Nat) (s : State) : Host.Outcome State Fault Refusal :=
  .next (s.live (fun s => s.clocked (.can n) (fun s => s.boExpires n)))
def execCanRecover (src : Src) (n : Nat) (s : State) : Host.Outcome State Fault Refusal :=
  .next (s.live (fun s => s.guard src (.can n) Can.PN_CTRL_RECOVER.off (fun s => s.canRecover n)))
def execCanIntegrated (n : Nat) (s : State) : Host.Outcome State Fault Refusal :=
  .next (s.live (fun s => s.clocked (.can n) (fun s => s.canIntegrated n)))
def execCanRecovered (n : Nat) (s : State) : Host.Outcome State Fault Refusal :=
  .next (s.live (fun s => s.clocked (.can n) (fun s => s.canRecovered n)))
def execPnSleepReq (src : Src) (n : Nat) (s : State) : Host.Outcome State Fault Refusal :=
  .next (s.live (fun s => s.guard src (.can n) Can.PN_CTRL_SLEEP_REQ.off (fun s => s.pnSleepReq n)))
def execPnWakeReq (src : Src) (n : Nat) (s : State) : Host.Outcome State Fault Refusal :=
  .next (s.live (fun s => s.guard src (.can n) Can.PN_CTRL_WAKE_REQ.off (fun s => s.pnWakeReq n)))
def execPnListenEnter (n : Nat) (s : State) : Host.Outcome State Fault Refusal :=
  .next (s.live (fun s => s.clocked (.can n) (fun s => s.pnEnter n)))
def execLinScheduleSlot (n : Nat) (s : State) : Host.Outcome State Fault Refusal :=
  .next (s.live (fun s => s.clocked (.lin n) (fun s => s.linSlot n)))
def execLinHeaderReceived (n id rate : Nat) (parity : Bool) (s : State) : Host.Outcome State Fault Refusal :=
  .next (s.live (fun s => s.clocked (.lin n) (fun s => s.linHeaderIn n id rate parity)))
def execLinResponseReceived (n : Nat) (data : List Byte) (check : Byte) (err ago : Nat) (s : State) : Host.Outcome State Fault Refusal :=
  .next (s.live (fun s => s.clocked (.lin n) (fun s => s.linResponse n data check err ago)))
def execLinNoResponse (n : Nat) (s : State) : Host.Outcome State Fault Refusal :=
  .next (s.live (fun s => s.clocked (.lin n) (fun s => s.linSilent n)))
def execLinSleepReq (src : Src) (n : Nat) (s : State) : Host.Outcome State Fault Refusal :=
  .next (s.live (fun s => s.guard src (.lin n) Lin.LIN_CTRL_SLEEP_REQ.off (fun s => s.linSleepReq n)))
def execLinWakeReq (src : Src) (n : Nat) (s : State) : Host.Outcome State Fault Refusal :=
  .next (s.live (fun s => s.guard src (.lin n) Lin.LIN_CTRL_WAKE_REQ.off (fun s => s.linWakeReq n)))
def execLinGoToSleepReceived (n : Nat) (s : State) : Host.Outcome State Fault Refusal :=
  .next (s.live (fun s => s.clocked (.lin n) (fun s => s.linSleepIn n)))
def execLinIdleTimeout (n : Nat) (s : State) : Host.Outcome State Fault Refusal :=
  .next (s.live (fun s => s.clocked (.lin n) (fun s => s.linSleepIn n)))
def execLinDominantWake (n : Nat) (s : State) : Host.Outcome State Fault Refusal :=
  .next (s.live (fun s => s.clocked (.lin n) (fun s => s.linDominant n)))
def execLinScheduleRestart (n : Nat) (s : State) : Host.Outcome State Fault Refusal :=
  .next (s.live (fun s => s.clocked (.lin n) (fun s => s.linRestart n)))
def execSlot0Received (n pos scanned : Nat) (frame : List Byte) (s : State) : Host.Outcome State Fault Refusal :=
  .next (s.live (fun s => s.clocked (.tdm n) (fun s => s.slot0 n pos scanned frame)))
def execMfSearchTimeout (n : Nat) (s : State) : Host.Outcome State Fault Refusal :=
  .next (s.live (fun s => s.clocked (.tdm n) (fun s => s.mfTimeout n)))
def execLosRise (n : Nat) (pin : Bool) (zeros : Nat) (s : State) : Host.Outcome State Fault Refusal :=
  .next (s.live (fun s => s.clocked (.tdm n) (fun s => s.losRise n pin zeros)))
def execLosClear (n : Nat) (pin : Bool) (ones : Nat) (s : State) : Host.Outcome State Fault Refusal :=
  .next (s.live (fun s => s.clocked (.tdm n) (fun s => s.losClear n pin ones)))
def execDeviceFrameStart (bits badConn badStream : List Nat) (s : State) : Host.Outcome State Fault Refusal :=
  .next (s.live (fun s => s.deviceFrame bits badConn badStream))
def execPerformanceSecond (n : Nat) (s : State) : Host.Outcome State Fault Refusal := .next (s.live (fun s => s.tdmSecond n))
def execTdmEgressFrame (s : State) : Host.Outcome State Fault Refusal :=
  .next (s.live (fun s => s.clocked .tsi (fun s => s.tdmEgress)))
def execJobGo (src : Src) (n : Nat) (s : State) : Host.Outcome State Fault Refusal :=
  .next (s.live (fun s => s.guard src (.cip n) Cip.JOB_GO_GO.off (fun s => s.jobGo src n)))
def execCipherJobDone (n : Nat) (img : List (Nat × List Byte)) (bad : Option (Nat × Nat)) (zeroFails : Bool) (corr : Nat × Nat) (s : State) :
    Host.Outcome State Fault Refusal := .next (s.live (fun s => s.cipJob n img bad zeroFails corr))
def execDonePop (src : Src) (n : Nat) (s : State) : Host.Outcome State Fault Refusal :=
  .next (s.live (fun s => s.guard src (.cip n) Cip.DONE_POP_POP.off (fun s => s.donePop n)))
def execKeyLoad (src : Src) (s : State) : Host.Outcome State Fault Refusal :=
  .next (s.live (fun s => s.guardTrusted src .msec Msec.KEY_CTRL_LOAD.off (fun s => s.keyLoad)))
def execKeyZero (src : Src) (s : State) : Host.Outcome State Fault Refusal :=
  .next (s.live (fun s => s.guardTrusted src .msec Msec.KEY_CTRL_ZERO.off (fun s => s.keyZero)))
def execSlotRemask (s : State) : Host.Outcome State Fault Refusal := .next (s.live (fun s => s.remask))
def execRngSeedTimeout (s : State) : Host.Outcome State Fault Refusal := .next (s.live (fun s => s.seedLost))
def execKeyCountSync (s : State) : Host.Outcome State Fault Refusal := .next (s.live (fun s => s.keyCountSync))

end Sys2Proof.Machine
end

