-- ==== Sys2Proof/Machine/Hosting.lean ====
section
/-! DEFINITION. The commands of the host interface, the bridge windows, the rings and DMA, and of the SCR page (R316–R320, R387–R421). -/
namespace Sys2Proof.Machine

section
variable (s : State)

/-- An access of an MP through a window: one that does not execute makes none (R308, R312). -/
def State.fromMp (m : Fin 4) (act : State → State) : State := if s.issues (.mp m) then act s else s

/-- A posted write with poisoned data (R392, R414). -/
def State.poisonedWrite (addr : Nat) : State :=
  ((s.aerSet 12).bump .pcie Pcie.CNT_POISONED_RX).logErr .pcie 3 0 addr

/-- A request that the device does not support (R392, R414). -/
def State.unsupportedRequest : State := ((s.aerSet 20).emit .unsupported).bump .pcie Pcie.CNT_UR_SENT

/-- The host clears the mask bit of a vector, or writes a whole new entry of the table (R390). -/
def State.msixUnmask (v : Nat) : State := s.msixWrite v 3 0

/-- A WRITE_FAIL of originator `orig` with a code and the offset of the failed write (R401). -/
def State.writeFailed (orig code addr : Nat) : State := s.pwFail 4 orig (s.failedWindow orig addr) code addr

/-- A write of SCR.MBX_RING: the host rings slot 0 (R320, R421). -/
def State.scrRing (src : Src) (corr : Nat) : State :=
  match src with
  | .host => s.mbxRing src .scr Scr.MBX_RING_RING.off 0 corr
  | _ => s.notOwner src .scr (Page.scr.base + Scr.MBX_RING_RING.off)

/-- A write of DB_SET (R421). -/
def State.dbSet (v : Nat) : State :=
  s.setEvents .scr (s.word .scr Hdr.EVT_RAW_RAW.off ||| BitVec.ofNat 32 (v % 65536 * 256)) (s.word .scr Hdr.EVT_EN_EN.off)

end

def execPcieLinkUp (speed width : Nat) (s : State) : Host.Outcome State Fault Refusal := .next (s.live (fun s => s.pcieUp speed width))
def execPcieLinkDown (s : State) : Host.Outcome State Fault Refusal := .next (s.live (fun s => s.pcieDown))
def execFlr (s : State) : Host.Outcome State Fault Refusal := .next (s.live (fun s => s.clocked .pcie (fun s => s.flr)))
def execHotReset (s : State) : Host.Outcome State Fault Refusal := .next (s.live (fun s => s.clocked .pcie (fun s => s.hotReset)))
def execConfigRequest (r : CfgReg) (v : Option Nat) (s : State) : Host.Outcome State Fault Refusal := .next (s.live (fun s => s.clocked .pcie (fun s => s.cfgRequest r v)))
def execCfgReadyTimeout (s : State) : Host.Outcome State Fault Refusal := .next (s.live (fun s => s.clocked .pcie (fun s => s.cfgLate)))
def execHostBar4Read (off size : Nat) (s : State) : Host.Outcome State Fault Refusal := .next (s.live (fun s => s.clocked .pcie (fun s => s.bar4Read off size)))
def execHostBar4Write (off : Nat) (words : List Nat) (s : State) : Host.Outcome State Fault Refusal := .next (s.live (fun s => s.clocked .pcie (fun s => s.bar4Write off words)))
def execHostPoisonedWrite (addr : Nat) (s : State) : Host.Outcome State Fault Refusal := .next (s.live (fun s => s.clocked .pcie (fun s => s.poisonedWrite addr)))
def execHostUnsupportedRequest (s : State) : Host.Outcome State Fault Refusal := .next (s.live (fun s => s.clocked .pcie (fun s => s.unsupportedRequest)))
def execMsixUnmask (v : Nat) (s : State) : Host.Outcome State Fault Refusal := .next (s.live (fun s => s.clocked .pcie (fun s => s.msixUnmask v)))
def execBridgeWindowAccess (m : Fin 4) (a size : Nat) (store : Option (List Byte)) (s : State) : Host.Outcome State Fault Refusal :=
  .next (s.live (fun s => s.fromMp m (fun s => s.winAccess m.val a size store)))
def execBridgeLr (m : Fin 4) (a size : Nat) (s : State) : Host.Outcome State Fault Refusal :=
  .next (s.live (fun s => s.fromMp m (fun s => s.winLr m.val a size)))
def execBridgeSc (m : Fin 4) (a size new : Nat) (s : State) : Host.Outcome State Fault Refusal :=
  .next (s.live (fun s => s.fromMp m (fun s => s.winSc m.val a size new)))
def execBridgeAmo (m : Fin 4) (a size : Nat) (op : Amo) (arg : Nat) (s : State) : Host.Outcome State Fault Refusal :=
  .next (s.live (fun s => s.fromMp m (fun s => s.winAmo m.val a size op arg)))
def execReservationExpiry (m : Fin 4) (s : State) : Host.Outcome State Fault Refusal := .next (s.live (fun s => s.dropResv m.val))
def execBridgeCplReceived (tag status : Nat) (data : List Byte) (s : State) : Host.Outcome State Fault Refusal :=
  .next (s.live (fun s => s.clocked .brg (fun s => s.cplArrives tag status data)))
def execBridgeWriteFailReceived (orig code addr : Nat) (s : State) : Host.Outcome State Fault Refusal :=
  .next (s.live (fun s => s.clocked .brg (fun s => s.writeFailed orig code addr)))
def execPeerRequestTimeout (tag : Nat) (s : State) : Host.Outcome State Fault Refusal := .next (s.live (fun s => s.clocked .brg (fun s => s.peerTimesOut tag)))
def execPeerRetryWait (tag : Nat) (s : State) : Host.Outcome State Fault Refusal := .next (s.live (fun s => s.clocked .brg (fun s => s.retryEnds tag)))
def execPeerPoll (s : State) : Host.Outcome State Fault Refusal := .next (s.live (fun s => s.clocked .brg State.peerPoll))
def execPwlogPop (src : Src) (s : State) : Host.Outcome State Fault Refusal :=
  .next (s.live (fun s => s.guard src .brg Brg.PWLOG_POP_POP.off (fun s => s.pwPop)))
def execRxTailDoorbell (src : Src) (r v : Nat) (s : State) : Host.Outcome State Fault Refusal :=
  .next (s.live (fun s => s.guard src .ring (Ring.RX_TAIL_TAIL r).off (fun s => s.ringTail false r v)))
def execTxTailDoorbell (src : Src) (r v : Nat) (s : State) : Host.Outcome State Fault Refusal :=
  .next (s.live (fun s => s.guard src .ring (Ring.TX_TAIL_TAIL r).off (fun s => s.ringTail true r v)))
def execHostTxFrame (img : List (Nat × List Byte)) (bad : Option (Nat × Bool)) (s : State) : Host.Outcome State Fault Refusal :=
  .next (s.live (fun s => (s.hostImage img).hostTxNext bad))
def execRingIrqTimer (tx : Bool) (r : Nat) (s : State) : Host.Outcome State Fault Refusal := .next (s.live (fun s => s.clocked .ring (fun s => s.ringTimer tx r)))
def execDmaDoorbell (src : Src) (c v : Nat) (s : State) : Host.Outcome State Fault Refusal :=
  .next (s.live (fun s => s.guard src .dma (Dma.TAIL_TAIL c).off (fun s => s.dmaTail c v)))
def execDmaDescriptorDone (c : Nat) (img : List (Nat × List Byte)) (bad : Option BadRead) (corr : Nat × Nat) (s : State) :
    Host.Outcome State Fault Refusal := .next (s.live (fun s => (s.hostImage img).dmaRun c bad corr))
def execDmaAbort (src : Src) (c rows : Nat) (img : List (Nat × List Byte)) (corr : Nat × Nat) (s : State) :
    Host.Outcome State Fault Refusal :=
  .next (s.live (fun s => s.guard src .dma (Dma.CH_CTRL_ABORT c).off (fun s => (s.hostImage img).dmaAbort c rows corr)))
def execDmaResume (src : Src) (c : Nat) (s : State) : Host.Outcome State Fault Refusal :=
  .next (s.live (fun s => s.guard src .dma (Dma.CH_CTRL_RESUME c).off (fun s => s.dmaResume c)))
def execDmaSkip (src : Src) (c : Nat) (s : State) : Host.Outcome State Fault Refusal :=
  .next (s.live (fun s => s.guard src .dma (Dma.CH_CTRL_SKIP c).off (fun s => s.dmaSkip c)))
def execScrMbxRing (src : Src) (corr : Nat) (s : State) : Host.Outcome State Fault Refusal :=
  .next (s.live (fun s => s.guard src .scr Scr.MBX_RING_RING.off (fun s => s.scrRing src corr)))
def execDbSet (src : Src) (v : Nat) (s : State) : Host.Outcome State Fault Refusal :=
  .next (s.live (fun s => s.guard src .scr Scr.DB_SET_BITS.off (fun s => s.dbSet v)))
def execHostCompletionReceived (id : Nat) (data : Option (List Byte)) (s : State) : Host.Outcome State Fault Refusal :=
  .next (s.live (fun s => s.clocked .brg (fun s => s.hostCompletes id data)))
def execCompletionTimeout (id : Nat) (s : State) : Host.Outcome State Fault Refusal := .next (s.live (fun s => s.clocked .brg (fun s => s.hostTimesOut id)))

end Sys2Proof.Machine
end

