-- ==== Sys2Proof/Machine/Ageing.lean ====
section
/-! DEFINITION. The sensors of the islands, the voltage of an island, and the margin search after OFF (R472–R476, R480, R483, R484, R496). -/
namespace Sys2Proof.Machine

/-- The islands whose clock has frequency steps (R13). -/
def steppedIslands : List Nat := [4, 5, 6, 7, 9, 10]

/-- A quotient of integers by a positive number, rounded up. -/
def ceilInt (a b : Int) : Int := -((-a) / b)

section
variable (s : State)

/-! ## Samples (R472–R475) -/

/-- MARGIN_WC that a slack and a temperature give on island `i` (R474). -/
def State.marginWc (i margin : Nat) (t : Int) : Nat :=
  let hot := (s.fld .age (Age.CAL_TC_HOT i) : Int) * (125 - t)
  let cold := (s.fld .age (Age.CAL_TC_COLD i) : Int) * (t + 40)
  ((min margin 1023 : Nat) - ceilInt (max hot cold) 16 : Int).toNat

/-- M_MIN; M_ACT, which is M_MIN where it lies below it (R488). -/
def State.mMin : Nat := s.fld .age Age.CFG_M_MIN
def State.mAct : Nat := max s.mMin (s.fld .age Age.CFG_M_ACT)

/-- D_PPM of two oscillator counts (R473), and the state after: where the unstressed oscillator has not counted the manual gives no
value. -/
def State.dPpm (x : Sensor) : Nat × State :=
  if x.cu = 0 then s.draw (2 ^ 32)
  else (unsigned 32 (((x.cu : Int) - x.cs) * 10 ^ 6 / x.cu), s)

/-- An island is sampled (R475). -/
def State.sampleIsland (i : Nat) (x : Sensor) : State :=
  let wc := s.marginWc i x.margin x.temp
  let (d, s) := s.dPpm x
  let s := ((s.setFld .clk (Clk.TEMP_T i) (unsigned 9 x.temp)).setFld .age (Age.MARGIN_MARGIN i) (min x.margin 1023)).setFld .age
    (Age.MARGIN_MARGIN_WC i) wc
  (s.setFld .age (Age.DEGRADE_D_PPM i) d).setFld .age (Age.SAMPLE_S_S i) s.aonS

/-- A sample of every island that is ON (R475): `l` gives the readings by island. -/
def State.ageSample (l : List Sensor) : State :=
  let on := (List.range 14).filter (fun i => s.islandCond i == 2)
  let s := s.each on (fun s i => s.sampleIsland i (l.getD i {}))
  let s := (s.bump .age Age.CNT_SAMPLES).raise .age 8
  if on.any (fun i => decide (s.fld .age (Age.MARGIN_MARGIN_WC i) < s.mAct)) then s.raise .age 10 else s

/-! ## Voltage (R476, R480) -/

/-- VNOW and V_CEIL of an island. -/
def State.vNow (i : Nat) : Nat := s.fld .clk (Clk.ISL_V_VNOW i)
def State.vCeil (i : Nat) : Nat := s.fld .clk (Clk.ISL_V_V_CEIL i)

/-- The regulator of island `i` moves to a level from where it is; none where it is there. -/
def State.vGoto (i v : Nat) : State :=
  s.mapPower (fun p => { p with vMove := p.vMove.set i (if v = s.vNow i then none else some v) })

/-- A write of VREQ by an owner (R480). -/
def State.vreqPut (src : Src) (i v : Nat) : State :=
  if s.vCeil i < v ∨ 24 < v then s.refuse src .clk 0x20 (Clk.ISL_V_VREQ i).off
  else (s.setFld .clk (Clk.ISL_V_VREQ i) v).vGoto i v

/-- A write of a whole ISL_V register: V_CEIL by the trusted processor, VREQ by an owner. A write by another owner leaves V_CEIL, and is
refused where it names a V_CEIL of its own; the trusted processor writes V_CEIL whatever CLASS is, and VREQ where it owns the page (R39, R486). DESIGN CHOICE (log entry 106): V_CEIL is stored as written, a value of 25 to 31
too, for which the manual gives neither a meaning nor a refusal; a canary step or the search can then take VNOW past 24. -/
def State.islVPut (src : Src) (i v : Nat) : State :=
  let ceil := bitsOf v 20 16
  let req := v % 32
  let off := (Clk.ISL_V_VREQ i).off
  if s.actsTrusted src then
    let s := s.setFld .clk (Clk.ISL_V_V_CEIL i) ceil
    if s.owns src .clk then s.vreqPut src i req
    else if req = s.fld .clk (Clk.ISL_V_VREQ i) then s
    else s.notOwner src .clk (Page.clk.base + off)
  else
    let s := if ceil = s.vCeil i then s else s.notOwner src .clk (Page.clk.base + (Clk.ISL_V_V_CEIL i).off)
    s.vreqPut src i req

/-- The regulator completes 5 mV upward, or downward. -/
def State.vStep (i v : Nat) : State := (s.setFld .clk (Clk.ISL_V_VNOW i) v).bump .clk Clk.CNT_V_STEPS

/-- The move of an island ends at its level. -/
def State.vSettle (i goal : Nat) : State := if s.vNow i = goal then (s.vGoto i goal).raise .clk 8 else s

/-- A regulator completes a 5 mV step of its move; after a falling one the canaries read `x` (R480). -/
def State.voltageStep (i : Nat) (x : Sensor) : State :=
  match s.power.vMove.get i with
  | none => s
  | some goal =>
    let v := s.vNow i
    if v < goal then (s.vStep i (v + 1)).vSettle i goal
    else if v = goal then s.vGoto i goal
    else
      let t := s.vStep i (v - 1)
      if t.marginWc i x.margin x.temp < t.mMin then
        ((t.vStep i v).vGoto i v).logErr .clk 0x21 srcDevice (Page.clk.base + (Clk.ISL_V_VNOW i).off)
      else t.vSettle i goal

/-- The CANARY alarm of an island (R476). -/
def State.canaryAlarm (i : Nat) : State :=
  let a := s.fld .clk Clk.ALARM_CANARY
  (((s.setFld .clk Clk.ALARM_CANARY (a ||| 2 ^ i)).bump .clk Clk.CNT_CANARY_ALARMS).raise .clk 10).follow

/-- A canary fails with no added delay (R476): below its ceiling the island goes up by one step, without any request. -/
def State.canaryFail (i : Nat) : State :=
  if 14 ≤ i then s
  else
    let s := s.canaryAlarm i
    if s.vNow i < s.vCeil i then
      let goal := match s.power.vMove.get i with | some g => max g (s.vNow i + 1) | none => s.vNow i + 1
      s.vGoto i goal
    else s

/-- The reference stops, or differs by more than 200 ppm (R496). -/
def State.xtalAlarm : State := ((s.setFld .clk Clk.ALARM_XTAL 1).raise .clk 10).follow

/-! ## The search after OFF (R484) -/

/-- The search of an island over the values of MARGIN_WC that it measures, one at each setting; a measurement that `l` does not give is a free
value. There are at most 32 voltages and 10 steps, so 48 settings are enough. -/
def State.search (s : State) (i : Nat) : Nat → List Nat → State
  | 0, _ => s
  | fuel + 1, l =>
    let (m, s) := match l with | m :: _ => (m, s) | [] => s.draw 1024
    let rest := l.drop 1
    if s.mAct ≤ m then s
    else if s.vNow i < s.vCeil i then (s.vStep i (s.vNow i + 1)).search i fuel rest
    else if steppedIslands.contains i ∧ s.fld .clk (Clk.ISL_F_K i) < 10 then
      let k := s.fld .clk (Clk.ISL_F_K i) + 1
      ((((s.setFld .clk (Clk.ISL_F_K i) k).setFld .clk (Clk.ISL_F_K i).sh k).setFld .clk (Clk.ISL_F_KNOW i) k).bump .clk
        Clk.CNT_F_STEPS).search i fuel rest
    else if m < s.mMin then s.canaryAlarm i else s

/-- The search of every island; `l` gives the measured values by island. -/
def State.searchAll (l : List (List Nat)) : State := s.each (List.range 14) (fun s i => s.search i 48 (l.getD i []))

end

/-! ## The commands -/

def execVreqWrite (src : Src) (i v : Nat) (s : State) : Host.Outcome State Fault Refusal :=
  .next (s.live (fun s => s.guard src .clk (Clk.ISL_V_VREQ i).off (fun s => s.vreqPut src i v)))
def execVoltageMoveStep (i : Nat) (x : Sensor) (s : State) : Host.Outcome State Fault Refusal := .next (s.liveAon (fun s => s.voltageStep i x))
def execCanaryFail (i : Nat) (s : State) : Host.Outcome State Fault Refusal := .next (s.liveAon (fun s => s.canaryFail i))
def execXtalAlarm (s : State) : Host.Outcome State Fault Refusal := .next (s.liveAon (fun s => s.xtalAlarm))

end Sys2Proof.Machine
end

