-- ==== Sys2Proof/Machine/Power.lean ====
section
/-! DEFINITION. What an island loses when its supply goes, the phases of a power transition, forced power-down, wakes (R422–R434,
R494). -/
namespace Sys2Proof.Machine

/-- Every page, in the order of the summary indices (R22). -/
def Page.all : List Page := (List.range 266).filterMap Page.ofIndex

/-- The pages of an island. -/
def islandPages (i : Nat) : List Page := Page.all.filter (fun p => p.island == i)

/-- Pages that count as quiet while in RUN (R429): those of AON, and those whose DRAIN_DISCARD stays 0. -/
def Page.countsQuiet (p : Page) : Bool :=
  p.island == 14 ||
  match p with
  | .tgate _ => true | .time => true | .fab => true | .frer => true | .tdm _ => true | .pcie => true | .scr => true
  | .otp => true | .trng => true | .lck => true | .dbg => true
  | _ => false

/-- Bits of a register that an island's loss of supply and the resets below COLD keep: what AON holds (R450, R504). -/
def Page.keptAon (p : Page) (off : Nat) : Nat :=
  match p with
  | .lck => if off = Lck.TAMPER_LATCH_TRIP.off then 2 ^ 32 - 1 else 0
  | .sys => if off = Sys.RST_CAUSE_LEVEL.off then 2 ^ 32 - 1 else 0
  | _ => 0

section
variable (s : State)

/-! ## An island at its reset values (R422, R427) -/

/-- A page's registers, counters, tables and engine as a reset leaves them. -/
def State.freshPage (p : Page) : State :=
  let s := ((((s.drainTime p false).resetEngine p).resetCounters p).resetTabs p).resetWords p p.keptAon
  { s with applying := s.applying.filter (· != p) }

/-- The masters' BUSY bits say whether a frame is queued at them (R54). -/
def State.mdioBusy : State :=
  s.each [0, 1] (fun s m => s.setFld .sys (Sys.MDIO_CFG_BUSY m) (b2n !(s.dp.mdio.get m).isEmpty))

/-- What the data path holds for a port returns to its reset state. -/
def State.freshPort (p : Nat) : State :=
  let own (k : Nat) : Bool := k != p
  let own8 (k : Nat) : Bool := k / 8 != p
  State.mdioBusy (s.mapDp (fun d => { d with
    rx := d.rx.keep own, egress := d.egress.keep own, hrUsed := d.hrUsed.keep own8, granted := d.granted.keep own8
    received := d.received.keep own8, used := d.used.keep own8, crst := d.crst.keep own, upAt := d.upAt.keep own
    creditDue := d.creditDue.keep own, stalled := d.stalled.keep own8, downHold := d.downHold.keep own
    tc10Timer := d.tc10Timer.keep own
    mdio := d.mdio.setAll (d.mdio.cells.map (fun c => (c.1, c.2.filter (fun r => r.port != p)))) }))

/-- What Signet keeps through a DEVICE reset: Locket (R445, R504). -/
def Sec.locket (x : Sec) : Sec := { keys := x.keys, copies := x.copies, bound := x.bound, wakeSeal := x.wakeSeal }

/-- What Signet keeps through the loss of TRUST's supply, which is no reset: Locket; the handles, which last until a device reset (R368); the record in
use; and what holds until a reset, the refusal of key commands and the failures of tokens (R450, R454). -/
def Sec.kept (x : Sec) : Sec :=
  { x.locket with handles := x.handles, nextHandle := x.nextHandle, shut := x.shut, locked := x.locked, tokenFails := x.tokenFails
                  recSlot := x.recSlot }

/-- The table windows outside a range of addresses. -/
def State.dropWin (lo hi : Nat) : State := s.setWin (s.mem.win.keep (fun a => decide (a < lo ∨ hi ≤ a)))

/-- The Assayer loses its supply: the plan that is checked or waits for its boundaries is gone; a page that stays powered takes part no more (R37,
R427). -/
def State.planLost : State :=
  match s.plan with
  | none => s
  | some p => { s with plan := none }.each (p.included.filter (fun (q : Page) => s.islandCond q.island != 0)) (fun s q => s.setStatus q 0 0)

/-- The memories of an island zero-filled and its engines as at reset (R427). -/
def State.freshMemories (i : Nat) : State :=
  match i with
  | 4 => (s.dropWin 0x1000000 0x1C00000).mapDp (fun d => { d with windows := [], keys := [], results := [], admits := [] })
  | 5 => (s.freshPort 36).mapDp (fun d => { d with frames := Sparse.empty, queues := Sparse.empty, rx := Sparse.empty })
  | 6 => (s.planLost.dropWin 0x1C00000 0x1E00000).mapDp (fun d => { d with gates := Sparse.empty })
  | 7 => { s with slots := Sparse.empty }.mapDp (fun d => { d with saWrites := [] })
  | 8 => { s with now := 0, dom := Sparse.empty, frerScan := 0 }
  | 9 =>
    let s := (s.freshPort 33).mapProcs (fun p => { p with wbuf := Sparse.empty, icache := Sparse.empty, dcache := Sparse.empty })
    { s with mem := { s.mem with msram := Sparse.empty }, bridge := { s.bridge with resv := Sparse.empty } }
  | 10 =>
    let s := s.mapProcs (fun p => { p with mbx := Sparse.empty, rung := [], tp := 0 })
    { s with mem := { s.mem with tsram := Sparse.empty }, sec := s.sec.kept }
  | 11 => (s.freshPort 34).mapDp (fun d => { d with busIn := [] })
  | 12 => ((s.freshPort 35).dropWin 0x1E00000 0x1F00000).mapDp (fun d => { d with tdmIn := [] })
  | 13 =>
    let s := s.freshPort 32
    { s with mem := { s.mem with scratch := Sparse.empty }, pcie := {} }
  | _ => s.each (List.range 8) (fun s k => s.freshPort (8 * i + k))

/-- An island loses its registers and memories; they return at their reset values (R422, R427). -/
def State.freshIsland (i : Nat) : State :=
  let s := if i = 13 then s.pcieDown.hostLost else s
  let s := s.each (islandPages i) State.freshPage
  let s := s.freshMemories i
  if i = 0 then s.freshPort 37 else s

/-! ## Conditions (R422, R426, R437) -/

/-- An island's condition in ISLAND_STATE. -/
def State.setIsland (i c : Nat) : State := s.setFld .pwr ⟨Pwr.ISLAND_STATE_MAP.off, 2 * i, 2⟩ c

/-- An island goes to RET or DOWN. Lanes are unpowered, those of the Clasp link with PORT0's and those of PCIe with HOST's (R279, R426), the holder table is cleared when CLS
leaves ON (R437), and the balls take the levels of R501. -/
def State.lowerIsland (i c : Nat) : State :=
  let s := if i = 4 then s.mapPower (fun p => { p with holders := Sparse.empty }) else s
  let s := if c = 0 then s.freshIsland i
    else if i < 4 then s.each (List.range 8) (fun s k => s.pcsLoss (8 * i + k)) else s
  let s := if i = 0 ∧ c ≠ 0 then s.lanesOff else if i = 13 ∧ c ≠ 0 then s.pcieDown else s
  (s.setIsland i c).showBalls (islandBalls i)

/-- The settings of an island that is powered again: VREQ and K (R483); a move of its regulator that was under way has ended. -/
def State.keptSetting (i : Nat) : State :=
  let s := (s.setFld .clk (Clk.ISL_V_VNOW i) (s.fld .clk (Clk.ISL_V_VREQ i))).mapPower (fun p => { p with vMove := p.vMove.set i none })
  s.setFld .clk (Clk.ISL_F_KNOW i) (s.fld .clk (Clk.ISL_F_K i))

/-- An island is raised, at its kept voltage and frequency (R483). TRUST from DOWN releases the TP, which comes from SLEEP (R433). -/
def State.raiseIsland (i c : Nat) : State :=
  let down := s.islandCond i == 0
  let s := if c = 2 then s.keptSetting i else s
  let s := s.setIsland i c
  if i = 10 ∧ down ∧ c = 2 then (s.setTp 1).mapSec (fun x => { x with fromSleep := true }) else s

/-- The islands that a target changes upward, and downward. -/
def State.raiseAll : State := (s.each s.islandsUp (fun t i => t.raiseIsland i (mapCond s.power.goal i))).follow
def State.lowerAll : State := (s.each s.islandsDown (fun t i => t.lowerIsland i (mapCond s.power.goal i))).follow

/-! ## The phases (R428, R429, R432) -/

/-- RAISE is complete. A wake source that occurred during it ends the transition that would lower islands (R432). -/
def State.raiseDone : State :=
  if s.phase ≠ 1 ∨ s.power.waking then s
  else
    let s := s.raiseAll
    if s.islandsDown.isEmpty then s.pwrDone
    else if s.power.occurred ≠ 0 then
      let s := ((s.setPhase 0).setResult 3).setCause (lowSource s.power.first)
      if s.pwrSt = 0 then s.nmReachedRun else s
    else s.enterPrepare

/-- PREPARE_MS has passed. -/
def State.prepareEnd : State := if s.phase = 2 then s.setPhase 3 else s

/-- Pages of an island that still work (R429). -/
def State.working (i : Nat) : List Page :=
  (islandPages i).filter (fun p =>
    s.st p == 2 || s.st p == 1 && !(p.countsQuiet || p == .tru && s.work .tru == 0))

/-- No page of an island to be lowered works: COMMIT (R428, R429). -/
def State.quiesceDone : State :=
  if s.phase = 3 ∧ s.islandsDown.all (fun i => (s.working i).isEmpty) then
    (s.setPhase 4).mapPower (fun p => { p with commitAt := p.aonNs })
  else s

/-- An island to be lowered reaches its LIMIT with a page that works (R429). -/
def State.quiesceLimit (i : Nat) : State :=
  if s.phase = 3 ∧ s.islandsDown.contains i ∧ !(s.working i).isEmpty then
    let busy := s.islandsDown.flatMap (fun k => (s.working k).map Page.index)
    let low := busy.foldl min 287
    let s := (((s.setPhase 0).mapPower (fun p => { p with waking := false })).logErr .pwr 0x20 srcDevice 0 low).setFld .pwr Pwr.NOT_QUIET_PAGE_PAGE low
    (s.setCause (low % 256)).pwrRefused
  else s

/-- A transition is complete; where a wake began it, RUN is reached, and CONFIRM_MS starts (R425, R433, R434). -/
def State.reached : State :=
  let s := s.pwrDone
  if s.power.waking then
    let s := s.mapPower (fun p => { p with waking := false, unconfirmed := p.unconfirmed ++ [p.wakeSrcs] })
    if s.flag .nm Nm.HOLD_HOLD then s.confirmWake else s
  else s

/-- The islands have reached their conditions (R428, R432); in SLEEP PSU_EN goes low (R493). -/
def State.lowerDone : State :=
  if s.phase = 4 ∨ s.phase = 5 then
    let s := s.lowerAll.reached
    let s := if s.pwrSt = 3 then s.emit (.psuEn false) else s
    if s.power.occurred ≠ 0 then s.startWake s.power.first s.power.occurred else s
  else s

/-- A wake has raised every island (R425, R433): RUN is reached; HOST goes DOWN by the phases that follow where HOST_EN is 0 (R423, R428). -/
def State.wakeComplete : State :=
  if s.phase = 1 ∧ s.power.waking then
    let s := s.raiseAll
    if s.islandsDown.isEmpty then s.reached else s.enterPrepare
  else s

/-! ## Forced power-down (R430, R494, R502) -/

/-- The islands that a forced power-down lowers. -/
def forcedIslands : List Nat := [0, 1, 2, 3, 4, 5, 6, 7, 11, 12, 13]

/-- Forced power-down by cause 1 THERM or 2 SUPPLY: the pages of the islands fault with DOMAIN_LOST, the islands go to RET. -/
def State.forced (cause : Nat) : State :=
  let on := forcedIslands.filter (fun i => s.islandCond i == 2)
  let s := s.openLost
  let s := s.each (on.flatMap islandPages) (fun s p => s.fault p 6 true)
  let s := s.each on (fun s i => s.lowerIsland i 1)
  let s := if s.phase ≠ 0 then (s.setPhase 0).setResult 3 else s
  let s := s.mapPower (fun p => { p with stands := true, waking := false, occurred := 0, first := 0 })
  let s := ((s.setFld .pwr Pwr.STATUS_ST 4).setFld .pwr Pwr.FORCED_LOG_CAUSE cause).setFld .pwr Pwr.FORCED_LOG_ISLANDS
    (on.foldl (fun m i => m + 2 ^ i) 0)
  (((s.setFld .pwr Pwr.FORCED_TIME_NS s.ns32).bump .pwr Pwr.CNT_FORCED).raise .pwr 11).follow

/-- A cause of forced power-down arises. In FORCED with no transition under way it only stands; while islands are raised again it acts anew (R430,
R494, R502). -/
def State.powerFails (cause : Nat) : State :=
  if s.pwrSt = 4 ∧ s.phase = 0 then s.mapPower (fun p => { p with stands := true }) else s.forced cause

/-- The monitor of island `i` reads a temperature (R430, R486, R502): above TRIP the device is powered down. -/
def State.thermal (i : Nat) (t : Int) : State :=
  let s := s.setFld .clk (Clk.TEMP_T i) (unsigned 9 t)
  if (s.fld .pwr Pwr.THERM_TRIP : Int) < t then
    let s := ((s.setFld .clk Clk.ALARM_THERM 1).raise .clk 10).mapPower (fun p =>
      { p with hot := if p.hot.contains i then p.hot else p.hot ++ [i] })
    s.powerFails 1
  else s

/-- The supply monitor raises its alarm (R494). -/
def State.supplyAlarm : State :=
  let s := (s.setFld .clk Clk.ALARM_SUPPLY 1).raise .clk 10
  s.powerFails 2

/-- The monitors that read above TRIP read below RESUME (R430). -/
def State.cooled : Bool := s.power.hot.all (fun i => decide (signed 9 (s.fld .clk (Clk.TEMP_T i)) < (s.fld .pwr Pwr.THERM_RESUME : Int)))

/-- The cause of FORCED stands no more (R430): a thermal one when the monitors have read below RESUME; a wake source that occurred meanwhile starts its
wake (R432). -/
def State.causeClears : State :=
  if s.pwrSt = 4 ∧ s.power.stands ∧ s.cooled then
    let s := s.mapPower (fun p => { p with stands := false, hot := [] })
    if s.phase = 0 ∧ s.power.occurred ≠ 0 then s.startWake s.power.first s.power.occurred else s
  else s

/-- AGE samples the islands that are ON (R475); a monitor that reads above TRIP then powers the device down (R430). -/
def State.sampled (l : List Sensor) : State :=
  let on := (List.range 14).filter (fun i => s.islandCond i == 2)
  (s.ageSample l).each on (fun s i =>
    let t := signed 9 (s.fld .clk (Clk.TEMP_T i))
    if (s.fld .pwr Pwr.THERM_TRIP : Int) < t then s.thermal i t else s)

end

/-! ## The commands -/

def execPowerReqRun (src : Src) (s : State) : Host.Outcome State Fault Refusal :=
  .next (s.live (fun s => s.guard src .pwr Pwr.REQ_STATE.off (fun s => s.pwrReq src.code 0)))
def execPowerReqPartial (src : Src) (s : State) : Host.Outcome State Fault Refusal :=
  .next (s.live (fun s => s.guard src .pwr Pwr.REQ_STATE.off (fun s => s.pwrReq src.code 1)))
def execPowerReqDoze (src : Src) (s : State) : Host.Outcome State Fault Refusal :=
  .next (s.live (fun s => s.guard src .pwr Pwr.REQ_STATE.off (fun s => s.pwrReq src.code 2)))
def execPowerReqSleep (src : Src) (s : State) : Host.Outcome State Fault Refusal :=
  .next (s.live (fun s => s.guard src .pwr Pwr.REQ_STATE.off (fun s => s.pwrReq src.code 3)))
def execRaiseDone (s : State) : Host.Outcome State Fault Refusal := .next (s.liveAon (fun s => s.raiseDone))
def execPrepareEnd (s : State) : Host.Outcome State Fault Refusal := .next (s.liveAon (fun s => s.prepareEnd))
def execQuiesceDone (s : State) : Host.Outcome State Fault Refusal := .next (s.liveAon (fun s => s.quiesceDone))
def execQuiesceLimit (i : Nat) (s : State) : Host.Outcome State Fault Refusal := .next (s.liveAon (fun s => s.quiesceLimit i))
def execLowerDone (s : State) : Host.Outcome State Fault Refusal := .next (s.liveAon (fun s => s.lowerDone))
def execAgeSample (l : List Sensor) (s : State) : Host.Outcome State Fault Refusal := .next (s.liveAon (fun s => s.sampled l))
def execThermalTrip (i : Nat) (t : Int) (s : State) : Host.Outcome State Fault Refusal := .next (s.liveAon (fun s => s.thermal i t))
def execSupplyAlarm (s : State) : Host.Outcome State Fault Refusal := .next (s.liveAon (fun s => s.supplyAlarm))
def execForcedCauseClear (s : State) : Host.Outcome State Fault Refusal := .next (s.liveAon (fun s => s.causeClears))
def execWakeIn (pins : Nat) (s : State) : Host.Outcome State Fault Refusal := .next (s.liveAon (fun s => s.wakeIn pins))
def execWakeTimer (s : State) : Host.Outcome State Fault Refusal := .next (s.liveAon (fun s => s.wakeTimer))
def execWakeComplete (s : State) : Host.Outcome State Fault Refusal := .next (s.liveAon (fun s => s.wakeComplete))
def execWakeConfirm (src : Src) (s : State) : Host.Outcome State Fault Refusal :=
  .next (s.live (fun s => s.guard src .wake Wake.CONFIRM_CONFIRM.off State.confirmWake))
def execConfirmTimeout (s : State) : Host.Outcome State Fault Refusal := .next (s.liveAon (fun s => s.confirmTimeout))
def execUnmaskTimer (n : Nat) (s : State) : Host.Outcome State Fault Refusal := .next (s.liveAon (fun s => s.unmaskTimer n))
def execCharmReceived (p : Nat) (bytes : List Byte) (s : State) : Host.Outcome State Fault Refusal := .next (s.live (fun s => s.charm p bytes))
def execNetTimeout (s : State) : Host.Outcome State Fault Refusal := .next (s.liveAon (fun s => s.netTimeout))
def execNmHoldWrite (src : Src) (hold : Bool) (reason : Nat) (s : State) : Host.Outcome State Fault Refusal :=
  .next (s.live (fun s => s.guard src .nm Nm.HOLD_HOLD.off (fun s => s.holdWrite hold reason)))
def execNmEtypeWrite (src : Src) (etype : Nat) (auto : Bool) (sleep : Nat) (s : State) : Host.Outcome State Fault Refusal :=
  .next (s.live (fun s => s.guard src .nm Nm.NM_CFG_ETYPE.off (fun s => s.nmCfgWrite src etype auto sleep)))
def execCharmTxDue (s : State) : Host.Outcome State Fault Refusal := .next (s.liveAon (fun s => s.charmDue))

end Sys2Proof.Machine
end

