-- ==== Sys2Proof/Machine/Update.lean ====
section
/-! DEFINITION. Boot headers, images and configuration records in flash, boot, delivery and activation, the retained history of ageing
(R369, R446, R448, R455–R466, R485). -/
namespace Sys2Proof.Machine

section
variable (s : State)

/-! ## Boot header (R455) -/

/-! A copy of the boot header is 12 bytes of flash: SEQ in 4 bytes, the states of slots A and B, TRIES, 0, and the CRC-32C of these 8 bytes. The manual
gives the fields and not their places (DESIGN CHOICE, log entry 127). -/

/-- Flash address of a copy; what it holds; whether its CRC is right. -/
def hdrBase (c : Nat) : Nat := 0x10000 * c
def State.hdrNum (c off n : Nat) : Nat := s.mem.flash.num (hdrBase c + off) n
def State.hdrCopy (c : Nat) : BootHdr := ⟨s.hdrNum c 0 4, s.hdrNum c 4 1, s.hdrNum c 5 1, s.hdrNum c 6 1⟩
def State.hdrOk (c : Nat) : Bool := crc32c 0xFFFFFFFF (s.mem.flash.bytes (hdrBase c) 8) == s.hdrNum c 8 4

/-- One more than SEQ of a valid copy, 0 for another. -/
def State.hdrRank (c : Nat) : Nat := if s.hdrOk c then s.hdrNum c 0 4 + 1 else 0

/-- The boot header that governs: the valid copy with the higher SEQ; a blank flash reads as both slots EMPTY. -/
def State.bootHdr : BootHdr :=
  if s.hdrRank 0 = 0 ∧ s.hdrRank 1 = 0 then ⟨0, 0, 0, 0⟩ else s.hdrCopy (if s.hdrRank 1 ≤ s.hdrRank 0 then 0 else 1)

/-- The bytes of a header. -/
def BootHdr.bytes (h : BootHdr) : List Byte :=
  let l := leBytes 4 h.seq ++ leBytes 1 h.a ++ leBytes 1 h.b ++ leBytes 1 h.tries ++ [0]
  l ++ leBytes 4 (crc32c 0xFFFFFFFF l)

/-- Signet, or the boot ROM, writes the header to the copy with the lower SEQ. -/
def State.putHdr (f : BootHdr → BootHdr) : State :=
  s.putFlash (hdrBase (if s.hdrRank 0 ≤ s.hdrRank 1 then 0 else 1)) ({ f s.bootHdr with seq := s.bootHdr.seq + 1 } : BootHdr).bytes

/-- The state of image slot `k` in a header; the header with it set. -/
def BootHdr.slot (h : BootHdr) (k : Nat) : Nat := if k = 0 then h.a else h.b
def BootHdr.put (h : BootHdr) (k v : Nat) : BootHdr := if k = 0 then { h with a := v } else { h with b := v }

/-- The image slot that the governing header gives a state. -/
def State.slotIn (v : Nat) : Option Nat := [0, 1].find? (fun k => s.bootHdr.slot k == v)

/-! ## Images (R456) -/

/-- Flash address of an image slot; a little-endian field of the image in it; SHA-384 digests and bytes. -/
def imgBase (k : Nat) : Nat := if k = 0 then 0x100000 else 0x1000000
def State.img (k off n : Nat) : Nat := s.mem.flash.num (imgBase k + off) n
def State.imgBytes (k off n : Nat) : List Byte := s.mem.flash.bytes (imgBase k + off) n

/-- Slot offset, length and entry offset of component `c`, and its largest length. -/
def State.compOff (k c : Nat) : Nat := s.img k (28 + 60 * c) 4
def State.compLen (k c : Nat) : Nat := s.img k (32 + 60 * c) 4
def State.compEntry (k c : Nat) : Nat := s.img k (36 + 60 * c) 4
def compMax (c : Nat) : Nat := match c with | 0 => 0x18000 | 1 => 0x20000 | _ => 0x400000
def State.compBytes (k c : Nat) : List Byte := s.imgBytes k (s.compOff k c) (s.compLen k c)

/-- What the boot ROM checks of an image (R457 step 2): the REASON it is rejected for, if any (R460). -/
def State.imgCheck (k : Nat) : Option Nat :=
  let fits (c : Nat) : Bool := decide (s.compLen k c ≤ compMax c ∧ s.compOff k c + s.compLen k c ≤ 0xF00000)
  let key := s.img k 17 1
  if s.img k 0 4 ≠ 0x4B565249 ∨ s.img k 4 2 ≠ 1 ∨ s.img k 6 2 ≠ 304 ∨ 3 < key ∨ !(fits 0 && fits 1 && fits 2) then some 5
  else if !s.keyUsable key then some 6
  else if !ecdsaP384 (s.pubKey key) (sha384 (s.imgBytes k 0 208)) (s.imgBytes k 208 96) then some 7
  else if s.img k 16 1 < s.secVersion then some 9
  else none

/-- A component's digest is the one the header gives. -/
def State.compOk (k c : Nat) : Bool := sha384 (s.compBytes k c) == s.imgBytes k (40 + 60 * c) 48

/-- An image passes: the ROM's checks, and the digests of its components; else the REASON. -/
def State.imgReason (k : Nat) : Option Nat :=
  match s.imgCheck k with
  | some r => some r
  | none => if s.compOk k 0 && s.compOk k 1 && s.compOk k 2 then none else some 8

/-! ## Loading (R457–R459) -/

/-- The components of an image as flash addresses and lengths: SIGNET, MP_BOOT, MP_MAIN. -/
def State.imgParts (k : Nat) : List (Nat × Nat) := [0, 1, 2].map (fun c => (imgBase k + s.compOff k c, s.compLen k c))

/-- Where MP_BOOT of components is loaded in code region `r`, MP_MAIN behind it; where SIGNET is loaded in trusted SRAM. The places are free. -/
def partAt (l : List (Nat × Nat)) (c : Nat) : Nat × Nat := l.getD c (0, 0)
def codePlace (l : List (Nat × Nat)) (r : Nat) : Nat :=
  0x440000 * r + Config.loadPlace 1 % (0x440000 - (partAt l 1).2 - (partAt l 2).2 + 1) / 4 * 4
def mainPlace (l : List (Nat × Nat)) (r : Nat) : Nat := codePlace l r + (partAt l 1).2
def signetPlace (n : Nat) : Nat := Config.loadPlace 0 % (0x60000 - n + 1)

/-- SIGNET in trusted SRAM. -/
def State.loadSignet (l : List Byte) : State :=
  { s with mem := { s.mem with tsram := s.mem.tsram.putBytes (signetPlace l.length) l } }

/-- A code region's lock. -/
def State.lockRegion (r : Nat) (on : Bool) : State := s.setFld .lck (Lck.CODE_LOCK_LOCKED r) (b2n on)

/-- A range of flash copied into management SRAM. -/
def State.putCode (a : Nat) (x : Nat × Nat) : State :=
  (s.dropLines a x.2).mapMsram (fun m => m.putBytes a (s.mem.flash.bytes x.1 x.2))

/-- MP_BOOT and, with `main`, MP_MAIN of components in a code region, which is locked over them. What the MPs have buffered has reached it before
(R315, R459; log entry 127). -/
def State.loadCode (l : List (Nat × Nat)) (r : Nat) (main : Bool) : State :=
  let s := s.each (List.range 4) State.drainMp
  let s := s.putCode (codePlace l r) (partAt l 1)
  let s := if main then s.putCode (mainPlace l r) (partAt l 2) else s
  s.lockRegion r true

/-- The code of image slot `k` in a region; the offset in management SRAM at which its MP_BOOT is entered there. -/
def State.loadImage (k r : Nat) : State := s.loadCode (s.imgParts k) r true
def State.imgEntry (k r : Nat) : Nat := codePlace (s.imgParts k) r + s.compEntry k 1

/-- MP0 is started at an entry (R457 step 6). -/
def State.startMp0 (entry : Nat) : State := (s.setFld .mpc (Mpc.MP_ENTRY_OFFSET 0) (entry / 4)).mpStart 0

/-! ## Records (R463, R466) -/

/-- Flash address of a record slot; a field and bytes of the record in it. -/
def recBase (j : Nat) : Nat := 0x2000000 + 0x800000 * j
def State.recNum (j off n : Nat) : Nat := s.mem.flash.num (recBase j + off) n
def State.recBytes (j off n : Nat) : List Byte := s.mem.flash.bytes (recBase j + off) n

/-- The key of MIGRATED records, derived from HUK alone (R463). -/
def State.recKey : List Byte := (List.range 16).map (Config.hukKey s.huk 1)

/-- What the signature of a record covers. -/
def recInput (head body : List Byte) : List Byte := head ++ sha384 body

/-- A record slot holds a valid record; else the REASON. -/
def State.recReason (j : Nat) : Option Nat :=
  let n := s.recNum j 16 4
  if s.recNum j 0 4 ≠ 0x4B565243 ∨ n < 4096 ∨ 0x800000 - 128 < n then some 5
  else
    let body := s.recBytes j 128 n
    let input := recInput (s.recBytes j 0 24) body
    if crc32c 0xFFFFFFFF body ≠ s.recNum j 20 4 then some 1
    else if s.recNum j 6 1 = 0 then
      (if s.keyUsable 5 && ecdsaP384 (s.pubKey 5) (sha384 input) (s.recBytes j 24 96) then none else some 7)
    else if s.recNum j 6 1 = 1 ∧ s.recBytes j 24 16 = aesCmac s.recKey input ∧ (s.recBytes j 40 80).all (fun b => b == 0) then none
    else some 7

/-- The valid record with the highest SEQ and REC_VERSION at most `v`. -/
def State.recSelect (v : Nat) : Option Nat :=
  (List.range 4).foldl (fun b j =>
    if s.recReason j = none ∧ s.recNum j 4 2 ≤ v then
      match b with | some k => if s.recNum k 8 4 < s.recNum j 8 4 then some j else b | none => some j
    else b) none

/-- The highest SEQ stored. -/
def State.topSeq : Nat := ((List.range 4).filter (fun j => s.recReason j == none)).foldl (fun n j => max n (s.recNum j 8 4)) 0

/-- The slot for a new record: the lowest SEQ that no image can select; a slot without a valid record comes first. -/
def State.recTarget : Nat :=
  let held := [0, 1].filterMap (fun k => if s.bootHdr.slot k = 0 ∨ s.imgCheck k ≠ none then none else s.recSelect (s.img k 20 2))
  let rank (j : Nat) : Nat := if s.recReason j = none then s.recNum j 8 4 + 1 else 0
  let free := (List.range 4).filter (fun j => !held.contains j)
  free.foldl (fun b j => if rank j < rank b then j else b) (free.headD 0)

/-- The record in use, shown on LCK; with the image whose range decides MIGRATE. -/
def State.useRecord (j k : Nat) : State :=
  let s := s.mapSec (fun x => { x with recSlot := some j })
  let s := (s.setFld .lck Lck.REC_SEQ_SEQ (s.recNum j 8 4)).setFld .lck Lck.REC_INFO_VERSION (s.recNum j 4 2)
  (s.setFld .lck Lck.REC_INFO_MIGRATED (s.recNum j 6 1)).setFld .lck Lck.REC_INFO_MIGRATE (b2n (s.recNum j 4 2 < s.img k 18 2))

/-! ## The trusted part (R464) -/

/-- A field of the trusted part of record slot `j`. -/
def State.tp (j off n : Nat) : Nat := s.recNum j (128 + off) n

/-- A page that is present takes a value of the trusted part. -/
def State.onPage (p : Page) (f : State → State) : State := if s.pageOn p then f s else s

/-- The values of the trusted part, but for TAMPER_EN and the owners. A record that is activated later changes none of them before the
next cold boot (R463). -/
def State.applyTrusted (j : Nat) : State :=
  let s := s.mapSec (fun x => { x with trustSlot := some j, updateSlots := s.tp j 4 1 % 32, trialS := if s.tp j 8 4 = 0 then 600 else s.tp j 8 4 })
  let s := s.onPage .time (fun s => s.slewPut (s.tp j 6 2 % 512))
  let s := s.onPage .pcie (fun s => (s.setFld .pcie Pcie.IDENT_SUBSYS_VID (s.tp j 0x12 2)).setFld .pcie Pcie.IDENT_SUBSYS_ID (s.tp j 0x14 2))
  let s := s.setFld .pwr Pwr.CFG_HOST_EN (s.tp j 0x16 1)
  let s := (s.setFld .pwr Pwr.THERM_TRIP (s.tp j 0x17 1)).setFld .pwr Pwr.THERM_RESUME (s.tp j 0x18 1)
  let s := s.setWord .trng Trng.HEALTH_CFG_RCT_CUTOFF.off (BitVec.ofNat 32 (s.tp j 0x1C 4) &&& 0x3FF003F)
  let s := s.setEvents .tru (s.word .tru Hdr.EVT_RAW_RAW.off) (BitVec.ofNat 32 (s.tp j 0x20 4))
  let s := s.each (List.range 14) (fun s i => s.setFld .clk (Clk.ISL_V_V_CEIL i) (s.tp j (0x24 + i) 1))
  let s := s.onPage .dma (fun s => ((((s.setFld .dma Dma.MS_WIN_BASE_OFFSET (s.tp j 0x40 4)).setFld .dma Dma.MS_WIN_LIMIT_OFFSET
    (s.tp j 0x44 4)).setFld .dma Dma.SP_WIN_BASE_OFFSET (s.tp j 0x48 4)).setFld .dma Dma.SP_WIN_LIMIT_OFFSET (s.tp j 0x4C 4)))
  s.each (List.range 64) (fun s n => s.onPage (.cip n) (fun s =>
    let s := s.setFld (.cip n) Cip.IV_FIXED_FIXED (s.tp j (0x200 + 4 * n) 4)
    s.each (List.range 3) (fun s w =>
      let a := 0x400 + 48 * n + 16 * w
      (((s.setFld (.cip n) (Cip.WIN_BASE_LO_ADDR w) (s.tp j a 4)).setFld (.cip n) (Cip.WIN_BASE_HI_ADDR w) (s.tp j (a + 4) 4)).setFld (.cip n)
        (Cip.WIN_LIMIT_LO_ADDR w) (s.tp j (a + 8) 4)).setFld (.cip n) (Cip.WIN_LIMIT_HI_ADDR w) (s.tp j (a + 12) 4))))

/-- The pages that R20 gives to Signet. -/
def Page.signets : Page → Bool
  | .tru => true | .lck => true | .otp => true | .dbg => true | _ => false

/-- The byte of a page's owner: without a record a page stays TRUSTED. -/
def State.ownerByte (p : Page) : Nat := match s.sec.trustSlot with | some j => s.tp j (0x50 + p.index) 1 | none => 2

/-- The owner of a page (R464). -/
def State.assignOwner (p : Page) : State :=
  let b := s.ownerByte p
  let cls := if p.signets then 2 else if p = .scr then 3 else b
  s.onPage p (fun s => (s.setFld p Hdr.OWNER_CLASS cls).setFld p Hdr.OWNER_LOCKED (b2n (p.signets || b.testBit 7)))

/-! ## The sealed store and the slots (R369, R446) -/

/-- The most invocations that 10 s can hold on the 128 lanes (R363, R369). -/
def resetRaise : Nat := 128 * 284090909

/-- A key id's counts after a reset. -/
def KeyRec.raised (k : KeyRec) : KeyRec := { k with gcm := k.gcm + resetRaise, cmac := k.cmac + resetRaise }

/-- The sealed copy that Signet opens: of those that can be opened the one with the higher sequence number. -/
def State.openCopy : Option Nat :=
  if s.sealRank 0 = 0 ∧ s.sealRank 1 = 0 then none else some (if s.sealRank 1 ≤ s.sealRank 0 then 0 else 1)

/-- Signet opens the sealed store into Locket, and raises the counts. -/
def State.openStore : State :=
  let keys := match s.openCopy with | some c => s.sealKeys c | none => s.sec.keys
  s.mapSec (fun x => { x with keys := keys.map KeyRec.raised })

/-- A slot that Locket holds the copy of is loaded again, from the copy. -/
def State.reloadSlot (i : Nat) (k : Slot) : State :=
  (s.loadSlot i k).mapSec (fun x => { x with copies := x.copies.set i k })

/-- The slots that Locket holds copies of are loaded again, the counts of those bound from key ids as Locket has them (R369). -/
def State.restoreSlots : State :=
  s.each (s.sec.copies.keys) (fun s i =>
    let k := s.sec.copies.get i
    if k.loaded then
      match (s.sec.bound.find? (fun b => b.1 == i)).bind (fun b => s.keyRec b.2) with
      | some r => s.reloadSlot i { k with gcm := r.gcm, cmac := r.cmac }
      | none => s.reloadSlot i k
    else s)

/-! ## Boot (R457, R458) -/

/-- The flash locations whose digests the wake seal holds: the components of an image and the trusted part that was applied. A record activated since is
not in force before the next cold boot (R463). -/
def State.sealParts (k : Nat) : List (Nat × Nat) :=
  s.imgParts k ++ (match s.sec.trustSlot with | some j => [(recBase j + 128, 4096)] | none => [])

/-- The image slot whose flash range holds an address; the record slot. -/
def slotOfAddr (a : Nat) : Nat := if a < 0x1000000 then 0 else 1
def recOfAddr (a : Nat) : Nat := (a - 0x2000000) / 0x800000 % 4

/-- The digests of flash ranges. -/
def State.digests (l : List (Nat × Nat)) : List (List Byte) := l.map (fun x => sha384 (s.mem.flash.bytes x.1 x.2))

/-- Signet writes the wake seal for an image (R457, R458). -/
def State.writeSeal (k : Nat) : State :=
  s.mapSec (fun x => { x with wakeSeal := some { parts := s.sealParts k, digests := s.digests (s.sealParts k), entry := s.compEntry k 1 } })

/-- TAMPER_EN that the life-cycle state sets at boot (R448). -/
def State.bootTamper : Nat :=
  if s.lc = 3 then 0x7F
  else if s.lc = 2 then (match s.sec.trustSlot with | some j => s.tp j 5 1 % 128 | none => 0)
  else 0

/-- The image shown as running. -/
def State.showImage (k : Nat) : State :=
  (s.setFld .lck Lck.FW_RUNNING_VERSION (s.img k 8 4)).setFld .lck Lck.FW_COMPAT_MIN_VERSION (s.img k 12 4)

/-- The record of a boot: at a cold boot the one that R466 selects, with its trusted part; at a warm boot the trusted part is the one whose digest the
wake seal holds, and the record in use stays. -/
def State.bootRecord (k : Nat) (warm : Option WakeSeal) : State :=
  match warm with
  | some w =>
    let s := match s.sec.recSlot with | some j => s.useRecord j k | none => s
    match w.parts[3]? with | some x => s.applyTrusted (recOfAddr x.1) | none => s
  | none =>
    let s := s.mapSec (fun x => { x with recSlot := none })
    match s.recSelect (s.img k 20 2) with
    | some j => (s.useRecord j k).applyTrusted j
    | none => s

/-- Signet runs from its image on: steps 4 to 6 of R457, or their warm form, whose components and entry are those of the wake seal (R458). In SCRAP it
stops after boot (R448), with its own pages locked (R20). -/
def State.signetRuns (k : Nat) (warm : Option WakeSeal) : State :=
  let parts := match warm with | some w => w.parts | none => s.imgParts k
  let entry := codePlace parts 0 + (match warm with | some w => w.entry | none => s.compEntry k 1)
  let s := (s.mapSec (fun x => { x with recovery := false, fromSleep := false, region := 0, runSlot := k, onRestart := none })).setTp 3
  let s := (s.setFld .tru Tru.TP_STATUS_RUNNING 1).showImage k
  let s := (s.setFld .lck Lck.BOOT_STATUS_SLOT k).setFld .lck Lck.BOOT_STATUS_KIND (b2n warm.isSome)
  let s := s.setFld .lck Lck.BOOT_STATUS_TRIAL (b2n (s.bootHdr.slot k == 2))
  let s := s.bump .lck (if warm.isSome then Lck.CNT_BOOTS_WARM else Lck.CNT_BOOTS_COLD)
  let s := s.loadCode parts 0 warm.isNone
  let s := if warm.isSome then s else s.makeHuk.openStore
  let s := s.bootRecord k warm
  let s := s.setFld .lck Lck.TAMPER_EN_EN s.bootTamper
  let s := s.setFld .dbg Dbg.STATE_ST (if s.lc = 5 then 2 else if s.lc = 2 ∨ s.lc = 3 then 0 else 1)
  if s.lc = 5 then s.each (Page.all.filter Page.signets) State.assignOwner
  else
    let s := s.restoreSlots.each Page.all State.assignOwner
    let s := s.onPage .pcie (fun s => s.setFld .pcie Pcie.LINK_CFG_CFG_READY 1)
    let s := if warm.isSome then s.mapSec (fun x => { x with mainDue := true }) else s.writeSeal k
    let s := s.startMp0 entry
    s.each s.procs.rung State.mbxTake

/-- The boot ROM boots an image that has passed. -/
def State.bootImage (k : Nat) : State := (s.loadSignet (s.compBytes k 0)).signetRuns k none

/-- The candidates in order: the first that passes is booted; none leads to recovery (R457). -/
def State.tryBoot (s : State) : List Nat → State
  | [] =>
    let s := (s.setFld .lck Lck.BOOT_STATUS_KIND 2).mapSec (fun x => { x with recovery := true, fromSleep := false })
    if s.procs.rung.contains 0 then s.mbxTake 0 else s
  | k :: t =>
    match s.imgReason k with
    | none => s.bootImage k
    | some r => (s.setFld .lck Lck.BOOT_STATUS_REASON r).tryBoot t

/-- The boot is warm: a wake from SLEEP with a wake seal in Locket whose digests the flash has (R458). -/
def State.warmDue : Bool :=
  s.sec.fromSleep && (match s.sec.wakeSeal with | some w => s.digests w.parts == w.digests | none => false)

/-- The TP has come out of a reset and waits in the boot ROM. -/
def State.romWaits : Bool := s.procs.tp == 2 && !s.flag .tru Tru.TP_STATUS_RESTARTING && !s.sec.recovery

/-- COLD_BOOT (R457). -/
def State.coldBoot : State :=
  if !s.romWaits || s.warmDue then s
  else
    let h := s.bootHdr
    let trial := if h.tries = 1 then [0, 1].filter (fun k => h.slot k == 2) else []
    let s := if trial.isEmpty then s else s.putHdr (fun h => { h with tries := 0 })
    s.tryBoot (trial ++ [0, 1].filter (fun k => h.slot k == 1) ++ [0, 1].filter (fun k => h.slot k == 3))

/-- WARM_BOOT (R458): the components come from the places the seal names. -/
def State.warmBoot : State :=
  match s.sec.wakeSeal with
  | some w =>
    if s.romWaits && s.warmDue then
      let (a, n) := partAt w.parts 0
      (s.loadSignet (s.mem.flash.bytes a n)).signetRuns (slotOfAddr a) (some w)
    else s
  | none => s

/-- MP_MAIN arrives after a warm boot, from the place the seal names (R458). -/
def State.mainReady : State :=
  match s.sec.wakeSeal with
  | some w =>
    if s.sec.mainDue then
      ((s.putCode (mainPlace w.parts s.sec.region) (partAt w.parts 2)).mapSec (fun x => { x with mainDue := false })).raise .lck 13
    else s
  | none => s

/-! ## Delivery (R460, R463) -/

/-- The block that an IMG_BLOCK or REC_BLOCK request names: offset, length, CRC, space and address. -/
def State.blockBytes (a : List Byte) : List Byte :=
  if byteAt a 12 = 1 then s.mem.msram.bytes (leAt a 16 4) (leAt a 4 4) else s.mem.scratch.bytes (leAt a 16 4) (leAt a 4 4)

/-- The block lies within the rules of R460. -/
def blockRanges (a : List Byte) (total : Nat) : Bool :=
  let off := leAt a 0 4
  let n := leAt a 4 4
  let room := if byteAt a 12 = 1 then 0xC00000 else 0x200000
  decide (off % 4096 = 0 ∧ 1 ≤ n ∧ n ≤ 65536 ∧ off + n ≤ total ∧ (n % 4096 = 0 ∨ off + n = total) ∧
    (byteAt a 12 = 1 ∨ byteAt a 12 = 2) ∧ leAt a 16 4 + n ≤ room)

/-- Every page of a delivery has been written. -/
def Delivery.complete (d : Delivery) : Bool :=
  (List.range ((d.length + 4095) / 4096)).all (fun i => d.blocks.any (fun b => decide (b.1 ≤ 4096 * i ∧ 4096 * i < b.1 + b.2)))

/-- A block is checked and programmed; `bad` says that its read-back differs (R460). The state answers; the delivery is none where it
does not change. -/
def State.blockRun (slot : Nat) (d : Delivery) (base : Nat) (bad : Bool) : Option Delivery × State :=
  let a := s.mbxArg slot
  if !blockRanges a d.length then (none, s.ansReason slot 2)
  else
    let l := s.blockBytes a
    if crc32c 0xFFFFFFFF l ≠ leAt a 8 4 then (none, (s.bump .lck Lck.CNT_CRC_FAILS).ansReason slot 1)
    else
      let at' := base + leAt a 0 4
      if bad then
        let (x, s) := s.drawBytes l.length
        let s := s.putFlash at' x
        (some { d with verified := false }, (s.logErr .lck 0x20 srcDevice at').ansReason slot 12)
      else
        let s := s.putFlash at' l
        let d := { d with blocks := d.blocks ++ [(leAt a 0 4, l.length)], verified := false }
        (some d, s.ansOk slot [])

/-! ## Images delivered and activated (R460–R462) -/

def State.imgBegin (slot : Nat) : State :=
  let n := leAt (s.mbxArg slot) 0 4
  s.updServe slot (
    if 0xF00000 < n then s.ansReason slot 14
    else match [0, 1].find? (fun k => s.bootHdr.slot k != 1 && s.bootHdr.slot k != 2) with
      | none => s.ansReason slot 13
      | some k =>
        let s := s.putHdr (fun h => h.put k 0)
        (s.mapSec (fun x => { x with img := some { slot := k, length := n } })).ansOk slot [BitVec.ofNat 8 k])

def State.imgBlock (slot : Nat) (bad : Bool) : State :=
  s.updServe slot (match s.sec.img with
    | none => s.ansReason slot 13
    | some d =>
      if s.sec.staged.isSome then s.ansReason slot 13
      else match s.blockRun slot d (imgBase d.slot) bad with
        | (some e, s) =>
          let s := if e.blocks.length = d.blocks.length then s else s.bump .lck Lck.CNT_IMG_BLOCKS
          s.mapSec (fun x => { x with img := some e })
        | (none, s) => s)

/-- What IMG_VERIFY checks of a delivered image (R461): the REASON it fails for, if any. A component beyond the length delivered was not
written: INCOMPLETE (a DESIGN CHOICE, log entry 105). -/
def State.verifyReason (d : Delivery) : Option Nat :=
  if !d.complete then some 4
  else match s.imgReason d.slot with
    | some r => some r
    | none =>
      if (List.range 3).any (fun c => decide (d.length < s.compOff d.slot c + s.compLen d.slot c)) then some 4
      else match s.slotIn 1 with
      | none => none
      | some k =>
        if s.img k 8 4 < s.img d.slot 12 4 ∨ s.img d.slot 8 4 < s.img k 12 4 then some 10 else none

def State.imgVerify (slot : Nat) : State :=
  s.updServe slot (match s.sec.img with
    | none => s.ansReason slot 13
    | some d =>
      if s.sec.staged.isSome then s.ansReason slot 13
      else match s.verifyReason d with
        | some r => (s.bump .lck Lck.CNT_VERIFY_FAILS).ansReason slot r
        | none =>
          let k := d.slot
          let s := (s.mapSec (fun x => { x with img := some { d with verified := true } })).raise .lck 10
          let s := s.ansOk slot (s.imgBytes k 8 4 ++ s.imgBytes k 12 4 ++ s.imgBytes k 16 1 ++ s.imgBytes k 18 4)
          if s.sec.recovery then s.bootImage k else s)

def State.imgStage (slot : Nat) : State :=
  s.updServe slot (match s.sec.img with
    | none => s.ansReason slot 13
    | some d =>
      if !d.verified ∨ s.sec.staged.isSome then s.ansReason slot 13
      else
        let k := d.slot
        let r := 1 - s.sec.region
        let s := (s.loadImage k r).putHdr (fun h => { h.put k 2 with tries := 1 })
        let s := s.mapSec (fun x => { x with staged := some k, signetNew := false, trialAt := some s.power.aonNs })
        (s.setFld .lck Lck.FW_STAGED_VERSION (s.img k 8 4)).ansOk slot (leBytes 4 (s.imgEntry k r)))

/-- The TP restarts into the SIGNET of image slot `k`; the mailbox slot that asked is answered when it has (R460). -/
def State.restartInto (k slot : Nat) (abandon : Bool) : State :=
  (s.loadSignet (s.compBytes k 0)).tpLeaves.mapSec (fun x => { x with runSlot := k, onRestart := some (slot, abandon) })

def State.imgSignet (slot : Nat) : State :=
  s.updServe slot (match s.sec.staged with
    | none => s.ansReason slot 13
    | some k =>
      if s.sec.signetNew then s.ansReason slot 13
      else (s.restartInto k slot false).mapSec (fun x => { x with signetNew := true }))

/-- SEC_VERSION is raised to a value: fuses are programmed until the count is reached (R444, R460). -/
def State.raiseSecVersion (v : Nat) : State :=
  s.each (List.range 64) (fun s i => if s.secVersion < v ∧ !s.fuse (128 + i) then s.blow (128 + i) else s)

/-- The image in slot `k` becomes ACTIVE, the former one FALLBACK (R460). -/
def State.commitImage (k : Nat) : State :=
  let o := 1 - k
  let s := s.putHdr (fun h => { (if h.slot o = 1 then h.put o 3 else h).put k 1 with tries := 0 })
  let s := (s.raiseSecVersion (s.img k 16 1)).showImage k
  let s := s.mapSec (fun x => { x with staged := none, signetNew := false, trialAt := none, img := none })
  ((s.setFld .lck Lck.FW_STAGED_VERSION 0).setFld .lck Lck.BOOT_STATUS_TRIAL 0).raise .lck 12

def State.imgCommit (slot : Nat) : State :=
  s.updServe slot (match s.sec.staged with
    | some k =>
      if s.sec.signetNew then
        let old := s.sec.region
        let s := (s.commitImage k).lockRegion old false
        ((s.mapSec (fun x => { x with region := 1 - old })).writeSeal k).ansOk slot []
      else s.ansReason slot 13
    | none =>
      let k := s.fld .lck Lck.BOOT_STATUS_SLOT
      if k < 2 ∧ s.bootHdr.slot k = 2 ∧ s.signet then (s.commitImage k).ansOk slot [] else s.ansReason slot 13)

/-- The staged image `k` is given up: its slot is EMPTY and its region released (R460). -/
def State.dropStaged (slot k : Nat) : State :=
  let s := (s.putHdr (fun h => { h.put k 0 with tries := 0 })).lockRegion (1 - s.sec.region) false
  let s := s.mapSec (fun x => { x with staged := none, signetNew := false, trialAt := none, img := none })
  (s.setFld .lck Lck.FW_STAGED_VERSION 0).ansOk slot []

/-- The image in trial is given up; the SIGNET of the ACTIVE slot runs first where that of the trial does. -/
def State.abandonTrial (slot k : Nat) (runs : Bool) : State :=
  match runs, s.slotIn 1 with
  | true, some a => s.restartInto a slot true
  | _, _ => s.dropStaged slot k

/-- IMG_ABANDON (R460): of the image staged; of the delivery; after a reset, of the image that its header shows in TRIAL. -/
def State.imgAbandon (slot : Nat) : State :=
  s.updServe slot (match s.sec.staged, s.sec.img, s.slotIn 2 with
    | some k, _, _ => s.abandonTrial slot k s.sec.signetNew
    | none, some d, _ => ((s.putHdr (fun h => h.put d.slot 0)).mapSec (fun x => { x with img := none })).ansOk slot []
    | none, none, some k => s.abandonTrial slot k (s.sec.runSlot == k)
    | none, none, none => s.ansReason slot 13)

/-- SIGNET in trusted SRAM has the digest that the header of its image gives (R311, R456). -/
def State.signetSound : Bool :=
  let k := s.sec.runSlot
  let n := s.compLen k 0
  sha384 (s.mem.tsram.bytes (signetPlace n) n) == s.imgBytes k 40 48

/-- The restart of the TP completes (R311, R460): Signet verifies its own image, ends the requests that were BUSY, ends the one that
asked for the restart, and takes the doorbells rung meanwhile, of whose blocks `corr` words are corrected. -/
def State.tpRestarted (corr : Nat × Nat) : State :=
  if s.restarting ∧ s.procs.tp = 2 ∧ s.signetSound then
    let asked := s.sec.onRestart
    let s := s.tpResumes (fun k => asked.any (fun x => x.1 == k))
    let s := s.mapSec (fun x => { x with onRestart := none })
    let s := match asked, s.sec.staged.orElse (fun _ => s.slotIn 2) with
      | some (slot, true), some k => s.dropStaged slot k
      | some (slot, _), _ => s.ansOk slot []
      | none, _ => s
    (s.eccSeen corr.1 corr.2).each s.procs.rung State.mbxTake
  else s

/-- TRIAL_S expires without a COMMIT (R460). -/
def State.trialExpired : State :=
  if s.sec.trialAt.isSome ∧ s.signet then
    ((s.putHdr (fun h => { h with tries := 0 })).mapSec (fun x => { x with trialAt := none })).raise .lck 11
  else s

/-- TRIAL_LEFT: seconds of TRIAL_S left. -/
def State.trialLeft : Nat :=
  match s.sec.trialAt with | some t => s.sec.trialS - (s.power.aonNs - t) / 10 ^ 9 | none => 0

/-! ## Records delivered, read and sealed (R463–R466) -/

def State.recBegin (slot : Nat) : State :=
  let n := leAt (s.mbxArg slot) 0 4
  s.updServe slot (
    if 0x800000 < n then s.ansReason slot 14
    else
      let j := s.recTarget
      (s.mapSec (fun x => { x with recDel := some { slot := j, length := n } })).ansOk slot [BitVec.ofNat 8 j])

def State.recBlock (slot : Nat) (bad : Bool) : State :=
  s.updServe slot (match s.sec.recDel with
    | none => s.ansReason slot 13
    | some d =>
      match s.blockRun slot d (recBase d.slot) bad with
      | (some d, s) => s.mapSec (fun x => { x with recDel := some d })
      | (none, s) => s)

def State.recActivate (slot : Nat) : State :=
  s.updServe slot (match s.sec.recDel with
    | none => s.ansReason slot 13
    | some d =>
      let j := d.slot
      let others := ((List.range 4).filter (fun i => i != j && s.recReason i == none)).map (fun i => s.recNum i 8 4)
      if !d.complete then s.ansReason slot 4
      else match s.recReason j with
        | some r => s.ansReason slot r
        | none =>
          if d.length < 128 + s.recNum j 16 4 then s.ansReason slot 4
          else if others.any (fun q => decide (s.recNum j 8 4 ≤ q)) then s.ansReason slot 11
          else ((s.mapSec (fun x => { x with recDel := none })).useRecord j s.sec.runSlot).ansOk slot [])

/-- Bytes that Signet writes to a space at an address: 1 management SRAM, 2 scratchpad. -/
def State.blockOut (space addr : Nat) (l : List Byte) : State :=
  if space = 1 then s.msramPut addr l
  else { s with mem := { s.mem with scratch := s.mem.scratch.putBytes addr l } }

/-- A range of a space exists. -/
def spaceFits (space addr n : Nat) : Bool :=
  (space == 1 && decide (addr + n ≤ 0xC00000)) || (space == 2 && decide (addr + n ≤ 0x200000))

def State.recRead (slot : Nat) : State :=
  let a := s.mbxArg slot
  let off := leAt a 0 4
  let n := leAt a 4 4
  let space := byteAt a 8
  let addr := leAt a 12 4
  s.updServe slot (match s.sec.recSlot with
    | none => s.ansReason slot 13
    | some j =>
      if s.recNum j 16 4 < 4096 + off + n ∨ !spaceFits space addr n then s.ansReason slot 2
      else (s.blockOut space addr (s.recBytes j (128 + 4096 + off) n)).ansOk slot [])

/-- The bytes of a MIGRATED record (R463). -/
def State.sealedRecord (version seq parent : Nat) (body : List Byte) : List Byte :=
  let head := leBytes 4 0x4B565243 ++ leBytes 2 version ++ leBytes 2 1 ++ leBytes 4 seq ++ leBytes 4 parent ++
    leBytes 4 body.length ++ leBytes 4 (crc32c 0xFFFFFFFF body)
  head ++ (aesCmac s.recKey (recInput head body) ++ List.replicate 88 0) ++ body

def State.recSeal (slot : Nat) : State :=
  let a := s.mbxArg slot
  let space := byteAt a 0
  let addr := leAt a 4 4
  let n := leAt a 8 4
  s.updServe slot (match s.sec.recSlot with
    | none => s.ansReason slot 13
    | some j =>
      if 0x800000 - 128 < 4096 + n ∨ !spaceFits space addr n then s.ansReason slot 2
      else
        let k := match s.sec.staged with | some k => k | none => s.sec.runSlot
        let lo := s.img k 18 2
        let (v, s) := s.draw (s.img k 20 2 - lo + 1)
        let plan := if space = 1 then s.mem.msram.bytes addr n else s.mem.scratch.bytes addr n
        let l := s.sealedRecord (lo + v) (s.topSeq + 1) (s.recNum j 8 4) (s.recBytes j 128 4096 ++ plan)
        let t := s.recTarget
        ((s.putFlash (recBase t) l).useRecord t k).ansOk slot [])

/-! ## Opening debug (R448, R453, R454) -/

/-- A command that carries keys (R368, R447). -/
def keyCmd (cmd : Nat) : Bool := decide ((0xC01 ≤ cmd ∧ cmd ≤ 0xC11) ∨ (0xE10 ≤ cmd ∧ cmd ≤ 0xE12))

/-- Every secret is cleared from trusted SRAM (R454): all but the image of SIGNET, the handles, and the arguments of the key commands that Signet has
taken. -/
def State.clearSecrets : State :=
  let n := s.compLen s.sec.runSlot 0
  let a := signetPlace n
  let clean (l : List Byte) : List Byte := if keyCmd (leAt l 0 2) then l.take 8 else l
  let s := { s with mem := { s.mem with tsram := s.mem.tsram.keep (fun k => decide (a ≤ k ∧ k < a + n)) } }
  let s := s.mapProcs (fun p => { p with mbx := p.mbx.setAll (p.mbx.cells.map (fun c => (c.1, clean c.2))) })
  s.mapSec (fun x => { x with handles := [], shut := true })

/-- REQ (R448, R453, R454). -/
def State.dbgSubmit : State :=
  if !s.signet ∨ s.fld .dbg Dbg.STATE_ST ≠ 0 then s
  else
    let t := s.dbgToken
    let key := if s.lc = 2 then some 5 else if s.lc = 3 then some 4 else none
    match key with
    | none => s.setFld .dbg Dbg.RESULT_RES 3
    | some k =>
      if s.sec.locked then s.setFld .dbg Dbg.RESULT_RES 3
      else if s.tokenOk t 8 k then
        let s := (s.useNonce).wipeSlots.wipeLocket
        let s := s.clearSecrets
        let s := if s.lc = 3 then s.advanceEpoch else s
        let s := ((s.setFld .dbg Dbg.STATE_ST 1).setFld .dbg Dbg.RESULT_RES 1).setFld .lck Lck.WIPE_STATUS_DEBUG_WIPED 1
        (s.bump .dbg Dbg.CNT_OPENS).raise .dbg 8
      else
        (((s.useNonce).setFld .dbg Dbg.RESULT_RES 2).bump .dbg Dbg.CNT_TOKEN_FAILS).raise .dbg 9 |>.tokenFailed

/-! ## The history of ageing (R485) -/

/-- A copy of the history; it is valid where its magic and its CRC are right. -/
def ageBase (c : Nat) : Nat := 0x1F00000 + 0x80000 * c
def State.ageNum (c off : Nat) : Nat := s.mem.flash.num (ageBase c + off) 4
def State.ageValid (c : Nat) : Bool :=
  s.ageNum c 0 == 0x4B564147 && decide (s.ageNum c 12 ≤ 4096) &&
    crc32c 0xFFFFFFFF (s.mem.flash.bytes (ageBase c + 32) (16 * s.ageNum c 12)) == s.ageNum c 16

/-- One more than SEQ of a valid copy, 0 for one that is not valid. -/
def State.ageRank (c : Nat) : Nat := if s.ageValid c then s.ageNum c 4 + 1 else 0

/-- AGE_SAVE: entries from management SRAM. The powered hours in the header are those of the history as the device left OFF with it, and POWERED_S since
(R477, R485; DEDUCED, log entry 70). -/
def State.ageSave (slot : Nat) : State :=
  let a := s.mbxArg slot
  let off := leAt a 0 4
  let n := leAt a 4 4
  s.updServe slot (
    if n % 16 ≠ 0 ∨ 65536 < n ∨ msramSize < off + n then s.ansBadArg slot
    else
      let l := s.mem.msram.bytes off n
      let hours := (s.power.ageHours + s.aonS / 3600) % 2 ^ 32
      let c := if s.ageRank 0 ≤ s.ageRank 1 then 0 else 1
      let head := leBytes 4 0x4B564147 ++ leBytes 4 (max (s.ageRank 0) (s.ageRank 1)) ++ leBytes 4 hours ++ leBytes 4 (n / 16) ++
        leBytes 4 (crc32c 0xFFFFFFFF l) ++ List.replicate 12 0
      (s.putFlash (ageBase c) (head ++ l)).ansOk slot [])

/-- AGE_LOAD: the copy with the higher SEQ, its header first. -/
def State.ageLoad (slot : Nat) : State :=
  let off := leAt (s.mbxArg slot) 0 4
  s.updServe slot (
    let c := if s.ageRank 0 ≤ s.ageRank 1 then 1 else 0
    let n := 32 + 16 * s.ageNum c 12
    if s.ageRank c = 0 ∨ msramSize < off + n then s.ansBadArg slot
    else (s.msramPut off (s.mem.flash.bytes (ageBase c) n)).ansOk slot [])

end

/-! ## The commands -/

def execMkaKeys (slot : Nat) (s : State) : Host.Outcome State Fault Refusal := .next (s.live (fun s => s.mbxRun slot 0xC01 (fun s => s.mkaKeys slot)))
def execMkaIcv (slot : Nat) (s : State) : Host.Outcome State Fault Refusal := .next (s.live (fun s => s.mbxRun slot 0xC02 (fun s => s.mkaIcv slot)))
def execSakNew (slot : Nat) (s : State) : Host.Outcome State Fault Refusal := .next (s.live (fun s => s.mbxRun slot 0xC03 (fun s => s.sakNew slot)))
def execSakInstall (slot : Nat) (s : State) : Host.Outcome State Fault Refusal :=
  .next (s.live (fun s => s.mbxRun slot 0xC04 (fun s => s.sakInstall slot)))
def execSlotFree (slot : Nat) (s : State) : Host.Outcome State Fault Refusal :=
  .next (s.live (fun s => s.mbxRun slot 0xC05 (fun s => s.slotFree slot)))
def execCupBind (slot : Nat) (s : State) : Host.Outcome State Fault Refusal := .next (s.live (fun s => s.mbxRun slot 0xC10 (fun s => s.cupBind slot)))
def execCupUnbind (slot : Nat) (s : State) : Host.Outcome State Fault Refusal :=
  .next (s.live (fun s => s.mbxRun slot 0xC11 (fun s => s.cupUnbind slot)))
def execKeyPut (slot : Nat) (s : State) : Host.Outcome State Fault Refusal := .next (s.live (fun s => s.mbxRun slot 0xE10 (fun s => s.keyPut slot)))
def execKeyPutWrapped (slot : Nat) (s : State) : Host.Outcome State Fault Refusal :=
  .next (s.live (fun s => s.mbxRun slot 0xE11 (fun s => s.keyPutWrapped slot)))
def execKeyDelete (slot : Nat) (s : State) : Host.Outcome State Fault Refusal :=
  .next (s.live (fun s => s.mbxRun slot 0xE12 (fun s => s.keyDelete slot)))
def execLcChallenge (slot : Nat) (s : State) : Host.Outcome State Fault Refusal :=
  .next (s.live (fun s => s.mbxRun slot 0xE01 (fun s => s.lcChallenge slot)))
def execColdBoot (s : State) : Host.Outcome State Fault Refusal := .next (s.live (fun s => s.coldBoot))
def execWarmBoot (s : State) : Host.Outcome State Fault Refusal := .next (s.live (fun s => s.warmBoot))
def execTpRestartDone (corr : Nat × Nat) (s : State) : Host.Outcome State Fault Refusal := .next (s.live (fun s => s.clocked .tru (fun s => s.tpRestarted corr)))
def execMainReady (s : State) : Host.Outcome State Fault Refusal := .next (s.live (fun s => s.mainReady))
def execImgBegin (slot : Nat) (s : State) : Host.Outcome State Fault Refusal :=
  .next (s.live (fun s => s.mbxRun slot 0xD01 (fun s => s.imgBegin slot)))
def execImgBlock (slot : Nat) (bad : Bool) (s : State) : Host.Outcome State Fault Refusal :=
  .next (s.live (fun s => s.mbxRun slot 0xD02 (fun s => s.imgBlock slot bad)))
def execImgVerify (slot : Nat) (s : State) : Host.Outcome State Fault Refusal :=
  .next (s.live (fun s => s.mbxRun slot 0xD03 (fun s => s.imgVerify slot)))
def execImgStage (slot : Nat) (s : State) : Host.Outcome State Fault Refusal :=
  .next (s.live (fun s => s.mbxRun slot 0xD04 (fun s => s.imgStage slot)))
def execImgSignet (slot : Nat) (s : State) : Host.Outcome State Fault Refusal :=
  .next (s.live (fun s => s.mbxRun slot 0xD05 (fun s => s.imgSignet slot)))
def execImgCommit (slot : Nat) (s : State) : Host.Outcome State Fault Refusal :=
  .next (s.live (fun s => s.mbxRun slot 0xD06 (fun s => s.imgCommit slot)))
def execImgAbandon (slot : Nat) (s : State) : Host.Outcome State Fault Refusal :=
  .next (s.live (fun s => s.mbxRun slot 0xD07 (fun s => s.imgAbandon slot)))
def execTrialExpired (s : State) : Host.Outcome State Fault Refusal := .next (s.live (fun s => s.trialExpired))
def execRecBegin (slot : Nat) (s : State) : Host.Outcome State Fault Refusal :=
  .next (s.live (fun s => s.mbxRun slot 0xD10 (fun s => s.recBegin slot)))
def execRecBlock (slot : Nat) (bad : Bool) (s : State) : Host.Outcome State Fault Refusal :=
  .next (s.live (fun s => s.mbxRun slot 0xD11 (fun s => s.recBlock slot bad)))
def execRecActivate (slot : Nat) (s : State) : Host.Outcome State Fault Refusal :=
  .next (s.live (fun s => s.mbxRun slot 0xD12 (fun s => s.recActivate slot)))
def execRecRead (slot : Nat) (s : State) : Host.Outcome State Fault Refusal := .next (s.live (fun s => s.mbxRun slot 0xD13 (fun s => s.recRead slot)))
def execRecSeal (slot : Nat) (s : State) : Host.Outcome State Fault Refusal := .next (s.live (fun s => s.mbxRun slot 0xD14 (fun s => s.recSeal slot)))
def execAgeSave (slot : Nat) (s : State) : Host.Outcome State Fault Refusal := .next (s.live (fun s => s.mbxRun slot 0xE20 (fun s => s.ageSave slot)))
def execAgeLoad (slot : Nat) (s : State) : Host.Outcome State Fault Refusal := .next (s.live (fun s => s.mbxRun slot 0xE21 (fun s => s.ageLoad slot)))
def execOtpProgram (src : Src) (s : State) : Host.Outcome State Fault Refusal :=
  .next (s.live (fun s => s.guardTrusted src .otp Otp.PROG_CTRL_GO.off (fun s => s.otpProgram src)))
def execTamperTrip (n : Nat) (s : State) : Host.Outcome State Fault Refusal := .next (s.live (fun s => s.tamper n))
def execDbgChalReq (src : Src) (s : State) : Host.Outcome State Fault Refusal :=
  .next (s.live (fun s => s.guardOpen src Dbg.CHAL_REQ_GO.off State.chalReq))
def execDbgTokenSubmit (src : Src) (s : State) : Host.Outcome State Fault Refusal :=
  .next (s.live (fun s => s.guardOpen src Dbg.REQ_GO.off State.dbgSubmit))

end Sys2Proof.Machine
end

