-- ==== Sys2Proof/Machine/Reset.lean ====
section
/-! DEFINITION. The five reset levels, what each keeps, and how they meet (R484, R494, R504–R507). -/
namespace Sys2Proof.Machine

/-- A register that a DEVICE reset keeps (R504): the AGE page, VREQ, V_CEIL and K of CLK, RST_CAUSE and TAMPER_LATCH. GPIO.IN shows the
balls. -/
def keptDevice (a : Nat) : Bool :=
  match Page.ofAddr a with
  | some .age => true
  | some .clk =>
    let off := a % 0x4000
    decide ((0x100 ≤ off ∧ off < 0x138) ∨ (0x140 ≤ off ∧ off < 0x178) ∨ (0x840 ≤ off ∧ off < 0x878))
  | some .sys => a == (Page.sys.base + Sys.RST_CAUSE_LEVEL.off)
  | some .lck => a == (Page.lck.base + Lck.TAMPER_LATCH_TRIP.off)
  | some .gpio => a == (Page.gpio.base + Gpio.IN_LEVEL.off)
  | _ => false

/-- A register, or a counter, of an AON page, which a SYSTEM reset keeps (R504). -/
def keptSystem (a : Nat) : Bool :=
  keptDevice a || (match Page.ofAddr a with | some p => p.island == 14 | none => false)

/-- Bits that PERST# leaves in a page of HOST (R504): the owner, and of PCIE the identification and CFG_READY. -/
def Page.keptPerst (p : Page) (off : Nat) : Nat :=
  if off = Hdr.OWNER_CLASS.off then 2 ^ 32 - 1
  else match p with
    | .pcie => if off = Pcie.IDENT_SUBSYS_VID.off then 2 ^ 32 - 1 else if off = Pcie.LINK_CFG_CFG_READY.off then 0x100 else 0
    | _ => 0

section
variable (s : State)

/-- Everything at its reset value, but for what stands outside the device or lasts: fuses, flash, the host's memory, the outputs made, the
draws, the commands that wait (R504, level COLD). -/
def State.coldState (rst : Rst) : State :=
  { State.reset with
    mem := { otp := s.mem.otp, flash := s.mem.flash, host := s.mem.host }
    rst, frees := s.frees, out := s.out, pending := s.pending }

/-- The state after a DEVICE reset (R504). -/
def State.deviceState : State :=
  { s.coldState { s.rst with off := false } with
    regs := s.regs.keep keptDevice
    counters := s.counters.keep (fun k => counterPage k == some .age)
    snapshot := s.snapshot.keep (fun k => counterPage k == some .age)
    mem := { otp := s.mem.otp, flash := s.mem.flash, host := s.mem.host, locket := s.mem.locket }
    sec := s.sec.locket
    power := { aonNs := s.power.aonNs, vMove := s.power.vMove, ageHours := s.power.ageHours }
    tap := s.tap }

/-- The state after a SYSTEM reset (R504): AON goes on, a transition is aborted, the islands are ON as in RUN. The handles of R368 end at a DEVICE
reset alone. -/
def State.systemState : State :=
  let aon (k : Nat) : Bool := match counterPage k with | some p => p.island == 14 | none => false
  let t := { s.deviceState with
    sec := { s.sec.locket with handles := s.sec.handles, nextHandle := s.sec.nextHandle }
    regs := s.regs.keep keptSystem
    counters := s.counters.keep aon
    snapshot := s.snapshot.keep aon
    drainTimer := s.drainTimer.keep (fun k => match Page.ofIndex k with | some p => p.island == 14 | none => false)
    power := { s.power with waking := false, occurred := 0, first := 0, unconfirmed := [], stands := false, hot := [], holders := Sparse.empty } }
  let t := if s.checking .clk then t.setStatus .clk 0 0 else t
  let t := if s.phase = 0 then t else (t.setPhase 0).setResult 3
  let t := (t.setFld .pwr Pwr.STATUS_ST 0).setFld .pwr Pwr.ISLAND_STATE_MAP (t.targetMap 0)
  if s.pwrSt = 0 then t else t.nmReachedRun

/-- The TP is released for its comparator test, unless a pin still holds the device in reset (R505, R506). -/
def State.releaseTp : State := if s.resetHeld then s else s.setTp 1

/-- Balls take the levels of a reset that the pins of `r` would hold, and then those of the state that it leaves (R501). -/
def State.resetBalls (r : Rst) (l : List Ball) : State :=
  (s.emit (.levels (l.map (fun b => (b, ({ s with rst := r }).level b))))).showBalls l

/-- The balls of the islands below AON. -/
def deepBalls : List Ball := (List.range 14).flatMap islandBalls

/-- XSPI_RESET_N stays low until 10 µs after the reset has ended (R501). -/
def State.xspiHold : State := { s with rst := { s.rst with xspiAt := s.power.aonNs + 10000 } }

/-- The device is in RUN again, and PSU_EN high (R493, R504). -/
def State.psuUp (old : State) : State := if old.psuEn then s else s.emit (.psuEn true)

/-- A reset of level DEVICE, and of level SYSTEM, by a source (R504–R507): a broader level that is in force absorbs a narrower one. -/
def State.deviceReset (source : Nat) : State :=
  (((s.deviceState.rstCause 1 source).psuUp s).xspiHold.resetBalls { s.rst with por := true } (deepBalls ++ aonBalls ++ [Ball.xspiReset])).releaseTp
def State.systemReset (source : Nat) : State :=
  if s.rst.por then s
  else (((s.systemState.rstCause 2 source).psuUp s).resetBalls { s.rst with sys := true } deepBalls).releaseTp

/-- The MGMT island is reset (R504): every MP is OFF, the MPC page and management SRAM are as after reset. -/
def State.mgmtClear : State :=
  let s := s.freshPage .mpc
  let s := s.mapProcs (fun p => { p with wbuf := Sparse.empty, icache := Sparse.empty, dcache := Sparse.empty })
  let s := s.mapBridge (fun b => { b with
    resv := Sparse.empty, peerOpen := b.peerOpen.filter (fun r => r.use.mp.isNone), peerWait := b.peerWait.filter (fun r => r.use.mp.isNone)
    hostOpen := b.hostOpen.filter (fun r => r.use.mp.isNone), hostWait := b.hostWait.filter (fun r => r.use.mp.isNone) })
  { s with mem := { s.mem with msram := Sparse.empty } }

/-- After a MGMT reset Signet reloads the code of the ACTIVE slot and starts MP0 (R504). -/
def State.mgmtReload : State :=
  match s.slotIn 1 with
  | some k =>
    if s.signet ∧ s.lc ≠ 5 then
      let s := (s.assignOwner .mpc).loadImage k s.sec.region
      (s.mapSec (fun x => { x with mainDue := false })).startMp0 (s.imgEntry k s.sec.region)
    else s
  | none => s

/-- A reset of level MGMT by a source. -/
def State.mgmtReset (source : Nat) : State := if s.resetHeld then s else (s.mgmtClear.rstCause 3 source).mgmtReload

/-- A page of HOST under PERST#. -/
def State.perstPage (p : Page) : State :=
  ((((s.drainTime p false).resetEngine p).resetCounters p).resetTabs p).resetWords p p.keptPerst

/-- PERST# is low, and stays so until it is released (R391, R504, R505). -/
def State.perst : State :=
  if s.rst.perst then s
  else if s.resetHeld then { s with rst := { s.rst with perst := true } }
  else
    let s := (s.pcieDown.hostLost).cfgReset
    let s := { (s.each (islandPages 13) State.perstPage) with pcie := {} }
    let s := (s.freshPort 32).rstCause 4 6
    ({ s with rst := { s.rst with perst := true } }).showBalls (islandBalls 13)

/-- POR_N low for 10 µs with supplies present; SYS_RST_N low for 10 µs (R504, R505). -/
def State.porLow : State :=
  if s.rst.off ∨ s.rst.por then s else ({ s with rst := { s.rst with por := true } }).deviceReset 1
def State.sysLow : State :=
  if s.rst.off ∨ s.rst.sys then s else ({ s with rst := { s.rst with sys := true } }).systemReset 2

/-- A reset pin is released (R505, R506): the balls are driven again, XSPI_RESET_N 10 µs after POR_N (R501). -/
def State.pinReleased (pin : ResetPin) : State :=
  match pin with
  | .por =>
    if s.rst.por then (({ s with rst := { s.rst with por := false } }).xspiHold.showBalls (deepBalls ++ aonBalls ++ [Ball.xspiReset])).releaseTp else s
  | .sys => if s.rst.sys then (({ s with rst := { s.rst with sys := false } }).showBalls deepBalls).releaseTp else s
  | .perst => if s.rst.perst then ({ s with rst := { s.rst with perst := false } }).showBalls (islandBalls 13) else s

/-- The powered hours in the newest valid copy of the history (R477, R485). -/
def State.savedHours : Nat :=
  if s.ageRank 0 = 0 ∧ s.ageRank 1 = 0 then 0 else s.ageNum (if s.ageRank 1 ≤ s.ageRank 0 then 0 else 1) 8

/-- The supplies rise in the order of R495, and POR_N after them: PSU_EN goes high, the zero-fill, the margin search, the TP's release (R484,
R506). The command stands for the steps from VDD_CORE on (log entry 125). -/
def State.coldReset (search : List (List Nat)) : State :=
  if s.rst.off then
    let t := (s.emit (.psuEn true)).coldState { off := false, perst := s.rst.perst, xspiAt := 10000 }
    let t := t.mapPower (fun p => { p with ageHours := t.savedHours })
    let t := t.searchAll search
    ((t.setFld .sys Sys.RST_CAUSE_SOURCE (if s.rst.brown then 4 else 0)).resetBalls { s.rst with off := true } (deepBalls ++ aonBalls ++ [Ball.xspiReset])).setTp 1
  else s

/-- VDD_CORE below 0.700 V: the device is in OFF at once (R494), and its balls with it (R493, R501). -/
def State.brownOut : State :=
  ((s.coldState { off := true, brown := true, perst := s.rst.perst }).emit (.psuEn false)).showBalls (deepBalls ++ aonBalls ++ [Ball.xspiReset])

/-- MPC has shown no MP in RUN for 1 s (R504). -/
def State.noMp : State :=
  if s.signet ∧ (List.range 4).all (fun m => s.mpSt m != 2) then s.mgmtReset 5 else s

/-- A write of RST_CTRL: the broadest level asked for applies (R505, R507). -/
def State.rstCtrl (v : Nat) : State :=
  if v.testBit 0 then s.deviceReset 3 else if v.testBit 1 then s.systemReset 3 else if v.testBit 2 then s.mgmtReset 3 else s

/-- LC_TRANSITION, with the device reset that follows it (R449). -/
def State.lcGo (slot : Nat) : State :=
  let (go, s) := s.lcTransition slot
  if go then s.deviceReset 3 else s

/-- MGMT_RESET (R504). -/
def State.mgmtAsk (slot : Nat) : State := s.updServe slot ((s.ansOk slot []).mgmtReset 3)

end

/-! ## The commands -/

def execLcTransition (slot : Nat) (s : State) : Host.Outcome State Fault Refusal :=
  .next (s.live (fun s => s.mbxRun slot 0xE02 (fun s => s.lcGo slot)))
def execMgmtReset (slot : Nat) (s : State) : Host.Outcome State Fault Refusal :=
  .next (s.live (fun s => s.mbxRun slot 0xE30 (fun s => s.mgmtAsk slot)))
def execColdReset (search : List (List Nat)) (s : State) : Host.Outcome State Fault Refusal := .next (s.coldReset search)
def execPorNLow (s : State) : Host.Outcome State Fault Refusal := .next s.porLow
def execSysRstNLow (s : State) : Host.Outcome State Fault Refusal := .next s.sysLow
def execResetSourceRelease (pin : ResetPin) (s : State) : Host.Outcome State Fault Refusal := .next (s.pinReleased pin)
def execRstCtrlDevice (src : Src) (s : State) : Host.Outcome State Fault Refusal :=
  .next (s.live (fun s => s.guardTrusted src .sys Sys.RST_CTRL_DEVICE.off (fun s => s.rstCtrl 1)))
def execRstCtrlSystem (src : Src) (s : State) : Host.Outcome State Fault Refusal :=
  .next (s.live (fun s => s.guardTrusted src .sys Sys.RST_CTRL_SYSTEM.off (fun s => s.rstCtrl 2)))
def execRstCtrlMgmt (src : Src) (s : State) : Host.Outcome State Fault Refusal :=
  .next (s.live (fun s => s.guardTrusted src .sys Sys.RST_CTRL_MGMT.off (fun s => s.rstCtrl 4)))
def execBrownOut (s : State) : Host.Outcome State Fault Refusal := .next s.brownOut
def execNoMpTimeout (s : State) : Host.Outcome State Fault Refusal := .next (s.live (fun s => s.noMp))
def execPerst (s : State) : Host.Outcome State Fault Refusal := .next s.perst

end Sys2Proof.Machine
end

