-- ==== Sys2Proof/Machine/Router.lean ====
section
/-! DEFINITION. BAR0: what answers at an address, the reads and writes of every register, table window and scratchpad word, and the rows
that are plain writes of the common header (R22–R30, R35, R39, R41–R43, R116, R390, R392). -/
namespace Sys2Proof.Machine

/-! ## The map (R22–R26) -/

/-- What answers at an address of BAR0 below the scratchpad. -/
inductive Place where
  /-- A register page: the window of R26 (0 direct, 1 set, 2 clear, 3 reserved) and the offset in it. -/
  | page (p : Page) (window off : Nat)
  /-- A table window, with the page that owns it. -/
  | window (p : Page)
  | nothing
  deriving DecidableEq, Repr

/-- The owner of the table window an address lies in (R23, R27, R106, R178, R351). -/
def windowOwner (a : Nat) : Option Page :=
  if 0x1000000 ≤ a ∧ a < 0x1800000 then some .cls
  else if 0x1800000 ≤ a ∧ a < 0x1918000 then some .fib
  else if 0x1A00000 ≤ a ∧ a < 0x1C00000 then some .cls
  else if 0x1C00000 ≤ a ∧ a < 0x1C98000 then some (.tgate ((a - 0x1C00000) / 0x4000))
  else if 0x1E00000 ≤ a ∧ a < 0x1E03000 then some .tsi
  else none

/-- What answers at an address. -/
def Place.ofAddr (a : Nat) : Place :=
  if a < 0x1000000 then
    match Page.ofAddr a with
    | some p => .page p (a % 0x4000 / 0x1000) (a % 0x1000)
    | none => .nothing
  else match windowOwner a with
    | some p => .window p
    | none => .nothing

/-- An address of the three scratchpad ranges (R24). -/
def scratchAddr (a : Nat) : Bool := decide (0x2000000 ≤ a ∧ a < 0x2600000)

/-- The index, below a bound, at which a register of an array stands at an offset. -/
def regIdx (f : Nat → Fld) (n off : Nat) : Option Nat := (List.range n).find? (fun i => (f i).off == off)

/-! ## The common header (R28, R30, R39, R42, R43) -/

section
variable (s : State)

/-- ERR_CODE.CLEAR (R29, R30). -/
def State.errClear (p : Page) : State :=
  (((s.setFld p Hdr.ERR_CODE_CODE 0).setWord p Hdr.ERR_INFO_SRC.off 0).setWord p Hdr.ERR_ADDR_LO_ADDR.off 0).setWord p
    Hdr.ERR_ADDR_HI_ADDR.off 0

/-- A write of EVT_CLR: RAW bits clear, and the message goes out again while EVT_PEND stays non-zero (R43). -/
def State.evtClr (p : Page) (v : Nat) : State :=
  let s := s.setWord p Hdr.EVT_RAW_RAW.off (s.word p Hdr.EVT_RAW_RAW.off &&& ~~~ BitVec.ofNat 32 v)
  if s.pend p = 0 then s else s.pageMessage p

/-- SNAP: every counter of the page is copied, and SNAP_TIME records the moment (R28, R116, R146). -/
def State.snap (p : Page) : State :=
  let mine (k : Nat) : Bool := counterPage k == some p
  ({ s with snapshot := (s.snapshot.keep (fun k => !mine k)).setAll (s.counters.cells.filter (fun c => mine c.1)) }).setFld p
    Hdr.SNAP_TIME_NS s.ns32

/-- A write of EVT_ROUTE of the page with summary index `n` (R42). -/
def State.routePut (n v : Nat) : State :=
  let was := s.flag .sys (Sys.EVT_ROUTE_HOST_EN n)
  let s := s.setWord .sys (Sys.EVT_ROUTE_VECTOR n).off (BitVec.ofNat 32 v &&& 0xF3F80FF)
  match Page.ofIndex n with
  | some p => if !was ∧ s.flag .sys (Sys.EVT_ROUTE_HOST_EN n) ∧ s.pend p ≠ 0 then s.pageMessage p else s
  | none => s

/-- A write of OWNER: the trusted processor's alone, and none while LOCKED is 1 (R39). -/
def State.ownerWrite (src : Src) (p : Page) (off v : Nat) : State :=
  s.arrives src (fun s =>
    if !s.pageOn p then s.logErr .sys 3 src.code (p.base + off)
    else if s.actsTrusted src ∧ !s.flag p Hdr.OWNER_LOCKED then
      if s.restarting then s
      else
        let s := s.setFld p Hdr.OWNER_CLASS v
        if v.testBit 8 then s.setFld p Hdr.OWNER_LOCKED 1 else s
    else s.notOwner src p (p.base + off))

/-! ## Writes that do more than store -/

/-- A write of a word of the header. -/
def State.headerPut (src : Src) (p : Page) (off v : Nat) : State :=
  if off = Hdr.CTRL_EN.off then s.ctrlWrite src p v
  else if off = Hdr.COMMIT_REQUEST.off then s.commitWrite src p v
  else if off = Hdr.EVT_EN_EN.off then s.setEvents p (s.word p Hdr.EVT_RAW_RAW.off) (BitVec.ofNat 32 v)
  else if off = Hdr.EVT_CLR_CLR.off then s.evtClr p v
  else if off = Hdr.ERR_CODE_CLEAR.off then (if v.testBit 31 then s.errClear p else s)
  else if off = Hdr.SNAP_SNAP.off then (if v.testBit 0 then s.snap p else s)
  else if off = Hdr.DRAIN_LIMIT_LIMIT.off then s.setFld p Hdr.DRAIN_LIMIT_LIMIT v
  else s

/-- FORECAST: EOM written from 0 to 1 raises the alarm (R481, R485). -/
def State.eomPut (i v : Nat) : State :=
  let was := s.flag .age (Age.FORECAST_EOM i)
  let s := s.setWord .age (Age.FORECAST_EOM i).off (BitVec.ofNat 32 v &&& 0x8000FFFF)
  if !was ∧ s.flag .age (Age.FORECAST_EOM i) then (s.bump .age 0x388).raise .age 9 else s

/-- A whole write of MPm_CTRL: SPARE and REDIRECT are stored, then the requests are taken (R312, R321). -/
def State.mpCtrlPut (src : Src) (m v : Nat) : State :=
  let off := (Mpc.MP_CTRL_START m).off
  let s := s.setWord .mpc off (BitVec.ofNat 32 v &&& 0x38)
  let s := if v.testBit 0 then s.mpStart m else s
  let s := if v.testBit 1 then s.mpGo m else s
  if v.testBit 2 then s.mpFenceReq src m else s

/-- A write of BASE of a management ring, refused while EN = 1 (R321). -/
def State.mringBasePut (src : Src) (r v : Nat) : State :=
  if s.flag .mpc (Mpc.MRING_CFG_EN r) then s.refuse src .mpc 0x20 (Mpc.MRING_BASE_BASE r).off
  else s.setFld .mpc (Mpc.MRING_BASE_BASE r) (v / 64)

/-- A write of CFG of a management ring: a new LOG2 is refused while EN = 1, and EN is taken (R321). -/
def State.mringCfgPut (src : Src) (r v : Nat) : State :=
  let keep := s.flag .mpc (Mpc.MRING_CFG_EN r) && v % 16 != s.fld .mpc (Mpc.MRING_CFG_LOG2 r)
  let s := if keep then s.refuse src .mpc 0x20 (Mpc.MRING_CFG_LOG2 r).off else s.setFld .mpc (Mpc.MRING_CFG_LOG2 r) v
  s.setFld .mpc (Mpc.MRING_CFG_EN r) (v / 2 ^ 31)

/-- A write of PCIE.LINK_CFG: LINK_EN cleared takes the link down (R414). -/
def State.linkCfgPut (v : Nat) : State :=
  let was := s.flag .pcie Pcie.LINK_CFG_LINK_EN
  let w := (BitVec.ofNat 32 v &&& 0xF) ||| (s.word .pcie Pcie.LINK_CFG_LINK_EN.off &&& 0x100) ||| (BitVec.ofNat 32 v &&& 0x100)
  let s := s.setWord .pcie Pcie.LINK_CFG_LINK_EN.off w
  if was ∧ !s.flag .pcie Pcie.LINK_CFG_LINK_EN then s.pcieDown else s

/-- Both requests of TC10_CTRL, with TIMEOUT and the rest stored (R56, R60). -/
def State.tc10Put (p v : Nat) : State :=
  let off := Etp.TC10_CTRL_SLEEP_REQ.off
  let s := s.setWord (.etp p) off (BitVec.ofNat 32 v &&& 0xFFFF00F0)
  if v.testBit 1 then s.tc10Wake p else if v.testBit 0 then s.tc10Sleep p else s

/-- PN_CTRL: WAKE_REQ beside SLEEP_REQ acts alone (R334, R340). -/
def State.pnPut (n v : Nat) : State :=
  let s := if v.testBit 1 then s.pnWakeReq n else if v.testBit 0 then s.pnSleepReq n else s
  if v.testBit 2 then s.canRecover n else s

/-- LIN_CTRL (R339, R342). -/
def State.linPut (n v : Nat) : State := if v.testBit 1 then s.linWakeReq n else if v.testBit 0 then s.linSleepReq n else s

/-- KEY_CTRL: the fields are stored, LOAD acts before ZERO (R382). -/
def State.keyCtrlPut (v : Nat) : State :=
  let s := s.setWord .msec Msec.KEY_CTRL_LOAD.off (BitVec.ofNat 32 v &&& 0x13F03)
  let s := if v.testBit 24 then s.keyLoad else s
  if v.testBit 25 then s.keyZero else s

/-- CH_CTRL of a DMA channel: RESUME, SKIP and ABORT in that order; an abort by this write has written no further row (R413, R419). -/
def State.chCtrlPut (c v : Nat) : State :=
  let s := if v.testBit 0 then s.dmaResume c else s
  let s := if v.testBit 1 then s.dmaSkip c else s
  if v.testBit 2 then s.dmaAbort c 0 (0, 0) else s

/-- FW_WDOG: LIMIT is stored, and KICK restarts the watchdog (R295, R303). -/
def State.wdogPut (v : Nat) : State :=
  let s := s.setFld .clsp Clsp.FW_WDOG_LIMIT_US v
  if v.testBit 31 then s.fwKick else s

/-- TRACE_CTRL: INDEX is stored, RELEASE releases the record (R294, R303). -/
def State.tracePut (v : Nat) : State :=
  let s := s.setFld .clsp Clsp.TRACE_CTRL_INDEX v
  if v.testBit 31 then s.traceRelease else s

/-- MDIO_CMD: its OP field (R54, R60). -/
def State.mdioPut (src : Src) (p v : Nat) : State := s.mdioCmd src p (v % 4)

/-- A word of LAST or NEXT of an authentication entry, written in OFF alone (R334, R340). -/
def freshReg (off : Nat) : Bool :=
  [Can.AUTH_LAST_LO_FV, Can.AUTH_LAST_HI_FV, Can.AUTH_NEXT_LO_FV, Can.AUTH_NEXT_HI_FV].any (fun f => (regIdx f 8 off).isSome)

/-- A write by an owner of a register whose write does more than store: the state after it, or none for a register that only stores. -/
def State.special (src : Src) (p : Page) (off v : Nat) : Option State :=
  let go (b : Bool) (t : State) : Option State := some (if b then t else s)
  match p with
  | .sys =>
    match regIdx Sys.EVT_ROUTE_VECTOR 266 off with
    | some n => some (s.routePut n v)
    | none => if off = Sys.RST_CTRL_DEVICE.off then some (s.rstCtrl v) else none
  | .clk => (regIdx Clk.ISL_V_VREQ 14 off).map (fun i => s.islVPut src i v)
  | .pwr => if off = Pwr.REQ_STATE.off then some (s.pwrReq src.code (v % 8)) else none
  | .age => (regIdx Age.FORECAST_EOM 14 off).map (fun i => s.eomPut i v)
  | .wake =>
    if off = Wake.MASK_SRC.off then some (s.maskWrite v)
    else if off = Wake.CONFIRM_CONFIRM.off then go (v.testBit 0) s.confirmWake
    else none
  | .nm =>
    if off = Nm.NM_CFG_ETYPE.off then some (s.nmCfgWrite src (Nm.NM_CFG_ETYPE.ex (BitVec.ofNat 32 v))
      (Nm.NM_CFG_AUTO.ex (BitVec.ofNat 32 v) == 1) (Nm.NM_CFG_SLEEP_STATE.ex (BitVec.ofNat 32 v)))
    else if off = Nm.HOLD_HOLD.off then some (s.holdWrite (v.testBit 0) (Nm.HOLD_REASON.ex (BitVec.ofNat 32 v)))
    else none
  | .otp => if off = Otp.PROG_CTRL_GO.off then go (v.testBit 0) (s.otpProgram src) else none
  | .etp n =>
    if off = Etp.TC10_CTRL_SLEEP_REQ.off then some (s.tc10Put n v)
    else if off = Etp.MDIO_CMD_OP.off then some (s.mdioPut src n v)
    else none
  | .fib => if off = Fib.STAGE_CLR_CLR.off then go (v.testBit 0) (s.stageClear src) else none
  | .qsch => if off = Qsch.METER_CLR_METER.off then some (s.meterClr v) else none
  | .time =>
    if off = Time.SLEW_CFG_MAX_PPM.off then some (s.slewPut v)
    else if off = Time.TSNAP_GO.off then go (v.testBit 0) s.tsnap
    else if off = Time.TXTS_POP_POP.off then go (v.testBit 0) s.txtsPop
    else match regIdx Time.DOM_ADJ_ADJ 4 off, regIdx Time.DOM_CTRL_STEP 4 off with
      | some d, _ => some (s.adjPut src d v)
      | _, some d => some (if v.testBit 1 then s.domAsk src d true else if v.testBit 0 then s.domAsk src d false else s)
      | _, _ => none
  | .fab =>
    if off = Fab.NODE_ID.off then
      some (s.nodeWrite (Fab.NODE_ID.ex (BitVec.ofNat 32 v)) (Fab.NODE_VALID.ex (BitVec.ofNat 32 v) == 1))
    else none
  | .clsp =>
    if off = Clsp.FW_WDOG_KICK.off then some (s.wdogPut v)
    else if off = Clsp.ROLE_CMD_CMD.off then some (s.roleCmd src (v % 4))
    else if off = Clsp.TRACE_CTRL_RELEASE.off then some (s.tracePut v)
    else none
  | .cip n =>
    if off = Cip.JOB_GO_GO.off then go (v.testBit 0) (s.jobGo src n)
    else if off = Cip.DONE_POP_POP.off then go (v.testBit 0) (s.donePop n)
    else none
  | .can n =>
    if off = Can.PN_CTRL_SLEEP_REQ.off then some (s.pnPut n v)
    else if freshReg off ∧ s.st p ≠ 0 then some (s.refuse src p 7 off)
    else none
  | .lin n => if off = Lin.LIN_CTRL_SLEEP_REQ.off then some (s.linPut n v) else none
  | .pcie => if off = Pcie.LINK_CFG_LINK_EN.off then some (s.linkCfgPut v) else none
  | .brg => if off = Brg.PWLOG_POP_POP.off then go (v.testBit 0) s.pwPop else none
  | .ring =>
    match regIdx Ring.RX_TAIL_TAIL 64 off, regIdx Ring.TX_TAIL_TAIL 64 off with
    | some r, _ => some (s.ringTail false r v)
    | _, some r => some (s.ringTail true r v)
    | _, _ => none
  | .dma =>
    match regIdx Dma.TAIL_TAIL 32 off, regIdx Dma.CH_CTRL_RESUME 32 off with
    | some c, _ => some (s.dmaTail c v)
    | _, some c => some (s.chCtrlPut c v)
    | _, _ => none
  | .mpc =>
    if off = Mpc.FENCE_FENCE.off then some s
    else if off = Mpc.MBX_RING_RING.off then go (v.testBit 0 || !src.isMp) (s.mpcRing src 0)
    else match regIdx Mpc.MP_CTRL_START 4 off with
      | some m => some (s.mpCtrlPut src m v)
      | none => match regIdx Mpc.MRING_TAIL_TAIL 16 off with
        | some r => some (s.mringTail r v)
        | none => match regIdx Mpc.MRING_BASE_BASE 16 off, regIdx Mpc.MRING_CFG_LOG2 16 off with
          | some r, _ => some (s.mringBasePut src r v)
          | _, some r => some (s.mringCfgPut src r v)
          | _, _ => none
  | .scr =>
    if off = Scr.MBX_RING_RING.off then go (v.testBit 0 || src != .host) (s.scrRing src 0)
    else if off = Scr.DB_SET_BITS.off then some (s.dbSet v)
    else none
  | .dbg =>
    if off = Dbg.CHAL_REQ_GO.off then go (v.testBit 0) s.chalReq
    else if off = Dbg.REQ_GO.off then go (v.testBit 0) s.dbgSubmit
    else none
  | .msec =>
    if off = Msec.KEY_CTRL_LOAD.off then some (s.keyCtrlPut v)
    else if (regIdx Msec.KEY_W_KEY 8 off).isSome ∨ (regIdx Msec.SALT_W_SALT 3 off).isSome then
      some (s.setWord .msec off (BitVec.ofNat 32 v))
    else none
  | _ => none

/-- What a direct write leaves in a register that only stores: RW bits take the written value, W1C bits clear, W1S bits set (R4). -/
def RegSpec.stored (r : RegSpec) (old v : Word) : Word :=
  ((mixWord old v r.rw) &&& ~~~ (v &&& BitVec.ofNat 32 r.w1c)) ||| (v &&& BitVec.ofNat 32 r.w1s)

/-- A write of a register of the active view, by a master that may write it. -/
def State.regPut (src : Src) (p : Page) (off v : Nat) : State :=
  if off < 0x100 then s.headerPut src p off v
  else match s.special src p off v with
    | some t => t
    | none => match p.spec off with
      | some r => s.setWord p off (r.stored (s.word p off) (BitVec.ofNat 32 v))
      | none => s

/-! ## A write to a page (R26, R35, R39) -/

/-- What a write through window `w` carries to the register: the word written, or with an alias the present word with bits set or cleared
(R26). -/
def aliased (w : Nat) (old v : Nat) (rw : Nat) : Nat :=
  if w = 0 then v
  else
    let o := BitVec.ofNat 32 old &&& BitVec.ofNat 32 rw
    let b := BitVec.ofNat 32 v &&& BitVec.ofNat 32 rw
    (if w = 1 then o ||| b else o &&& ~~~ b).toNat

/-- The registers of DBG that R454 opens. -/
def Page.openReg (p : Page) (off : Nat) : Bool :=
  p == .dbg && (off == Dbg.CHAL_REQ_GO.off || off == Dbg.REQ_GO.off || (regIdx Dbg.TOKEN_W_TOKEN 30 off).isSome)

/-- A word that a table shows at TAB_DATA or at its shadow, as TAB_ADDR selects it. -/
def State.tabNow (p : Page) (shadow : Bool) : Nat :=
  let (t, e, w) := s.tabAt p
  s.tabWord p shadow t e w

/-- A 4 B write at offset `off` of window `w` of a page (R26, R35, R39). -/
def State.pageWrite (src : Src) (p : Page) (w off v : Nat) : State :=
  let at' := 0x1000 * w + off
  if w = 3 then
    s.arrives src (fun s => if s.pageOn p then s.refuse src p 3 at' else s.logErr .sys 3 src.code (p.base + at'))
  else if 0xF00 ≤ off then s.guardTrusted src p at' (fun s => s)
  else if 0x800 ≤ off then
    s.guard src p at' (fun s =>
      let old := if p.tabOff = some (off - 0x700) then s.tabNow p true else (s.word p off).toNat
      s.shadowPut src p off (aliased w old v 0xFFFFFFFF))
  else if off = Hdr.OWNER_CLASS.off then s.ownerWrite src p at' (aliased w (s.fld p Hdr.OWNER_CLASS) v 3)
  else if p.tabOff = some off then
    s.guard src p at' (fun s => s.tabWrite src p false (aliased w (s.tabNow p false) v 0xFFFFFFFF))
  else match p.spec off with
    | none => s.guard src p at' (fun s => s)
    | some r =>
      let act (s : State) : State :=
        if w ≠ 0 ∧ r.rw = 0 then s
        else
          let t := s.regPut src p off (aliased w (s.word p off).toNat v r.rw)
          if p = .clsp ∨ p = .brg ∨ p = .fab then t.follow else t
      if r.trusted then s.guardTrusted src p at' act
      else if p.openReg off then s.guardOpen src at' act
      else if p = .clk ∧ (regIdx Clk.ISL_V_VREQ 14 off).isSome then s.guardMixed src p at' act
      else s.guard src p at' act

/-! ## A read of a page (R26, R28, R35) -/

/-- A word of the snapshot of a counter behind a table or a selector. -/
def State.snapHalf (p : Page) (table entry k : Nat) : Nat :=
  halfWord (k % 2 == 1) (s.snapshot.get (2 ^ 32 + tabKey p table entry (k / 2)))

/-- Words W0 to W6 of the head of the transmit timestamp FIFO shown (R237, R244). -/
def State.txtsWord (k : Nat) : Nat :=
  match s.txtsShown with
  | [] => 0
  | e :: _ =>
    match k with
    | 0 => place e.tag 8 0 + place e.domain 2 8 + place e.steps 8 16 + 2 ^ 31
    | 1 => e.time / 2 ^ 16 % 2 ^ 32
    | 2 => e.time / 2 ^ 48 % 2 ^ 32
    | 3 => e.time % 2 ^ 16 + place e.seq 16 16
    | 4 => e.domNs % 10 ^ 9
    | 5 => e.domNs / 10 ^ 9 % 2 ^ 32
    | _ => e.domNs / 10 ^ 9 / 2 ^ 32 % 2 ^ 16

/-- The time in the gate domain of a port. -/
def State.gateTime (n : Nat) : Nat := s.domNs (s.fld (.tgate n) Tgate.GATE_CFG_DOMAIN)

/-- A register of the active view that shows live state, or a table through a selector: its word. DRAIN_DISCARD is a counter of 64 bits, and
shows its snapshot (R28, R29). -/
def State.liveReg (p : Page) (off : Nat) : Option Nat :=
  let w : Nat := (s.word p off).toNat
  let arr (base n : Nat) : Option Nat := if base ≤ off ∧ off < base + 4 * n ∧ off % 4 = 0 then some ((off - base) / 4) else none
  if off = Hdr.EVT_PEND_PEND.off then some (s.pend p).toNat
  else if off = Hdr.EVT_CLR_CLR.off then some (s.word p Hdr.EVT_RAW_RAW.off).toNat
  else if off = Hdr.DRAIN_DISCARD_LO_COUNT.off then some (halfWord false (s.snapshot.get (p.base + Hdr.DRAIN_DISCARD_LO_COUNT.off)))
  else if off = Hdr.DRAIN_DISCARD_HI_COUNT.off then some (halfWord true (s.snapshot.get (p.base + Hdr.DRAIN_DISCARD_LO_COUNT.off)))
  else if off < 0x100 then none
  else match p with
  | .sys => (arr 0x100 9).map (fun k => s.summary k)
  | .age => if off = Age.POWERED_S_S.off then some (s.aonS % 2 ^ 32) else none
  | .wake => if off = Wake.AON_S_S.off then some (s.aonS % 2 ^ 32) else none
  | .nm =>
    if off = Nm.STATUS_NT_MS.off then some (w % 2 ^ 16 + place s.ntLeft 16 16)
    else match arr 0x134 6, arr 0x154 6 with
      | some k, _ => some ((s.power.holders.get (s.fld .nm Nm.HOLDER_SEL_ENTRY)).word k % 2 ^ 32)
      | _, some k => some ((s.power.hlog.get (s.fld .nm Nm.HLOG_SEL_ENTRY)).word k % 2 ^ 32)
      | _, _ => none
  | .otp => (s.otpWord off).map (· % 2 ^ 32)
  | .cls =>
    let r := s.fld .cls Cls.RULE_SEL_RULE
    (arr 0x2D0 4).map (fun k => halfWord (k % 2 == 1) (s.snapshot.get (ruleKey r + k / 2)))
  | .buf =>
    let q := s.fld .buf Buf.QSTAT_SEL_QUEUE
    let n := s.fld .buf Buf.PSTAT_SEL_PORT
    if off = Buf.POOL_FREE_CELLS.off then some s.freeCells
    else if off = Buf.POOL_SHARED_S.off then some s.sharedSum
    else if off = 0x10C then some s.freeDescs
    else if off = Buf.QSTAT_OCC_U.off then some (s.queue q).used
    else if off = Buf.PSTAT_HR_HR6.off then some (place (s.dp.hrUsed.get (8 * n + 6)) 12 0 + place (s.dp.hrUsed.get (8 * n + 7)) 12 16)
    else match arr 0x138 8, arr 0x168 6 with
      | some k, _ => some (s.snapHalf .buf 1 q k)
      | _, some k => some (s.snapHalf .buf 2 n k)
      | _, _ => none
  | .tgate n =>
    if off = Tgate.LIST_STATUS_GATES.off then
      some (w % 8 + place (bitmapOf ((List.range 8).filter (s.gateOpenNow n))) 8 8 + place (s.gatesAt n (s.gateTime n)).2 10 16)
    else if off = Tgate.TIMING_LEAD.off then some (s.leadPs n % 2 ^ 20)
    else if off = Tgate.GROW_BYTES.off then some (s.grow n % 2 ^ 8)
    else if off = Tgate.GUARD_TIME_GUARD_NS.off then some (if s.guarded n then s.guardNs n % 2 ^ 32 else 0)
    else if off = Tgate.MAXWIN_NS.off then
      let c := s.sched n false
      let m := if c.en then c.maxwin (s.fld p Tgate.MAXWIN_SEL_CLASS) else none
      some (min 0xFFFFFFFF (m.getD 0xFFFFFFFF))
    else none
  | .time =>
    if off = Time.TXTS_LEVEL_COUNT.off then some s.txtsShown.length else (arr 0x610 7).map s.txtsWord
  | .clsp =>
    if off = Clsp.ROLE_STATUS_GATE_OPEN.off then some (putBit w 10 (!s.digestOff && s.clasp.skip == 0))
    else (arr 0x148 4).map s.traceWord
  | .cip n =>
    if off = Cip.QUEUE_STATUS_QUEUED.off then some (place (s.cips.get n).jobs.length 4 0 + place (s.cips.get n).done.length 4 8)
    else (arr 0x144 4).map (fun k => s.doneWord n k)
  | .can n =>
    if off = Can.STATUS_TXQ.off then some (w % 2 ^ 8 + place (s.cans.get n).held.length 8 8)
    else if off = Can.PN_CTRL_SLEEP_REQ.off then some (b2n (s.cans.get n).sleepPend)
    else none
  | .lin n => if off = Lin.LIN_CTRL_SLEEP_REQ.off then some (b2n (s.lins.get n).sleepReq) else none
  | .brg =>
    if off = Brg.PEER_STATUS_OPEN.off then some (putBit (w % 2 ^ 8) 1 s.backsOff + place s.bridge.peerOpen.length 7 8 + w / 2 ^ 16 * 2 ^ 16)
    else if off = Brg.PWLOG_LEVEL_COUNT.off then some s.bridge.pwlog.length
    else (arr 0x244 4).map s.pwWord
  | .lck => if off = Lck.TRIAL_LEFT_S.off then some s.trialLeft else none
  | .dbg => (arr 0x104 3).map (fun k => leAt (s.sec.nonce.getD []) (4 * k) 4)
  | .msec => if off = Msec.LANES_USED.off then some s.lanesSum else none
  | _ => none

/-- The bits of a register that read as they stand; WO bits read 0 (R4, R5). -/
def RegSpec.readable (r : RegSpec) : Nat := r.rw ||| r.w1c ||| r.w1s ||| r.rc ||| r.ro

/-- A 4 B read at an offset of a page, whichever of the first three windows it goes through: the word, and the state after it. What the
test area holds the manual does not say. -/
def State.pageRead (src : Src) (p : Page) (off : Nat) : Nat × State :=
  if !s.pageOn p then (0, s)
  else if 0xF00 ≤ off then (if s.actsTrusted src then s.draw (2 ^ 32) else (0, s))
  else if 0x800 ≤ off then
    if p.tabOff = some (off - 0x700) then s.tabRead p true
    else ((s.word p off &&& BitVec.ofNat 32 (p.shadowBits (off - 0x700))).toNat, s)
  else if p.tabOff = some off then s.tabRead p false
  else if p = .buf ∧ off = Buf.QSTAT_PEAK_U.off then s.peakRead
  else if p = .qsch ∧ off = Qsch.LOCAL_NS_LO_NS.off then s.localRead
  else match s.liveReg p off with
    | some v => (v, s)
    | none => match counterFind off p.counters with
      | some (c, high) => (halfWord high (s.snapshot.get (p.base + c)), s)
      | none => match p.spec off with
        | some r => ((s.word p off &&& BitVec.ofNat 32 r.readable).toNat, s)
        | none => (0, s)

/-! ## Words of BAR0 -/

/-- A word of a table window. The state bytes of a stream context show the snapshot of its counters (R103). -/
def State.windowRead (p : Page) (a : Nat) : Nat :=
  if !s.pageOn p then 0
  else if 0x1A00000 ≤ a ∧ a < 0x1C00000 ∧ 128 ≤ a % 256 then halfWord (a / 4 % 2 == 1) (s.snapshot.get (a - a % 8))
  else s.mem.win.num a 4

/-- A 4 B read at an aligned address below the scratchpad. -/
def State.wordRead (src : Src) (a : Nat) : Nat × State :=
  match Place.ofAddr a with
  | .page p w off => if w = 3 then (0, s) else s.pageRead src p off
  | .window p => (s.windowRead p a, s)
  | .nothing => (0, s)

/-- A 4 B write at an aligned address below the scratchpad. -/
def State.wordWrite (src : Src) (a v : Nat) : State :=
  match Place.ofAddr a with
  | .page p w off => s.pageWrite src p w off v
  | .window .fib => s.fibWrite src a v
  | .window (.tgate _) => s.gateWrite src a v
  | .window .tsi => s.tsiWrite src a v
  | .window _ => s.bankWrite src a v
  | .nothing => s.arrives src (fun s => s.logErr .sys 3 src.code a)

/-- The page on which an access that breaks R27 is logged. -/
def misalignedPage (a : Nat) : Page :=
  match Place.ofAddr a with | .page p _ _ => p | .window p => p | .nothing => .sys

/-- An access that breaks R27 is logged; a page of an island that is not ON cannot be addressed, and SYS logs it (R25, R422). At an address in no
page or window SYS logs MISALIGNED: R27 says on which page, not under which code (the one DESIGN CHOICE of log entry 18). -/
def State.misaligned (src : Src) (a : Nat) : State :=
  let p := misalignedPage a
  if s.pageOn p then s.logErr p 4 src.code a else s.logErr .sys 3 src.code a

/-- R27 performs a read of `size` bytes at an address below the scratchpad. -/
def readOk (a size : Nat) : Bool := decide (size ≠ 0 ∧ a % 4 + size ≤ 4 ∧ size ≠ 3) || decide (size = 8 ∧ a % 8 = 0)

/-! ## The scratchpad (R24) -/

/-- One byte written to the scratchpad or through one of its aliases. -/
def scratchByte (m : Mem) (a : Nat) (b : Byte) : Mem :=
  let o := (a - 0x2000000) % 0x200000
  if a < 0x2000000 ∨ 0x2600000 ≤ a then m
  else if a < 0x2200000 then m.set o b
  else if a < 0x2400000 then m.set o (m.get o ||| b)
  else m.set o (m.get o &&& ~~~ b)

/-- A write to the scratchpad: HOST's island must be ON. -/
def State.scratchWrite (src : Src) (a : Nat) (l : List Byte) : State :=
  s.arrives src (fun s =>
    if s.pageOn .scr then
      { s with mem := { s.mem with scratch := ((List.range l.length).zip l).foldl (fun m x => scratchByte m (a + x.1) x.2) s.mem.scratch } }
    else s.logErr .sys 3 src.code a)

/-- The bytes of the scratchpad that a read at an address of one of the three ranges returns. -/
def State.scratchRead (a size : Nat) : List Byte :=
  if s.pageOn .scr then (List.range size).map (fun i => s.mem.scratch.get ((a + i - 0x2000000) % 0x200000)) else List.replicate size 0

/-! ## Accesses of any size (R27, R392) -/

/-- A write of bytes at an address of BAR0. -/
def State.bar0Write (src : Src) (a : Nat) (l : List Byte) : State :=
  if scratchAddr a then s.scratchWrite src a l
  else if l.length = 4 ∧ a % 4 = 0 then s.wordWrite src a (leNat l)
  else if l.length = 8 ∧ a % 8 = 0 then (s.wordWrite src a (leNat (l.take 4))).wordWrite src (a + 4) (leNat (l.drop 4))
  else if l = [] then s
  else s.arrives src (fun s => s.misaligned src a)

/-- A read at an address of BAR0: the value, none where R27 discards it, and the state after it. -/
def State.bar0Read (src : Src) (a size : Nat) : Option Nat × State :=
  if scratchAddr a then (some (leNat (s.scratchRead a size)), s)
  else if !readOk a size then (none, s.misaligned src a)
  else if size = 8 then
    let (lo, s) := s.wordRead src a
    let (hi, s) := s.wordRead src (a + 4)
    (some (lo + 2 ^ 32 * hi), s)
  else
    let (w, s) := s.wordRead src (a - a % 4)
    (some (w / 2 ^ (8 * (a % 4)) % 2 ^ (8 * size)), s)

/-- The word of the table that a read at an address goes through, and whether at the shadow address. -/
def dataPlace (a : Nat) : Option (Page × Bool) :=
  match Place.ofAddr a with
  | .page p w off =>
    if w = 3 then none
    else if p.tabOff = some off then some (p, false)
    else if 0x800 ≤ off ∧ p.tabOff = some (off - 0x700) then some (p, true)
    else none
  | _ => none

/-- A read at an address below the scratchpad whose word SECDED finds as `ecc` says: words of tables and of the FIB are counted where they are
corrected (R120, R224, R272, R277). -/
def State.eccWord (src : Src) (a size : Nat) (ecc : EccResult) : Option Nat × State :=
  match dataPlace a, size, ecc with
  | some (p, _), 4, .corrected => (if s.pageOn p then s.tabCorrected p else s).bar0Read src a 4
  | some (p, sh), 4, .lost =>
    if s.pageOn p ∧ a % 4 = 0 then (let (v, s) := s.tabReadEcc p sh .lost; (some v, s)) else s.bar0Read src a 4
  | _, _, .corrected => (if windowOwner a = some .fib ∧ s.pageOn .fib then s.bump .fib Fib.CNT_ECC_CORR else s).bar0Read src a size
  | _, _, _ => s.bar0Read src a size

/-- What a read returns reaches its master. -/
def State.answer (src : Src) (a size v : Nat) : State :=
  match src with
  | .mp i => s.emit (.procData (1 + i.val) v)
  | .tp => s.emit (.procData 5 v)
  | _ => s.emit (.readData a size v)

/-- A read by a master (R27, R392). A host read that is discarded gets a Completer Abort, and PCIE logs it; another master's gets a value
that the manual does not say. `ecc` tells what SECDED finds in the words read: SCR counts a corrected one of the scratchpad (R421). -/
def State.masterRead (src : Src) (a size : Nat) (ecc : EccResult) : State :=
  let abort (s : State) : State :=
    match src with
    | .host => s.completerAbort a
    | _ => let (v, s) := s.draw (2 ^ (8 * size)); s.answer src a size v
  let scratch := scratchAddr a && s.pageOn .scr
  if !s.issues src then s
  else if ecc = .lost ∧ scratch then abort (s.logErr .scr 5 src.code a)
  else
    let s := if ecc = .corrected ∧ scratch then s.bump .scr Scr.CNT_ECC_CORR else s
    let (v, s) := s.eccWord src a size ecc
    match v, src with
    | some v, _ => s.answer src a size v
    | none, .host => abort (s.logErr .pcie 4 0 a)
    | none, _ => abort s

/-- A write of the host to the MSI-X table in BAR2; the Pending Bit Array behind it takes none (R389, R390). -/
def State.bar2Write (a : Nat) (l : List Byte) : State :=
  if a % 4 = 0 ∧ a < 0x1000 ∧ (l.length = 4 ∨ (l.length = 8 ∧ a % 8 = 0)) then
    let put (s : State) (i : Nat) : State := s.msixWrite ((a + i) / 16) ((a + i) % 16 / 4) (leAt l i 4)
    if l.length = 4 then put s 0 else put (put s 0) 4
  else s

/-- A byte of BAR2: the MSI-X table, the Pending Bit Array, and 0 (R389, R390). -/
def State.bar2Byte (a : Nat) : Byte :=
  if a < 0x1000 then BitVec.ofNat 8 ((s.pcie.msix.get (a / 4)).toNat / 2 ^ (8 * (a % 4)))
  else if 0x2000 ≤ a ∧ a < 0x2020 then BitVec.ofNat 8 (bitmapOf ((List.range 8).filter (fun i => s.pcie.pba.get (8 * (a - 0x2000) + i))))
  else 0

/-- A read of the host in BAR2 (R389). -/
def State.bar2Read (a size : Nat) : State := s.emit (.hostData ((List.range size).map (fun i => s.bar2Byte (a + i))))

/-- A read: in BAR0 by any master, in BAR2 by the host. -/
def State.anyRead (src : Src) (bar : Bar) (a size : Nat) (ecc : EccResult) : State :=
  match bar, src with
  | .bar0, _ => s.masterRead src a size ecc
  | .bar2, .host => s.bar2Read a size
  | .bar2, _ => s

/-- A write to a register: in BAR0 by any master, in BAR2 by the host. -/
def State.registerWrite (src : Src) (bar : Bar) (a : Nat) (l : List Byte) : State :=
  match bar, src with
  | .bar0, _ => s.bar0Write src a l
  | .bar2, .host => s.bar2Write a l
  | .bar2, _ => s

end

/-! ## The commands -/

def execRegisterWrite (src : Src) (bar : Bar) (a : Nat) (bytes : List Byte) (s : State) : Host.Outcome State Fault Refusal :=
  .next (s.live (fun s => s.registerWrite src bar a bytes))
def execScratchpadAliasWrite (src : Src) (clear : Bool) (off : Nat) (bytes : List Byte) (s : State) : Host.Outcome State Fault Refusal :=
  .next (s.live (fun s => s.scratchWrite src (0x2200000 + 0x200000 * b2n clear + off) bytes))
def execErrClear (src : Src) (p : Page) (s : State) : Host.Outcome State Fault Refusal :=
  .next (s.live (fun s => s.guard src p Hdr.ERR_CODE_CLEAR.off (fun s => s.errClear p)))
def execSnap (src : Src) (p : Page) (s : State) : Host.Outcome State Fault Refusal :=
  .next (s.live (fun s => s.guard src p Hdr.SNAP_SNAP.off (fun s => s.snap p)))
def execOwnerWrite (src : Src) (p : Page) (cls : Nat) (s : State) : Host.Outcome State Fault Refusal :=
  .next (s.live (fun s => s.ownerWrite src p Hdr.OWNER_CLASS.off (cls % 4)))
def execOwnerLock (src : Src) (p : Page) (s : State) : Host.Outcome State Fault Refusal :=
  .next (s.live (fun s => s.ownerWrite src p Hdr.OWNER_LOCKED.off (s.ownerClass p + 2 ^ 8)))
def execEvtClr (src : Src) (p : Page) (v : Nat) (s : State) : Host.Outcome State Fault Refusal :=
  .next (s.live (fun s => s.guard src p Hdr.EVT_CLR_CLR.off (fun s => s.evtClr p v)))
def execEvtRouteWrite (src : Src) (n v : Nat) (s : State) : Host.Outcome State Fault Refusal :=
  .next (s.live (fun s => s.guard src .sys (Sys.EVT_ROUTE_VECTOR n).off (fun s => s.routePut n v)))
def execMisalignedRead (src : Src) (bar : Bar) (a size : Nat) (ecc : EccResult) (s : State) : Host.Outcome State Fault Refusal :=
  .next (s.live (fun s => s.anyRead src bar a size ecc))

end Sys2Proof.Machine
end

