-- ==== Sys2Proof/Machine/Arrivals.lean ====
section
/-! DEFINITION. What arrives from the partner and from the processors: control frames, requests of the peer bridge, accesses to the
processors' own memories (R284, R306, R307, R396–R402, R459). -/
namespace Sys2Proof.Machine

section
variable (s : State)

/-! ## Requests of the partner, performed at BAR0 (R396–R399, R402) -/

/-- The master that a request of originator `orig` acts as: the class of its originator on the partner, TRUSTED as MGMT (R39). -/
def peerSrc (orig : Nat) : Src := if orig = 0 then .peerHost else .peerMgmt

/-- The common code under which a 4 B write of a master is refused by R25, R26, R27 or R39; none where it is performed. -/
def State.refusal (src : Src) (a : Nat) : Option Nat :=
  if scratchAddr a then (if s.pageOn .scr then none else some 3)
  else if a % 4 ≠ 0 then some (if s.pageOn (misalignedPage a) then 4 else 3)
  else match Place.ofAddr a with
    | .nothing => some 3
    | .window p => if !s.pageOn p then some 3 else if s.owns src p then none else some 1
    | .page p w off =>
      if !s.pageOn p ∨ w = 3 then some 3
      else
        let trusted := (0xF00 ≤ off || off == Hdr.OWNER_CLASS.off || (off < 0x800 && (p.spec off).any (fun r => r.trusted)))
        if trusted then some 1
        else if (p.openReg off && s.fld .dbg Dbg.STATE_ST == 0 && src == .host) || s.owns src p then none
        else some 1

/-- Words of a BRIDGE WRITE are performed one after the other. -/
def State.peerWords (s : State) (src : Src) (a : Nat) : List Byte → Nat → State
  | _, 0 => s
  | l, n + 1 => State.peerWords (s.bar0Write src a (leBytes 4 (beAt l 0 4))) src (a + 4) (l.drop 4) n

/-- A WRITE_FAIL toward the partner (R397). -/
def State.sendFail (orig code a : Nat) : State := s.sendBridge (bridgeMsg 5 orig 0 0 code a [])

/-- A CPL toward the partner: status 0 OK with data, 1 RETRY, 2 ERROR (R397). -/
def State.sendCpl (orig tag status words a : Nat) (data : List Byte) : State :=
  s.sendBridge (bridgeMsg 4 orig tag status words a data)

/-- A WRITE arrives: big-endian words for BAR0 offsets from `a` up (R397). The first word that is refused is answered. -/
def State.peerWriteIn (orig a : Nat) (data : List Byte) : State :=
  let s := s.bump .brg Brg.CNT_PEER_REQ_RX
  let n := data.length / 4
  if 6 ≤ orig then s.sendFail orig 1 a
  else
    let src := peerSrc orig
    let t := s.peerWords src a data n
    match (List.range n).find? (fun i => (s.refusal src (a + 4 * i)).isSome) with
    | some i => t.sendFail orig ((s.refusal src (a + 4 * i)).getD 0) (a + 4 * i)
    | none => t

/-- The contention rule (R399): the member that holds an open request and does not back off answers RETRY. -/
def State.contends : Bool := s.holdsOpen && !s.backsOff

/-- Words from `a` up are read for the partner, most significant byte first. -/
def State.peerReads (s : State) (src : Src) (a : Nat) : Nat → List Byte × State
  | 0 => ([], s)
  | n + 1 =>
    let (v, s) := s.bar0Read src a 4
    let (l, s) := State.peerReads s src (a + 4) n
    (beBytes 4 (v.getD 0) ++ l, s)

/-- What SECDED finds in the scratchpad words that a request of the partner reads: SCR counts a corrected one (R421), and logs one that it cannot
correct (R392). -/
def State.peerEcc (orig a : Nat) (ecc : EccResult) : State :=
  if !scratchAddr a ∨ !s.pageOn .scr then s
  else match ecc with
    | .clean => s
    | .corrected => s.bump .scr Scr.CNT_ECC_CORR
    | .lost => s.logErr .scr 5 (peerSrc orig).code a

/-- A READ arrives (R397, R399, R402). One of a scratchpad word that cannot be corrected is answered ERROR (DEDUCED, log entry 115). -/
def State.peerReadIn (orig tag a words : Nat) (ecc : EccResult) : State :=
  let s := s.bump .brg Brg.CNT_PEER_REQ_RX
  if !s.flag .brg Brg.PEER_CFG_EN then s.sendCpl orig tag 2 0 a []
  else if s.contends then s.sendCpl orig tag 1 0 a []
  else if a % 4 ≠ 0 ∧ !scratchAddr a then (s.misaligned (peerSrc orig) a).sendCpl orig tag 2 0 a []
  else if ecc = .lost ∧ scratchAddr a ∧ s.pageOn .scr then (s.peerEcc orig a ecc).sendCpl orig tag 2 0 a []
  else
    let (l, s) := (s.peerEcc orig a ecc).peerReads (peerSrc orig) a words
    s.sendCpl orig tag 0 words a l

/-- A CAS arrives: one read-modify-write of a scratchpad word of 4 or 8 bytes, naturally aligned (R395, R397). -/
def State.peerCasIn (orig tag a words : Nat) (data : List Byte) (ecc : EccResult) : State :=
  let s := s.bump .brg Brg.CNT_PEER_REQ_RX
  let n := 4 * words
  if !s.flag .brg Brg.PEER_CFG_EN ∨ 6 ≤ orig then s.sendCpl orig tag 2 0 a []
  else if s.contends then s.sendCpl orig tag 1 0 a []
  else if (words ≠ 1 ∧ words ≠ 2) ∨ a < 0x2000000 ∨ 0x2200000 ≤ a ∨ a % n ≠ 0 ∨ !s.pageOn .scr then s.sendCpl orig tag 2 0 a []
  else if ecc = .lost then (s.peerEcc orig a ecc).sendCpl orig tag 2 0 a []
  else
    let s := s.peerEcc orig a ecc
    let o := a - 0x2000000
    let old := s.mem.scratch.num o n
    let s := if old = beNat (data.take n) then { s with mem := { s.mem with scratch := s.mem.scratch.putNum o n (beNat ((data.drop n).take n)) } }
      else s
    s.sendCpl orig tag 0 words a (beBytes n old)

/-- The payload of a BRIDGE frame is dispatched by OP (R397). -/
def State.bridgeIn (l : List Byte) (ecc : EccResult) : State :=
  let op := byteAt l 0 / 16
  let orig := byteAt l 0 % 16
  let tag := byteAt l 1
  let n := byteAt l 3
  let a := beAt l 4 4
  let data := l.drop 8
  match op with
  | 1 => s.peerWriteIn orig a (data.take (4 * n))
  | 2 => s.peerReadIn orig tag a n ecc
  | 3 => s.peerCasIn orig tag a n data ecc
  | 4 => s.cplArrives tag (byteAt l 2) data
  | 5 => s.writeFailed orig n a
  | _ => s

/-! ## Control frames (R284) -/

/-- The frame of a kind that is acknowledged is kept where it is the next in order; the acknowledgement goes back each time. A corrected word of the
descriptor that a firmware record fills is counted (R307). -/
def State.ctlInOrder (kind seq : Nat) (last : Bool) (payload : List Byte) (ecc : EccResult) : State :=
  let s :=
    if seq = (s.ctlKind kind).rxSeq then
      let t := (s.mapCtl kind (fun k => { k with rxSeq := (seq + 1) % 65536 })).bump .clsp Clsp.CNT_CTL_RX
      if kind = 1 then t.joinFrame last payload
      else (if ecc = .corrected ∧ t.mringReady 15 then t.eccSeen 1 0 else t).fwRecord payload
    else s
  s.sendPlain 4 ([BitVec.ofNat 8 kind, 0] ++ beBytes 2 (((s.ctlKind kind).rxSeq + 65535) % 65536))

/-- A frame is a control frame of this pair: its EtherType and version, and a correct FCS. -/
def State.ctlFrame (l : List Byte) : Bool :=
  decide (64 ≤ l.length ∧ l.length ≤ 1024) && l.drop (l.length - 4) == fcsBytes (dropFcs l) &&
    beAt l 12 2 == s.fld .clsp Clsp.PAIR_CFG_CTL_ETYPE && byteAt l 14 % 16 == 1 && decide (beAt l 18 2 ≤ 1000 ∧ 24 + beAt l 18 2 ≤ l.length)

/-- A control frame arrives on a lane. `ecc` tells what SECDED finds in the words that its effect reads. -/
def State.controlIn (lane : Nat) (l : List Byte) (ecc : EccResult) : State :=
  if s.clspOn ∧ s.laneUp lane ∧ s.ctlFrame l then
    let payload := (l.drop 20).take (beAt l 18 2)
    match byteAt l 14 / 16 with
    | 1 => s.ctlInOrder 1 (beAt l 16 2) (byteAt l 15 % 2 == 1) payload ecc
    | 2 => s.ctlInOrder 2 (beAt l 16 2) (byteAt l 15 % 2 == 1) payload ecc
    | 3 => (s.bump .clsp Clsp.CNT_CTL_RX).bridgeIn payload ecc
    | 4 => (s.bump .clsp Clsp.CNT_CTL_RX).acked (byteAt payload 0) (beAt payload 2 2)
    | _ => s
  else s

/-! ## The processors' memories (R305–R307, R315, R459) -/

/-- ERR_INFO.SRC of a processor, and the page that logs its accesses outside the map (R306): none is the TP. -/
def procSrc (who : Option (Fin 4)) : Src := match who with | some m => .mp m | none => .tp
def procPage (who : Option (Fin 4)) : Page := match who with | some _ => .mpc | none => .tru

/-- What stands at an address of a processor. -/
inductive ProcPlace where
  | rom | tsram (off : Nat) | locket (via off : Nat) | bar0 (off : Nat) | msram (off : Nat) | bridge | nothing
  deriving DecidableEq, Repr

/-- The address maps of R306: the last byte of the access lies in the same range. -/
def procPlace (who : Option (Fin 4)) (a size : Nat) : ProcPlace :=
  let within (base len : Nat) : Bool := decide (base ≤ a ∧ a + size ≤ base + len)
  if within 0x80000000 msramSize then .msram (a - 0x80000000)
  else match who with
    | none =>
      if within 0 0x10000 then .rom
      else if within 0x10000000 0x60000 then .tsram (a - 0x10000000)
      else if within 0x20000000 0x40000 then .locket 0 (a - 0x20000000)
      else if within 0x20040000 0x40000 then .locket 1 (a - 0x20040000)
      else if within 0x20080000 0x40000 then .locket 2 (a - 0x20080000)
      else if within 0x40000000 0x4000000 then .bar0 (a - 0x40000000)
      else .nothing
    | some _ =>
      if within 0x100000000 0x4000000 then .bar0 (a - 0x100000000)
      else if 0x1000000000 ≤ a then .bridge
      else .nothing

/-- An access fault in a processor. -/
def State.faultIn (who : Option (Fin 4)) : State := s.emit (.procFault (procSrc who).code)

/-- An access ends: a load and a fetch with their value, a store without. -/
def State.accessEnds (who : Option (Fin 4)) (kind : AccessKind) (l : List Byte) : State :=
  match kind with
  | .load | .fetch => s.emit (.procData (procSrc who).code (leNat l))
  | _ => s.emit (.procDone (procSrc who).code)

/-- A read of a memory with SECDED (R307); `off` is the offset in it. -/
def State.eccRead (who : Option (Fin 4)) (kind : AccessKind) (off : Nat) (ecc : EccResult) (l : List Byte) : State :=
  match ecc with
  | .clean => s.accessEnds who kind l
  | .corrected => (s.bump .mpc Mpc.CNT_SRAM_ECC_CORR).accessEnds who kind l
  | .lost => (s.logErr .mpc 5 (procSrc who).code off).faultIn who

/-- Bytes stored to Locket: directly, or bits set or cleared through an alias (R306). -/
def State.locketStore (via off : Nat) (l : List Byte) : State :=
  let put (m : Mem) (a : Nat) (b : Byte) : Mem :=
    m.set a (match via with | 0 => b | 1 => m.get a ||| b | _ => m.get a &&& ~~~ b)
  { s with mem := { s.mem with locket := ((List.range l.length).zip l).foldl (fun m x => put m (off + x.1) x.2) s.mem.locket } }

/-- A read of Locket (R445): SECDED protects its words; one that cannot be corrected faults in the TP, and TRU logs it. No counter is named for those
that are corrected (DEDUCED, log entry 116). -/
def State.locketRead (kind : AccessKind) (off : Nat) (ecc : EccResult) (l : List Byte) : State :=
  match ecc with
  | .lost => (s.logErr .tru 5 Src.tp.code off).faultIn none
  | _ => s.accessEnds none kind l

/-- A load or a fetch of an MP through its cache (R305, R307): a line it holds is not read again, and gives what it held; otherwise the
line is read and kept. -/
def State.cacheRead (m : Fin 4) (kind : AccessKind) (off size : Nat) (ecc : EccResult) : State :=
  let code := kind == .fetch
  let l := s.seenBytes code m.val off size
  if s.cached code m.val off then s.accessEnds (some m) kind l
  else if ecc = .lost then s.eccRead (some m) kind off ecc l
  else (s.fillLine code m.val off).eccRead (some m) kind off ecc l

/-- An access of a processor to management SRAM (R307, R315, R459). -/
def State.msramAccess (who : Option (Fin 4)) (kind : AccessKind) (off size : Nat) (data : List Byte) (ecc : EccResult) : State :=
  match who, kind with
  | some m, .store =>
    if s.codeLocked off || s.codeLocked (off + data.length - 1) then s.codeFault m.val off
    else ((s.storeLines m.val off data).bufferStore m.val off data).accessEnds who kind []
  | none, .store => ((s.dropLines off data.length).mapMsram (fun x => x.putBytes off data)).accessEnds who kind []
  | some m, .fetch => if s.codeLocked off then s.cacheRead m kind off size ecc else s.faultIn (some m)
  | some m, _ => s.cacheRead m kind off size ecc
  | none, _ => s.eccRead who kind off ecc (s.mem.msram.bytes off size)

/-- A load, a store of `data` or a fetch of a processor at one of its addresses. What the boot ROM holds the manual does not say; a store
to it changes nothing. -/
def State.procReach (who : Option (Fin 4)) (kind : AccessKind) (a size : Nat) (data : List Byte) (ecc : EccResult) : State :=
  let n := if kind = .store then data.length else size
  match procPlace who a n with
  | .nothing => (s.logErr (procPage who) 3 (procSrc who).code a).faultIn who
  | .msram off => s.msramAccess who kind off n data ecc
  | .bridge =>
    match who, kind with
    | some m, .load => s.winAccess m.val a n none
    | some m, .store => s.winAccess m.val a n (some data)
    | _, _ => s.faultIn who
  | .bar0 off =>
    match kind, who with
    | .store, _ => (s.bar0Write (procSrc who) off data).accessEnds who kind []
    | .fetch, some _ => s.faultIn who
    | .fetch, none =>
      let (v, s) := s.bar0Read .tp off n
      s.accessEnds who kind (leBytes n (v.getD 0))
    | _, _ => s.masterRead (procSrc who) off n ecc
  | .rom =>
    match kind with
    | .store => s.accessEnds who kind []
    | _ => let (l, s) := s.drawBytes n; s.accessEnds who kind l
  | .tsram off =>
    match kind with
    | .store => ({ s with mem := { s.mem with tsram := s.mem.tsram.putBytes off data } }).accessEnds who kind []
    | _ => s.eccRead who kind off ecc (s.mem.tsram.bytes off n)
  | .locket al off =>
    match kind with
    | .store => (s.locketStore al off data).accessEnds who kind []
    | _ => s.locketRead kind off ecc (s.mem.locket.bytes off n)

/-- What a processor does at an address, or FENCE or FENCE.I, which name none. One that does not execute does nothing (R308, R311,
R312). -/
def State.procAccess (who : Option (Fin 4)) (kind : AccessKind) (a size : Nat) (data : List Byte) (ecc : EccResult) : State :=
  let runs := match who with | some m => s.mpRuns m.val | none => s.tpRuns
  if !runs then s
  else match kind, who with
    | .sync, some m => (s.drainMp m.val).accessEnds who kind []
    | .fenceI, some m => (s.fenceI m.val).accessEnds who kind []
    | .sync, none | .fenceI, none => s.accessEnds who kind []
    | _, _ => s.procReach who kind a size data ecc

end

/-! ## The commands -/

def execControlFrameReceive (lane : Nat) (bytes : List Byte) (ecc : EccResult) (s : State) : Host.Outcome State Fault Refusal :=
  .next (s.live (fun s => s.clocked .clsp (fun s => s.controlIn lane bytes ecc)))
def execBridgeWriteReceived (orig a : Nat) (data : List Byte) (s : State) : Host.Outcome State Fault Refusal :=
  .next (s.live (fun s => s.clocked .brg (fun s => s.peerWriteIn orig a data)))
def execBridgeReadReceived (orig tag a words : Nat) (ecc : EccResult) (s : State) : Host.Outcome State Fault Refusal :=
  .next (s.live (fun s => s.clocked .brg (fun s => s.peerReadIn orig tag a words ecc)))
def execBridgeCasReceived (orig tag a words : Nat) (data : List Byte) (ecc : EccResult) (s : State) : Host.Outcome State Fault Refusal :=
  .next (s.live (fun s => s.clocked .brg (fun s => s.peerCasIn orig tag a words data ecc)))
def execProcessorMemoryAccess (who : Option (Fin 4)) (kind : AccessKind) (a size : Nat) (data : List Byte) (ecc : EccResult) (s : State) :
    Host.Outcome State Fault Refusal := .next (s.live (fun s => s.procAccess who kind a size data ecc))

end Sys2Proof.Machine
end

