-- ==== Sys2Proof/Machine/Pins.lean ====
section
/-! DEFINITION. The GPIO balls and the TAP (R508, R509). -/
namespace Sys2Proof.Machine

section
variable (s : State)

/-- The filtered level of ball GPIOi changes (R508). -/
def State.gpioEdge (i : Nat) (high : Bool) : State :=
  let w := s.fld .gpio Gpio.IN_LEVEL
  if 16 ≤ i ∨ w.testBit i = high then s
  else
    let s := s.setFld .gpio Gpio.IN_LEVEL (putBit w i high)
    let en := if high then Gpio.RISE_EN else Gpio.FALL_EN
    if (s.fld .gpio en).testBit i then s.raise .gpio (8 + i) else s

/-- The TAP changes; what the pins carry goes with it (R509). -/
def State.setTap (t : Tap) : State :=
  { s with tap := t, out := if t.pins = s.tap.pins then s.out else s.out ++ [.pins t.pins] }

/-- The TAP takes an instruction. -/
def State.tapSelect (i : TapInstr) : State := s.setTap { s.tap with ir := i }

/-- The bypass register is shifted: one bit, which it has captured as 0 (1149.1). -/
def State.tapBypass (i : TapInstr) : State := (s.tapSelect i).emit (.tdo 1 0)

/-- EXTEST, CLAMP and HIGHZ are permitted: RAW, TEST, RMA, or debug open (R509). -/
def State.tapOpen : Bool := s.lc == 0 || s.lc == 1 || s.lc == 4 || s.dbgOpen

/-- CLAMP and HIGHZ, whose data register is the bypass register; where they are not permitted they are BYPASS. -/
def State.tapGuarded (i : TapInstr) : State := s.tapBypass (if s.tapOpen then i else .bypass)

/-- The identification register (R509). -/
def State.idcode : Nat := s.fld .sys Hdr.ID_VER % 16 * 2 ^ 28 + 0x2560 * 2 ^ 12 + s.fuses 112 11 * 2 + 1

/-- The boundary register is shifted: it has captured the levels of the balls, which shift out, and takes what is shifted in (1149.1). -/
def State.boundaryScan (balls v : Nat) : State := (s.emit (.tdo 0 balls)).setTap { s.tap with boundary := v }

/-- SAMPLE/PRELOAD: the pins stay the device's. -/
def State.samplePreload (balls v : Nat) : State := (s.tapSelect .sample).boundaryScan balls v

/-- EXTEST: the pins carry the boundary register, from the instruction on and with what is shifted in. -/
def State.tapExtest (balls v : Nat) : State := if s.tapOpen then (s.tapSelect .extest).boundaryScan balls v else s.tapBypass .bypass

/-- DBG_ACCESS: one BAR0 read or write of 4 B as the debug port (R39, R454, R509). -/
def State.dbgAccess (a : Nat) (v : Option Nat) : State :=
  (s.tapSelect .dbgAccess).live (fun s =>
    match v with
    | some v => s.bar0Write .dbg a (leBytes 4 v)
    | none => s.masterRead .dbg a 4 .clean)

end

/-! ## The commands -/

def execGpioEdge (i : Nat) (high : Bool) (s : State) : Host.Outcome State Fault Refusal := .next (s.liveAon (fun s => s.gpioEdge i high))
def execTapReset (s : State) : Host.Outcome State Fault Refusal := .next (s.tapSelect .idcode)
def execBypass (s : State) : Host.Outcome State Fault Refusal := .next (s.tapBypass .bypass)
def execIdcode (s : State) : Host.Outcome State Fault Refusal := .next ((s.tapSelect .idcode).emit (.tdo 32 s.idcode))
def execSamplePreload (balls v : Nat) (s : State) : Host.Outcome State Fault Refusal := .next (s.samplePreload balls v)
def execExtest (balls v : Nat) (s : State) : Host.Outcome State Fault Refusal := .next (s.tapExtest balls v)
def execClamp (s : State) : Host.Outcome State Fault Refusal := .next (s.tapGuarded .clamp)
def execHighz (s : State) : Host.Outcome State Fault Refusal := .next (s.tapGuarded .highz)
def execDbgAccess (a : Nat) (v : Option Nat) (s : State) : Host.Outcome State Fault Refusal := .next (s.dbgAccess a v)

end Sys2Proof.Machine
end

