-- ==== Sys2Proof/Machine/Dispatch.lean ====
section
/-! DEFINITION. The dispatch: one arm per command, each a direct call of its meaning. -/
namespace Sys2Proof.Machine

def exec (i : Instr) (s : State) : Host.Outcome State Fault Refusal :=
  match i with
  | .registerWrite src bar a bytes => Sys2Proof.Machine.execRegisterWrite src bar a bytes s
  | .scratchpadAliasWrite src clear off bytes => Sys2Proof.Machine.execScratchpadAliasWrite src clear off bytes s
  | .ctrlEnSet src p => Sys2Proof.Machine.execCtrlEnSet src p s
  | .ctrlEnClear src p => Sys2Proof.Machine.execCtrlEnClear src p s
  | .ctrlDrainSet src p => Sys2Proof.Machine.execCtrlDrainSet src p s
  | .ctrlDrainClear src p => Sys2Proof.Machine.execCtrlDrainClear src p s
  | .blkrst src p => Sys2Proof.Machine.execBlkrst src p s
  | .freezeSet src p => Sys2Proof.Machine.execFreezeSet src p s
  | .freezeClear src p => Sys2Proof.Machine.execFreezeClear src p s
  | .workFinished p => Sys2Proof.Machine.execWorkFinished p s
  | .drainLimitExpiry p => Sys2Proof.Machine.execDrainLimitExpiry p s
  | .blockFault p code addr => Sys2Proof.Machine.execBlockFault p code addr s
  | .shadowWrite src p off v => Sys2Proof.Machine.execShadowWrite src p off v s
  | .commitRequest src p => Sys2Proof.Machine.execCommitRequest src p s
  | .commitAbandon src p => Sys2Proof.Machine.execCommitAbandon src p s
  | .assayerVerdict bad corr => Sys2Proof.Machine.execAssayerVerdict bad corr s
  | .boundaryApply p => Sys2Proof.Machine.execBoundaryApply p s
  | .errClear src p => Sys2Proof.Machine.execErrClear src p s
  | .snap src p => Sys2Proof.Machine.execSnap src p s
  | .ownerWrite src p cls => Sys2Proof.Machine.execOwnerWrite src p cls s
  | .ownerLock src p => Sys2Proof.Machine.execOwnerLock src p s
  | .evtClr src p v => Sys2Proof.Machine.execEvtClr src p v s
  | .evtRouteWrite src n v => Sys2Proof.Machine.execEvtRouteWrite src n v s
  | .frameRxStart p head frac => Sys2Proof.Machine.execFrameRxStart p head frac s
  | .frameRxEnd p rest code corr uncorr secBad => Sys2Proof.Machine.execFrameRxEnd p rest code corr uncorr secBad s
  | .cutThroughDecision p => Sys2Proof.Machine.execCutThroughDecision p s
  | .upHoldExpiry p => Sys2Proof.Machine.execUpHoldExpiry p s
  | .pcsLockLoss p => Sys2Proof.Machine.execPcsLockLoss p s
  | .downHoldExpiry p => Sys2Proof.Machine.execDownHoldExpiry p s
  | .pcsLockRegained p => Sys2Proof.Machine.execPcsLockRegained p s
  | .faultOrderedSet p remote => Sys2Proof.Machine.execFaultOrderedSet p remote s
  | .faultSetsCease p => Sys2Proof.Machine.execFaultSetsCease p s
  | .speedMismatch p => Sys2Proof.Machine.execSpeedMismatch p s
  | .speedMismatchClear p => Sys2Proof.Machine.execSpeedMismatchClear p s
  | .mdioRead src p => Sys2Proof.Machine.execMdioRead src p s
  | .mdioWrite src p => Sys2Proof.Machine.execMdioWrite src p s
  | .mdioFrameDone m answer => Sys2Proof.Machine.execMdioFrameDone m answer s
  | .tc10SleepReq src p => Sys2Proof.Machine.execTc10SleepReq src p s
  | .tc10WakeReq src p => Sys2Proof.Machine.execTc10WakeReq src p s
  | .tc10QueuesEmpty p => Sys2Proof.Machine.execTc10QueuesEmpty p s
  | .tc10Timeout p => Sys2Proof.Machine.execTc10Timeout p s
  | .phyTc10Sleep p => Sys2Proof.Machine.execPhyTc10Sleep p s
  | .tc10RemoteWake p => Sys2Proof.Machine.execTc10RemoteWake p s
  | .creditIntervalExpiry p => Sys2Proof.Machine.execCreditIntervalExpiry p s
  | .standaloneCreditSend p => Sys2Proof.Machine.execStandaloneCreditSend p s
  | .creditStall p c => Sys2Proof.Machine.execCreditStall p c s
  | .parseWindow recirc => Sys2Proof.Machine.execParseWindow recirc s
  | .classify bad badFib corr corrFib => Sys2Proof.Machine.execClassify bad badFib corr corrFib s
  | .bankWrite src a v => Sys2Proof.Machine.execBankWrite src a v s
  | .fibStageWrite src a v => Sys2Proof.Machine.execFibStageWrite src a v s
  | .fibEntryApply src a v => Sys2Proof.Machine.execFibEntryApply src a v s
  | .stageClr src => Sys2Proof.Machine.execStageClr src s
  | .recircExpiry => Sys2Proof.Machine.execRecircExpiry s
  | .recircCountZero => Sys2Proof.Machine.execRecircCountZero s
  | .bankCloneDone => Sys2Proof.Machine.execBankCloneDone s
  | .police fabBad frerBad corrFab corrFrer => Sys2Proof.Machine.execPolice fabBad frerBad corrFab corrFrer s
  | .admission => Sys2Proof.Machine.execAdmission s
  | .linkMemoryScrub bad => Sys2Proof.Machine.execLinkMemoryScrub bad s
  | .rngReseed bits => Sys2Proof.Machine.execRngReseed bits s
  | .qstatPeakRead => Sys2Proof.Machine.execQstatPeakRead s
  | .schedDecision p wait => Sys2Proof.Machine.execSchedDecision p wait s
  | .transmitStart p lead corr corrDesc bad secBad => Sys2Proof.Machine.execTransmitStart p lead corr corrDesc bad secBad s
  | .transmitEnd p corr bad => Sys2Proof.Machine.execTransmitEnd p corr bad s
  | .meterClr src v => Sys2Proof.Machine.execMeterClr src v s
  | .localNsRead => Sys2Proof.Machine.execLocalNsRead s
  | .tabDataAccess src p shadow v ecc => Sys2Proof.Machine.execTabDataAccess src p shadow v ecc s
  | .qschTableScrub bad => Sys2Proof.Machine.execQschTableScrub bad s
  | .gateEntryStart p => Sys2Proof.Machine.execGateEntryStart p s
  | .gateListWrite src p b k w v => Sys2Proof.Machine.execGateListWrite src p b k w v s
  | .gateTakeover p => Sys2Proof.Machine.execGateTakeover p s
  | .gateCloneDone p => Sys2Proof.Machine.execGateCloneDone p s
  | .gateListScrub p b k bad => Sys2Proof.Machine.execGateListScrub p b k bad s
  | .adjWrite src d v => Sys2Proof.Machine.execAdjWrite src d v s
  | .slewCfgWrite src v => Sys2Proof.Machine.execSlewCfgWrite src v s
  | .domainStep src d => Sys2Proof.Machine.execDomainStep src d s
  | .domainSet src d => Sys2Proof.Machine.execDomainSet src d s
  | .tsnap src => Sys2Proof.Machine.execTsnap src s
  | .txtsPop src => Sys2Proof.Machine.execTxtsPop src s
  | .failoverScan p => Sys2Proof.Machine.execFailoverScan p s
  | .nodeWrite src id valid => Sys2Proof.Machine.execNodeWrite src id valid s
  | .frerScan => Sys2Proof.Machine.execFrerScan s
  | .laneUp k => Sys2Proof.Machine.execLaneUp k s
  | .laneDown k => Sys2Proof.Machine.execLaneDown k s
  | .heartbeatSend => Sys2Proof.Machine.execHeartbeatSend s
  | .heartbeatReceive lane l => Sys2Proof.Machine.execHeartbeatReceive lane l s
  | .heartbeatLoss => Sys2Proof.Machine.execHeartbeatLoss s
  | .digestSend => Sys2Proof.Machine.execDigestSend s
  | .digestReceive lane l => Sys2Proof.Machine.execDigestReceive lane l s
  | .digestWaitExpiry => Sys2Proof.Machine.execDigestWaitExpiry s
  | .fenceRise => Sys2Proof.Machine.execFenceRise s
  | .fenceFall => Sys2Proof.Machine.execFenceFall s
  | .listenTimeout => Sys2Proof.Machine.execListenTimeout s
  | .roleCmdTake src => Sys2Proof.Machine.execRoleCmdTake src s
  | .roleCmdYield src => Sys2Proof.Machine.execRoleCmdYield src s
  | .roleCmdForce src => Sys2Proof.Machine.execRoleCmdForce src s
  | .controlFrameReceive lane bytes ecc => Sys2Proof.Machine.execControlFrameReceive lane bytes ecc s
  | .controlRetransmit kind => Sys2Proof.Machine.execControlRetransmit kind s
  | .heldCopyExpiry q => Sys2Proof.Machine.execHeldCopyExpiry q s
  | .traceRelease src => Sys2Proof.Machine.execTraceRelease src s
  | .fwWdogKick src => Sys2Proof.Machine.execFwWdogKick src s
  | .fwWatchdogExpiry => Sys2Proof.Machine.execFwWatchdogExpiry s
  | .selftestPass k bad => Sys2Proof.Machine.execSelftestPass k bad s
  | .mpStart src m => Sys2Proof.Machine.execMpStart src m s
  | .mpGo src m => Sys2Proof.Machine.execMpGo src m s
  | .mpFenceReq src m => Sys2Proof.Machine.execMpFenceReq src m s
  | .comparatorTestDone unit bad => Sys2Proof.Machine.execComparatorTestDone unit bad s
  | .mpFenceDrained m => Sys2Proof.Machine.execMpFenceDrained m s
  | .lockstepMismatch m channel pc => Sys2Proof.Machine.execLockstepMismatch m channel pc s
  | .tpMismatch channel => Sys2Proof.Machine.execTpMismatch channel s
  | .tpRestartDone corr => Sys2Proof.Machine.execTpRestartDone corr s
  | .mpcFence src => Sys2Proof.Machine.execMpcFence src s
  | .mbxRing src corr => Sys2Proof.Machine.execMbxRing src corr s
  | .mringTail src r v => Sys2Proof.Machine.execMringTail src r v s
  | .mgmtTxFrame r ecc corr => Sys2Proof.Machine.execMgmtTxFrame r ecc corr s
  | .mkaKeys slot => Sys2Proof.Machine.execMkaKeys slot s
  | .mkaIcv slot => Sys2Proof.Machine.execMkaIcv slot s
  | .sakNew slot => Sys2Proof.Machine.execSakNew slot s
  | .sakInstall slot => Sys2Proof.Machine.execSakInstall slot s
  | .slotFree slot => Sys2Proof.Machine.execSlotFree slot s
  | .cupBind slot => Sys2Proof.Machine.execCupBind slot s
  | .cupUnbind slot => Sys2Proof.Machine.execCupUnbind slot s
  | .keyPut slot => Sys2Proof.Machine.execKeyPut slot s
  | .keyPutWrapped slot => Sys2Proof.Machine.execKeyPutWrapped slot s
  | .keyDelete slot => Sys2Proof.Machine.execKeyDelete slot s
  | .lcChallenge slot => Sys2Proof.Machine.execLcChallenge slot s
  | .lcTransition slot => Sys2Proof.Machine.execLcTransition slot s
  | .imgBegin slot => Sys2Proof.Machine.execImgBegin slot s
  | .imgBlock slot bad => Sys2Proof.Machine.execImgBlock slot bad s
  | .imgVerify slot => Sys2Proof.Machine.execImgVerify slot s
  | .imgStage slot => Sys2Proof.Machine.execImgStage slot s
  | .imgSignet slot => Sys2Proof.Machine.execImgSignet slot s
  | .imgCommit slot => Sys2Proof.Machine.execImgCommit slot s
  | .imgAbandon slot => Sys2Proof.Machine.execImgAbandon slot s
  | .recBegin slot => Sys2Proof.Machine.execRecBegin slot s
  | .recBlock slot bad => Sys2Proof.Machine.execRecBlock slot bad s
  | .recActivate slot => Sys2Proof.Machine.execRecActivate slot s
  | .recRead slot => Sys2Proof.Machine.execRecRead slot s
  | .recSeal slot => Sys2Proof.Machine.execRecSeal slot s
  | .ageSave slot => Sys2Proof.Machine.execAgeSave slot s
  | .ageLoad slot => Sys2Proof.Machine.execAgeLoad slot s
  | .mgmtReset slot => Sys2Proof.Machine.execMgmtReset slot s
  | .canFrameReceived n f dlc ago => Sys2Proof.Machine.execCanFrameReceived n f dlc ago s
  | .cmacJobDone n sign => Sys2Proof.Machine.execCmacJobDone n sign s
  | .cmacJobTimeout n sign => Sys2Proof.Machine.execCmacJobTimeout n sign s
  | .busEgressFrame => Sys2Proof.Machine.execBusEgressFrame s
  | .canArbitrationStart n => Sys2Proof.Machine.execCanArbitrationStart n s
  | .canTxDone n => Sys2Proof.Machine.execCanTxDone n s
  | .canError n lec tx big ago => Sys2Proof.Machine.execCanError n lec tx big ago s
  | .boHoldExpiry n => Sys2Proof.Machine.execBoHoldExpiry n s
  | .canRecover src n => Sys2Proof.Machine.execCanRecover src n s
  | .canIntegrated n => Sys2Proof.Machine.execCanIntegrated n s
  | .canRecovered n => Sys2Proof.Machine.execCanRecovered n s
  | .pnSleepReq src n => Sys2Proof.Machine.execPnSleepReq src n s
  | .pnWakeReq src n => Sys2Proof.Machine.execPnWakeReq src n s
  | .pnListenEnter n => Sys2Proof.Machine.execPnListenEnter n s
  | .linScheduleSlot n => Sys2Proof.Machine.execLinScheduleSlot n s
  | .linHeaderReceived n id rate parity => Sys2Proof.Machine.execLinHeaderReceived n id rate parity s
  | .linResponseReceived n data check err ago => Sys2Proof.Machine.execLinResponseReceived n data check err ago s
  | .linNoResponse n => Sys2Proof.Machine.execLinNoResponse n s
  | .linSleepReq src n => Sys2Proof.Machine.execLinSleepReq src n s
  | .linWakeReq src n => Sys2Proof.Machine.execLinWakeReq src n s
  | .linGoToSleepReceived n => Sys2Proof.Machine.execLinGoToSleepReceived n s
  | .linIdleTimeout n => Sys2Proof.Machine.execLinIdleTimeout n s
  | .linDominantWake n => Sys2Proof.Machine.execLinDominantWake n s
  | .linScheduleRestart n => Sys2Proof.Machine.execLinScheduleRestart n s
  | .slot0Received n pos scanned frame => Sys2Proof.Machine.execSlot0Received n pos scanned frame s
  | .mfSearchTimeout n => Sys2Proof.Machine.execMfSearchTimeout n s
  | .losRise n pin zeros => Sys2Proof.Machine.execLosRise n pin zeros s
  | .losClear n pin ones => Sys2Proof.Machine.execLosClear n pin ones s
  | .deviceFrameStart bits badConn badStream => Sys2Proof.Machine.execDeviceFrameStart bits badConn badStream s
  | .performanceSecond n => Sys2Proof.Machine.execPerformanceSecond n s
  | .connPageWrite src a v => Sys2Proof.Machine.execConnPageWrite src a v s
  | .tsiCloneDone => Sys2Proof.Machine.execTsiCloneDone s
  | .tdmEgressFrame => Sys2Proof.Machine.execTdmEgressFrame s
  | .jobGo src n => Sys2Proof.Machine.execJobGo src n s
  | .cipherJobDone n img bad zeroFails corr => Sys2Proof.Machine.execCipherJobDone n img bad zeroFails corr s
  | .donePop src n => Sys2Proof.Machine.execDonePop src n s
  | .keyLoad src => Sys2Proof.Machine.execKeyLoad src s
  | .keyZero src => Sys2Proof.Machine.execKeyZero src s
  | .slotRemask => Sys2Proof.Machine.execSlotRemask s
  | .rngSeedTimeout => Sys2Proof.Machine.execRngSeedTimeout s
  | .keyCountSync => Sys2Proof.Machine.execKeyCountSync s
  | .pcieLinkUp speed width => Sys2Proof.Machine.execPcieLinkUp speed width s
  | .pcieLinkDown => Sys2Proof.Machine.execPcieLinkDown s
  | .flr => Sys2Proof.Machine.execFlr s
  | .hotReset => Sys2Proof.Machine.execHotReset s
  | .perst => Sys2Proof.Machine.execPerst s
  | .configRequest r v => Sys2Proof.Machine.execConfigRequest r v s
  | .cfgReadyTimeout => Sys2Proof.Machine.execCfgReadyTimeout s
  | .hostBar4Read off size => Sys2Proof.Machine.execHostBar4Read off size s
  | .hostBar4Write off words => Sys2Proof.Machine.execHostBar4Write off words s
  | .hostPoisonedWrite addr => Sys2Proof.Machine.execHostPoisonedWrite addr s
  | .hostUnsupportedRequest => Sys2Proof.Machine.execHostUnsupportedRequest s
  | .msixUnmask v => Sys2Proof.Machine.execMsixUnmask v s
  | .bridgeWindowAccess m a size store => Sys2Proof.Machine.execBridgeWindowAccess m a size store s
  | .bridgeLr m a size => Sys2Proof.Machine.execBridgeLr m a size s
  | .bridgeSc m a size new => Sys2Proof.Machine.execBridgeSc m a size new s
  | .bridgeAmo m a size op arg => Sys2Proof.Machine.execBridgeAmo m a size op arg s
  | .reservationExpiry m => Sys2Proof.Machine.execReservationExpiry m s
  | .bridgeWriteReceived orig a data => Sys2Proof.Machine.execBridgeWriteReceived orig a data s
  | .bridgeReadReceived orig tag a words ecc => Sys2Proof.Machine.execBridgeReadReceived orig tag a words ecc s
  | .bridgeCasReceived orig tag a words data ecc => Sys2Proof.Machine.execBridgeCasReceived orig tag a words data ecc s
  | .bridgeCplReceived tag status data => Sys2Proof.Machine.execBridgeCplReceived tag status data s
  | .bridgeWriteFailReceived orig code addr => Sys2Proof.Machine.execBridgeWriteFailReceived orig code addr s
  | .peerRequestTimeout tag => Sys2Proof.Machine.execPeerRequestTimeout tag s
  | .peerRetryWait tag => Sys2Proof.Machine.execPeerRetryWait tag s
  | .peerPoll => Sys2Proof.Machine.execPeerPoll s
  | .pwlogPop src => Sys2Proof.Machine.execPwlogPop src s
  | .rxTailDoorbell src r v => Sys2Proof.Machine.execRxTailDoorbell src r v s
  | .txTailDoorbell src r v => Sys2Proof.Machine.execTxTailDoorbell src r v s
  | .hostTxFrame img bad => Sys2Proof.Machine.execHostTxFrame img bad s
  | .ringIrqTimer tx r => Sys2Proof.Machine.execRingIrqTimer tx r s
  | .dmaDoorbell src c v => Sys2Proof.Machine.execDmaDoorbell src c v s
  | .dmaDescriptorDone c img bad corr => Sys2Proof.Machine.execDmaDescriptorDone c img bad corr s
  | .dmaAbort src c rows img corr => Sys2Proof.Machine.execDmaAbort src c rows img corr s
  | .dmaResume src c => Sys2Proof.Machine.execDmaResume src c s
  | .dmaSkip src c => Sys2Proof.Machine.execDmaSkip src c s
  | .scrMbxRing src corr => Sys2Proof.Machine.execScrMbxRing src corr s
  | .dbSet src v => Sys2Proof.Machine.execDbSet src v s
  | .powerReqRun src => Sys2Proof.Machine.execPowerReqRun src s
  | .powerReqPartial src => Sys2Proof.Machine.execPowerReqPartial src s
  | .powerReqDoze src => Sys2Proof.Machine.execPowerReqDoze src s
  | .powerReqSleep src => Sys2Proof.Machine.execPowerReqSleep src s
  | .raiseDone => Sys2Proof.Machine.execRaiseDone s
  | .prepareEnd => Sys2Proof.Machine.execPrepareEnd s
  | .quiesceDone => Sys2Proof.Machine.execQuiesceDone s
  | .quiesceLimit k => Sys2Proof.Machine.execQuiesceLimit k s
  | .lowerDone => Sys2Proof.Machine.execLowerDone s
  | .thermalTrip k t => Sys2Proof.Machine.execThermalTrip k t s
  | .supplyAlarm => Sys2Proof.Machine.execSupplyAlarm s
  | .forcedCauseClear => Sys2Proof.Machine.execForcedCauseClear s
  | .wakeIn pins => Sys2Proof.Machine.execWakeIn pins s
  | .wakeTimer => Sys2Proof.Machine.execWakeTimer s
  | .wakeComplete => Sys2Proof.Machine.execWakeComplete s
  | .wakeConfirm src => Sys2Proof.Machine.execWakeConfirm src s
  | .confirmTimeout => Sys2Proof.Machine.execConfirmTimeout s
  | .unmaskTimer n => Sys2Proof.Machine.execUnmaskTimer n s
  | .charmReceived p bytes => Sys2Proof.Machine.execCharmReceived p bytes s
  | .netTimeout => Sys2Proof.Machine.execNetTimeout s
  | .nmHoldWrite src hold reason => Sys2Proof.Machine.execNmHoldWrite src hold reason s
  | .nmEtypeWrite src etype auto sleep => Sys2Proof.Machine.execNmEtypeWrite src etype auto sleep s
  | .charmTxDue => Sys2Proof.Machine.execCharmTxDue s
  | .otpProgram src => Sys2Proof.Machine.execOtpProgram src s
  | .tamperTrip n => Sys2Proof.Machine.execTamperTrip n s
  | .dbgChalReq src => Sys2Proof.Machine.execDbgChalReq src s
  | .dbgTokenSubmit src => Sys2Proof.Machine.execDbgTokenSubmit src s
  | .coldBoot => Sys2Proof.Machine.execColdBoot s
  | .warmBoot => Sys2Proof.Machine.execWarmBoot s
  | .mainReady => Sys2Proof.Machine.execMainReady s
  | .trialExpired => Sys2Proof.Machine.execTrialExpired s
  | .ageSample l => Sys2Proof.Machine.execAgeSample l s
  | .vreqWrite src k v => Sys2Proof.Machine.execVreqWrite src k v s
  | .voltageMoveStep k x => Sys2Proof.Machine.execVoltageMoveStep k x s
  | .canaryFail k => Sys2Proof.Machine.execCanaryFail k s
  | .frequencyGlideDone k => Sys2Proof.Machine.execFrequencyGlideDone k s
  | .xtalAlarm => Sys2Proof.Machine.execXtalAlarm s
  | .coldReset search => Sys2Proof.Machine.execColdReset search s
  | .porNLow => Sys2Proof.Machine.execPorNLow s
  | .sysRstNLow => Sys2Proof.Machine.execSysRstNLow s
  | .rstCtrlDevice src => Sys2Proof.Machine.execRstCtrlDevice src s
  | .rstCtrlSystem src => Sys2Proof.Machine.execRstCtrlSystem src s
  | .rstCtrlMgmt src => Sys2Proof.Machine.execRstCtrlMgmt src s
  | .brownOut => Sys2Proof.Machine.execBrownOut s
  | .noMpTimeout => Sys2Proof.Machine.execNoMpTimeout s
  | .gpioEdge k high => Sys2Proof.Machine.execGpioEdge k high s
  | .tapReset => Sys2Proof.Machine.execTapReset s
  | .bypass => Sys2Proof.Machine.execBypass s
  | .idcode => Sys2Proof.Machine.execIdcode s
  | .samplePreload balls v => Sys2Proof.Machine.execSamplePreload balls v s
  | .extest balls v => Sys2Proof.Machine.execExtest balls v s
  | .clamp => Sys2Proof.Machine.execClamp s
  | .highz => Sys2Proof.Machine.execHighz s
  | .dbgAccess a v => Sys2Proof.Machine.execDbgAccess a v s
  | .pcsLockAcquired p lane => Sys2Proof.Machine.execPcsLockAcquired p lane s
  | .hostCompletionReceived id data => Sys2Proof.Machine.execHostCompletionReceived id data s
  | .completionTimeout id => Sys2Proof.Machine.execCompletionTimeout id s
  | .resetSourceRelease pin => Sys2Proof.Machine.execResetSourceRelease pin s
  | .misalignedRead src bar a size ecc => Sys2Proof.Machine.execMisalignedRead src bar a size ecc s
  | .processorMemoryAccess who kind a size data ecc => Sys2Proof.Machine.execProcessorMemoryAccess who kind a size data ecc s
  | .eccHealthExpiry => Sys2Proof.Machine.execEccHealthExpiry s

end Sys2Proof.Machine
end

