-- ==== Sys2Proof/Machine/Tick.lean ====
section
/-! DEFINITION. What passes with time alone: one nanosecond while no command waits (R159, R160, R227, R315, R428; a DESIGN CHOICE of the
model, log entry 8). -/
namespace Sys2Proof.Machine

section
variable (s : State)

/-- The time of AON, which runs in every state but OFF (R3, R422). -/
def State.aonTick : State := s.mapPower (fun p => { p with aonNs := p.aonNs + 1 })

/-- The local time base and the domain clocks run while TIME's island is ON (R227). -/
def State.timeTick : State :=
  if s.islandCond 8 = 2 then ({ s with now := s.now + 1 }).each (List.range 4) State.domTick else s

/-- COMMIT has lasted one cycle of the AON clock: the islands go down (R428). -/
def State.phaseTick : State := if s.phase = 4 ∧ s.power.commitAt + 30518 ≤ s.power.aonNs then s.setPhase 5 else s

/-- XSPI_RESET_N goes high 10 µs after a COLD or DEVICE reset has ended (R501). -/
def State.xspiTick : State := if s.power.aonNs = s.rst.xspiAt ∧ !s.rst.por then s.showBalls [.xspiReset] else s

/-- One nanosecond passes. In OFF nothing runs; in a held reset the oscillator of AON does (R505). -/
def State.tick : State :=
  if s.rst.off then s
  else if s.resetHeld then s.aonTick.xspiTick
  else (((s.aonTick.xspiTick.timeTick.creditsTick).each (List.range 4) State.releaseOne).phaseTick).follow

end

end Sys2Proof.Machine
end

