-- ==== Sys2Proof/Safety.lean ====
section
/-! DEFINITION. The terms that claims about the block use: a command that completes with an effect, an event that has been latched, and what
a command leaves as it was. -/
namespace Sys2Proof.Machine

/-- The command completes from the state, and where no pin holds the device in reset the state it leaves has the property. POR_N and SYS_RST_N, while
they are low, hold the device in reset: nothing happens in it (R505), and that much is a statement of its own. -/
def Completes (c : Instr) (s : State) (post : State → Prop) : Prop := ∃ t, exec c s = .next t ∧ (s.resetHeld = false → post t)

/-- The same of a command that a held reset does not stop: of the pins, the supplies and the TAP (R493–R495, R504, R505, R509). -/
def CompletesAlways (c : Instr) (s : State) (post : State → Prop) : Prop := ∃ t, exec c s = .next t ∧ post t

/-- The RAW bit of an event of a page is set (R42). -/
def State.evt (s : State) (p : Page) (b : Nat) : Bool := (s.word p Hdr.EVT_RAW_RAW.off).getLsbD b

/-- A write of the originator to the page is performed: the originator can make it, the page's island is ON, the originator owns the
page or it is SHARED, and it is not the TP in a restart on a page of its own class (R39, R308, R311, R312, R422). -/
def State.ownerWrites (s : State) (src : Src) (p : Page) : Prop :=
  s.issues src = true ∧ s.pageOn p = true ∧ s.owns src p = true ∧ s.barred src p = false

/-- A write of the originator to a register marked trusted of the page is performed: not while the TP restarts (R39, R311, R422). -/
def State.trustedWrites (s : State) (src : Src) (p : Page) : Prop :=
  s.issues src = true ∧ s.restarting = false ∧ s.pageOn p = true ∧ s.actsTrusted src = true

/-- What a byte of the scratchpad becomes when `b` is written over `old` through its range 0 (stores), 1 (sets) or 2 (clears) (R24). -/
def scratchMix (range : Nat) (old b : Byte) : Byte := match range with | 0 => b | 1 => old ||| b | _ => old &&& ~~~ b

/-- `t` can come after `s`: the queue of commands is as it was, what was presented outside stays and is only added to, no free value drawn is
drawn again, and a fuse cell is as it was or programmed to 1 (R444). -/
def State.Onward (s t : State) : Prop :=
  t.pending = s.pending ∧ s.out <+: t.out ∧ s.frees ≤ t.frees ∧ ∀ i, t.mem.otp.get i = s.mem.otp.get i ∨ t.mem.otp.get i = 1

/-! ## The parts of State that a command may change -/

/-- A part of State, by its field; the memories stand each for itself. -/
inductive Component where
  | regs | tabs | tabsShadow | counters | snapshot | win | scratch | msram | tsram | locket | flash | host | otp | drainTimer | applying | plan | dp | pcie | now | dom
  | txts | frer | frerScan | clasp | bridge | procs | power | cans | lins | tdms | tsi | cips | sec | ringPend | slots | rst | tap | frees | out | pending
  deriving DecidableEq, Repr

/-- Two states have the same part. -/
def Component.same (s t : State) : Component → Prop
  | .regs => t.regs = s.regs
  | .tabs => t.tabs = s.tabs
  | .tabsShadow => t.tabsShadow = s.tabsShadow
  | .counters => t.counters = s.counters
  | .snapshot => t.snapshot = s.snapshot
  | .win => t.mem.win = s.mem.win
  | .scratch => t.mem.scratch = s.mem.scratch
  | .msram => t.mem.msram = s.mem.msram
  | .tsram => t.mem.tsram = s.mem.tsram
  | .locket => t.mem.locket = s.mem.locket
  | .flash => t.mem.flash = s.mem.flash
  | .host => t.mem.host = s.mem.host
  | .otp => t.mem.otp = s.mem.otp
  | .drainTimer => t.drainTimer = s.drainTimer
  | .applying => t.applying = s.applying
  | .plan => t.plan = s.plan
  | .dp => t.dp = s.dp
  | .pcie => t.pcie = s.pcie
  | .now => t.now = s.now
  | .dom => t.dom = s.dom
  | .txts => t.txts = s.txts
  | .frer => t.frer = s.frer
  | .frerScan => t.frerScan = s.frerScan
  | .clasp => t.clasp = s.clasp
  | .bridge => t.bridge = s.bridge
  | .procs => t.procs = s.procs
  | .power => t.power = s.power
  | .cans => t.cans = s.cans
  | .lins => t.lins = s.lins
  | .tdms => t.tdms = s.tdms
  | .tsi => t.tsi = s.tsi
  | .cips => t.cips = s.cips
  | .sec => t.sec = s.sec
  | .ringPend => t.ringPend = s.ringPend
  | .slots => t.slots = s.slots
  | .rst => t.rst = s.rst
  | .tap => t.tap = s.tap
  | .frees => t.frees = s.frees
  | .out => t.out = s.out
  | .pending => t.pending = s.pending

/-- The parts of State that a command may change; it leaves every other part as it was. A write by a management processor first drains that
processor's write buffer into management SRAM (R315), and an access that is refused is logged (R29, R41), with an event that may send a message
(R43, R390). -/
def mayChange (c : Instr) : List Component :=
  match c with
  | .registerWrite _ _ _ _ | .controlFrameReceive _ _ _ | .bridgeWriteReceived _ _ _ | .processorMemoryAccess _ _ _ _ _ _ =>
    [.regs, .tabs, .tabsShadow, .counters, .snapshot, .win, .scratch, .msram, .tsram, .locket, .host, .otp, .drainTimer, .applying, .plan,
     .dp, .pcie, .now, .dom, .txts, .frer, .frerScan, .clasp, .bridge, .procs, .power, .cans, .lins, .tdms, .tsi, .cips, .sec, .ringPend,
     .slots, .rst, .frees, .out]
  | .scratchpadAliasWrite _ _ _ _ | .mbxRing _ _ | .scrMbxRing _ _ => [.regs, .counters, .scratch, .msram, .pcie, .clasp, .procs, .out]
  | .ctrlEnSet _ _ | .ctrlEnClear _ _ | .ctrlDrainSet _ _ | .ctrlDrainClear _ _ | .blkrst _ _ | .freezeSet _ _ | .freezeClear _ _ =>
    [.regs, .tabs, .tabsShadow, .counters, .snapshot, .win, .scratch, .msram, .host, .drainTimer, .applying, .plan, .dp, .pcie, .txts,
     .frer, .clasp, .bridge, .procs, .power, .cans, .lins, .tdms, .tsi, .cips, .sec, .ringPend, .slots, .frees, .out]
  | .workFinished _ => [.regs, .counters, .scratch, .msram, .drainTimer, .dp, .pcie, .clasp, .procs, .power, .cans, .lins, .tdms, .out]
  | .drainLimitExpiry _ | .blockFault _ _ _ | .linkMemoryScrub _ | .qschTableScrub _ | .rngSeedTimeout =>
    [.regs, .tabs, .counters, .scratch, .msram, .host, .drainTimer, .plan, .dp, .pcie, .clasp, .bridge, .procs, .power, .cans, .lins,
     .tdms, .tsi, .cips, .slots, .frees, .out]
  | .shadowWrite _ _ _ _ => [.regs, .tabs, .tabsShadow, .counters, .msram, .dp, .pcie, .clasp, .procs, .out]
  | .commitRequest _ _ => [.regs, .tabs, .counters, .msram, .applying, .plan, .dp, .pcie, .frer, .clasp, .procs, .tdms, .tsi, .frees, .out]
  | .commitAbandon _ _ => [.regs, .tabsShadow, .counters, .msram, .applying, .plan, .pcie, .clasp, .procs, .tsi, .out]
  | .assayerVerdict _ _ | .boundaryApply _ => [.regs, .tabs, .counters, .applying, .plan, .dp, .pcie, .frer, .clasp, .tdms, .tsi, .frees, .out]
  | .errClear _ _ | .ownerWrite _ _ _ | .ownerLock _ _ | .evtClr _ _ _ | .evtRouteWrite _ _ _ | .adjWrite _ _ _ | .slewCfgWrite _ _ | .tsnap _
  | .nodeWrite _ _ _ | .roleCmdYield _ | .traceRelease _ | .fwWdogKick _ | .mpStart _ _ | .mpGo _ _ | .mpFenceReq _ _ | .mpcFence _
  | .mringTail _ _ _ | .rxTailDoorbell _ _ _ | .txTailDoorbell _ _ _ | .dbSet _ _ => [.regs, .counters, .msram, .pcie, .clasp, .procs, .out]
  | .snap _ _ => [.regs, .counters, .snapshot, .msram, .pcie, .clasp, .procs, .out]
  | .frameRxStart _ _ _ | .admission => [.regs, .counters, .dp, .pcie, .frees, .out]
  | .frameRxEnd _ _ _ _ _ _ => [.regs, .tabs, .counters, .dp, .pcie, .frer, .clasp, .frees, .out]
  | .cutThroughDecision _ | .creditIntervalExpiry _ => [.dp]
  | .upHoldExpiry _ | .downHoldExpiry _ | .faultOrderedSet _ _ | .faultSetsCease _ | .speedMismatch _ | .phyTc10Sleep _ | .creditStall _ _
  | .parseWindow _ | .recircExpiry | .laneUp _ => [.regs, .counters, .dp, .pcie, .out]
  | .pcsLockLoss _ | .pcsLockRegained _ | .tc10QueuesEmpty _ => [.regs, .dp]
  | .speedMismatchClear _ | .fenceRise | .cfgReadyTimeout | .prepareEnd => [.regs]
  | .mdioRead _ _ | .mdioWrite _ _ | .tc10SleepReq _ _ | .tc10WakeReq _ _ | .stageClr _ | .meterClr _ _ | .roleCmdTake _ | .roleCmdForce _
  | .dmaDoorbell _ _ _ | .dmaResume _ _ | .dmaSkip _ _ => [.regs, .counters, .msram, .dp, .pcie, .clasp, .procs, .out]
  | .mdioFrameDone _ _ | .tc10Timeout _ | .classify _ _ _ _ | .laneDown _ | .heartbeatReceive _ _ | .heartbeatLoss | .digestSend
  | .digestReceive _ _ | .fenceFall | .listenTimeout => [.regs, .counters, .dp, .pcie, .clasp, .out]
  | .tc10RemoteWake _ => [.regs, .counters, .dp, .pcie, .power, .out]
  | .standaloneCreditSend _ => [.counters, .dp, .out]
  | .bankWrite _ _ _ => [.regs, .counters, .win, .msram, .pcie, .clasp, .procs, .out]
  | .fibStageWrite _ _ _ | .fibEntryApply _ _ _ | .gateListWrite _ _ _ _ _ _ => [.regs, .counters, .win, .msram, .dp, .pcie, .clasp, .procs, .out]
  | .recircCountZero | .frequencyGlideDone _ => [.regs, .tabs, .counters, .plan, .pcie, .clasp, .out]
  | .bankCloneDone | .failoverScan _ | .tsiCloneDone => [.regs, .counters, .win, .pcie, .out]
  | .police _ _ _ _ => [.regs, .counters, .dp, .pcie, .frer, .clasp, .out]
  | .rngReseed _ => [.regs, .counters, .pcie, .sec, .out]
  | .qstatPeakRead => [.dp, .out]
  | .schedDecision _ _ => [.regs, .tabs, .counters, .dp, .pcie, .out]
  | .transmitStart _ _ _ _ _ _ => [.regs, .counters, .msram, .dp, .pcie, .txts, .clasp, .procs, .frees, .out]
  | .transmitEnd _ _ _ => [.regs, .tabs, .counters, .host, .dp, .pcie, .frer, .clasp, .ringPend, .frees, .out]
  | .localNsRead | .canIntegrated _ => [.regs, .out]
  | .tabDataAccess _ _ _ _ _ => [.regs, .tabs, .tabsShadow, .counters, .msram, .dp, .pcie, .clasp, .procs, .frees, .out]
  | .gateEntryStart _ => [.counters, .dp]
  | .gateTakeover _ => [.regs, .tabs, .counters, .plan, .dp, .pcie, .clasp, .out]
  | .gateCloneDone _ => [.regs, .counters, .win, .dp, .pcie, .out]
  | .gateListScrub _ _ _ _ =>
    [.regs, .tabs, .counters, .win, .scratch, .msram, .host, .drainTimer, .plan, .dp, .pcie, .clasp, .bridge, .procs, .power, .cans, .lins,
     .tdms, .tsi, .cips, .slots, .frees, .out]
  | .domainStep _ _ | .domainSet _ _ => [.regs, .tabs, .counters, .msram, .plan, .dp, .pcie, .dom, .clasp, .procs, .out]
  | .txtsPop _ => [.regs, .counters, .msram, .pcie, .txts, .clasp, .procs, .out]
  | .frerScan => [.regs, .counters, .pcie, .frer, .frerScan, .out]
  | .heartbeatSend => [.regs, .dp, .clasp, .out]
  | .digestWaitExpiry => [.counters, .clasp]
  | .controlRetransmit _ => [.counters, .out]
  | .heldCopyExpiry _ => [.regs, .counters, .dp]
  | .fwWatchdogExpiry | .hostPoisonedWrite _ | .eccHealthExpiry => [.regs, .counters, .pcie, .clasp, .out]
  | .selftestPass _ _ | .canRecovered _ | .charmTxDue | .gpioEdge _ _ => [.regs, .counters, .pcie, .out]
  | .comparatorTestDone _ _ => [.regs, .counters, .pcie, .clasp, .procs, .out]
  | .mpFenceDrained _ | .lockstepMismatch _ _ _ => [.regs, .counters, .msram, .pcie, .procs, .out]
  | .tpMismatch _ | .tamperTrip _ => [.regs, .counters, .locket, .otp, .pcie, .procs, .sec, .slots, .out]
  | .tpRestartDone _ | .keyPut _ | .keyPutWrapped _ | .keyDelete _ | .imgBegin _ | .imgStage _ =>
    [.regs, .counters, .scratch, .msram, .flash, .pcie, .procs, .sec, .out]
  | .mgmtTxFrame _ _ _ => [.regs, .counters, .msram, .dp, .pcie, .clasp, .procs, .frees, .out]
  | .mkaKeys _ | .recBegin _ | .recActivate _ => [.regs, .counters, .scratch, .msram, .pcie, .procs, .sec, .out]
  | .mkaIcv _ | .recRead _ | .ageLoad _ => [.regs, .counters, .scratch, .msram, .pcie, .procs, .out]
  | .sakNew _ | .sakInstall _ | .cupBind _ => [.regs, .counters, .scratch, .msram, .pcie, .procs, .sec, .slots, .frees, .out]
  | .slotFree _ | .cupUnbind _ => [.regs, .counters, .scratch, .msram, .pcie, .procs, .sec, .slots, .out]
  | .lcChallenge _ => [.regs, .counters, .scratch, .msram, .pcie, .procs, .sec, .frees, .out]
  | .lcTransition _ =>
    [.regs, .tabs, .tabsShadow, .counters, .snapshot, .win, .scratch, .msram, .tsram, .locket, .otp, .drainTimer, .applying, .plan, .dp,
     .pcie, .now, .dom, .txts, .frer, .frerScan, .clasp, .bridge, .procs, .power, .cans, .lins, .tdms, .tsi, .cips, .sec, .ringPend,
     .slots, .rst, .out]
  | .imgBlock _ _ | .recBlock _ _ => [.regs, .counters, .scratch, .msram, .flash, .pcie, .clasp, .procs, .sec, .frees, .out]
  | .imgVerify _ | .warmBoot => [.regs, .counters, .scratch, .msram, .tsram, .otp, .pcie, .procs, .sec, .slots, .frees, .out]
  | .imgSignet _ => [.regs, .counters, .scratch, .msram, .tsram, .pcie, .procs, .sec, .out]
  | .imgCommit _ => [.regs, .counters, .scratch, .msram, .flash, .otp, .pcie, .procs, .sec, .out]
  | .imgAbandon _ => [.regs, .counters, .scratch, .msram, .tsram, .flash, .pcie, .procs, .sec, .out]
  | .recSeal _ => [.regs, .counters, .scratch, .msram, .flash, .pcie, .procs, .sec, .frees, .out]
  | .ageSave _ => [.regs, .counters, .scratch, .msram, .flash, .pcie, .procs, .out]
  | .mgmtReset _ =>
    [.regs, .tabs, .tabsShadow, .counters, .snapshot, .scratch, .msram, .drainTimer, .applying, .dp, .pcie, .txts, .frer, .clasp, .bridge,
     .procs, .power, .cans, .lins, .tdms, .tsi, .cips, .sec, .ringPend, .out]
  | .canFrameReceived _ _ _ _ => [.regs, .counters, .dp, .pcie, .clasp, .power, .cans, .frees, .out]
  | .cmacJobDone _ _ | .cmacJobTimeout _ _ => [.regs, .counters, .dp, .pcie, .clasp, .cans, .slots, .frees, .out]
  | .busEgressFrame => [.regs, .counters, .dp, .pcie, .clasp, .cans, .out]
  | .canArbitrationStart _ | .canTxDone _ => [.regs, .counters, .pcie, .cans, .out]
  | .canError _ _ _ _ _ => [.regs, .counters, .pcie, .power, .cans, .out]
  | .boHoldExpiry _ => [.regs, .cans, .out]
  | .canRecover _ _ | .pnSleepReq _ _ => [.regs, .counters, .msram, .pcie, .clasp, .procs, .cans, .out]
  | .pnWakeReq _ _ => [.regs, .counters, .msram, .pcie, .clasp, .procs, .power, .cans, .out]
  | .pnListenEnter _ => [.regs, .counters, .cans, .out]
  | .linScheduleSlot _ | .linHeaderReceived _ _ _ _ | .linNoResponse _ | .linGoToSleepReceived _ | .linIdleTimeout _ =>
    [.regs, .counters, .pcie, .lins, .out]
  | .linResponseReceived _ _ _ _ _ => [.regs, .counters, .dp, .pcie, .lins, .frees, .out]
  | .linSleepReq _ _ | .linWakeReq _ _ => [.regs, .counters, .msram, .pcie, .clasp, .procs, .lins, .out]
  | .linDominantWake _ => [.regs, .counters, .pcie, .power, .lins, .out]
  | .linScheduleRestart _ => [.lins]
  | .slot0Received _ _ _ _ => [.regs, .counters, .pcie, .tdms, .frees, .out]
  | .mfSearchTimeout _ | .losRise _ _ _ | .losClear _ _ _ | .performanceSecond _ => [.regs, .counters, .pcie, .tdms, .out]
  | .deviceFrameStart _ _ _ =>
    [.regs, .tabs, .counters, .win, .scratch, .msram, .drainTimer, .applying, .dp, .pcie, .frer, .clasp, .procs, .power, .cans, .lins,
     .tdms, .tsi, .frees, .out]
  | .connPageWrite _ _ _ => [.regs, .counters, .win, .msram, .pcie, .clasp, .procs, .tsi, .out]
  | .tdmEgressFrame => [.regs, .counters, .dp, .pcie, .tsi, .out]
  | .jobGo _ _ | .donePop _ _ => [.regs, .counters, .msram, .pcie, .clasp, .procs, .cips, .out]
  | .cipherJobDone _ _ _ _ _ => [.regs, .counters, .scratch, .msram, .host, .pcie, .clasp, .procs, .cips, .slots, .out]
  | .keyLoad _ => [.regs, .counters, .msram, .pcie, .clasp, .procs, .slots, .frees, .out]
  | .keyZero _ => [.regs, .counters, .msram, .pcie, .clasp, .procs, .slots, .out]
  | .slotRemask => [.slots, .frees]
  | .keyCountSync => [.flash, .sec]
  | .pcieLinkUp _ _ => [.regs, .counters, .pcie, .frees, .out]
  | .pcieLinkDown | .flr | .hotReset => [.regs, .tabs, .counters, .scratch, .msram, .host, .dp, .pcie, .clasp, .bridge, .procs, .frees, .out]
  | .perst =>
    [.regs, .tabs, .tabsShadow, .counters, .snapshot, .scratch, .msram, .host, .drainTimer, .dp, .pcie, .txts, .frer, .clasp, .bridge,
     .procs, .power, .cans, .lins, .tdms, .tsi, .cips, .sec, .ringPend, .rst, .frees, .out]
  | .configRequest _ _ => [.regs, .counters, .pcie, .clasp, .bridge, .frees, .out]
  | .hostBar4Read _ _ | .hostBar4Write _ _ | .bridgeLr _ _ _ | .bridgeSc _ _ _ _ | .bridgeAmo _ _ _ _ _ | .bridgeCplReceived _ _ _
  | .peerRequestTimeout _ | .peerPoll | .xtalAlarm | .hostCompletionReceived _ _ | .completionTimeout _ =>
    [.regs, .counters, .pcie, .clasp, .bridge, .out]
  | .hostUnsupportedRequest | .msixUnmask _ => [.counters, .pcie, .out]
  | .bridgeWindowAccess _ _ _ _ => [.regs, .counters, .host, .pcie, .clasp, .bridge, .out]
  | .reservationExpiry _ => [.bridge]
  | .bridgeReadReceived _ _ _ _ _ | .misalignedRead _ _ _ _ _ => [.regs, .counters, .dp, .pcie, .clasp, .frees, .out]
  | .bridgeCasReceived _ _ _ _ _ _ => [.regs, .counters, .scratch, .pcie, .clasp, .out]
  | .bridgeWriteFailReceived _ _ _ => [.regs, .counters, .pcie, .bridge, .out]
  | .peerRetryWait _ => [.counters, .clasp, .bridge, .out]
  | .pwlogPop _ => [.regs, .counters, .msram, .pcie, .clasp, .bridge, .procs, .out]
  | .hostTxFrame _ _ => [.regs, .counters, .host, .dp, .pcie, .clasp, .ringPend, .frees, .out]
  | .ringIrqTimer _ _ => [.counters, .pcie, .ringPend, .out]
  | .dmaDescriptorDone _ _ _ _ | .dmaAbort _ _ _ _ _ => [.regs, .counters, .scratch, .msram, .host, .dp, .pcie, .clasp, .procs, .frees, .out]
  | .powerReqRun _ | .powerReqPartial _ | .powerReqDoze _ | .powerReqSleep _ | .wakeConfirm _ | .nmHoldWrite _ _ _ | .nmEtypeWrite _ _ _ _
  | .vreqWrite _ _ _ => [.regs, .counters, .msram, .pcie, .clasp, .procs, .power, .out]
  | .raiseDone | .wakeComplete => [.regs, .counters, .pcie, .clasp, .bridge, .procs, .power, .sec, .out]
  | .quiesceDone | .unmaskTimer _ => [.regs, .power]
  | .quiesceLimit _ | .netTimeout | .voltageMoveStep _ _ => [.regs, .counters, .pcie, .clasp, .power, .out]
  | .lowerDone | .thermalTrip _ _ | .supplyAlarm | .ageSample _ =>
    [.regs, .tabs, .tabsShadow, .counters, .snapshot, .win, .scratch, .msram, .tsram, .host, .drainTimer, .applying, .plan, .dp, .pcie,
     .now, .dom, .txts, .frer, .frerScan, .clasp, .bridge, .procs, .power, .cans, .lins, .tdms, .tsi, .cips, .sec, .ringPend, .slots,
     .frees, .out]
  | .forcedCauseClear => [.regs, .power, .out]
  | .wakeIn _ | .wakeTimer | .confirmTimeout | .charmReceived _ _ => [.regs, .counters, .pcie, .power, .out]
  | .otpProgram _ => [.regs, .counters, .msram, .otp, .pcie, .clasp, .procs, .out]
  | .dbgChalReq _ => [.regs, .counters, .msram, .pcie, .clasp, .procs, .sec, .frees, .out]
  | .dbgTokenSubmit _ => [.regs, .counters, .msram, .tsram, .locket, .otp, .pcie, .clasp, .procs, .sec, .slots, .out]
  | .coldBoot => [.regs, .counters, .scratch, .msram, .tsram, .flash, .otp, .pcie, .procs, .sec, .slots, .frees, .out]
  | .mainReady => [.regs, .counters, .msram, .pcie, .procs, .sec, .out]
  | .trialExpired => [.regs, .counters, .flash, .pcie, .sec, .out]
  | .canaryFail _ => [.regs, .counters, .pcie, .clasp, .bridge, .power, .out]
  | .coldReset _ =>
    [.regs, .tabs, .tabsShadow, .counters, .snapshot, .win, .scratch, .msram, .tsram, .locket, .drainTimer, .applying, .plan, .dp, .pcie,
     .now, .dom, .txts, .frer, .frerScan, .clasp, .bridge, .procs, .power, .cans, .lins, .tdms, .tsi, .cips, .sec, .ringPend, .slots, .rst,
     .tap, .frees, .out]
  | .porNLow | .sysRstNLow | .rstCtrlDevice _ | .rstCtrlSystem _ | .rstCtrlMgmt _ =>
    [.regs, .tabs, .tabsShadow, .counters, .snapshot, .win, .scratch, .msram, .tsram, .locket, .drainTimer, .applying, .plan, .dp, .pcie,
     .now, .dom, .txts, .frer, .frerScan, .clasp, .bridge, .procs, .power, .cans, .lins, .tdms, .tsi, .cips, .sec, .ringPend, .slots, .rst,
     .out]
  | .brownOut =>
    [.regs, .tabs, .tabsShadow, .counters, .snapshot, .win, .scratch, .msram, .tsram, .locket, .drainTimer, .applying, .plan, .dp, .pcie,
     .now, .dom, .txts, .frer, .frerScan, .clasp, .bridge, .procs, .power, .cans, .lins, .tdms, .tsi, .cips, .sec, .ringPend, .slots, .rst,
     .tap, .out]
  | .noMpTimeout =>
    [.regs, .tabs, .tabsShadow, .counters, .snapshot, .msram, .drainTimer, .applying, .dp, .pcie, .txts, .frer, .clasp, .bridge, .procs,
     .power, .cans, .lins, .tdms, .tsi, .cips, .sec, .ringPend, .out]
  | .tapReset | .bypass | .idcode | .samplePreload _ _ | .extest _ _ | .clamp | .highz => [.tap, .out]
  | .dbgAccess _ _ =>
    [.regs, .tabs, .tabsShadow, .counters, .snapshot, .win, .scratch, .msram, .tsram, .locket, .host, .otp, .drainTimer, .applying, .plan,
     .dp, .pcie, .now, .dom, .txts, .frer, .frerScan, .clasp, .bridge, .procs, .power, .cans, .lins, .tdms, .tsi, .cips, .sec, .ringPend,
     .slots, .rst, .tap, .frees, .out]
  | .pcsLockAcquired _ _ => [.regs, .clasp]
  | .resetSourceRelease _ => [.procs, .rst, .out]

/-! ## The mailbox (R319, R320) -/

/-- Signet executes, and a request with that CMD is in work at a slot. -/
def State.serving (s : State) (slot cmd : Nat) : Prop := slot < 5 ∧ s.pageOn .tru = true ∧ s.signet = true ∧ s.mbxSt slot = 1 ∧ s.mbxCmd slot = cmd

/-- The slot may command chapter 19's updates and keys: its bit of UPDATE_SLOTS is set, and the device is not in SCRAP (R447). -/
def State.mayUpdate (s : State) (slot : Nat) : Prop := s.sec.updateSlots.testBit slot = true ∧ s.lc ≠ 5

/-- A request has been answered: its slot is DONE, and its block holds STATUS and RSP (R319, R320). -/
def State.answered (s : State) (slot status : Nat) (rsp : List Byte) : Prop :=
  s.mbxSt slot = 2 ∧ s.mbxBytes slot 128 2 = leBytes 2 status ∧ s.mbxBytes slot 136 rsp.length = rsp

/-- What the loss of the host has left in `t`, where `s` came before it (R391): every ring is disabled; each DMA channel whose ring was in host
memory and that was IDLE or BUSY is HALTED; no request to the host is open, and none of the host's to the partner; the configuration space,
the MSI-X table and its pending bits are at their reset values. -/
def State.hostStopped (t s : State) : Prop :=
  (∀ tx r, r < 64 → t.ringEn tx r = false) ∧ (∀ c, c < 32 → s.chSpace c = 0 → s.chSt c = 1 ∨ s.chSt c = 2 → t.chSt c = 3) ∧
    t.bridge.hostOpen = [] ∧ (∀ r ∈ t.bridge.peerOpen, r.orig ≠ 0) ∧ t.pcie = { aer := s.pcie.aer } ∧
    t.flag .pcie Pcie.LINK_STATUS_BME = false ∧ t.flag .pcie Pcie.LINK_STATUS_MSIX_EN = false

/-- `t` comes after `s` where a transition to power state `st`, with the islands' conditions that the request named, has started, at its first phase: RAISE where islands are to be raised, its end
where none is to be lowered either, else QUIESCE or, with a window, PREPARE (R428). -/
def State.starts (s : State) (st : Nat) (t : State) : Prop :=
  t.target = st ∧ t.power.goal = s.targetMap st ∧ t.phase = if t.islandsUp ≠ [] then 1 else if t.islandsDown = [] then 0
    else if s.fld .pwr Pwr.PREPARE_MS = 0 then 3 else 2

/-- The instruction that the TAP takes for one that R509 permits in RAW, TEST and RMA and while debug is open, and that is BYPASS elsewhere. -/
def State.tapTakes (s : State) (ir : TapInstr) : TapInstr :=
  if s.lc = 0 ∨ s.lc = 1 ∨ s.lc = 4 ∨ s.fld .dbg Dbg.STATE_ST = 1 then ir else .bypass

/-! ## The data path -/

/-- The oldest key at the classifier, of a first pass of a frame that is not DIRECT: its bank, the key with its bank bit, its ingress port (R81, R95). -/
def State.firstKey (s : State) (k : Pass) (rest : List Pass) (b : Nat) (key : List Byte) (port : Nat) : Prop :=
  s.dp.keys = k :: rest ∧ s.inRun .cls = true ∧ k.second = false ∧ k.direct = none ∧ b = s.activeBank ∧ key = setBank k.key b ∧ port = byteAt key 0 % 64

/-- The zone of an ingress port in a bank (R88). -/
def State.zoneOf (s : State) (b port : Nat) : Nat := s.bankFld .cls (Cls.PORT_CFG_ZONE port) b

/-- The oldest pass result at the policer: permitted, of context `n`, of a frame without a Barost header, with no copy to a fabric port (R163, R251). -/
def State.plainPass (s : State) (r : Pass) (rest : List Pass) (n : Nat) : Prop :=
  s.dp.results = r :: rest ∧ s.inRun .buf = true ∧ s.inRun .qsch = true ∧ r.ctx = some n ∧ r.dropped = false ∧
    s.headerKind (s.frame r.frame) = .absent ∧ ∀ p ∈ r.dests, s.fabricPort p = false

/-- A service node of a port has no candidate that a decision at `ts` could take: no copy waits, its gate is closed for every length, or its shaper
is in debt (R153, R158, R161, R183). -/
def State.heldBack (s : State) (p k ts : Nat) : Prop :=
  s.busyQueues (8 * p + k) = [] ∨ (∀ len, s.gateAdmits p k len ts = false) ∨ s.shape (8 * p + k) ≠ 0 ∧ s.nTokens (8 * p + k) < 0

/-! ## The invariant, and terms of the rules stated whole -/

/-- What every step keeps: the canonical form of every memory, and a fuse cell that holds 0 or 1 (R444). -/
def State.Inv (s : State) : Prop :=
  (∀ m ∈ [s.mem.win, s.mem.scratch, s.mem.msram, s.mem.tsram, s.mem.locket, s.mem.flash, s.mem.host, s.mem.otp], m.wf = true) ∧
    ∀ i, s.mem.otp.get i = 0 ∨ s.mem.otp.get i = 1

/-- From `s` to `t` no register of BAR0 changes but those of page `p` at the offsets listed. -/
def State.onlyRegs (s t : State) (p : Page) (offs : List Nat) : Prop :=
  ∀ a, (∀ o ∈ offs, a ≠ p.base + o) → t.regs.get a = s.regs.get a

/-- The conditions of R461 on the image in slot `k`: SEC_VER against the fuses, VERSION and COMPAT_MIN against the image in the ACTIVE slot. -/
def State.versionsHold (s : State) (k : Nat) : Prop :=
  s.secVersion ≤ s.img k 16 1 ∧ ∀ a, s.slotIn 1 = some a → s.img k 12 4 ≤ s.img a 8 4 ∧ s.img a 12 4 ≤ s.img k 8 4

end Sys2Proof.Machine
end

