-- ==== Sys2Proof/Certificates/Slice0/Obligations.lean ====
section
/-! DEFINITION. The statements about the block that are to be proved. -/
open Sys2Proof Sys2Proof.Machine

/-! ## The queue and the step -/

/-- A step takes the command at the front of the queue and runs it on the state with the rest of the queue. -/
def Obligations.StepRunsFrontCommand : Prop :=
  ∀ (s : State) (c : Instr) (rest : List Instr), s.pending = c :: rest → step s = exec c { s with pending := rest }

/-- On an empty queue a step is a nanosecond that passes: in OFF nothing changes. The tick is the model's choice (log entry 8). -/
def Obligations.EmptyQueueTicks : Prop :=
  ∀ s : State, s.pending = [] → step s = .next s.tick ∧ (s.rst.off = true → s.tick = s)

/-! ## Pages: CTRL and the state machine of R31 and R32 -/

/-- An owner's write that changes EN, DRAIN or FREEZE alone stores the bit, leaves the other two, and takes the page where the row of R31 for
that bit and the page's state says: EN 0→1 in OFF; EN 1→0 in RUN, DRAINING and QUIET; DRAIN 0→1 in RUN; DRAIN 1→0 in DRAINING and QUIET;
FREEZE 0→1 in QUIET and, stored only, in RUN and DRAINING (R32); FREEZE 1→0 in HALTED. TGATE (R192), TIME and FAB pass from DRAINING on at
once, and so does a page whose DRAIN_LIMIT of 0 discards at once (R29). A TGATE page that gates or awaits a change is left out (R192), and
so is a DRAINING page whose timer runs (R32). PWR and CLK stay in RUN (the pages of R438 and R486; the model's reading, log entry 61). -/
def Obligations.CtrlWritesMoveThePage : Prop :=
  (∀ s src p, s.ownerWrites src p → s.st p = 0 → s.flag p Hdr.CTRL_EN = false →
    Completes (.ctrlEnSet src p) s (fun t => t.flag p Hdr.CTRL_EN = true ∧ t.flag p Hdr.CTRL_DRAIN = s.flag p Hdr.CTRL_DRAIN ∧
      t.flag p Hdr.CTRL_FREEZE = s.flag p Hdr.CTRL_FREEZE ∧
      t.st p = if s.flag p Hdr.CTRL_DRAIN then (if s.flag p Hdr.CTRL_FREEZE then 4 else 3) else 1)) ∧
  (∀ s src p, s.ownerWrites src p → s.st p = 1 ∨ s.st p = 2 ∧ s.drainTimer.get p.index = false ∨ s.st p = 3 → s.flag p Hdr.CTRL_EN = true →
    (∀ n, p = .tgate n → s.flag p Tgate.GATE_CFG_GATE_EN = false ∧ s.flag p Tgate.LIST_STATUS_CHANGE_PENDING = false) → p.staysRun = false →
    Completes (.ctrlEnClear src p) s (fun t => t.flag p Hdr.CTRL_EN = false ∧ t.flag p Hdr.CTRL_DRAIN = s.flag p Hdr.CTRL_DRAIN ∧
      t.flag p Hdr.CTRL_FREEZE = s.flag p Hdr.CTRL_FREEZE ∧
      t.st p = if s.st p = 3 ∨ p.instant = true ∨ s.fld p Hdr.DRAIN_LIMIT_LIMIT = 0 then 0 else 2)) ∧
  (∀ s src p, s.ownerWrites src p → s.st p = 1 → s.flag p Hdr.CTRL_EN = true → s.flag p Hdr.CTRL_DRAIN = false →
    (∀ n, p = .tgate n → s.flag p Tgate.GATE_CFG_GATE_EN = false ∧ s.flag p Tgate.LIST_STATUS_CHANGE_PENDING = false) → p.staysRun = false →
    s.drainTimer.get p.index = false →
    Completes (.ctrlDrainSet src p) s (fun t => t.flag p Hdr.CTRL_DRAIN = true ∧ t.flag p Hdr.CTRL_EN = true ∧
      t.flag p Hdr.CTRL_FREEZE = s.flag p Hdr.CTRL_FREEZE ∧
      t.st p = if p.instant then (if s.flag p Hdr.CTRL_FREEZE then 4 else 3) else 2)) ∧
  (∀ s src p, s.ownerWrites src p → s.st p = 2 ∧ s.drainTimer.get p.index = false ∨ s.st p = 3 → s.flag p Hdr.CTRL_EN = true →
    s.flag p Hdr.CTRL_DRAIN = true →
    Completes (.ctrlDrainClear src p) s (fun t => t.flag p Hdr.CTRL_DRAIN = false ∧ t.flag p Hdr.CTRL_EN = true ∧
      t.flag p Hdr.CTRL_FREEZE = s.flag p Hdr.CTRL_FREEZE ∧ t.st p = 1)) ∧
  (∀ s src p, s.ownerWrites src p → s.st p = 1 ∨ s.st p = 2 ∨ s.st p = 3 →
    Completes (.freezeSet src p) s (fun t => t.flag p Hdr.CTRL_FREEZE = true ∧ t.flag p Hdr.CTRL_EN = s.flag p Hdr.CTRL_EN ∧
      t.flag p Hdr.CTRL_DRAIN = s.flag p Hdr.CTRL_DRAIN ∧ t.st p = if s.st p = 3 then 4 else s.st p)) ∧
  (∀ s src p, s.ownerWrites src p → s.st p = 4 → s.flag p Hdr.CTRL_FREEZE = true →
    Completes (.freezeClear src p) s (fun t => t.flag p Hdr.CTRL_FREEZE = false ∧ t.flag p Hdr.CTRL_EN = s.flag p Hdr.CTRL_EN ∧
      t.flag p Hdr.CTRL_DRAIN = s.flag p Hdr.CTRL_DRAIN ∧ t.st p = 3)) ∧
  (∀ s src p c, s.ownerWrites src p → p.staysRun = true → s.st p = 1 →
    c ∈ [Instr.ctrlEnSet src p, .ctrlEnClear src p, .ctrlDrainSet src p, .ctrlDrainClear src p] → Completes c s (fun t => t.st p = 1))

/-- A page in DRAINING whose work is finished goes to QUIET, at once HALTED with FREEZE stored, or to OFF with EN = 0 (a TDM page waits for the
next device frame start: chapter 15, before R357); with work left when DRAIN_LIMIT expires it goes to OFF with DRAIN_TIMEOUT logged (R41), and DRAIN_DISCARD counts the
work, but for CIP, whose job in progress completes (R380); an uncorrectable error takes it to FAULT with its code in FCODE and in ERR_CODE, and its
work is discarded and counted (R31). A block reset takes a page in OFF, QUIET, HALTED or FAULT to OFF with CTRL at 0, but for PWR and CLK, which
have no OFF (chapters 18 and 20, before R438 and R486; the model's reading, log entry 43); in RUN and DRAINING it is refused as BUSY (R31, R32). -/
def Obligations.WorkEndsAndBlockReset : Prop :=
  (∀ s p, (∀ n, p ≠ .tdm n) → s.st p = 2 → s.work p = 0 →
    Completes (.workFinished p) s (fun t =>
      t.st p = if s.flag p Hdr.CTRL_EN then (if s.flag p Hdr.CTRL_FREEZE then 4 else 3) else 0)) ∧
  (∀ s n, Completes (.workFinished (.tdm n)) s (fun t => t = s)) ∧
  (∀ s p, s.st p = 2 → s.drainTimer.get p.index = true → s.work p ≠ 0 →
    Completes (.drainLimitExpiry p) s (fun t => t.st p = 0 ∧ t.drainTimer.get p.index = false ∧
      (p.ok = true → (∀ n, p ≠ .cip n) →
        t.cnt p Hdr.DRAIN_DISCARD_LO_COUNT.off = s.cnt p Hdr.DRAIN_DISCARD_LO_COUNT.off + s.work p ∧
        (s.fld p Hdr.ERR_CODE_CODE = 0 → t.fld p Hdr.ERR_CODE_CODE = 2 ∧ t.evt p 0 = true)))) ∧
  (∀ s p code addr, s.pageOn p = true → code < 256 → Completes (.blockFault p code addr) s (fun t => t.st p = 5 ∧ t.fld p Hdr.STATE_FCODE = code ∧
    (p.ok = true → (∀ n, p ≠ .cip n) →
      t.cnt p Hdr.DRAIN_DISCARD_LO_COUNT.off = s.cnt p Hdr.DRAIN_DISCARD_LO_COUNT.off + s.work p ∧
      (s.fld p Hdr.ERR_CODE_CODE = 0 → t.fld p Hdr.ERR_CODE_CODE = code ∧ t.evt p 0 = true)))) ∧
  (∀ s src p, p.ok = true → s.ownerWrites src p → s.st p ≠ 1 → s.st p ≠ 2 →
    Completes (.blkrst src p) s (fun t =>
      t.word p Hdr.CTRL_EN.off = 0 ∧ t.st p = if p = .pwr ∨ p = .clk then 1 else 0)) ∧
  (∀ s src p, s.ownerWrites src p → s.st p = 1 ∨ s.st p = 2 → s.fld p Hdr.ERR_CODE_CODE = 0 →
    Completes (.blkrst src p) s (fun t => t.st p = s.st p ∧ t.word p Hdr.CTRL_EN.off = s.word p Hdr.CTRL_EN.off ∧
      t.fld p Hdr.ERR_CODE_CODE = 7))

/-! ## The common header -/

/-- CLEAR drops the error held (R30); SNAP copies the counters of its page alone and notes the time (R28); the trusted processor writes OWNER
while LOCKED is 0, and locks it (R39); EVT_CLR clears the RAW bits written as 1, and sends the page's message again while EVT_PEND stays non-zero
(R42, R43); EVT_ROUTE stores its fields (R42), and a page that waits sends its message when HOST_EN is newly set (R43). -/
def Obligations.HeaderCommands : Prop :=
  (∀ s src p, s.ownerWrites src p →
    Completes (.errClear src p) s (fun t => t.fld p Hdr.ERR_CODE_CODE = 0 ∧ t.word p Hdr.ERR_INFO_SRC.off = 0 ∧
      t.word p Hdr.ERR_ADDR_LO_ADDR.off = 0 ∧ t.word p Hdr.ERR_ADDR_HI_ADDR.off = 0)) ∧
  (∀ s src p, s.ownerWrites src p → Completes (.snap src p) s (fun t => t.fld p Hdr.SNAP_TIME_NS = s.ns32 ∧
    ∀ k, t.snapshot.get k = if counterPage k = some p then s.counters.get k else s.snapshot.get k)) ∧
  (∀ s src p cls, s.trustedWrites src p → s.flag p Hdr.OWNER_LOCKED = false →
    Completes (.ownerWrite src p cls) s (fun t => t.ownerClass p = cls % 4 ∧ t.flag p Hdr.OWNER_LOCKED = false)) ∧
  (∀ s src p, s.trustedWrites src p → s.flag p Hdr.OWNER_LOCKED = false →
    Completes (.ownerLock src p) s (fun t => t.ownerClass p = s.ownerClass p ∧ t.flag p Hdr.OWNER_LOCKED = true)) ∧
  (∀ s src p v, s.ownerWrites src p → Completes (.evtClr src p v) s (fun t =>
    t.word p Hdr.EVT_RAW_RAW.off = s.word p Hdr.EVT_RAW_RAW.off &&& ~~~ BitVec.ofNat 32 v ∧
    (t.pend p = 0 → t.out = s.out) ∧
    (t.pend p ≠ 0 → s.route p Sys.EVT_ROUTE_HOST_EN = 1 → s.flag .pcie Pcie.LINK_STATUS_MSIX_EN = true →
      s.flag .pcie Pcie.LINK_STATUS_BME = true → s.flag .pcie Pcie.LINK_STATUS_DL_UP = true →
      s.msixMasked (s.route p Sys.EVT_ROUTE_VECTOR) = false → t.out = s.out ++ [s.msixMessage (s.route p Sys.EVT_ROUTE_VECTOR)]))) ∧
  (∀ s src n v, s.ownerWrites src .sys → Completes (.evtRouteWrite src n v) s (fun t =>
    t.word .sys (Sys.EVT_ROUTE_VECTOR n).off = BitVec.ofNat 32 v &&& 0xF3F80FF ∧
    (∀ p, Page.ofIndex n = some p → s.flag .sys (Sys.EVT_ROUTE_HOST_EN n) = false → t.flag .sys (Sys.EVT_ROUTE_HOST_EN n) = true →
      s.pend p ≠ 0 → s.flag .pcie Pcie.LINK_STATUS_MSIX_EN = true → s.flag .pcie Pcie.LINK_STATUS_BME = true →
      s.flag .pcie Pcie.LINK_STATUS_DL_UP = true → s.msixMasked (t.route p Sys.EVT_ROUTE_VECTOR) = false →
      t.out = s.out ++ [s.msixMessage (t.route p Sys.EVT_ROUTE_VECTOR)])))

/-! ## Accesses -/

/-- A write of the scratchpad stores its bytes, or through the two aliases sets or clears bits, and touches no other byte (R24, R26); a
write of DRAIN_LIMIT is stored (R29). A read below the scratchpad that crosses a 4 B boundary and is no aligned 8 B read is discarded and logged
as MISALIGNED, and the host gets a Completer Abort (R27, R392); at an address of no page or window SYS logs it under that code (log entry 18). A
read of the host in BAR2 gives the MSI-X table, the pending bits, and 0 (R389, R390). -/
def Obligations.AccessesOfBar0 : Prop :=
  (∀ s src off bytes, s.issues src = true → s.pageOn .scr = true → off < 0x200000 → off + bytes.length ≤ 0x200000 →
    Completes (.registerWrite src .bar0 (0x2000000 + off) bytes) s (fun t => ∀ j, t.mem.scratch.get j =
      if off ≤ j ∧ j < off + bytes.length then bytes.getD (j - off) 0 else s.mem.scratch.get j)) ∧
  (∀ s src clear off bytes, s.issues src = true → s.pageOn .scr = true → off + bytes.length ≤ 0x200000 →
    Completes (.scratchpadAliasWrite src clear off bytes) s (fun t => ∀ j, t.mem.scratch.get j =
      if off ≤ j ∧ j < off + bytes.length then
        (if clear then s.mem.scratch.get j &&& ~~~ bytes.getD (j - off) 0 else s.mem.scratch.get j ||| bytes.getD (j - off) 0)
      else s.mem.scratch.get j)) ∧
  (∀ s src p v, p.ok = true → s.ownerWrites src p →
    Completes (.registerWrite src .bar0 (p.base + Hdr.DRAIN_LIMIT_LIMIT.off) (leBytes 4 v)) s (fun t =>
      t.fld p Hdr.DRAIN_LIMIT_LIMIT = v % 2 ^ 24)) ∧
  (∀ s src p v, p.ok = true → s.issues src = true → s.pageOn p = true → s.owns src p = false → s.fld p Hdr.ERR_CODE_CODE = 0 →
    Completes (.registerWrite src .bar0 (p.base + Hdr.DRAIN_LIMIT_LIMIT.off) (leBytes 4 v)) s (fun t =>
      t.fld p Hdr.DRAIN_LIMIT_LIMIT = s.fld p Hdr.DRAIN_LIMIT_LIMIT ∧ t.fld p Hdr.ERR_CODE_CODE = 1)) ∧
  (∀ s src a size ecc, s.issues src = true → a < 0x2000000 → 4 < a % 4 + size → size ≠ 8 ∨ a % 8 ≠ 0 →
    s.pageOn (misalignedPage a) = true → s.fld (misalignedPage a) Hdr.ERR_CODE_CODE = 0 →
    Completes (.misalignedRead src .bar0 a size ecc) s (fun t => t.fld (misalignedPage a) Hdr.ERR_CODE_CODE = 4 ∧ t.mem = s.mem ∧
      (src = .host → (∃ o, t.out = s.out ++ o ++ [.completerAbort a]) ∧
        t.cnt .pcie Pcie.CNT_CA_SENT = s.cnt .pcie Pcie.CNT_CA_SENT + 1))) ∧
  (∀ s a size ecc, Completes (.misalignedRead .host .bar2 a size ecc) s (fun t => t.regs = s.regs ∧ t.mem = s.mem ∧
    ∃ l : List Byte, t.out = s.out ++ [.hostData l] ∧ l.length = size ∧ ∀ i, i < size → l.getD i 0 =
      if a + i < 0x1000 then BitVec.ofNat 8 ((s.pcie.msix.get ((a + i) / 4)).toNat / 2 ^ (8 * ((a + i) % 4)))
      else if 0x2000 ≤ a + i ∧ a + i < 0x2020 then BitVec.ofNat 8 (bitmapOf ((List.range 8).filter (fun j => s.pcie.pba.get (8 * (a + i - 0x2000) + j))))
      else 0))

/-- A shadow write stores the bits that have a shadow copy and leaves the page PENDING (R35); for CLS and PRS while the standby bank is open
(R111); while the page is CHECKING it is discarded as BUSY (R37). TAB_DATA's shadow address stores the word that TAB_ADDR selects, in ASY while no
plan is under way (R218); a read of TAB_DATA answers that word, and with AUTO advances WORD (R172); a word corrected by SECDED is counted (R224,
R272, R277), and what one that cannot be corrected reads as is any value (the model's choice, log entry 114). -/
def Obligations.ShadowAndTableAccesses : Prop :=
  (∀ s src p off v, s.ownerWrites src p → 0x800 ≤ off → off < 0xF00 → p.tabOff ≠ some (off - 0x700) →
    p.shadowBits (off - 0x700) ≠ 0 → (if p = .cls ∨ p = .prs then s.standbyShut p = none else s.checking p = false) →
    Completes (.shadowWrite src p off v) s (fun t =>
      t.word p off = mixWord (s.word p off) (BitVec.ofNat 32 v) (p.shadowBits (off - 0x700)) ∧
      t.flag p Hdr.COMMIT_STATUS_PENDING = true)) ∧
  (∀ s src p off v, s.ownerWrites src p → 0x800 ≤ off → off < 0xF00 → p.tabOff ≠ some (off - 0x700) →
    p.shadowBits (off - 0x700) ≠ 0 → p ≠ .cls → p ≠ .prs → s.checking p = true → s.fld p Hdr.ERR_CODE_CODE = 0 →
    Completes (.shadowWrite src p off v) s (fun t => t.word p off = s.word p off ∧ t.fld p Hdr.ERR_CODE_CODE = 7)) ∧
  (∀ s src p v n width, s.ownerWrites src p → p.table (s.tabAt p).1 = some (n, width, .shadowed) → (s.tabAt p).2.1 < n →
    (s.tabAt p).2.2 < width → s.checking p = false → (p = .asy → s.plan = none) →
    Completes (.tabDataAccess src p true (some v) .clean) s (fun t => t.flag p Hdr.COMMIT_STATUS_PENDING = true ∧
      t.tabSh p (s.tabAt p).1 (s.tabAt p).2.1 (s.tabAt p).2.2 =
        BitVec.ofNat 32 v &&& BitVec.ofNat 32 (p.tabMask (s.tabAt p).1 (s.tabAt p).2.2))) ∧
  (∀ s src p shadow ecc, s.pageOn p = true → ecc = .lost → p.eccTab (s.tabAt p).1 ≠ none →
    Completes (.tabDataAccess src p shadow none ecc) s (fun t => ∃ v, v < 2 ^ 32 ∧ t.out = s.out ++
      [.readData (p.base + (p.tabOff.getD 0 + if shadow then 0x700 else 0)) 4 v])) ∧
  (∀ s src p shadow ecc, s.pageOn p = true → ecc ≠ .lost ∨ p.eccTab (s.tabAt p).1 = none →
    Completes (.tabDataAccess src p shadow none ecc) s (fun t => t.out = s.out ++
    [.readData (p.base + (p.tabOff.getD 0 + if shadow then 0x700 else 0)) 4 (s.tabWord p shadow (s.tabAt p).1 (s.tabAt p).2.1 (s.tabAt p).2.2)] ∧
    (∀ c, ecc = .corrected → p.eccTab (s.tabAt p).1 = some c → t.cnt p c = s.cnt p c + 1) ∧
    ∀ wf ef tf n width kind, p.tabSel = some (wf, ef, tf) → p ≠ .buf → (s.word p wf.off).toNat.testBit 31 = true →
      p.table (s.tabAt p).1 = some (n, width, kind) → (s.tabAt p).2.2 + 1 ≠ width →
      t.fld p wf = ((s.tabAt p).2.2 + 1) % 2 ^ wf.width))

/-! ## Commits -/

/-- A REQUEST on a timing page starts a plan commit that includes the requesting page (but ASY only where its PENDING is 1), every other timing page
that is PENDING and of the requester's class or SHARED, and no other, each of them CHECKING; one on another page waits CHECKING for its boundary once
its fields are in range; while a plan is under way a page outside it goes to BUSY (R37). ABANDON outside CHECKING copies the active view into the
shadow view and leaves STATUS IDLE (CLS, TGATE and TSI then clone), and on a page of a check without a verdict it stops the check (R37, R114,
R189, R218, R352). The verdict refuses the plan, or makes it wait for the boundaries of its pages (R37, R215, R219, R221), at which the shadow values
become active (R36); CLS comes last when RECIRC_CNT of the former bank is 0 (R82, R112), its unread copies having been discarded 9 µs after the swap
(R82), and CLK when every period has reached its new value (R481). A page whose island is not ON joins no plan: the model's choice (log entry 82). -/
def Obligations.CommitCommands : Prop :=
  (∀ s src p, s.ownerWrites src p → p.timing = true → s.plan = none → (∀ n, p = .tgate n → s.cloning p = false) →
    (p = .cls ∨ s.joins src .cls = true → s.cloning .cls = false ∧ s.badRoot = none) →
    Completes (.commitRequest src p) s (fun t => ∃ c, t.plan = some c ∧ c.requester = p ∧ c.passed = false ∧ (∀ q ∈ c.included, t.status q = 1) ∧
      (p.ok = true → p ≠ .asy → p ∈ c.included ∧ t.status p = 1) ∧ (∀ q, q.ok = true → s.joins src q = true → q ∈ c.included ∧ t.status q = 1) ∧
      ∀ q ∈ c.included, q = p ∨ s.joins src q = true)) ∧
  (∀ s src p, s.ownerWrites src p → p.timing = false → s.plan = none → s.checking p = false → (s.drainFor src).ownRefusal p = none →
    s.st p ≠ 0 → (p.shadowed.isEmpty && p.shadowTables.isEmpty) = false →
    Completes (.commitRequest src p) s (fun t => t.status p = 1 ∧ p ∈ t.applying)) ∧
  (∀ s src p, s.ownerWrites src p → s.plan.isSome = true → s.checking p = false →
    Completes (.commitRequest src p) s (fun t => t.status p = 4 ∧ t.plan = s.plan ∧ t.evt p 2 = true)) ∧
  (∀ s src p, s.ownerWrites src p → s.checking p = false → p ≠ .cls → (p = .prs → s.standbyShut .prs = none) →
    (∀ n, p = .tgate n → s.cloning p = false) → (p = .tsi → s.cloning p = false) →
    Completes (.commitAbandon src p) s (fun t => t.status p = 0 ∧ t.flag p Hdr.COMMIT_STATUS_PENDING = false ∧
      (∀ x ∈ p.shadowed, mixWord 0 (t.word p (x.1 + 0x700)) x.2 = mixWord 0 (s.word p x.1) x.2) ∧
      (∀ k, p.shadowKey k = true → t.tabsShadow.get k = s.tabs.get k) ∧ ((∃ n, p = .tgate n) ∨ p = .tsi → t.cloning p = true))) ∧
  (∀ s src, s.ownerWrites src .cls → s.checking .cls = false → s.cloning .cls = false → s.recircCount (1 - s.activeBank) = 0 →
    Completes (.commitAbandon src .cls) s (fun t => t.cloning .cls = true)) ∧
  (∀ s src p c, s.ownerWrites src p → p.timing = true → s.checking p = true → s.plan = some c → c.passed = false →
    Completes (.commitAbandon src p) s (fun t => t.plan = none ∧ (∀ q ∈ c.included, t.status q = 0) ∧
      t.cnt .asy Asy.CNT_CHECKS_ABANDONED = s.cnt .asy Asy.CNT_CHECKS_ABANDONED + 1)) ∧
  (∀ s c bad corr r, s.plan = some c → c.passed = false → c.verify = false → s.assay c bad = .refused r →
    Completes (.assayerVerdict bad corr) s (fun t => t.plan = none ∧ (∀ q ∈ c.included, t.status q = 3) ∧ t.evt .asy 9 = true)) ∧
  (∀ s c bad corr digest paths streams table, s.plan = some c → c.passed = false → c.verify = false →
    s.assay c bad = .passed digest paths streams table → c.included ≠ [] →
    (∀ q ∈ c.included, q ≠ .cls ∧ q ≠ .qsch ∧ (∀ n, q ≠ .tgate n) ∧ (q = .clk ∨ s.st q ≠ 0)) →
    Completes (.assayerVerdict bad corr) s (fun t => t.cnt .asy Asy.CNT_PLANS_ACCEPTED = s.cnt .asy Asy.CNT_PLANS_ACCEPTED + 1 ∧
      t.plan = some { c with passed := true, waiting := c.included, gen := s.nextGen, digest, paths, streams, table })) ∧
  (∀ s c bad corr, s.plan = some c → c.passed = false → c.verify = true →
    Completes (.assayerVerdict bad corr) s (fun t => t.plan = none ∧ t.evt .asy 10 = true)) ∧
  (∀ s p, p.timing = false → p ≠ .prs → (∀ n, p ≠ .tdm n) → p ≠ .tsi → p ∈ s.applying →
    s.st p = 0 ∨ (∀ off, s.regHeld p off = false) ∧ (∀ k, s.tabHeld p k = 0) →
    Completes (.boundaryApply p) s (fun t => t.status p = 2 ∧ p ∉ t.applying ∧
      ∀ x ∈ p.shadowed, mixWord 0 (t.word p x.1) x.2 = mixWord 0 (s.word p (x.1 + 0x700)) x.2)) ∧
  (∀ s p, p.timing = true → p ≠ .cls → (∀ n, p ≠ .tgate n) → p ≠ .clk → p ∉ s.applying → s.awaits p = true →
    s.st p = 0 ∨ (∀ off, s.regHeld p off = false) ∧ (∀ k, s.tabHeld p k = 0) →
    Completes (.boundaryApply p) s (fun t => t.awaits p = false ∧
      ∀ x ∈ p.shadowed, mixWord 0 (t.word p x.1) x.2 = mixWord 0 (s.word p (x.1 + 0x700)) x.2)) ∧
  (∀ s c, s.plan = some c → c.passed = true → c.waiting = [.cls] → s.recircCount (1 - s.activeBank) = 0 →
    Completes .recircCountZero s (fun t => t.plan = none ∧ (∀ q ∈ c.included, t.status q = 2) ∧ (c.prs = true → t.status .prs = 2))) ∧
  (∀ s old, old = (s.copiesAt 36).filter (fun c => c.isRecirc && (s.frame c.frame).bank == 1 - s.activeBank) → old ≠ [] →
    Completes .recircExpiry s (fun t => t.evt .prs 13 = true ∧
      t.cnt .prs Prs.CNT_RECIRC_EXPIRED = s.cnt .prs Prs.CNT_RECIRC_EXPIRED + old.length)) ∧
  (∀ s k, s.fld .clk (Clk.ISL_F_K k) ≠ s.fld .clk (Clk.ISL_F_KNOW k) → s.awaits .clk = false →
    Completes (.frequencyGlideDone k) s (fun t => t.evt .clk 9 = true ∧ t.fld .clk (Clk.ISL_F_KNOW k) = s.fld .clk (Clk.ISL_F_K k))) ∧
  (∀ s c k, k < 14 → s.fld .clk (Clk.ISL_F_K k) ≠ s.fld .clk (Clk.ISL_F_KNOW k) →
    (∀ i, i < 14 → i ≠ k → s.fld .clk (Clk.ISL_F_K i) = s.fld .clk (Clk.ISL_F_KNOW i)) → s.plan = some c → c.passed = true → c.waiting = [.clk] →
    Completes (.frequencyGlideDone k) s (fun t => t.plan = none ∧ ∀ q ∈ c.included, t.status q = 2))

/-! ## Links -/

/-- The link of an external port moves between TRAINING, UP, FAULT and SLEEP as R53 says: UP after UP_HOLD of lock, with LINK_UP and, on a fabric
port, a credit frame due (R59); with lock lost DOWN_HOLD runs, and a frame in reception is marked as bad; TRAINING again after DOWN_HOLD, with
LINK_DOWN counted and the credits cleared, and of a link that has left UP and FAULT meanwhile nothing more; FAULT on a fault ordered set, with no copy
left selected, and UP again when they cease; SLEEP when the PHY sleeps, without LINK_DOWN, the frame in transmission lost (R53, R56, R59). A speed other than 1000 Mb/s full duplex is a mismatch on an SGMII port (R45). -/
def Obligations.LinkStates : Prop :=
  (∀ s p, p < 32 → s.pageOn (.etp p) = true → s.lst p = 1 → s.flag (.etp p) Etp.LINK_STATUS_PCS_LOCK = true →
    s.flag (.etp p) Etp.LINK_STATUS_SPEED_MISMATCH = false → Completes (.upHoldExpiry p) s (fun t => t.lst p = 2 ∧ t.evt (.etp p) 8 = true ∧
      (s.fabricPort p = true → t.dp.creditDue.get p = true) ∧ t.tst p = if s.tst p = 3 then 0 else s.tst p)) ∧
  (∀ s p lane, p < 32 → s.pageOn (.etp p) = true → s.lst p = 1 → Completes (.pcsLockAcquired p lane) s (fun t =>
    t.lst p = 1 ∧ t.flag (.etp p) Etp.LINK_STATUS_PCS_LOCK = true)) ∧
  (∀ s lane, s.pageOn (.etp 37) = true → s.st (.etp 37) ≠ 0 → Completes (.pcsLockAcquired 37 lane) s (fun t =>
    t.clasp.lock.get (lane % 2) = true ∧ t.flag (.etp 37) Etp.LINK_STATUS_PCS_LOCK = true)) ∧
  (∀ s p, p < 32 → s.lst p = 2 ∨ s.lst p = 3 → Completes (.pcsLockLoss p) s (fun t =>
    t.dp.downHold.get p = true ∧ t.lst p = s.lst p ∧ t.flag (.etp p) Etp.LINK_STATUS_PCS_LOCK = false ∧
    (s.dp.rx.get p ≠ 0 → (t.frame (s.dp.rx.get p)).code = true))) ∧
  (∀ s p, p < 32 → s.pageOn (.etp p) = true → s.dp.downHold.get p = true → Completes (.pcsLockRegained p) s (fun t =>
    t.dp.downHold.get p = false ∧ t.lst p = s.lst p ∧ t.flag (.etp p) Etp.LINK_STATUS_PCS_LOCK = true)) ∧
  (∀ s p, p < 32 → s.pageOn (.etp p) = true → s.dp.downHold.get p = true → s.lst p ≠ 2 → s.lst p ≠ 3 → Completes (.downHoldExpiry p) s (fun t =>
    t.dp.downHold.get p = false ∧ t.regs = s.regs ∧ t.counters = s.counters)) ∧
  (∀ s p, p < 32 → s.pageOn (.etp p) = true → s.dp.downHold.get p = true → s.lst p = 2 ∨ s.lst p = 3 → Completes (.downHoldExpiry p) s (fun t =>
    t.dp.downHold.get p = false ∧ t.lst p = 1 ∧ t.evt (.etp p) 9 = true ∧
    t.cnt (.etp p) Etp.CNT_LINK_DOWNS = s.cnt (.etp p) Etp.CNT_LINK_DOWNS + 1 ∧
    t.fld (.etp p) (creditFld 6) = 0 ∧ t.fld (.etp p) (creditFld 7) = 0)) ∧
  (∀ s p, p < 32 → s.pageOn (.etp p) = true → s.lst p = 2 → Completes (.faultOrderedSet p true) s (fun t =>
    t.lst p = 3 ∧ t.flag (.etp p) Etp.LINK_STATUS_REMOTE_FAULT = true ∧ t.evt (.etp p) 10 = true ∧ (t.egress p).selected = none)) ∧
  (∀ s p, p < 32 → s.pageOn (.etp p) = true → s.lst p = 2 → Completes (.faultOrderedSet p false) s (fun t =>
    t.lst p = 3 ∧ t.flag (.etp p) Etp.LINK_STATUS_LOCAL_FAULT = true ∧ (t.egress p).selected = none)) ∧
  (∀ s p, p < 32 → s.pageOn (.etp p) = true → s.lst p = 3 → Completes (.faultSetsCease p) s (fun t => t.lst p = 2 ∧ t.evt (.etp p) 8 = true ∧
    t.flag (.etp p) Etp.LINK_STATUS_LOCAL_FAULT = false ∧ t.flag (.etp p) Etp.LINK_STATUS_REMOTE_FAULT = false)) ∧
  (∀ s p, p < 32 → s.pageOn (.etp p) = true → s.fld (.etp p) Etp.MODE_MODE = 0 → Completes (.speedMismatch p) s (fun t =>
    t.flag (.etp p) Etp.LINK_STATUS_SPEED_MISMATCH = true ∧ (t.lst p = if s.lst p = 2 ∨ s.lst p = 3 then 1 else s.lst p) ∧
    (s.flag (.etp p) Etp.LINK_STATUS_SPEED_MISMATCH = false → t.evt (.etp p) 16 = true))) ∧
  (∀ s p, p < 32 → s.pageOn (.etp p) = true → Completes (.speedMismatchClear p) s (fun t =>
    t.flag (.etp p) Etp.LINK_STATUS_SPEED_MISMATCH = false ∧ t.lst p = s.lst p)) ∧
  (∀ s p, p < 32 → s.pageOn (.etp p) = true → s.lst p = 2 → Completes (.phyTc10Sleep p) s (fun t => t.lst p = 4 ∧
    t.evt (.etp p) 9 = s.evt (.etp p) 9 ∧ t.dp.downHold.get p = false ∧ ((s.egress p).sending.isSome = true → (t.egress p).lost = true) ∧
    t.fld (.etp p) (creditFld 6) = 0 ∧ t.fld (.etp p) (creditFld 7) = 0 ∧ (s.tst p = 1 → t.tst p = 2 ∧ t.evt (.etp p) 14 = true)))

/-- A write of MDIO_CMD puts its access at the end of the queue of the port's master and sets BUSY (R55); a frame that completes is the one of
R54, leaves the queue, ends BUSY of its port and raises MDIO_DONE, with the data read, or ERROR and 0xFFFF where the PHY did not answer, and the
master is BUSY while requests wait (R54, R55). -/
def Obligations.MdioCommands : Prop :=
  (∀ s src p, p < 32 → s.ownerWrites src (.etp p) → s.flag (.etp p) Etp.MDIO_CMD_BUSY = false →
    Completes (.mdioRead src p) s (fun t => t.flag (.etp p) Etp.MDIO_CMD_BUSY = true ∧
      t.dp.mdio.get (s.mdioMaster p) = s.dp.mdio.get (s.mdioMaster p) ++
        [{ port := p, use := .soft, write := false, cl45 := s.flag (.etp p) Etp.MDIO_ADDR_CL45
           devad := s.fld (.etp p) Etp.MDIO_ADDR_DEVAD, reg := s.fld (.etp p) Etp.MDIO_ADDR_REG, data := s.fld (.etp p) Etp.MDIO_DATA_DATA }])) ∧
  (∀ s src p, p < 32 → s.ownerWrites src (.etp p) → s.flag (.etp p) Etp.MDIO_CMD_BUSY = false →
    Completes (.mdioWrite src p) s (fun t => t.flag (.etp p) Etp.MDIO_CMD_BUSY = true ∧
      t.dp.mdio.get (s.mdioMaster p) = s.dp.mdio.get (s.mdioMaster p) ++
        [{ port := p, use := .soft, write := true, cl45 := s.flag (.etp p) Etp.MDIO_ADDR_CL45
           devad := s.fld (.etp p) Etp.MDIO_ADDR_DEVAD, reg := s.fld (.etp p) Etp.MDIO_ADDR_REG, data := s.fld (.etp p) Etp.MDIO_DATA_DATA }])) ∧
  (∀ s m answer r rest, m < 2 → s.dp.mdio.get m = r :: rest → r.use = .soft →
    Completes (.mdioFrameDone m answer) s (fun t => (∃ o, t.out = s.out ++ s.mdioFrame m r :: o) ∧
      t.dp.mdio.get m = rest ∧ t.flag .sys (Sys.MDIO_CFG_BUSY m) = !rest.isEmpty ∧ t.flag (.etp r.port) Etp.MDIO_CMD_BUSY = false ∧
      t.evt (.etp r.port) 12 = true ∧
      (r.write = false → t.fld (.etp r.port) Etp.MDIO_DATA_DATA = (answer.getD 0xFFFF) % 65536 ∧
        t.flag (.etp r.port) Etp.MDIO_CMD_ERROR = answer.isNone)))

/-- TC10 (R56): SLEEP_REQ begins a sleep and its TIMEOUT; WAKE_REQ ends a pending one, clearing the sleep-request bit of the PHY, or from SLEEP
sets the wake-request bit; the sleep-request bit is set once the port's queues are empty; TIMEOUT gives a sleep up, or asks for the wake again,
with TC10_TIMEOUT; a remote wake of a sleeping port starts WAKING. The bits are set and cleared through the port's MDIO master. -/
def Obligations.Tc10Commands : Prop :=
  (∀ s src p, p < 32 → s.ownerWrites src (.etp p) → s.tst p = 0 → Completes (.tc10SleepReq src p) s (fun t =>
    t.tst p = 1 ∧ t.dp.tc10Timer.get p = true)) ∧
  (∀ s src p, p < 32 → s.ownerWrites src (.etp p) → s.tst p = 2 → Completes (.tc10WakeReq src p) s (fun t =>
    t.tst p = 3 ∧ t.lst p = 1 ∧ t.dp.tc10Timer.get p = true ∧
    ∃ r, t.dp.mdio.get (s.mdioMaster p) = s.dp.mdio.get (s.mdioMaster p) ++ [r] ∧ r.port = p ∧
      r.use = .tc10 (s.fld (.etp p) Etp.TC10_REG_WAKE_BIT) true)) ∧
  (∀ s src p, p < 32 → s.ownerWrites src (.etp p) → s.tst p = 1 → Completes (.tc10WakeReq src p) s (fun t =>
    t.tst p = 0 ∧ t.dp.tc10Timer.get p = false ∧
    ∃ r, t.dp.mdio.get (s.mdioMaster p) = s.dp.mdio.get (s.mdioMaster p) ++ [r] ∧ r.port = p ∧
      r.use = .tc10 (s.fld (.etp p) Etp.TC10_REG_SLEEP_BIT) false)) ∧
  (∀ s p, p < 32 → s.pageOn (.etp p) = true → s.tst p = 1 → s.copiesAt p = [] → Completes (.tc10QueuesEmpty p) s (fun t => t.tst p = 1 ∧
    ∃ r, t.dp.mdio.get (s.mdioMaster p) = s.dp.mdio.get (s.mdioMaster p) ++ [r] ∧ r.port = p ∧
      r.use = .tc10 (s.fld (.etp p) Etp.TC10_REG_SLEEP_BIT) true)) ∧
  (∀ s p, p < 32 → s.pageOn (.etp p) = true → s.tst p = 1 → Completes (.tc10Timeout p) s (fun t => t.tst p = 0 ∧ t.dp.tc10Timer.get p = false ∧
    (s.fld (.etp p) Hdr.ERR_CODE_CODE = 0 → t.fld (.etp p) Hdr.ERR_CODE_CODE = 0x21))) ∧
  (∀ s p, p < 32 → s.pageOn (.etp p) = true → s.tst p = 3 → Completes (.tc10Timeout p) s (fun t => t.tst p = 3 ∧
    (s.fld (.etp p) Hdr.ERR_CODE_CODE = 0 → t.fld (.etp p) Hdr.ERR_CODE_CODE = 0x21) ∧
    ∃ r, t.dp.mdio.get (s.mdioMaster p) = s.dp.mdio.get (s.mdioMaster p) ++ [r] ∧ r.port = p ∧
      r.use = .tc10 (s.fld (.etp p) Etp.TC10_REG_WAKE_BIT) true)) ∧
  (∀ s p, p < 32 → s.pageOn (.etp p) = true → s.tst p = 2 → Completes (.tc10RemoteWake p) s (fun t =>
    t.tst p = 3 ∧ t.lst p = 1 ∧ t.dp.tc10Timer.get p = true ∧ t.flag (.etp p) Etp.TC10_STATUS_REMOTE_WAKE = true))

/-- Credit frames: INTERVAL makes one due on a fabric port that is UP, a due one leaves at a decision point that lets it and is counted, and a
class that has waited without credit for STALL_LIMIT is counted once, with its event (R59, R256). -/
def Obligations.CreditCommands : Prop :=
  (∀ s p, p < 32 → s.pageOn (.etp p) = true → s.fabricPort p = true → s.lst p = 2 → Completes (.creditIntervalExpiry p) s (fun t =>
    t.dp.creditDue.get p = true)) ∧
  (∀ s p, p < 32 → s.pageOn (.etp p) = true → s.dp.creditDue.get p = true → s.lst p = 2 → s.creditMaySend p = true →
    Completes (.standaloneCreditSend p) s (fun t => t.dp.creditDue.get p = false ∧ (∃ l, t.out = s.out ++ [.frame p l]) ∧
      t.cnt .fab Fab.CNT_CREDIT_SENT = s.cnt .fab Fab.CNT_CREDIT_SENT + 1)) ∧
  (∀ s p c, s.pageOn (.etp p) = true → s.fabricPort p = true → (s.busyQueues (8 * p + c)).isEmpty = false →
    s.fld (.etp p) (creditFld c) = 0 → s.dp.stalled.get (creditKey p c) = false → Completes (.creditStall p c) s (fun t =>
      t.dp.stalled.get (creditKey p c) = true ∧ t.evt (.etp p) 15 = true ∧
      t.cnt (.etp p) Etp.CNT_CREDIT_STALLS = s.cnt (.etp p) Etp.CNT_CREDIT_STALLS + 1))

/-- Reception. A frame begins in a new place of the store with its ingress time, its first cell is taken, and its window goes to the parser with
192 bytes (R49, R63, R121, R234); a good frame ends with its bytes stored, counted, and its window handed over where it was not yet parsed (R49, R65),
on an EDGE and on a FABRIC port, where a valid Barost header gives its grants (R254, R257), and on a port that MACsec protects, where the bytes stored
are the decrypted ones (R371, R373, R374); an errored one counts in the counter of its error (R49). The cut-through decision fixes every waiting
copy of the frame in reception that is not fixed yet (R52). -/
def Obligations.ReceptionCommands : Prop :=
  (∀ s p head frac, s.inRun (.etp p) = true → s.fld (.etp p) Etp.LINK_STATUS_LST = 2 → s.dp.rx.get p = 0 → s.inRun .buf = true →
    s.looped p = false → s.rxProtected p = false → (p < 32 → s.isCredit head = false) →
    Completes (.frameRxStart p head frac) s (fun t => t.dp.rx.get p = s.dp.nextFrame ∧ t.dp.nextFrame = s.dp.nextFrame + 1 ∧
      (t.frame s.dp.nextFrame).bytes = head ∧ (t.frame s.dp.nextFrame).ingress = p ∧
      (t.frame s.dp.nextFrame).tsLocal = s.ingressTime p frac ∧
      (head ≠ [] → s.freeCells ≠ 0 → s.frame s.dp.nextFrame = {} → (t.frame s.dp.nextFrame).cells ≠ []) ∧
      t.dp.windows = if 192 ≤ head.length then s.dp.windows ++ [s.dp.nextFrame] else s.dp.windows)) ∧
  (∀ s p i rest corr l secBad, s.dp.rx.get p = i → i ≠ 0 → l = ((s.frame i).bytes ++ rest).take (s.fld (.etp p) Etp.MAX_LEN_LEN + 1) →
    s.rxError p l (s.frame i).code = none → (p < 32 → s.isCredit l = false) → s.rxProtected p = false →
    ((s.frame i).decided = true → s.copiesOf i = []) → (s.frame i).gone = false → (s.frame i).refused = false → (s.frame i).deferred = none →
    (s.frame i).loop = false → (s.frame i).wire = [] → (s.frame i).headroom = none → (s.frame i).owed = [] → (s.frame i).ctx = none →
    (s.frame i).meter = none → l.length ≤ (s.frame i).provLen → i ∉ s.dp.windows →
    Completes (.frameRxEnd p rest false corr 0 secBad) s (fun t => t.dp.rx.get p = 0 ∧ (t.frame i).bytes = l ∧ (t.frame i).ended = true ∧
      (t.dp.windows = if (s.frame i).parsed then s.dp.windows else s.dp.windows ++ [i]) ∧
      t.cnt (.etp p) Etp.CNT_RX_FRAMES = s.cnt (.etp p) Etp.CNT_RX_FRAMES + 1 ∧
      t.cnt (.etp p) Etp.CNT_RX_BYTES = s.cnt (.etp p) Etp.CNT_RX_BYTES + l.length ∧
      ∀ h, h = readBarost l 12 → s.fabricPort p = true → beAt l 12 2 = s.fld .prs Prs.BAROST_CFG_ETYPE → barostValid l 12 = true → h.crst = 0 →
        (h.grant6 + 65536 - s.dp.used.get (creditKey p 6)) % 65536 ≤ 4095 → (h.grant7 + 65536 - s.dp.used.get (creditKey p 7)) % 65536 ≤ 4095 →
        t.fld (.etp p) (creditFld 6) = (h.grant6 + 65536 - s.dp.used.get (creditKey p 6)) % 65536 ∧
        t.fld (.etp p) (creditFld 7) = (h.grant7 + 65536 - s.dp.used.get (creditKey p 7)) % 65536)) ∧
  (∀ s p i rest code corr uncorr l secBad cnt, s.dp.rx.get p = i → i ≠ 0 →
    l = ((s.frame i).bytes ++ rest).take (s.fld (.etp p) Etp.MAX_LEN_LEN + 1) →
    s.rxError p l (code || (s.frame i).code) = some cnt → (s.frame i).refused = false → (s.frame i).loop = false → (s.frame i).wire = [] →
    (s.frame i).owed = [] → Completes (.frameRxEnd p rest code corr uncorr secBad) s (fun t => t.dp.rx.get p = 0 ∧
      t.cnt (.etp p) cnt = s.cnt (.etp p) cnt + 1)) ∧
  (∀ s p c, s.dp.rx.get p ≠ 0 → (s.frame (s.dp.rx.get p)).ended = false → (s.frame (s.dp.rx.get p)).decided = true →
    256 ≤ (s.frame (s.dp.rx.get p)).bytes.length → c ∈ (s.queue c.queue).copies → c.frame = s.dp.rx.get p → c.cut = none →
    Completes (.cutThroughDecision p) s (fun t => (t.queue c.queue).copies.length = (s.queue c.queue).copies.length ∧
      { c with cut := some (s.cutAllowed (s.frame (s.dp.rx.get p)) c) } ∈ (t.queue c.queue).copies)) ∧
  (∀ s p i rest corr l m sa, s.dp.rx.get p = i → i ≠ 0 → p < 32 → l = ((s.frame i).received ++ rest).take (s.fld (.etp p) Etp.MAX_LEN_LEN + 1) →
    s.rxError p l (s.frame i).code = none → s.isCredit l = false → s.isCredit m = false → s.rxProtected p = true →
    s.rxSecurity p l (s.frame i).secured none = (.decrypted m, sa) →
    (s.frame i).decided = false → (s.frame i).gone = false → (s.frame i).refused = false → (s.frame i).deferred = none →
    (s.frame i).loop = false → (s.frame i).headroom = none → (s.frame i).owed = [] → (s.frame i).ctx = none →
    (s.frame i).meter = none → m.length ≤ (s.frame i).provLen → i ∉ s.dp.windows →
    Completes (.frameRxEnd p rest false corr 0 none) s (fun t => t.dp.rx.get p = 0 ∧ (t.frame i).bytes = m ∧ (t.frame i).ended = true ∧
      (t.frame i).prot = true ∧ (t.dp.windows = if (s.frame i).parsed then s.dp.windows else s.dp.windows ++ [i]) ∧
      t.cnt (.etp p) Etp.CNT_RX_FRAMES = s.cnt (.etp p) Etp.CNT_RX_FRAMES + 1 ∧
      t.cnt (.etp p) Etp.CNT_RX_BYTES = s.cnt (.etp p) Etp.CNT_RX_BYTES + l.length))

/-- The passes. The oldest window of the input that the arbiter grants is parsed, and its key goes to the classifier unless the parser drops the
frame (R63, R65, R74); the oldest key gives a pass result, to the port and class of a DIRECT frame (R95, R317); the oldest result goes through the
policer to admission (R164); there a copy that every step of R129 lets pass joins its queue, charged and counted. The result follows the trees: a
leaf behind one TEST or INDEX node of IFW gives its action and counts its rule (R92, R93, R97, R98); a root that names no node is a walk error
(R94); without a leaf the zone's default decides, and the MAC and VLAN table gives the destinations of a permitted pass, or drops it (R97, R105). At
the policer a meter gives the pass its colour, and RED, or a dropped YELLOW, takes its destinations (R166, R167); the vector algorithm takes those of
a duplicate (R264, R265). -/
def Obligations.PassCommands : Prop :=
  (∀ s recirc p i b r, s.grantPort recirc = some p → s.dp.windows.find? (fun j => (s.frame j).current == p) = some i → s.inRun .prs = true →
    b = (if (s.frame i).pass = 1 then (s.frame i).bank else s.activeBank) →
    r = parse (s.prsCfg b) (s.barostPort (s.frame i).ingress) (s.frame i).prot (s.frame i).ended (s.frame i).ingress (s.frame i).pass b
      (s.frame i).bytes → dropCause (s.prsCfg b) r.flags = 0 →
    Completes (.parseWindow recirc) s (fun t => t.dp.windows = s.dp.windows.filter (· != i) ∧ (t.frame i).parsed = true ∧
      (t.frame i).profile = r.profile ∧
      t.dp.keys = s.dp.keys ++ [{ frame := i, second := (s.frame i).pass == 1, key := r.key, direct := (s.frame i).direct }])) ∧
  (∀ s k rest bad badFib corr corrFib, s.dp.keys = k :: rest → s.inRun .cls = true →
    Completes (.classify bad badFib corr corrFib) s (fun t => t.dp.keys = rest ∧ t.dp.windows = s.dp.windows ∧ t.dp.admits = s.dp.admits ∧
      ∃ r, t.dp.results = s.dp.results ++ [r] ∧ r.frame = k.frame ∧ r.second = k.second ∧
        r.bank = (if k.second then (s.frame k.frame).bank else s.activeBank) ∧
        ∀ p c, k.direct = some (p, c) → p ≠ 32 → r.dests = [p] ∧ r.tc = c)) ∧
  (∀ s r rest fabBad frerBad corrFab corrFrer, s.dp.results = r :: rest → s.inRun .buf = true →
    Completes (.police fabBad frerBad corrFab corrFrer) s (fun t => t.dp.results = rest ∧ t.dp.windows = s.dp.windows ∧
      t.dp.keys = s.dp.keys ∧ ∃ q, t.dp.admits = s.dp.admits ++ [q] ∧ q.frame = r.frame ∧ q.second = r.second ∧
        ∀ p ∈ q.dests, p ∈ r.dests)) ∧
  (∀ s r rest, s.dp.admits = r :: rest → Completes .admission s (fun t =>
    t.dp.admits = rest ∧ t.dp.windows = s.dp.windows ∧ t.dp.keys = s.dp.keys ∧ t.dp.results = s.dp.results)) ∧
  (∀ s r rest p q f, s.dp.admits = r :: rest → passCopies r = [(p, .dest)] → r.mirrors = [] → r.sample = false →
    f = { s.frame r.frame with decided := true, lossless := none, ctx := r.ctx } → s.losslessClass (s.frame r.frame) r = none →
    s.portRefuses f .dest p = false → q = s.queueFor r .dest p → s.plainDescs < 262144 - 8192 → s.freeDescs ≠ 0 →
    s.tiers q (chargeOf f .dest) = true → s.redProb q r.colour = 0 → (∀ m, m < 4 → s.fld .buf (Buf.MIR_CFG_EN m) = 0) →
    Completes .admission s (fun t => (t.queue q).used = (s.queue q).used + chargeOf f .dest ∧
      t.cnt .buf Buf.CNT_ENQ_COPIES = s.cnt .buf Buf.CNT_ENQ_COPIES + 1 ∧
      ∃ c, (t.queue q).copies = (s.queue q).copies ++ [c] ∧ c.frame = r.frame ∧ c.port = p ∧ c.charge = chargeOf f .dest)) ∧
  (∀ s k rest b key port x p w n l a dests corr corrFib, s.firstKey k rest b key port → s.root b (s.zoneOf b port) 1 = 0 →
    s.root b (s.zoneOf b port) 2 = 0 → s.root b (s.zoneOf b port) 3 = 0 →
    x = extKey key (s.zoneOf b port) {} 0 0 → p = s.root b (s.zoneOf b port) 0 → 544 ≤ p → p ≤ 262143 → w = s.treeWord b p →
    (w % 4 = 1 ∧ n = bitsOf w 113 96 + (if nodeTest w (nodeField x (bitsOf w 10 4) (bitsOf w 15 11) (bitsOf w 20 16)) then 1 else 0) ∨
      w % 4 = 2 ∧ bitsOf w 20 16 ≤ 7 ∧ n = bitsOf w 113 96 + nodeField x (bitsOf w 10 4) (bitsOf w 15 11) (bitsOf w 20 16)) →
    544 ≤ n → n ≤ 262143 → l = s.treeWord b n → l % 4 = 3 → a = bitsOf l 127 64 → actionReserved a = false → bitsOf a 1 0 = 1 → bitsOf a 4 2 = 2 →
    a.testBit 9 = false → a.testBit 14 = false → 32 ∉ dests →
    dests = (portsOf (s.portSet b (bitsOf a 63 48 % 1024))).filter (fun e => e != 36 && (e != port || s.bankFld .cls (Cls.PORT_CFG_HAIRPIN port) b != 0)) →
    Completes (.classify [] [] corr corrFib) s (fun t => t.counters.get (ruleKey (bitsOf l 31 16)) = s.counters.get (ruleKey (bitsOf l 31 16)) + 1 ∧
      ∃ r, t.dp.results = s.dp.results ++ [r] ∧ r.frame = k.frame ∧ r.dropped = false ∧ r.dests = dests ∧ r.ctx = none ∧
        r.recirc = (if a.testBit 5 then some (bitsOf a 7 6) else none) ∧ r.cpuMgmt = a.testBit 8 ∧ r.cpuHost = false ∧ r.sample = a.testBit 13 ∧
        r.mirrors = (if a.testBit 10 then [bitsOf a 12 11] else []) ∧ r.colour = (if a.testBit 32 then bitsOf a 34 33 else 0) ∧
        (a.testBit 15 = true → r.tc = bitsOf a 31 29))) ∧
  (∀ s k rest b key port corr corrFib, s.firstKey k rest b key port → s.root b (s.zoneOf b port) 1 = 0 → s.root b (s.zoneOf b port) 2 = 0 →
    0 < s.root b (s.zoneOf b port) 0 → s.root b (s.zoneOf b port) 0 < 544 → s.bankFld .cls Cls.WALK_ERR_ACT_LO_ACT b % 4 = 2 →
    s.bankFld .cls Cls.WALK_ERR_ACT_LO_ACT b / 2 ^ 8 % 4 = 0 → s.bankFld .cls Cls.WALK_ERR_ACT_LO_ACT b / 2 ^ 14 % 2 = 0 →
    Completes (.classify [] [] corr corrFib) s (fun t => t.cnt .cls Cls.CNT_WALK_ERR = s.cnt .cls Cls.CNT_WALK_ERR + 1 ∧
      t.cnt .cls Cls.CNT_DROP_RULE = s.cnt .cls Cls.CNT_DROP_RULE + 1 ∧ t.fld .cls Cls.LAST_WALK_ERR_CAUSE = 0 ∧
      t.fld .cls Cls.LAST_WALK_ERR_TREE = 0 ∧ t.fld .cls Cls.LAST_WALK_ERR_WORD = s.root b (s.zoneOf b port) 0 ∧ t.evt .cls 8 = true ∧
      ∃ r, t.dp.results = s.dp.results ++ [r] ∧ r.dropped = true ∧ r.dests = [] ∧ r.recirc = none)) ∧
  (∀ s k rest b key port corr corrFib, s.firstKey k rest b key port → (∀ i, i < 3 → s.root b (s.zoneOf b port) i = 0) →
    s.bankFld .cls (Cls.ZONE_CFG_DEFAULT (s.zoneOf b port)) b = 0 →
    Completes (.classify [] [] corr corrFib) s (fun t => t.cnt .cls Cls.CNT_DROP_DEFAULT = s.cnt .cls Cls.CNT_DROP_DEFAULT + 1 ∧
      ∃ r, t.dp.results = s.dp.results ++ [r] ∧ r.dropped = true ∧ r.dests = [] ∧ r.recirc = none)) ∧
  (∀ s k rest b key port vid v corr corrFib, s.firstKey k rest b key port → (∀ i, i < 4 → s.root b (s.zoneOf b port) i = 0) →
    s.bankFld .cls (Cls.ZONE_CFG_DEFAULT (s.zoneOf b port)) b = 1 → s.inRun .fib = true → vid = s.lookupVid b key → v = s.vlanEntry vid →
    v.testBit 64 = false ∨ v.testBit 66 = true ∧ v.testBit port = false →
    Completes (.classify [] [] corr corrFib) s (fun t =>
      (v.testBit 64 = false → t.cnt .fib Fib.CNT_VID_INVALID = s.cnt .fib Fib.CNT_VID_INVALID + 1 ∧ t.evt .fib 8 = true) ∧
      (v.testBit 64 = true → t.cnt .fib Fib.CNT_VLAN_INGRESS_DROP = s.cnt .fib Fib.CNT_VLAN_INGRESS_DROP + 1 ∧ t.evt .fib 9 = true) ∧
      ∃ r, t.dp.results = s.dp.results ++ [r] ∧ r.dropped = true ∧ r.dests = [])) ∧
  (∀ s k rest b key port vid v match' found dests corr corrFib, s.firstKey k rest b key port → (∀ i, i < 4 → s.root b (s.zoneOf b port) i = 0) →
    s.bankFld .cls (Cls.ZONE_CFG_DEFAULT (s.zoneOf b port)) b = 1 → s.inRun .fib = true → vid = s.lookupVid b key → v = s.vlanEntry vid →
    v.testBit 64 = true → v.testBit 66 = false ∨ v.testBit port = true →
    match' = (fun e => s.macEntry (4 * fibBucket vid ((key.drop 4).take 6) + e)) →
    (found = none ∧ (∀ e, e < 4 → ((match' e).testBit 63 && bitsOf (match' e) 47 0 == beAt key 4 6 && bitsOf (match' e) 59 48 == vid) = false) ∧
        dests = (if v.testBit 65 then portsOf (bitsOf v 37 0) else []) ∨
      ∃ e, found = some e ∧ e < 4 ∧ (match' e).testBit 63 = true ∧ bitsOf (match' e) 47 0 = beAt key 4 6 ∧ bitsOf (match' e) 59 48 = vid ∧
        (∀ i, i < e → ((match' i).testBit 63 && bitsOf (match' i) 47 0 == beAt key 4 6 && bitsOf (match' i) 59 48 == vid) = false) ∧
        bitsOf (match' e) 65 64 ≠ 2 ∧ dests = (if bitsOf (match' e) 65 64 = 0 then portsOf (2 ^ (bitsOf (match' e) 95 80 % 64))
          else if bitsOf (match' e) 65 64 = 1 then portsOf (s.portSet b (bitsOf (match' e) 95 80 % 1024)) else [])) → 32 ∉ dests →
    Completes (.classify [] [] corr corrFib) s (fun t =>
      t.cnt .fib Fib.CNT_HITS = s.cnt .fib Fib.CNT_HITS + (if found.isSome then 1 else 0) ∧
      t.cnt .fib Fib.CNT_MISS_FLOOD = s.cnt .fib Fib.CNT_MISS_FLOOD + (if found = none ∧ v.testBit 65 = true then 1 else 0) ∧
      t.cnt .fib Fib.CNT_MISS_DROP = s.cnt .fib Fib.CNT_MISS_DROP + (if found = none ∧ v.testBit 65 = false then 1 else 0) ∧
      ∃ r, t.dp.results = s.dp.results ++ [r] ∧ r.dropped = false ∧ r.recirc = none ∧
        r.dests = dests.filter (fun e => e != 36 && (e != port || s.bankFld .cls (Cls.PORT_CFG_HAIRPIN port) b != 0)))) ∧
  (∀ s r rest n m len x ct et corrFab corrFrer, s.plainPass r rest n → s.ctxF n r.bank 0 2 2 = 0 → s.ctxF n r.bank 0 1 1 = 1 →
    s.ctxF n r.bank 2 13 0 = 0 → m = s.ctxF n r.bank 1 10 0 → len = (if (s.frame r.frame).ended then (s.frame r.frame).bytes.length
      else (s.frame r.frame).provLen) → x = s.dp.meters.get m →
    ct = min (x.ct + s.meterF m 0 24 0 * (s.now - x.last)) (s.cbs m) →
    et = min (x.et + s.meterF m 1 24 0 * (s.now - x.last) + (if s.meterF m 0 28 28 = 1 then x.ct + s.meterF m 0 24 0 * (s.now - x.last) - s.cbs m else 0))
      (s.ebs m) →
    Completes (.police [] false corrFab corrFrer) s (fun t => (t.dp.meters.get m).last = s.now ∧ ∃ q, t.dp.admits = s.dp.admits ++ [q] ∧
      (x.marked = false → s.meterF m 0 29 29 = 0 ∨ r.colour = 0 → 8000000 * len ≤ ct → q.colour = 0 ∧ q.dests = r.dests ∧
        (t.dp.meters.get m).ct = ct - 8000000 * len ∧ (t.dp.meters.get m).et = et) ∧
      (x.marked = false → (s.meterF m 0 29 29 = 0 ∨ r.colour = 0) ∧ ct < 8000000 * len ∨ s.meterF m 0 29 29 = 1 ∧ r.colour = 1 →
        8000000 * len ≤ et → q.colour = 1 ∧ q.dests = (if s.meterF m 0 30 30 = 1 then [] else r.dests) ∧
        (t.dp.meters.get m).ct = ct ∧ (t.dp.meters.get m).et = et - 8000000 * len) ∧
      (x.marked = true ∨ s.meterF m 0 29 29 = 1 ∧ r.colour = 2 ∨ ct < 8000000 * len ∧ et < 8000000 * len → q.colour = 2 ∧ q.dests = [] ∧ q.recirc = none ∧
        t.cnt .qsch Qsch.CNT_METER_DROPS = s.cnt .qsch Qsch.CNT_METER_DROPS + 1 ∧
        (s.meterF m 0 31 31 = 1 → (t.dp.meters.get m).marked = true ∧ t.evt .qsch 9 = true)))) ∧
  (∀ s r rest n fn seq f d corrFab corrFrer, s.plainPass r rest n → s.ctxF n r.bank 0 2 2 = 1 → s.ctxF n r.bank 0 1 1 = 0 → s.ctxF n r.bank 2 13 0 = 0 →
    s.inRun .frer = true → fn = s.ctxF n r.bank 1 28 16 % 4096 → s.frerMode fn = 2 → (s.frame r.frame).hasRtag = true → (s.frame r.frame).frer = none →
    seq = beAt r.key 24 2 → f = s.frerFn fn → f.takeAny = false → d = (((seq + 65536 - f.recov) % 65536 : Nat) : Int) →
    Completes (.police [] false corrFab corrFrer) s (fun t => ∃ q, t.dp.admits = s.dp.admits ++ [q] ∧
      (0 < d → d < s.histLen fn → d < 32768 → q.dests = r.dests ∧ (t.frerFn fn).recov = seq ∧ (t.frerFn fn).takeAny = false ∧
        (t.frerFn fn).hist = (f.hist * 2 ^ d.toNat + 1) % 2 ^ s.histLen fn ∧ t.cntTab .frer 2 fn 0 = s.cntTab .frer 2 fn 0 + 1) ∧
      (d = 0 ∧ 0 < s.histLen fn ∨ 32768 ≤ d ∧ 65536 - d < s.histLen fn → f.hist.testBit ((65536 - d) % 65536).toNat = true → q.dests = [] ∧ q.recirc = none ∧
        t.cntTab .frer 2 fn 1 = s.cntTab .frer 2 fn 1 + 1 ∧ (t.frerFn fn).recov = f.recov) ∧
      (d = 0 ∧ 0 < s.histLen fn ∨ 32768 ≤ d ∧ 65536 - d < s.histLen fn → f.hist.testBit ((65536 - d) % 65536).toNat = false → q.dests = r.dests ∧
        t.cntTab .frer 2 fn 2 = s.cntTab .frer 2 fn 2 + 1 ∧ (t.frerFn fn).recov = f.recov) ∧
      (d < 32768 → (s.histLen fn : Int) ≤ d → q.dests = [] ∧ t.cntTab .frer 2 fn 3 = s.cntTab .frer 2 fn 3 + 1 ∧ t.evt .frer 8 = true)))

/-- Transmission. A decision point selects the copy that the rules of R156 choose, a selection that is final: among the strict nodes the highest whose
shaper and gate let its candidate go, past those that they hold back, and between two queues of a node the one that its pointer and the deficits name
(R153–R156, R158–R161, R183); the selected copy starts once its link, its credit and the unit behind its port let it, and releases its charge
(R33, R53, R57, R137, R156); it ends, and its bytes leave on the wire (R61, R160). -/
def Obligations.TransmissionCommands : Prop :=
  (∀ s p wait k c ms gms, (s.egress p).selected = none → s.portEligible p = true → (∀ j len, s.gateOversize p j len = false) →
    s.choose p (s.startPs p ((s.egress p).sending.map (fun _ => wait))) = some (k, c, ms, gms) → s.txProtected c.port = false →
    Completes (.schedDecision p wait) s (fun t => (t.egress p).selected = some c)) ∧
  (∀ s p c lead corr corrDesc secBad, (s.egress p).selected = some c → (s.egress p).sending = none → c ∈ (s.queue c.queue).copies → c.port = p →
    s.linkReady p = true → s.takerReady c = true → s.startCovered c = true → s.sealFails c secBad = none →
    Completes (.transmitStart p lead corr corrDesc none secBad) s (fun t => (t.egress p).sending = some c ∧ (t.egress p).selected = none ∧
      (t.queue c.queue).used = (s.queue c.queue).used - c.charge)) ∧
  (∀ s p c corr, (s.egress p).sending = some c → ((s.egress p).early = true → (s.frame c.frame).ended = true) →
    Completes (.transmitEnd p corr none) s (fun t => (t.egress p).sending = none ∧
      (p ≠ 32 → p ≠ 34 → p ≠ 35 → (s.egress p).lost = false → (s.egress p).sent = false → ∃ o, t.out = s.out ++ .frame p (s.wireEnd p) :: o))) ∧
  (∀ s p wait k q c ts, (s.egress p).selected = none → s.portEligible p = true → s.tabF .qsch 2 p 0 7 0 = 0 →
    (∀ j len, s.gateOversize p j len = false) → s.fabricPort p = false → p < 38 →
    ts = s.startPs p ((s.egress p).sending.map (fun _ => wait)) → k < 8 → (∀ j, k < j → j < 8 → s.heldBack p j ts) →
    s.busyQueues (8 * p + k) = [q] → (s.queue q).copies.head? = some c → c.queue = q → s.queueEligible q = true → s.txProtected c.port = false →
    s.headLen c ≤ 64 * s.tabF .qsch 0 q 0 23 16 → s.shape (8 * p + k) = 0 ∨ 0 ≤ s.nTokens (8 * p + k) → s.gateAdmits p k (s.headLen c) ts = true →
    Completes (.schedDecision p wait) s (fun t => (t.egress p).selected = some c)) ∧
  (∀ s p wait k q1 q2 c1 c2 ts, (s.egress p).selected = none → s.portEligible p = true → s.tabF .qsch 2 p 0 7 0 = 0 →
    (∀ j len, s.gateOversize p j len = false) → s.fabricPort p = false → p < 38 →
    ts = s.startPs p ((s.egress p).sending.map (fun _ => wait)) → k < 8 → (∀ j, k < j → j < 8 → s.heldBack p j ts) → q1 < q2 →
    s.busyQueues (8 * p + k) = [q1, q2] → (s.queue q1).copies.head? = some c1 → (s.queue q2).copies.head? = some c2 → c1.queue = q1 → c2.queue = q2 →
    s.queueEligible q1 = true → s.queueEligible q2 = true → s.txProtected c1.port = false → s.txProtected c2.port = false →
    s.headLen c2 ≤ 64 * s.tabF .qsch 0 q2 0 23 16 → s.shape (8 * p + k) = 0 ∨ 0 ≤ s.nTokens (8 * p + k) →
    (∀ len, s.gateAdmits p k len ts = true) → (s.svc (8 * p + k)).ptr = q1 →
    Completes (.schedDecision p wait) s (fun t => (t.egress p).selected = some (if s.headLen c1 ≤ (s.queue q1).deficit then c1 else c2))) ∧
  (∀ s p wait c, (s.egress p).selected = some c → Completes (.schedDecision p wait) s (fun t => t = s))

/-- Table windows. A word of the standby bank is stored while no error shuts the bank, and leaves CLS PENDING (R111); the state bytes of a
context take no write (R103). Words 0 to 2 of a FIB entry are staged per master, word 3 writes the whole entry and clears the staging (R108);
STAGE_CLR clears it. A word of a connection page outside the active bank is stored (R352). A clone that ends leaves the words of the bank that was
active at its start in the other bank, and says so (R114, R352). Bits that a tree node's layout gives as 0 are stored as written, the model's choice
(R5, R91; log entry 118). -/
def Obligations.TableWindowWrites : Prop :=
  (∀ s src a v, s.ownerWrites src .cls → 0x1000000 ≤ a → a < 0x1800000 → (a - 0x1000000) / 0x400000 ≠ s.activeBank → s.standbyShut .cls = none →
    Completes (.bankWrite src a v) s (fun t => t.flag .cls Hdr.COMMIT_STATUS_PENDING = true ∧ ∀ j, t.mem.win.get j =
      if a ≤ j ∧ j < a + 4 then (leBytes 4 (BitVec.ofNat 32 v &&& BitVec.ofNat 32 (treeMask a)).toNat).getD (j - a) 0 else s.mem.win.get j)) ∧
  (∀ s src a v, s.ownerWrites src .cls → 0x1A00000 ≤ a → a < 0x1C00000 → a % 256 < 64 → a % 256 / 32 ≠ s.activeBank → s.standbyShut .cls = none →
    Completes (.bankWrite src a v) s (fun t => t.flag .cls Hdr.COMMIT_STATUS_PENDING = true ∧ ∀ j, t.mem.win.get j =
      if a ≤ j ∧ j < a + 4 then (leBytes 4 (BitVec.ofNat 32 v &&& BitVec.ofNat 32 (ctxMask (a % 32 / 4))).toNat).getD (j - a) 0
      else s.mem.win.get j)) ∧
  (∀ s src a v, s.pageOn .cls = true → 0x1A00000 ≤ a → 128 ≤ a % 256 → Completes (.bankWrite src a v) s (fun t => t.mem.win = s.mem.win)) ∧
  (∀ s src a v, s.ownerWrites src .fib → a < 0x1910000 → a / 4 % 4 < 3 → Completes (.fibStageWrite src a v) s (fun t =>
    t.mem.win = s.mem.win ∧ ∀ k, t.dp.fibStage.get k = if k = 4 * src.code + a / 4 % 4 then BitVec.ofNat 32 v else s.dp.fibStage.get k)) ∧
  (∀ s src a v, s.ownerWrites src .fib → 12 ≤ a → a < 0x1910000 → a % 16 = 12 → Completes (.fibEntryApply src a v) s (fun t =>
    (∀ j, t.mem.win.get j =
      if a ≤ j ∧ j < a + 4 then (leBytes 4 (BitVec.ofNat 32 v &&& BitVec.ofNat 32 (fibMask a)).toNat).getD (j - a) 0
      else if a - 12 ≤ j ∧ j < a then (leBytes 4 (s.dp.fibStage.get (4 * src.code + (j - (a - 12)) / 4) &&&
        BitVec.ofNat 32 (fibMask (a - 12 + 4 * ((j - (a - 12)) / 4)))).toNat).getD ((j - (a - 12)) % 4) 0
      else s.mem.win.get j) ∧ ∀ w, w < 3 → t.dp.fibStage.get (4 * src.code + w) = 0)) ∧
  (∀ s src, s.ownerWrites src .fib → Completes (.stageClr src) s (fun t =>
    t.mem.win = s.mem.win ∧ ∀ k, t.dp.fibStage.get k = if 4 * src.code ≤ k ∧ k < 4 * src.code + 3 then 0 else s.dp.fibStage.get k)) ∧
  (∀ s, s.cloning .cls = true → Completes .bankCloneDone s (fun t => t.flag .cls Cls.BANK_STATUS_CLONE_BUSY = false ∧
    t.flag .cls Hdr.COMMIT_STATUS_PENDING = false ∧ t.flag .prs Hdr.COMMIT_STATUS_PENDING = false ∧ t.evt .cls 10 = true ∧
    t.status .cls = 0 ∧ t.mem.win = s.cloneWin .cls s.activeBank)) ∧
  (∀ s src a v, s.ownerWrites src .tsi → 0x1E00000 ≤ a → a < 0x1E02000 → a % 4 = 0 → (a - 0x1E00000) / 0x1000 ≠ s.bankOf .tsi → s.cloning .tsi = false →
    s.checking .tsi = false → Completes (.connPageWrite src a v) s (fun t => t.flag .tsi Tsi.TSI_STATUS_CONN_PENDING = true ∧
      ∀ j, t.mem.win.get j = if a ≤ j ∧ j < a + 4 then (connMask a (leBytes 4 v)).getD (j - a) 0 else s.mem.win.get j)) ∧
  (∀ s, s.cloning .tsi = true → Completes .tsiCloneDone s (fun t => t.flag .tsi Tsi.TSI_STATUS_CLONE_BUSY = false ∧ t.evt .tsi 8 = true ∧
    t.mem.win = s.cloneWin .tsi s.tsi.cloneOf))

/-- The small commands of BUF, TRNG and QSCH. A scrub with one bad copy repairs it with an event and a count, with none good it faults the
page (R142, R176). A millisecond of raw bits that passes both health tests, with the start-up tests passed, gives a seed that counts and shows HEALTHY; a
run of RCT_CUTOFF equal bits fails and clears HEALTHY; without a seed MSEC is told (R134, R366, R468; the bits that a seed takes are the model's
figure, log entry 126). QSTAT_PEAK reads the highest occupancy and starts again from the present one (R144; the model's choice, log entry 117);
METER_CLR marks a meter green again (R167); LOCAL_NS_LO latches the high
word (R172). -/
def Obligations.BufferAndSchedulerCommands : Prop :=
  (∀ s, s.pageOn .buf = true → Completes (.linkMemoryScrub 1) s (fun t => t.cnt .buf Buf.CNT_LINK_REPAIR = s.cnt .buf Buf.CNT_LINK_REPAIR + 1 ∧ t.evt .buf 11 = true)) ∧
  (∀ s, s.pageOn .buf = true → Completes (.linkMemoryScrub 2) s (fun t => t.st .buf = 5 ∧ t.fld .buf Hdr.STATE_FCODE = 0x20)) ∧
  (∀ s, s.pageOn .qsch = true → Completes (.qschTableScrub 1) s (fun t => t.cnt .qsch Qsch.CNT_ECC_REPAIR = s.cnt .qsch Qsch.CNT_ECC_REPAIR + 1 ∧ t.evt .qsch 8 = true)) ∧
  (∀ s, s.pageOn .qsch = true → Completes (.qschTableScrub 2) s (fun t => t.st .qsch = 5 ∧ t.fld .qsch Hdr.STATE_FCODE = 0x21)) ∧
  (∀ s bits x, s.pageOn .trng = true → bits.foldl (Trng.sample (s.fld .trng Trng.HEALTH_CFG_RCT_CUTOFF) (s.fld .trng Trng.HEALTH_CFG_APT_CUTOFF))
      (s.sec.trng, false, false) = (x, false, false) → x.seen = 1024 → seedBits ≤ bits.length →
    Completes (.rngReseed bits) s (fun t => t.cnt .trng Trng.CNT_SEEDS = s.cnt .trng Trng.CNT_SEEDS + 1 ∧
      t.flag .trng Trng.STATUS_HEALTHY = true ∧ t.cnt .trng Trng.CNT_RAW_BITS = s.cnt .trng Trng.CNT_RAW_BITS + bits.length ∧ t.sec.trng.starved = false)) ∧
  (∀ s b n, s.pageOn .trng = true → 0 < n → s.fld .trng Trng.HEALTH_CFG_RCT_CUTOFF ≤ n → Completes (.rngReseed (List.replicate n b)) s (fun t =>
    t.cnt .trng Trng.CNT_SEEDS = s.cnt .trng Trng.CNT_SEEDS ∧ t.flag .trng Trng.STATUS_HEALTHY = false ∧ t.flag .trng Trng.STATUS_RCT_FAIL = true ∧
    t.cnt .trng Trng.CNT_RCT_FAILS = s.cnt .trng Trng.CNT_RCT_FAILS + 1 ∧ t.evt .trng 8 = true ∧ (s.pageOn .msec = true → t.evt .msec 10 = true))) ∧
  (∀ s bits, s.pageOn .trng = true → bits.length < seedBits → Completes (.rngReseed bits) s (fun t =>
    t.cnt .trng Trng.CNT_SEEDS = s.cnt .trng Trng.CNT_SEEDS ∧ t.sec.trng.starved = true ∧ (s.pageOn .msec = true → t.evt .msec 10 = true))) ∧
  (∀ s q, q = s.fld .buf Buf.QSTAT_SEL_QUEUE → s.pageOn .buf = true → Completes .qstatPeakRead s (fun t =>
    t.out = s.out ++ [.readData (Page.buf.base + Buf.QSTAT_PEAK_U.off) 4 (s.queue q).peak] ∧ (t.queue q).peak = (s.queue q).used)) ∧
  (∀ s src v, s.ownerWrites src .qsch → v.testBit 31 = true → Completes (.meterClr src v) s (fun t =>
    ∀ m, t.dp.meters.get m = if m = v % 2048 then { s.dp.meters.get m with marked := false } else s.dp.meters.get m)) ∧
  (∀ s, s.pageOn .qsch = true → Completes .localNsRead s (fun t =>
    t.out = s.out ++ [.readData (Page.qsch.base + Qsch.LOCAL_NS_LO_NS.off) 4 (s.now % 2 ^ 32)] ∧
    t.fld .qsch Qsch.LOCAL_NS_HI_NS = s.now / 2 ^ 32 % 2 ^ 32))

/-- Gate lists. The first entry of a cycle counts it (R181); a word of the standby list is stored and leaves TGATEp PENDING (R188); a pending
change whose time has come takes the standby list with its event, and the last page of its plan is then ACCEPTED (R190); a clone that ends leaves
the active list's words in the standby list, and says so (R189); a bad copy of an entry is repaired, an entry of the active list with both bad is a
fault, one of the standby list is marked lost (R194). -/
def Obligations.GateListCommands : Prop :=
  (∀ s p, p < 38 → s.pageOn (.tgate p) = true → s.inRun (.tgate p) = true → (s.sched p false).en = true → s.gateCt p = none →
    ((s.sched p false).atPos ((s.sched p false).pos (s.domNs (s.gateDom p)))).2 = 0 →
    (s.gate p).cycle ≠ some ((s.sched p false).index (s.domNs (s.gateDom p))) →
    Completes (.gateEntryStart p) s (fun t => t.cnt (.tgate p) Tgate.CNT_CYCLES = s.cnt (.tgate p) Tgate.CNT_CYCLES + 1 ∧
      (t.gate p).cycle = some ((s.sched p false).index (s.domNs (s.gateDom p))))) ∧
  (∀ s src p b k w v, s.ownerWrites src (.tgate p) → b < 2 → k < 1024 → w < 2 → b ≠ s.fld (.tgate p) Tgate.LIST_STATUS_ACTIVE →
    s.cloning (.tgate p) = false → s.checking (.tgate p) = false →
    Completes (.gateListWrite src p b k w v) s (fun t => t.flag (.tgate p) Hdr.COMMIT_STATUS_PENDING = true ∧
      ∀ j, t.mem.win.get j = if gateAddr p b k + 4 * w ≤ j ∧ j < gateAddr p b k + 4 * w + 4 then
        (leBytes 4 v).getD (j - (gateAddr p b k + 4 * w)) 0 else s.mem.win.get j)) ∧
  (∀ s p ct, p < 38 → s.pageOn (.tgate p) = true → s.gateCt p = some ct → ct ≤ s.domNs (s.gateDom p) →
    Completes (.gateTakeover p) s (fun t => t.gateCt p = none ∧ t.evt (.tgate p) 8 = true ∧
      t.fld (.tgate p) Tgate.LIST_STATUS_ACTIVE = 1 - s.fld (.tgate p) Tgate.LIST_STATUS_ACTIVE ∧
      t.flag (.tgate p) Tgate.LIST_STATUS_CHANGE_PENDING = false ∧
      ∀ c, s.plan = some c → c.passed = true → c.waiting = [.tgate p] → .tgate p ∈ c.included → t.status (.tgate p) = 2)) ∧
  (∀ s p, p < 38 → s.pageOn (.tgate p) = true → s.cloning (.tgate p) = true → Completes (.gateCloneDone p) s (fun t =>
    t.flag (.tgate p) Tgate.LIST_STATUS_CLONE_BUSY = false ∧ t.evt (.tgate p) 12 = true ∧
    t.mem.win = s.cloneWin (.tgate p) (s.bankOf (.tgate p)))) ∧
  (∀ s p b k, p < 38 → s.pageOn (.tgate p) = true → Completes (.gateListScrub p b k 1) s (fun t =>
    t.cnt (.tgate p) Tgate.CNT_LIST_REPAIR = s.cnt (.tgate p) Tgate.CNT_LIST_REPAIR + 1 ∧ t.evt (.tgate p) 13 = true)) ∧
  (∀ s p k, p < 38 → s.pageOn (.tgate p) = true →
    Completes (.gateListScrub p (s.fld (.tgate p) Tgate.LIST_STATUS_ACTIVE) k 2) s (fun t => t.st (.tgate p) = 5)) ∧
  (∀ s p b k, p < 38 → s.pageOn (.tgate p) = true → b ≠ s.fld (.tgate p) Tgate.LIST_STATUS_ACTIVE → Completes (.gateListScrub p b k 2) s (fun t =>
    t.st (.tgate p) = s.st (.tgate p) ∧ (t.gate p).lost = (s.gate p).lost ++ [2 * k, 2 * k + 1]))

/-- Clocks. A rate within the limit is stored, one above it as the limit and counted; SLEW_CFG sets the limit, and no rate stays above it (R228); STEP moves a domain by DOMd_STEP_NS and SET loads it, each
counted, with an event, and at once (R229; that the request applies with its write is log entry 60); TSNAP copies the local
time and the four domains (R244); TXTS_POP drops the head of the FIFO shown (R237). -/
def Obligations.ClockCommands : Prop :=
  (∀ s src d v, s.ownerWrites src .time → s.inRun .time = true → v < 2 ^ 32 →
    (signed 32 v).natAbs ≤ slewLimit (s.fld .time Time.SLEW_CFG_MAX_PPM) →
    Completes (.adjWrite src d v) s (fun t => t.fld .time (Time.DOM_ADJ_ADJ d) = v)) ∧
  (∀ s src d v, d < 4 → s.ownerWrites src .time → s.inRun .time = true → slewLimit (s.fld .time Time.SLEW_CFG_MAX_PPM) < signed 32 v →
    Completes (.adjWrite src d v) s (fun t => t.fld .time (Time.DOM_ADJ_ADJ d) = slewLimit (s.fld .time Time.SLEW_CFG_MAX_PPM) ∧
      t.cnt .time Time.CNT_ADJ_CLAMPED = s.cnt .time Time.CNT_ADJ_CLAMPED + 1)) ∧
  (∀ s src v, s.trustedWrites src .time → Completes (.slewCfgWrite src v) s (fun t =>
    t.fld .time Time.SLEW_CFG_MAX_PPM = v % 512 ∧ t.fld .time Time.SLEW_LIMIT_LIMIT = slewLimit (v % 512) ∧
    ∀ d, d < 4 → (t.adj d).natAbs ≤ slewLimit (v % 512))) ∧
  (∀ s src d, d < 4 → s.ownerWrites src .time → s.inRun .time = true → s.flag .time (Time.DOM_CTRL_STEP d) = false →
    s.flag .time (Time.DOM_CTRL_SET d) = false → Completes (.domainStep src d) s (fun t =>
    (t.dom.get d).ns = ((s.dom.get d).ns + signed 32 (s.fld .time (Time.DOM_STEP_NS_NS d)) : Int).toNat % domSpan ∧
    t.fld .time (Time.DOM_CTRL_STEPS d) = min 65535 (s.fld .time (Time.DOM_CTRL_STEPS d) + 1) ∧ t.evt .time 8 = true)) ∧
  (∀ s src d, d < 4 → s.ownerWrites src .time → s.inRun .time = true → s.flag .time (Time.DOM_CTRL_STEP d) = false →
    s.flag .time (Time.DOM_CTRL_SET d) = false → s.fld .time (Time.DOM_SET_NS_NS d) < 10 ^ 9 → Completes (.domainSet src d) s (fun t =>
    t.dom.get d = { ns := ((s.fld .time (Time.DOM_SET_S_LO_S d) + 2 ^ 32 * s.fld .time (Time.DOM_SET_S_HI_S d)) * 10 ^ 9 +
      s.fld .time (Time.DOM_SET_NS_NS d)) % domSpan, frac := 0 } ∧
    t.fld .time (Time.DOM_CTRL_STEPS d) = min 65535 (s.fld .time (Time.DOM_CTRL_STEPS d) + 1) ∧ t.evt .time 8 = true)) ∧
  (∀ s src, s.ownerWrites src .time → Completes (.tsnap src) s (fun t =>
    t.fld .time Time.TSNAP_LOCAL_LO_NS = s.now % 2 ^ 32 ∧ t.fld .time Time.TSNAP_LOCAL_HI_NS = s.now / 2 ^ 32 % 2 ^ 32 ∧
    ∀ d, d < 4 → t.fld .time (Time.TSNAP_D_NS_NS d) = s.domNs d % 10 ^ 9 ∧
      t.fld .time (Time.TSNAP_D_S_LO_S d) = s.domNs d / 10 ^ 9 % 2 ^ 32)) ∧
  (∀ s src p, s.ownerWrites src .time → s.fld .time Time.TXTS_SEL_PORT = p → p < 32 ∨ p = 37 → Completes (.txtsPop src) s (fun t =>
    ∀ q, t.txts.get q = if q = p then (s.txts.get p).drop 1 else s.txts.get q))

/-- FAB and FRER. A fabric port that has left UP or RUN stands in no valid entry of the
indirection tables that the ROUTE entries name after its scan, with the event (R253); a write of NODE is stored, and a change has its
event (R261); FRER_SCAN notes its time, and a function that has taken no frame for RESET_MS begins anew (R267). -/
def Obligations.FabricCommands : Prop :=
  (∀ s p, p < 32 → s.pageOn .fab = true → s.fabricPort p = true → s.portUp p = false → s.flag .fab Fab.FAB_CFG_FAILOVER_EN = true →
    Completes (.failoverScan p) s (fun t => t.evt .fab 11 = true ∧
      ∀ d, d < 16 → s.fabValid 1 d = true → s.tabF .fab 1 d 1 15 15 = 1 → ∀ e, e < 512 →
        ¬((t.indirection (s.tabF .fab 1 d 1 11 8) e).testBit 15 = true ∧ t.indirection (s.tabF .fab 1 d 1 11 8) e % 64 = p))) ∧
  (∀ s src id valid, s.ownerWrites src .fab → s.fld .fab Fab.NODE_ID ≠ id % 16 ∨ s.flag .fab Fab.NODE_VALID ≠ valid →
    Completes (.nodeWrite src id valid) s (fun t => t.fld .fab Fab.NODE_ID = id % 16 ∧ t.flag .fab Fab.NODE_VALID = valid ∧ t.evt .fab 13 = true)) ∧
  (∀ s, s.pageOn .frer = true → Completes .frerScan s (fun t => t.frerScan = s.now)) ∧
  (∀ s n, s.pageOn .frer = true → n ∈ s.frer.keys → 2 ≤ s.frerMode n → (s.frerFn n).last + 1000000 * s.tabF .frer 0 n 1 15 0 ≤ s.now → (s.frerFn n).takeAny = false →
    Completes .frerScan s (fun t => t.evt .frer 10 = true ∧ (t.frerFn n).takeAny = true))

/-- Lanes and beats of the Clasp pair. A lane with lock comes UP and takes back the traffic that is its own, and a lane that falls carries none, is
counted and has its event (R278, R279); a heartbeat carries the next BEAT_SEQ in three beat blocks on every UP lane (R281, R283); the first valid
copy of one of the partner sets HB_OK, HB_SEQ_RX and HEALTH.PEER, brings its grants (R301) and drives the role table (R297), an invalid one is
counted; a closed window is marked and its digest leaves on every UP lane (R291); a digest of the partner is kept once, and compared where the
own window has closed (R292); a window that stays missing is counted, and the balance returns to 0 (R292). With the last lane port 37 leaves UP
(R279); a heartbeat with the own PAIR_ID is a sign of life alone: it is logged, and no role or health of the partner follows from it (R283; that
nothing else of it is kept is log entry 113). -/
def Obligations.PairLanesAndBeats : Prop :=
  (∀ s i, i < 2 → s.pageOn .clsp = true → s.clasp.lock.get i = true → s.laneUp i = false → Completes (.laneUp i) s (fun t =>
    t.laneUp i = true ∧ t.lst 37 = 2 ∧ (i = 0 → t.dataLane = some 0) ∧ (i = 1 → t.ctlLane = some 1))) ∧
  (∀ s i, i < 2 → s.pageOn .clsp = true → s.laneUp i = true → Completes (.laneDown i) s (fun t =>
    t.laneUp i = false ∧ (s.lanesUp = [i] → s.lst 37 = 2 → t.lst 37 = 0 ∧ t.evt (.etp 37) 9 = true) ∧ t.clasp.lock.get i = false ∧ t.dataLane ≠ some i ∧ t.ctlLane ≠ some i ∧ t.evt .clsp 14 = true ∧
    t.cnt .clsp Clsp.CNT_LANE_DOWNS = s.cnt .clsp Clsp.CNT_LANE_DOWNS + 1)) ∧
  (∀ s, s.pageOn .clsp = true → s.beating = true → s.lanesUp ≠ [] → Completes .heartbeatSend s (fun t =>
    t.fld .clsp Clsp.HB_SEQ_TX = (s.fld .clsp Clsp.HB_SEQ_TX + 1) % 65536 ∧ t.clasp.sentAt = some s.now ∧
    ∃ l : List BeatBlock, l.length = 3 ∧ t.out = s.out ++ s.lanesUp.map (fun i => .beat i l))) ∧
  (∀ s lane blocks l, s.pageOn .clsp = true → s.clspOn = true → s.laneUp lane = true → beatFramed blocks = true → l = beatPayload blocks → beatValid 1 3 l = true →
    s.clasp.heard.contains (beAt l 2 2) = false → byteAt l 1 / 128 ≠ s.fld .clsp Clsp.PAIR_CFG_PAIR_ID →
    Completes (.heartbeatReceive lane blocks) s (fun t =>
      t.flag .clsp Clsp.ROLE_STATUS_HB_OK = true ∧ t.fld .clsp Clsp.HB_SEQ_RX = beAt l 2 2 ∧
      t.fld .clsp Clsp.HEALTH_PEER = beAt l 4 2 % 4096 ∧ (∃ b, t.clasp.peer = some b ∧ b.role = byteAt l 1 % 16 ∧ b.digest = beAt l 15 4) ∧
      (s.lst 37 = 2 → (byteAt l 6).testBit 2 = false → ∀ g, g = (beAt l 7 2 + 65536 - s.dp.used.get (creditKey 37 6)) % 65536 → g ≤ 4095 →
        t.fld (.etp 37) Etp.CREDIT_STATUS_CREDIT6 = g) ∧
      (s.role = 5 → byteAt l 1 % 16 = 3 → t.role = 4))) ∧
  (∀ s lane blocks, s.pageOn .clsp = true → s.clspOn = true → s.laneUp lane = true → (beatFramed blocks && beatValid 1 3 (beatPayload blocks)) = false →
    Completes (.heartbeatReceive lane blocks) s (fun t => t.cnt .clsp Clsp.CNT_HB_BAD = s.cnt .clsp Clsp.CNT_HB_BAD + 1)) ∧
  (∀ s t0, s.pageOn .clsp = true → s.domNs (s.fld .clsp Clsp.PAIR_CFG_DIG_DOMAIN) = t0 → 5000 ≤ t0 → (∀ c, s.clasp.closed = some c → c < (t0 - 5000) / 2000) →
    s.beating = true → Completes .digestSend s (fun t => t.clasp.closed = some ((t0 - 5000) / 2000) ∧
      ∃ l o, t.out = s.out ++ s.lanesUp.map (fun i => .beat i l) ++ o)) ∧
  (∀ s lane blocks l w, s.pageOn .clsp = true → s.clspOn = true → s.laneUp lane = true → beatFramed blocks = true → l = beatPayload blocks → beatValid 2 4 l = true →
    w = s.fullWindow (beAt l 1 2) → (∀ c, s.clasp.closed = some c → c < w) → s.clasp.partner.any (fun x => x.w == w) = false →
    Completes (.digestReceive lane blocks) s (fun t => t.clasp.partner = s.clasp.partner ++
      [{ w := w, count := beAt l 3 2, sums := (List.range 8).map (fun j => beAt l (5 + 2 * j) 2) }])) ∧
  (∀ s lane blocks l w c a, s.pageOn .clsp = true → s.clspOn = true → s.laneUp lane = true → beatFramed blocks = true → l = beatPayload blocks → beatValid 2 4 l = true →
    w = s.fullWindow (beAt l 1 2) → s.clasp.closed = some c → w ≤ c → s.clasp.own = [a] → a.w = w → s.clasp.partner = [] → s.digestOff = false →
    s.clasp.skip = 0 → s.clasp.dC = 0 → s.clasp.d = List.replicate 8 0 → a.count = beAt l 3 2 →
    a.sums = (List.range 8).map (fun j => beAt l (5 + 2 * j) 2) → Completes (.digestReceive lane blocks) s (fun t =>
      t.cnt .clsp Clsp.CNT_DIGEST_MATCH = s.cnt .clsp Clsp.CNT_DIGEST_MATCH + 1 ∧ t.clasp.own = [] ∧ t.clasp.partner = [])) ∧
  (∀ s c a, s.pageOn .clsp = true → s.clasp.closed = some c → s.clasp.own = [a] → a.w ≤ c → Completes .digestWaitExpiry s (fun t =>
    t.cnt .clsp Clsp.CNT_DIGEST_MISSING = s.cnt .clsp Clsp.CNT_DIGEST_MISSING + 1 ∧ t.clasp.own = [] ∧ t.clasp.dC = 0 ∧
    t.clasp.d = List.replicate 8 0 ∧ t.clasp.run = s.clasp.run)) ∧
  (∀ s lane blocks l, s.pageOn .clsp = true → s.clspOn = true → s.laneUp lane = true → beatFramed blocks = true → l = beatPayload blocks → beatValid 1 3 l = true →
    s.clasp.heard.contains (beAt l 2 2) = false → byteAt l 1 / 128 = s.fld .clsp Clsp.PAIR_CFG_PAIR_ID → s.fld .clsp Hdr.ERR_CODE_CODE = 0 →
    Completes (.heartbeatReceive lane blocks) s (fun t => t.flag .clsp Clsp.ROLE_STATUS_HB_OK = true ∧
      t.fld .clsp Hdr.ERR_CODE_CODE = 0x21 ∧ t.role = s.role ∧ t.clasp.peer = s.clasp.peer ∧
      t.fld .clsp Clsp.HEALTH_PEER = s.fld .clsp Clsp.HEALTH_PEER))

/-- The role table of R297 under what drives it besides heartbeats: the loss of heartbeats in STANDBY, ACTIVE without TOOK and JOINING, FENCE_I
rising and falling, LISTEN_MS, and ROLE_CMD in the roles that have a row for it; TAKE outside STANDBY is refused with its code. -/
def Obligations.RoleCommands : Prop :=
  (∀ s, s.pageOn .clsp = true → s.role = 3 → s.beating = true → s.flag .clsp Clsp.ROLE_STATUS_HB_OK = true → Completes .heartbeatLoss s (fun t =>
    t.flag .clsp Clsp.ROLE_STATUS_HB_OK = false ∧ t.cnt .clsp Clsp.CNT_HB_LOST = s.cnt .clsp Clsp.CNT_HB_LOST + 1 ∧
    t.role = if s.flag .clsp Clsp.ROLE_STATUS_FENCE_IN then 6 else 4)) ∧
  (∀ s, s.pageOn .clsp = true → s.role = 4 → s.beating = true → s.flag .clsp Clsp.ROLE_STATUS_HB_OK = true → s.flag .clsp Clsp.ROLE_STATUS_TOOK = false →
    Completes .heartbeatLoss s (fun t => t.flag .clsp Clsp.ROLE_STATUS_HB_OK = false ∧
      t.role = if s.flag .clsp Clsp.ROLE_STATUS_FENCE_IN then 6 else 5)) ∧
  (∀ s, s.pageOn .clsp = true → s.role = 2 → s.beating = true → s.flag .clsp Clsp.ROLE_STATUS_HB_OK = true → Completes .heartbeatLoss s (fun t => t.role = 1)) ∧
  (∀ s, s.pageOn .clsp = true → Completes .fenceRise s (fun t => t.flag .clsp Clsp.ROLE_STATUS_FENCE_IN = true ∧ t.role = s.role)) ∧
  (∀ s, s.pageOn .clsp = true → s.flag .clsp Clsp.ROLE_STATUS_FENCE_IN = true → s.role = 6 ∨ s.role = 3 ∨ s.role = 2 → Completes .fenceFall s (fun t =>
    t.flag .clsp Clsp.ROLE_STATUS_FENCE_IN = false ∧ t.role = if s.role = 6 then 5 else if s.role = 3 then 4 else 1)) ∧
  (∀ s, s.pageOn .clsp = true → s.role = 1 → s.flag .clsp Clsp.ROLE_STATUS_FENCE_IN = true ∨ s.flag .clsp Clsp.PAIR_CFG_PREFER = true ∨ 1 ≤ s.clasp.expiries →
    Completes .listenTimeout s (fun t => t.role = if s.flag .clsp Clsp.ROLE_STATUS_FENCE_IN then 6 else 5)) ∧
  (∀ s, s.pageOn .clsp = true → s.role = 1 → s.flag .clsp Clsp.ROLE_STATUS_FENCE_IN = false → s.flag .clsp Clsp.PAIR_CFG_PREFER = false → s.clasp.expiries = 0 →
    Completes .listenTimeout s (fun t => t.role = 1 ∧ t.clasp.expiries = 1)) ∧
  (∀ s src, s.ownerWrites src .clsp → s.role ≠ 3 → s.fld .clsp Hdr.ERR_CODE_CODE = 0 → Completes (.roleCmdTake src) s (fun t =>
    t.role = s.role ∧ t.fld .clsp Hdr.ERR_CODE_CODE = 0x20)) ∧
  (∀ s src, s.ownerWrites src .clsp → s.role = 3 → Completes (.roleCmdTake src) s (fun t => t.role = 4 ∧
    t.fld .clsp Clsp.TAKEOVER_LOG_FROM = 3 ∧ t.fld .clsp Clsp.TAKEOVER_LOG_TO = 4 ∧ t.evt .clsp 8 = true)) ∧
  (∀ s src b, s.ownerWrites src .clsp → s.role = 4 → s.clasp.peer = some b → b.role = 3 → Completes (.roleCmdYield src) s (fun t =>
    t.role = 4 ∧ t.clasp.yielding = true)) ∧
  (∀ s src, s.ownerWrites src .clsp → s.role = 1 ∨ s.role = 6 → Completes (.roleCmdForce src) s (fun t => t.role = 5 ∧ t.evt .clsp 8 = true))

/-- The rest of the pair: control frames that are sent again (R284), a held copy that is discarded (R287), RELEASE (R294), and what the
health word follows (R295, R303). A kind's acknowledgement removes what it covers (R284). -/
def Obligations.PairServices : Prop :=
  (∀ s kind lane, s.pageOn .clsp = true → s.ctlLane = some lane → Completes (.controlRetransmit kind) s (fun t => t.out = s.out ++
    (s.ctlKind kind).sent.map (fun f => .control lane (s.ctlBytes kind f.seq f.last f.payload)))) ∧
  (∀ s lane l payload ecc, s.pageOn .clsp = true → s.clspOn = true → s.laneUp lane = true → s.ctlFrame l = true → byteAt l 14 / 16 = 4 →
    payload = (l.drop 20).take (beAt l 18 2) → (s.ctlKind (byteAt payload 0)).wait = [] →
    Completes (.controlFrameReceive lane l ecc) s (fun t => (t.ctlKind (byteAt payload 0)).sent =
      (s.ctlKind (byteAt payload 0)).sent.filter (fun f => decide (32768 ≤ (beAt payload 2 2 + 65536 - f.seq) % 65536)))) ∧
  (∀ s lane l kind ecc, s.pageOn .clsp = true → s.clspOn = true → s.laneUp lane = true → s.ctlFrame l = true → kind = byteAt l 14 / 16 → kind = 1 ∨ kind = 2 →
    beAt l 16 2 = (s.ctlKind kind).rxSeq →
    Completes (.controlFrameReceive lane l ecc) s (fun t => (t.ctlKind kind).rxSeq = (beAt l 16 2 + 1) % 65536)) ∧
  (∀ s q c rest, s.pageOn .clsp = true → (s.queue q).copies = c :: rest → c ∉ rest → c.queue = q → s.gated c = true → s.pairGate = false →
    (s.frame c.frame).tsLocal + ((s.fld .clsp Clsp.HOLD_CFG_HOLD_NS * 65536 : Nat) : Int) < ((s.now * 65536 : Nat) : Int) →
    Completes (.heldCopyExpiry q) s (fun t =>
      t.cnt .clsp Clsp.CNT_SHADOW_DISCARDS = s.cnt .clsp Clsp.CNT_SHADOW_DISCARDS + 1 ∧ c ∉ (t.queue q).copies)) ∧
  (∀ s src, s.ownerWrites src .clsp → Completes (.traceRelease src) s (fun t =>
    t.flag .clsp Clsp.DIV_STATUS_DIVERGED = false ∧ t.flag .clsp Clsp.TRACE_CTRL_FROZEN = false)) ∧
  (∀ s src, s.ownerWrites src .clsp → Completes (.fwWdogKick src) s (fun t => (t.fld .clsp Clsp.HEALTH_OWN).testBit 0 = false)) ∧
  (∀ s, s.pageOn .clsp = true → s.fld .clsp Clsp.FW_WDOG_LIMIT_US ≠ 0 → Completes .fwWatchdogExpiry s (fun t => (t.fld .clsp Clsp.HEALTH_OWN).testBit 0 = true)) ∧
  (∀ s i, s.pageOn .clsp = true → Completes (.selftestPass i true) s (fun t => (t.fld .clsp Clsp.SELFTEST_ISLANDS).testBit (i % 9) = true ∧
    (t.fld .clsp Clsp.HEALTH_OWN).testBit 1 = true)) ∧
  (∀ s i, Completes (.selftestPass i false) s (fun t => t = s)) ∧
  (∀ s, s.pageOn .clsp = true → Completes .eccHealthExpiry s (fun t => (t.fld .clsp Clsp.HEALTH_OWN).testBit 2 = false ∧
    ((s.fld .clsp Clsp.HEALTH_OWN).testBit 2 = true → t.evt .clsp 13 = true)))

/-- The management processors: START, GO and FENCE_REQ move them through BOOT, SPARE, RUN and FENCING (R312, R314); the comparator test ends in
RUN, SPARE or FENCED (R310), that of the TP in the boot ROM or in a stop with its code (R310, R311); a FENCING processor of which no read is outstanding becomes
FENCED, its interrupt lines redirected where it has been in RUN (R312, R313); a mismatch fences with cause 2 (R308, R312). The TP restarts after its
own mismatch, a third within 1 s trips TP_REPEAT (R311, R450), and when the restart is complete and its image verified, each request that was BUSY
is answered RESTARTED (R311). -/
def Obligations.ProcessorCommands : Prop :=
  (∀ s src m, m < 4 → s.ownerWrites src .mpc → s.mpSt m = 0 ∨ s.mpSt m = 5 → Completes (.mpStart src m) s (fun t => t.mpSt m = 1)) ∧
  (∀ s src m, m < 4 → s.ownerWrites src .mpc → s.mpSt m = 3 → Completes (.mpGo src m) s (fun t => t.mpSt m = 2)) ∧
  (∀ s src m k, m < 4 → k < 4 → k ≠ m → s.ownerWrites src .mpc → s.mpSt m = 2 → s.mpSt k = 2 → Completes (.mpFenceReq src m) s (fun t =>
    t.mpSt m = 4)) ∧
  (∀ s m, m < 4 → s.pageOn .mpc = true → s.mpSt m = 1 → Completes (.comparatorTestDone m none) s (fun t =>
    t.mpSt m = if s.flag .mpc (Mpc.MP_CTRL_SPARE m) then 3 else 2)) ∧
  (∀ s m c, m < 4 → s.pageOn .mpc = true → s.mpSt m = 1 → Completes (.comparatorTestDone m (some c)) s (fun t =>
    t.mpSt m = 5 ∧ t.fld .mpc (Mpc.MP_STATUS_CAUSE m) = 3 ∧ t.evt .mpc 8 = true)) ∧
  (∀ s, s.pageOn .tru = true → s.procs.tp = 1 → Completes (.comparatorTestDone 4 none) s (fun t => t.procs.tp = 2)) ∧
  (∀ s c, s.pageOn .tru = true → s.procs.tp = 1 → s.fld .tru Hdr.ERR_CODE_CODE = 0 → Completes (.comparatorTestDone 4 (some c)) s (fun t =>
    t.procs.tp = 4 ∧ t.fld .tru Hdr.ERR_CODE_CODE = 0x20)) ∧
  (∀ s m, m < 4 → s.pageOn .mpc = true → s.mpSt m = 4 → s.mpWaits m = false → Completes (.mpFenceDrained m) s (fun t =>
    t.mpSt m = 5 ∧ (s.procs.ran.get m = true → t.redirect m ≠ some m) ∧ t.fld .mpc (Mpc.MP_STATUS_CAUSE m) = 1 ∧ t.cnt .mpc Mpc.CNT_FENCES = s.cnt .mpc Mpc.CNT_FENCES + 1 ∧ t.evt .mpc 8 = true)) ∧
  (∀ s m ch pc, m < 4 → s.pageOn .mpc = true →  s.mpSt m = 2 ∨ s.mpSt m = 3 ∨ s.mpSt m = 4 → Completes (.lockstepMismatch m ch pc) s (fun t =>
    t.mpSt m = 5 ∧ t.fld .mpc (Mpc.MP_STATUS_CAUSE m) = 2 ∧ t.evt .mpc 9 = true)) ∧
  (∀ s ch, s.pageOn .tru = true → s.signet = true → (s.sec.mismatches.filter (fun x => decide (s.power.aonNs < x + 10 ^ 9))).length < 2 →
    Completes (.tpMismatch ch) s (fun t =>
      t.signet = false ∧ t.flag .tru Tru.TP_STATUS_RESTARTING = true ∧ t.procs.tp = 1 ∧
      t.cnt .tru Tru.CNT_TP_RESTARTS = s.cnt .tru Tru.CNT_TP_RESTARTS + 1)) ∧
  (∀ s ch, s.pageOn .tru = true → s.signet = true → 2 ≤ (s.sec.mismatches.filter (fun x => decide (s.power.aonNs < x + 10 ^ 9))).length →
    (s.fld .lck Lck.TAMPER_EN_EN).testBit 5 = true → Completes (.tpMismatch ch) s (fun t =>
      t.signet = false ∧ t.procs.tp = 4 ∧ (t.fld .lck Lck.TAMPER_LATCH_TRIP).testBit 5 = true)) ∧
  (∀ s corr, s.pageOn .tru = true → s.restarting = true → s.procs.tp = 2 → s.signetSound = true → s.sec.onRestart = none → s.procs.rung = [] →
    Completes (.tpRestartDone corr) s (fun t => t.signet = true ∧ t.restarting = false ∧ t.procs.tp = 3 ∧
      ∀ k, k < 5 → s.mbxSt k = 1 → t.answered k 4 []))

/-- Doorbells, rings and the fence of the processors' memory: MPC.FENCE completes with the writer's buffer drained (R315); a doorbell at the own
slot, which Signet serves and which is not BUSY, has the request copied and taken, or answered BAD_CMD (R319, R320); a TAIL is stored once the
writer's buffer is drained (R315, R316); a transmit descriptor that asks for a frame gives a frame with its bytes, in BUF's store while BUF runs,
one with a fault is counted, and HEAD moves on (R317). A page TRU that drains or has drained takes no request: the doorbell waits (R31; log
entry 112). -/
def Obligations.ProcessorRings : Prop :=
  (∀ s src, s.ownerWrites src .mpc → Completes (.mpcFence src) s (fun t => t = s.drainFor src)) ∧
  (∀ s (m : Fin 4) corr, s.ownerWrites (.mp m) .mpc → s.signet = true → s.mailOpen = true → s.mbxSt (m.val + 1) ≠ 1 → Completes (.mbxRing (.mp m) corr) s (fun t =>
    t.procs.mbx.get (m.val + 1) = (s.drainFor (.mp m)).mbxBytes (m.val + 1) 0 128 ∧
    (mbxKnown true (t.mbxCmd (m.val + 1)) = true → t.mbxSt (m.val + 1) = 1) ∧
    (mbxKnown true (t.mbxCmd (m.val + 1)) = false → t.answered (m.val + 1) 1 []) ∧
    t.cnt .tru Tru.CNT_MBX_REQUESTS = s.cnt .tru Tru.CNT_MBX_REQUESTS + 1)) ∧
  (∀ s src r v, r < 16 → v < 4096 → s.ownerWrites src .mpc → Completes (.mringTail src r v) s (fun t =>
    t.fld .mpc (Mpc.MRING_TAIL_TAIL r) = v ∧ t.mem.msram = (s.drainFor src).mem.msram)) ∧
  (∀ s r w0 w1 corr, r < 8 → s.pageOn .mpc = true → s.mringReady r = true → w0 = s.mword (s.mringDesc r) 0 → w1 = s.mword (s.mringDesc r) 1 →
    s.mtxCause w0 w1 false = 0 → Completes (.mgmtTxFrame r false corr) s (fun t =>
      t.fld .mpc (Mpc.MRING_HEAD_HEAD r) = (s.fld .mpc (Mpc.MRING_HEAD_HEAD r) + 1) % s.mringSize r ∧
      t.cnt .mpc Mpc.CNT_TX_FRAMES = s.cnt .mpc Mpc.CNT_TX_FRAMES + 1 ∧
      (w1.testBit 17 = false → s.inRun .buf = true → t.dp.windows = s.dp.windows ++ [s.dp.nextFrame] ∧
        (t.frame s.dp.nextFrame).bytes = s.mem.msram.bytes (bitsOf w0 23 0) (bitsOf w1 13 0)))) ∧
  (∀ s r w0 w1 ecc corr, r < 8 → s.pageOn .mpc = true → s.mringReady r = true → w0 = s.mword (s.mringDesc r) 0 → w1 = s.mword (s.mringDesc r) 1 →
    s.mtxCause w0 w1 ecc ≠ 0 → Completes (.mgmtTxFrame r ecc corr) s (fun t =>
      t.fld .mpc (Mpc.MRING_HEAD_HEAD r) = (s.fld .mpc (Mpc.MRING_HEAD_HEAD r) + 1) % s.mringSize r ∧
      t.cnt .mpc Mpc.CNT_TX_DESC_ERR = s.cnt .mpc Mpc.CNT_TX_DESC_ERR + 1)) ∧
  (∀ s (m : Fin 4) corr, s.ownerWrites (.mp m) .mpc → s.mbxSt (m.val + 1) ≠ 1 → s.mailOpen = false → Completes (.mbxRing (.mp m) corr) s (fun t =>
    m.val + 1 ∈ t.procs.rung ∧ t.mbxSt (m.val + 1) = s.mbxSt (m.val + 1) ∧
    t.cnt .tru Tru.CNT_MBX_REQUESTS = s.cnt .tru Tru.CNT_MBX_REQUESTS))

/-- The key commands of MACsec are answered OK with what R368 gives: a handle, which no other CKN holds, with ICK and KEK derived from a CAK; an ICV
under ICK; a fresh SAK in a free slot, wrapped under KEK; an unwrapped SAK in a free slot; a slot zeroed. The ciphers are those of their standards
(log entry 13), and which free handle is next is the model's choice (log entry 127). -/
def Obligations.MacsecKeyCommands : Prop :=
  (∀ s slot a r n h, s.serving slot 0xC01 → slot ≠ 0 → s.keysShut = false → a = s.mbxArg slot → n = byteAt a 4 → s.keyRec (leAt a 0 4) = some r →
    r.usage = 0 → n ≠ 0 → n ≤ 32 → n + 5 ≤ a.length →
    freeHandle (s.sec.handles.filter (fun y => y.ckn != (a.drop 5).take n)) s.sec.nextHandle = some h → Completes (.mkaKeys slot) s (fun t =>
      t.answered slot 0 (leBytes 2 h) ∧ (∀ m ∈ t.sec.handles, m.handle = h → m.ckn = (a.drop 5).take n) ∧
      ∃ m ∈ t.sec.handles, m.handle = h ∧ m.ckn = (a.drop 5).take n ∧
        (∀ l ctx, l = ([0x49, 0x45, 0x45, 0x45, 0x38, 0x30, 0x32, 0x31, 0x20] : List Byte) → ctx = ((a.drop 5).take n ++ List.replicate 16 0).take 16 →
          m.ick = kdf8021x r.key (l ++ [0x49, 0x43, 0x4B]) ctx r.key.length ∧ m.kek = kdf8021x r.key (l ++ [0x4B, 0x45, 0x4B]) ctx r.key.length))) ∧
  (∀ s slot a m, s.serving slot 0xC02 → slot ≠ 0 → s.keysShut = false → a = s.mbxArg slot → s.mka (leAt a 0 2) = some m →
    0 < leAt a 6 2 → leAt a 6 2 ≤ 1500 → leAt a 2 4 + leAt a 6 2 ≤ msramSize → Completes (.mkaIcv slot) s (fun t =>
      t.answered slot 0 (aesCmac m.ick (s.mem.msram.bytes (leAt a 2 4) (leAt a 6 2))))) ∧
  (∀ s slot a m i, s.serving slot 0xC03 → slot ≠ 0 → s.keysShut = false → a = s.mbxArg slot → s.mka (leAt a 0 2) = some m → byteAt a 2 ≤ 3 →
    s.freeSlot = some i → Completes (.sakNew slot) s (fun t => (t.slot i).loaded = true ∧ (t.slot i).bind = 1 ∧
      t.answered slot 0 (leBytes 2 i ++ keyWrap m.kek (t.slot i).key))) ∧
  (∀ s slot a m n i sak, s.serving slot 0xC04 → slot ≠ 0 → s.keysShut = false → a = s.mbxArg slot → s.mka (leAt a 0 2) = some m →
    byteAt a 2 ≤ 3 → n = (if byteAt a 2 % 2 = 1 then 40 else 24) → n + 3 ≤ a.length → keyUnwrap m.kek ((a.drop 3).take n) = some sak →
    s.freeSlot = some i → Completes (.sakInstall slot) s (fun t => (t.slot i).key = sak ∧ (t.slot i).bind = 1 ∧ t.answered slot 0 (leBytes 2 i))) ∧
  (∀ s slot i, s.serving slot 0xC05 → slot ≠ 0 → s.keysShut = false → i = leAt (s.mbxArg slot) 0 2 → i < 1024 → (s.slot i).bind ≠ 2 →
    s.saNames i = false → Completes (.slotFree slot) s (fun t => (t.slot i).loaded = false ∧ (t.slot i).bind = 0 ∧ t.answered slot 0 []))

/-- The key store's commands are answered OK with what R368 and R447 give: a key of usage 1 bound to a cipher page, or unbound; a key stored
plain or wrapped, or deleted; a fresh nonce of 12 bytes (R452). -/
def Obligations.KeyStoreCommands : Prop :=
  (∀ s slot a r i, s.serving slot 0xC10 → s.keysShut = false → a = s.mbxArg slot → byteAt a 0 < 64 → s.slotOwnsCip slot (byteAt a 0) = true →
    s.flag (.cip (byteAt a 0)) Cip.KEY_BIND_BOUND = false → s.keyRec (leAt a 1 4) = some r → r.usage = 1 → s.freeSlot = some i →
    Completes (.cupBind slot) s (fun t => (t.slot i).loaded = true ∧ (t.slot i).key = r.key ∧ (t.slot i).page = byteAt a 0 ∧
      t.answered slot 0 (leBytes 2 i))) ∧
  (∀ s slot a, s.serving slot 0xC11 → s.keysShut = false → a = s.mbxArg slot → byteAt a 0 < 64 → s.slotOwnsCip slot (byteAt a 0) = true →
    Completes (.cupUnbind slot) s (fun t => t.answered slot 0 [] ∧
      (s.flag (.cip (byteAt a 0)) Cip.KEY_BIND_BOUND = true → t.slot (s.fld (.cip (byteAt a 0)) Cip.KEY_BIND_SLOT) = {}))) ∧
  (∀ s slot a, s.serving slot 0xE10 → s.mayUpdate slot → s.keysShut = false → s.lc = 2 → s.epoch ≠ 32 →
    a = s.mbxArg slot → byteAt a 4 ≤ 2 → byteAt a 5 = 0 → a.length = 24 → s.sec.keys.length < 2048 → Completes (.keyPut slot) s (fun t =>
      t.answered slot 0 [] ∧ t.keyRec (leAt a 0 4) = some { id := leAt a 0 4, usage := byteAt a 4, key := a.drop 8 })) ∧
  (∀ s slot a w k, s.serving slot 0xE11 → s.mayUpdate slot → s.keysShut = false → s.lc = 3 → s.epoch ≠ 32 →
    a = s.mbxArg slot → byteAt a 4 ≤ 2 → byteAt a 5 = 0 → 36 ≤ a.length → s.sec.keys.length < 2048 → s.keyRec (leAt a 8 4) = some w →
    w.usage = 2 → keyUnwrap w.key ((a.drop 12).take 24) = some k → Completes (.keyPutWrapped slot) s (fun t =>
      t.answered slot 0 [] ∧ t.keyRec (leAt a 0 4) = some { id := leAt a 0 4, usage := byteAt a 4, key := k })) ∧
  (∀ s slot a r, s.serving slot 0xE12 → s.mayUpdate slot → s.keysShut = false → s.lc = 2 ∨ s.lc = 3 →
    a = s.mbxArg slot → s.keyRec (leAt a 0 4) = some r → s.sec.bound.any (fun b => b.2 == leAt a 0 4 && (s.slot b.1).loaded) = false →
    Completes (.keyDelete slot) s (fun t => t.answered slot 0 [] ∧ t.keyRec (leAt a 0 4) = none)) ∧
  (∀ s slot, s.serving slot 0xE01 → s.mayUpdate slot → Completes (.lcChallenge slot) s (fun t =>
    ∃ l, l.length = 12 ∧ t.sec.nonce = some l ∧ t.answered slot 0 l))

/-- Images are delivered and activated as R460 and R461 say: a slot is chosen and emptied, blocks are programmed, an image that passes is verified
with its event; staged, it is locked in the other code region, its slot is TRIAL and TRIAL_S runs; the TP restarts into its SIGNET, and the request
is answered when that is done; committed, it is ACTIVE, the former ACTIVE slot is FALLBACK, SEC_VERSION is raised and the old region released;
abandoned, its slot is EMPTY and the staged region released, where the new SIGNET runs once the restart into the ACTIVE image's SIGNET is done. A
TRIAL slot that stands after a reset is committed and abandoned alike. While SEQ of the boot header is not at its end (the header's layout: log
entry 127). -/
def Obligations.ImageCommands : Prop :=
  (∀ s slot k, s.serving slot 0xD01 → s.mayUpdate slot → leAt (s.mbxArg slot) 0 4 ≤ 0xF00000 →
    [0, 1].find? (fun k => s.bootHdr.slot k != 1 && s.bootHdr.slot k != 2) = some k → s.bootHdr.seq + 1 < 2 ^ 32 → Completes (.imgBegin slot) s (fun t =>
      t.answered slot 0 [BitVec.ofNat 8 k] ∧ t.bootHdr.slot k = 0 ∧ t.bootHdr.slot (1 - k) = s.bootHdr.slot (1 - k) ∧ t.sec.img = some { slot := k, length := leAt (s.mbxArg slot) 0 4 })) ∧
  (∀ s slot d a l, s.serving slot 0xD02 → s.mayUpdate slot → s.sec.img = some d → s.sec.staged = none → a = s.mbxArg slot →
    blockRanges a d.length = true → l = s.blockBytes a → crc32c 0xFFFFFFFF l = leAt a 8 4 → Completes (.imgBlock slot false) s (fun t =>
      t.answered slot 0 [] ∧ (∀ j, t.mem.flash.get j = if imgBase d.slot + leAt a 0 4 ≤ j ∧ j < imgBase d.slot + leAt a 0 4 + l.length then
        l.getD (j - (imgBase d.slot + leAt a 0 4)) 0 else s.mem.flash.get j) ∧
      t.cnt .lck Lck.CNT_IMG_BLOCKS = s.cnt .lck Lck.CNT_IMG_BLOCKS + 1)) ∧
  (∀ s slot d, s.serving slot 0xD03 → s.mayUpdate slot → s.sec.recovery = false → s.sec.img = some d → s.sec.staged = none →
    s.verifyReason d = none → Completes (.imgVerify slot) s (fun t => t.sec.img = some { d with verified := true } ∧ t.evt .lck 10 = true ∧
      t.answered slot 0 (s.imgBytes d.slot 8 4 ++ s.imgBytes d.slot 12 4 ++ s.imgBytes d.slot 16 1 ++ s.imgBytes d.slot 18 4))) ∧
  (∀ s slot d r, s.serving slot 0xD03 → s.mayUpdate slot → s.sec.img = some d → s.sec.staged = none →
    s.verifyReason d = some r → Completes (.imgVerify slot) s (fun t => t.sec = s.sec ∧ t.answered slot 2 [BitVec.ofNat 8 r])) ∧
  (∀ s slot d, s.serving slot 0xD04 → s.mayUpdate slot → s.sec.img = some d → d.verified = true → d.slot < 2 →
    s.sec.staged = none → s.bootHdr.seq + 1 < 2 ^ 32 → Completes (.imgStage slot) s (fun t => t.sec.staged = some d.slot ∧ t.bootHdr.slot d.slot = 2 ∧
      t.sec.trialAt = some s.power.aonNs ∧ t.flag .lck (Lck.CODE_LOCK_LOCKED (1 - s.sec.region)) = true ∧
      t.answered slot 0 (leBytes 4 (s.imgEntry d.slot (1 - s.sec.region))))) ∧
  (∀ s slot k, s.serving slot 0xD05 → s.mayUpdate slot → s.sec.staged = some k → s.sec.signetNew = false → Completes (.imgSignet slot) s (fun t =>
    t.sec.signetNew = true ∧ t.restarting = true ∧ t.signet = false ∧ t.procs.tp = 1 ∧ t.sec.onRestart = some (slot, false) ∧ t.mbxSt slot = 1 ∧
    t.mem.tsram.bytes (signetPlace (s.compBytes k 0).length) (s.compBytes k 0).length = s.compBytes k 0)) ∧
  (∀ s slot corr, slot < 5 → s.pageOn .tru = true → s.restarting = true → s.procs.tp = 2 → s.signetSound = true → s.sec.onRestart = some (slot, false) →
    s.procs.rung = [] → Completes (.tpRestartDone corr) s (fun t => t.signet = true ∧ t.sec.onRestart = none ∧ t.answered slot 0 [])) ∧
  (∀ s slot k, s.serving slot 0xD06 → s.mayUpdate slot → s.sec.staged = some k → k < 2 → s.sec.signetNew = true → s.bootHdr.seq + 1 < 2 ^ 32 → Completes (.imgCommit slot) s (fun t =>
    t.sec.staged = none ∧ t.sec.region = 1 - s.sec.region ∧ t.bootHdr.slot k = 1 ∧ (s.bootHdr.slot (1 - k) = 1 → t.bootHdr.slot (1 - k) = 3) ∧ min 64 (s.img k 16 1) ≤ t.secVersion ∧
    (s.sec.region < 2 → t.flag .lck (Lck.CODE_LOCK_LOCKED s.sec.region) = false) ∧ t.answered slot 0 [])) ∧
  (∀ s slot k, s.serving slot 0xD07 → s.mayUpdate slot → s.sec.staged = some k → s.sec.signetNew = false → s.bootHdr.seq + 1 < 2 ^ 32 → Completes (.imgAbandon slot) s (fun t =>
    t.sec.staged = none ∧ t.bootHdr.slot k = 0 ∧ t.flag .lck (Lck.CODE_LOCK_LOCKED (1 - s.sec.region)) = false ∧ t.answered slot 0 [])) ∧
  (∀ s slot k a, s.serving slot 0xD07 → s.mayUpdate slot → s.sec.staged = some k → s.sec.signetNew = true → s.slotIn 1 = some a →
    Completes (.imgAbandon slot) s (fun t => t.restarting = true ∧ t.procs.tp = 1 ∧ t.sec.runSlot = a ∧ t.sec.onRestart = some (slot, true))) ∧
  (∀ s slot d, s.serving slot 0xD07 → s.mayUpdate slot → s.sec.staged = none → s.sec.img = some d → s.bootHdr.seq + 1 < 2 ^ 32 → Completes (.imgAbandon slot) s (fun t =>
    t.sec.img = none ∧ t.bootHdr.slot d.slot = 0 ∧ t.answered slot 0 [])) ∧
  (∀ s slot k corr, slot < 5 → s.pageOn .tru = true → s.restarting = true → s.procs.tp = 2 → s.signetSound = true →
    s.sec.onRestart = some (slot, true) → s.sec.staged = some k → s.procs.rung = [] → s.bootHdr.seq + 1 < 2 ^ 32 → Completes (.tpRestartDone corr) s (fun t =>
      t.signet = true ∧ t.sec.onRestart = none ∧ t.sec.staged = none ∧ t.bootHdr.slot k = 0 ∧
      t.flag .lck (Lck.CODE_LOCK_LOCKED (1 - s.sec.region)) = false ∧ t.answered slot 0 [])) ∧
  (∀ s slot k, s.serving slot 0xD07 → s.mayUpdate slot → s.sec.staged = none → s.sec.img = none → s.slotIn 2 = some k → s.sec.runSlot ≠ k → s.bootHdr.seq + 1 < 2 ^ 32 → 
    Completes (.imgAbandon slot) s (fun t => t.bootHdr.slot k = 0 ∧ t.answered slot 0 [])) ∧
  (∀ s slot k, s.serving slot 0xD06 → s.mayUpdate slot → s.sec.staged = none → s.fld .lck Lck.BOOT_STATUS_SLOT = k → k < 2 →
    s.bootHdr.slot k = 2 → s.bootHdr.seq + 1 < 2 ^ 32 → Completes (.imgCommit slot) s (fun t => t.bootHdr.slot k = 1 ∧
      (s.bootHdr.slot (1 - k) = 1 → t.bootHdr.slot (1 - k) = 3) ∧ min 64 (s.img k 16 1) ≤ t.secVersion ∧ t.evt .lck 12 = true ∧ t.answered slot 0 []))

/-- Configuration records and the ageing history: a record is delivered, activated, read and sealed (R463–R466), the history is saved with its
hours and loaded, but for the bytes of a locked code region (R459, R485). Blank slots rank lowest, and the answers are those of log entries 6 and 68. -/
def Obligations.RecordCommands : Prop :=
  (∀ s slot, s.serving slot 0xD10 → s.mayUpdate slot → leAt (s.mbxArg slot) 0 4 ≤ 0x800000 → Completes (.recBegin slot) s (fun t =>
    t.answered slot 0 [BitVec.ofNat 8 s.recTarget] ∧ t.sec.recDel = some { slot := s.recTarget, length := leAt (s.mbxArg slot) 0 4 })) ∧
  (∀ s slot d a l, s.serving slot 0xD11 → s.mayUpdate slot → s.sec.recDel = some d → a = s.mbxArg slot →
    blockRanges a d.length = true → l = s.blockBytes a → crc32c 0xFFFFFFFF l = leAt a 8 4 → Completes (.recBlock slot false) s (fun t =>
      t.answered slot 0 [] ∧ t.cnt .lck Lck.CNT_IMG_BLOCKS = s.cnt .lck Lck.CNT_IMG_BLOCKS ∧ ∀ j, t.mem.flash.get j = if recBase d.slot + leAt a 0 4 ≤ j ∧ j < recBase d.slot + leAt a 0 4 + l.length then
        l.getD (j - (recBase d.slot + leAt a 0 4)) 0 else s.mem.flash.get j)) ∧
  (∀ s slot d, s.serving slot 0xD12 → s.mayUpdate slot → s.sec.recDel = some d → d.complete = true → s.recReason d.slot = none →
    128 + s.recNum d.slot 16 4 ≤ d.length →
    (∀ i, i < 4 → i ≠ d.slot → s.recReason i = none → s.recNum i 8 4 < s.recNum d.slot 8 4) → Completes (.recActivate slot) s (fun t =>
      t.answered slot 0 [] ∧ t.sec.recSlot = some d.slot ∧ t.sec.recDel = none)) ∧
  (∀ s slot a j, s.serving slot 0xD13 → s.mayUpdate slot → s.sec.recSlot = some j → a = s.mbxArg slot →
    4096 + leAt a 0 4 + leAt a 4 4 ≤ s.recNum j 16 4 → byteAt a 8 = 2 → leAt a 12 4 + leAt a 4 4 ≤ 0x1FFF00 →
    Completes (.recRead slot) s (fun t => t.answered slot 0 [] ∧
      t.mem.scratch.bytes (leAt a 12 4) (leAt a 4 4) = s.recBytes j (128 + 4096 + leAt a 0 4) (leAt a 4 4))) ∧
  (∀ s slot a j, s.serving slot 0xD14 → s.mayUpdate slot → s.sec.recSlot = some j → a = s.mbxArg slot → 4096 + leAt a 8 4 ≤ 0x800000 - 128 →
    spaceFits (byteAt a 0) (leAt a 4 4) (leAt a 8 4) = true → Completes (.recSeal slot) s (fun t =>
      t.answered slot 0 [] ∧ t.sec.recSlot = some s.recTarget ∧ t.recNum s.recTarget 0 4 = 0x4B565243 ∧
      t.recNum s.recTarget 6 1 = 1 ∧ t.recBytes s.recTarget (128 + 4096) (leAt a 8 4) =
        (if byteAt a 0 = 1 then s.mem.msram else s.mem.scratch).bytes (leAt a 4 4) (leAt a 8 4) ∧
      t.recNum s.recTarget 8 4 = (s.topSeq + 1) % 2 ^ 32)) ∧
  (∀ s slot a c, s.serving slot 0xE20 → s.mayUpdate slot → a = s.mbxArg slot → leAt a 4 4 % 16 = 0 → leAt a 4 4 ≤ 65536 →
    leAt a 0 4 + leAt a 4 4 ≤ msramSize → c = (if s.ageRank 0 ≤ s.ageRank 1 then 0 else 1) → Completes (.ageSave slot) s (fun t =>
      t.answered slot 0 [] ∧ t.ageNum c 0 = 0x4B564147 ∧ t.ageNum c 12 = leAt a 4 4 / 16 ∧
      t.ageNum c 8 = (s.power.ageHours + s.aonS / 3600) % 2 ^ 32 ∧
      t.mem.flash.bytes (ageBase c + 32) (leAt a 4 4) = s.mem.msram.bytes (leAt a 0 4) (leAt a 4 4))) ∧
  (∀ s slot a c, s.serving slot 0xE21 → s.mayUpdate slot → a = s.mbxArg slot → c = (if s.ageRank 0 ≤ s.ageRank 1 then 1 else 0) →
    s.ageRank c ≠ 0 → leAt a 0 4 + 32 + 16 * s.ageNum c 12 ≤ 0xBFF000 → Completes (.ageLoad slot) s (fun t =>
      t.answered slot 0 [] ∧ ∀ j, j < 0xBFF000 → t.mem.msram.get j =
        if leAt a 0 4 ≤ j ∧ j < leAt a 0 4 + 32 + 16 * s.ageNum c 12 ∧ s.codeLocked j = false then s.mem.flash.get (ageBase c + (j - leAt a 0 4))
        else s.mem.msram.get j))

/-- CAN channels: a valid frame that is received lowers REC (R335) and is wrapped and presented at port 34 (R326); a frame that meets the wake
pattern ends PN_LISTEN, one that does not is ignored (R335, R336); at an arbitration start expired messages are discarded and a message with the
lowest arbitration field is sent, and it leaves (R332); errors raise the counters, but for the two exceptions of the transmitter, and take the
channel to PASSIVE and BUS_OFF (R325, R335). By how much a counter moves is read from the standard (log entry 16). -/
def Obligations.CanTraffic : Prop :=
  (∀ s n f dlc ago, n < 64 → s.pageOn (.can n) = true → s.canOnBus n = true → s.canHears n ago = true → s.st (.can n) = 1 ∨ s.st (.can n) = 2 → s.rec' n ≤ 127 →
    Completes (.canFrameReceived n f dlc ago) s (fun t => t.rec' n = s.rec' n - 1)) ∧
  (∀ s n f dlc ago, n < 64 → s.pageOn (.can n) = true → s.canOnBus n = true → s.canHears n ago = true → s.st (.can n) = 1 ∨ s.st (.can n) = 2 → s.rec' n ≤ 127 →
    s.flag (.can n) Can.GW_CFG_RX_EN = true → (s.cans.get n).rxq = [] → s.verifier n f = none → s.inRun .buf = true → f.xl = false →
    f.data.length ≤ 64 → 200 ≤ s.fld (.etp 34) Etp.MAX_LEN_LEN → Completes (.canFrameReceived n f dlc ago) s (fun t =>
      t.cnt (.can n) Can.CNT_RX_FRAMES = s.cnt (.can n) Can.CNT_RX_FRAMES + 1 ∧ (t.cans.get n).rxq = [] ∧
      (t.cans.get n).seq = ((s.cans.get n).seq + 1) % 256 ∧ t.dp.windows = s.dp.windows ++ [s.dp.nextFrame] ∧
      (t.frame s.dp.nextFrame).ingress = 34)) ∧
  (∀ s n f dlc ago, n < 64 → s.pageOn (.can n) = true → s.canHears n ago = true → s.cst n = 6 → f.fdf = false → f.xl = false → s.pnMatch n f dlc = true →
    Completes (.canFrameReceived n f dlc ago) s (fun t => t.cst n = (if 127 < s.tec n ∨ 127 < s.rec' n then 3 else 2) ∧
      t.fld (.can n) Can.LASTERR_WAKE_CAUSE = 1 ∧ t.evt (.can n) 11 = true)) ∧
  (∀ s n f dlc ago, n < 64 → s.pageOn (.can n) = true → s.canHears n ago = true → s.cst n = 6 → f.fdf = false → f.xl = false → s.pnMatch n f dlc = false →
    Completes (.canFrameReceived n f dlc ago) s (fun t => t.cst n = 6 ∧ t.fec n = s.fec n - 1 ∧
      t.cnt (.can n) Can.CNT_PN_IGNORED = s.cnt (.can n) Can.CNT_PN_IGNORED + 1)) ∧
  (∀ s n x, n < 64 → s.pageOn (.can n) = true → s.canOnBus n = true → s.st (.can n) = 1 ∨ s.st (.can n) = 2 → s.flag (.can n) Can.MODE_LISTEN_ONLY = false →
    s.fld (.can n) Can.TX_TTL_MS = 0 → (s.cans.get n).inTx = none → canWinner (s.cans.get n).txq = some x →
    Completes (.canArbitrationStart n) s (fun t =>
      (t.cans.get n).inTx = some x ∧ (t.cans.get n).txq = dropFirst (fun y => y == x) (s.cans.get n).txq)) ∧
  (∀ s n, n < 64 → s.pageOn (.can n) = true → s.canOnBus n = true → s.st (.can n) = 1 ∨ s.st (.can n) = 2 → s.flag (.can n) Can.MODE_LISTEN_ONLY = false →
    s.fld (.can n) Can.TX_TTL_MS ≠ 0 → (s.cans.get n).inTx = none → (s.cans.get n).txq ≠ [] →
    (∀ x ∈ (s.cans.get n).txq, s.fld (.can n) Can.TX_TTL_MS * 10 ^ 6 < s.now - x.at') → Completes (.canArbitrationStart n) s (fun t =>
      (t.cans.get n).inTx = none ∧ (t.cans.get n).txq = [] ∧ t.evt (.can n) 13 = true ∧
      t.cnt (.can n) Can.CNT_TX_EXPIRED = s.cnt (.can n) Can.CNT_TX_EXPIRED + (s.cans.get n).txq.length)) ∧
  (∀ s n x, n < 64 → s.pageOn (.can n) = true → (s.cans.get n).inTx = some x → Completes (.canTxDone n) s (fun t => (t.cans.get n).inTx = none ∧
    t.cnt (.can n) Can.CNT_TX_FRAMES = s.cnt (.can n) Can.CNT_TX_FRAMES + 1 ∧ t.tec n = s.tec n - 1 ∧
    ∃ f, f.id = x.frame.id ∧ s.out ++ [.canFrame n f] <+: t.out)) ∧
  (∀ s n lec big ago, n < 64 → s.pageOn (.can n) = true → lec < 8 → s.canHears n ago = true ∨ s.st (.can n) = 2 → s.canOnBus n = true → s.tec n ≤ 255 → big = true ∨ (lec ≠ 1 ∧ (lec = 3 → s.cst n ≠ 3)) →
    Completes (.canError n lec true big ago) s (fun t =>
      t.tec n = s.tec n + 8 ∧ t.cnt (.can n) Can.CNT_RX_ERRORS = s.cnt (.can n) Can.CNT_RX_ERRORS + 1 ∧
      (s.cst n = 2 → 119 < s.tec n → s.tec n ≤ 247 → t.cst n = 3) ∧
      (247 < s.tec n → t.cst n = 4 ∧ (t.cans.get n).boHold = true ∧ t.evt (.can n) 8 = true))) ∧
  (∀ s n lec ago, n < 64 → s.pageOn (.can n) = true → s.canHears n ago = true ∨ s.st (.can n) = 2 → s.canOnBus n = true → lec = 1 ∨ lec = 3 ∧ s.cst n = 3 → Completes (.canError n lec true false ago) s (fun t =>
    t.tec n = s.tec n ∧ t.cnt (.can n) Can.CNT_RX_ERRORS = s.cnt (.can n) Can.CNT_RX_ERRORS + 1)) ∧
  (∀ s n lec big ago, n < 64 → s.pageOn (.can n) = true → lec < 8 → s.canHears n ago = true → s.canOnBus n = true → s.rec' n ≤ 247 → Completes (.canError n lec false big ago) s (fun t =>
    t.rec' n = s.rec' n + if big then 8 else 1))

/-- The states of a CAN channel outside its traffic: BO_HOLD, RECOVER, integration and recovery, SLEEP_REQ, WAKE_REQ and the entry of PN_LISTEN,
with its ball high (R324, R335); and its jobs of authentication: a received frame whose CMAC agrees passes and its freshness value is the last one,
a message is signed and queued, a job that has timed out drops its frame and is logged (R333, R334). -/
def Obligations.CanStates : Prop :=
  (∀ s n, n < 64 → s.pageOn (.can n) = true → s.cst n = 4 → (s.cans.get n).boHold = true → Completes (.boHoldExpiry n) s (fun t => (t.cans.get n).boHold = false ∧
    t.cst n = if s.flag (.can n) Can.MODE_BO_AUTO then 5 else 4)) ∧
  (∀ s src n, n < 64 → s.ownerWrites src (.can n) → s.cst n = 4 → Completes (.canRecover src n) s (fun t => t.cst n = 5)) ∧
  (∀ s n, n < 64 → s.pageOn (.can n) = true → s.cst n = 1 → Completes (.canIntegrated n) s (fun t => t.cst n = 2)) ∧
  (∀ s n, n < 64 → s.pageOn (.can n) = true → s.cst n = 5 → Completes (.canRecovered n) s (fun t => t.cst n = 2 ∧ t.tec n = 0 ∧ t.rec' n = 0 ∧ t.evt (.can n) 9 = true)) ∧
  (∀ s src n, n < 64 → s.ownerWrites src (.can n) → s.cst n ≠ 0 → s.cst n ≠ 6 → Completes (.pnSleepReq src n) s (fun t =>
    (t.cans.get n).sleepPend = true ∧ t.cst n = s.cst n)) ∧
  (∀ s src n, n < 64 → s.ownerWrites src (.can n) → s.cst n = 6 → Completes (.pnWakeReq src n) s (fun t =>
    t.cst n = (if 127 < s.tec n ∨ 127 < s.rec' n then 3 else 2) ∧ t.fld (.can n) Can.LASTERR_WAKE_CAUSE = 3)) ∧
  (∀ s src n, n < 64 → s.ownerWrites src (.can n) → s.cst n ≠ 6 → Completes (.pnWakeReq src n) s (fun t =>
    (t.cans.get n).sleepPend = false ∧ t.cst n = s.cst n)) ∧
  (∀ s n, n < 64 → s.pageOn (.can n) = true → s.canOnBus n = true → (s.cans.get n).sleepPend = true → Completes (.pnListenEnter n) s (fun t =>
    t.cst n = 6 ∧ (t.cans.get n).held = [] ∧ (t.cans.get n).sleepPend = false ∧ .canMode n true ∈ t.out ∧
    t.cnt (.can n) Can.CNT_PN_DISCARDS = s.cnt (.can n) Can.CNT_PN_DISCARDS + (s.cans.get n).held.length)) ∧
  (∀ s n r k c cup i, n < 64 → s.pageOn (.can n) = true → (s.cans.get n).rxq = [r] → r.job = some (k, c) → c < 2 ^ 64 → k < 8 → cup = s.fld (.can n) (Can.AUTH_CFG_CUP k) →
    s.inRun (.cip cup) = true → s.flag (.cip cup) Cip.KEY_BIND_BOUND = true → i = s.fld (.cip cup) Cip.KEY_BIND_SLOT → (s.slot i).bind = 2 →
    (s.slot i).page = cup → (s.slot i).cmac < 2 ^ 48 →
    (aesCmac (s.slot i).key (s.authInput n r.frame (r.frame.data.take (s.authData n k)) c)).take (s.authMac n k) =
      r.frame.data.drop (s.authData n k + s.authFv n k) →
    Completes (.cmacJobDone n false) s (fun t => t.cnt (.can n) Can.CNT_AUTH_PASS = s.cnt (.can n) Can.CNT_AUTH_PASS + 1 ∧
      t.authLast n k = c ∧ (t.slot i).cmac = (s.slot i).cmac + 1 ∧ (t.cans.get n).rxq = [])) ∧
  (∀ s n j rest cup i v l, n < 64 → s.pageOn (.can n) = true → (s.cans.get n).signq = j :: rest → cup = s.fld (.can n) (Can.AUTH_CFG_CUP j.entry) →
    s.inRun (.cip cup) = true → s.flag (.cip cup) Cip.KEY_BIND_BOUND = true → i = s.fld (.cip cup) Cip.KEY_BIND_SLOT → (s.slot i).bind = 2 →
    (s.slot i).page = cup → (s.slot i).cmac < 2 ^ 48 → v = s.authFv n j.entry →
    l = j.frame.data ++ beBytes v (j.fresh % 2 ^ (8 * v)) ++
      (aesCmac (s.slot i).key (s.authInput n j.frame j.frame.data j.fresh)).take (s.authMac n j.entry) →
    (s.cans.get n).held.length < 32 → (s.cans.get n).bytes + l.length ≤ 4096 → Completes (.cmacJobDone n true) s (fun t =>
      t.cnt (.can n) Can.CNT_AUTH_SIGNED = s.cnt (.can n) Can.CNT_AUTH_SIGNED + 1 ∧ (t.cans.get n).signq = rest ∧
      (t.cans.get n).txq = (s.cans.get n).txq ++ [⟨{ j.frame with data := l }, s.now⟩])) ∧
  (∀ s n r j, n < 64 → s.pageOn (.can n) = true → (s.cans.get n).rxq = [r] → r.job = some j → Completes (.cmacJobTimeout n false) s (fun t =>
    t.cnt (.can n) Can.CNT_AUTH_FAIL = s.cnt (.can n) Can.CNT_AUTH_FAIL + 1 ∧ t.evt (.can n) 12 = true ∧ (t.cans.get n).rxq = [] ∧
    (s.fld (.can n) Hdr.ERR_CODE_CODE = 0 → t.fld (.can n) Hdr.ERR_CODE_CODE = 0x20))) ∧
  (∀ s n j rest, n < 64 → s.pageOn (.can n) = true → (s.cans.get n).signq = j :: rest → Completes (.cmacJobTimeout n true) s (fun t =>
    t.cnt (.can n) Can.CNT_TX_DROPS = s.cnt (.can n) Can.CNT_TX_DROPS + 1 ∧ (t.cans.get n).signq = rest ∧
    (s.fld (.can n) Hdr.ERR_CODE_CODE = 0 → t.fld (.can n) Hdr.ERR_CODE_CODE = 0x20)))

/-- LIN channels: the schedule of a commander, with its go-to-sleep frame and its restart; the header a responder answers and those it rejects; a
response that is sent with its checksum, wrapped and presented, wrong or missing; sleep and wake (R326, R337–R339). A copy that port 34 takes is checked, and its
CAN message queued at the channel it is for (R330–R332). -/
def Obligations.LinCommands : Prop :=
  (∀ s n k len i, n < 16 → s.pageOn (.lin n) = true → s.linOn n = true → s.linCommander n = true → (s.lins.get n).restart = false → (s.lins.get n).sleepReq = false →
    len = min 64 (s.fld (.lin n) Lin.SCHED_CFG_SCHED_LEN) → len ≠ 0 → k = (s.lins.get n).next % len → i = s.fld (.lin n) (Lin.SCHED_ID k) →
    s.fld (.lin n) (Lin.ID_DIR i) ≠ 1 ∨ s.linLoaded n i = true → Completes (.linScheduleSlot n) s (fun t =>
      t.fld (.lin n) Lin.STATUS_ENTRY = k ∧ (t.lins.get n).next = (k + 1) % len ∧ s.out ++ [.linHeader n i] <+: t.out)) ∧
  (∀ s n, n < 16 → s.pageOn (.lin n) = true → s.linOn n = true → s.linCommander n = true → (s.lins.get n).restart = false → (s.lins.get n).sleepReq = true →
    Completes (.linScheduleSlot n) s (fun t => t.linLst n = 2 ∧ t.evt (.lin n) 11 = true ∧
      s.out ++ [.linHeader n 60, .linResponse n 60 (0 :: List.replicate 7 0xFF) (s.linChecksum n 60 (0 :: List.replicate 7 0xFF))] <+: t.out)) ∧
  (∀ s n i rate, n < 16 → s.pageOn (.lin n) = true → s.linOn n = true → s.linCommander n = false → 85 * s.fld (.lin n) Lin.MODE_BAUD ≤ 100 * rate →
    100 * rate ≤ 115 * s.fld (.lin n) Lin.MODE_BAUD → s.fld (.lin n) (Lin.ID_DIR i) = 1 → s.linLoaded n i = true →
    Completes (.linHeaderReceived n i rate true) s (fun t =>
      t.out = s.out ++ [.linResponse n i (s.linData n i) (s.linChecksum n i (s.linData n i))] ∧ (t.lins.get n).hdr = some (i, true))) ∧
  (∀ s n i rate, n < 16 → s.pageOn (.lin n) = true → s.linOn n = true → s.linCommander n = false → Completes (.linHeaderReceived n i rate false) s (fun t =>
    t.cnt (.lin n) Lin.CNT_FRAMING = s.cnt (.lin n) Lin.CNT_FRAMING + 1 ∧ t.evt (.lin n) 12 = true)) ∧
  (∀ s n i data check ago, n < 16 → s.pageOn (.lin n) = true → (s.lins.get n).hdr = some (i, true) → Completes (.linResponseReceived n data check 0 ago) s (fun t =>
    t.cnt (.lin n) Lin.CNT_TX_FRAMES = s.cnt (.lin n) Lin.CNT_TX_FRAMES + 1 ∧ (t.lins.get n).hdr = none)) ∧
  (∀ s n i data ago, n < 16 → s.pageOn (.lin n) = true → (s.lins.get n).hdr = some (i, false) → s.fld (.lin n) (Lin.ID_DIR i) = 2 →
    data.length = s.fld (.lin n) (Lin.ID_LEN i) → s.flag (.lin n) Lin.GW_CFG_RX_EN = true → s.inRun .buf = true →
    200 ≤ s.fld (.etp 34) Etp.MAX_LEN_LEN → Completes (.linResponseReceived n data (s.linChecksum n i data) 0 ago) s (fun t =>
      t.cnt (.lin n) Lin.CNT_RX_FRAMES = s.cnt (.lin n) Lin.CNT_RX_FRAMES + 1 ∧ (t.lins.get n).hdr = none ∧
      t.dp.windows = s.dp.windows ++ [s.dp.nextFrame] ∧ (t.frame s.dp.nextFrame).ingress = 34)) ∧
  (∀ s n i data check ago, n < 16 → s.pageOn (.lin n) = true → (s.lins.get n).hdr = some (i, false) → check ≠ s.linChecksum n i data →
    Completes (.linResponseReceived n data check 0 ago) s (fun t =>
    t.cnt (.lin n) Lin.CNT_CHECKSUM = s.cnt (.lin n) Lin.CNT_CHECKSUM + 1 ∧ t.evt (.lin n) 9 = true ∧ (t.lins.get n).hdr = none)) ∧
  (∀ s n i, n < 16 → s.pageOn (.lin n) = true → (s.lins.get n).hdr = some (i, false) → Completes (.linNoResponse n) s (fun t =>
    t.cnt (.lin n) Lin.CNT_NO_RESPONSE = s.cnt (.lin n) Lin.CNT_NO_RESPONSE + 1 ∧ (t.lins.get n).hdr = none ∧ t.evt (.lin n) 8 = true)) ∧
  (∀ s src n, n < 16 → s.ownerWrites src (.lin n) → s.linLst n = 1 → s.linCommander n = true → Completes (.linSleepReq src n) s (fun t =>
    (t.lins.get n).sleepReq = true)) ∧
  (∀ s src n, n < 16 → s.ownerWrites src (.lin n) → s.linLst n = 2 → Completes (.linWakeReq src n) s (fun t =>
    t.linLst n = 1 ∧ t.out = s.out ++ [.linWake n] ∧ (t.lins.get n).restart = s.linCommander n)) ∧
  (∀ s n, n < 16 → s.pageOn (.lin n) = true → s.linOn n = true → s.linCommander n = false → Completes (.linGoToSleepReceived n) s (fun t => t.linLst n = 2 ∧ t.evt (.lin n) 11 = true)) ∧
  (∀ s n, n < 16 → s.pageOn (.lin n) = true → s.linOn n = true → s.linCommander n = false → Completes (.linIdleTimeout n) s (fun t => t.linLst n = 2 ∧ t.evt (.lin n) 11 = true)) ∧
  (∀ s n, n < 16 → s.pageOn (.lin n) = true → s.linLst n = 2 → Completes (.linDominantWake n) s (fun t => t.linLst n = 1 ∧ t.evt (.lin n) 10 = true)) ∧
  (∀ s n, n < 16 → s.pageOn (.lin n) = true → (s.lins.get n).restart = true → Completes (.linScheduleRestart n) s (fun t =>
    (t.lins.get n).restart = false ∧ (t.lins.get n).next = 0)) ∧
  (∀ s l rest, s.pageOn (.can 0) = true → s.dp.busIn = l :: rest → Completes .busEgressFrame s (fun t => t.dp.busIn = rest ∧
    (s.busMessages (dropFcs l) = none → t.cnt (.can 0) Can.CNT_EG_FRAME_DROPS = s.cnt (.can 0) Can.CNT_EG_FRAME_DROPS + 1))) ∧
  (∀ s l rest x m n f, s.pageOn (.can 0) = true → s.dp.busIn = l :: rest → x = dropFcs l → s.busMessages x = some [m] → beAt x m 2 / 512 = 1 →
    s.egChannels ((List.range 64).map Page.can) (byteAt x (m + 3) % 32) (beAt x 6 6) = [.can n] →
    canOf false false (acfLen (s.fld (.can 0) Can.GW_XL_TYPE_TYPE) x m) x m = (f, true) → s.inRun (.can n) = true → s.cst n ≠ 6 →
    s.flag (.can n) Can.MODE_LISTEN_ONLY = false → (f.fdf = true → s.fld (.can n) Can.MODE_PROTO ≠ 0) → canLenOk f.fdf f.data.length = true →
    s.signer n f = none → (s.cans.get n).held.length < 32 → (s.cans.get n).bytes + f.data.length ≤ 4096 →
    Completes .busEgressFrame s (fun t => t.dp.busIn = rest ∧ (t.cans.get n).txq = (s.cans.get n).txq ++ [⟨f, s.now⟩])) ∧
  (∀ s n i mine data check ago, n < 16 → s.pageOn (.lin n) = true → (s.lins.get n).hdr = some (i, mine) → Completes (.linResponseReceived n data check 1 ago) s (fun t =>
    t.cnt (.lin n) Lin.CNT_FRAMING = s.cnt (.lin n) Lin.CNT_FRAMING + 1 ∧ t.evt (.lin n) 12 = true ∧ (t.lins.get n).hdr = none)) ∧
  (∀ s n i data check ago, n < 16 → s.pageOn (.lin n) = true → (s.lins.get n).hdr = some (i, true) → Completes (.linResponseReceived n data check 2 ago) s (fun t =>
    t.cnt (.lin n) Lin.CNT_BIT_ERR = s.cnt (.lin n) Lin.CNT_BIT_ERR + 1 ∧ (t.lins.get n).hdr = none))

/-- TDM links: the framer's search, its loss of alignment and its timer (R346, R347), loss of signal (R348), the second that is kept and the one
that is ten seconds old and counts (R349). The device frame: its number and one output for the 16 links (R351), a frame repeated where LAG is
small (R350; in whole frames, log entry 124), the swap of the connection pages (R352), a group that starts or grows and an underrun in the
frame that ends (R353, R355). A copy of port 35 that is no AAF frame is
counted, and the samples of one that fits its stream join the playout store (R354, R355). -/
def Obligations.TdmCommands : Prop :=
  (∀ s n pos k frame, n < 16 → pos < 256 → s.pageOn (.tdm n) = true → s.inRun (.tdm n) = true → (s.link n).los = false → s.fst n = 0 → byteAt frame 0 % 128 = 0x1B →
    (s.link n).excl = none → Completes (.slot0Received n pos k frame) s (fun t => t.fst n = 1 ∧ t.fld (.tdm n) Tdm.STATUS_CAND = pos)) ∧
  (∀ s n pos k frame, n < 16 → s.pageOn (.tdm n) = true → s.inRun (.tdm n) = true → (s.link n).los = false → s.fst n = 1 →
    Completes (.slot0Received n pos k frame) s (fun t => t.fst n = if (byteAt frame 0).testBit 6 then 2 else 0)) ∧
  (∀ s n pos k frame, n < 16 → s.pageOn (.tdm n) = true → s.inRun (.tdm n) = true → (s.link n).los = false → s.fst n = 2 →
    Completes (.slot0Received n pos k frame) s (fun t => t.fst n =
      if byteAt frame 0 % 128 = 0x1B then (if s.crc4En n then 3 else 4) else 0)) ∧
  (∀ s n pos k frame, n < 16 → s.pageOn (.tdm n) = true → s.inRun (.tdm n) = true → (s.link n).los = false → s.fst n = 4 → (s.link n).fas = true → (s.link n).fasRun = 2 →
    byteAt frame 0 % 128 ≠ 0x1B → Completes (.slot0Received n pos k frame) s (fun t => t.fst n = 0 ∧
      t.cnt (.tdm n) tdmFasErr = s.cnt (.tdm n) tdmFasErr + 1 ∧ t.cnt (.tdm n) tdmLofEntries = s.cnt (.tdm n) tdmLofEntries + 1 ∧
      ((t.link n).ais = false → t.flag (.tdm n) Tdm.STATUS_LOF = true))) ∧
  (∀ s n, n < 16 → s.pageOn (.tdm n) = true → s.fst n = 3 → Completes (.mfSearchTimeout n) s (fun t => t.fst n = 0 ∧ t.evt (.tdm n) 13 = true ∧
    (t.link n).excl = some (s.fld (.tdm n) Tdm.STATUS_CAND) ∧
    t.cnt (.tdm n) tdmFalseAlign = s.cnt (.tdm n) tdmFalseAlign + 1)) ∧
  (∀ s n pin zeros, n < 16 → s.pageOn (.tdm n) = true → pin = true ∨ s.fld (.tdm n) Tdm.LINK_CFG_LOS_N ≤ zeros →
    Completes (.losRise n pin zeros) s (fun t => t.fst n = 0 ∧ t.flag (.tdm n) Tdm.STATUS_LOS = true)) ∧
  (∀ s n ones, n < 16 → s.pageOn (.tdm n) = true → s.fld (.tdm n) Tdm.LINK_CFG_LOS_N ≤ 8 * ones →
    Completes (.losClear n false ones) s (fun t => t.fst n = s.fst n ∧ t.flag (.tdm n) Tdm.STATUS_LOS = false)) ∧
  (∀ s bits b1 b2, s.islandCond 12 = 2 → (∀ p ∈ s.applying, p.ok = true) → Completes (.deviceFrameStart bits b1 b2) s (fun t =>
    t.frameCount = (s.frameCount + 1) % 2 ^ 32 ∧ (∃ m, m.length = 16 ∧ .tdm m ∈ t.out) ∧
    (.tsi ∈ s.applying → s.flag .tsi Tsi.TSI_STATUS_CONN_PENDING = true →
      t.fld .tsi Tsi.TSI_STATUS_ACTIVE = 1 - s.fld .tsi Tsi.TSI_STATUS_ACTIVE ∧ t.flag .tsi Tsi.TSI_STATUS_CONN_PENDING = false) ∧
    (∀ n lag, n < 16 → s.inRun (.tdm n) = true → s.fst n = 4 → .tdm n ∉ s.applying → lag = s.fld (.tdm n) Tdm.SLIP_STATUS_LAG + bits.getD n 256 →
      lag < 384 → t.cnt (.tdm n) tdmSlipRep = s.cnt (.tdm n) tdmSlipRep + 1 ∧ t.fld (.tdm n) Tdm.SLIP_STATUS_LAG = lag - 256 + 256) ∧
    (∀ i, i < 32 → s.inRun .tsi = true → .tsi ∉ s.applying → s.strEn 0 i = true → (s.frameCount + 1) % 2 ^ 32 % s.strFpp 0 i = 0 →
      (t.tsi.txs.get i).group = some []) ∧
    (∀ i g, i < 32 → (s.tsi.txs.get i).group = some g → g.length + 1 < s.strFpp 0 i → .tsi ∉ s.applying →
      s.strEn 0 i = false ∨ (s.frameCount + 1) % 2 ^ 32 % s.strFpp 0 i ≠ 0 →
      ∃ set, set.length = s.strCh 0 i ∧ (t.tsi.txs.get i).group = some (g ++ [set])) ∧
    (∀ i, i < 32 → s.inRun .tsi = true → s.strEn 1 i = true → (s.tsi.rxs.get i).play.any (fun x => x.1 == s.frameCount) = false →
      t.cntTab .tsi 9 i 3 = s.cntTab .tsi 9 i 3 + 1))) ∧
  (∀ s n, n < 16 → s.st (.tdm n) ≠ 4 → s.pageOn (.tdm n) = true → (s.link n).secs.length < 10 → Completes (.performanceSecond n) s (fun t =>
    (t.link n).blocks = 0 ∧ (t.link n).fasErrs = 0 ∧ (t.link n).secs = (s.link n).secs ++
      [((s.link n).defect || decide (0 < if s.crc4En n then (s.link n).blocks else (s.link n).fasErrs),
        (s.link n).defect || (s.crc4En n && decide (300 ≤ (s.link n).blocks)), if s.crc4En n then (s.link n).blocks else 0)])) ∧
  (∀ s n b rest, n < 16 → s.st (.tdm n) ≠ 4 → s.pageOn (.tdm n) = true → (s.link n).secs = (true, false, b) :: rest → rest.length = 9 →
    s.flag (.tdm n) Tdm.STATUS_UAS = false → Completes (.performanceSecond n) s (fun t =>
      t.cnt (.tdm n) tdmEs = s.cnt (.tdm n) tdmEs + 1 ∧ t.cnt (.tdm n) tdmBbe = s.cnt (.tdm n) tdmBbe + b ∧ (t.link n).secs.length = 10)) ∧
  (∀ s l rest, s.pageOn .tsi = true → s.dp.tdmIn = l :: rest → Completes .tdmEgressFrame s (fun t => t.dp.tdmIn = rest ∧
    (beAt (dropFcs l) (s.etypeAt (dropFcs l)) 2 ≠ 0x22F0 → t.cnt .tsi Tsi.CNT_NOT_AAF = s.cnt .tsi Tsi.CNT_NOT_AAF + 1))) ∧
  (∀ s l rest x h i w target, s.pageOn .tsi = true → s.dp.tdmIn = l :: rest → x = dropFcs l → beAt x (s.etypeAt x) 2 = 0x22F0 → h = s.etypeAt x + 2 → byteAt x h = 2 →
    (List.range 32).find? (fun i => s.strEn 1 i && s.strId 1 i == beAt x (h + 4) 8) = some i → 128 ≤ byteAt x (h + 1) → w = s.aafHeader 1 i 0 →
    (x.drop (h + 16)).take 1 = (w.drop 16).take 1 → beAt x (h + 17) 2 / 4096 = 1 → beAt x (h + 17) 2 % 1024 = s.strCh 1 i →
    byteAt x (h + 19) = byteAt w 19 → beAt x (h + 20) 2 = s.strLen 1 i → h + 24 + s.strLen 1 i ≤ x.length →
    target = s.playTarget i ((byteAt x (h + 1)).testBit 0) (beAt x (h + 12) 4) → (s.frameCount : Int) ≤ target → target ≤ (s.frameCount : Int) + 63 →
    Completes .tdmEgressFrame s (fun t => t.dp.tdmIn = rest ∧ t.cntTab .tsi 9 i 0 = s.cntTab .tsi 9 i 0 + 1 ∧ ∀ k, k < s.strFpp 1 i →
      ((target.toNat + k) % 2 ^ 32, sampleOctets (s.strCoding 1 i) (s.strCh 1 i)
        (x.drop (h + 24 + k * (s.strCh 1 i * (if s.strCoding 1 i then 2 else 1))))) ∈ (t.tsi.rxs.get i).play))

/-- The cipher engine and the key store. A job joins its page's queue, or is refused as QUEUE_FULL (R376, R381); it runs to the result that R377 to
R381 give it, its output in the destination, which a decryption that fails leaves zero-filled, and its completion is taken (R380, R385). A key is
loaded with its salt and its binding, or zeroed (R367, R382); slots are masked anew and keep their keys (R365); what a bound slot has counted since
it was read is added to its key's counts, which are sealed (R369, R446; the layout of the store is log entry 127); without a seed MSEC and every
cipher page fault (R366). Points of the engine that the rules leave are those of log entry 55. -/
def Obligations.CipherCommands : Prop :=
  (∀ s src n, n < 64 → s.ownerWrites src (.cip n) → s.inRun (.cip n) = true → (s.cip n).jobs.length < 8 → (s.cip n).done.length < 8 →
    Completes (.jobGo src n) s (fun t => ∃ j, (t.cip n).jobs = (s.cip n).jobs ++ [j] ∧ j.op = s.fld (.cip n) Cip.JOB_W0_OP ∧
      j.len = s.fld (.cip n) Cip.JOB_LEN_DATA_LEN ∧ j.tag = s.fld (.cip n) Cip.JOB_W0_TAG)) ∧
  (∀ s src n, n < 64 → s.ownerWrites src (.cip n) → s.inRun (.cip n) = true → 8 ≤ (s.cip n).jobs.length ∨ 8 ≤ (s.cip n).done.length →
    s.fld (.cip n) Hdr.ERR_CODE_CODE = 0 → Completes (.jobGo src n) s (fun t => (t.cip n).jobs = (s.cip n).jobs ∧
      t.fld (.cip n) Hdr.ERR_CODE_CODE = 0x20)) ∧
  (∀ s n img corr j rest i l iv o, n < 64 → (s.cip n).jobs = j :: rest → s.st (.cip n) = 1 ∨ s.st (.cip n) = 2 → s.cipFull n = false →
    s.cipRangeBad n j = false → s.cipSlot n = some i →
    (s.slot i).bind = 2 → (s.slot i).page = n → (s.slot i).gcm < 2 ^ 32 → (s.slot i).cmac < 2 ^ 48 → s.hostUp = true →
    spaceEnds j.srcSpace j.src j.srcLen = false → spaceEnds j.dstSpace j.dst j.dstLen = false →
    l = ((s.hostImage img).spaceMem j.srcSpace).bytes j.src j.srcLen →
    iv = (if j.gcm ∧ j.ivGen then leBytes 4 (s.fld (.cip n) Cip.IV_FIXED_FIXED) ++ beBytes 8 (s.slot i).gcm else j.iv.take 12) →
    o = j.output (s.slot i).key iv l → Completes (.cipherJobDone n img none false corr) s (fun t => (t.cip n).jobs = rest ∧
      t.cnt (.cip n) Cip.CNT_JOBS = s.cnt (.cip n) Cip.CNT_JOBS + 1 ∧
      (t.cip n).done = (s.cip n).done ++ [⟨j.tag, if o.2 then 0 else 1, false, iv⟩] ∧ t.slot i = (s.slot i).counted j ∧
      (j.dstSpace = 2 → o.2 = true → t.mem.scratch.bytes j.dst o.1.length = o.1) ∧
      (j.dstSpace = 2 → o.2 = false → j.op = 1 → t.mem.scratch.bytes j.dst j.dstLen = List.replicate j.dstLen 0))) ∧
  (∀ s n img bad z corr j rest, n < 64 → (s.cip n).jobs = j :: rest → s.st (.cip n) = 1 ∨ s.st (.cip n) = 2 → s.cipFull n = false →
    s.cipRangeBad n j = true → Completes (.cipherJobDone n img bad z corr) s (fun t => (t.cip n).jobs = rest ∧
      (t.cip n).done = (s.cip n).done ++ [⟨j.tag, 3, false, []⟩])) ∧
  (∀ s src n, n < 64 → s.ownerWrites src (.cip n) → Completes (.donePop src n) s (fun t =>
    (t.cip n).done = (s.cip n).done.drop 1 ∧ (t.cip n).jobs = (s.cip n).jobs)) ∧
  (∀ s src i, s.trustedWrites src .msec → i = s.fld .msec Msec.KEY_SEL_SLOT → Completes (.keyLoad src) s (fun t => (t.slot i).loaded = true ∧
    (t.slot i).key = (List.range (if s.flag .msec Msec.KEY_CTRL_AES256 then 8 else 4)).flatMap (fun k => leBytes 4 (s.fld .msec (Msec.KEY_W_KEY k))) ∧
    (t.slot i).salt = (List.range 3).flatMap (fun k => leBytes 4 (s.fld .msec (Msec.SALT_W_SALT k))) ∧
    (t.slot i).bind = s.fld .msec Msec.KEY_CTRL_BIND ∧ (t.slot i).page = s.fld .msec Msec.KEY_CTRL_PAGE ∧
    ∀ k, k < 8 → t.word .msec (Msec.KEY_W_KEY k).off = 0)) ∧
  (∀ s src i, s.trustedWrites src .msec → i = s.fld .msec Msec.KEY_SEL_SLOT → Completes (.keyZero src) s (fun t =>
    t.slot i = {} ∧ ∀ k, k < 8 → t.word .msec (Msec.KEY_W_KEY k).off = 0)) ∧
  (∀ s, s.islandCond 7 = 2 → Completes .slotRemask s (fun t => (∀ i, (t.slot i).key = (s.slot i).key ∧ (t.slot i).bind = (s.slot i).bind ∧
    (t.slot i).loaded = (s.slot i).loaded) ∧
    ∀ i ∈ s.slots.keys, ∃ f, s.frees ≤ f ∧ (t.slot i).share = ((List.range 32).map (Config.freeByte f)).take (s.slot i).key.length)) ∧
  (∀ s, s.sec.trng.starved = true → Completes .rngSeedTimeout s (fun t => t.st .msec = 5 ∧ ∀ n, n < 64 → t.st (.cip n) = 5)) ∧
  (∀ s, s.signet = true → s.sec.bound ≠ [] → s.epoch < 32 → s.sec.keys.length ≤ 2048 → s.sealRank 0 < 2 ^ 32 → s.sealRank 1 < 2 ^ 32 →
    Completes .keyCountSync s (fun t =>
      (∃ c, t.openCopy = some c ∧ t.sealNum c 2 = s.epoch ∧ ∀ (i : Nat) (r : KeyRec), t.sec.keys[i]? = some r → r.id < 2 ^ 32 → r.usage < 256 → r.key.length ≤ 32 →
        r.gcm < 2 ^ 64 → r.cmac < 2 ^ 64 → (t.sealKeys c)[i]? = some r) ∧
      ∀ (b : Nat × Nat) (r : KeyRec), s.sec.bound = [b] → (s.slot b.1).loaded = true → r ∈ s.sec.keys → r.id = b.2 →
        { r with gcm := r.gcm + ((s.slot b.1).gcm - (s.sec.copies.get b.1).gcm)
                 cmac := r.cmac + ((s.slot b.1).cmac - (s.sec.copies.get b.1).cmac) } ∈ t.sec.keys))

/-- The host's port. The data link comes up no faster than MAX_SPEED (R414); its loss is counted, stops every ring, halts the DMA channels that
work in host memory, ends the host's open requests and resets the configuration space (R391). A Function Level Reset, a hot reset and PERST#
are reset levels of the host interface, recorded in RST_CAUSE, that a broader level in force absorbs (R391, R504, R505). A configuration request
is answered with Retry Status until CFG_READY, which is set at the latest at 900 ms, with IDENT 0 and CFG_LATE (R388). A poisoned write is
discarded and logged, a request the device does not support is answered so, both shown in the AER status (R392), and a vector whose mask is
cleared sends the message that pends (R390). What a configuration write sets, Max_Payload and Max_Read_Request, No Snoop and the power state, is
held (R387); where its bits stand is presumed from the standard (log entries 14 and 57). PERST# that falls while a reset is held is held too
(R505; the model's reading, log entry 12). -/
def Obligations.HostPortCommands : Prop :=
  (∀ s speed width, s.pageOn .pcie = true → s.flag .pcie Pcie.LINK_CFG_LINK_EN = true → s.flag .pcie Pcie.LINK_STATUS_DL_UP = false →
    speed < 8 → width < 8 → Completes (.pcieLinkUp speed width) s (fun t =>
      t.flag .pcie Pcie.LINK_STATUS_DL_UP = true ∧ t.evt .pcie 8 = true ∧ t.fld .pcie Pcie.LINK_STATUS_WIDTH = width ∧
      t.fld .pcie Pcie.LINK_STATUS_SPEED =
        if 1 ≤ s.fld .pcie Pcie.LINK_CFG_MAX_SPEED then min speed (s.fld .pcie Pcie.LINK_CFG_MAX_SPEED) else speed)) ∧
  (∀ s, s.flag .pcie Pcie.LINK_STATUS_DL_UP = true → Completes .pcieLinkDown s (fun t => t.hostStopped s ∧
    t.flag .pcie Pcie.LINK_STATUS_DL_UP = false ∧ t.evt .pcie 9 = true ∧
    t.cnt .pcie Pcie.CNT_LINK_DOWNS = s.cnt .pcie Pcie.CNT_LINK_DOWNS + 1)) ∧
  (∀ s, s.pageOn .pcie = true → Completes .flr s (fun t => t.hostStopped s ∧ t.flag .pcie Pcie.LINK_STATUS_DL_UP = false ∧
    t.cnt .pcie Pcie.CNT_FLRS = s.cnt .pcie Pcie.CNT_FLRS + 1 ∧ t.evt .pcie 10 = true ∧
    t.fld .sys Sys.RST_CAUSE_LEVEL = 4 ∧ t.fld .sys Sys.RST_CAUSE_SOURCE = 8)) ∧
  (∀ s, s.pageOn .pcie = true → Completes .hotReset s (fun t => t.hostStopped s ∧ t.flag .pcie Pcie.LINK_STATUS_DL_UP = false ∧
    t.fld .sys Sys.RST_CAUSE_LEVEL = 4 ∧ t.fld .sys Sys.RST_CAUSE_SOURCE = 7)) ∧
  (∀ s, s.resetHeld = false → s.rst.perst = false → CompletesAlways .perst s (fun t => t.rst.perst = true ∧ t.flag .pcie Pcie.LINK_STATUS_DL_UP = false ∧ t.bridge.hostOpen = [] ∧
    t.pcie = {} ∧ t.st .ring = 0 ∧ t.st .dma = 0 ∧ t.st .brg = 0 ∧ (∀ tx r, r < 64 → t.ringEn tx r = false) ∧
    (∀ c, c < 32 → t.chSt c = 0) ∧ t.fld .sys Sys.RST_CAUSE_LEVEL = 4 ∧ t.fld .sys Sys.RST_CAUSE_SOURCE = 6)) ∧
  (∀ s c, s.resetHeld = true ∨ s.rst.perst = true → c = .flr ∨ c = .hotReset → CompletesAlways c s (fun t => t = s)) ∧
  (∀ s, s.resetHeld = true → CompletesAlways .perst s (fun t => t = { s with rst := { s.rst with perst := true } })) ∧
  (∀ s r v, s.pageOn .pcie = true → s.flag .pcie Pcie.LINK_CFG_CFG_READY = false → Completes (.configRequest r v) s (fun t => t = s.emit .configRetry)) ∧
  (∀ s, s.pageOn .pcie = true → s.flag .pcie Pcie.LINK_CFG_CFG_READY = true → Completes (.configRequest .vendorDevice none) s (fun t =>
    t = s.emit (.configData (s.pciVid + 0x2560 * 2 ^ 16)))) ∧
  (∀ s v, s.pageOn .pcie = true → s.flag .pcie Pcie.LINK_CFG_CFG_READY = true → Completes (.configRequest .command (some v)) s (fun t =>
    t.flag .pcie Pcie.LINK_STATUS_BME = v.testBit 2 ∧ (s.flag .pcie Pcie.LINK_STATUS_BME = true → v.testBit 2 = false → t.evt .pcie 11 = true))) ∧
  (∀ s, s.pageOn .pcie = true → s.flag .pcie Pcie.LINK_CFG_CFG_READY = false → Completes .cfgReadyTimeout s (fun t => t.flag .pcie Pcie.LINK_CFG_CFG_READY = true ∧
    t.flag .pcie Pcie.LINK_STATUS_CFG_LATE = true ∧ t.word .pcie Pcie.IDENT_SUBSYS_VID.off = 0)) ∧
  (∀ s a, s.pageOn .pcie = true → s.fld .pcie Hdr.ERR_CODE_CODE = 0 → Completes (.hostPoisonedWrite a) s (fun t => t.fld .pcie Hdr.ERR_CODE_CODE = 3 ∧
    t.pcie.aer.testBit 12 = true ∧ t.cnt .pcie Pcie.CNT_POISONED_RX = s.cnt .pcie Pcie.CNT_POISONED_RX + 1 ∧ t.mem = s.mem)) ∧
  (∀ s, s.pageOn .pcie = true → Completes .hostUnsupportedRequest s (fun t => t.out = s.out ++ [.unsupported] ∧ t.pcie.aer.testBit 20 = true ∧
    t.cnt .pcie Pcie.CNT_UR_SENT = s.cnt .pcie Pcie.CNT_UR_SENT + 1)) ∧
  (∀ s v, s.pageOn .pcie = true → s.pcie.pba.get v = true → s.pcie.msixFuncMask = false → s.flag .pcie Pcie.LINK_STATUS_MSIX_EN = true →
    s.flag .pcie Pcie.LINK_STATUS_BME = true → s.flag .pcie Pcie.LINK_STATUS_DL_UP = true → Completes (.msixUnmask v) s (fun t =>
      t.pcie.pba.get v = false ∧ t.out = s.out ++ [s.msixMessage v] ∧ t.msixMasked v = false)) ∧
  (∀ s v, s.pageOn .pcie = true → s.flag .pcie Pcie.LINK_CFG_CFG_READY = true → Completes (.configRequest .deviceControl (some v)) s (fun t =>
    t.pcie.mps = bitsOf v 7 5 ∧ t.pcie.mrrs = bitsOf v 14 12 ∧ t.flag .pcie Pcie.LINK_STATUS_NS_EN = v.testBit 11)) ∧
  (∀ s v, s.pageOn .pcie = true → s.flag .pcie Pcie.LINK_CFG_CFG_READY = true → Completes (.configRequest .powerControl (some v)) s (fun t =>
    t.pcie.d3 = (bitsOf v 1 0 == 3) ∧ (bitsOf v 1 0 = 3 → t.hostUp = false))) ∧
  (∀ s, s.pageOn .pcie = true → s.flag .pcie Pcie.LINK_CFG_CFG_READY = true → Completes (.configRequest .aerStatus none) s (fun t =>
    t = s.emit (.configData s.pcie.aer)))

/-- The bridge windows of the management processors (R393–R395): a refused access faults; a load, an LR and an AMO of a window to the host ask
the host, a store is a posted write to it, and a store of a window to the partner a WRITE; an SC without its reservation fails and sends
nothing, one with it asks for the compare-and-swap. A reservation ends 10 µs after its LR. What the host answers to a load, an LR, an SC and
the swap of an AMO goes to the processor, the LR's value is recorded in the reservation, an eighth swap that fails faults and raises its event,
and what the host does not answer, or refuses, faults and is logged (R402). An answer is read as the window stood when the request was issued (R393).
With 256 requests open a further one waits, and the first that waits goes when one ends (R387). -/
def Obligations.WindowCommands : Prop :=
  (∀ s (m : Fin 4) a size l, s.issues (.mp m) = true → s.winCheck a size = none → Completes (.bridgeWindowAccess m a size l) s (fun t =>
    (∃ o, t.out = o ++ [.procFault (1 + m.val)]) ∧ t.mem = s.mem ∧ t.bridge.hostOpen = s.bridge.hostOpen)) ∧
  (∀ s (m : Fin 4) a size w o, s.issues (.mp m) = true → s.winCheck a size = some (w, o) → s.winPeer w = false → s.hostUp = true →
    s.bridge.hostOpen.length < 256 → Completes (.bridgeWindowAccess m a size none) s (fun t =>
      t.out = s.out ++ [.hostRead (s.winTarget w o size) size (s.winNs w)] ∧
      t.bridge.hostOpen = s.bridge.hostOpen ++ [⟨s.bridge.nextId, .load m.val a size, s.winTarget w o size, size, none, s.winView w o⟩])) ∧
  (∀ s (m : Fin 4) a size l w o, s.issues (.mp m) = true → s.winCheck a size = some (w, o) → s.winPeer w = false → s.hostUp = true →
    l.length = size → Completes (.bridgeWindowAccess m a size (some l)) s (fun t =>
      t.out = s.out ++ [.hostWrite (s.winTarget w o size) (swapData (s.winUnit w) l) (s.winNs w), .procDone (1 + m.val)] ∧
      t.mem.host = s.mem.host.putBytes (s.winTarget w o size) (swapData (s.winUnit w) l))) ∧
  (∀ s (m : Fin 4) a size l w o, s.issues (.mp m) = true → s.winCheck a size = some (w, o) → s.winPeer w = true → s.pathUp = true →
    l.length = size → 4 ≤ size → Completes (.bridgeWindowAccess m a size (some l)) s (fun t =>
      t.cnt .brg Brg.CNT_PEER_REQ_TX = s.cnt .brg Brg.CNT_PEER_REQ_TX + 1 ∧ t.mem = s.mem ∧
      ∀ lane, s.ctlLane = some lane → t.out = s.out ++ [.control lane (s.ctlBytes 3 (s.ctlKind 3).txSeq false
        (bridgeMsg 1 (1 + m.val) 0 0 (wordsOf (swapData (s.winUnit w) l)).length (s.winTarget w o size)
          ((wordsOf (swapData (s.winUnit w) l)).flatMap (beBytes 4)))), .procDone (1 + m.val)])) ∧
  (∀ s (m : Fin 4) a size w o, s.issues (.mp m) = true → s.winCheck a size = some (w, o) → s.winPeer w = false → s.hostUp = true →
    s.bridge.hostOpen.length < 256 → Completes (.bridgeLr m a size) s (fun t =>
      t.bridge.hostOpen = s.bridge.hostOpen ++ [⟨s.bridge.nextId, if s.casWorks w (s.winTarget w o size) then .lr m.val a size
        else .load m.val a size, s.winTarget w o size, size, none, s.winView w o⟩] ∧ t.bridge.resv.get m.val = none)) ∧
  (∀ s (m : Fin 4) a size new w o, s.issues (.mp m) = true → s.winCheck a size = some (w, o) →
    s.casWorks w (s.winTarget w o size) = true → s.bridge.resv.get m.val = none →
    Completes (.bridgeSc m a size new) s (fun t => t.out = s.out ++ [.procData (1 + m.val) 1] ∧ t.mem = s.mem)) ∧
  (∀ s (m : Fin 4) a size new w o v, s.issues (.mp m) = true → s.winCheck a size = some (w, o) →
    s.casWorks w (s.winTarget w o size) = true → s.winPeer w = false → s.hostUp = true → s.bridge.resv.get m.val = some ⟨a, size, v⟩ →
    s.bridge.hostOpen.length < 256 → Completes (.bridgeSc m a size new) s (fun t =>
      t.bridge.hostOpen = s.bridge.hostOpen ++ [⟨s.bridge.nextId, .sc m.val a size v, s.winTarget w o size, size,
        some (leNat (swapData (s.winUnit w) (leBytes size v)), leNat (swapData (s.winUnit w) (leBytes size new))), s.winView w o⟩] ∧
      t.bridge.resv.get m.val = none ∧ t.out = s.out ++ [.hostCas (s.winTarget w o size) size
        (leNat (swapData (s.winUnit w) (leBytes size v))) (leNat (swapData (s.winUnit w) (leBytes size new))) (s.winNs w)])) ∧
  (∀ s (m : Fin 4) a size op arg w o, s.issues (.mp m) = true → s.winCheck a size = some (w, o) →
    s.casWorks w (s.winTarget w o size) = true → s.winPeer w = false → s.hostUp = true → s.bridge.hostOpen.length < 256 →
    Completes (.bridgeAmo m a size op arg) s (fun t =>
      t.out = s.out ++ [.hostRead (s.winTarget w o size) size (s.winNs w)] ∧
      t.bridge.hostOpen = s.bridge.hostOpen ++ [⟨s.bridge.nextId, .amoRead m.val a size op arg 1, s.winTarget w o size, size, none, s.winView w o⟩])) ∧
  (∀ s (m : Fin 4), Completes (.reservationExpiry m) s (fun t =>
    ∀ k, t.bridge.resv.get k = if k = m.val then none else s.bridge.resv.get k)) ∧
  (∀ s id m a size addr n c v l, s.pageOn .brg = true → s.bridge.hostWait = [] → v.peer = false → s.bridge.hostOpen.find? (fun r => r.id == id) = some ⟨id, .load m a size, addr, n, c, v⟩ →
    Completes (.hostCompletionReceived id (some l)) s (fun t =>
      t.out = s.out ++ [.procData (1 + m) (leNat (swapData v.unit (l.take size)))] ∧
      t.bridge.hostOpen = s.bridge.hostOpen.filter (fun r => r.id != id))) ∧
  (∀ s id m a size addr n c v l, s.pageOn .brg = true → s.bridge.hostWait = [] → v.peer = false → s.bridge.hostOpen.find? (fun r => r.id == id) = some ⟨id, .lr m a size, addr, n, c, v⟩ →
    Completes (.hostCompletionReceived id (some l)) s (fun t =>
      t.out = s.out ++ [.procData (1 + m) (leNat (swapData v.unit (l.take size)))] ∧
      t.bridge.resv.get m = some ⟨a, size, leNat (swapData v.unit (l.take size))⟩)) ∧
  (∀ s id m a size expect addr n c v l, s.pageOn .brg = true → s.bridge.hostWait = [] → s.bridge.hostOpen.find? (fun r => r.id == id) = some ⟨id, .sc m a size expect, addr, n, c, v⟩ →
    Completes (.hostCompletionReceived id (some l)) s (fun t => t.out = s.out ++
      [.procData (1 + m) (if leNat (swapData v.unit (l.take size)) = expect then 0 else 1)])) ∧
  (∀ s id m a size op arg tries expect addr n c v l, s.pageOn .brg = true → s.bridge.hostWait = [] → 
    s.bridge.hostOpen.find? (fun r => r.id == id) = some ⟨id, .amoCas m a size op arg tries expect, addr, n, c, v⟩ →
    leNat (swapData v.unit (l.take size)) = expect →
    Completes (.hostCompletionReceived id (some l)) s (fun t => t.out = s.out ++ [.procData (1 + m) expect])) ∧
  (∀ s id m a size op arg tries expect addr n c v l, s.pageOn .brg = true → s.bridge.hostWait = [] → 
    s.bridge.hostOpen.find? (fun r => r.id == id) = some ⟨id, .amoCas m a size op arg tries expect, addr, n, c, v⟩ →
    leNat (swapData v.unit (l.take size)) ≠ expect → 8 ≤ tries →
    Completes (.hostCompletionReceived id (some l)) s (fun t => t.evt .brg 12 = true ∧ .procFault (1 + m) ∈ t.out ∧
      t.bridge.hostOpen = s.bridge.hostOpen.filter (fun r => r.id != id))) ∧
  (∀ s id m a size addr n c v, s.pageOn .brg = true → s.bridge.hostWait = [] → s.bridge.hostOpen.find? (fun r => r.id == id) = some ⟨id, .load m a size, addr, n, c, v⟩ →
    s.fld .brg Hdr.ERR_CODE_CODE = 0 → Completes (.hostCompletionReceived id none) s (fun t =>
      t.fld .brg Hdr.ERR_CODE_CODE = 3 ∧ (∃ o, t.out = o ++ [.procFault (1 + m)]) ∧
      t.bridge.hostOpen = s.bridge.hostOpen.filter (fun r => r.id != id))) ∧
  (∀ s id m a size addr n c v, s.pageOn .brg = true → s.bridge.hostWait = [] → s.bridge.hostOpen.find? (fun r => r.id == id) = some ⟨id, .load m a size, addr, n, c, v⟩ →
    s.fld .brg Hdr.ERR_CODE_CODE = 0 → s.pcie.noTimeout = false → Completes (.completionTimeout id) s (fun t =>
      t.cnt .pcie Pcie.CNT_CPL_TIMEOUTS = s.cnt .pcie Pcie.CNT_CPL_TIMEOUTS + 1 ∧ t.evt .pcie 12 = true ∧ t.pcie.aer.testBit 14 = true ∧
      t.fld .brg Hdr.ERR_CODE_CODE = 3 ∧ (∃ o, t.out = o ++ [.procFault (1 + m)]) ∧
      t.bridge.hostOpen = s.bridge.hostOpen.filter (fun r => r.id != id))) ∧
  (∀ s (m : Fin 4) a size w o, s.issues (.mp m) = true → s.winCheck a size = some (w, o) → s.winPeer w = false → s.hostUp = true →
    256 ≤ s.bridge.hostOpen.length → Completes (.bridgeWindowAccess m a size none) s (fun t =>
      t.out = s.out ∧ t.bridge.hostOpen = s.bridge.hostOpen ∧
      t.bridge.hostWait = s.bridge.hostWait ++ [⟨0, .load m.val a size, s.winTarget w o size, size, none, s.winView w o⟩])) ∧
  (∀ s id m a size addr n c v q rest, s.pageOn .brg = true → s.bridge.hostOpen.find? (fun r => r.id == id) = some ⟨id, .load m a size, addr, n, c, v⟩ →
    s.bridge.hostWait = q :: rest → s.bridge.hostOpen.length ≤ 256 → Completes (.hostCompletionReceived id none) s (fun t =>
      t.bridge.hostWait = rest ∧ { q with id := s.bridge.nextId } ∈ t.bridge.hostOpen))

/-- Requests toward the partner and from it (R392, R396–R402): a BAR4 access is carried while the path is up and fails while it is not, and a
BAR4 read ends with its bytes; WRITE, READ and CAS are performed at BAR0, and a READ is answered with RETRY by the member that contends; a CPL
ends its request, or parks it for a later try, and a CPL of no request is counted; a failed posted write is recorded in PWLOG; a request that
times out faults, one whose wait ends is sent again; the partner's event summary is polled and kept. A scratchpad word that cannot be corrected is
logged and answered ERROR (log entry 115). -/
def Obligations.PartnerCommands : Prop :=
  (∀ s off size tag, s.pageOn .pcie = true → s.inRun .brg = true → s.pathUp = true → off + size ≤ 0x4000000 → 0 < size → s.freeTag = some tag →
    Completes (.hostBar4Read off size) s (fun t => t.cnt .brg Brg.CNT_PEER_REQ_TX = s.cnt .brg Brg.CNT_PEER_REQ_TX + 1 ∧
      t.bridge.peerOpen = s.bridge.peerOpen ++
        [⟨tag, .hostRead off size [], false, 0, off - off % 4, min 64 (ceilDiv (off % 4 + size) 4), 0, 0, 0, false, {}⟩] ∧
      ∀ lane, s.ctlLane = some lane → t.out = s.out ++ [.control lane (s.ctlBytes 3 (s.ctlKind 3).txSeq false
        (bridgeMsg 2 0 tag 0 (min 64 (ceilDiv (off % 4 + size) 4)) (off - off % 4) []))])) ∧
  (∀ s off size, s.pageOn .pcie = true → s.inRun .brg = false ∨ s.pathUp = false → Completes (.hostBar4Read off size) s (fun t =>
    t.out = s.out ++ [.completerAbort off] ∧ t.cnt .pcie Pcie.CNT_CA_SENT = s.cnt .pcie Pcie.CNT_CA_SENT + 1)) ∧
  (∀ s off w, s.pageOn .pcie = true → s.inRun .brg = true → s.pathUp = true → Completes (.hostBar4Write off [w]) s (fun t =>
    t.cnt .brg Brg.CNT_PEER_REQ_TX = s.cnt .brg Brg.CNT_PEER_REQ_TX + 1 ∧ t.bridge.pwlog = s.bridge.pwlog ∧
    ∀ lane, s.ctlLane = some lane → t.out = s.out ++
      [.control lane (s.ctlBytes 3 (s.ctlKind 3).txSeq false (bridgeMsg 1 0 0 0 1 off (beBytes 4 w)))])) ∧
  (∀ s off w, s.pageOn .pcie = true → s.inRun .brg = false ∨ s.pathUp = false → s.bridge.pwlog.length < 16 → Completes (.hostBar4Write off [w]) s (fun t =>
    t.cnt .brg Brg.CNT_PW_FAILS = s.cnt .brg Brg.CNT_PW_FAILS + 1 ∧ t.evt .brg 8 = true ∧
    t.bridge.pwlog = s.bridge.pwlog ++ [⟨3, 0, 16, 0, off, s.ns32⟩])) ∧
  (∀ s a d, s.pageOn .brg = true → a % 4 = 0 → 0x2000000 ≤ a → a < 0x2200000 → d.length = 4 → s.pageOn .scr = true → Completes (.bridgeWriteReceived 0 a d) s (fun t =>
    t.cnt .brg Brg.CNT_PEER_REQ_RX = s.cnt .brg Brg.CNT_PEER_REQ_RX + 1 ∧ t.out = s.out ∧
    ∀ j, t.mem.scratch.get j = if a - 0x2000000 ≤ j ∧ j < a - 0x2000000 + 4 then d.getD (3 - (j - (a - 0x2000000))) 0
      else s.mem.scratch.get j)) ∧
  (∀ s orig tag a words ecc, s.pageOn .brg = true → s.flag .brg Brg.PEER_CFG_EN = true → s.contends = true → Completes (.bridgeReadReceived orig tag a words ecc) s (fun t =>
    t.cnt .brg Brg.CNT_PEER_REQ_RX = s.cnt .brg Brg.CNT_PEER_REQ_RX + 1 ∧ t.mem = s.mem ∧ t.regs = s.regs ∧
    ∀ lane, s.ctlLane = some lane → t.out = s.out ++
      [.control lane (s.ctlBytes 3 (s.ctlKind 3).txSeq false (bridgeMsg 4 orig tag 1 0 a []))])) ∧
  (∀ s orig tag a ecc, s.pageOn .brg = true → ecc ≠ .lost → s.flag .brg Brg.PEER_CFG_EN = true → s.contends = false → a % 4 = 0 → 0x2000000 ≤ a → a < 0x2200000 → s.pageOn .scr = true →
    Completes (.bridgeReadReceived orig tag a 1 ecc) s (fun t => t.mem = s.mem ∧
      ∀ lane, s.ctlLane = some lane → t.out = s.out ++
        [.control lane (s.ctlBytes 3 (s.ctlKind 3).txSeq false (bridgeMsg 4 orig tag 0 1 a (s.mem.scratch.bytes (a - 0x2000000) 4).reverse))])) ∧
  (∀ s orig tag a d ecc, s.pageOn .brg = true → ecc ≠ .lost → s.flag .brg Brg.PEER_CFG_EN = true → orig < 6 → s.contends = false → a % 4 = 0 → 0x2000000 ≤ a → a < 0x2200000 →
    s.pageOn .scr = true → Completes (.bridgeCasReceived orig tag a 1 d ecc) s (fun t => t.mem.scratch =
      if s.mem.scratch.num (a - 0x2000000) 4 = beNat (d.take 4) then s.mem.scratch.putNum (a - 0x2000000) 4 (beNat ((d.drop 4).take 4))
      else s.mem.scratch)) ∧
  (∀ s tag d, s.pageOn .brg = true → s.bridge.peerOpen.find? (fun r => r.tag == tag && !r.parked) = none → Completes (.bridgeCplReceived tag 0 d) s (fun t =>
    t.cnt .brg Brg.CNT_LATE_CPL = s.cnt .brg Brg.CNT_LATE_CPL + 1 ∧ t.out = s.out)) ∧
  (∀ s tag d r m a size, s.pageOn .brg = true → s.bridge.peerOpen.find? (fun r => r.tag == tag && !r.parked) = some r → r.use = .load m a size → r.cas = false →
    r.win.peer = true → s.bridge.peerWait = [] → Completes (.bridgeCplReceived tag 0 d) s (fun t =>
      t.out = s.out ++ [.procData (1 + m) (leNat (swapData r.win.unit (((bridgeBytes d).drop (r.win.target size % 4)).take size)))] ∧
      t.bridge.peerOpen = s.bridge.peerOpen.filter (fun r => r.tag != tag))) ∧
  (∀ s tag d r off size, s.pageOn .brg = true → s.bridge.peerOpen.find? (fun r => r.tag == tag && !r.parked) = some r → r.use = .hostRead off size [] →
    r.cas = false → s.bridge.peerWait = [] → off % 4 + size ≤ (bridgeBytes d).length → Completes (.bridgeCplReceived tag 0 d) s (fun t =>
      t.out = s.out ++ [.hostData (((bridgeBytes d).drop (off % 4)).take size)])) ∧
  (∀ s tag d r, s.pageOn .brg = true → s.bridge.peerOpen.find? (fun r => r.tag == tag && !r.parked) = some r → r.use = .poll → r.cas = false →
    s.bridge.peerWait = [] → d.length = 36 → Completes (.bridgeCplReceived tag 0 d) s (fun t =>
      t.flag .brg Brg.PEER_STATUS_SUMMARY_VALID = true ∧ ∀ k, k < 9 → t.fld .brg (Brg.PEER_SUMMARY_PAGES k) = beAt d (4 * k) 4)) ∧
  (∀ s tag d r, s.pageOn .brg = true → s.bridge.peerOpen.find? (fun r => r.tag == tag && !r.parked) = some r → r.retries < 16 →
    Completes (.bridgeCplReceived tag 1 d) s (fun t => t.bridge.peerOpen =
      s.bridge.peerOpen.map (fun q => if q.tag = tag then { q with parked := true, retries := q.retries + 1 } else q))) ∧
  (∀ s orig code a, s.pageOn .brg = true → s.bridge.pwlog.length < 16 → Completes (.bridgeWriteFailReceived orig code a) s (fun t =>
    t.cnt .brg Brg.CNT_PW_FAILS = s.cnt .brg Brg.CNT_PW_FAILS + 1 ∧
    t.bridge.pwlog = s.bridge.pwlog ++ [⟨4, orig, s.failedWindow orig a, code, a, s.ns32⟩])) ∧
  (∀ s src, s.ownerWrites src .brg → Completes (.pwlogPop src) s (fun t => t.bridge.pwlog = s.bridge.pwlog.drop 1)) ∧
  (∀ s tag r, s.pageOn .brg = true → s.bridge.peerOpen.find? (fun r => r.tag == tag) = some r → s.bridge.peerWait = [] → Completes (.peerRequestTimeout tag) s (fun t =>
    t.cnt .brg Brg.CNT_PEER_TIMEOUTS = s.cnt .brg Brg.CNT_PEER_TIMEOUTS + 1 ∧
    t.bridge.peerOpen = s.bridge.peerOpen.filter (fun r => r.tag != tag) ∧
    ∀ m a size, r.use = .load m a size → ∃ o, t.out = o ++ [.procFault (1 + m)])) ∧
  (∀ s tag r, s.pageOn .brg = true → s.bridge.peerOpen.find? (fun r => r.tag == tag && r.parked) = some r → Completes (.peerRetryWait tag) s (fun t =>
    t.cnt .brg Brg.CNT_PEER_RETRIES = s.cnt .brg Brg.CNT_PEER_RETRIES + 1 ∧
    t.bridge.peerOpen = s.bridge.peerOpen.map (fun q => if q.tag = tag then { q with parked := false } else q) ∧
    ∀ lane, s.ctlLane = some lane → t.out = s.out ++ [.control lane (s.ctlBytes 3 (s.ctlKind 3).txSeq false r.msg)])) ∧
  (∀ s tag, s.pageOn .brg = true → s.inRun .brg = true → s.fld .brg Brg.PEER_CFG_POLL_US ≠ 0 → s.pathUp = true → s.freeTag = some tag → Completes .peerPoll s (fun t =>
    t.bridge.peerOpen = s.bridge.peerOpen ++ [⟨tag, .poll, false, 7, 0x100, 9, 0, 0, 0, false, {}⟩] ∧
    ∀ lane, s.ctlLane = some lane → t.out = s.out ++
      [.control lane (s.ctlBytes 3 (s.ctlKind 3).txSeq false (bridgeMsg 2 7 tag 0 9 0x100 []))])) ∧
  (∀ s orig tag a words, s.pageOn .brg = true → s.flag .brg Brg.PEER_CFG_EN = true → s.contends = false → a % 4 = 0 → 0x2000000 ≤ a → a < 0x2200000 →
    s.pageOn .scr = true → s.fld .scr Hdr.ERR_CODE_CODE = 0 → Completes (.bridgeReadReceived orig tag a words .lost) s (fun t =>
      t.mem = s.mem ∧ t.fld .scr Hdr.ERR_CODE_CODE = 5 ∧ ∀ lane, s.ctlLane = some lane → ∃ o, t.out = s.out ++ o ++
        [.control lane (s.ctlBytes 3 (s.ctlKind 3).txSeq false (bridgeMsg 4 orig tag 2 0 a []))]))

/-- The host rings (R403–R409): a TAIL is stored modulo the ring's size; a good frame at HEAD of the transmit ring whose turn it is enters at
port 32, its descriptors are written DONE and HEAD moves past them, a bad one is counted with its event, a read that timed out in PCIE too (R414),
and HEAD moves on; a ring's timer
sends its vector for what pends. -/
def Obligations.RingCommands : Prop :=
  (∀ s src r v, r < 64 → s.ownerWrites src .ring → Completes (.rxTailDoorbell src r v) s (fun t =>
    t.fld .ring (Ring.RX_TAIL_TAIL r) = v % 4096 % s.ringSize false r)) ∧
  (∀ s src r v, r < 64 → s.ownerWrites src .ring → Completes (.txTailDoorbell src r v) s (fun t =>
    t.fld .ring (Ring.TX_TAIL_TAIL r) = v % 4096 % s.ringSize true r)) ∧
  (∀ s u r img n ds, u = s.hostImage img → s.inRun .ring = true → s.hostUp = true → u.txGrant = some r → u.txFrameLen r = some n →
    ds = (List.range n).map (u.txDesc r) → txCause ds false = 0 → s.inRun .buf = true → Completes (.hostTxFrame img none) s (fun t =>
      t.cnt .ring Ring.CNT_TX_FRAMES = s.cnt .ring Ring.CNT_TX_FRAMES + 1 ∧
      t.cnt (.etp 32) Etp.CNT_RX_FRAMES = s.cnt (.etp 32) Etp.CNT_RX_FRAMES + 1 ∧
      t.fld .ring (Ring.TX_HEAD_HEAD r) = (s.ringHead true r + n) % s.ringSize true r ∧
      t.dp.windows = s.dp.windows ++ [s.dp.nextFrame] ∧ ∀ i, i < n → t.mem.host.num (s.ringDesc true r i + 24) 4 = 1)) ∧
  (∀ s u r img n ds bad, u = s.hostImage img → s.inRun .ring = true → s.hostUp = true → u.txGrant = some r →
    u.txFrameLen r = some n → ds = (List.range n).map (u.txDesc r) → txCause ds bad.isSome ≠ 0 → Completes (.hostTxFrame img bad) s (fun t =>
      t.cnt .ring Ring.CNT_TX_DESC_ERR = s.cnt .ring Ring.CNT_TX_DESC_ERR + 1 ∧ t.evt .ring 9 = true ∧ t.dp.windows = s.dp.windows ∧
      (∀ a, bad = some (a, true) → txCause ds true = 6 → t.cnt .pcie Pcie.CNT_CPL_TIMEOUTS = s.cnt .pcie Pcie.CNT_CPL_TIMEOUTS + 1 ∧ t.evt .pcie 12 = true) ∧
      t.fld .ring (Ring.TX_HEAD_HEAD r) = (s.ringHead true r + n) % s.ringSize true r)) ∧
  (∀ s tx r, r < 64 → s.pageOn .ring = true → s.ringPend.get (ringKey tx r) ≠ 0 → s.ringF tx r 3 8 8 = 1 → s.ringF tx r 3 31 24 ≠ 0 →
    s.flag .pcie Pcie.LINK_STATUS_MSIX_EN = true → s.flag .pcie Pcie.LINK_STATUS_BME = true → s.flag .pcie Pcie.LINK_STATUS_DL_UP = true →
    s.msixMasked (s.ringF tx r 3 7 0) = false → Completes (.ringIrqTimer tx r) s (fun t => t.ringPend.get (ringKey tx r) = 0 ∧
      t.out = s.out ++ [s.msixMessage (s.ringF tx r 3 7 0)] ∧ t.mem = s.mem ∧ t.regs = s.regs))

/-- The DMA channels (R410–R413): a TAIL that leaves work makes an IDLE channel BUSY; a descriptor within its windows is copied, counted, left
behind and signalled where it asks for it, one outside them halts its channel; ABORT halts, RESUME tries again, SKIP goes on. The doorbells of
SCR: the host rings slot 0, which Signet takes where it serves it and TRU is open (R421; log entry 112), another's ring is NOT_OWNER, and DB_SET
sets bits of RAW. A descriptor that cannot be read is a bus error and nothing else (R412). How channels share the engine is log entry 128. -/
def Obligations.DmaCommands : Prop :=
  (∀ s src c v, c < 32 → s.ownerWrites src .dma → s.inRun .dma = true → s.chSt c = 1 → v % 1024 % s.chSize c ≠ s.chHead c →
    Completes (.dmaDoorbell src c v) s (fun t => t.fld .dma (Dma.TAIL_TAIL c) = v % 1024 % s.chSize c ∧ t.chSt c = 2)) ∧
  (∀ s u c d img corr, u = s.hostImage img → d = u.dmaDesc c → c < 32 → s.chSt c = 2 → s.chEn c = true → s.chSpace c ≠ 3 → s.hostUp = true →
    u.dmaCheck d = 0 → Completes (.dmaDescriptorDone c img none corr) s (fun t => t.cnt .dma Dma.CNT_DESCS = s.cnt .dma Dma.CNT_DESCS + 1 ∧
      t.cnt .dma Dma.CNT_BYTES = s.cnt .dma Dma.CNT_BYTES + d.rows * d.rowLen ∧
      t.fld .dma (Dma.HEAD_HEAD c) = (s.chHead c + 1) % s.chSize c ∧ t.chSt c = (if t.chEmpty c then 1 else 2) ∧
      (d.w8.testBit 7 = true → s.chF c 3 8 8 ≠ 1 → (t.fld .dma Dma.DONE_MAP_MAP).testBit c = true ∧ t.evt .dma 8 = true) ∧
      (d.rows = 1 → d.dstSpace = 2 → d.w8.testBit 6 = false → d.overlaps = false → s.chSpace c ≠ 2 → s.chPos c = (0, 0) →
        (∀ x, x < 32 → x ≠ c → s.chSt x ≠ 2) →
        t.mem.scratch.bytes d.dst d.rowLen = (u.spaceMem d.srcSpace).bytes d.src d.rowLen))) ∧
  (∀ s u c img corr, u = s.hostImage img → c < 32 → s.chSt c = 2 → s.hostUp = true → u.dmaCheck (u.dmaDesc c) = 3 →
    Completes (.dmaDescriptorDone c img none corr) s (fun t =>
      t.cnt .dma Dma.CNT_RANGE_ERRORS = s.cnt .dma Dma.CNT_RANGE_ERRORS + 1 ∧ t.chSt c = 3 ∧ t.evt .dma 9 = true ∧
      t.fld .dma (Dma.HEAD_HEAD c) = s.fld .dma (Dma.HEAD_HEAD c))) ∧
  (∀ s src c rows img corr, c < 32 → s.ownerWrites src .dma → s.chSt c = 2 → Completes (.dmaAbort src c rows img corr) s (fun t =>
    t.chSt c = 3 ∧ (t.fld .dma Dma.HALT_MAP_MAP).testBit c = true ∧ t.evt .dma 9 = true)) ∧
  (∀ s src c, c < 32 → s.ownerWrites src .dma → s.dmaRuns = true → s.chSt c = 3 → Completes (.dmaResume src c) s (fun t =>
    t.chSt c = 2 ∧ t.fld .dma (Dma.HEAD_HEAD c) = s.fld .dma (Dma.HEAD_HEAD c))) ∧
  (∀ s src c, c < 32 → s.ownerWrites src .dma → s.dmaRuns = true → s.chSt c = 3 → Completes (.dmaSkip src c) s (fun t =>
    t.fld .dma (Dma.HEAD_HEAD c) = (s.chHead c + 1) % s.chSize c ∧
    t.chSt c = if !s.chEn c then 0 else if t.chEmpty c then 1 else 2)) ∧
  (∀ s corr, s.ownerWrites .host .scr → s.mbxSt 0 ≠ 1 → s.served 0 = false → Completes (.scrMbxRing .host corr) s (fun t =>
    0 ∈ t.procs.rung)) ∧
  (∀ s corr, s.ownerWrites .host .scr → s.mbxSt 0 ≠ 1 → s.served 0 = true → s.mailOpen = true → Completes (.scrMbxRing .host corr) s (fun t =>
    t = (s.eccSeen 0 corr).mbxTake 0)) ∧
  (∀ s src v, s.ownerWrites src .scr → Completes (.dbSet src v) s (fun t =>
    t.word .scr Hdr.EVT_RAW_RAW.off = s.word .scr Hdr.EVT_RAW_RAW.off ||| BitVec.ofNat 32 (v % 65536 * 256))) ∧
  (∀ s c img corr a tmo, c < 32 → s.chSt c = 2 → s.chEn c = true → s.chSpace c ≠ 3 → s.hostUp = true →
    Completes (.dmaDescriptorDone c img (some ⟨none, a, tmo⟩) corr) s (fun t =>
      t.cnt .dma Dma.CNT_BUS_ERRORS = s.cnt .dma Dma.CNT_BUS_ERRORS + 1 ∧ t.chSt c = 3 ∧ t.evt .dma 9 = true ∧
      t.cnt .dma Dma.CNT_RANGE_ERRORS = s.cnt .dma Dma.CNT_RANGE_ERRORS ∧ t.cnt .dma Dma.CNT_MISALIGNED = s.cnt .dma Dma.CNT_MISALIGNED ∧
      t.cnt .pcie Pcie.CNT_CPL_TIMEOUTS = s.cnt .pcie Pcie.CNT_CPL_TIMEOUTS + (if tmo then 1 else 0))) ∧
  (∀ s src corr, s.ownerWrites src .scr → src ≠ .host → s.fld .scr Hdr.ERR_CODE_CODE = 0 → Completes (.scrMbxRing src corr) s (fun t =>
    t.fld .scr Hdr.ERR_CODE_CODE = 1 ∧ t.procs.rung = s.procs.rung ∧ t.mbxSt 0 = s.mbxSt 0))

/-- Power requests (R423, R428): a request for another state starts the transition at its first phase, one for the present state is done at
once, a PARTIAL_MAP that breaks a rule is refused, and a request while a transition runs is BUSY. -/
def Obligations.PowerRequests : Prop :=
  (∀ s src, s.ownerWrites src .pwr → s.phase = 0 → s.pwrSt ≠ 4 → s.pwrSt ≠ 0 → Completes (.powerReqRun src) s (s.starts 0)) ∧
  (∀ s src, s.ownerWrites src .pwr → s.phase = 0 → s.pwrSt ≠ 4 → s.pwrSt ≠ 1 → s.badIsland = none →
    Completes (.powerReqPartial src) s (s.starts 1)) ∧
  (∀ s src, s.ownerWrites src .pwr → s.phase = 0 → s.pwrSt ≠ 4 → s.pwrSt ≠ 2 → Completes (.powerReqDoze src) s (s.starts 2)) ∧
  (∀ s src, s.ownerWrites src .pwr → s.phase = 0 → s.pwrSt ≠ 4 → s.pwrSt ≠ 3 → Completes (.powerReqSleep src) s (s.starts 3)) ∧
  (∀ s src st c, (c, st) ∈ [(Instr.powerReqRun src, 0), (.powerReqDoze src, 2), (.powerReqSleep src, 3)] →
    s.ownerWrites src .pwr → s.phase = 0 → s.pwrSt = st → Completes c s (fun t =>
      t.fld .pwr Pwr.STATUS_RESULT = 1 ∧ t.phase = 0 ∧ t.pwrSt = st)) ∧
  (∀ s src i, s.ownerWrites src .pwr → s.phase = 0 → s.badIsland = some i → Completes (.powerReqPartial src) s (fun t =>
    t.fld .pwr Pwr.STATUS_RESULT = 2 ∧ t.fld .pwr Pwr.STATUS_CAUSE = i ∧ t.evt .pwr 9 = true ∧ t.pwrSt = s.pwrSt ∧
    t.cnt .pwr Pwr.CNT_REFUSED = s.cnt .pwr Pwr.CNT_REFUSED + 1)) ∧
  (∀ s src st c, (c, st) ∈ [(Instr.powerReqRun src, 0), (.powerReqPartial src, 1), (.powerReqDoze src, 2), (.powerReqSleep src, 3)] →
    s.ownerWrites src .pwr → s.phase ≠ 0 → s.fld .pwr Hdr.ERR_CODE_CODE = 0 → Completes c s (fun t =>
      t.fld .pwr Hdr.ERR_CODE_CODE = 7 ∧ t.phase = s.phase ∧ t.target = s.target))

/-- The phases of a transition (R428–R430, R432): RAISE takes the islands up and ends the transition where none is to be lowered, or goes on;
PREPARE ends; QUIESCE ends when no page of an island to be lowered works, or is refused at its limit; the last phase lowers the islands and
the state is reached, and a wake that came meanwhile starts at once (R432). From COMMIT an island to be lowered takes no write any more. Heat above
TRIP and the supply alarm force the device down, in a transition out of FORCED too, its data islands that are ON to RET; FORCED lasts until its
cause is clear, heat until it is below RESUME, and a wake source that occurred meanwhile then starts its wake. -/
def Obligations.PowerPhases : Prop :=
  (∀ s, s.phase = 1 → s.power.waking = false → s.power.occurred = 0 → Completes .raiseDone s (fun t =>
    (∀ i, i ∈ s.islandsUp → t.islandCond i = mapCond s.power.goal i) ∧
    (s.islandsDown = [] → t.phase = 0 ∧ t.pwrSt = s.target ∧ t.fld .pwr Pwr.STATUS_RESULT = 1 ∧ t.evt .pwr 8 = true) ∧
    (s.islandsDown ≠ [] → t.phase = if s.fld .pwr Pwr.PREPARE_MS = 0 then 3 else 2))) ∧
  (∀ s, s.phase = 2 → Completes .prepareEnd s (fun t => t.phase = 3)) ∧
  (∀ s, s.phase = 3 → (∀ i, i ∈ s.islandsDown → s.working i = []) → Completes .quiesceDone s (fun t =>
    t.phase = 4 ∧ t.power.commitAt = s.power.aonNs)) ∧
  (∀ s i, s.phase = 3 → i ∈ s.islandsDown → s.working i ≠ [] → Completes (.quiesceLimit i) s (fun t =>
    t.phase = 0 ∧ t.fld .pwr Pwr.STATUS_RESULT = 2 ∧ t.evt .pwr 9 = true ∧ t.pwrSt = s.pwrSt)) ∧
  (∀ s, s.phase = 4 ∨ s.phase = 5 → s.power.occurred = 0 → Completes .lowerDone s (fun t =>
    t.phase = 0 ∧ t.fld .pwr Pwr.STATUS_RESULT = 1 ∧ t.evt .pwr 8 = true ∧ t.pwrSt = s.target ∧
    ∀ i, i ∈ s.islandsDown → t.islandCond i = mapCond s.power.goal i)) ∧
  (∀ s i (temp : Int), i < 14 → temp ≤ s.fld .pwr Pwr.THERM_TRIP → Completes (.thermalTrip i temp) s (fun t =>
    t.fld .clk (Clk.TEMP_T i) = unsigned 9 temp ∧ t.pwrSt = s.pwrSt)) ∧
  (∀ s i (temp : Int), (s.fld .pwr Pwr.THERM_TRIP : Int) < temp → s.pwrSt ≠ 4 ∨ s.phase ≠ 0 → i < 14 → Completes (.thermalTrip i temp) s (fun t =>
    t.pwrSt = 4 ∧ t.fld .pwr Pwr.FORCED_LOG_CAUSE = 1 ∧ t.power.stands = true ∧ t.evt .pwr 11 = true ∧ t.phase = 0 ∧
    ∀ k, k ∈ forcedIslands → s.islandCond k = 2 → t.islandCond k = 1)) ∧
  (∀ s, s.pwrSt ≠ 4 ∨ s.phase ≠ 0 → Completes .supplyAlarm s (fun t => t.pwrSt = 4 ∧ t.fld .pwr Pwr.FORCED_LOG_CAUSE = 2 ∧ t.power.stands = true ∧
    t.flag .clk Clk.ALARM_SUPPLY = true ∧ t.evt .pwr 11 = true ∧ t.phase = 0 ∧
    ∀ k, k ∈ forcedIslands → s.islandCond k = 2 → t.islandCond k = 1)) ∧
  (∀ s, s.pwrSt = 4 → s.power.stands = true → s.cooled = true → s.power.occurred = 0 → Completes .forcedCauseClear s (fun t =>
    t.power.stands = false ∧ t.pwrSt = 4 ∧ t.regs = s.regs)) ∧
  (∀ s n, s.pwrSt = 4 → s.power.stands = true → s.cooled = true → s.phase = 0 → s.power.occurred = 2 ^ n → s.power.first = 2 ^ n → n < 21 → Completes .forcedCauseClear s (fun t =>
    t.power.stands = false ∧ t.power.waking = true ∧ t.phase = 1 ∧ t.target = 0 ∧ t.fld .wake Wake.LAST_WAKE_SRC = n)) ∧
  (∀ s i, i ∈ s.power.hot → (s.fld .pwr Pwr.THERM_RESUME : Int) ≤ signed 9 (s.fld .clk (Clk.TEMP_T i)) → Completes .forcedCauseClear s (fun t =>
    t = s)) ∧
  (∀ s n, s.phase = 4 ∨ s.phase = 5 → s.power.occurred = 2 ^ n → s.power.first = 2 ^ n → n < 21 → Completes .lowerDone s (fun t =>
    t.phase = 1 ∧ t.power.waking = true ∧ t.target = 0 ∧ t.pwrSt = s.target ∧ t.fld .wake Wake.LAST_WAKE_SRC = n ∧
    ∀ i, i ∈ s.islandsDown → t.islandCond i = mapCond s.power.goal i)) ∧
  (∀ s p src off v, p.ok = true → s.islandCond p.island = 2 → s.phase = 4 → mapCond s.power.goal p.island < 2 → s.issues src = true →
    s.fld .sys Hdr.ERR_CODE_CODE = 0 → off % 4 = 0 → off < 4096 → Completes (.registerWrite src .bar0 (p.base + off) (leBytes 4 v)) s (fun t =>
      t.fld .sys Hdr.ERR_CODE_CODE = 3 ∧ (p ≠ .sys → t.word p off = s.word p off)))

/-- Wakes (R431–R434): an unmasked ball in use and the timer start the wake to RUN from a state below it; the wake raises the islands, RUN is
reached, and it waits for its confirmation; CONFIRM confirms every wake that waits and clears the counts of its sources; without one the wake
counts as false for its source (windows that overlap: log entry 125), which FALSE_LIMIT masks while another source stays unmasked, and UNMASK_S clears an automatic mask. -/
def Obligations.WakeCommands : Prop :=
  (∀ s n, n < 16 → s.flag .wake (Wake.PIN_CFG_EN n) = true → (s.fld .wake Wake.MASK_SRC).testBit n = false → s.phase = 0 → s.pwrSt ≠ 0 →
    s.pwrSt ≠ 4 → Completes (.wakeIn (2 ^ n)) s (fun t => t.phase = 1 ∧ t.target = 0 ∧ t.power.waking = true ∧
      t.fld .wake Wake.LAST_WAKE_SRC = n ∧ (t.fld .wake Wake.LATCH_SRC).testBit n = true ∧ t.evt .wake 8 = true ∧
      t.cnt .wake (Wake.CNT_WAKES n) = s.cnt .wake (Wake.CNT_WAKES n) + 1)) ∧
  (∀ s n, n < 16 → s.flag .wake (Wake.PIN_CFG_EN n) = false → Completes (.wakeIn (2 ^ n)) s (fun t => t = s)) ∧
  (∀ s, s.fld .wake Wake.TIMER_S_S ≠ 0 → (s.fld .wake Wake.MASK_SRC).testBit 19 = false → s.phase = 0 → s.pwrSt ≠ 0 → s.pwrSt ≠ 4 →
    Completes .wakeTimer s (fun t => t.phase = 1 ∧ t.target = 0 ∧ t.power.waking = true ∧ t.fld .wake Wake.LAST_WAKE_SRC = 19)) ∧
  (∀ s, s.phase = 1 → s.power.waking = true → Completes .wakeComplete s (fun t =>
    (∀ i, i ∈ s.islandsUp → t.islandCond i = mapCond s.power.goal i) ∧
    (s.islandsDown = [] → s.flag .nm Nm.HOLD_HOLD = false → t.phase = 0 ∧ t.pwrSt = s.target ∧ t.power.waking = false ∧ t.evt .pwr 8 = true ∧
      t.power.unconfirmed = s.power.unconfirmed ++ [s.power.wakeSrcs]) ∧
    (s.islandsDown ≠ [] → t.phase = if s.fld .pwr Pwr.PREPARE_MS = 0 then 3 else 2))) ∧
  (∀ s src, s.ownerWrites src .wake → Completes (.wakeConfirm src) s (fun t => t.power.unconfirmed = [] ∧
    ∀ m ∈ s.power.unconfirmed, ∀ n, n < 21 → m.testBit n = true → t.fld .wake (Wake.CONSEC_COUNT n) = 0)) ∧
  (∀ s n rest, n < 21 → s.power.unconfirmed = 2 ^ n :: rest → Completes .confirmTimeout s (fun t =>
    t.power.unconfirmed = rest ∧ t.evt .wake 10 = true ∧ t.fld .wake (Wake.CONSEC_COUNT n) = min 255 (s.fld .wake (Wake.CONSEC_COUNT n) + 1) ∧
    t.cnt .wake (Wake.CNT_FALSE_WAKES n) = s.cnt .wake (Wake.CNT_FALSE_WAKES n) + 1 ∧
    (s.fld .wake Wake.FALSE_CFG_FALSE_LIMIT ≠ 0 →
      s.fld .wake Wake.FALSE_CFG_FALSE_LIMIT ≤ min 255 (s.fld .wake (Wake.CONSEC_COUNT n) + 1) →
      s.fld .wake Wake.MASK_SRC ||| 2 ^ n ≠ 2 ^ 21 - 1 → (t.fld .wake Wake.MASK_SRC).testBit n = true))) ∧
  (∀ s n, n < 21 → s.power.autoMasked.testBit n = true → s.fld .wake Wake.UNMASK_S_S ≠ 0 → Completes (.unmaskTimer n) s (fun t =>
    (t.fld .wake Wake.MASK_SRC).testBit n = false ∧ t.power.autoMasked.testBit n = false))

/-- Charm and the network timer (R435–R437, R442): a KEEP holds the network and its sender is listed, a RELEASE is counted; the timer's end
makes the network READY, which HOLD prevents, and with AUTO asks for the sleep state; HOLD is stored, starts the timer anew and wakes a READY
network; ETYPE is stored unless it is taken, and 0 turns NM off; while HOLD is 1 TX_DUE is raised each period. -/
def Obligations.NetworkCommands : Prop :=
  (∀ s p l da, da = s.fld .nm Nm.CHARM_DA_LO_DA + 2 ^ 32 * s.fld .nm Nm.CHARM_DA_HI_DA → s.nmOn = true → s.islandCond 4 = 2 → s.nmPort p = true →
    beAt l 0 6 = da → beAt l 12 2 = s.fld .nm Nm.NM_CFG_ETYPE → byteAt l 14 = 0x11 → Completes (.charmReceived p l) s (fun t =>
      t.cnt .nm Nm.CNT_CHARM_RX = s.cnt .nm Nm.CNT_CHARM_RX + 1 ∧ t.flag .nm Nm.STATUS_NMS = false ∧ t.power.ntRun = true ∧
      t.power.ntAt = s.power.aonNs ∧ ∃ i, i < 32 ∧ (t.power.holders.get i).valid = true ∧ (t.power.holders.get i).sa = beAt l 6 6 ∧
        (t.power.holders.get i).released = false ∧ (t.power.holders.get i).nmId = beAt l 16 2)) ∧
  (∀ s p l da, da = s.fld .nm Nm.CHARM_DA_LO_DA + 2 ^ 32 * s.fld .nm Nm.CHARM_DA_HI_DA → s.nmOn = true → s.islandCond 4 = 2 → s.nmPort p = true →
    beAt l 0 6 = da → beAt l 12 2 = s.fld .nm Nm.NM_CFG_ETYPE → byteAt l 14 = 0x12 → Completes (.charmReceived p l) s (fun t =>
      t.cnt .nm Nm.CNT_RELEASE_RX = s.cnt .nm Nm.CNT_RELEASE_RX + 1 ∧ t.power.ntAt = s.power.ntAt ∧
      ∃ i, i < 32 ∧ (t.power.holders.get i).sa = beAt l 6 6 ∧ (t.power.holders.get i).released = true)) ∧
  (∀ s, s.nmOn = true → s.power.ntRun = true → s.flag .nm Nm.STATUS_NMS = false → s.flag .nm Nm.HOLD_HOLD = false →
    s.flag .nm Nm.NM_CFG_AUTO = false → Completes .netTimeout s (fun t =>
      t.flag .nm Nm.STATUS_NMS = true ∧ t.evt .nm 8 = true ∧ t.power.ntRun = false)) ∧
  (∀ s st, s.nmOn = true → s.power.ntRun = true → s.flag .nm Nm.STATUS_NMS = false → s.flag .nm Nm.HOLD_HOLD = false →
    s.flag .nm Nm.NM_CFG_AUTO = true → s.phase = 0 → st = s.fld .nm Nm.NM_CFG_SLEEP_STATE → Completes .netTimeout s (fun t =>
      t.flag .nm Nm.STATUS_NMS = true ∧ t.power.ntRun = false ∧ t.cnt .nm Nm.CNT_AUTO_REQS = s.cnt .nm Nm.CNT_AUTO_REQS + 1 ∧
      t.target = if st = 1 ∨ st = 2 then st else 3)) ∧
  (∀ s, s.nmOn = true → s.power.ntRun = true → s.flag .nm Nm.STATUS_NMS = false → s.flag .nm Nm.HOLD_HOLD = true →
    Completes .netTimeout s (fun t => t.flag .nm Nm.STATUS_NMS = false ∧ t.power.ntRun = true ∧ t.power.ntAt = s.power.aonNs)) ∧
  (∀ s src hold reason, reason < 256 → s.ownerWrites src .nm → Completes (.nmHoldWrite src hold reason) s (fun t =>
    t.flag .nm Nm.HOLD_HOLD = hold ∧ t.fld .nm Nm.HOLD_REASON = reason ∧
    (hold = true → s.nmOn = true → t.power.ntRun = true ∧ t.power.ntAt = s.power.aonNs ∧ t.flag .nm Nm.STATUS_NMS = false ∧
      (s.flag .nm Nm.STATUS_NMS = true → t.evt .nm 9 = true)))) ∧
  (∀ s src e auto sl, e < 65536 → sl < 8 → s.ownerWrites src .nm → e = 0 ∨ 0x600 ≤ e ∧ s.etypeTaken.contains e = false →
    Completes (.nmEtypeWrite src e auto sl) s (fun t => t.fld .nm Nm.NM_CFG_ETYPE = e ∧ t.flag .nm Nm.NM_CFG_AUTO = auto ∧
      t.fld .nm Nm.NM_CFG_SLEEP_STATE = sl ∧ (e = 0 → t.flag .nm Nm.STATUS_NMS = false ∧ t.power.ntRun = false))) ∧
  (∀ s src e auto sl, s.ownerWrites src .nm → e ≠ 0 → e < 0x600 ∨ s.etypeTaken.contains e = true → s.fld .nm Hdr.ERR_CODE_CODE = 0 →
    Completes (.nmEtypeWrite src e auto sl) s (fun t => t.fld .nm Hdr.ERR_CODE_CODE = 0x20 ∧
      t.word .nm Nm.NM_CFG_ETYPE.off = s.word .nm Nm.NM_CFG_ETYPE.off)) ∧
  (∀ s, s.nmOn = true → s.flag .nm Nm.HOLD_HOLD = true → Completes .charmTxDue s (fun t => t.evt .nm 11 = true))

/-- Fuses, tamper sensors and debug (R444, R450, R452–R454): a permitted fuse that is 0 is programmed, and any other request fails with
OTP_LOCKED and programs none; a sensor that is enabled trips, is latched, and wipes keys but for TOKEN, which locks tokens; the TP then stops
for TP_REPEAT and restarts for the others; CHAL_REQ draws a nonce of 12 bytes, and a token opens debug with a wipe or is counted as a failure. -/
def Obligations.SecurityCommands : Prop :=
  (∀ s src i, i = s.fld .otp Otp.PROG_ADDR_BIT → s.trustedWrites src .otp → s.fuseAllowed i = true → s.fuse i = false →
    Completes (.otpProgram src) s (fun t => t.flag .otp Otp.PROG_STATUS_FAIL = false ∧
      ∀ j, t.mem.otp.get j = if j = i then 1 else s.mem.otp.get j)) ∧
  (∀ s src i, i = s.fld .otp Otp.PROG_ADDR_BIT → s.trustedWrites src .otp → s.fuseAllowed i = false ∨ s.fuse i = true →
    s.fld .otp Hdr.ERR_CODE_CODE = 0 → Completes (.otpProgram src) s (fun t => t.flag .otp Otp.PROG_STATUS_FAIL = true ∧
      t.fld .otp Hdr.ERR_CODE_CODE = 0x20 ∧ t.mem.otp = s.mem.otp)) ∧
  (∀ s n, n < 7 → (s.fld .lck Lck.TAMPER_EN_EN).testBit n = true → Completes (.tamperTrip n) s (fun t =>
    (t.fld .lck Lck.TAMPER_LATCH_TRIP).testBit n = true ∧ t.cnt .lck Lck.CNT_TAMPERS = s.cnt .lck Lck.CNT_TAMPERS + 1 ∧ t.evt .lck 8 = true ∧
    (n ≠ 6 → t.sec.keys = [] ∧ t.mem.locket = Sparse.empty ∧ t.flag .lck Lck.WIPE_STATUS_LOCKET_WIPED = true ∧ t.evt .lck 9 = true) ∧
    (n = 5 → t.procs.tp = 4) ∧ (n = 6 → t.sec.locked = true) ∧
    (n ≠ 5 → s.signet = true → t.procs.tp = 1 ∧ t.flag .tru Tru.TP_STATUS_RESTARTING = true))) ∧
  (∀ s n, (s.fld .lck Lck.TAMPER_EN_EN).testBit n = false → Completes (.tamperTrip n) s (fun t => t = s)) ∧
  (∀ s, s.pageOn .dbg = true → s.fld .dbg Dbg.STATE_ST = 0 → s.signet = true → Completes (.dbgChalReq .host) s (fun t =>
    ∃ l, t.sec.nonce = some l ∧ l.length = 12)) ∧
  (∀ s k, s.pageOn .dbg = true → s.fld .dbg Dbg.STATE_ST = 0 → s.signet = true → s.lc = 2 ∧ k = 5 ∨ s.lc = 3 ∧ k = 4 → s.sec.locked = false →
    s.tokenOk s.dbgToken 8 k = true → Completes (.dbgTokenSubmit .host) s (fun t => t.fld .dbg Dbg.STATE_ST = 1 ∧
      t.fld .dbg Dbg.RESULT_RES = 1 ∧ t.evt .dbg 8 = true ∧ t.sec.nonce = none ∧ t.sec.keys = [] ∧
      t.flag .lck Lck.WIPE_STATUS_DEBUG_WIPED = true)) ∧
  (∀ s k, s.pageOn .dbg = true → s.fld .dbg Dbg.STATE_ST = 0 → s.signet = true → s.lc = 2 ∧ k = 5 ∨ s.lc = 3 ∧ k = 4 → s.sec.locked = false →
    s.tokenOk s.dbgToken 8 k = false → Completes (.dbgTokenSubmit .host) s (fun t => t.fld .dbg Dbg.STATE_ST = 0 ∧
      t.fld .dbg Dbg.RESULT_RES = 2 ∧ t.evt .dbg 9 = true ∧ t.cnt .dbg Dbg.CNT_TOKEN_FAILS = s.cnt .dbg Dbg.CNT_TOKEN_FAILS + 1 ∧
      t.sec.nonce = none))

/-- Boots (R457, R458, R460). The first candidate, the ACTIVE slot, is booted when it passes: Signet runs, MP_BOOT stands in the code region, and
the record selected for the image is in use. No candidate leads to recovery. A wake with a seal that still holds boots warm, from the flash
ranges the seal names; MP_MAIN follows behind MP_BOOT. A trial that is not confirmed expires, and TRIES is 0. Where a component stands in its
code region is open (log entry 2), and so is the layout of the boot header (log entry 127). -/
def Obligations.BootCommands : Prop :=
  (∀ s, s.romWaits = true → s.warmDue = false → s.bootHdr.tries ≠ 1 → s.bootHdr.slot 0 = 1 → s.bootHdr.slot 1 ≠ 1 → s.imgReason 0 = none →
    Completes .coldBoot s (fun t => t.procs.tp = 3 ∧ t.signet = true ∧ t.fld .lck Lck.BOOT_STATUS_SLOT = 0 ∧
      t.fld .lck Lck.BOOT_STATUS_KIND = 0 ∧ t.flag .lck Lck.BOOT_STATUS_TRIAL = false ∧
      t.fld .lck Lck.FW_RUNNING_VERSION = s.img 0 8 4 ∧ (∀ j, s.recSelect (s.img 0 20 2) = some j → t.sec.recSlot = some j) ∧
      (s.procs.rung = [] → s.lc ≠ 5 → t.mem.msram.bytes (codePlace (s.imgParts 0) 0) (s.compLen 0 1) = s.compBytes 0 1))) ∧
  (∀ s, s.romWaits = true → s.warmDue = false → s.bootHdr.tries ≠ 1 → (∀ k, k < 2 → s.bootHdr.slot k ≠ 1 ∧ s.bootHdr.slot k ≠ 3) →
    s.procs.rung = [] → Completes .coldBoot s (fun t => t.sec.recovery = true ∧ t.fld .lck Lck.BOOT_STATUS_KIND = 2 ∧ t.procs.tp = 2)) ∧
  (∀ s w, s.romWaits = true → s.warmDue = true → s.sec.wakeSeal = some w → Completes .warmBoot s (fun t =>
    t.procs.tp = 3 ∧ t.signet = true ∧ t.fld .lck Lck.BOOT_STATUS_KIND = 1 ∧
    ∀ a n, w.parts.head? = some (a, n) → t.mem.tsram.bytes (signetPlace n) n = s.mem.flash.bytes a n)) ∧
  (∀ s w a n, s.sec.wakeSeal = some w → s.sec.mainDue = true → partAt w.parts 2 = (a, n) →
    Completes .mainReady s (fun t => t.sec.mainDue = false ∧ t.evt .lck 13 = true ∧
      t.mem.msram.bytes (mainPlace w.parts s.sec.region) n = s.mem.flash.bytes a n)) ∧
  (∀ s a, s.sec.trialAt = some a → s.signet = true → s.bootHdr.seq + 1 < 2 ^ 32 → Completes .trialExpired s (fun t => t.sec.trialAt = none ∧ t.bootHdr.tries = 0 ∧
    t.evt .lck 11 = true))

/-- Resets (R449, R484, R494, R504–R507): each records its level and its source in RST_CAUSE, and a DEVICE reset by POR_N in force absorbs a
SYSTEM reset. After COLD the fuses, the flash and the host's memory are as before and SRAM and the scratchpad are zero; a DEVICE reset keeps
Locket, a SYSTEM reset ends in RUN, a MGMT reset leaves every MP but MP0 OFF. The TP is released when the pin that held it rises, and at once
after a reset by command. While POR_N or SYS_RST_N holds its reset nothing that is sent has an effect (R505). LC_TRANSITION programs the fuses of its target, wipes Locket but on the way to DEPLOYED, and resets the device. What stays open of levels and tokens is chosen in log
entries 12, 69 and 71. -/
def Obligations.ResetCommands : Prop :=
  (∀ s l, s.rst.off = true → CompletesAlways (.coldReset l) s (fun t => t.rst = { off := false, perst := s.rst.perst, xspiAt := 10000 } ∧ t.procs.tp = 1 ∧
    t.fld .sys Sys.RST_CAUSE_LEVEL = 0 ∧ t.fld .sys Sys.RST_CAUSE_SOURCE = (if s.rst.brown then 4 else 0) ∧
    t.mem.otp = s.mem.otp ∧ t.mem.flash = s.mem.flash ∧ t.mem.host = s.mem.host ∧ t.mem.scratch = Sparse.empty ∧ t.mem.msram = Sparse.empty)) ∧
  (∀ s l, s.rst.off = false → CompletesAlways (.coldReset l) s (fun t => t = s)) ∧
  (∀ s, CompletesAlways .brownOut s (fun t => t.rst = { off := true, brown := true, perst := s.rst.perst } ∧ t.regs = State.reset.regs ∧ t.procs = State.reset.procs ∧
    t.mem.otp = s.mem.otp ∧ t.mem.flash = s.mem.flash)) ∧
  (∀ s, s.rst.off = false → s.rst.por = false → CompletesAlways .porNLow s (fun t => t.rst.por = true ∧ t.procs.tp = 0 ∧
    t.fld .sys Sys.RST_CAUSE_LEVEL = 1 ∧ t.fld .sys Sys.RST_CAUSE_SOURCE = 1 ∧ t.mem.locket = s.mem.locket)) ∧
  (∀ s, s.rst.off = false → s.rst.sys = false → s.rst.por = false → CompletesAlways .sysRstNLow s (fun t => t.rst.sys = true ∧ t.procs.tp = 0 ∧
    t.fld .sys Sys.RST_CAUSE_LEVEL = 2 ∧ t.fld .sys Sys.RST_CAUSE_SOURCE = 2 ∧ t.pwrSt = 0 ∧ t.phase = 0)) ∧
  (∀ s, s.rst.off = false → s.rst.sys = false → s.rst.por = true → CompletesAlways .sysRstNLow s (fun t =>
    t.rst.sys = true ∧ t.regs = s.regs ∧ t.procs = s.procs)) ∧
  (∀ s, s.rst.off = false → s.rst.por = true → s.rst.sys = false → CompletesAlways (.resetSourceRelease .por) s (fun t =>
    t.rst.por = false ∧ t.procs.tp = 1)) ∧
  (∀ s, s.rst.off = false → s.rst.sys = true → s.rst.por = false → CompletesAlways (.resetSourceRelease .sys) s (fun t =>
    t.rst.sys = false ∧ t.procs.tp = 1)) ∧
  (∀ s src, s.trustedWrites src .sys → s.resetHeld = false → Completes (.rstCtrlDevice src) s (fun t =>
    t.fld .sys Sys.RST_CAUSE_LEVEL = 1 ∧ t.fld .sys Sys.RST_CAUSE_SOURCE = 3 ∧ t.procs.tp = 1)) ∧
  (∀ s src, s.trustedWrites src .sys → s.resetHeld = false → Completes (.rstCtrlSystem src) s (fun t =>
    t.fld .sys Sys.RST_CAUSE_LEVEL = 2 ∧ t.fld .sys Sys.RST_CAUSE_SOURCE = 3 ∧ t.procs.tp = 1)) ∧
  (∀ s src, s.trustedWrites src .sys → s.resetHeld = false → Completes (.rstCtrlMgmt src) s (fun t =>
    t.fld .sys Sys.RST_CAUSE_LEVEL = 3 ∧ t.fld .sys Sys.RST_CAUSE_SOURCE = 3 ∧ ∀ m, 0 < m → m < 4 → t.mpSt m = 0)) ∧
  (∀ s, s.signet = true → (∀ m, m < 4 → s.mpSt m ≠ 2) → s.resetHeld = false → Completes .noMpTimeout s (fun t =>
    t.fld .sys Sys.RST_CAUSE_LEVEL = 3 ∧ t.fld .sys Sys.RST_CAUSE_SOURCE = 5 ∧ ∀ m, 0 < m → m < 4 → t.mpSt m = 0)) ∧
  (∀ s slot, s.serving slot 0xE30 → s.mayUpdate slot → s.resetHeld = false → Completes (.mgmtReset slot) s (fun t =>
    t.fld .sys Sys.RST_CAUSE_LEVEL = 3 ∧ t.fld .sys Sys.RST_CAUSE_SOURCE = 3 ∧ ∀ m, 0 < m → m < 4 → t.mpSt m = 0)) ∧
  (∀ s slot goal, s.serving slot 0xE02 → s.mayUpdate slot → s.sec.locked = false → (s.mbxArg slot).length = 120 →
    goal = byteAt (s.mbxArg slot) 0 → s.lcAllowed (s.mbxArg slot) goal = true → (s.lc = 2 → goal = 3 → s.hukSet = true) →
    Completes (.lcTransition slot) s (fun t =>
      (∀ k, k < 3 * (if goal = 5 then 6 else goal) → t.fuse (80 + k) = true) ∧
      (¬(s.lc = 2 ∧ goal = 3) → t.sec.keys = [] ∧ t.mem.locket = Sparse.empty) ∧
      t.fld .sys Sys.RST_CAUSE_LEVEL = 1 ∧ t.fld .sys Sys.RST_CAUSE_SOURCE = 3)) ∧
  (∀ s, s.rst.perst = true → CompletesAlways (.resetSourceRelease .perst) s (fun t => t.rst = { s.rst with perst := false } ∧ t.regs = s.regs)) ∧
  (∀ s c src bar a l who kind size ecc, s.resetHeld = true → c ∈ [Instr.registerWrite src bar a l, .misalignedRead src bar a size ecc,
      .processorMemoryAccess who kind a size l ecc, .hostTxFrame [] none, .coldBoot] → CompletesAlways c s (fun t => t = s))

/-- The ageing monitor, the clocks' islands and the balls. A sample of each island that is ON (R473–R475); VREQ is stored and the regulator moves,
unless it lies above the ceiling (R480); a step upward, and one downward, which a low margin takes back and logs (R480); a canary that fails
raises its island by a step (R476); a period that reaches its value (R481); the reference's alarm (R496); the edge of a ball (R508); the
instructions of the TAP, with the boundary register on the pins under EXTEST and CLAMP and none under HIGHZ where R509 permits them, BYPASS where
it does not, and the debug port's access to the scratchpad (R509). -/
def Obligations.SiliconCommands : Prop :=
  (∀ s l, Completes (.ageSample l) s (fun t => t.cnt .age Age.CNT_SAMPLES = s.cnt .age Age.CNT_SAMPLES + 1 ∧ t.evt .age 8 = true ∧
    ∀ i, i < 14 → s.islandCond i = 2 → t.fld .age (Age.MARGIN_MARGIN i) = min (l.getD i {}).margin 1023 ∧
      t.fld .age (Age.MARGIN_MARGIN_WC i) = s.marginWc i (l.getD i {}).margin (l.getD i {}).temp % 1024 ∧
      t.fld .clk (Clk.TEMP_T i) = unsigned 9 (l.getD i {}).temp)) ∧
  (∀ s src i v, i < 14 → s.ownerWrites src .clk → v ≤ s.vCeil i → v ≤ 24 → Completes (.vreqWrite src i v) s (fun t =>
    t.fld .clk (Clk.ISL_V_VREQ i) = v ∧ t.power.vMove.get i = if v = s.vNow i then none else some v)) ∧
  (∀ s src i v, s.ownerWrites src .clk → s.vCeil i < v ∨ 24 < v → s.fld .clk Hdr.ERR_CODE_CODE = 0 → Completes (.vreqWrite src i v) s (fun t =>
    t.fld .clk Hdr.ERR_CODE_CODE = 0x20 ∧ t.power = s.power)) ∧
  (∀ s i x g, i < 14 → s.power.vMove.get i = some g → s.vNow i < g → g < 32 → Completes (.voltageMoveStep i x) s (fun t =>
    t.vNow i = s.vNow i + 1 ∧ t.cnt .clk Clk.CNT_V_STEPS = s.cnt .clk Clk.CNT_V_STEPS + 1 ∧
    (s.vNow i + 1 = g → t.evt .clk 8 = true ∧ t.power.vMove.get i = none))) ∧
  (∀ s i x g, i < 14 → s.power.vMove.get i = some g → g < s.vNow i → s.mMin ≤ s.marginWc i x.margin x.temp →
    Completes (.voltageMoveStep i x) s (fun t => t.vNow i = s.vNow i - 1 ∧
      t.cnt .clk Clk.CNT_V_STEPS = s.cnt .clk Clk.CNT_V_STEPS + 1)) ∧
  (∀ s i x g, i < 14 → s.power.vMove.get i = some g → g < s.vNow i → s.marginWc i x.margin x.temp < s.mMin →
    s.fld .clk Hdr.ERR_CODE_CODE = 0 → Completes (.voltageMoveStep i x) s (fun t => t.vNow i = s.vNow i ∧ t.power.vMove.get i = none ∧
      t.fld .clk Hdr.ERR_CODE_CODE = 0x21)) ∧
  (∀ s i, i < 14 → s.vNow i < s.vCeil i → Completes (.canaryFail i) s (fun t =>
    (t.fld .clk Clk.ALARM_CANARY).testBit i = true ∧ t.cnt .clk Clk.CNT_CANARY_ALARMS = s.cnt .clk Clk.CNT_CANARY_ALARMS + 1 ∧
    t.evt .clk 10 = true ∧ ∃ g, t.power.vMove.get i = some g ∧ s.vNow i < g)) ∧
  (∀ s i, i < 14 → s.fld .clk (Clk.ISL_F_K i) ≠ s.fld .clk (Clk.ISL_F_KNOW i) → s.awaits .clk = false → Completes (.frequencyGlideDone i) s (fun t =>
    t.fld .clk (Clk.ISL_F_KNOW i) = s.fld .clk (Clk.ISL_F_K i) ∧ t.cnt .clk Clk.CNT_F_STEPS = s.cnt .clk Clk.CNT_F_STEPS + 1 ∧
    t.evt .clk 9 = true)) ∧
  (∀ s, Completes .xtalAlarm s (fun t => t.flag .clk Clk.ALARM_XTAL = true ∧ t.evt .clk 10 = true)) ∧
  (∀ s i high, i < 16 → (s.fld .gpio Gpio.IN_LEVEL).testBit i ≠ high → Completes (.gpioEdge i high) s (fun t =>
    (∀ j, j < 16 → (t.fld .gpio Gpio.IN_LEVEL).testBit j = if j = i then high else (s.fld .gpio Gpio.IN_LEVEL).testBit j) ∧
    ((s.fld .gpio (if high then Gpio.RISE_EN else Gpio.FALL_EN)).testBit i = true → t.evt .gpio (8 + i) = true))) ∧
  (∀ s, CompletesAlways .tapReset s (fun t => t.tap = { s.tap with ir := .idcode } ∧ t.regs = s.regs ∧ t.mem = s.mem)) ∧
  (∀ s, CompletesAlways .bypass s (fun t => t.tap.ir = .bypass ∧ (∃ o, t.out = o ++ [.tdo 1 0]) ∧ t.regs = s.regs)) ∧
  (∀ s, CompletesAlways .idcode s (fun t => t.tap.ir = .idcode ∧ t.regs = s.regs ∧ ∃ o, t.out = o ++
    [.tdo 32 (s.fld .sys Hdr.ID_VER % 16 * 2 ^ 28 + 0x2560 * 2 ^ 12 + s.fuses 112 11 * 2 + 1)])) ∧
  (∀ s balls v, CompletesAlways (.samplePreload balls v) s (fun t => t.tap = { ir := .sample, boundary := v } ∧ .tdo 0 balls ∈ t.out ∧
    t.regs = s.regs)) ∧
  (∀ s balls v, CompletesAlways (.extest balls v) s (fun t => t.regs = s.regs ∧ t.tap.ir = s.tapTakes .extest ∧
    (s.tapTakes .extest = .extest → t.tap.boundary = v ∧ t.tap.pins = .boundary v ∧ .tdo 0 balls ∈ t.out) ∧
    (s.tapTakes .extest = .bypass → t.tap.boundary = s.tap.boundary ∧ t.tap.pins = .device ∧ .tdo 1 0 ∈ t.out))) ∧
  (∀ s, CompletesAlways .clamp s (fun t => t.tap = { s.tap with ir := s.tapTakes .clamp } ∧ t.regs = s.regs ∧ .tdo 1 0 ∈ t.out ∧
    (s.tapTakes .clamp = .clamp → s.tap.ir = .idcode → .pins (.boundary s.tap.boundary) ∈ t.out))) ∧
  (∀ s, CompletesAlways .highz s (fun t => t.tap = { s.tap with ir := s.tapTakes .highz } ∧ t.regs = s.regs ∧ .tdo 1 0 ∈ t.out ∧
    (s.tapTakes .highz = .highz → s.tap.ir = .idcode → .pins .highz ∈ t.out))) ∧
  (∀ s off v, s.pageOn .scr = true → off + 4 ≤ 0x200000 → Completes (.dbgAccess (0x2000000 + off) (some v)) s (fun t =>
    t.tap.ir = .dbgAccess ∧ ∀ j, t.mem.scratch.get j =
      if off ≤ j ∧ j < off + 4 then (leBytes 4 v).getD (j - off) 0 else s.mem.scratch.get j)) ∧
  (∀ s off, s.pageOn .scr = true → off + 4 ≤ 0x200000 → Completes (.dbgAccess (0x2000000 + off) none) s (fun t =>
    t.out = s.out ++ [.readData (0x2000000 + off) 4 (leNat (s.mem.scratch.bytes off 4))] ∧ t.tap.ir = .dbgAccess))

/-- Accesses of a processor that executes, outside BAR0 and the bridge windows (R306, R307): a load gives what the memory, or the line that its
cache holds, holds; the TP's store is performed; a word that SECDED cannot correct and an address where nothing is fault and are logged; FENCE
drains the write buffer and FENCE.I empties the instruction cache (R307, R315). A word of Locket that cannot be corrected faults the TP, and TRU
logs it (R445; the model's reading, log entry 116). -/
def Obligations.ProcessorAccesses : Prop :=
  (∀ s off size, s.tpRuns = true → 0 < size → off + size ≤ 0x60000 →
    Completes (.processorMemoryAccess none .load (0x10000000 + off) size [] .clean) s (fun t =>
      t = s.emit (.procData 5 (leNat (s.mem.tsram.bytes off size))))) ∧
  (∀ s off d, s.tpRuns = true → d ≠ [] → off + d.length ≤ 0x60000 →
    Completes (.processorMemoryAccess none .store (0x10000000 + off) d.length d .clean) s (fun t =>
      t.mem.tsram = s.mem.tsram.putBytes off d ∧ t.out = s.out ++ [.procDone 5])) ∧
  (∀ s (m : Fin 4) off size, s.mpRuns m.val = true → 0 < size → off + size ≤ 0xC00000 →
    Completes (.processorMemoryAccess (some m) .load (0x80000000 + off) size [] .clean) s (fun t =>
      t.out = s.out ++ [.procData (1 + m.val) (leNat (s.seenBytes false m.val off size))] ∧ t.mem = s.mem ∧ t.regs = s.regs)) ∧
  (∀ s (m : Fin 4) off size, s.mpRuns m.val = true → 0 < size → off + size ≤ 0xC00000 → s.cached false m.val off = false →
    s.fld .mpc Hdr.ERR_CODE_CODE = 0 → Completes (.processorMemoryAccess (some m) .load (0x80000000 + off) size [] .lost) s (fun t =>
      (∃ o, t.out = o ++ [.procFault (1 + m.val)]) ∧ t.fld .mpc Hdr.ERR_CODE_CODE = 5)) ∧
  (∀ s (m : Fin 4) a size, s.mpRuns m.val = true → 0 < size → 0x104000000 ≤ a → a < 0x1000000000 → s.fld .mpc Hdr.ERR_CODE_CODE = 0 →
    Completes (.processorMemoryAccess (some m) .load a size [] .clean) s (fun t =>
      (∃ o, t.out = o ++ [.procFault (1 + m.val)]) ∧ t.fld .mpc Hdr.ERR_CODE_CODE = 3 ∧ t.mem = s.mem)) ∧
  (∀ s (m : Fin 4) a size d ecc, s.mpRuns m.val = true → Completes (.processorMemoryAccess (some m) .sync a size d ecc) s (fun t =>
    t.procs.wbuf.get m.val = [] ∧ t.out = s.out ++ [.procDone (1 + m.val)])) ∧
  (∀ s (m : Fin 4) a size d ecc, s.mpRuns m.val = true → Completes (.processorMemoryAccess (some m) .fenceI a size d ecc) s (fun t =>
    t.procs.icache.get m.val = [] ∧ t.out = s.out ++ [.procDone (1 + m.val)])) ∧
  (∀ s off size, s.tpRuns = true → 0 < size → off + size ≤ 0x40000 → s.fld .tru Hdr.ERR_CODE_CODE = 0 →
    Completes (.processorMemoryAccess none .load (0x20000000 + off) size [] .lost) s (fun t =>
      (∃ o, t.out = o ++ [.procFault 5]) ∧ t.fld .tru Hdr.ERR_CODE_CODE = 5 ∧ t.mem = s.mem)) ∧
  (∀ s off size, s.tpRuns = true → 0 < size → off + size ≤ 0x40000 →
    Completes (.processorMemoryAccess none .load (0x20000000 + off) size [] .clean) s (fun t =>
      t.out = s.out ++ [.procData 5 (leNat (s.mem.locket.bytes off size))] ∧ t.mem = s.mem))

/-! ## The whole machine -/

/-- After reset no command waits, no memory lists a byte, and every page is TRUSTED with LOCKED = 0 (R39), with no error held, no event latched
and nothing pending. The queue, the outputs and the blank memories are the model's choices (log entries 5, 6, 7). -/
def Obligations.ResetState : Prop :=
  State.reset.pending = [] ∧ State.reset.out = [] ∧ State.reset.mem = {} ∧
  ∀ p : Page, p.ok = true → State.reset.ownerClass p = 2 ∧ State.reset.flag p Hdr.OWNER_LOCKED = false ∧
    State.reset.fld p Hdr.ERR_CODE_CODE = 0 ∧ State.reset.word p Hdr.EVT_RAW_RAW.off = 0 ∧ State.reset.status p = 0

/-- The invariant of the block holds after reset. -/
def Obligations.ResetMeetsInvariant : Prop := State.reset.Inv

/-- Every step keeps the invariant: each memory stays in its canonical form, and a fuse cell stays 0 or 1 (R444). -/
def Obligations.StepKeepsInvariant : Prop := ∀ s t : State, s.Inv → step s = .next t → t.Inv

/-- A fuse goes from 0 to 1 once and never returns: no command and no tick takes a programmed fuse back, whatever resets or power loss it
stands for (R444). -/
def Obligations.FusesNeverClear : Prop := ∀ s t : State, step s = .next t → ∀ i, s.mem.otp.get i = 1 → t.mem.otp.get i = 1

/-- A step takes exactly the front command off the queue, and what was presented outside before it stays presented; the free values it draws
are new ones. The queue, the list of outputs and the counter of free values are the model's own (log entries 1, 10, 75). -/
def Obligations.StepConsumesTheFront : Prop :=
  ∀ s t : State, step s = .next t → t.pending = s.pending.drop 1 ∧ s.out <+: t.out ∧ s.frees ≤ t.frees

/-- The frame of every command: a part of State that the table of `mayChange` does not name for it is left as it was, whatever the state, the
operands and the outcome for its sender. Byte by byte of the memories: a write of a table window changes its four bytes alone (R188, R351); a
register command changes in management SRAM only bytes that wait in its sender's own write buffer (R315), a fence only such as wait in one; the
commands of the boot header and of the sealed store change no flash outside them, a block only the bytes of its range, a sealed record only its
slot, an ageing save only the two ageing blocks (R446, R455, R460, R463, R485). The places inside the flash regions are log entry 127. -/
def Obligations.FrameOfEveryCommand : Prop :=
  (∀ (c : Instr) (s t : State), exec c s = .next t → ∀ q, q ∉ mayChange c → q.same s t) ∧
  (∀ s t src a v p b k w c at', (c, at') ∈ [(Instr.bankWrite src a v, a), (.gateListWrite src p b k w v, gateAddr p b k + 4 * w),
      (.connPageWrite src a v, a)] → exec c s = .next t → ∀ x, x < at' ∨ at' + 4 ≤ x → t.mem.win.get x = s.mem.win.get x) ∧
  (∀ s t src p off v n shadow x ecc c, c ∈ [Instr.shadowWrite src p off v, .tabDataAccess src p shadow x ecc, .commitRequest src p,
      .commitAbandon src p, .errClear src p, .snap src p, .ownerWrite src p n, .ownerLock src p, .evtClr src p v, .evtRouteWrite src n v,
      .mdioRead src n, .mdioWrite src n, .tc10SleepReq src n, .tc10WakeReq src n, .bankWrite src off v, .fibStageWrite src off v,
      .fibEntryApply src off v, .stageClr src, .meterClr src v, .adjWrite src n v, .slewCfgWrite src v, .domainStep src n, .domainSet src n,
      .tsnap src, .txtsPop src, .nodeWrite src n shadow, .roleCmdTake src, .roleCmdYield src, .roleCmdForce src, .traceRelease src,
      .fwWdogKick src, .mpStart src n, .mpGo src n, .mringTail src n v, .canRecover src n, .pnSleepReq src n, .pnWakeReq src n,
      .linSleepReq src n, .linWakeReq src n, .connPageWrite src off v, .jobGo src n, .donePop src n, .keyLoad src, .keyZero src,
      .pwlogPop src, .rxTailDoorbell src n v, .txTailDoorbell src n v, .dmaDoorbell src n v, .dmaResume src n, .dmaSkip src n, .dbSet src v,
      .powerReqRun src, .powerReqPartial src, .powerReqDoze src, .powerReqSleep src, .wakeConfirm src, .nmHoldWrite src shadow v,
      .nmEtypeWrite src n shadow v, .otpProgram src, .dbgChalReq src, .vreqWrite src n v] → exec c s = .next t →
    ∀ a, (∀ m, src = .mp m → ∀ e ∈ s.procs.wbuf.get m.val, ∀ b ∈ e.bytes, b.1 ≠ a) → t.mem.msram.get a = s.mem.msram.get a) ∧
  (∀ s t src n c, c ∈ [Instr.mpFenceReq src n, .mpFenceDrained n, .mpcFence src] → exec c s = .next t →
    ∀ a, (∀ m, ∀ e ∈ s.procs.wbuf.get m, ∀ b ∈ e.bytes, b.1 ≠ a) → t.mem.msram.get a = s.mem.msram.get a) ∧
  (∀ s t slot w c, c ∈ [Instr.imgBegin slot, .imgStage slot, .imgCommit slot, .imgAbandon slot, .tpRestartDone w, .trialExpired, .coldBoot] →
    exec c s = .next t → ∀ a, (∀ k, k < 2 → a < hdrBase k ∨ hdrBase k + 12 ≤ a) → t.mem.flash.get a = s.mem.flash.get a) ∧
  (∀ s t slot c, c ∈ [Instr.keyPut slot, .keyPutWrapped slot, .keyDelete slot, .keyCountSync] → s.sec.keys.length ≤ 2048 →
    exec c s = .next t → ∀ a, a < sealBase 0 ∨ sealBase 2 ≤ a → t.mem.flash.get a = s.mem.flash.get a) ∧
  (∀ s t slot bad c d base, (c, d, base) ∈ [(Instr.imgBlock slot bad, s.sec.img, imgBase), (.recBlock slot bad, s.sec.recDel, recBase)] →
    exec c s = .next t → ∀ a, (∀ e, d = some e → a < base e.slot + leAt (s.mbxArg slot) 0 4 ∨
      base e.slot + leAt (s.mbxArg slot) 0 4 + leAt (s.mbxArg slot) 4 4 ≤ a) → t.mem.flash.get a = s.mem.flash.get a) ∧
  (∀ s t slot, exec (.recSeal slot) s = .next t → ∀ a, a < recBase s.recTarget ∨ recBase (s.recTarget + 1) ≤ a →
    t.mem.flash.get a = s.mem.flash.get a) ∧
  (∀ s t slot, exec (.ageSave slot) s = .next t → ∀ a, a < ageBase 0 ∨ ageBase 2 ≤ a → t.mem.flash.get a = s.mem.flash.get a)

/-- The frame of register commands, register by register: every register of BAR0 but those named reads as before, and every part of State but
those named is as it was (R26, R28–R30, R39, R42, R244, R316, R404). A processor's own write buffer drains first (R315). -/
def Obligations.FrameOfRegisterCommands : Prop :=
  (∀ s src p v c offs parts, (c, offs, parts) ∈
      [(Instr.errClear src p, [Hdr.ERR_CODE_CODE.off, Hdr.ERR_INFO_SRC.off, Hdr.ERR_ADDR_LO_ADDR.off, Hdr.ERR_ADDR_HI_ADDR.off], [Component.regs]),
       (.snap src p, [Hdr.SNAP_TIME_NS.off], [.regs, .snapshot]),
       (.evtClr src p v, [Hdr.EVT_RAW_RAW.off], [.regs, .counters, .pcie, .out])] →
    s.ownerWrites src p → Completes c s (fun t => s.onlyRegs t p offs ∧ ∀ q, q ∉ parts ++ [.msram, .procs] → q.same s t)) ∧
  (∀ s src p cls c, c = Instr.ownerWrite src p cls ∨ c = .ownerLock src p → s.trustedWrites src p → s.flag p Hdr.OWNER_LOCKED = false →
    Completes c s (fun t => s.onlyRegs t p [Hdr.OWNER_CLASS.off] ∧ ∀ q, q ∉ [Component.regs, .msram, .procs] → q.same s t)) ∧
  (∀ s src k v p c offs parts, (p, c, offs, parts) ∈
      [(Page.sys, Instr.evtRouteWrite src k v, [(Sys.EVT_ROUTE_VECTOR k).off], [Component.regs, .counters, .pcie, .out]),
       (.time, .tsnap src, [Time.TSNAP_LOCAL_LO_NS.off, Time.TSNAP_LOCAL_HI_NS.off] ++ (List.range 4).flatMap (fun d =>
         [(Time.TSNAP_D_NS_NS d).off, (Time.TSNAP_D_S_LO_S d).off, (Time.TSNAP_D_S_HI_S d).off]), [.regs]),
       (.mpc, .mringTail src k v, [(Mpc.MRING_TAIL_TAIL k).off], [.regs]),
       (.ring, .rxTailDoorbell src k v, [(Ring.RX_TAIL_TAIL k).off], [.regs]),
       (.ring, .txTailDoorbell src k v, [(Ring.TX_TAIL_TAIL k).off], [.regs]),
       (.scr, .dbSet src v, [Hdr.EVT_RAW_RAW.off], [.regs, .counters, .pcie, .out])] →
    s.ownerWrites src p → Completes c s (fun t => s.onlyRegs t p offs ∧ ∀ q, q ∉ parts ++ [.msram, .procs] → q.same s t))

/-- A command of one CAN channel, LIN channel, TDM link or cipher page leaves the engine of every other as it was. -/
def Obligations.ChannelsKeepApart : Prop :=
  (∀ s t n m f dlc ago lec tx big sign src, n ≠ m → (∃ c, c ∈
      [Instr.canFrameReceived n f dlc ago, .canArbitrationStart n, .canTxDone n, .canError n lec tx big ago, .boHoldExpiry n, .canRecover src n,
       .canIntegrated n, .canRecovered n, .pnSleepReq src n, .pnWakeReq src n, .pnListenEnter n, .cmacJobDone n sign, .cmacJobTimeout n sign] ∧
      exec c s = .next t) → t.cans.get m = s.cans.get m) ∧
  (∀ s t n m i rate ok data check k ago src, n ≠ m → (∃ c, c ∈
      [Instr.linScheduleSlot n, .linHeaderReceived n i rate ok, .linResponseReceived n data check k ago, .linNoResponse n, .linSleepReq src n,
       .linWakeReq src n, .linGoToSleepReceived n, .linIdleTimeout n, .linDominantWake n, .linScheduleRestart n] ∧
      exec c s = .next t) → t.lins.get m = s.lins.get m) ∧
  (∀ s t n m pos k frame pin x, n ≠ m → (∃ c, c ∈
      [Instr.slot0Received n pos k frame, .mfSearchTimeout n, .losRise n pin x, .losClear n pin x, .performanceSecond n] ∧ exec c s = .next t) →
    t.tdms.get m = s.tdms.get m) ∧
  (∀ s t n m img bad z corr src, n ≠ m → (∃ c, c ∈ [Instr.jobGo src n, .cipherJobDone n img bad z corr, .donePop src n] ∧ exec c s = .next t) →
    t.cips.get m = s.cips.get m)

/-! ## Rules of the specification that are stated whole -/

/-- R336. A frame matches the wake pattern when its masked identifier, its format and (with DLC_EN) its DLC are the pattern's and, where PN_DATA is
not 0, some data byte j has a bit of PN_DATA bits [8j + 7:8j]; a remote frame never matches. -/
def Obligations.WakePattern : Prop :=
  ∀ (s : State) (n : Nat) (f : CanFrame) (dlc pat : Nat),
    pat = s.fld (.can n) Can.PN_DATA_LO_MASK + 2 ^ 32 * s.fld (.can n) Can.PN_DATA_HI_MASK →
    (s.pnMatch n f dlc = true ↔ f.rtr = false ∧
      f.id &&& s.fld (.can n) Can.PN_IDMASK_MASK = s.fld (.can n) Can.PN_ID_ID &&& s.fld (.can n) Can.PN_IDMASK_MASK ∧
      f.eff = s.flag (.can n) Can.PN_ID_EFF ∧
      (s.flag (.can n) Can.PN_CFG_DLC_EN = true → dlc = s.fld (.can n) Can.PN_CFG_DLC) ∧
      (pat ≠ 0 → ∃ j, j < 8 ∧ byteAt f.data j &&& (pat / 2 ^ (8 * j) % 256) ≠ 0))

/-- R461. IMG_VERIFY passes only when SEC_VER of the new image is at least SEC_VERSION of the fuses and the image in the ACTIVE slot and the new one
each have a VERSION that is at least the other's COMPAT_MIN; an image that fails one of these and nothing before it gives REASON 9 or 10. -/
def Obligations.ImageVersionRules : Prop :=
  (∀ s slot d, s.serving slot 0xD03 → s.mayUpdate slot → s.sec.img = some d → Completes (.imgVerify slot) s (fun t =>
    (∃ l, t.answered slot 0 l) → s.versionsHold d.slot)) ∧
  (∀ s slot d, s.serving slot 0xD03 → s.mayUpdate slot → s.sec.img = some d → s.sec.staged = none → d.complete = true →
    (∀ c, c < 3 → s.compOff d.slot c + s.compLen d.slot c ≤ d.length) → s.imgReason d.slot = none ∨ s.imgReason d.slot = some 9 → ¬s.versionsHold d.slot → Completes (.imgVerify slot) s (fun t =>
      t.answered slot 2 [9] ∨ t.answered slot 2 [10]))

/-- R474. The corrected margin of an island is its margin less the ceiling of a sixteenth of the larger product of a calibration coefficient and the
distance of the island's temperature from that end of its range, and not less than 0. -/
def Obligations.CorrectedMargin : Prop :=
  ∀ (s : State) (l : List Sensor), (∀ r ∈ l, r.margin < 1024 ∧ -256 ≤ r.temp ∧ r.temp < 256) → Completes (.ageSample l) s (fun t =>
    ∀ (i : Nat) (temp x : Int), i < 14 → s.islandCond i = 2 → temp = signed 9 (t.fld .clk (Clk.TEMP_T i)) →
      x = max (s.fld .age (Age.CAL_TC_HOT i) * (125 - temp)) (s.fld .age (Age.CAL_TC_COLD i) * (temp + 40)) →
      ∃ q : Int, x ≤ 16 * q ∧ 16 * q < x + 16 ∧
        (t.fld .age (Age.MARGIN_MARGIN_WC i) : Int) = max 0 (t.fld .age (Age.MARGIN_MARGIN i) - q))

/-- R266. The match algorithm discards and counts a repeat of RECOV; else it passes and counts the frame, counts one that is not RECOV + 1 as out of
order, takes its number as RECOV and restarts the function's time. TAKE_ANY passes the first whatever its number. -/
def Obligations.MatchRecovery : Prop :=
  ∀ (s : State) (n seq : Nat) (f g : FrerFn) (t : State), f = s.frerFn n → t = (s.frerMatch n seq).2 → g = t.frerFn n →
    (f.takeAny = false → seq = f.recov → (s.frerMatch n seq).1 = false ∧ g = { f with discarded := (f.discarded + 1) % 65536 } ∧
      t.cntTab .frer 2 n 1 = s.cntTab .frer 2 n 1 + 1) ∧
    (f.takeAny = true ∨ seq ≠ f.recov → (s.frerMatch n seq).1 = true ∧
      g = { f with recov := seq, takeAny := false, last := s.now, passed := (f.passed + 1) % 65536 } ∧
      t.cntTab .frer 2 n 0 = s.cntTab .frer 2 n 0 + 1 ∧ t.cntTab .frer 2 n 2 = s.cntTab .frer 2 n 2 +
        if f.takeAny = false ∧ seq ≠ (f.recov + 1) % 65536 then 1 else 0)
end

