-- ==== Sys2Proof/Laws/Store.lean ====
section
/-! SUPPORT. Laws of the sparse stores: what a write changes and what it leaves, and that the byte memories keep their canonical form. -/
namespace Sys2Proof.Machine

section
variable {α : Type} [DecidableEq α] {d : Nat → α}

omit [DecidableEq α] in
theorem cellsGet_low (d : Nat → α) (l : List (Nat × α)) (m k : Nat) (h : cellsOk d (some m) l) (hk : k ≤ m) :
    cellsGet d l k = d k := by
  cases l with
  | nil => rfl
  | cons c t =>
    obtain ⟨k', v⟩ := c
    have h1 := h.1
    simp only [cellsGet]
    rw [if_neg (by omega), if_pos (by omega)]

theorem cellsGet_set_some (d : Nat → α) (l : List (Nat × α)) (m k : Nat) (v : α) (j : Nat) (h : cellsOk d (some m) l) :
    cellsGet d (cellsSet d l k v) j = if j = k then v else cellsGet d l j := by
  induction l generalizing m with
  | nil =>
    by_cases hv : v = d k <;> by_cases hj : j = k <;> simp [cellsSet, cellsGet, hv, hj]
  | cons c t ih =>
    obtain ⟨k', v'⟩ := c
    obtain ⟨h1, h2, h3⟩ := h
    by_cases hk : k < k'
    · by_cases hv : v = d k
      · by_cases hj : j = k
        · subst hj
          simp only [cellsSet, hk, if_true, hv, cellsGet]
          rw [if_neg (by omega)]
        · simp [cellsSet, hk, hv, hj]
      · by_cases hj : j = k
        · subst hj; simp [cellsSet, hk, hv, cellsGet]
        · by_cases hj2 : j < k
          · simp only [cellsSet, hk, if_true, hv, if_false, cellsGet, hj, hj2]
            rw [if_neg (by omega), if_pos (by omega)]
          · simp only [cellsSet, hk, if_true, hv, if_false, cellsGet, hj, hj2]
    · by_cases he : k = k'
      · subst he
        by_cases hv : v = d k
        · simp only [cellsSet, Nat.lt_irrefl, if_false, if_true, hv]
          by_cases hj : j = k
          · subst hj
            rw [if_pos rfl]
            exact cellsGet_low d t j j h3 (Nat.le_refl j)
          · rw [if_neg hj]
            by_cases hj2 : j < k
            · rw [cellsGet_low d t k j h3 (Nat.le_of_lt hj2)]
              simp [cellsGet, hj, hj2]
            · simp [cellsGet, hj, hj2]
        · by_cases hj : j = k <;> simp [cellsSet, hv, cellsGet, hj]
      · have hlt : k' < k := by omega
        simp only [cellsSet, hk, he, if_false, cellsGet]
        by_cases hj : j = k'
        · subst hj
          rw [if_pos rfl, if_neg (by omega), if_pos rfl]
        · rw [if_neg hj, if_neg hj]
          by_cases hj2 : j < k'
          · rw [if_pos hj2, if_pos hj2, if_neg (by omega)]
          · rw [if_neg hj2, if_neg hj2]
            exact ih k' h3

theorem cellsGet_set (d : Nat → α) (l : List (Nat × α)) (k : Nat) (v : α) (j : Nat) (h : cellsOk d none l) :
    cellsGet d (cellsSet d l k v) j = if j = k then v else cellsGet d l j := by
  cases l with
  | nil => by_cases hv : v = d k <;> by_cases hj : j = k <;> simp [cellsSet, cellsGet, hv, hj]
  | cons c t =>
    obtain ⟨k', v'⟩ := c
    obtain ⟨h2, h3⟩ := h
    by_cases hp : k' = 0
    · subst hp
      by_cases hk : k = 0
      · subst hk
        by_cases hv : v = d 0
        · simp only [cellsSet, Nat.lt_irrefl, if_false, if_true, hv]
          by_cases hj : j = 0
          · subst hj
            rw [if_pos rfl]
            exact cellsGet_low d t 0 0 h3 (Nat.le_refl 0)
          · simp [cellsGet, hj]
        · by_cases hj : j = 0 <;> simp [cellsSet, hv, cellsGet, hj]
      · simp only [cellsSet, Nat.not_lt_zero, hk, if_false, cellsGet]
        by_cases hj : j = 0
        · subst hj
          rw [if_pos rfl, if_neg (by omega), if_pos rfl]
        · rw [if_neg hj, if_neg hj]
          exact cellsGet_set_some d t 0 k v j h3
    · have hlow : cellsOk d (some (k' - 1)) ((k', v') :: t) := ⟨by omega, h2, h3⟩
      exact cellsGet_set_some d _ (k' - 1) k v j hlow

/-- A read after a write. -/
theorem Sparse.get_set (m : Sparse α d) (k : Nat) (v : α) (j : Nat) : (m.set k v).get j = if j = k then v else m.get j :=
  cellsGet_set d m.cells k v j m.ok

@[simp] theorem Sparse.get_set_same (m : Sparse α d) (k : Nat) (v : α) : (m.set k v).get k = v := by
  rw [Sparse.get_set, if_pos rfl]

theorem Sparse.get_set_other (m : Sparse α d) (k j : Nat) (v : α) (h : j ≠ k) : (m.set k v).get j = m.get j := by
  rw [Sparse.get_set, if_neg h]

@[simp] theorem Sparse.get_modify_same (m : Sparse α d) (k : Nat) (f : α → α) : (m.modify k f).get k = f (m.get k) := by
  simp [Sparse.modify]

theorem Sparse.get_modify_other (m : Sparse α d) (k j : Nat) (f : α → α) (h : j ≠ k) : (m.modify k f).get j = m.get j :=
  Sparse.get_set_other m k j _ h

end

@[simp] theorem Sparse.get_empty {α : Type} {d : Nat → α} (k : Nat) : (Sparse.empty : Sparse α d).get k = d k := rfl

/-- What is kept reads as before; what is not reads as its default. -/
theorem cellsGet_filter_some {α : Type} (d : Nat → α) (f : Nat → Bool) (l : List (Nat × α)) (m k : Nat) (h : cellsOk d (some m) l) :
    cellsGet d (l.filter (fun c => f c.1)) k = if f k then cellsGet d l k else d k := by
  induction l generalizing m with
  | nil => simp [cellsGet]
  | cons c t ih =>
    obtain ⟨k', v⟩ := c
    obtain ⟨h1, h2, h3⟩ := h
    have h3' := cellsFilter_ok_some d f t k' h3
    have ih' := ih k' h3
    by_cases hf : f k' = true
    · simp only [List.filter, hf, cellsGet]
      by_cases hk : k = k'
      · subst hk; simp [hf]
      · by_cases hk2 : k < k'
        · simp [hk, hk2]
        · simp [hk, hk2, ih']
    · have hf' : f k' = false := by simpa using hf
      simp only [List.filter, hf', cellsGet]
      rw [ih']
      by_cases hk : k = k'
      · subst hk; simp [hf']
      · by_cases hk2 : k < k'
        · simp [hk, hk2]
          intro _
          cases t with
          | nil => rfl
          | cons c2 t2 =>
            obtain ⟨k2, v2⟩ := c2
            have := h3.1
            simp only [cellsGet]
            rw [if_neg (by omega), if_pos (by omega)]
        · simp [hk, hk2]

theorem Sparse.get_keep {α : Type} {d : Nat → α} (m : Sparse α d) (f : Nat → Bool) (k : Nat) :
    (m.keep f).get k = if f k then m.get k else d k := by
  obtain ⟨l, ok⟩ := m
  show cellsGet d (l.filter (fun c => f c.1)) k = if f k then cellsGet d l k else d k
  cases l with
  | nil => simp [cellsGet]
  | cons c t =>
    obtain ⟨k', v⟩ := c
    obtain ⟨h2, h3⟩ := ok
    have key := cellsGet_filter_some d f t k' k h3
    by_cases hf : f k' = true
    · simp only [List.filter, hf, cellsGet]
      by_cases hk : k = k'
      · subst hk; simp [hf]
      · by_cases hk2 : k < k'
        · simp [hk, hk2]
        · simp [hk, hk2, key]
    · have hf' : f k' = false := by simpa using hf
      simp only [List.filter, hf', cellsGet]
      rw [key]
      by_cases hk : k = k'
      · subst hk; simp [hf']
      · by_cases hk2 : k < k'
        · simp only [hk, hk2, if_true, if_false]
          split
          · cases t with
            | nil => rfl
            | cons c2 t2 =>
              obtain ⟨k2, v2⟩ := c2
              have := h3.1
              simp only [cellsGet]
              rw [if_neg (by omega), if_pos (by omega)]
          · rfl
        · simp [hk, hk2]

/-- A key that a list of writes does not name reads as before. -/
theorem Sparse.get_setAll_other {α : Type} [DecidableEq α] {d : Nat → α} (m : Sparse α d) (l : List (Nat × α)) (k : Nat)
    (h : ∀ c ∈ l, c.1 ≠ k) : (m.setAll l).get k = m.get k := by
  induction l generalizing m with
  | nil => rfl
  | cons c t ih =>
    obtain ⟨k', v⟩ := c
    have h1 : k' ≠ k := h (k', v) (by simp)
    simp only [Sparse.setAll]
    rw [ih _ (fun c hc => h c (by simp [hc])), Sparse.get_set_other _ _ _ _ (fun e => h1 e.symm)]

/-! ## Bytes -/

/-- Bytes written from an address read back; every other address reads as before. -/
theorem Sparse.get_putBytes (m : Mem) (a : Nat) (l : List Byte) (j : Nat) :
    (m.putBytes a l).get j = if a ≤ j ∧ j < a + l.length then l.getD (j - a) 0 else m.get j := by
  induction l generalizing m a with
  | nil =>
    have h : ¬(a ≤ j ∧ j < a + ([] : List Byte).length) := by simp only [List.length_nil]; omega
    rw [if_neg h]; rfl
  | cons b t ih =>
    simp only [Sparse.putBytes, List.length_cons]
    rw [ih, Sparse.get_set]
    by_cases hj : j = a
    · subst hj
      rw [if_neg (by omega), if_pos rfl, if_pos (by omega)]; simp
    · by_cases hin : a + 1 ≤ j ∧ j < a + 1 + t.length
      · rw [if_pos hin, if_pos (by omega)]
        have : j - a = (j - (a + 1)) + 1 := by omega
        rw [this]; simp
      · rw [if_neg hin, if_neg hj, if_neg (by omega)]

theorem cellsWf_of_ok_some (l : List Host.Cell) (m : Nat) (h : cellsOk (fun _ => (0 : Byte)) (some m) l) : cellsWf l = true := by
  induction l generalizing m with
  | nil => rfl
  | cons c t ih =>
    obtain ⟨k, v⟩ := c
    obtain ⟨_, h2, h3⟩ := h
    have h2' : (v != 0) = true := by simpa using h2
    cases t with
    | nil => exact h2'
    | cons c2 t2 =>
      obtain ⟨k2, v2⟩ := c2
      have h4 : k < k2 := h3.1
      have h5 := ih k h3
      simp only [cellsWf, h2', Bool.and_eq_true, decide_eq_true_eq, true_and]
      exact ⟨h4, h5⟩

/-- Every byte memory is in canonical form: the type keeps it, so every operation does. -/
theorem Mem.wf_all (m : Mem) : m.wf = true := by
  obtain ⟨l, ok⟩ := m
  show cellsWf l = true
  cases l with
  | nil => rfl
  | cons c t =>
    obtain ⟨k, v⟩ := c
    obtain ⟨h2, h3⟩ := ok
    have h2' : (v != 0) = true := by simpa using h2
    cases t with
    | nil => exact h2'
    | cons c2 t2 =>
      obtain ⟨k2, v2⟩ := c2
      have h5 := cellsWf_of_ok_some _ k h3
      simp only [cellsWf, h2', Bool.and_eq_true, decide_eq_true_eq, true_and]
      exact ⟨h3.1, h5⟩

end Sys2Proof.Machine
end

