-- ==== Sys2Proof/Laws/State.lean ====
section
/-! SUPPORT. What each plain update of the state writes, and that it leaves every other field: one lemma per field. -/
namespace Sys2Proof.Machine

section
variable (s : State)

@[simp] theorem State.setWord_regs (p : Page) (off : Nat) (w : Word) : (s.setWord p off w).regs = s.regs.set (p.base + off) w := rfl
@[simp] theorem State.setWord_tabs (p : Page) (off : Nat) (w : Word) : (s.setWord p off w).tabs = s.tabs := rfl
@[simp] theorem State.setWord_tabsShadow (p : Page) (off : Nat) (w : Word) : (s.setWord p off w).tabsShadow = s.tabsShadow := rfl
@[simp] theorem State.setWord_counters (p : Page) (off : Nat) (w : Word) : (s.setWord p off w).counters = s.counters := rfl
@[simp] theorem State.setWord_snapshot (p : Page) (off : Nat) (w : Word) : (s.setWord p off w).snapshot = s.snapshot := rfl
@[simp] theorem State.setWord_mem (p : Page) (off : Nat) (w : Word) : (s.setWord p off w).mem = s.mem := rfl
@[simp] theorem State.setWord_drainTimer (p : Page) (off : Nat) (w : Word) : (s.setWord p off w).drainTimer = s.drainTimer := rfl
@[simp] theorem State.setWord_applying (p : Page) (off : Nat) (w : Word) : (s.setWord p off w).applying = s.applying := rfl
@[simp] theorem State.setWord_plan (p : Page) (off : Nat) (w : Word) : (s.setWord p off w).plan = s.plan := rfl
@[simp] theorem State.setWord_dp (p : Page) (off : Nat) (w : Word) : (s.setWord p off w).dp = s.dp := rfl
@[simp] theorem State.setWord_pcie (p : Page) (off : Nat) (w : Word) : (s.setWord p off w).pcie = s.pcie := rfl
@[simp] theorem State.setWord_now (p : Page) (off : Nat) (w : Word) : (s.setWord p off w).now = s.now := rfl
@[simp] theorem State.setWord_dom (p : Page) (off : Nat) (w : Word) : (s.setWord p off w).dom = s.dom := rfl
@[simp] theorem State.setWord_txts (p : Page) (off : Nat) (w : Word) : (s.setWord p off w).txts = s.txts := rfl
@[simp] theorem State.setWord_frer (p : Page) (off : Nat) (w : Word) : (s.setWord p off w).frer = s.frer := rfl
@[simp] theorem State.setWord_frerScan (p : Page) (off : Nat) (w : Word) : (s.setWord p off w).frerScan = s.frerScan := rfl
@[simp] theorem State.setWord_clasp (p : Page) (off : Nat) (w : Word) : (s.setWord p off w).clasp = s.clasp := rfl
@[simp] theorem State.setWord_bridge (p : Page) (off : Nat) (w : Word) : (s.setWord p off w).bridge = s.bridge := rfl
@[simp] theorem State.setWord_procs (p : Page) (off : Nat) (w : Word) : (s.setWord p off w).procs = s.procs := rfl
@[simp] theorem State.setWord_power (p : Page) (off : Nat) (w : Word) : (s.setWord p off w).power = s.power := rfl
@[simp] theorem State.setWord_cans (p : Page) (off : Nat) (w : Word) : (s.setWord p off w).cans = s.cans := rfl
@[simp] theorem State.setWord_lins (p : Page) (off : Nat) (w : Word) : (s.setWord p off w).lins = s.lins := rfl
@[simp] theorem State.setWord_tdms (p : Page) (off : Nat) (w : Word) : (s.setWord p off w).tdms = s.tdms := rfl
@[simp] theorem State.setWord_tsi (p : Page) (off : Nat) (w : Word) : (s.setWord p off w).tsi = s.tsi := rfl
@[simp] theorem State.setWord_cips (p : Page) (off : Nat) (w : Word) : (s.setWord p off w).cips = s.cips := rfl
@[simp] theorem State.setWord_sec (p : Page) (off : Nat) (w : Word) : (s.setWord p off w).sec = s.sec := rfl
@[simp] theorem State.setWord_ringPend (p : Page) (off : Nat) (w : Word) : (s.setWord p off w).ringPend = s.ringPend := rfl
@[simp] theorem State.setWord_slots (p : Page) (off : Nat) (w : Word) : (s.setWord p off w).slots = s.slots := rfl
@[simp] theorem State.setWord_rst (p : Page) (off : Nat) (w : Word) : (s.setWord p off w).rst = s.rst := rfl
@[simp] theorem State.setWord_tap (p : Page) (off : Nat) (w : Word) : (s.setWord p off w).tap = s.tap := rfl
@[simp] theorem State.setWord_frees (p : Page) (off : Nat) (w : Word) : (s.setWord p off w).frees = s.frees := rfl
@[simp] theorem State.setWord_out (p : Page) (off : Nat) (w : Word) : (s.setWord p off w).out = s.out := rfl
@[simp] theorem State.setWord_pending (p : Page) (off : Nat) (w : Word) : (s.setWord p off w).pending = s.pending := rfl

@[simp] theorem State.setFld_regs (p : Page) (f : Fld) (v : Nat) : (s.setFld p f v).regs = s.regs.set (p.base + f.off) (f.ins (s.word p f.off) v) := rfl
@[simp] theorem State.setFld_tabs (p : Page) (f : Fld) (v : Nat) : (s.setFld p f v).tabs = s.tabs := rfl
@[simp] theorem State.setFld_tabsShadow (p : Page) (f : Fld) (v : Nat) : (s.setFld p f v).tabsShadow = s.tabsShadow := rfl
@[simp] theorem State.setFld_counters (p : Page) (f : Fld) (v : Nat) : (s.setFld p f v).counters = s.counters := rfl
@[simp] theorem State.setFld_snapshot (p : Page) (f : Fld) (v : Nat) : (s.setFld p f v).snapshot = s.snapshot := rfl
@[simp] theorem State.setFld_mem (p : Page) (f : Fld) (v : Nat) : (s.setFld p f v).mem = s.mem := rfl
@[simp] theorem State.setFld_drainTimer (p : Page) (f : Fld) (v : Nat) : (s.setFld p f v).drainTimer = s.drainTimer := rfl
@[simp] theorem State.setFld_applying (p : Page) (f : Fld) (v : Nat) : (s.setFld p f v).applying = s.applying := rfl
@[simp] theorem State.setFld_plan (p : Page) (f : Fld) (v : Nat) : (s.setFld p f v).plan = s.plan := rfl
@[simp] theorem State.setFld_dp (p : Page) (f : Fld) (v : Nat) : (s.setFld p f v).dp = s.dp := rfl
@[simp] theorem State.setFld_pcie (p : Page) (f : Fld) (v : Nat) : (s.setFld p f v).pcie = s.pcie := rfl
@[simp] theorem State.setFld_now (p : Page) (f : Fld) (v : Nat) : (s.setFld p f v).now = s.now := rfl
@[simp] theorem State.setFld_dom (p : Page) (f : Fld) (v : Nat) : (s.setFld p f v).dom = s.dom := rfl
@[simp] theorem State.setFld_txts (p : Page) (f : Fld) (v : Nat) : (s.setFld p f v).txts = s.txts := rfl
@[simp] theorem State.setFld_frer (p : Page) (f : Fld) (v : Nat) : (s.setFld p f v).frer = s.frer := rfl
@[simp] theorem State.setFld_frerScan (p : Page) (f : Fld) (v : Nat) : (s.setFld p f v).frerScan = s.frerScan := rfl
@[simp] theorem State.setFld_clasp (p : Page) (f : Fld) (v : Nat) : (s.setFld p f v).clasp = s.clasp := rfl
@[simp] theorem State.setFld_bridge (p : Page) (f : Fld) (v : Nat) : (s.setFld p f v).bridge = s.bridge := rfl
@[simp] theorem State.setFld_procs (p : Page) (f : Fld) (v : Nat) : (s.setFld p f v).procs = s.procs := rfl
@[simp] theorem State.setFld_power (p : Page) (f : Fld) (v : Nat) : (s.setFld p f v).power = s.power := rfl
@[simp] theorem State.setFld_cans (p : Page) (f : Fld) (v : Nat) : (s.setFld p f v).cans = s.cans := rfl
@[simp] theorem State.setFld_lins (p : Page) (f : Fld) (v : Nat) : (s.setFld p f v).lins = s.lins := rfl
@[simp] theorem State.setFld_tdms (p : Page) (f : Fld) (v : Nat) : (s.setFld p f v).tdms = s.tdms := rfl
@[simp] theorem State.setFld_tsi (p : Page) (f : Fld) (v : Nat) : (s.setFld p f v).tsi = s.tsi := rfl
@[simp] theorem State.setFld_cips (p : Page) (f : Fld) (v : Nat) : (s.setFld p f v).cips = s.cips := rfl
@[simp] theorem State.setFld_sec (p : Page) (f : Fld) (v : Nat) : (s.setFld p f v).sec = s.sec := rfl
@[simp] theorem State.setFld_ringPend (p : Page) (f : Fld) (v : Nat) : (s.setFld p f v).ringPend = s.ringPend := rfl
@[simp] theorem State.setFld_slots (p : Page) (f : Fld) (v : Nat) : (s.setFld p f v).slots = s.slots := rfl
@[simp] theorem State.setFld_rst (p : Page) (f : Fld) (v : Nat) : (s.setFld p f v).rst = s.rst := rfl
@[simp] theorem State.setFld_tap (p : Page) (f : Fld) (v : Nat) : (s.setFld p f v).tap = s.tap := rfl
@[simp] theorem State.setFld_frees (p : Page) (f : Fld) (v : Nat) : (s.setFld p f v).frees = s.frees := rfl
@[simp] theorem State.setFld_out (p : Page) (f : Fld) (v : Nat) : (s.setFld p f v).out = s.out := rfl
@[simp] theorem State.setFld_pending (p : Page) (f : Fld) (v : Nat) : (s.setFld p f v).pending = s.pending := rfl

@[simp] theorem State.setTab_regs (p : Page) (t e k : Nat) (w : Word) : (s.setTab p t e k w).regs = s.regs := rfl
@[simp] theorem State.setTab_tabs (p : Page) (t e k : Nat) (w : Word) : (s.setTab p t e k w).tabs = s.tabs.set (tabKey p t e k) w := rfl
@[simp] theorem State.setTab_tabsShadow (p : Page) (t e k : Nat) (w : Word) : (s.setTab p t e k w).tabsShadow = s.tabsShadow := rfl
@[simp] theorem State.setTab_counters (p : Page) (t e k : Nat) (w : Word) : (s.setTab p t e k w).counters = s.counters := rfl
@[simp] theorem State.setTab_snapshot (p : Page) (t e k : Nat) (w : Word) : (s.setTab p t e k w).snapshot = s.snapshot := rfl
@[simp] theorem State.setTab_mem (p : Page) (t e k : Nat) (w : Word) : (s.setTab p t e k w).mem = s.mem := rfl
@[simp] theorem State.setTab_drainTimer (p : Page) (t e k : Nat) (w : Word) : (s.setTab p t e k w).drainTimer = s.drainTimer := rfl
@[simp] theorem State.setTab_applying (p : Page) (t e k : Nat) (w : Word) : (s.setTab p t e k w).applying = s.applying := rfl
@[simp] theorem State.setTab_plan (p : Page) (t e k : Nat) (w : Word) : (s.setTab p t e k w).plan = s.plan := rfl
@[simp] theorem State.setTab_dp (p : Page) (t e k : Nat) (w : Word) : (s.setTab p t e k w).dp = s.dp := rfl
@[simp] theorem State.setTab_pcie (p : Page) (t e k : Nat) (w : Word) : (s.setTab p t e k w).pcie = s.pcie := rfl
@[simp] theorem State.setTab_now (p : Page) (t e k : Nat) (w : Word) : (s.setTab p t e k w).now = s.now := rfl
@[simp] theorem State.setTab_dom (p : Page) (t e k : Nat) (w : Word) : (s.setTab p t e k w).dom = s.dom := rfl
@[simp] theorem State.setTab_txts (p : Page) (t e k : Nat) (w : Word) : (s.setTab p t e k w).txts = s.txts := rfl
@[simp] theorem State.setTab_frer (p : Page) (t e k : Nat) (w : Word) : (s.setTab p t e k w).frer = s.frer := rfl
@[simp] theorem State.setTab_frerScan (p : Page) (t e k : Nat) (w : Word) : (s.setTab p t e k w).frerScan = s.frerScan := rfl
@[simp] theorem State.setTab_clasp (p : Page) (t e k : Nat) (w : Word) : (s.setTab p t e k w).clasp = s.clasp := rfl
@[simp] theorem State.setTab_bridge (p : Page) (t e k : Nat) (w : Word) : (s.setTab p t e k w).bridge = s.bridge := rfl
@[simp] theorem State.setTab_procs (p : Page) (t e k : Nat) (w : Word) : (s.setTab p t e k w).procs = s.procs := rfl
@[simp] theorem State.setTab_power (p : Page) (t e k : Nat) (w : Word) : (s.setTab p t e k w).power = s.power := rfl
@[simp] theorem State.setTab_cans (p : Page) (t e k : Nat) (w : Word) : (s.setTab p t e k w).cans = s.cans := rfl
@[simp] theorem State.setTab_lins (p : Page) (t e k : Nat) (w : Word) : (s.setTab p t e k w).lins = s.lins := rfl
@[simp] theorem State.setTab_tdms (p : Page) (t e k : Nat) (w : Word) : (s.setTab p t e k w).tdms = s.tdms := rfl
@[simp] theorem State.setTab_tsi (p : Page) (t e k : Nat) (w : Word) : (s.setTab p t e k w).tsi = s.tsi := rfl
@[simp] theorem State.setTab_cips (p : Page) (t e k : Nat) (w : Word) : (s.setTab p t e k w).cips = s.cips := rfl
@[simp] theorem State.setTab_sec (p : Page) (t e k : Nat) (w : Word) : (s.setTab p t e k w).sec = s.sec := rfl
@[simp] theorem State.setTab_ringPend (p : Page) (t e k : Nat) (w : Word) : (s.setTab p t e k w).ringPend = s.ringPend := rfl
@[simp] theorem State.setTab_slots (p : Page) (t e k : Nat) (w : Word) : (s.setTab p t e k w).slots = s.slots := rfl
@[simp] theorem State.setTab_rst (p : Page) (t e k : Nat) (w : Word) : (s.setTab p t e k w).rst = s.rst := rfl
@[simp] theorem State.setTab_tap (p : Page) (t e k : Nat) (w : Word) : (s.setTab p t e k w).tap = s.tap := rfl
@[simp] theorem State.setTab_frees (p : Page) (t e k : Nat) (w : Word) : (s.setTab p t e k w).frees = s.frees := rfl
@[simp] theorem State.setTab_out (p : Page) (t e k : Nat) (w : Word) : (s.setTab p t e k w).out = s.out := rfl
@[simp] theorem State.setTab_pending (p : Page) (t e k : Nat) (w : Word) : (s.setTab p t e k w).pending = s.pending := rfl

@[simp] theorem State.setTabF_regs (p : Page) (t e k hi lo v : Nat) : (s.setTabF p t e k hi lo v).regs = s.regs := rfl
@[simp] theorem State.setTabF_tabs (p : Page) (t e k hi lo v : Nat) : (s.setTabF p t e k hi lo v).tabs = s.tabs.set (tabKey p t e k) ((⟨0, lo, hi - lo + 1⟩ : Fld).ins (s.tab p t e k) v) := rfl
@[simp] theorem State.setTabF_tabsShadow (p : Page) (t e k hi lo v : Nat) : (s.setTabF p t e k hi lo v).tabsShadow = s.tabsShadow := rfl
@[simp] theorem State.setTabF_counters (p : Page) (t e k hi lo v : Nat) : (s.setTabF p t e k hi lo v).counters = s.counters := rfl
@[simp] theorem State.setTabF_snapshot (p : Page) (t e k hi lo v : Nat) : (s.setTabF p t e k hi lo v).snapshot = s.snapshot := rfl
@[simp] theorem State.setTabF_mem (p : Page) (t e k hi lo v : Nat) : (s.setTabF p t e k hi lo v).mem = s.mem := rfl
@[simp] theorem State.setTabF_drainTimer (p : Page) (t e k hi lo v : Nat) : (s.setTabF p t e k hi lo v).drainTimer = s.drainTimer := rfl
@[simp] theorem State.setTabF_applying (p : Page) (t e k hi lo v : Nat) : (s.setTabF p t e k hi lo v).applying = s.applying := rfl
@[simp] theorem State.setTabF_plan (p : Page) (t e k hi lo v : Nat) : (s.setTabF p t e k hi lo v).plan = s.plan := rfl
@[simp] theorem State.setTabF_dp (p : Page) (t e k hi lo v : Nat) : (s.setTabF p t e k hi lo v).dp = s.dp := rfl
@[simp] theorem State.setTabF_pcie (p : Page) (t e k hi lo v : Nat) : (s.setTabF p t e k hi lo v).pcie = s.pcie := rfl
@[simp] theorem State.setTabF_now (p : Page) (t e k hi lo v : Nat) : (s.setTabF p t e k hi lo v).now = s.now := rfl
@[simp] theorem State.setTabF_dom (p : Page) (t e k hi lo v : Nat) : (s.setTabF p t e k hi lo v).dom = s.dom := rfl
@[simp] theorem State.setTabF_txts (p : Page) (t e k hi lo v : Nat) : (s.setTabF p t e k hi lo v).txts = s.txts := rfl
@[simp] theorem State.setTabF_frer (p : Page) (t e k hi lo v : Nat) : (s.setTabF p t e k hi lo v).frer = s.frer := rfl
@[simp] theorem State.setTabF_frerScan (p : Page) (t e k hi lo v : Nat) : (s.setTabF p t e k hi lo v).frerScan = s.frerScan := rfl
@[simp] theorem State.setTabF_clasp (p : Page) (t e k hi lo v : Nat) : (s.setTabF p t e k hi lo v).clasp = s.clasp := rfl
@[simp] theorem State.setTabF_bridge (p : Page) (t e k hi lo v : Nat) : (s.setTabF p t e k hi lo v).bridge = s.bridge := rfl
@[simp] theorem State.setTabF_procs (p : Page) (t e k hi lo v : Nat) : (s.setTabF p t e k hi lo v).procs = s.procs := rfl
@[simp] theorem State.setTabF_power (p : Page) (t e k hi lo v : Nat) : (s.setTabF p t e k hi lo v).power = s.power := rfl
@[simp] theorem State.setTabF_cans (p : Page) (t e k hi lo v : Nat) : (s.setTabF p t e k hi lo v).cans = s.cans := rfl
@[simp] theorem State.setTabF_lins (p : Page) (t e k hi lo v : Nat) : (s.setTabF p t e k hi lo v).lins = s.lins := rfl
@[simp] theorem State.setTabF_tdms (p : Page) (t e k hi lo v : Nat) : (s.setTabF p t e k hi lo v).tdms = s.tdms := rfl
@[simp] theorem State.setTabF_tsi (p : Page) (t e k hi lo v : Nat) : (s.setTabF p t e k hi lo v).tsi = s.tsi := rfl
@[simp] theorem State.setTabF_cips (p : Page) (t e k hi lo v : Nat) : (s.setTabF p t e k hi lo v).cips = s.cips := rfl
@[simp] theorem State.setTabF_sec (p : Page) (t e k hi lo v : Nat) : (s.setTabF p t e k hi lo v).sec = s.sec := rfl
@[simp] theorem State.setTabF_ringPend (p : Page) (t e k hi lo v : Nat) : (s.setTabF p t e k hi lo v).ringPend = s.ringPend := rfl
@[simp] theorem State.setTabF_slots (p : Page) (t e k hi lo v : Nat) : (s.setTabF p t e k hi lo v).slots = s.slots := rfl
@[simp] theorem State.setTabF_rst (p : Page) (t e k hi lo v : Nat) : (s.setTabF p t e k hi lo v).rst = s.rst := rfl
@[simp] theorem State.setTabF_tap (p : Page) (t e k hi lo v : Nat) : (s.setTabF p t e k hi lo v).tap = s.tap := rfl
@[simp] theorem State.setTabF_frees (p : Page) (t e k hi lo v : Nat) : (s.setTabF p t e k hi lo v).frees = s.frees := rfl
@[simp] theorem State.setTabF_out (p : Page) (t e k hi lo v : Nat) : (s.setTabF p t e k hi lo v).out = s.out := rfl
@[simp] theorem State.setTabF_pending (p : Page) (t e k hi lo v : Nat) : (s.setTabF p t e k hi lo v).pending = s.pending := rfl

@[simp] theorem State.setTabSh_regs (p : Page) (t e k : Nat) (w : Word) : (s.setTabSh p t e k w).regs = s.regs := rfl
@[simp] theorem State.setTabSh_tabs (p : Page) (t e k : Nat) (w : Word) : (s.setTabSh p t e k w).tabs = s.tabs := rfl
@[simp] theorem State.setTabSh_tabsShadow (p : Page) (t e k : Nat) (w : Word) : (s.setTabSh p t e k w).tabsShadow = s.tabsShadow.set (tabKey p t e k) w := rfl
@[simp] theorem State.setTabSh_counters (p : Page) (t e k : Nat) (w : Word) : (s.setTabSh p t e k w).counters = s.counters := rfl
@[simp] theorem State.setTabSh_snapshot (p : Page) (t e k : Nat) (w : Word) : (s.setTabSh p t e k w).snapshot = s.snapshot := rfl
@[simp] theorem State.setTabSh_mem (p : Page) (t e k : Nat) (w : Word) : (s.setTabSh p t e k w).mem = s.mem := rfl
@[simp] theorem State.setTabSh_drainTimer (p : Page) (t e k : Nat) (w : Word) : (s.setTabSh p t e k w).drainTimer = s.drainTimer := rfl
@[simp] theorem State.setTabSh_applying (p : Page) (t e k : Nat) (w : Word) : (s.setTabSh p t e k w).applying = s.applying := rfl
@[simp] theorem State.setTabSh_plan (p : Page) (t e k : Nat) (w : Word) : (s.setTabSh p t e k w).plan = s.plan := rfl
@[simp] theorem State.setTabSh_dp (p : Page) (t e k : Nat) (w : Word) : (s.setTabSh p t e k w).dp = s.dp := rfl
@[simp] theorem State.setTabSh_pcie (p : Page) (t e k : Nat) (w : Word) : (s.setTabSh p t e k w).pcie = s.pcie := rfl
@[simp] theorem State.setTabSh_now (p : Page) (t e k : Nat) (w : Word) : (s.setTabSh p t e k w).now = s.now := rfl
@[simp] theorem State.setTabSh_dom (p : Page) (t e k : Nat) (w : Word) : (s.setTabSh p t e k w).dom = s.dom := rfl
@[simp] theorem State.setTabSh_txts (p : Page) (t e k : Nat) (w : Word) : (s.setTabSh p t e k w).txts = s.txts := rfl
@[simp] theorem State.setTabSh_frer (p : Page) (t e k : Nat) (w : Word) : (s.setTabSh p t e k w).frer = s.frer := rfl
@[simp] theorem State.setTabSh_frerScan (p : Page) (t e k : Nat) (w : Word) : (s.setTabSh p t e k w).frerScan = s.frerScan := rfl
@[simp] theorem State.setTabSh_clasp (p : Page) (t e k : Nat) (w : Word) : (s.setTabSh p t e k w).clasp = s.clasp := rfl
@[simp] theorem State.setTabSh_bridge (p : Page) (t e k : Nat) (w : Word) : (s.setTabSh p t e k w).bridge = s.bridge := rfl
@[simp] theorem State.setTabSh_procs (p : Page) (t e k : Nat) (w : Word) : (s.setTabSh p t e k w).procs = s.procs := rfl
@[simp] theorem State.setTabSh_power (p : Page) (t e k : Nat) (w : Word) : (s.setTabSh p t e k w).power = s.power := rfl
@[simp] theorem State.setTabSh_cans (p : Page) (t e k : Nat) (w : Word) : (s.setTabSh p t e k w).cans = s.cans := rfl
@[simp] theorem State.setTabSh_lins (p : Page) (t e k : Nat) (w : Word) : (s.setTabSh p t e k w).lins = s.lins := rfl
@[simp] theorem State.setTabSh_tdms (p : Page) (t e k : Nat) (w : Word) : (s.setTabSh p t e k w).tdms = s.tdms := rfl
@[simp] theorem State.setTabSh_tsi (p : Page) (t e k : Nat) (w : Word) : (s.setTabSh p t e k w).tsi = s.tsi := rfl
@[simp] theorem State.setTabSh_cips (p : Page) (t e k : Nat) (w : Word) : (s.setTabSh p t e k w).cips = s.cips := rfl
@[simp] theorem State.setTabSh_sec (p : Page) (t e k : Nat) (w : Word) : (s.setTabSh p t e k w).sec = s.sec := rfl
@[simp] theorem State.setTabSh_ringPend (p : Page) (t e k : Nat) (w : Word) : (s.setTabSh p t e k w).ringPend = s.ringPend := rfl
@[simp] theorem State.setTabSh_slots (p : Page) (t e k : Nat) (w : Word) : (s.setTabSh p t e k w).slots = s.slots := rfl
@[simp] theorem State.setTabSh_rst (p : Page) (t e k : Nat) (w : Word) : (s.setTabSh p t e k w).rst = s.rst := rfl
@[simp] theorem State.setTabSh_tap (p : Page) (t e k : Nat) (w : Word) : (s.setTabSh p t e k w).tap = s.tap := rfl
@[simp] theorem State.setTabSh_frees (p : Page) (t e k : Nat) (w : Word) : (s.setTabSh p t e k w).frees = s.frees := rfl
@[simp] theorem State.setTabSh_out (p : Page) (t e k : Nat) (w : Word) : (s.setTabSh p t e k w).out = s.out := rfl
@[simp] theorem State.setTabSh_pending (p : Page) (t e k : Nat) (w : Word) : (s.setTabSh p t e k w).pending = s.pending := rfl

@[simp] theorem State.bump_regs (p : Page) (off n : Nat) : (s.bump p off n).regs = s.regs := rfl
@[simp] theorem State.bump_tabs (p : Page) (off n : Nat) : (s.bump p off n).tabs = s.tabs := rfl
@[simp] theorem State.bump_tabsShadow (p : Page) (off n : Nat) : (s.bump p off n).tabsShadow = s.tabsShadow := rfl
@[simp] theorem State.bump_counters (p : Page) (off n : Nat) : (s.bump p off n).counters = s.counters.modify (p.base + off) (· + n) := rfl
@[simp] theorem State.bump_snapshot (p : Page) (off n : Nat) : (s.bump p off n).snapshot = s.snapshot := rfl
@[simp] theorem State.bump_mem (p : Page) (off n : Nat) : (s.bump p off n).mem = s.mem := rfl
@[simp] theorem State.bump_drainTimer (p : Page) (off n : Nat) : (s.bump p off n).drainTimer = s.drainTimer := rfl
@[simp] theorem State.bump_applying (p : Page) (off n : Nat) : (s.bump p off n).applying = s.applying := rfl
@[simp] theorem State.bump_plan (p : Page) (off n : Nat) : (s.bump p off n).plan = s.plan := rfl
@[simp] theorem State.bump_dp (p : Page) (off n : Nat) : (s.bump p off n).dp = s.dp := rfl
@[simp] theorem State.bump_pcie (p : Page) (off n : Nat) : (s.bump p off n).pcie = s.pcie := rfl
@[simp] theorem State.bump_now (p : Page) (off n : Nat) : (s.bump p off n).now = s.now := rfl
@[simp] theorem State.bump_dom (p : Page) (off n : Nat) : (s.bump p off n).dom = s.dom := rfl
@[simp] theorem State.bump_txts (p : Page) (off n : Nat) : (s.bump p off n).txts = s.txts := rfl
@[simp] theorem State.bump_frer (p : Page) (off n : Nat) : (s.bump p off n).frer = s.frer := rfl
@[simp] theorem State.bump_frerScan (p : Page) (off n : Nat) : (s.bump p off n).frerScan = s.frerScan := rfl
@[simp] theorem State.bump_clasp (p : Page) (off n : Nat) : (s.bump p off n).clasp = s.clasp := rfl
@[simp] theorem State.bump_bridge (p : Page) (off n : Nat) : (s.bump p off n).bridge = s.bridge := rfl
@[simp] theorem State.bump_procs (p : Page) (off n : Nat) : (s.bump p off n).procs = s.procs := rfl
@[simp] theorem State.bump_power (p : Page) (off n : Nat) : (s.bump p off n).power = s.power := rfl
@[simp] theorem State.bump_cans (p : Page) (off n : Nat) : (s.bump p off n).cans = s.cans := rfl
@[simp] theorem State.bump_lins (p : Page) (off n : Nat) : (s.bump p off n).lins = s.lins := rfl
@[simp] theorem State.bump_tdms (p : Page) (off n : Nat) : (s.bump p off n).tdms = s.tdms := rfl
@[simp] theorem State.bump_tsi (p : Page) (off n : Nat) : (s.bump p off n).tsi = s.tsi := rfl
@[simp] theorem State.bump_cips (p : Page) (off n : Nat) : (s.bump p off n).cips = s.cips := rfl
@[simp] theorem State.bump_sec (p : Page) (off n : Nat) : (s.bump p off n).sec = s.sec := rfl
@[simp] theorem State.bump_ringPend (p : Page) (off n : Nat) : (s.bump p off n).ringPend = s.ringPend := rfl
@[simp] theorem State.bump_slots (p : Page) (off n : Nat) : (s.bump p off n).slots = s.slots := rfl
@[simp] theorem State.bump_rst (p : Page) (off n : Nat) : (s.bump p off n).rst = s.rst := rfl
@[simp] theorem State.bump_tap (p : Page) (off n : Nat) : (s.bump p off n).tap = s.tap := rfl
@[simp] theorem State.bump_frees (p : Page) (off n : Nat) : (s.bump p off n).frees = s.frees := rfl
@[simp] theorem State.bump_out (p : Page) (off n : Nat) : (s.bump p off n).out = s.out := rfl
@[simp] theorem State.bump_pending (p : Page) (off n : Nat) : (s.bump p off n).pending = s.pending := rfl

@[simp] theorem State.bumpTab_regs (p : Page) (t e k n : Nat) : (s.bumpTab p t e k n).regs = s.regs := rfl
@[simp] theorem State.bumpTab_tabs (p : Page) (t e k n : Nat) : (s.bumpTab p t e k n).tabs = s.tabs := rfl
@[simp] theorem State.bumpTab_tabsShadow (p : Page) (t e k n : Nat) : (s.bumpTab p t e k n).tabsShadow = s.tabsShadow := rfl
@[simp] theorem State.bumpTab_counters (p : Page) (t e k n : Nat) : (s.bumpTab p t e k n).counters = s.counters.modify (2 ^ 32 + tabKey p t e k) (· + n) := rfl
@[simp] theorem State.bumpTab_snapshot (p : Page) (t e k n : Nat) : (s.bumpTab p t e k n).snapshot = s.snapshot := rfl
@[simp] theorem State.bumpTab_mem (p : Page) (t e k n : Nat) : (s.bumpTab p t e k n).mem = s.mem := rfl
@[simp] theorem State.bumpTab_drainTimer (p : Page) (t e k n : Nat) : (s.bumpTab p t e k n).drainTimer = s.drainTimer := rfl
@[simp] theorem State.bumpTab_applying (p : Page) (t e k n : Nat) : (s.bumpTab p t e k n).applying = s.applying := rfl
@[simp] theorem State.bumpTab_plan (p : Page) (t e k n : Nat) : (s.bumpTab p t e k n).plan = s.plan := rfl
@[simp] theorem State.bumpTab_dp (p : Page) (t e k n : Nat) : (s.bumpTab p t e k n).dp = s.dp := rfl
@[simp] theorem State.bumpTab_pcie (p : Page) (t e k n : Nat) : (s.bumpTab p t e k n).pcie = s.pcie := rfl
@[simp] theorem State.bumpTab_now (p : Page) (t e k n : Nat) : (s.bumpTab p t e k n).now = s.now := rfl
@[simp] theorem State.bumpTab_dom (p : Page) (t e k n : Nat) : (s.bumpTab p t e k n).dom = s.dom := rfl
@[simp] theorem State.bumpTab_txts (p : Page) (t e k n : Nat) : (s.bumpTab p t e k n).txts = s.txts := rfl
@[simp] theorem State.bumpTab_frer (p : Page) (t e k n : Nat) : (s.bumpTab p t e k n).frer = s.frer := rfl
@[simp] theorem State.bumpTab_frerScan (p : Page) (t e k n : Nat) : (s.bumpTab p t e k n).frerScan = s.frerScan := rfl
@[simp] theorem State.bumpTab_clasp (p : Page) (t e k n : Nat) : (s.bumpTab p t e k n).clasp = s.clasp := rfl
@[simp] theorem State.bumpTab_bridge (p : Page) (t e k n : Nat) : (s.bumpTab p t e k n).bridge = s.bridge := rfl
@[simp] theorem State.bumpTab_procs (p : Page) (t e k n : Nat) : (s.bumpTab p t e k n).procs = s.procs := rfl
@[simp] theorem State.bumpTab_power (p : Page) (t e k n : Nat) : (s.bumpTab p t e k n).power = s.power := rfl
@[simp] theorem State.bumpTab_cans (p : Page) (t e k n : Nat) : (s.bumpTab p t e k n).cans = s.cans := rfl
@[simp] theorem State.bumpTab_lins (p : Page) (t e k n : Nat) : (s.bumpTab p t e k n).lins = s.lins := rfl
@[simp] theorem State.bumpTab_tdms (p : Page) (t e k n : Nat) : (s.bumpTab p t e k n).tdms = s.tdms := rfl
@[simp] theorem State.bumpTab_tsi (p : Page) (t e k n : Nat) : (s.bumpTab p t e k n).tsi = s.tsi := rfl
@[simp] theorem State.bumpTab_cips (p : Page) (t e k n : Nat) : (s.bumpTab p t e k n).cips = s.cips := rfl
@[simp] theorem State.bumpTab_sec (p : Page) (t e k n : Nat) : (s.bumpTab p t e k n).sec = s.sec := rfl
@[simp] theorem State.bumpTab_ringPend (p : Page) (t e k n : Nat) : (s.bumpTab p t e k n).ringPend = s.ringPend := rfl
@[simp] theorem State.bumpTab_slots (p : Page) (t e k n : Nat) : (s.bumpTab p t e k n).slots = s.slots := rfl
@[simp] theorem State.bumpTab_rst (p : Page) (t e k n : Nat) : (s.bumpTab p t e k n).rst = s.rst := rfl
@[simp] theorem State.bumpTab_tap (p : Page) (t e k n : Nat) : (s.bumpTab p t e k n).tap = s.tap := rfl
@[simp] theorem State.bumpTab_frees (p : Page) (t e k n : Nat) : (s.bumpTab p t e k n).frees = s.frees := rfl
@[simp] theorem State.bumpTab_out (p : Page) (t e k n : Nat) : (s.bumpTab p t e k n).out = s.out := rfl
@[simp] theorem State.bumpTab_pending (p : Page) (t e k n : Nat) : (s.bumpTab p t e k n).pending = s.pending := rfl

@[simp] theorem State.blow_regs (i : Nat) : (s.blow i).regs = s.regs := rfl
@[simp] theorem State.blow_tabs (i : Nat) : (s.blow i).tabs = s.tabs := rfl
@[simp] theorem State.blow_tabsShadow (i : Nat) : (s.blow i).tabsShadow = s.tabsShadow := rfl
@[simp] theorem State.blow_counters (i : Nat) : (s.blow i).counters = s.counters := rfl
@[simp] theorem State.blow_snapshot (i : Nat) : (s.blow i).snapshot = s.snapshot := rfl
@[simp] theorem State.blow_mem (i : Nat) : (s.blow i).mem = { s.mem with otp := s.mem.otp.set i 1 } := rfl
@[simp] theorem State.blow_drainTimer (i : Nat) : (s.blow i).drainTimer = s.drainTimer := rfl
@[simp] theorem State.blow_applying (i : Nat) : (s.blow i).applying = s.applying := rfl
@[simp] theorem State.blow_plan (i : Nat) : (s.blow i).plan = s.plan := rfl
@[simp] theorem State.blow_dp (i : Nat) : (s.blow i).dp = s.dp := rfl
@[simp] theorem State.blow_pcie (i : Nat) : (s.blow i).pcie = s.pcie := rfl
@[simp] theorem State.blow_now (i : Nat) : (s.blow i).now = s.now := rfl
@[simp] theorem State.blow_dom (i : Nat) : (s.blow i).dom = s.dom := rfl
@[simp] theorem State.blow_txts (i : Nat) : (s.blow i).txts = s.txts := rfl
@[simp] theorem State.blow_frer (i : Nat) : (s.blow i).frer = s.frer := rfl
@[simp] theorem State.blow_frerScan (i : Nat) : (s.blow i).frerScan = s.frerScan := rfl
@[simp] theorem State.blow_clasp (i : Nat) : (s.blow i).clasp = s.clasp := rfl
@[simp] theorem State.blow_bridge (i : Nat) : (s.blow i).bridge = s.bridge := rfl
@[simp] theorem State.blow_procs (i : Nat) : (s.blow i).procs = s.procs := rfl
@[simp] theorem State.blow_power (i : Nat) : (s.blow i).power = s.power := rfl
@[simp] theorem State.blow_cans (i : Nat) : (s.blow i).cans = s.cans := rfl
@[simp] theorem State.blow_lins (i : Nat) : (s.blow i).lins = s.lins := rfl
@[simp] theorem State.blow_tdms (i : Nat) : (s.blow i).tdms = s.tdms := rfl
@[simp] theorem State.blow_tsi (i : Nat) : (s.blow i).tsi = s.tsi := rfl
@[simp] theorem State.blow_cips (i : Nat) : (s.blow i).cips = s.cips := rfl
@[simp] theorem State.blow_sec (i : Nat) : (s.blow i).sec = s.sec := rfl
@[simp] theorem State.blow_ringPend (i : Nat) : (s.blow i).ringPend = s.ringPend := rfl
@[simp] theorem State.blow_slots (i : Nat) : (s.blow i).slots = s.slots := rfl
@[simp] theorem State.blow_rst (i : Nat) : (s.blow i).rst = s.rst := rfl
@[simp] theorem State.blow_tap (i : Nat) : (s.blow i).tap = s.tap := rfl
@[simp] theorem State.blow_frees (i : Nat) : (s.blow i).frees = s.frees := rfl
@[simp] theorem State.blow_out (i : Nat) : (s.blow i).out = s.out := rfl
@[simp] theorem State.blow_pending (i : Nat) : (s.blow i).pending = s.pending := rfl

@[simp] theorem State.emit_regs (o : Output) : (s.emit o).regs = s.regs := rfl
@[simp] theorem State.emit_tabs (o : Output) : (s.emit o).tabs = s.tabs := rfl
@[simp] theorem State.emit_tabsShadow (o : Output) : (s.emit o).tabsShadow = s.tabsShadow := rfl
@[simp] theorem State.emit_counters (o : Output) : (s.emit o).counters = s.counters := rfl
@[simp] theorem State.emit_snapshot (o : Output) : (s.emit o).snapshot = s.snapshot := rfl
@[simp] theorem State.emit_mem (o : Output) : (s.emit o).mem = s.mem := rfl
@[simp] theorem State.emit_drainTimer (o : Output) : (s.emit o).drainTimer = s.drainTimer := rfl
@[simp] theorem State.emit_applying (o : Output) : (s.emit o).applying = s.applying := rfl
@[simp] theorem State.emit_plan (o : Output) : (s.emit o).plan = s.plan := rfl
@[simp] theorem State.emit_dp (o : Output) : (s.emit o).dp = s.dp := rfl
@[simp] theorem State.emit_pcie (o : Output) : (s.emit o).pcie = s.pcie := rfl
@[simp] theorem State.emit_now (o : Output) : (s.emit o).now = s.now := rfl
@[simp] theorem State.emit_dom (o : Output) : (s.emit o).dom = s.dom := rfl
@[simp] theorem State.emit_txts (o : Output) : (s.emit o).txts = s.txts := rfl
@[simp] theorem State.emit_frer (o : Output) : (s.emit o).frer = s.frer := rfl
@[simp] theorem State.emit_frerScan (o : Output) : (s.emit o).frerScan = s.frerScan := rfl
@[simp] theorem State.emit_clasp (o : Output) : (s.emit o).clasp = s.clasp := rfl
@[simp] theorem State.emit_bridge (o : Output) : (s.emit o).bridge = s.bridge := rfl
@[simp] theorem State.emit_procs (o : Output) : (s.emit o).procs = s.procs := rfl
@[simp] theorem State.emit_power (o : Output) : (s.emit o).power = s.power := rfl
@[simp] theorem State.emit_cans (o : Output) : (s.emit o).cans = s.cans := rfl
@[simp] theorem State.emit_lins (o : Output) : (s.emit o).lins = s.lins := rfl
@[simp] theorem State.emit_tdms (o : Output) : (s.emit o).tdms = s.tdms := rfl
@[simp] theorem State.emit_tsi (o : Output) : (s.emit o).tsi = s.tsi := rfl
@[simp] theorem State.emit_cips (o : Output) : (s.emit o).cips = s.cips := rfl
@[simp] theorem State.emit_sec (o : Output) : (s.emit o).sec = s.sec := rfl
@[simp] theorem State.emit_ringPend (o : Output) : (s.emit o).ringPend = s.ringPend := rfl
@[simp] theorem State.emit_slots (o : Output) : (s.emit o).slots = s.slots := rfl
@[simp] theorem State.emit_rst (o : Output) : (s.emit o).rst = s.rst := rfl
@[simp] theorem State.emit_tap (o : Output) : (s.emit o).tap = s.tap := rfl
@[simp] theorem State.emit_frees (o : Output) : (s.emit o).frees = s.frees := rfl
@[simp] theorem State.emit_out (o : Output) : (s.emit o).out = s.out ++ [o] := rfl
@[simp] theorem State.emit_pending (o : Output) : (s.emit o).pending = s.pending := rfl

@[simp] theorem State.mapProcs_regs (f : Procs → Procs) : (s.mapProcs f).regs = s.regs := rfl
@[simp] theorem State.mapProcs_tabs (f : Procs → Procs) : (s.mapProcs f).tabs = s.tabs := rfl
@[simp] theorem State.mapProcs_tabsShadow (f : Procs → Procs) : (s.mapProcs f).tabsShadow = s.tabsShadow := rfl
@[simp] theorem State.mapProcs_counters (f : Procs → Procs) : (s.mapProcs f).counters = s.counters := rfl
@[simp] theorem State.mapProcs_snapshot (f : Procs → Procs) : (s.mapProcs f).snapshot = s.snapshot := rfl
@[simp] theorem State.mapProcs_mem (f : Procs → Procs) : (s.mapProcs f).mem = s.mem := rfl
@[simp] theorem State.mapProcs_drainTimer (f : Procs → Procs) : (s.mapProcs f).drainTimer = s.drainTimer := rfl
@[simp] theorem State.mapProcs_applying (f : Procs → Procs) : (s.mapProcs f).applying = s.applying := rfl
@[simp] theorem State.mapProcs_plan (f : Procs → Procs) : (s.mapProcs f).plan = s.plan := rfl
@[simp] theorem State.mapProcs_dp (f : Procs → Procs) : (s.mapProcs f).dp = s.dp := rfl
@[simp] theorem State.mapProcs_pcie (f : Procs → Procs) : (s.mapProcs f).pcie = s.pcie := rfl
@[simp] theorem State.mapProcs_now (f : Procs → Procs) : (s.mapProcs f).now = s.now := rfl
@[simp] theorem State.mapProcs_dom (f : Procs → Procs) : (s.mapProcs f).dom = s.dom := rfl
@[simp] theorem State.mapProcs_txts (f : Procs → Procs) : (s.mapProcs f).txts = s.txts := rfl
@[simp] theorem State.mapProcs_frer (f : Procs → Procs) : (s.mapProcs f).frer = s.frer := rfl
@[simp] theorem State.mapProcs_frerScan (f : Procs → Procs) : (s.mapProcs f).frerScan = s.frerScan := rfl
@[simp] theorem State.mapProcs_clasp (f : Procs → Procs) : (s.mapProcs f).clasp = s.clasp := rfl
@[simp] theorem State.mapProcs_bridge (f : Procs → Procs) : (s.mapProcs f).bridge = s.bridge := rfl
@[simp] theorem State.mapProcs_procs (f : Procs → Procs) : (s.mapProcs f).procs = f s.procs := rfl
@[simp] theorem State.mapProcs_power (f : Procs → Procs) : (s.mapProcs f).power = s.power := rfl
@[simp] theorem State.mapProcs_cans (f : Procs → Procs) : (s.mapProcs f).cans = s.cans := rfl
@[simp] theorem State.mapProcs_lins (f : Procs → Procs) : (s.mapProcs f).lins = s.lins := rfl
@[simp] theorem State.mapProcs_tdms (f : Procs → Procs) : (s.mapProcs f).tdms = s.tdms := rfl
@[simp] theorem State.mapProcs_tsi (f : Procs → Procs) : (s.mapProcs f).tsi = s.tsi := rfl
@[simp] theorem State.mapProcs_cips (f : Procs → Procs) : (s.mapProcs f).cips = s.cips := rfl
@[simp] theorem State.mapProcs_sec (f : Procs → Procs) : (s.mapProcs f).sec = s.sec := rfl
@[simp] theorem State.mapProcs_ringPend (f : Procs → Procs) : (s.mapProcs f).ringPend = s.ringPend := rfl
@[simp] theorem State.mapProcs_slots (f : Procs → Procs) : (s.mapProcs f).slots = s.slots := rfl
@[simp] theorem State.mapProcs_rst (f : Procs → Procs) : (s.mapProcs f).rst = s.rst := rfl
@[simp] theorem State.mapProcs_tap (f : Procs → Procs) : (s.mapProcs f).tap = s.tap := rfl
@[simp] theorem State.mapProcs_frees (f : Procs → Procs) : (s.mapProcs f).frees = s.frees := rfl
@[simp] theorem State.mapProcs_out (f : Procs → Procs) : (s.mapProcs f).out = s.out := rfl
@[simp] theorem State.mapProcs_pending (f : Procs → Procs) : (s.mapProcs f).pending = s.pending := rfl

@[simp] theorem State.mapMsram_regs (f : Mem → Mem) : (s.mapMsram f).regs = s.regs := rfl
@[simp] theorem State.mapMsram_tabs (f : Mem → Mem) : (s.mapMsram f).tabs = s.tabs := rfl
@[simp] theorem State.mapMsram_tabsShadow (f : Mem → Mem) : (s.mapMsram f).tabsShadow = s.tabsShadow := rfl
@[simp] theorem State.mapMsram_counters (f : Mem → Mem) : (s.mapMsram f).counters = s.counters := rfl
@[simp] theorem State.mapMsram_snapshot (f : Mem → Mem) : (s.mapMsram f).snapshot = s.snapshot := rfl
@[simp] theorem State.mapMsram_mem (f : Mem → Mem) : (s.mapMsram f).mem = { s.mem with msram := f s.mem.msram } := rfl
@[simp] theorem State.mapMsram_drainTimer (f : Mem → Mem) : (s.mapMsram f).drainTimer = s.drainTimer := rfl
@[simp] theorem State.mapMsram_applying (f : Mem → Mem) : (s.mapMsram f).applying = s.applying := rfl
@[simp] theorem State.mapMsram_plan (f : Mem → Mem) : (s.mapMsram f).plan = s.plan := rfl
@[simp] theorem State.mapMsram_dp (f : Mem → Mem) : (s.mapMsram f).dp = s.dp := rfl
@[simp] theorem State.mapMsram_pcie (f : Mem → Mem) : (s.mapMsram f).pcie = s.pcie := rfl
@[simp] theorem State.mapMsram_now (f : Mem → Mem) : (s.mapMsram f).now = s.now := rfl
@[simp] theorem State.mapMsram_dom (f : Mem → Mem) : (s.mapMsram f).dom = s.dom := rfl
@[simp] theorem State.mapMsram_txts (f : Mem → Mem) : (s.mapMsram f).txts = s.txts := rfl
@[simp] theorem State.mapMsram_frer (f : Mem → Mem) : (s.mapMsram f).frer = s.frer := rfl
@[simp] theorem State.mapMsram_frerScan (f : Mem → Mem) : (s.mapMsram f).frerScan = s.frerScan := rfl
@[simp] theorem State.mapMsram_clasp (f : Mem → Mem) : (s.mapMsram f).clasp = s.clasp := rfl
@[simp] theorem State.mapMsram_bridge (f : Mem → Mem) : (s.mapMsram f).bridge = s.bridge := rfl
@[simp] theorem State.mapMsram_procs (f : Mem → Mem) : (s.mapMsram f).procs = s.procs := rfl
@[simp] theorem State.mapMsram_power (f : Mem → Mem) : (s.mapMsram f).power = s.power := rfl
@[simp] theorem State.mapMsram_cans (f : Mem → Mem) : (s.mapMsram f).cans = s.cans := rfl
@[simp] theorem State.mapMsram_lins (f : Mem → Mem) : (s.mapMsram f).lins = s.lins := rfl
@[simp] theorem State.mapMsram_tdms (f : Mem → Mem) : (s.mapMsram f).tdms = s.tdms := rfl
@[simp] theorem State.mapMsram_tsi (f : Mem → Mem) : (s.mapMsram f).tsi = s.tsi := rfl
@[simp] theorem State.mapMsram_cips (f : Mem → Mem) : (s.mapMsram f).cips = s.cips := rfl
@[simp] theorem State.mapMsram_sec (f : Mem → Mem) : (s.mapMsram f).sec = s.sec := rfl
@[simp] theorem State.mapMsram_ringPend (f : Mem → Mem) : (s.mapMsram f).ringPend = s.ringPend := rfl
@[simp] theorem State.mapMsram_slots (f : Mem → Mem) : (s.mapMsram f).slots = s.slots := rfl
@[simp] theorem State.mapMsram_rst (f : Mem → Mem) : (s.mapMsram f).rst = s.rst := rfl
@[simp] theorem State.mapMsram_tap (f : Mem → Mem) : (s.mapMsram f).tap = s.tap := rfl
@[simp] theorem State.mapMsram_frees (f : Mem → Mem) : (s.mapMsram f).frees = s.frees := rfl
@[simp] theorem State.mapMsram_out (f : Mem → Mem) : (s.mapMsram f).out = s.out := rfl
@[simp] theorem State.mapMsram_pending (f : Mem → Mem) : (s.mapMsram f).pending = s.pending := rfl

@[simp] theorem State.drainTime_regs (p : Page) (on : Bool) : (s.drainTime p on).regs = s.regs := rfl
@[simp] theorem State.drainTime_tabs (p : Page) (on : Bool) : (s.drainTime p on).tabs = s.tabs := rfl
@[simp] theorem State.drainTime_tabsShadow (p : Page) (on : Bool) : (s.drainTime p on).tabsShadow = s.tabsShadow := rfl
@[simp] theorem State.drainTime_counters (p : Page) (on : Bool) : (s.drainTime p on).counters = s.counters := rfl
@[simp] theorem State.drainTime_snapshot (p : Page) (on : Bool) : (s.drainTime p on).snapshot = s.snapshot := rfl
@[simp] theorem State.drainTime_mem (p : Page) (on : Bool) : (s.drainTime p on).mem = s.mem := rfl
@[simp] theorem State.drainTime_drainTimer (p : Page) (on : Bool) : (s.drainTime p on).drainTimer = s.drainTimer.set p.index on := rfl
@[simp] theorem State.drainTime_applying (p : Page) (on : Bool) : (s.drainTime p on).applying = s.applying := rfl
@[simp] theorem State.drainTime_plan (p : Page) (on : Bool) : (s.drainTime p on).plan = s.plan := rfl
@[simp] theorem State.drainTime_dp (p : Page) (on : Bool) : (s.drainTime p on).dp = s.dp := rfl
@[simp] theorem State.drainTime_pcie (p : Page) (on : Bool) : (s.drainTime p on).pcie = s.pcie := rfl
@[simp] theorem State.drainTime_now (p : Page) (on : Bool) : (s.drainTime p on).now = s.now := rfl
@[simp] theorem State.drainTime_dom (p : Page) (on : Bool) : (s.drainTime p on).dom = s.dom := rfl
@[simp] theorem State.drainTime_txts (p : Page) (on : Bool) : (s.drainTime p on).txts = s.txts := rfl
@[simp] theorem State.drainTime_frer (p : Page) (on : Bool) : (s.drainTime p on).frer = s.frer := rfl
@[simp] theorem State.drainTime_frerScan (p : Page) (on : Bool) : (s.drainTime p on).frerScan = s.frerScan := rfl
@[simp] theorem State.drainTime_clasp (p : Page) (on : Bool) : (s.drainTime p on).clasp = s.clasp := rfl
@[simp] theorem State.drainTime_bridge (p : Page) (on : Bool) : (s.drainTime p on).bridge = s.bridge := rfl
@[simp] theorem State.drainTime_procs (p : Page) (on : Bool) : (s.drainTime p on).procs = s.procs := rfl
@[simp] theorem State.drainTime_power (p : Page) (on : Bool) : (s.drainTime p on).power = s.power := rfl
@[simp] theorem State.drainTime_cans (p : Page) (on : Bool) : (s.drainTime p on).cans = s.cans := rfl
@[simp] theorem State.drainTime_lins (p : Page) (on : Bool) : (s.drainTime p on).lins = s.lins := rfl
@[simp] theorem State.drainTime_tdms (p : Page) (on : Bool) : (s.drainTime p on).tdms = s.tdms := rfl
@[simp] theorem State.drainTime_tsi (p : Page) (on : Bool) : (s.drainTime p on).tsi = s.tsi := rfl
@[simp] theorem State.drainTime_cips (p : Page) (on : Bool) : (s.drainTime p on).cips = s.cips := rfl
@[simp] theorem State.drainTime_sec (p : Page) (on : Bool) : (s.drainTime p on).sec = s.sec := rfl
@[simp] theorem State.drainTime_ringPend (p : Page) (on : Bool) : (s.drainTime p on).ringPend = s.ringPend := rfl
@[simp] theorem State.drainTime_slots (p : Page) (on : Bool) : (s.drainTime p on).slots = s.slots := rfl
@[simp] theorem State.drainTime_rst (p : Page) (on : Bool) : (s.drainTime p on).rst = s.rst := rfl
@[simp] theorem State.drainTime_tap (p : Page) (on : Bool) : (s.drainTime p on).tap = s.tap := rfl
@[simp] theorem State.drainTime_frees (p : Page) (on : Bool) : (s.drainTime p on).frees = s.frees := rfl
@[simp] theorem State.drainTime_out (p : Page) (on : Bool) : (s.drainTime p on).out = s.out := rfl
@[simp] theorem State.drainTime_pending (p : Page) (on : Bool) : (s.drainTime p on).pending = s.pending := rfl

@[simp] theorem State.setWin_regs (m : Mem) : (s.setWin m).regs = s.regs := rfl
@[simp] theorem State.setWin_tabs (m : Mem) : (s.setWin m).tabs = s.tabs := rfl
@[simp] theorem State.setWin_tabsShadow (m : Mem) : (s.setWin m).tabsShadow = s.tabsShadow := rfl
@[simp] theorem State.setWin_counters (m : Mem) : (s.setWin m).counters = s.counters := rfl
@[simp] theorem State.setWin_snapshot (m : Mem) : (s.setWin m).snapshot = s.snapshot := rfl
@[simp] theorem State.setWin_mem (m : Mem) : (s.setWin m).mem = { s.mem with win := m } := rfl
@[simp] theorem State.setWin_drainTimer (m : Mem) : (s.setWin m).drainTimer = s.drainTimer := rfl
@[simp] theorem State.setWin_applying (m : Mem) : (s.setWin m).applying = s.applying := rfl
@[simp] theorem State.setWin_plan (m : Mem) : (s.setWin m).plan = s.plan := rfl
@[simp] theorem State.setWin_dp (m : Mem) : (s.setWin m).dp = s.dp := rfl
@[simp] theorem State.setWin_pcie (m : Mem) : (s.setWin m).pcie = s.pcie := rfl
@[simp] theorem State.setWin_now (m : Mem) : (s.setWin m).now = s.now := rfl
@[simp] theorem State.setWin_dom (m : Mem) : (s.setWin m).dom = s.dom := rfl
@[simp] theorem State.setWin_txts (m : Mem) : (s.setWin m).txts = s.txts := rfl
@[simp] theorem State.setWin_frer (m : Mem) : (s.setWin m).frer = s.frer := rfl
@[simp] theorem State.setWin_frerScan (m : Mem) : (s.setWin m).frerScan = s.frerScan := rfl
@[simp] theorem State.setWin_clasp (m : Mem) : (s.setWin m).clasp = s.clasp := rfl
@[simp] theorem State.setWin_bridge (m : Mem) : (s.setWin m).bridge = s.bridge := rfl
@[simp] theorem State.setWin_procs (m : Mem) : (s.setWin m).procs = s.procs := rfl
@[simp] theorem State.setWin_power (m : Mem) : (s.setWin m).power = s.power := rfl
@[simp] theorem State.setWin_cans (m : Mem) : (s.setWin m).cans = s.cans := rfl
@[simp] theorem State.setWin_lins (m : Mem) : (s.setWin m).lins = s.lins := rfl
@[simp] theorem State.setWin_tdms (m : Mem) : (s.setWin m).tdms = s.tdms := rfl
@[simp] theorem State.setWin_tsi (m : Mem) : (s.setWin m).tsi = s.tsi := rfl
@[simp] theorem State.setWin_cips (m : Mem) : (s.setWin m).cips = s.cips := rfl
@[simp] theorem State.setWin_sec (m : Mem) : (s.setWin m).sec = s.sec := rfl
@[simp] theorem State.setWin_ringPend (m : Mem) : (s.setWin m).ringPend = s.ringPend := rfl
@[simp] theorem State.setWin_slots (m : Mem) : (s.setWin m).slots = s.slots := rfl
@[simp] theorem State.setWin_rst (m : Mem) : (s.setWin m).rst = s.rst := rfl
@[simp] theorem State.setWin_tap (m : Mem) : (s.setWin m).tap = s.tap := rfl
@[simp] theorem State.setWin_frees (m : Mem) : (s.setWin m).frees = s.frees := rfl
@[simp] theorem State.setWin_out (m : Mem) : (s.setWin m).out = s.out := rfl
@[simp] theorem State.setWin_pending (m : Mem) : (s.setWin m).pending = s.pending := rfl

@[simp] theorem State.mapTdm_regs (n : Nat) (f : TdmLink → TdmLink) : (s.mapTdm n f).regs = s.regs := rfl
@[simp] theorem State.mapTdm_tabs (n : Nat) (f : TdmLink → TdmLink) : (s.mapTdm n f).tabs = s.tabs := rfl
@[simp] theorem State.mapTdm_tabsShadow (n : Nat) (f : TdmLink → TdmLink) : (s.mapTdm n f).tabsShadow = s.tabsShadow := rfl
@[simp] theorem State.mapTdm_counters (n : Nat) (f : TdmLink → TdmLink) : (s.mapTdm n f).counters = s.counters := rfl
@[simp] theorem State.mapTdm_snapshot (n : Nat) (f : TdmLink → TdmLink) : (s.mapTdm n f).snapshot = s.snapshot := rfl
@[simp] theorem State.mapTdm_mem (n : Nat) (f : TdmLink → TdmLink) : (s.mapTdm n f).mem = s.mem := rfl
@[simp] theorem State.mapTdm_drainTimer (n : Nat) (f : TdmLink → TdmLink) : (s.mapTdm n f).drainTimer = s.drainTimer := rfl
@[simp] theorem State.mapTdm_applying (n : Nat) (f : TdmLink → TdmLink) : (s.mapTdm n f).applying = s.applying := rfl
@[simp] theorem State.mapTdm_plan (n : Nat) (f : TdmLink → TdmLink) : (s.mapTdm n f).plan = s.plan := rfl
@[simp] theorem State.mapTdm_dp (n : Nat) (f : TdmLink → TdmLink) : (s.mapTdm n f).dp = s.dp := rfl
@[simp] theorem State.mapTdm_pcie (n : Nat) (f : TdmLink → TdmLink) : (s.mapTdm n f).pcie = s.pcie := rfl
@[simp] theorem State.mapTdm_now (n : Nat) (f : TdmLink → TdmLink) : (s.mapTdm n f).now = s.now := rfl
@[simp] theorem State.mapTdm_dom (n : Nat) (f : TdmLink → TdmLink) : (s.mapTdm n f).dom = s.dom := rfl
@[simp] theorem State.mapTdm_txts (n : Nat) (f : TdmLink → TdmLink) : (s.mapTdm n f).txts = s.txts := rfl
@[simp] theorem State.mapTdm_frer (n : Nat) (f : TdmLink → TdmLink) : (s.mapTdm n f).frer = s.frer := rfl
@[simp] theorem State.mapTdm_frerScan (n : Nat) (f : TdmLink → TdmLink) : (s.mapTdm n f).frerScan = s.frerScan := rfl
@[simp] theorem State.mapTdm_clasp (n : Nat) (f : TdmLink → TdmLink) : (s.mapTdm n f).clasp = s.clasp := rfl
@[simp] theorem State.mapTdm_bridge (n : Nat) (f : TdmLink → TdmLink) : (s.mapTdm n f).bridge = s.bridge := rfl
@[simp] theorem State.mapTdm_procs (n : Nat) (f : TdmLink → TdmLink) : (s.mapTdm n f).procs = s.procs := rfl
@[simp] theorem State.mapTdm_power (n : Nat) (f : TdmLink → TdmLink) : (s.mapTdm n f).power = s.power := rfl
@[simp] theorem State.mapTdm_cans (n : Nat) (f : TdmLink → TdmLink) : (s.mapTdm n f).cans = s.cans := rfl
@[simp] theorem State.mapTdm_lins (n : Nat) (f : TdmLink → TdmLink) : (s.mapTdm n f).lins = s.lins := rfl
@[simp] theorem State.mapTdm_tdms (n : Nat) (f : TdmLink → TdmLink) : (s.mapTdm n f).tdms = s.tdms.modify n f := rfl
@[simp] theorem State.mapTdm_tsi (n : Nat) (f : TdmLink → TdmLink) : (s.mapTdm n f).tsi = s.tsi := rfl
@[simp] theorem State.mapTdm_cips (n : Nat) (f : TdmLink → TdmLink) : (s.mapTdm n f).cips = s.cips := rfl
@[simp] theorem State.mapTdm_sec (n : Nat) (f : TdmLink → TdmLink) : (s.mapTdm n f).sec = s.sec := rfl
@[simp] theorem State.mapTdm_ringPend (n : Nat) (f : TdmLink → TdmLink) : (s.mapTdm n f).ringPend = s.ringPend := rfl
@[simp] theorem State.mapTdm_slots (n : Nat) (f : TdmLink → TdmLink) : (s.mapTdm n f).slots = s.slots := rfl
@[simp] theorem State.mapTdm_rst (n : Nat) (f : TdmLink → TdmLink) : (s.mapTdm n f).rst = s.rst := rfl
@[simp] theorem State.mapTdm_tap (n : Nat) (f : TdmLink → TdmLink) : (s.mapTdm n f).tap = s.tap := rfl
@[simp] theorem State.mapTdm_frees (n : Nat) (f : TdmLink → TdmLink) : (s.mapTdm n f).frees = s.frees := rfl
@[simp] theorem State.mapTdm_out (n : Nat) (f : TdmLink → TdmLink) : (s.mapTdm n f).out = s.out := rfl
@[simp] theorem State.mapTdm_pending (n : Nat) (f : TdmLink → TdmLink) : (s.mapTdm n f).pending = s.pending := rfl

@[simp] theorem State.mapTsi_regs (f : TsiState → TsiState) : (s.mapTsi f).regs = s.regs := rfl
@[simp] theorem State.mapTsi_tabs (f : TsiState → TsiState) : (s.mapTsi f).tabs = s.tabs := rfl
@[simp] theorem State.mapTsi_tabsShadow (f : TsiState → TsiState) : (s.mapTsi f).tabsShadow = s.tabsShadow := rfl
@[simp] theorem State.mapTsi_counters (f : TsiState → TsiState) : (s.mapTsi f).counters = s.counters := rfl
@[simp] theorem State.mapTsi_snapshot (f : TsiState → TsiState) : (s.mapTsi f).snapshot = s.snapshot := rfl
@[simp] theorem State.mapTsi_mem (f : TsiState → TsiState) : (s.mapTsi f).mem = s.mem := rfl
@[simp] theorem State.mapTsi_drainTimer (f : TsiState → TsiState) : (s.mapTsi f).drainTimer = s.drainTimer := rfl
@[simp] theorem State.mapTsi_applying (f : TsiState → TsiState) : (s.mapTsi f).applying = s.applying := rfl
@[simp] theorem State.mapTsi_plan (f : TsiState → TsiState) : (s.mapTsi f).plan = s.plan := rfl
@[simp] theorem State.mapTsi_dp (f : TsiState → TsiState) : (s.mapTsi f).dp = s.dp := rfl
@[simp] theorem State.mapTsi_pcie (f : TsiState → TsiState) : (s.mapTsi f).pcie = s.pcie := rfl
@[simp] theorem State.mapTsi_now (f : TsiState → TsiState) : (s.mapTsi f).now = s.now := rfl
@[simp] theorem State.mapTsi_dom (f : TsiState → TsiState) : (s.mapTsi f).dom = s.dom := rfl
@[simp] theorem State.mapTsi_txts (f : TsiState → TsiState) : (s.mapTsi f).txts = s.txts := rfl
@[simp] theorem State.mapTsi_frer (f : TsiState → TsiState) : (s.mapTsi f).frer = s.frer := rfl
@[simp] theorem State.mapTsi_frerScan (f : TsiState → TsiState) : (s.mapTsi f).frerScan = s.frerScan := rfl
@[simp] theorem State.mapTsi_clasp (f : TsiState → TsiState) : (s.mapTsi f).clasp = s.clasp := rfl
@[simp] theorem State.mapTsi_bridge (f : TsiState → TsiState) : (s.mapTsi f).bridge = s.bridge := rfl
@[simp] theorem State.mapTsi_procs (f : TsiState → TsiState) : (s.mapTsi f).procs = s.procs := rfl
@[simp] theorem State.mapTsi_power (f : TsiState → TsiState) : (s.mapTsi f).power = s.power := rfl
@[simp] theorem State.mapTsi_cans (f : TsiState → TsiState) : (s.mapTsi f).cans = s.cans := rfl
@[simp] theorem State.mapTsi_lins (f : TsiState → TsiState) : (s.mapTsi f).lins = s.lins := rfl
@[simp] theorem State.mapTsi_tdms (f : TsiState → TsiState) : (s.mapTsi f).tdms = s.tdms := rfl
@[simp] theorem State.mapTsi_tsi (f : TsiState → TsiState) : (s.mapTsi f).tsi = f s.tsi := rfl
@[simp] theorem State.mapTsi_cips (f : TsiState → TsiState) : (s.mapTsi f).cips = s.cips := rfl
@[simp] theorem State.mapTsi_sec (f : TsiState → TsiState) : (s.mapTsi f).sec = s.sec := rfl
@[simp] theorem State.mapTsi_ringPend (f : TsiState → TsiState) : (s.mapTsi f).ringPend = s.ringPend := rfl
@[simp] theorem State.mapTsi_slots (f : TsiState → TsiState) : (s.mapTsi f).slots = s.slots := rfl
@[simp] theorem State.mapTsi_rst (f : TsiState → TsiState) : (s.mapTsi f).rst = s.rst := rfl
@[simp] theorem State.mapTsi_tap (f : TsiState → TsiState) : (s.mapTsi f).tap = s.tap := rfl
@[simp] theorem State.mapTsi_frees (f : TsiState → TsiState) : (s.mapTsi f).frees = s.frees := rfl
@[simp] theorem State.mapTsi_out (f : TsiState → TsiState) : (s.mapTsi f).out = s.out := rfl
@[simp] theorem State.mapTsi_pending (f : TsiState → TsiState) : (s.mapTsi f).pending = s.pending := rfl

@[simp] theorem State.mapBridge_regs (f : Bridge → Bridge) : (s.mapBridge f).regs = s.regs := rfl
@[simp] theorem State.mapBridge_tabs (f : Bridge → Bridge) : (s.mapBridge f).tabs = s.tabs := rfl
@[simp] theorem State.mapBridge_tabsShadow (f : Bridge → Bridge) : (s.mapBridge f).tabsShadow = s.tabsShadow := rfl
@[simp] theorem State.mapBridge_counters (f : Bridge → Bridge) : (s.mapBridge f).counters = s.counters := rfl
@[simp] theorem State.mapBridge_snapshot (f : Bridge → Bridge) : (s.mapBridge f).snapshot = s.snapshot := rfl
@[simp] theorem State.mapBridge_mem (f : Bridge → Bridge) : (s.mapBridge f).mem = s.mem := rfl
@[simp] theorem State.mapBridge_drainTimer (f : Bridge → Bridge) : (s.mapBridge f).drainTimer = s.drainTimer := rfl
@[simp] theorem State.mapBridge_applying (f : Bridge → Bridge) : (s.mapBridge f).applying = s.applying := rfl
@[simp] theorem State.mapBridge_plan (f : Bridge → Bridge) : (s.mapBridge f).plan = s.plan := rfl
@[simp] theorem State.mapBridge_dp (f : Bridge → Bridge) : (s.mapBridge f).dp = s.dp := rfl
@[simp] theorem State.mapBridge_pcie (f : Bridge → Bridge) : (s.mapBridge f).pcie = s.pcie := rfl
@[simp] theorem State.mapBridge_now (f : Bridge → Bridge) : (s.mapBridge f).now = s.now := rfl
@[simp] theorem State.mapBridge_dom (f : Bridge → Bridge) : (s.mapBridge f).dom = s.dom := rfl
@[simp] theorem State.mapBridge_txts (f : Bridge → Bridge) : (s.mapBridge f).txts = s.txts := rfl
@[simp] theorem State.mapBridge_frer (f : Bridge → Bridge) : (s.mapBridge f).frer = s.frer := rfl
@[simp] theorem State.mapBridge_frerScan (f : Bridge → Bridge) : (s.mapBridge f).frerScan = s.frerScan := rfl
@[simp] theorem State.mapBridge_clasp (f : Bridge → Bridge) : (s.mapBridge f).clasp = s.clasp := rfl
@[simp] theorem State.mapBridge_bridge (f : Bridge → Bridge) : (s.mapBridge f).bridge = f s.bridge := rfl
@[simp] theorem State.mapBridge_procs (f : Bridge → Bridge) : (s.mapBridge f).procs = s.procs := rfl
@[simp] theorem State.mapBridge_power (f : Bridge → Bridge) : (s.mapBridge f).power = s.power := rfl
@[simp] theorem State.mapBridge_cans (f : Bridge → Bridge) : (s.mapBridge f).cans = s.cans := rfl
@[simp] theorem State.mapBridge_lins (f : Bridge → Bridge) : (s.mapBridge f).lins = s.lins := rfl
@[simp] theorem State.mapBridge_tdms (f : Bridge → Bridge) : (s.mapBridge f).tdms = s.tdms := rfl
@[simp] theorem State.mapBridge_tsi (f : Bridge → Bridge) : (s.mapBridge f).tsi = s.tsi := rfl
@[simp] theorem State.mapBridge_cips (f : Bridge → Bridge) : (s.mapBridge f).cips = s.cips := rfl
@[simp] theorem State.mapBridge_sec (f : Bridge → Bridge) : (s.mapBridge f).sec = s.sec := rfl
@[simp] theorem State.mapBridge_ringPend (f : Bridge → Bridge) : (s.mapBridge f).ringPend = s.ringPend := rfl
@[simp] theorem State.mapBridge_slots (f : Bridge → Bridge) : (s.mapBridge f).slots = s.slots := rfl
@[simp] theorem State.mapBridge_rst (f : Bridge → Bridge) : (s.mapBridge f).rst = s.rst := rfl
@[simp] theorem State.mapBridge_tap (f : Bridge → Bridge) : (s.mapBridge f).tap = s.tap := rfl
@[simp] theorem State.mapBridge_frees (f : Bridge → Bridge) : (s.mapBridge f).frees = s.frees := rfl
@[simp] theorem State.mapBridge_out (f : Bridge → Bridge) : (s.mapBridge f).out = s.out := rfl
@[simp] theorem State.mapBridge_pending (f : Bridge → Bridge) : (s.mapBridge f).pending = s.pending := rfl

@[simp] theorem State.mapFrer_regs (n : Nat) (f : FrerFn → FrerFn) : (s.mapFrer n f).regs = s.regs := rfl
@[simp] theorem State.mapFrer_tabs (n : Nat) (f : FrerFn → FrerFn) : (s.mapFrer n f).tabs = s.tabs := rfl
@[simp] theorem State.mapFrer_tabsShadow (n : Nat) (f : FrerFn → FrerFn) : (s.mapFrer n f).tabsShadow = s.tabsShadow := rfl
@[simp] theorem State.mapFrer_counters (n : Nat) (f : FrerFn → FrerFn) : (s.mapFrer n f).counters = s.counters := rfl
@[simp] theorem State.mapFrer_snapshot (n : Nat) (f : FrerFn → FrerFn) : (s.mapFrer n f).snapshot = s.snapshot := rfl
@[simp] theorem State.mapFrer_mem (n : Nat) (f : FrerFn → FrerFn) : (s.mapFrer n f).mem = s.mem := rfl
@[simp] theorem State.mapFrer_drainTimer (n : Nat) (f : FrerFn → FrerFn) : (s.mapFrer n f).drainTimer = s.drainTimer := rfl
@[simp] theorem State.mapFrer_applying (n : Nat) (f : FrerFn → FrerFn) : (s.mapFrer n f).applying = s.applying := rfl
@[simp] theorem State.mapFrer_plan (n : Nat) (f : FrerFn → FrerFn) : (s.mapFrer n f).plan = s.plan := rfl
@[simp] theorem State.mapFrer_dp (n : Nat) (f : FrerFn → FrerFn) : (s.mapFrer n f).dp = s.dp := rfl
@[simp] theorem State.mapFrer_pcie (n : Nat) (f : FrerFn → FrerFn) : (s.mapFrer n f).pcie = s.pcie := rfl
@[simp] theorem State.mapFrer_now (n : Nat) (f : FrerFn → FrerFn) : (s.mapFrer n f).now = s.now := rfl
@[simp] theorem State.mapFrer_dom (n : Nat) (f : FrerFn → FrerFn) : (s.mapFrer n f).dom = s.dom := rfl
@[simp] theorem State.mapFrer_txts (n : Nat) (f : FrerFn → FrerFn) : (s.mapFrer n f).txts = s.txts := rfl
@[simp] theorem State.mapFrer_frer (n : Nat) (f : FrerFn → FrerFn) : (s.mapFrer n f).frer = s.frer.modify n f := rfl
@[simp] theorem State.mapFrer_frerScan (n : Nat) (f : FrerFn → FrerFn) : (s.mapFrer n f).frerScan = s.frerScan := rfl
@[simp] theorem State.mapFrer_clasp (n : Nat) (f : FrerFn → FrerFn) : (s.mapFrer n f).clasp = s.clasp := rfl
@[simp] theorem State.mapFrer_bridge (n : Nat) (f : FrerFn → FrerFn) : (s.mapFrer n f).bridge = s.bridge := rfl
@[simp] theorem State.mapFrer_procs (n : Nat) (f : FrerFn → FrerFn) : (s.mapFrer n f).procs = s.procs := rfl
@[simp] theorem State.mapFrer_power (n : Nat) (f : FrerFn → FrerFn) : (s.mapFrer n f).power = s.power := rfl
@[simp] theorem State.mapFrer_cans (n : Nat) (f : FrerFn → FrerFn) : (s.mapFrer n f).cans = s.cans := rfl
@[simp] theorem State.mapFrer_lins (n : Nat) (f : FrerFn → FrerFn) : (s.mapFrer n f).lins = s.lins := rfl
@[simp] theorem State.mapFrer_tdms (n : Nat) (f : FrerFn → FrerFn) : (s.mapFrer n f).tdms = s.tdms := rfl
@[simp] theorem State.mapFrer_tsi (n : Nat) (f : FrerFn → FrerFn) : (s.mapFrer n f).tsi = s.tsi := rfl
@[simp] theorem State.mapFrer_cips (n : Nat) (f : FrerFn → FrerFn) : (s.mapFrer n f).cips = s.cips := rfl
@[simp] theorem State.mapFrer_sec (n : Nat) (f : FrerFn → FrerFn) : (s.mapFrer n f).sec = s.sec := rfl
@[simp] theorem State.mapFrer_ringPend (n : Nat) (f : FrerFn → FrerFn) : (s.mapFrer n f).ringPend = s.ringPend := rfl
@[simp] theorem State.mapFrer_slots (n : Nat) (f : FrerFn → FrerFn) : (s.mapFrer n f).slots = s.slots := rfl
@[simp] theorem State.mapFrer_rst (n : Nat) (f : FrerFn → FrerFn) : (s.mapFrer n f).rst = s.rst := rfl
@[simp] theorem State.mapFrer_tap (n : Nat) (f : FrerFn → FrerFn) : (s.mapFrer n f).tap = s.tap := rfl
@[simp] theorem State.mapFrer_frees (n : Nat) (f : FrerFn → FrerFn) : (s.mapFrer n f).frees = s.frees := rfl
@[simp] theorem State.mapFrer_out (n : Nat) (f : FrerFn → FrerFn) : (s.mapFrer n f).out = s.out := rfl
@[simp] theorem State.mapFrer_pending (n : Nat) (f : FrerFn → FrerFn) : (s.mapFrer n f).pending = s.pending := rfl

@[simp] theorem State.mapSec_regs (f : Sec → Sec) : (s.mapSec f).regs = s.regs := rfl
@[simp] theorem State.mapSec_tabs (f : Sec → Sec) : (s.mapSec f).tabs = s.tabs := rfl
@[simp] theorem State.mapSec_tabsShadow (f : Sec → Sec) : (s.mapSec f).tabsShadow = s.tabsShadow := rfl
@[simp] theorem State.mapSec_counters (f : Sec → Sec) : (s.mapSec f).counters = s.counters := rfl
@[simp] theorem State.mapSec_snapshot (f : Sec → Sec) : (s.mapSec f).snapshot = s.snapshot := rfl
@[simp] theorem State.mapSec_mem (f : Sec → Sec) : (s.mapSec f).mem = s.mem := rfl
@[simp] theorem State.mapSec_drainTimer (f : Sec → Sec) : (s.mapSec f).drainTimer = s.drainTimer := rfl
@[simp] theorem State.mapSec_applying (f : Sec → Sec) : (s.mapSec f).applying = s.applying := rfl
@[simp] theorem State.mapSec_plan (f : Sec → Sec) : (s.mapSec f).plan = s.plan := rfl
@[simp] theorem State.mapSec_dp (f : Sec → Sec) : (s.mapSec f).dp = s.dp := rfl
@[simp] theorem State.mapSec_pcie (f : Sec → Sec) : (s.mapSec f).pcie = s.pcie := rfl
@[simp] theorem State.mapSec_now (f : Sec → Sec) : (s.mapSec f).now = s.now := rfl
@[simp] theorem State.mapSec_dom (f : Sec → Sec) : (s.mapSec f).dom = s.dom := rfl
@[simp] theorem State.mapSec_txts (f : Sec → Sec) : (s.mapSec f).txts = s.txts := rfl
@[simp] theorem State.mapSec_frer (f : Sec → Sec) : (s.mapSec f).frer = s.frer := rfl
@[simp] theorem State.mapSec_frerScan (f : Sec → Sec) : (s.mapSec f).frerScan = s.frerScan := rfl
@[simp] theorem State.mapSec_clasp (f : Sec → Sec) : (s.mapSec f).clasp = s.clasp := rfl
@[simp] theorem State.mapSec_bridge (f : Sec → Sec) : (s.mapSec f).bridge = s.bridge := rfl
@[simp] theorem State.mapSec_procs (f : Sec → Sec) : (s.mapSec f).procs = s.procs := rfl
@[simp] theorem State.mapSec_power (f : Sec → Sec) : (s.mapSec f).power = s.power := rfl
@[simp] theorem State.mapSec_cans (f : Sec → Sec) : (s.mapSec f).cans = s.cans := rfl
@[simp] theorem State.mapSec_lins (f : Sec → Sec) : (s.mapSec f).lins = s.lins := rfl
@[simp] theorem State.mapSec_tdms (f : Sec → Sec) : (s.mapSec f).tdms = s.tdms := rfl
@[simp] theorem State.mapSec_tsi (f : Sec → Sec) : (s.mapSec f).tsi = s.tsi := rfl
@[simp] theorem State.mapSec_cips (f : Sec → Sec) : (s.mapSec f).cips = s.cips := rfl
@[simp] theorem State.mapSec_sec (f : Sec → Sec) : (s.mapSec f).sec = f s.sec := rfl
@[simp] theorem State.mapSec_ringPend (f : Sec → Sec) : (s.mapSec f).ringPend = s.ringPend := rfl
@[simp] theorem State.mapSec_slots (f : Sec → Sec) : (s.mapSec f).slots = s.slots := rfl
@[simp] theorem State.mapSec_rst (f : Sec → Sec) : (s.mapSec f).rst = s.rst := rfl
@[simp] theorem State.mapSec_tap (f : Sec → Sec) : (s.mapSec f).tap = s.tap := rfl
@[simp] theorem State.mapSec_frees (f : Sec → Sec) : (s.mapSec f).frees = s.frees := rfl
@[simp] theorem State.mapSec_out (f : Sec → Sec) : (s.mapSec f).out = s.out := rfl
@[simp] theorem State.mapSec_pending (f : Sec → Sec) : (s.mapSec f).pending = s.pending := rfl

@[simp] theorem State.mapCip_regs (n : Nat) (f : CipPage → CipPage) : (s.mapCip n f).regs = s.regs := rfl
@[simp] theorem State.mapCip_tabs (n : Nat) (f : CipPage → CipPage) : (s.mapCip n f).tabs = s.tabs := rfl
@[simp] theorem State.mapCip_tabsShadow (n : Nat) (f : CipPage → CipPage) : (s.mapCip n f).tabsShadow = s.tabsShadow := rfl
@[simp] theorem State.mapCip_counters (n : Nat) (f : CipPage → CipPage) : (s.mapCip n f).counters = s.counters := rfl
@[simp] theorem State.mapCip_snapshot (n : Nat) (f : CipPage → CipPage) : (s.mapCip n f).snapshot = s.snapshot := rfl
@[simp] theorem State.mapCip_mem (n : Nat) (f : CipPage → CipPage) : (s.mapCip n f).mem = s.mem := rfl
@[simp] theorem State.mapCip_drainTimer (n : Nat) (f : CipPage → CipPage) : (s.mapCip n f).drainTimer = s.drainTimer := rfl
@[simp] theorem State.mapCip_applying (n : Nat) (f : CipPage → CipPage) : (s.mapCip n f).applying = s.applying := rfl
@[simp] theorem State.mapCip_plan (n : Nat) (f : CipPage → CipPage) : (s.mapCip n f).plan = s.plan := rfl
@[simp] theorem State.mapCip_dp (n : Nat) (f : CipPage → CipPage) : (s.mapCip n f).dp = s.dp := rfl
@[simp] theorem State.mapCip_pcie (n : Nat) (f : CipPage → CipPage) : (s.mapCip n f).pcie = s.pcie := rfl
@[simp] theorem State.mapCip_now (n : Nat) (f : CipPage → CipPage) : (s.mapCip n f).now = s.now := rfl
@[simp] theorem State.mapCip_dom (n : Nat) (f : CipPage → CipPage) : (s.mapCip n f).dom = s.dom := rfl
@[simp] theorem State.mapCip_txts (n : Nat) (f : CipPage → CipPage) : (s.mapCip n f).txts = s.txts := rfl
@[simp] theorem State.mapCip_frer (n : Nat) (f : CipPage → CipPage) : (s.mapCip n f).frer = s.frer := rfl
@[simp] theorem State.mapCip_frerScan (n : Nat) (f : CipPage → CipPage) : (s.mapCip n f).frerScan = s.frerScan := rfl
@[simp] theorem State.mapCip_clasp (n : Nat) (f : CipPage → CipPage) : (s.mapCip n f).clasp = s.clasp := rfl
@[simp] theorem State.mapCip_bridge (n : Nat) (f : CipPage → CipPage) : (s.mapCip n f).bridge = s.bridge := rfl
@[simp] theorem State.mapCip_procs (n : Nat) (f : CipPage → CipPage) : (s.mapCip n f).procs = s.procs := rfl
@[simp] theorem State.mapCip_power (n : Nat) (f : CipPage → CipPage) : (s.mapCip n f).power = s.power := rfl
@[simp] theorem State.mapCip_cans (n : Nat) (f : CipPage → CipPage) : (s.mapCip n f).cans = s.cans := rfl
@[simp] theorem State.mapCip_lins (n : Nat) (f : CipPage → CipPage) : (s.mapCip n f).lins = s.lins := rfl
@[simp] theorem State.mapCip_tdms (n : Nat) (f : CipPage → CipPage) : (s.mapCip n f).tdms = s.tdms := rfl
@[simp] theorem State.mapCip_tsi (n : Nat) (f : CipPage → CipPage) : (s.mapCip n f).tsi = s.tsi := rfl
@[simp] theorem State.mapCip_cips (n : Nat) (f : CipPage → CipPage) : (s.mapCip n f).cips = s.cips.modify n f := rfl
@[simp] theorem State.mapCip_sec (n : Nat) (f : CipPage → CipPage) : (s.mapCip n f).sec = s.sec := rfl
@[simp] theorem State.mapCip_ringPend (n : Nat) (f : CipPage → CipPage) : (s.mapCip n f).ringPend = s.ringPend := rfl
@[simp] theorem State.mapCip_slots (n : Nat) (f : CipPage → CipPage) : (s.mapCip n f).slots = s.slots := rfl
@[simp] theorem State.mapCip_rst (n : Nat) (f : CipPage → CipPage) : (s.mapCip n f).rst = s.rst := rfl
@[simp] theorem State.mapCip_tap (n : Nat) (f : CipPage → CipPage) : (s.mapCip n f).tap = s.tap := rfl
@[simp] theorem State.mapCip_frees (n : Nat) (f : CipPage → CipPage) : (s.mapCip n f).frees = s.frees := rfl
@[simp] theorem State.mapCip_out (n : Nat) (f : CipPage → CipPage) : (s.mapCip n f).out = s.out := rfl
@[simp] theorem State.mapCip_pending (n : Nat) (f : CipPage → CipPage) : (s.mapCip n f).pending = s.pending := rfl

@[simp] theorem State.setSlot_regs (i : Nat) (k : Slot) : (s.setSlot i k).regs = s.regs := rfl
@[simp] theorem State.setSlot_tabs (i : Nat) (k : Slot) : (s.setSlot i k).tabs = s.tabs := rfl
@[simp] theorem State.setSlot_tabsShadow (i : Nat) (k : Slot) : (s.setSlot i k).tabsShadow = s.tabsShadow := rfl
@[simp] theorem State.setSlot_counters (i : Nat) (k : Slot) : (s.setSlot i k).counters = s.counters := rfl
@[simp] theorem State.setSlot_snapshot (i : Nat) (k : Slot) : (s.setSlot i k).snapshot = s.snapshot := rfl
@[simp] theorem State.setSlot_mem (i : Nat) (k : Slot) : (s.setSlot i k).mem = s.mem := rfl
@[simp] theorem State.setSlot_drainTimer (i : Nat) (k : Slot) : (s.setSlot i k).drainTimer = s.drainTimer := rfl
@[simp] theorem State.setSlot_applying (i : Nat) (k : Slot) : (s.setSlot i k).applying = s.applying := rfl
@[simp] theorem State.setSlot_plan (i : Nat) (k : Slot) : (s.setSlot i k).plan = s.plan := rfl
@[simp] theorem State.setSlot_dp (i : Nat) (k : Slot) : (s.setSlot i k).dp = s.dp := rfl
@[simp] theorem State.setSlot_pcie (i : Nat) (k : Slot) : (s.setSlot i k).pcie = s.pcie := rfl
@[simp] theorem State.setSlot_now (i : Nat) (k : Slot) : (s.setSlot i k).now = s.now := rfl
@[simp] theorem State.setSlot_dom (i : Nat) (k : Slot) : (s.setSlot i k).dom = s.dom := rfl
@[simp] theorem State.setSlot_txts (i : Nat) (k : Slot) : (s.setSlot i k).txts = s.txts := rfl
@[simp] theorem State.setSlot_frer (i : Nat) (k : Slot) : (s.setSlot i k).frer = s.frer := rfl
@[simp] theorem State.setSlot_frerScan (i : Nat) (k : Slot) : (s.setSlot i k).frerScan = s.frerScan := rfl
@[simp] theorem State.setSlot_clasp (i : Nat) (k : Slot) : (s.setSlot i k).clasp = s.clasp := rfl
@[simp] theorem State.setSlot_bridge (i : Nat) (k : Slot) : (s.setSlot i k).bridge = s.bridge := rfl
@[simp] theorem State.setSlot_procs (i : Nat) (k : Slot) : (s.setSlot i k).procs = s.procs := rfl
@[simp] theorem State.setSlot_power (i : Nat) (k : Slot) : (s.setSlot i k).power = s.power := rfl
@[simp] theorem State.setSlot_cans (i : Nat) (k : Slot) : (s.setSlot i k).cans = s.cans := rfl
@[simp] theorem State.setSlot_lins (i : Nat) (k : Slot) : (s.setSlot i k).lins = s.lins := rfl
@[simp] theorem State.setSlot_tdms (i : Nat) (k : Slot) : (s.setSlot i k).tdms = s.tdms := rfl
@[simp] theorem State.setSlot_tsi (i : Nat) (k : Slot) : (s.setSlot i k).tsi = s.tsi := rfl
@[simp] theorem State.setSlot_cips (i : Nat) (k : Slot) : (s.setSlot i k).cips = s.cips := rfl
@[simp] theorem State.setSlot_sec (i : Nat) (k : Slot) : (s.setSlot i k).sec = s.sec := rfl
@[simp] theorem State.setSlot_ringPend (i : Nat) (k : Slot) : (s.setSlot i k).ringPend = s.ringPend := rfl
@[simp] theorem State.setSlot_slots (i : Nat) (k : Slot) : (s.setSlot i k).slots = s.slots.set i k := rfl
@[simp] theorem State.setSlot_rst (i : Nat) (k : Slot) : (s.setSlot i k).rst = s.rst := rfl
@[simp] theorem State.setSlot_tap (i : Nat) (k : Slot) : (s.setSlot i k).tap = s.tap := rfl
@[simp] theorem State.setSlot_frees (i : Nat) (k : Slot) : (s.setSlot i k).frees = s.frees := rfl
@[simp] theorem State.setSlot_out (i : Nat) (k : Slot) : (s.setSlot i k).out = s.out := rfl
@[simp] theorem State.setSlot_pending (i : Nat) (k : Slot) : (s.setSlot i k).pending = s.pending := rfl

@[simp] theorem State.mapDp_regs (f : DataPath → DataPath) : (s.mapDp f).regs = s.regs := rfl
@[simp] theorem State.mapDp_tabs (f : DataPath → DataPath) : (s.mapDp f).tabs = s.tabs := rfl
@[simp] theorem State.mapDp_tabsShadow (f : DataPath → DataPath) : (s.mapDp f).tabsShadow = s.tabsShadow := rfl
@[simp] theorem State.mapDp_counters (f : DataPath → DataPath) : (s.mapDp f).counters = s.counters := rfl
@[simp] theorem State.mapDp_snapshot (f : DataPath → DataPath) : (s.mapDp f).snapshot = s.snapshot := rfl
@[simp] theorem State.mapDp_mem (f : DataPath → DataPath) : (s.mapDp f).mem = s.mem := rfl
@[simp] theorem State.mapDp_drainTimer (f : DataPath → DataPath) : (s.mapDp f).drainTimer = s.drainTimer := rfl
@[simp] theorem State.mapDp_applying (f : DataPath → DataPath) : (s.mapDp f).applying = s.applying := rfl
@[simp] theorem State.mapDp_plan (f : DataPath → DataPath) : (s.mapDp f).plan = s.plan := rfl
@[simp] theorem State.mapDp_dp (f : DataPath → DataPath) : (s.mapDp f).dp = f s.dp := rfl
@[simp] theorem State.mapDp_pcie (f : DataPath → DataPath) : (s.mapDp f).pcie = s.pcie := rfl
@[simp] theorem State.mapDp_now (f : DataPath → DataPath) : (s.mapDp f).now = s.now := rfl
@[simp] theorem State.mapDp_dom (f : DataPath → DataPath) : (s.mapDp f).dom = s.dom := rfl
@[simp] theorem State.mapDp_txts (f : DataPath → DataPath) : (s.mapDp f).txts = s.txts := rfl
@[simp] theorem State.mapDp_frer (f : DataPath → DataPath) : (s.mapDp f).frer = s.frer := rfl
@[simp] theorem State.mapDp_frerScan (f : DataPath → DataPath) : (s.mapDp f).frerScan = s.frerScan := rfl
@[simp] theorem State.mapDp_clasp (f : DataPath → DataPath) : (s.mapDp f).clasp = s.clasp := rfl
@[simp] theorem State.mapDp_bridge (f : DataPath → DataPath) : (s.mapDp f).bridge = s.bridge := rfl
@[simp] theorem State.mapDp_procs (f : DataPath → DataPath) : (s.mapDp f).procs = s.procs := rfl
@[simp] theorem State.mapDp_power (f : DataPath → DataPath) : (s.mapDp f).power = s.power := rfl
@[simp] theorem State.mapDp_cans (f : DataPath → DataPath) : (s.mapDp f).cans = s.cans := rfl
@[simp] theorem State.mapDp_lins (f : DataPath → DataPath) : (s.mapDp f).lins = s.lins := rfl
@[simp] theorem State.mapDp_tdms (f : DataPath → DataPath) : (s.mapDp f).tdms = s.tdms := rfl
@[simp] theorem State.mapDp_tsi (f : DataPath → DataPath) : (s.mapDp f).tsi = s.tsi := rfl
@[simp] theorem State.mapDp_cips (f : DataPath → DataPath) : (s.mapDp f).cips = s.cips := rfl
@[simp] theorem State.mapDp_sec (f : DataPath → DataPath) : (s.mapDp f).sec = s.sec := rfl
@[simp] theorem State.mapDp_ringPend (f : DataPath → DataPath) : (s.mapDp f).ringPend = s.ringPend := rfl
@[simp] theorem State.mapDp_slots (f : DataPath → DataPath) : (s.mapDp f).slots = s.slots := rfl
@[simp] theorem State.mapDp_rst (f : DataPath → DataPath) : (s.mapDp f).rst = s.rst := rfl
@[simp] theorem State.mapDp_tap (f : DataPath → DataPath) : (s.mapDp f).tap = s.tap := rfl
@[simp] theorem State.mapDp_frees (f : DataPath → DataPath) : (s.mapDp f).frees = s.frees := rfl
@[simp] theorem State.mapDp_out (f : DataPath → DataPath) : (s.mapDp f).out = s.out := rfl
@[simp] theorem State.mapDp_pending (f : DataPath → DataPath) : (s.mapDp f).pending = s.pending := rfl

@[simp] theorem State.mapHost_regs (f : Mem → Mem) : (s.mapHost f).regs = s.regs := rfl
@[simp] theorem State.mapHost_tabs (f : Mem → Mem) : (s.mapHost f).tabs = s.tabs := rfl
@[simp] theorem State.mapHost_tabsShadow (f : Mem → Mem) : (s.mapHost f).tabsShadow = s.tabsShadow := rfl
@[simp] theorem State.mapHost_counters (f : Mem → Mem) : (s.mapHost f).counters = s.counters := rfl
@[simp] theorem State.mapHost_snapshot (f : Mem → Mem) : (s.mapHost f).snapshot = s.snapshot := rfl
@[simp] theorem State.mapHost_mem (f : Mem → Mem) : (s.mapHost f).mem = { s.mem with host := f s.mem.host } := rfl
@[simp] theorem State.mapHost_drainTimer (f : Mem → Mem) : (s.mapHost f).drainTimer = s.drainTimer := rfl
@[simp] theorem State.mapHost_applying (f : Mem → Mem) : (s.mapHost f).applying = s.applying := rfl
@[simp] theorem State.mapHost_plan (f : Mem → Mem) : (s.mapHost f).plan = s.plan := rfl
@[simp] theorem State.mapHost_dp (f : Mem → Mem) : (s.mapHost f).dp = s.dp := rfl
@[simp] theorem State.mapHost_pcie (f : Mem → Mem) : (s.mapHost f).pcie = s.pcie := rfl
@[simp] theorem State.mapHost_now (f : Mem → Mem) : (s.mapHost f).now = s.now := rfl
@[simp] theorem State.mapHost_dom (f : Mem → Mem) : (s.mapHost f).dom = s.dom := rfl
@[simp] theorem State.mapHost_txts (f : Mem → Mem) : (s.mapHost f).txts = s.txts := rfl
@[simp] theorem State.mapHost_frer (f : Mem → Mem) : (s.mapHost f).frer = s.frer := rfl
@[simp] theorem State.mapHost_frerScan (f : Mem → Mem) : (s.mapHost f).frerScan = s.frerScan := rfl
@[simp] theorem State.mapHost_clasp (f : Mem → Mem) : (s.mapHost f).clasp = s.clasp := rfl
@[simp] theorem State.mapHost_bridge (f : Mem → Mem) : (s.mapHost f).bridge = s.bridge := rfl
@[simp] theorem State.mapHost_procs (f : Mem → Mem) : (s.mapHost f).procs = s.procs := rfl
@[simp] theorem State.mapHost_power (f : Mem → Mem) : (s.mapHost f).power = s.power := rfl
@[simp] theorem State.mapHost_cans (f : Mem → Mem) : (s.mapHost f).cans = s.cans := rfl
@[simp] theorem State.mapHost_lins (f : Mem → Mem) : (s.mapHost f).lins = s.lins := rfl
@[simp] theorem State.mapHost_tdms (f : Mem → Mem) : (s.mapHost f).tdms = s.tdms := rfl
@[simp] theorem State.mapHost_tsi (f : Mem → Mem) : (s.mapHost f).tsi = s.tsi := rfl
@[simp] theorem State.mapHost_cips (f : Mem → Mem) : (s.mapHost f).cips = s.cips := rfl
@[simp] theorem State.mapHost_sec (f : Mem → Mem) : (s.mapHost f).sec = s.sec := rfl
@[simp] theorem State.mapHost_ringPend (f : Mem → Mem) : (s.mapHost f).ringPend = s.ringPend := rfl
@[simp] theorem State.mapHost_slots (f : Mem → Mem) : (s.mapHost f).slots = s.slots := rfl
@[simp] theorem State.mapHost_rst (f : Mem → Mem) : (s.mapHost f).rst = s.rst := rfl
@[simp] theorem State.mapHost_tap (f : Mem → Mem) : (s.mapHost f).tap = s.tap := rfl
@[simp] theorem State.mapHost_frees (f : Mem → Mem) : (s.mapHost f).frees = s.frees := rfl
@[simp] theorem State.mapHost_out (f : Mem → Mem) : (s.mapHost f).out = s.out := rfl
@[simp] theorem State.mapHost_pending (f : Mem → Mem) : (s.mapHost f).pending = s.pending := rfl

@[simp] theorem State.mapCan_regs (n : Nat) (f : CanCh → CanCh) : (s.mapCan n f).regs = s.regs := rfl
@[simp] theorem State.mapCan_tabs (n : Nat) (f : CanCh → CanCh) : (s.mapCan n f).tabs = s.tabs := rfl
@[simp] theorem State.mapCan_tabsShadow (n : Nat) (f : CanCh → CanCh) : (s.mapCan n f).tabsShadow = s.tabsShadow := rfl
@[simp] theorem State.mapCan_counters (n : Nat) (f : CanCh → CanCh) : (s.mapCan n f).counters = s.counters := rfl
@[simp] theorem State.mapCan_snapshot (n : Nat) (f : CanCh → CanCh) : (s.mapCan n f).snapshot = s.snapshot := rfl
@[simp] theorem State.mapCan_mem (n : Nat) (f : CanCh → CanCh) : (s.mapCan n f).mem = s.mem := rfl
@[simp] theorem State.mapCan_drainTimer (n : Nat) (f : CanCh → CanCh) : (s.mapCan n f).drainTimer = s.drainTimer := rfl
@[simp] theorem State.mapCan_applying (n : Nat) (f : CanCh → CanCh) : (s.mapCan n f).applying = s.applying := rfl
@[simp] theorem State.mapCan_plan (n : Nat) (f : CanCh → CanCh) : (s.mapCan n f).plan = s.plan := rfl
@[simp] theorem State.mapCan_dp (n : Nat) (f : CanCh → CanCh) : (s.mapCan n f).dp = s.dp := rfl
@[simp] theorem State.mapCan_pcie (n : Nat) (f : CanCh → CanCh) : (s.mapCan n f).pcie = s.pcie := rfl
@[simp] theorem State.mapCan_now (n : Nat) (f : CanCh → CanCh) : (s.mapCan n f).now = s.now := rfl
@[simp] theorem State.mapCan_dom (n : Nat) (f : CanCh → CanCh) : (s.mapCan n f).dom = s.dom := rfl
@[simp] theorem State.mapCan_txts (n : Nat) (f : CanCh → CanCh) : (s.mapCan n f).txts = s.txts := rfl
@[simp] theorem State.mapCan_frer (n : Nat) (f : CanCh → CanCh) : (s.mapCan n f).frer = s.frer := rfl
@[simp] theorem State.mapCan_frerScan (n : Nat) (f : CanCh → CanCh) : (s.mapCan n f).frerScan = s.frerScan := rfl
@[simp] theorem State.mapCan_clasp (n : Nat) (f : CanCh → CanCh) : (s.mapCan n f).clasp = s.clasp := rfl
@[simp] theorem State.mapCan_bridge (n : Nat) (f : CanCh → CanCh) : (s.mapCan n f).bridge = s.bridge := rfl
@[simp] theorem State.mapCan_procs (n : Nat) (f : CanCh → CanCh) : (s.mapCan n f).procs = s.procs := rfl
@[simp] theorem State.mapCan_power (n : Nat) (f : CanCh → CanCh) : (s.mapCan n f).power = s.power := rfl
@[simp] theorem State.mapCan_cans (n : Nat) (f : CanCh → CanCh) : (s.mapCan n f).cans = s.cans.modify n f := rfl
@[simp] theorem State.mapCan_lins (n : Nat) (f : CanCh → CanCh) : (s.mapCan n f).lins = s.lins := rfl
@[simp] theorem State.mapCan_tdms (n : Nat) (f : CanCh → CanCh) : (s.mapCan n f).tdms = s.tdms := rfl
@[simp] theorem State.mapCan_tsi (n : Nat) (f : CanCh → CanCh) : (s.mapCan n f).tsi = s.tsi := rfl
@[simp] theorem State.mapCan_cips (n : Nat) (f : CanCh → CanCh) : (s.mapCan n f).cips = s.cips := rfl
@[simp] theorem State.mapCan_sec (n : Nat) (f : CanCh → CanCh) : (s.mapCan n f).sec = s.sec := rfl
@[simp] theorem State.mapCan_ringPend (n : Nat) (f : CanCh → CanCh) : (s.mapCan n f).ringPend = s.ringPend := rfl
@[simp] theorem State.mapCan_slots (n : Nat) (f : CanCh → CanCh) : (s.mapCan n f).slots = s.slots := rfl
@[simp] theorem State.mapCan_rst (n : Nat) (f : CanCh → CanCh) : (s.mapCan n f).rst = s.rst := rfl
@[simp] theorem State.mapCan_tap (n : Nat) (f : CanCh → CanCh) : (s.mapCan n f).tap = s.tap := rfl
@[simp] theorem State.mapCan_frees (n : Nat) (f : CanCh → CanCh) : (s.mapCan n f).frees = s.frees := rfl
@[simp] theorem State.mapCan_out (n : Nat) (f : CanCh → CanCh) : (s.mapCan n f).out = s.out := rfl
@[simp] theorem State.mapCan_pending (n : Nat) (f : CanCh → CanCh) : (s.mapCan n f).pending = s.pending := rfl

@[simp] theorem State.mapLin_regs (n : Nat) (f : LinCh → LinCh) : (s.mapLin n f).regs = s.regs := rfl
@[simp] theorem State.mapLin_tabs (n : Nat) (f : LinCh → LinCh) : (s.mapLin n f).tabs = s.tabs := rfl
@[simp] theorem State.mapLin_tabsShadow (n : Nat) (f : LinCh → LinCh) : (s.mapLin n f).tabsShadow = s.tabsShadow := rfl
@[simp] theorem State.mapLin_counters (n : Nat) (f : LinCh → LinCh) : (s.mapLin n f).counters = s.counters := rfl
@[simp] theorem State.mapLin_snapshot (n : Nat) (f : LinCh → LinCh) : (s.mapLin n f).snapshot = s.snapshot := rfl
@[simp] theorem State.mapLin_mem (n : Nat) (f : LinCh → LinCh) : (s.mapLin n f).mem = s.mem := rfl
@[simp] theorem State.mapLin_drainTimer (n : Nat) (f : LinCh → LinCh) : (s.mapLin n f).drainTimer = s.drainTimer := rfl
@[simp] theorem State.mapLin_applying (n : Nat) (f : LinCh → LinCh) : (s.mapLin n f).applying = s.applying := rfl
@[simp] theorem State.mapLin_plan (n : Nat) (f : LinCh → LinCh) : (s.mapLin n f).plan = s.plan := rfl
@[simp] theorem State.mapLin_dp (n : Nat) (f : LinCh → LinCh) : (s.mapLin n f).dp = s.dp := rfl
@[simp] theorem State.mapLin_pcie (n : Nat) (f : LinCh → LinCh) : (s.mapLin n f).pcie = s.pcie := rfl
@[simp] theorem State.mapLin_now (n : Nat) (f : LinCh → LinCh) : (s.mapLin n f).now = s.now := rfl
@[simp] theorem State.mapLin_dom (n : Nat) (f : LinCh → LinCh) : (s.mapLin n f).dom = s.dom := rfl
@[simp] theorem State.mapLin_txts (n : Nat) (f : LinCh → LinCh) : (s.mapLin n f).txts = s.txts := rfl
@[simp] theorem State.mapLin_frer (n : Nat) (f : LinCh → LinCh) : (s.mapLin n f).frer = s.frer := rfl
@[simp] theorem State.mapLin_frerScan (n : Nat) (f : LinCh → LinCh) : (s.mapLin n f).frerScan = s.frerScan := rfl
@[simp] theorem State.mapLin_clasp (n : Nat) (f : LinCh → LinCh) : (s.mapLin n f).clasp = s.clasp := rfl
@[simp] theorem State.mapLin_bridge (n : Nat) (f : LinCh → LinCh) : (s.mapLin n f).bridge = s.bridge := rfl
@[simp] theorem State.mapLin_procs (n : Nat) (f : LinCh → LinCh) : (s.mapLin n f).procs = s.procs := rfl
@[simp] theorem State.mapLin_power (n : Nat) (f : LinCh → LinCh) : (s.mapLin n f).power = s.power := rfl
@[simp] theorem State.mapLin_cans (n : Nat) (f : LinCh → LinCh) : (s.mapLin n f).cans = s.cans := rfl
@[simp] theorem State.mapLin_lins (n : Nat) (f : LinCh → LinCh) : (s.mapLin n f).lins = s.lins.modify n f := rfl
@[simp] theorem State.mapLin_tdms (n : Nat) (f : LinCh → LinCh) : (s.mapLin n f).tdms = s.tdms := rfl
@[simp] theorem State.mapLin_tsi (n : Nat) (f : LinCh → LinCh) : (s.mapLin n f).tsi = s.tsi := rfl
@[simp] theorem State.mapLin_cips (n : Nat) (f : LinCh → LinCh) : (s.mapLin n f).cips = s.cips := rfl
@[simp] theorem State.mapLin_sec (n : Nat) (f : LinCh → LinCh) : (s.mapLin n f).sec = s.sec := rfl
@[simp] theorem State.mapLin_ringPend (n : Nat) (f : LinCh → LinCh) : (s.mapLin n f).ringPend = s.ringPend := rfl
@[simp] theorem State.mapLin_slots (n : Nat) (f : LinCh → LinCh) : (s.mapLin n f).slots = s.slots := rfl
@[simp] theorem State.mapLin_rst (n : Nat) (f : LinCh → LinCh) : (s.mapLin n f).rst = s.rst := rfl
@[simp] theorem State.mapLin_tap (n : Nat) (f : LinCh → LinCh) : (s.mapLin n f).tap = s.tap := rfl
@[simp] theorem State.mapLin_frees (n : Nat) (f : LinCh → LinCh) : (s.mapLin n f).frees = s.frees := rfl
@[simp] theorem State.mapLin_out (n : Nat) (f : LinCh → LinCh) : (s.mapLin n f).out = s.out := rfl
@[simp] theorem State.mapLin_pending (n : Nat) (f : LinCh → LinCh) : (s.mapLin n f).pending = s.pending := rfl

@[simp] theorem State.tapSelect_regs (i : TapInstr) : (s.tapSelect i).regs = s.regs := rfl
@[simp] theorem State.tapSelect_tabs (i : TapInstr) : (s.tapSelect i).tabs = s.tabs := rfl
@[simp] theorem State.tapSelect_tabsShadow (i : TapInstr) : (s.tapSelect i).tabsShadow = s.tabsShadow := rfl
@[simp] theorem State.tapSelect_counters (i : TapInstr) : (s.tapSelect i).counters = s.counters := rfl
@[simp] theorem State.tapSelect_snapshot (i : TapInstr) : (s.tapSelect i).snapshot = s.snapshot := rfl
@[simp] theorem State.tapSelect_mem (i : TapInstr) : (s.tapSelect i).mem = s.mem := rfl
@[simp] theorem State.tapSelect_drainTimer (i : TapInstr) : (s.tapSelect i).drainTimer = s.drainTimer := rfl
@[simp] theorem State.tapSelect_applying (i : TapInstr) : (s.tapSelect i).applying = s.applying := rfl
@[simp] theorem State.tapSelect_plan (i : TapInstr) : (s.tapSelect i).plan = s.plan := rfl
@[simp] theorem State.tapSelect_dp (i : TapInstr) : (s.tapSelect i).dp = s.dp := rfl
@[simp] theorem State.tapSelect_pcie (i : TapInstr) : (s.tapSelect i).pcie = s.pcie := rfl
@[simp] theorem State.tapSelect_now (i : TapInstr) : (s.tapSelect i).now = s.now := rfl
@[simp] theorem State.tapSelect_dom (i : TapInstr) : (s.tapSelect i).dom = s.dom := rfl
@[simp] theorem State.tapSelect_txts (i : TapInstr) : (s.tapSelect i).txts = s.txts := rfl
@[simp] theorem State.tapSelect_frer (i : TapInstr) : (s.tapSelect i).frer = s.frer := rfl
@[simp] theorem State.tapSelect_frerScan (i : TapInstr) : (s.tapSelect i).frerScan = s.frerScan := rfl
@[simp] theorem State.tapSelect_clasp (i : TapInstr) : (s.tapSelect i).clasp = s.clasp := rfl
@[simp] theorem State.tapSelect_bridge (i : TapInstr) : (s.tapSelect i).bridge = s.bridge := rfl
@[simp] theorem State.tapSelect_procs (i : TapInstr) : (s.tapSelect i).procs = s.procs := rfl
@[simp] theorem State.tapSelect_power (i : TapInstr) : (s.tapSelect i).power = s.power := rfl
@[simp] theorem State.tapSelect_cans (i : TapInstr) : (s.tapSelect i).cans = s.cans := rfl
@[simp] theorem State.tapSelect_lins (i : TapInstr) : (s.tapSelect i).lins = s.lins := rfl
@[simp] theorem State.tapSelect_tdms (i : TapInstr) : (s.tapSelect i).tdms = s.tdms := rfl
@[simp] theorem State.tapSelect_tsi (i : TapInstr) : (s.tapSelect i).tsi = s.tsi := rfl
@[simp] theorem State.tapSelect_cips (i : TapInstr) : (s.tapSelect i).cips = s.cips := rfl
@[simp] theorem State.tapSelect_sec (i : TapInstr) : (s.tapSelect i).sec = s.sec := rfl
@[simp] theorem State.tapSelect_ringPend (i : TapInstr) : (s.tapSelect i).ringPend = s.ringPend := rfl
@[simp] theorem State.tapSelect_slots (i : TapInstr) : (s.tapSelect i).slots = s.slots := rfl
@[simp] theorem State.tapSelect_rst (i : TapInstr) : (s.tapSelect i).rst = s.rst := rfl
@[simp] theorem State.tapSelect_tap (i : TapInstr) : (s.tapSelect i).tap = { s.tap with ir := i } := rfl
@[simp] theorem State.tapSelect_frees (i : TapInstr) : (s.tapSelect i).frees = s.frees := rfl
@[simp] theorem State.tapSelect_out (i : TapInstr) : (s.tapSelect i).out =
    if ({ s.tap with ir := i } : Tap).pins = s.tap.pins then s.out else s.out ++ [.pins ({ s.tap with ir := i } : Tap).pins] := rfl
@[simp] theorem State.tapSelect_pending (i : TapInstr) : (s.tapSelect i).pending = s.pending := rfl

@[simp] theorem State.putFlash_regs (a : Nat) (l : List Byte) : (s.putFlash a l).regs = s.regs := rfl
@[simp] theorem State.putFlash_tabs (a : Nat) (l : List Byte) : (s.putFlash a l).tabs = s.tabs := rfl
@[simp] theorem State.putFlash_tabsShadow (a : Nat) (l : List Byte) : (s.putFlash a l).tabsShadow = s.tabsShadow := rfl
@[simp] theorem State.putFlash_counters (a : Nat) (l : List Byte) : (s.putFlash a l).counters = s.counters := rfl
@[simp] theorem State.putFlash_snapshot (a : Nat) (l : List Byte) : (s.putFlash a l).snapshot = s.snapshot := rfl
@[simp] theorem State.putFlash_drainTimer (a : Nat) (l : List Byte) : (s.putFlash a l).drainTimer = s.drainTimer := rfl
@[simp] theorem State.putFlash_applying (a : Nat) (l : List Byte) : (s.putFlash a l).applying = s.applying := rfl
@[simp] theorem State.putFlash_plan (a : Nat) (l : List Byte) : (s.putFlash a l).plan = s.plan := rfl
@[simp] theorem State.putFlash_dp (a : Nat) (l : List Byte) : (s.putFlash a l).dp = s.dp := rfl
@[simp] theorem State.putFlash_pcie (a : Nat) (l : List Byte) : (s.putFlash a l).pcie = s.pcie := rfl
@[simp] theorem State.putFlash_now (a : Nat) (l : List Byte) : (s.putFlash a l).now = s.now := rfl
@[simp] theorem State.putFlash_dom (a : Nat) (l : List Byte) : (s.putFlash a l).dom = s.dom := rfl
@[simp] theorem State.putFlash_txts (a : Nat) (l : List Byte) : (s.putFlash a l).txts = s.txts := rfl
@[simp] theorem State.putFlash_frer (a : Nat) (l : List Byte) : (s.putFlash a l).frer = s.frer := rfl
@[simp] theorem State.putFlash_frerScan (a : Nat) (l : List Byte) : (s.putFlash a l).frerScan = s.frerScan := rfl
@[simp] theorem State.putFlash_clasp (a : Nat) (l : List Byte) : (s.putFlash a l).clasp = s.clasp := rfl
@[simp] theorem State.putFlash_bridge (a : Nat) (l : List Byte) : (s.putFlash a l).bridge = s.bridge := rfl
@[simp] theorem State.putFlash_procs (a : Nat) (l : List Byte) : (s.putFlash a l).procs = s.procs := rfl
@[simp] theorem State.putFlash_power (a : Nat) (l : List Byte) : (s.putFlash a l).power = s.power := rfl
@[simp] theorem State.putFlash_cans (a : Nat) (l : List Byte) : (s.putFlash a l).cans = s.cans := rfl
@[simp] theorem State.putFlash_lins (a : Nat) (l : List Byte) : (s.putFlash a l).lins = s.lins := rfl
@[simp] theorem State.putFlash_tdms (a : Nat) (l : List Byte) : (s.putFlash a l).tdms = s.tdms := rfl
@[simp] theorem State.putFlash_tsi (a : Nat) (l : List Byte) : (s.putFlash a l).tsi = s.tsi := rfl
@[simp] theorem State.putFlash_cips (a : Nat) (l : List Byte) : (s.putFlash a l).cips = s.cips := rfl
@[simp] theorem State.putFlash_sec (a : Nat) (l : List Byte) : (s.putFlash a l).sec = s.sec := rfl
@[simp] theorem State.putFlash_ringPend (a : Nat) (l : List Byte) : (s.putFlash a l).ringPend = s.ringPend := rfl
@[simp] theorem State.putFlash_slots (a : Nat) (l : List Byte) : (s.putFlash a l).slots = s.slots := rfl
@[simp] theorem State.putFlash_rst (a : Nat) (l : List Byte) : (s.putFlash a l).rst = s.rst := rfl
@[simp] theorem State.putFlash_tap (a : Nat) (l : List Byte) : (s.putFlash a l).tap = s.tap := rfl
@[simp] theorem State.putFlash_frees (a : Nat) (l : List Byte) : (s.putFlash a l).frees = s.frees := rfl
@[simp] theorem State.putFlash_out (a : Nat) (l : List Byte) : (s.putFlash a l).out = s.out := rfl
@[simp] theorem State.putFlash_pending (a : Nat) (l : List Byte) : (s.putFlash a l).pending = s.pending := rfl
@[simp] theorem State.putFlash_win (a : Nat) (l : List Byte) : (s.putFlash a l).mem.win = s.mem.win := rfl
@[simp] theorem State.putFlash_scratch (a : Nat) (l : List Byte) : (s.putFlash a l).mem.scratch = s.mem.scratch := rfl
@[simp] theorem State.putFlash_msram (a : Nat) (l : List Byte) : (s.putFlash a l).mem.msram = s.mem.msram := rfl
@[simp] theorem State.putFlash_tsram (a : Nat) (l : List Byte) : (s.putFlash a l).mem.tsram = s.mem.tsram := rfl
@[simp] theorem State.putFlash_locket (a : Nat) (l : List Byte) : (s.putFlash a l).mem.locket = s.mem.locket := rfl
@[simp] theorem State.putFlash_flash (a : Nat) (l : List Byte) : (s.putFlash a l).mem.flash = s.mem.flash.putBytes a l := rfl
@[simp] theorem State.putFlash_host (a : Nat) (l : List Byte) : (s.putFlash a l).mem.host = s.mem.host := rfl
@[simp] theorem State.putFlash_otp (a : Nat) (l : List Byte) : (s.putFlash a l).mem.otp = s.mem.otp := rfl

@[simp] theorem State.mapClasp_regs (f : Clasp → Clasp) : (s.mapClasp f).regs = s.regs := rfl
@[simp] theorem State.mapClasp_tabs (f : Clasp → Clasp) : (s.mapClasp f).tabs = s.tabs := rfl
@[simp] theorem State.mapClasp_tabsShadow (f : Clasp → Clasp) : (s.mapClasp f).tabsShadow = s.tabsShadow := rfl
@[simp] theorem State.mapClasp_counters (f : Clasp → Clasp) : (s.mapClasp f).counters = s.counters := rfl
@[simp] theorem State.mapClasp_snapshot (f : Clasp → Clasp) : (s.mapClasp f).snapshot = s.snapshot := rfl
@[simp] theorem State.mapClasp_mem (f : Clasp → Clasp) : (s.mapClasp f).mem = s.mem := rfl
@[simp] theorem State.mapClasp_drainTimer (f : Clasp → Clasp) : (s.mapClasp f).drainTimer = s.drainTimer := rfl
@[simp] theorem State.mapClasp_applying (f : Clasp → Clasp) : (s.mapClasp f).applying = s.applying := rfl
@[simp] theorem State.mapClasp_plan (f : Clasp → Clasp) : (s.mapClasp f).plan = s.plan := rfl
@[simp] theorem State.mapClasp_dp (f : Clasp → Clasp) : (s.mapClasp f).dp = s.dp := rfl
@[simp] theorem State.mapClasp_pcie (f : Clasp → Clasp) : (s.mapClasp f).pcie = s.pcie := rfl
@[simp] theorem State.mapClasp_now (f : Clasp → Clasp) : (s.mapClasp f).now = s.now := rfl
@[simp] theorem State.mapClasp_dom (f : Clasp → Clasp) : (s.mapClasp f).dom = s.dom := rfl
@[simp] theorem State.mapClasp_txts (f : Clasp → Clasp) : (s.mapClasp f).txts = s.txts := rfl
@[simp] theorem State.mapClasp_frer (f : Clasp → Clasp) : (s.mapClasp f).frer = s.frer := rfl
@[simp] theorem State.mapClasp_frerScan (f : Clasp → Clasp) : (s.mapClasp f).frerScan = s.frerScan := rfl
@[simp] theorem State.mapClasp_clasp (f : Clasp → Clasp) : (s.mapClasp f).clasp = f s.clasp := rfl
@[simp] theorem State.mapClasp_bridge (f : Clasp → Clasp) : (s.mapClasp f).bridge = s.bridge := rfl
@[simp] theorem State.mapClasp_procs (f : Clasp → Clasp) : (s.mapClasp f).procs = s.procs := rfl
@[simp] theorem State.mapClasp_power (f : Clasp → Clasp) : (s.mapClasp f).power = s.power := rfl
@[simp] theorem State.mapClasp_cans (f : Clasp → Clasp) : (s.mapClasp f).cans = s.cans := rfl
@[simp] theorem State.mapClasp_lins (f : Clasp → Clasp) : (s.mapClasp f).lins = s.lins := rfl
@[simp] theorem State.mapClasp_tdms (f : Clasp → Clasp) : (s.mapClasp f).tdms = s.tdms := rfl
@[simp] theorem State.mapClasp_tsi (f : Clasp → Clasp) : (s.mapClasp f).tsi = s.tsi := rfl
@[simp] theorem State.mapClasp_cips (f : Clasp → Clasp) : (s.mapClasp f).cips = s.cips := rfl
@[simp] theorem State.mapClasp_sec (f : Clasp → Clasp) : (s.mapClasp f).sec = s.sec := rfl
@[simp] theorem State.mapClasp_ringPend (f : Clasp → Clasp) : (s.mapClasp f).ringPend = s.ringPend := rfl
@[simp] theorem State.mapClasp_slots (f : Clasp → Clasp) : (s.mapClasp f).slots = s.slots := rfl
@[simp] theorem State.mapClasp_rst (f : Clasp → Clasp) : (s.mapClasp f).rst = s.rst := rfl
@[simp] theorem State.mapClasp_tap (f : Clasp → Clasp) : (s.mapClasp f).tap = s.tap := rfl
@[simp] theorem State.mapClasp_frees (f : Clasp → Clasp) : (s.mapClasp f).frees = s.frees := rfl
@[simp] theorem State.mapClasp_out (f : Clasp → Clasp) : (s.mapClasp f).out = s.out := rfl
@[simp] theorem State.mapClasp_pending (f : Clasp → Clasp) : (s.mapClasp f).pending = s.pending := rfl

@[simp] theorem State.mapPower_regs (f : Power → Power) : (s.mapPower f).regs = s.regs := rfl
@[simp] theorem State.mapPower_tabs (f : Power → Power) : (s.mapPower f).tabs = s.tabs := rfl
@[simp] theorem State.mapPower_tabsShadow (f : Power → Power) : (s.mapPower f).tabsShadow = s.tabsShadow := rfl
@[simp] theorem State.mapPower_counters (f : Power → Power) : (s.mapPower f).counters = s.counters := rfl
@[simp] theorem State.mapPower_snapshot (f : Power → Power) : (s.mapPower f).snapshot = s.snapshot := rfl
@[simp] theorem State.mapPower_mem (f : Power → Power) : (s.mapPower f).mem = s.mem := rfl
@[simp] theorem State.mapPower_drainTimer (f : Power → Power) : (s.mapPower f).drainTimer = s.drainTimer := rfl
@[simp] theorem State.mapPower_applying (f : Power → Power) : (s.mapPower f).applying = s.applying := rfl
@[simp] theorem State.mapPower_plan (f : Power → Power) : (s.mapPower f).plan = s.plan := rfl
@[simp] theorem State.mapPower_dp (f : Power → Power) : (s.mapPower f).dp = s.dp := rfl
@[simp] theorem State.mapPower_pcie (f : Power → Power) : (s.mapPower f).pcie = s.pcie := rfl
@[simp] theorem State.mapPower_now (f : Power → Power) : (s.mapPower f).now = s.now := rfl
@[simp] theorem State.mapPower_dom (f : Power → Power) : (s.mapPower f).dom = s.dom := rfl
@[simp] theorem State.mapPower_txts (f : Power → Power) : (s.mapPower f).txts = s.txts := rfl
@[simp] theorem State.mapPower_frer (f : Power → Power) : (s.mapPower f).frer = s.frer := rfl
@[simp] theorem State.mapPower_frerScan (f : Power → Power) : (s.mapPower f).frerScan = s.frerScan := rfl
@[simp] theorem State.mapPower_clasp (f : Power → Power) : (s.mapPower f).clasp = s.clasp := rfl
@[simp] theorem State.mapPower_bridge (f : Power → Power) : (s.mapPower f).bridge = s.bridge := rfl
@[simp] theorem State.mapPower_procs (f : Power → Power) : (s.mapPower f).procs = s.procs := rfl
@[simp] theorem State.mapPower_power (f : Power → Power) : (s.mapPower f).power = f s.power := rfl
@[simp] theorem State.mapPower_cans (f : Power → Power) : (s.mapPower f).cans = s.cans := rfl
@[simp] theorem State.mapPower_lins (f : Power → Power) : (s.mapPower f).lins = s.lins := rfl
@[simp] theorem State.mapPower_tdms (f : Power → Power) : (s.mapPower f).tdms = s.tdms := rfl
@[simp] theorem State.mapPower_tsi (f : Power → Power) : (s.mapPower f).tsi = s.tsi := rfl
@[simp] theorem State.mapPower_cips (f : Power → Power) : (s.mapPower f).cips = s.cips := rfl
@[simp] theorem State.mapPower_sec (f : Power → Power) : (s.mapPower f).sec = s.sec := rfl
@[simp] theorem State.mapPower_ringPend (f : Power → Power) : (s.mapPower f).ringPend = s.ringPend := rfl
@[simp] theorem State.mapPower_slots (f : Power → Power) : (s.mapPower f).slots = s.slots := rfl
@[simp] theorem State.mapPower_rst (f : Power → Power) : (s.mapPower f).rst = s.rst := rfl
@[simp] theorem State.mapPower_tap (f : Power → Power) : (s.mapPower f).tap = s.tap := rfl
@[simp] theorem State.mapPower_frees (f : Power → Power) : (s.mapPower f).frees = s.frees := rfl
@[simp] theorem State.mapPower_out (f : Power → Power) : (s.mapPower f).out = s.out := rfl
@[simp] theorem State.mapPower_pending (f : Power → Power) : (s.mapPower f).pending = s.pending := rfl

end

end Sys2Proof.Machine
end

