-- ==== Sys2Proof/Laws/Shared.lean ====
section
/-! SUPPORT. Which fields of the state the shared operations of pages leave alone: events, errors, the state of a page, its commit status,
and the write buffer that a write of a processor drains. -/
namespace Sys2Proof.Machine

/-- A field that no single change touches is as before after a change for each element of a list. -/
theorem State.each_field {α β : Type} (g : State → β) (s : State) (l : List α) (f : State → α → State)
    (h : ∀ u a, g (f u a) = g u) : g (s.each l f) = g s := by
  show g (l.foldl f s) = g s
  induction l generalizing s with
  | nil => rfl
  | cons a t ih => rw [List.foldl_cons, ih, h]

section
variable (s : State)

@[simp] theorem State.msixSend_regs (v : Nat) : (s.msixSend v).regs = s.regs := by
  unfold State.msixSend; split
  · split <;> rfl
  · rfl
@[simp] theorem State.msixSend_tabs (v : Nat) : (s.msixSend v).tabs = s.tabs := by
  unfold State.msixSend; split
  · split <;> rfl
  · rfl
@[simp] theorem State.msixSend_tabsShadow (v : Nat) : (s.msixSend v).tabsShadow = s.tabsShadow := by
  unfold State.msixSend; split
  · split <;> rfl
  · rfl
@[simp] theorem State.msixSend_snapshot (v : Nat) : (s.msixSend v).snapshot = s.snapshot := by
  unfold State.msixSend; split
  · split <;> rfl
  · rfl
@[simp] theorem State.msixSend_mem (v : Nat) : (s.msixSend v).mem = s.mem := by
  unfold State.msixSend; split
  · split <;> rfl
  · rfl
@[simp] theorem State.msixSend_drainTimer (v : Nat) : (s.msixSend v).drainTimer = s.drainTimer := by
  unfold State.msixSend; split
  · split <;> rfl
  · rfl
@[simp] theorem State.msixSend_applying (v : Nat) : (s.msixSend v).applying = s.applying := by
  unfold State.msixSend; split
  · split <;> rfl
  · rfl
@[simp] theorem State.msixSend_plan (v : Nat) : (s.msixSend v).plan = s.plan := by
  unfold State.msixSend; split
  · split <;> rfl
  · rfl
@[simp] theorem State.msixSend_dp (v : Nat) : (s.msixSend v).dp = s.dp := by
  unfold State.msixSend; split
  · split <;> rfl
  · rfl
@[simp] theorem State.msixSend_now (v : Nat) : (s.msixSend v).now = s.now := by
  unfold State.msixSend; split
  · split <;> rfl
  · rfl
@[simp] theorem State.msixSend_dom (v : Nat) : (s.msixSend v).dom = s.dom := by
  unfold State.msixSend; split
  · split <;> rfl
  · rfl
@[simp] theorem State.msixSend_txts (v : Nat) : (s.msixSend v).txts = s.txts := by
  unfold State.msixSend; split
  · split <;> rfl
  · rfl
@[simp] theorem State.msixSend_frer (v : Nat) : (s.msixSend v).frer = s.frer := by
  unfold State.msixSend; split
  · split <;> rfl
  · rfl
@[simp] theorem State.msixSend_frerScan (v : Nat) : (s.msixSend v).frerScan = s.frerScan := by
  unfold State.msixSend; split
  · split <;> rfl
  · rfl
@[simp] theorem State.msixSend_clasp (v : Nat) : (s.msixSend v).clasp = s.clasp := by
  unfold State.msixSend; split
  · split <;> rfl
  · rfl
@[simp] theorem State.msixSend_bridge (v : Nat) : (s.msixSend v).bridge = s.bridge := by
  unfold State.msixSend; split
  · split <;> rfl
  · rfl
@[simp] theorem State.msixSend_procs (v : Nat) : (s.msixSend v).procs = s.procs := by
  unfold State.msixSend; split
  · split <;> rfl
  · rfl
@[simp] theorem State.msixSend_power (v : Nat) : (s.msixSend v).power = s.power := by
  unfold State.msixSend; split
  · split <;> rfl
  · rfl
@[simp] theorem State.msixSend_cans (v : Nat) : (s.msixSend v).cans = s.cans := by
  unfold State.msixSend; split
  · split <;> rfl
  · rfl
@[simp] theorem State.msixSend_lins (v : Nat) : (s.msixSend v).lins = s.lins := by
  unfold State.msixSend; split
  · split <;> rfl
  · rfl
@[simp] theorem State.msixSend_tdms (v : Nat) : (s.msixSend v).tdms = s.tdms := by
  unfold State.msixSend; split
  · split <;> rfl
  · rfl
@[simp] theorem State.msixSend_tsi (v : Nat) : (s.msixSend v).tsi = s.tsi := by
  unfold State.msixSend; split
  · split <;> rfl
  · rfl
@[simp] theorem State.msixSend_cips (v : Nat) : (s.msixSend v).cips = s.cips := by
  unfold State.msixSend; split
  · split <;> rfl
  · rfl
@[simp] theorem State.msixSend_sec (v : Nat) : (s.msixSend v).sec = s.sec := by
  unfold State.msixSend; split
  · split <;> rfl
  · rfl
@[simp] theorem State.msixSend_ringPend (v : Nat) : (s.msixSend v).ringPend = s.ringPend := by
  unfold State.msixSend; split
  · split <;> rfl
  · rfl
@[simp] theorem State.msixSend_slots (v : Nat) : (s.msixSend v).slots = s.slots := by
  unfold State.msixSend; split
  · split <;> rfl
  · rfl
@[simp] theorem State.msixSend_rst (v : Nat) : (s.msixSend v).rst = s.rst := by
  unfold State.msixSend; split
  · split <;> rfl
  · rfl
@[simp] theorem State.msixSend_tap (v : Nat) : (s.msixSend v).tap = s.tap := by
  unfold State.msixSend; split
  · split <;> rfl
  · rfl
@[simp] theorem State.msixSend_frees (v : Nat) : (s.msixSend v).frees = s.frees := by
  unfold State.msixSend; split
  · split <;> rfl
  · rfl
@[simp] theorem State.msixSend_pending (v : Nat) : (s.msixSend v).pending = s.pending := by
  unfold State.msixSend; split
  · split <;> rfl
  · rfl

@[simp] theorem State.pageMessage_regs (p : Page) : (s.pageMessage p).regs = s.regs := by
  unfold State.pageMessage; split
  · simp
  · rfl
@[simp] theorem State.pageMessage_tabs (p : Page) : (s.pageMessage p).tabs = s.tabs := by
  unfold State.pageMessage; split
  · simp
  · rfl
@[simp] theorem State.pageMessage_tabsShadow (p : Page) : (s.pageMessage p).tabsShadow = s.tabsShadow := by
  unfold State.pageMessage; split
  · simp
  · rfl
@[simp] theorem State.pageMessage_snapshot (p : Page) : (s.pageMessage p).snapshot = s.snapshot := by
  unfold State.pageMessage; split
  · simp
  · rfl
@[simp] theorem State.pageMessage_mem (p : Page) : (s.pageMessage p).mem = s.mem := by
  unfold State.pageMessage; split
  · simp
  · rfl
@[simp] theorem State.pageMessage_drainTimer (p : Page) : (s.pageMessage p).drainTimer = s.drainTimer := by
  unfold State.pageMessage; split
  · simp
  · rfl
@[simp] theorem State.pageMessage_applying (p : Page) : (s.pageMessage p).applying = s.applying := by
  unfold State.pageMessage; split
  · simp
  · rfl
@[simp] theorem State.pageMessage_plan (p : Page) : (s.pageMessage p).plan = s.plan := by
  unfold State.pageMessage; split
  · simp
  · rfl
@[simp] theorem State.pageMessage_dp (p : Page) : (s.pageMessage p).dp = s.dp := by
  unfold State.pageMessage; split
  · simp
  · rfl
@[simp] theorem State.pageMessage_now (p : Page) : (s.pageMessage p).now = s.now := by
  unfold State.pageMessage; split
  · simp
  · rfl
@[simp] theorem State.pageMessage_dom (p : Page) : (s.pageMessage p).dom = s.dom := by
  unfold State.pageMessage; split
  · simp
  · rfl
@[simp] theorem State.pageMessage_txts (p : Page) : (s.pageMessage p).txts = s.txts := by
  unfold State.pageMessage; split
  · simp
  · rfl
@[simp] theorem State.pageMessage_frer (p : Page) : (s.pageMessage p).frer = s.frer := by
  unfold State.pageMessage; split
  · simp
  · rfl
@[simp] theorem State.pageMessage_frerScan (p : Page) : (s.pageMessage p).frerScan = s.frerScan := by
  unfold State.pageMessage; split
  · simp
  · rfl
@[simp] theorem State.pageMessage_clasp (p : Page) : (s.pageMessage p).clasp = s.clasp := by
  unfold State.pageMessage; split
  · simp
  · rfl
@[simp] theorem State.pageMessage_bridge (p : Page) : (s.pageMessage p).bridge = s.bridge := by
  unfold State.pageMessage; split
  · simp
  · rfl
@[simp] theorem State.pageMessage_procs (p : Page) : (s.pageMessage p).procs = s.procs := by
  unfold State.pageMessage; split
  · simp
  · rfl
@[simp] theorem State.pageMessage_power (p : Page) : (s.pageMessage p).power = s.power := by
  unfold State.pageMessage; split
  · simp
  · rfl
@[simp] theorem State.pageMessage_cans (p : Page) : (s.pageMessage p).cans = s.cans := by
  unfold State.pageMessage; split
  · simp
  · rfl
@[simp] theorem State.pageMessage_lins (p : Page) : (s.pageMessage p).lins = s.lins := by
  unfold State.pageMessage; split
  · simp
  · rfl
@[simp] theorem State.pageMessage_tdms (p : Page) : (s.pageMessage p).tdms = s.tdms := by
  unfold State.pageMessage; split
  · simp
  · rfl
@[simp] theorem State.pageMessage_tsi (p : Page) : (s.pageMessage p).tsi = s.tsi := by
  unfold State.pageMessage; split
  · simp
  · rfl
@[simp] theorem State.pageMessage_cips (p : Page) : (s.pageMessage p).cips = s.cips := by
  unfold State.pageMessage; split
  · simp
  · rfl
@[simp] theorem State.pageMessage_sec (p : Page) : (s.pageMessage p).sec = s.sec := by
  unfold State.pageMessage; split
  · simp
  · rfl
@[simp] theorem State.pageMessage_ringPend (p : Page) : (s.pageMessage p).ringPend = s.ringPend := by
  unfold State.pageMessage; split
  · simp
  · rfl
@[simp] theorem State.pageMessage_slots (p : Page) : (s.pageMessage p).slots = s.slots := by
  unfold State.pageMessage; split
  · simp
  · rfl
@[simp] theorem State.pageMessage_rst (p : Page) : (s.pageMessage p).rst = s.rst := by
  unfold State.pageMessage; split
  · simp
  · rfl
@[simp] theorem State.pageMessage_tap (p : Page) : (s.pageMessage p).tap = s.tap := by
  unfold State.pageMessage; split
  · simp
  · rfl
@[simp] theorem State.pageMessage_frees (p : Page) : (s.pageMessage p).frees = s.frees := by
  unfold State.pageMessage; split
  · simp
  · rfl
@[simp] theorem State.pageMessage_pending (p : Page) : (s.pageMessage p).pending = s.pending := by
  unfold State.pageMessage; split
  · simp
  · rfl

@[simp] theorem State.setEvents_tabs (p : Page) (r e : Word) : (s.setEvents p r e).tabs = s.tabs := by
  unfold State.setEvents; dsimp only; split <;> simp
@[simp] theorem State.setEvents_tabsShadow (p : Page) (r e : Word) : (s.setEvents p r e).tabsShadow = s.tabsShadow := by
  unfold State.setEvents; dsimp only; split <;> simp
@[simp] theorem State.setEvents_snapshot (p : Page) (r e : Word) : (s.setEvents p r e).snapshot = s.snapshot := by
  unfold State.setEvents; dsimp only; split <;> simp
@[simp] theorem State.setEvents_mem (p : Page) (r e : Word) : (s.setEvents p r e).mem = s.mem := by
  unfold State.setEvents; dsimp only; split <;> simp
@[simp] theorem State.setEvents_drainTimer (p : Page) (r e : Word) : (s.setEvents p r e).drainTimer = s.drainTimer := by
  unfold State.setEvents; dsimp only; split <;> simp
@[simp] theorem State.setEvents_applying (p : Page) (r e : Word) : (s.setEvents p r e).applying = s.applying := by
  unfold State.setEvents; dsimp only; split <;> simp
@[simp] theorem State.setEvents_plan (p : Page) (r e : Word) : (s.setEvents p r e).plan = s.plan := by
  unfold State.setEvents; dsimp only; split <;> simp
@[simp] theorem State.setEvents_dp (p : Page) (r e : Word) : (s.setEvents p r e).dp = s.dp := by
  unfold State.setEvents; dsimp only; split <;> simp
@[simp] theorem State.setEvents_now (p : Page) (r e : Word) : (s.setEvents p r e).now = s.now := by
  unfold State.setEvents; dsimp only; split <;> simp
@[simp] theorem State.setEvents_dom (p : Page) (r e : Word) : (s.setEvents p r e).dom = s.dom := by
  unfold State.setEvents; dsimp only; split <;> simp
@[simp] theorem State.setEvents_txts (p : Page) (r e : Word) : (s.setEvents p r e).txts = s.txts := by
  unfold State.setEvents; dsimp only; split <;> simp
@[simp] theorem State.setEvents_frer (p : Page) (r e : Word) : (s.setEvents p r e).frer = s.frer := by
  unfold State.setEvents; dsimp only; split <;> simp
@[simp] theorem State.setEvents_frerScan (p : Page) (r e : Word) : (s.setEvents p r e).frerScan = s.frerScan := by
  unfold State.setEvents; dsimp only; split <;> simp
@[simp] theorem State.setEvents_clasp (p : Page) (r e : Word) : (s.setEvents p r e).clasp = s.clasp := by
  unfold State.setEvents; dsimp only; split <;> simp
@[simp] theorem State.setEvents_bridge (p : Page) (r e : Word) : (s.setEvents p r e).bridge = s.bridge := by
  unfold State.setEvents; dsimp only; split <;> simp
@[simp] theorem State.setEvents_procs (p : Page) (r e : Word) : (s.setEvents p r e).procs = s.procs := by
  unfold State.setEvents; dsimp only; split <;> simp
@[simp] theorem State.setEvents_power (p : Page) (r e : Word) : (s.setEvents p r e).power = s.power := by
  unfold State.setEvents; dsimp only; split <;> simp
@[simp] theorem State.setEvents_cans (p : Page) (r e : Word) : (s.setEvents p r e).cans = s.cans := by
  unfold State.setEvents; dsimp only; split <;> simp
@[simp] theorem State.setEvents_lins (p : Page) (r e : Word) : (s.setEvents p r e).lins = s.lins := by
  unfold State.setEvents; dsimp only; split <;> simp
@[simp] theorem State.setEvents_tdms (p : Page) (r e : Word) : (s.setEvents p r e).tdms = s.tdms := by
  unfold State.setEvents; dsimp only; split <;> simp
@[simp] theorem State.setEvents_tsi (p : Page) (r e : Word) : (s.setEvents p r e).tsi = s.tsi := by
  unfold State.setEvents; dsimp only; split <;> simp
@[simp] theorem State.setEvents_cips (p : Page) (r e : Word) : (s.setEvents p r e).cips = s.cips := by
  unfold State.setEvents; dsimp only; split <;> simp
@[simp] theorem State.setEvents_sec (p : Page) (r e : Word) : (s.setEvents p r e).sec = s.sec := by
  unfold State.setEvents; dsimp only; split <;> simp
@[simp] theorem State.setEvents_ringPend (p : Page) (r e : Word) : (s.setEvents p r e).ringPend = s.ringPend := by
  unfold State.setEvents; dsimp only; split <;> simp
@[simp] theorem State.setEvents_slots (p : Page) (r e : Word) : (s.setEvents p r e).slots = s.slots := by
  unfold State.setEvents; dsimp only; split <;> simp
@[simp] theorem State.setEvents_rst (p : Page) (r e : Word) : (s.setEvents p r e).rst = s.rst := by
  unfold State.setEvents; dsimp only; split <;> simp
@[simp] theorem State.setEvents_tap (p : Page) (r e : Word) : (s.setEvents p r e).tap = s.tap := by
  unfold State.setEvents; dsimp only; split <;> simp
@[simp] theorem State.setEvents_frees (p : Page) (r e : Word) : (s.setEvents p r e).frees = s.frees := by
  unfold State.setEvents; dsimp only; split <;> simp
@[simp] theorem State.setEvents_pending (p : Page) (r e : Word) : (s.setEvents p r e).pending = s.pending := by
  unfold State.setEvents; dsimp only; split <;> simp

@[simp] theorem State.raise_tabs (p : Page) (b : Nat) : (s.raise p b).tabs = s.tabs := by
  simp [State.raise]
@[simp] theorem State.raise_tabsShadow (p : Page) (b : Nat) : (s.raise p b).tabsShadow = s.tabsShadow := by
  simp [State.raise]
@[simp] theorem State.raise_snapshot (p : Page) (b : Nat) : (s.raise p b).snapshot = s.snapshot := by
  simp [State.raise]
@[simp] theorem State.raise_mem (p : Page) (b : Nat) : (s.raise p b).mem = s.mem := by
  simp [State.raise]
@[simp] theorem State.raise_drainTimer (p : Page) (b : Nat) : (s.raise p b).drainTimer = s.drainTimer := by
  simp [State.raise]
@[simp] theorem State.raise_applying (p : Page) (b : Nat) : (s.raise p b).applying = s.applying := by
  simp [State.raise]
@[simp] theorem State.raise_plan (p : Page) (b : Nat) : (s.raise p b).plan = s.plan := by
  simp [State.raise]
@[simp] theorem State.raise_dp (p : Page) (b : Nat) : (s.raise p b).dp = s.dp := by
  simp [State.raise]
@[simp] theorem State.raise_now (p : Page) (b : Nat) : (s.raise p b).now = s.now := by
  simp [State.raise]
@[simp] theorem State.raise_dom (p : Page) (b : Nat) : (s.raise p b).dom = s.dom := by
  simp [State.raise]
@[simp] theorem State.raise_txts (p : Page) (b : Nat) : (s.raise p b).txts = s.txts := by
  simp [State.raise]
@[simp] theorem State.raise_frer (p : Page) (b : Nat) : (s.raise p b).frer = s.frer := by
  simp [State.raise]
@[simp] theorem State.raise_frerScan (p : Page) (b : Nat) : (s.raise p b).frerScan = s.frerScan := by
  simp [State.raise]
@[simp] theorem State.raise_clasp (p : Page) (b : Nat) : (s.raise p b).clasp = s.clasp := by
  simp [State.raise]
@[simp] theorem State.raise_bridge (p : Page) (b : Nat) : (s.raise p b).bridge = s.bridge := by
  simp [State.raise]
@[simp] theorem State.raise_procs (p : Page) (b : Nat) : (s.raise p b).procs = s.procs := by
  simp [State.raise]
@[simp] theorem State.raise_power (p : Page) (b : Nat) : (s.raise p b).power = s.power := by
  simp [State.raise]
@[simp] theorem State.raise_cans (p : Page) (b : Nat) : (s.raise p b).cans = s.cans := by
  simp [State.raise]
@[simp] theorem State.raise_lins (p : Page) (b : Nat) : (s.raise p b).lins = s.lins := by
  simp [State.raise]
@[simp] theorem State.raise_tdms (p : Page) (b : Nat) : (s.raise p b).tdms = s.tdms := by
  simp [State.raise]
@[simp] theorem State.raise_tsi (p : Page) (b : Nat) : (s.raise p b).tsi = s.tsi := by
  simp [State.raise]
@[simp] theorem State.raise_cips (p : Page) (b : Nat) : (s.raise p b).cips = s.cips := by
  simp [State.raise]
@[simp] theorem State.raise_sec (p : Page) (b : Nat) : (s.raise p b).sec = s.sec := by
  simp [State.raise]
@[simp] theorem State.raise_ringPend (p : Page) (b : Nat) : (s.raise p b).ringPend = s.ringPend := by
  simp [State.raise]
@[simp] theorem State.raise_slots (p : Page) (b : Nat) : (s.raise p b).slots = s.slots := by
  simp [State.raise]
@[simp] theorem State.raise_rst (p : Page) (b : Nat) : (s.raise p b).rst = s.rst := by
  simp [State.raise]
@[simp] theorem State.raise_tap (p : Page) (b : Nat) : (s.raise p b).tap = s.tap := by
  simp [State.raise]
@[simp] theorem State.raise_frees (p : Page) (b : Nat) : (s.raise p b).frees = s.frees := by
  simp [State.raise]
@[simp] theorem State.raise_pending (p : Page) (b : Nat) : (s.raise p b).pending = s.pending := by
  simp [State.raise]

@[simp] theorem State.eccNote_regs (p : Page) (c : Nat) : (s.eccNote p c).regs = s.regs := by
  unfold State.eccNote; split <;> rfl
@[simp] theorem State.eccNote_tabs (p : Page) (c : Nat) : (s.eccNote p c).tabs = s.tabs := by
  unfold State.eccNote; split <;> rfl
@[simp] theorem State.eccNote_tabsShadow (p : Page) (c : Nat) : (s.eccNote p c).tabsShadow = s.tabsShadow := by
  unfold State.eccNote; split <;> rfl
@[simp] theorem State.eccNote_counters (p : Page) (c : Nat) : (s.eccNote p c).counters = s.counters := by
  unfold State.eccNote; split <;> rfl
@[simp] theorem State.eccNote_snapshot (p : Page) (c : Nat) : (s.eccNote p c).snapshot = s.snapshot := by
  unfold State.eccNote; split <;> rfl
@[simp] theorem State.eccNote_mem (p : Page) (c : Nat) : (s.eccNote p c).mem = s.mem := by
  unfold State.eccNote; split <;> rfl
@[simp] theorem State.eccNote_drainTimer (p : Page) (c : Nat) : (s.eccNote p c).drainTimer = s.drainTimer := by
  unfold State.eccNote; split <;> rfl
@[simp] theorem State.eccNote_applying (p : Page) (c : Nat) : (s.eccNote p c).applying = s.applying := by
  unfold State.eccNote; split <;> rfl
@[simp] theorem State.eccNote_plan (p : Page) (c : Nat) : (s.eccNote p c).plan = s.plan := by
  unfold State.eccNote; split <;> rfl
@[simp] theorem State.eccNote_dp (p : Page) (c : Nat) : (s.eccNote p c).dp = s.dp := by
  unfold State.eccNote; split <;> rfl
@[simp] theorem State.eccNote_pcie (p : Page) (c : Nat) : (s.eccNote p c).pcie = s.pcie := by
  unfold State.eccNote; split <;> rfl
@[simp] theorem State.eccNote_now (p : Page) (c : Nat) : (s.eccNote p c).now = s.now := by
  unfold State.eccNote; split <;> rfl
@[simp] theorem State.eccNote_dom (p : Page) (c : Nat) : (s.eccNote p c).dom = s.dom := by
  unfold State.eccNote; split <;> rfl
@[simp] theorem State.eccNote_txts (p : Page) (c : Nat) : (s.eccNote p c).txts = s.txts := by
  unfold State.eccNote; split <;> rfl
@[simp] theorem State.eccNote_frer (p : Page) (c : Nat) : (s.eccNote p c).frer = s.frer := by
  unfold State.eccNote; split <;> rfl
@[simp] theorem State.eccNote_frerScan (p : Page) (c : Nat) : (s.eccNote p c).frerScan = s.frerScan := by
  unfold State.eccNote; split <;> rfl
@[simp] theorem State.eccNote_bridge (p : Page) (c : Nat) : (s.eccNote p c).bridge = s.bridge := by
  unfold State.eccNote; split <;> rfl
@[simp] theorem State.eccNote_procs (p : Page) (c : Nat) : (s.eccNote p c).procs = s.procs := by
  unfold State.eccNote; split <;> rfl
@[simp] theorem State.eccNote_power (p : Page) (c : Nat) : (s.eccNote p c).power = s.power := by
  unfold State.eccNote; split <;> rfl
@[simp] theorem State.eccNote_cans (p : Page) (c : Nat) : (s.eccNote p c).cans = s.cans := by
  unfold State.eccNote; split <;> rfl
@[simp] theorem State.eccNote_lins (p : Page) (c : Nat) : (s.eccNote p c).lins = s.lins := by
  unfold State.eccNote; split <;> rfl
@[simp] theorem State.eccNote_tdms (p : Page) (c : Nat) : (s.eccNote p c).tdms = s.tdms := by
  unfold State.eccNote; split <;> rfl
@[simp] theorem State.eccNote_tsi (p : Page) (c : Nat) : (s.eccNote p c).tsi = s.tsi := by
  unfold State.eccNote; split <;> rfl
@[simp] theorem State.eccNote_cips (p : Page) (c : Nat) : (s.eccNote p c).cips = s.cips := by
  unfold State.eccNote; split <;> rfl
@[simp] theorem State.eccNote_sec (p : Page) (c : Nat) : (s.eccNote p c).sec = s.sec := by
  unfold State.eccNote; split <;> rfl
@[simp] theorem State.eccNote_ringPend (p : Page) (c : Nat) : (s.eccNote p c).ringPend = s.ringPend := by
  unfold State.eccNote; split <;> rfl
@[simp] theorem State.eccNote_slots (p : Page) (c : Nat) : (s.eccNote p c).slots = s.slots := by
  unfold State.eccNote; split <;> rfl
@[simp] theorem State.eccNote_rst (p : Page) (c : Nat) : (s.eccNote p c).rst = s.rst := by
  unfold State.eccNote; split <;> rfl
@[simp] theorem State.eccNote_tap (p : Page) (c : Nat) : (s.eccNote p c).tap = s.tap := by
  unfold State.eccNote; split <;> rfl
@[simp] theorem State.eccNote_frees (p : Page) (c : Nat) : (s.eccNote p c).frees = s.frees := by
  unfold State.eccNote; split <;> rfl
@[simp] theorem State.eccNote_out (p : Page) (c : Nat) : (s.eccNote p c).out = s.out := by
  unfold State.eccNote; split <;> rfl
@[simp] theorem State.eccNote_pending (p : Page) (c : Nat) : (s.eccNote p c).pending = s.pending := by
  unfold State.eccNote; split <;> rfl

@[simp] theorem State.logErr_tabs (p : Page) (c r a d : Nat) : (s.logErr p c r a d).tabs = s.tabs := by
  unfold State.logErr; dsimp only; split <;> simp
@[simp] theorem State.logErr_tabsShadow (p : Page) (c r a d : Nat) : (s.logErr p c r a d).tabsShadow = s.tabsShadow := by
  unfold State.logErr; dsimp only; split <;> simp
@[simp] theorem State.logErr_snapshot (p : Page) (c r a d : Nat) : (s.logErr p c r a d).snapshot = s.snapshot := by
  unfold State.logErr; dsimp only; split <;> simp
@[simp] theorem State.logErr_mem (p : Page) (c r a d : Nat) : (s.logErr p c r a d).mem = s.mem := by
  unfold State.logErr; dsimp only; split <;> simp
@[simp] theorem State.logErr_drainTimer (p : Page) (c r a d : Nat) : (s.logErr p c r a d).drainTimer = s.drainTimer := by
  unfold State.logErr; dsimp only; split <;> simp
@[simp] theorem State.logErr_applying (p : Page) (c r a d : Nat) : (s.logErr p c r a d).applying = s.applying := by
  unfold State.logErr; dsimp only; split <;> simp
@[simp] theorem State.logErr_plan (p : Page) (c r a d : Nat) : (s.logErr p c r a d).plan = s.plan := by
  unfold State.logErr; dsimp only; split <;> simp
@[simp] theorem State.logErr_dp (p : Page) (c r a d : Nat) : (s.logErr p c r a d).dp = s.dp := by
  unfold State.logErr; dsimp only; split <;> simp
@[simp] theorem State.logErr_now (p : Page) (c r a d : Nat) : (s.logErr p c r a d).now = s.now := by
  unfold State.logErr; dsimp only; split <;> simp
@[simp] theorem State.logErr_dom (p : Page) (c r a d : Nat) : (s.logErr p c r a d).dom = s.dom := by
  unfold State.logErr; dsimp only; split <;> simp
@[simp] theorem State.logErr_txts (p : Page) (c r a d : Nat) : (s.logErr p c r a d).txts = s.txts := by
  unfold State.logErr; dsimp only; split <;> simp
@[simp] theorem State.logErr_frer (p : Page) (c r a d : Nat) : (s.logErr p c r a d).frer = s.frer := by
  unfold State.logErr; dsimp only; split <;> simp
@[simp] theorem State.logErr_frerScan (p : Page) (c r a d : Nat) : (s.logErr p c r a d).frerScan = s.frerScan := by
  unfold State.logErr; dsimp only; split <;> simp
@[simp] theorem State.logErr_bridge (p : Page) (c r a d : Nat) : (s.logErr p c r a d).bridge = s.bridge := by
  unfold State.logErr; dsimp only; split <;> simp
@[simp] theorem State.logErr_procs (p : Page) (c r a d : Nat) : (s.logErr p c r a d).procs = s.procs := by
  unfold State.logErr; dsimp only; split <;> simp
@[simp] theorem State.logErr_power (p : Page) (c r a d : Nat) : (s.logErr p c r a d).power = s.power := by
  unfold State.logErr; dsimp only; split <;> simp
@[simp] theorem State.logErr_cans (p : Page) (c r a d : Nat) : (s.logErr p c r a d).cans = s.cans := by
  unfold State.logErr; dsimp only; split <;> simp
@[simp] theorem State.logErr_lins (p : Page) (c r a d : Nat) : (s.logErr p c r a d).lins = s.lins := by
  unfold State.logErr; dsimp only; split <;> simp
@[simp] theorem State.logErr_tdms (p : Page) (c r a d : Nat) : (s.logErr p c r a d).tdms = s.tdms := by
  unfold State.logErr; dsimp only; split <;> simp
@[simp] theorem State.logErr_tsi (p : Page) (c r a d : Nat) : (s.logErr p c r a d).tsi = s.tsi := by
  unfold State.logErr; dsimp only; split <;> simp
@[simp] theorem State.logErr_cips (p : Page) (c r a d : Nat) : (s.logErr p c r a d).cips = s.cips := by
  unfold State.logErr; dsimp only; split <;> simp
@[simp] theorem State.logErr_sec (p : Page) (c r a d : Nat) : (s.logErr p c r a d).sec = s.sec := by
  unfold State.logErr; dsimp only; split <;> simp
@[simp] theorem State.logErr_ringPend (p : Page) (c r a d : Nat) : (s.logErr p c r a d).ringPend = s.ringPend := by
  unfold State.logErr; dsimp only; split <;> simp
@[simp] theorem State.logErr_slots (p : Page) (c r a d : Nat) : (s.logErr p c r a d).slots = s.slots := by
  unfold State.logErr; dsimp only; split <;> simp
@[simp] theorem State.logErr_rst (p : Page) (c r a d : Nat) : (s.logErr p c r a d).rst = s.rst := by
  unfold State.logErr; dsimp only; split <;> simp
@[simp] theorem State.logErr_tap (p : Page) (c r a d : Nat) : (s.logErr p c r a d).tap = s.tap := by
  unfold State.logErr; dsimp only; split <;> simp
@[simp] theorem State.logErr_frees (p : Page) (c r a d : Nat) : (s.logErr p c r a d).frees = s.frees := by
  unfold State.logErr; dsimp only; split <;> simp
@[simp] theorem State.logErr_pending (p : Page) (c r a d : Nat) : (s.logErr p c r a d).pending = s.pending := by
  unfold State.logErr; dsimp only; split <;> simp

@[simp] theorem State.refusalAddr_tabs (p : Page) (l h : Nat) : (s.refusalAddr p l h).tabs = s.tabs := by
  simp [State.refusalAddr]
@[simp] theorem State.refusalAddr_tabsShadow (p : Page) (l h : Nat) : (s.refusalAddr p l h).tabsShadow = s.tabsShadow := by
  simp [State.refusalAddr]
@[simp] theorem State.refusalAddr_counters (p : Page) (l h : Nat) : (s.refusalAddr p l h).counters = s.counters := by
  simp [State.refusalAddr]
@[simp] theorem State.refusalAddr_snapshot (p : Page) (l h : Nat) : (s.refusalAddr p l h).snapshot = s.snapshot := by
  simp [State.refusalAddr]
@[simp] theorem State.refusalAddr_mem (p : Page) (l h : Nat) : (s.refusalAddr p l h).mem = s.mem := by
  simp [State.refusalAddr]
@[simp] theorem State.refusalAddr_drainTimer (p : Page) (l h : Nat) : (s.refusalAddr p l h).drainTimer = s.drainTimer := by
  simp [State.refusalAddr]
@[simp] theorem State.refusalAddr_applying (p : Page) (l h : Nat) : (s.refusalAddr p l h).applying = s.applying := by
  simp [State.refusalAddr]
@[simp] theorem State.refusalAddr_plan (p : Page) (l h : Nat) : (s.refusalAddr p l h).plan = s.plan := by
  simp [State.refusalAddr]
@[simp] theorem State.refusalAddr_dp (p : Page) (l h : Nat) : (s.refusalAddr p l h).dp = s.dp := by
  simp [State.refusalAddr]
@[simp] theorem State.refusalAddr_pcie (p : Page) (l h : Nat) : (s.refusalAddr p l h).pcie = s.pcie := by
  simp [State.refusalAddr]
@[simp] theorem State.refusalAddr_now (p : Page) (l h : Nat) : (s.refusalAddr p l h).now = s.now := by
  simp [State.refusalAddr]
@[simp] theorem State.refusalAddr_dom (p : Page) (l h : Nat) : (s.refusalAddr p l h).dom = s.dom := by
  simp [State.refusalAddr]
@[simp] theorem State.refusalAddr_txts (p : Page) (l h : Nat) : (s.refusalAddr p l h).txts = s.txts := by
  simp [State.refusalAddr]
@[simp] theorem State.refusalAddr_frer (p : Page) (l h : Nat) : (s.refusalAddr p l h).frer = s.frer := by
  simp [State.refusalAddr]
@[simp] theorem State.refusalAddr_frerScan (p : Page) (l h : Nat) : (s.refusalAddr p l h).frerScan = s.frerScan := by
  simp [State.refusalAddr]
@[simp] theorem State.refusalAddr_clasp (p : Page) (l h : Nat) : (s.refusalAddr p l h).clasp = s.clasp := by
  simp [State.refusalAddr]
@[simp] theorem State.refusalAddr_bridge (p : Page) (l h : Nat) : (s.refusalAddr p l h).bridge = s.bridge := by
  simp [State.refusalAddr]
@[simp] theorem State.refusalAddr_procs (p : Page) (l h : Nat) : (s.refusalAddr p l h).procs = s.procs := by
  simp [State.refusalAddr]
@[simp] theorem State.refusalAddr_power (p : Page) (l h : Nat) : (s.refusalAddr p l h).power = s.power := by
  simp [State.refusalAddr]
@[simp] theorem State.refusalAddr_cans (p : Page) (l h : Nat) : (s.refusalAddr p l h).cans = s.cans := by
  simp [State.refusalAddr]
@[simp] theorem State.refusalAddr_lins (p : Page) (l h : Nat) : (s.refusalAddr p l h).lins = s.lins := by
  simp [State.refusalAddr]
@[simp] theorem State.refusalAddr_tdms (p : Page) (l h : Nat) : (s.refusalAddr p l h).tdms = s.tdms := by
  simp [State.refusalAddr]
@[simp] theorem State.refusalAddr_tsi (p : Page) (l h : Nat) : (s.refusalAddr p l h).tsi = s.tsi := by
  simp [State.refusalAddr]
@[simp] theorem State.refusalAddr_cips (p : Page) (l h : Nat) : (s.refusalAddr p l h).cips = s.cips := by
  simp [State.refusalAddr]
@[simp] theorem State.refusalAddr_sec (p : Page) (l h : Nat) : (s.refusalAddr p l h).sec = s.sec := by
  simp [State.refusalAddr]
@[simp] theorem State.refusalAddr_ringPend (p : Page) (l h : Nat) : (s.refusalAddr p l h).ringPend = s.ringPend := by
  simp [State.refusalAddr]
@[simp] theorem State.refusalAddr_slots (p : Page) (l h : Nat) : (s.refusalAddr p l h).slots = s.slots := by
  simp [State.refusalAddr]
@[simp] theorem State.refusalAddr_rst (p : Page) (l h : Nat) : (s.refusalAddr p l h).rst = s.rst := by
  simp [State.refusalAddr]
@[simp] theorem State.refusalAddr_tap (p : Page) (l h : Nat) : (s.refusalAddr p l h).tap = s.tap := by
  simp [State.refusalAddr]
@[simp] theorem State.refusalAddr_frees (p : Page) (l h : Nat) : (s.refusalAddr p l h).frees = s.frees := by
  simp [State.refusalAddr]
@[simp] theorem State.refusalAddr_out (p : Page) (l h : Nat) : (s.refusalAddr p l h).out = s.out := by
  simp [State.refusalAddr]
@[simp] theorem State.refusalAddr_pending (p : Page) (l h : Nat) : (s.refusalAddr p l h).pending = s.pending := by
  simp [State.refusalAddr]

@[simp] theorem State.setSt_tabs (p : Page) (n : Nat) : (s.setSt p n).tabs = s.tabs := by
  unfold State.setSt; split <;> simp
@[simp] theorem State.setSt_tabsShadow (p : Page) (n : Nat) : (s.setSt p n).tabsShadow = s.tabsShadow := by
  unfold State.setSt; split <;> simp
@[simp] theorem State.setSt_snapshot (p : Page) (n : Nat) : (s.setSt p n).snapshot = s.snapshot := by
  unfold State.setSt; split <;> simp
@[simp] theorem State.setSt_mem (p : Page) (n : Nat) : (s.setSt p n).mem = s.mem := by
  unfold State.setSt; split <;> simp
@[simp] theorem State.setSt_drainTimer (p : Page) (n : Nat) : (s.setSt p n).drainTimer = s.drainTimer := by
  unfold State.setSt; split <;> simp
@[simp] theorem State.setSt_applying (p : Page) (n : Nat) : (s.setSt p n).applying = s.applying := by
  unfold State.setSt; split <;> simp
@[simp] theorem State.setSt_plan (p : Page) (n : Nat) : (s.setSt p n).plan = s.plan := by
  unfold State.setSt; split <;> simp
@[simp] theorem State.setSt_dp (p : Page) (n : Nat) : (s.setSt p n).dp = s.dp := by
  unfold State.setSt; split <;> simp
@[simp] theorem State.setSt_now (p : Page) (n : Nat) : (s.setSt p n).now = s.now := by
  unfold State.setSt; split <;> simp
@[simp] theorem State.setSt_dom (p : Page) (n : Nat) : (s.setSt p n).dom = s.dom := by
  unfold State.setSt; split <;> simp
@[simp] theorem State.setSt_txts (p : Page) (n : Nat) : (s.setSt p n).txts = s.txts := by
  unfold State.setSt; split <;> simp
@[simp] theorem State.setSt_frer (p : Page) (n : Nat) : (s.setSt p n).frer = s.frer := by
  unfold State.setSt; split <;> simp
@[simp] theorem State.setSt_frerScan (p : Page) (n : Nat) : (s.setSt p n).frerScan = s.frerScan := by
  unfold State.setSt; split <;> simp
@[simp] theorem State.setSt_clasp (p : Page) (n : Nat) : (s.setSt p n).clasp = s.clasp := by
  unfold State.setSt; split <;> simp
@[simp] theorem State.setSt_bridge (p : Page) (n : Nat) : (s.setSt p n).bridge = s.bridge := by
  unfold State.setSt; split <;> simp
@[simp] theorem State.setSt_procs (p : Page) (n : Nat) : (s.setSt p n).procs = s.procs := by
  unfold State.setSt; split <;> simp
@[simp] theorem State.setSt_power (p : Page) (n : Nat) : (s.setSt p n).power = s.power := by
  unfold State.setSt; split <;> simp
@[simp] theorem State.setSt_cans (p : Page) (n : Nat) : (s.setSt p n).cans = s.cans := by
  unfold State.setSt; split <;> simp
@[simp] theorem State.setSt_lins (p : Page) (n : Nat) : (s.setSt p n).lins = s.lins := by
  unfold State.setSt; split <;> simp
@[simp] theorem State.setSt_tdms (p : Page) (n : Nat) : (s.setSt p n).tdms = s.tdms := by
  unfold State.setSt; split <;> simp
@[simp] theorem State.setSt_tsi (p : Page) (n : Nat) : (s.setSt p n).tsi = s.tsi := by
  unfold State.setSt; split <;> simp
@[simp] theorem State.setSt_cips (p : Page) (n : Nat) : (s.setSt p n).cips = s.cips := by
  unfold State.setSt; split <;> simp
@[simp] theorem State.setSt_sec (p : Page) (n : Nat) : (s.setSt p n).sec = s.sec := by
  unfold State.setSt; split <;> simp
@[simp] theorem State.setSt_ringPend (p : Page) (n : Nat) : (s.setSt p n).ringPend = s.ringPend := by
  unfold State.setSt; split <;> simp
@[simp] theorem State.setSt_slots (p : Page) (n : Nat) : (s.setSt p n).slots = s.slots := by
  unfold State.setSt; split <;> simp
@[simp] theorem State.setSt_rst (p : Page) (n : Nat) : (s.setSt p n).rst = s.rst := by
  unfold State.setSt; split <;> simp
@[simp] theorem State.setSt_tap (p : Page) (n : Nat) : (s.setSt p n).tap = s.tap := by
  unfold State.setSt; split <;> simp
@[simp] theorem State.setSt_frees (p : Page) (n : Nat) : (s.setSt p n).frees = s.frees := by
  unfold State.setSt; split <;> simp
@[simp] theorem State.setSt_pending (p : Page) (n : Nat) : (s.setSt p n).pending = s.pending := by
  unfold State.setSt; split <;> simp

@[simp] theorem State.setStatus_tabs (p : Page) (n d : Nat) : (s.setStatus p n d).tabs = s.tabs := by
  unfold State.setStatus; dsimp only; split <;> simp
@[simp] theorem State.setStatus_tabsShadow (p : Page) (n d : Nat) : (s.setStatus p n d).tabsShadow = s.tabsShadow := by
  unfold State.setStatus; dsimp only; split <;> simp
@[simp] theorem State.setStatus_snapshot (p : Page) (n d : Nat) : (s.setStatus p n d).snapshot = s.snapshot := by
  unfold State.setStatus; dsimp only; split <;> simp
@[simp] theorem State.setStatus_mem (p : Page) (n d : Nat) : (s.setStatus p n d).mem = s.mem := by
  unfold State.setStatus; dsimp only; split <;> simp
@[simp] theorem State.setStatus_drainTimer (p : Page) (n d : Nat) : (s.setStatus p n d).drainTimer = s.drainTimer := by
  unfold State.setStatus; dsimp only; split <;> simp
@[simp] theorem State.setStatus_applying (p : Page) (n d : Nat) : (s.setStatus p n d).applying = s.applying := by
  unfold State.setStatus; dsimp only; split <;> simp
@[simp] theorem State.setStatus_plan (p : Page) (n d : Nat) : (s.setStatus p n d).plan = s.plan := by
  unfold State.setStatus; dsimp only; split <;> simp
@[simp] theorem State.setStatus_dp (p : Page) (n d : Nat) : (s.setStatus p n d).dp = s.dp := by
  unfold State.setStatus; dsimp only; split <;> simp
@[simp] theorem State.setStatus_now (p : Page) (n d : Nat) : (s.setStatus p n d).now = s.now := by
  unfold State.setStatus; dsimp only; split <;> simp
@[simp] theorem State.setStatus_dom (p : Page) (n d : Nat) : (s.setStatus p n d).dom = s.dom := by
  unfold State.setStatus; dsimp only; split <;> simp
@[simp] theorem State.setStatus_txts (p : Page) (n d : Nat) : (s.setStatus p n d).txts = s.txts := by
  unfold State.setStatus; dsimp only; split <;> simp
@[simp] theorem State.setStatus_frer (p : Page) (n d : Nat) : (s.setStatus p n d).frer = s.frer := by
  unfold State.setStatus; dsimp only; split <;> simp
@[simp] theorem State.setStatus_frerScan (p : Page) (n d : Nat) : (s.setStatus p n d).frerScan = s.frerScan := by
  unfold State.setStatus; dsimp only; split <;> simp
@[simp] theorem State.setStatus_clasp (p : Page) (n d : Nat) : (s.setStatus p n d).clasp = s.clasp := by
  unfold State.setStatus; dsimp only; split <;> simp
@[simp] theorem State.setStatus_bridge (p : Page) (n d : Nat) : (s.setStatus p n d).bridge = s.bridge := by
  unfold State.setStatus; dsimp only; split <;> simp
@[simp] theorem State.setStatus_procs (p : Page) (n d : Nat) : (s.setStatus p n d).procs = s.procs := by
  unfold State.setStatus; dsimp only; split <;> simp
@[simp] theorem State.setStatus_power (p : Page) (n d : Nat) : (s.setStatus p n d).power = s.power := by
  unfold State.setStatus; dsimp only; split <;> simp
@[simp] theorem State.setStatus_cans (p : Page) (n d : Nat) : (s.setStatus p n d).cans = s.cans := by
  unfold State.setStatus; dsimp only; split <;> simp
@[simp] theorem State.setStatus_lins (p : Page) (n d : Nat) : (s.setStatus p n d).lins = s.lins := by
  unfold State.setStatus; dsimp only; split <;> simp
@[simp] theorem State.setStatus_tdms (p : Page) (n d : Nat) : (s.setStatus p n d).tdms = s.tdms := by
  unfold State.setStatus; dsimp only; split <;> simp
@[simp] theorem State.setStatus_tsi (p : Page) (n d : Nat) : (s.setStatus p n d).tsi = s.tsi := by
  unfold State.setStatus; dsimp only; split <;> simp
@[simp] theorem State.setStatus_cips (p : Page) (n d : Nat) : (s.setStatus p n d).cips = s.cips := by
  unfold State.setStatus; dsimp only; split <;> simp
@[simp] theorem State.setStatus_sec (p : Page) (n d : Nat) : (s.setStatus p n d).sec = s.sec := by
  unfold State.setStatus; dsimp only; split <;> simp
@[simp] theorem State.setStatus_ringPend (p : Page) (n d : Nat) : (s.setStatus p n d).ringPend = s.ringPend := by
  unfold State.setStatus; dsimp only; split <;> simp
@[simp] theorem State.setStatus_slots (p : Page) (n d : Nat) : (s.setStatus p n d).slots = s.slots := by
  unfold State.setStatus; dsimp only; split <;> simp
@[simp] theorem State.setStatus_rst (p : Page) (n d : Nat) : (s.setStatus p n d).rst = s.rst := by
  unfold State.setStatus; dsimp only; split <;> simp
@[simp] theorem State.setStatus_tap (p : Page) (n d : Nat) : (s.setStatus p n d).tap = s.tap := by
  unfold State.setStatus; dsimp only; split <;> simp
@[simp] theorem State.setStatus_frees (p : Page) (n d : Nat) : (s.setStatus p n d).frees = s.frees := by
  unfold State.setStatus; dsimp only; split <;> simp
@[simp] theorem State.setStatus_pending (p : Page) (n d : Nat) : (s.setStatus p n d).pending = s.pending := by
  unfold State.setStatus; dsimp only; split <;> simp

@[simp] theorem State.setPending_tabs (p : Page) : (s.setPending p).tabs = s.tabs := by
  simp [State.setPending]
@[simp] theorem State.setPending_tabsShadow (p : Page) : (s.setPending p).tabsShadow = s.tabsShadow := by
  simp [State.setPending]
@[simp] theorem State.setPending_counters (p : Page) : (s.setPending p).counters = s.counters := by
  simp [State.setPending]
@[simp] theorem State.setPending_snapshot (p : Page) : (s.setPending p).snapshot = s.snapshot := by
  simp [State.setPending]
@[simp] theorem State.setPending_mem (p : Page) : (s.setPending p).mem = s.mem := by
  simp [State.setPending]
@[simp] theorem State.setPending_drainTimer (p : Page) : (s.setPending p).drainTimer = s.drainTimer := by
  simp [State.setPending]
@[simp] theorem State.setPending_applying (p : Page) : (s.setPending p).applying = s.applying := by
  simp [State.setPending]
@[simp] theorem State.setPending_plan (p : Page) : (s.setPending p).plan = s.plan := by
  simp [State.setPending]
@[simp] theorem State.setPending_dp (p : Page) : (s.setPending p).dp = s.dp := by
  simp [State.setPending]
@[simp] theorem State.setPending_pcie (p : Page) : (s.setPending p).pcie = s.pcie := by
  simp [State.setPending]
@[simp] theorem State.setPending_now (p : Page) : (s.setPending p).now = s.now := by
  simp [State.setPending]
@[simp] theorem State.setPending_dom (p : Page) : (s.setPending p).dom = s.dom := by
  simp [State.setPending]
@[simp] theorem State.setPending_txts (p : Page) : (s.setPending p).txts = s.txts := by
  simp [State.setPending]
@[simp] theorem State.setPending_frer (p : Page) : (s.setPending p).frer = s.frer := by
  simp [State.setPending]
@[simp] theorem State.setPending_frerScan (p : Page) : (s.setPending p).frerScan = s.frerScan := by
  simp [State.setPending]
@[simp] theorem State.setPending_clasp (p : Page) : (s.setPending p).clasp = s.clasp := by
  simp [State.setPending]
@[simp] theorem State.setPending_bridge (p : Page) : (s.setPending p).bridge = s.bridge := by
  simp [State.setPending]
@[simp] theorem State.setPending_procs (p : Page) : (s.setPending p).procs = s.procs := by
  simp [State.setPending]
@[simp] theorem State.setPending_power (p : Page) : (s.setPending p).power = s.power := by
  simp [State.setPending]
@[simp] theorem State.setPending_cans (p : Page) : (s.setPending p).cans = s.cans := by
  simp [State.setPending]
@[simp] theorem State.setPending_lins (p : Page) : (s.setPending p).lins = s.lins := by
  simp [State.setPending]
@[simp] theorem State.setPending_tdms (p : Page) : (s.setPending p).tdms = s.tdms := by
  simp [State.setPending]
@[simp] theorem State.setPending_tsi (p : Page) : (s.setPending p).tsi = s.tsi := by
  simp [State.setPending]
@[simp] theorem State.setPending_cips (p : Page) : (s.setPending p).cips = s.cips := by
  simp [State.setPending]
@[simp] theorem State.setPending_sec (p : Page) : (s.setPending p).sec = s.sec := by
  simp [State.setPending]
@[simp] theorem State.setPending_ringPend (p : Page) : (s.setPending p).ringPend = s.ringPend := by
  simp [State.setPending]
@[simp] theorem State.setPending_slots (p : Page) : (s.setPending p).slots = s.slots := by
  simp [State.setPending]
@[simp] theorem State.setPending_rst (p : Page) : (s.setPending p).rst = s.rst := by
  simp [State.setPending]
@[simp] theorem State.setPending_tap (p : Page) : (s.setPending p).tap = s.tap := by
  simp [State.setPending]
@[simp] theorem State.setPending_frees (p : Page) : (s.setPending p).frees = s.frees := by
  simp [State.setPending]
@[simp] theorem State.setPending_out (p : Page) : (s.setPending p).out = s.out := by
  simp [State.setPending]
@[simp] theorem State.setPending_pending (p : Page) : (s.setPending p).pending = s.pending := by
  simp [State.setPending]

@[simp] theorem State.addDiscard_regs (p : Page) (n : Nat) : (s.addDiscard p n).regs = s.regs := by
  simp [State.addDiscard]
@[simp] theorem State.addDiscard_tabs (p : Page) (n : Nat) : (s.addDiscard p n).tabs = s.tabs := by
  simp [State.addDiscard]
@[simp] theorem State.addDiscard_tabsShadow (p : Page) (n : Nat) : (s.addDiscard p n).tabsShadow = s.tabsShadow := by
  simp [State.addDiscard]
@[simp] theorem State.addDiscard_snapshot (p : Page) (n : Nat) : (s.addDiscard p n).snapshot = s.snapshot := by
  simp [State.addDiscard]
@[simp] theorem State.addDiscard_mem (p : Page) (n : Nat) : (s.addDiscard p n).mem = s.mem := by
  simp [State.addDiscard]
@[simp] theorem State.addDiscard_drainTimer (p : Page) (n : Nat) : (s.addDiscard p n).drainTimer = s.drainTimer := by
  simp [State.addDiscard]
@[simp] theorem State.addDiscard_applying (p : Page) (n : Nat) : (s.addDiscard p n).applying = s.applying := by
  simp [State.addDiscard]
@[simp] theorem State.addDiscard_plan (p : Page) (n : Nat) : (s.addDiscard p n).plan = s.plan := by
  simp [State.addDiscard]
@[simp] theorem State.addDiscard_dp (p : Page) (n : Nat) : (s.addDiscard p n).dp = s.dp := by
  simp [State.addDiscard]
@[simp] theorem State.addDiscard_pcie (p : Page) (n : Nat) : (s.addDiscard p n).pcie = s.pcie := by
  simp [State.addDiscard]
@[simp] theorem State.addDiscard_now (p : Page) (n : Nat) : (s.addDiscard p n).now = s.now := by
  simp [State.addDiscard]
@[simp] theorem State.addDiscard_dom (p : Page) (n : Nat) : (s.addDiscard p n).dom = s.dom := by
  simp [State.addDiscard]
@[simp] theorem State.addDiscard_txts (p : Page) (n : Nat) : (s.addDiscard p n).txts = s.txts := by
  simp [State.addDiscard]
@[simp] theorem State.addDiscard_frer (p : Page) (n : Nat) : (s.addDiscard p n).frer = s.frer := by
  simp [State.addDiscard]
@[simp] theorem State.addDiscard_frerScan (p : Page) (n : Nat) : (s.addDiscard p n).frerScan = s.frerScan := by
  simp [State.addDiscard]
@[simp] theorem State.addDiscard_clasp (p : Page) (n : Nat) : (s.addDiscard p n).clasp = s.clasp := by
  simp [State.addDiscard]
@[simp] theorem State.addDiscard_bridge (p : Page) (n : Nat) : (s.addDiscard p n).bridge = s.bridge := by
  simp [State.addDiscard]
@[simp] theorem State.addDiscard_procs (p : Page) (n : Nat) : (s.addDiscard p n).procs = s.procs := by
  simp [State.addDiscard]
@[simp] theorem State.addDiscard_power (p : Page) (n : Nat) : (s.addDiscard p n).power = s.power := by
  simp [State.addDiscard]
@[simp] theorem State.addDiscard_cans (p : Page) (n : Nat) : (s.addDiscard p n).cans = s.cans := by
  simp [State.addDiscard]
@[simp] theorem State.addDiscard_lins (p : Page) (n : Nat) : (s.addDiscard p n).lins = s.lins := by
  simp [State.addDiscard]
@[simp] theorem State.addDiscard_tdms (p : Page) (n : Nat) : (s.addDiscard p n).tdms = s.tdms := by
  simp [State.addDiscard]
@[simp] theorem State.addDiscard_tsi (p : Page) (n : Nat) : (s.addDiscard p n).tsi = s.tsi := by
  simp [State.addDiscard]
@[simp] theorem State.addDiscard_cips (p : Page) (n : Nat) : (s.addDiscard p n).cips = s.cips := by
  simp [State.addDiscard]
@[simp] theorem State.addDiscard_sec (p : Page) (n : Nat) : (s.addDiscard p n).sec = s.sec := by
  simp [State.addDiscard]
@[simp] theorem State.addDiscard_ringPend (p : Page) (n : Nat) : (s.addDiscard p n).ringPend = s.ringPend := by
  simp [State.addDiscard]
@[simp] theorem State.addDiscard_slots (p : Page) (n : Nat) : (s.addDiscard p n).slots = s.slots := by
  simp [State.addDiscard]
@[simp] theorem State.addDiscard_rst (p : Page) (n : Nat) : (s.addDiscard p n).rst = s.rst := by
  simp [State.addDiscard]
@[simp] theorem State.addDiscard_tap (p : Page) (n : Nat) : (s.addDiscard p n).tap = s.tap := by
  simp [State.addDiscard]
@[simp] theorem State.addDiscard_frees (p : Page) (n : Nat) : (s.addDiscard p n).frees = s.frees := by
  simp [State.addDiscard]
@[simp] theorem State.addDiscard_out (p : Page) (n : Nat) : (s.addDiscard p n).out = s.out := by
  simp [State.addDiscard]
@[simp] theorem State.addDiscard_pending (p : Page) (n : Nat) : (s.addDiscard p n).pending = s.pending := by
  simp [State.addDiscard]

@[simp] theorem State.releaseOne_regs (m : Nat) : (s.releaseOne m).regs = s.regs := by
  unfold State.releaseOne; split <;> simp
@[simp] theorem State.releaseOne_tabs (m : Nat) : (s.releaseOne m).tabs = s.tabs := by
  unfold State.releaseOne; split <;> simp
@[simp] theorem State.releaseOne_tabsShadow (m : Nat) : (s.releaseOne m).tabsShadow = s.tabsShadow := by
  unfold State.releaseOne; split <;> simp
@[simp] theorem State.releaseOne_counters (m : Nat) : (s.releaseOne m).counters = s.counters := by
  unfold State.releaseOne; split <;> simp
@[simp] theorem State.releaseOne_snapshot (m : Nat) : (s.releaseOne m).snapshot = s.snapshot := by
  unfold State.releaseOne; split <;> simp
@[simp] theorem State.releaseOne_drainTimer (m : Nat) : (s.releaseOne m).drainTimer = s.drainTimer := by
  unfold State.releaseOne; split <;> simp
@[simp] theorem State.releaseOne_applying (m : Nat) : (s.releaseOne m).applying = s.applying := by
  unfold State.releaseOne; split <;> simp
@[simp] theorem State.releaseOne_plan (m : Nat) : (s.releaseOne m).plan = s.plan := by
  unfold State.releaseOne; split <;> simp
@[simp] theorem State.releaseOne_dp (m : Nat) : (s.releaseOne m).dp = s.dp := by
  unfold State.releaseOne; split <;> simp
@[simp] theorem State.releaseOne_pcie (m : Nat) : (s.releaseOne m).pcie = s.pcie := by
  unfold State.releaseOne; split <;> simp
@[simp] theorem State.releaseOne_now (m : Nat) : (s.releaseOne m).now = s.now := by
  unfold State.releaseOne; split <;> simp
@[simp] theorem State.releaseOne_dom (m : Nat) : (s.releaseOne m).dom = s.dom := by
  unfold State.releaseOne; split <;> simp
@[simp] theorem State.releaseOne_txts (m : Nat) : (s.releaseOne m).txts = s.txts := by
  unfold State.releaseOne; split <;> simp
@[simp] theorem State.releaseOne_frer (m : Nat) : (s.releaseOne m).frer = s.frer := by
  unfold State.releaseOne; split <;> simp
@[simp] theorem State.releaseOne_frerScan (m : Nat) : (s.releaseOne m).frerScan = s.frerScan := by
  unfold State.releaseOne; split <;> simp
@[simp] theorem State.releaseOne_clasp (m : Nat) : (s.releaseOne m).clasp = s.clasp := by
  unfold State.releaseOne; split <;> simp
@[simp] theorem State.releaseOne_bridge (m : Nat) : (s.releaseOne m).bridge = s.bridge := by
  unfold State.releaseOne; split <;> simp
@[simp] theorem State.releaseOne_power (m : Nat) : (s.releaseOne m).power = s.power := by
  unfold State.releaseOne; split <;> simp
@[simp] theorem State.releaseOne_cans (m : Nat) : (s.releaseOne m).cans = s.cans := by
  unfold State.releaseOne; split <;> simp
@[simp] theorem State.releaseOne_lins (m : Nat) : (s.releaseOne m).lins = s.lins := by
  unfold State.releaseOne; split <;> simp
@[simp] theorem State.releaseOne_tdms (m : Nat) : (s.releaseOne m).tdms = s.tdms := by
  unfold State.releaseOne; split <;> simp
@[simp] theorem State.releaseOne_tsi (m : Nat) : (s.releaseOne m).tsi = s.tsi := by
  unfold State.releaseOne; split <;> simp
@[simp] theorem State.releaseOne_cips (m : Nat) : (s.releaseOne m).cips = s.cips := by
  unfold State.releaseOne; split <;> simp
@[simp] theorem State.releaseOne_sec (m : Nat) : (s.releaseOne m).sec = s.sec := by
  unfold State.releaseOne; split <;> simp
@[simp] theorem State.releaseOne_ringPend (m : Nat) : (s.releaseOne m).ringPend = s.ringPend := by
  unfold State.releaseOne; split <;> simp
@[simp] theorem State.releaseOne_slots (m : Nat) : (s.releaseOne m).slots = s.slots := by
  unfold State.releaseOne; split <;> simp
@[simp] theorem State.releaseOne_rst (m : Nat) : (s.releaseOne m).rst = s.rst := by
  unfold State.releaseOne; split <;> simp
@[simp] theorem State.releaseOne_tap (m : Nat) : (s.releaseOne m).tap = s.tap := by
  unfold State.releaseOne; split <;> simp
@[simp] theorem State.releaseOne_frees (m : Nat) : (s.releaseOne m).frees = s.frees := by
  unfold State.releaseOne; split <;> simp
@[simp] theorem State.releaseOne_out (m : Nat) : (s.releaseOne m).out = s.out := by
  unfold State.releaseOne; split <;> simp
@[simp] theorem State.releaseOne_pending (m : Nat) : (s.releaseOne m).pending = s.pending := by
  unfold State.releaseOne; split <;> simp

@[simp] theorem State.drainMp_regs (m : Nat) : (s.drainMp m).regs = s.regs := by
  simp only [State.drainMp]; exact State.each_field (fun u => u.regs) _ _ _ (fun u _ => u.releaseOne_regs m)
@[simp] theorem State.drainMp_tabs (m : Nat) : (s.drainMp m).tabs = s.tabs := by
  simp only [State.drainMp]; exact State.each_field (fun u => u.tabs) _ _ _ (fun u _ => u.releaseOne_tabs m)
@[simp] theorem State.drainMp_tabsShadow (m : Nat) : (s.drainMp m).tabsShadow = s.tabsShadow := by
  simp only [State.drainMp]; exact State.each_field (fun u => u.tabsShadow) _ _ _ (fun u _ => u.releaseOne_tabsShadow m)
@[simp] theorem State.drainMp_counters (m : Nat) : (s.drainMp m).counters = s.counters := by
  simp only [State.drainMp]; exact State.each_field (fun u => u.counters) _ _ _ (fun u _ => u.releaseOne_counters m)
@[simp] theorem State.drainMp_snapshot (m : Nat) : (s.drainMp m).snapshot = s.snapshot := by
  simp only [State.drainMp]; exact State.each_field (fun u => u.snapshot) _ _ _ (fun u _ => u.releaseOne_snapshot m)
@[simp] theorem State.drainMp_drainTimer (m : Nat) : (s.drainMp m).drainTimer = s.drainTimer := by
  simp only [State.drainMp]; exact State.each_field (fun u => u.drainTimer) _ _ _ (fun u _ => u.releaseOne_drainTimer m)
@[simp] theorem State.drainMp_applying (m : Nat) : (s.drainMp m).applying = s.applying := by
  simp only [State.drainMp]; exact State.each_field (fun u => u.applying) _ _ _ (fun u _ => u.releaseOne_applying m)
@[simp] theorem State.drainMp_plan (m : Nat) : (s.drainMp m).plan = s.plan := by
  simp only [State.drainMp]; exact State.each_field (fun u => u.plan) _ _ _ (fun u _ => u.releaseOne_plan m)
@[simp] theorem State.drainMp_dp (m : Nat) : (s.drainMp m).dp = s.dp := by
  simp only [State.drainMp]; exact State.each_field (fun u => u.dp) _ _ _ (fun u _ => u.releaseOne_dp m)
@[simp] theorem State.drainMp_pcie (m : Nat) : (s.drainMp m).pcie = s.pcie := by
  simp only [State.drainMp]; exact State.each_field (fun u => u.pcie) _ _ _ (fun u _ => u.releaseOne_pcie m)
@[simp] theorem State.drainMp_now (m : Nat) : (s.drainMp m).now = s.now := by
  simp only [State.drainMp]; exact State.each_field (fun u => u.now) _ _ _ (fun u _ => u.releaseOne_now m)
@[simp] theorem State.drainMp_dom (m : Nat) : (s.drainMp m).dom = s.dom := by
  simp only [State.drainMp]; exact State.each_field (fun u => u.dom) _ _ _ (fun u _ => u.releaseOne_dom m)
@[simp] theorem State.drainMp_txts (m : Nat) : (s.drainMp m).txts = s.txts := by
  simp only [State.drainMp]; exact State.each_field (fun u => u.txts) _ _ _ (fun u _ => u.releaseOne_txts m)
@[simp] theorem State.drainMp_frer (m : Nat) : (s.drainMp m).frer = s.frer := by
  simp only [State.drainMp]; exact State.each_field (fun u => u.frer) _ _ _ (fun u _ => u.releaseOne_frer m)
@[simp] theorem State.drainMp_frerScan (m : Nat) : (s.drainMp m).frerScan = s.frerScan := by
  simp only [State.drainMp]; exact State.each_field (fun u => u.frerScan) _ _ _ (fun u _ => u.releaseOne_frerScan m)
@[simp] theorem State.drainMp_clasp (m : Nat) : (s.drainMp m).clasp = s.clasp := by
  simp only [State.drainMp]; exact State.each_field (fun u => u.clasp) _ _ _ (fun u _ => u.releaseOne_clasp m)
@[simp] theorem State.drainMp_bridge (m : Nat) : (s.drainMp m).bridge = s.bridge := by
  simp only [State.drainMp]; exact State.each_field (fun u => u.bridge) _ _ _ (fun u _ => u.releaseOne_bridge m)
@[simp] theorem State.drainMp_power (m : Nat) : (s.drainMp m).power = s.power := by
  simp only [State.drainMp]; exact State.each_field (fun u => u.power) _ _ _ (fun u _ => u.releaseOne_power m)
@[simp] theorem State.drainMp_cans (m : Nat) : (s.drainMp m).cans = s.cans := by
  simp only [State.drainMp]; exact State.each_field (fun u => u.cans) _ _ _ (fun u _ => u.releaseOne_cans m)
@[simp] theorem State.drainMp_lins (m : Nat) : (s.drainMp m).lins = s.lins := by
  simp only [State.drainMp]; exact State.each_field (fun u => u.lins) _ _ _ (fun u _ => u.releaseOne_lins m)
@[simp] theorem State.drainMp_tdms (m : Nat) : (s.drainMp m).tdms = s.tdms := by
  simp only [State.drainMp]; exact State.each_field (fun u => u.tdms) _ _ _ (fun u _ => u.releaseOne_tdms m)
@[simp] theorem State.drainMp_tsi (m : Nat) : (s.drainMp m).tsi = s.tsi := by
  simp only [State.drainMp]; exact State.each_field (fun u => u.tsi) _ _ _ (fun u _ => u.releaseOne_tsi m)
@[simp] theorem State.drainMp_cips (m : Nat) : (s.drainMp m).cips = s.cips := by
  simp only [State.drainMp]; exact State.each_field (fun u => u.cips) _ _ _ (fun u _ => u.releaseOne_cips m)
@[simp] theorem State.drainMp_sec (m : Nat) : (s.drainMp m).sec = s.sec := by
  simp only [State.drainMp]; exact State.each_field (fun u => u.sec) _ _ _ (fun u _ => u.releaseOne_sec m)
@[simp] theorem State.drainMp_ringPend (m : Nat) : (s.drainMp m).ringPend = s.ringPend := by
  simp only [State.drainMp]; exact State.each_field (fun u => u.ringPend) _ _ _ (fun u _ => u.releaseOne_ringPend m)
@[simp] theorem State.drainMp_slots (m : Nat) : (s.drainMp m).slots = s.slots := by
  simp only [State.drainMp]; exact State.each_field (fun u => u.slots) _ _ _ (fun u _ => u.releaseOne_slots m)
@[simp] theorem State.drainMp_rst (m : Nat) : (s.drainMp m).rst = s.rst := by
  simp only [State.drainMp]; exact State.each_field (fun u => u.rst) _ _ _ (fun u _ => u.releaseOne_rst m)
@[simp] theorem State.drainMp_tap (m : Nat) : (s.drainMp m).tap = s.tap := by
  simp only [State.drainMp]; exact State.each_field (fun u => u.tap) _ _ _ (fun u _ => u.releaseOne_tap m)
@[simp] theorem State.drainMp_frees (m : Nat) : (s.drainMp m).frees = s.frees := by
  simp only [State.drainMp]; exact State.each_field (fun u => u.frees) _ _ _ (fun u _ => u.releaseOne_frees m)
@[simp] theorem State.drainMp_out (m : Nat) : (s.drainMp m).out = s.out := by
  simp only [State.drainMp]; exact State.each_field (fun u => u.out) _ _ _ (fun u _ => u.releaseOne_out m)
@[simp] theorem State.drainMp_pending (m : Nat) : (s.drainMp m).pending = s.pending := by
  simp only [State.drainMp]; exact State.each_field (fun u => u.pending) _ _ _ (fun u _ => u.releaseOne_pending m)

@[simp] theorem State.drainFor_regs (r : Src) : (s.drainFor r).regs = s.regs := by
  unfold State.drainFor; split <;> simp
@[simp] theorem State.drainFor_tabs (r : Src) : (s.drainFor r).tabs = s.tabs := by
  unfold State.drainFor; split <;> simp
@[simp] theorem State.drainFor_tabsShadow (r : Src) : (s.drainFor r).tabsShadow = s.tabsShadow := by
  unfold State.drainFor; split <;> simp
@[simp] theorem State.drainFor_counters (r : Src) : (s.drainFor r).counters = s.counters := by
  unfold State.drainFor; split <;> simp
@[simp] theorem State.drainFor_snapshot (r : Src) : (s.drainFor r).snapshot = s.snapshot := by
  unfold State.drainFor; split <;> simp
@[simp] theorem State.drainFor_drainTimer (r : Src) : (s.drainFor r).drainTimer = s.drainTimer := by
  unfold State.drainFor; split <;> simp
@[simp] theorem State.drainFor_applying (r : Src) : (s.drainFor r).applying = s.applying := by
  unfold State.drainFor; split <;> simp
@[simp] theorem State.drainFor_plan (r : Src) : (s.drainFor r).plan = s.plan := by
  unfold State.drainFor; split <;> simp
@[simp] theorem State.drainFor_dp (r : Src) : (s.drainFor r).dp = s.dp := by
  unfold State.drainFor; split <;> simp
@[simp] theorem State.drainFor_pcie (r : Src) : (s.drainFor r).pcie = s.pcie := by
  unfold State.drainFor; split <;> simp
@[simp] theorem State.drainFor_now (r : Src) : (s.drainFor r).now = s.now := by
  unfold State.drainFor; split <;> simp
@[simp] theorem State.drainFor_dom (r : Src) : (s.drainFor r).dom = s.dom := by
  unfold State.drainFor; split <;> simp
@[simp] theorem State.drainFor_txts (r : Src) : (s.drainFor r).txts = s.txts := by
  unfold State.drainFor; split <;> simp
@[simp] theorem State.drainFor_frer (r : Src) : (s.drainFor r).frer = s.frer := by
  unfold State.drainFor; split <;> simp
@[simp] theorem State.drainFor_frerScan (r : Src) : (s.drainFor r).frerScan = s.frerScan := by
  unfold State.drainFor; split <;> simp
@[simp] theorem State.drainFor_clasp (r : Src) : (s.drainFor r).clasp = s.clasp := by
  unfold State.drainFor; split <;> simp
@[simp] theorem State.drainFor_bridge (r : Src) : (s.drainFor r).bridge = s.bridge := by
  unfold State.drainFor; split <;> simp
@[simp] theorem State.drainFor_power (r : Src) : (s.drainFor r).power = s.power := by
  unfold State.drainFor; split <;> simp
@[simp] theorem State.drainFor_cans (r : Src) : (s.drainFor r).cans = s.cans := by
  unfold State.drainFor; split <;> simp
@[simp] theorem State.drainFor_lins (r : Src) : (s.drainFor r).lins = s.lins := by
  unfold State.drainFor; split <;> simp
@[simp] theorem State.drainFor_tdms (r : Src) : (s.drainFor r).tdms = s.tdms := by
  unfold State.drainFor; split <;> simp
@[simp] theorem State.drainFor_tsi (r : Src) : (s.drainFor r).tsi = s.tsi := by
  unfold State.drainFor; split <;> simp
@[simp] theorem State.drainFor_cips (r : Src) : (s.drainFor r).cips = s.cips := by
  unfold State.drainFor; split <;> simp
@[simp] theorem State.drainFor_sec (r : Src) : (s.drainFor r).sec = s.sec := by
  unfold State.drainFor; split <;> simp
@[simp] theorem State.drainFor_ringPend (r : Src) : (s.drainFor r).ringPend = s.ringPend := by
  unfold State.drainFor; split <;> simp
@[simp] theorem State.drainFor_slots (r : Src) : (s.drainFor r).slots = s.slots := by
  unfold State.drainFor; split <;> simp
@[simp] theorem State.drainFor_rst (r : Src) : (s.drainFor r).rst = s.rst := by
  unfold State.drainFor; split <;> simp
@[simp] theorem State.drainFor_tap (r : Src) : (s.drainFor r).tap = s.tap := by
  unfold State.drainFor; split <;> simp
@[simp] theorem State.drainFor_frees (r : Src) : (s.drainFor r).frees = s.frees := by
  unfold State.drainFor; split <;> simp
@[simp] theorem State.drainFor_out (r : Src) : (s.drainFor r).out = s.out := by
  unfold State.drainFor; split <;> simp
@[simp] theorem State.drainFor_pending (r : Src) : (s.drainFor r).pending = s.pending := by
  unfold State.drainFor; split <;> simp

@[simp] theorem State.notOwner_tabs (r : Src) (p : Page) (a : Nat) : (s.notOwner r p a).tabs = s.tabs := by
  simp [State.notOwner]
@[simp] theorem State.notOwner_tabsShadow (r : Src) (p : Page) (a : Nat) : (s.notOwner r p a).tabsShadow = s.tabsShadow := by
  simp [State.notOwner]
@[simp] theorem State.notOwner_snapshot (r : Src) (p : Page) (a : Nat) : (s.notOwner r p a).snapshot = s.snapshot := by
  simp [State.notOwner]
@[simp] theorem State.notOwner_mem (r : Src) (p : Page) (a : Nat) : (s.notOwner r p a).mem = s.mem := by
  simp [State.notOwner]
@[simp] theorem State.notOwner_drainTimer (r : Src) (p : Page) (a : Nat) : (s.notOwner r p a).drainTimer = s.drainTimer := by
  simp [State.notOwner]
@[simp] theorem State.notOwner_applying (r : Src) (p : Page) (a : Nat) : (s.notOwner r p a).applying = s.applying := by
  simp [State.notOwner]
@[simp] theorem State.notOwner_plan (r : Src) (p : Page) (a : Nat) : (s.notOwner r p a).plan = s.plan := by
  simp [State.notOwner]
@[simp] theorem State.notOwner_dp (r : Src) (p : Page) (a : Nat) : (s.notOwner r p a).dp = s.dp := by
  simp [State.notOwner]
@[simp] theorem State.notOwner_now (r : Src) (p : Page) (a : Nat) : (s.notOwner r p a).now = s.now := by
  simp [State.notOwner]
@[simp] theorem State.notOwner_dom (r : Src) (p : Page) (a : Nat) : (s.notOwner r p a).dom = s.dom := by
  simp [State.notOwner]
@[simp] theorem State.notOwner_txts (r : Src) (p : Page) (a : Nat) : (s.notOwner r p a).txts = s.txts := by
  simp [State.notOwner]
@[simp] theorem State.notOwner_frer (r : Src) (p : Page) (a : Nat) : (s.notOwner r p a).frer = s.frer := by
  simp [State.notOwner]
@[simp] theorem State.notOwner_frerScan (r : Src) (p : Page) (a : Nat) : (s.notOwner r p a).frerScan = s.frerScan := by
  simp [State.notOwner]
@[simp] theorem State.notOwner_bridge (r : Src) (p : Page) (a : Nat) : (s.notOwner r p a).bridge = s.bridge := by
  simp [State.notOwner]
@[simp] theorem State.notOwner_procs (r : Src) (p : Page) (a : Nat) : (s.notOwner r p a).procs = s.procs := by
  simp [State.notOwner]
@[simp] theorem State.notOwner_power (r : Src) (p : Page) (a : Nat) : (s.notOwner r p a).power = s.power := by
  simp [State.notOwner]
@[simp] theorem State.notOwner_cans (r : Src) (p : Page) (a : Nat) : (s.notOwner r p a).cans = s.cans := by
  simp [State.notOwner]
@[simp] theorem State.notOwner_lins (r : Src) (p : Page) (a : Nat) : (s.notOwner r p a).lins = s.lins := by
  simp [State.notOwner]
@[simp] theorem State.notOwner_tdms (r : Src) (p : Page) (a : Nat) : (s.notOwner r p a).tdms = s.tdms := by
  simp [State.notOwner]
@[simp] theorem State.notOwner_tsi (r : Src) (p : Page) (a : Nat) : (s.notOwner r p a).tsi = s.tsi := by
  simp [State.notOwner]
@[simp] theorem State.notOwner_cips (r : Src) (p : Page) (a : Nat) : (s.notOwner r p a).cips = s.cips := by
  simp [State.notOwner]
@[simp] theorem State.notOwner_sec (r : Src) (p : Page) (a : Nat) : (s.notOwner r p a).sec = s.sec := by
  simp [State.notOwner]
@[simp] theorem State.notOwner_ringPend (r : Src) (p : Page) (a : Nat) : (s.notOwner r p a).ringPend = s.ringPend := by
  simp [State.notOwner]
@[simp] theorem State.notOwner_slots (r : Src) (p : Page) (a : Nat) : (s.notOwner r p a).slots = s.slots := by
  simp [State.notOwner]
@[simp] theorem State.notOwner_rst (r : Src) (p : Page) (a : Nat) : (s.notOwner r p a).rst = s.rst := by
  simp [State.notOwner]
@[simp] theorem State.notOwner_tap (r : Src) (p : Page) (a : Nat) : (s.notOwner r p a).tap = s.tap := by
  simp [State.notOwner]
@[simp] theorem State.notOwner_frees (r : Src) (p : Page) (a : Nat) : (s.notOwner r p a).frees = s.frees := by
  simp [State.notOwner]
@[simp] theorem State.notOwner_pending (r : Src) (p : Page) (a : Nat) : (s.notOwner r p a).pending = s.pending := by
  simp [State.notOwner]

@[simp] theorem State.refuse_tabs (r : Src) (p : Page) (c o : Nat) : (s.refuse r p c o).tabs = s.tabs := by
  simp [State.refuse]
@[simp] theorem State.refuse_tabsShadow (r : Src) (p : Page) (c o : Nat) : (s.refuse r p c o).tabsShadow = s.tabsShadow := by
  simp [State.refuse]
@[simp] theorem State.refuse_snapshot (r : Src) (p : Page) (c o : Nat) : (s.refuse r p c o).snapshot = s.snapshot := by
  simp [State.refuse]
@[simp] theorem State.refuse_mem (r : Src) (p : Page) (c o : Nat) : (s.refuse r p c o).mem = s.mem := by
  simp [State.refuse]
@[simp] theorem State.refuse_drainTimer (r : Src) (p : Page) (c o : Nat) : (s.refuse r p c o).drainTimer = s.drainTimer := by
  simp [State.refuse]
@[simp] theorem State.refuse_applying (r : Src) (p : Page) (c o : Nat) : (s.refuse r p c o).applying = s.applying := by
  simp [State.refuse]
@[simp] theorem State.refuse_plan (r : Src) (p : Page) (c o : Nat) : (s.refuse r p c o).plan = s.plan := by
  simp [State.refuse]
@[simp] theorem State.refuse_dp (r : Src) (p : Page) (c o : Nat) : (s.refuse r p c o).dp = s.dp := by
  simp [State.refuse]
@[simp] theorem State.refuse_now (r : Src) (p : Page) (c o : Nat) : (s.refuse r p c o).now = s.now := by
  simp [State.refuse]
@[simp] theorem State.refuse_dom (r : Src) (p : Page) (c o : Nat) : (s.refuse r p c o).dom = s.dom := by
  simp [State.refuse]
@[simp] theorem State.refuse_txts (r : Src) (p : Page) (c o : Nat) : (s.refuse r p c o).txts = s.txts := by
  simp [State.refuse]
@[simp] theorem State.refuse_frer (r : Src) (p : Page) (c o : Nat) : (s.refuse r p c o).frer = s.frer := by
  simp [State.refuse]
@[simp] theorem State.refuse_frerScan (r : Src) (p : Page) (c o : Nat) : (s.refuse r p c o).frerScan = s.frerScan := by
  simp [State.refuse]
@[simp] theorem State.refuse_bridge (r : Src) (p : Page) (c o : Nat) : (s.refuse r p c o).bridge = s.bridge := by
  simp [State.refuse]
@[simp] theorem State.refuse_procs (r : Src) (p : Page) (c o : Nat) : (s.refuse r p c o).procs = s.procs := by
  simp [State.refuse]
@[simp] theorem State.refuse_power (r : Src) (p : Page) (c o : Nat) : (s.refuse r p c o).power = s.power := by
  simp [State.refuse]
@[simp] theorem State.refuse_cans (r : Src) (p : Page) (c o : Nat) : (s.refuse r p c o).cans = s.cans := by
  simp [State.refuse]
@[simp] theorem State.refuse_lins (r : Src) (p : Page) (c o : Nat) : (s.refuse r p c o).lins = s.lins := by
  simp [State.refuse]
@[simp] theorem State.refuse_tdms (r : Src) (p : Page) (c o : Nat) : (s.refuse r p c o).tdms = s.tdms := by
  simp [State.refuse]
@[simp] theorem State.refuse_tsi (r : Src) (p : Page) (c o : Nat) : (s.refuse r p c o).tsi = s.tsi := by
  simp [State.refuse]
@[simp] theorem State.refuse_cips (r : Src) (p : Page) (c o : Nat) : (s.refuse r p c o).cips = s.cips := by
  simp [State.refuse]
@[simp] theorem State.refuse_sec (r : Src) (p : Page) (c o : Nat) : (s.refuse r p c o).sec = s.sec := by
  simp [State.refuse]
@[simp] theorem State.refuse_ringPend (r : Src) (p : Page) (c o : Nat) : (s.refuse r p c o).ringPend = s.ringPend := by
  simp [State.refuse]
@[simp] theorem State.refuse_slots (r : Src) (p : Page) (c o : Nat) : (s.refuse r p c o).slots = s.slots := by
  simp [State.refuse]
@[simp] theorem State.refuse_rst (r : Src) (p : Page) (c o : Nat) : (s.refuse r p c o).rst = s.rst := by
  simp [State.refuse]
@[simp] theorem State.refuse_tap (r : Src) (p : Page) (c o : Nat) : (s.refuse r p c o).tap = s.tap := by
  simp [State.refuse]
@[simp] theorem State.refuse_frees (r : Src) (p : Page) (c o : Nat) : (s.refuse r p c o).frees = s.frees := by
  simp [State.refuse]
@[simp] theorem State.refuse_pending (r : Src) (p : Page) (c o : Nat) : (s.refuse r p c o).pending = s.pending := by
  simp [State.refuse]

end

end Sys2Proof.Machine
end

