-- ==== Sys2Proof/Laws/Registers.lean ====
section
/-! SUPPORT. Laws of registers and fields: what a write of one changes and what it leaves; events, errors, the state of a page, and the
gates that a write of an owner passes. -/
namespace Sys2Proof.Machine

/-! ## Fields of a word -/

theorem Fld.mask_testBit (f : Fld) (i : Nat) : f.mask.testBit i = (decide (f.lsb ≤ i) && decide (i < f.lsb + f.width)) := by
  unfold Fld.mask
  rw [Nat.mul_comm, Nat.testBit_two_pow_mul, Nat.testBit_two_pow_sub_one]
  by_cases h : f.lsb ≤ i <;> simp [h]; omega

/-- Bit `i` of a word with a field set. -/
theorem Fld.ins_testBit (f : Fld) (w : Word) (v i : Nat) (hi : i < 32) :
    (f.ins w v).toNat.testBit i =
      if f.lsb ≤ i ∧ i < f.lsb + f.width then v.testBit (i - f.lsb) else w.toNat.testBit i := by
  have hv : (v % 2 ^ f.width * 2 ^ f.lsb).testBit i = (decide (f.lsb ≤ i) && decide (i - f.lsb < f.width) && v.testBit (i - f.lsb)) := by
    rw [Nat.mul_comm, Nat.testBit_two_pow_mul, Nat.testBit_mod_two_pow]
    by_cases h : f.lsb ≤ i <;> simp [h]
  unfold Fld.ins
  rw [BitVec.testBit_toNat, BitVec.getLsbD_or, BitVec.getLsbD_and, BitVec.getLsbD_not, BitVec.getLsbD_ofNat, BitVec.getLsbD_ofNat, hv,
    Fld.mask_testBit, ← BitVec.testBit_toNat]
  by_cases h1 : f.lsb ≤ i <;> by_cases h2 : i < f.lsb + f.width
  · have : i - f.lsb < f.width := by omega
    simp [h1, h2, hi, this]
  · have : ¬ i - f.lsb < f.width := by omega
    simp [h1, h2, hi, this]
  · simp [h1, hi]
  · simp [h1, hi]

theorem Fld.ex_testBit (f : Fld) (w : Word) (i : Nat) : (f.ex w).testBit i = (decide (i < f.width) && w.toNat.testBit (i + f.lsb)) := by
  unfold Fld.ex
  rw [Nat.testBit_mod_two_pow, Nat.testBit_div_two_pow]

/-- A field set reads as the value, as far as the field goes. -/
theorem Fld.ex_ins (f : Fld) (w : Word) (v : Nat) (h : f.lsb + f.width ≤ 32) : f.ex (f.ins w v) = v % 2 ^ f.width := by
  apply Nat.eq_of_testBit_eq
  intro i
  rw [Fld.ex_testBit, Nat.testBit_mod_two_pow]
  by_cases hi : i < f.width
  · rw [Fld.ins_testBit _ _ _ _ (by omega), if_pos (by omega)]
    simp [hi]
  · simp [hi]

/-- Two fields share no bit. -/
def Fld.apart (f g : Fld) : Bool :=
  f.off != g.off || decide (f.lsb + f.width ≤ g.lsb) || decide (g.lsb + g.width ≤ f.lsb)

/-- A field that shares no bit with the one set reads as before. -/
theorem Fld.ex_ins_apart (f g : Fld) (w : Word) (v : Nat) (h : f.lsb + f.width ≤ g.lsb ∨ g.lsb + g.width ≤ f.lsb) :
    g.ex (f.ins w v) = g.ex w := by
  apply Nat.eq_of_testBit_eq
  intro i
  rw [Fld.ex_testBit, Fld.ex_testBit]
  by_cases hi : i < g.width
  · by_cases h32 : i + g.lsb < 32
    · rw [Fld.ins_testBit _ _ _ _ h32, if_neg (by omega)]
    · have a : (f.ins w v).toNat.testBit (i + g.lsb) = false :=
        Nat.testBit_lt_two_pow (Nat.lt_of_lt_of_le (f.ins w v).isLt (Nat.pow_le_pow_right (by omega) (by omega)))
      have b : w.toNat.testBit (i + g.lsb) = false :=
        Nat.testBit_lt_two_pow (Nat.lt_of_lt_of_le w.isLt (Nat.pow_le_pow_right (by omega) (by omega)))
      rw [a, b]
  · simp [hi]

theorem Fld.ex_lt (f : Fld) (w : Word) : f.ex w < 2 ^ f.width := Nat.mod_lt _ (Nat.two_pow_pos _)

section
variable (s : State)

/-! ## Registers of a page -/

theorem State.word_setWord (p : Page) (o k : Nat) (w : Word) :
    (s.setWord p o w).word p k = if k = o then w else s.word p k := by
  simp only [State.word, State.setWord_regs, Sparse.get_set, Nat.add_left_cancel_iff]

@[simp] theorem State.word_setWord_same (p : Page) (o : Nat) (w : Word) : (s.setWord p o w).word p o = w := by
  rw [State.word_setWord, if_pos rfl]

theorem State.word_setWord_off (p : Page) (o k : Nat) (w : Word) (h : k ≠ o) : (s.setWord p o w).word p k = s.word p k := by
  rw [State.word_setWord, if_neg h]

theorem State.word_setWord_addr (p q : Page) (o k : Nat) (w : Word) (h : q.base + k ≠ p.base + o) :
    (s.setWord p o w).word q k = s.word q k := by
  simp only [State.word, State.setWord_regs, Sparse.get_set, if_neg h]

theorem State.setFld_eq (p : Page) (f : Fld) (v : Nat) : s.setFld p f v = s.setWord p f.off (f.ins (s.word p f.off) v) := rfl

theorem State.word_setFld_off (p : Page) (f : Fld) (v k : Nat) (h : k ≠ f.off) : (s.setFld p f v).word p k = s.word p k :=
  State.word_setWord_off s p f.off k _ h

theorem State.word_setFld_addr (p q : Page) (f : Fld) (v k : Nat) (h : q.base + k ≠ p.base + f.off) :
    (s.setFld p f v).word q k = s.word q k := State.word_setWord_addr s p q f.off k _ h

/-- A field set reads as the value, as far as the field goes. -/
theorem State.fld_setFld_same (p : Page) (f : Fld) (v : Nat) (h : f.lsb + f.width ≤ 32) :
    (s.setFld p f v).fld p f = v % 2 ^ f.width := by
  simp only [State.fld, State.setFld_eq, State.word_setWord_same, Fld.ex_ins f _ _ h]

/-- A field of the page that shares no bit with the one set reads as before. -/
theorem State.fld_setFld_apart (p : Page) (f g : Fld) (v : Nat) (h : f.apart g = true) : (s.setFld p f v).fld p g = s.fld p g := by
  by_cases ho : g.off = f.off
  · have hb : f.lsb + f.width ≤ g.lsb ∨ g.lsb + g.width ≤ f.lsb := by simpa [Fld.apart, ho] using h
    simp only [State.fld, State.setFld_eq, ho, State.word_setWord_same, Fld.ex_ins_apart f g _ _ hb]
  · simp only [State.fld, State.word_setFld_off s p f v g.off ho]

theorem State.fld_setFld_addr (p q : Page) (f g : Fld) (v : Nat) (h : q.base + g.off ≠ p.base + f.off) :
    (s.setFld p f v).fld q g = s.fld q g := by
  simp only [State.fld, State.word_setFld_addr s p q f v g.off h]

theorem State.fld_setWord_off (p : Page) (o : Nat) (g : Fld) (w : Word) (h : g.off ≠ o) : (s.setWord p o w).fld p g = s.fld p g := by
  simp only [State.fld, State.word_setWord_off s p o g.off w h]

theorem State.fld_setWord_addr (p q : Page) (o : Nat) (g : Fld) (w : Word) (h : q.base + g.off ≠ p.base + o) :
    (s.setWord p o w).fld q g = s.fld q g := by
  simp only [State.fld, State.word_setWord_addr s p q o g.off w h]

theorem State.fld_lt (p : Page) (f : Fld) : s.fld p f < 2 ^ f.width := f.ex_lt _

/-- What a page reads as depends on the registers alone. -/
theorem State.word_congr {s t : State} (h : t.regs = s.regs) (p : Page) (o : Nat) : t.word p o = s.word p o := by
  simp only [State.word, h]
theorem State.fld_congr {s t : State} (h : t.regs = s.regs) (p : Page) (f : Fld) : t.fld p f = s.fld p f := by
  simp only [State.fld, State.word, h]

@[simp] theorem State.cnt_bump (p : Page) (o n : Nat) : (s.bump p o n).cnt p o = s.cnt p o + n := by
  simp [State.cnt]

/-! ## Events -/

theorem State.setEvents_regs (p : Page) (raw en : Word) :
    (s.setEvents p raw en).regs = ((s.setWord p Hdr.EVT_RAW_RAW.off raw).setWord p Hdr.EVT_EN_EN.off en).regs := by
  unfold State.setEvents
  dsimp only
  split
  · exact State.pageMessage_regs _ _
  · rfl

/-- An event latches its RAW bit and writes no other register. -/
theorem State.raise_get (p : Page) (b a : Nat) :
    (s.raise p b).regs.get a =
      if a = p.base + Hdr.EVT_RAW_RAW.off then s.regs.get a ||| BitVec.ofNat 32 (2 ^ b) else s.regs.get a := by
  unfold State.raise
  rw [State.setEvents_regs]
  simp only [State.setWord_regs, Sparse.get_set, State.word]
  have h0 : ¬ Hdr.EVT_RAW_RAW.off = Hdr.EVT_EN_EN.off := by decide
  by_cases h : a = p.base + Hdr.EVT_RAW_RAW.off
  · subst h
    simp [h0]
  · by_cases h2 : a = p.base + Hdr.EVT_EN_EN.off
    · subst h2
      simp [Ne.symm h0]
    · simp [h, h2]

theorem State.word_raise_addr (p q : Page) (b o : Nat) (h : q.base + o ≠ p.base + Hdr.EVT_RAW_RAW.off) :
    (s.raise p b).word q o = s.word q o := by
  simp only [State.word, State.raise_get, if_neg h]

theorem State.word_raise_off (p : Page) (b o : Nat) (h : o ≠ Hdr.EVT_RAW_RAW.off) : (s.raise p b).word p o = s.word p o :=
  State.word_raise_addr s p p b o (fun e => h (Nat.add_left_cancel e))

theorem State.fld_raise_off (p : Page) (b : Nat) (g : Fld) (h : g.off ≠ Hdr.EVT_RAW_RAW.off) : (s.raise p b).fld p g = s.fld p g := by
  simp only [State.fld, State.word_raise_off s p b g.off h]

theorem State.fld_raise_addr (p q : Page) (b : Nat) (g : Fld) (h : q.base + g.off ≠ p.base + Hdr.EVT_RAW_RAW.off) :
    (s.raise p b).fld q g = s.fld q g := by
  simp only [State.fld, State.word_raise_addr s p q b g.off h]

theorem State.evt_raise (p : Page) (b : Nat) (h : b < 32) : (s.raise p b).evt p b = true := by
  simp only [State.evt, State.word, State.raise_get, if_true, BitVec.getLsbD_or, BitVec.getLsbD_ofNat, h, decide_true, Bool.true_and,
    Nat.testBit_two_pow_self, Bool.or_true]

/-- An event stays latched when another occurs. -/
theorem State.evt_raise_mono (p q : Page) (b k : Nat) (h : s.evt p k = true) : (s.raise q b).evt p k = true := by
  simp only [State.evt, State.word, State.raise_get] at h ⊢
  split
  · rw [BitVec.getLsbD_or, h, Bool.true_or]
  · exact h

/-! ## Errors, the state of a page, its commit status -/

/-- Pages stand at multiples of 16 KiB (R22). -/
theorem Page.base_aligned (p : Page) : p.base % 0x4000 = 0 := by
  cases p <;> simp only [Page.base] <;> omega


/-- An address outside the common header of a page. -/
def Page.offHeader (p : Page) (a : Nat) : Prop := a < p.base ∨ p.base + 0x54 ≤ a

theorem State.raise_outside (p : Page) (b a : Nat) (h : p.offHeader a) : (s.raise p b).regs.get a = s.regs.get a := by
  rw [State.raise_get, if_neg]
  unfold Page.offHeader at h
  simp only [Hdr.EVT_RAW_RAW]
  omega

theorem State.setWord_outside (p : Page) (o : Nat) (w : Word) (a : Nat) (ho : o < 0x54) (h : p.offHeader a) :
    (s.setWord p o w).regs.get a = s.regs.get a := by
  unfold Page.offHeader at h
  simp only [State.setWord_regs]
  exact Sparse.get_set_other _ _ _ _ (by omega)

theorem State.setFld_outside (p : Page) (f : Fld) (v a : Nat) (ho : f.off < 0x54) (h : p.offHeader a) :
    (s.setFld p f v).regs.get a = s.regs.get a := s.setWord_outside p f.off _ a ho h

/-- An error writes nothing outside the header of its page. -/
theorem State.logErr_outside (p : Page) (c r d e a : Nat) (h : p.offHeader a) : (s.logErr p c r d e).regs.get a = s.regs.get a := by
  have hs := s.eccNote_regs p c
  unfold State.logErr
  dsimp only
  split
  · rw [State.raise_outside _ _ _ _ h, State.setWord_outside _ _ _ _ _ (by decide) h, State.setWord_outside _ _ _ _ _ (by decide) h,
      State.setFld_outside _ _ _ _ _ (by decide) h, State.setFld_outside _ _ _ _ _ (by decide) h, State.setFld_outside _ _ _ _ _ (by decide) h, hs]
  · rw [State.setFld_outside _ _ _ _ _ (by decide) h, hs]

/-- The offsets of a header that an error writes. -/
def errOffs : List Nat := [0x20, 0x30, 0x34, 0x38, 0x3C]

theorem State.logErr_word (p : Page) (c r d e o : Nat) (h : o ∉ errOffs) : (s.logErr p c r d e).word p o = s.word p o := by
  have hs := s.eccNote_regs p c
  simp only [errOffs, List.mem_cons, List.not_mem_nil, or_false, not_or] at h
  obtain ⟨h1, h2, h3, h4, h5⟩ := h
  replace h1 : o ≠ Hdr.EVT_RAW_RAW.off := h1
  replace h2 : o ≠ Hdr.ERR_CODE_CODE.off := h2
  replace h4 : o ≠ Hdr.ERR_ADDR_LO_ADDR.off := h4
  replace h5 : o ≠ Hdr.ERR_ADDR_HI_ADDR.off := h5
  unfold State.logErr
  dsimp only
  split
  · rw [State.word_raise_off _ _ _ _ h1, State.word_setWord_off _ _ _ _ _ h5, State.word_setWord_off _ _ _ _ _ h4,
      State.word_setFld_off _ p Hdr.ERR_INFO_DETAIL _ _ h3, State.word_setFld_off _ p Hdr.ERR_INFO_SRC _ _ h3,
      State.word_setFld_off _ _ _ _ _ h2,
      State.word_congr hs]
  · rw [State.word_setFld_off _ p Hdr.ERR_INFO_COUNT _ _ h3, State.word_congr hs]

theorem State.logErr_fld (p : Page) (c r d e : Nat) (g : Fld) (h : g.off ∉ errOffs) : (s.logErr p c r d e).fld p g = s.fld p g := by
  simp only [State.fld, State.logErr_word s p c r d e g.off h]

/-- The first error since the last CLEAR is held and latches the event of errors (R30). -/
theorem State.logErr_first (p : Page) (c r d e : Nat) (h : s.fld p Hdr.ERR_CODE_CODE = 0) :
    (s.logErr p c r d e).fld p Hdr.ERR_CODE_CODE = c % 256 ∧ (s.logErr p c r d e).fld p Hdr.ERR_INFO_SRC = r % 8 ∧
    (s.logErr p c r d e).fld p Hdr.ERR_INFO_DETAIL = e % 65536 ∧
    (s.logErr p c r d e).word p Hdr.ERR_ADDR_LO_ADDR.off = BitVec.ofNat 32 d ∧
    (s.logErr p c r d e).word p Hdr.ERR_ADDR_HI_ADDR.off = BitVec.ofNat 32 (d / 2 ^ 32) ∧ (s.logErr p c r d e).evt p 0 = true := by
  have hs := s.eccNote_regs p c
  have hf : (s.eccNote p c).fld p Hdr.ERR_CODE_CODE = 0 := by
    rw [State.fld_congr hs, h]
  unfold State.logErr
  dsimp only
  rw [if_pos hf]
  refine ⟨?_, ?_, ?_, ?_, ?_, ?_⟩
  · rw [State.fld_raise_off _ _ _ _ (by decide), State.fld_setWord_off _ _ _ _ _ (by decide), State.fld_setWord_off _ _ _ _ _ (by decide),
      State.fld_setFld_apart _ _ _ _ _ (by decide), State.fld_setFld_apart _ _ _ _ _ (by decide), State.fld_setFld_same _ _ _ _ (by decide)]
    rfl
  · rw [State.fld_raise_off _ _ _ _ (by decide), State.fld_setWord_off _ _ _ _ _ (by decide), State.fld_setWord_off _ _ _ _ _ (by decide),
      State.fld_setFld_apart _ _ _ _ _ (by decide), State.fld_setFld_same _ _ _ _ (by decide)]
    rfl
  · rw [State.fld_raise_off _ _ _ _ (by decide), State.fld_setWord_off _ _ _ _ _ (by decide), State.fld_setWord_off _ _ _ _ _ (by decide),
      State.fld_setFld_same _ _ _ _ (by decide)]
    rfl
  · rw [State.word_raise_off _ _ _ _ (by decide), State.word_setWord_off _ _ _ _ _ (by decide), State.word_setWord_same]
  · rw [State.word_raise_off _ _ _ _ (by decide), State.word_setWord_same]
  · exact State.evt_raise _ _ _ (by decide)

/-- A later error counts in ERR_INFO.COUNT and changes no other held field (R30). -/
theorem State.logErr_later (p : Page) (c r d e : Nat) (h : s.fld p Hdr.ERR_CODE_CODE ≠ 0) :
    (s.logErr p c r d e).regs = (s.setFld p Hdr.ERR_INFO_COUNT (min 255 (s.fld p Hdr.ERR_INFO_COUNT + 1))).regs := by
  have hs := s.eccNote_regs p c
  have hf : ¬ (s.eccNote p c).fld p Hdr.ERR_CODE_CODE = 0 := by
    rw [State.fld_congr hs]; exact h
  unfold State.logErr
  dsimp only
  rw [if_neg hf]
  simp only [State.setFld_regs, hs, State.word_congr hs, State.fld_congr hs]

/-- Each error leaves the register of codes at a code that is not 0, where the code is not 0 modulo 256. -/
theorem State.evt_logErr_mono (p q : Page) (c r d e k : Nat) (hk : s.evt q k = true) : (s.logErr p c r d e).evt q k = true := by
  have hs := s.eccNote_regs p c
  by_cases h0 : s.fld p Hdr.ERR_CODE_CODE = 0
  · have hf : (s.eccNote p c).fld p Hdr.ERR_CODE_CODE = 0 := by
      rw [State.fld_congr hs, h0]
    unfold State.logErr
    dsimp only
    rw [if_pos hf]
    refine State.evt_raise_mono _ _ _ _ _ ?_
    by_cases ha : p.base + 0x38 = q.base + 0x20 ∨ p.base + 0x3C = q.base + 0x20 ∨ p.base + 0x34 = q.base + 0x20 ∨ p.base + 0x30 = q.base + 0x20
    · have hp := p.base_aligned
      have hq := q.base_aligned
      omega
    · simp only [not_or] at ha
      obtain ⟨h1, h2, h3, h4⟩ := ha
      simp only [State.evt, State.word, State.setWord_regs, State.setFld_regs, Sparse.get_set, Hdr.EVT_RAW_RAW, Hdr.ERR_ADDR_HI_ADDR,
        Hdr.ERR_ADDR_LO_ADDR, Hdr.ERR_INFO_DETAIL, Hdr.ERR_INFO_SRC, Hdr.ERR_CODE_CODE, hs] at hk ⊢
      rw [if_neg (Ne.symm h2), if_neg (Ne.symm h1), if_neg (Ne.symm h3), if_neg (Ne.symm h3), if_neg (Ne.symm h4)]
      exact hk
  · simp only [State.evt, State.word, State.logErr_later s p c r d e h0, State.setFld_regs, Sparse.get_set] at hk ⊢
    rw [if_neg]
    · exact hk
    · have hp := p.base_aligned
      have hq := q.base_aligned
      simp only [Hdr.EVT_RAW_RAW, Hdr.ERR_INFO_COUNT]
      omega

theorem State.st_lt (p : Page) : s.st p < 8 := s.fld_lt p Hdr.STATE_ST

/-- The state of a page after it is set (R31). -/
theorem State.st_setSt (p : Page) (n : Nat) (h : n < 8) : (s.setSt p n).st p = n := by
  unfold State.setSt
  split
  · assumption
  · simp only [State.st]
    rw [State.fld_raise_off _ _ _ _ (by decide), State.fld_setFld_same _ _ _ _ (by decide)]
    exact Nat.mod_eq_of_lt h

/-- A change of the state latches the event of states (R31). -/
theorem State.evt_setSt (p : Page) (n : Nat) (h : s.st p ≠ n) : (s.setSt p n).evt p 1 = true := by
  unfold State.setSt
  rw [if_neg h]
  exact State.evt_raise _ _ _ (by decide)

theorem State.word_setSt (p : Page) (n o : Nat) (h1 : o ≠ Hdr.STATE_ST.off) (h2 : o ≠ Hdr.EVT_RAW_RAW.off) :
    (s.setSt p n).word p o = s.word p o := by
  unfold State.setSt
  split
  · rfl
  · rw [State.word_raise_off _ _ _ _ h2, State.word_setFld_off _ _ _ _ _ h1]

theorem State.setSt_outside (p : Page) (n a : Nat) (h : p.offHeader a) : (s.setSt p n).regs.get a = s.regs.get a := by
  unfold State.setSt
  split
  · rfl
  · rw [State.raise_outside _ _ _ _ h, State.setFld_outside _ _ _ _ _ (by decide) h]

theorem State.status_setStatus (p : Page) (n d : Nat) (h : n < 16) : (s.setStatus p n d).status p = n := by
  have e : ((s.setFld p Hdr.COMMIT_STATUS_STATUS n).setFld p Hdr.COMMIT_STATUS_DETAIL d).fld p Hdr.COMMIT_STATUS_STATUS = n := by
    rw [State.fld_setFld_apart _ _ _ _ _ (by decide), State.fld_setFld_same _ _ _ _ (by decide)]
    exact Nat.mod_eq_of_lt h
  unfold State.setStatus State.status
  dsimp only
  split
  · rw [State.fld_raise_off _ _ _ _ (by decide), e]
  · exact e

theorem State.detail_setStatus (p : Page) (n d : Nat) :
    (s.setStatus p n d).fld p Hdr.COMMIT_STATUS_DETAIL = d % 65536 := by
  have e : ((s.setFld p Hdr.COMMIT_STATUS_STATUS n).setFld p Hdr.COMMIT_STATUS_DETAIL d).fld p Hdr.COMMIT_STATUS_DETAIL = d % 65536 :=
    State.fld_setFld_same _ _ _ _ (by decide)
  unfold State.setStatus
  dsimp only
  split
  · rw [State.fld_raise_off _ _ _ _ (by decide), e]
  · exact e

theorem State.setStatus_outside (p : Page) (n d a : Nat) (h : p.offHeader a) : (s.setStatus p n d).regs.get a = s.regs.get a := by
  have e : ((s.setFld p Hdr.COMMIT_STATUS_STATUS n).setFld p Hdr.COMMIT_STATUS_DETAIL d).regs.get a = s.regs.get a := by
    rw [State.setFld_outside _ _ _ _ _ (by decide) h, State.setFld_outside _ _ _ _ _ (by decide) h]
  unfold State.setStatus
  dsimp only
  split
  · rw [State.raise_outside _ _ _ _ h, e]
  · exact e

/-! ## Writes of an owner -/

theorem State.pageOn_congr {s t : State} (h : t.regs = s.regs) (hp : t.power = s.power) (hr : t.rst = s.rst) (p : Page) :
    t.pageOn p = s.pageOn p := by
  simp only [State.pageOn, State.leaving, State.islandCond, State.fld_congr h, hp, hr]

theorem State.owns_congr {s t : State} (h : t.regs = s.regs) (src : Src) (p : Page) : t.owns src p = s.owns src p := by
  simp only [State.owns, State.dbgOpen, State.ownerClass, State.fld_congr h]

theorem State.actsTrusted_congr {s t : State} (h : t.regs = s.regs) (src : Src) : t.actsTrusted src = s.actsTrusted src := by
  simp only [State.actsTrusted, State.dbgOpen, State.fld_congr h]

theorem State.restarting_congr {s t : State} (h : t.regs = s.regs) : t.restarting = s.restarting := by
  simp only [State.restarting, State.flag, State.fld_congr h]

theorem State.barred_congr {s t : State} (h : t.regs = s.regs) (src : Src) (p : Page) : t.barred src p = s.barred src p := by
  simp only [State.barred, State.ownerClass, State.restarting_congr h, State.fld_congr h]

/-- In a device that no pin holds in reset a command acts (R505). -/
theorem State.live_runs (act : State → State) (h : s.resetHeld = false) : s.live act = act s := by
  rw [State.live, h]
  rfl

/-- In a device that a pin holds in reset nothing happens (R505). -/
theorem State.live_held (act : State → State) (h : s.resetHeld = true) : s.live act = s := if_pos h

theorem State.liveAon_runs (act : State → State) (h : s.resetHeld = false) : s.liveAon act = act s := by
  have e : s.rst.por = false := by
    simp only [State.resetHeld, Bool.or_eq_false_iff] at h
    exact h.1
  rw [State.liveAon, e]
  rfl

/-- A block acts while its island is powered and takes transfers (R422). -/
theorem State.clocked_on (p : Page) (act : State → State) (h : s.pageOn p = true) : s.clocked p act = act s := if_pos h
theorem State.clocked_off (p : Page) (act : State → State) (h : s.pageOn p = false) : s.clocked p act = s :=
  if_neg (by rw [h]; decide)

/-- A write of an originator that can make it takes effect on the state with that originator's write buffer drained (R315). -/
theorem State.arrives_issues (src : Src) (act : State → State) (h : s.issues src = true) : s.arrives src act = act (s.drainFor src) := if_pos h

/-- A write of an originator that can make none is not presented (R308, R311, R312). -/
theorem State.arrives_silent (src : Src) (act : State → State) (h : s.issues src = false) : s.arrives src act = s :=
  if_neg (by rw [h]; decide)

/-- A write of an owner is performed once the write buffer of its originator has drained (R39, R315). -/
theorem State.guard_owner (src : Src) (p : Page) (off : Nat) (act : State → State) (h : s.ownerWrites src p) :
    s.guard src p off act = act (s.drainFor src) := by
  have e := s.drainFor_regs src
  unfold State.guard
  rw [State.arrives_issues _ _ _ h.1, State.pageOn_congr e (s.drainFor_power src) (s.drainFor_rst src), State.owns_congr e, State.barred_congr e, h.2.1, h.2.2.1, h.2.2.2]
  rfl

/-- A write of an originator that does not own the page is discarded and logged (R39). -/
theorem State.guard_other (src : Src) (p : Page) (off : Nat) (act : State → State) (h : s.issues src = true) (h1 : s.pageOn p = true)
    (h2 : s.owns src p = false) :
    s.guard src p off act = (s.drainFor src).logErr p 1 src.code (p.base + off) := by
  have e := s.drainFor_regs src
  unfold State.guard
  rw [State.arrives_issues _ _ _ h, State.pageOn_congr e (s.drainFor_power src) (s.drainFor_rst src), State.owns_congr e, h1, h2]
  rfl

/-- A write to a page of an island that is not ON is discarded and logged on SYS (R25). -/
theorem State.guard_down (src : Src) (p : Page) (off : Nat) (act : State → State) (hi : s.issues src = true)
    (h : s.pageOn p = false) : s.guard src p off act = (s.drainFor src).logErr .sys 3 src.code (p.base + off) := by
  have e := s.drainFor_regs src
  unfold State.guard
  rw [State.arrives_issues _ _ _ hi, State.pageOn_congr e (s.drainFor_power src) (s.drainFor_rst src), h]
  rfl

theorem State.guardTrusted_owner (src : Src) (p : Page) (off : Nat) (act : State → State) (h : s.trustedWrites src p) :
    s.guardTrusted src p off act = act (s.drainFor src) := by
  have e := s.drainFor_regs src
  unfold State.guardTrusted
  rw [State.arrives_issues _ _ _ h.1, State.pageOn_congr e (s.drainFor_power src) (s.drainFor_rst src), State.actsTrusted_congr e, State.restarting_congr e, h.2.1, h.2.2.1, h.2.2.2]
  rfl

end

end Sys2Proof.Machine
end

