-- ==== Sys2Proof/Laws/Within.lean ====
section
/-! SUPPORT. What an operation may do to State: it changes only components of a set of bits, and its result can come after the state it ran
on (Onward). How this follows through choices, lists and updates. -/
namespace Sys2Proof.Machine

/-! ## Onward -/

theorem State.Onward.refl (s : State) : s.Onward s := ⟨rfl, List.prefix_refl _, Nat.le_refl _, fun _ => Or.inl rfl⟩
theorem State.Onward.trans {s t u : State} (h : s.Onward t) (k : t.Onward u) : s.Onward u := by
  refine ⟨k.1.trans h.1, h.2.1.trans k.2.1, Nat.le_trans h.2.2.1 k.2.2.1, fun i => ?_⟩
  rcases k.2.2.2 i with e | e
  · rw [e]
    exact h.2.2.2 i
  · exact Or.inr e
theorem State.blow_onward (s : State) (i : Nat) : s.Onward (s.blow i) := by
  refine ⟨rfl, List.prefix_refl _, Nat.le_refl _, fun j => ?_⟩
  simp only [State.blow, Sparse.get_set]
  split
  · exact Or.inr rfl
  · exact Or.inl rfl

/-! ## Components -/

/-- The bit of a component in a set of components. -/
def Component.idx : Component → Nat
  | .regs => 0 | .tabs => 1 | .tabsShadow => 2 | .counters => 3 | .snapshot => 4 | .win => 5 | .scratch => 6 | .msram => 7
  | .tsram => 8 | .locket => 9 | .flash => 10 | .host => 11 | .otp => 12 | .drainTimer => 13 | .applying => 14 | .plan => 15
  | .dp => 16 | .pcie => 17 | .now => 18 | .dom => 19 | .txts => 20 | .frer => 21 | .frerScan => 22 | .clasp => 23
  | .bridge => 24 | .procs => 25 | .power => 26 | .cans => 27 | .lins => 28 | .tdms => 29 | .tsi => 30 | .cips => 31
  | .sec => 32 | .ringPend => 33 | .slots => 34 | .rst => 35 | .tap => 36 | .frees => 37 | .out => 38 | .pending => 39

/-- `t` differs from `s` only in components of the set `m`, and can come after it. -/
structure State.Within (s : State) (m : Nat) (t : State) : Prop where
  same : ∀ p : Component, m.testBit p.idx = false → p.same s t
  onward : s.Onward t

theorem covers {c m i : Nat} (k : c ||| m = m) (h : c.testBit i = true) : ¬m.testBit i = false := by
  rw [← k, Nat.testBit_or, h, Bool.true_or]
  decide
theorem covered {a b m : Nat} (k : b ||| m = m) (h : a ||| b = b) : a ||| m = m := by rw [← k, ← Nat.or_assoc, h]
theorem State.Within.refl {m : Nat} (s : State) : s.Within m s := ⟨fun p _ => by cases p <;> rfl, State.Onward.refl s⟩
theorem State.Within.trans {m : Nat} {s t u : State} (h : s.Within m t) (k : t.Within m u) : s.Within m u := ⟨fun p hp => by
  cases p <;> exact Eq.trans (k.same _ hp) (h.same _ hp), h.onward.trans k.onward⟩
theorem State.Within.mono {a m : Nat} {s t : State} (h : s.Within a t) (k : a ||| m = m) : s.Within m t := ⟨fun p hp => h.same p (by
  cases e : a.testBit p.idx with
  | false => rfl
  | true => exact absurd hp (covers k e)), h.onward⟩
theorem State.Within.ite {s a b : State} {m : Nat} {c : Prop} [Decidable c] (ha : s.Within m a) (hb : s.Within m b) : s.Within m (if c then a else b) := by
  split <;> assumption
theorem State.Within.itp {s : State} {m : Nat} {α : Type} {a b : α × State} {c : Prop} [Decidable c] (ha : s.Within m a.2) (hb : s.Within m b.2) :
    s.Within m (if c then a else b).2 := by
  split <;> assumption
theorem State.Within.itp2 {s : State} {m : Nat} {α β : Type} {a b : α × β × State} {c : Prop} [Decidable c] (ha : s.Within m a.2.2) (hb : s.Within m b.2.2) :
    s.Within m (if c then a else b).2.2 := by
  split <;> assumption
theorem State.Within.itp3 {s : State} {m : Nat} {α β γ : Type} {a b : α × β × γ × State} {c : Prop} [Decidable c] (ha : s.Within m a.2.2.2) (hb : s.Within m b.2.2.2) :
    s.Within m (if c then a else b).2.2.2 := by
  split <;> assumption
theorem State.Within.foldl {s : State} {m : Nat} {α : Type} (f : State → α → State) (h : ∀ (u : State) a, u.Within m (f u a)) (l : List α) (x : State)
    (hx : s.Within m x) : s.Within m (l.foldl f x) := by
  induction l generalizing x with
  | nil => exact hx
  | cons a t ih => exact ih _ (hx.trans (h x a))
theorem State.Within.each {s : State} {m : Nat} {α : Type} {x : State} {l : List α} {f : State → α → State} (hx : s.Within m x)
    (h : ∀ (u : State) a, u.Within m (f u a)) : s.Within m (x.each l f) := State.Within.foldl f h l x hx
theorem State.Within.foldp {s : State} {m : Nat} {α β : Type} {f : β × State → α → β × State} {l : List α} {x : β × State} (hx : s.Within m x.2)
    (h : ∀ (u : β × State) a, u.2.Within m (f u a).2) : s.Within m (l.foldl f x).2 := by
  induction l generalizing x with
  | nil => exact hx
  | cons a t ih => exact ih (hx.trans (h x a))
theorem State.Within.foldp2 {s : State} {m : Nat} {α β γ : Type} {f : β × γ × State → α → β × γ × State} {l : List α} {x : β × γ × State}
    (hx : s.Within m x.2.2) (h : ∀ (u : β × γ × State) a, u.2.2.Within m (f u a).2.2) : s.Within m (l.foldl f x).2.2 := by
  induction l generalizing x with
  | nil => exact hx
  | cons a t ih => exact ih (hx.trans (h x a))


/-! ## Updates -/

theorem State.Within.set_regs {s X : State} {m : Nat} {fregs} (h : s.Within m X) (k : 0x1 ||| m = m) :
    s.Within m (State.mk fregs X.tabs X.tabsShadow X.counters X.snapshot X.mem X.drainTimer X.applying X.plan X.dp X.pcie X.now X.dom X.txts X.frer X.frerScan X.clasp X.bridge X.procs X.power X.cans X.lins X.tdms X.tsi X.cips X.sec X.ringPend X.slots X.rst X.tap X.frees X.out X.pending) := by
  refine ⟨fun p hp => ?_, h.onward⟩
  cases p <;> first | exact h.same _ hp | exact absurd hp (covers k rfl)
theorem State.Within.set_tabs {s X : State} {m : Nat} {ftabs} (h : s.Within m X) (k : 0x2 ||| m = m) :
    s.Within m (State.mk X.regs ftabs X.tabsShadow X.counters X.snapshot X.mem X.drainTimer X.applying X.plan X.dp X.pcie X.now X.dom X.txts X.frer X.frerScan X.clasp X.bridge X.procs X.power X.cans X.lins X.tdms X.tsi X.cips X.sec X.ringPend X.slots X.rst X.tap X.frees X.out X.pending) := by
  refine ⟨fun p hp => ?_, h.onward⟩
  cases p <;> first | exact h.same _ hp | exact absurd hp (covers k rfl)
theorem State.Within.set_tabsShadow {s X : State} {m : Nat} {ftabsShadow} (h : s.Within m X) (k : 0x4 ||| m = m) :
    s.Within m (State.mk X.regs X.tabs ftabsShadow X.counters X.snapshot X.mem X.drainTimer X.applying X.plan X.dp X.pcie X.now X.dom X.txts X.frer X.frerScan X.clasp X.bridge X.procs X.power X.cans X.lins X.tdms X.tsi X.cips X.sec X.ringPend X.slots X.rst X.tap X.frees X.out X.pending) := by
  refine ⟨fun p hp => ?_, h.onward⟩
  cases p <;> first | exact h.same _ hp | exact absurd hp (covers k rfl)
theorem State.Within.set_counters {s X : State} {m : Nat} {fcounters} (h : s.Within m X) (k : 0x8 ||| m = m) :
    s.Within m (State.mk X.regs X.tabs X.tabsShadow fcounters X.snapshot X.mem X.drainTimer X.applying X.plan X.dp X.pcie X.now X.dom X.txts X.frer X.frerScan X.clasp X.bridge X.procs X.power X.cans X.lins X.tdms X.tsi X.cips X.sec X.ringPend X.slots X.rst X.tap X.frees X.out X.pending) := by
  refine ⟨fun p hp => ?_, h.onward⟩
  cases p <;> first | exact h.same _ hp | exact absurd hp (covers k rfl)
theorem State.Within.set_snapshot {s X : State} {m : Nat} {fsnapshot} (h : s.Within m X) (k : 0x10 ||| m = m) :
    s.Within m (State.mk X.regs X.tabs X.tabsShadow X.counters fsnapshot X.mem X.drainTimer X.applying X.plan X.dp X.pcie X.now X.dom X.txts X.frer X.frerScan X.clasp X.bridge X.procs X.power X.cans X.lins X.tdms X.tsi X.cips X.sec X.ringPend X.slots X.rst X.tap X.frees X.out X.pending) := by
  refine ⟨fun p hp => ?_, h.onward⟩
  cases p <;> first | exact h.same _ hp | exact absurd hp (covers k rfl)
theorem State.Within.set_win {s X : State} {m : Nat} {mwin : Mem} (h : s.Within m X) (k : 0x20 ||| m = m) :
    s.Within m (State.mk X.regs X.tabs X.tabsShadow X.counters X.snapshot (Mems.mk mwin X.mem.scratch X.mem.msram X.mem.tsram X.mem.locket X.mem.flash X.mem.host X.mem.otp) X.drainTimer X.applying X.plan X.dp X.pcie X.now X.dom X.txts X.frer X.frerScan X.clasp X.bridge X.procs X.power X.cans X.lins X.tdms X.tsi X.cips X.sec X.ringPend X.slots X.rst X.tap X.frees X.out X.pending) := by
  refine ⟨fun p hp => ?_, h.onward⟩
  cases p <;> first | exact h.same _ hp | exact absurd hp (covers k rfl)
theorem State.Within.set_scratch {s X : State} {m : Nat} {mscratch : Mem} (h : s.Within m X) (k : 0x40 ||| m = m) :
    s.Within m (State.mk X.regs X.tabs X.tabsShadow X.counters X.snapshot (Mems.mk X.mem.win mscratch X.mem.msram X.mem.tsram X.mem.locket X.mem.flash X.mem.host X.mem.otp) X.drainTimer X.applying X.plan X.dp X.pcie X.now X.dom X.txts X.frer X.frerScan X.clasp X.bridge X.procs X.power X.cans X.lins X.tdms X.tsi X.cips X.sec X.ringPend X.slots X.rst X.tap X.frees X.out X.pending) := by
  refine ⟨fun p hp => ?_, h.onward⟩
  cases p <;> first | exact h.same _ hp | exact absurd hp (covers k rfl)
theorem State.Within.set_msram {s X : State} {m : Nat} {mmsram : Mem} (h : s.Within m X) (k : 0x80 ||| m = m) :
    s.Within m (State.mk X.regs X.tabs X.tabsShadow X.counters X.snapshot (Mems.mk X.mem.win X.mem.scratch mmsram X.mem.tsram X.mem.locket X.mem.flash X.mem.host X.mem.otp) X.drainTimer X.applying X.plan X.dp X.pcie X.now X.dom X.txts X.frer X.frerScan X.clasp X.bridge X.procs X.power X.cans X.lins X.tdms X.tsi X.cips X.sec X.ringPend X.slots X.rst X.tap X.frees X.out X.pending) := by
  refine ⟨fun p hp => ?_, h.onward⟩
  cases p <;> first | exact h.same _ hp | exact absurd hp (covers k rfl)
theorem State.Within.set_tsram {s X : State} {m : Nat} {mtsram : Mem} (h : s.Within m X) (k : 0x100 ||| m = m) :
    s.Within m (State.mk X.regs X.tabs X.tabsShadow X.counters X.snapshot (Mems.mk X.mem.win X.mem.scratch X.mem.msram mtsram X.mem.locket X.mem.flash X.mem.host X.mem.otp) X.drainTimer X.applying X.plan X.dp X.pcie X.now X.dom X.txts X.frer X.frerScan X.clasp X.bridge X.procs X.power X.cans X.lins X.tdms X.tsi X.cips X.sec X.ringPend X.slots X.rst X.tap X.frees X.out X.pending) := by
  refine ⟨fun p hp => ?_, h.onward⟩
  cases p <;> first | exact h.same _ hp | exact absurd hp (covers k rfl)
theorem State.Within.set_locket {s X : State} {m : Nat} {mlocket : Mem} (h : s.Within m X) (k : 0x200 ||| m = m) :
    s.Within m (State.mk X.regs X.tabs X.tabsShadow X.counters X.snapshot (Mems.mk X.mem.win X.mem.scratch X.mem.msram X.mem.tsram mlocket X.mem.flash X.mem.host X.mem.otp) X.drainTimer X.applying X.plan X.dp X.pcie X.now X.dom X.txts X.frer X.frerScan X.clasp X.bridge X.procs X.power X.cans X.lins X.tdms X.tsi X.cips X.sec X.ringPend X.slots X.rst X.tap X.frees X.out X.pending) := by
  refine ⟨fun p hp => ?_, h.onward⟩
  cases p <;> first | exact h.same _ hp | exact absurd hp (covers k rfl)
theorem State.Within.set_flash {s X : State} {m : Nat} {mflash : Mem} (h : s.Within m X) (k : 0x400 ||| m = m) :
    s.Within m (State.mk X.regs X.tabs X.tabsShadow X.counters X.snapshot (Mems.mk X.mem.win X.mem.scratch X.mem.msram X.mem.tsram X.mem.locket mflash X.mem.host X.mem.otp) X.drainTimer X.applying X.plan X.dp X.pcie X.now X.dom X.txts X.frer X.frerScan X.clasp X.bridge X.procs X.power X.cans X.lins X.tdms X.tsi X.cips X.sec X.ringPend X.slots X.rst X.tap X.frees X.out X.pending) := by
  refine ⟨fun p hp => ?_, h.onward⟩
  cases p <;> first | exact h.same _ hp | exact absurd hp (covers k rfl)
theorem State.Within.set_host {s X : State} {m : Nat} {mhost : Mem} (h : s.Within m X) (k : 0x800 ||| m = m) :
    s.Within m (State.mk X.regs X.tabs X.tabsShadow X.counters X.snapshot (Mems.mk X.mem.win X.mem.scratch X.mem.msram X.mem.tsram X.mem.locket X.mem.flash mhost X.mem.otp) X.drainTimer X.applying X.plan X.dp X.pcie X.now X.dom X.txts X.frer X.frerScan X.clasp X.bridge X.procs X.power X.cans X.lins X.tdms X.tsi X.cips X.sec X.ringPend X.slots X.rst X.tap X.frees X.out X.pending) := by
  refine ⟨fun p hp => ?_, h.onward⟩
  cases p <;> first | exact h.same _ hp | exact absurd hp (covers k rfl)
theorem State.Within.set_drainTimer {s X : State} {m : Nat} {fdrainTimer} (h : s.Within m X) (k : 0x2000 ||| m = m) :
    s.Within m (State.mk X.regs X.tabs X.tabsShadow X.counters X.snapshot X.mem fdrainTimer X.applying X.plan X.dp X.pcie X.now X.dom X.txts X.frer X.frerScan X.clasp X.bridge X.procs X.power X.cans X.lins X.tdms X.tsi X.cips X.sec X.ringPend X.slots X.rst X.tap X.frees X.out X.pending) := by
  refine ⟨fun p hp => ?_, h.onward⟩
  cases p <;> first | exact h.same _ hp | exact absurd hp (covers k rfl)
theorem State.Within.set_applying {s X : State} {m : Nat} {fapplying} (h : s.Within m X) (k : 0x4000 ||| m = m) :
    s.Within m (State.mk X.regs X.tabs X.tabsShadow X.counters X.snapshot X.mem X.drainTimer fapplying X.plan X.dp X.pcie X.now X.dom X.txts X.frer X.frerScan X.clasp X.bridge X.procs X.power X.cans X.lins X.tdms X.tsi X.cips X.sec X.ringPend X.slots X.rst X.tap X.frees X.out X.pending) := by
  refine ⟨fun p hp => ?_, h.onward⟩
  cases p <;> first | exact h.same _ hp | exact absurd hp (covers k rfl)
theorem State.Within.set_plan {s X : State} {m : Nat} {fplan} (h : s.Within m X) (k : 0x8000 ||| m = m) :
    s.Within m (State.mk X.regs X.tabs X.tabsShadow X.counters X.snapshot X.mem X.drainTimer X.applying fplan X.dp X.pcie X.now X.dom X.txts X.frer X.frerScan X.clasp X.bridge X.procs X.power X.cans X.lins X.tdms X.tsi X.cips X.sec X.ringPend X.slots X.rst X.tap X.frees X.out X.pending) := by
  refine ⟨fun p hp => ?_, h.onward⟩
  cases p <;> first | exact h.same _ hp | exact absurd hp (covers k rfl)
theorem State.Within.set_dp {s X : State} {m : Nat} {fdp} (h : s.Within m X) (k : 0x10000 ||| m = m) :
    s.Within m (State.mk X.regs X.tabs X.tabsShadow X.counters X.snapshot X.mem X.drainTimer X.applying X.plan fdp X.pcie X.now X.dom X.txts X.frer X.frerScan X.clasp X.bridge X.procs X.power X.cans X.lins X.tdms X.tsi X.cips X.sec X.ringPend X.slots X.rst X.tap X.frees X.out X.pending) := by
  refine ⟨fun p hp => ?_, h.onward⟩
  cases p <;> first | exact h.same _ hp | exact absurd hp (covers k rfl)
theorem State.Within.set_pcie {s X : State} {m : Nat} {fpcie} (h : s.Within m X) (k : 0x20000 ||| m = m) :
    s.Within m (State.mk X.regs X.tabs X.tabsShadow X.counters X.snapshot X.mem X.drainTimer X.applying X.plan X.dp fpcie X.now X.dom X.txts X.frer X.frerScan X.clasp X.bridge X.procs X.power X.cans X.lins X.tdms X.tsi X.cips X.sec X.ringPend X.slots X.rst X.tap X.frees X.out X.pending) := by
  refine ⟨fun p hp => ?_, h.onward⟩
  cases p <;> first | exact h.same _ hp | exact absurd hp (covers k rfl)
theorem State.Within.set_now {s X : State} {m : Nat} {fnow} (h : s.Within m X) (k : 0x40000 ||| m = m) :
    s.Within m (State.mk X.regs X.tabs X.tabsShadow X.counters X.snapshot X.mem X.drainTimer X.applying X.plan X.dp X.pcie fnow X.dom X.txts X.frer X.frerScan X.clasp X.bridge X.procs X.power X.cans X.lins X.tdms X.tsi X.cips X.sec X.ringPend X.slots X.rst X.tap X.frees X.out X.pending) := by
  refine ⟨fun p hp => ?_, h.onward⟩
  cases p <;> first | exact h.same _ hp | exact absurd hp (covers k rfl)
theorem State.Within.set_dom {s X : State} {m : Nat} {fdom} (h : s.Within m X) (k : 0x80000 ||| m = m) :
    s.Within m (State.mk X.regs X.tabs X.tabsShadow X.counters X.snapshot X.mem X.drainTimer X.applying X.plan X.dp X.pcie X.now fdom X.txts X.frer X.frerScan X.clasp X.bridge X.procs X.power X.cans X.lins X.tdms X.tsi X.cips X.sec X.ringPend X.slots X.rst X.tap X.frees X.out X.pending) := by
  refine ⟨fun p hp => ?_, h.onward⟩
  cases p <;> first | exact h.same _ hp | exact absurd hp (covers k rfl)
theorem State.Within.set_txts {s X : State} {m : Nat} {ftxts} (h : s.Within m X) (k : 0x100000 ||| m = m) :
    s.Within m (State.mk X.regs X.tabs X.tabsShadow X.counters X.snapshot X.mem X.drainTimer X.applying X.plan X.dp X.pcie X.now X.dom ftxts X.frer X.frerScan X.clasp X.bridge X.procs X.power X.cans X.lins X.tdms X.tsi X.cips X.sec X.ringPend X.slots X.rst X.tap X.frees X.out X.pending) := by
  refine ⟨fun p hp => ?_, h.onward⟩
  cases p <;> first | exact h.same _ hp | exact absurd hp (covers k rfl)
theorem State.Within.set_frer {s X : State} {m : Nat} {ffrer} (h : s.Within m X) (k : 0x200000 ||| m = m) :
    s.Within m (State.mk X.regs X.tabs X.tabsShadow X.counters X.snapshot X.mem X.drainTimer X.applying X.plan X.dp X.pcie X.now X.dom X.txts ffrer X.frerScan X.clasp X.bridge X.procs X.power X.cans X.lins X.tdms X.tsi X.cips X.sec X.ringPend X.slots X.rst X.tap X.frees X.out X.pending) := by
  refine ⟨fun p hp => ?_, h.onward⟩
  cases p <;> first | exact h.same _ hp | exact absurd hp (covers k rfl)
theorem State.Within.set_frerScan {s X : State} {m : Nat} {ffrerScan} (h : s.Within m X) (k : 0x400000 ||| m = m) :
    s.Within m (State.mk X.regs X.tabs X.tabsShadow X.counters X.snapshot X.mem X.drainTimer X.applying X.plan X.dp X.pcie X.now X.dom X.txts X.frer ffrerScan X.clasp X.bridge X.procs X.power X.cans X.lins X.tdms X.tsi X.cips X.sec X.ringPend X.slots X.rst X.tap X.frees X.out X.pending) := by
  refine ⟨fun p hp => ?_, h.onward⟩
  cases p <;> first | exact h.same _ hp | exact absurd hp (covers k rfl)
theorem State.Within.set_clasp {s X : State} {m : Nat} {fclasp} (h : s.Within m X) (k : 0x800000 ||| m = m) :
    s.Within m (State.mk X.regs X.tabs X.tabsShadow X.counters X.snapshot X.mem X.drainTimer X.applying X.plan X.dp X.pcie X.now X.dom X.txts X.frer X.frerScan fclasp X.bridge X.procs X.power X.cans X.lins X.tdms X.tsi X.cips X.sec X.ringPend X.slots X.rst X.tap X.frees X.out X.pending) := by
  refine ⟨fun p hp => ?_, h.onward⟩
  cases p <;> first | exact h.same _ hp | exact absurd hp (covers k rfl)
theorem State.Within.set_bridge {s X : State} {m : Nat} {fbridge} (h : s.Within m X) (k : 0x1000000 ||| m = m) :
    s.Within m (State.mk X.regs X.tabs X.tabsShadow X.counters X.snapshot X.mem X.drainTimer X.applying X.plan X.dp X.pcie X.now X.dom X.txts X.frer X.frerScan X.clasp fbridge X.procs X.power X.cans X.lins X.tdms X.tsi X.cips X.sec X.ringPend X.slots X.rst X.tap X.frees X.out X.pending) := by
  refine ⟨fun p hp => ?_, h.onward⟩
  cases p <;> first | exact h.same _ hp | exact absurd hp (covers k rfl)
theorem State.Within.set_procs {s X : State} {m : Nat} {fprocs} (h : s.Within m X) (k : 0x2000000 ||| m = m) :
    s.Within m (State.mk X.regs X.tabs X.tabsShadow X.counters X.snapshot X.mem X.drainTimer X.applying X.plan X.dp X.pcie X.now X.dom X.txts X.frer X.frerScan X.clasp X.bridge fprocs X.power X.cans X.lins X.tdms X.tsi X.cips X.sec X.ringPend X.slots X.rst X.tap X.frees X.out X.pending) := by
  refine ⟨fun p hp => ?_, h.onward⟩
  cases p <;> first | exact h.same _ hp | exact absurd hp (covers k rfl)
theorem State.Within.set_power {s X : State} {m : Nat} {fpower} (h : s.Within m X) (k : 0x4000000 ||| m = m) :
    s.Within m (State.mk X.regs X.tabs X.tabsShadow X.counters X.snapshot X.mem X.drainTimer X.applying X.plan X.dp X.pcie X.now X.dom X.txts X.frer X.frerScan X.clasp X.bridge X.procs fpower X.cans X.lins X.tdms X.tsi X.cips X.sec X.ringPend X.slots X.rst X.tap X.frees X.out X.pending) := by
  refine ⟨fun p hp => ?_, h.onward⟩
  cases p <;> first | exact h.same _ hp | exact absurd hp (covers k rfl)
theorem State.Within.set_cans {s X : State} {m : Nat} {fcans} (h : s.Within m X) (k : 0x8000000 ||| m = m) :
    s.Within m (State.mk X.regs X.tabs X.tabsShadow X.counters X.snapshot X.mem X.drainTimer X.applying X.plan X.dp X.pcie X.now X.dom X.txts X.frer X.frerScan X.clasp X.bridge X.procs X.power fcans X.lins X.tdms X.tsi X.cips X.sec X.ringPend X.slots X.rst X.tap X.frees X.out X.pending) := by
  refine ⟨fun p hp => ?_, h.onward⟩
  cases p <;> first | exact h.same _ hp | exact absurd hp (covers k rfl)
theorem State.Within.set_lins {s X : State} {m : Nat} {flins} (h : s.Within m X) (k : 0x10000000 ||| m = m) :
    s.Within m (State.mk X.regs X.tabs X.tabsShadow X.counters X.snapshot X.mem X.drainTimer X.applying X.plan X.dp X.pcie X.now X.dom X.txts X.frer X.frerScan X.clasp X.bridge X.procs X.power X.cans flins X.tdms X.tsi X.cips X.sec X.ringPend X.slots X.rst X.tap X.frees X.out X.pending) := by
  refine ⟨fun p hp => ?_, h.onward⟩
  cases p <;> first | exact h.same _ hp | exact absurd hp (covers k rfl)
theorem State.Within.set_tdms {s X : State} {m : Nat} {ftdms} (h : s.Within m X) (k : 0x20000000 ||| m = m) :
    s.Within m (State.mk X.regs X.tabs X.tabsShadow X.counters X.snapshot X.mem X.drainTimer X.applying X.plan X.dp X.pcie X.now X.dom X.txts X.frer X.frerScan X.clasp X.bridge X.procs X.power X.cans X.lins ftdms X.tsi X.cips X.sec X.ringPend X.slots X.rst X.tap X.frees X.out X.pending) := by
  refine ⟨fun p hp => ?_, h.onward⟩
  cases p <;> first | exact h.same _ hp | exact absurd hp (covers k rfl)
theorem State.Within.set_tsi {s X : State} {m : Nat} {ftsi} (h : s.Within m X) (k : 0x40000000 ||| m = m) :
    s.Within m (State.mk X.regs X.tabs X.tabsShadow X.counters X.snapshot X.mem X.drainTimer X.applying X.plan X.dp X.pcie X.now X.dom X.txts X.frer X.frerScan X.clasp X.bridge X.procs X.power X.cans X.lins X.tdms ftsi X.cips X.sec X.ringPend X.slots X.rst X.tap X.frees X.out X.pending) := by
  refine ⟨fun p hp => ?_, h.onward⟩
  cases p <;> first | exact h.same _ hp | exact absurd hp (covers k rfl)
theorem State.Within.set_cips {s X : State} {m : Nat} {fcips} (h : s.Within m X) (k : 0x80000000 ||| m = m) :
    s.Within m (State.mk X.regs X.tabs X.tabsShadow X.counters X.snapshot X.mem X.drainTimer X.applying X.plan X.dp X.pcie X.now X.dom X.txts X.frer X.frerScan X.clasp X.bridge X.procs X.power X.cans X.lins X.tdms X.tsi fcips X.sec X.ringPend X.slots X.rst X.tap X.frees X.out X.pending) := by
  refine ⟨fun p hp => ?_, h.onward⟩
  cases p <;> first | exact h.same _ hp | exact absurd hp (covers k rfl)
theorem State.Within.set_sec {s X : State} {m : Nat} {fsec} (h : s.Within m X) (k : 0x100000000 ||| m = m) :
    s.Within m (State.mk X.regs X.tabs X.tabsShadow X.counters X.snapshot X.mem X.drainTimer X.applying X.plan X.dp X.pcie X.now X.dom X.txts X.frer X.frerScan X.clasp X.bridge X.procs X.power X.cans X.lins X.tdms X.tsi X.cips fsec X.ringPend X.slots X.rst X.tap X.frees X.out X.pending) := by
  refine ⟨fun p hp => ?_, h.onward⟩
  cases p <;> first | exact h.same _ hp | exact absurd hp (covers k rfl)
theorem State.Within.set_ringPend {s X : State} {m : Nat} {fringPend} (h : s.Within m X) (k : 0x200000000 ||| m = m) :
    s.Within m (State.mk X.regs X.tabs X.tabsShadow X.counters X.snapshot X.mem X.drainTimer X.applying X.plan X.dp X.pcie X.now X.dom X.txts X.frer X.frerScan X.clasp X.bridge X.procs X.power X.cans X.lins X.tdms X.tsi X.cips X.sec fringPend X.slots X.rst X.tap X.frees X.out X.pending) := by
  refine ⟨fun p hp => ?_, h.onward⟩
  cases p <;> first | exact h.same _ hp | exact absurd hp (covers k rfl)
theorem State.Within.set_slots {s X : State} {m : Nat} {fslots} (h : s.Within m X) (k : 0x400000000 ||| m = m) :
    s.Within m (State.mk X.regs X.tabs X.tabsShadow X.counters X.snapshot X.mem X.drainTimer X.applying X.plan X.dp X.pcie X.now X.dom X.txts X.frer X.frerScan X.clasp X.bridge X.procs X.power X.cans X.lins X.tdms X.tsi X.cips X.sec X.ringPend fslots X.rst X.tap X.frees X.out X.pending) := by
  refine ⟨fun p hp => ?_, h.onward⟩
  cases p <;> first | exact h.same _ hp | exact absurd hp (covers k rfl)
theorem State.Within.set_rst {s X : State} {m : Nat} {frst} (h : s.Within m X) (k : 0x800000000 ||| m = m) :
    s.Within m (State.mk X.regs X.tabs X.tabsShadow X.counters X.snapshot X.mem X.drainTimer X.applying X.plan X.dp X.pcie X.now X.dom X.txts X.frer X.frerScan X.clasp X.bridge X.procs X.power X.cans X.lins X.tdms X.tsi X.cips X.sec X.ringPend X.slots frst X.tap X.frees X.out X.pending) := by
  refine ⟨fun p hp => ?_, h.onward⟩
  cases p <;> first | exact h.same _ hp | exact absurd hp (covers k rfl)
theorem State.Within.set_tap {s X : State} {m : Nat} {ftap} (h : s.Within m X) (k : 0x1000000000 ||| m = m) :
    s.Within m (State.mk X.regs X.tabs X.tabsShadow X.counters X.snapshot X.mem X.drainTimer X.applying X.plan X.dp X.pcie X.now X.dom X.txts X.frer X.frerScan X.clasp X.bridge X.procs X.power X.cans X.lins X.tdms X.tsi X.cips X.sec X.ringPend X.slots X.rst ftap X.frees X.out X.pending) := by
  refine ⟨fun p hp => ?_, h.onward⟩
  cases p <;> first | exact h.same _ hp | exact absurd hp (covers k rfl)
theorem State.Within.set_applying_plan {s X : State} {m : Nat} {fapplying fplan} (h : s.Within m X) (k : 0xc000 ||| m = m) :
    s.Within m (State.mk X.regs X.tabs X.tabsShadow X.counters X.snapshot X.mem X.drainTimer fapplying fplan X.dp X.pcie X.now X.dom X.txts X.frer X.frerScan X.clasp X.bridge X.procs X.power X.cans X.lins X.tdms X.tsi X.cips X.sec X.ringPend X.slots X.rst X.tap X.frees X.out X.pending) := by
  refine ⟨fun p hp => ?_, h.onward⟩
  cases p <;> first | exact h.same _ hp | exact absurd hp (covers k rfl)
theorem State.Within.set_counters_snapshot {s X : State} {m : Nat} {fcounters fsnapshot} (h : s.Within m X) (k : 0x18 ||| m = m) :
    s.Within m (State.mk X.regs X.tabs X.tabsShadow fcounters fsnapshot X.mem X.drainTimer X.applying X.plan X.dp X.pcie X.now X.dom X.txts X.frer X.frerScan X.clasp X.bridge X.procs X.power X.cans X.lins X.tdms X.tsi X.cips X.sec X.ringPend X.slots X.rst X.tap X.frees X.out X.pending) := by
  refine ⟨fun p hp => ?_, h.onward⟩
  cases p <;> first | exact h.same _ hp | exact absurd hp (covers k rfl)
theorem State.Within.set_tabs_tabsShadow {s X : State} {m : Nat} {ftabs ftabsShadow} (h : s.Within m X) (k : 0x6 ||| m = m) :
    s.Within m (State.mk X.regs ftabs ftabsShadow X.counters X.snapshot X.mem X.drainTimer X.applying X.plan X.dp X.pcie X.now X.dom X.txts X.frer X.frerScan X.clasp X.bridge X.procs X.power X.cans X.lins X.tdms X.tsi X.cips X.sec X.ringPend X.slots X.rst X.tap X.frees X.out X.pending) := by
  refine ⟨fun p hp => ?_, h.onward⟩
  cases p <;> first | exact h.same _ hp | exact absurd hp (covers k rfl)
theorem State.Within.set_now_dom_frerScan {s X : State} {m : Nat} {fnow fdom ffrerScan} (h : s.Within m X) (k : 0x4c0000 ||| m = m) :
    s.Within m (State.mk X.regs X.tabs X.tabsShadow X.counters X.snapshot X.mem X.drainTimer X.applying X.plan X.dp X.pcie fnow fdom X.txts X.frer ffrerScan X.clasp X.bridge X.procs X.power X.cans X.lins X.tdms X.tsi X.cips X.sec X.ringPend X.slots X.rst X.tap X.frees X.out X.pending) := by
  refine ⟨fun p hp => ?_, h.onward⟩
  cases p <;> first | exact h.same _ hp | exact absurd hp (covers k rfl)
theorem State.Within.set_most_1fffffe3ff {s X : State} {m : Nat} {fregs ftabs ftabsShadow fcounters fsnapshot fdrainTimer fapplying fplan fdp fpcie fnow fdom ftxts ffrer ffrerScan fclasp fbridge fprocs fpower fcans flins ftdms ftsi fcips fsec fringPend fslots frst ftap} {mwin mscratch mmsram mtsram mlocket : Mem} (h : s.Within m X) (k : 0x1fffffe3ff ||| m = m) :
    s.Within m (State.mk fregs ftabs ftabsShadow fcounters fsnapshot (Mems.mk mwin mscratch mmsram mtsram mlocket X.mem.flash X.mem.host X.mem.otp) fdrainTimer fapplying fplan fdp fpcie fnow fdom ftxts ffrer ffrerScan fclasp fbridge fprocs fpower fcans flins ftdms ftsi fcips fsec fringPend fslots frst ftap X.frees X.out X.pending) := by
  refine ⟨fun p hp => ?_, h.onward⟩
  cases p <;> first | exact h.same _ hp | exact absurd hp (covers k rfl)
theorem State.Within.set_regs_counters_snapshot_drainTimer_power {s X : State} {m : Nat} {fregs fcounters fsnapshot fdrainTimer fpower} (h : s.Within m X) (k : 0x4002019 ||| m = m) :
    s.Within m (State.mk fregs X.tabs X.tabsShadow fcounters fsnapshot X.mem fdrainTimer X.applying X.plan X.dp X.pcie X.now X.dom X.txts X.frer X.frerScan X.clasp X.bridge X.procs fpower X.cans X.lins X.tdms X.tsi X.cips X.sec X.ringPend X.slots X.rst X.tap X.frees X.out X.pending) := by
  refine ⟨fun p hp => ?_, h.onward⟩
  cases p <;> first | exact h.same _ hp | exact absurd hp (covers k rfl)
theorem State.Within.set_msram_bridge {s X : State} {m : Nat} {fbridge} {mmsram : Mem} (h : s.Within m X) (k : 0x1000080 ||| m = m) :
    s.Within m (State.mk X.regs X.tabs X.tabsShadow X.counters X.snapshot (Mems.mk X.mem.win X.mem.scratch mmsram X.mem.tsram X.mem.locket X.mem.flash X.mem.host X.mem.otp) X.drainTimer X.applying X.plan X.dp X.pcie X.now X.dom X.txts X.frer X.frerScan X.clasp fbridge X.procs X.power X.cans X.lins X.tdms X.tsi X.cips X.sec X.ringPend X.slots X.rst X.tap X.frees X.out X.pending) := by
  refine ⟨fun p hp => ?_, h.onward⟩
  cases p <;> first | exact h.same _ hp | exact absurd hp (covers k rfl)
theorem State.Within.set_tsram_sec {s X : State} {m : Nat} {fsec} {mtsram : Mem} (h : s.Within m X) (k : 0x100000100 ||| m = m) :
    s.Within m (State.mk X.regs X.tabs X.tabsShadow X.counters X.snapshot (Mems.mk X.mem.win X.mem.scratch X.mem.msram mtsram X.mem.locket X.mem.flash X.mem.host X.mem.otp) X.drainTimer X.applying X.plan X.dp X.pcie X.now X.dom X.txts X.frer X.frerScan X.clasp X.bridge X.procs X.power X.cans X.lins X.tdms X.tsi X.cips fsec X.ringPend X.slots X.rst X.tap X.frees X.out X.pending) := by
  refine ⟨fun p hp => ?_, h.onward⟩
  cases p <;> first | exact h.same _ hp | exact absurd hp (covers k rfl)
theorem State.Within.set_scratch_pcie {s X : State} {m : Nat} {fpcie} {mscratch : Mem} (h : s.Within m X) (k : 0x20040 ||| m = m) :
    s.Within m (State.mk X.regs X.tabs X.tabsShadow X.counters X.snapshot (Mems.mk X.mem.win mscratch X.mem.msram X.mem.tsram X.mem.locket X.mem.flash X.mem.host X.mem.otp) X.drainTimer X.applying X.plan X.dp fpcie X.now X.dom X.txts X.frer X.frerScan X.clasp X.bridge X.procs X.power X.cans X.lins X.tdms X.tsi X.cips X.sec X.ringPend X.slots X.rst X.tap X.frees X.out X.pending) := by
  refine ⟨fun p hp => ?_, h.onward⟩
  cases p <;> first | exact h.same _ hp | exact absurd hp (covers k rfl)
theorem State.Within.set_regs_counters_snapshot_drainTimer_power_sec {s X : State} {m : Nat} {fregs fcounters fsnapshot fdrainTimer fpower fsec} (h : s.Within m X) (k : 0x104002019 ||| m = m) :
    s.Within m (State.mk fregs X.tabs X.tabsShadow fcounters fsnapshot X.mem fdrainTimer X.applying X.plan X.dp X.pcie X.now X.dom X.txts X.frer X.frerScan X.clasp X.bridge X.procs fpower X.cans X.lins X.tdms X.tsi X.cips fsec X.ringPend X.slots X.rst X.tap X.frees X.out X.pending) := by
  refine ⟨fun p hp => ?_, h.onward⟩
  cases p <;> first | exact h.same _ hp | exact absurd hp (covers k rfl)
theorem State.Within.set_most_fffffe3ff {s X : State} {m : Nat} {fregs ftabs ftabsShadow fcounters fsnapshot fdrainTimer fapplying fplan fdp fpcie fnow fdom ftxts ffrer ffrerScan fclasp fbridge fprocs fpower fcans flins ftdms ftsi fcips fsec fringPend fslots frst} {mwin mscratch mmsram mtsram mlocket : Mem} (h : s.Within m X) (k : 0xfffffe3ff ||| m = m) :
    s.Within m (State.mk fregs ftabs ftabsShadow fcounters fsnapshot (Mems.mk mwin mscratch mmsram mtsram mlocket X.mem.flash X.mem.host X.mem.otp) fdrainTimer fapplying fplan fdp fpcie fnow fdom ftxts ffrer ffrerScan fclasp fbridge fprocs fpower fcans flins ftdms ftsi fcips fsec fringPend fslots frst X.tap X.frees X.out X.pending) := by
  refine ⟨fun p hp => ?_, h.onward⟩
  cases p <;> first | exact h.same _ hp | exact absurd hp (covers k rfl)
theorem State.Within.of_pair {s x : State} {m : Nat} {α : Type} {v : α × State} {a : α} (h : v = (a, x)) (k : s.Within m v.2) : s.Within m x := by
  subst h
  exact k
theorem State.Within.of_pair2 {s x : State} {m : Nat} {α β : Type} {v : α × β × State} {a : α} {b : β} (h : v = (a, b, x)) (k : s.Within m v.2.2) :
    s.Within m x := by
  subst h
  exact k
theorem State.Within.of_pair3 {s x : State} {m : Nat} {α β γ : Type} {v : α × β × γ × State} {a : α} {b : β} {c : γ} (h : v = (a, b, c, x))
    (k : s.Within m v.2.2.2) : s.Within m x := by
  subst h
  exact k

/-! ## A state that may be there -/

/-- Where there is a state, it differs only in components of the set, and can come after. -/
def State.WithinOpt (s : State) (m : Nat) (o : Option State) : Prop := ∀ t, o = Option.some t → s.Within m t

theorem State.WithinOpt.elim {s t : State} {m : Nat} {o : Option State} (h : s.WithinOpt m o) (e : o = Option.some t) : s.Within m t := h t e
theorem State.WithinOpt.some {s x : State} {m : Nat} (h : s.Within m x) : s.WithinOpt m (Option.some x) := fun t e => by
  cases e
  exact h
theorem State.WithinOpt.none {s : State} {m : Nat} : s.WithinOpt m Option.none := fun t e => by cases e
theorem State.WithinOpt.ite {s : State} {m : Nat} {a b : Option State} {c : Prop} [Decidable c] (ha : s.WithinOpt m a)
    (hb : s.WithinOpt m b) : s.WithinOpt m (if c then a else b) := by
  split <;> assumption
theorem State.WithinOpt.map {s : State} {m : Nat} {α : Type} {o : Option α} {f : α → State} (h : ∀ i, s.Within m (f i)) :
    s.WithinOpt m (o.map f) := fun t e => by
  obtain ⟨i, -, rfl⟩ := Option.map_eq_some_iff.mp e
  exact h i

/-! ## What is added to outside the device, drawn or programmed -/

theorem State.emit_within (s : State) (o : Output) : s.Within 0x4000000000 (s.emit o) := by
  refine ⟨fun p hp => ?_, rfl, List.prefix_append _ _, Nat.le_refl _, fun _ => Or.inl rfl⟩
  cases p <;> first | rfl | exact absurd hp (by decide)
theorem State.blow_within (s : State) (i : Nat) : s.Within 0x1000 (s.blow i) := by
  refine ⟨fun p hp => ?_, s.blow_onward i⟩
  cases p <;> first | rfl | exact absurd hp (by decide)
theorem State.drew_within (s : State) (n : Nat) : s.Within 0x2000000000 (s.drew n) := by
  refine ⟨fun p hp => ?_, rfl, List.prefix_refl _, Nat.le_add_right _ _, fun _ => Or.inl rfl⟩
  cases p <;> first | rfl | exact absurd hp (by decide)
theorem State.draw_within (s : State) (n : Nat) : s.Within 0x2000000000 (s.draw n).2 := s.drew_within 1
theorem State.drawBytes_within (s : State) (len : Nat) : s.Within 0x2000000000 (s.drawBytes len).2 := s.drew_within 1

end Sys2Proof.Machine
end

