-- ==== Sys2Proof/Laws/WithinPath.lean ====
section
/-! SUPPORT. The components of State that every operation of the data path may change, and that what it leaves can come after. -/
namespace Sys2Proof.Machine

/-! ## Machine/Ops.lean -/

theorem State.setWord_within (s : State) (p : Page) (off : Nat) (w : Word) : s.Within 0x1 (s.setWord p off w) := by
  unfold State.setWord
  refine State.Within.set_regs ?_ (by rfl)
  exact State.Within.refl _

theorem State.setFld_within (s : State) (p : Page) (f : Fld) (v : Nat) : s.Within 0x1 (s.setFld p f v) := by
  unfold State.setFld
  exact (State.setWord_within ..).mono (by rfl)

theorem State.setTab_within (s : State) (p : Page) (table entry word : Nat) (w : Word) : s.Within 0x2 (s.setTab p table entry word w) := by
  unfold State.setTab
  refine State.Within.set_tabs ?_ (by rfl)
  exact State.Within.refl _

theorem State.setTabF_within (s : State) (p : Page) (table entry word hi lo v : Nat) : s.Within 0x2 (s.setTabF p table entry word hi lo v) := by
  unfold State.setTabF
  exact (State.setTab_within ..).mono (by rfl)

theorem State.setTabSh_within (s : State) (p : Page) (table entry word : Nat) (w : Word) : s.Within 0x4 (s.setTabSh p table entry word w) := by
  unfold State.setTabSh
  refine State.Within.set_tabsShadow ?_ (by rfl)
  exact State.Within.refl _

theorem State.bump_within (s : State) (p : Page) (off n : Nat) : s.Within 0x8 (s.bump p off n) := by
  unfold State.bump
  refine State.Within.set_counters ?_ (by rfl)
  exact State.Within.refl _

theorem State.bumpTab_within (s : State) (p : Page) (table entry word n : Nat) : s.Within 0x8 (s.bumpTab p table entry word n) := by
  unfold State.bumpTab
  refine State.Within.set_counters ?_ (by rfl)
  exact State.Within.refl _

/-! ## Machine/Flags.lean -/

theorem State.msixSend_within (s : State) (v : Nat) : s.Within 0x4000020008 (s.msixSend v) := by
  unfold State.msixSend
  refine State.Within.ite ?_ ?_
  · refine State.Within.ite ?_ ?_
    · refine State.Within.set_pcie ?_ (by rfl)
      exact State.Within.refl _
    · exact (State.emit_within ..).mono (by rfl)
  · exact (State.bump_within ..).mono (by rfl)

theorem State.pageMessage_within (s : State) (p : Page) : s.Within 0x4000020008 (s.pageMessage p) := by
  unfold State.pageMessage
  refine State.Within.ite ?_ ?_
  · exact (State.msixSend_within ..).mono (by rfl)
  · exact State.Within.refl _

theorem State.setEvents_within (s : State) (p : Page) (raw en : Word) : s.Within 0x4000020009 (s.setEvents p raw en) := by
  unfold State.setEvents
  extract_lets y1
  have h2 : s.Within 0x4000020009 y1 := by
    unfold y1
    refine State.Within.trans ?_ ((State.setWord_within ..).mono (by rfl))
    exact (State.setWord_within ..).mono (by rfl)
  clear_value y1
  refine State.Within.ite ?_ ?_
  · exact State.Within.trans (by assumption) ((State.pageMessage_within ..).mono (by rfl))
  · assumption

theorem State.raise_within (s : State) (p : Page) (bit : Nat) : s.Within 0x4000020009 (s.raise p bit) := by
  unfold State.raise
  exact (State.setEvents_within ..).mono (by rfl)

theorem State.eccNote_within (s : State) (p : Page) (code : Nat) : s.Within 0x800000 (s.eccNote p code) := by
  unfold State.eccNote
  refine State.Within.ite ?_ ?_
  · refine State.Within.set_clasp ?_ (by rfl)
    exact State.Within.refl _
  · exact State.Within.refl _

theorem State.logErr_within (s : State) (p : Page) (code src addr detail : Nat) : s.Within 0x4000820009 (s.logErr p code src addr detail) := by
  unfold State.logErr
  extract_lets y1
  have h2 : s.Within 0x4000820009 y1 := by
    unfold y1
    exact (State.eccNote_within ..).mono (by rfl)
  clear_value y1
  refine State.Within.ite ?_ ?_
  · refine State.Within.trans ?_ ((State.raise_within ..).mono (by rfl))
    refine State.Within.trans ?_ ((State.setWord_within ..).mono (by rfl))
    refine State.Within.trans ?_ ((State.setWord_within ..).mono (by rfl))
    refine State.Within.trans ?_ ((State.setFld_within ..).mono (by rfl))
    refine State.Within.trans ?_ ((State.setFld_within ..).mono (by rfl))
    exact State.Within.trans (by assumption) ((State.setFld_within ..).mono (by rfl))
  · exact State.Within.trans (by assumption) ((State.setFld_within ..).mono (by rfl))

theorem State.refusalAddr_within (s : State) (p : Page) (lo hi : Nat) : s.Within 0x1 (s.refusalAddr p lo hi) := by
  unfold State.refusalAddr
  refine State.Within.trans ?_ ((State.setWord_within ..).mono (by rfl))
  exact (State.setWord_within ..).mono (by rfl)

theorem State.setSt_within (s : State) (p : Page) (st : Nat) : s.Within 0x4000020009 (s.setSt p st) := by
  unfold State.setSt
  refine State.Within.ite ?_ ?_
  · exact State.Within.refl _
  · refine State.Within.trans ?_ ((State.raise_within ..).mono (by rfl))
    exact (State.setFld_within ..).mono (by rfl)

theorem State.setStatus_within (s : State) (p : Page) (st detail : Nat) : s.Within 0x4000020009 (s.setStatus p st detail) := by
  unfold State.setStatus
  extract_lets y1
  have h2 : s.Within 0x4000020009 y1 := by
    unfold y1
    refine State.Within.trans ?_ ((State.setFld_within ..).mono (by rfl))
    exact (State.setFld_within ..).mono (by rfl)
  clear_value y1
  refine State.Within.ite ?_ ?_
  · exact State.Within.trans (by assumption) ((State.raise_within ..).mono (by rfl))
  · assumption

theorem State.setPending_within (s : State) (p : Page) : s.Within 0x1 (s.setPending p) := by
  unfold State.setPending
  exact (State.setFld_within ..).mono (by rfl)

theorem State.addDiscard_within (s : State) (p : Page) (n : Nat) : s.Within 0x8 (s.addDiscard p n) := by
  unfold State.addDiscard
  exact (State.bump_within ..).mono (by rfl)

/-! ## Machine/Parser.lean -/

theorem State.prsHit_within (s : State) (on : Bool) (cnt : Nat) (bit : Option Nat) : s.Within 0x4000020009 (s.prsHit on cnt bit) := by
  unfold State.prsHit
  refine State.Within.ite ?_ ?_
  · split
    · refine State.Within.trans ?_ ((State.raise_within ..).mono (by rfl))
      exact (State.bump_within ..).mono (by rfl)
    · exact (State.bump_within ..).mono (by rfl)
  · exact State.Within.refl _

theorem State.countFlags_within (s : State) (flags : Nat) : s.Within 0x4000020009 (s.countFlags flags) := by
  unfold State.countFlags
  refine State.Within.trans ?_ ((State.prsHit_within ..).mono (by rfl))
  refine State.Within.trans ?_ ((State.prsHit_within ..).mono (by rfl))
  refine State.Within.trans ?_ ((State.prsHit_within ..).mono (by rfl))
  refine State.Within.trans ?_ ((State.prsHit_within ..).mono (by rfl))
  exact (State.prsHit_within ..).mono (by rfl)

theorem State.parserDrop_within (s : State) (port pass profile flags : Nat) : s.Within 0x9 (s.parserDrop port pass profile flags) := by
  unfold State.parserDrop
  refine State.Within.trans ?_ ((State.setFld_within ..).mono (by rfl))
  refine State.Within.trans ?_ ((State.setFld_within ..).mono (by rfl))
  refine State.Within.trans ?_ ((State.setFld_within ..).mono (by rfl))
  refine State.Within.trans ?_ ((State.setFld_within ..).mono (by rfl))
  exact (State.bump_within ..).mono (by rfl)

/-! ## Machine/Classifier.lean -/

theorem State.walk_within (s : State) (b z t : Nat) (x : List Byte) (len : Option Nat) (bad : List Nat) :
    s.Within 0x4000820009 (s.walk b z t x len bad).2.2 := by
  unfold State.walk
  extract_lets y1 y2
  refine State.Within.itp2 ?_ ?_
  · dsimp only [y1]
    refine State.Within.ite ?_ ?_
    · refine State.Within.trans ?_ ((State.logErr_within ..).mono (by rfl))
      refine State.Within.trans ?_ ((State.setFld_within ..).mono (by rfl))
      refine State.Within.trans ?_ ((State.setFld_within ..).mono (by rfl))
      refine State.Within.trans ?_ ((State.setFld_within ..).mono (by rfl))
      refine State.Within.trans ?_ ((State.setFld_within ..).mono (by rfl))
      refine State.Within.trans ?_ ((State.setFld_within ..).mono (by rfl))
      refine State.Within.trans ?_ ((State.raise_within ..).mono (by rfl))
      exact (State.bump_within ..).mono (by rfl)
    · refine State.Within.trans ?_ ((State.setFld_within ..).mono (by rfl))
      refine State.Within.trans ?_ ((State.setFld_within ..).mono (by rfl))
      refine State.Within.trans ?_ ((State.setFld_within ..).mono (by rfl))
      refine State.Within.trans ?_ ((State.setFld_within ..).mono (by rfl))
      refine State.Within.trans ?_ ((State.setFld_within ..).mono (by rfl))
      refine State.Within.trans ?_ ((State.raise_within ..).mono (by rfl))
      exact (State.bump_within ..).mono (by rfl)
  · refine State.Within.itp2 ?_ ?_
    · dsimp only
      exact State.Within.refl _
    · split
      · dsimp only
        exact State.Within.refl _
      · dsimp only [y1]
        refine State.Within.ite ?_ ?_
        · refine State.Within.trans ?_ ((State.logErr_within ..).mono (by rfl))
          refine State.Within.trans ?_ ((State.setFld_within ..).mono (by rfl))
          refine State.Within.trans ?_ ((State.setFld_within ..).mono (by rfl))
          refine State.Within.trans ?_ ((State.setFld_within ..).mono (by rfl))
          refine State.Within.trans ?_ ((State.setFld_within ..).mono (by rfl))
          refine State.Within.trans ?_ ((State.setFld_within ..).mono (by rfl))
          refine State.Within.trans ?_ ((State.raise_within ..).mono (by rfl))
          exact (State.bump_within ..).mono (by rfl)
        · refine State.Within.trans ?_ ((State.setFld_within ..).mono (by rfl))
          refine State.Within.trans ?_ ((State.setFld_within ..).mono (by rfl))
          refine State.Within.trans ?_ ((State.setFld_within ..).mono (by rfl))
          refine State.Within.trans ?_ ((State.setFld_within ..).mono (by rfl))
          refine State.Within.trans ?_ ((State.setFld_within ..).mono (by rfl))
          refine State.Within.trans ?_ ((State.raise_within ..).mono (by rfl))
          exact (State.bump_within ..).mono (by rfl)
      · extract_lets y3 y4 y5
        have h6 : s.Within 0x4000820009 y3 := by
          unfold y3
          refine State.Within.set_counters ?_ (by rfl)
          exact State.Within.refl _
        clear_value y3
        have h7 : s.Within 0x4000820009 y4 := by
          unfold y4
          split
          · refine State.Within.set_counters ?_ (by rfl)
            assumption
          · assumption
        clear_value y4
        refine State.Within.itp2 ?_ ?_
        · split
          rename_i x8 e9
          have h10 : s.Within 0x4000820009 x8 := State.Within.of_pair2 e9 (by
            dsimp only [y1]
            refine State.Within.ite ?_ ?_
            · refine State.Within.trans ?_ ((State.logErr_within ..).mono (by rfl))
              refine State.Within.trans ?_ ((State.setFld_within ..).mono (by rfl))
              refine State.Within.trans ?_ ((State.setFld_within ..).mono (by rfl))
              refine State.Within.trans ?_ ((State.setFld_within ..).mono (by rfl))
              refine State.Within.trans ?_ ((State.setFld_within ..).mono (by rfl))
              refine State.Within.trans ?_ ((State.setFld_within ..).mono (by rfl))
              refine State.Within.trans ?_ ((State.raise_within ..).mono (by rfl))
              exact State.Within.trans (by assumption) ((State.bump_within ..).mono (by rfl))
            · refine State.Within.trans ?_ ((State.setFld_within ..).mono (by rfl))
              refine State.Within.trans ?_ ((State.setFld_within ..).mono (by rfl))
              refine State.Within.trans ?_ ((State.setFld_within ..).mono (by rfl))
              refine State.Within.trans ?_ ((State.setFld_within ..).mono (by rfl))
              refine State.Within.trans ?_ ((State.setFld_within ..).mono (by rfl))
              refine State.Within.trans ?_ ((State.raise_within ..).mono (by rfl))
              exact State.Within.trans (by assumption) ((State.bump_within ..).mono (by rfl)))
          dsimp only
          assumption
        · dsimp only
          assumption

theorem State.spreadEntry_within (s : State) (b t h : Nat) (x : List Byte) (bad : List Nat) :
    s.Within 0x4000820009 (s.spreadEntry b t h x bad).2 := by
  unfold State.spreadEntry
  extract_lets y1 y2
  refine State.Within.itp ?_ ?_
  · dsimp only
    exact (State.logErr_within ..).mono (by rfl)
  · dsimp only
    exact State.Within.refl _

theorem State.hostRingRead_within (s : State) (b : Nat) (x : List Byte) (bad : List Nat) : s.Within 0x4000820009 (s.hostRingRead b x bad).2 := by
  unfold State.hostRingRead
  split
  rename_i x1 e2
  have h3 : s.Within 0x4000820009 x1 := State.Within.of_pair e2 (by exact (State.spreadEntry_within ..).mono (by rfl))
  dsimp only
  assumption

theorem State.spread_within (s : State) (b t h : Nat) (x : List Byte) (bad : List Nat) : s.Within 0x4000820009 (s.spread b t h x bad).2 := by
  unfold State.spread
  split
  rename_i x1 e2
  have h3 : s.Within 0x4000820009 x1 := State.Within.of_pair e2 (by exact (State.spreadEntry_within ..).mono (by rfl))
  split
  · dsimp only
    assumption
  · refine State.Within.itp ?_ ?_
    · dsimp only
      assumption
    · dsimp only
      refine State.Within.trans ?_ ((State.raise_within ..).mono (by rfl))
      exact State.Within.trans (by assumption) ((State.bump_within ..).mono (by rfl))

theorem State.fibLookup_within (s : State) (b : Nat) (key x : List Byte) (bad : List Nat) : s.Within 0x4000820009 (s.fibLookup b key x bad).2 := by
  unfold State.fibLookup
  refine State.Within.itp ?_ ?_
  · dsimp only
    exact (State.bump_within ..).mono (by rfl)
  · extract_lets y1 y2 y3 y4 y5 y6 y7 y8
    have h9 : s.Within 0x4000820009 y1 := by
      unfold y1
      exact (State.bump_within ..).mono (by rfl)
    clear_value y1
    have h10 : s.Within 0x4000820009 y8 := by
      unfold y8
      exact State.Within.trans (by assumption) ((State.bump_within ..).mono (by rfl))
    clear_value y8
    split
    · dsimp only
      exact State.Within.trans (by assumption) ((State.logErr_within ..).mono (by rfl))
    · refine State.Within.itp ?_ ?_
      · dsimp only
        refine State.Within.trans ?_ ((State.raise_within ..).mono (by rfl))
        exact State.Within.trans (by assumption) ((State.bump_within ..).mono (by rfl))
      · refine State.Within.itp ?_ ?_
        · dsimp only
          refine State.Within.trans ?_ ((State.raise_within ..).mono (by rfl))
          exact State.Within.trans (by assumption) ((State.bump_within ..).mono (by rfl))
        · refine State.Within.itp ?_ ?_
          · dsimp only
            exact State.Within.trans (by assumption) ((State.logErr_within ..).mono (by rfl))
          · split
            · refine State.Within.itp ?_ ?_
              · dsimp only
                exact State.Within.trans (by assumption) ((State.bump_within ..).mono (by rfl))
              · dsimp only
                exact State.Within.trans (by assumption) ((State.bump_within ..).mono (by rfl))
            · extract_lets y11
              split
              rename_i x12 e13
              have h14 : s.Within 0x4000820009 x12 := State.Within.of_pair e13 (by
                split
                · dsimp only
                  assumption
                · dsimp only
                  assumption
                · exact State.Within.trans (by assumption) ((State.spread_within ..).mono (by rfl))
                · dsimp only
                  assumption)
              dsimp only
              assumption

theorem State.threeTrees_within (s : State) (b zone : Nat) (key : List Byte) (len : Option Nat) (bad : List Nat) :
    s.Within 0x4000820009 (s.threeTrees b zone key len bad).2.2 := by
  unfold State.threeTrees
  split
  rename_i x1 e2
  have h3 : s.Within 0x4000820009 x1 := State.Within.of_pair2 e2 (by exact (State.walk_within ..).mono (by rfl))
  extract_lets y4
  split
  rename_i x5 e6
  have h7 : s.Within 0x4000820009 x5 := State.Within.of_pair2 e6 (by exact State.Within.trans (by assumption) ((State.walk_within ..).mono (by rfl)))
  extract_lets y8
  split
  rename_i x9 e10
  have h11 : s.Within 0x4000820009 x9 := State.Within.of_pair2 e10 (by exact State.Within.trans (by assumption) ((State.walk_within ..).mono (by
    rfl)))
  dsimp only
  assumption

theorem State.disposition_within (s : State) (b zone : Nat) (v : Verdict) : s.Within 0x4000020009 (s.disposition b zone v).2 := by
  unfold State.disposition
  split
  · refine State.Within.itp ?_ ?_
    · dsimp only
      refine State.Within.trans ?_ ((State.raise_within ..).mono (by rfl))
      exact (State.bump_within ..).mono (by rfl)
    · refine State.Within.itp ?_ ?_
      · dsimp only
        exact (State.bump_within ..).mono (by rfl)
      · refine State.Within.itp ?_ ?_
        · dsimp only
          exact State.Within.refl _
        · dsimp only
          exact (State.bump_within ..).mono (by rfl)
  · refine State.Within.itp ?_ ?_
    · dsimp only
      exact (State.bump_within ..).mono (by rfl)
    · refine State.Within.itp ?_ ?_
      · dsimp only
        exact State.Within.refl _
      · dsimp only
        exact (State.bump_within ..).mono (by rfl)

theorem State.forward_within (s : State) (b : Nat) (key x : List Byte) (v : Verdict) (bad : List Nat) :
    s.Within 0x4000820009 (s.forward b key x v bad).2 := by
  unfold State.forward
  split
  · dsimp only
    exact State.Within.refl _
  · split
    · dsimp only
      exact State.Within.refl _
    · exact (State.spread_within ..).mono (by rfl)
    · exact (State.fibLookup_within ..).mono (by rfl)

theorem State.pruneSelf_within (s : State) (b port : Nat) (dests : List Nat) : s.Within 0x8 (s.pruneSelf b port dests).2 := by
  unfold State.pruneSelf
  refine State.Within.itp ?_ ?_
  · dsimp only
    exact (State.bump_within ..).mono (by rfl)
  · dsimp only
    exact State.Within.refl _

theorem State.efw_within (s : State) (b zone : Nat) (key : List Byte) (v : Verdict) (dests : List Nat) (len : Option Nat) (bad : List Nat) :
    s.Within 0x4000820009 (s.efw b zone key v dests len bad).2.2.2 := by
  unfold State.efw
  refine State.Within.itp3 ?_ ?_
  · dsimp only
    exact State.Within.refl _
  · split
    rename_i x1 e2
    have h3 : s.Within 0x4000820009 x1 := State.Within.of_pair2 e2 (by exact (State.walk_within ..).mono (by rfl))
    extract_lets y4 y5 y6
    refine State.Within.itp3 ?_ ?_
    · dsimp only
      exact State.Within.trans (by assumption) ((State.bump_within ..).mono (by rfl))
    · dsimp only
      assumption

theorem State.classify_within (s : State) (k : Pass) (len : Option Nat) (bad : List Nat) : s.Within 0x4000820009 (s.classify k len bad).2.2 := by
  unfold State.classify
  extract_lets y1 y2 y3 y4
  have h5 : s.Within 0x4000820009 y4 := by
    unfold y4
    exact (State.bump_within ..).mono (by rfl)
  clear_value y4
  split
  rename_i x6 e7
  have h8 : s.Within 0x4000820009 x6 := State.Within.of_pair2 e7 (by exact State.Within.trans (by assumption) ((State.threeTrees_within ..).mono (by
    rfl)))
  extract_lets y9 y10 y11 y12
  have h13 : s.Within 0x4000820009 y11 := by
    unfold y11
    split
    · refine State.Within.ite ?_ ?_
      · extract_lets y14
        have h15 : s.Within 0x4000820009 y14 := by
          unfold y14
          refine State.Within.set_counters ?_ (by rfl)
          assumption
        clear_value y14
        split
        · refine State.Within.set_counters ?_ (by rfl)
          assumption
        · assumption
      · assumption
    · assumption
  clear_value y11
  split
  rename_i x16 e17
  have h18 : s.Within 0x4000820009 x16 := State.Within.of_pair e17 (by
    refine State.Within.itp ?_ ?_
    · dsimp only
      assumption
    · exact State.Within.trans (by assumption) ((State.disposition_within ..).mono (by rfl)))
  split
  rename_i x19 e20
  have h21 : s.Within 0x4000820009 x19 := State.Within.of_pair e20 (by
    split
    · dsimp only
      assumption
    · refine State.Within.itp ?_ ?_
      · dsimp only
        assumption
      · exact State.Within.trans (by assumption) ((State.forward_within ..).mono (by rfl)))
  extract_lets y22
  split
  rename_i x23 e24
  have h25 : s.Within 0x4000820009 x23 := State.Within.of_pair e24 (by
    refine State.Within.itp ?_ ?_
    · dsimp only
      assumption
    · refine State.Within.itp ?_ ?_
      · dsimp only
        assumption
      · exact State.Within.trans (by assumption) ((State.pruneSelf_within ..).mono (by rfl)))
  split
  rename_i x26 e27
  have h28 : s.Within 0x4000820009 x26 := State.Within.of_pair3 e27 (by
    refine State.Within.itp3 ?_ ?_
    · dsimp only
      assumption
    · refine State.Within.itp3 ?_ ?_
      · dsimp only
        assumption
      · exact State.Within.trans (by assumption) ((State.efw_within ..).mono (by rfl)))
  extract_lets y29 y30 y31 y32 y33
  have h34 : s.Within 0x4000820009 y31 := by
    unfold y31
    exact State.Within.trans (by assumption) ((State.prsHit_within ..).mono (by rfl))
  clear_value y31
  split
  rename_i x35 e36
  have h37 : s.Within 0x4000820009 x35 := State.Within.of_pair e36 (by
    split
    · dsimp only
      assumption
    · refine State.Within.itp ?_ ?_
      · exact State.Within.trans (by assumption) ((State.hostRingRead_within ..).mono (by rfl))
      · dsimp only
        assumption)
  extract_lets y38 y39 y40 y41 y42 y43 y44 y45
  have h46 : s.Within 0x4000820009 y38 := by
    unfold y38
    refine State.Within.ite ?_ ?_
    · refine State.Within.trans ?_ ((State.raise_within ..).mono (by rfl))
      exact State.Within.trans (by assumption) ((State.bump_within ..).mono (by rfl))
    · assumption
  clear_value y38
  have h47 : s.Within 0x4000820009 y43 := by
    unfold y43
    refine State.Within.ite ?_ ?_
    · exact State.Within.trans (by assumption) ((State.bump_within ..).mono (by rfl))
    · assumption
  clear_value y43
  dsimp only
  assumption

/-! ## Machine/Buffer.lean -/

theorem State.mapDp_within (s : State) (f : DataPath → DataPath) : s.Within 0x10000 (s.mapDp f) := by
  unfold State.mapDp
  refine State.Within.set_dp ?_ (by rfl)
  exact State.Within.refl _

theorem State.setFrame_within (s : State) (i : Nat) (f : Frame) : s.Within 0x10000 (s.setFrame i f) := by
  unfold State.setFrame
  exact (State.mapDp_within ..).mono (by rfl)

theorem State.mapQueue_within (s : State) (q : Nat) (f : Queue → Queue) : s.Within 0x10000 (s.mapQueue q f) := by
  unfold State.mapQueue
  exact (State.mapDp_within ..).mono (by rfl)

theorem State.nextBank_within (s : State) (i : Nat) : s.Within 0x2000000000 (s.nextBank i).2 := by
  unfold State.nextBank
  extract_lets y1 y2
  split
  rename_i x3 e4
  have h5 : s.Within 0x2000000000 x3 := State.Within.of_pair e4 (by
    split
    · dsimp only
      exact State.Within.refl _
    · refine State.Within.itp ?_ ?_
      · dsimp only
        exact State.Within.refl _
      · refine State.Within.itp ?_ ?_
        · dsimp only
          exact State.Within.refl _
        · exact (State.draw_within ..).mono (by rfl))
  dsimp only
  assumption

theorem State.chainCell_within (s : State) (i : Nat) : s.Within 0x6000030009 (s.chainCell i) := by
  unfold State.chainCell
  refine State.Within.ite ?_ ?_
  · exact State.Within.refl _
  · extract_lets y1
    split
    rename_i x2 e3
    have h4 : s.Within 0x6000030009 x2 := State.Within.of_pair e3 (by exact (State.nextBank_within ..).mono (by rfl))
    extract_lets y5
    split
    rename_i x6 e7
    have h8 : s.Within 0x6000030009 x6 := State.Within.of_pair e7 (by exact State.Within.trans (by assumption) ((State.draw_within ..).mono (by rfl)))
    extract_lets y9 y10
    have h11 : s.Within 0x6000030009 y10 := by
      unfold y10
      exact State.Within.trans (by assumption) ((State.setFrame_within ..).mono (by rfl))
    clear_value y10
    refine State.Within.ite ?_ ?_
    · exact State.Within.trans (by assumption) ((State.raise_within ..).mono (by rfl))
    · assumption

theorem State.storeFrame_within (s : State) (i : Nat) (f : Frame) (n : Nat) : s.Within 0x6000030009 (s.storeFrame i f n) := by
  unfold State.storeFrame
  extract_lets y1 y2
  have h3 : s.Within 0x6000030009 y2 := by
    unfold y2
    split
    · exact (State.mapDp_within ..).mono (by rfl)
    · exact State.Within.refl _
  clear_value y2
  refine State.Within.each ?_ (fun u a => ?_)
  · exact State.Within.trans (by assumption) ((State.setFrame_within ..).mono (by rfl))
  · exact (State.chainCell_within ..).mono (by rfl)

theorem State.freeHeadroom_within (s : State) (f : Frame) : s.Within 0x10000 (s.freeHeadroom f) := by
  unfold State.freeHeadroom
  split
  · exact State.Within.refl _
  · exact (State.mapDp_within ..).mono (by rfl)

theorem State.freeFrame_within (s : State) (i : Nat) : s.Within 0x10000 (s.freeFrame i) := by
  unfold State.freeFrame
  extract_lets y1 y2
  have h3 : s.Within 0x10000 y2 := by
    unfold y2
    exact (State.freeHeadroom_within ..).mono (by rfl)
  clear_value y2
  refine State.Within.ite ?_ ?_
  · exact State.Within.trans (by assumption) ((State.setFrame_within ..).mono (by rfl))
  · exact State.Within.trans (by assumption) ((State.setFrame_within ..).mono (by rfl))

theorem State.dropRef_within (s : State) (c : Copy) : s.Within 0x10000 (s.dropRef c) := by
  unfold State.dropRef
  extract_lets y1 y2
  have h3 : s.Within 0x10000 y2 := by
    unfold y2
    exact (State.setFrame_within ..).mono (by rfl)
  clear_value y2
  refine State.Within.ite ?_ ?_
  · exact State.Within.refl _
  · refine State.Within.ite ?_ ?_
    · exact State.Within.trans (by assumption) ((State.freeFrame_within ..).mono (by rfl))
    · assumption

theorem State.releaseCharge_within (s : State) (c : Copy) : s.Within 0x10000 (s.releaseCharge c) := by
  unfold State.releaseCharge
  exact (State.mapQueue_within ..).mono (by rfl)

theorem State.endStall_within (s : State) (n : Nat) : s.Within 0x10000 (s.endStall n) := by
  unfold State.endStall
  refine State.Within.ite ?_ ?_
  · exact (State.mapDp_within ..).mono (by rfl)
  · exact State.Within.refl _

theorem State.unlink_within (s : State) (c : Copy) : s.Within 0x10000 (s.unlink c) := by
  unfold State.unlink
  extract_lets y1
  have h2 : s.Within 0x10000 y1 := by
    unfold y1
    exact (State.mapQueue_within ..).mono (by rfl)
  clear_value y1
  split
  · exact State.Within.trans (by assumption) ((State.endStall_within ..).mono (by rfl))
  · assumption

theorem State.recircLeave_within (s : State) (bank : Nat) : s.Within 0x1 (s.recircLeave bank) := by
  unfold State.recircLeave
  extract_lets y1
  exact (State.setFld_within ..).mono (by rfl)

theorem State.recircJoin_within (s : State) (bank : Nat) : s.Within 0x1 (s.recircJoin bank) := by
  unfold State.recircJoin
  extract_lets y1
  exact (State.setFld_within ..).mono (by rfl)

theorem State.discardCopy_within (s : State) (c : Copy) : s.Within 0x10001 (s.discardCopy c) := by
  unfold State.discardCopy
  extract_lets y1 y2 y3
  have h4 : s.Within 0x10001 y1 := by
    unfold y1
    refine State.Within.trans ?_ ((State.releaseCharge_within ..).mono (by rfl))
    exact (State.unlink_within ..).mono (by rfl)
  clear_value y1
  have h5 : s.Within 0x10001 y2 := by
    unfold y2
    refine State.Within.ite ?_ ?_
    · exact State.Within.trans (by assumption) ((State.recircLeave_within ..).mono (by rfl))
    · assumption
  clear_value y2
  have h6 : s.Within 0x10001 y3 := by
    unfold y3
    exact State.Within.trans (by assumption) ((State.mapDp_within ..).mono (by rfl))
  clear_value y3
  exact State.Within.trans (by assumption) ((State.dropRef_within ..).mono (by rfl))

theorem State.red_within (s : State) (f : Frame) (r : Pass) (q colour : Nat) : s.Within 0x2000000000 (s.red f r q colour).2 := by
  unfold State.red
  split
  rename_i x1 e2
  have h3 : s.Within 0x2000000000 x1 := State.Within.of_pair e2 (by exact (State.draw_within ..).mono (by rfl))
  refine State.Within.itp ?_ ?_
  · refine State.Within.itp ?_ ?_
    · refine State.Within.itp ?_ ?_
      · dsimp only
        assumption
      · dsimp only
        assumption
    · dsimp only
      assumption
  · dsimp only
    assumption

theorem State.enqueue_within (s : State) (r : Pass) (kind : CopyKind) (p q charge : Nat) (mark : Bool) :
    s.Within 0x4000030009 (s.enqueue r kind p q charge mark) := by
  unfold State.enqueue
  extract_lets y1 y2 y3 y4 y5 y6
  have h7 : s.Within 0x4000030009 y3 := by
    unfold y3
    exact (State.mapQueue_within ..).mono (by rfl)
  clear_value y3
  have h8 : s.Within 0x4000030009 y4 := by
    unfold y4
    refine State.Within.ite ?_ ?_
    · exact State.Within.trans (by assumption) ((State.raise_within ..).mono (by rfl))
    · assumption
  clear_value y4
  have h9 : s.Within 0x4000030009 y5 := by
    unfold y5
    exact State.Within.trans (by assumption) ((State.setFrame_within ..).mono (by rfl))
  clear_value y5
  have h10 : s.Within 0x4000030009 y6 := by
    unfold y6
    refine State.Within.ite ?_ ?_
    · exact State.Within.trans (by assumption) ((State.recircJoin_within ..).mono (by rfl))
    · assumption
  clear_value y6
  refine State.Within.trans ?_ ((State.bumpTab_within ..).mono (by rfl))
  exact State.Within.trans (by assumption) ((State.bump_within ..).mono (by rfl))

theorem State.admitCopy_within (s : State) (r : Pass) (kind : CopyKind) (p : Nat) : s.Within 0x6000030009 (s.admitCopy r kind p).2 := by
  unfold State.admitCopy
  extract_lets y1 y2 y3
  refine State.Within.itp ?_ ?_
  · dsimp only
    exact (State.bump_within ..).mono (by rfl)
  · refine State.Within.itp ?_ ?_
    · dsimp only
      exact (State.bump_within ..).mono (by rfl)
    · refine State.Within.itp ?_ ?_
      · dsimp only
        refine State.Within.trans ?_ ((State.bumpTab_within ..).mono (by rfl))
        refine State.Within.trans ?_ ((State.bumpTab_within ..).mono (by rfl))
        exact (State.bump_within ..).mono (by rfl)
      · refine State.Within.itp ?_ ?_
        · dsimp only
          exact (State.enqueue_within ..).mono (by rfl)
        · split
          rename_i x4 e5
          have h6 : s.Within 0x6000030009 x4 := State.Within.of_pair e5 (by exact (State.red_within ..).mono (by rfl))
          split
          · dsimp only
            exact State.Within.trans (by assumption) ((State.enqueue_within ..).mono (by rfl))
          · dsimp only
            refine State.Within.trans ?_ ((State.enqueue_within ..).mono (by rfl))
            refine State.Within.trans ?_ ((State.bumpTab_within ..).mono (by rfl))
            refine State.Within.trans ?_ ((State.bumpTab_within ..).mono (by rfl))
            exact State.Within.trans (by assumption) ((State.bump_within ..).mono (by rfl))
          · dsimp only
            refine State.Within.trans ?_ ((State.bumpTab_within ..).mono (by rfl))
            refine State.Within.trans ?_ ((State.bumpTab_within ..).mono (by rfl))
            exact State.Within.trans (by assumption) ((State.bump_within ..).mono (by rfl))

theorem State.admitLossless_within (s : State) (r : Pass) (cls : Nat) : s.Within 0x4000030009 (s.admitLossless r cls).2 := by
  unfold State.admitLossless
  extract_lets y1 y2 y3 y4 y5 y6 y7 y8
  have h9 : s.Within 0x4000030009 y3 := by
    unfold y3
    refine State.Within.each ?_ (fun u a => ?_)
    · exact State.Within.refl _
    · exact (State.bump_within ..).mono (by rfl)
  clear_value y3
  have h10 : s.Within 0x4000030009 y6 := by
    unfold y6
    exact State.Within.trans (by assumption) ((State.setFrame_within ..).mono (by rfl))
  clear_value y6
  have h11 : s.Within 0x4000030009 y7 := by
    unfold y7
    exact State.Within.trans (by assumption) ((State.mapDp_within ..).mono (by rfl))
  clear_value y7
  have h12 : s.Within 0x4000030009 y8 := by
    unfold y8
    exact State.Within.trans (by assumption) ((State.bump_within ..).mono (by rfl))
  clear_value y8
  refine State.Within.itp ?_ ?_
  · refine State.Within.foldp ?_ (fun u a => ?_)
    · dsimp only
      assumption
    · split
      dsimp only
      rename_i u13
      refine State.Within.itp ?_ ?_
      · dsimp only
        exact (State.bump_within ..).mono (by rfl)
      · dsimp only
        exact (State.enqueue_within ..).mono (by rfl)
  · refine State.Within.foldp ?_ (fun u a => ?_)
    · dsimp only
      assumption
    · split
      dsimp only
      rename_i u14
      refine State.Within.itp ?_ ?_
      · dsimp only
        exact (State.bump_within ..).mono (by rfl)
      · dsimp only
        exact (State.enqueue_within ..).mono (by rfl)

theorem State.admitPlain_within (s : State) (r : Pass) : s.Within 0x6000030009 (s.admitPlain r).2 := by
  unfold State.admitPlain
  refine State.Within.foldp ?_ (fun u a => ?_)
  · dsimp only
    exact State.Within.refl _
  · split
    dsimp only
    rename_i u1
    exact (State.admitCopy_within ..).mono (by rfl)

theorem State.mirrorCopy_within (s : State) (r : Pass) (m : Nat) : s.Within 0x6000030009 (s.mirrorCopy r m) := by
  unfold State.mirrorCopy
  extract_lets y1 y2
  refine State.Within.ite ?_ ?_
  · exact (State.bump_within ..).mono (by rfl)
  · refine State.Within.ite ?_ ?_
    · refine State.Within.trans ?_ ((State.raise_within ..).mono (by rfl))
      exact (State.bump_within ..).mono (by rfl)
    · refine State.Within.ite ?_ ?_
      · refine State.Within.trans ?_ ((State.raise_within ..).mono (by rfl))
        exact (State.bump_within ..).mono (by rfl)
      · split
        rename_i x3 e4
        have h5 : s.Within 0x6000030009 x3 := State.Within.of_pair e4 (by exact (State.admitCopy_within ..).mono (by rfl))
        exact State.Within.trans (by assumption) ((State.bump_within ..).mono (by rfl))

theorem State.loupeReload_within (s : State) : s.Within 0x2000000000 (s.loupeReload).2 := by
  unfold State.loupeReload
  extract_lets y1
  refine State.Within.itp ?_ ?_
  · dsimp only
    exact State.Within.refl _
  · split
    rename_i x2 e3
    have h4 : s.Within 0x2000000000 x2 := State.Within.of_pair e3 (by exact (State.draw_within ..).mono (by rfl))
    dsimp only
    assumption

theorem State.sampleCopy_within (s : State) (r : Pass) : s.Within 0x6000030009 (s.sampleCopy r) := by
  unfold State.sampleCopy
  extract_lets y1 y2
  refine State.Within.ite ?_ ?_
  · refine State.Within.trans ?_ ((State.raise_within ..).mono (by rfl))
    exact (State.bump_within ..).mono (by rfl)
  · split
    rename_i x3 e4
    have h5 : s.Within 0x6000030009 x3 := State.Within.of_pair e4 (by exact (State.admitCopy_within ..).mono (by rfl))
    refine State.Within.ite ?_ ?_
    · assumption
    · exact State.Within.trans (by assumption) ((State.bump_within ..).mono (by rfl))

theorem State.loupe_within (s : State) (r : Pass) : s.Within 0x6000030009 (s.loupe r) := by
  unfold State.loupe
  extract_lets y1 y2
  have h3 : s.Within 0x6000030009 y1 := by
    unfold y1
    exact (State.bump_within ..).mono (by rfl)
  clear_value y1
  refine State.Within.ite ?_ ?_
  · assumption
  · refine State.Within.ite ?_ ?_
    · split
      rename_i x4 e5
      have h6 : s.Within 0x6000030009 x4 := State.Within.of_pair e5 (by exact State.Within.trans (by assumption) ((State.loupeReload_within ..).mono
        (by rfl)))
      refine State.Within.trans ?_ ((State.sampleCopy_within ..).mono (by rfl))
      refine State.Within.trans ?_ ((State.bump_within ..).mono (by rfl))
      exact State.Within.trans (by assumption) ((State.setFld_within ..).mono (by rfl))
    · exact State.Within.trans (by assumption) ((State.setFld_within ..).mono (by rfl))

theorem State.admitted_within (s : State) (r : Pass) : s.Within 0x6000030009 (s.admitted r) := by
  unfold State.admitted
  extract_lets y1 y2 y3
  have h4 : s.Within 0x6000030009 y3 := by
    unfold y3
    exact (State.setFrame_within ..).mono (by rfl)
  clear_value y3
  split
  rename_i x5 e6
  have h7 : s.Within 0x6000030009 x5 := State.Within.of_pair e6 (by
    clear_value y2
    clear_value y1
    split
    · exact State.Within.trans (by assumption) ((State.admitLossless_within ..).mono (by rfl))
    · exact State.Within.trans (by assumption) ((State.admitPlain_within ..).mono (by rfl)))
  extract_lets y8 y9 y10
  have h11 : s.Within 0x6000030009 y8 := by
    unfold y8
    refine State.Within.each ?_ (fun u a => ?_)
    · assumption
    · exact (State.mirrorCopy_within ..).mono (by rfl)
  clear_value y8
  have h12 : s.Within 0x6000030009 y9 := by
    unfold y9
    refine State.Within.each ?_ (fun u a => ?_)
    · assumption
    · refine State.Within.each ?_ (fun u a => ?_)
      · exact State.Within.refl _
      · exact (State.mirrorCopy_within ..).mono (by rfl)
  clear_value y9
  have h13 : s.Within 0x6000030009 y10 := by
    unfold y10
    refine State.Within.ite ?_ ?_
    · exact State.Within.trans (by assumption) ((State.loupe_within ..).mono (by rfl))
    · assumption
  clear_value y10
  refine State.Within.ite ?_ ?_
  · exact State.Within.trans (by assumption) ((State.freeFrame_within ..).mono (by rfl))
  · assumption

/-! ## Machine/Scheduler.lean -/

theorem State.mapSvc_within (s : State) (n : Nat) (f : SvcNode → SvcNode) : s.Within 0x10000 (s.mapSvc n f) := by
  unfold State.mapSvc
  exact (State.mapDp_within ..).mono (by rfl)

theorem State.mapPortNode_within (s : State) (p : Nat) (f : PortNode → PortNode) : s.Within 0x10000 (s.mapPortNode p f) := by
  unfold State.mapPortNode
  exact (State.mapDp_within ..).mono (by rfl)

theorem State.dropHead_within (s : State) (c : Copy) : s.Within 0x10001 (s.dropHead c) := by
  unfold State.dropHead
  exact (State.discardCopy_within ..).mono (by rfl)

theorem State.dropOversize_within (s : State) (p n : Nat) : s.Within 0x4000030009 (s.dropOversize p n) := by
  induction n generalizing s with
  | zero => exact State.Within.refl s
  | succ n ih =>
    unfold State.dropOversize
    dsimp only
    split
    · exact State.Within.refl s
    · refine State.Within.trans ?_ (ih _)
      refine State.Within.trans ?_ ((State.raise_within ..).mono (by rfl))
      refine State.Within.trans ?_ ((State.bump_within ..).mono (by rfl))
      exact (State.dropHead_within ..).mono (by rfl)

theorem State.mapEgress_within (s : State) (p : Nat) (f : Egress → Egress) : s.Within 0x10000 (s.mapEgress p f) := by
  unfold State.mapEgress
  exact (State.mapDp_within ..).mono (by rfl)

theorem State.notePn_within (s : State) (p an sc : Nat) (rx : Bool) : s.Within 0x1 (s.notePn p an sc rx) := by
  unfold State.notePn
  refine State.Within.trans ?_ ((State.setFld_within ..).mono (by rfl))
  refine State.Within.trans ?_ ((State.setFld_within ..).mono (by rfl))
  refine State.Within.trans ?_ ((State.setFld_within ..).mono (by rfl))
  exact (State.setFld_within ..).mono (by rfl)

theorem State.setNextPn_within (s : State) (table p an sc e v : Nat) (rx : Bool) : s.Within 0x400002000b (s.setNextPn table p an sc e v rx) := by
  unfold State.setNextPn
  extract_lets y1 y2 y3 y4
  have h5 : s.Within 0x400002000b y3 := by
    unfold y3
    refine State.Within.trans ?_ ((State.setTab_within ..).mono (by rfl))
    exact (State.setTab_within ..).mono (by rfl)
  clear_value y3
  have h6 : s.Within 0x400002000b y4 := by
    unfold y4
    refine State.Within.ite ?_ ?_
    · refine State.Within.trans ?_ ((State.raise_within ..).mono (by rfl))
      exact State.Within.trans (by assumption) ((State.notePn_within ..).mono (by rfl))
    · assumption
  clear_value y4
  refine State.Within.ite ?_ ?_
  · refine State.Within.trans ?_ ((State.raise_within ..).mono (by rfl))
    refine State.Within.trans ?_ ((State.notePn_within ..).mono (by rfl))
    exact State.Within.trans (by assumption) ((State.setTabF_within ..).mono (by rfl))
  · assumption

theorem State.assignPn_within (s : State) (c : Copy) : s.Within 0x400003000b (s.assignPn c).2 := by
  unfold State.assignPn
  refine State.Within.itp ?_ ?_
  · dsimp only
    exact State.Within.refl _
  · extract_lets y1 y2 y3 y4 y5
    have h6 : s.Within 0x400003000b y4 := by
      unfold y4
      exact (State.setNextPn_within ..).mono (by rfl)
    clear_value y4
    have h7 : s.Within 0x400003000b y5 := by
      unfold y5
      refine State.Within.ite ?_ ?_
      · exact State.Within.trans (by assumption) ((State.setTabF_within ..).mono (by rfl))
      · assumption
    clear_value y5
    refine State.Within.itp ?_ ?_
    · dsimp only
      refine State.Within.trans ?_ ((State.bumpTab_within ..).mono (by rfl))
      exact (State.dropHead_within ..).mono (by rfl)
    · refine State.Within.itp ?_ ?_
      · dsimp only
        refine State.Within.trans ?_ ((State.raise_within ..).mono (by rfl))
        refine State.Within.trans ?_ ((State.notePn_within ..).mono (by rfl))
        refine State.Within.trans ?_ ((State.setTabF_within ..).mono (by rfl))
        refine State.Within.trans ?_ ((State.bumpTab_within ..).mono (by rfl))
        exact (State.dropHead_within ..).mono (by rfl)
      · dsimp only
        assumption

theorem State.keepSelection_within (s : State) (p k : Nat) (c : Copy) (ms : List Member) (gms : Option (List Member)) :
    s.Within 0x10000 (s.keepSelection p k c ms gms) := by
  unfold State.keepSelection
  extract_lets y1
  have h2 : s.Within 0x10000 y1 := by
    unfold y1
    exact (State.mapQueue_within ..).mono (by rfl)
  clear_value y1
  exact State.Within.trans (by assumption) ((State.mapEgress_within ..).mono (by rfl))

theorem State.pickCopy_within (s : State) (p ts n : Nat) : s.Within 0x400003000b (s.pickCopy p ts n) := by
  induction n generalizing s with
  | zero => exact State.Within.refl s
  | succ n ih =>
    unfold State.pickCopy
    split
    · exact State.Within.refl s
    · split
      · rename_i e
        exact (State.Within.of_pair e ((State.assignPn_within ..).mono (by rfl))).trans ((State.keepSelection_within ..).mono (by rfl))
      · rename_i e
        exact (State.Within.of_pair e ((State.assignPn_within ..).mono (by rfl))).trans (ih _)

theorem State.schedDecision_within (s : State) (p wait : Nat) : s.Within 0x400003000b (s.schedDecision p wait) := by
  unfold State.schedDecision
  refine State.Within.ite ?_ ?_
  · exact State.Within.refl _
  · extract_lets y1 y2
    have h3 : s.Within 0x400003000b y2 := by
      unfold y2
      exact (State.dropOversize_within ..).mono (by rfl)
    clear_value y2
    exact State.Within.trans (by assumption) ((State.pickCopy_within ..).mono (by rfl))

theorem State.startDeficits_within (s : State) (c : Copy) (len : Nat) : s.Within 0x10000 (s.startDeficits c len) := by
  unfold State.startDeficits
  extract_lets y1 y2
  have h3 : s.Within 0x10000 y2 := by
    unfold y2
    refine State.Within.each ?_ (fun u a => ?_)
    · exact State.Within.refl _
    · exact (State.mapQueue_within ..).mono (by rfl)
  clear_value y2
  split
  · exact State.Within.refl _
  · extract_lets y4 y5 y6
    have h7 : s.Within 0x10000 y4 := by
      unfold y4
      exact State.Within.trans (by assumption) ((State.mapSvc_within ..).mono (by rfl))
    clear_value y4
    have h8 : s.Within 0x10000 y5 := by
      unfold y5
      exact State.Within.trans (by assumption) ((State.mapQueue_within ..).mono (by rfl))
    clear_value y5
    have h9 : s.Within 0x10000 y6 := by
      unfold y6
      refine State.Within.each ?_ (fun u a => ?_)
      · assumption
      · exact (State.mapSvc_within ..).mono (by rfl)
    clear_value y6
    split
    · assumption
    · extract_lets y10
      have h11 : s.Within 0x10000 y10 := by
        unfold y10
        exact State.Within.trans (by assumption) ((State.mapPortNode_within ..).mono (by rfl))
      clear_value y10
      exact State.Within.trans (by assumption) ((State.mapSvc_within ..).mono (by rfl))

theorem State.chargeShapers_within (s : State) (c : Copy) (d : Int) : s.Within 0x10000 (s.chargeShapers c d) := by
  unfold State.chargeShapers
  extract_lets y1 y2 y3
  have h4 : s.Within 0x10000 y2 := by
    unfold y2
    refine State.Within.ite ?_ ?_
    · exact State.Within.refl _
    · exact (State.mapQueue_within ..).mono (by rfl)
  have h5 : s.Within 0x10000 y3 := by
    unfold y3
    split
    · assumption
    · split
      · exact State.Within.trans (by assumption) ((State.mapSvc_within ..).mono (by rfl))
      · exact State.Within.trans (by assumption) ((State.mapSvc_within ..).mono (by rfl))
      · assumption
  refine State.Within.ite ?_ ?_
  · exact State.Within.trans (by assumption) ((State.mapPortNode_within ..).mono (by rfl))
  · assumption

theorem State.endCharges_within (s : State) (c : Copy) (charged len : Nat) (grouped : Bool) :
    s.Within 0x10000 (s.endCharges c charged len grouped) := by
  unfold State.endCharges
  refine State.Within.ite ?_ ?_
  · exact State.Within.refl _
  · extract_lets y1 y2
    have h3 : s.Within 0x10000 y1 := by
      unfold y1
      exact (State.chargeShapers_within ..).mono (by rfl)
    clear_value y1
    have h4 : s.Within 0x10000 y2 := by
      unfold y2
      exact State.Within.trans (by assumption) ((State.mapQueue_within ..).mono (by rfl))
    clear_value y2
    split
    · refine State.Within.ite ?_ ?_
      · exact State.Within.trans (by assumption) ((State.mapSvc_within ..).mono (by rfl))
      · assumption
    · assumption

theorem State.creditTick_within (s : State) (n : Nat) : s.Within 0x10000 (s.creditTick n) := by
  unfold State.creditTick
  extract_lets y1
  refine State.Within.ite ?_ ?_
  · exact State.Within.refl _
  · refine State.Within.ite ?_ ?_
    · exact (State.mapSvc_within ..).mono (by rfl)
    · refine State.Within.ite ?_ ?_
      · exact (State.mapSvc_within ..).mono (by rfl)
      · exact (State.mapSvc_within ..).mono (by rfl)

theorem State.creditIdle_within (s : State) (n : Nat) : s.Within 0x10000 (s.creditIdle n) := by
  unfold State.creditIdle
  refine State.Within.ite ?_ ?_
  · exact (State.mapSvc_within ..).mono (by rfl)
  · exact State.Within.refl _

theorem State.creditsTick_within (s : State) : s.Within 0x10000 s.creditsTick := by
  unfold State.creditsTick
  refine State.Within.each ?_ (fun u a => ?_)
  · exact State.Within.refl _
  · exact (State.creditTick_within ..).mono (by rfl)

theorem State.shapersLinkLost_within (s : State) (p : Nat) : s.Within 0x10000 (s.shapersLinkLost p) := by
  unfold State.shapersLinkLost
  extract_lets y1 y2 y3
  have h4 : s.Within 0x10000 y1 := by
    unfold y1
    refine State.Within.each ?_ (fun u a => ?_)
    · exact State.Within.refl _
    · extract_lets y5
      split
      · exact (State.mapSvc_within ..).mono (by rfl)
      · exact (State.mapSvc_within ..).mono (by rfl)
      · exact State.Within.refl _
  clear_value y1
  have h6 : s.Within 0x10000 y3 := by
    unfold y3
    refine State.Within.each ?_ (fun u a => ?_)
    · assumption
    · exact (State.mapQueue_within ..).mono (by rfl)
  clear_value y3
  exact State.Within.trans (by assumption) ((State.mapPortNode_within ..).mono (by rfl))

/-! ## Machine/Clocks.lean -/

theorem State.domTick_within (s : State) (d : Nat) : s.Within 0x80000 (s.domTick d) := by
  unfold State.domTick
  extract_lets y1 y2
  refine State.Within.set_dom ?_ (by rfl)
  exact State.Within.refl _

/-! ## Machine/Fabric.lean -/

theorem State.pruneCopies_within (s : State) (r : Pass) (cnt : Nat) (bad : Nat → Bool) : s.Within 0x8 (s.pruneCopies r cnt bad).2 := by
  unfold State.pruneCopies
  extract_lets y1
  dsimp only
  refine State.Within.ite ?_ ?_
  · exact State.Within.refl _
  · exact (State.bump_within ..).mono (by rfl)

theorem State.fabricRoutes_within (s : State) (f : Frame) (r : Pass) (bad : List Nat) : s.Within 0x4000820009 (s.fabricRoutes f r bad).2 := by
  unfold State.fabricRoutes
  extract_lets y1 y2 y3 y4 y5
  have h6 : s.Within 0x4000820009 y4 := by
    unfold y4
    refine State.Within.ite ?_ ?_
    · exact (State.raise_within ..).mono (by rfl)
    · exact State.Within.refl _
  clear_value y4
  refine State.Within.itp ?_ ?_
  · dsimp only
    refine State.Within.trans ?_ ((State.raise_within ..).mono (by rfl))
    exact (State.bump_within ..).mono (by rfl)
  · split
    rename_i x7 e8
    have h9 : s.Within 0x4000820009 x7 := State.Within.of_pair e8 (by exact State.Within.trans (by assumption) ((State.pruneCopies_within ..).mono
      (by rfl)))
    split
    rename_i x10 e11
    have h12 : s.Within 0x4000820009 x10 := State.Within.of_pair e11 (by exact State.Within.trans (by assumption) ((State.pruneCopies_within ..).mono
      (by rfl)))
    extract_lets y13
    have h14 : s.Within 0x4000820009 y13 := by
      unfold y13
      refine State.Within.each ?_ (fun u a => ?_)
      · assumption
      · exact (State.logErr_within ..).mono (by rfl)
    clear_value y13
    split
    rename_i x15 e16
    have h17 : s.Within 0x4000820009 x15 := State.Within.of_pair e16 (by exact State.Within.trans (by assumption) ((State.pruneCopies_within ..).mono
      (by rfl)))
    exact State.Within.trans (by assumption) ((State.pruneCopies_within ..).mono (by rfl))

theorem State.fabricCheck_within (s : State) (r : Pass) (bad : List Nat) : s.Within 0x4000820009 (s.fabricCheck r bad).2 := by
  unfold State.fabricCheck
  extract_lets y1 y2 y3 y4 y5 y6 y7 y8 y9 y10 y11 y12 y13
  have h14 : s.Within 0x4000820009 y7 := by
    unfold y7
    refine State.Within.ite ?_ ?_
    · exact (State.bump_within ..).mono (by rfl)
    · exact State.Within.refl _
  clear_value y7
  have h15 : s.Within 0x4000820009 y11 := by
    unfold y11
    refine State.Within.ite ?_ ?_
    · dsimp only [y9]
      refine State.Within.trans ?_ ((State.raise_within ..).mono (by rfl))
      exact State.Within.trans (by assumption) ((State.bump_within ..).mono (by rfl))
    · assumption
  clear_value y11
  refine State.Within.itp ?_ ?_
  · dsimp only
    assumption
  · refine State.Within.itp ?_ ?_
    · dsimp only
      dsimp only [y9]
      refine State.Within.trans ?_ ((State.raise_within ..).mono (by rfl))
      exact State.Within.trans (by assumption) ((State.bump_within ..).mono (by rfl))
    · refine State.Within.itp ?_ ?_
      · dsimp only
        assumption
      · refine State.Within.itp ?_ ?_
        · dsimp only
          assumption
        · refine State.Within.itp ?_ ?_
          · dsimp only
            assumption
          · exact State.Within.trans (by assumption) ((State.fabricRoutes_within ..).mono (by rfl))

theorem State.frerCount_within (s : State) (n i k : Nat) : s.Within 0x8 (s.frerCount n i k) := by
  unfold State.frerCount
  exact (State.bumpTab_within ..).mono (by rfl)

theorem State.mapFrer_within (s : State) (n : Nat) (f : FrerFn → FrerFn) : s.Within 0x200000 (s.mapFrer n f) := by
  unfold State.mapFrer
  refine State.Within.set_frer ?_ (by rfl)
  exact State.Within.refl _

theorem State.frerPass_within (s : State) (n : Nat) (f : FrerFn → FrerFn) : s.Within 0x200008 (s.frerPass n f) := by
  unfold State.frerPass
  refine State.Within.trans ?_ ((State.frerCount_within ..).mono (by rfl))
  exact (State.mapFrer_within ..).mono (by rfl)

theorem State.frerDiscard_within (s : State) (n i : Nat) : s.Within 0x200008 (s.frerDiscard n i) := by
  unfold State.frerDiscard
  refine State.Within.trans ?_ ((State.frerCount_within ..).mono (by rfl))
  exact (State.mapFrer_within ..).mono (by rfl)

theorem State.frerVector_within (s : State) (n seq : Nat) : s.Within 0x4000220009 (s.frerVector n seq).2 := by
  unfold State.frerVector
  extract_lets y1 y2 y3 y4 y5
  have h6 : s.Within 0x4000220009 y5 := by
    unfold y5
    refine State.Within.ite ?_ ?_
    · exact State.Within.refl _
    · exact (State.frerCount_within ..).mono (by rfl)
  clear_value y5
  refine State.Within.itp ?_ ?_
  · dsimp only
    exact (State.frerPass_within ..).mono (by rfl)
  · refine State.Within.itp ?_ ?_
    · dsimp only
      refine State.Within.trans ?_ ((State.raise_within ..).mono (by rfl))
      exact (State.frerDiscard_within ..).mono (by rfl)
    · refine State.Within.itp ?_ ?_
      · refine State.Within.itp ?_ ?_
        · dsimp only
          exact (State.frerDiscard_within ..).mono (by rfl)
        · dsimp only
          refine State.Within.trans ?_ ((State.frerCount_within ..).mono (by rfl))
          exact (State.frerPass_within ..).mono (by rfl)
      · dsimp only
        exact State.Within.trans (by assumption) ((State.frerPass_within ..).mono (by rfl))

theorem State.frerMatch_within (s : State) (n seq : Nat) : s.Within 0x200008 (s.frerMatch n seq).2 := by
  unfold State.frerMatch
  extract_lets y1 y2
  have h3 : s.Within 0x200008 y2 := by
    unfold y2
    refine State.Within.ite ?_ ?_
    · exact (State.frerCount_within ..).mono (by rfl)
    · exact State.Within.refl _
  clear_value y2
  refine State.Within.itp ?_ ?_
  · dsimp only
    exact (State.frerDiscard_within ..).mono (by rfl)
  · dsimp only
    exact State.Within.trans (by assumption) ((State.frerPass_within ..).mono (by rfl))

theorem State.frerReset_within (s : State) (n : Nat) (counts : Bool) : s.Within 0x200000 (s.frerReset n counts) := by
  unfold State.frerReset
  exact (State.mapFrer_within ..).mono (by rfl)

theorem State.frerDecide_within (s : State) (r : Pass) (n : Nat) : s.Within 0x4000230009 (s.frerDecide r n).2 := by
  unfold State.frerDecide
  extract_lets y1 y2 y3 y4 y5
  have h6 : s.Within 0x4000230009 y5 := by
    unfold y5
    refine State.Within.trans ?_ ((State.bump_within ..).mono (by rfl))
    exact (State.mapFrer_within ..).mono (by rfl)
  clear_value y5
  split
  · dsimp only
    exact State.Within.refl _
  · dsimp only
    exact State.Within.refl _
  · dsimp only
    exact State.Within.trans (by assumption) ((State.setFrame_within ..).mono (by rfl))
  · refine State.Within.itp ?_ ?_
    · dsimp only [y3]
      refine State.Within.ite ?_ ?_
      · refine State.Within.trans ?_ ((State.setFrame_within ..).mono (by rfl))
        exact (State.frerCount_within ..).mono (by rfl)
      · exact (State.frerCount_within ..).mono (by rfl)
    · dsimp only
      exact (State.frerDiscard_within ..).mono (by rfl)
  · split
    rename_i x7 e8
    have h9 : s.Within 0x4000230009 x7 := State.Within.of_pair e8 (by exact (State.frerVector_within ..).mono (by rfl))
    dsimp only [y3]
    refine State.Within.ite ?_ ?_
    · exact State.Within.trans (by assumption) ((State.setFrame_within ..).mono (by rfl))
    · assumption
  · split
    rename_i x10 e11
    have h12 : s.Within 0x4000230009 x10 := State.Within.of_pair e11 (by exact (State.frerMatch_within ..).mono (by rfl))
    dsimp only [y3]
    refine State.Within.ite ?_ ?_
    · exact State.Within.trans (by assumption) ((State.setFrame_within ..).mono (by rfl))
    · assumption

theorem State.frerRun_within (s : State) (r : Pass) (n : Nat) (bad : Bool) : s.Within 0x4000a30009 (s.frerRun r n bad).2 := by
  unfold State.frerRun
  extract_lets y1
  have h2 : s.Within 0x4000a30009 y1 := by
    unfold y1
    refine State.Within.ite ?_ ?_
    · refine State.Within.trans ?_ ((State.logErr_within ..).mono (by rfl))
      refine State.Within.trans ?_ ((State.frerCount_within ..).mono (by rfl))
      exact (State.frerReset_within ..).mono (by rfl)
    · exact State.Within.refl _
  clear_value y1
  split
  · refine State.Within.itp ?_ ?_
    · dsimp only
      assumption
    · exact State.Within.trans (by assumption) ((State.frerDecide_within ..).mono (by rfl))
  · exact State.Within.trans (by assumption) ((State.frerDecide_within ..).mono (by rfl))

theorem State.frerRevoke_within (s : State) (f : Frame) : s.Within 0x4000220009 (s.frerRevoke f) := by
  unfold State.frerRevoke
  split
  · extract_lets y1 y2 y3 y4
    have h5 : s.Within 0x4000220009 y3 := by
      unfold y3
      refine State.Within.ite ?_ ?_
      · exact (State.mapFrer_within ..).mono (by rfl)
      · exact State.Within.refl _
    clear_value y3
    have h6 : s.Within 0x4000220009 y4 := by
      unfold y4
      refine State.Within.ite ?_ ?_
      · exact (State.mapFrer_within ..).mono (by rfl)
      · exact State.Within.refl _
    clear_value y4
    split
    · refine State.Within.trans ?_ ((State.raise_within ..).mono (by rfl))
      exact State.Within.trans (by assumption) ((State.frerCount_within ..).mono (by rfl))
    · refine State.Within.trans ?_ ((State.raise_within ..).mono (by rfl))
      exact State.Within.trans (by assumption) ((State.frerCount_within ..).mono (by rfl))
    · exact State.Within.refl _
  · exact State.Within.refl _

theorem State.frerVisit_within (s : State) (n : Nat) : s.Within 0x4000220009 (s.frerVisit n) := by
  unfold State.frerVisit
  extract_lets y1 y2 y3 y4 y5 y6 y7
  have h8 : s.Within 0x4000220009 y3 := by
    unfold y3
    refine State.Within.ite ?_ ?_
    · refine State.Within.trans ?_ ((State.raise_within ..).mono (by rfl))
      refine State.Within.trans ?_ ((State.frerCount_within ..).mono (by rfl))
      exact (State.frerReset_within ..).mono (by rfl)
    · exact State.Within.refl _
  clear_value y3
  have h9 : s.Within 0x4000220009 y7 := by
    unfold y7
    refine State.Within.ite ?_ ?_
    · refine State.Within.trans ?_ ((State.raise_within ..).mono (by rfl))
      exact State.Within.trans (by assumption) ((State.frerCount_within ..).mono (by rfl))
    · assumption
  clear_value y7
  refine State.Within.ite ?_ ?_
  · exact State.Within.refl _
  · refine State.Within.ite ?_ ?_
    · exact State.Within.trans (by assumption) ((State.mapFrer_within ..).mono (by rfl))
    · assumption

theorem State.refreshGrant_within (s : State) (p c : Nat) : s.Within 0x10000 (s.refreshGrant p c) := by
  unfold State.refreshGrant
  extract_lets y1 y2 y3 y4
  refine State.Within.ite ?_ ?_
  · exact (State.mapDp_within ..).mono (by rfl)
  · exact State.Within.refl _

theorem State.clearCredit_within (s : State) (p : Nat) : s.Within 0x10001 (s.clearCredit p) := by
  unfold State.clearCredit
  refine State.Within.each ?_ (fun u a => ?_)
  · exact State.Within.refl _
  · extract_lets y1
    refine State.Within.trans ?_ ((State.setFld_within ..).mono (by rfl))
    exact (State.mapDp_within ..).mono (by rfl)

theorem State.creditArrives_within (s : State) (p : Nat) (crst : Bool) (g6 g7 : Nat) : s.Within 0x4000030009 (s.creditArrives p crst g6 g7) := by
  unfold State.creditArrives
  extract_lets y1 y2
  have h3 : s.Within 0x4000030009 y1 := by
    unfold y1
    refine State.Within.ite ?_ ?_
    · refine State.Within.trans ?_ ((State.raise_within ..).mono (by rfl))
      refine State.Within.trans ?_ ((State.bump_within ..).mono (by rfl))
      exact (State.clearCredit_within ..).mono (by rfl)
    · exact State.Within.refl _
  clear_value y1
  have h4 : s.Within 0x4000030009 y2 := by
    unfold y2
    exact State.Within.trans (by assumption) ((State.mapDp_within ..).mono (by rfl))
  clear_value y2
  refine State.Within.each ?_ (fun u a => ?_)
  · assumption
  · extract_lets y5 y6
    have h7 : u.Within 0x4000030009 y6 := by
      unfold y6
      refine State.Within.ite ?_ ?_
      · exact (State.mapDp_within ..).mono (by rfl)
      · exact State.Within.refl _
    clear_value y6
    refine State.Within.ite ?_ ?_
    · exact State.Within.trans (by assumption) ((State.setFld_within ..).mono (by rfl))
    · refine State.Within.trans ?_ ((State.raise_within ..).mono (by rfl))
      exact (State.bump_within ..).mono (by rfl)

theorem State.grantHeader_within (s : State) (p : Nat) (h : Barost) : s.Within 0x10000 (s.grantHeader p h).2 := by
  unfold State.grantHeader
  extract_lets y1
  have h2 : s.Within 0x10000 y1 := by
    unfold y1
    refine State.Within.trans ?_ ((State.refreshGrant_within ..).mono (by rfl))
    exact (State.refreshGrant_within ..).mono (by rfl)
  clear_value y1
  dsimp only
  assumption

theorem State.useCredit_within (s : State) (p c n : Nat) : s.Within 0x10001 (s.useCredit p c n) := by
  unfold State.useCredit
  refine State.Within.ite ?_ ?_
  · exact State.Within.refl _
  · refine State.Within.trans ?_ ((State.setFld_within ..).mono (by rfl))
    exact (State.mapDp_within ..).mono (by rfl)

theorem State.giveBackCredit_within (s : State) (p c n : Nat) : s.Within 0x10001 (s.giveBackCredit p c n) := by
  unfold State.giveBackCredit
  refine State.Within.ite ?_ ?_
  · exact State.Within.refl _
  · refine State.Within.trans ?_ ((State.setFld_within ..).mono (by rfl))
    exact (State.mapDp_within ..).mono (by rfl)

theorem State.creditReceived_within (s : State) (f : Frame) : s.Within 0x10000 (s.creditReceived f) := by
  unfold State.creditReceived
  split
  · exact State.Within.refl _
  · exact (State.mapDp_within ..).mono (by rfl)

theorem State.scanTable_within (s : State) (t p ports : Nat) : s.Within 0x20 (s.scanTable t p ports).2 := by
  unfold State.scanTable
  refine State.Within.foldp ?_ (fun u a => ?_)
  · dsimp only
    exact State.Within.refl _
  · split
    dsimp only
    rename_i u1
    refine State.Within.itp ?_ ?_
    · dsimp only
      refine State.Within.set_win ?_ (by rfl)
      exact State.Within.refl _
    · dsimp only
      exact State.Within.refl _

theorem State.failover_within (s : State) (p : Nat) : s.Within 0x4000020029 (s.failover p) := by
  unfold State.failover
  refine State.Within.ite ?_ ?_
  · extract_lets y1
    split
    rename_i x2 e3
    have h4 : s.Within 0x4000020029 x2 := State.Within.of_pair2 e3 (by
      refine State.Within.foldp2 ?_ (fun u a => ?_)
      · dsimp only
        exact State.Within.refl _
      · split
        dsimp only
        rename_i u5
        refine State.Within.itp2 ?_ ?_
        · dsimp only
          exact State.Within.refl _
        · dsimp only
          exact (State.scanTable_within ..).mono (by rfl))
    refine State.Within.trans ?_ ((State.raise_within ..).mono (by rfl))
    exact State.Within.trans (by assumption) ((State.bump_within ..).mono (by rfl))
  · exact State.Within.refl _

/-! ## Machine/Police.lean -/

theorem State.mapMeter_within (s : State) (m : Nat) (f : Meter → Meter) : s.Within 0x10000 (s.mapMeter m f) := by
  unfold State.mapMeter
  exact (State.mapDp_within ..).mono (by rfl)

theorem State.meter_within (s : State) (m len col : Nat) : s.Within 0x10000 (s.meter m len col).2.2 := by
  unfold State.meter
  extract_lets y1 y2 y3
  refine State.Within.itp2 ?_ ?_
  · dsimp only
    exact (State.mapMeter_within ..).mono (by rfl)
  · refine State.Within.itp2 ?_ ?_
    · dsimp only
      exact (State.mapMeter_within ..).mono (by rfl)
    · refine State.Within.itp2 ?_ ?_
      · dsimp only
        exact (State.mapMeter_within ..).mono (by rfl)
      · dsimp only
        exact (State.mapMeter_within ..).mono (by rfl)

theorem State.meterReturn_within (s : State) (c : MeterCharge) (n : Nat) : s.Within 0x10000 (s.meterReturn c n) := by
  unfold State.meterReturn
  exact (State.mapMeter_within ..).mono (by rfl)

theorem State.bumpCtx_within (s : State) (n o : Nat) : s.Within 0x8 (s.bumpCtx n o) := by
  unfold State.bumpCtx
  refine State.Within.set_counters ?_ (by rfl)
  exact State.Within.refl _

theorem State.countSdu_within (s : State) (n : Nat) : s.Within 0x4000020009 (s.countSdu n) := by
  unfold State.countSdu
  refine State.Within.trans ?_ ((State.raise_within ..).mono (by rfl))
  refine State.Within.trans ?_ ((State.bump_within ..).mono (by rfl))
  exact (State.bumpCtx_within ..).mono (by rfl)

theorem State.policeMeter_within (s : State) (r : Pass) (n : Nat) : s.Within 0x4000030009 (s.policeMeter r n).2.2 := by
  unfold State.policeMeter
  refine State.Within.itp2 ?_ ?_
  · dsimp only
    exact State.Within.refl _
  · extract_lets y1 y2 y3
    split
    rename_i x4 e5
    have h6 : s.Within 0x4000030009 x4 := State.Within.of_pair2 e5 (by exact (State.meter_within ..).mono (by rfl))
    extract_lets y7 y8 y9 y10
    have h11 : s.Within 0x4000030009 y7 := by
      unfold y7
      refine State.Within.ite ?_ ?_
      · assumption
      · exact State.Within.trans (by assumption) ((State.setFrame_within ..).mono (by rfl))
    clear_value y7
    have h12 : s.Within 0x4000030009 y8 := by
      unfold y8
      exact State.Within.trans (by assumption) ((State.bumpTab_within ..).mono (by rfl))
    clear_value y8
    have h13 : s.Within 0x4000030009 y10 := by
      unfold y10
      refine State.Within.ite ?_ ?_
      · refine State.Within.trans ?_ ((State.raise_within ..).mono (by rfl))
        exact State.Within.trans (by assumption) ((State.mapMeter_within ..).mono (by rfl))
      · assumption
    clear_value y10
    refine State.Within.itp2 ?_ ?_
    · dsimp only
      refine State.Within.trans ?_ ((State.bump_within ..).mono (by rfl))
      exact State.Within.trans (by assumption) ((State.bumpCtx_within ..).mono (by rfl))
    · dsimp only
      assumption

theorem State.police_within (s : State) (r : Pass) : s.Within 0x4000030009 (s.police r).2.2 := by
  unfold State.police
  split
  · dsimp only
    exact State.Within.refl _
  · extract_lets y1 y2 y3 y4
    have h5 : s.Within 0x4000030009 y4 := by
      unfold y4
      refine State.Within.ite ?_ ?_
      · exact State.Within.refl _
      · exact (State.setFrame_within ..).mono (by rfl)
    clear_value y4
    refine State.Within.itp2 ?_ ?_
    · dsimp only
      exact State.Within.refl _
    · refine State.Within.itp2 ?_ ?_
      · dsimp only
        exact (State.countSdu_within ..).mono (by rfl)
      · exact State.Within.trans (by assumption) ((State.policeMeter_within ..).mono (by rfl))

theorem State.digRecord_within (s : State) (r : DigRec) (w : Nat) : s.Within 0x800008 (s.digRecord r w) := by
  unfold State.digRecord
  extract_lets y1 y2 y3 y4 y5 y6
  have h7 : s.Within 0x800008 y4 := by
    unfold y4
    refine State.Within.ite ?_ ?_
    · exact State.Within.refl _
    · refine State.Within.set_clasp ?_ (by rfl)
      exact State.Within.refl _
  clear_value y4
  refine State.Within.ite ?_ ?_
  · exact State.Within.trans (by assumption) ((State.bump_within ..).mono (by rfl))
  · refine State.Within.set_clasp ?_ (by rfl)
    assumption

theorem State.digest_within (s : State) (r : Pass) (dests : List Nat) (outcome : Nat) : s.Within 0x800008 (s.digest r dests outcome) := by
  unfold State.digest
  extract_lets y1 y2 y3 y4
  refine State.Within.ite ?_ ?_
  · exact (State.digRecord_within ..).mono (by rfl)
  · exact State.Within.refl _

theorem State.provision_within (s : State) (r : Pass) : s.Within 0x10000 (s.provision r) := by
  unfold State.provision
  extract_lets y1
  split
  · refine State.Within.ite ?_ ?_
    · exact State.Within.refl _
    · exact (State.setFrame_within ..).mono (by rfl)
  · exact State.Within.refl _

theorem State.refund_within (s : State) (i : Nat) : s.Within 0x10000 (s.refund i) := by
  unfold State.refund
  extract_lets y1
  split
  · refine State.Within.trans ?_ ((State.setFrame_within ..).mono (by rfl))
    exact (State.meterReturn_within ..).mono (by rfl)
  · exact State.Within.refl _

theorem State.policePass_within (s : State) (r : Pass) (fabBad : List Nat) (frerBad : Bool) :
    s.Within 0x4000a30009 (s.policePass r fabBad frerBad) := by
  unfold State.policePass
  split
  rename_i x1 e2
  have h3 : s.Within 0x4000a30009 x1 := State.Within.of_pair e2 (by
    refine State.Within.trans ?_ ((State.fabricCheck_within ..).mono (by rfl))
    exact (State.provision_within ..).mono (by rfl))
  extract_lets y4
  split
  rename_i x5 e6
  have h7 : s.Within 0x4000a30009 x5 := State.Within.of_pair e6 (by
    split
    · refine State.Within.itp ?_ ?_
      · exact State.Within.trans (by assumption) ((State.frerRun_within ..).mono (by rfl))
      · dsimp only
        assumption
    · dsimp only
      assumption)
  split
  rename_i x8 e9
  have h10 : s.Within 0x4000a30009 x8 := State.Within.of_pair2 e9 (by
    refine State.Within.itp2 ?_ ?_
    · dsimp only
      assumption
    · refine State.Within.itp2 ?_ ?_
      · dsimp only
        assumption
      · split
        rename_i x11 e12
        have h13 : s.Within 0x4000a30009 x11 := State.Within.of_pair2 e12 (by exact State.Within.trans (by assumption) ((State.police_within ..).mono
          (by rfl)))
        dsimp only
        assumption)
  extract_lets y14
  have h15 : s.Within 0x4000a30009 y14 := by
    unfold y14
    exact State.Within.trans (by assumption) ((State.digest_within ..).mono (by rfl))
  clear_value y14
  exact State.Within.trans (by assumption) ((State.mapDp_within ..).mono (by rfl))

/-! ## Machine/StateWords.lean -/

theorem State.loadMeter_within (s : State) (m : Nat) (w : List Nat) : s.Within 0x10000 (s.loadMeter m w) := by
  unfold State.loadMeter
  exact (State.mapMeter_within ..).mono (by rfl)

theorem State.loadFunc_within (s : State) (n : Nat) (w : List Nat) : s.Within 0x200000 (s.loadFunc n w) := by
  unfold State.loadFunc
  exact (State.mapFrer_within ..).mono (by rfl)

/-! ## Machine/Access.lean -/

theorem State.mapProcs_within (s : State) (f : Procs → Procs) : s.Within 0x2000000 (s.mapProcs f) := by
  unfold State.mapProcs
  refine State.Within.set_procs ?_ (by rfl)
  exact State.Within.refl _

theorem State.mapMsram_within (s : State) (f : Mem → Mem) : s.Within 0x80 (s.mapMsram f) := by
  unfold State.mapMsram
  refine State.Within.set_msram ?_ (by rfl)
  exact State.Within.refl _

theorem State.dropLines_within (s : State) (a n : Nat) : s.Within 0x2000000 (s.dropLines a n) := by
  unfold State.dropLines
  extract_lets y1
  exact (State.mapProcs_within ..).mono (by rfl)

theorem State.msramPut_within (s : State) (a : Nat) (l : List Byte) : s.Within 0x2000080 (s.msramPut a l) := by
  unfold State.msramPut
  extract_lets y1
  have h2 : s.Within 0x2000080 y1 := by
    unfold y1
    exact (State.dropLines_within ..).mono (by rfl)
  clear_value y1
  refine State.Within.ite ?_ ?_
  · exact State.Within.trans (by assumption) ((State.mapMsram_within ..).mono (by rfl))
  · exact State.Within.trans (by assumption) ((State.mapMsram_within ..).mono (by rfl))

theorem State.codeFault_within (s : State) (m off : Nat) : s.Within 0x4000820009 (s.codeFault m off) := by
  unfold State.codeFault
  refine State.Within.trans ?_ ((State.emit_within ..).mono (by rfl))
  exact (State.logErr_within ..).mono (by rfl)

theorem State.releaseOne_within (s : State) (m : Nat) : s.Within 0x2000080 (s.releaseOne m) := by
  unfold State.releaseOne
  split
  · exact State.Within.refl _
  · refine State.Within.trans ?_ ((State.mapMsram_within ..).mono (by rfl))
    exact (State.mapProcs_within ..).mono (by rfl)

theorem State.drainMp_within (s : State) (m : Nat) : s.Within 0x2000080 (s.drainMp m) := by
  unfold State.drainMp
  refine State.Within.each ?_ (fun u a => ?_)
  · exact State.Within.refl _
  · exact (State.releaseOne_within ..).mono (by rfl)

theorem State.drainFor_within (s : State) (src : Src) : s.Within 0x2000080 (s.drainFor src) := by
  unfold State.drainFor
  split
  · exact (State.drainMp_within ..).mono (by rfl)
  · exact State.Within.refl _

theorem State.live_within {m : Nat} (s : State) (act : State → State) (h : ∀ u : State, u.Within m (act u)) (_k : 0x0 ||| m = m) :
    s.Within m (s.live act) := State.Within.ite (State.Within.refl s) (h s)

theorem State.liveAon_within {m : Nat} (s : State) (act : State → State) (h : ∀ u : State, u.Within m (act u)) (_k : 0x0 ||| m = m) :
    s.Within m (s.liveAon act) := State.Within.ite (State.Within.refl s) (h s)

theorem State.clocked_within {m : Nat} (s : State) (p : Page) (act : State → State) (h : ∀ u : State, u.Within m (act u))
    (_k : 0x0 ||| m = m) : s.Within m (s.clocked p act) := State.Within.ite (h s) (State.Within.refl s)

theorem State.arrives_within {m : Nat} (s : State) (src : Src) (act : State → State) (h : ∀ u : State, u.Within m (act u))
    (k : 0x2000080 ||| m = m) : s.Within m (s.arrives src act) :=
  State.Within.ite (((State.drainFor_within ..).mono k).trans (h _)) (State.Within.refl s)

theorem State.notOwner_within (s : State) (src : Src) (p : Page) (addr : Nat) : s.Within 0x4000820009 (s.notOwner src p addr) := by
  unfold State.notOwner
  exact (State.logErr_within ..).mono (by rfl)

theorem State.guard_within {m : Nat} (s : State) (src : Src) (p : Page) (off : Nat) (act : State → State)
    (h : ∀ u : State, u.Within m (act u)) (k : 0x4002820089 ||| m = m) : s.Within m (s.guard src p off act) :=
  State.arrives_within s src _ (fun u => State.Within.ite ((State.logErr_within ..).mono (covered k (by rfl)))
    (State.Within.ite (State.Within.ite (State.Within.refl u) (h u))
      ((State.notOwner_within ..).mono (covered k (by rfl))))) (covered k (by rfl))

theorem State.guardTrusted_within {m : Nat} (s : State) (src : Src) (p : Page) (off : Nat) (act : State → State)
    (h : ∀ u : State, u.Within m (act u)) (k : 0x4002820089 ||| m = m) : s.Within m (s.guardTrusted src p off act) :=
  State.arrives_within s src _ (fun u => State.Within.ite ((State.logErr_within ..).mono (covered k (by rfl)))
    (State.Within.ite ((State.notOwner_within ..).mono (covered k (by rfl))) (State.Within.ite (State.Within.refl u) (h u))))
    (covered k (by rfl))

theorem State.guardMixed_within {m : Nat} (s : State) (src : Src) (p : Page) (off : Nat) (act : State → State)
    (h : ∀ u : State, u.Within m (act u)) (k : 0x4002820089 ||| m = m) : s.Within m (s.guardMixed src p off act) :=
  State.arrives_within s src _ (fun u => State.Within.ite ((State.logErr_within ..).mono (covered k (by rfl)))
    (State.Within.ite (State.Within.ite (State.Within.refl u) (h u)) ((State.notOwner_within ..).mono (covered k (by rfl)))))
    (covered k (by rfl))

theorem State.refuse_within (s : State) (src : Src) (p : Page) (code off : Nat) : s.Within 0x4000820009 (s.refuse src p code off) := by
  unfold State.refuse
  exact (State.logErr_within ..).mono (by rfl)

/-! ## Machine/Macsec.lean -/

theorem State.protect_within (s : State) (p e pn : Nat) (l : List Byte) : s.Within 0x4000820009 (s.protect p e pn l).2 := by
  unfold State.protect
  extract_lets y1 y2 y3 y4 y5 y6 y7 y8 y9 y10
  have h11 : s.Within 0x4000820009 y10 := by
    unfold y10
    refine State.Within.trans ?_ ((State.bumpTab_within ..).mono (by rfl))
    exact (State.bumpTab_within ..).mono (by rfl)
  clear_value y10
  refine State.Within.itp ?_ ?_
  · dsimp only
    exact (State.logErr_within ..).mono (by rfl)
  · dsimp only
    assumption

theorem State.rxSecEffects_within (s : State) (p : Nat) (r : RxSec) (sa : Option (Nat × Nat × Nat)) :
    s.Within 0x400082000b (s.rxSecEffects p r sa) := by
  unfold State.rxSecEffects
  split
  · exact State.Within.refl _
  · exact (State.bumpTab_within ..).mono (by rfl)
  · refine State.Within.ite ?_ ?_
    · refine State.Within.trans ?_ ((State.bump_within ..).mono (by rfl))
      refine State.Within.trans ?_ ((State.raise_within ..).mono (by rfl))
      exact (State.bumpTab_within ..).mono (by rfl)
    · exact (State.bumpTab_within ..).mono (by rfl)
  · exact (State.logErr_within ..).mono (by rfl)
  · exact (State.logErr_within ..).mono (by rfl)
  · exact State.Within.refl _
  · extract_lets y1
    have h2 : s.Within 0x400082000b y1 := by
      unfold y1
      refine State.Within.trans ?_ ((State.bumpTab_within ..).mono (by rfl))
      exact (State.bumpTab_within ..).mono (by rfl)
    clear_value y1
    split
    · assumption
    · refine State.Within.ite ?_ ?_
      · exact State.Within.trans (by assumption) ((State.setNextPn_within ..).mono (by rfl))
      · assumption

theorem State.saRevive_within (s : State) (e : Nat) : s.Within 0x2 (s.saRevive e) := by
  unfold State.saRevive
  exact (State.setTabF_within ..).mono (by rfl)

theorem State.saPut_within (s : State) (x : Nat × Nat × Nat × Word) : s.Within 0x2 (s.saPut x) := by
  unfold State.saPut
  extract_lets y1
  have h2 : s.Within 0x2 y1 := by
    unfold y1
    exact (State.setTab_within ..).mono (by rfl)
  clear_value y1
  refine State.Within.ite ?_ ?_
  · refine State.Within.each ?_ (fun u a => ?_)
    · assumption
    · exact (State.saRevive_within ..).mono (by rfl)
  · exact State.Within.trans (by assumption) ((State.saRevive_within ..).mono (by rfl))

theorem State.saWrite_within (s : State) (t e w : Nat) (v : Word) : s.Within 0x10002 (s.saWrite t e w v) := by
  unfold State.saWrite
  refine State.Within.ite ?_ ?_
  · exact (State.mapDp_within ..).mono (by rfl)
  · exact (State.saPut_within ..).mono (by rfl)

theorem State.saSettle_within (s : State) (p : Nat) : s.Within 0x10002 (s.saSettle p) := by
  unfold State.saSettle
  extract_lets y1 y2
  have h3 : s.Within 0x10002 y2 := by
    unfold y2
    exact (State.mapDp_within ..).mono (by rfl)
  clear_value y2
  refine State.Within.each ?_ (fun u a => ?_)
  · assumption
  · exact (State.saPut_within ..).mono (by rfl)

/-! ## Machine/Egress.lean -/

theorem State.rtagEdit_within (s : State) (f : Frame) (p : Nat) (t : Tags) (l : List Byte) : s.Within 0x8 (s.rtagEdit f p t l).2 := by
  unfold State.rtagEdit
  refine State.Within.itp ?_ ?_
  · dsimp only
    exact State.Within.refl _
  · refine State.Within.itp ?_ ?_
    · split
      · dsimp only
        exact (State.bump_within ..).mono (by rfl)
      · dsimp only
        exact State.Within.refl _
    · split
      · dsimp only
        exact (State.bump_within ..).mono (by rfl)
      · dsimp only
        exact State.Within.refl _

theorem State.barostEdit_within (s : State) (f : Frame) (c : Copy) (p : Nat) (l : List Byte) : s.Within 0x10008 (s.barostEdit f c p l).2 := by
  unfold State.barostEdit
  extract_lets y1 y2
  refine State.Within.itp ?_ ?_
  · dsimp only
    exact State.Within.refl _
  · refine State.Within.itp ?_ ?_
    · split
      · dsimp only [y1]
        refine State.Within.trans ?_ ((State.grantHeader_within ..).mono (by rfl))
        exact (State.bump_within ..).mono (by rfl)
      · dsimp only [y1]
        exact (State.grantHeader_within ..).mono (by rfl)
      · split
        rename_i x3 e4
        have h5 : s.Within 0x10008 x3 := State.Within.of_pair e4 (by
          refine State.Within.trans ?_ ((State.grantHeader_within ..).mono (by rfl))
          exact (State.bump_within ..).mono (by rfl))
        dsimp only
        assumption
    · split
      · dsimp only
        exact (State.bump_within ..).mono (by rfl)
      · dsimp only
        exact (State.bump_within ..).mono (by rfl)
      · dsimp only
        exact State.Within.refl _

theorem State.addCorr_within (s : State) (l : List Byte) (i : Nat) (a : Int) : s.Within 0x4000020009 (s.addCorr l i a).2 := by
  unfold State.addCorr
  extract_lets y1 y2 y3
  refine State.Within.itp ?_ ?_
  · dsimp only
    exact State.Within.refl _
  · refine State.Within.itp ?_ ?_
    · dsimp only
      refine State.Within.trans ?_ ((State.raise_within ..).mono (by rfl))
      exact (State.bump_within ..).mono (by rfl)
    · dsimp only
      exact State.Within.refl _

theorem State.insertBad_within (s : State) : s.Within 0x4000020009 s.insertBad := by
  unfold State.insertBad
  refine State.Within.trans ?_ ((State.raise_within ..).mono (by rfl))
  exact (State.bump_within ..).mono (by rfl)

theorem State.insertTiw_within (s : State) (f : Frame) (w : TimeInstr) (p : Nat) (teg : Int) (l : List Byte) (i : Nat) :
    s.Within 0x4000020009 (s.insertTiw f w p teg l i).2 := by
  unfold State.insertTiw
  refine State.Within.itp ?_ ?_
  · dsimp only
    exact State.Within.refl _
  · refine State.Within.itp ?_ ?_
    · dsimp only
      exact (State.insertBad_within ..).mono (by rfl)
    · refine State.Within.itp ?_ ?_
      · dsimp only
        exact (State.bump_within ..).mono (by rfl)
      · refine State.Within.itp ?_ ?_
        · dsimp only
          exact (State.insertBad_within ..).mono (by rfl)
        · refine State.Within.itp ?_ ?_
          · refine State.Within.itp ?_ ?_
            · dsimp only
              exact (State.insertBad_within ..).mono (by rfl)
            · extract_lets y1 y2 y3
              refine State.Within.trans ?_ ((State.addCorr_within ..).mono (by rfl))
              exact (State.bump_within ..).mono (by rfl)
          · extract_lets y4
            refine State.Within.itp ?_ ?_
            · dsimp only
              exact (State.insertBad_within ..).mono (by rfl)
            · refine State.Within.trans ?_ ((State.addCorr_within ..).mono (by rfl))
              exact (State.bump_within ..).mono (by rfl)

theorem State.transparent_within (s : State) (f : Frame) (p : Nat) (teg : Int) (l : List Byte) (i : Nat) :
    s.Within 0x4000020009 (s.transparent f p teg l i).2 := by
  unfold State.transparent
  refine State.Within.itp ?_ ?_
  · refine State.Within.itp ?_ ?_
    · dsimp only
      exact (State.bump_within ..).mono (by rfl)
    · split
      · dsimp only
        exact (State.bump_within ..).mono (by rfl)
      · refine State.Within.trans ?_ ((State.addCorr_within ..).mono (by rfl))
        exact (State.bump_within ..).mono (by rfl)
  · dsimp only
    exact State.Within.refl _

theorem State.present_within (s : State) (f : Frame) (p : Nat) (l : List Byte) (i : Nat) : s.Within 0x8 (s.present f p l i).2 := by
  unfold State.present
  extract_lets y1
  split
  · refine State.Within.itp ?_ ?_
    · dsimp only
      exact (State.bump_within ..).mono (by rfl)
    · dsimp only
      exact State.Within.refl _
  · dsimp only
    exact State.Within.refl _

theorem State.capture_within (s : State) (f : Frame) (w : TimeInstr) (p : Nat) (teg : Int) : s.Within 0x4000120009 (s.capture f w p teg) := by
  unfold State.capture
  refine State.Within.ite ?_ ?_
  · extract_lets y1 y2 y3
    have h4 : s.Within 0x4000120009 y3 := by
      unfold y3
      refine State.Within.set_txts ?_ (by rfl)
      exact State.Within.refl _
    clear_value y3
    refine State.Within.ite ?_ ?_
    · refine State.Within.trans ?_ ((State.raise_within ..).mono (by rfl))
      exact (State.bump_within ..).mono (by rfl)
    · refine State.Within.ite ?_ ?_
      · exact State.Within.trans (by assumption) ((State.raise_within ..).mono (by rfl))
      · assumption
  · exact State.Within.refl _

theorem State.edits_within (s : State) (f : Frame) (c : Copy) (p : Nat) (teg : Int) : s.Within 0x4000030009 (s.edits f c p teg).2 := by
  unfold State.edits
  extract_lets y1 y2
  split
  rename_i x3 e4
  have h5 : s.Within 0x4000030009 x3 := State.Within.of_pair e4 (by exact (State.rtagEdit_within ..).mono (by rfl))
  split
  rename_i x6 e7
  have h8 : s.Within 0x4000030009 x6 := State.Within.of_pair e7 (by exact State.Within.trans (by assumption) ((State.barostEdit_within ..).mono (by
    rfl)))
  extract_lets y9
  split
  rename_i x10 e11
  have h12 : s.Within 0x4000030009 x10 := State.Within.of_pair e11 (by
    split
    · exact State.Within.trans (by assumption) ((State.insertTiw_within ..).mono (by rfl))
    · exact State.Within.trans (by assumption) ((State.transparent_within ..).mono (by rfl)))
  exact State.Within.trans (by assumption) ((State.present_within ..).mono (by rfl))

theorem State.editCopy_within (s : State) (f : Frame) (c : Copy) (p lead : Nat) : s.Within 0x4000130009 (s.editCopy f c p lead).2 := by
  unfold State.editCopy
  extract_lets y1
  split
  rename_i x2 e3
  have h4 : s.Within 0x4000130009 x2 := State.Within.of_pair e3 (by
    split
    · dsimp only
      exact State.Within.refl _
    · exact (State.edits_within ..).mono (by rfl))
  dsimp only
  split
  · exact State.Within.trans (by assumption) ((State.capture_within ..).mono (by rfl))
  · assumption

theorem State.noteLength_within (s : State) (i len : Nat) : s.Within 0x10000 (s.noteLength i len) := by
  unfold State.noteLength
  refine State.Within.each ?_ (fun u a => ?_)
  · exact State.Within.refl _
  · exact (State.mapEgress_within ..).mono (by rfl)

theorem State.stompCopies_within (s : State) (i : Nat) : s.Within 0x10008 (s.stompCopies i) := by
  unfold State.stompCopies
  refine State.Within.each ?_ (fun u a => ?_)
  · exact State.Within.refl _
  · refine State.Within.trans ?_ ((State.bump_within ..).mono (by rfl))
    exact (State.mapEgress_within ..).mono (by rfl)

theorem State.discardFrame_within (s : State) (i : Nat) : s.Within 0x10009 (s.discardFrame i) := by
  unfold State.discardFrame
  extract_lets y1 y2 y3
  have h4 : s.Within 0x10009 y1 := by
    unfold y1
    exact (State.stompCopies_within ..).mono (by rfl)
  clear_value y1
  have h5 : s.Within 0x10009 y2 := by
    unfold y2
    refine State.Within.each ?_ (fun u a => ?_)
    · assumption
    · exact (State.discardCopy_within ..).mono (by rfl)
  clear_value y2
  have h6 : s.Within 0x10009 y3 := by
    unfold y3
    exact State.Within.trans (by assumption) ((State.mapDp_within ..).mono (by rfl))
  clear_value y3
  refine State.Within.trans ?_ ((State.setFrame_within ..).mono (by rfl))
  exact State.Within.trans (by assumption) ((State.freeHeadroom_within ..).mono (by rfl))

/-! ## Machine/Ingress.lean -/

theorem State.pushWindow_within (s : State) (i : Nat) : s.Within 0x10000 (s.pushWindow i) := by
  unfold State.pushWindow
  exact (State.mapDp_within ..).mono (by rfl)

theorem State.newFrame_within (s : State) (f : Frame) : s.Within 0x6000030009 (s.newFrame f).2 := by
  unfold State.newFrame
  extract_lets y1
  dsimp only
  refine State.Within.trans ?_ ((State.storeFrame_within ..).mono (by rfl))
  exact (State.mapDp_within ..).mono (by rfl)

theorem State.rxBegin_within (s : State) (p : Nat) (head : List Byte) (frac : Nat) (loop : Bool) :
    s.Within 0x6000030009 (s.rxBegin p head frac loop) := by
  unfold State.rxBegin
  refine State.Within.ite ?_ ?_
  · exact State.Within.refl _
  · extract_lets y1 y2 y3 y4
    split
    rename_i x5 e6
    have h7 : s.Within 0x6000030009 x5 := State.Within.of_pair e6 (by exact (State.newFrame_within ..).mono (by rfl))
    extract_lets y8
    have h9 : s.Within 0x6000030009 y8 := by
      unfold y8
      exact State.Within.trans (by assumption) ((State.mapDp_within ..).mono (by rfl))
    clear_value y8
    refine State.Within.ite ?_ ?_
    · exact State.Within.trans (by assumption) ((State.pushWindow_within ..).mono (by rfl))
    · assumption

theorem State.rxStart_within (s : State) (p : Nat) (head : List Byte) (frac : Nat) : s.Within 0x6000030009 (s.rxStart p head frac) := by
  unfold State.rxStart
  refine State.Within.ite ?_ ?_
  · exact State.Within.refl _
  · exact (State.rxBegin_within ..).mono (by rfl)

theorem State.inject_within (s : State) (p : Nat) (bytes : List Byte) (tiw : Option TimeInstr) (direct : Option (Nat × Nat)) :
    s.Within 0x6000030009 (s.inject p bytes tiw direct) := by
  unfold State.inject
  extract_lets y1 y2
  have h3 : s.Within 0x6000030009 y1 := by
    unfold y1
    refine State.Within.trans ?_ ((State.bump_within ..).mono (by rfl))
    exact (State.bump_within ..).mono (by rfl)
  clear_value y1
  refine State.Within.ite ?_ ?_
  · refine State.Within.trans ?_ (State.clocked_within _ _ _ (fun u => ?_) (by rfl))
    · assumption
    · exact (State.bump_within ..).mono (by rfl)
  · split
    rename_i x4 e5
    have h6 : s.Within 0x6000030009 x4 := State.Within.of_pair e5 (by exact State.Within.trans (by assumption) ((State.newFrame_within ..).mono (by
      rfl)))
    exact State.Within.trans (by assumption) ((State.pushWindow_within ..).mono (by rfl))

theorem State.creditOwed_within (s : State) (f : Frame) (len : Nat) : s.Within 0x8 (s.creditOwed f len) := by
  unfold State.creditOwed
  refine State.Within.set_counters ?_ (by rfl)
  exact State.Within.refl _

theorem State.recharge_within (s : State) (c : Copy) (len : Nat) : s.Within 0x10000 (s.recharge c len) := by
  unfold State.recharge
  extract_lets y1 y2
  have h3 : s.Within 0x10000 y2 := by
    unfold y2
    exact (State.mapQueue_within ..).mono (by rfl)
  clear_value y2
  exact State.Within.trans (by assumption) ((State.mapEgress_within ..).mono (by rfl))

theorem State.settlePass_within (s : State) (i len : Nat) (bad : Bool) : s.Within 0x4000230009 (s.settlePass i len bad) := by
  unfold State.settlePass
  extract_lets y1 y2 y3 y4 y5 y6
  have h7 : s.Within 0x4000230009 y3 := by
    unfold y3
    split
    · refine State.Within.ite ?_ ?_
      · exact (State.countSdu_within ..).mono (by rfl)
      · exact State.Within.refl _
    · exact State.Within.refl _
  clear_value y3
  have h8 : s.Within 0x4000230009 y4 := by
    unfold y4
    split
    · refine State.Within.ite ?_ ?_
      · exact State.Within.trans (by assumption) ((State.refund_within ..).mono (by rfl))
      · exact State.Within.trans (by assumption) ((State.meterReturn_within ..).mono (by rfl))
    · assumption
  clear_value y4
  have h9 : s.Within 0x4000230009 y5 := by
    unfold y5
    refine State.Within.ite ?_ ?_
    · exact State.Within.trans (by assumption) ((State.frerRevoke_within ..).mono (by rfl))
    · assumption
  clear_value y5
  exact State.Within.trans (by assumption) ((State.setFrame_within ..).mono (by rfl))

theorem State.settleCopies_within (s : State) (i len : Nat) : s.Within 0x10009 (s.settleCopies i len) := by
  unfold State.settleCopies
  extract_lets y1 y2 y3
  have h4 : s.Within 0x10009 y3 := by
    unfold y3
    refine State.Within.each ?_ (fun u a => ?_)
    · exact State.Within.refl _
    · refine State.Within.trans ?_ ((State.bump_within ..).mono (by rfl))
      exact (State.discardCopy_within ..).mono (by rfl)
  clear_value y3
  refine State.Within.each ?_ (fun u a => ?_)
  · assumption
  · exact (State.recharge_within ..).mono (by rfl)

theorem State.deferredChecks_within (s : State) (i len : Nat) : s.Within 0x4000020009 (s.deferredChecks i len).2 := by
  unfold State.deferredChecks
  extract_lets y1 y2 y3
  have h4 : s.Within 0x4000020009 y3 := by
    unfold y3
    exact (State.countFlags_within ..).mono (by rfl)
  clear_value y3
  refine State.Within.itp ?_ ?_
  · dsimp only
    exact State.Within.refl _
  · refine State.Within.itp ?_ ?_
    · dsimp only
      assumption
    · dsimp only
      exact State.Within.trans (by assumption) ((State.parserDrop_within ..).mono (by rfl))

theorem State.endFrame_within (s : State) (i : Nat) (l : List Byte) (prot bad : Bool) : s.Within 0x6000230009 (s.endFrame i l prot bad) := by
  unfold State.endFrame
  extract_lets y1 y2 y3 y4
  have h5 : s.Within 0x6000230009 y2 := by
    unfold y2
    exact (State.storeFrame_within ..).mono (by rfl)
  clear_value y2
  have h6 : s.Within 0x6000230009 y3 := by
    unfold y3
    refine State.Within.trans ?_ ((State.noteLength_within ..).mono (by rfl))
    exact State.Within.trans (by assumption) ((State.creditOwed_within ..).mono (by rfl))
  clear_value y3
  have h7 : s.Within 0x6000230009 y4 := by
    unfold y4
    exact State.Within.trans (by assumption) ((State.creditReceived_within ..).mono (by rfl))
  clear_value y4
  split
  rename_i x8 e9
  have h10 : s.Within 0x6000230009 x8 := State.Within.of_pair e9 (by
    refine State.Within.itp ?_ ?_
    · dsimp only
      assumption
    · exact State.Within.trans (by assumption) ((State.deferredChecks_within ..).mono (by rfl)))
  extract_lets y11 y12 y13
  have h14 : s.Within 0x6000230009 y11 := by
    unfold y11
    exact State.Within.trans (by assumption) ((State.settlePass_within ..).mono (by rfl))
  clear_value y11
  have h15 : s.Within 0x6000230009 y13 := by
    unfold y13
    refine State.Within.ite ?_ ?_
    · exact State.Within.trans (by assumption) ((State.settleCopies_within ..).mono (by rfl))
    · assumption
  clear_value y13
  refine State.Within.ite ?_ ?_
  · refine State.Within.trans ?_ ((State.discardFrame_within ..).mono (by rfl))
    exact State.Within.trans (by assumption) ((State.setFrame_within ..).mono (by rfl))
  · refine State.Within.ite ?_ ?_
    · exact State.Within.trans (by assumption) ((State.setFrame_within ..).mono (by rfl))
    · refine State.Within.ite ?_ ?_
      · assumption
      · exact State.Within.trans (by assumption) ((State.pushWindow_within ..).mono (by rfl))

theorem State.grantsIn_within (s : State) (p : Nat) (l : List Byte) : s.Within 0x4000030009 (s.grantsIn p l) := by
  unfold State.grantsIn
  extract_lets y1
  refine State.Within.ite ?_ ?_
  · exact (State.creditArrives_within ..).mono (by rfl)
  · exact State.Within.refl _

theorem State.creditFrameIn_within (s : State) (p : Nat) (l : List Byte) : s.Within 0x4000030009 (s.creditFrameIn p l) := by
  unfold State.creditFrameIn
  refine State.Within.ite ?_ ?_
  · exact (State.bump_within ..).mono (by rfl)
  · extract_lets y1
    have h2 : s.Within 0x4000030009 y1 := by
      unfold y1
      exact (State.bump_within ..).mono (by rfl)
    clear_value y1
    refine State.Within.ite ?_ ?_
    · exact State.Within.trans (by assumption) ((State.grantsIn_within ..).mono (by rfl))
    · refine State.Within.trans ?_ ((State.raise_within ..).mono (by rfl))
      exact State.Within.trans (by assumption) ((State.bump_within ..).mono (by rfl))

theorem State.rxGood_within (s : State) (p i : Nat) (l : List Byte) (bad : Option (Nat × Nat × Nat)) :
    s.Within 0x6000a3000b (s.rxGood p i l bad) := by
  unfold State.rxGood
  split
  extract_lets y1 y2 y3 y4
  have h5 : s.Within 0x6000a3000b y3 := by
    unfold y3
    refine State.Within.ite ?_ ?_
    · exact State.Within.refl _
    · refine State.Within.trans ?_ ((State.bump_within ..).mono (by rfl))
      exact (State.bump_within ..).mono (by rfl)
  clear_value y3
  have h6 : s.Within 0x6000a3000b y4 := by
    unfold y4
    exact State.Within.trans (by assumption) ((State.rxSecEffects_within ..).mono (by rfl))
  clear_value y4
  clear_value y2
  clear_value y1
  split
  · refine State.Within.ite ?_ ?_
    · refine State.Within.trans ?_ ((State.discardFrame_within ..).mono (by rfl))
      exact State.Within.trans (by assumption) ((State.creditFrameIn_within ..).mono (by rfl))
    · refine State.Within.trans ?_ ((State.endFrame_within ..).mono (by rfl))
      exact State.Within.trans (by assumption) ((State.grantsIn_within ..).mono (by rfl))
  · refine State.Within.ite ?_ ?_
    · exact State.Within.trans (by assumption) ((State.discardFrame_within ..).mono (by rfl))
    · exact State.Within.trans (by assumption) ((State.endFrame_within ..).mono (by rfl))

theorem State.rxClose_within (s : State) (p : Nat) (rest : List Byte) (code : Bool) (bad : Option (Nat × Nat × Nat)) :
    s.Within 0x6000a3000b (s.rxClose p rest code bad) := by
  unfold State.rxClose
  extract_lets y1 y2 y3 y4 y5 y6
  have h7 : s.Within 0x6000a3000b y4 := by
    unfold y4
    exact (State.mapDp_within ..).mono (by rfl)
  clear_value y4
  have h8 : s.Within 0x6000a3000b y6 := by
    unfold y6
    exact State.Within.trans (by assumption) ((State.bump_within ..).mono (by rfl))
  clear_value y6
  refine State.Within.ite ?_ ?_
  · exact State.Within.trans (by assumption) ((State.rxGood_within ..).mono (by rfl))
  · refine State.Within.ite ?_ ?_
    · refine State.Within.ite ?_ ?_
      · exact State.Within.trans (by assumption) ((State.endFrame_within ..).mono (by rfl))
      · refine State.Within.trans ?_ ((State.endFrame_within ..).mono (by rfl))
        exact State.Within.trans (by assumption) ((State.grantsIn_within ..).mono (by rfl))
    · clear_value y5
      clear_value y3
      clear_value y2
      clear_value y1
      split
      · refine State.Within.trans ?_ ((State.endFrame_within ..).mono (by rfl))
        exact State.Within.trans (by assumption) ((State.bump_within ..).mono (by rfl))
      · exact State.Within.trans (by assumption) ((State.rxGood_within ..).mono (by rfl))

theorem State.rxFinish_within (s : State) (p : Nat) (rest : List Byte) (code : Bool) (bad : Option (Nat × Nat × Nat)) :
    s.Within 0x6000a3000b (s.rxFinish p rest code bad) := by
  unfold State.rxFinish
  refine State.Within.trans ?_ ((State.saSettle_within ..).mono (by rfl))
  exact (State.rxClose_within ..).mono (by rfl)

theorem State.rxEnd_within (s : State) (p : Nat) (rest : List Byte) (code : Bool) (corr uncorr : Nat) (secBad : Option (Nat × Nat × Nat)) :
    s.Within 0x6000a3000b (s.rxEnd p rest code corr uncorr secBad) := by
  unfold State.rxEnd
  extract_lets y1 y2
  have h3 : s.Within 0x6000a3000b y1 := by
    unfold y1
    refine State.Within.ite ?_ ?_
    · exact State.Within.refl _
    · exact (State.bump_within ..).mono (by rfl)
  clear_value y1
  have h4 : s.Within 0x6000a3000b y2 := by
    unfold y2
    refine State.Within.ite ?_ ?_
    · assumption
    · refine State.Within.trans ?_ ((State.raise_within ..).mono (by rfl))
      exact State.Within.trans (by assumption) ((State.bump_within ..).mono (by rfl))
  clear_value y2
  refine State.Within.ite ?_ ?_
  · assumption
  · exact State.Within.trans (by assumption) ((State.rxFinish_within ..).mono (by rfl))

theorem State.dropWindow_within (s : State) (i : Nat) : s.Within 0x10001 (s.dropWindow i) := by
  unfold State.dropWindow
  extract_lets y1 y2
  have h3 : s.Within 0x10001 y2 := by
    unfold y2
    refine State.Within.ite ?_ ?_
    · exact (State.recircLeave_within ..).mono (by rfl)
    · exact State.Within.refl _
  clear_value y2
  exact State.Within.trans (by assumption) ((State.freeFrame_within ..).mono (by rfl))

theorem State.slotTaken_within (s : State) (p : Nat) : s.Within 0x10000 (s.slotTaken p) := by
  unfold State.slotTaken
  exact (State.mapDp_within ..).mono (by rfl)

theorem State.parseFrame_within (s : State) (i : Nat) : s.Within 0x4000030009 (s.parseFrame i) := by
  unfold State.parseFrame
  extract_lets y1 y2 y3 y4 y5 y6 y7 y8
  have h9 : s.Within 0x4000030009 y5 := by
    unfold y5
    exact (State.countFlags_within ..).mono (by rfl)
  clear_value y5
  have h10 : s.Within 0x4000030009 y7 := by
    unfold y7
    exact State.Within.trans (by assumption) ((State.setFrame_within ..).mono (by rfl))
  clear_value y7
  have h11 : s.Within 0x4000030009 y8 := by
    unfold y8
    exact State.Within.trans (by assumption) ((State.bump_within ..).mono (by rfl))
  clear_value y8
  refine State.Within.ite ?_ ?_
  · refine State.Within.trans ?_ ((State.dropWindow_within ..).mono (by rfl))
    exact State.Within.trans (by assumption) ((State.parserDrop_within ..).mono (by rfl))
  · exact State.Within.trans (by assumption) ((State.mapDp_within ..).mono (by rfl))

theorem State.parseWindow_within (s : State) (recirc : Bool) : s.Within 0x4000030009 (s.parseWindow recirc) := by
  unfold State.parseWindow
  split
  · exact State.Within.refl _
  · split
    · exact State.Within.refl _
    · extract_lets y1
      have h2 : s.Within 0x4000030009 y1 := by
        unfold y1
        refine State.Within.trans ?_ ((State.mapDp_within ..).mono (by rfl))
        exact (State.slotTaken_within ..).mono (by rfl)
      clear_value y1
      refine State.Within.ite ?_ ?_
      · refine State.Within.trans ?_ ((State.dropWindow_within ..).mono (by rfl))
        exact State.Within.trans (by assumption) ((State.bump_within ..).mono (by rfl))
      · exact State.Within.trans (by assumption) ((State.parseFrame_within ..).mono (by rfl))

theorem State.classifyNext_within (s : State) (bad badFib : List Nat) (corr corrFib : Nat) :
    s.Within 0x4000830009 (s.classifyNext bad badFib corr corrFib) := by
  unfold State.classifyNext
  split
  · exact State.Within.refl _
  · extract_lets y1 y2 y3 y4 y5 y6
    have h7 : s.Within 0x4000830009 y1 := by
      unfold y1
      exact (State.mapDp_within ..).mono (by rfl)
    clear_value y1
    have h8 : s.Within 0x4000830009 y3 := by
      unfold y3
      refine State.Within.ite ?_ ?_
      · exact State.Within.trans (by assumption) ((State.recircLeave_within ..).mono (by rfl))
      · assumption
    clear_value y3
    have h9 : s.Within 0x4000830009 y6 := by
      unfold y6
      refine State.Within.trans ?_ ((State.bump_within ..).mono (by rfl))
      exact State.Within.trans (by assumption) ((State.bump_within ..).mono (by rfl))
    clear_value y6
    refine State.Within.ite ?_ ?_
    · refine State.Within.trans ?_ ((State.freeFrame_within ..).mono (by rfl))
      exact State.Within.trans (by assumption) ((State.bump_within ..).mono (by rfl))
    · split
      rename_i x10 e11
      have h12 : s.Within 0x4000830009 x10 := State.Within.of_pair2 e11 (by exact State.Within.trans (by assumption) ((State.classify_within ..).mono
        (by rfl)))
      extract_lets y13 y14
      have h15 : s.Within 0x4000830009 y14 := by
        unfold y14
        exact State.Within.trans (by assumption) ((State.setFrame_within ..).mono (by rfl))
      clear_value y14
      exact State.Within.trans (by assumption) ((State.mapDp_within ..).mono (by rfl))

theorem State.policeNext_within (s : State) (fabBad : List Nat) (frerBad : Bool) (corrFab corrFrer : Nat) :
    s.Within 0x4000a30009 (s.policeNext fabBad frerBad corrFab corrFrer) := by
  unfold State.policeNext
  split
  · exact State.Within.refl _
  · extract_lets y1
    have h2 : s.Within 0x4000a30009 y1 := by
      unfold y1
      exact (State.mapDp_within ..).mono (by rfl)
    clear_value y1
    refine State.Within.ite ?_ ?_
    · refine State.Within.trans ?_ ((State.freeFrame_within ..).mono (by rfl))
      exact State.Within.trans (by assumption) ((State.bump_within ..).mono (by rfl))
    · refine State.Within.trans ?_ ((State.policePass_within ..).mono (by rfl))
      refine State.Within.trans ?_ ((State.bump_within ..).mono (by rfl))
      exact State.Within.trans (by assumption) ((State.bump_within ..).mono (by rfl))

theorem State.admitNext_within (s : State) : s.Within 0x6000030009 s.admitNext := by
  unfold State.admitNext
  split
  · exact State.Within.refl _
  · refine State.Within.trans ?_ ((State.admitted_within ..).mono (by rfl))
    exact (State.mapDp_within ..).mono (by rfl)

theorem State.cutDecision_within (s : State) (p : Nat) : s.Within 0x10000 (s.cutDecision p) := by
  unfold State.cutDecision
  extract_lets y1 y2
  refine State.Within.ite ?_ ?_
  · exact State.Within.refl _
  · refine State.Within.each ?_ (fun u a => ?_)
    · exact State.Within.refl _
    · refine State.Within.ite ?_ ?_
      · exact State.Within.refl _
      · exact (State.mapQueue_within ..).mono (by rfl)

end Sys2Proof.Machine
end

