-- ==== Sys2Proof/Laws/WithinLinks.lean ====
section
/-! SUPPORT. The components of State that every operation of the ports, the pair, the host and the bridge may change, and that what it leaves can come after. -/
namespace Sys2Proof.Machine

/-! ## Machine/Link.lean -/

theorem State.setLst_within (s : State) (p v : Nat) : s.Within 0x1 (s.setLst p v) := by
  unfold State.setLst
  exact (State.setFld_within ..).mono (by rfl)

theorem State.setTst_within (s : State) (p v : Nat) : s.Within 0x1 (s.setTst p v) := by
  unfold State.setTst
  exact (State.setFld_within ..).mono (by rfl)

theorem State.tc10Time_within (s : State) (p : Nat) (on : Bool) : s.Within 0x10000 (s.tc10Time p on) := by
  unfold State.tc10Time
  exact (State.mapDp_within ..).mono (by rfl)

theorem State.holdDown_within (s : State) (p : Nat) (on : Bool) : s.Within 0x10000 (s.holdDown p on) := by
  unfold State.holdDown
  exact (State.mapDp_within ..).mono (by rfl)

theorem State.leaveUp_within (s : State) (p : Nat) : s.Within 0x10001 (s.leaveUp p) := by
  unfold State.leaveUp
  extract_lets y1 y2
  have h3 : s.Within 0x10001 y1 := by
    unfold y1
    refine State.Within.trans ?_ ((State.clearCredit_within ..).mono (by rfl))
    exact (State.shapersLinkLost_within ..).mono (by rfl)
  clear_value y1
  have h4 : s.Within 0x10001 y2 := by
    unfold y2
    exact State.Within.trans (by assumption) ((State.mapDp_within ..).mono (by rfl))
  clear_value y2
  exact State.Within.trans (by assumption) ((State.mapEgress_within ..).mono (by rfl))

theorem State.enterUp_within (s : State) (p : Nat) : s.Within 0x4000030009 (s.enterUp p) := by
  unfold State.enterUp
  extract_lets y1
  have h2 : s.Within 0x4000030009 y1 := by
    unfold y1
    refine State.Within.trans ?_ ((State.raise_within ..).mono (by rfl))
    exact (State.setLst_within ..).mono (by rfl)
  clear_value y1
  refine State.Within.ite ?_ ?_
  · refine State.Within.trans ?_ ((State.mapDp_within ..).mono (by rfl))
    exact State.Within.trans (by assumption) ((State.clearCredit_within ..).mono (by rfl))
  · assumption

theorem State.touchRx_within (s : State) (p : Nat) : s.Within 0x10000 (s.touchRx p) := by
  unfold State.touchRx
  extract_lets y1 y2
  refine State.Within.ite ?_ ?_
  · exact State.Within.refl _
  · exact (State.setFrame_within ..).mono (by rfl)

theorem State.mdioPush_within (s : State) (r : MdioReq) : s.Within 0x10001 (s.mdioPush r) := by
  unfold State.mdioPush
  extract_lets y1
  refine State.Within.trans ?_ ((State.setFld_within ..).mono (by rfl))
  exact (State.mapDp_within ..).mono (by rfl)

theorem State.askAsleep_within (s : State) (p : Nat) : s.Within 0x10001 (s.askAsleep p) := by
  unfold State.askAsleep
  refine State.Within.ite ?_ ?_
  · exact (State.mdioPush_within ..).mono (by rfl)
  · exact State.Within.refl _

theorem State.linkDown_within (s : State) (p : Nat) : s.Within 0x4000030009 (s.linkDown p) := by
  unfold State.linkDown
  extract_lets y1 y2 y3 y4 y5
  have h6 : s.Within 0x4000030009 y2 := by
    unfold y2
    refine State.Within.ite ?_ ?_
    · exact (State.leaveUp_within ..).mono (by rfl)
    · exact (State.clearCredit_within ..).mono (by rfl)
  clear_value y2
  have h7 : s.Within 0x4000030009 y3 := by
    unfold y3
    refine State.Within.trans ?_ ((State.bump_within ..).mono (by rfl))
    refine State.Within.trans ?_ ((State.raise_within ..).mono (by rfl))
    exact State.Within.trans (by assumption) ((State.setLst_within ..).mono (by rfl))
  clear_value y3
  have h8 : s.Within 0x4000030009 y4 := by
    unfold y4
    exact State.Within.trans (by assumption) ((State.holdDown_within ..).mono (by rfl))
  clear_value y4
  have h9 : s.Within 0x4000030009 y5 := by
    unfold y5
    refine State.Within.trans ?_ ((State.setFld_within ..).mono (by rfl))
    exact State.Within.trans (by assumption) ((State.setFld_within ..).mono (by rfl))
  clear_value y5
  refine State.Within.ite ?_ ?_
  · exact State.Within.trans (by assumption) ((State.askAsleep_within ..).mono (by rfl))
  · assumption

theorem State.linkOff_within (s : State) (p : Nat) : s.Within 0x4000030009 (s.linkOff p) := by
  unfold State.linkOff
  extract_lets y1 y2 y3 y4 y5
  have h6 : s.Within 0x4000030009 y2 := by
    unfold y2
    refine State.Within.ite ?_ ?_
    · exact (State.leaveUp_within ..).mono (by rfl)
    · exact (State.clearCredit_within ..).mono (by rfl)
  clear_value y2
  have h7 : s.Within 0x4000030009 y3 := by
    unfold y3
    refine State.Within.ite ?_ ?_
    · refine State.Within.trans ?_ ((State.bump_within ..).mono (by rfl))
      exact State.Within.trans (by assumption) ((State.raise_within ..).mono (by rfl))
    · assumption
  clear_value y3
  have h8 : s.Within 0x4000030009 y4 := by
    unfold y4
    refine State.Within.trans ?_ ((State.setFld_within ..).mono (by rfl))
    exact State.Within.trans (by assumption) ((State.setLst_within ..).mono (by rfl))
  clear_value y4
  have h9 : s.Within 0x4000030009 y5 := by
    unfold y5
    refine State.Within.trans ?_ ((State.setFld_within ..).mono (by rfl))
    refine State.Within.trans ?_ ((State.setFld_within ..).mono (by rfl))
    exact State.Within.trans (by assumption) ((State.setFld_within ..).mono (by rfl))
  clear_value y5
  refine State.Within.trans ?_ ((State.holdDown_within ..).mono (by rfl))
  refine State.Within.trans ?_ ((State.tc10Time_within ..).mono (by rfl))
  exact State.Within.trans (by assumption) ((State.setTst_within ..).mono (by rfl))

theorem State.linkOn_within (s : State) (p : Nat) : s.Within 0x1 (s.linkOn p) := by
  unfold State.linkOn
  refine State.Within.ite ?_ ?_
  · exact (State.setLst_within ..).mono (by rfl)
  · exact State.Within.refl _

theorem State.showLock_within (s : State) (p : Nat) : s.Within 0x1 (s.showLock p) := by
  unfold State.showLock
  refine State.Within.trans ?_ ((State.setFld_within ..).mono (by rfl))
  exact (State.setFld_within ..).mono (by rfl)

theorem State.pcsLock_within (s : State) (p : Nat) : s.Within 0x1 (s.pcsLock p) := by
  unfold State.pcsLock
  refine State.Within.ite ?_ ?_
  · exact (State.showLock_within ..).mono (by rfl)
  · exact State.Within.refl _

theorem State.upHold_within (s : State) (p : Nat) : s.Within 0x4000030009 (s.upHold p) := by
  unfold State.upHold
  refine State.Within.ite ?_ ?_
  · extract_lets y1
    have h2 : s.Within 0x4000030009 y1 := by
      unfold y1
      exact (State.enterUp_within ..).mono (by rfl)
    clear_value y1
    refine State.Within.ite ?_ ?_
    · refine State.Within.trans ?_ ((State.tc10Time_within ..).mono (by rfl))
      exact State.Within.trans (by assumption) ((State.setTst_within ..).mono (by rfl))
    · assumption
  · exact State.Within.refl _

theorem State.pcsLoss_within (s : State) (p : Nat) : s.Within 0x10001 (s.pcsLoss p) := by
  unfold State.pcsLoss
  refine State.Within.ite ?_ ?_
  · exact State.Within.refl _
  · extract_lets y1
    have h2 : s.Within 0x10001 y1 := by
      unfold y1
      refine State.Within.trans ?_ ((State.setFld_within ..).mono (by rfl))
      exact (State.setFld_within ..).mono (by rfl)
    clear_value y1
    refine State.Within.ite ?_ ?_
    · refine State.Within.trans ?_ ((State.holdDown_within ..).mono (by rfl))
      exact State.Within.trans (by assumption) ((State.touchRx_within ..).mono (by rfl))
    · assumption

theorem State.downHoldEnds_within (s : State) (p : Nat) : s.Within 0x4000030009 (s.downHoldEnds p) := by
  unfold State.downHoldEnds
  refine State.Within.ite ?_ ?_
  · refine State.Within.ite ?_ ?_
    · exact (State.linkDown_within ..).mono (by rfl)
    · exact (State.holdDown_within ..).mono (by rfl)
  · exact State.Within.refl _

theorem State.pcsRegained_within (s : State) (p : Nat) : s.Within 0x10001 (s.pcsRegained p) := by
  unfold State.pcsRegained
  refine State.Within.ite ?_ ?_
  · refine State.Within.trans ?_ ((State.showLock_within ..).mono (by rfl))
    exact (State.holdDown_within ..).mono (by rfl)
  · exact State.Within.refl _

theorem State.faultSet_within (s : State) (p : Nat) (remote : Bool) : s.Within 0x4000030009 (s.faultSet p remote) := by
  unfold State.faultSet
  refine State.Within.ite ?_ ?_
  · extract_lets y1 y2 y3
    have h4 : s.Within 0x4000030009 y1 := by
      unfold y1
      exact (State.setFld_within ..).mono (by rfl)
    clear_value y1
    have h5 : s.Within 0x4000030009 y2 := by
      unfold y2
      refine State.Within.trans ?_ ((State.setLst_within ..).mono (by rfl))
      exact State.Within.trans (by assumption) ((State.leaveUp_within ..).mono (by rfl))
    clear_value y2
    have h6 : s.Within 0x4000030009 y3 := by
      unfold y3
      refine State.Within.ite ?_ ?_
      · exact State.Within.trans (by assumption) ((State.raise_within ..).mono (by rfl))
      · assumption
    clear_value y3
    refine State.Within.ite ?_ ?_
    · exact State.Within.trans (by assumption) ((State.askAsleep_within ..).mono (by rfl))
    · assumption
  · exact State.Within.refl _

theorem State.faultEnds_within (s : State) (p : Nat) : s.Within 0x4000030009 (s.faultEnds p) := by
  unfold State.faultEnds
  refine State.Within.ite ?_ ?_
  · refine State.Within.trans ?_ ((State.enterUp_within ..).mono (by rfl))
    refine State.Within.trans ?_ ((State.setFld_within ..).mono (by rfl))
    exact (State.setFld_within ..).mono (by rfl)
  · exact State.Within.refl _

theorem State.speedBad_within (s : State) (p : Nat) : s.Within 0x4000030009 (s.speedBad p) := by
  unfold State.speedBad
  refine State.Within.ite ?_ ?_
  · extract_lets y1 y2 y3
    have h4 : s.Within 0x4000030009 y2 := by
      unfold y2
      exact (State.setFld_within ..).mono (by rfl)
    clear_value y2
    have h5 : s.Within 0x4000030009 y3 := by
      unfold y3
      refine State.Within.ite ?_ ?_
      · assumption
      · exact State.Within.trans (by assumption) ((State.raise_within ..).mono (by rfl))
    clear_value y3
    refine State.Within.ite ?_ ?_
    · exact State.Within.trans (by assumption) ((State.linkDown_within ..).mono (by rfl))
    · assumption
  · exact State.Within.refl _

theorem State.speedGood_within (s : State) (p : Nat) : s.Within 0x1 (s.speedGood p) := by
  unfold State.speedGood
  refine State.Within.ite ?_ ?_
  · exact (State.setFld_within ..).mono (by rfl)
  · exact State.Within.refl _

theorem State.mdioTc10_within (s : State) (p bit : Nat) (set : Bool) : s.Within 0x10001 (s.mdioTc10 p bit set) := by
  unfold State.mdioTc10
  exact (State.mdioPush_within ..).mono (by rfl)

theorem State.mdioCmd_within (s : State) (src : Src) (p op : Nat) : s.Within 0x4000830009 (s.mdioCmd src p op) := by
  unfold State.mdioCmd
  refine State.Within.ite ?_ ?_
  · exact State.Within.refl _
  · refine State.Within.ite ?_ ?_
    · exact (State.refuse_within ..).mono (by rfl)
    · refine State.Within.ite ?_ ?_
      · refine State.Within.trans ?_ ((State.mdioPush_within ..).mono (by rfl))
        exact (State.setFld_within ..).mono (by rfl)
      · exact State.Within.refl _

theorem State.mdioRead_within (s : State) (p : Nat) (answer : Option Nat) : s.Within 0x4000820009 (s.mdioRead p answer) := by
  unfold State.mdioRead
  split
  · exact (State.setFld_within ..).mono (by rfl)
  · refine State.Within.trans ?_ ((State.logErr_within ..).mono (by rfl))
    refine State.Within.trans ?_ ((State.setFld_within ..).mono (by rfl))
    exact (State.setFld_within ..).mono (by rfl)

theorem State.linkSleeps_within (s : State) (p : Nat) : s.Within 0x10001 (s.linkSleeps p) := by
  unfold State.linkSleeps
  extract_lets y1
  have h2 : s.Within 0x10001 y1 := by
    unfold y1
    refine State.Within.ite ?_ ?_
    · exact (State.leaveUp_within ..).mono (by rfl)
    · exact State.Within.refl _
  clear_value y1
  refine State.Within.trans ?_ ((State.holdDown_within ..).mono (by rfl))
  exact State.Within.trans (by assumption) ((State.setLst_within ..).mono (by rfl))

theorem State.asleepRead_within (s : State) (p : Nat) (answer : Option Nat) : s.Within 0x4000030009 (s.asleepRead p answer) := by
  unfold State.asleepRead
  refine State.Within.ite ?_ ?_
  · refine State.Within.ite ?_ ?_
    · refine State.Within.trans ?_ ((State.raise_within ..).mono (by rfl))
      refine State.Within.trans ?_ ((State.tc10Time_within ..).mono (by rfl))
      refine State.Within.trans ?_ ((State.linkSleeps_within ..).mono (by rfl))
      exact (State.setTst_within ..).mono (by rfl)
    · refine State.Within.trans ?_ ((State.tc10Time_within ..).mono (by rfl))
      exact (State.setTst_within ..).mono (by rfl)
  · exact State.Within.refl _

theorem State.mdioDone_within (s : State) (m : Nat) (answer : Option Nat) : s.Within 0x4000830009 (s.mdioDone m answer) := by
  unfold State.mdioDone
  split
  · exact State.Within.refl _
  · extract_lets y1 y2 y3 y4 y5
    have h6 : s.Within 0x4000830009 y1 := by
      unfold y1
      exact (State.emit_within ..).mono (by rfl)
    clear_value y1
    have h7 : s.Within 0x4000830009 y2 := by
      unfold y2
      refine State.Within.ite ?_ ?_
      · assumption
      · exact State.Within.trans (by assumption) ((State.mdioRead_within ..).mono (by rfl))
    clear_value y2
    have h8 : s.Within 0x4000830009 y4 := by
      unfold y4
      dsimp only [y3]
      refine State.Within.trans ?_ ((State.setFld_within ..).mono (by rfl))
      exact State.Within.trans (by assumption) ((State.mapDp_within ..).mono (by rfl))
    clear_value y4
    have h9 : s.Within 0x4000830009 y5 := by
      unfold y5
      split
      · exact State.Within.trans (by assumption) ((State.setFld_within ..).mono (by rfl))
      · assumption
    clear_value y5
    split
    · split
      · dsimp only [y3]
        refine State.Within.trans ?_ ((State.setFld_within ..).mono (by rfl))
        exact State.Within.trans (by assumption) ((State.mapDp_within ..).mono (by rfl))
      · dsimp only [y3]
        refine State.Within.trans ?_ ((State.setFld_within ..).mono (by rfl))
        exact State.Within.trans (by assumption) ((State.mapDp_within ..).mono (by rfl))
    · refine State.Within.trans ?_ ((State.asleepRead_within ..).mono (by rfl))
      dsimp only [y3]
      refine State.Within.trans ?_ ((State.setFld_within ..).mono (by rfl))
      exact State.Within.trans (by assumption) ((State.mapDp_within ..).mono (by rfl))
    · refine State.Within.trans ?_ ((State.raise_within ..).mono (by rfl))
      exact State.Within.trans (by assumption) ((State.setFld_within ..).mono (by rfl))

theorem State.phySleep_within (s : State) (p : Nat) (on : Bool) : s.Within 0x10001 (s.phySleep p on) := by
  unfold State.phySleep
  exact (State.mdioTc10_within ..).mono (by rfl)

theorem State.phyWake_within (s : State) (p : Nat) : s.Within 0x10001 (s.phyWake p) := by
  unfold State.phyWake
  exact (State.mdioTc10_within ..).mono (by rfl)

theorem State.tc10Sleep_within (s : State) (p : Nat) : s.Within 0x10001 (s.tc10Sleep p) := by
  unfold State.tc10Sleep
  refine State.Within.ite ?_ ?_
  · refine State.Within.trans ?_ ((State.tc10Time_within ..).mono (by rfl))
    exact (State.setTst_within ..).mono (by rfl)
  · exact State.Within.refl _

theorem State.tc10Wake_within (s : State) (p : Nat) : s.Within 0x10001 (s.tc10Wake p) := by
  unfold State.tc10Wake
  refine State.Within.ite ?_ ?_
  · refine State.Within.trans ?_ ((State.phySleep_within ..).mono (by rfl))
    refine State.Within.trans ?_ ((State.tc10Time_within ..).mono (by rfl))
    exact (State.setTst_within ..).mono (by rfl)
  · refine State.Within.ite ?_ ?_
    · refine State.Within.trans ?_ ((State.phyWake_within ..).mono (by rfl))
      refine State.Within.trans ?_ ((State.tc10Time_within ..).mono (by rfl))
      refine State.Within.trans ?_ ((State.setLst_within ..).mono (by rfl))
      exact (State.setTst_within ..).mono (by rfl)
    · exact State.Within.refl _

theorem State.tc10Empty_within (s : State) (p : Nat) : s.Within 0x10001 (s.tc10Empty p) := by
  unfold State.tc10Empty
  refine State.Within.ite ?_ ?_
  · exact (State.phySleep_within ..).mono (by rfl)
  · exact State.Within.refl _

theorem State.tc10Timeout_within (s : State) (p : Nat) : s.Within 0x4000830009 (s.tc10Timeout p) := by
  unfold State.tc10Timeout
  refine State.Within.ite ?_ ?_
  · refine State.Within.trans ?_ ((State.logErr_within ..).mono (by rfl))
    refine State.Within.trans ?_ ((State.phySleep_within ..).mono (by rfl))
    refine State.Within.trans ?_ ((State.tc10Time_within ..).mono (by rfl))
    exact (State.setTst_within ..).mono (by rfl)
  · refine State.Within.ite ?_ ?_
    · refine State.Within.trans ?_ ((State.logErr_within ..).mono (by rfl))
      exact (State.phyWake_within ..).mono (by rfl)
    · exact State.Within.refl _

theorem State.phyAsleep_within (s : State) (p : Nat) : s.Within 0x4000030009 (s.phyAsleep p) := by
  unfold State.phyAsleep
  refine State.Within.ite ?_ ?_
  · extract_lets y1
    have h2 : s.Within 0x4000030009 y1 := by
      unfold y1
      exact (State.linkSleeps_within ..).mono (by rfl)
    clear_value y1
    refine State.Within.ite ?_ ?_
    · refine State.Within.trans ?_ ((State.raise_within ..).mono (by rfl))
      refine State.Within.trans ?_ ((State.tc10Time_within ..).mono (by rfl))
      exact State.Within.trans (by assumption) ((State.setTst_within ..).mono (by rfl))
    · assumption
  · exact State.Within.refl _

theorem State.tc10Remote_within (s : State) (p : Nat) : s.Within 0x4000030009 (s.tc10Remote p) := by
  unfold State.tc10Remote
  refine State.Within.ite ?_ ?_
  · refine State.Within.trans ?_ ((State.tc10Time_within ..).mono (by rfl))
    refine State.Within.trans ?_ ((State.setLst_within ..).mono (by rfl))
    refine State.Within.trans ?_ ((State.raise_within ..).mono (by rfl))
    refine State.Within.trans ?_ ((State.setFld_within ..).mono (by rfl))
    exact (State.setTst_within ..).mono (by rfl)
  · refine State.Within.ite ?_ ?_
    · exact (State.setLst_within ..).mono (by rfl)
    · exact State.Within.refl _

theorem State.setHeadroom_within (s : State) (p : Nat) : s.Within 0x1 (s.setHeadroom p) := by
  unfold State.setHeadroom
  exact (State.setFld_within ..).mono (by rfl)

theorem State.creditInterval'_within (s : State) (p : Nat) : s.Within 0x10000 (s.creditInterval' p) := by
  unfold State.creditInterval'
  refine State.Within.ite ?_ ?_
  · exact (State.mapDp_within ..).mono (by rfl)
  · exact State.Within.refl _

theorem State.creditFrame_within (s : State) (p : Nat) : s.Within 0x10000 (s.creditFrame p).2 := by
  unfold State.creditFrame
  extract_lets y1
  split
  rename_i x2 e3
  have h4 : s.Within 0x10000 x2 := State.Within.of_pair e3 (by exact (State.grantHeader_within ..).mono (by rfl))
  extract_lets y5 y6 y7
  dsimp only
  assumption

theorem State.creditSend_within (s : State) (p : Nat) : s.Within 0x4000010008 (s.creditSend p) := by
  unfold State.creditSend
  refine State.Within.ite ?_ ?_
  · split
    rename_i x1 e2
    have h3 : s.Within 0x4000010008 x1 := State.Within.of_pair e2 (by exact (State.creditFrame_within ..).mono (by rfl))
    refine State.Within.trans ?_ ((State.emit_within ..).mono (by rfl))
    refine State.Within.trans ?_ ((State.bump_within ..).mono (by rfl))
    exact State.Within.trans (by assumption) ((State.mapDp_within ..).mono (by rfl))
  · exact State.Within.refl _

theorem State.creditStall_within (s : State) (p c : Nat) : s.Within 0x4000030009 (s.creditStall p c) := by
  unfold State.creditStall
  extract_lets y1 y2
  refine State.Within.ite ?_ ?_
  · refine State.Within.trans ?_ ((State.raise_within ..).mono (by rfl))
    refine State.Within.trans ?_ ((State.bump_within ..).mono (by rfl))
    exact (State.mapDp_within ..).mono (by rfl)
  · exact State.Within.refl _

/-! ## Machine/Pair.lean -/

theorem State.mapClasp_within (s : State) (f : Clasp → Clasp) : s.Within 0x800000 (s.mapClasp f) := by
  unfold State.mapClasp
  refine State.Within.set_clasp ?_ (by rfl)
  exact State.Within.refl _

theorem State.sendBeat_within (s : State) (l : List Byte) : s.Within 0x4000000000 (s.sendBeat l) := by
  unfold State.sendBeat
  refine State.Within.each ?_ (fun u a => ?_)
  · exact State.Within.refl _
  · exact (State.emit_within ..).mono (by rfl)

theorem State.sendHeartbeat_within (s : State) : s.Within 0x4000810001 s.sendHeartbeat := by
  unfold State.sendHeartbeat
  refine State.Within.ite ?_ ?_
  · extract_lets y1 y2
    have h3 : s.Within 0x4000810001 y1 := by
      unfold y1
      refine State.Within.trans ?_ ((State.refreshGrant_within ..).mono (by rfl))
      exact (State.refreshGrant_within ..).mono (by rfl)
    clear_value y1
    refine State.Within.trans ?_ ((State.mapClasp_within ..).mono (by rfl))
    refine State.Within.trans ?_ ((State.sendBeat_within ..).mono (by rfl))
    exact State.Within.trans (by assumption) ((State.setFld_within ..).mono (by rfl))
  · exact State.Within.refl _

theorem State.putControl_within (s : State) (kind seq : Nat) (last : Bool) (payload : List Byte) :
    s.Within 0x4000000008 (s.putControl kind seq last payload) := by
  unfold State.putControl
  split
  · refine State.Within.trans ?_ ((State.emit_within ..).mono (by rfl))
    exact (State.bump_within ..).mono (by rfl)
  · exact State.Within.refl _

theorem State.mapCtl_within (s : State) (kind : Nat) (f : CtlKind → CtlKind) : s.Within 0x800000 (s.mapCtl kind f) := by
  unfold State.mapCtl
  exact (State.mapClasp_within ..).mono (by rfl)

theorem State.sendPlain_within (s : State) (kind : Nat) (payload : List Byte) : s.Within 0x4000800008 (s.sendPlain kind payload) := by
  unfold State.sendPlain
  extract_lets y1
  refine State.Within.trans ?_ ((State.putControl_within ..).mono (by rfl))
  exact (State.mapCtl_within ..).mono (by rfl)

theorem State.fillWindow_within (s : State) (kind n : Nat) : s.Within 0x4000800008 (s.fillWindow kind n) := by
  induction n generalizing s with
  | zero => exact State.Within.refl s
  | succ n ih =>
    unfold State.fillWindow
    dsimp only
    split
    · exact State.Within.refl s
    · refine State.Within.ite (State.Within.refl s) (State.Within.trans ?_ (ih _))
      exact ((State.mapCtl_within ..).mono (by rfl)).trans ((State.putControl_within ..).mono (by rfl))

theorem State.sendControl_within (s : State) (kind : Nat) (last : Bool) (payload : List Byte) :
    s.Within 0x4000800008 (s.sendControl kind last payload) := by
  unfold State.sendControl
  refine State.Within.trans ?_ ((State.fillWindow_within ..).mono (by rfl))
  exact (State.mapCtl_within ..).mono (by rfl)

theorem State.acked_within (s : State) (kind seq : Nat) : s.Within 0x4000800009 (s.acked kind seq) := by
  unfold State.acked
  extract_lets y1 y2
  have h3 : s.Within 0x4000800009 y1 := by
    unfold y1
    exact (State.mapCtl_within ..).mono (by rfl)
  clear_value y1
  have h4 : s.Within 0x4000800009 y2 := by
    unfold y2
    exact State.Within.trans (by assumption) ((State.fillWindow_within ..).mono (by rfl))
  clear_value y2
  refine State.Within.ite ?_ ?_
  · exact State.Within.trans (by assumption) ((State.setFld_within ..).mono (by rfl))
  · assumption

theorem State.retransmit_within (s : State) (kind : Nat) : s.Within 0x4000000008 (s.retransmit kind) := by
  unfold State.retransmit
  refine State.Within.each ?_ (fun u a => ?_)
  · exact State.Within.refl _
  · refine State.Within.trans ?_ ((State.putControl_within ..).mono (by rfl))
    exact (State.bump_within ..).mono (by rfl)

theorem State.refreshHealth_within (s : State) : s.Within 0x4000020009 s.refreshHealth := by
  unfold State.refreshHealth
  extract_lets y1
  refine State.Within.ite ?_ ?_
  · exact State.Within.refl _
  · refine State.Within.trans ?_ ((State.raise_within ..).mono (by rfl))
    exact (State.setFld_within ..).mono (by rfl)

theorem State.refreshFence_within (s : State) : s.Within 0x1 s.refreshFence := by
  unfold State.refreshFence
  exact (State.setFld_within ..).mono (by rfl)

theorem State.showGate_within (s : State) : s.Within 0x1 s.showGate := by
  unfold State.showGate
  exact (State.setFld_within ..).mono (by rfl)

theorem State.gateMoves_within (s : State) (old : State) : s.Within 0x9 (s.gateMoves old) := by
  unfold State.gateMoves
  extract_lets y1
  refine State.Within.trans ?_ ((State.showGate_within ..).mono (by rfl))
  refine State.Within.ite ?_ ?_
  · exact (State.bump_within ..).mono (by rfl)
  · exact State.Within.refl _

theorem State.digestHold_within (s : State) : s.Within 0x800000 s.digestHold := by
  unfold State.digestHold
  refine State.Within.ite ?_ ?_
  · exact (State.mapClasp_within ..).mono (by rfl)
  · exact State.Within.refl _

theorem State.setRole_within (s : State) (role cause : Nat) : s.Within 0x4000830009 (s.setRole role cause) := by
  unfold State.setRole
  extract_lets y1 y2 y3 y4 y5 y6 y7 y8 y9
  have h10 : s.Within 0x4000830009 y2 := by
    unfold y2
    refine State.Within.trans ?_ ((State.setFld_within ..).mono (by rfl))
    refine State.Within.trans ?_ ((State.setFld_within ..).mono (by rfl))
    refine State.Within.trans ?_ ((State.setFld_within ..).mono (by rfl))
    exact (State.setFld_within ..).mono (by rfl)
  clear_value y2
  have h11 : s.Within 0x4000830009 y3 := by
    unfold y3
    refine State.Within.trans ?_ ((State.setFld_within ..).mono (by rfl))
    exact State.Within.trans (by assumption) ((State.setFld_within ..).mono (by rfl))
  clear_value y3
  have h12 : s.Within 0x4000830009 y4 := by
    unfold y4
    refine State.Within.ite ?_ ?_
    · exact State.Within.trans (by assumption) ((State.setFld_within ..).mono (by rfl))
    · assumption
  clear_value y4
  have h13 : s.Within 0x4000830009 y5 := by
    unfold y5
    exact State.Within.trans (by assumption) ((State.mapClasp_within ..).mono (by rfl))
  clear_value y5
  have h14 : s.Within 0x4000830009 y6 := by
    unfold y6
    refine State.Within.ite ?_ ?_
    · refine State.Within.trans ?_ ((State.raise_within ..).mono (by rfl))
      exact State.Within.trans (by assumption) ((State.bump_within ..).mono (by rfl))
    · assumption
  clear_value y6
  have h15 : s.Within 0x4000830009 y7 := by
    unfold y7
    refine State.Within.ite ?_ ?_
    · refine State.Within.trans ?_ ((State.raise_within ..).mono (by rfl))
      exact State.Within.trans (by assumption) ((State.bump_within ..).mono (by rfl))
    · assumption
  clear_value y7
  have h16 : s.Within 0x4000830009 y8 := by
    unfold y8
    refine State.Within.trans ?_ ((State.digestHold_within ..).mono (by rfl))
    exact State.Within.trans (by assumption) ((State.gateMoves_within ..).mono (by rfl))
  clear_value y8
  have h17 : s.Within 0x4000830009 y9 := by
    unfold y9
    refine State.Within.ite ?_ ?_
    · exact State.Within.trans (by assumption) ((State.setFld_within ..).mono (by rfl))
    · refine State.Within.ite ?_ ?_
      · exact State.Within.trans (by assumption) ((State.setFld_within ..).mono (by rfl))
      · assumption
  clear_value y9
  refine State.Within.trans ?_ ((State.refreshFence_within ..).mono (by rfl))
  exact State.Within.trans (by assumption) ((State.sendHeartbeat_within ..).mono (by rfl))

theorem State.enterListen_within (s : State) : s.Within 0x4000830009 s.enterListen := by
  unfold State.enterListen
  refine State.Within.trans ?_ ((State.setRole_within ..).mono (by rfl))
  exact (State.mapClasp_within ..).mono (by rfl)

theorem State.clspEnter_within (s : State) : s.Within 0x4000830009 s.clspEnter := by
  unfold State.clspEnter
  refine State.Within.ite ?_ ?_
  · exact (State.enterListen_within ..).mono (by rfl)
  · exact State.Within.refl _

theorem State.clspLeave_within (s : State) : s.Within 0x4000830009 s.clspLeave := by
  unfold State.clspLeave
  refine State.Within.ite ?_ ?_
  · exact State.Within.refl _
  · exact (State.setRole_within ..).mono (by rfl)

theorem State.beatRole_within (s : State) (role : Nat) (prefer take yield : Bool) : s.Within 0x4000830009 (s.beatRole role prefer take yield) := by
  unfold State.beatRole
  extract_lets y1 y2 y3
  have h4 : s.Within 0x4000830009 y3 := by
    unfold y3
    exact (State.mapClasp_within ..).mono (by rfl)
  clear_value y3
  refine State.Within.ite ?_ ?_
  · refine State.Within.ite ?_ ?_
    · exact (State.setRole_within ..).mono (by rfl)
    · refine State.Within.ite ?_ ?_
      · refine State.Within.ite ?_ ?_
        · exact (State.setRole_within ..).mono (by rfl)
        · exact (State.setRole_within ..).mono (by rfl)
      · exact State.Within.refl _
  · refine State.Within.ite ?_ ?_
    · refine State.Within.ite ?_ ?_
      · exact (State.setRole_within ..).mono (by rfl)
      · refine State.Within.ite ?_ ?_
        · exact State.Within.trans (by assumption) ((State.setRole_within ..).mono (by rfl))
        · assumption
    · refine State.Within.ite ?_ ?_
      · refine State.Within.ite ?_ ?_
        · exact (State.setRole_within ..).mono (by rfl)
        · exact State.Within.refl _
      · refine State.Within.ite ?_ ?_
        · refine State.Within.ite ?_ ?_
          · exact (State.setRole_within ..).mono (by rfl)
          · refine State.Within.ite ?_ ?_
            · exact (State.setRole_within ..).mono (by rfl)
            · exact State.Within.refl _
        · exact State.Within.refl _

theorem State.sendSnapshot_within (s : State) : s.Within 0x4000800009 s.sendSnapshot := by
  unfold State.sendSnapshot
  extract_lets y1 y2 y3
  have h4 : s.Within 0x4000800009 y3 := by
    unfold y3
    refine State.Within.trans ?_ ((State.setFld_within ..).mono (by rfl))
    exact (State.mapClasp_within ..).mono (by rfl)
  clear_value y3
  refine State.Within.each ?_ (fun u a => ?_)
  · assumption
  · exact (State.sendControl_within ..).mono (by rfl)

theorem State.applyEntries_within (s : State) (l : List Byte) (n : Nat) : s.Within 0x210000 (s.applyEntries l n) := by
  induction n generalizing s l with
  | zero => exact State.Within.refl s
  | succ n ih =>
    unfold State.applyEntries
    dsimp only
    refine State.Within.ite (State.Within.refl s) (State.Within.ite ?_ ?_)
    · exact ((State.loadMeter_within ..).mono (by rfl)).trans (ih _ _)
    · exact ((State.loadFunc_within ..).mono (by rfl)).trans (ih _ _)

theorem State.joinFrame_within (s : State) (last : Bool) (payload : List Byte) : s.Within 0x4000a30009 (s.joinFrame last payload) := by
  unfold State.joinFrame
  refine State.Within.ite ?_ ?_
  · extract_lets y1
    have h2 : s.Within 0x4000a30009 y1 := by
      unfold y1
      exact (State.applyEntries_within ..).mono (by rfl)
    clear_value y1
    refine State.Within.ite ?_ ?_
    · refine State.Within.trans ?_ ((State.raise_within ..).mono (by rfl))
      refine State.Within.trans ?_ ((State.setRole_within ..).mono (by rfl))
      exact State.Within.trans (by assumption) ((State.mapClasp_within ..).mono (by rfl))
    · assumption
  · exact State.Within.refl _

theorem State.diverge_within (s : State) (w : Nat) (d : List Nat) : s.Within 0x4000830009 (s.diverge w d) := by
  unfold State.diverge
  extract_lets y1 y2 y3 y4 y5
  have h6 : s.Within 0x4000830009 y2 := by
    unfold y2
    refine State.Within.trans ?_ ((State.setFld_within ..).mono (by rfl))
    exact (State.bump_within ..).mono (by rfl)
  clear_value y2
  have h7 : s.Within 0x4000830009 y4 := by
    unfold y4
    exact State.Within.trans (by assumption) ((State.setFld_within ..).mono (by rfl))
  clear_value y4
  have h8 : s.Within 0x4000830009 y5 := by
    unfold y5
    refine State.Within.ite ?_ ?_
    · assumption
    · refine State.Within.trans ?_ ((State.raise_within ..).mono (by rfl))
      refine State.Within.trans ?_ ((State.setFld_within ..).mono (by rfl))
      exact State.Within.trans (by assumption) ((State.setFld_within ..).mono (by rfl))
  clear_value y5
  refine State.Within.ite ?_ ?_
  · refine State.Within.ite ?_ ?_
    · exact State.Within.trans (by assumption) ((State.setRole_within ..).mono (by rfl))
    · exact State.Within.trans (by assumption) ((State.bump_within ..).mono (by rfl))
  · assumption

theorem State.compareDigest_within (s : State) (a b : DigWin) : s.Within 0x4000830009 (s.compareDigest a b) := by
  unfold State.compareDigest
  extract_lets y1 y2 y3 y4 y5 y6
  have h7 : s.Within 0x4000830009 y1 := by
    unfold y1
    exact (State.mapClasp_within ..).mono (by rfl)
  clear_value y1
  have h8 : s.Within 0x4000830009 y5 := by
    unfold y5
    exact State.Within.trans (by assumption) ((State.bump_within ..).mono (by rfl))
  clear_value y5
  have h9 : s.Within 0x4000830009 y6 := by
    unfold y6
    refine State.Within.ite ?_ ?_
    · exact State.Within.trans (by assumption) ((State.bump_within ..).mono (by rfl))
    · assumption
  clear_value y6
  refine State.Within.ite ?_ ?_
  · refine State.Within.trans ?_ ((State.bump_within ..).mono (by rfl))
    exact State.Within.trans (by assumption) ((State.digestHold_within ..).mono (by rfl))
  · refine State.Within.ite ?_ ?_
    · refine State.Within.trans ?_ ((State.bump_within ..).mono (by rfl))
      exact State.Within.trans (by assumption) ((State.mapClasp_within ..).mono (by rfl))
    · refine State.Within.ite ?_ ?_
      · exact State.Within.trans (by assumption) ((State.mapClasp_within ..).mono (by rfl))
      · refine State.Within.ite ?_ ?_
        · refine State.Within.trans ?_ ((State.diverge_within ..).mono (by rfl))
          exact State.Within.trans (by assumption) ((State.mapClasp_within ..).mono (by rfl))
        · exact State.Within.trans (by assumption) ((State.mapClasp_within ..).mono (by rfl))

theorem State.tryCompare_within (s : State) (w : Nat) : s.Within 0x4000830009 (s.tryCompare w) := by
  unfold State.tryCompare
  extract_lets y1
  split
  · refine State.Within.ite ?_ ?_
    · exact (State.compareDigest_within ..).mono (by rfl)
    · exact State.Within.refl _
  · exact State.Within.refl _

theorem State.closeWindow_within (s : State) : s.Within 0x4000830009 s.closeWindow := by
  unfold State.closeWindow
  extract_lets y1 y2 y3 y4 y5
  have h6 : s.Within 0x4000830009 y5 := by
    unfold y5
    exact (State.mapClasp_within ..).mono (by rfl)
  clear_value y5
  refine State.Within.ite ?_ ?_
  · exact State.Within.refl _
  · refine State.Within.trans ?_ ((State.tryCompare_within ..).mono (by rfl))
    exact State.Within.trans (by assumption) ((State.sendBeat_within ..).mono (by rfl))

theorem State.digestMissing_within (s : State) : s.Within 0x800008 s.digestMissing := by
  unfold State.digestMissing
  extract_lets y1
  split
  · exact State.Within.refl _
  · refine State.Within.trans ?_ ((State.bump_within ..).mono (by rfl))
    exact (State.mapClasp_within ..).mono (by rfl)

theorem State.laneRises_within (s : State) (i : Nat) : s.Within 0x4000030009 (s.laneRises i) := by
  unfold State.laneRises
  refine State.Within.ite ?_ ?_
  · extract_lets y1
    have h2 : s.Within 0x4000030009 y1 := by
      unfold y1
      exact (State.setFld_within ..).mono (by rfl)
    clear_value y1
    refine State.Within.ite ?_ ?_
    · assumption
    · exact State.Within.trans (by assumption) ((State.enterUp_within ..).mono (by rfl))
  · exact State.Within.refl _

theorem State.laneLocks_within (s : State) (i : Nat) : s.Within 0x800001 (s.laneLocks i) := by
  unfold State.laneLocks
  refine State.Within.ite ?_ ?_
  · exact State.Within.refl _
  · refine State.Within.trans ?_ ((State.setFld_within ..).mono (by rfl))
    exact (State.mapClasp_within ..).mono (by rfl)

theorem State.laneLeaves_within (s : State) (i : Nat) : s.Within 0x4000030009 (s.laneLeaves i) := by
  unfold State.laneLeaves
  refine State.Within.ite ?_ ?_
  · extract_lets y1 y2 y3
    have h4 : s.Within 0x4000030009 y1 := by
      unfold y1
      exact (State.setFld_within ..).mono (by rfl)
    clear_value y1
    have h5 : s.Within 0x4000030009 y2 := by
      unfold y2
      refine State.Within.trans ?_ ((State.raise_within ..).mono (by rfl))
      exact State.Within.trans (by assumption) ((State.bump_within ..).mono (by rfl))
    clear_value y2
    have h6 : s.Within 0x4000030009 y3 := by
      unfold y3
      exact State.Within.trans (by assumption) ((State.mapEgress_within ..).mono (by rfl))
    clear_value y3
    refine State.Within.ite ?_ ?_
    · exact State.Within.trans (by assumption) ((State.linkDown_within ..).mono (by rfl))
    · assumption
  · exact State.Within.refl _

theorem State.laneFalls_within (s : State) (i : Nat) : s.Within 0x4000830009 (s.laneFalls i) := by
  unfold State.laneFalls
  extract_lets y1
  have h2 : s.Within 0x4000830009 y1 := by
    unfold y1
    exact (State.mapClasp_within ..).mono (by rfl)
  clear_value y1
  refine State.Within.trans ?_ ((State.laneLeaves_within ..).mono (by rfl))
  exact State.Within.trans (by assumption) ((State.setFld_within ..).mono (by rfl))

theorem State.lanesReset_within (s : State) : s.Within 0x4000030009 s.lanesReset := by
  unfold State.lanesReset
  refine State.Within.each ?_ (fun u a => ?_)
  · exact State.Within.refl _
  · exact (State.laneLeaves_within ..).mono (by rfl)

theorem State.lanesOff_within (s : State) : s.Within 0x4000830009 s.lanesOff := by
  unfold State.lanesOff
  refine State.Within.each ?_ (fun u a => ?_)
  · exact State.Within.refl _
  · exact (State.laneFalls_within ..).mono (by rfl)

theorem State.beatCredit_within (s : State) (l : List Byte) : s.Within 0x4000030009 (s.beatCredit l) := by
  unfold State.beatCredit
  refine State.Within.ite ?_ ?_
  · exact (State.creditArrives_within ..).mono (by rfl)
  · exact State.Within.refl _

theorem State.beatTaken_within (s : State) (l : List Byte) (role : Nat) : s.Within 0x4000820009 (s.beatTaken l role) := by
  unfold State.beatTaken
  extract_lets y1 y2 y3 y4 y5 y6 y7 y8
  have h9 : s.Within 0x4000820009 y3 := by
    unfold y3
    refine State.Within.ite ?_ ?_
    · exact State.Within.refl _
    · refine State.Within.trans ?_ ((State.raise_within ..).mono (by rfl))
      exact (State.setFld_within ..).mono (by rfl)
  clear_value y3
  have h10 : s.Within 0x4000820009 y7 := by
    unfold y7
    exact State.Within.trans (by assumption) ((State.mapClasp_within ..).mono (by rfl))
  clear_value y7
  have h11 : s.Within 0x4000820009 y8 := by
    unfold y8
    refine State.Within.ite ?_ ?_
    · exact State.Within.trans (by assumption) ((State.setFld_within ..).mono (by rfl))
    · refine State.Within.ite ?_ ?_
      · refine State.Within.trans ?_ ((State.raise_within ..).mono (by rfl))
        exact State.Within.trans (by assumption) ((State.setFld_within ..).mono (by rfl))
      · assumption
  clear_value y8
  refine State.Within.trans ?_ ((State.digestHold_within ..).mono (by rfl))
  refine State.Within.ite ?_ ?_
  · assumption
  · exact State.Within.trans (by assumption) ((State.setFld_within ..).mono (by rfl))

theorem State.heartbeat_within (s : State) (lane : Nat) (blocks : List BeatBlock) : s.Within 0x4000830009 (s.heartbeat lane blocks) := by
  unfold State.heartbeat
  extract_lets y1 y2 y3 y4 y5 y6 y7 y8 y9 y10
  have h11 : s.Within 0x4000830009 y4 := by
    unfold y4
    exact (State.setFld_within ..).mono (by rfl)
  clear_value y4
  have h12 : s.Within 0x4000830009 y5 := by
    unfold y5
    refine State.Within.trans ?_ ((State.mapClasp_within ..).mono (by rfl))
    exact State.Within.trans (by assumption) ((State.setFld_within ..).mono (by rfl))
  clear_value y5
  have h13 : s.Within 0x4000830009 y8 := by
    unfold y8
    exact State.Within.trans (by assumption) ((State.beatCredit_within ..).mono (by rfl))
  clear_value y8
  have h14 : s.Within 0x4000830009 y9 := by
    unfold y9
    exact State.Within.trans (by assumption) ((State.beatTaken_within ..).mono (by rfl))
  clear_value y9
  have h15 : s.Within 0x4000830009 y10 := by
    unfold y10
    exact State.Within.trans (by assumption) ((State.beatRole_within ..).mono (by rfl))
  clear_value y10
  refine State.Within.ite ?_ ?_
  · exact State.Within.refl _
  · refine State.Within.ite ?_ ?_
    · exact (State.bump_within ..).mono (by rfl)
    · refine State.Within.ite ?_ ?_
      · assumption
      · refine State.Within.ite ?_ ?_
        · exact State.Within.trans (by assumption) ((State.logErr_within ..).mono (by rfl))
        · refine State.Within.ite ?_ ?_
          · exact State.Within.trans (by assumption) ((State.sendSnapshot_within ..).mono (by rfl))
          · assumption

theorem State.heartbeatLost_within (s : State) : s.Within 0x4000830009 s.heartbeatLost := by
  unfold State.heartbeatLost
  refine State.Within.ite ?_ ?_
  · exact State.Within.refl _
  · extract_lets y1 y2 y3 y4
    have h5 : s.Within 0x4000830009 y3 := by
      unfold y3
      refine State.Within.trans ?_ ((State.bump_within ..).mono (by rfl))
      exact (State.setFld_within ..).mono (by rfl)
    clear_value y3
    have h6 : s.Within 0x4000830009 y4 := by
      unfold y4
      refine State.Within.trans ?_ ((State.setFld_within ..).mono (by rfl))
      exact State.Within.trans (by assumption) ((State.mapClasp_within ..).mono (by rfl))
    clear_value y4
    split
    · exact State.Within.trans (by assumption) ((State.enterListen_within ..).mono (by rfl))
    · exact State.Within.trans (by assumption) ((State.setRole_within ..).mono (by rfl))
    · refine State.Within.trans ?_ ((State.raise_within ..).mono (by rfl))
      exact State.Within.trans (by assumption) ((State.setRole_within ..).mono (by rfl))
    · refine State.Within.trans ?_ ((State.raise_within ..).mono (by rfl))
      exact State.Within.trans (by assumption) ((State.setRole_within ..).mono (by rfl))
    · refine State.Within.ite ?_ ?_
      · assumption
      · refine State.Within.trans ?_ ((State.raise_within ..).mono (by rfl))
        exact State.Within.trans (by assumption) ((State.setRole_within ..).mono (by rfl))
    · assumption

theorem State.fenceFalls_within (s : State) : s.Within 0x4000830009 s.fenceFalls := by
  unfold State.fenceFalls
  refine State.Within.ite ?_ ?_
  · extract_lets y1
    have h2 : s.Within 0x4000830009 y1 := by
      unfold y1
      exact (State.setFld_within ..).mono (by rfl)
    clear_value y1
    split
    · exact State.Within.trans (by assumption) ((State.setRole_within ..).mono (by rfl))
    · exact State.Within.trans (by assumption) ((State.enterListen_within ..).mono (by rfl))
    · exact State.Within.trans (by assumption) ((State.setRole_within ..).mono (by rfl))
    · refine State.Within.ite ?_ ?_
      · refine State.Within.trans ?_ ((State.raise_within ..).mono (by rfl))
        exact State.Within.trans (by assumption) ((State.setRole_within ..).mono (by rfl))
      · assumption
    · assumption
  · exact State.Within.refl _

theorem State.listenTimeout_within (s : State) : s.Within 0x4000830009 s.listenTimeout := by
  unfold State.listenTimeout
  refine State.Within.ite ?_ ?_
  · extract_lets y1 y2
    have h3 : s.Within 0x4000830009 y2 := by
      unfold y2
      exact (State.mapClasp_within ..).mono (by rfl)
    clear_value y2
    refine State.Within.ite ?_ ?_
    · refine State.Within.trans ?_ ((State.raise_within ..).mono (by rfl))
      exact State.Within.trans (by assumption) ((State.setRole_within ..).mono (by rfl))
    · refine State.Within.ite ?_ ?_
      · refine State.Within.trans ?_ ((State.raise_within ..).mono (by rfl))
        exact State.Within.trans (by assumption) ((State.setRole_within ..).mono (by rfl))
      · assumption
  · exact State.Within.refl _

theorem State.cmdRefused_within (s : State) (src : Src) : s.Within 0x4000820009 (s.cmdRefused src) := by
  unfold State.cmdRefused
  exact (State.logErr_within ..).mono (by rfl)

theorem State.roleTake_within (s : State) (src : Src) : s.Within 0x4000830009 (s.roleTake src) := by
  unfold State.roleTake
  refine State.Within.ite ?_ ?_
  · exact (State.setRole_within ..).mono (by rfl)
  · exact (State.cmdRefused_within ..).mono (by rfl)

theorem State.roleYield_within (s : State) (src : Src) : s.Within 0x4000820009 (s.roleYield src) := by
  unfold State.roleYield
  extract_lets y1
  refine State.Within.ite ?_ ?_
  · exact (State.mapClasp_within ..).mono (by rfl)
  · exact (State.cmdRefused_within ..).mono (by rfl)

theorem State.roleForce_within (s : State) (src : Src) : s.Within 0x4000830009 (s.roleForce src) := by
  unfold State.roleForce
  refine State.Within.ite ?_ ?_
  · exact (State.setRole_within ..).mono (by rfl)
  · exact (State.cmdRefused_within ..).mono (by rfl)

theorem State.roleCmd_within (s : State) (src : Src) (cmd : Nat) : s.Within 0x4000830009 (s.roleCmd src cmd) := by
  unfold State.roleCmd
  split
  · exact (State.roleTake_within ..).mono (by rfl)
  · exact (State.roleYield_within ..).mono (by rfl)
  · exact (State.roleForce_within ..).mono (by rfl)
  · exact State.Within.refl _

theorem State.holdExpires_within (s : State) (q : Nat) : s.Within 0x10009 (s.holdExpires q) := by
  unfold State.holdExpires
  split
  · refine State.Within.ite ?_ ?_
    · refine State.Within.trans ?_ ((State.bump_within ..).mono (by rfl))
      exact (State.discardCopy_within ..).mono (by rfl)
    · exact State.Within.refl _
  · exact State.Within.refl _

theorem State.digestArrives_within (s : State) (lane : Nat) (blocks : List BeatBlock) : s.Within 0x4000830009 (s.digestArrives lane blocks) := by
  unfold State.digestArrives
  extract_lets y1 y2 y3 y4
  refine State.Within.ite ?_ ?_
  · exact State.Within.refl _
  · refine State.Within.ite ?_ ?_
    · exact (State.bump_within ..).mono (by rfl)
    · refine State.Within.ite ?_ ?_
      · exact State.Within.refl _
      · refine State.Within.trans ?_ ((State.tryCompare_within ..).mono (by rfl))
        exact (State.mapClasp_within ..).mono (by rfl)

theorem State.traceRelease_within (s : State) : s.Within 0x1 s.traceRelease := by
  unfold State.traceRelease
  refine State.Within.trans ?_ ((State.setFld_within ..).mono (by rfl))
  exact (State.setFld_within ..).mono (by rfl)

/-! ## Machine/Mgmt.lean -/

theorem State.bufferStore_within (s : State) (m addr : Nat) (l : List Byte) : s.Within 0x2000080 (s.bufferStore m addr l) := by
  unfold State.bufferStore
  extract_lets y1 y2 y3 y4
  have h5 : s.Within 0x2000080 y4 := by
    unfold y4
    refine State.Within.ite ?_ ?_
    · exact State.Within.refl _
    · exact (State.releaseOne_within ..).mono (by rfl)
  clear_value y4
  split
  · refine State.Within.ite ?_ ?_
    · dsimp only [y3]
      exact (State.mapProcs_within ..).mono (by rfl)
    · dsimp only [y3]
      exact State.Within.trans (by assumption) ((State.mapProcs_within ..).mono (by rfl))
  · dsimp only [y3]
    exact (State.mapProcs_within ..).mono (by rfl)

theorem State.fillLine_within (s : State) (code : Bool) (m off : Nat) : s.Within 0x2002000000 (s.fillLine code m off) := by
  unfold State.fillLine
  extract_lets y1 y2 y3
  split
  rename_i x4 e5
  have h6 : s.Within 0x2002000000 x4 := State.Within.of_pair e5 (by exact (State.draw_within ..).mono (by rfl))
  extract_lets y7
  exact State.Within.trans (by assumption) ((State.mapProcs_within ..).mono (by rfl))

theorem State.storeLines_within (s : State) (m a : Nat) (l : List Byte) : s.Within 0x2000000 (s.storeLines m a l) := by
  unfold State.storeLines
  extract_lets y1
  exact (State.mapProcs_within ..).mono (by rfl)

theorem State.fenceI_within (s : State) (m : Nat) : s.Within 0x2000000 (s.fenceI m) := by
  unfold State.fenceI
  exact (State.mapProcs_within ..).mono (by rfl)

theorem State.setMp_within (s : State) (m st : Nat) : s.Within 0x2000001 (s.setMp m st) := by
  unfold State.setMp
  extract_lets y1
  have h2 : s.Within 0x2000001 y1 := by
    unfold y1
    exact (State.setFld_within ..).mono (by rfl)
  clear_value y1
  refine State.Within.ite ?_ ?_
  · exact State.Within.trans (by assumption) ((State.mapProcs_within ..).mono (by rfl))
  · assumption

theorem State.mpFenced_within (s : State) (m cause : Nat) : s.Within 0x4002020009 (s.mpFenced m cause) := by
  unfold State.mpFenced
  refine State.Within.trans ?_ ((State.raise_within ..).mono (by rfl))
  refine State.Within.trans ?_ ((State.bump_within ..).mono (by rfl))
  refine State.Within.trans ?_ ((State.setFld_within ..).mono (by rfl))
  exact (State.setMp_within ..).mono (by rfl)

theorem State.mpStart_within (s : State) (m : Nat) : s.Within 0x2000001 (s.mpStart m) := by
  unfold State.mpStart
  refine State.Within.ite ?_ ?_
  · exact (State.setMp_within ..).mono (by rfl)
  · exact State.Within.refl _

theorem State.mpGo_within (s : State) (m : Nat) : s.Within 0x2000001 (s.mpGo m) := by
  unfold State.mpGo
  refine State.Within.ite ?_ ?_
  · exact (State.setMp_within ..).mono (by rfl)
  · exact State.Within.refl _

theorem State.mpFenceReq_within (s : State) (src : Src) (m : Nat) : s.Within 0x4002820009 (s.mpFenceReq src m) := by
  unfold State.mpFenceReq
  refine State.Within.ite ?_ ?_
  · exact State.Within.refl _
  · refine State.Within.ite ?_ ?_
    · exact (State.setMp_within ..).mono (by rfl)
    · exact (State.logErr_within ..).mono (by rfl)

theorem State.mpDrained_within (s : State) (m : Nat) : s.Within 0x4002020089 (s.mpDrained m) := by
  unfold State.mpDrained
  refine State.Within.ite ?_ ?_
  · refine State.Within.trans ?_ ((State.mpFenced_within ..).mono (by rfl))
    exact (State.drainMp_within ..).mono (by rfl)
  · exact State.Within.refl _

theorem State.mpTested_within (s : State) (m : Nat) (bad : Option Nat) : s.Within 0x4002020009 (s.mpTested m bad) := by
  unfold State.mpTested
  refine State.Within.ite ?_ ?_
  · exact State.Within.refl _
  · split
    · refine State.Within.trans ?_ ((State.mpFenced_within ..).mono (by rfl))
      exact (State.setFld_within ..).mono (by rfl)
    · exact (State.setMp_within ..).mono (by rfl)

theorem State.mpMismatch_within (s : State) (m channel pc : Nat) : s.Within 0x4002020089 (s.mpMismatch m channel pc) := by
  unfold State.mpMismatch
  refine State.Within.ite ?_ ?_
  · extract_lets y1 y2 y3
    have h4 : s.Within 0x4002020089 y1 := by
      unfold y1
      refine State.Within.trans ?_ ((State.setFld_within ..).mono (by rfl))
      exact (State.drainMp_within ..).mono (by rfl)
    clear_value y1
    have h5 : s.Within 0x4002020089 y2 := by
      unfold y2
      refine State.Within.trans ?_ ((State.mpFenced_within ..).mono (by rfl))
      refine State.Within.trans ?_ ((State.bump_within ..).mono (by rfl))
      exact State.Within.trans (by assumption) ((State.setFld_within ..).mono (by rfl))
    clear_value y2
    have h6 : s.Within 0x4002020089 y3 := by
      unfold y3
      exact State.Within.trans (by assumption) ((State.raise_within ..).mono (by rfl))
    clear_value y3
    refine State.Within.ite ?_ ?_
    · split
      · exact State.Within.trans (by assumption) ((State.mpGo_within ..).mono (by rfl))
      · exact State.Within.trans (by assumption) ((State.raise_within ..).mono (by rfl))
    · assumption
  · exact State.Within.refl _

theorem State.mbxPut_within (s : State) (slot at' : Nat) (l : List Byte) : s.Within 0x20000c0 (s.mbxPut slot at' l) := by
  unfold State.mbxPut
  refine State.Within.ite ?_ ?_
  · refine State.Within.set_scratch ?_ (by rfl)
    exact State.Within.refl _
  · refine State.Within.trans ?_ ((State.mapMsram_within ..).mono (by rfl))
    exact (State.dropLines_within ..).mono (by rfl)

theorem State.mbxDone_within (s : State) (slot status : Nat) (rsp : List Byte) : s.Within 0x40020200c9 (s.mbxDone slot status rsp) := by
  unfold State.mbxDone
  extract_lets y1 y2 y3
  have h4 : s.Within 0x40020200c9 y2 := by
    unfold y2
    exact (State.mbxPut_within ..).mono (by rfl)
  clear_value y2
  have h5 : s.Within 0x40020200c9 y3 := by
    unfold y3
    exact State.Within.trans (by assumption) ((State.mbxPut_within ..).mono (by rfl))
  clear_value y3
  refine State.Within.trans ?_ ((State.raise_within ..).mono (by rfl))
  exact State.Within.trans (by assumption) ((State.setFld_within ..).mono (by rfl))

theorem State.mbxTake_within (s : State) (slot : Nat) : s.Within 0x40020200c9 (s.mbxTake slot) := by
  unfold State.mbxTake
  extract_lets y1 y2 y3
  have h4 : s.Within 0x40020200c9 y2 := by
    unfold y2
    exact (State.mapProcs_within ..).mono (by rfl)
  clear_value y2
  have h5 : s.Within 0x40020200c9 y3 := by
    unfold y3
    refine State.Within.trans ?_ ((State.bump_within ..).mono (by rfl))
    refine State.Within.trans ?_ ((State.setFld_within ..).mono (by rfl))
    exact State.Within.trans (by assumption) ((State.setFld_within ..).mono (by rfl))
  clear_value y3
  refine State.Within.ite ?_ ?_
  · assumption
  · exact State.Within.trans (by assumption) ((State.mbxDone_within ..).mono (by rfl))

theorem State.eccSeen_within (s : State) (msram scratch : Nat) : s.Within 0x8 (s.eccSeen msram scratch) := by
  unfold State.eccSeen
  refine State.Within.trans ?_ ((State.bump_within ..).mono (by rfl))
  exact (State.bump_within ..).mono (by rfl)

theorem State.takeRung_within (s : State) : s.Within 0x40020200c9 s.takeRung := by
  unfold State.takeRung
  refine State.Within.each ?_ (fun u a => ?_)
  · exact State.Within.refl _
  · refine State.Within.ite ?_ ?_
    · exact (State.mbxTake_within ..).mono (by rfl)
    · exact State.Within.refl _

theorem State.mbxRing_within (s : State) (src : Src) (p : Page) (off slot corr : Nat) : s.Within 0x40028200c9 (s.mbxRing src p off slot corr) := by
  unfold State.mbxRing
  refine State.Within.ite ?_ ?_
  · exact (State.refuse_within ..).mono (by rfl)
  · refine State.Within.ite ?_ ?_
    · refine State.Within.trans ?_ ((State.mbxTake_within ..).mono (by rfl))
      refine State.Within.ite ?_ ?_
      · exact (State.eccSeen_within ..).mono (by rfl)
      · exact (State.eccSeen_within ..).mono (by rfl)
    · exact (State.mapProcs_within ..).mono (by rfl)

theorem State.mbxRun_within {m : Nat} (s : State) (slot cmd : Nat) (act : State → State) (h : ∀ u : State, u.Within m (act u))
    (_k : 0x0 ||| m = m) : s.Within m (s.mbxRun slot cmd act) := State.Within.ite (h s) (State.Within.refl s)

theorem State.setTp_within (s : State) (v : Nat) : s.Within 0x2000000 (s.setTp v) := by
  unfold State.setTp
  exact (State.mapProcs_within ..).mono (by rfl)

theorem State.tpTested_within (s : State) (bad : Option Nat) : s.Within 0x4002820009 (s.tpTested bad) := by
  unfold State.tpTested
  refine State.Within.ite ?_ ?_
  · exact State.Within.refl _
  · split
    · exact (State.setTp_within ..).mono (by rfl)
    · refine State.Within.trans ?_ ((State.logErr_within ..).mono (by rfl))
      refine State.Within.trans ?_ ((State.setFld_within ..).mono (by rfl))
      exact (State.setTp_within ..).mono (by rfl)

theorem State.tpLeaves_within (s : State) : s.Within 0x2000001 s.tpLeaves := by
  unfold State.tpLeaves
  refine State.Within.trans ?_ ((State.setTp_within ..).mono (by rfl))
  refine State.Within.trans ?_ ((State.setFld_within ..).mono (by rfl))
  exact (State.setFld_within ..).mono (by rfl)

theorem State.tpMismatch_within (s : State) (channel : Nat) : s.Within 0x4002020009 (s.tpMismatch channel) := by
  unfold State.tpMismatch
  refine State.Within.ite ?_ ?_
  · extract_lets y1
    have h2 : s.Within 0x4002020009 y1 := by
      unfold y1
      refine State.Within.trans ?_ ((State.setFld_within ..).mono (by rfl))
      exact (State.tpLeaves_within ..).mono (by rfl)
    clear_value y1
    refine State.Within.trans ?_ ((State.raise_within ..).mono (by rfl))
    exact State.Within.trans (by assumption) ((State.bump_within ..).mono (by rfl))
  · refine State.Within.ite ?_ ?_
    · refine State.Within.trans ?_ ((State.raise_within ..).mono (by rfl))
      refine State.Within.trans ?_ ((State.bump_within ..).mono (by rfl))
      refine State.Within.trans ?_ ((State.setFld_within ..).mono (by rfl))
      exact (State.setTp_within ..).mono (by rfl)
    · exact State.Within.refl _

theorem State.tpResumes_within (s : State) (apart : Nat → Bool) : s.Within 0x40020200c9 (s.tpResumes apart) := by
  unfold State.tpResumes
  extract_lets y1
  have h2 : s.Within 0x40020200c9 y1 := by
    unfold y1
    refine State.Within.trans ?_ ((State.setFld_within ..).mono (by rfl))
    refine State.Within.trans ?_ ((State.setFld_within ..).mono (by rfl))
    exact (State.setTp_within ..).mono (by rfl)
  clear_value y1
  refine State.Within.each ?_ (fun u a => ?_)
  · assumption
  · exact (State.mbxDone_within ..).mono (by rfl)

theorem State.mringNext_within (s : State) (r : Nat) : s.Within 0x1 (s.mringNext r) := by
  unfold State.mringNext
  exact (State.setFld_within ..).mono (by rfl)

theorem State.mgmtTx_within (s : State) (r : Nat) (ecc : Bool) (corr : Nat) : s.Within 0x6002830089 (s.mgmtTx r ecc corr) := by
  unfold State.mgmtTx
  refine State.Within.ite ?_ ?_
  · exact State.Within.refl _
  · extract_lets y1 y2 y3 y4 y5 y6 y7 y8 y9 y10 y11
    have h12 : s.Within 0x6002830089 y1 := by
      unfold y1
      exact (State.eccSeen_within ..).mono (by rfl)
    clear_value y1
    have h13 : s.Within 0x6002830089 y8 := by
      unfold y8
      exact State.Within.trans (by assumption) ((State.bump_within ..).mono (by rfl))
    clear_value y8
    have h14 : s.Within 0x6002830089 y9 := by
      unfold y9
      refine State.Within.ite ?_ ?_
      · exact State.Within.trans (by assumption) ((State.bump_within ..).mono (by rfl))
      · refine State.Within.ite ?_ ?_
        · exact State.Within.trans (by assumption) ((State.sendControl_within ..).mono (by rfl))
        · exact State.Within.trans (by assumption) ((State.inject_within ..).mono (by rfl))
    clear_value y9
    have h15 : s.Within 0x6002830089 y10 := by
      unfold y10
      exact State.Within.trans (by assumption) ((State.msramPut_within ..).mono (by rfl))
    clear_value y10
    have h16 : s.Within 0x6002830089 y11 := by
      unfold y11
      exact State.Within.trans (by assumption) ((State.mringNext_within ..).mono (by rfl))
    clear_value y11
    refine State.Within.ite ?_ ?_
    · exact State.Within.trans (by assumption) ((State.raise_within ..).mono (by rfl))
    · assumption

theorem State.mringFill_within (s : State) (r : Nat) (l : List Byte) (orig w2 w3 w4 : Nat) :
    s.Within 0x4002020089 (s.mringFill r l orig w2 w3 w4) := by
  unfold State.mringFill
  refine State.Within.ite ?_ ?_
  · refine State.Within.trans ?_ ((State.raise_within ..).mono (by rfl))
    exact (State.bump_within ..).mono (by rfl)
  · extract_lets y1 y2 y3 y4 y5
    have h6 : s.Within 0x4002020089 y4 := by
      unfold y4
      exact (State.msramPut_within ..).mono (by rfl)
    clear_value y4
    have h7 : s.Within 0x4002020089 y5 := by
      unfold y5
      exact State.Within.trans (by assumption) ((State.msramPut_within ..).mono (by rfl))
    clear_value y5
    refine State.Within.trans ?_ ((State.raise_within ..).mono (by rfl))
    refine State.Within.trans ?_ ((State.bump_within ..).mono (by rfl))
    exact State.Within.trans (by assumption) ((State.mringNext_within ..).mono (by rfl))

theorem State.mgmtDeliver_within (s : State) (f : Frame) (c : Copy) (l : List Byte) : s.Within 0x4002020089 (s.mgmtDeliver f c l) := by
  unfold State.mgmtDeliver
  split
  exact (State.mringFill_within ..).mono (by rfl)

theorem State.fwRecord_within (s : State) (payload : List Byte) : s.Within 0x4002020089 (s.fwRecord payload) := by
  unfold State.fwRecord
  exact (State.mringFill_within ..).mono (by rfl)

/-! ## Machine/HostRings.lean -/

theorem State.aerSet_within (s : State) (n : Nat) : s.Within 0x20000 (s.aerSet n) := by
  unfold State.aerSet
  refine State.Within.set_pcie ?_ (by rfl)
  exact State.Within.refl _

theorem State.cplTimeout_within (s : State) : s.Within 0x4000020009 s.cplTimeout := by
  unfold State.cplTimeout
  refine State.Within.trans ?_ ((State.raise_within ..).mono (by rfl))
  refine State.Within.trans ?_ ((State.bump_within ..).mono (by rfl))
  exact (State.aerSet_within ..).mono (by rfl)

theorem State.mapHost_within (s : State) (f : Mem → Mem) : s.Within 0x800 (s.mapHost f) := by
  unfold State.mapHost
  refine State.Within.set_host ?_ (by rfl)
  exact State.Within.refl _

theorem State.hostImage_within (s : State) (img : List (Nat × List Byte)) : s.Within 0x800 (s.hostImage img) := by
  unfold State.hostImage
  exact (State.mapHost_within ..).mono (by rfl)

theorem State.hostPut_within (s : State) (a : Nat) (l : List Byte) (ns : Bool) : s.Within 0x4000000800 (s.hostPut a l ns) := by
  unfold State.hostPut
  refine State.Within.each ?_ (fun u a => ?_)
  · exact (State.mapHost_within ..).mono (by rfl)
  · exact (State.emit_within ..).mono (by rfl)

theorem State.hostFetch_within (s : State) (a n : Nat) (ns : Bool) : s.Within 0x4000000000 (s.hostFetch a n ns) := by
  unfold State.hostFetch
  refine State.Within.each ?_ (fun u a => ?_)
  · exact State.Within.refl _
  · exact (State.emit_within ..).mono (by rfl)

theorem State.ringAdvance_within (s : State) (tx : Bool) (r n : Nat) : s.Within 0x1 (s.ringAdvance tx r n) := by
  unfold State.ringAdvance
  exact (State.setFld_within ..).mono (by rfl)

theorem State.ringTail_within (s : State) (tx : Bool) (r v : Nat) : s.Within 0x1 (s.ringTail tx r v) := by
  unfold State.ringTail
  exact (State.setFld_within ..).mono (by rfl)

theorem State.ringSignal_within (s : State) (tx : Bool) (r : Nat) : s.Within 0x4200020008 (s.ringSignal tx r) := by
  unfold State.ringSignal
  refine State.Within.trans ?_ ((State.msixSend_within ..).mono (by rfl))
  refine State.Within.set_ringPend ?_ (by rfl)
  exact State.Within.refl _

theorem State.ringComplete_within (s : State) (tx : Bool) (r : Nat) : s.Within 0x4200020008 (s.ringComplete tx r) := by
  unfold State.ringComplete
  extract_lets y1
  have h2 : s.Within 0x4200020008 y1 := by
    unfold y1
    refine State.Within.set_ringPend ?_ (by rfl)
    exact State.Within.refl _
  refine State.Within.ite ?_ ?_
  · exact State.Within.trans (by assumption) ((State.ringSignal_within ..).mono (by rfl))
  · assumption

theorem State.ringTimer_within (s : State) (tx : Bool) (r : Nat) : s.Within 0x4200020008 (s.ringTimer tx r) := by
  unfold State.ringTimer
  refine State.Within.ite ?_ ?_
  · exact (State.ringSignal_within ..).mono (by rfl)
  · exact State.Within.refl _

theorem State.rxFill_within (s : State) (r i n orig : Nat) (w : Nat × Nat × Nat) (part : List Byte) :
    s.Within 0x4000000800 (s.rxFill r i n orig w part) := by
  unfold State.rxFill
  extract_lets y1 y2 y3 y4 y5
  have h6 : s.Within 0x4000000800 y4 := by
    unfold y4
    refine State.Within.trans ?_ ((State.hostPut_within ..).mono (by rfl))
    exact (State.hostFetch_within ..).mono (by rfl)
  clear_value y4
  have h7 : s.Within 0x4000000800 y5 := by
    unfold y5
    exact State.Within.trans (by assumption) ((State.hostPut_within ..).mono (by rfl))
  clear_value y5
  refine State.Within.trans ?_ ((State.hostPut_within ..).mono (by rfl))
  exact State.Within.trans (by assumption) ((State.hostPut_within ..).mono (by rfl))

theorem State.hostPathDrop_within (s : State) : s.Within 0x4000020009 s.hostPathDrop := by
  unfold State.hostPathDrop
  refine State.Within.trans ?_ ((State.raise_within ..).mono (by rfl))
  exact (State.bump_within ..).mono (by rfl)

theorem State.hostTaken_within (s : State) (c : Copy) : s.Within 0x10000 (s.hostTaken c) := by
  unfold State.hostTaken
  refine State.Within.trans ?_ ((State.mapEgress_within ..).mono (by rfl))
  exact (State.dropRef_within ..).mono (by rfl)

theorem State.hostDeliver_within (s : State) (c : Copy) (l : List Byte) : s.Within 0x4000030009 (s.hostDeliver c l) := by
  unfold State.hostDeliver
  extract_lets y1
  refine State.Within.ite ?_ ?_
  · refine State.Within.trans ?_ ((State.hostTaken_within ..).mono (by rfl))
    exact (State.hostPathDrop_within ..).mono (by rfl)
  · refine State.Within.ite ?_ ?_
    · refine State.Within.trans ?_ ((State.hostTaken_within ..).mono (by rfl))
      refine State.Within.trans ?_ ((State.raise_within ..).mono (by rfl))
      refine State.Within.trans ?_ ((State.bumpTab_within ..).mono (by rfl))
      exact (State.bump_within ..).mono (by rfl)
    · exact (State.mapEgress_within ..).mono (by rfl)

theorem State.hostFilled_within (s : State) (c : Copy) (l : List Byte) : s.Within 0x4200030809 (s.hostFilled c l) := by
  unfold State.hostFilled
  refine State.Within.ite ?_ ?_
  · refine State.Within.trans ?_ ((State.hostTaken_within ..).mono (by rfl))
    exact (State.hostPathDrop_within ..).mono (by rfl)
  · extract_lets y1 y2 y3 y4 y5 y6
    have h7 : s.Within 0x4200030809 y5 := by
      unfold y5
      refine State.Within.each ?_ (fun u a => ?_)
      · exact State.Within.refl _
      · exact (State.rxFill_within ..).mono (by rfl)
    clear_value y5
    have h8 : s.Within 0x4200030809 y6 := by
      unfold y6
      refine State.Within.trans ?_ ((State.bumpTab_within ..).mono (by rfl))
      refine State.Within.trans ?_ ((State.bump_within ..).mono (by rfl))
      exact State.Within.trans (by assumption) ((State.ringAdvance_within ..).mono (by rfl))
    clear_value y6
    refine State.Within.trans ?_ ((State.hostTaken_within ..).mono (by rfl))
    refine State.Within.trans ?_ ((State.ringComplete_within ..).mono (by rfl))
    exact State.Within.trans (by assumption) ((State.bumpTab_within ..).mono (by rfl))

theorem State.hostCut_within (s : State) : s.Within 0x4000030009 s.hostCut := by
  unfold State.hostCut
  split
  · refine State.Within.ite ?_ ?_
    · exact State.Within.refl _
    · refine State.Within.trans ?_ ((State.hostTaken_within ..).mono (by rfl))
      exact (State.hostPathDrop_within ..).mono (by rfl)
  · exact State.Within.refl _

theorem State.txFetch_within (s : State) (r : Nat) (ds : List TxDesc) (data : Bool) : s.Within 0x4000000000 (s.txFetch r ds data) := by
  unfold State.txFetch
  extract_lets y1 y2
  have h3 : s.Within 0x4000000000 y2 := by
    unfold y2
    refine State.Within.each ?_ (fun u a => ?_)
    · exact State.Within.refl _
    · exact (State.hostFetch_within ..).mono (by rfl)
  clear_value y2
  refine State.Within.ite ?_ ?_
  · refine State.Within.each ?_ (fun u a => ?_)
    · assumption
    · exact (State.hostFetch_within ..).mono (by rfl)
  · assumption

theorem State.hostTx_within (s : State) (r : Nat) (bad : Option (Nat × Bool)) : s.Within 0x6200830809 (s.hostTx r bad) := by
  unfold State.hostTx
  split
  · exact State.Within.refl _
  · extract_lets y1 y2 y3 y4 y5 y6 y7 y8 y9 y10 y11 y12 y13
    have h14 : s.Within 0x6200830809 y1 := by
      unfold y1
      exact (State.mapDp_within ..).mono (by rfl)
    clear_value y1
    have h15 : s.Within 0x6200830809 y6 := by
      unfold y6
      exact State.Within.trans (by assumption) ((State.txFetch_within ..).mono (by rfl))
    clear_value y6
    have h16 : s.Within 0x6200830809 y7 := by
      unfold y7
      refine State.Within.trans ?_ ((State.bumpTab_within ..).mono (by rfl))
      refine State.Within.trans ?_ ((State.bumpTab_within ..).mono (by rfl))
      exact State.Within.trans (by assumption) ((State.bump_within ..).mono (by rfl))
    clear_value y7
    have h17 : s.Within 0x6200830809 y9 := by
      unfold y9
      refine State.Within.ite ?_ ?_
      · refine State.Within.trans ?_ ((State.logErr_within ..).mono (by rfl))
        refine State.Within.ite ?_ ?_
        · exact State.Within.trans (by assumption) ((State.cplTimeout_within ..).mono (by rfl))
        · assumption
      · assumption
    clear_value y9
    have h18 : s.Within 0x6200830809 y10 := by
      unfold y10
      refine State.Within.ite ?_ ?_
      · exact State.Within.trans (by assumption) ((State.inject_within ..).mono (by rfl))
      · refine State.Within.trans ?_ ((State.raise_within ..).mono (by rfl))
        refine State.Within.trans ?_ ((State.bumpTab_within ..).mono (by rfl))
        exact State.Within.trans (by assumption) ((State.bump_within ..).mono (by rfl))
    clear_value y10
    have h19 : s.Within 0x6200830809 y12 := by
      unfold y12
      refine State.Within.each ?_ (fun u a => ?_)
      · assumption
      · exact (State.hostPut_within ..).mono (by rfl)
    clear_value y12
    have h20 : s.Within 0x6200830809 y13 := by
      unfold y13
      exact State.Within.trans (by assumption) ((State.ringAdvance_within ..).mono (by rfl))
    clear_value y13
    refine State.Within.ite ?_ ?_
    · exact State.Within.trans (by assumption) ((State.ringComplete_within ..).mono (by rfl))
    · assumption

theorem State.hostTxNext_within (s : State) (bad : Option (Nat × Bool)) : s.Within 0x6200830809 (s.hostTxNext bad) := by
  unfold State.hostTxNext
  refine State.Within.ite ?_ ?_
  · exact State.Within.refl _
  · split
    · exact State.Within.refl _
    · exact (State.hostTx_within ..).mono (by rfl)

theorem State.setCh_within (s : State) (c st : Nat) : s.Within 0x4000030009 (s.setCh c st) := by
  unfold State.setCh
  extract_lets y1 y2
  have h3 : s.Within 0x4000030009 y2 := by
    unfold y2
    refine State.Within.trans ?_ ((State.mapDp_within ..).mono (by rfl))
    exact (State.setFld_within ..).mono (by rfl)
  clear_value y2
  refine State.Within.ite ?_ ?_
  · refine State.Within.trans ?_ ((State.raise_within ..).mono (by rfl))
    exact State.Within.trans (by assumption) ((State.setFld_within ..).mono (by rfl))
  · exact State.Within.trans (by assumption) ((State.setFld_within ..).mono (by rfl))

theorem State.spacePut_within (s : State) (space a : Nat) (l : List Byte) (ns : Bool) : s.Within 0x40020008c0 (s.spacePut space a l ns) := by
  unfold State.spacePut
  split
  · exact (State.hostPut_within ..).mono (by rfl)
  · exact (State.msramPut_within ..).mono (by rfl)
  · refine State.Within.set_scratch ?_ (by rfl)
    exact State.Within.refl _
  · exact State.Within.refl _

theorem State.dmaBurst_within (s : State) (c : Nat) (d : DmaDesc) : s.Within 0x60020108c0 (s.dmaBurst c d) := by
  unfold State.dmaBurst
  split
  extract_lets y1 y2 y3
  have h4 : s.Within 0x60020108c0 y3 := by
    unfold y3
    refine State.Within.ite ?_ ?_
    · exact (State.hostFetch_within ..).mono (by rfl)
    · exact State.Within.refl _
  clear_value y3
  split
  rename_i x5 e6
  have h7 : s.Within 0x60020108c0 x5 := State.Within.of_pair e6 (by
    refine State.Within.itp ?_ ?_
    · exact State.Within.trans (by assumption) ((State.drawBytes_within ..).mono (by rfl))
    · dsimp only
      assumption)
  extract_lets y8
  refine State.Within.trans ?_ ((State.mapDp_within ..).mono (by rfl))
  exact State.Within.trans (by assumption) ((State.spacePut_within ..).mono (by rfl))

theorem State.dmaTurn_within (s : State) (c rows : Nat) : s.Within 0x60020108c0 (s.dmaTurn c rows) := by
  unfold State.dmaTurn
  extract_lets y1
  refine State.Within.foldl _ (fun u a => ?_) _ _ ?_
  · refine State.Within.ite ?_ ?_
    · exact (State.dmaBurst_within ..).mono (by rfl)
    · exact State.Within.refl _
  · exact State.Within.refl _

theorem State.dmaTo_within (s : State) (c rows : Nat) : s.Within 0x60020108c0 (s.dmaTo c rows) := by
  unfold State.dmaTo
  extract_lets y1
  refine State.Within.each ?_ (fun u a => ?_)
  · exact State.Within.refl _
  · refine State.Within.ite ?_ ?_
    · exact (State.dmaTurn_within ..).mono (by rfl)
    · exact State.Within.refl _

theorem State.dmaResult_within (s : State) (c result rows : Nat) (irq : Bool) : s.Within 0x40020208c9 (s.dmaResult c result rows irq) := by
  unfold State.dmaResult
  refine State.Within.ite ?_ ?_
  · exact State.Within.refl _
  · extract_lets y1
    have h2 : s.Within 0x40020208c9 y1 := by
      unfold y1
      exact (State.spacePut_within ..).mono (by rfl)
    clear_value y1
    refine State.Within.ite ?_ ?_
    · assumption
    · refine State.Within.ite ?_ ?_
      · exact State.Within.trans (by assumption) ((State.msixSend_within ..).mono (by rfl))
      · refine State.Within.trans ?_ ((State.raise_within ..).mono (by rfl))
        exact State.Within.trans (by assumption) ((State.setFld_within ..).mono (by rfl))

theorem State.dmaNext_within (s : State) (c : Nat) : s.Within 0x4000030009 (s.dmaNext c) := by
  unfold State.dmaNext
  extract_lets y1
  have h2 : s.Within 0x4000030009 y1 := by
    unfold y1
    exact (State.setFld_within ..).mono (by rfl)
  clear_value y1
  exact State.Within.trans (by assumption) ((State.setCh_within ..).mono (by rfl))

theorem State.dmaHalt_within (s : State) (c result rows : Nat) (irq : Bool) : s.Within 0x40020308c9 (s.dmaHalt c result rows irq) := by
  unfold State.dmaHalt
  refine State.Within.trans ?_ ((State.setCh_within ..).mono (by rfl))
  refine State.Within.trans ?_ ((State.bumpTab_within ..).mono (by rfl))
  exact (State.dmaResult_within ..).mono (by rfl)

theorem State.dmaTail_within (s : State) (c v : Nat) : s.Within 0x4000030009 (s.dmaTail c v) := by
  unfold State.dmaTail
  extract_lets y1
  have h2 : s.Within 0x4000030009 y1 := by
    unfold y1
    exact (State.setFld_within ..).mono (by rfl)
  clear_value y1
  refine State.Within.ite ?_ ?_
  · exact State.Within.trans (by assumption) ((State.setCh_within ..).mono (by rfl))
  · assumption

theorem State.dmaBusError_within (s : State) (c a rows : Nat) (irq timeout : Bool) : s.Within 0x40028308c9 (s.dmaBusError c a rows irq timeout) := by
  unfold State.dmaBusError
  refine State.Within.trans ?_ ((State.dmaHalt_within ..).mono (by rfl))
  refine State.Within.trans ?_ ((State.bump_within ..).mono (by rfl))
  refine State.Within.trans ?_ ((State.logErr_within ..).mono (by rfl))
  refine State.Within.ite ?_ ?_
  · exact (State.cplTimeout_within ..).mono (by rfl)
  · exact State.Within.refl _

theorem State.dmaRun_within (s : State) (c : Nat) (bad : Option BadRead) (corr : Nat × Nat) : s.Within 0x60028308c9 (s.dmaRun c bad corr) := by
  unfold State.dmaRun
  refine State.Within.ite ?_ ?_
  · exact State.Within.refl _
  · extract_lets y1 y2 y3 y4 y5 y6 y7 y8
    have h9 : s.Within 0x60028308c9 y1 := by
      unfold y1
      exact (State.eccSeen_within ..).mono (by rfl)
    clear_value y1
    have h10 : s.Within 0x60028308c9 y5 := by
      unfold y5
      refine State.Within.ite ?_ ?_
      · exact State.Within.trans (by assumption) ((State.hostFetch_within ..).mono (by rfl))
      · assumption
    clear_value y5
    have h11 : s.Within 0x60028308c9 y7 := by
      unfold y7
      refine State.Within.trans ?_ ((State.dmaResult_within ..).mono (by rfl))
      exact State.Within.trans (by assumption) ((State.dmaTo_within ..).mono (by rfl))
    clear_value y7
    have h12 : s.Within 0x60028308c9 y8 := by
      unfold y8
      refine State.Within.trans ?_ ((State.bump_within ..).mono (by rfl))
      refine State.Within.trans ?_ ((State.bumpTab_within ..).mono (by rfl))
      exact State.Within.trans (by assumption) ((State.bump_within ..).mono (by rfl))
    clear_value y8
    refine State.Within.ite ?_ ?_
    · exact State.Within.trans (by assumption) ((State.dmaBusError_within ..).mono (by rfl))
    · refine State.Within.ite ?_ ?_
      · refine State.Within.trans ?_ ((State.dmaHalt_within ..).mono (by rfl))
        exact State.Within.trans (by assumption) ((State.bump_within ..).mono (by rfl))
      · refine State.Within.ite ?_ ?_
        · exact State.Within.trans (by assumption) ((State.dmaBusError_within ..).mono (by rfl))
        · refine State.Within.ite ?_ ?_
          · refine State.Within.trans ?_ ((State.dmaHalt_within ..).mono (by rfl))
            refine State.Within.trans ?_ ((State.bump_within ..).mono (by rfl))
            exact State.Within.trans (by assumption) ((State.logErr_within ..).mono (by rfl))
          · refine State.Within.ite ?_ ?_
            · refine State.Within.trans ?_ ((State.dmaHalt_within ..).mono (by rfl))
              exact State.Within.trans (by assumption) ((State.bump_within ..).mono (by rfl))
            · refine State.Within.ite ?_ ?_
              · exact State.Within.trans (by assumption) ((State.dmaBusError_within ..).mono (by rfl))
              · split
                · extract_lets y13
                  have h14 : s.Within 0x60028308c9 y13 := by
                    unfold y13
                    exact State.Within.trans (by assumption) ((State.dmaTo_within ..).mono (by rfl))
                  clear_value y13
                  exact State.Within.trans (by assumption) ((State.dmaBusError_within ..).mono (by rfl))
                · refine State.Within.trans ?_ ((State.dmaNext_within ..).mono (by rfl))
                  exact State.Within.trans (by assumption) ((State.bumpTab_within ..).mono (by rfl))

theorem State.dmaAbort_within (s : State) (c rows : Nat) (corr : Nat × Nat) : s.Within 0x60020308c9 (s.dmaAbort c rows corr) := by
  unfold State.dmaAbort
  refine State.Within.ite ?_ ?_
  · extract_lets y1 y2
    have h3 : s.Within 0x60020308c9 y1 := by
      unfold y1
      exact (State.eccSeen_within ..).mono (by rfl)
    clear_value y1
    have h4 : s.Within 0x60020308c9 y2 := by
      unfold y2
      exact State.Within.trans (by assumption) ((State.dmaTo_within ..).mono (by rfl))
    clear_value y2
    exact State.Within.trans (by assumption) ((State.dmaHalt_within ..).mono (by rfl))
  · exact State.Within.refl _

theorem State.dmaResume_within (s : State) (c : Nat) : s.Within 0x4000030009 (s.dmaResume c) := by
  unfold State.dmaResume
  refine State.Within.ite ?_ ?_
  · exact (State.setCh_within ..).mono (by rfl)
  · exact State.Within.refl _

theorem State.dmaSkip_within (s : State) (c : Nat) : s.Within 0x4000030009 (s.dmaSkip c) := by
  unfold State.dmaSkip
  refine State.Within.ite ?_ ?_
  · exact (State.dmaNext_within ..).mono (by rfl)
  · exact State.Within.refl _

theorem State.dmaWakes_within (s : State) : s.Within 0x4000030009 s.dmaWakes := by
  unfold State.dmaWakes
  refine State.Within.each ?_ (fun u a => ?_)
  · exact State.Within.refl _
  · refine State.Within.ite ?_ ?_
    · exact (State.setCh_within ..).mono (by rfl)
    · exact State.Within.refl _

theorem State.dmaEn_within (s : State) (c : Nat) (was : Bool) : s.Within 0x4000030009 (s.dmaEn c was) := by
  unfold State.dmaEn
  refine State.Within.ite ?_ ?_
  · refine State.Within.ite ?_ ?_
    · refine State.Within.trans ?_ ((State.setCh_within ..).mono (by rfl))
      refine State.Within.trans ?_ ((State.setFld_within ..).mono (by rfl))
      exact (State.setFld_within ..).mono (by rfl)
    · exact State.Within.refl _
  · refine State.Within.ite ?_ ?_
    · refine State.Within.ite ?_ ?_
      · exact (State.setCh_within ..).mono (by rfl)
      · exact State.Within.refl _
    · exact State.Within.refl _

theorem State.ringEnChange_within (s : State) (tx : Bool) (r : Nat) (was : Bool) : s.Within 0x1 (s.ringEnChange tx r was) := by
  unfold State.ringEnChange
  refine State.Within.ite ?_ ?_
  · refine State.Within.trans ?_ ((State.setFld_within ..).mono (by rfl))
    exact (State.setFld_within ..).mono (by rfl)
  · exact State.Within.refl _

theorem State.txCut_within (s : State) : s.Within 0x6000020009 s.txCut := by
  unfold State.txCut
  refine State.Within.ite ?_ ?_
  · split
    rename_i x1 e2
    have h3 : s.Within 0x6000020009 x1 := State.Within.of_pair e2 (by exact (State.draw_within ..).mono (by rfl))
    refine State.Within.ite ?_ ?_
    · exact State.Within.trans (by assumption) ((State.hostPathDrop_within ..).mono (by rfl))
    · assumption
  · exact State.Within.refl _

theorem State.ringsStop_within (s : State) : s.Within 0x60020308cb s.ringsStop := by
  unfold State.ringsStop
  extract_lets y1 y2
  have h3 : s.Within 0x60020308cb y1 := by
    unfold y1
    refine State.Within.trans ?_ ((State.txCut_within ..).mono (by rfl))
    exact (State.hostCut_within ..).mono (by rfl)
  clear_value y1
  have h4 : s.Within 0x60020308cb y2 := by
    unfold y2
    refine State.Within.each ?_ (fun u a => ?_)
    · assumption
    · refine State.Within.each ?_ (fun u a => ?_)
      · exact State.Within.refl _
      · refine State.Within.ite ?_ ?_
        · refine State.Within.trans ?_ ((State.setFld_within ..).mono (by rfl))
          refine State.Within.trans ?_ ((State.setFld_within ..).mono (by rfl))
          exact (State.setTabF_within ..).mono (by rfl)
        · exact State.Within.refl _
  clear_value y2
  refine State.Within.each ?_ (fun u a => ?_)
  · assumption
  · extract_lets y5 y6
    refine State.Within.ite ?_ ?_
    · exact (State.dmaHalt_within ..).mono (by rfl)
    · exact State.Within.refl _

/-! ## Machine/Bridge.lean -/

theorem State.mapBridge_within (s : State) (f : Bridge → Bridge) : s.Within 0x1000000 (s.mapBridge f) := by
  unfold State.mapBridge
  refine State.Within.set_bridge ?_ (by rfl)
  exact State.Within.refl _

theorem State.pwFail_within (s : State) (cause orig window code addr : Nat) : s.Within 0x4001020009 (s.pwFail cause orig window code addr) := by
  unfold State.pwFail
  extract_lets y1
  have h2 : s.Within 0x4001020009 y1 := by
    unfold y1
    refine State.Within.trans ?_ ((State.raise_within ..).mono (by rfl))
    exact (State.bump_within ..).mono (by rfl)
  clear_value y1
  refine State.Within.ite ?_ ?_
  · exact State.Within.trans (by assumption) ((State.bump_within ..).mono (by rfl))
  · exact State.Within.trans (by assumption) ((State.mapBridge_within ..).mono (by rfl))

theorem State.pwPop_within (s : State) : s.Within 0x1000000 s.pwPop := by
  unfold State.pwPop
  exact (State.mapBridge_within ..).mono (by rfl)

theorem State.sendBridge_within (s : State) (l : List Byte) : s.Within 0x4000800008 (s.sendBridge l) := by
  unfold State.sendBridge
  exact (State.sendPlain_within ..).mono (by rfl)

theorem State.mpFault_within (s : State) (m addr code : Nat) : s.Within 0x4000820009 (s.mpFault m addr code) := by
  unfold State.mpFault
  refine State.Within.trans ?_ ((State.emit_within ..).mono (by rfl))
  exact (State.logErr_within ..).mono (by rfl)

theorem State.completerAbort_within (s : State) (a : Nat) : s.Within 0x4000020008 (s.completerAbort a) := by
  unfold State.completerAbort
  refine State.Within.trans ?_ ((State.bump_within ..).mono (by rfl))
  refine State.Within.trans ?_ ((State.emit_within ..).mono (by rfl))
  exact (State.aerSet_within ..).mono (by rfl)

theorem State.useFails_within (s : State) (u : BridgeUse) (code : Nat) : s.Within 0x4000820009 (s.useFails u code) := by
  unfold State.useFails
  split
  · exact (State.mpFault_within ..).mono (by rfl)
  · exact (State.mpFault_within ..).mono (by rfl)
  · exact (State.mpFault_within ..).mono (by rfl)
  · exact (State.mpFault_within ..).mono (by rfl)
  · exact (State.mpFault_within ..).mono (by rfl)
  · exact (State.completerAbort_within ..).mono (by rfl)
  · refine State.Within.trans ?_ ((State.setFld_within ..).mono (by rfl))
    exact (State.bump_within ..).mono (by rfl)

theorem State.hostSend_within (s : State) (r : HostReq) : s.Within 0x4001000000 (s.hostSend r) := by
  unfold State.hostSend
  extract_lets y1
  refine State.Within.trans ?_ ((State.emit_within ..).mono (by rfl))
  exact (State.mapBridge_within ..).mono (by rfl)

theorem State.hostOpenReq_within (s : State) (r : HostReq) : s.Within 0x4001820009 (s.hostOpenReq r) := by
  unfold State.hostOpenReq
  refine State.Within.ite ?_ ?_
  · exact (State.useFails_within ..).mono (by rfl)
  · refine State.Within.ite ?_ ?_
    · exact (State.mapBridge_within ..).mono (by rfl)
    · exact (State.hostSend_within ..).mono (by rfl)

theorem State.hostServe_within (s : State) : s.Within 0x4001000000 s.hostServe := by
  unfold State.hostServe
  split
  · exact State.Within.refl _
  · refine State.Within.ite ?_ ?_
    · exact State.Within.refl _
    · refine State.Within.trans ?_ ((State.hostSend_within ..).mono (by rfl))
      exact (State.mapBridge_within ..).mono (by rfl)

theorem State.peerOpenReq_within (s : State) (r : PeerReq) : s.Within 0x4001820009 (s.peerOpenReq r) := by
  unfold State.peerOpenReq
  refine State.Within.ite ?_ ?_
  · exact (State.useFails_within ..).mono (by rfl)
  · split
    · exact (State.mapBridge_within ..).mono (by rfl)
    · extract_lets y1
      refine State.Within.trans ?_ ((State.bump_within ..).mono (by rfl))
      refine State.Within.trans ?_ ((State.sendBridge_within ..).mono (by rfl))
      exact (State.mapBridge_within ..).mono (by rfl)

theorem State.peerRead_within (s : State) (u : BridgeUse) (orig addr words : Nat) (win : WinView) :
    s.Within 0x4001820009 (s.peerRead u orig addr words win) := by
  unfold State.peerRead
  exact (State.peerOpenReq_within ..).mono (by rfl)

theorem State.peerWrite_within (s : State) (orig window addr : Nat) (words : List Nat) :
    s.Within 0x4001820009 (s.peerWrite orig window addr words) := by
  unfold State.peerWrite
  refine State.Within.ite ?_ ?_
  · exact (State.pwFail_within ..).mono (by rfl)
  · refine State.Within.trans ?_ ((State.bump_within ..).mono (by rfl))
    exact (State.sendBridge_within ..).mono (by rfl)

theorem State.peerServe_within (s : State) : s.Within 0x4001820009 s.peerServe := by
  unfold State.peerServe
  split
  · refine State.Within.trans ?_ ((State.peerOpenReq_within ..).mono (by rfl))
    exact (State.mapBridge_within ..).mono (by rfl)
  · exact State.Within.refl _

theorem State.peerClose_within (s : State) (tag : Nat) : s.Within 0x4001820009 (s.peerClose tag) := by
  unfold State.peerClose
  refine State.Within.trans ?_ ((State.peerServe_within ..).mono (by rfl))
  exact (State.mapBridge_within ..).mono (by rfl)

theorem State.dropResv_within (s : State) (m : Nat) : s.Within 0x1000000 (s.dropResv m) := by
  unfold State.dropResv
  exact (State.mapBridge_within ..).mono (by rfl)

theorem State.winRefused_within (s : State) (m a : Nat) : s.Within 0x4000820009 (s.winRefused m a) := by
  unfold State.winRefused
  exact (State.mpFault_within ..).mono (by rfl)

theorem State.winRead_within (s : State) (u : BridgeUse) (m : Nat) (v : WinView) (size : Nat) : s.Within 0x4001820009 (s.winRead u m v size) := by
  unfold State.winRead
  extract_lets y1
  refine State.Within.ite ?_ ?_
  · exact (State.peerRead_within ..).mono (by rfl)
  · exact (State.hostOpenReq_within ..).mono (by rfl)

theorem State.winStore_within (s : State) (m a w o : Nat) (l : List Byte) : s.Within 0x4001820809 (s.winStore m a w o l) := by
  unfold State.winStore
  extract_lets y1 y2
  refine State.Within.ite ?_ ?_
  · refine State.Within.ite ?_ ?_
    · refine State.Within.trans ?_ ((State.emit_within ..).mono (by rfl))
      exact (State.logErr_within ..).mono (by rfl)
    · refine State.Within.trans ?_ ((State.emit_within ..).mono (by rfl))
      exact (State.peerWrite_within ..).mono (by rfl)
  · refine State.Within.ite ?_ ?_
    · refine State.Within.trans ?_ ((State.emit_within ..).mono (by rfl))
      exact (State.pwFail_within ..).mono (by rfl)
    · refine State.Within.ite ?_ ?_
      · refine State.Within.trans ?_ ((State.emit_within ..).mono (by rfl))
        exact (State.pwFail_within ..).mono (by rfl)
      · refine State.Within.trans ?_ ((State.emit_within ..).mono (by rfl))
        exact (State.hostPut_within ..).mono (by rfl)

theorem State.winAccess_within (s : State) (m a size : Nat) (store : Option (List Byte)) : s.Within 0x4001820809 (s.winAccess m a size store) := by
  unfold State.winAccess
  extract_lets y1
  have h2 : s.Within 0x4001820809 y1 := by
    unfold y1
    exact (State.dropResv_within ..).mono (by rfl)
  clear_value y1
  split
  · exact State.Within.trans (by assumption) ((State.winRefused_within ..).mono (by rfl))
  · split
    · exact State.Within.trans (by assumption) ((State.winStore_within ..).mono (by rfl))
    · exact State.Within.trans (by assumption) ((State.winRead_within ..).mono (by rfl))

theorem State.winLr_within (s : State) (m a size : Nat) : s.Within 0x4001820009 (s.winLr m a size) := by
  unfold State.winLr
  extract_lets y1
  have h2 : s.Within 0x4001820009 y1 := by
    unfold y1
    exact (State.dropResv_within ..).mono (by rfl)
  clear_value y1
  split
  · exact State.Within.trans (by assumption) ((State.winRefused_within ..).mono (by rfl))
  · exact State.Within.trans (by assumption) ((State.winRead_within ..).mono (by rfl))

theorem State.winCas_within (s : State) (u : BridgeUse) (m : Nat) (v : WinView) (size old new : Nat) :
    s.Within 0x4001820009 (s.winCas u m v size old new) := by
  unfold State.winCas
  extract_lets y1 y2 y3
  refine State.Within.ite ?_ ?_
  · exact (State.peerOpenReq_within ..).mono (by rfl)
  · exact (State.hostOpenReq_within ..).mono (by rfl)

theorem State.winSc_within (s : State) (m a size new : Nat) : s.Within 0x4001820009 (s.winSc m a size new) := by
  unfold State.winSc
  extract_lets y1 y2
  have h3 : s.Within 0x4001820009 y2 := by
    unfold y2
    exact (State.dropResv_within ..).mono (by rfl)
  clear_value y2
  split
  · exact State.Within.trans (by assumption) ((State.winRefused_within ..).mono (by rfl))
  · refine State.Within.ite ?_ ?_
    · exact State.Within.trans (by assumption) ((State.mpFault_within ..).mono (by rfl))
    · clear_value y1
      split
      · refine State.Within.ite ?_ ?_
        · exact State.Within.trans (by assumption) ((State.winCas_within ..).mono (by rfl))
        · exact State.Within.trans (by assumption) ((State.emit_within ..).mono (by rfl))
      · exact State.Within.trans (by assumption) ((State.emit_within ..).mono (by rfl))

theorem State.winAmo_within (s : State) (m a size : Nat) (op : Amo) (arg : Nat) : s.Within 0x4001820009 (s.winAmo m a size op arg) := by
  unfold State.winAmo
  extract_lets y1
  have h2 : s.Within 0x4001820009 y1 := by
    unfold y1
    exact (State.dropResv_within ..).mono (by rfl)
  clear_value y1
  split
  · exact State.Within.trans (by assumption) ((State.winRefused_within ..).mono (by rfl))
  · refine State.Within.ite ?_ ?_
    · exact State.Within.trans (by assumption) ((State.mpFault_within ..).mono (by rfl))
    · exact State.Within.trans (by assumption) ((State.winRead_within ..).mono (by rfl))

theorem State.useEnds_within (s : State) (u : BridgeUse) (w : WinView) (l : List Byte) : s.Within 0x4001820009 (s.useEnds u w l) := by
  unfold State.useEnds
  extract_lets y1 y2 y3 y4 y5
  have h6 : s.Within 0x4001820009 y4 := by
    unfold y4
    refine State.Within.each ?_ (fun u a => ?_)
    · exact State.Within.refl _
    · exact (State.setFld_within ..).mono (by rfl)
  clear_value y4
  have h7 : s.Within 0x4001820009 y5 := by
    unfold y5
    exact State.Within.trans (by assumption) ((State.setFld_within ..).mono (by rfl))
  clear_value y5
  split
  · exact (State.emit_within ..).mono (by rfl)
  · extract_lets y8
    refine State.Within.trans ?_ ((State.emit_within ..).mono (by rfl))
    exact (State.mapBridge_within ..).mono (by rfl)
  · refine State.Within.ite ?_ ?_
    · exact (State.emit_within ..).mono (by rfl)
    · refine State.Within.trans ?_ ((State.emit_within ..).mono (by rfl))
      exact (State.bump_within ..).mono (by rfl)
  · extract_lets y9
    exact (State.winCas_within ..).mono (by rfl)
  · refine State.Within.ite ?_ ?_
    · exact (State.emit_within ..).mono (by rfl)
    · refine State.Within.ite ?_ ?_
      · refine State.Within.trans ?_ ((State.raise_within ..).mono (by rfl))
        exact (State.mpFault_within ..).mono (by rfl)
      · exact (State.winRead_within ..).mono (by rfl)
  · extract_lets y10 y11
    refine State.Within.ite ?_ ?_
    · exact (State.peerRead_within ..).mono (by rfl)
    · exact (State.emit_within ..).mono (by rfl)
  · refine State.Within.ite ?_ ?_
    · exact State.Within.trans (by assumption) ((State.raise_within ..).mono (by rfl))
    · assumption

theorem State.hostCompletes_within (s : State) (id : Nat) (data : Option (List Byte)) : s.Within 0x4001820009 (s.hostCompletes id data) := by
  unfold State.hostCompletes
  split
  · exact State.Within.refl _
  · extract_lets y1
    have h2 : s.Within 0x4001820009 y1 := by
      unfold y1
      refine State.Within.trans ?_ ((State.hostServe_within ..).mono (by rfl))
      exact (State.mapBridge_within ..).mono (by rfl)
    clear_value y1
    split
    · exact State.Within.trans (by assumption) ((State.useEnds_within ..).mono (by rfl))
    · exact State.Within.trans (by assumption) ((State.useFails_within ..).mono (by rfl))

theorem State.hostTimesOut_within (s : State) (id : Nat) : s.Within 0x4001820009 (s.hostTimesOut id) := by
  unfold State.hostTimesOut
  refine State.Within.ite ?_ ?_
  · refine State.Within.trans ?_ ((State.hostCompletes_within ..).mono (by rfl))
    exact (State.cplTimeout_within ..).mono (by rfl)
  · exact State.Within.refl _

theorem State.hostOpenFail_within (s : State) : s.Within 0x4001820009 s.hostOpenFail := by
  unfold State.hostOpenFail
  extract_lets y1
  refine State.Within.each ?_ (fun u a => ?_)
  · exact (State.mapBridge_within ..).mono (by rfl)
  · exact (State.useFails_within ..).mono (by rfl)

theorem State.peerOpenFail_within (s : State) : s.Within 0x4001820009 s.peerOpenFail := by
  unfold State.peerOpenFail
  extract_lets y1
  refine State.Within.each ?_ (fun u a => ?_)
  · exact (State.mapBridge_within ..).mono (by rfl)
  · exact (State.useFails_within ..).mono (by rfl)

theorem State.openLost_within (s : State) : s.Within 0x4001820009 s.openLost := by
  unfold State.openLost
  extract_lets y1
  refine State.Within.each ?_ (fun u a => ?_)
  · exact (State.mapBridge_within ..).mono (by rfl)
  · exact (State.useFails_within ..).mono (by rfl)

theorem State.cplArrives_within (s : State) (tag status : Nat) (data : List Byte) : s.Within 0x4001820009 (s.cplArrives tag status data) := by
  unfold State.cplArrives
  split
  · exact (State.bump_within ..).mono (by rfl)
  · split
    · extract_lets y1
      refine State.Within.trans ?_ ((State.useEnds_within ..).mono (by rfl))
      exact (State.peerClose_within ..).mono (by rfl)
    · refine State.Within.ite ?_ ?_
      · refine State.Within.trans ?_ ((State.useFails_within ..).mono (by rfl))
        refine State.Within.trans ?_ ((State.peerClose_within ..).mono (by rfl))
        exact (State.logErr_within ..).mono (by rfl)
      · exact (State.mapBridge_within ..).mono (by rfl)
    · refine State.Within.trans ?_ ((State.useFails_within ..).mono (by rfl))
      exact (State.peerClose_within ..).mono (by rfl)

theorem State.retryEnds_within (s : State) (tag : Nat) : s.Within 0x4001800008 (s.retryEnds tag) := by
  unfold State.retryEnds
  split
  · exact State.Within.refl _
  · extract_lets y1
    have h2 : s.Within 0x4001800008 y1 := by
      unfold y1
      exact (State.mapBridge_within ..).mono (by rfl)
    clear_value y1
    refine State.Within.trans ?_ ((State.bump_within ..).mono (by rfl))
    refine State.Within.trans ?_ ((State.bump_within ..).mono (by rfl))
    exact State.Within.trans (by assumption) ((State.sendBridge_within ..).mono (by rfl))

theorem State.peerTimesOut_within (s : State) (tag : Nat) : s.Within 0x4001820009 (s.peerTimesOut tag) := by
  unfold State.peerTimesOut
  split
  · exact State.Within.refl _
  · refine State.Within.trans ?_ ((State.useFails_within ..).mono (by rfl))
    refine State.Within.trans ?_ ((State.peerClose_within ..).mono (by rfl))
    exact (State.bump_within ..).mono (by rfl)

theorem State.peerPoll_within (s : State) : s.Within 0x4001820009 s.peerPoll := by
  unfold State.peerPoll
  refine State.Within.ite ?_ ?_
  · exact State.Within.refl _
  · exact (State.peerRead_within ..).mono (by rfl)

theorem State.bar4Read_within (s : State) (off size : Nat) : s.Within 0x4001820009 (s.bar4Read off size) := by
  unfold State.bar4Read
  extract_lets y1
  refine State.Within.ite ?_ ?_
  · exact (State.peerRead_within ..).mono (by rfl)
  · exact (State.useFails_within ..).mono (by rfl)

theorem State.bar4Write_within (s : State) (off : Nat) (words : List Nat) : s.Within 0x4001820009 (s.bar4Write off words) := by
  unfold State.bar4Write
  refine State.Within.each ?_ (fun u a => ?_)
  · exact State.Within.refl _
  · extract_lets y1
    refine State.Within.ite ?_ ?_
    · exact (State.peerWrite_within ..).mono (by rfl)
    · exact (State.pwFail_within ..).mono (by rfl)

theorem State.refreshPath_within (s : State) : s.Within 0x4001820009 s.refreshPath := by
  unfold State.refreshPath
  extract_lets y1
  refine State.Within.ite ?_ ?_
  · exact State.Within.refl _
  · refine State.Within.ite ?_ ?_
    · refine State.Within.trans ?_ ((State.raise_within ..).mono (by rfl))
      exact (State.setFld_within ..).mono (by rfl)
    · refine State.Within.trans ?_ ((State.peerOpenFail_within ..).mono (by rfl))
      refine State.Within.trans ?_ ((State.raise_within ..).mono (by rfl))
      exact (State.setFld_within ..).mono (by rfl)

theorem State.follow_within (s : State) : s.Within 0x4001820009 s.follow := by
  unfold State.follow
  refine State.Within.trans ?_ (State.clocked_within _ _ _ (fun u => ?_) (by rfl))
  · refine (State.clocked_within _ _ _ (fun u => ?_) (by rfl))
    refine State.Within.trans ?_ ((State.showGate_within ..).mono (by rfl))
    refine State.Within.trans ?_ ((State.refreshFence_within ..).mono (by rfl))
    exact (State.refreshHealth_within ..).mono (by rfl)
  · exact (State.refreshPath_within ..).mono (by rfl)

theorem State.msixFlush_within (s : State) (v : Nat) : s.Within 0x4000020008 (s.msixFlush v) := by
  unfold State.msixFlush
  refine State.Within.ite ?_ ?_
  · refine State.Within.trans ?_ ((State.msixSend_within ..).mono (by rfl))
    refine State.Within.set_pcie ?_ (by rfl)
    exact State.Within.refl _
  · exact State.Within.refl _

theorem State.cfgBit_within (s : State) (f : Fld) (b : Bool) : s.Within 0x4001820009 (s.cfgBit f b) := by
  unfold State.cfgBit
  extract_lets y1 y2
  have h3 : s.Within 0x4001820009 y2 := by
    unfold y2
    exact (State.setFld_within ..).mono (by rfl)
  clear_value y2
  refine State.Within.ite ?_ ?_
  · refine State.Within.trans ?_ ((State.hostOpenFail_within ..).mono (by rfl))
    exact State.Within.trans (by assumption) ((State.raise_within ..).mono (by rfl))
  · assumption

theorem State.hostLost_within (s : State) : s.Within 0x60038308cb s.hostLost := by
  unfold State.hostLost
  extract_lets y1
  have h2 : s.Within 0x60038308cb y1 := by
    unfold y1
    refine State.Within.trans ?_ ((State.mapBridge_within ..).mono (by rfl))
    refine State.Within.trans ?_ ((State.hostOpenFail_within ..).mono (by rfl))
    exact (State.ringsStop_within ..).mono (by rfl)
  clear_value y1
  refine State.Within.each ?_ (fun u a => ?_)
  · assumption
  · exact (State.peerServe_within ..).mono (by rfl)

theorem State.cfgReset_within (s : State) : s.Within 0x4001820009 s.cfgReset := by
  unfold State.cfgReset
  extract_lets y1
  have h2 : s.Within 0x4001820009 y1 := by
    unfold y1
    refine State.Within.trans ?_ ((State.cfgBit_within ..).mono (by rfl))
    refine State.Within.trans ?_ ((State.cfgBit_within ..).mono (by rfl))
    refine State.Within.trans ?_ ((State.cfgBit_within ..).mono (by rfl))
    exact (State.cfgBit_within ..).mono (by rfl)
  clear_value y1
  refine State.Within.set_pcie ?_ (by rfl)
  assumption

theorem State.pcieUp_within (s : State) (speed width : Nat) : s.Within 0x6000020009 (s.pcieUp speed width) := by
  unfold State.pcieUp
  refine State.Within.ite ?_ ?_
  · extract_lets y1
    split
    rename_i x2 e3
    have h4 : s.Within 0x6000020009 x2 := State.Within.of_pair e3 (by exact (State.draw_within ..).mono (by rfl))
    refine State.Within.trans ?_ ((State.raise_within ..).mono (by rfl))
    refine State.Within.trans ?_ ((State.setFld_within ..).mono (by rfl))
    refine State.Within.trans ?_ ((State.setFld_within ..).mono (by rfl))
    refine State.Within.trans ?_ ((State.setFld_within ..).mono (by rfl))
    exact State.Within.trans (by assumption) ((State.setFld_within ..).mono (by rfl))
  · exact State.Within.refl _

theorem State.pcieDown_within (s : State) : s.Within 0x60038308cb s.pcieDown := by
  unfold State.pcieDown
  refine State.Within.ite ?_ ?_
  · split
    rename_i x1 e2
    have h3 : s.Within 0x60038308cb x1 := State.Within.of_pair e2 (by exact (State.draw_within ..).mono (by rfl))
    refine State.Within.trans ?_ ((State.cfgReset_within ..).mono (by rfl))
    refine State.Within.trans ?_ ((State.hostLost_within ..).mono (by rfl))
    refine State.Within.trans ?_ ((State.raise_within ..).mono (by rfl))
    refine State.Within.trans ?_ ((State.bump_within ..).mono (by rfl))
    refine State.Within.trans ?_ ((State.setFld_within ..).mono (by rfl))
    exact State.Within.trans (by assumption) ((State.setFld_within ..).mono (by rfl))
  · exact State.Within.refl _

theorem State.rstCause_within (s : State) (level source : Nat) : s.Within 0x1 (s.rstCause level source) := by
  unfold State.rstCause
  extract_lets y1
  have h2 : s.Within 0x1 y1 := by
    unfold y1
    refine State.Within.trans ?_ ((State.setFld_within ..).mono (by rfl))
    exact (State.setFld_within ..).mono (by rfl)
  clear_value y1
  exact State.Within.trans (by assumption) ((State.setFld_within ..).mono (by rfl))

theorem State.flr_within (s : State) : s.Within 0x60038308cb s.flr := by
  unfold State.flr
  refine State.Within.ite ?_ ?_
  · exact State.Within.refl _
  · refine State.Within.trans ?_ ((State.rstCause_within ..).mono (by rfl))
    refine State.Within.trans ?_ ((State.raise_within ..).mono (by rfl))
    refine State.Within.trans ?_ ((State.bump_within ..).mono (by rfl))
    refine State.Within.trans ?_ ((State.cfgReset_within ..).mono (by rfl))
    refine State.Within.trans ?_ ((State.hostLost_within ..).mono (by rfl))
    exact (State.pcieDown_within ..).mono (by rfl)

theorem State.hotReset_within (s : State) : s.Within 0x60038308cb s.hotReset := by
  unfold State.hotReset
  refine State.Within.ite ?_ ?_
  · exact State.Within.refl _
  · refine State.Within.trans ?_ ((State.rstCause_within ..).mono (by rfl))
    refine State.Within.trans ?_ ((State.cfgReset_within ..).mono (by rfl))
    refine State.Within.trans ?_ ((State.hostLost_within ..).mono (by rfl))
    exact (State.pcieDown_within ..).mono (by rfl)

theorem State.cfgRead_within (s : State) (r : CfgReg) : s.Within 0x2000000000 (s.cfgRead r).2 := by
  unfold State.cfgRead
  extract_lets y1
  split
  all_goals first | exact State.Within.refl _ | exact (State.draw_within ..).mono (by rfl)

theorem State.cfgWrite_within (s : State) (r : CfgReg) (v : Nat) : s.Within 0x4001820009 (s.cfgWrite r v) := by
  unfold State.cfgWrite
  split
  · exact (State.cfgBit_within ..).mono (by rfl)
  · refine State.Within.ite ?_ ?_
    · refine State.Within.set_pcie ?_ (by rfl)
      exact State.Within.refl _
    · exact State.Within.refl _
  · extract_lets y1 y2
    have h3 : s.Within 0x4001820009 y1 := by
      unfold y1
      exact (State.cfgBit_within ..).mono (by rfl)
    clear_value y1
    refine State.Within.set_pcie ?_ (by rfl)
    assumption
  · extract_lets y4 y5 y6
    have h7 : s.Within 0x4001820009 y4 := by
      unfold y4
      exact (State.cfgBit_within ..).mono (by rfl)
    clear_value y4
    have h8 : s.Within 0x4001820009 y6 := by
      unfold y6
      refine State.Within.set_pcie ?_ (by rfl)
      assumption
    clear_value y6
    refine State.Within.each ?_ (fun u a => ?_)
    · assumption
    · exact (State.msixFlush_within ..).mono (by rfl)
  · extract_lets y9 y10
    have h11 : s.Within 0x4001820009 y9 := by
      unfold y9
      exact (State.cfgBit_within ..).mono (by rfl)
    clear_value y9
    refine State.Within.set_pcie ?_ (by rfl)
    assumption
  · refine State.Within.set_pcie ?_ (by rfl)
    exact State.Within.refl _
  · refine State.Within.set_pcie ?_ (by rfl)
    exact State.Within.refl _
  · refine State.Within.set_pcie ?_ (by rfl)
    exact State.Within.refl _
  · exact State.Within.refl _

theorem State.cfgRequest_within (s : State) (r : CfgReg) (v : Option Nat) : s.Within 0x6001820009 (s.cfgRequest r v) := by
  unfold State.cfgRequest
  refine State.Within.ite ?_ ?_
  · exact (State.emit_within ..).mono (by rfl)
  · split
    · exact (State.cfgWrite_within ..).mono (by rfl)
    · split
      rename_i x1 e2
      have h3 : s.Within 0x6001820009 x1 := State.Within.of_pair e2 (by exact (State.cfgRead_within ..).mono (by rfl))
      exact State.Within.trans (by assumption) ((State.emit_within ..).mono (by rfl))

theorem State.cfgLate_within (s : State) : s.Within 0x1 s.cfgLate := by
  unfold State.cfgLate
  refine State.Within.ite ?_ ?_
  · exact State.Within.refl _
  · refine State.Within.trans ?_ ((State.setFld_within ..).mono (by rfl))
    refine State.Within.trans ?_ ((State.setWord_within ..).mono (by rfl))
    exact (State.setFld_within ..).mono (by rfl)

theorem State.msixWrite_within (s : State) (v k x : Nat) : s.Within 0x4000020008 (s.msixWrite v k x) := by
  unfold State.msixWrite
  extract_lets y1 y2
  have h3 : s.Within 0x4000020008 y2 := by
    unfold y2
    refine State.Within.set_pcie ?_ (by rfl)
    exact State.Within.refl _
  clear_value y2
  refine State.Within.ite ?_ ?_
  · exact State.Within.trans (by assumption) ((State.msixFlush_within ..).mono (by rfl))
  · assumption

end Sys2Proof.Machine
end

