-- ==== Sys2Proof/Laws/WithinUnits.lean ====
section
/-! SUPPORT. The components of State that every operation of the units beside the data path may change, and that what it leaves can come after. -/
namespace Sys2Proof.Machine

/-! ## Machine/Wake.lean -/

theorem State.mapPower_within (s : State) (f : Power → Power) : s.Within 0x4000000 (s.mapPower f) := by
  unfold State.mapPower
  refine State.Within.set_power ?_ (by rfl)
  exact State.Within.refl _

theorem State.setPhase_within (s : State) (v : Nat) : s.Within 0x1 (s.setPhase v) := by
  unfold State.setPhase
  exact (State.setFld_within ..).mono (by rfl)

theorem State.setResult_within (s : State) (v : Nat) : s.Within 0x1 (s.setResult v) := by
  unfold State.setResult
  exact (State.setFld_within ..).mono (by rfl)

theorem State.setCause_within (s : State) (v : Nat) : s.Within 0x1 (s.setCause v) := by
  unfold State.setCause
  exact (State.setFld_within ..).mono (by rfl)

theorem State.ntStart_within (s : State) : s.Within 0x4000000 s.ntStart := by
  unfold State.ntStart
  exact (State.mapPower_within ..).mono (by rfl)

theorem State.nmStop_within (s : State) : s.Within 0x4000001 s.nmStop := by
  unfold State.nmStop
  refine State.Within.trans ?_ ((State.mapPower_within ..).mono (by rfl))
  exact (State.setFld_within ..).mono (by rfl)

theorem State.nmReachedRun_within (s : State) : s.Within 0x4000001 s.nmReachedRun := by
  unfold State.nmReachedRun
  refine State.Within.ite ?_ ?_
  · refine State.Within.trans ?_ ((State.ntStart_within ..).mono (by rfl))
    exact (State.setFld_within ..).mono (by rfl)
  · exact State.Within.refl _

theorem State.pwrDone_within (s : State) : s.Within 0x4004020009 s.pwrDone := by
  unfold State.pwrDone
  extract_lets y1 y2
  have h3 : s.Within 0x4004020009 y2 := by
    unfold y2
    refine State.Within.trans ?_ ((State.raise_within ..).mono (by rfl))
    refine State.Within.trans ?_ ((State.bump_within ..).mono (by rfl))
    refine State.Within.trans ?_ ((State.setResult_within ..).mono (by rfl))
    refine State.Within.trans ?_ ((State.setPhase_within ..).mono (by rfl))
    exact (State.setFld_within ..).mono (by rfl)
  clear_value y2
  refine State.Within.ite ?_ ?_
  · exact State.Within.trans (by assumption) ((State.nmReachedRun_within ..).mono (by rfl))
  · assumption

theorem State.enterPrepare_within (s : State) : s.Within 0x4004020009 s.enterPrepare := by
  unfold State.enterPrepare
  refine State.Within.ite ?_ ?_
  · exact (State.pwrDone_within ..).mono (by rfl)
  · exact (State.setPhase_within ..).mono (by rfl)

theorem State.pwrRefused_within (s : State) : s.Within 0x4000020009 s.pwrRefused := by
  unfold State.pwrRefused
  refine State.Within.trans ?_ ((State.raise_within ..).mono (by rfl))
  refine State.Within.trans ?_ ((State.bump_within ..).mono (by rfl))
  exact (State.setResult_within ..).mono (by rfl)

theorem State.pwrReq_within (s : State) (src st : Nat) : s.Within 0x4004820009 (s.pwrReq src st) := by
  unfold State.pwrReq
  extract_lets y1 y2 y3
  have h4 : s.Within 0x4004820009 y2 := by
    unfold y2
    exact (State.setFld_within ..).mono (by rfl)
  clear_value y2
  have h5 : s.Within 0x4004820009 y3 := by
    unfold y3
    refine State.Within.trans ?_ ((State.mapPower_within ..).mono (by rfl))
    exact State.Within.trans (by assumption) ((State.setResult_within ..).mono (by rfl))
  clear_value y3
  refine State.Within.ite ?_ ?_
  · exact (State.logErr_within ..).mono (by rfl)
  · refine State.Within.ite ?_ ?_
    · refine State.Within.trans ?_ ((State.pwrRefused_within ..).mono (by rfl))
      exact State.Within.trans (by assumption) ((State.logErr_within ..).mono (by rfl))
    · split
      · refine State.Within.trans ?_ ((State.pwrRefused_within ..).mono (by rfl))
        refine State.Within.trans ?_ ((State.setCause_within ..).mono (by rfl))
        exact State.Within.trans (by assumption) ((State.logErr_within ..).mono (by rfl))
      · refine State.Within.ite ?_ ?_
        · refine State.Within.trans ?_ ((State.pwrRefused_within ..).mono (by rfl))
          exact State.Within.trans (by assumption) ((State.logErr_within ..).mono (by rfl))
        · refine State.Within.ite ?_ ?_
          · exact State.Within.trans (by assumption) ((State.setResult_within ..).mono (by rfl))
          · refine State.Within.ite ?_ ?_
            · exact State.Within.trans (by assumption) ((State.enterPrepare_within ..).mono (by rfl))
            · exact State.Within.trans (by assumption) ((State.setPhase_within ..).mono (by rfl))

theorem State.startWake_within (s : State) (first srcs : Nat) : s.Within 0x4004000001 (s.startWake first srcs) := by
  unfold State.startWake
  extract_lets y1 y2 y3 y4
  have h5 : s.Within 0x4004000001 y1 := by
    unfold y1
    refine State.Within.trans ?_ ((State.setFld_within ..).mono (by rfl))
    exact (State.setFld_within ..).mono (by rfl)
  clear_value y1
  have h6 : s.Within 0x4004000001 y2 := by
    unfold y2
    exact State.Within.trans (by assumption) ((State.setWord_within ..).mono (by rfl))
  clear_value y2
  have h7 : s.Within 0x4004000001 y3 := by
    unfold y3
    exact State.Within.trans (by assumption) ((State.mapPower_within ..).mono (by rfl))
  clear_value y3
  have h8 : s.Within 0x4004000001 y4 := by
    unfold y4
    refine State.Within.ite ?_ ?_
    · exact State.Within.trans (by assumption) ((State.emit_within ..).mono (by rfl))
    · assumption
  clear_value y4
  refine State.Within.trans ?_ ((State.setPhase_within ..).mono (by rfl))
  refine State.Within.trans ?_ ((State.setResult_within ..).mono (by rfl))
  exact State.Within.trans (by assumption) ((State.setFld_within ..).mono (by rfl))

theorem State.pwrAbort_within (s : State) (n : Nat) : s.Within 0x4004020009 (s.pwrAbort n) := by
  unfold State.pwrAbort
  extract_lets y1
  have h2 : s.Within 0x4004020009 y1 := by
    unfold y1
    refine State.Within.trans ?_ ((State.raise_within ..).mono (by rfl))
    refine State.Within.trans ?_ ((State.bump_within ..).mono (by rfl))
    refine State.Within.trans ?_ ((State.setCause_within ..).mono (by rfl))
    refine State.Within.trans ?_ ((State.setResult_within ..).mono (by rfl))
    exact (State.setPhase_within ..).mono (by rfl)
  clear_value y1
  refine State.Within.ite ?_ ?_
  · exact State.Within.trans (by assumption) ((State.nmReachedRun_within ..).mono (by rfl))
  · assumption

theorem State.wakeWaits_within (s : State) (srcs : Nat) : s.Within 0x4000000 (s.wakeWaits srcs) := by
  unfold State.wakeWaits
  exact (State.mapPower_within ..).mono (by rfl)

theorem State.wakeActs_within (s : State) (srcs : Nat) : s.Within 0x4004020009 (s.wakeActs srcs) := by
  unfold State.wakeActs
  split
  · refine State.Within.ite ?_ ?_
    · exact State.Within.refl _
    · refine State.Within.ite ?_ ?_
      · exact (State.wakeWaits_within ..).mono (by rfl)
      · exact (State.startWake_within ..).mono (by rfl)
  · refine State.Within.ite ?_ ?_
    · exact State.Within.refl _
    · exact (State.wakeWaits_within ..).mono (by rfl)
  · exact (State.pwrAbort_within ..).mono (by rfl)
  · exact (State.pwrAbort_within ..).mono (by rfl)
  · refine State.Within.trans ?_ ((State.wakeWaits_within ..).mono (by rfl))
    exact (State.bump_within ..).mono (by rfl)

theorem State.wakeOccurs_within (s : State) (srcs : Nat) : s.Within 0x4004020009 (s.wakeOccurs srcs) := by
  unfold State.wakeOccurs
  extract_lets y1 y2 y3 y4 y5 y6
  have h7 : s.Within 0x4004020009 y3 := by
    unfold y3
    exact (State.bump_within ..).mono (by rfl)
  clear_value y3
  have h8 : s.Within 0x4004020009 y5 := by
    unfold y5
    exact State.Within.trans (by assumption) ((State.setFld_within ..).mono (by rfl))
  clear_value y5
  have h9 : s.Within 0x4004020009 y6 := by
    unfold y6
    refine State.Within.trans ?_ ((State.raise_within ..).mono (by rfl))
    refine State.Within.each ?_ (fun u a => ?_)
    · assumption
    · exact (State.bump_within ..).mono (by rfl)
  clear_value y6
  refine State.Within.ite ?_ ?_
  · assumption
  · exact State.Within.trans (by assumption) ((State.wakeActs_within ..).mono (by rfl))

theorem State.confirmWake_within (s : State) : s.Within 0x4000001 s.confirmWake := by
  unfold State.confirmWake
  refine State.Within.trans ?_ ((State.mapPower_within ..).mono (by rfl))
  refine State.Within.each ?_ (fun u a => ?_)
  · exact State.Within.refl _
  · exact (State.setFld_within ..).mono (by rfl)

theorem State.falseWake_within (s : State) (n : Nat) : s.Within 0x4004020009 (s.falseWake n) := by
  unfold State.falseWake
  extract_lets y1 y2 y3 y4
  have h5 : s.Within 0x4004020009 y2 := by
    unfold y2
    refine State.Within.trans ?_ ((State.setFld_within ..).mono (by rfl))
    exact (State.bump_within ..).mono (by rfl)
  clear_value y2
  refine State.Within.ite ?_ ?_
  · refine State.Within.trans ?_ ((State.raise_within ..).mono (by rfl))
    refine State.Within.trans ?_ ((State.mapPower_within ..).mono (by rfl))
    exact State.Within.trans (by assumption) ((State.setFld_within ..).mono (by rfl))
  · assumption

theorem State.confirmTimeout_within (s : State) : s.Within 0x4004020009 s.confirmTimeout := by
  unfold State.confirmTimeout
  split
  · exact State.Within.refl _
  · refine State.Within.trans ?_ ((State.mapPower_within ..).mono (by rfl))
    refine State.Within.trans ?_ ((State.raise_within ..).mono (by rfl))
    refine State.Within.each ?_ (fun u a => ?_)
    · exact State.Within.refl _
    · exact (State.falseWake_within ..).mono (by rfl)

theorem State.unmaskTimer_within (s : State) (n : Nat) : s.Within 0x4000001 (s.unmaskTimer n) := by
  unfold State.unmaskTimer
  refine State.Within.ite ?_ ?_
  · refine State.Within.trans ?_ ((State.mapPower_within ..).mono (by rfl))
    exact (State.setFld_within ..).mono (by rfl)
  · exact State.Within.refl _

theorem State.maskWrite_within (s : State) (v : Nat) : s.Within 0x4000001 (s.maskWrite v) := by
  unfold State.maskWrite
  refine State.Within.trans ?_ ((State.mapPower_within ..).mono (by rfl))
  exact (State.setFld_within ..).mono (by rfl)

theorem State.wakeIn_within (s : State) (pins : Nat) : s.Within 0x4004020009 (s.wakeIn pins) := by
  unfold State.wakeIn
  extract_lets y1
  refine State.Within.ite ?_ ?_
  · exact State.Within.refl _
  · exact (State.wakeOccurs_within ..).mono (by rfl)

theorem State.wakeTimer_within (s : State) : s.Within 0x4004020009 s.wakeTimer := by
  unfold State.wakeTimer
  refine State.Within.ite ?_ ?_
  · exact (State.wakeOccurs_within ..).mono (by rfl)
  · exact State.Within.refl _

theorem State.nmNeeded_within (s : State) : s.Within 0x4004020009 s.nmNeeded := by
  unfold State.nmNeeded
  refine State.Within.ite ?_ ?_
  · extract_lets y1
    have h2 : s.Within 0x4004020009 y1 := by
      unfold y1
      refine State.Within.trans ?_ ((State.raise_within ..).mono (by rfl))
      refine State.Within.trans ?_ ((State.ntStart_within ..).mono (by rfl))
      exact (State.setFld_within ..).mono (by rfl)
    clear_value y1
    refine State.Within.ite ?_ ?_
    · exact State.Within.trans (by assumption) ((State.wakeOccurs_within ..).mono (by rfl))
    · assumption
  · exact (State.ntStart_within ..).mono (by rfl)

theorem State.holderUpdate_within (s : State) (sa nmId reason : Nat) (keep : Bool) : s.Within 0x4004020009 (s.holderUpdate sa nmId reason keep) := by
  unfold State.holderUpdate
  extract_lets y1 y2 y3 y4 y5 y6 y7 y8 y9 y10 y11
  have h12 : s.Within 0x4004020009 y11 := by
    unfold y11
    exact (State.mapPower_within ..).mono (by rfl)
  clear_value y11
  refine State.Within.ite ?_ ?_
  · refine State.Within.trans ?_ ((State.raise_within ..).mono (by rfl))
    refine State.Within.trans ?_ ((State.bump_within ..).mono (by rfl))
    exact State.Within.trans (by assumption) ((State.mapPower_within ..).mono (by rfl))
  · assumption

theorem State.charm_within (s : State) (p : Nat) (l : List Byte) : s.Within 0x4004020009 (s.charm p l) := by
  unfold State.charm
  extract_lets y1 y2 y3
  have h4 : s.Within 0x4004020009 y3 := by
    unfold y3
    refine State.Within.trans ?_ ((State.holderUpdate_within ..).mono (by rfl))
    exact (State.bump_within ..).mono (by rfl)
  clear_value y3
  refine State.Within.ite ?_ ?_
  · refine State.Within.ite ?_ ?_
    · exact (State.bump_within ..).mono (by rfl)
    · refine State.Within.ite ?_ ?_
      · exact State.Within.trans (by assumption) ((State.bump_within ..).mono (by rfl))
      · refine State.Within.trans ?_ ((State.confirmWake_within ..).mono (by rfl))
        exact State.Within.trans (by assumption) ((State.nmNeeded_within ..).mono (by rfl))
  · exact State.Within.refl _

theorem State.netTimeout_within (s : State) : s.Within 0x4004820009 s.netTimeout := by
  unfold State.netTimeout
  refine State.Within.ite ?_ ?_
  · refine State.Within.ite ?_ ?_
    · exact (State.ntStart_within ..).mono (by rfl)
    · extract_lets y1 y2
      have h3 : s.Within 0x4004820009 y1 := by
        unfold y1
        refine State.Within.trans ?_ ((State.mapPower_within ..).mono (by rfl))
        refine State.Within.trans ?_ ((State.raise_within ..).mono (by rfl))
        exact (State.setFld_within ..).mono (by rfl)
      clear_value y1
      refine State.Within.ite ?_ ?_
      · refine State.Within.trans ?_ ((State.pwrReq_within ..).mono (by rfl))
        exact State.Within.trans (by assumption) ((State.bump_within ..).mono (by rfl))
      · assumption
  · exact State.Within.refl _

theorem State.holdWrite_within (s : State) (hold : Bool) (reason : Nat) : s.Within 0x4004020009 (s.holdWrite hold reason) := by
  unfold State.holdWrite
  extract_lets y1 y2 y3 y4
  have h5 : s.Within 0x4004020009 y2 := by
    unfold y2
    refine State.Within.trans ?_ ((State.setFld_within ..).mono (by rfl))
    exact (State.setFld_within ..).mono (by rfl)
  clear_value y2
  have h6 : s.Within 0x4004020009 y3 := by
    unfold y3
    exact State.Within.trans (by assumption) ((State.confirmWake_within ..).mono (by rfl))
  clear_value y3
  have h7 : s.Within 0x4004020009 y4 := by
    unfold y4
    exact State.Within.trans (by assumption) ((State.mapPower_within ..).mono (by rfl))
  clear_value y4
  refine State.Within.ite ?_ ?_
  · refine State.Within.ite ?_ ?_
    · exact State.Within.trans (by assumption) ((State.nmNeeded_within ..).mono (by rfl))
    · assumption
  · refine State.Within.ite ?_ ?_
    · refine State.Within.ite ?_ ?_
      · exact State.Within.trans (by assumption) ((State.ntStart_within ..).mono (by rfl))
      · assumption
    · assumption

theorem State.nmCfgWrite_within (s : State) (src : Src) (etype : Nat) (auto : Bool) (sleep : Nat) :
    s.Within 0x4004820009 (s.nmCfgWrite src etype auto sleep) := by
  unfold State.nmCfgWrite
  refine State.Within.ite ?_ ?_
  · exact (State.refuse_within ..).mono (by rfl)
  · extract_lets y1
    have h2 : s.Within 0x4004820009 y1 := by
      unfold y1
      refine State.Within.trans ?_ ((State.setFld_within ..).mono (by rfl))
      refine State.Within.trans ?_ ((State.setFld_within ..).mono (by rfl))
      exact (State.setFld_within ..).mono (by rfl)
    clear_value y1
    refine State.Within.ite ?_ ?_
    · exact State.Within.trans (by assumption) ((State.nmStop_within ..).mono (by rfl))
    · assumption

theorem State.charmDue_within (s : State) : s.Within 0x4000020009 s.charmDue := by
  unfold State.charmDue
  refine State.Within.ite ?_ ?_
  · exact (State.raise_within ..).mono (by rfl)
  · exact State.Within.refl _

/-! ## Machine/Bus.lean -/

theorem State.mapCan_within (s : State) (n : Nat) (f : CanCh → CanCh) : s.Within 0x8000000 (s.mapCan n f) := by
  unfold State.mapCan
  refine State.Within.set_cans ?_ (by rfl)
  exact State.Within.refl _

theorem State.mapLin_within (s : State) (n : Nat) (f : LinCh → LinCh) : s.Within 0x10000000 (s.mapLin n f) := by
  unfold State.mapLin
  refine State.Within.set_lins ?_ (by rfl)
  exact State.Within.refl _

theorem State.setCst_within (s : State) (n v : Nat) : s.Within 0x4000000001 (s.setCst n v) := by
  unfold State.setCst
  extract_lets y1
  have h2 : s.Within 0x4000000001 y1 := by
    unfold y1
    exact (State.setFld_within ..).mono (by rfl)
  clear_value y1
  refine State.Within.ite ?_ ?_
  · assumption
  · exact State.Within.trans (by assumption) ((State.emit_within ..).mono (by rfl))

theorem State.setLinLst_within (s : State) (n v : Nat) : s.Within 0x1 (s.setLinLst n v) := by
  unfold State.setLinLst
  exact (State.setFld_within ..).mono (by rfl)

theorem State.gwPresent_within (s : State) (l : List Byte) : s.Within 0x6000030009 (s.gwPresent l).2.2 := by
  unfold State.gwPresent
  refine State.Within.itp2 ?_ ?_
  · dsimp only
    exact State.Within.refl _
  · dsimp only
    exact (State.inject_within ..).mono (by rfl)

theorem State.canWrap_within (s : State) (n : Nat) (f : CanFrame) (ts : Nat) : s.Within 0x6008030009 (s.canWrap n f ts) := by
  unfold State.canWrap
  extract_lets y1 y2 y3
  split
  · rename_i x4 e5
    have h6 : s.Within 0x6008030009 x4 := State.Within.of_pair2 e5 (by exact (State.gwPresent_within ..).mono (by rfl))
    exact State.Within.trans (by assumption) ((State.bump_within ..).mono (by rfl))
  · rename_i x7 e8
    have h9 : s.Within 0x6008030009 x7 := State.Within.of_pair2 e8 (by exact (State.gwPresent_within ..).mono (by rfl))
    extract_lets y10
    have h11 : s.Within 0x6008030009 y10 := by
      unfold y10
      exact State.Within.trans (by assumption) ((State.mapCan_within ..).mono (by rfl))
    clear_value y10
    refine State.Within.ite ?_ ?_
    · exact State.Within.trans (by assumption) ((State.bump_within ..).mono (by rfl))
    · refine State.Within.trans ?_ ((State.raise_within ..).mono (by rfl))
      exact State.Within.trans (by assumption) ((State.bump_within ..).mono (by rfl))

theorem State.setWide_within (s : State) (p : Page) (lo hi : Fld) (v : Nat) : s.Within 0x1 (s.setWide p lo hi v) := by
  unfold State.setWide
  refine State.Within.trans ?_ ((State.setFld_within ..).mono (by rfl))
  exact (State.setFld_within ..).mono (by rfl)

theorem State.gwCmac_within (s : State) (cup : Nat) (msg : List Byte) : s.Within 0x4400820009 (s.gwCmac cup msg).2 := by
  unfold State.gwCmac
  extract_lets y1 y2 y3
  refine State.Within.itp ?_ ?_
  · dsimp only
    exact State.Within.refl _
  · refine State.Within.itp ?_ ?_
    · dsimp only
      exact (State.logErr_within ..).mono (by rfl)
    · refine State.Within.itp ?_ ?_
      · dsimp only
        refine State.Within.trans ?_ ((State.raise_within ..).mono (by rfl))
        exact (State.bump_within ..).mono (by rfl)
      · dsimp only
        refine State.Within.set_slots ?_ (by rfl)
        exact State.Within.refl _

theorem State.authFail_within (s : State) (n : Nat) : s.Within 0x4000020009 (s.authFail n) := by
  unfold State.authFail
  refine State.Within.trans ?_ ((State.raise_within ..).mono (by rfl))
  exact (State.bump_within ..).mono (by rfl)

theorem State.cipherFail_within (s : State) (n : Nat) : s.Within 0x4000820009 (s.cipherFail n) := by
  unfold State.cipherFail
  exact (State.logErr_within ..).mono (by rfl)

theorem State.canShift_within (s : State) (n : Nat) : s.Within 0x8000000 (s.canShift n) := by
  unfold State.canShift
  exact (State.mapCan_within ..).mono (by rfl)

theorem State.canPump_within (s : State) (n k : Nat) : s.Within 0x6008830009 (s.canPump n k) := by
  induction k generalizing s with
  | zero => exact State.Within.refl s
  | succ k ih =>
    have shift (u : State) : u.Within 0x6008830009 (u.canShift n) := (State.canShift_within ..).mono (by rfl)
    have fails : s.Within 0x6008830009 ((s.canShift n).authFail n) := (shift s).trans ((State.authFail_within ..).mono (by rfl))
    unfold State.canPump
    split
    · exact State.Within.refl s
    · refine State.Within.ite (State.Within.refl s) ?_
      split
      · exact ((shift s).trans ((State.canWrap_within ..).mono (by rfl))).trans (ih _)
      · dsimp only
        refine State.Within.ite (fails.trans (ih _)) (State.Within.ite ?_ ?_)
        · exact (fails.trans ((State.cipherFail_within ..).mono (by rfl))).trans (ih _)
        · exact (State.mapCan_within ..).mono (by rfl)

theorem State.canFlow_within (s : State) (n : Nat) : s.Within 0x6008830009 (s.canFlow n) := by
  unfold State.canFlow
  exact (State.canPump_within ..).mono (by rfl)

theorem State.canVerified_within (s : State) (n : Nat) (inTime : Bool) : s.Within 0x6408830009 (s.canVerified n inTime) := by
  unfold State.canVerified
  split
  · exact State.Within.refl _
  · split
    · exact State.Within.refl _
    · extract_lets y1 y2 y3
      split
      rename_i x4 e5
      have h6 : s.Within 0x6408830009 x4 := State.Within.of_pair e5 (by
        refine State.Within.itp ?_ ?_
        · exact (State.gwCmac_within ..).mono (by rfl)
        · dsimp only
          exact State.Within.refl _)
      extract_lets y7 y8 y9
      have h10 : s.Within 0x6408830009 y7 := by
        unfold y7
        exact State.Within.trans (by assumption) ((State.canShift_within ..).mono (by rfl))
      clear_value y7
      have h11 : s.Within 0x6408830009 y8 := by
        unfold y8
        refine State.Within.trans ?_ ((State.bump_within ..).mono (by rfl))
        exact State.Within.trans (by assumption) ((State.setWide_within ..).mono (by rfl))
      clear_value y8
      have h12 : s.Within 0x6408830009 y9 := by
        unfold y9
        split
        · refine State.Within.trans ?_ ((State.cipherFail_within ..).mono (by rfl))
          exact State.Within.trans (by assumption) ((State.authFail_within ..).mono (by rfl))
        · refine State.Within.ite ?_ ?_
          · exact State.Within.trans (by assumption) ((State.canWrap_within ..).mono (by rfl))
          · exact State.Within.trans (by assumption) ((State.authFail_within ..).mono (by rfl))
      clear_value y9
      exact State.Within.trans (by assumption) ((State.canFlow_within ..).mono (by rfl))

theorem State.canDrop_within (s : State) (n : Nat) : s.Within 0x8 (s.canDrop n) := by
  unfold State.canDrop
  exact (State.bump_within ..).mono (by rfl)

theorem State.canQueue_within (s : State) (n : Nat) (f : CanFrame) : s.Within 0x8000008 (s.canQueue n f) := by
  unfold State.canQueue
  extract_lets y1
  refine State.Within.ite ?_ ?_
  · exact (State.canDrop_within ..).mono (by rfl)
  · exact (State.mapCan_within ..).mono (by rfl)

theorem State.canSend_within (s : State) (n : Nat) (f : CanFrame) (fits : Bool) : s.Within 0x4008820009 (s.canSend n f fits) := by
  unfold State.canSend
  extract_lets y1 y2
  refine State.Within.ite ?_ ?_
  · exact (State.canDrop_within ..).mono (by rfl)
  · split
    · exact (State.canQueue_within ..).mono (by rfl)
    · refine State.Within.ite ?_ ?_
      · refine State.Within.trans ?_ ((State.canDrop_within ..).mono (by rfl))
        exact (State.authFail_within ..).mono (by rfl)
      · extract_lets y3 y4
        have h5 : s.Within 0x4008820009 y4 := by
          unfold y4
          exact (State.setWide_within ..).mono (by rfl)
        clear_value y4
        refine State.Within.ite ?_ ?_
        · exact State.Within.trans (by assumption) ((State.mapCan_within ..).mono (by rfl))
        · refine State.Within.trans ?_ ((State.cipherFail_within ..).mono (by rfl))
          exact State.Within.trans (by assumption) ((State.canDrop_within ..).mono (by rfl))

theorem State.canSigned_within (s : State) (n : Nat) (inTime : Bool) : s.Within 0x4408820009 (s.canSigned n inTime) := by
  unfold State.canSigned
  split
  · exact State.Within.refl _
  · extract_lets y1 y2
    have h3 : s.Within 0x4408820009 y1 := by
      unfold y1
      exact (State.mapCan_within ..).mono (by rfl)
    clear_value y1
    split
    rename_i x4 e5
    have h6 : s.Within 0x4408820009 x4 := State.Within.of_pair e5 (by
      refine State.Within.itp ?_ ?_
      · exact State.Within.trans (by assumption) ((State.gwCmac_within ..).mono (by rfl))
      · dsimp only
        assumption)
    split
    · refine State.Within.trans ?_ ((State.cipherFail_within ..).mono (by rfl))
      exact State.Within.trans (by assumption) ((State.canDrop_within ..).mono (by rfl))
    · extract_lets y7 y8
      refine State.Within.trans ?_ ((State.canQueue_within ..).mono (by rfl))
      exact State.Within.trans (by assumption) ((State.bump_within ..).mono (by rfl))

theorem State.canArbitrate_within (s : State) (n : Nat) : s.Within 0x4008020009 (s.canArbitrate n) := by
  unfold State.canArbitrate
  extract_lets y1 y2 y3 y4 y5 y6 y7
  have h8 : s.Within 0x4008020009 y2 := by
    unfold y2
    exact (State.mapCan_within ..).mono (by rfl)
  clear_value y2
  have h9 : s.Within 0x4008020009 y6 := by
    unfold y6
    refine State.Within.ite ?_ ?_
    · assumption
    · refine State.Within.trans ?_ ((State.raise_within ..).mono (by rfl))
      exact State.Within.trans (by assumption) ((State.bump_within ..).mono (by rfl))
  clear_value y6
  have h10 : s.Within 0x4008020009 y7 := by
    unfold y7
    exact State.Within.trans (by assumption) ((State.mapCan_within ..).mono (by rfl))
  clear_value y7
  refine State.Within.ite ?_ ?_
  · split
    · assumption
    · exact State.Within.trans (by assumption) ((State.mapCan_within ..).mono (by rfl))
  · exact State.Within.refl _

theorem State.canConfine_within (s : State) (n : Nat) : s.Within 0x4008020009 (s.canConfine n) := by
  unfold State.canConfine
  refine State.Within.ite ?_ ?_
  · refine State.Within.ite ?_ ?_
    · extract_lets y1
      have h2 : s.Within 0x4008020009 y1 := by
        unfold y1
        refine State.Within.trans ?_ ((State.setCst_within ..).mono (by rfl))
        exact (State.mapCan_within ..).mono (by rfl)
      clear_value y1
      refine State.Within.trans ?_ ((State.raise_within ..).mono (by rfl))
      exact State.Within.trans (by assumption) ((State.bump_within ..).mono (by rfl))
    · refine State.Within.ite ?_ ?_
      · refine State.Within.trans ?_ ((State.raise_within ..).mono (by rfl))
        exact (State.setCst_within ..).mono (by rfl)
      · refine State.Within.ite ?_ ?_
        · exact (State.setCst_within ..).mono (by rfl)
        · exact State.Within.refl _
  · exact State.Within.refl _

theorem State.canTxDone_within (s : State) (n : Nat) : s.Within 0x4008020009 (s.canTxDone n) := by
  unfold State.canTxDone
  split
  · exact State.Within.refl _
  · extract_lets y1 y2 y3 y4 y5
    have h6 : s.Within 0x4008020009 y2 := by
      unfold y2
      refine State.Within.trans ?_ ((State.bump_within ..).mono (by rfl))
      exact (State.mapCan_within ..).mono (by rfl)
    clear_value y2
    have h7 : s.Within 0x4008020009 y5 := by
      unfold y5
      exact State.Within.trans (by assumption) ((State.emit_within ..).mono (by rfl))
    clear_value y5
    refine State.Within.trans ?_ ((State.canConfine_within ..).mono (by rfl))
    exact State.Within.trans (by assumption) ((State.setFld_within ..).mono (by rfl))

theorem State.pnWake_within (s : State) (n cause : Nat) : s.Within 0x4004020009 (s.pnWake n cause) := by
  unfold State.pnWake
  extract_lets y1 y2
  have h3 : s.Within 0x4004020009 y1 := by
    unfold y1
    exact (State.setCst_within ..).mono (by rfl)
  clear_value y1
  have h4 : s.Within 0x4004020009 y2 := by
    unfold y2
    refine State.Within.trans ?_ ((State.raise_within ..).mono (by rfl))
    exact State.Within.trans (by assumption) ((State.setFld_within ..).mono (by rfl))
  clear_value y2
  exact State.Within.trans (by assumption) ((State.wakeOccurs_within ..).mono (by rfl))

theorem State.fecUp_within (s : State) (n : Nat) : s.Within 0x4004020009 (s.fecUp n) := by
  unfold State.fecUp
  extract_lets y1
  have h2 : s.Within 0x4004020009 y1 := by
    unfold y1
    exact (State.setFld_within ..).mono (by rfl)
  clear_value y1
  refine State.Within.ite ?_ ?_
  · exact State.Within.trans (by assumption) ((State.pnWake_within ..).mono (by rfl))
  · assumption

theorem State.canTake_within (s : State) (n : Nat) (f : CanFrame) (ago : Nat) : s.Within 0x6008830009 (s.canTake n f ago) := by
  unfold State.canTake
  refine State.Within.ite ?_ ?_
  · extract_lets y1 y2
    refine State.Within.trans ?_ ((State.canFlow_within ..).mono (by rfl))
    exact (State.mapCan_within ..).mono (by rfl)
  · exact State.Within.refl _

theorem State.canReceived_within (s : State) (n : Nat) (f : CanFrame) (dlc ago : Nat) : s.Within 0x600c830009 (s.canReceived n f dlc ago) := by
  unfold State.canReceived
  extract_lets y1 y2
  have h3 : s.Within 0x600c830009 y2 := by
    unfold y2
    exact (State.mapCan_within ..).mono (by rfl)
  clear_value y2
  refine State.Within.ite ?_ ?_
  · exact State.Within.refl _
  · refine State.Within.ite ?_ ?_
    · refine State.Within.ite ?_ ?_
      · refine State.Within.ite ?_ ?_
        · exact (State.bump_within ..).mono (by rfl)
        · exact (State.fecUp_within ..).mono (by rfl)
      · refine State.Within.ite ?_ ?_
        · refine State.Within.trans ?_ ((State.canTake_within ..).mono (by rfl))
          exact (State.pnWake_within ..).mono (by rfl)
        · refine State.Within.trans ?_ ((State.bump_within ..).mono (by rfl))
          exact (State.setFld_within ..).mono (by rfl)
    · refine State.Within.ite ?_ ?_
      · split
        rename_i x4 e5
        have h6 : s.Within 0x600c830009 x4 := State.Within.of_pair e5 (by
          refine State.Within.itp ?_ ?_
          · split
            rename_i x7 e8
            have h9 : s.Within 0x600c830009 x7 := State.Within.of_pair e8 (by exact State.Within.trans (by assumption) ((State.draw_within ..).mono
              (by rfl)))
            dsimp only
            assumption
          · dsimp only
            assumption)
        refine State.Within.trans ?_ ((State.canTake_within ..).mono (by rfl))
        refine State.Within.trans ?_ ((State.canConfine_within ..).mono (by rfl))
        exact State.Within.trans (by assumption) ((State.setFld_within ..).mono (by rfl))
      · exact State.Within.refl _

theorem State.canError_within (s : State) (n lec : Nat) (tx big : Bool) (ago : Nat) : s.Within 0x400c020009 (s.canError n lec tx big ago) := by
  unfold State.canError
  extract_lets y1 y2 y3 y4 y5
  have h6 : s.Within 0x400c020009 y2 := by
    unfold y2
    refine State.Within.trans ?_ ((State.bump_within ..).mono (by rfl))
    exact (State.setFld_within ..).mono (by rfl)
  clear_value y2
  have h7 : s.Within 0x400c020009 y3 := by
    unfold y3
    refine State.Within.trans ?_ ((State.mapCan_within ..).mono (by rfl))
    refine State.Within.trans ?_ ((State.bump_within ..).mono (by rfl))
    exact (State.setFld_within ..).mono (by rfl)
  clear_value y3
  have h8 : s.Within 0x400c020009 y5 := by
    unfold y5
    refine State.Within.ite ?_ ?_
    · refine State.Within.ite ?_ ?_
      · assumption
      · exact State.Within.trans (by assumption) ((State.setFld_within ..).mono (by rfl))
    · exact State.Within.trans (by assumption) ((State.setFld_within ..).mono (by rfl))
  clear_value y5
  refine State.Within.ite ?_ ?_
  · exact State.Within.refl _
  · refine State.Within.ite ?_ ?_
    · refine State.Within.ite ?_ ?_
      · exact State.Within.trans (by assumption) ((State.fecUp_within ..).mono (by rfl))
      · assumption
    · refine State.Within.ite ?_ ?_
      · exact State.Within.trans (by assumption) ((State.canConfine_within ..).mono (by rfl))
      · exact State.Within.refl _

theorem State.boExpires_within (s : State) (n : Nat) : s.Within 0x4008000001 (s.boExpires n) := by
  unfold State.boExpires
  refine State.Within.ite ?_ ?_
  · extract_lets y1
    have h2 : s.Within 0x4008000001 y1 := by
      unfold y1
      exact (State.mapCan_within ..).mono (by rfl)
    clear_value y1
    refine State.Within.ite ?_ ?_
    · exact State.Within.trans (by assumption) ((State.setCst_within ..).mono (by rfl))
    · assumption
  · exact State.Within.refl _

theorem State.canRecover_within (s : State) (n : Nat) : s.Within 0x4008000001 (s.canRecover n) := by
  unfold State.canRecover
  refine State.Within.ite ?_ ?_
  · refine State.Within.trans ?_ ((State.setCst_within ..).mono (by rfl))
    exact (State.mapCan_within ..).mono (by rfl)
  · exact State.Within.refl _

theorem State.canIntegrated_within (s : State) (n : Nat) : s.Within 0x4000000001 (s.canIntegrated n) := by
  unfold State.canIntegrated
  refine State.Within.ite ?_ ?_
  · exact (State.setCst_within ..).mono (by rfl)
  · exact State.Within.refl _

theorem State.canRecovered_within (s : State) (n : Nat) : s.Within 0x4000020009 (s.canRecovered n) := by
  unfold State.canRecovered
  refine State.Within.ite ?_ ?_
  · refine State.Within.trans ?_ ((State.raise_within ..).mono (by rfl))
    refine State.Within.trans ?_ ((State.setFld_within ..).mono (by rfl))
    refine State.Within.trans ?_ ((State.setFld_within ..).mono (by rfl))
    exact (State.setCst_within ..).mono (by rfl)
  · exact State.Within.refl _

theorem State.pnSleepReq_within (s : State) (n : Nat) : s.Within 0x8000000 (s.pnSleepReq n) := by
  unfold State.pnSleepReq
  refine State.Within.ite ?_ ?_
  · exact State.Within.refl _
  · exact (State.mapCan_within ..).mono (by rfl)

theorem State.pnWakeReq_within (s : State) (n : Nat) : s.Within 0x400c020009 (s.pnWakeReq n) := by
  unfold State.pnWakeReq
  refine State.Within.ite ?_ ?_
  · exact (State.pnWake_within ..).mono (by rfl)
  · exact (State.mapCan_within ..).mono (by rfl)

theorem State.pnEnter_within (s : State) (n : Nat) : s.Within 0x4008000009 (s.pnEnter n) := by
  unfold State.pnEnter
  refine State.Within.ite ?_ ?_
  · extract_lets y1 y2
    have h3 : s.Within 0x4008000009 y1 := by
      unfold y1
      exact (State.bump_within ..).mono (by rfl)
    clear_value y1
    have h4 : s.Within 0x4008000009 y2 := by
      unfold y2
      exact State.Within.trans (by assumption) ((State.mapCan_within ..).mono (by rfl))
    clear_value y2
    refine State.Within.trans ?_ ((State.setCst_within ..).mono (by rfl))
    exact State.Within.trans (by assumption) ((State.setFld_within ..).mono (by rfl))
  · exact State.Within.refl _

theorem State.canEnter_within (s : State) (n : Nat) : s.Within 0x4008000001 (s.canEnter n) := by
  unfold State.canEnter
  extract_lets y1
  have h2 : s.Within 0x4008000001 y1 := by
    unfold y1
    exact (State.mapCan_within ..).mono (by rfl)
  clear_value y1
  refine State.Within.ite ?_ ?_
  · exact State.Within.trans (by assumption) ((State.setCst_within ..).mono (by rfl))
  · assumption

theorem State.canDrain_within (s : State) (n : Nat) : s.Within 0x8000000 (s.canDrain n) := by
  unfold State.canDrain
  exact (State.mapCan_within ..).mono (by rfl)

theorem State.canStop_within (s : State) (n : Nat) : s.Within 0x4008000001 (s.canStop n) := by
  unfold State.canStop
  extract_lets y1
  have h2 : s.Within 0x4008000001 y1 := by
    unfold y1
    exact (State.mapCan_within ..).mono (by rfl)
  clear_value y1
  refine State.Within.trans ?_ ((State.setFld_within ..).mono (by rfl))
  refine State.Within.trans ?_ ((State.setFld_within ..).mono (by rfl))
  refine State.Within.trans ?_ ((State.setFld_within ..).mono (by rfl))
  exact State.Within.trans (by assumption) ((State.setCst_within ..).mono (by rfl))

theorem State.linSend_within (s : State) (n i : Nat) (data : List Byte) : s.Within 0x9 (s.linSend n i data) := by
  unfold State.linSend
  extract_lets y1 y2
  have h3 : s.Within 0x9 y2 := by
    unfold y2
    exact (State.setWide_within ..).mono (by rfl)
  clear_value y2
  refine State.Within.ite ?_ ?_
  · exact State.Within.trans (by assumption) ((State.setFld_within ..).mono (by rfl))
  · exact (State.bump_within ..).mono (by rfl)

theorem State.linSleep_within (s : State) (n : Nat) : s.Within 0x4010020009 (s.linSleep n) := by
  unfold State.linSleep
  refine State.Within.trans ?_ ((State.raise_within ..).mono (by rfl))
  refine State.Within.trans ?_ ((State.setLinLst_within ..).mono (by rfl))
  exact (State.mapLin_within ..).mono (by rfl)

theorem State.linAwake_within (s : State) (n : Nat) : s.Within 0x10000001 (s.linAwake n) := by
  unfold State.linAwake
  refine State.Within.trans ?_ ((State.mapLin_within ..).mono (by rfl))
  exact (State.setLinLst_within ..).mono (by rfl)

theorem State.linHeader_within (s : State) (n i : Nat) (own : Bool) : s.Within 0x4010000000 (s.linHeader n i own) := by
  unfold State.linHeader
  extract_lets y1
  refine State.Within.ite ?_ ?_
  · refine State.Within.trans ?_ ((State.emit_within ..).mono (by rfl))
    exact (State.mapLin_within ..).mono (by rfl)
  · refine State.Within.ite ?_ ?_
    · exact (State.mapLin_within ..).mono (by rfl)
    · exact (State.mapLin_within ..).mono (by rfl)

theorem State.linSlot_within (s : State) (n : Nat) : s.Within 0x4010020009 (s.linSlot n) := by
  unfold State.linSlot
  extract_lets y1 y2 y3 y4 y5 y6 y7 y8
  have h9 : s.Within 0x4010020009 y4 := by
    unfold y4
    refine State.Within.trans ?_ ((State.emit_within ..).mono (by rfl))
    exact (State.emit_within ..).mono (by rfl)
  clear_value y4
  have h10 : s.Within 0x4010020009 y8 := by
    unfold y8
    refine State.Within.trans ?_ ((State.mapLin_within ..).mono (by rfl))
    exact (State.setFld_within ..).mono (by rfl)
  clear_value y8
  refine State.Within.ite ?_ ?_
  · refine State.Within.ite ?_ ?_
    · refine State.Within.trans ?_ ((State.linSleep_within ..).mono (by rfl))
      exact State.Within.trans (by assumption) ((State.bump_within ..).mono (by rfl))
    · refine State.Within.ite ?_ ?_
      · exact State.Within.refl _
      · refine State.Within.ite ?_ ?_
        · exact State.Within.trans (by assumption) ((State.bump_within ..).mono (by rfl))
        · refine State.Within.trans ?_ ((State.linHeader_within ..).mono (by rfl))
          exact State.Within.trans (by assumption) ((State.emit_within ..).mono (by rfl))
  · exact State.Within.refl _

theorem State.linFraming_within (s : State) (n : Nat) : s.Within 0x4000020009 (s.linFraming n) := by
  unfold State.linFraming
  refine State.Within.trans ?_ ((State.raise_within ..).mono (by rfl))
  exact (State.bump_within ..).mono (by rfl)

theorem State.linHeaderIn_within (s : State) (n i rate : Nat) (parity : Bool) : s.Within 0x4010020009 (s.linHeaderIn n i rate parity) := by
  unfold State.linHeaderIn
  extract_lets y1
  refine State.Within.ite ?_ ?_
  · refine State.Within.ite ?_ ?_
    · exact (State.linFraming_within ..).mono (by rfl)
    · exact (State.linHeader_within ..).mono (by rfl)
  · exact State.Within.refl _

theorem State.linResponse_within (s : State) (n : Nat) (data : List Byte) (check : Byte) (err ago : Nat) :
    s.Within 0x6010030009 (s.linResponse n data check err ago) := by
  unfold State.linResponse
  extract_lets y1 y2
  have h3 : s.Within 0x6010030009 y2 := by
    unfold y2
    exact (State.mapLin_within ..).mono (by rfl)
  clear_value y2
  split
  · exact State.Within.refl _
  · refine State.Within.ite ?_ ?_
    · exact State.Within.trans (by assumption) ((State.linFraming_within ..).mono (by rfl))
    · refine State.Within.ite ?_ ?_
      · refine State.Within.ite ?_ ?_
        · exact State.Within.trans (by assumption) ((State.bump_within ..).mono (by rfl))
        · exact State.Within.trans (by assumption) ((State.bump_within ..).mono (by rfl))
      · refine State.Within.ite ?_ ?_
        · refine State.Within.trans ?_ ((State.raise_within ..).mono (by rfl))
          exact State.Within.trans (by assumption) ((State.bump_within ..).mono (by rfl))
        · refine State.Within.ite ?_ ?_
          · extract_lets y4
            split
            · rename_i x5 e6
              have h7 : s.Within 0x6010030009 x5 := State.Within.of_pair2 e6 (by exact State.Within.trans (by assumption) ((State.gwPresent_within
                ..).mono (by rfl)))
              assumption
            · rename_i x8 e9
              have h10 : s.Within 0x6010030009 x8 := State.Within.of_pair2 e9 (by exact State.Within.trans (by assumption) ((State.gwPresent_within
                ..).mono (by rfl)))
              extract_lets y11
              have h12 : s.Within 0x6010030009 y11 := by
                unfold y11
                exact State.Within.trans (by assumption) ((State.mapLin_within ..).mono (by rfl))
              clear_value y11
              refine State.Within.ite ?_ ?_
              · exact State.Within.trans (by assumption) ((State.bump_within ..).mono (by rfl))
              · assumption
          · assumption

theorem State.linSilent_within (s : State) (n : Nat) : s.Within 0x4010020009 (s.linSilent n) := by
  unfold State.linSilent
  split
  · refine State.Within.trans ?_ ((State.raise_within ..).mono (by rfl))
    refine State.Within.trans ?_ ((State.bump_within ..).mono (by rfl))
    exact (State.mapLin_within ..).mono (by rfl)
  · exact State.Within.refl _

theorem State.linSleepReq_within (s : State) (n : Nat) : s.Within 0x10000000 (s.linSleepReq n) := by
  unfold State.linSleepReq
  refine State.Within.ite ?_ ?_
  · exact (State.mapLin_within ..).mono (by rfl)
  · exact State.Within.refl _

theorem State.linWakeReq_within (s : State) (n : Nat) : s.Within 0x4010000001 (s.linWakeReq n) := by
  unfold State.linWakeReq
  refine State.Within.ite ?_ ?_
  · refine State.Within.trans ?_ ((State.linAwake_within ..).mono (by rfl))
    exact (State.emit_within ..).mono (by rfl)
  · exact State.Within.refl _

theorem State.linSleepIn_within (s : State) (n : Nat) : s.Within 0x4010020009 (s.linSleepIn n) := by
  unfold State.linSleepIn
  refine State.Within.ite ?_ ?_
  · exact (State.linSleep_within ..).mono (by rfl)
  · exact State.Within.refl _

theorem State.linDominant_within (s : State) (n : Nat) : s.Within 0x4014020009 (s.linDominant n) := by
  unfold State.linDominant
  refine State.Within.ite ?_ ?_
  · refine State.Within.trans ?_ ((State.wakeOccurs_within ..).mono (by rfl))
    refine State.Within.trans ?_ ((State.raise_within ..).mono (by rfl))
    exact (State.linAwake_within ..).mono (by rfl)
  · exact State.Within.refl _

theorem State.linRestart_within (s : State) (n : Nat) : s.Within 0x10000000 (s.linRestart n) := by
  unfold State.linRestart
  refine State.Within.ite ?_ ?_
  · exact (State.mapLin_within ..).mono (by rfl)
  · exact State.Within.refl _

theorem State.linEnter_within (s : State) (n : Nat) : s.Within 0x1 (s.linEnter n) := by
  unfold State.linEnter
  refine State.Within.ite ?_ ?_
  · exact (State.setLinLst_within ..).mono (by rfl)
  · exact State.Within.refl _

theorem State.linStop_within (s : State) (n : Nat) : s.Within 0x10000001 (s.linStop n) := by
  unfold State.linStop
  refine State.Within.trans ?_ ((State.setLinLst_within ..).mono (by rfl))
  exact (State.mapLin_within ..).mono (by rfl)

theorem State.busMessage_within (s : State) (l : List Byte) (m : Nat) : s.Within 0x4008820009 (s.busMessage l m) := by
  unfold State.busMessage
  extract_lets y1 y2 y3 y4 y5 y6 y7 y8 y9 y10
  refine State.Within.ite ?_ ?_
  · refine State.Within.ite ?_ ?_
    · exact (State.bump_within ..).mono (by rfl)
    · refine State.Within.each ?_ (fun u a => ?_)
      · exact State.Within.refl _
      · exact (State.linSend_within ..).mono (by rfl)
  · refine State.Within.ite ?_ ?_
    · split
      refine State.Within.ite ?_ ?_
      · exact (State.bump_within ..).mono (by rfl)
      · refine State.Within.each ?_ (fun u a => ?_)
        · exact State.Within.refl _
        · exact (State.canSend_within ..).mono (by rfl)
    · exact (State.bump_within ..).mono (by rfl)

theorem State.busEgress_within (s : State) : s.Within 0x4008830009 s.busEgress := by
  unfold State.busEgress
  split
  · exact State.Within.refl _
  · extract_lets y1 y2
    have h3 : s.Within 0x4008830009 y1 := by
      unfold y1
      exact (State.mapDp_within ..).mono (by rfl)
    clear_value y1
    split
    · refine State.Within.trans ?_ ((State.raise_within ..).mono (by rfl))
      exact State.Within.trans (by assumption) ((State.bump_within ..).mono (by rfl))
    · refine State.Within.each ?_ (fun u a => ?_)
      · assumption
      · exact (State.busMessage_within ..).mono (by rfl)

/-! ## Machine/Tdm.lean -/

theorem State.mapTdm_within (s : State) (n : Nat) (f : TdmLink → TdmLink) : s.Within 0x20000000 (s.mapTdm n f) := by
  unfold State.mapTdm
  refine State.Within.set_tdms ?_ (by rfl)
  exact State.Within.refl _

theorem State.setFst_within (s : State) (n v : Nat) : s.Within 0x1 (s.setFst n v) := by
  unfold State.setFst
  exact (State.setFld_within ..).mono (by rfl)

theorem State.showDefect_within (s : State) (n : Nat) (f : Fld) (bit : Nat) (v : Bool) : s.Within 0x4000020009 (s.showDefect n f bit v) := by
  unfold State.showDefect
  refine State.Within.ite ?_ ?_
  · exact State.Within.refl _
  · refine State.Within.trans ?_ ((State.raise_within ..).mono (by rfl))
    exact (State.setFld_within ..).mono (by rfl)

theorem State.showDefects_within (s : State) (n : Nat) : s.Within 0x4020020009 (s.showDefects n) := by
  unfold State.showDefects
  extract_lets y1 y2 y3 y4 y5 y6
  have h7 : s.Within 0x4020020009 y3 := by
    unfold y3
    refine State.Within.ite ?_ ?_
    · exact (State.mapTdm_within ..).mono (by rfl)
    · exact State.Within.refl _
  clear_value y3
  have h8 : s.Within 0x4020020009 y4 := by
    unfold y4
    exact State.Within.trans (by assumption) ((State.showDefect_within ..).mono (by rfl))
  clear_value y4
  have h9 : s.Within 0x4020020009 y5 := by
    unfold y5
    exact State.Within.trans (by assumption) ((State.showDefect_within ..).mono (by rfl))
  clear_value y5
  have h10 : s.Within 0x4020020009 y6 := by
    unfold y6
    exact State.Within.trans (by assumption) ((State.showDefect_within ..).mono (by rfl))
  clear_value y6
  exact State.Within.trans (by assumption) ((State.showDefect_within ..).mono (by rfl))

theorem State.toSearch_within (s : State) (n : Nat) : s.Within 0x20000001 (s.toSearch n) := by
  unfold State.toSearch
  refine State.Within.trans ?_ ((State.mapTdm_within ..).mono (by rfl))
  refine State.Within.trans ?_ ((State.setFld_within ..).mono (by rfl))
  exact (State.setFst_within ..).mono (by rfl)

theorem State.tdmLost_within (s : State) (n : Nat) : s.Within 0x20000009 (s.tdmLost n) := by
  unfold State.tdmLost
  refine State.Within.trans ?_ ((State.bump_within ..).mono (by rfl))
  exact (State.toSearch_within ..).mono (by rfl)

theorem State.tdmInFrame_within (s : State) (n : Nat) : s.Within 0x2020000001 (s.tdmInFrame n) := by
  unfold State.tdmInFrame
  split
  rename_i x1 e2
  have h3 : s.Within 0x2020000001 x1 := State.Within.of_pair e2 (by exact (State.drawBytes_within ..).mono (by rfl))
  split
  rename_i x4 e5
  have h6 : s.Within 0x2020000001 x4 := State.Within.of_pair e5 (by exact State.Within.trans (by assumption) ((State.drawBytes_within ..).mono (by
    rfl)))
  refine State.Within.trans ?_ ((State.mapTdm_within ..).mono (by rfl))
  refine State.Within.trans ?_ ((State.setFld_within ..).mono (by rfl))
  exact State.Within.trans (by assumption) ((State.setFst_within ..).mono (by rfl))

theorem State.smfJudged_within (s : State) (n : Nat) (bad second : Bool) : s.Within 0x20000009 (s.smfJudged n bad second) := by
  unfold State.smfJudged
  extract_lets y1 y2 y3
  have h4 : s.Within 0x20000009 y1 := by
    unfold y1
    refine State.Within.ite ?_ ?_
    · exact (State.bump_within ..).mono (by rfl)
    · exact State.Within.refl _
  clear_value y1
  have h5 : s.Within 0x20000009 y2 := by
    unfold y2
    exact State.Within.trans (by assumption) ((State.mapTdm_within ..).mono (by rfl))
  clear_value y2
  refine State.Within.ite ?_ ?_
  · exact State.Within.trans (by assumption) ((State.tdmLost_within ..).mono (by rfl))
  · refine State.Within.ite ?_ ?_
    · exact State.Within.trans (by assumption) ((State.mapTdm_within ..).mono (by rfl))
    · assumption

theorem State.tdmCrc_within (s : State) (n : Nat) (frame : List Byte) : s.Within 0x20000009 (s.tdmCrc n frame) := by
  unfold State.tdmCrc
  extract_lets y1 y2 y3 y4 y5 y6 y7 y8 y9 y10
  have h11 : s.Within 0x20000009 y8 := by
    unfold y8
    exact (State.mapTdm_within ..).mono (by rfl)
  clear_value y8
  have h12 : s.Within 0x20000009 y9 := by
    unfold y9
    refine State.Within.ite ?_ ?_
    · exact State.Within.trans (by assumption) ((State.bump_within ..).mono (by rfl))
    · assumption
  clear_value y9
  have h13 : s.Within 0x20000009 y10 := by
    unfold y10
    exact State.Within.trans (by assumption) ((State.mapTdm_within ..).mono (by rfl))
  clear_value y10
  refine State.Within.ite ?_ ?_
  · split
    · assumption
    · exact State.Within.trans (by assumption) ((State.smfJudged_within ..).mono (by rfl))
  · assumption

theorem State.tdmFas_within (s : State) (n w : Nat) : s.Within 0x20000009 (s.tdmFas n w) := by
  unfold State.tdmFas
  extract_lets y1 y2 y3
  have h4 : s.Within 0x20000009 y2 := by
    unfold y2
    refine State.Within.ite ?_ ?_
    · refine State.Within.trans ?_ ((State.mapTdm_within ..).mono (by rfl))
      exact (State.bump_within ..).mono (by rfl)
    · exact State.Within.refl _
  clear_value y2
  have h5 : s.Within 0x20000009 y3 := by
    unfold y3
    exact State.Within.trans (by assumption) ((State.mapTdm_within ..).mono (by rfl))
  clear_value y3
  refine State.Within.ite ?_ ?_
  · exact State.Within.trans (by assumption) ((State.tdmLost_within ..).mono (by rfl))
  · assumption

theorem State.tdmRdi_within (s : State) (n : Nat) (a : Bool) : s.Within 0x20000000 (s.tdmRdi n a) := by
  unfold State.tdmRdi
  refine State.Within.ite ?_ ?_
  · extract_lets y1 y2
    refine State.Within.ite ?_ ?_
    · exact (State.mapTdm_within ..).mono (by rfl)
    · exact (State.mapTdm_within ..).mono (by rfl)
  · exact State.Within.refl _

theorem State.tdmNfas_within (s : State) (n w : Nat) : s.Within 0x2020000009 (s.tdmNfas n w) := by
  unfold State.tdmNfas
  extract_lets y1 y2 y3
  have h4 : s.Within 0x2020000009 y2 := by
    unfold y2
    refine State.Within.trans ?_ ((State.tdmRdi_within ..).mono (by rfl))
    exact (State.setFld_within ..).mono (by rfl)
  clear_value y2
  have h5 : s.Within 0x2020000009 y3 := by
    unfold y3
    exact State.Within.trans (by assumption) ((State.mapTdm_within ..).mono (by rfl))
  clear_value y3
  refine State.Within.ite ?_ ?_
  · exact State.Within.trans (by assumption) ((State.tdmLost_within ..).mono (by rfl))
  · refine State.Within.ite ?_ ?_
    · refine State.Within.ite ?_ ?_
      · refine State.Within.trans ?_ ((State.mapTdm_within ..).mono (by rfl))
        refine State.Within.trans ?_ ((State.setFld_within ..).mono (by rfl))
        exact State.Within.trans (by assumption) ((State.tdmInFrame_within ..).mono (by rfl))
      · exact State.Within.trans (by assumption) ((State.mapTdm_within ..).mono (by rfl))
    · assumption

theorem State.tdmAis_within (s : State) (n : Nat) (frame : List Byte) : s.Within 0x20000000 (s.tdmAis n frame) := by
  unfold State.tdmAis
  exact (State.mapTdm_within ..).mono (by rfl)

theorem State.slot0_within (s : State) (n pos scanned : Nat) (frame : List Byte) : s.Within 0x6020020009 (s.slot0 n pos scanned frame) := by
  unfold State.slot0
  extract_lets y1 y2 y3 y4 y5 y6 y7 y8 y9
  have h10 : s.Within 0x6020020009 y3 := by
    unfold y3
    exact (State.tdmAis_within ..).mono (by rfl)
  clear_value y3
  have h11 : s.Within 0x6020020009 y4 := by
    unfold y4
    exact State.Within.trans (by assumption) ((State.mapTdm_within ..).mono (by rfl))
  clear_value y4
  have h12 : s.Within 0x6020020009 y5 := by
    unfold y5
    exact State.Within.trans (by assumption) ((State.mapTdm_within ..).mono (by rfl))
  clear_value y5
  have h13 : s.Within 0x6020020009 y6 := by
    unfold y6
    exact State.Within.trans (by assumption) ((State.mapTdm_within ..).mono (by rfl))
  clear_value y6
  have h14 : s.Within 0x6020020009 y7 := by
    unfold y7
    refine State.Within.ite ?_ ?_
    · exact State.Within.trans (by assumption) ((State.tdmFas_within ..).mono (by rfl))
    · exact State.Within.trans (by assumption) ((State.tdmNfas_within ..).mono (by rfl))
  clear_value y7
  have h15 : s.Within 0x6020020009 y8 := by
    unfold y8
    refine State.Within.ite ?_ ?_
    · exact State.Within.trans (by assumption) ((State.tdmCrc_within ..).mono (by rfl))
    · assumption
  clear_value y8
  have h16 : s.Within 0x6020020009 y9 := by
    unfold y9
    refine State.Within.ite ?_ ?_
    · assumption
    · split
      · refine State.Within.ite ?_ ?_
        · refine State.Within.trans ?_ ((State.setFld_within ..).mono (by rfl))
          exact State.Within.trans (by assumption) ((State.setFst_within ..).mono (by rfl))
        · assumption
      · refine State.Within.ite ?_ ?_
        · exact State.Within.trans (by assumption) ((State.setFst_within ..).mono (by rfl))
        · exact State.Within.trans (by assumption) ((State.toSearch_within ..).mono (by rfl))
      · refine State.Within.ite ?_ ?_
        · refine State.Within.ite ?_ ?_
          · exact State.Within.trans (by assumption) ((State.setFst_within ..).mono (by rfl))
          · exact State.Within.trans (by assumption) ((State.tdmInFrame_within ..).mono (by rfl))
        · exact State.Within.trans (by assumption) ((State.toSearch_within ..).mono (by rfl))
      · refine State.Within.ite ?_ ?_
        · exact State.Within.trans (by assumption) ((State.mapTdm_within ..).mono (by rfl))
        · assumption
  clear_value y9
  exact State.Within.trans (by assumption) ((State.showDefects_within ..).mono (by rfl))

theorem State.mfTimeout_within (s : State) (n : Nat) : s.Within 0x4020020009 (s.mfTimeout n) := by
  unfold State.mfTimeout
  refine State.Within.ite ?_ ?_
  · extract_lets y1 y2
    have h3 : s.Within 0x4020020009 y2 := by
      unfold y2
      refine State.Within.trans ?_ ((State.mapTdm_within ..).mono (by rfl))
      exact (State.toSearch_within ..).mono (by rfl)
    clear_value y2
    refine State.Within.trans ?_ ((State.showDefects_within ..).mono (by rfl))
    refine State.Within.trans ?_ ((State.raise_within ..).mono (by rfl))
    exact State.Within.trans (by assumption) ((State.bump_within ..).mono (by rfl))
  · exact State.Within.refl _

theorem State.losRise_within (s : State) (n : Nat) (pin : Bool) (zeros : Nat) : s.Within 0x4020020009 (s.losRise n pin zeros) := by
  unfold State.losRise
  refine State.Within.ite ?_ ?_
  · refine State.Within.trans ?_ ((State.showDefects_within ..).mono (by rfl))
    refine State.Within.trans ?_ ((State.toSearch_within ..).mono (by rfl))
    exact (State.mapTdm_within ..).mono (by rfl)
  · exact State.Within.refl _

theorem State.losClear_within (s : State) (n : Nat) (pin : Bool) (ones : Nat) : s.Within 0x4020020009 (s.losClear n pin ones) := by
  unfold State.losClear
  refine State.Within.ite ?_ ?_
  · refine State.Within.trans ?_ ((State.showDefects_within ..).mono (by rfl))
    exact (State.mapTdm_within ..).mono (by rfl)
  · exact State.Within.refl _

theorem State.crc4Changed_within (s : State) (n : Nat) : s.Within 0x4020020009 (s.crc4Changed n) := by
  unfold State.crc4Changed
  refine State.Within.trans ?_ ((State.showDefects_within ..).mono (by rfl))
  refine State.Within.trans ?_ ((State.mapTdm_within ..).mono (by rfl))
  exact (State.toSearch_within ..).mono (by rfl)

theorem State.tdmStop_within (s : State) (n : Nat) : s.Within 0x4020020009 (s.tdmStop n) := by
  unfold State.tdmStop
  refine State.Within.trans ?_ ((State.showDefects_within ..).mono (by rfl))
  exact (State.toSearch_within ..).mono (by rfl)

theorem State.addSecond_within (s : State) (n : Nat) : s.Within 0x4020020009 (s.addSecond n) := by
  unfold State.addSecond
  extract_lets y1 y2 y3 y4 y5
  split
  · exact State.Within.refl _
  · refine State.Within.ite ?_ ?_
    · exact State.Within.refl _
    · extract_lets y6 y7 y8 y9
      have h10 : s.Within 0x4020020009 y6 := by
        unfold y6
        exact (State.mapTdm_within ..).mono (by rfl)
      clear_value y6
      have h11 : s.Within 0x4020020009 y7 := by
        unfold y7
        refine State.Within.ite ?_ ?_
        · assumption
        · refine State.Within.trans ?_ ((State.raise_within ..).mono (by rfl))
          exact State.Within.trans (by assumption) ((State.setFld_within ..).mono (by rfl))
      clear_value y7
      have h12 : s.Within 0x4020020009 y8 := by
        unfold y8
        refine State.Within.ite ?_ ?_
        · exact State.Within.trans (by assumption) ((State.bump_within ..).mono (by rfl))
        · assumption
      clear_value y8
      have h13 : s.Within 0x4020020009 y9 := by
        unfold y9
        refine State.Within.ite ?_ ?_
        · exact State.Within.trans (by assumption) ((State.bump_within ..).mono (by rfl))
        · assumption
      clear_value y9
      refine State.Within.ite ?_ ?_
      · exact State.Within.trans (by assumption) ((State.bump_within ..).mono (by rfl))
      · refine State.Within.ite ?_ ?_
        · assumption
        · exact State.Within.trans (by assumption) ((State.bump_within ..).mono (by rfl))

theorem State.tdmSecond_within (s : State) (n : Nat) : s.Within 0x4020020009 (s.tdmSecond n) := by
  unfold State.tdmSecond
  refine State.Within.ite ?_ ?_
  · extract_lets y1 y2 y3 y4
    have h5 : s.Within 0x4020020009 y4 := by
      unfold y4
      exact (State.mapTdm_within ..).mono (by rfl)
    clear_value y4
    refine State.Within.trans ?_ ((State.showDefects_within ..).mono (by rfl))
    exact State.Within.trans (by assumption) ((State.addSecond_within ..).mono (by rfl))
  · exact State.Within.refl _

theorem State.slipRead_within (s : State) (n : Nat) : s.Within 0x2020000000 (s.slipRead n) := by
  unfold State.slipRead
  split
  · exact (State.mapTdm_within ..).mono (by rfl)
  · split
    rename_i x1 e2
    have h3 : s.Within 0x2020000000 x1 := State.Within.of_pair e2 (by exact (State.drawBytes_within ..).mono (by rfl))
    exact State.Within.trans (by assumption) ((State.mapTdm_within ..).mono (by rfl))

theorem State.slipFrame_within (s : State) (n bits : Nat) : s.Within 0x6020020009 (s.slipFrame n bits) := by
  unfold State.slipFrame
  extract_lets y1 y2 y3
  have h4 : s.Within 0x6020020009 y3 := by
    unfold y3
    refine State.Within.trans ?_ ((State.raise_within ..).mono (by rfl))
    refine State.Within.trans ?_ ((State.bump_within ..).mono (by rfl))
    exact (State.setFld_within ..).mono (by rfl)
  clear_value y3
  refine State.Within.ite ?_ ?_
  · refine State.Within.ite ?_ ?_
    · refine State.Within.trans ?_ ((State.raise_within ..).mono (by rfl))
      refine State.Within.trans ?_ ((State.bump_within ..).mono (by rfl))
      exact (State.setFld_within ..).mono (by rfl)
    · refine State.Within.ite ?_ ?_
      · refine State.Within.trans ?_ ((State.slipRead_within ..).mono (by rfl))
        exact State.Within.trans (by assumption) ((State.mapTdm_within ..).mono (by rfl))
      · refine State.Within.trans ?_ ((State.slipRead_within ..).mono (by rfl))
        exact (State.setFld_within ..).mono (by rfl)
  · exact State.Within.refl _

theorem State.mapTsi_within (s : State) (f : TsiState → TsiState) : s.Within 0x40000000 (s.mapTsi f) := by
  unfold State.mapTsi
  refine State.Within.set_tsi ?_ (by rfl)
  exact State.Within.refl _

theorem State.mapTxs_within (s : State) (i : Nat) (f : TxStream → TxStream) : s.Within 0x40000000 (s.mapTxs i f) := by
  unfold State.mapTxs
  exact (State.mapTsi_within ..).mono (by rfl)

theorem State.mapRxs_within (s : State) (i : Nat) (f : RxStream → RxStream) : s.Within 0x40000000 (s.mapRxs i f) := by
  unfold State.mapRxs
  exact (State.mapTsi_within ..).mono (by rfl)

theorem State.aafPresent_within (s : State) (i : Nat) : s.Within 0x6040030009 (s.aafPresent i) := by
  unfold State.aafPresent
  split
  · exact State.Within.refl _
  · refine State.Within.ite ?_ ?_
    · exact State.Within.refl _
    · extract_lets y1 y2 y3
      have h4 : s.Within 0x6040030009 y2 := by
        unfold y2
        exact (State.mapTxs_within ..).mono (by rfl)
      clear_value y2
      refine State.Within.ite ?_ ?_
      · dsimp only [y3]
        refine State.Within.trans ?_ ((State.bump_within ..).mono (by rfl))
        exact State.Within.trans (by assumption) ((State.bumpTab_within ..).mono (by rfl))
      · refine State.Within.ite ?_ ?_
        · dsimp only [y3]
          refine State.Within.trans ?_ ((State.bump_within ..).mono (by rfl))
          refine State.Within.trans ?_ ((State.bumpTab_within ..).mono (by rfl))
          exact State.Within.trans (by assumption) ((State.inject_within ..).mono (by rfl))
        · refine State.Within.trans ?_ ((State.bumpTab_within ..).mono (by rfl))
          exact State.Within.trans (by assumption) ((State.inject_within ..).mono (by rfl))

theorem State.tdmBegin_within (s : State) : s.Within 0x6040030009 s.tdmBegin := by
  unfold State.tdmBegin
  extract_lets y1 y2
  have h3 : s.Within 0x6040030009 y1 := by
    unfold y1
    refine State.Within.each ?_ (fun u a => ?_)
    · exact State.Within.refl _
    · exact (State.aafPresent_within ..).mono (by rfl)
  clear_value y1
  have h4 : s.Within 0x6040030009 y2 := by
    unfold y2
    exact State.Within.trans (by assumption) ((State.setFld_within ..).mono (by rfl))
  clear_value y2
  exact State.Within.trans (by assumption) ((State.mapTsi_within ..).mono (by rfl))

theorem State.applyFixed_within (s : State) : s.Within 0x40000020 s.applyFixed := by
  unfold State.applyFixed
  extract_lets y1 y2
  refine State.Within.trans ?_ ((State.mapTsi_within ..).mono (by rfl))
  refine State.Within.set_win ?_ (by rfl)
  exact State.Within.refl _

theorem State.rxsRead_within (s : State) (i : Nat) : s.Within 0x4040020009 (s.rxsRead i) := by
  unfold State.rxsRead
  refine State.Within.ite ?_ ?_
  · extract_lets y1 y2 y3 y4 y5 y6
    have h7 : s.Within 0x4040020009 y5 := by
      unfold y5
      exact (State.mapRxs_within ..).mono (by rfl)
    clear_value y5
    have h8 : s.Within 0x4040020009 y6 := by
      unfold y6
      exact State.Within.trans (by assumption) ((State.bumpTab_within ..).mono (by rfl))
    clear_value y6
    refine State.Within.ite ?_ ?_
    · assumption
    · refine State.Within.ite ?_ ?_
      · exact State.Within.trans (by assumption) ((State.raise_within ..).mono (by rfl))
      · assumption
  · exact State.Within.refl _

theorem State.connErrors_within (s : State) (bad : List Nat) : s.Within 0x4000820009 (s.connErrors bad) := by
  unfold State.connErrors
  refine State.Within.each ?_ (fun u a => ?_)
  · exact State.Within.refl _
  · refine State.Within.ite ?_ ?_
    · exact (State.logErr_within ..).mono (by rfl)
    · refine State.Within.ite ?_ ?_
      · exact (State.logErr_within ..).mono (by rfl)
      · exact State.Within.refl _

theorem State.streamError_within (s : State) (k : Nat) : s.Within 0x4000820009 (s.streamError k) := by
  unfold State.streamError
  extract_lets y1
  exact (State.logErr_within ..).mono (by rfl)

theorem State.txLink_within (s : State) (n : Nat) (octets : List Byte) : s.Within 0x20000000 (s.txLink n octets).2 := by
  unfold State.txLink
  extract_lets y1 y2 y3 y4 y5 y6
  refine State.Within.itp ?_ ?_
  · dsimp only
    exact State.Within.refl _
  · dsimp only
    exact (State.mapTdm_within ..).mono (by rfl)

theorem State.txsStart_within (s : State) (i : Nat) : s.Within 0x40000000 (s.txsStart i) := by
  unfold State.txsStart
  refine State.Within.ite ?_ ?_
  · exact (State.mapTxs_within ..).mono (by rfl)
  · exact State.Within.refl _

theorem State.txsFrame_within (s : State) (octets : Nat → Byte) (i : Nat) : s.Within 0x40000000 (s.txsFrame octets i) := by
  unfold State.txsFrame
  split
  · exact State.Within.refl _
  · extract_lets y1
    exact (State.mapTxs_within ..).mono (by rfl)

theorem State.tdmStart_within (s : State) (bits : List Nat) : s.Within 0x6060020009 (s.tdmStart bits) := by
  unfold State.tdmStart
  extract_lets y1
  have h2 : s.Within 0x6060020009 y1 := by
    unfold y1
    refine State.Within.each ?_ (fun u a => ?_)
    · exact State.Within.refl _
    · refine State.Within.trans ?_ ((State.mapTdm_within ..).mono (by rfl))
      exact (State.slipFrame_within ..).mono (by rfl)
  clear_value y1
  refine State.Within.each ?_ (fun u a => ?_)
  · assumption
  · exact (State.txsStart_within ..).mono (by rfl)

theorem State.tdmRun_within (s : State) (badConn badStream : List Nat) : s.Within 0x4060820009 (s.tdmRun badConn badStream) := by
  unfold State.tdmRun
  extract_lets y1 y2 y3 y4 y5 y6 y7
  have h8 : s.Within 0x4060820009 y5 := by
    unfold y5
    refine State.Within.each ?_ (fun u a => ?_)
    · exact (State.connErrors_within ..).mono (by rfl)
    · exact (State.streamError_within ..).mono (by rfl)
  clear_value y5
  have h9 : s.Within 0x4060820009 y6 := by
    unfold y6
    refine State.Within.ite ?_ ?_
    · refine State.Within.each ?_ (fun u a => ?_)
      · assumption
      · exact (State.rxsRead_within ..).mono (by rfl)
    · assumption
  clear_value y6
  split
  rename_i x10 e11
  have h12 : s.Within 0x4060820009 x10 := State.Within.of_pair e11 (by
    refine State.Within.foldp ?_ (fun u a => ?_)
    · dsimp only
      assumption
    · split
      rename_i x13 e14
      have h15 : u.snd.Within 0x4060820009 x13 := State.Within.of_pair e14 (by exact (State.txLink_within ..).mono (by rfl))
      dsimp only
      assumption)
  refine State.Within.each ?_ (fun u a => ?_)
  · exact State.Within.trans (by assumption) ((State.emit_within ..).mono (by rfl))
  · exact (State.txsFrame_within ..).mono (by rfl)

theorem State.tdmEgress_within (s : State) : s.Within 0x4040030009 s.tdmEgress := by
  unfold State.tdmEgress
  split
  · exact State.Within.refl _
  · extract_lets y1 y2 y3 y4 y5
    have h6 : s.Within 0x4040030009 y1 := by
      unfold y1
      exact (State.mapDp_within ..).mono (by rfl)
    try clear_value y1
    refine State.Within.ite ?_ ?_
    · exact State.Within.trans (by assumption) ((State.bump_within ..).mono (by rfl))
    · split
      · exact State.Within.trans (by assumption) ((State.bump_within ..).mono (by rfl))
      · refine State.Within.ite ?_ ?_
        · exact State.Within.trans (by assumption) ((State.bump_within ..).mono (by rfl))
        · extract_lets y7 y8 y9 y10 y11 y12 y13 y14 y15 y16
          have h17 : s.Within 0x4040030009 y10 := by
            unfold y10
            refine State.Within.ite ?_ ?_
            · exact State.Within.trans (by assumption) ((State.bumpTab_within ..).mono (by rfl))
            · assumption
          try clear_value y10
          have h18 : s.Within 0x4040030009 y11 := by
            unfold y11
            refine State.Within.trans ?_ ((State.bumpTab_within ..).mono (by rfl))
            exact State.Within.trans (by assumption) ((State.mapRxs_within ..).mono (by rfl))
          try clear_value y11
          refine State.Within.ite ?_ ?_
          · refine State.Within.trans ?_ ((State.raise_within ..).mono (by rfl))
            exact State.Within.trans (by assumption) ((State.bumpTab_within ..).mono (by rfl))
          · refine State.Within.ite ?_ ?_
            · refine State.Within.trans ?_ ((State.raise_within ..).mono (by rfl))
              exact State.Within.trans (by assumption) ((State.bumpTab_within ..).mono (by rfl))
            · refine State.Within.ite ?_ ?_
              · exact State.Within.trans (by assumption) ((State.bumpTab_within ..).mono (by rfl))
              · exact State.Within.trans (by assumption) ((State.mapRxs_within ..).mono (by rfl))

theorem State.connWrite_within (s : State) (src : Src) (addr : Nat) (l : List Byte) : s.Within 0x4040820029 (s.connWrite src addr l) := by
  unfold State.connWrite
  extract_lets y1 y2 y3
  refine State.Within.ite ?_ ?_
  · exact (State.mapTsi_within ..).mono (by rfl)
  · refine State.Within.ite ?_ ?_
    · exact (State.logErr_within ..).mono (by rfl)
    · refine State.Within.ite ?_ ?_
      · exact (State.logErr_within ..).mono (by rfl)
      · refine State.Within.trans ?_ ((State.setPending_within ..).mono (by rfl))
        refine State.Within.trans ?_ ((State.setFld_within ..).mono (by rfl))
        refine State.Within.set_win ?_ (by rfl)
        exact State.Within.refl _

theorem State.tsiDrop_within (s : State) : s.Within 0x40000000 s.tsiDrop := by
  unfold State.tsiDrop
  refine State.Within.each ?_ (fun u a => ?_)
  · exact State.Within.refl _
  · exact (State.mapTxs_within ..).mono (by rfl)

theorem State.connSwap_within (s : State) : s.Within 0x9 s.connSwap := by
  unfold State.connSwap
  refine State.Within.ite ?_ ?_
  · refine State.Within.trans ?_ ((State.bump_within ..).mono (by rfl))
    refine State.Within.trans ?_ ((State.setFld_within ..).mono (by rfl))
    exact (State.setFld_within ..).mono (by rfl)
  · exact State.Within.refl _

/-! ## Machine/Balls.lean -/

theorem State.showBalls_within (s : State) (l : List Ball) : s.Within 0x4000000000 (s.showBalls l) := by
  unfold State.showBalls
  refine State.Within.ite ?_ ?_
  · exact State.Within.refl _
  · exact (State.emit_within ..).mono (by rfl)

/-! ## Machine/Cipher.lean -/

theorem State.mapCip_within (s : State) (n : Nat) (f : CipPage → CipPage) : s.Within 0x80000000 (s.mapCip n f) := by
  unfold State.mapCip
  refine State.Within.set_cips ?_ (by rfl)
  exact State.Within.refl _

theorem State.setSlot_within (s : State) (i : Nat) (k : Slot) : s.Within 0x400000000 (s.setSlot i k) := by
  unfold State.setSlot
  refine State.Within.set_slots ?_ (by rfl)
  exact State.Within.refl _

theorem State.jobGo_within (s : State) (src : Src) (n : Nat) : s.Within 0x4080820009 (s.jobGo src n) := by
  unfold State.jobGo
  extract_lets y1 y2
  refine State.Within.ite ?_ ?_
  · exact State.Within.refl _
  · refine State.Within.ite ?_ ?_
    · exact (State.refuse_within ..).mono (by rfl)
    · exact (State.mapCip_within ..).mono (by rfl)

theorem State.cipComplete_within (s : State) (n : Nat) (j : CipJob) (result : Nat) (zeroBad : Bool) (iv : List Byte) :
    s.Within 0x4080020009 (s.cipComplete n j result zeroBad iv) := by
  unfold State.cipComplete
  extract_lets y1 y2 y3 y4 y5 y6 y7
  have h8 : s.Within 0x4080020009 y2 := by
    unfold y2
    exact (State.mapCip_within ..).mono (by rfl)
  clear_value y2
  have h9 : s.Within 0x4080020009 y3 := by
    unfold y3
    exact State.Within.trans (by assumption) ((State.bump_within ..).mono (by rfl))
  clear_value y3
  have h10 : s.Within 0x4080020009 y4 := by
    unfold y4
    refine State.Within.ite ?_ ?_
    · exact State.Within.trans (by assumption) ((State.bump_within ..).mono (by rfl))
    · assumption
  clear_value y4
  have h11 : s.Within 0x4080020009 y5 := by
    unfold y5
    refine State.Within.ite ?_ ?_
    · refine State.Within.trans ?_ ((State.raise_within ..).mono (by rfl))
      exact State.Within.trans (by assumption) ((State.bump_within ..).mono (by rfl))
    · assumption
  clear_value y5
  have h12 : s.Within 0x4080020009 y6 := by
    unfold y6
    refine State.Within.ite ?_ ?_
    · exact State.Within.trans (by assumption) ((State.bump_within ..).mono (by rfl))
    · assumption
  clear_value y6
  have h13 : s.Within 0x4080020009 y7 := by
    unfold y7
    refine State.Within.ite ?_ ?_
    · refine State.Within.trans ?_ ((State.raise_within ..).mono (by rfl))
      exact State.Within.trans (by assumption) ((State.bump_within ..).mono (by rfl))
    · assumption
  clear_value y7
  refine State.Within.ite ?_ ?_
  · exact State.Within.trans (by assumption) ((State.raise_within ..).mono (by rfl))
  · assumption

theorem State.cipPut_within (s : State) (j : CipJob) (l : List Byte) : s.Within 0x40020008c0 (s.cipPut j l) := by
  unfold State.cipPut
  refine State.Within.ite ?_ ?_
  · exact State.Within.refl _
  · exact (State.spacePut_within ..).mono (by rfl)

theorem State.cipZero_within (s : State) (n : Nat) (j : CipJob) (fails : Bool) : s.Within 0x40028208c9 (s.cipZero n j fails) := by
  unfold State.cipZero
  refine State.Within.ite ?_ ?_
  · exact (State.logErr_within ..).mono (by rfl)
  · exact (State.cipPut_within ..).mono (by rfl)

theorem State.cipStart_within (s : State) (n : Nat) (j : CipJob) : s.Within 0x4400820009 (s.cipStart n j).2 := by
  unfold State.cipStart
  refine State.Within.itp ?_ ?_
  · dsimp only
    exact State.Within.refl _
  · split
    · dsimp only
      exact State.Within.refl _
    · extract_lets y1 y2
      refine State.Within.itp ?_ ?_
      · dsimp only
        exact (State.logErr_within ..).mono (by rfl)
      · refine State.Within.itp ?_ ?_
        · dsimp only
          exact State.Within.refl _
        · dsimp only
          exact (State.setSlot_within ..).mono (by rfl)

theorem State.cipRun_within (s : State) (n : Nat) (bad : Option (Nat × Nat)) (zeroFails : Bool) (corr : Nat × Nat) :
    s.Within 0x44828208c9 (s.cipRun n bad zeroFails corr) := by
  unfold State.cipRun
  extract_lets y1
  split
  · exact State.Within.refl _
  · refine State.Within.ite ?_ ?_
    · exact State.Within.refl _
    · split
      rename_i x2 e3
      have h4 : s.Within 0x44828208c9 x2 := State.Within.of_pair e3 (by
        refine State.Within.trans ?_ ((State.cipStart_within ..).mono (by rfl))
        exact (State.eccSeen_within ..).mono (by rfl))
      split
      · exact State.Within.trans (by assumption) ((State.cipComplete_within ..).mono (by rfl))
      · extract_lets y5 y6 y7
        split
        clear_value y7
        clear_value y6
        clear_value y5
        clear_value y1
        split
        · extract_lets y8
          have h9 : s.Within 0x44828208c9 y8 := by
            unfold y8
            exact State.Within.trans (by assumption) ((State.logErr_within ..).mono (by rfl))
          clear_value y8
          refine State.Within.ite ?_ ?_
          · refine State.Within.trans ?_ ((State.cipComplete_within ..).mono (by rfl))
            exact State.Within.trans (by assumption) ((State.cipZero_within ..).mono (by rfl))
          · refine State.Within.trans ?_ ((State.cipComplete_within ..).mono (by rfl))
            exact State.Within.trans (by assumption) ((State.cipPut_within ..).mono (by rfl))
        · refine State.Within.ite ?_ ?_
          · refine State.Within.trans ?_ ((State.cipComplete_within ..).mono (by rfl))
            exact State.Within.trans (by assumption) ((State.cipPut_within ..).mono (by rfl))
          · refine State.Within.ite ?_ ?_
            · refine State.Within.trans ?_ ((State.cipComplete_within ..).mono (by rfl))
              exact State.Within.trans (by assumption) ((State.cipZero_within ..).mono (by rfl))
            · exact State.Within.trans (by assumption) ((State.cipComplete_within ..).mono (by rfl))

theorem State.donePop_within (s : State) (n : Nat) : s.Within 0x80000000 (s.donePop n) := by
  unfold State.donePop
  exact (State.mapCip_within ..).mono (by rfl)

theorem State.cipDrop_within (s : State) (n : Nat) : s.Within 0x80000000 (s.cipDrop n) := by
  unfold State.cipDrop
  exact (State.mapCip_within ..).mono (by rfl)

theorem State.cipStop_within (s : State) (n : Nat) (j : CipJob) : s.Within 0x40028208c9 (s.cipStop n j).2 := by
  unfold State.cipStop
  refine State.Within.itp ?_ ?_
  · extract_lets y1
    dsimp only
    exact (State.cipZero_within ..).mono (by rfl)
  · dsimp only
    exact State.Within.refl _

theorem State.cipAbort_within (s : State) (n : Nat) : s.Within 0x44828208c9 (s.cipAbort n).2 := by
  unfold State.cipAbort
  split
  · dsimp only
    exact State.Within.refl _
  · refine State.Within.itp ?_ ?_
    · dsimp only
      exact (State.cipDrop_within ..).mono (by rfl)
    · split
      · rename_i x1 e2
        have h3 : s.Within 0x44828208c9 x1 := State.Within.of_pair e2 (by exact (State.cipStart_within ..).mono (by rfl))
        dsimp only
        refine State.Within.trans ?_ ((State.cipDrop_within ..).mono (by rfl))
        exact State.Within.trans (by assumption) ((State.cipComplete_within ..).mono (by rfl))
      · rename_i x4 e5
        have h6 : s.Within 0x44828208c9 x4 := State.Within.of_pair e5 (by exact (State.cipStart_within ..).mono (by rfl))
        split
        rename_i x7 e8
        have h9 : s.Within 0x44828208c9 x7 := State.Within.of_pair e8 (by exact State.Within.trans (by assumption) ((State.cipStop_within ..).mono
          (by rfl)))
        dsimp only
        refine State.Within.trans ?_ ((State.cipDrop_within ..).mono (by rfl))
        exact State.Within.trans (by assumption) ((State.cipComplete_within ..).mono (by rfl))

theorem State.cipFault_within (s : State) (n : Nat) (lost : Bool) : s.Within 0x64828208c9 (s.cipFault n lost).2 := by
  unfold State.cipFault
  split
  · dsimp only
    exact State.Within.refl _
  · refine State.Within.itp ?_ ?_
    · dsimp only
      exact (State.cipDrop_within ..).mono (by rfl)
    · split
      · rename_i x1 e2
        have h3 : s.Within 0x64828208c9 x1 := State.Within.of_pair e2 (by exact (State.cipStart_within ..).mono (by rfl))
        refine State.Within.itp ?_ ?_
        · dsimp only
          refine State.Within.trans ?_ ((State.cipDrop_within ..).mono (by rfl))
          exact State.Within.trans (by assumption) ((State.cipComplete_within ..).mono (by rfl))
        · dsimp only
          exact State.Within.trans (by assumption) ((State.cipDrop_within ..).mono (by rfl))
      · rename_i x4 e5
        have h6 : s.Within 0x64828208c9 x4 := State.Within.of_pair e5 (by exact (State.cipStart_within ..).mono (by rfl))
        refine State.Within.itp ?_ ?_
        · split
          rename_i x7 e8
          have h9 : s.Within 0x64828208c9 x7 := State.Within.of_pair e8 (by exact State.Within.trans (by assumption) ((State.draw_within ..).mono (by
            rfl)))
          split
          rename_i x10 e11
          have h12 : s.Within 0x64828208c9 x10 := State.Within.of_pair e11 (by exact State.Within.trans (by assumption) ((State.drawBytes_within
            ..).mono (by rfl)))
          dsimp only
          refine State.Within.trans ?_ ((State.cipDrop_within ..).mono (by rfl))
          refine State.Within.trans ?_ ((State.cipComplete_within ..).mono (by rfl))
          exact State.Within.trans (by assumption) ((State.cipPut_within ..).mono (by rfl))
        · dsimp only
          refine State.Within.trans ?_ ((State.cipDrop_within ..).mono (by rfl))
          exact State.Within.trans (by assumption) ((State.cipStop_within ..).mono (by rfl))

theorem State.unbindSlot_within (s : State) (i : Nat) : s.Within 0x1 (s.unbindSlot i) := by
  unfold State.unbindSlot
  refine State.Within.each ?_ (fun u a => ?_)
  · exact State.Within.refl _
  · refine State.Within.ite ?_ ?_
    · exact (State.setWord_within ..).mono (by rfl)
    · exact State.Within.refl _

theorem State.loadSlot_within (s : State) (i : Nat) (k : Slot) : s.Within 0x2400000001 (s.loadSlot i k) := by
  unfold State.loadSlot
  split
  rename_i x1 e2
  have h3 : s.Within 0x2400000001 x1 := State.Within.of_pair e2 (by
    refine State.Within.trans ?_ ((State.drawBytes_within ..).mono (by rfl))
    exact (State.unbindSlot_within ..).mono (by rfl))
  extract_lets y4
  have h5 : s.Within 0x2400000001 y4 := by
    unfold y4
    exact State.Within.trans (by assumption) ((State.setSlot_within ..).mono (by rfl))
  clear_value y4
  refine State.Within.ite ?_ ?_
  · refine State.Within.trans ?_ ((State.setFld_within ..).mono (by rfl))
    refine State.Within.trans ?_ ((State.setFld_within ..).mono (by rfl))
    exact State.Within.trans (by assumption) ((State.setFld_within ..).mono (by rfl))
  · assumption

theorem State.zeroSlot_within (s : State) (i : Nat) : s.Within 0x400000001 (s.zeroSlot i) := by
  unfold State.zeroSlot
  refine State.Within.trans ?_ ((State.setSlot_within ..).mono (by rfl))
  exact (State.unbindSlot_within ..).mono (by rfl)

theorem State.zeroSlots_within (s : State) : s.Within 0x400000001 s.zeroSlots := by
  unfold State.zeroSlots
  refine State.Within.each ?_ (fun u a => ?_)
  · exact State.Within.refl _
  · exact (State.zeroSlot_within ..).mono (by rfl)

theorem State.clearKeyWords_within (s : State) : s.Within 0x1 s.clearKeyWords := by
  unfold State.clearKeyWords
  extract_lets y1
  have h2 : s.Within 0x1 y1 := by
    unfold y1
    refine State.Within.each ?_ (fun u a => ?_)
    · exact State.Within.refl _
    · exact (State.setWord_within ..).mono (by rfl)
  clear_value y1
  refine State.Within.each ?_ (fun u a => ?_)
  · assumption
  · exact (State.setWord_within ..).mono (by rfl)

theorem State.keyLoad_within (s : State) : s.Within 0x2400000001 s.keyLoad := by
  unfold State.keyLoad
  extract_lets y1 y2 y3
  refine State.Within.trans ?_ ((State.clearKeyWords_within ..).mono (by rfl))
  exact (State.loadSlot_within ..).mono (by rfl)

theorem State.keyZero_within (s : State) : s.Within 0x400000001 s.keyZero := by
  unfold State.keyZero
  refine State.Within.trans ?_ ((State.clearKeyWords_within ..).mono (by rfl))
  exact (State.zeroSlot_within ..).mono (by rfl)

theorem State.remask_within (s : State) : s.Within 0x2400000000 s.remask := by
  unfold State.remask
  refine State.Within.ite ?_ ?_
  · refine State.Within.each ?_ (fun u a => ?_)
    · exact State.Within.refl _
    · split
      rename_i x1 e2
      have h3 : u.Within 0x2400000000 x1 := State.Within.of_pair e2 (by exact (State.drawBytes_within ..).mono (by rfl))
      extract_lets y4
      exact State.Within.trans (by assumption) ((State.setSlot_within ..).mono (by rfl))
  · exact State.Within.refl _

/-! ## Machine/Security.lean -/

theorem State.mapSec_within (s : State) (f : Sec → Sec) : s.Within 0x100000000 (s.mapSec f) := by
  unfold State.mapSec
  refine State.Within.set_sec ?_ (by rfl)
  exact State.Within.refl _

theorem State.otpProgram_within (s : State) (src : Src) : s.Within 0x4000821009 (s.otpProgram src) := by
  unfold State.otpProgram
  extract_lets y1
  refine State.Within.ite ?_ ?_
  · refine State.Within.trans ?_ ((State.setFld_within ..).mono (by rfl))
    exact (State.blow_within ..).mono (by rfl)
  · refine State.Within.trans ?_ ((State.refuse_within ..).mono (by rfl))
    exact (State.setFld_within ..).mono (by rfl)

theorem State.makeHuk_within (s : State) : s.Within 0x2000001000 s.makeHuk := by
  unfold State.makeHuk
  refine State.Within.ite ?_ ?_
  · split
    rename_i x1 e2
    have h3 : s.Within 0x2000001000 x1 := State.Within.of_pair e2 (by exact (State.drawBytes_within ..).mono (by rfl))
    refine State.Within.each ?_ (fun u a => ?_)
    · assumption
    · refine State.Within.ite ?_ ?_
      · exact (State.blow_within ..).mono (by rfl)
      · exact State.Within.refl _
  · exact State.Within.refl _

theorem State.advanceEpoch_within (s : State) : s.Within 0x1000 s.advanceEpoch := by
  unfold State.advanceEpoch
  split
  · exact State.Within.refl _
  · exact (State.blow_within ..).mono (by rfl)

theorem State.wipeLocket_within (s : State) : s.Within 0x100000201 s.wipeLocket := by
  unfold State.wipeLocket
  extract_lets y1 y2
  have h3 : s.Within 0x100000201 y1 := by
    unfold y1
    exact (State.mapSec_within ..).mono (by rfl)
  clear_value y1
  refine State.Within.trans ?_ ((State.setFld_within ..).mono (by rfl))
  refine State.Within.set_locket ?_ (by rfl)
  assumption

theorem State.wipeSlots_within (s : State) : s.Within 0x400000001 s.wipeSlots := by
  unfold State.wipeSlots
  refine State.Within.trans ?_ ((State.setFld_within ..).mono (by rfl))
  exact (State.zeroSlots_within ..).mono (by rfl)

theorem State.tpRestart_within (s : State) : s.Within 0x4002020009 s.tpRestart := by
  unfold State.tpRestart
  refine State.Within.ite ?_ ?_
  · refine State.Within.trans ?_ ((State.raise_within ..).mono (by rfl))
    refine State.Within.trans ?_ ((State.bump_within ..).mono (by rfl))
    exact (State.tpLeaves_within ..).mono (by rfl)
  · exact State.Within.refl _

theorem State.tamper_within (s : State) (n : Nat) : s.Within 0x4502021209 (s.tamper n) := by
  unfold State.tamper
  refine State.Within.ite ?_ ?_
  · extract_lets y1 y2 y3 y4
    have h5 : s.Within 0x4502021209 y1 := by
      unfold y1
      exact (State.setFld_within ..).mono (by rfl)
    clear_value y1
    have h6 : s.Within 0x4502021209 y2 := by
      unfold y2
      refine State.Within.ite ?_ ?_
      · assumption
      · refine State.Within.trans ?_ ((State.raise_within ..).mono (by rfl))
        refine State.Within.trans ?_ ((State.bump_within ..).mono (by rfl))
        refine State.Within.trans ?_ ((State.wipeSlots_within ..).mono (by rfl))
        exact State.Within.trans (by assumption) ((State.wipeLocket_within ..).mono (by rfl))
    clear_value y2
    have h7 : s.Within 0x4502021209 y3 := by
      unfold y3
      refine State.Within.ite ?_ ?_
      · exact State.Within.trans (by assumption) ((State.advanceEpoch_within ..).mono (by rfl))
      · assumption
    clear_value y3
    have h8 : s.Within 0x4502021209 y4 := by
      unfold y4
      refine State.Within.trans ?_ ((State.raise_within ..).mono (by rfl))
      exact State.Within.trans (by assumption) ((State.bump_within ..).mono (by rfl))
    clear_value y4
    refine State.Within.ite ?_ ?_
    · refine State.Within.trans ?_ ((State.setTp_within ..).mono (by rfl))
      exact State.Within.trans (by assumption) ((State.setFld_within ..).mono (by rfl))
    · refine State.Within.ite ?_ ?_
      · refine State.Within.trans ?_ ((State.tpRestart_within ..).mono (by rfl))
        exact State.Within.trans (by assumption) ((State.mapSec_within ..).mono (by rfl))
      · exact State.Within.trans (by assumption) ((State.tpRestart_within ..).mono (by rfl))
  · exact State.Within.refl _

theorem State.tpMismatched_within (s : State) (channel : Nat) : s.Within 0x4502021209 (s.tpMismatched channel) := by
  unfold State.tpMismatched
  refine State.Within.ite ?_ ?_
  · extract_lets y1 y2 y3
    have h4 : s.Within 0x4502021209 y1 := by
      unfold y1
      exact (State.tpMismatch_within ..).mono (by rfl)
    clear_value y1
    have h5 : s.Within 0x4502021209 y3 := by
      unfold y3
      exact State.Within.trans (by assumption) ((State.mapSec_within ..).mono (by rfl))
    clear_value y3
    refine State.Within.ite ?_ ?_
    · exact State.Within.trans (by assumption) ((State.tamper_within ..).mono (by rfl))
    · assumption
  · exact State.Within.refl _

theorem State.tokenFailed_within (s : State) : s.Within 0x4502021209 s.tokenFailed := by
  unfold State.tokenFailed
  extract_lets y1
  have h2 : s.Within 0x4502021209 y1 := by
    unfold y1
    exact (State.mapSec_within ..).mono (by rfl)
  clear_value y1
  refine State.Within.ite ?_ ?_
  · exact State.Within.trans (by assumption) ((State.tamper_within ..).mono (by rfl))
  · assumption

theorem State.ansOk_within (s : State) (slot : Nat) (rsp : List Byte) : s.Within 0x40020200c9 (s.ansOk slot rsp) := by
  unfold State.ansOk
  exact (State.mbxDone_within ..).mono (by rfl)

theorem State.ansBadArg_within (s : State) (slot : Nat) : s.Within 0x40020200c9 (s.ansBadArg slot) := by
  unfold State.ansBadArg
  exact (State.mbxDone_within ..).mono (by rfl)

theorem State.ansReason_within (s : State) (slot r : Nat) : s.Within 0x40020200c9 (s.ansReason slot r) := by
  unfold State.ansReason
  exact (State.mbxDone_within ..).mono (by rfl)

theorem State.ansDenied_within (s : State) (slot : Nat) : s.Within 0x40020200c9 (s.ansDenied slot) := by
  unfold State.ansDenied
  exact (State.mbxDone_within ..).mono (by rfl)

theorem State.mkaServe_within {m : Nat} {r s act : State} {slot : Nat} (hs : r.Within m s) (h : r.Within m act) (k : 0x40020200c9 ||| m = m) :
    r.Within m (s.mkaServe slot act) := State.Within.ite (hs.trans ((State.ansDenied_within ..).mono k)) h

theorem State.updServe_within {m : Nat} {r s act : State} {slot : Nat} (hs : r.Within m s) (h : r.Within m act) (k : 0x40020200c9 ||| m = m) :
    r.Within m (s.updServe slot act) := State.Within.ite h (hs.trans ((State.ansDenied_within ..).mono k))

theorem State.keyServe_within {m : Nat} {r s act : State} {slot : Nat} (hs : r.Within m s) (h : r.Within m act) (k : 0x40020200c9 ||| m = m) :
    r.Within m (s.keyServe slot act) :=
  State.updServe_within hs (State.Within.ite (hs.trans ((State.ansDenied_within ..).mono k)) h) k

theorem State.putFlash_within (s : State) (a : Nat) (l : List Byte) : s.Within 0x400 (s.putFlash a l) := by
  unfold State.putFlash
  refine State.Within.set_flash ?_ (by rfl)
  exact State.Within.refl _

theorem State.sealStore_within (s : State) : s.Within 0x400 s.sealStore := by
  unfold State.sealStore
  refine State.Within.ite ?_ ?_
  · exact State.Within.refl _
  · exact (State.putFlash_within ..).mono (by rfl)

theorem State.keyStore_within (s : State) (k : KeyRec) : s.Within 0x100000400 (s.keyStore k) := by
  unfold State.keyStore
  refine State.Within.trans ?_ ((State.sealStore_within ..).mono (by rfl))
  exact (State.mapSec_within ..).mono (by rfl)

theorem State.keyPutChecked_within (s : State) (slot id usage size : Nat) (key : Option (List Byte)) :
    s.Within 0x41020204c9 (s.keyPutChecked slot id usage size key) := by
  unfold State.keyPutChecked
  refine State.Within.ite ?_ ?_
  · exact (State.ansDenied_within ..).mono (by rfl)
  · refine State.Within.ite ?_ ?_
    · exact (State.ansBadArg_within ..).mono (by rfl)
    · split
      · exact (State.ansBadArg_within ..).mono (by rfl)
      · refine State.Within.trans ?_ ((State.ansOk_within ..).mono (by rfl))
        exact (State.keyStore_within ..).mono (by rfl)

theorem State.keyPut_within (s : State) (slot : Nat) : s.Within 0x41020204c9 (s.keyPut slot) := by
  unfold State.keyPut
  extract_lets y1
  refine State.keyServe_within ?_ ?_ (by rfl)
  · exact State.Within.refl _
  · refine State.Within.ite ?_ ?_
    · exact (State.ansDenied_within ..).mono (by rfl)
    · exact (State.keyPutChecked_within ..).mono (by rfl)

theorem State.keyPutWrapped_within (s : State) (slot : Nat) : s.Within 0x41020204c9 (s.keyPutWrapped slot) := by
  unfold State.keyPutWrapped
  extract_lets y1 y2
  refine State.keyServe_within ?_ ?_ (by rfl)
  · exact State.Within.refl _
  · refine State.Within.ite ?_ ?_
    · exact (State.ansDenied_within ..).mono (by rfl)
    · split
      · exact (State.ansBadArg_within ..).mono (by rfl)
      · refine State.Within.ite ?_ ?_
        · exact (State.ansBadArg_within ..).mono (by rfl)
        · exact (State.keyPutChecked_within ..).mono (by rfl)

theorem State.keyDelete_within (s : State) (slot : Nat) : s.Within 0x41020204c9 (s.keyDelete slot) := by
  unfold State.keyDelete
  extract_lets y1
  refine State.keyServe_within ?_ ?_ (by rfl)
  · exact State.Within.refl _
  · refine State.Within.ite ?_ ?_
    · exact (State.ansDenied_within ..).mono (by rfl)
    · refine State.Within.ite ?_ ?_
      · exact (State.ansBadArg_within ..).mono (by rfl)
      · refine State.Within.ite ?_ ?_
        · exact (State.ansDenied_within ..).mono (by rfl)
        · refine State.Within.trans ?_ ((State.ansOk_within ..).mono (by rfl))
          refine State.Within.trans ?_ ((State.sealStore_within ..).mono (by rfl))
          exact (State.mapSec_within ..).mono (by rfl)

theorem State.signetLoad_within (s : State) (i : Nat) (k : Slot) : s.Within 0x2500000001 (s.signetLoad i k) := by
  unfold State.signetLoad
  extract_lets y1
  have h2 : s.Within 0x2500000001 y1 := by
    unfold y1
    exact (State.loadSlot_within ..).mono (by rfl)
  clear_value y1
  exact State.Within.trans (by assumption) ((State.mapSec_within ..).mono (by rfl))

theorem State.signetZero_within (s : State) (i : Nat) : s.Within 0x500000001 (s.signetZero i) := by
  unfold State.signetZero
  refine State.Within.trans ?_ ((State.mapSec_within ..).mono (by rfl))
  exact (State.zeroSlot_within ..).mono (by rfl)

theorem State.readCounts_within (s : State) : s.Within 0x100000000 s.readCounts := by
  unfold State.readCounts
  refine State.Within.each ?_ (fun u a => ?_)
  · exact State.Within.refl _
  · extract_lets y1 y2
    refine State.Within.ite ?_ ?_
    · exact (State.mapSec_within ..).mono (by rfl)
    · exact State.Within.refl _

theorem State.keyCountSync_within (s : State) : s.Within 0x100000400 s.keyCountSync := by
  unfold State.keyCountSync
  refine State.Within.ite ?_ ?_
  · refine State.Within.trans ?_ ((State.sealStore_within ..).mono (by rfl))
    exact (State.readCounts_within ..).mono (by rfl)
  · exact State.Within.refl _

theorem State.cupFree_within (s : State) (page : Nat) : s.Within 0x500000001 (s.cupFree page) := by
  unfold State.cupFree
  refine State.Within.ite ?_ ?_
  · refine State.Within.trans ?_ ((State.signetZero_within ..).mono (by rfl))
    exact (State.readCounts_within ..).mono (by rfl)
  · exact State.Within.refl _

theorem State.cupBind_within (s : State) (slot : Nat) : s.Within 0x65020200c9 (s.cupBind slot) := by
  unfold State.cupBind
  extract_lets y1 y2 y3 y4
  have h5 : s.Within 0x65020200c9 y4 := by
    unfold y4
    exact (State.cupFree_within ..).mono (by rfl)
  clear_value y4
  refine State.Within.ite ?_ ?_
  · exact (State.ansBadArg_within ..).mono (by rfl)
  · refine State.Within.ite ?_ ?_
    · exact (State.ansDenied_within ..).mono (by rfl)
    · split
      · exact (State.ansBadArg_within ..).mono (by rfl)
      · split
        · refine State.Within.ite ?_ ?_
          · exact State.Within.trans (by assumption) ((State.ansBadArg_within ..).mono (by rfl))
          · extract_lets y6
            have h7 : s.Within 0x65020200c9 y6 := by
              unfold y6
              exact State.Within.trans (by assumption) ((State.signetLoad_within ..).mono (by rfl))
            clear_value y6
            refine State.Within.trans ?_ ((State.ansOk_within ..).mono (by rfl))
            exact State.Within.trans (by assumption) ((State.mapSec_within ..).mono (by rfl))
        · exact State.Within.trans (by assumption) ((State.ansBadArg_within ..).mono (by rfl))

theorem State.cupUnbind_within (s : State) (slot : Nat) : s.Within 0x45020200c9 (s.cupUnbind slot) := by
  unfold State.cupUnbind
  extract_lets y1
  refine State.Within.ite ?_ ?_
  · exact (State.ansBadArg_within ..).mono (by rfl)
  · refine State.Within.ite ?_ ?_
    · exact (State.ansDenied_within ..).mono (by rfl)
    · refine State.Within.trans ?_ ((State.ansOk_within ..).mono (by rfl))
      exact (State.cupFree_within ..).mono (by rfl)

theorem State.mkaKeys_within (s : State) (slot : Nat) : s.Within 0x41020200c9 (s.mkaKeys slot) := by
  unfold State.mkaKeys
  extract_lets y1 y2 y3 y4 y5 y6
  refine State.mkaServe_within ?_ ?_ (by rfl)
  · exact State.Within.refl _
  · split
    · exact (State.ansBadArg_within ..).mono (by rfl)
    · refine State.Within.ite ?_ ?_
      · exact (State.ansBadArg_within ..).mono (by rfl)
      · split
        · exact (State.ansBadArg_within ..).mono (by rfl)
        · extract_lets y7
          refine State.Within.trans ?_ ((State.ansOk_within ..).mono (by rfl))
          exact (State.mapSec_within ..).mono (by rfl)

theorem State.mkaIcv_within (s : State) (slot : Nat) : s.Within 0x40020200c9 (s.mkaIcv slot) := by
  unfold State.mkaIcv
  extract_lets y1 y2 y3
  refine State.mkaServe_within ?_ ?_ (by rfl)
  · exact State.Within.refl _
  · split
    · exact (State.ansBadArg_within ..).mono (by rfl)
    · refine State.Within.ite ?_ ?_
      · exact (State.ansBadArg_within ..).mono (by rfl)
      · exact (State.ansOk_within ..).mono (by rfl)

theorem State.sakLoad_within (s : State) (slot suite : Nat) (sak salt rsp : List Byte) :
    s.Within 0x65020200c9 (s.sakLoad slot suite sak salt rsp) := by
  unfold State.sakLoad
  split
  · exact (State.ansBadArg_within ..).mono (by rfl)
  · refine State.Within.trans ?_ ((State.ansOk_within ..).mono (by rfl))
    exact (State.signetLoad_within ..).mono (by rfl)

theorem State.sakNew_within (s : State) (slot : Nat) : s.Within 0x65020200c9 (s.sakNew slot) := by
  unfold State.sakNew
  extract_lets y1 y2
  refine State.mkaServe_within ?_ ?_ (by rfl)
  · exact State.Within.refl _
  · split
    · exact (State.ansBadArg_within ..).mono (by rfl)
    · refine State.Within.ite ?_ ?_
      · exact (State.ansBadArg_within ..).mono (by rfl)
      · split
        rename_i x3 e4
        have h5 : s.Within 0x65020200c9 x3 := State.Within.of_pair e4 (by exact (State.drawBytes_within ..).mono (by rfl))
        exact State.Within.trans (by assumption) ((State.sakLoad_within ..).mono (by rfl))

theorem State.sakInstall_within (s : State) (slot : Nat) : s.Within 0x65020200c9 (s.sakInstall slot) := by
  unfold State.sakInstall
  extract_lets y1 y2 y3
  refine State.mkaServe_within ?_ ?_ (by rfl)
  · exact State.Within.refl _
  · split
    · exact (State.ansBadArg_within ..).mono (by rfl)
    · refine State.Within.ite ?_ ?_
      · exact (State.ansBadArg_within ..).mono (by rfl)
      · split
        · exact (State.ansBadArg_within ..).mono (by rfl)
        · exact (State.sakLoad_within ..).mono (by rfl)

theorem State.slotFree_within (s : State) (slot : Nat) : s.Within 0x45020200c9 (s.slotFree slot) := by
  unfold State.slotFree
  extract_lets y1
  refine State.mkaServe_within ?_ ?_ (by rfl)
  · exact State.Within.refl _
  · refine State.Within.ite ?_ ?_
    · exact (State.ansBadArg_within ..).mono (by rfl)
    · refine State.Within.ite ?_ ?_
      · exact (State.ansDenied_within ..).mono (by rfl)
      · refine State.Within.trans ?_ ((State.ansOk_within ..).mono (by rfl))
        exact (State.signetZero_within ..).mono (by rfl)

theorem State.newNonce_within (s : State) : s.Within 0x2100000000 (s.newNonce).2 := by
  unfold State.newNonce
  split
  rename_i x1 e2
  have h3 : s.Within 0x2100000000 x1 := State.Within.of_pair e2 (by exact (State.drawBytes_within ..).mono (by rfl))
  dsimp only
  exact State.Within.trans (by assumption) ((State.mapSec_within ..).mono (by rfl))

theorem State.useNonce_within (s : State) : s.Within 0x100000000 s.useNonce := by
  unfold State.useNonce
  exact (State.mapSec_within ..).mono (by rfl)

theorem State.lcChallenge_within (s : State) (slot : Nat) : s.Within 0x61020200c9 (s.lcChallenge slot) := by
  unfold State.lcChallenge
  refine State.updServe_within ?_ ?_ (by rfl)
  · exact State.Within.refl _
  · split
    rename_i x1 e2
    have h3 : s.Within 0x61020200c9 x1 := State.Within.of_pair e2 (by exact (State.newNonce_within ..).mono (by rfl))
    exact State.Within.trans (by assumption) ((State.ansOk_within ..).mono (by rfl))

theorem State.lcTransition_within (s : State) (slot : Nat) : s.Within 0x45020212c9 (s.lcTransition slot).2 := by
  unfold State.lcTransition
  extract_lets y1 y2 y3 y4 y5 y6 y7 y8
  have h9 : s.Within 0x45020212c9 y4 := by
    unfold y4
    exact (State.useNonce_within ..).mono (by rfl)
  clear_value y4
  have h10 : s.Within 0x45020212c9 y6 := by
    unfold y6
    refine State.Within.each ?_ (fun u a => ?_)
    · assumption
    · exact (State.blow_within ..).mono (by rfl)
  clear_value y6
  have h11 : s.Within 0x45020212c9 y7 := by
    unfold y7
    refine State.Within.ite ?_ ?_
    · assumption
    · exact State.Within.trans (by assumption) ((State.wipeLocket_within ..).mono (by rfl))
  clear_value y7
  have h12 : s.Within 0x45020212c9 y8 := by
    unfold y8
    refine State.Within.ite ?_ ?_
    · refine State.Within.trans ?_ ((State.advanceEpoch_within ..).mono (by rfl))
      exact State.Within.trans (by assumption) ((State.wipeSlots_within ..).mono (by rfl))
    · assumption
  clear_value y8
  refine State.Within.itp ?_ ?_
  · dsimp only
    exact (State.ansDenied_within ..).mono (by rfl)
  · refine State.Within.itp ?_ ?_
    · refine State.Within.itp ?_ ?_
      · dsimp only
        refine State.Within.trans ?_ ((State.ansDenied_within ..).mono (by rfl))
        exact (State.useNonce_within ..).mono (by rfl)
      · dsimp only
        exact State.Within.trans (by assumption) ((State.ansOk_within ..).mono (by rfl))
    · dsimp only
      refine State.Within.trans ?_ ((State.tokenFailed_within ..).mono (by rfl))
      refine State.Within.trans ?_ ((State.ansDenied_within ..).mono (by rfl))
      refine State.Within.trans ?_ ((State.bump_within ..).mono (by rfl))
      exact (State.useNonce_within ..).mono (by rfl)

theorem State.guardOpen_within {m : Nat} (s : State) (src : Src) (off : Nat) (act : State → State)
    (h : ∀ u : State, u.Within m (act u)) (k : 0x4002820089 ||| m = m) : s.Within m (s.guardOpen src off act) :=
  State.arrives_within s src _ (fun u => State.Within.ite ((State.logErr_within ..).mono (covered k (by rfl)))
    (State.Within.ite (h u) ((State.notOwner_within ..).mono (covered k (by rfl))))) (covered k (by rfl))

theorem State.chalReq_within (s : State) : s.Within 0x2100000000 s.chalReq := by
  unfold State.chalReq
  refine State.Within.ite ?_ ?_
  · exact (State.newNonce_within ..).mono (by rfl)
  · exact State.Within.refl _

end Sys2Proof.Machine
end

