-- ==== Sys2Proof/Laws/WithinControl.lean ====
section
/-! SUPPORT. The components of State that every operation of the control of blocks and of the tables may change, and that what it leaves can come after. -/
namespace Sys2Proof.Machine

/-! ## Machine/Commit.lean -/

theorem State.applyRegs_within (s : State) (p : Page) : s.Within 0x1 (s.applyRegs p) := by
  unfold State.applyRegs
  refine State.Within.each ?_ (fun u a => ?_)
  · exact State.Within.refl _
  · exact (State.setWord_within ..).mono (by rfl)

theorem State.keepRegs_within (s : State) (p : Page) : s.Within 0x1 (s.keepRegs p) := by
  unfold State.keepRegs
  refine State.Within.each ?_ (fun u a => ?_)
  · exact State.Within.refl _
  · exact (State.setWord_within ..).mono (by rfl)

theorem State.swapRegs_within (s : State) (p : Page) : s.Within 0x1 (s.swapRegs p) := by
  unfold State.swapRegs
  refine State.Within.each ?_ (fun u a => ?_)
  · exact State.Within.refl _
  · extract_lets y1
    refine State.Within.trans ?_ ((State.setWord_within ..).mono (by rfl))
    exact (State.setWord_within ..).mono (by rfl)

theorem State.applyTabs_within (s : State) (p : Page) : s.Within 0x2 (s.applyTabs p) := by
  unfold State.applyTabs
  refine State.Within.set_tabs ?_ (by rfl)
  exact State.Within.refl _

theorem State.keepTabs_within (s : State) (p : Page) : s.Within 0x4 (s.keepTabs p) := by
  unfold State.keepTabs
  refine State.Within.set_tabsShadow ?_ (by rfl)
  exact State.Within.refl _

theorem State.poolLower_within (s : State) (pages : List Page) : s.Within 0x1 (s.poolLower pages) := by
  unfold State.poolLower
  extract_lets y1
  refine State.Within.ite ?_ ?_
  · exact (State.setFld_within ..).mono (by rfl)
  · exact State.Within.refl _

theorem State.meterReset_within (s : State) (m : Nat) : s.Within 0x10000 (s.meterReset m) := by
  unfold State.meterReset
  exact (State.mapMeter_within ..).mono (by rfl)

theorem State.nodeReset_within (s : State) (n : Nat) : s.Within 0x10000 (s.nodeReset n) := by
  unfold State.nodeReset
  exact (State.mapSvc_within ..).mono (by rfl)

theorem State.queueReset_within (s : State) (q : Nat) : s.Within 0x10000 (s.queueReset q) := by
  unfold State.queueReset
  exact (State.mapQueue_within ..).mono (by rfl)

theorem State.groupReset_within (s : State) (p : Nat) : s.Within 0x10000 (s.groupReset p) := by
  unfold State.groupReset
  refine State.Within.each ?_ (fun u a => ?_)
  · exact State.Within.refl _
  · exact (State.mapSvc_within ..).mono (by rfl)

theorem State.qschChanged_within (s : State) (old : State) (k : Nat) : s.Within 0x10000 (s.qschChanged old k) := by
  unfold State.qschChanged
  extract_lets y1 y2 y3 y4
  have h5 : s.Within 0x10000 y4 := by
    unfold y4
    exact (State.mapQueue_within ..).mono (by rfl)
  clear_value y4
  split
  · refine State.Within.ite ?_ ?_
    · refine State.Within.ite ?_ ?_
      · exact State.Within.trans (by assumption) ((State.queueReset_within ..).mono (by rfl))
      · assumption
    · exact (State.queueReset_within ..).mono (by rfl)
  · refine State.Within.ite ?_ ?_
    · exact State.Within.refl _
    · refine State.Within.trans ?_ ((State.groupReset_within ..).mono (by rfl))
      exact (State.nodeReset_within ..).mono (by rfl)
  · refine State.Within.ite ?_ ?_
    · exact State.Within.refl _
    · refine State.Within.trans ?_ ((State.groupReset_within ..).mono (by rfl))
      exact (State.mapPortNode_within ..).mono (by rfl)
  · exact (State.meterReset_within ..).mono (by rfl)
  · exact State.Within.refl _

theorem State.frerChanged_within (s : State) (k : Nat) : s.Within 0x200000 (s.frerChanged k) := by
  unfold State.frerChanged
  exact (State.mapFrer_within ..).mono (by rfl)

theorem State.applied_within (s : State) (old : State) (p : Page) : s.Within 0x6060230009 (s.applied old p) := by
  unfold State.applied
  split
  · extract_lets y1 y2
    have h3 : s.Within 0x6060230009 y1 := by
      unfold y1
      refine State.Within.each ?_ (fun u a => ?_)
      · exact State.Within.refl _
      · refine State.Within.ite ?_ ?_
        · exact (State.mapSvc_within ..).mono (by rfl)
        · exact State.Within.refl _
    clear_value y1
    have h4 : s.Within 0x6060230009 y2 := by
      unfold y2
      refine State.Within.ite ?_ ?_
      · refine State.Within.ite ?_ ?_
        · assumption
        · exact State.Within.trans (by assumption) ((State.setFld_within ..).mono (by rfl))
      · exact State.Within.refl _
    clear_value y2
    refine State.Within.ite ?_ ?_
    · exact State.Within.trans (by assumption) ((State.setHeadroom_within ..).mono (by rfl))
    · assumption
  · refine State.Within.trans ?_ ((State.gateMoves_within ..).mono (by rfl))
    exact (State.setHeadroom_within ..).mono (by rfl)
  · refine State.Within.ite ?_ ?_
    · split
      rename_i x5 e6
      have h7 : s.Within 0x6060230009 x5 := State.Within.of_pair e6 (by exact (State.loupeReload_within ..).mono (by rfl))
      exact State.Within.trans (by assumption) ((State.setFld_within ..).mono (by rfl))
    · exact State.Within.refl _
  · refine State.Within.each ?_ (fun u a => ?_)
    · exact State.Within.refl _
    · exact (State.qschChanged_within ..).mono (by rfl)
  · refine State.Within.each ?_ (fun u a => ?_)
    · exact State.Within.refl _
    · exact (State.frerChanged_within ..).mono (by rfl)
  · refine State.Within.ite ?_ ?_
    · exact State.Within.refl _
    · exact (State.crc4Changed_within ..).mono (by rfl)
  · refine State.Within.each ?_ (fun u a => ?_)
    · exact State.Within.refl _
    · extract_lets y8
      refine State.Within.ite ?_ ?_
      · exact (State.mapTxs_within ..).mono (by rfl)
      · exact (State.mapRxs_within ..).mono (by rfl)
  · exact State.Within.refl _

theorem State.applyPage_within (s : State) (p : Page) : s.Within 0x606023000b (s.applyPage p) := by
  unfold State.applyPage
  refine State.Within.trans ?_ ((State.applied_within ..).mono (by rfl))
  refine State.Within.trans ?_ ((State.applyTabs_within ..).mono (by rfl))
  exact (State.applyRegs_within ..).mono (by rfl)

theorem State.applyPart_within (s : State) (p : Page) (regs : Nat → Bool) (tabs : Nat → Nat) : s.Within 0x606023000b (s.applyPart p regs tabs) := by
  unfold State.applyPart
  extract_lets y1 y2 y3
  have h4 : s.Within 0x606023000b y1 := by
    unfold y1
    refine State.Within.trans ?_ ((State.applyTabs_within ..).mono (by rfl))
    exact (State.applyRegs_within ..).mono (by rfl)
  clear_value y1
  have h5 : s.Within 0x606023000b y2 := by
    unfold y2
    refine State.Within.each ?_ (fun u a => ?_)
    · assumption
    · exact (State.setWord_within ..).mono (by rfl)
  clear_value y2
  have h6 : s.Within 0x606023000b y3 := by
    unfold y3
    refine State.Within.each ?_ (fun u a => ?_)
    · assumption
    · refine State.Within.set_tabs ?_ (by rfl)
      exact State.Within.refl _
  clear_value y3
  exact State.Within.trans (by assumption) ((State.applied_within ..).mono (by rfl))

theorem State.applyFree_within (s : State) (p : Page) : s.Within 0x606023000b (s.applyFree p) := by
  unfold State.applyFree
  refine State.Within.ite ?_ ?_
  · exact (State.applyPage_within ..).mono (by rfl)
  · exact (State.applyPart_within ..).mono (by rfl)

theorem State.applyMoves_within (s : State) : s.Within 0x606023000b s.applyMoves := by
  unfold State.applyMoves
  exact (State.applyPart_within ..).mono (by rfl)

theorem State.accept_within (s : State) (p : Page) (gen : Nat) : s.Within 0x4000020009 (s.accept p gen) := by
  unfold State.accept
  refine State.Within.trans ?_ ((State.setStatus_within ..).mono (by rfl))
  refine State.Within.trans ?_ ((State.setFld_within ..).mono (by rfl))
  exact (State.setFld_within ..).mono (by rfl)

theorem State.hallmark_within (s : State) (c : Plan) : s.Within 0x3 (s.hallmark c) := by
  unfold State.hallmark
  extract_lets y1 y2
  have h3 : s.Within 0x3 y1 := by
    unfold y1
    refine State.Within.trans ?_ ((State.setFld_within ..).mono (by rfl))
    refine State.Within.trans ?_ ((State.setFld_within ..).mono (by rfl))
    refine State.Within.trans ?_ ((State.setFld_within ..).mono (by rfl))
    refine State.Within.trans ?_ ((State.setFld_within ..).mono (by rfl))
    exact (State.setFld_within ..).mono (by rfl)
  clear_value y1
  refine State.Within.set_tabs ?_ (by rfl)
  assumption

theorem State.planDone_within (s : State) : s.Within 0x400082800b s.planDone := by
  unfold State.planDone
  split
  · exact State.Within.refl _
  · refine State.Within.ite ?_ ?_
    · extract_lets y1 y2 y3 y4 y5
      have h6 : s.Within 0x400082800b y1 := by
        unfold y1
        exact (State.setFld_within ..).mono (by rfl)
      clear_value y1
      have h7 : s.Within 0x400082800b y2 := by
        unfold y2
        exact State.Within.trans (by assumption) ((State.hallmark_within ..).mono (by rfl))
      clear_value y2
      have h8 : s.Within 0x400082800b y3 := by
        unfold y3
        refine State.Within.set_plan ?_ (by rfl)
        assumption
      clear_value y3
      have h9 : s.Within 0x400082800b y4 := by
        unfold y4
        refine State.Within.each ?_ (fun u a => ?_)
        · assumption
        · exact (State.accept_within ..).mono (by rfl)
      clear_value y4
      have h10 : s.Within 0x400082800b y5 := by
        unfold y5
        refine State.Within.ite ?_ ?_
        · exact State.Within.trans (by assumption) ((State.setStatus_within ..).mono (by rfl))
        · assumption
      clear_value y5
      refine State.Within.trans ?_ ((State.raise_within ..).mono (by rfl))
      exact State.Within.trans (by assumption) ((State.digestHold_within ..).mono (by rfl))
    · exact State.Within.refl _

theorem State.arrive_within (s : State) (p : Page) : s.Within 0x400082800b (s.arrive p) := by
  unfold State.arrive
  refine State.Within.trans ?_ ((State.planDone_within ..).mono (by rfl))
  refine State.Within.set_plan ?_ (by rfl)
  exact State.Within.refl _

theorem State.applyOwn_within (s : State) (p : Page) : s.Within 0x606023400b (s.applyOwn p) := by
  unfold State.applyOwn
  extract_lets y1
  have h2 : s.Within 0x606023400b y1 := by
    unfold y1
    exact (State.applyFree_within ..).mono (by rfl)
  clear_value y1
  refine State.Within.ite ?_ ?_
  · refine State.Within.trans ?_ ((State.accept_within ..).mono (by rfl))
    refine State.Within.set_applying ?_ (by rfl)
    assumption
  · assumption

theorem State.boundary_within (s : State) (p : Page) : s.Within 0x6060a3c00b (s.boundary p) := by
  unfold State.boundary
  split
  · exact State.Within.refl _
  · exact State.Within.refl _
  · exact State.Within.refl _
  · exact State.Within.refl _
  · exact State.Within.refl _
  · refine State.Within.ite ?_ ?_
    · exact (State.applyOwn_within ..).mono (by rfl)
    · refine State.Within.ite ?_ ?_
      · extract_lets y1
        have h2 : s.Within 0x6060a3c00b y1 := by
          unfold y1
          refine State.Within.trans ?_ ((State.applyFree_within ..).mono (by rfl))
          exact (State.poolLower_within ..).mono (by rfl)
        clear_value y1
        refine State.Within.ite ?_ ?_
        · assumption
        · exact State.Within.trans (by assumption) ((State.arrive_within ..).mono (by rfl))
      · exact State.Within.refl _

theorem State.glideDone_within (s : State) (i : Nat) : s.Within 0x400082800b (s.glideDone i) := by
  unfold State.glideDone
  refine State.Within.ite ?_ ?_
  · exact State.Within.refl _
  · extract_lets y1
    have h2 : s.Within 0x400082800b y1 := by
      unfold y1
      refine State.Within.trans ?_ ((State.raise_within ..).mono (by rfl))
      refine State.Within.trans ?_ ((State.bump_within ..).mono (by rfl))
      exact (State.setFld_within ..).mono (by rfl)
    clear_value y1
    refine State.Within.ite ?_ ?_
    · exact State.Within.trans (by assumption) ((State.arrive_within ..).mono (by rfl))
    · assumption

theorem State.flipBank_within (s : State) : s.Within 0x1 s.flipBank := by
  unfold State.flipBank
  refine State.Within.trans ?_ ((State.swapRegs_within ..).mono (by rfl))
  refine State.Within.trans ?_ ((State.swapRegs_within ..).mono (by rfl))
  exact (State.setFld_within ..).mono (by rfl)

theorem State.bankSwap_within (s : State) (gen : Nat) : s.Within 0x400002c009 (s.bankSwap gen) := by
  unfold State.bankSwap
  extract_lets y1 y2 y3
  have h4 : s.Within 0x400002c009 y2 := by
    unfold y2
    refine State.Within.trans ?_ ((State.setFld_within ..).mono (by rfl))
    refine State.Within.trans ?_ ((State.raise_within ..).mono (by rfl))
    refine State.Within.trans ?_ ((State.bump_within ..).mono (by rfl))
    exact (State.flipBank_within ..).mono (by rfl)
  clear_value y2
  have h5 : s.Within 0x400002c009 y3 := by
    unfold y3
    exact State.Within.trans (by assumption) ((State.setFld_within ..).mono (by rfl))
  clear_value y3
  refine State.Within.set_applying_plan ?_ (by rfl)
  assumption

theorem State.recircExpire_within (s : State) : s.Within 0x4000030009 s.recircExpire := by
  unfold State.recircExpire
  extract_lets y1 y2
  refine State.Within.each ?_ (fun u a => ?_)
  · exact State.Within.refl _
  · refine State.Within.trans ?_ ((State.raise_within ..).mono (by rfl))
    refine State.Within.trans ?_ ((State.bump_within ..).mono (by rfl))
    exact (State.discardCopy_within ..).mono (by rfl)

theorem State.recircZero_within (s : State) : s.Within 0x400082800b s.recircZero := by
  unfold State.recircZero
  refine State.Within.ite ?_ ?_
  · exact (State.arrive_within ..).mono (by rfl)
  · exact State.Within.refl _

/-! ## Machine/Control.lean -/

theorem State.discardHeld_within (s : State) (i : Nat) : s.Within 0x10009 (s.discardHeld i) := by
  unfold State.discardHeld
  extract_lets y1 y2 y3 y4 y5 y6
  have h7 : s.Within 0x10009 y2 := by
    unfold y2
    refine State.Within.ite ?_ ?_
    · exact State.Within.refl _
    · exact (State.refund_within ..).mono (by rfl)
  clear_value y2
  have h8 : s.Within 0x10009 y3 := by
    unfold y3
    refine State.Within.ite ?_ ?_
    · exact State.Within.trans (by assumption) ((State.recircLeave_within ..).mono (by rfl))
    · assumption
  clear_value y3
  have h9 : s.Within 0x10009 y4 := by
    unfold y4
    exact State.Within.trans (by assumption) ((State.stompCopies_within ..).mono (by rfl))
  clear_value y4
  have h10 : s.Within 0x10009 y5 := by
    unfold y5
    refine State.Within.each ?_ (fun u a => ?_)
    · assumption
    · exact (State.discardCopy_within ..).mono (by rfl)
  clear_value y5
  have h11 : s.Within 0x10009 y6 := by
    unfold y6
    exact State.Within.trans (by assumption) ((State.mapDp_within ..).mono (by rfl))
  clear_value y6
  exact State.Within.trans (by assumption) ((State.freeFrame_within ..).mono (by rfl))

theorem State.stopCheck_within (s : State) : s.Within 0x4000028009 s.stopCheck := by
  unfold State.stopCheck
  split
  · exact State.Within.refl _
  · extract_lets y1
    have h2 : s.Within 0x4000028009 y1 := by
      unfold y1
      refine State.Within.each ?_ (fun u a => ?_)
      · exact State.Within.refl _
      · exact (State.setStatus_within ..).mono (by rfl)
    clear_value y1
    refine State.Within.set_plan ?_ (by rfl)
    assumption

theorem State.discardRx_within (s : State) (n : Nat) : s.Within 0x1000b (s.discardRx n) := by
  unfold State.discardRx
  extract_lets y1
  refine State.Within.ite ?_ ?_
  · exact State.Within.refl _
  · refine State.Within.trans ?_ ((State.saSettle_within ..).mono (by rfl))
    refine State.Within.trans ?_ ((State.mapDp_within ..).mono (by rfl))
    refine State.Within.trans ?_ ((State.setFrame_within ..).mono (by rfl))
    exact (State.discardHeld_within ..).mono (by rfl)

theorem State.discardHanded_within (s : State) (n : Nat) : s.Within 0x10000 (s.discardHanded n) := by
  unfold State.discardHanded
  exact (State.mapDp_within ..).mono (by rfl)

theorem State.dropKey_within (s : State) (r : Pass) : s.Within 0x10001 (s.dropKey r) := by
  unfold State.dropKey
  extract_lets y1
  have h2 : s.Within 0x10001 y1 := by
    unfold y1
    refine State.Within.ite ?_ ?_
    · exact (State.recircLeave_within ..).mono (by rfl)
    · exact State.Within.refl _
  clear_value y1
  exact State.Within.trans (by assumption) ((State.freeFrame_within ..).mono (by rfl))

theorem State.discardWork_within (s : State) (p : Page) (fault lost : Bool) : s.Within 0x64db8388cb (s.discardWork p fault lost).2 := by
  unfold State.discardWork
  extract_lets y1 y2
  have h3 : s.Within 0x64db8388cb y2 := by
    unfold y2
    refine State.Within.each ?_ (fun u a => ?_)
    · exact State.Within.refl _
    · refine State.Within.trans ?_ ((State.bump_within ..).mono (by rfl))
      exact (State.discardHeld_within ..).mono (by rfl)
  clear_value y2
  split
  · extract_lets y4 y5
    have h6 : s.Within 0x64db8388cb y4 := by
      unfold y4
      refine State.Within.each ?_ (fun u a => ?_)
      · exact State.Within.refl _
      · exact (State.discardCopy_within ..).mono (by rfl)
    clear_value y4
    have h7 : s.Within 0x64db8388cb y5 := by
      unfold y5
      refine State.Within.trans ?_ ((State.discardHanded_within ..).mono (by rfl))
      refine State.Within.trans ?_ ((State.discardRx_within ..).mono (by rfl))
      refine State.Within.each ?_ (fun u a => ?_)
      · assumption
      · exact (State.discardHeld_within ..).mono (by rfl)
    clear_value y5
    dsimp only
    exact State.Within.trans (by assumption) ((State.mapEgress_within ..).mono (by rfl))
  · dsimp only
    refine State.Within.trans ?_ ((State.mapDp_within ..).mono (by rfl))
    refine State.Within.each ?_ (fun u a => ?_)
    · exact State.Within.refl _
    · exact (State.dropKey_within ..).mono (by rfl)
  · dsimp only
    refine State.Within.trans ?_ ((State.mapDp_within ..).mono (by rfl))
    refine State.Within.each ?_ (fun u a => ?_)
    · exact State.Within.refl _
    · exact (State.freeFrame_within ..).mono (by rfl)
  · dsimp only
    refine State.Within.each ?_ (fun u a => ?_)
    · exact State.Within.refl _
    · exact (State.discardHeld_within ..).mono (by rfl)
  · dsimp only
    refine State.Within.each ?_ (fun u a => ?_)
    · exact State.Within.refl _
    · exact (State.discardCopy_within ..).mono (by rfl)
  · dsimp only
    refine State.Within.ite ?_ ?_
    · exact (State.stopCheck_within ..).mono (by rfl)
    · exact State.Within.refl _
  · dsimp only
    exact (State.mapClasp_within ..).mono (by rfl)
  · dsimp only
    refine State.Within.each ?_ (fun u a => ?_)
    · assumption
    · exact (State.mapEgress_within ..).mono (by rfl)
  · refine State.Within.itp ?_ ?_
    · exact (State.cipFault_within ..).mono (by rfl)
    · exact (State.cipAbort_within ..).mono (by rfl)
  · dsimp only
    exact (State.mapCan_within ..).mono (by rfl)
  · dsimp only
    exact (State.mapLin_within ..).mono (by rfl)
  · dsimp only
    exact (State.tsiDrop_within ..).mono (by rfl)
  · dsimp only
    refine State.Within.trans ?_ ((State.hostOpenFail_within ..).mono (by rfl))
    exact (State.peerOpenFail_within ..).mono (by rfl)
  · dsimp only
    refine State.Within.each ?_ (fun u a => ?_)
    · exact State.Within.refl _
    · exact (State.dmaAbort_within ..).mono (by rfl)
  · dsimp only
    exact (State.hostCut_within ..).mono (by rfl)
  · dsimp only
    refine State.Within.each ?_ (fun u a => ?_)
    · exact State.Within.refl _
    · exact (State.setFld_within ..).mono (by rfl)
  · dsimp only
    exact State.Within.refl _

theorem State.entered_within (s : State) (p : Page) (was st : Nat) : s.Within 0x403e8300c9 (s.entered p was st) := by
  unfold State.entered
  extract_lets y1
  split
  · refine State.Within.ite ?_ ?_
    · refine State.Within.ite ?_ ?_
      · exact (State.lanesOff_within ..).mono (by rfl)
      · exact State.Within.refl _
    · refine State.Within.ite ?_ ?_
      · exact State.Within.refl _
      · refine State.Within.ite ?_ ?_
        · exact (State.linkOn_within ..).mono (by rfl)
        · refine State.Within.ite ?_ ?_
          · exact (State.linkOff_within ..).mono (by rfl)
          · exact State.Within.refl _
  · refine State.Within.ite ?_ ?_
    · exact (State.clspEnter_within ..).mono (by rfl)
    · refine State.Within.ite ?_ ?_
      · exact State.Within.refl _
      · exact (State.clspLeave_within ..).mono (by rfl)
  · refine State.Within.ite ?_ ?_
    · exact (State.canEnter_within ..).mono (by rfl)
    · refine State.Within.ite ?_ ?_
      · exact (State.canDrain_within ..).mono (by rfl)
      · refine State.Within.ite ?_ ?_
        · exact (State.canStop_within ..).mono (by rfl)
        · exact State.Within.refl _
  · refine State.Within.ite ?_ ?_
    · exact (State.linEnter_within ..).mono (by rfl)
    · refine State.Within.ite ?_ ?_
      · exact (State.linStop_within ..).mono (by rfl)
      · exact State.Within.refl _
  · refine State.Within.ite ?_ ?_
    · exact (State.tdmStop_within ..).mono (by rfl)
    · exact State.Within.refl _
  · refine State.Within.ite ?_ ?_
    · exact (State.nmStop_within ..).mono (by rfl)
    · exact State.Within.refl _
  · refine State.Within.ite ?_ ?_
    · exact (State.dmaWakes_within ..).mono (by rfl)
    · exact State.Within.refl _
  · refine State.Within.ite ?_ ?_
    · exact (State.takeRung_within ..).mono (by rfl)
    · exact State.Within.refl _
  · exact State.Within.refl _

theorem State.goSt_within (s : State) (p : Page) (st : Nat) : s.Within 0x403e8300c9 (s.goSt p st) := by
  unfold State.goSt
  refine State.Within.ite ?_ ?_
  · exact State.Within.refl _
  · refine State.Within.trans ?_ ((State.entered_within ..).mono (by rfl))
    exact (State.setSt_within ..).mono (by rfl)

theorem State.goQuiet_within (s : State) (p : Page) : s.Within 0x403e8300c9 (s.goQuiet p) := by
  unfold State.goQuiet
  extract_lets y1
  have h2 : s.Within 0x403e8300c9 y1 := by
    unfold y1
    exact (State.goSt_within ..).mono (by rfl)
  clear_value y1
  refine State.Within.ite ?_ ?_
  · exact State.Within.trans (by assumption) ((State.goSt_within ..).mono (by rfl))
  · assumption

theorem State.drainTime_within (s : State) (p : Page) (on : Bool) : s.Within 0x2000 (s.drainTime p on) := by
  unfold State.drainTime
  refine State.Within.set_drainTimer ?_ (by rfl)
  exact State.Within.refl _

theorem State.workDone_within (s : State) (p : Page) : s.Within 0x403e8320c9 (s.workDone p) := by
  unfold State.workDone
  extract_lets y1
  have h2 : s.Within 0x403e8320c9 y1 := by
    unfold y1
    exact (State.drainTime_within ..).mono (by rfl)
  clear_value y1
  refine State.Within.ite ?_ ?_
  · exact State.Within.trans (by assumption) ((State.goQuiet_within ..).mono (by rfl))
  · exact State.Within.trans (by assumption) ((State.goSt_within ..).mono (by rfl))

theorem State.drainExpires_within (s : State) (p : Page) : s.Within 0x64ff83a8cb (s.drainExpires p) := by
  unfold State.drainExpires
  split
  rename_i x1 e2
  have h3 : s.Within 0x64ff83a8cb x1 := State.Within.of_pair e2 (by exact (State.discardWork_within ..).mono (by rfl))
  refine State.Within.trans ?_ ((State.goSt_within ..).mono (by rfl))
  refine State.Within.trans ?_ ((State.logErr_within ..).mono (by rfl))
  refine State.Within.trans ?_ ((State.addDiscard_within ..).mono (by rfl))
  exact State.Within.trans (by assumption) ((State.drainTime_within ..).mono (by rfl))

theorem State.drainOn_within (s : State) (p : Page) : s.Within 0x64ff83a8cb (s.drainOn p) := by
  unfold State.drainOn
  refine State.Within.ite ?_ ?_
  · exact (State.workDone_within ..).mono (by rfl)
  · refine State.Within.ite ?_ ?_
    · refine State.Within.ite ?_ ?_
      · exact (State.workDone_within ..).mono (by rfl)
      · exact (State.drainExpires_within ..).mono (by rfl)
    · exact State.Within.refl _

theorem State.workFinished_within (s : State) (p : Page) : s.Within 0x403e8320c9 (s.workFinished p) := by
  unfold State.workFinished
  split
  · exact State.Within.refl _
  · refine State.Within.ite ?_ ?_
    · exact (State.workDone_within ..).mono (by rfl)
    · exact State.Within.refl _

theorem State.tdmDrained_within (s : State) : s.Within 0x403e8320c9 s.tdmDrained := by
  unfold State.tdmDrained
  refine State.Within.each ?_ (fun u a => ?_)
  · exact State.Within.refl _
  · refine State.Within.ite ?_ ?_
    · exact (State.workDone_within ..).mono (by rfl)
    · exact State.Within.refl _

theorem State.drainLimit_within (s : State) (p : Page) : s.Within 0x64ff83a8cb (s.drainLimit p) := by
  unfold State.drainLimit
  refine State.Within.ite ?_ ?_
  · refine State.Within.ite ?_ ?_
    · exact (State.workDone_within ..).mono (by rfl)
    · exact (State.drainExpires_within ..).mono (by rfl)
  · exact State.Within.refl _

theorem State.fault_within (s : State) (p : Page) (code : Nat) (lost : Bool) (addr : Nat) : s.Within 0x64ff83a8cb (s.fault p code lost addr) := by
  unfold State.fault
  split
  rename_i x1 e2
  have h3 : s.Within 0x64ff83a8cb x1 := State.Within.of_pair e2 (by exact (State.discardWork_within ..).mono (by rfl))
  extract_lets y4
  have h5 : s.Within 0x64ff83a8cb y4 := by
    unfold y4
    refine State.Within.trans ?_ ((State.logErr_within ..).mono (by rfl))
    refine State.Within.trans ?_ ((State.addDiscard_within ..).mono (by rfl))
    exact State.Within.trans (by assumption) ((State.drainTime_within ..).mono (by rfl))
  clear_value y4
  refine State.Within.trans ?_ ((State.goSt_within ..).mono (by rfl))
  exact State.Within.trans (by assumption) ((State.setFld_within ..).mono (by rfl))

theorem State.resetWords_within (s : State) (p : Page) (kept : Nat → Nat) : s.Within 0x1 (s.resetWords p kept) := by
  unfold State.resetWords
  extract_lets y1 y2 y3
  refine State.Within.set_regs ?_ (by rfl)
  exact State.Within.refl _

theorem State.resetCounters_within (s : State) (p : Page) : s.Within 0x18 (s.resetCounters p) := by
  unfold State.resetCounters
  extract_lets y1
  refine State.Within.set_counters_snapshot ?_ (by rfl)
  exact State.Within.refl _

theorem State.resetTabs_within (s : State) (p : Page) : s.Within 0x6 (s.resetTabs p) := by
  unfold State.resetTabs
  extract_lets y1
  refine State.Within.set_tabs_tabsShadow ?_ (by rfl)
  exact State.Within.refl _

theorem State.resetEngine_within (s : State) (p : Page) : s.Within 0x43fdb3000f (s.resetEngine p) := by
  unfold State.resetEngine
  split
  · exact (State.mapEgress_within ..).mono (by rfl)
  · exact (State.mapDp_within ..).mono (by rfl)
  · exact (State.mapDp_within ..).mono (by rfl)
  · exact (State.mapDp_within ..).mono (by rfl)
  · exact (State.mapDp_within ..).mono (by rfl)
  · refine State.Within.set_txts ?_ (by rfl)
    exact State.Within.refl _
  · refine State.Within.set_frer ?_ (by rfl)
    exact State.Within.refl _
  · refine State.Within.set_sec ?_ (by rfl)
    exact State.Within.refl _
  · refine State.Within.set_clasp ?_ (by rfl)
    exact State.Within.refl _
  · refine State.Within.set_cips ?_ (by rfl)
    exact State.Within.refl _
  · refine State.Within.set_cans ?_ (by rfl)
    exact State.Within.refl _
  · refine State.Within.set_lins ?_ (by rfl)
    exact State.Within.refl _
  · refine State.Within.set_tdms ?_ (by rfl)
    exact State.Within.refl _
  · refine State.Within.set_tsi ?_ (by rfl)
    exact State.Within.refl _
  · refine State.Within.set_bridge ?_ (by rfl)
    exact State.Within.refl _
  · refine State.Within.trans ?_ ((State.mapDp_within ..).mono (by rfl))
    extract_lets y1
    have h2 : s.Within 0x43fdb3000f y1 := by
      unfold y1
      exact (State.hostCut_within ..).mono (by rfl)
    clear_value y1
    refine State.Within.set_ringPend ?_ (by rfl)
    assumption
  · exact (State.resetTabs_within ..).mono (by rfl)
  · exact (State.mapPower_within ..).mono (by rfl)
  · exact (State.mapPower_within ..).mono (by rfl)
  · exact State.Within.refl _

theorem State.setWin_within (s : State) (m : Mem) : s.Within 0x20 (s.setWin m) := by
  unfold State.setWin
  refine State.Within.set_win ?_ (by rfl)
  exact State.Within.refl _

theorem State.mixBank_within (s : State) (p : Page) (b : Nat) : s.Within 0x2000000020 (s.mixBank p b) := by
  unfold State.mixBank
  extract_lets y1 y2 y3
  refine State.Within.trans ?_ ((State.drew_within ..).mono (by rfl))
  exact (State.setWin_within ..).mono (by rfl)

theorem State.mixRegs_within (s : State) (p : Page) : s.Within 0x2000000001 (s.mixRegs p) := by
  unfold State.mixRegs
  refine State.Within.each ?_ (fun u a => ?_)
  · exact State.Within.refl _
  · split
    rename_i x1 e2
    have h3 : u.Within 0x2000000001 x1 := State.Within.of_pair e2 (by exact (State.draw_within ..).mono (by rfl))
    exact State.Within.trans (by assumption) ((State.setWord_within ..).mono (by rfl))

theorem State.stopClone_within (s : State) (p : Page) : s.Within 0x2000000021 (s.stopClone p) := by
  unfold State.stopClone
  extract_lets y1
  have h2 : s.Within 0x2000000021 y1 := by
    unfold y1
    exact (State.mixBank_within ..).mono (by rfl)
  clear_value y1
  split
  · refine State.Within.trans ?_ ((State.mixRegs_within ..).mono (by rfl))
    exact State.Within.trans (by assumption) ((State.mixRegs_within ..).mono (by rfl))
  · assumption

theorem State.poolReset_within (s : State) (p : Page) (was : Nat) : s.Within 0x1 (s.poolReset p was) := by
  unfold State.poolReset
  extract_lets y1
  have h2 : s.Within 0x1 y1 := by
    unfold y1
    split
    · refine State.Within.ite ?_ ?_
      · exact (State.setHeadroom_within ..).mono (by rfl)
      · exact State.Within.refl _
    · exact (State.setHeadroom_within ..).mono (by rfl)
    · exact State.Within.refl _
  clear_value y1
  split
  · exact State.Within.trans (by assumption) ((State.setFld_within ..).mono (by rfl))
  · exact State.Within.trans (by assumption) ((State.setFld_within ..).mono (by rfl))
  · exact State.Within.trans (by assumption) ((State.setFld_within ..).mono (by rfl))
  · assumption

theorem State.blkReset_within (s : State) (p : Page) : s.Within 0x63ffb3e8ff (s.blkReset p) := by
  unfold State.blkReset
  extract_lets y1 y2 y3 y4 y5 y6 y7 y8
  have h9 : s.Within 0x63ffb3e8ff y3 := by
    unfold y3
    refine State.Within.ite ?_ ?_
    · exact (State.stopClone_within ..).mono (by rfl)
    · exact State.Within.refl _
  clear_value y3
  have h10 : s.Within 0x63ffb3e8ff y4 := by
    unfold y4
    split
    · exact State.Within.trans (by assumption) ((State.pcieDown_within ..).mono (by rfl))
    · exact State.Within.trans (by assumption) ((State.lanesReset_within ..).mono (by rfl))
    · assumption
  clear_value y4
  have h11 : s.Within 0x63ffb3e8ff y5 := by
    unfold y5
    refine State.Within.trans ?_ ((State.goSt_within ..).mono (by rfl))
    exact State.Within.trans (by assumption) ((State.drainTime_within ..).mono (by rfl))
  clear_value y5
  have h12 : s.Within 0x63ffb3e8ff y6 := by
    unfold y6
    refine State.Within.trans ?_ ((State.poolReset_within ..).mono (by rfl))
    refine State.Within.trans ?_ ((State.resetWords_within ..).mono (by rfl))
    refine State.Within.trans ?_ ((State.resetCounters_within ..).mono (by rfl))
    exact State.Within.trans (by assumption) ((State.resetEngine_within ..).mono (by rfl))
  clear_value y6
  have h13 : s.Within 0x63ffb3e8ff y7 := by
    unfold y7
    refine State.Within.trans ?_ ((State.planDone_within ..).mono (by rfl))
    refine State.Within.set_applying_plan ?_ (by rfl)
    assumption
  clear_value y7
  have h14 : s.Within 0x63ffb3e8ff y8 := by
    unfold y8
    refine State.Within.ite ?_ ?_
    · exact State.Within.trans (by assumption) ((State.setPending_within ..).mono (by rfl))
    · assumption
  clear_value y8
  refine State.Within.ite ?_ ?_
  · assumption
  · exact State.Within.trans (by assumption) ((State.raise_within ..).mono (by rfl))

theorem State.ctrlApply_within (s : State) (p : Page) (en drain freeze : Bool) : s.Within 0x64ff83a8cb (s.ctrlApply p en drain freeze) := by
  unfold State.ctrlApply
  extract_lets y1 y2 y3 y4 y5 y6 y7
  have h8 : s.Within 0x64ff83a8cb y7 := by
    unfold y7
    refine State.Within.trans ?_ ((State.setFld_within ..).mono (by rfl))
    refine State.Within.trans ?_ ((State.setFld_within ..).mono (by rfl))
    exact (State.setFld_within ..).mono (by rfl)
  clear_value y7
  split
  · refine State.Within.ite ?_ ?_
    · refine State.Within.ite ?_ ?_
      · exact State.Within.trans (by assumption) ((State.goQuiet_within ..).mono (by rfl))
      · exact State.Within.trans (by assumption) ((State.goSt_within ..).mono (by rfl))
    · assumption
  · refine State.Within.ite ?_ ?_
    · assumption
    · refine State.Within.ite ?_ ?_
      · refine State.Within.trans ?_ ((State.drainOn_within ..).mono (by rfl))
        refine State.Within.trans ?_ ((State.goSt_within ..).mono (by rfl))
        exact State.Within.trans (by assumption) ((State.drainTime_within ..).mono (by rfl))
      · refine State.Within.ite ?_ ?_
        · refine State.Within.trans ?_ ((State.drainOn_within ..).mono (by rfl))
          exact State.Within.trans (by assumption) ((State.goSt_within ..).mono (by rfl))
        · assumption
  · refine State.Within.ite ?_ ?_
    · assumption
    · refine State.Within.ite ?_ ?_
      · refine State.Within.trans ?_ ((State.drainOn_within ..).mono (by rfl))
        exact State.Within.trans (by assumption) ((State.drainTime_within ..).mono (by rfl))
      · refine State.Within.ite ?_ ?_
        · exact State.Within.trans (by assumption) ((State.goSt_within ..).mono (by rfl))
        · assumption
  · refine State.Within.ite ?_ ?_
    · exact State.Within.trans (by assumption) ((State.goSt_within ..).mono (by rfl))
    · refine State.Within.ite ?_ ?_
      · exact State.Within.trans (by assumption) ((State.goSt_within ..).mono (by rfl))
      · refine State.Within.ite ?_ ?_
        · exact State.Within.trans (by assumption) ((State.goSt_within ..).mono (by rfl))
        · assumption
  · refine State.Within.ite ?_ ?_
    · exact State.Within.trans (by assumption) ((State.goSt_within ..).mono (by rfl))
    · assumption
  · assumption

theorem State.ctrlWrite_within (s : State) (src : Src) (p : Page) (v : Nat) : s.Within 0x67ffb3e8ff (s.ctrlWrite src p v) := by
  unfold State.ctrlWrite
  refine State.Within.ite ?_ ?_
  · refine State.Within.ite ?_ ?_
    · exact (State.refuse_within ..).mono (by rfl)
    · exact (State.blkReset_within ..).mono (by rfl)
  · refine State.Within.ite ?_ ?_
    · exact (State.refuse_within ..).mono (by rfl)
    · exact (State.ctrlApply_within ..).mono (by rfl)

theorem State.ctrlBit_within (s : State) (src : Src) (p : Page) (f : Fld) (v : Bool) : s.Within 0x67ffb3e8ff (s.ctrlBit src p f v) := by
  unfold State.ctrlBit
  refine (State.guard_within _ _ _ _ _ (fun u => ?_) (by rfl))
  exact (State.ctrlWrite_within ..).mono (by rfl)

/-! ## Machine/Tables.lean -/

theorem State.tabAdvance_within (s : State) (p : Page) : s.Within 0x1 (s.tabAdvance p) := by
  unfold State.tabAdvance
  split
  · exact State.Within.refl _
  · refine State.Within.ite ?_ ?_
    · split
      extract_lets y1
      refine State.Within.ite ?_ ?_
      · refine State.Within.trans ?_ ((State.setFld_within ..).mono (by rfl))
        exact (State.setFld_within ..).mono (by rfl)
      · exact (State.setFld_within ..).mono (by rfl)
    · exact State.Within.refl _

theorem State.tabRead_within (s : State) (p : Page) (shadow : Bool) : s.Within 0x1 (s.tabRead p shadow).2 := by
  unfold State.tabRead
  split
  dsimp only
  exact (State.tabAdvance_within ..).mono (by rfl)

theorem State.tabCorrected_within (s : State) (p : Page) : s.Within 0x8 (s.tabCorrected p) := by
  unfold State.tabCorrected
  split
  · exact (State.bump_within ..).mono (by rfl)
  · exact State.Within.refl _

theorem State.tabReadEcc_within (s : State) (p : Page) (shadow : Bool) (ecc : EccResult) : s.Within 0x2000000009 (s.tabReadEcc p shadow ecc).2 := by
  unfold State.tabReadEcc
  split
  · refine State.Within.trans ?_ ((State.tabRead_within ..).mono (by rfl))
    exact (State.tabCorrected_within ..).mono (by rfl)
  · refine State.Within.trans ?_ ((State.draw_within ..).mono (by rfl))
    exact (State.tabRead_within ..).mono (by rfl)
  · exact (State.tabRead_within ..).mono (by rfl)

theorem State.directPut_within (s : State) (src : Src) (p : Page) (off t e w v : Nat) : s.Within 0x400083000b (s.directPut src p off t e w v) := by
  unfold State.directPut
  extract_lets y1 y2 y3 y4 y5 y6 y7 y8 y9
  split
  · refine State.Within.ite ?_ ?_
    · exact (State.refuse_within ..).mono (by rfl)
    · dsimp only [y3]
      exact (State.setTab_within ..).mono (by rfl)
  · exact (State.saWrite_within ..).mono (by rfl)
  · exact (State.saWrite_within ..).mono (by rfl)
  · refine State.Within.ite ?_ ?_
    · exact (State.refuse_within ..).mono (by rfl)
    · refine State.Within.trans ?_ ((State.ringEnChange_within ..).mono (by rfl))
      dsimp only [y3]
      exact (State.setTab_within ..).mono (by rfl)
  · refine State.Within.ite ?_ ?_
    · exact (State.refuse_within ..).mono (by rfl)
    · refine State.Within.trans ?_ ((State.dmaEn_within ..).mono (by rfl))
      dsimp only [y3]
      exact (State.setTab_within ..).mono (by rfl)
  · dsimp only [y3]
    exact (State.setTab_within ..).mono (by rfl)

theorem State.tabPut_within (s : State) (src : Src) (p : Page) (shadow : Bool) (v : Nat) : s.Within 0x400083000f (s.tabPut src p shadow v) := by
  unfold State.tabPut
  split
  extract_lets y1
  split
  · exact (State.refuse_within ..).mono (by rfl)
  · split
    · refine State.Within.ite ?_ ?_
      · exact (State.refuse_within ..).mono (by rfl)
      · refine State.Within.ite ?_ ?_
        · exact (State.refuse_within ..).mono (by rfl)
        · refine State.Within.trans ?_ ((State.setPending_within ..).mono (by rfl))
          exact (State.setTabSh_within ..).mono (by rfl)
    · exact (State.refuse_within ..).mono (by rfl)
    · refine State.Within.ite ?_ ?_
      · exact (State.refuse_within ..).mono (by rfl)
      · exact (State.directPut_within ..).mono (by rfl)
    · refine State.Within.ite ?_ ?_
      · exact (State.refuse_within ..).mono (by rfl)
      · refine State.Within.ite ?_ ?_
        · exact (State.refuse_within ..).mono (by rfl)
        · exact State.Within.refl _
    · refine State.Within.ite ?_ ?_
      · exact (State.refuse_within ..).mono (by rfl)
      · refine State.Within.ite ?_ ?_
        · exact (State.refuse_within ..).mono (by rfl)
        · exact State.Within.refl _

theorem State.tabWrite_within (s : State) (src : Src) (p : Page) (shadow : Bool) (v : Nat) : s.Within 0x400083000f (s.tabWrite src p shadow v) := by
  unfold State.tabWrite
  refine State.Within.trans ?_ ((State.tabAdvance_within ..).mono (by rfl))
  exact (State.tabPut_within ..).mono (by rfl)

theorem State.shadowPut_within (s : State) (src : Src) (p : Page) (off v : Nat) : s.Within 0x400083000f (s.shadowPut src p off v) := by
  unfold State.shadowPut
  refine State.Within.ite ?_ ?_
  · exact (State.tabWrite_within ..).mono (by rfl)
  · extract_lets y1 y2
    refine State.Within.ite ?_ ?_
    · exact State.Within.refl _
    · refine State.Within.ite ?_ ?_
      · split
        · exact (State.refuse_within ..).mono (by rfl)
        · refine State.Within.trans ?_ ((State.setPending_within ..).mono (by rfl))
          dsimp only [y2]
          refine State.Within.trans ?_ ((State.setPending_within ..).mono (by rfl))
          exact (State.setWord_within ..).mono (by rfl)
      · refine State.Within.ite ?_ ?_
        · exact (State.refuse_within ..).mono (by rfl)
        · dsimp only [y2]
          refine State.Within.trans ?_ ((State.setPending_within ..).mono (by rfl))
          exact (State.setWord_within ..).mono (by rfl)

/-! ## Machine/Timegate.lean -/

theorem State.mapGate_within (s : State) (p : Nat) (f : Gate → Gate) : s.Within 0x10000 (s.mapGate p f) := by
  unfold State.mapGate
  exact (State.mapDp_within ..).mono (by rfl)

theorem State.gateTake_within (s : State) (p : Nat) : s.Within 0x400083800b (s.gateTake p) := by
  unfold State.gateTake
  extract_lets y1 y2 y3 y4 y5
  have h6 : s.Within 0x400083800b y2 := by
    unfold y2
    exact (State.poolLower_within ..).mono (by rfl)
  clear_value y2
  have h7 : s.Within 0x400083800b y3 := by
    unfold y3
    split
    · split
      · exact State.Within.trans (by assumption) ((State.bump_within ..).mono (by rfl))
      · assumption
    · assumption
  clear_value y3
  have h8 : s.Within 0x400083800b y4 := by
    unfold y4
    refine State.Within.trans ?_ ((State.setFld_within ..).mono (by rfl))
    exact State.Within.trans (by assumption) ((State.applyRegs_within ..).mono (by rfl))
  clear_value y4
  have h9 : s.Within 0x400083800b y5 := by
    unfold y5
    refine State.Within.trans ?_ ((State.setFld_within ..).mono (by rfl))
    exact State.Within.trans (by assumption) ((State.mapGate_within ..).mono (by rfl))
  clear_value y5
  refine State.Within.trans ?_ ((State.arrive_within ..).mono (by rfl))
  refine State.Within.trans ?_ ((State.raise_within ..).mono (by rfl))
  exact State.Within.trans (by assumption) ((State.bump_within ..).mono (by rfl))

theorem State.gateDue_within (s : State) (p : Nat) : s.Within 0x400083800b (s.gateDue p) := by
  unfold State.gateDue
  split
  · refine State.Within.ite ?_ ?_
    · exact (State.gateTake_within ..).mono (by rfl)
    · exact State.Within.refl _
  · exact State.Within.refl _

theorem State.gateEntry_within (s : State) (p : Nat) : s.Within 0x10008 (s.gateEntry p) := by
  unfold State.gateEntry
  extract_lets y1 y2 y3
  refine State.Within.ite ?_ ?_
  · refine State.Within.trans ?_ ((State.bump_within ..).mono (by rfl))
    exact (State.mapGate_within ..).mono (by rfl)
  · exact State.Within.refl _

theorem State.gatePut_within (s : State) (src : Src) (a v : Nat) : s.Within 0x4000830029 (s.gatePut src a v) := by
  unfold State.gatePut
  extract_lets y1 y2 y3 y4 y5
  have h6 : s.Within 0x4000830029 y5 := by
    unfold y5
    refine State.Within.set_win ?_ (by rfl)
    exact State.Within.refl _
  clear_value y5
  refine State.Within.ite ?_ ?_
  · dsimp only [y3]
    exact (State.logErr_within ..).mono (by rfl)
  · refine State.Within.ite ?_ ?_
    · dsimp only [y3]
      exact (State.logErr_within ..).mono (by rfl)
    · refine State.Within.ite ?_ ?_
      · dsimp only [y3]
        exact (State.logErr_within ..).mono (by rfl)
      · refine State.Within.trans ?_ ((State.setPending_within ..).mono (by rfl))
        exact State.Within.trans (by assumption) ((State.mapGate_within ..).mono (by rfl))

theorem State.gateWrite_within (s : State) (src : Src) (a v : Nat) : s.Within 0x40028300a9 (s.gateWrite src a v) := by
  unfold State.gateWrite
  extract_lets y1
  refine (State.arrives_within _ _ _ (fun u => ?_) (by rfl))
  refine State.Within.ite ?_ ?_
  · exact (State.logErr_within ..).mono (by rfl)
  · refine State.Within.ite ?_ ?_
    · exact (State.gatePut_within ..).mono (by rfl)
    · exact (State.notOwner_within ..).mono (by rfl)

theorem State.gateCloned_within (s : State) (p : Nat) : s.Within 0x4000030029 (s.gateCloned p) := by
  unfold State.gateCloned
  extract_lets y1 y2
  have h3 : s.Within 0x4000030029 y2 := by
    unfold y2
    exact (State.setWin_within ..).mono (by rfl)
  clear_value y2
  refine State.Within.ite ?_ ?_
  · refine State.Within.trans ?_ ((State.raise_within ..).mono (by rfl))
    refine State.Within.trans ?_ ((State.setFld_within ..).mono (by rfl))
    exact State.Within.trans (by assumption) ((State.mapGate_within ..).mono (by rfl))
  · exact State.Within.refl _

theorem State.gateScrub_within (s : State) (p b k bad : Nat) : s.Within 0x64ff83a8eb (s.gateScrub p b k bad) := by
  unfold State.gateScrub
  extract_lets y1 y2
  refine State.Within.ite ?_ ?_
  · exact State.Within.refl _
  · refine State.Within.ite ?_ ?_
    · refine State.Within.trans ?_ ((State.raise_within ..).mono (by rfl))
      exact (State.bump_within ..).mono (by rfl)
    · split
      rename_i x3 e4
      have h5 : s.Within 0x64ff83a8eb x3 := State.Within.of_pair e4 (by exact (State.drawBytes_within ..).mono (by rfl))
      extract_lets y6 y7
      have h8 : s.Within 0x64ff83a8eb y7 := by
        unfold y7
        refine State.Within.set_win ?_ (by rfl)
        assumption
      clear_value y7
      refine State.Within.ite ?_ ?_
      · exact State.Within.trans (by assumption) ((State.fault_within ..).mono (by rfl))
      · refine State.Within.trans ?_ ((State.mapGate_within ..).mono (by rfl))
        exact State.Within.trans (by assumption) ((State.logErr_within ..).mono (by rfl))

theorem State.putAdj_within (s : State) (d : Nat) (v : Int) : s.Within 0x4000020009 (s.putAdj d v) := by
  unfold State.putAdj
  extract_lets y1 y2 y3
  have h4 : s.Within 0x4000020009 y3 := by
    unfold y3
    exact (State.setFld_within ..).mono (by rfl)
  clear_value y3
  refine State.Within.ite ?_ ?_
  · assumption
  · refine State.Within.trans ?_ ((State.raise_within ..).mono (by rfl))
    exact State.Within.trans (by assumption) ((State.bump_within ..).mono (by rfl))

theorem State.adjPut_within (s : State) (src : Src) (d v : Nat) : s.Within 0x4000820009 (s.adjPut src d v) := by
  unfold State.adjPut
  refine State.Within.ite ?_ ?_
  · exact (State.putAdj_within ..).mono (by rfl)
  · exact (State.refuse_within ..).mono (by rfl)

theorem State.slewPut_within (s : State) (v : Nat) : s.Within 0x4000020009 (s.slewPut v) := by
  unfold State.slewPut
  extract_lets y1 y2 y3
  have h4 : s.Within 0x4000020009 y1 := by
    unfold y1
    exact (State.setFld_within ..).mono (by rfl)
  clear_value y1
  have h5 : s.Within 0x4000020009 y3 := by
    unfold y3
    exact State.Within.trans (by assumption) ((State.setFld_within ..).mono (by rfl))
  clear_value y3
  refine State.Within.each ?_ (fun u a => ?_)
  · assumption
  · exact (State.putAdj_within ..).mono (by rfl)

theorem State.gateStep_within (s : State) (p : Nat) : s.Within 0x400083800b (s.gateStep p) := by
  unfold State.gateStep
  extract_lets y1 y2 y3 y4 y5 y6
  have h7 : s.Within 0x400083800b y2 := by
    unfold y2
    refine State.Within.trans ?_ ((State.raise_within ..).mono (by rfl))
    exact (State.bump_within ..).mono (by rfl)
  clear_value y2
  have h8 : s.Within 0x400083800b y3 := by
    unfold y3
    refine State.Within.ite ?_ ?_
    · refine State.Within.trans ?_ ((State.raise_within ..).mono (by rfl))
      exact State.Within.trans (by assumption) ((State.bump_within ..).mono (by rfl))
    · assumption
  clear_value y3
  have h9 : s.Within 0x400083800b y6 := by
    unfold y6
    exact State.Within.trans (by assumption) ((State.mapGate_within ..).mono (by rfl))
  clear_value y6
  exact State.Within.trans (by assumption) ((State.gateDue_within ..).mono (by rfl))

theorem State.domStep_within (s : State) (d ns frac : Nat) : s.Within 0x40008b800b (s.domStep d ns frac) := by
  unfold State.domStep
  extract_lets y1 y2 y3 y4
  have h5 : s.Within 0x40008b800b y1 := by
    unfold y1
    refine State.Within.set_dom ?_ (by rfl)
    exact State.Within.refl _
  clear_value y1
  have h6 : s.Within 0x40008b800b y3 := by
    unfold y3
    refine State.Within.trans ?_ ((State.raise_within ..).mono (by rfl))
    refine State.Within.trans ?_ ((State.bump_within ..).mono (by rfl))
    exact State.Within.trans (by assumption) ((State.setFld_within ..).mono (by rfl))
  clear_value y3
  have h7 : s.Within 0x40008b800b y4 := by
    unfold y4
    refine State.Within.ite ?_ ?_
    · exact State.Within.trans (by assumption) ((State.mapClasp_within ..).mono (by rfl))
    · assumption
  clear_value y4
  refine State.Within.ite ?_ ?_
  · refine State.Within.each ?_ (fun u a => ?_)
    · assumption
    · exact (State.gateStep_within ..).mono (by rfl)
  · assumption

theorem State.domAsk_within (s : State) (src : Src) (d : Nat) (set : Bool) : s.Within 0x40008b800b (s.domAsk src d set) := by
  unfold State.domAsk
  extract_lets y1 y2 y3
  refine State.Within.ite ?_ ?_
  · exact (State.refuse_within ..).mono (by rfl)
  · refine State.Within.ite ?_ ?_
    · exact (State.refuse_within ..).mono (by rfl)
    · refine State.Within.ite ?_ ?_
      · refine State.Within.ite ?_ ?_
        · exact (State.refuse_within ..).mono (by rfl)
        · exact (State.domStep_within ..).mono (by rfl)
      · exact (State.domStep_within ..).mono (by rfl)

theorem State.tsnap_within (s : State) : s.Within 0x1 s.tsnap := by
  unfold State.tsnap
  extract_lets y1
  have h2 : s.Within 0x1 y1 := by
    unfold y1
    refine State.Within.trans ?_ ((State.setFld_within ..).mono (by rfl))
    exact (State.setFld_within ..).mono (by rfl)
  clear_value y1
  refine State.Within.each ?_ (fun u a => ?_)
  · assumption
  · extract_lets y3
    refine State.Within.trans ?_ ((State.setFld_within ..).mono (by rfl))
    refine State.Within.trans ?_ ((State.setFld_within ..).mono (by rfl))
    refine State.Within.trans ?_ ((State.setFld_within ..).mono (by rfl))
    exact (State.setFld_within ..).mono (by rfl)

theorem State.txtsPop_within (s : State) : s.Within 0x100000 s.txtsPop := by
  unfold State.txtsPop
  extract_lets y1
  refine State.Within.ite ?_ ?_
  · exact State.Within.refl _
  · refine State.Within.set_txts ?_ (by rfl)
    exact State.Within.refl _

/-! ## Machine/Assayer.lean -/

theorem State.wouldBe_within (s : State) (inc : List Page) : s.Within 0x3 (s.wouldBe inc) := by
  unfold State.wouldBe
  extract_lets y1
  have h2 : s.Within 0x3 y1 := by
    unfold y1
    refine State.Within.each ?_ (fun u a => ?_)
    · exact State.Within.refl _
    · split
      · exact (State.flipBank_within ..).mono (by rfl)
      · refine State.Within.trans ?_ ((State.setFld_within ..).mono (by rfl))
        exact (State.applyRegs_within ..).mono (by rfl)
      · refine State.Within.trans ?_ ((State.applyTabs_within ..).mono (by rfl))
        exact (State.applyRegs_within ..).mono (by rfl)
  clear_value y1
  refine State.Within.each ?_ (fun u a => ?_)
  · assumption
  · exact (State.setHeadroom_within ..).mono (by rfl)

theorem State.refuseWord_within (s : State) (f : Fld) (v : Nat) : s.Within 0x2000000001 (s.refuseWord f v) := by
  unfold State.refuseWord
  refine State.Within.ite ?_ ?_
  · exact (State.setFld_within ..).mono (by rfl)
  · split
    rename_i x1 e2
    have h3 : s.Within 0x2000000001 x1 := State.Within.of_pair e2 (by exact (State.draw_within ..).mono (by rfl))
    exact State.Within.trans (by assumption) ((State.setFld_within ..).mono (by rfl))

theorem State.refuseRegs_within (s : State) (r : Refuse) : s.Within 0x2000000001 (s.refuseRegs r) := by
  unfold State.refuseRegs
  split
  extract_lets y1 y2 y3
  have h4 : s.Within 0x2000000001 y2 := by
    unfold y2
    refine State.Within.trans ?_ ((State.setWord_within ..).mono (by rfl))
    exact (State.setFld_within ..).mono (by rfl)
  clear_value y2
  have h5 : s.Within 0x2000000001 y3 := by
    unfold y3
    refine State.Within.trans ?_ ((State.refuseWord_within ..).mono (by rfl))
    exact State.Within.trans (by assumption) ((State.refuseWord_within ..).mono (by rfl))
  clear_value y3
  refine State.Within.trans ?_ ((State.setFld_within ..).mono (by rfl))
  exact State.Within.trans (by assumption) ((State.setFld_within ..).mono (by rfl))

theorem State.reportRefusal_within (s : State) (p : Page) (r : Refuse) : s.Within 0x4000020009 (s.reportRefusal p r) := by
  unfold State.reportRefusal
  extract_lets y1
  have h2 : s.Within 0x4000020009 y1 := by
    unfold y1
    exact (State.setStatus_within ..).mono (by rfl)
  clear_value y1
  split
  · exact State.Within.trans (by assumption) ((State.refusalAddr_within ..).mono (by rfl))
  · assumption

theorem State.refusePlan_within (s : State) (c : Plan) (r : Refuse) : s.Within 0x6000828009 (s.refusePlan c r) := by
  unfold State.refusePlan
  extract_lets y1
  have h2 : s.Within 0x6000828009 y1 := by
    unfold y1
    refine State.Within.trans ?_ ((State.refuseRegs_within ..).mono (by rfl))
    refine State.Within.each ?_ (fun u a => ?_)
    · refine State.Within.set_plan ?_ (by rfl)
      exact State.Within.refl _
    · exact (State.reportRefusal_within ..).mono (by rfl)
  clear_value y1
  refine State.Within.ite ?_ ?_
  · refine State.Within.trans ?_ ((State.raise_within ..).mono (by rfl))
    exact State.Within.trans (by assumption) ((State.logErr_within ..).mono (by rfl))
  · refine State.Within.trans ?_ ((State.raise_within ..).mono (by rfl))
    exact State.Within.trans (by assumption) ((State.bump_within ..).mono (by rfl))

theorem State.gatePlan_within (s : State) (p : Nat) : s.Within 0x400083800b (s.gatePlan p) := by
  unfold State.gatePlan
  extract_lets y1 y2 y3 y4 y5
  have h6 : s.Within 0x400083800b y5 := by
    unfold y5
    refine State.Within.trans ?_ ((State.setFld_within ..).mono (by rfl))
    refine State.Within.trans ?_ ((State.setFld_within ..).mono (by rfl))
    exact (State.setFld_within ..).mono (by rfl)
  clear_value y5
  refine State.Within.ite ?_ ?_
  · refine State.Within.trans ?_ ((State.setFld_within ..).mono (by rfl))
    exact State.Within.trans (by assumption) ((State.mapGate_within ..).mono (by rfl))
  · exact State.Within.trans (by assumption) ((State.gateTake_within ..).mono (by rfl))

theorem State.planStart_within (s : State) (gen : Nat) (p : Page) : s.Within 0x6060a3c00b (s.planStart gen p) := by
  unfold State.planStart
  split
  · exact (State.bankSwap_within ..).mono (by rfl)
  · exact (State.gatePlan_within ..).mono (by rfl)
  · exact State.Within.refl _
  · refine State.Within.ite ?_ ?_
    · refine State.Within.trans ?_ ((State.arrive_within ..).mono (by rfl))
      exact (State.applyPage_within ..).mono (by rfl)
    · refine State.Within.ite ?_ ?_
      · exact (State.applyMoves_within ..).mono (by rfl)
      · exact State.Within.refl _

theorem State.passPlan_within (s : State) (c : Plan) (digest paths streams : Nat) (table : List (Nat × Word)) :
    s.Within 0x6060a3c00b (s.passPlan c digest paths streams table) := by
  unfold State.passPlan
  extract_lets y1 y2 y3 y4
  have h5 : s.Within 0x6060a3c00b y2 := by
    unfold y2
    refine State.Within.set_plan ?_ (by rfl)
    exact State.Within.refl _
  clear_value y2
  have h6 : s.Within 0x6060a3c00b y3 := by
    unfold y3
    exact State.Within.trans (by assumption) ((State.bump_within ..).mono (by rfl))
  clear_value y3
  have h7 : s.Within 0x6060a3c00b y4 := by
    unfold y4
    refine State.Within.ite ?_ ?_
    · exact State.Within.trans (by assumption) ((State.poolLower_within ..).mono (by rfl))
    · assumption
  clear_value y4
  refine State.Within.trans ?_ ((State.planDone_within ..).mono (by rfl))
  refine State.Within.each ?_ (fun u a => ?_)
  · assumption
  · exact (State.planStart_within ..).mono (by rfl)

theorem State.passVerify_within (s : State) (c : Plan) (digest : Nat) : s.Within 0x6000828009 (s.passVerify c digest) := by
  unfold State.passVerify
  extract_lets y1
  refine State.Within.ite ?_ ?_
  · refine State.Within.trans ?_ ((State.setStatus_within ..).mono (by rfl))
    refine State.Within.set_plan ?_ (by rfl)
    exact State.Within.refl _
  · exact (State.refusePlan_within ..).mono (by rfl)

theorem State.verdict_within (s : State) (bad : Option Nat) (corr : Nat) : s.Within 0x6060a3c00b (s.verdict bad corr) := by
  unfold State.verdict
  split
  · exact State.Within.refl _
  · refine State.Within.ite ?_ ?_
    · exact State.Within.refl _
    · extract_lets y1 y2 y3 y4
      have h5 : s.Within 0x6060a3c00b y2 := by
        unfold y2
        refine State.Within.trans ?_ ((State.bump_within ..).mono (by rfl))
        refine State.Within.trans ?_ ((State.setFld_within ..).mono (by rfl))
        exact (State.drew_within ..).mono (by rfl)
      clear_value y2
      have h6 : s.Within 0x6060a3c00b y3 := by
        unfold y3
        exact State.Within.trans (by assumption) ((State.bump_within ..).mono (by rfl))
      clear_value y3
      have h7 : s.Within 0x6060a3c00b y4 := by
        unfold y4
        clear_value y4
        clear_value y1
        split
        · exact State.Within.trans (by assumption) ((State.refusePlan_within ..).mono (by rfl))
        · refine State.Within.ite ?_ ?_
          · exact State.Within.trans (by assumption) ((State.passVerify_within ..).mono (by rfl))
          · exact State.Within.trans (by assumption) ((State.passPlan_within ..).mono (by rfl))
      clear_value y4
      refine State.Within.ite ?_ ?_
      · refine State.Within.trans ?_ ((State.raise_within ..).mono (by rfl))
        exact State.Within.trans (by assumption) ((State.bump_within ..).mono (by rfl))
      · assumption

theorem State.requestBusy_within (s : State) (src : Src) (p : Page) : s.Within 0x4000820009 (s.requestBusy src p) := by
  unfold State.requestBusy
  refine State.Within.trans ?_ ((State.raise_within ..).mono (by rfl))
  exact (State.refuse_within ..).mono (by rfl)

theorem State.requestBarred_within (s : State) (src : Src) (p : Page) (included : Bool) : s.Within 0x4000820009 (s.requestBarred src p included) := by
  unfold State.requestBarred
  extract_lets y1
  have h2 : s.Within 0x4000820009 y1 := by
    unfold y1
    refine State.Within.ite ?_ ?_
    · exact State.Within.refl _
    · refine State.Within.trans ?_ ((State.setFld_within ..).mono (by rfl))
      exact (State.setFld_within ..).mono (by rfl)
  clear_value y1
  exact State.Within.trans (by assumption) ((State.requestBusy_within ..).mono (by rfl))

theorem State.planRequest_within (s : State) (src : Src) (p : Page) : s.Within 0x6000828009 (s.planRequest src p) := by
  unfold State.planRequest
  extract_lets y1 y2 y3 y4
  have h5 : s.Within 0x6000828009 y3 := by
    unfold y3
    refine State.Within.each ?_ (fun u a => ?_)
    · exact State.Within.refl _
    · exact (State.setStatus_within ..).mono (by rfl)
  clear_value y3
  have h6 : s.Within 0x6000828009 y4 := by
    unfold y4
    refine State.Within.set_plan ?_ (by rfl)
    assumption
  clear_value y4
  refine State.Within.ite ?_ ?_
  · refine State.Within.ite ?_ ?_
    · exact State.Within.trans (by assumption) ((State.refusePlan_within ..).mono (by rfl))
    · split
      · exact State.Within.trans (by assumption) ((State.refusePlan_within ..).mono (by rfl))
      · assumption
  · assumption

theorem State.ownRequest_within (s : State) (src : Src) (p : Page) : s.Within 0x6060a3400b (s.ownRequest src p) := by
  unfold State.ownRequest
  refine State.Within.ite ?_ ?_
  · exact (State.requestBusy_within ..).mono (by rfl)
  · extract_lets y1 y2 y3 y4
    have h5 : s.Within 0x6060a3400b y2 := by
      unfold y2
      exact (State.setStatus_within ..).mono (by rfl)
    clear_value y2
    have h6 : s.Within 0x6060a3400b y3 := by
      unfold y3
      refine State.Within.set_applying ?_ (by rfl)
      assumption
    clear_value y1
    split
    · exact State.Within.trans (by assumption) ((State.reportRefusal_within ..).mono (by rfl))
    · refine State.Within.ite ?_ ?_
      · refine State.Within.trans ?_ ((State.connSwap_within ..).mono (by rfl))
        exact State.Within.trans (by assumption) ((State.applyOwn_within ..).mono (by rfl))
      · refine State.Within.ite ?_ ?_
        · exact State.Within.trans (by assumption) ((State.applyOwn_within ..).mono (by rfl))
        · assumption

theorem State.request_within (s : State) (src : Src) (p : Page) : s.Within 0x6060a3c00b (s.request src p) := by
  unfold State.request
  extract_lets y1
  refine State.Within.ite ?_ ?_
  · exact (State.requestBarred_within ..).mono (by rfl)
  · refine State.Within.ite ?_ ?_
    · refine State.Within.ite ?_ ?_
      · exact (State.requestBarred_within ..).mono (by rfl)
      · exact (State.planRequest_within ..).mono (by rfl)
    · exact (State.ownRequest_within ..).mono (by rfl)

theorem State.keepView_within (s : State) (p : Page) : s.Within 0x400002000d (s.keepView p) := by
  unfold State.keepView
  refine State.Within.trans ?_ ((State.setStatus_within ..).mono (by rfl))
  refine State.Within.trans ?_ ((State.setFld_within ..).mono (by rfl))
  refine State.Within.trans ?_ ((State.keepTabs_within ..).mono (by rfl))
  exact (State.keepRegs_within ..).mono (by rfl)

theorem State.abandon_within (s : State) (src : Src) (p : Page) : s.Within 0x404082c00d (s.abandon src p) := by
  unfold State.abandon
  extract_lets y1 y2 y3
  have h4 : s.Within 0x404082c00d y1 := by
    unfold y1
    exact (State.refuse_within ..).mono (by rfl)
  clear_value y1
  have h5 : s.Within 0x404082c00d y2 := by
    unfold y2
    refine State.Within.trans ?_ ((State.setFld_within ..).mono (by rfl))
    exact (State.keepView_within ..).mono (by rfl)
  clear_value y2
  refine State.Within.ite ?_ ?_
  · assumption
  · refine State.Within.ite ?_ ?_
    · refine State.Within.ite ?_ ?_
      · refine State.Within.ite ?_ ?_
        · refine State.Within.trans ?_ ((State.bump_within ..).mono (by rfl))
          exact (State.stopCheck_within ..).mono (by rfl)
        · exact State.Within.refl _
      · refine State.Within.ite ?_ ?_
        · refine State.Within.trans ?_ ((State.setStatus_within ..).mono (by rfl))
          refine State.Within.set_applying ?_ (by rfl)
          exact State.Within.refl _
        · exact State.Within.refl _
    · split
      · refine State.Within.ite ?_ ?_
        · assumption
        · refine State.Within.ite ?_ ?_
          · exact (State.refuse_within ..).mono (by rfl)
          · exact (State.setFld_within ..).mono (by rfl)
      · split
        · exact (State.refuse_within ..).mono (by rfl)
        · exact (State.keepView_within ..).mono (by rfl)
      · refine State.Within.ite ?_ ?_
        · assumption
        · refine State.Within.trans ?_ ((State.setFld_within ..).mono (by rfl))
          exact (State.keepView_within ..).mono (by rfl)
      · refine State.Within.set_tsi ?_ (by rfl)
        assumption
      · exact (State.keepView_within ..).mono (by rfl)

theorem State.commitWrite_within (s : State) (src : Src) (p : Page) (v : Nat) : s.Within 0x6060a3c00f (s.commitWrite src p v) := by
  unfold State.commitWrite
  refine State.Within.ite ?_ ?_
  · exact (State.abandon_within ..).mono (by rfl)
  · refine State.Within.ite ?_ ?_
    · exact (State.request_within ..).mono (by rfl)
    · exact State.Within.refl _

/-! ## Machine/Banks.lean -/

theorem State.winWord_within (s : State) (a v m : Nat) : s.Within 0x20 (s.winWord a v m) := by
  unfold State.winWord
  exact (State.setWin_within ..).mono (by rfl)

theorem State.guardWin_within {m : Nat} (s : State) (src : Src) (p : Page) (a : Nat) (act : State → State)
    (h : ∀ u : State, u.Within m (act u)) (k : 0x4002820089 ||| m = m) : s.Within m (s.guardWin src p a act) :=
  State.arrives_within s src _ (fun u => State.Within.ite ((State.logErr_within ..).mono (covered k (by rfl)))
    (State.Within.ite (State.Within.ite (State.Within.refl u) (h u))
      ((State.notOwner_within ..).mono (covered k (by rfl))))) (covered k (by rfl))

theorem State.bankPut_within (s : State) (src : Src) (a v : Nat) : s.Within 0x4000820029 (s.bankPut src a v) := by
  unfold State.bankPut
  split
  · refine State.Within.ite ?_ ?_
    · exact (State.logErr_within ..).mono (by rfl)
    · split
      · exact (State.logErr_within ..).mono (by rfl)
      · refine State.Within.trans ?_ ((State.setPending_within ..).mono (by rfl))
        exact (State.winWord_within ..).mono (by rfl)
  · exact State.Within.refl _

theorem State.bankWrite_within (s : State) (src : Src) (a v : Nat) : s.Within 0x40028200a9 (s.bankWrite src a v) := by
  unfold State.bankWrite
  refine State.Within.ite ?_ ?_
  · refine (State.arrives_within _ _ _ (fun u => ?_) (by rfl))
    refine State.Within.ite ?_ ?_
    · exact (State.logErr_within ..).mono (by rfl)
    · refine State.Within.ite ?_ ?_
      · exact State.Within.refl _
      · exact (State.notOwner_within ..).mono (by rfl)
  · refine (State.guardWin_within _ _ _ _ _ (fun u => ?_) (by rfl))
    exact (State.bankPut_within ..).mono (by rfl)

theorem State.bankCloned_within (s : State) : s.Within 0x4000020029 s.bankCloned := by
  unfold State.bankCloned
  refine State.Within.ite ?_ ?_
  · extract_lets y1 y2
    have h3 : s.Within 0x4000020029 y1 := by
      unfold y1
      refine State.Within.trans ?_ ((State.keepRegs_within ..).mono (by rfl))
      refine State.Within.trans ?_ ((State.keepRegs_within ..).mono (by rfl))
      exact (State.setWin_within ..).mono (by rfl)
    clear_value y1
    have h4 : s.Within 0x4000020029 y2 := by
      unfold y2
      refine State.Within.trans ?_ ((State.setFld_within ..).mono (by rfl))
      refine State.Within.trans ?_ ((State.setFld_within ..).mono (by rfl))
      exact State.Within.trans (by assumption) ((State.setFld_within ..).mono (by rfl))
    clear_value y2
    refine State.Within.trans ?_ ((State.setStatus_within ..).mono (by rfl))
    exact State.Within.trans (by assumption) ((State.raise_within ..).mono (by rfl))
  · exact State.Within.refl _

theorem State.stage_within (s : State) (src : Src) (w : Nat) (v : Word) : s.Within 0x10000 (s.stage src w v) := by
  unfold State.stage
  exact (State.mapDp_within ..).mono (by rfl)

theorem State.stageClear_within (s : State) (src : Src) : s.Within 0x10000 (s.stageClear src) := by
  unfold State.stageClear
  refine State.Within.each ?_ (fun u a => ?_)
  · exact State.Within.refl _
  · exact (State.stage_within ..).mono (by rfl)

theorem State.fibPut_within (s : State) (src : Src) (a v : Nat) : s.Within 0x10020 (s.fibPut src a v) := by
  unfold State.fibPut
  refine State.Within.ite ?_ ?_
  · exact (State.winWord_within ..).mono (by rfl)
  · extract_lets y1 y2
    have h3 : s.Within 0x10020 y2 := by
      unfold y2
      refine State.Within.each ?_ (fun u a => ?_)
      · exact State.Within.refl _
      · exact (State.winWord_within ..).mono (by rfl)
    clear_value y2
    refine State.Within.ite ?_ ?_
    · exact (State.stage_within ..).mono (by rfl)
    · refine State.Within.trans ?_ ((State.stageClear_within ..).mono (by rfl))
      exact State.Within.trans (by assumption) ((State.winWord_within ..).mono (by rfl))

theorem State.fibWrite_within (s : State) (src : Src) (a v : Nat) : s.Within 0x40028300a9 (s.fibWrite src a v) := by
  unfold State.fibWrite
  refine (State.guardWin_within _ _ _ _ _ (fun u => ?_) (by rfl))
  exact (State.fibPut_within ..).mono (by rfl)

theorem State.tsiWrite_within (s : State) (src : Src) (a v : Nat) : s.Within 0x40428200a9 (s.tsiWrite src a v) := by
  unfold State.tsiWrite
  refine (State.guardWin_within _ _ _ _ _ (fun u => ?_) (by rfl))
  exact (State.connWrite_within ..).mono (by rfl)

theorem State.tsiCloned_within (s : State) : s.Within 0x4000020029 s.tsiCloned := by
  unfold State.tsiCloned
  refine State.Within.ite ?_ ?_
  · refine State.Within.trans ?_ ((State.raise_within ..).mono (by rfl))
    refine State.Within.trans ?_ ((State.setFld_within ..).mono (by rfl))
    exact (State.setWin_within ..).mono (by rfl)
  · exact State.Within.refl _

theorem State.reseed_within (s : State) (bits : List Bool) : s.Within 0x4100020009 (s.reseed bits) := by
  unfold State.reseed
  split
  extract_lets y1 y2 y3 y4 y5 y6
  have h7 : s.Within 0x4100020009 y3 := by
    unfold y3
    refine State.Within.trans ?_ ((State.bump_within ..).mono (by rfl))
    refine State.Within.set_sec ?_ (by rfl)
    exact State.Within.refl _
  clear_value y3
  have h8 : s.Within 0x4100020009 y4 := by
    unfold y4
    refine State.Within.ite ?_ ?_
    · refine State.Within.trans ?_ ((State.bump_within ..).mono (by rfl))
      exact State.Within.trans (by assumption) ((State.setFld_within ..).mono (by rfl))
    · assumption
  clear_value y4
  have h9 : s.Within 0x4100020009 y5 := by
    unfold y5
    refine State.Within.ite ?_ ?_
    · refine State.Within.trans ?_ ((State.bump_within ..).mono (by rfl))
      exact State.Within.trans (by assumption) ((State.setFld_within ..).mono (by rfl))
    · assumption
  clear_value y5
  have h10 : s.Within 0x4100020009 y6 := by
    unfold y6
    refine State.Within.ite ?_ ?_
    · refine State.Within.trans ?_ ((State.raise_within ..).mono (by rfl))
      exact State.Within.trans (by assumption) ((State.setFld_within ..).mono (by rfl))
    · assumption
  clear_value y6
  refine State.Within.ite ?_ ?_
  · refine State.Within.trans ?_ ((State.setFld_within ..).mono (by rfl))
    exact State.Within.trans (by assumption) ((State.bump_within ..).mono (by rfl))
  · refine State.Within.trans ?_ (State.clocked_within _ _ _ (fun u => ?_) (by rfl))
    · assumption
    · exact (State.raise_within ..).mono (by rfl)

theorem State.peakRead_within (s : State) : s.Within 0x10000 (s.peakRead).2 := by
  unfold State.peakRead
  extract_lets y1
  dsimp only
  exact (State.mapQueue_within ..).mono (by rfl)

theorem State.scrub_within (s : State) (p : Page) (bad cnt evt code : Nat) : s.Within 0x64ff83a8cb (s.scrub p bad cnt evt code) := by
  unfold State.scrub
  refine State.Within.ite ?_ ?_
  · exact State.Within.refl _
  · refine State.Within.ite ?_ ?_
    · refine State.Within.trans ?_ ((State.raise_within ..).mono (by rfl))
      exact (State.bump_within ..).mono (by rfl)
    · exact (State.fault_within ..).mono (by rfl)

theorem State.meterClr_within (s : State) (v : Nat) : s.Within 0x10000 (s.meterClr v) := by
  unfold State.meterClr
  refine State.Within.ite ?_ ?_
  · exact (State.mapMeter_within ..).mono (by rfl)
  · exact State.Within.refl _

theorem State.localRead_within (s : State) : s.Within 0x1 (s.localRead).2 := by
  unfold State.localRead
  dsimp only
  exact (State.setFld_within ..).mono (by rfl)

theorem State.readReg_within {m : Nat} (s : State) (p : Page) (off : Nat) (f : State → Nat × State) (h : ∀ u : State, u.Within m (f u).2)
    (k : 0x4000000000 ||| m = m) : s.Within m (s.readReg p off f) := by
  unfold State.readReg
  exact State.Within.ite ((h s).trans ((State.emit_within ..).mono (covered k (by rfl)))) ((State.emit_within ..).mono (covered k (by rfl)))

theorem State.nodeWrite_within (s : State) (id : Nat) (valid : Bool) : s.Within 0x4000020009 (s.nodeWrite id valid) := by
  unfold State.nodeWrite
  extract_lets y1 y2
  have h3 : s.Within 0x4000020009 y2 := by
    unfold y2
    refine State.Within.trans ?_ ((State.setFld_within ..).mono (by rfl))
    exact (State.setFld_within ..).mono (by rfl)
  clear_value y2
  refine State.Within.ite ?_ ?_
  · assumption
  · exact State.Within.trans (by assumption) ((State.raise_within ..).mono (by rfl))

theorem State.failoverScan_within (s : State) (p : Nat) : s.Within 0x4000020029 (s.failoverScan p) := by
  unfold State.failoverScan
  refine State.Within.ite ?_ ?_
  · exact (State.failover_within ..).mono (by rfl)
  · exact State.Within.refl _

theorem State.frerSweep_within (s : State) : s.Within 0x4000620009 s.frerSweep := by
  unfold State.frerSweep
  extract_lets y1
  have h2 : s.Within 0x4000620009 y1 := by
    unfold y1
    refine State.Within.each ?_ (fun u a => ?_)
    · exact State.Within.refl _
    · exact (State.frerVisit_within ..).mono (by rfl)
  clear_value y1
  refine State.Within.set_frerScan ?_ (by rfl)
  assumption

/-! ## Machine/Transmit.lean -/

theorem State.startCharges_within (s : State) (c : Copy) (lead : Nat) : s.Within 0x10009 (s.startCharges c lead) := by
  unfold State.startCharges
  extract_lets y1 y2 y3 y4 y5 y6 y7 y8 y9 y10 y11
  have h12 : s.Within 0x10009 y7 := by
    unfold y7
    refine State.Within.trans ?_ ((State.startDeficits_within ..).mono (by rfl))
    refine State.Within.trans ?_ ((State.releaseCharge_within ..).mono (by rfl))
    exact (State.unlink_within ..).mono (by rfl)
  clear_value y7
  have h13 : s.Within 0x10009 y8 := by
    unfold y8
    exact State.Within.trans (by assumption) ((State.chargeShapers_within ..).mono (by rfl))
  clear_value y8
  have h14 : s.Within 0x10009 y9 := by
    unfold y9
    clear_value y11
    clear_value y10
    clear_value y9
    clear_value y6
    clear_value y5
    clear_value y4
    clear_value y3
    clear_value y2
    clear_value y1
    split
    · assumption
    · extract_lets y15
      have h16 : s.Within 0x10009 y15 := by
        unfold y15
        refine State.Within.trans ?_ ((State.useCredit_within ..).mono (by rfl))
        refine State.Within.trans ?_ ((State.mapPortNode_within ..).mono (by rfl))
        exact State.Within.trans (by assumption) ((State.bumpTab_within ..).mono (by rfl))
      clear_value y15
      refine State.Within.ite ?_ ?_
      · exact State.Within.trans (by assumption) ((State.setFrame_within ..).mono (by rfl))
      · exact State.Within.trans (by assumption) ((State.bumpTab_within ..).mono (by rfl))
  clear_value y9
  have h17 : s.Within 0x10009 y10 := by
    unfold y10
    refine State.Within.trans ?_ ((State.bump_within ..).mono (by rfl))
    exact State.Within.trans (by assumption) ((State.bump_within ..).mono (by rfl))
  clear_value y10
  have h18 : s.Within 0x10009 y11 := by
    unfold y11
    refine State.Within.ite ?_ ?_
    · exact State.Within.trans (by assumption) ((State.bump_within ..).mono (by rfl))
    · assumption
  clear_value y11
  exact State.Within.trans (by assumption) ((State.mapEgress_within ..).mono (by rfl))

theorem State.secondPass_within (s : State) (f : Frame) (c : Copy) : s.Within 0x6000030009 (s.secondPass f c) := by
  unfold State.secondPass
  extract_lets y1
  split
  extract_lets y2 y3
  have h4 : s.Within 0x6000030009 y2 := by
    unfold y2
    refine State.Within.trans ?_ ((State.bump_within ..).mono (by rfl))
    exact (State.bump_within ..).mono (by rfl)
  clear_value y2
  have h5 : s.Within 0x6000030009 y3 := by
    unfold y3
    exact State.Within.trans (by assumption) ((State.bump_within ..).mono (by rfl))
  clear_value y3
  refine State.Within.ite ?_ ?_
  · refine State.Within.trans ?_ ((State.recircLeave_within ..).mono (by rfl))
    refine State.Within.trans ?_ (State.clocked_within _ _ _ (fun u => ?_) (by rfl))
    · assumption
    · exact (State.bump_within ..).mono (by rfl)
  · split
    rename_i x6 e7
    have h8 : s.Within 0x6000030009 x6 := State.Within.of_pair e7 (by exact State.Within.trans (by assumption) ((State.newFrame_within ..).mono (by
      rfl)))
    exact State.Within.trans (by assumption) ((State.pushWindow_within ..).mono (by rfl))

theorem State.wireBytes_within (s : State) (c : Copy) (l : List Byte) : s.Within 0x4000820009 (s.wireBytes c l).2 := by
  unfold State.wireBytes
  split
  · split
    rename_i x1 e2
    have h3 : s.Within 0x4000820009 x1 := State.Within.of_pair e2 (by exact (State.protect_within ..).mono (by rfl))
    dsimp only
    assumption
  · dsimp only
    exact State.Within.refl _

theorem State.takenWhole_within (s : State) (c : Copy) : s.Within 0x10000 (s.takenWhole c) := by
  unfold State.takenWhole
  refine State.Within.trans ?_ ((State.mapEgress_within ..).mono (by rfl))
  exact (State.dropRef_within ..).mono (by rfl)

theorem State.deliver_within (s : State) (f : Frame) (c : Copy) (lead : Nat) (bad : Option Nat) : s.Within 0x6002930089 (s.deliver f c lead bad) := by
  unfold State.deliver
  refine State.Within.ite ?_ ?_
  · refine State.Within.trans ?_ ((State.takenWhole_within ..).mono (by rfl))
    exact (State.secondPass_within ..).mono (by rfl)
  · extract_lets y1
    have h2 : s.Within 0x6002930089 y1 := by
      unfold y1
      refine State.Within.ite ?_ ?_
      · exact (State.mapDp_within ..).mono (by rfl)
      · exact State.Within.refl _
    clear_value y1
    split
    rename_i x3 e4
    have h5 : s.Within 0x6002930089 x3 := State.Within.of_pair e4 (by exact State.Within.trans (by assumption) ((State.editCopy_within ..).mono (by
      rfl)))
    refine State.Within.ite ?_ ?_
    · extract_lets y6
      have h7 : s.Within 0x6002930089 y6 := by
        unfold y6
        exact State.Within.trans (by assumption) ((State.bump_within ..).mono (by rfl))
      clear_value y6
      refine State.Within.ite ?_ ?_
      · exact State.Within.trans (by assumption) ((State.hostDeliver_within ..).mono (by rfl))
      · refine State.Within.trans ?_ ((State.takenWhole_within ..).mono (by rfl))
        exact State.Within.trans (by assumption) ((State.mgmtDeliver_within ..).mono (by rfl))
    · split
      rename_i x8 e9
      have h10 : s.Within 0x6002930089 x8 := State.Within.of_pair e9 (by exact State.Within.trans (by assumption) ((State.wireBytes_within ..).mono
        (by rfl)))
      split
      · refine State.Within.trans ?_ ((State.mapEgress_within ..).mono (by rfl))
        refine State.Within.trans ?_ ((State.bump_within ..).mono (by rfl))
        exact State.Within.trans (by assumption) ((State.dropRef_within ..).mono (by rfl))
      · extract_lets y11
        have h12 : s.Within 0x6002930089 y11 := by
          unfold y11
          refine State.Within.ite ?_ ?_
          · exact State.Within.trans (by assumption) ((State.dropRef_within ..).mono (by rfl))
          · assumption
        clear_value y11
        exact State.Within.trans (by assumption) ((State.mapEgress_within ..).mono (by rfl))

theorem State.startCopy_within (s : State) (f : Frame) (c : Copy) (lead : Nat) (bad : Option Nat) :
    s.Within 0x6002930089 (s.startCopy f c lead bad) := by
  unfold State.startCopy
  extract_lets y1
  have h2 : s.Within 0x6002930089 y1 := by
    unfold y1
    refine State.Within.trans ?_ ((State.deliver_within ..).mono (by rfl))
    exact (State.startCharges_within ..).mono (by rfl)
  clear_value y1
  refine State.Within.ite ?_ ?_
  · split
    rename_i x3 e4
    have h5 : s.Within 0x6002930089 x3 := State.Within.of_pair e4 (by exact State.Within.trans (by assumption) ((State.draw_within ..).mono (by rfl)))
    exact State.Within.trans (by assumption) ((State.rxBegin_within ..).mono (by rfl))
  · assumption

theorem State.readErrors_within (s : State) (f : Frame) (corr : Nat) (bad : Option Nat) : s.Within 0x4000820009 (s.readErrors f corr bad) := by
  unfold State.readErrors
  extract_lets y1
  have h2 : s.Within 0x4000820009 y1 := by
    unfold y1
    refine State.Within.ite ?_ ?_
    · exact State.Within.refl _
    · exact (State.bump_within ..).mono (by rfl)
  clear_value y1
  split
  · refine State.Within.trans ?_ ((State.logErr_within ..).mono (by rfl))
    refine State.Within.trans ?_ ((State.raise_within ..).mono (by rfl))
    exact State.Within.trans (by assumption) ((State.bump_within ..).mono (by rfl))
  · assumption

theorem State.transmitStart_within (s : State) (p lead corr corrDesc : Nat) (bad : Option Nat) (secBad : Option (Nat × Nat × Nat)) :
    s.Within 0x6002930089 (s.transmitStart p lead corr corrDesc bad secBad) := by
  unfold State.transmitStart
  split
  · exact State.Within.refl _
  · refine State.Within.ite ?_ ?_
    · exact State.Within.refl _
    · refine State.Within.ite ?_ ?_
      · exact (State.mapEgress_within ..).mono (by rfl)
      · extract_lets y1 y2 y3
        have h4 : s.Within 0x6002930089 y3 := by
          unfold y3
          exact (State.readErrors_within ..).mono (by rfl)
        clear_value y3
        split
        · refine State.Within.trans ?_ ((State.discardCopy_within ..).mono (by rfl))
          exact (State.logErr_within ..).mono (by rfl)
        · refine State.Within.ite ?_ ?_
          · exact State.Within.trans (by assumption) ((State.discardCopy_within ..).mono (by rfl))
          · refine State.Within.trans ?_ ((State.startCopy_within ..).mono (by rfl))
            refine State.Within.ite ?_ ?_
            · exact State.Within.trans (by assumption) ((State.eccSeen_within ..).mono (by rfl))
            · assumption

theorem State.wireOut_within (s : State) (p : Nat) (l : List Byte) (stomp : Bool) : s.Within 0x4000010000 (s.wireOut p l stomp) := by
  unfold State.wireOut
  refine State.Within.ite ?_ ?_
  · refine State.Within.ite ?_ ?_
    · exact State.Within.refl _
    · exact (State.mapDp_within ..).mono (by rfl)
  · refine State.Within.ite ?_ ?_
    · refine State.Within.ite ?_ ?_
      · exact State.Within.refl _
      · exact (State.mapDp_within ..).mono (by rfl)
    · exact (State.emit_within ..).mono (by rfl)

theorem State.loopEnd_within (s : State) (p : Nat) (l : List Byte) (lost : Bool) : s.Within 0x6000a3000b (s.loopEnd p l lost) := by
  unfold State.loopEnd
  refine State.Within.ite ?_ ?_
  · exact (State.rxFinish_within ..).mono (by rfl)
  · exact State.Within.refl _

theorem State.sendEnd_within (s : State) (p : Nat) : s.Within 0x6200a3080b (s.sendEnd p) := by
  unfold State.sendEnd
  extract_lets y1 y2 y3 y4
  have h5 : s.Within 0x6200a3080b y3 := by
    unfold y3
    exact (State.bump_within ..).mono (by rfl)
  clear_value y3
  have h6 : s.Within 0x6200a3080b y4 := by
    unfold y4
    refine State.Within.ite ?_ ?_
    · assumption
    · exact State.Within.trans (by assumption) ((State.wireOut_within ..).mono (by rfl))
  clear_value y4
  refine State.Within.ite ?_ ?_
  · exact State.Within.refl _
  · refine State.Within.ite ?_ ?_
    · split
      · exact (State.hostFilled_within ..).mono (by rfl)
      · exact State.Within.refl _
    · exact State.Within.trans (by assumption) ((State.loopEnd_within ..).mono (by rfl))

theorem State.correctEnd_within (s : State) (c : Copy) (e : Egress) (len wire : Nat) : s.Within 0x10001 (s.correctEnd c e len wire) := by
  unfold State.correctEnd
  extract_lets y1
  have h2 : s.Within 0x10001 y1 := by
    unfold y1
    exact (State.endCharges_within ..).mono (by rfl)
  clear_value y1
  split
  · refine State.Within.trans ?_ ((State.creditIdle_within ..).mono (by rfl))
    refine State.Within.ite ?_ ?_
    · exact State.Within.trans (by assumption) ((State.giveBackCredit_within ..).mono (by rfl))
    · assumption
  · assumption

theorem State.lateErrors_within (s : State) (p corr : Nat) (bad : Option Nat) : s.Within 0x4000830009 (s.lateErrors p corr bad) := by
  unfold State.lateErrors
  extract_lets y1
  split
  · extract_lets y2 y3 y4
    have h5 : s.Within 0x4000830009 y4 := by
      unfold y4
      exact (State.readErrors_within ..).mono (by rfl)
    clear_value y4
    clear_value y3
    clear_value y2
    clear_value y1
    split
    · refine State.Within.trans ?_ ((State.bump_within ..).mono (by rfl))
      exact State.Within.trans (by assumption) ((State.mapEgress_within ..).mono (by rfl))
    · assumption
  · exact State.Within.refl _

theorem State.transmitEnd_within (s : State) (p corr : Nat) (bad : Option Nat) : s.Within 0x6200a3080b (s.transmitEnd p corr bad) := by
  unfold State.transmitEnd
  extract_lets y1 y2 y3 y4
  have h5 : s.Within 0x6200a3080b y2 := by
    unfold y2
    exact (State.lateErrors_within ..).mono (by rfl)
  clear_value y2
  have h6 : s.Within 0x6200a3080b y4 := by
    unfold y4
    exact State.Within.trans (by assumption) ((State.sendEnd_within ..).mono (by rfl))
  clear_value y4
  split
  · exact State.Within.refl _
  · extract_lets y7 y8 y9 y10
    have h11 : s.Within 0x6200a3080b y9 := by
      unfold y9
      refine State.Within.ite ?_ ?_
      · exact State.Within.trans (by assumption) ((State.dropRef_within ..).mono (by rfl))
      · assumption
    clear_value y9
    have h12 : s.Within 0x6200a3080b y10 := by
      unfold y10
      exact State.Within.trans (by assumption) ((State.mapEgress_within ..).mono (by rfl))
    clear_value y10
    refine State.Within.ite ?_ ?_
    · exact State.Within.refl _
    · exact State.Within.trans (by assumption) ((State.correctEnd_within ..).mono (by rfl))

/-! ## Machine/Ports.lean -/

theorem State.portWake_within (s : State) (p : Nat) : s.Within 0x4004030009 (s.portWake p) := by
  unfold State.portWake
  refine State.Within.ite ?_ ?_
  · refine State.Within.trans ?_ ((State.wakeOccurs_within ..).mono (by rfl))
    exact (State.tc10Remote_within ..).mono (by rfl)
  · exact (State.tc10Remote_within ..).mono (by rfl)

theorem State.lockAcquired_within (s : State) (p lane : Nat) : s.Within 0x800001 (s.lockAcquired p lane) := by
  unfold State.lockAcquired
  refine State.Within.ite ?_ ?_
  · exact (State.laneLocks_within ..).mono (by rfl)
  · exact (State.pcsLock_within ..).mono (by rfl)

end Sys2Proof.Machine
end

