-- ==== Sys2Proof/Laws/WithinDevice.lean ====
section
/-! SUPPORT. The components of State that every operation of the device as a whole may change, and that what it leaves can come after. -/
namespace Sys2Proof.Machine

/-! ## Machine/Couple.lean -/

theorem State.fenceRises_within (s : State) : s.Within 0x1 s.fenceRises := by
  unfold State.fenceRises
  exact (State.setFld_within ..).mono (by rfl)

theorem State.fwKick_within (s : State) : s.Within 0x4000820009 s.fwKick := by
  unfold State.fwKick
  refine State.Within.trans ?_ ((State.refreshHealth_within ..).mono (by rfl))
  exact (State.mapClasp_within ..).mono (by rfl)

theorem State.fwExpires_within (s : State) : s.Within 0x4000820009 s.fwExpires := by
  unfold State.fwExpires
  refine State.Within.ite ?_ ?_
  · exact State.Within.refl _
  · refine State.Within.trans ?_ ((State.refreshHealth_within ..).mono (by rfl))
    exact (State.mapClasp_within ..).mono (by rfl)

theorem State.selftest_within (s : State) (i : Nat) (bad : Bool) : s.Within 0x4000020009 (s.selftest i bad) := by
  unfold State.selftest
  refine State.Within.ite ?_ ?_
  · refine State.Within.trans ?_ ((State.refreshHealth_within ..).mono (by rfl))
    exact (State.setFld_within ..).mono (by rfl)
  · exact State.Within.refl _

theorem State.eccAges_within (s : State) : s.Within 0x4000820009 s.eccAges := by
  unfold State.eccAges
  refine State.Within.trans ?_ ((State.refreshHealth_within ..).mono (by rfl))
  exact (State.mapClasp_within ..).mono (by rfl)

theorem State.mpcRing_within (s : State) (src : Src) (corr : Nat) : s.Within 0x40028200c9 (s.mpcRing src corr) := by
  unfold State.mpcRing
  split
  · exact (State.mbxRing_within ..).mono (by rfl)
  · exact (State.notOwner_within ..).mono (by rfl)

theorem State.mringTail_within (s : State) (r v : Nat) : s.Within 0x1 (s.mringTail r v) := by
  unfold State.mringTail
  exact (State.setFld_within ..).mono (by rfl)

/-! ## Machine/Local.lean -/

theorem State.deviceFrame_within (s : State) (bits badConn badStream : List Nat) : s.Within 0x607ea360eb (s.deviceFrame bits badConn badStream) := by
  unfold State.deviceFrame
  refine State.Within.ite ?_ ?_
  · exact State.Within.refl _
  · extract_lets y1 y2 y3
    have h4 : s.Within 0x607ea360eb y1 := by
      unfold y1
      refine State.Within.trans ?_ ((State.tdmDrained_within ..).mono (by rfl))
      refine State.Within.trans ?_ ((State.tdmBegin_within ..).mono (by rfl))
      exact (State.tdmRun_within ..).mono (by rfl)
    clear_value y1
    have h5 : s.Within 0x607ea360eb y3 := by
      unfold y3
      refine State.Within.each ?_ (fun u a => ?_)
      · assumption
      · refine State.Within.ite ?_ ?_
        · refine State.Within.trans ?_ ((State.connSwap_within ..).mono (by rfl))
          exact (State.applyOwn_within ..).mono (by rfl)
        · exact (State.applyOwn_within ..).mono (by rfl)
    clear_value y3
    refine State.Within.trans ?_ ((State.tdmStart_within ..).mono (by rfl))
    exact State.Within.trans (by assumption) ((State.applyFixed_within ..).mono (by rfl))

theorem State.cipJob_within (s : State) (n : Nat) (img : List (Nat × List Byte)) (bad : Option (Nat × Nat)) (zeroFails : Bool) (corr : Nat × Nat) :
    s.Within 0x44828208c9 (s.cipJob n img bad zeroFails corr) := by
  unfold State.cipJob
  refine State.Within.trans ?_ ((State.cipRun_within ..).mono (by rfl))
  exact (State.hostImage_within ..).mono (by rfl)

theorem State.cmacEnds_within (s : State) (n : Nat) (sign inTime : Bool) : s.Within 0x6408830009 (s.cmacEnds n sign inTime) := by
  unfold State.cmacEnds
  refine State.Within.ite ?_ ?_
  · exact (State.canSigned_within ..).mono (by rfl)
  · exact (State.canVerified_within ..).mono (by rfl)

theorem State.seedLost_within (s : State) : s.Within 0x64ff83a8cb s.seedLost := by
  unfold State.seedLost
  refine State.Within.ite ?_ ?_
  · exact State.Within.refl _
  · refine State.Within.each ?_ (fun u a => ?_)
    · exact State.Within.refl _
    · exact (State.fault_within ..).mono (by rfl)

/-! ## Machine/Hosting.lean -/

theorem State.fromMp_within {m : Nat} (s : State) (i : Fin 4) (act : State → State) (h : ∀ u : State, u.Within m (act u))
    (_k : 0x0 ||| m = m) : s.Within m (s.fromMp i act) := State.Within.ite (h s) (State.Within.refl s)

theorem State.poisonedWrite_within (s : State) (addr : Nat) : s.Within 0x4000820009 (s.poisonedWrite addr) := by
  unfold State.poisonedWrite
  refine State.Within.trans ?_ ((State.logErr_within ..).mono (by rfl))
  refine State.Within.trans ?_ ((State.bump_within ..).mono (by rfl))
  exact (State.aerSet_within ..).mono (by rfl)

theorem State.unsupportedRequest_within (s : State) : s.Within 0x4000020008 s.unsupportedRequest := by
  unfold State.unsupportedRequest
  refine State.Within.trans ?_ ((State.bump_within ..).mono (by rfl))
  refine State.Within.trans ?_ ((State.emit_within ..).mono (by rfl))
  exact (State.aerSet_within ..).mono (by rfl)

theorem State.msixUnmask_within (s : State) (v : Nat) : s.Within 0x4000020008 (s.msixUnmask v) := by
  unfold State.msixUnmask
  exact (State.msixWrite_within ..).mono (by rfl)

theorem State.writeFailed_within (s : State) (orig code addr : Nat) : s.Within 0x4001020009 (s.writeFailed orig code addr) := by
  unfold State.writeFailed
  exact (State.pwFail_within ..).mono (by rfl)

theorem State.scrRing_within (s : State) (src : Src) (corr : Nat) : s.Within 0x40028200c9 (s.scrRing src corr) := by
  unfold State.scrRing
  split
  · exact (State.mbxRing_within ..).mono (by rfl)
  · exact (State.notOwner_within ..).mono (by rfl)

theorem State.dbSet_within (s : State) (v : Nat) : s.Within 0x4000020009 (s.dbSet v) := by
  unfold State.dbSet
  exact (State.setEvents_within ..).mono (by rfl)

/-! ## Machine/Ageing.lean -/

theorem State.dPpm_within (s : State) (x : Sensor) : s.Within 0x2000000000 (s.dPpm x).2 := by
  unfold State.dPpm
  refine State.Within.itp ?_ ?_
  · exact (State.draw_within ..).mono (by rfl)
  · dsimp only
    exact State.Within.refl _

theorem State.sampleIsland_within (s : State) (i : Nat) (x : Sensor) : s.Within 0x2000000001 (s.sampleIsland i x) := by
  unfold State.sampleIsland
  extract_lets y1
  split
  rename_i x2 e3
  have h4 : s.Within 0x2000000001 x2 := State.Within.of_pair e3 (by exact (State.dPpm_within ..).mono (by rfl))
  extract_lets y5
  have h6 : s.Within 0x2000000001 y5 := by
    unfold y5
    refine State.Within.trans ?_ ((State.setFld_within ..).mono (by rfl))
    refine State.Within.trans ?_ ((State.setFld_within ..).mono (by rfl))
    exact State.Within.trans (by assumption) ((State.setFld_within ..).mono (by rfl))
  clear_value y5
  refine State.Within.trans ?_ ((State.setFld_within ..).mono (by rfl))
  exact State.Within.trans (by assumption) ((State.setFld_within ..).mono (by rfl))

theorem State.ageSample_within (s : State) (l : List Sensor) : s.Within 0x6000020009 (s.ageSample l) := by
  unfold State.ageSample
  extract_lets y1 y2 y3
  have h4 : s.Within 0x6000020009 y2 := by
    unfold y2
    refine State.Within.each ?_ (fun u a => ?_)
    · exact State.Within.refl _
    · exact (State.sampleIsland_within ..).mono (by rfl)
  clear_value y2
  have h5 : s.Within 0x6000020009 y3 := by
    unfold y3
    refine State.Within.trans ?_ ((State.raise_within ..).mono (by rfl))
    exact State.Within.trans (by assumption) ((State.bump_within ..).mono (by rfl))
  clear_value y3
  refine State.Within.ite ?_ ?_
  · exact State.Within.trans (by assumption) ((State.raise_within ..).mono (by rfl))
  · assumption

theorem State.vGoto_within (s : State) (i v : Nat) : s.Within 0x4000000 (s.vGoto i v) := by
  unfold State.vGoto
  exact (State.mapPower_within ..).mono (by rfl)

theorem State.vreqPut_within (s : State) (src : Src) (i v : Nat) : s.Within 0x4004820009 (s.vreqPut src i v) := by
  unfold State.vreqPut
  refine State.Within.ite ?_ ?_
  · exact (State.refuse_within ..).mono (by rfl)
  · refine State.Within.trans ?_ ((State.vGoto_within ..).mono (by rfl))
    exact (State.setFld_within ..).mono (by rfl)

theorem State.islVPut_within (s : State) (src : Src) (i v : Nat) : s.Within 0x4004820009 (s.islVPut src i v) := by
  unfold State.islVPut
  extract_lets y1 y2 y3 y4 y5
  have h6 : s.Within 0x4004820009 y4 := by
    unfold y4
    exact (State.setFld_within ..).mono (by rfl)
  clear_value y4
  have h7 : s.Within 0x4004820009 y5 := by
    unfold y5
    refine State.Within.ite ?_ ?_
    · exact State.Within.refl _
    · exact (State.notOwner_within ..).mono (by rfl)
  clear_value y5
  refine State.Within.ite ?_ ?_
  · refine State.Within.ite ?_ ?_
    · exact State.Within.trans (by assumption) ((State.vreqPut_within ..).mono (by rfl))
    · refine State.Within.ite ?_ ?_
      · assumption
      · exact State.Within.trans (by assumption) ((State.notOwner_within ..).mono (by rfl))
  · exact State.Within.trans (by assumption) ((State.vreqPut_within ..).mono (by rfl))

theorem State.vStep_within (s : State) (i v : Nat) : s.Within 0x9 (s.vStep i v) := by
  unfold State.vStep
  refine State.Within.trans ?_ ((State.bump_within ..).mono (by rfl))
  exact (State.setFld_within ..).mono (by rfl)

theorem State.vSettle_within (s : State) (i goal : Nat) : s.Within 0x4004020009 (s.vSettle i goal) := by
  unfold State.vSettle
  refine State.Within.ite ?_ ?_
  · refine State.Within.trans ?_ ((State.raise_within ..).mono (by rfl))
    exact (State.vGoto_within ..).mono (by rfl)
  · exact State.Within.refl _

theorem State.voltageStep_within (s : State) (i : Nat) (x : Sensor) : s.Within 0x4004820009 (s.voltageStep i x) := by
  unfold State.voltageStep
  split
  · exact State.Within.refl _
  · extract_lets y1 y2
    have h3 : s.Within 0x4004820009 y2 := by
      unfold y2
      exact (State.vStep_within ..).mono (by rfl)
    clear_value y2
    refine State.Within.ite ?_ ?_
    · refine State.Within.trans ?_ ((State.vSettle_within ..).mono (by rfl))
      exact (State.vStep_within ..).mono (by rfl)
    · refine State.Within.ite ?_ ?_
      · exact (State.vGoto_within ..).mono (by rfl)
      · refine State.Within.ite ?_ ?_
        · refine State.Within.trans ?_ ((State.logErr_within ..).mono (by rfl))
          refine State.Within.trans ?_ ((State.vGoto_within ..).mono (by rfl))
          exact State.Within.trans (by assumption) ((State.vStep_within ..).mono (by rfl))
        · exact State.Within.trans (by assumption) ((State.vSettle_within ..).mono (by rfl))

theorem State.canaryAlarm_within (s : State) (i : Nat) : s.Within 0x4001820009 (s.canaryAlarm i) := by
  unfold State.canaryAlarm
  extract_lets y1
  refine State.Within.trans ?_ ((State.follow_within ..).mono (by rfl))
  refine State.Within.trans ?_ ((State.raise_within ..).mono (by rfl))
  refine State.Within.trans ?_ ((State.bump_within ..).mono (by rfl))
  exact (State.setFld_within ..).mono (by rfl)

theorem State.canaryFail_within (s : State) (i : Nat) : s.Within 0x4005820009 (s.canaryFail i) := by
  unfold State.canaryFail
  refine State.Within.ite ?_ ?_
  · exact State.Within.refl _
  · extract_lets y1 y2
    have h3 : s.Within 0x4005820009 y1 := by
      unfold y1
      exact (State.canaryAlarm_within ..).mono (by rfl)
    clear_value y1
    refine State.Within.ite ?_ ?_
    · exact State.Within.trans (by assumption) ((State.vGoto_within ..).mono (by rfl))
    · assumption

theorem State.xtalAlarm_within (s : State) : s.Within 0x4001820009 s.xtalAlarm := by
  unfold State.xtalAlarm
  refine State.Within.trans ?_ ((State.follow_within ..).mono (by rfl))
  refine State.Within.trans ?_ ((State.raise_within ..).mono (by rfl))
  exact (State.setFld_within ..).mono (by rfl)

theorem State.search_within (s : State) (i fuel : Nat) (l : List Nat) : s.Within 0x6001820009 (s.search i fuel l) := by
  induction fuel generalizing s l with
  | zero => exact State.Within.refl s
  | succ fuel ih =>
    unfold State.search
    split
    rename_i m u e
    have hu : s.Within 0x6001820009 u := by
      revert e
      split <;> intro e
      · cases e
        exact State.Within.refl s
      · have h : u = (s.draw 1024).2 := (congrArg Prod.snd e).symm
        rw [h]
        exact (State.draw_within ..).mono (by rfl)
    dsimp only
    refine State.Within.ite hu (State.Within.ite ?_ (State.Within.ite ?_ (State.Within.ite ?_ hu)))
    · exact hu.trans (State.Within.trans ((State.vStep_within ..).mono (by rfl)) (ih _ _))
    · refine State.Within.trans ?_ (ih _ _)
      refine State.Within.trans ?_ ((State.bump_within ..).mono (by rfl))
      refine State.Within.trans ?_ ((State.setFld_within ..).mono (by rfl))
      refine State.Within.trans ?_ ((State.setFld_within ..).mono (by rfl))
      exact hu.trans ((State.setFld_within ..).mono (by rfl))
    · exact hu.trans ((State.canaryAlarm_within ..).mono (by rfl))

theorem State.searchAll_within (s : State) (l : List (List Nat)) : s.Within 0x6001820009 (s.searchAll l) := by
  unfold State.searchAll
  refine State.Within.each ?_ (fun u a => ?_)
  · exact State.Within.refl _
  · exact (State.search_within ..).mono (by rfl)

/-! ## Machine/Power.lean -/

theorem State.freshPage_within (s : State) (p : Page) : s.Within 0x43fdb3601f (s.freshPage p) := by
  unfold State.freshPage
  extract_lets y1
  have h2 : s.Within 0x43fdb3601f y1 := by
    unfold y1
    refine State.Within.trans ?_ ((State.resetWords_within ..).mono (by rfl))
    refine State.Within.trans ?_ ((State.resetTabs_within ..).mono (by rfl))
    refine State.Within.trans ?_ ((State.resetCounters_within ..).mono (by rfl))
    refine State.Within.trans ?_ ((State.resetEngine_within ..).mono (by rfl))
    exact (State.drainTime_within ..).mono (by rfl)
  clear_value y1
  refine State.Within.set_applying ?_ (by rfl)
  assumption

theorem State.mdioBusy_within (s : State) : s.Within 0x1 s.mdioBusy := by
  unfold State.mdioBusy
  refine State.Within.each ?_ (fun u a => ?_)
  · exact State.Within.refl _
  · exact (State.setFld_within ..).mono (by rfl)

theorem State.freshPort_within (s : State) (p : Nat) : s.Within 0x10001 (s.freshPort p) := by
  unfold State.freshPort
  extract_lets y1 y2
  refine State.Within.trans ?_ ((State.mdioBusy_within ..).mono (by rfl))
  exact (State.mapDp_within ..).mono (by rfl)

theorem State.dropWin_within (s : State) (lo hi : Nat) : s.Within 0x20 (s.dropWin lo hi) := by
  unfold State.dropWin
  exact (State.setWin_within ..).mono (by rfl)

theorem State.planLost_within (s : State) : s.Within 0x4000028009 s.planLost := by
  unfold State.planLost
  split
  · exact State.Within.refl _
  · refine State.Within.each ?_ (fun u a => ?_)
    · refine State.Within.set_plan ?_ (by rfl)
      exact State.Within.refl _
    · exact (State.setStatus_within ..).mono (by rfl)

theorem State.freshMemories_within (s : State) (i : Nat) : s.Within 0x45034f81e9 (s.freshMemories i) := by
  unfold State.freshMemories
  split
  · refine State.Within.trans ?_ ((State.mapDp_within ..).mono (by rfl))
    exact (State.dropWin_within ..).mono (by rfl)
  · refine State.Within.trans ?_ ((State.mapDp_within ..).mono (by rfl))
    exact (State.freshPort_within ..).mono (by rfl)
  · refine State.Within.trans ?_ ((State.mapDp_within ..).mono (by rfl))
    refine State.Within.trans ?_ ((State.dropWin_within ..).mono (by rfl))
    exact (State.planLost_within ..).mono (by rfl)
  · refine State.Within.trans ?_ ((State.mapDp_within ..).mono (by rfl))
    refine State.Within.set_slots ?_ (by rfl)
    exact State.Within.refl _
  · refine State.Within.set_now_dom_frerScan ?_ (by rfl)
    exact State.Within.refl _
  · extract_lets y1 y2 y3
    have h4 : s.Within 0x45034f81e9 y1 := by
      unfold y1
      refine State.Within.trans ?_ ((State.mapProcs_within ..).mono (by rfl))
      exact (State.freshPort_within ..).mono (by rfl)
    clear_value y1
    refine State.Within.set_msram_bridge ?_ (by rfl)
    assumption
  · extract_lets y5 y6
    have h7 : s.Within 0x45034f81e9 y5 := by
      unfold y5
      exact (State.mapProcs_within ..).mono (by rfl)
    clear_value y5
    refine State.Within.set_tsram_sec ?_ (by rfl)
    assumption
  · refine State.Within.trans ?_ ((State.mapDp_within ..).mono (by rfl))
    exact (State.freshPort_within ..).mono (by rfl)
  · refine State.Within.trans ?_ ((State.mapDp_within ..).mono (by rfl))
    refine State.Within.trans ?_ ((State.dropWin_within ..).mono (by rfl))
    exact (State.freshPort_within ..).mono (by rfl)
  · extract_lets y8 y9
    have h10 : s.Within 0x45034f81e9 y8 := by
      unfold y8
      exact (State.freshPort_within ..).mono (by rfl)
    clear_value y8
    refine State.Within.set_scratch_pcie ?_ (by rfl)
    assumption
  · refine State.Within.each ?_ (fun u a => ?_)
    · exact State.Within.refl _
    · exact (State.freshPort_within ..).mono (by rfl)

theorem State.freshIsland_within (s : State) (i : Nat) : s.Within 0x67ffffe9ff (s.freshIsland i) := by
  unfold State.freshIsland
  extract_lets y1 y2 y3
  have h4 : s.Within 0x67ffffe9ff y1 := by
    unfold y1
    refine State.Within.ite ?_ ?_
    · refine State.Within.trans ?_ ((State.hostLost_within ..).mono (by rfl))
      exact (State.pcieDown_within ..).mono (by rfl)
    · exact State.Within.refl _
  clear_value y1
  have h5 : s.Within 0x67ffffe9ff y2 := by
    unfold y2
    refine State.Within.each ?_ (fun u a => ?_)
    · assumption
    · exact (State.freshPage_within ..).mono (by rfl)
  clear_value y2
  have h6 : s.Within 0x67ffffe9ff y3 := by
    unfold y3
    exact State.Within.trans (by assumption) ((State.freshMemories_within ..).mono (by rfl))
  clear_value y3
  refine State.Within.ite ?_ ?_
  · exact State.Within.trans (by assumption) ((State.freshPort_within ..).mono (by rfl))
  · assumption

theorem State.setIsland_within (s : State) (i c : Nat) : s.Within 0x1 (s.setIsland i c) := by
  unfold State.setIsland
  exact (State.setFld_within ..).mono (by rfl)

theorem State.lowerIsland_within (s : State) (i c : Nat) : s.Within 0x67ffffe9ff (s.lowerIsland i c) := by
  unfold State.lowerIsland
  extract_lets y1 y2 y3
  have h4 : s.Within 0x67ffffe9ff y1 := by
    unfold y1
    refine State.Within.ite ?_ ?_
    · exact (State.mapPower_within ..).mono (by rfl)
    · exact State.Within.refl _
  clear_value y1
  have h5 : s.Within 0x67ffffe9ff y2 := by
    unfold y2
    refine State.Within.ite ?_ ?_
    · exact State.Within.trans (by assumption) ((State.freshIsland_within ..).mono (by rfl))
    · refine State.Within.ite ?_ ?_
      · refine State.Within.each ?_ (fun u a => ?_)
        · assumption
        · exact (State.pcsLoss_within ..).mono (by rfl)
      · assumption
  clear_value y2
  have h6 : s.Within 0x67ffffe9ff y3 := by
    unfold y3
    refine State.Within.ite ?_ ?_
    · exact State.Within.trans (by assumption) ((State.lanesOff_within ..).mono (by rfl))
    · refine State.Within.ite ?_ ?_
      · exact State.Within.trans (by assumption) ((State.pcieDown_within ..).mono (by rfl))
      · assumption
  clear_value y3
  refine State.Within.trans ?_ ((State.showBalls_within ..).mono (by rfl))
  exact State.Within.trans (by assumption) ((State.setIsland_within ..).mono (by rfl))

theorem State.keptSetting_within (s : State) (i : Nat) : s.Within 0x4000001 (s.keptSetting i) := by
  unfold State.keptSetting
  extract_lets y1
  have h2 : s.Within 0x4000001 y1 := by
    unfold y1
    refine State.Within.trans ?_ ((State.mapPower_within ..).mono (by rfl))
    exact (State.setFld_within ..).mono (by rfl)
  clear_value y1
  exact State.Within.trans (by assumption) ((State.setFld_within ..).mono (by rfl))

theorem State.raiseIsland_within (s : State) (i c : Nat) : s.Within 0x106000001 (s.raiseIsland i c) := by
  unfold State.raiseIsland
  extract_lets y1 y2 y3
  have h4 : s.Within 0x106000001 y2 := by
    unfold y2
    refine State.Within.ite ?_ ?_
    · exact (State.keptSetting_within ..).mono (by rfl)
    · exact State.Within.refl _
  clear_value y2
  have h5 : s.Within 0x106000001 y3 := by
    unfold y3
    exact State.Within.trans (by assumption) ((State.setIsland_within ..).mono (by rfl))
  clear_value y3
  refine State.Within.ite ?_ ?_
  · refine State.Within.trans ?_ ((State.mapSec_within ..).mono (by rfl))
    exact State.Within.trans (by assumption) ((State.setTp_within ..).mono (by rfl))
  · assumption

theorem State.raiseAll_within (s : State) : s.Within 0x4107820009 s.raiseAll := by
  unfold State.raiseAll
  refine State.Within.trans ?_ ((State.follow_within ..).mono (by rfl))
  refine State.Within.each ?_ (fun u a => ?_)
  · exact State.Within.refl _
  · exact (State.raiseIsland_within ..).mono (by rfl)

theorem State.lowerAll_within (s : State) : s.Within 0x67ffffe9ff s.lowerAll := by
  unfold State.lowerAll
  refine State.Within.trans ?_ ((State.follow_within ..).mono (by rfl))
  refine State.Within.each ?_ (fun u a => ?_)
  · exact State.Within.refl _
  · exact (State.lowerIsland_within ..).mono (by rfl)

theorem State.raiseDone_within (s : State) : s.Within 0x4107820009 s.raiseDone := by
  unfold State.raiseDone
  refine State.Within.ite ?_ ?_
  · exact State.Within.refl _
  · extract_lets y1 y2
    have h3 : s.Within 0x4107820009 y1 := by
      unfold y1
      exact (State.raiseAll_within ..).mono (by rfl)
    clear_value y1
    have h4 : s.Within 0x4107820009 y2 := by
      unfold y2
      refine State.Within.trans ?_ ((State.setCause_within ..).mono (by rfl))
      refine State.Within.trans ?_ ((State.setResult_within ..).mono (by rfl))
      exact State.Within.trans (by assumption) ((State.setPhase_within ..).mono (by rfl))
    clear_value y2
    refine State.Within.ite ?_ ?_
    · exact State.Within.trans (by assumption) ((State.pwrDone_within ..).mono (by rfl))
    · refine State.Within.ite ?_ ?_
      · refine State.Within.ite ?_ ?_
        · exact State.Within.trans (by assumption) ((State.nmReachedRun_within ..).mono (by rfl))
        · assumption
      · exact State.Within.trans (by assumption) ((State.enterPrepare_within ..).mono (by rfl))

theorem State.prepareEnd_within (s : State) : s.Within 0x1 s.prepareEnd := by
  unfold State.prepareEnd
  refine State.Within.ite ?_ ?_
  · exact (State.setPhase_within ..).mono (by rfl)
  · exact State.Within.refl _

theorem State.quiesceDone_within (s : State) : s.Within 0x4000001 s.quiesceDone := by
  unfold State.quiesceDone
  refine State.Within.ite ?_ ?_
  · refine State.Within.trans ?_ ((State.mapPower_within ..).mono (by rfl))
    exact (State.setPhase_within ..).mono (by rfl)
  · exact State.Within.refl _

theorem State.quiesceLimit_within (s : State) (i : Nat) : s.Within 0x4004820009 (s.quiesceLimit i) := by
  unfold State.quiesceLimit
  refine State.Within.ite ?_ ?_
  · extract_lets y1 y2 y3
    have h4 : s.Within 0x4004820009 y3 := by
      unfold y3
      refine State.Within.trans ?_ ((State.setFld_within ..).mono (by rfl))
      refine State.Within.trans ?_ ((State.logErr_within ..).mono (by rfl))
      refine State.Within.trans ?_ ((State.mapPower_within ..).mono (by rfl))
      exact (State.setPhase_within ..).mono (by rfl)
    clear_value y3
    refine State.Within.trans ?_ ((State.pwrRefused_within ..).mono (by rfl))
    exact State.Within.trans (by assumption) ((State.setCause_within ..).mono (by rfl))
  · exact State.Within.refl _

theorem State.reached_within (s : State) : s.Within 0x4004020009 s.reached := by
  unfold State.reached
  extract_lets y1 y2
  have h3 : s.Within 0x4004020009 y1 := by
    unfold y1
    exact (State.pwrDone_within ..).mono (by rfl)
  clear_value y1
  have h4 : s.Within 0x4004020009 y2 := by
    unfold y2
    exact State.Within.trans (by assumption) ((State.mapPower_within ..).mono (by rfl))
  clear_value y2
  refine State.Within.ite ?_ ?_
  · refine State.Within.ite ?_ ?_
    · exact State.Within.trans (by assumption) ((State.confirmWake_within ..).mono (by rfl))
    · assumption
  · assumption

theorem State.lowerDone_within (s : State) : s.Within 0x67ffffe9ff s.lowerDone := by
  unfold State.lowerDone
  refine State.Within.ite ?_ ?_
  · extract_lets y1 y2
    have h3 : s.Within 0x67ffffe9ff y1 := by
      unfold y1
      refine State.Within.trans ?_ ((State.reached_within ..).mono (by rfl))
      exact (State.lowerAll_within ..).mono (by rfl)
    clear_value y1
    have h4 : s.Within 0x67ffffe9ff y2 := by
      unfold y2
      refine State.Within.ite ?_ ?_
      · exact State.Within.trans (by assumption) ((State.emit_within ..).mono (by rfl))
      · assumption
    clear_value y2
    refine State.Within.ite ?_ ?_
    · exact State.Within.trans (by assumption) ((State.startWake_within ..).mono (by rfl))
    · assumption
  · exact State.Within.refl _

theorem State.wakeComplete_within (s : State) : s.Within 0x4107820009 s.wakeComplete := by
  unfold State.wakeComplete
  refine State.Within.ite ?_ ?_
  · extract_lets y1
    have h2 : s.Within 0x4107820009 y1 := by
      unfold y1
      exact (State.raiseAll_within ..).mono (by rfl)
    clear_value y1
    refine State.Within.ite ?_ ?_
    · exact State.Within.trans (by assumption) ((State.reached_within ..).mono (by rfl))
    · exact State.Within.trans (by assumption) ((State.enterPrepare_within ..).mono (by rfl))
  · exact State.Within.refl _

theorem State.forced_within (s : State) (cause : Nat) : s.Within 0x67ffffe9ff (s.forced cause) := by
  unfold State.forced
  extract_lets y1 y2 y3 y4 y5 y6 y7
  have h8 : s.Within 0x67ffffe9ff y2 := by
    unfold y2
    exact (State.openLost_within ..).mono (by rfl)
  clear_value y2
  have h9 : s.Within 0x67ffffe9ff y3 := by
    unfold y3
    refine State.Within.each ?_ (fun u a => ?_)
    · assumption
    · exact (State.fault_within ..).mono (by rfl)
  clear_value y3
  have h10 : s.Within 0x67ffffe9ff y4 := by
    unfold y4
    refine State.Within.each ?_ (fun u a => ?_)
    · assumption
    · exact (State.lowerIsland_within ..).mono (by rfl)
  clear_value y4
  have h11 : s.Within 0x67ffffe9ff y5 := by
    unfold y5
    refine State.Within.ite ?_ ?_
    · refine State.Within.trans ?_ ((State.setResult_within ..).mono (by rfl))
      exact State.Within.trans (by assumption) ((State.setPhase_within ..).mono (by rfl))
    · assumption
  clear_value y5
  have h12 : s.Within 0x67ffffe9ff y6 := by
    unfold y6
    exact State.Within.trans (by assumption) ((State.mapPower_within ..).mono (by rfl))
  clear_value y6
  have h13 : s.Within 0x67ffffe9ff y7 := by
    unfold y7
    refine State.Within.trans ?_ ((State.setFld_within ..).mono (by rfl))
    refine State.Within.trans ?_ ((State.setFld_within ..).mono (by rfl))
    exact State.Within.trans (by assumption) ((State.setFld_within ..).mono (by rfl))
  clear_value y7
  refine State.Within.trans ?_ ((State.follow_within ..).mono (by rfl))
  refine State.Within.trans ?_ ((State.raise_within ..).mono (by rfl))
  refine State.Within.trans ?_ ((State.bump_within ..).mono (by rfl))
  exact State.Within.trans (by assumption) ((State.setFld_within ..).mono (by rfl))

theorem State.powerFails_within (s : State) (cause : Nat) : s.Within 0x67ffffe9ff (s.powerFails cause) := by
  unfold State.powerFails
  refine State.Within.ite ?_ ?_
  · exact (State.mapPower_within ..).mono (by rfl)
  · exact (State.forced_within ..).mono (by rfl)

theorem State.thermal_within (s : State) (i : Nat) (t : Int) : s.Within 0x67ffffe9ff (s.thermal i t) := by
  unfold State.thermal
  extract_lets y1 y2
  have h3 : s.Within 0x67ffffe9ff y1 := by
    unfold y1
    exact (State.setFld_within ..).mono (by rfl)
  clear_value y1
  have h4 : s.Within 0x67ffffe9ff y2 := by
    unfold y2
    refine State.Within.trans ?_ ((State.mapPower_within ..).mono (by rfl))
    refine State.Within.trans ?_ ((State.raise_within ..).mono (by rfl))
    exact State.Within.trans (by assumption) ((State.setFld_within ..).mono (by rfl))
  clear_value y2
  refine State.Within.ite ?_ ?_
  · exact State.Within.trans (by assumption) ((State.powerFails_within ..).mono (by rfl))
  · assumption

theorem State.supplyAlarm_within (s : State) : s.Within 0x67ffffe9ff s.supplyAlarm := by
  unfold State.supplyAlarm
  extract_lets y1
  have h2 : s.Within 0x67ffffe9ff y1 := by
    unfold y1
    refine State.Within.trans ?_ ((State.raise_within ..).mono (by rfl))
    exact (State.setFld_within ..).mono (by rfl)
  clear_value y1
  exact State.Within.trans (by assumption) ((State.powerFails_within ..).mono (by rfl))

theorem State.causeClears_within (s : State) : s.Within 0x4004000001 s.causeClears := by
  unfold State.causeClears
  refine State.Within.ite ?_ ?_
  · extract_lets y1
    have h2 : s.Within 0x4004000001 y1 := by
      unfold y1
      exact (State.mapPower_within ..).mono (by rfl)
    clear_value y1
    refine State.Within.ite ?_ ?_
    · exact State.Within.trans (by assumption) ((State.startWake_within ..).mono (by rfl))
    · assumption
  · exact State.Within.refl _

theorem State.sampled_within (s : State) (l : List Sensor) : s.Within 0x67ffffe9ff (s.sampled l) := by
  unfold State.sampled
  extract_lets y1
  refine State.Within.each ?_ (fun u a => ?_)
  · exact (State.ageSample_within ..).mono (by rfl)
  · extract_lets y2
    refine State.Within.ite ?_ ?_
    · exact (State.thermal_within ..).mono (by rfl)
    · exact State.Within.refl _

/-! ## Machine/Update.lean -/

theorem State.putHdr_within (s : State) (f : BootHdr → BootHdr) : s.Within 0x400 (s.putHdr f) := by
  unfold State.putHdr
  exact (State.putFlash_within ..).mono (by rfl)

theorem State.loadSignet_within (s : State) (l : List Byte) : s.Within 0x100 (s.loadSignet l) := by
  unfold State.loadSignet
  refine State.Within.set_tsram ?_ (by rfl)
  exact State.Within.refl _

theorem State.lockRegion_within (s : State) (r : Nat) (on : Bool) : s.Within 0x1 (s.lockRegion r on) := by
  unfold State.lockRegion
  exact (State.setFld_within ..).mono (by rfl)

theorem State.putCode_within (s : State) (a : Nat) (x : Nat × Nat) : s.Within 0x2000080 (s.putCode a x) := by
  unfold State.putCode
  refine State.Within.trans ?_ ((State.mapMsram_within ..).mono (by rfl))
  exact (State.dropLines_within ..).mono (by rfl)

theorem State.loadCode_within (s : State) (l : List (Nat × Nat)) (r : Nat) (main : Bool) : s.Within 0x2000081 (s.loadCode l r main) := by
  unfold State.loadCode
  extract_lets y1 y2 y3
  have h4 : s.Within 0x2000081 y1 := by
    unfold y1
    refine State.Within.each ?_ (fun u a => ?_)
    · exact State.Within.refl _
    · exact (State.drainMp_within ..).mono (by rfl)
  clear_value y1
  have h5 : s.Within 0x2000081 y2 := by
    unfold y2
    exact State.Within.trans (by assumption) ((State.putCode_within ..).mono (by rfl))
  clear_value y2
  have h6 : s.Within 0x2000081 y3 := by
    unfold y3
    refine State.Within.ite ?_ ?_
    · exact State.Within.trans (by assumption) ((State.putCode_within ..).mono (by rfl))
    · assumption
  clear_value y3
  exact State.Within.trans (by assumption) ((State.lockRegion_within ..).mono (by rfl))

theorem State.loadImage_within (s : State) (k r : Nat) : s.Within 0x2000081 (s.loadImage k r) := by
  unfold State.loadImage
  exact (State.loadCode_within ..).mono (by rfl)

theorem State.startMp0_within (s : State) (entry : Nat) : s.Within 0x2000001 (s.startMp0 entry) := by
  unfold State.startMp0
  refine State.Within.trans ?_ ((State.mpStart_within ..).mono (by rfl))
  exact (State.setFld_within ..).mono (by rfl)

theorem State.useRecord_within (s : State) (j k : Nat) : s.Within 0x100000001 (s.useRecord j k) := by
  unfold State.useRecord
  extract_lets y1 y2
  have h3 : s.Within 0x100000001 y1 := by
    unfold y1
    exact (State.mapSec_within ..).mono (by rfl)
  clear_value y1
  have h4 : s.Within 0x100000001 y2 := by
    unfold y2
    refine State.Within.trans ?_ ((State.setFld_within ..).mono (by rfl))
    exact State.Within.trans (by assumption) ((State.setFld_within ..).mono (by rfl))
  clear_value y2
  refine State.Within.trans ?_ ((State.setFld_within ..).mono (by rfl))
  exact State.Within.trans (by assumption) ((State.setFld_within ..).mono (by rfl))

theorem State.onPage_within {m : Nat} (s : State) (p : Page) (f : State → State) (h : ∀ u : State, u.Within m (f u))
    (_k : 0x0 ||| m = m) : s.Within m (s.onPage p f) := State.Within.ite (h s) (State.Within.refl s)

theorem State.applyTrusted_within (s : State) (j : Nat) : s.Within 0x4100020009 (s.applyTrusted j) := by
  unfold State.applyTrusted
  extract_lets y1 y2 y3 y4 y5 y6 y7 y8 y9
  have h10 : s.Within 0x4100020009 y1 := by
    unfold y1
    exact (State.mapSec_within ..).mono (by rfl)
  clear_value y1
  have h11 : s.Within 0x4100020009 y2 := by
    unfold y2
    refine State.Within.trans ?_ (State.onPage_within _ _ _ (fun u => ?_) (by rfl))
    · assumption
    · exact (State.slewPut_within ..).mono (by rfl)
  clear_value y2
  have h12 : s.Within 0x4100020009 y3 := by
    unfold y3
    refine State.Within.trans ?_ (State.onPage_within _ _ _ (fun u => ?_) (by rfl))
    · assumption
    · refine State.Within.trans ?_ ((State.setFld_within ..).mono (by rfl))
      exact (State.setFld_within ..).mono (by rfl)
  clear_value y3
  have h13 : s.Within 0x4100020009 y4 := by
    unfold y4
    exact State.Within.trans (by assumption) ((State.setFld_within ..).mono (by rfl))
  clear_value y4
  have h14 : s.Within 0x4100020009 y5 := by
    unfold y5
    refine State.Within.trans ?_ ((State.setFld_within ..).mono (by rfl))
    exact State.Within.trans (by assumption) ((State.setFld_within ..).mono (by rfl))
  clear_value y5
  have h15 : s.Within 0x4100020009 y6 := by
    unfold y6
    exact State.Within.trans (by assumption) ((State.setWord_within ..).mono (by rfl))
  clear_value y6
  have h16 : s.Within 0x4100020009 y7 := by
    unfold y7
    exact State.Within.trans (by assumption) ((State.setEvents_within ..).mono (by rfl))
  clear_value y7
  have h17 : s.Within 0x4100020009 y8 := by
    unfold y8
    refine State.Within.each ?_ (fun u a => ?_)
    · assumption
    · exact (State.setFld_within ..).mono (by rfl)
  clear_value y8
  have h18 : s.Within 0x4100020009 y9 := by
    unfold y9
    refine State.Within.trans ?_ (State.onPage_within _ _ _ (fun u => ?_) (by rfl))
    · assumption
    · refine State.Within.trans ?_ ((State.setFld_within ..).mono (by rfl))
      refine State.Within.trans ?_ ((State.setFld_within ..).mono (by rfl))
      refine State.Within.trans ?_ ((State.setFld_within ..).mono (by rfl))
      exact (State.setFld_within ..).mono (by rfl)
  clear_value y9
  refine State.Within.each ?_ (fun u a => ?_)
  · assumption
  · refine (State.onPage_within _ _ _ (fun u => ?_) (by rfl))
    extract_lets y19
    have h20 : u.Within 0x4100020009 y19 := by
      unfold y19
      exact (State.setFld_within ..).mono (by rfl)
    clear_value y19
    refine State.Within.each ?_ (fun u a => ?_)
    · assumption
    · extract_lets y21
      refine State.Within.trans ?_ ((State.setFld_within ..).mono (by rfl))
      refine State.Within.trans ?_ ((State.setFld_within ..).mono (by rfl))
      refine State.Within.trans ?_ ((State.setFld_within ..).mono (by rfl))
      exact (State.setFld_within ..).mono (by rfl)

theorem State.assignOwner_within (s : State) (p : Page) : s.Within 0x1 (s.assignOwner p) := by
  unfold State.assignOwner
  extract_lets y1 y2
  refine (State.onPage_within _ _ _ (fun u => ?_) (by rfl))
  refine State.Within.trans ?_ ((State.setFld_within ..).mono (by rfl))
  exact (State.setFld_within ..).mono (by rfl)

theorem State.openStore_within (s : State) : s.Within 0x100000000 s.openStore := by
  unfold State.openStore
  extract_lets y1
  exact (State.mapSec_within ..).mono (by rfl)

theorem State.reloadSlot_within (s : State) (i : Nat) (k : Slot) : s.Within 0x2500000001 (s.reloadSlot i k) := by
  unfold State.reloadSlot
  refine State.Within.trans ?_ ((State.mapSec_within ..).mono (by rfl))
  exact (State.loadSlot_within ..).mono (by rfl)

theorem State.restoreSlots_within (s : State) : s.Within 0x2500000001 s.restoreSlots := by
  unfold State.restoreSlots
  refine State.Within.each ?_ (fun u a => ?_)
  · exact State.Within.refl _
  · extract_lets y1
    refine State.Within.ite ?_ ?_
    · split
      · exact (State.reloadSlot_within ..).mono (by rfl)
      · exact (State.reloadSlot_within ..).mono (by rfl)
    · exact State.Within.refl _

theorem State.writeSeal_within (s : State) (k : Nat) : s.Within 0x100000000 (s.writeSeal k) := by
  unfold State.writeSeal
  exact (State.mapSec_within ..).mono (by rfl)

theorem State.showImage_within (s : State) (k : Nat) : s.Within 0x1 (s.showImage k) := by
  unfold State.showImage
  refine State.Within.trans ?_ ((State.setFld_within ..).mono (by rfl))
  exact (State.setFld_within ..).mono (by rfl)

theorem State.bootRecord_within (s : State) (k : Nat) (warm : Option WakeSeal) : s.Within 0x4100020009 (s.bootRecord k warm) := by
  unfold State.bootRecord
  split
  · extract_lets y1
    have h2 : s.Within 0x4100020009 y1 := by
      unfold y1
      split
      · exact (State.useRecord_within ..).mono (by rfl)
      · exact State.Within.refl _
    clear_value y1
    split
    · exact State.Within.trans (by assumption) ((State.applyTrusted_within ..).mono (by rfl))
    · assumption
  · extract_lets y3
    have h4 : s.Within 0x4100020009 y3 := by
      unfold y3
      exact (State.mapSec_within ..).mono (by rfl)
    clear_value y3
    split
    · refine State.Within.trans ?_ ((State.applyTrusted_within ..).mono (by rfl))
      exact State.Within.trans (by assumption) ((State.useRecord_within ..).mono (by rfl))
    · assumption

theorem State.signetRuns_within (s : State) (k : Nat) (warm : Option WakeSeal) : s.Within 0x65020210c9 (s.signetRuns k warm) := by
  unfold State.signetRuns
  extract_lets y1 y2 y3 y4 y5 y6 y7 y8 y9 y10 y11 y12 y13 y14 y15 y16
  have h17 : s.Within 0x65020210c9 y3 := by
    unfold y3
    refine State.Within.trans ?_ ((State.setTp_within ..).mono (by rfl))
    exact (State.mapSec_within ..).mono (by rfl)
  clear_value y3
  have h18 : s.Within 0x65020210c9 y4 := by
    unfold y4
    refine State.Within.trans ?_ ((State.showImage_within ..).mono (by rfl))
    exact State.Within.trans (by assumption) ((State.setFld_within ..).mono (by rfl))
  clear_value y4
  have h19 : s.Within 0x65020210c9 y5 := by
    unfold y5
    refine State.Within.trans ?_ ((State.setFld_within ..).mono (by rfl))
    exact State.Within.trans (by assumption) ((State.setFld_within ..).mono (by rfl))
  clear_value y5
  have h20 : s.Within 0x65020210c9 y6 := by
    unfold y6
    exact State.Within.trans (by assumption) ((State.setFld_within ..).mono (by rfl))
  clear_value y6
  have h21 : s.Within 0x65020210c9 y7 := by
    unfold y7
    exact State.Within.trans (by assumption) ((State.bump_within ..).mono (by rfl))
  clear_value y7
  have h22 : s.Within 0x65020210c9 y8 := by
    unfold y8
    exact State.Within.trans (by assumption) ((State.loadCode_within ..).mono (by rfl))
  clear_value y8
  have h23 : s.Within 0x65020210c9 y9 := by
    unfold y9
    refine State.Within.ite ?_ ?_
    · assumption
    · refine State.Within.trans ?_ ((State.openStore_within ..).mono (by rfl))
      exact State.Within.trans (by assumption) ((State.makeHuk_within ..).mono (by rfl))
  clear_value y9
  have h24 : s.Within 0x65020210c9 y10 := by
    unfold y10
    exact State.Within.trans (by assumption) ((State.bootRecord_within ..).mono (by rfl))
  clear_value y10
  have h25 : s.Within 0x65020210c9 y11 := by
    unfold y11
    exact State.Within.trans (by assumption) ((State.setFld_within ..).mono (by rfl))
  clear_value y11
  have h26 : s.Within 0x65020210c9 y12 := by
    unfold y12
    exact State.Within.trans (by assumption) ((State.setFld_within ..).mono (by rfl))
  clear_value y12
  have h27 : s.Within 0x65020210c9 y13 := by
    unfold y13
    refine State.Within.each ?_ (fun u a => ?_)
    · exact State.Within.trans (by assumption) ((State.restoreSlots_within ..).mono (by rfl))
    · exact (State.assignOwner_within ..).mono (by rfl)
  clear_value y13
  have h28 : s.Within 0x65020210c9 y14 := by
    unfold y14
    refine State.Within.trans ?_ (State.onPage_within _ _ _ (fun u => ?_) (by rfl))
    · assumption
    · exact (State.setFld_within ..).mono (by rfl)
  clear_value y14
  have h29 : s.Within 0x65020210c9 y15 := by
    unfold y15
    refine State.Within.ite ?_ ?_
    · exact State.Within.trans (by assumption) ((State.mapSec_within ..).mono (by rfl))
    · exact State.Within.trans (by assumption) ((State.writeSeal_within ..).mono (by rfl))
  clear_value y15
  have h30 : s.Within 0x65020210c9 y16 := by
    unfold y16
    exact State.Within.trans (by assumption) ((State.startMp0_within ..).mono (by rfl))
  clear_value y16
  refine State.Within.ite ?_ ?_
  · refine State.Within.each ?_ (fun u a => ?_)
    · assumption
    · exact (State.assignOwner_within ..).mono (by rfl)
  · refine State.Within.each ?_ (fun u a => ?_)
    · assumption
    · exact (State.mbxTake_within ..).mono (by rfl)

theorem State.bootImage_within (s : State) (k : Nat) : s.Within 0x65020211c9 (s.bootImage k) := by
  unfold State.bootImage
  refine State.Within.trans ?_ ((State.signetRuns_within ..).mono (by rfl))
  exact (State.loadSignet_within ..).mono (by rfl)

theorem State.tryBoot_within (s : State) (l : List Nat) : s.Within 0x65020211c9 (s.tryBoot l) := by
  induction l generalizing s with
  | nil =>
    unfold State.tryBoot
    extract_lets t
    have ht : s.Within 0x65020211c9 t := State.Within.trans ((State.setFld_within ..).mono (by rfl)) ((State.mapSec_within ..).mono (by rfl))
    exact State.Within.ite (ht.trans ((State.mbxTake_within ..).mono (by rfl))) ht
  | cons k rest ih =>
    unfold State.tryBoot
    split
    · exact (State.bootImage_within ..).mono (by rfl)
    · exact State.Within.trans ((State.setFld_within ..).mono (by rfl)) (ih _)

theorem State.coldBoot_within (s : State) : s.Within 0x65020215c9 s.coldBoot := by
  unfold State.coldBoot
  refine State.Within.ite ?_ ?_
  · exact State.Within.refl _
  · extract_lets y1 y2 y3
    have h4 : s.Within 0x65020215c9 y3 := by
      unfold y3
      refine State.Within.ite ?_ ?_
      · exact State.Within.refl _
      · exact (State.putHdr_within ..).mono (by rfl)
    clear_value y3
    exact State.Within.trans (by assumption) ((State.tryBoot_within ..).mono (by rfl))

theorem State.warmBoot_within (s : State) : s.Within 0x65020211c9 s.warmBoot := by
  unfold State.warmBoot
  split
  · refine State.Within.ite ?_ ?_
    · split
      refine State.Within.trans ?_ ((State.signetRuns_within ..).mono (by rfl))
      exact (State.loadSignet_within ..).mono (by rfl)
    · exact State.Within.refl _
  · exact State.Within.refl _

theorem State.mainReady_within (s : State) : s.Within 0x4102020089 s.mainReady := by
  unfold State.mainReady
  split
  · refine State.Within.ite ?_ ?_
    · refine State.Within.trans ?_ ((State.raise_within ..).mono (by rfl))
      refine State.Within.trans ?_ ((State.mapSec_within ..).mono (by rfl))
      exact (State.putCode_within ..).mono (by rfl)
    · exact State.Within.refl _
  · exact State.Within.refl _

theorem State.blockRun_within (s : State) (slot : Nat) (d : Delivery) (base : Nat) (bad : Bool) :
    s.Within 0x60028204c9 (s.blockRun slot d base bad).2 := by
  unfold State.blockRun
  extract_lets y1 y2 y3 y4 y5
  have h6 : s.Within 0x60028204c9 y4 := by
    unfold y4
    exact (State.putFlash_within ..).mono (by rfl)
  clear_value y4
  refine State.Within.itp ?_ ?_
  · dsimp only
    exact (State.ansReason_within ..).mono (by rfl)
  · refine State.Within.itp ?_ ?_
    · dsimp only
      refine State.Within.trans ?_ ((State.ansReason_within ..).mono (by rfl))
      exact (State.bump_within ..).mono (by rfl)
    · refine State.Within.itp ?_ ?_
      · split
        rename_i x7 e8
        have h9 : s.Within 0x60028204c9 x7 := State.Within.of_pair e8 (by exact (State.drawBytes_within ..).mono (by rfl))
        extract_lets y10
        have h11 : s.Within 0x60028204c9 y10 := by
          unfold y10
          exact State.Within.trans (by assumption) ((State.putFlash_within ..).mono (by rfl))
        clear_value y10
        dsimp only
        refine State.Within.trans ?_ ((State.ansReason_within ..).mono (by rfl))
        exact State.Within.trans (by assumption) ((State.logErr_within ..).mono (by rfl))
      · dsimp only
        exact State.Within.trans (by assumption) ((State.ansOk_within ..).mono (by rfl))

theorem State.imgBegin_within (s : State) (slot : Nat) : s.Within 0x41020204c9 (s.imgBegin slot) := by
  unfold State.imgBegin
  extract_lets y1
  refine State.updServe_within ?_ ?_ (by rfl)
  · exact State.Within.refl _
  · refine State.Within.ite ?_ ?_
    · exact (State.ansReason_within ..).mono (by rfl)
    · split
      · exact (State.ansReason_within ..).mono (by rfl)
      · extract_lets y2
        have h3 : s.Within 0x41020204c9 y2 := by
          unfold y2
          exact (State.putHdr_within ..).mono (by rfl)
        clear_value y2
        refine State.Within.trans ?_ ((State.ansOk_within ..).mono (by rfl))
        exact State.Within.trans (by assumption) ((State.mapSec_within ..).mono (by rfl))

theorem State.imgBlock_within (s : State) (slot : Nat) (bad : Bool) : s.Within 0x61028204c9 (s.imgBlock slot bad) := by
  unfold State.imgBlock
  refine State.updServe_within ?_ ?_ (by rfl)
  · exact State.Within.refl _
  · split
    · exact (State.ansReason_within ..).mono (by rfl)
    · refine State.Within.ite ?_ ?_
      · exact (State.ansReason_within ..).mono (by rfl)
      · split
        · rename_i x1 e2
          have h3 : s.Within 0x61028204c9 x1 := State.Within.of_pair e2 (by exact (State.blockRun_within ..).mono (by rfl))
          extract_lets y4
          have h5 : s.Within 0x61028204c9 y4 := by
            unfold y4
            refine State.Within.ite ?_ ?_
            · assumption
            · exact State.Within.trans (by assumption) ((State.bump_within ..).mono (by rfl))
          clear_value y4
          exact State.Within.trans (by assumption) ((State.mapSec_within ..).mono (by rfl))
        · rename_i x6 e7
          have h8 : s.Within 0x61028204c9 x6 := State.Within.of_pair e7 (by exact (State.blockRun_within ..).mono (by rfl))
          assumption

theorem State.imgVerify_within (s : State) (slot : Nat) : s.Within 0x65020211c9 (s.imgVerify slot) := by
  unfold State.imgVerify
  refine State.updServe_within ?_ ?_ (by rfl)
  · exact State.Within.refl _
  · split
    · exact (State.ansReason_within ..).mono (by rfl)
    · refine State.Within.ite ?_ ?_
      · exact (State.ansReason_within ..).mono (by rfl)
      · split
        · refine State.Within.trans ?_ ((State.ansReason_within ..).mono (by rfl))
          exact (State.bump_within ..).mono (by rfl)
        · extract_lets y1 y2 y3
          have h4 : s.Within 0x65020211c9 y2 := by
            unfold y2
            refine State.Within.trans ?_ ((State.raise_within ..).mono (by rfl))
            exact (State.mapSec_within ..).mono (by rfl)
          clear_value y2
          have h5 : s.Within 0x65020211c9 y3 := by
            unfold y3
            exact State.Within.trans (by assumption) ((State.ansOk_within ..).mono (by rfl))
          clear_value y3
          refine State.Within.ite ?_ ?_
          · exact State.Within.trans (by assumption) ((State.bootImage_within ..).mono (by rfl))
          · assumption

theorem State.imgStage_within (s : State) (slot : Nat) : s.Within 0x41020204c9 (s.imgStage slot) := by
  unfold State.imgStage
  refine State.updServe_within ?_ ?_ (by rfl)
  · exact State.Within.refl _
  · split
    · exact (State.ansReason_within ..).mono (by rfl)
    · refine State.Within.ite ?_ ?_
      · exact (State.ansReason_within ..).mono (by rfl)
      · extract_lets y1 y2 y3 y4
        have h5 : s.Within 0x41020204c9 y3 := by
          unfold y3
          refine State.Within.trans ?_ ((State.putHdr_within ..).mono (by rfl))
          exact (State.loadImage_within ..).mono (by rfl)
        clear_value y3
        have h6 : s.Within 0x41020204c9 y4 := by
          unfold y4
          exact State.Within.trans (by assumption) ((State.mapSec_within ..).mono (by rfl))
        clear_value y4
        refine State.Within.trans ?_ ((State.ansOk_within ..).mono (by rfl))
        exact State.Within.trans (by assumption) ((State.setFld_within ..).mono (by rfl))

theorem State.restartInto_within (s : State) (k slot : Nat) (abandon : Bool) : s.Within 0x102000101 (s.restartInto k slot abandon) := by
  unfold State.restartInto
  refine State.Within.trans ?_ ((State.mapSec_within ..).mono (by rfl))
  refine State.Within.trans ?_ ((State.tpLeaves_within ..).mono (by rfl))
  exact (State.loadSignet_within ..).mono (by rfl)

theorem State.imgSignet_within (s : State) (slot : Nat) : s.Within 0x41020201c9 (s.imgSignet slot) := by
  unfold State.imgSignet
  refine State.updServe_within ?_ ?_ (by rfl)
  · exact State.Within.refl _
  · split
    · exact (State.ansReason_within ..).mono (by rfl)
    · refine State.Within.ite ?_ ?_
      · exact (State.ansReason_within ..).mono (by rfl)
      · refine State.Within.trans ?_ ((State.mapSec_within ..).mono (by rfl))
        exact (State.restartInto_within ..).mono (by rfl)

theorem State.raiseSecVersion_within (s : State) (v : Nat) : s.Within 0x1000 (s.raiseSecVersion v) := by
  unfold State.raiseSecVersion
  refine State.Within.each ?_ (fun u a => ?_)
  · exact State.Within.refl _
  · refine State.Within.ite ?_ ?_
    · exact (State.blow_within ..).mono (by rfl)
    · exact State.Within.refl _

theorem State.commitImage_within (s : State) (k : Nat) : s.Within 0x4100021409 (s.commitImage k) := by
  unfold State.commitImage
  extract_lets y1 y2 y3 y4
  have h5 : s.Within 0x4100021409 y2 := by
    unfold y2
    exact (State.putHdr_within ..).mono (by rfl)
  clear_value y2
  have h6 : s.Within 0x4100021409 y3 := by
    unfold y3
    refine State.Within.trans ?_ ((State.showImage_within ..).mono (by rfl))
    exact State.Within.trans (by assumption) ((State.raiseSecVersion_within ..).mono (by rfl))
  clear_value y3
  have h7 : s.Within 0x4100021409 y4 := by
    unfold y4
    exact State.Within.trans (by assumption) ((State.mapSec_within ..).mono (by rfl))
  clear_value y4
  refine State.Within.trans ?_ ((State.raise_within ..).mono (by rfl))
  refine State.Within.trans ?_ ((State.setFld_within ..).mono (by rfl))
  exact State.Within.trans (by assumption) ((State.setFld_within ..).mono (by rfl))

theorem State.imgCommit_within (s : State) (slot : Nat) : s.Within 0x41020214c9 (s.imgCommit slot) := by
  unfold State.imgCommit
  refine State.updServe_within ?_ ?_ (by rfl)
  · exact State.Within.refl _
  · split
    · refine State.Within.ite ?_ ?_
      · extract_lets y1 y2
        have h3 : s.Within 0x41020214c9 y2 := by
          unfold y2
          refine State.Within.trans ?_ ((State.lockRegion_within ..).mono (by rfl))
          exact (State.commitImage_within ..).mono (by rfl)
        clear_value y2
        refine State.Within.trans ?_ ((State.ansOk_within ..).mono (by rfl))
        refine State.Within.trans ?_ ((State.writeSeal_within ..).mono (by rfl))
        exact State.Within.trans (by assumption) ((State.mapSec_within ..).mono (by rfl))
      · exact (State.ansReason_within ..).mono (by rfl)
    · extract_lets y4
      refine State.Within.ite ?_ ?_
      · refine State.Within.trans ?_ ((State.ansOk_within ..).mono (by rfl))
        exact (State.commitImage_within ..).mono (by rfl)
      · exact (State.ansReason_within ..).mono (by rfl)

theorem State.dropStaged_within (s : State) (slot k : Nat) : s.Within 0x41020204c9 (s.dropStaged slot k) := by
  unfold State.dropStaged
  extract_lets y1 y2
  have h3 : s.Within 0x41020204c9 y1 := by
    unfold y1
    refine State.Within.trans ?_ ((State.lockRegion_within ..).mono (by rfl))
    exact (State.putHdr_within ..).mono (by rfl)
  clear_value y1
  have h4 : s.Within 0x41020204c9 y2 := by
    unfold y2
    exact State.Within.trans (by assumption) ((State.mapSec_within ..).mono (by rfl))
  clear_value y2
  refine State.Within.trans ?_ ((State.ansOk_within ..).mono (by rfl))
  exact State.Within.trans (by assumption) ((State.setFld_within ..).mono (by rfl))

theorem State.abandonTrial_within (s : State) (slot k : Nat) (runs : Bool) : s.Within 0x41020205c9 (s.abandonTrial slot k runs) := by
  unfold State.abandonTrial
  split
  · exact (State.restartInto_within ..).mono (by rfl)
  · exact (State.dropStaged_within ..).mono (by rfl)

theorem State.imgAbandon_within (s : State) (slot : Nat) : s.Within 0x41020205c9 (s.imgAbandon slot) := by
  unfold State.imgAbandon
  refine State.updServe_within ?_ ?_ (by rfl)
  · exact State.Within.refl _
  · split
    · exact (State.abandonTrial_within ..).mono (by rfl)
    · refine State.Within.trans ?_ ((State.ansOk_within ..).mono (by rfl))
      refine State.Within.trans ?_ ((State.mapSec_within ..).mono (by rfl))
      exact (State.putHdr_within ..).mono (by rfl)
    · exact (State.abandonTrial_within ..).mono (by rfl)
    · exact (State.ansReason_within ..).mono (by rfl)

theorem State.tpRestarted_within (s : State) (corr : Nat × Nat) : s.Within 0x41020204c9 (s.tpRestarted corr) := by
  unfold State.tpRestarted
  refine State.Within.ite ?_ ?_
  · extract_lets y1 y2 y3 y4
    have h5 : s.Within 0x41020204c9 y2 := by
      unfold y2
      exact (State.tpResumes_within ..).mono (by rfl)
    clear_value y2
    have h6 : s.Within 0x41020204c9 y3 := by
      unfold y3
      exact State.Within.trans (by assumption) ((State.mapSec_within ..).mono (by rfl))
    clear_value y3
    have h7 : s.Within 0x41020204c9 y4 := by
      unfold y4
      split
      · exact State.Within.trans (by assumption) ((State.dropStaged_within ..).mono (by rfl))
      · exact State.Within.trans (by assumption) ((State.ansOk_within ..).mono (by rfl))
      · assumption
    clear_value y4
    refine State.Within.each ?_ (fun u a => ?_)
    · exact State.Within.trans (by assumption) ((State.eccSeen_within ..).mono (by rfl))
    · exact (State.mbxTake_within ..).mono (by rfl)
  · exact State.Within.refl _

theorem State.trialExpired_within (s : State) : s.Within 0x4100020409 s.trialExpired := by
  unfold State.trialExpired
  refine State.Within.ite ?_ ?_
  · refine State.Within.trans ?_ ((State.raise_within ..).mono (by rfl))
    refine State.Within.trans ?_ ((State.mapSec_within ..).mono (by rfl))
    exact (State.putHdr_within ..).mono (by rfl)
  · exact State.Within.refl _

theorem State.recBegin_within (s : State) (slot : Nat) : s.Within 0x41020200c9 (s.recBegin slot) := by
  unfold State.recBegin
  extract_lets y1 y2
  refine State.updServe_within ?_ ?_ (by rfl)
  · exact State.Within.refl _
  · refine State.Within.ite ?_ ?_
    · exact (State.ansReason_within ..).mono (by rfl)
    · refine State.Within.trans ?_ ((State.ansOk_within ..).mono (by rfl))
      exact (State.mapSec_within ..).mono (by rfl)

theorem State.recBlock_within (s : State) (slot : Nat) (bad : Bool) : s.Within 0x61028204c9 (s.recBlock slot bad) := by
  unfold State.recBlock
  refine State.updServe_within ?_ ?_ (by rfl)
  · exact State.Within.refl _
  · split
    · exact (State.ansReason_within ..).mono (by rfl)
    · split
      · rename_i x1 e2
        have h3 : s.Within 0x61028204c9 x1 := State.Within.of_pair e2 (by exact (State.blockRun_within ..).mono (by rfl))
        exact State.Within.trans (by assumption) ((State.mapSec_within ..).mono (by rfl))
      · rename_i x4 e5
        have h6 : s.Within 0x61028204c9 x4 := State.Within.of_pair e5 (by exact (State.blockRun_within ..).mono (by rfl))
        assumption

theorem State.recActivate_within (s : State) (slot : Nat) : s.Within 0x41020200c9 (s.recActivate slot) := by
  unfold State.recActivate
  refine State.updServe_within ?_ ?_ (by rfl)
  · exact State.Within.refl _
  · split
    · exact (State.ansReason_within ..).mono (by rfl)
    · extract_lets y1 y2
      refine State.Within.ite ?_ ?_
      · exact (State.ansReason_within ..).mono (by rfl)
      · split
        · exact (State.ansReason_within ..).mono (by rfl)
        · refine State.Within.ite ?_ ?_
          · exact (State.ansReason_within ..).mono (by rfl)
          · refine State.Within.ite ?_ ?_
            · exact (State.ansReason_within ..).mono (by rfl)
            · refine State.Within.trans ?_ ((State.ansOk_within ..).mono (by rfl))
              refine State.Within.trans ?_ ((State.useRecord_within ..).mono (by rfl))
              exact (State.mapSec_within ..).mono (by rfl)

theorem State.blockOut_within (s : State) (space addr : Nat) (l : List Byte) : s.Within 0x20000c0 (s.blockOut space addr l) := by
  unfold State.blockOut
  refine State.Within.ite ?_ ?_
  · exact (State.msramPut_within ..).mono (by rfl)
  · refine State.Within.set_scratch ?_ (by rfl)
    exact State.Within.refl _

theorem State.recRead_within (s : State) (slot : Nat) : s.Within 0x40020200c9 (s.recRead slot) := by
  unfold State.recRead
  extract_lets y1 y2 y3 y4 y5
  refine State.updServe_within ?_ ?_ (by rfl)
  · exact State.Within.refl _
  · split
    · exact (State.ansReason_within ..).mono (by rfl)
    · refine State.Within.ite ?_ ?_
      · exact (State.ansReason_within ..).mono (by rfl)
      · refine State.Within.trans ?_ ((State.ansOk_within ..).mono (by rfl))
        exact (State.blockOut_within ..).mono (by rfl)

theorem State.recSeal_within (s : State) (slot : Nat) : s.Within 0x61020204c9 (s.recSeal slot) := by
  unfold State.recSeal
  extract_lets y1 y2 y3 y4 y5 y6
  refine State.updServe_within ?_ ?_ (by rfl)
  · exact State.Within.refl _
  · split
    · exact (State.ansReason_within ..).mono (by rfl)
    · refine State.Within.ite ?_ ?_
      · exact (State.ansReason_within ..).mono (by rfl)
      · split
        rename_i x7 e8
        have h9 : s.Within 0x61020204c9 x7 := State.Within.of_pair e8 (by exact (State.draw_within ..).mono (by rfl))
        extract_lets y10 y11 y12
        refine State.Within.trans ?_ ((State.ansOk_within ..).mono (by rfl))
        refine State.Within.trans ?_ ((State.useRecord_within ..).mono (by rfl))
        exact State.Within.trans (by assumption) ((State.putFlash_within ..).mono (by rfl))

theorem State.clearSecrets_within (s : State) : s.Within 0x102000100 s.clearSecrets := by
  unfold State.clearSecrets
  extract_lets y1 y2 y3 y4 y5 y6
  have h7 : s.Within 0x102000100 y5 := by
    unfold y5
    refine State.Within.set_tsram ?_ (by rfl)
    exact State.Within.refl _
  clear_value y5
  have h8 : s.Within 0x102000100 y6 := by
    unfold y6
    exact State.Within.trans (by assumption) ((State.mapProcs_within ..).mono (by rfl))
  clear_value y6
  exact State.Within.trans (by assumption) ((State.mapSec_within ..).mono (by rfl))

theorem State.dbgSubmit_within (s : State) : s.Within 0x4502021309 s.dbgSubmit := by
  unfold State.dbgSubmit
  refine State.Within.ite ?_ ?_
  · exact State.Within.refl _
  · extract_lets y1 y2 y3 y4 y5 y6
    have h7 : s.Within 0x4502021309 y3 := by
      unfold y3
      refine State.Within.trans ?_ ((State.wipeLocket_within ..).mono (by rfl))
      refine State.Within.trans ?_ ((State.wipeSlots_within ..).mono (by rfl))
      exact (State.useNonce_within ..).mono (by rfl)
    clear_value y3
    have h8 : s.Within 0x4502021309 y4 := by
      unfold y4
      exact State.Within.trans (by assumption) ((State.clearSecrets_within ..).mono (by rfl))
    clear_value y4
    have h9 : s.Within 0x4502021309 y5 := by
      unfold y5
      refine State.Within.ite ?_ ?_
      · exact State.Within.trans (by assumption) ((State.advanceEpoch_within ..).mono (by rfl))
      · assumption
    clear_value y5
    have h10 : s.Within 0x4502021309 y6 := by
      unfold y6
      refine State.Within.trans ?_ ((State.setFld_within ..).mono (by rfl))
      refine State.Within.trans ?_ ((State.setFld_within ..).mono (by rfl))
      exact State.Within.trans (by assumption) ((State.setFld_within ..).mono (by rfl))
    clear_value y6
    clear_value y2
    clear_value y1
    split
    · exact (State.setFld_within ..).mono (by rfl)
    · refine State.Within.ite ?_ ?_
      · exact (State.setFld_within ..).mono (by rfl)
      · refine State.Within.ite ?_ ?_
        · refine State.Within.trans ?_ ((State.raise_within ..).mono (by rfl))
          exact State.Within.trans (by assumption) ((State.bump_within ..).mono (by rfl))
        · refine State.Within.trans ?_ ((State.tokenFailed_within ..).mono (by rfl))
          refine State.Within.trans ?_ ((State.raise_within ..).mono (by rfl))
          refine State.Within.trans ?_ ((State.bump_within ..).mono (by rfl))
          refine State.Within.trans ?_ ((State.setFld_within ..).mono (by rfl))
          exact (State.useNonce_within ..).mono (by rfl)

theorem State.ageSave_within (s : State) (slot : Nat) : s.Within 0x40020204c9 (s.ageSave slot) := by
  unfold State.ageSave
  extract_lets y1 y2 y3 y4 y5 y6 y7
  refine State.updServe_within ?_ ?_ (by rfl)
  · exact State.Within.refl _
  · refine State.Within.ite ?_ ?_
    · exact (State.ansBadArg_within ..).mono (by rfl)
    · refine State.Within.trans ?_ ((State.ansOk_within ..).mono (by rfl))
      exact (State.putFlash_within ..).mono (by rfl)

theorem State.ageLoad_within (s : State) (slot : Nat) : s.Within 0x40020200c9 (s.ageLoad slot) := by
  unfold State.ageLoad
  extract_lets y1 y2 y3
  refine State.updServe_within ?_ ?_ (by rfl)
  · exact State.Within.refl _
  · refine State.Within.ite ?_ ?_
    · exact (State.ansBadArg_within ..).mono (by rfl)
    · refine State.Within.trans ?_ ((State.ansOk_within ..).mono (by rfl))
      exact (State.msramPut_within ..).mono (by rfl)

/-! ## Machine/Reset.lean -/

theorem State.coldState_within (s : State) (rst : Rst) : s.Within 0x1fffffe3ff (s.coldState rst) := by
  unfold State.coldState
  extract_lets y1
  refine State.Within.set_most_1fffffe3ff ?_ (by rfl)
  exact State.Within.refl _

theorem State.deviceState_within (s : State) : s.Within 0xfffffe3ff s.deviceState := by
  unfold State.deviceState State.coldState
  exact State.Within.set_most_fffffe3ff (State.Within.refl s) (by rfl)

theorem State.systemState_within (s : State) : s.Within 0x4fffffe3ff s.systemState := by
  unfold State.systemState
  extract_lets y1 y2 y3 y4 y5 y6 y7 y8
  have h9 : s.Within 0x4fffffe3ff y2 := by
    unfold y2
    exact (State.deviceState_within ..).mono (by rfl)
  clear_value y2
  have h10 : s.Within 0x4fffffe3ff y5 := by
    unfold y5
    refine State.Within.set_regs_counters_snapshot_drainTimer_power_sec ?_ (by rfl)
    assumption
  clear_value y5
  have h11 : s.Within 0x4fffffe3ff y6 := by
    unfold y6
    refine State.Within.ite ?_ ?_
    · exact State.Within.trans (by assumption) ((State.setStatus_within ..).mono (by rfl))
    · assumption
  clear_value y6
  have h12 : s.Within 0x4fffffe3ff y7 := by
    unfold y7
    refine State.Within.ite ?_ ?_
    · assumption
    · refine State.Within.trans ?_ ((State.setResult_within ..).mono (by rfl))
      exact State.Within.trans (by assumption) ((State.setPhase_within ..).mono (by rfl))
  clear_value y7
  have h13 : s.Within 0x4fffffe3ff y8 := by
    unfold y8
    refine State.Within.trans ?_ ((State.setFld_within ..).mono (by rfl))
    exact State.Within.trans (by assumption) ((State.setFld_within ..).mono (by rfl))
  clear_value y8
  refine State.Within.ite ?_ ?_
  · assumption
  · exact State.Within.trans (by assumption) ((State.nmReachedRun_within ..).mono (by rfl))

theorem State.releaseTp_within (s : State) : s.Within 0x2000000 s.releaseTp := by
  unfold State.releaseTp
  refine State.Within.ite ?_ ?_
  · exact State.Within.refl _
  · exact (State.setTp_within ..).mono (by rfl)

theorem State.resetBalls_within (s : State) (r : Rst) (l : List Ball) : s.Within 0x4800000000 (s.resetBalls r l) := by
  unfold State.resetBalls
  refine State.Within.trans ?_ ((State.showBalls_within ..).mono (by rfl))
  exact (State.emit_within ..).mono (by rfl)

theorem State.xspiHold_within (s : State) : s.Within 0x800000000 s.xspiHold := by
  unfold State.xspiHold
  refine State.Within.set_rst ?_ (by rfl)
  exact State.Within.refl _

theorem State.psuUp_within (s : State) (old : State) : s.Within 0x4000000000 (s.psuUp old) := by
  unfold State.psuUp
  refine State.Within.ite ?_ ?_
  · exact State.Within.refl _
  · exact (State.emit_within ..).mono (by rfl)

theorem State.deviceReset_within (s : State) (source : Nat) : s.Within 0x4fffffe3ff (s.deviceReset source) := by
  unfold State.deviceReset
  refine State.Within.trans ?_ ((State.releaseTp_within ..).mono (by rfl))
  refine State.Within.trans ?_ ((State.resetBalls_within ..).mono (by rfl))
  refine State.Within.trans ?_ ((State.xspiHold_within ..).mono (by rfl))
  refine State.Within.trans ?_ ((State.psuUp_within ..).mono (by rfl))
  refine State.Within.trans ?_ ((State.rstCause_within ..).mono (by rfl))
  exact (State.deviceState_within ..).mono (by rfl)

theorem State.systemReset_within (s : State) (source : Nat) : s.Within 0x4fffffe3ff (s.systemReset source) := by
  unfold State.systemReset
  refine State.Within.ite ?_ ?_
  · exact State.Within.refl _
  · refine State.Within.trans ?_ ((State.releaseTp_within ..).mono (by rfl))
    refine State.Within.trans ?_ ((State.resetBalls_within ..).mono (by rfl))
    refine State.Within.trans ?_ ((State.psuUp_within ..).mono (by rfl))
    refine State.Within.trans ?_ ((State.rstCause_within ..).mono (by rfl))
    exact (State.systemState_within ..).mono (by rfl)

theorem State.mgmtClear_within (s : State) : s.Within 0x43ffb3609f s.mgmtClear := by
  unfold State.mgmtClear
  extract_lets y1 y2 y3 y4
  have h5 : s.Within 0x43ffb3609f y1 := by
    unfold y1
    exact (State.freshPage_within ..).mono (by rfl)
  clear_value y1
  have h6 : s.Within 0x43ffb3609f y2 := by
    unfold y2
    exact State.Within.trans (by assumption) ((State.mapProcs_within ..).mono (by rfl))
  clear_value y2
  have h7 : s.Within 0x43ffb3609f y3 := by
    unfold y3
    exact State.Within.trans (by assumption) ((State.mapBridge_within ..).mono (by rfl))
  clear_value y3
  refine State.Within.set_msram ?_ (by rfl)
  assumption

theorem State.mgmtReload_within (s : State) : s.Within 0x102000081 s.mgmtReload := by
  unfold State.mgmtReload
  split
  · refine State.Within.ite ?_ ?_
    · extract_lets y1
      have h2 : s.Within 0x102000081 y1 := by
        unfold y1
        refine State.Within.trans ?_ ((State.loadImage_within ..).mono (by rfl))
        exact (State.assignOwner_within ..).mono (by rfl)
      clear_value y1
      refine State.Within.trans ?_ ((State.startMp0_within ..).mono (by rfl))
      exact State.Within.trans (by assumption) ((State.mapSec_within ..).mono (by rfl))
    · exact State.Within.refl _
  · exact State.Within.refl _

theorem State.mgmtReset_within (s : State) (source : Nat) : s.Within 0x43ffb3609f (s.mgmtReset source) := by
  unfold State.mgmtReset
  refine State.Within.ite ?_ ?_
  · exact State.Within.refl _
  · refine State.Within.trans ?_ ((State.mgmtReload_within ..).mono (by rfl))
    refine State.Within.trans ?_ ((State.rstCause_within ..).mono (by rfl))
    exact (State.mgmtClear_within ..).mono (by rfl)

theorem State.perstPage_within (s : State) (p : Page) : s.Within 0x43fdb3201f (s.perstPage p) := by
  unfold State.perstPage
  refine State.Within.trans ?_ ((State.resetWords_within ..).mono (by rfl))
  refine State.Within.trans ?_ ((State.resetTabs_within ..).mono (by rfl))
  refine State.Within.trans ?_ ((State.resetCounters_within ..).mono (by rfl))
  refine State.Within.trans ?_ ((State.resetEngine_within ..).mono (by rfl))
  exact (State.drainTime_within ..).mono (by rfl)

theorem State.perst_within (s : State) : s.Within 0x6bffb328df s.perst := by
  unfold State.perst
  refine State.Within.ite ?_ ?_
  · exact State.Within.refl _
  · refine State.Within.ite ?_ ?_
    · refine State.Within.set_rst ?_ (by rfl)
      exact State.Within.refl _
    · extract_lets y1 y2 y3 y4 y5
      have h6 : s.Within 0x6bffb328df y1 := by
        unfold y1
        refine State.Within.trans ?_ ((State.cfgReset_within ..).mono (by rfl))
        refine State.Within.trans ?_ ((State.hostLost_within ..).mono (by rfl))
        exact (State.pcieDown_within ..).mono (by rfl)
      clear_value y1
      have h7 : s.Within 0x6bffb328df y2 := by
        unfold y2
        refine State.Within.each ?_ (fun u a => ?_)
        · assumption
        · exact (State.perstPage_within ..).mono (by rfl)
      clear_value y2
      have h8 : s.Within 0x6bffb328df y3 := by
        unfold y3
        refine State.Within.set_pcie ?_ (by rfl)
        assumption
      clear_value y3
      have h9 : s.Within 0x6bffb328df y4 := by
        unfold y4
        refine State.Within.trans ?_ ((State.rstCause_within ..).mono (by rfl))
        exact State.Within.trans (by assumption) ((State.freshPort_within ..).mono (by rfl))
      clear_value y4
      refine State.Within.trans ?_ ((State.showBalls_within ..).mono (by rfl))
      refine State.Within.set_rst ?_ (by rfl)
      assumption

theorem State.porLow_within (s : State) : s.Within 0x4fffffe3ff s.porLow := by
  unfold State.porLow
  refine State.Within.ite ?_ ?_
  · exact State.Within.refl _
  · refine State.Within.trans ?_ ((State.deviceReset_within ..).mono (by rfl))
    refine State.Within.set_rst ?_ (by rfl)
    exact State.Within.refl _

theorem State.sysLow_within (s : State) : s.Within 0x4fffffe3ff s.sysLow := by
  unfold State.sysLow
  refine State.Within.ite ?_ ?_
  · exact State.Within.refl _
  · refine State.Within.trans ?_ ((State.systemReset_within ..).mono (by rfl))
    refine State.Within.set_rst ?_ (by rfl)
    exact State.Within.refl _

theorem State.pinReleased_within (s : State) (pin : ResetPin) : s.Within 0x4802000000 (s.pinReleased pin) := by
  unfold State.pinReleased
  split
  · refine State.Within.ite ?_ ?_
    · refine State.Within.trans ?_ ((State.releaseTp_within ..).mono (by rfl))
      refine State.Within.trans ?_ ((State.showBalls_within ..).mono (by rfl))
      refine State.Within.trans ?_ ((State.xspiHold_within ..).mono (by rfl))
      refine State.Within.set_rst ?_ (by rfl)
      exact State.Within.refl _
    · exact State.Within.refl _
  · refine State.Within.ite ?_ ?_
    · refine State.Within.trans ?_ ((State.releaseTp_within ..).mono (by rfl))
      refine State.Within.trans ?_ ((State.showBalls_within ..).mono (by rfl))
      refine State.Within.set_rst ?_ (by rfl)
      exact State.Within.refl _
    · exact State.Within.refl _
  · refine State.Within.ite ?_ ?_
    · refine State.Within.trans ?_ ((State.showBalls_within ..).mono (by rfl))
      refine State.Within.set_rst ?_ (by rfl)
      exact State.Within.refl _
    · exact State.Within.refl _

theorem State.coldReset_within (s : State) (search : List (List Nat)) : s.Within 0x7fffffe3ff (s.coldReset search) := by
  unfold State.coldReset
  refine State.Within.ite ?_ ?_
  · extract_lets y1 y2 y3 y4
    have h5 : s.Within 0x7fffffe3ff y1 := by
      unfold y1
      refine State.Within.trans ?_ ((State.coldState_within ..).mono (by rfl))
      exact (State.emit_within ..).mono (by rfl)
    clear_value y1
    have h6 : s.Within 0x7fffffe3ff y2 := by
      unfold y2
      exact State.Within.trans (by assumption) ((State.mapPower_within ..).mono (by rfl))
    clear_value y2
    have h7 : s.Within 0x7fffffe3ff y3 := by
      unfold y3
      exact State.Within.trans (by assumption) ((State.searchAll_within ..).mono (by rfl))
    clear_value y3
    refine State.Within.trans ?_ ((State.setTp_within ..).mono (by rfl))
    refine State.Within.trans ?_ ((State.resetBalls_within ..).mono (by rfl))
    exact State.Within.trans (by assumption) ((State.setFld_within ..).mono (by rfl))
  · exact State.Within.refl _

theorem State.brownOut_within (s : State) : s.Within 0x5fffffe3ff s.brownOut := by
  unfold State.brownOut
  refine State.Within.trans ?_ ((State.showBalls_within ..).mono (by rfl))
  refine State.Within.trans ?_ ((State.emit_within ..).mono (by rfl))
  exact (State.coldState_within ..).mono (by rfl)

theorem State.noMp_within (s : State) : s.Within 0x43ffb3609f s.noMp := by
  unfold State.noMp
  refine State.Within.ite ?_ ?_
  · exact (State.mgmtReset_within ..).mono (by rfl)
  · exact State.Within.refl _

theorem State.rstCtrl_within (s : State) (v : Nat) : s.Within 0x4fffffe3ff (s.rstCtrl v) := by
  unfold State.rstCtrl
  refine State.Within.ite ?_ ?_
  · exact (State.deviceReset_within ..).mono (by rfl)
  · refine State.Within.ite ?_ ?_
    · exact (State.systemReset_within ..).mono (by rfl)
    · refine State.Within.ite ?_ ?_
      · exact (State.mgmtReset_within ..).mono (by rfl)
      · exact State.Within.refl _

theorem State.lcGo_within (s : State) (slot : Nat) : s.Within 0x4ffffff3ff (s.lcGo slot) := by
  unfold State.lcGo
  split
  rename_i x1 e2
  have h3 : s.Within 0x4ffffff3ff x1 := State.Within.of_pair e2 (by exact (State.lcTransition_within ..).mono (by rfl))
  refine State.Within.ite ?_ ?_
  · exact State.Within.trans (by assumption) ((State.deviceReset_within ..).mono (by rfl))
  · assumption

theorem State.mgmtAsk_within (s : State) (slot : Nat) : s.Within 0x43ffb360df (s.mgmtAsk slot) := by
  unfold State.mgmtAsk
  refine State.updServe_within ?_ ?_ (by rfl)
  · exact State.Within.refl _
  · refine State.Within.trans ?_ ((State.mgmtReset_within ..).mono (by rfl))
    exact (State.ansOk_within ..).mono (by rfl)

/-! ## Machine/Router.lean -/

theorem State.errClear_within (s : State) (p : Page) : s.Within 0x1 (s.errClear p) := by
  unfold State.errClear
  refine State.Within.trans ?_ ((State.setWord_within ..).mono (by rfl))
  refine State.Within.trans ?_ ((State.setWord_within ..).mono (by rfl))
  refine State.Within.trans ?_ ((State.setWord_within ..).mono (by rfl))
  exact (State.setFld_within ..).mono (by rfl)

theorem State.evtClr_within (s : State) (p : Page) (v : Nat) : s.Within 0x4000020009 (s.evtClr p v) := by
  unfold State.evtClr
  extract_lets y1
  have h2 : s.Within 0x4000020009 y1 := by
    unfold y1
    exact (State.setWord_within ..).mono (by rfl)
  clear_value y1
  refine State.Within.ite ?_ ?_
  · assumption
  · exact State.Within.trans (by assumption) ((State.pageMessage_within ..).mono (by rfl))

theorem State.snap_within (s : State) (p : Page) : s.Within 0x11 (s.snap p) := by
  unfold State.snap
  extract_lets y1
  refine State.Within.trans ?_ ((State.setFld_within ..).mono (by rfl))
  refine State.Within.set_snapshot ?_ (by rfl)
  exact State.Within.refl _

theorem State.routePut_within (s : State) (n v : Nat) : s.Within 0x4000020009 (s.routePut n v) := by
  unfold State.routePut
  extract_lets y1 y2
  have h3 : s.Within 0x4000020009 y2 := by
    unfold y2
    exact (State.setWord_within ..).mono (by rfl)
  clear_value y2
  split
  · refine State.Within.ite ?_ ?_
    · exact State.Within.trans (by assumption) ((State.pageMessage_within ..).mono (by rfl))
    · assumption
  · assumption

theorem State.ownerWrite_within (s : State) (src : Src) (p : Page) (off v : Nat) : s.Within 0x4002820089 (s.ownerWrite src p off v) := by
  unfold State.ownerWrite
  refine (State.arrives_within _ _ _ (fun u => ?_) (by rfl))
  refine State.Within.ite ?_ ?_
  · exact (State.logErr_within ..).mono (by rfl)
  · refine State.Within.ite ?_ ?_
    · refine State.Within.ite ?_ ?_
      · exact State.Within.refl _
      · extract_lets y1
        have h2 : u.Within 0x4002820089 y1 := by
          unfold y1
          exact (State.setFld_within ..).mono (by rfl)
        clear_value y1
        refine State.Within.ite ?_ ?_
        · exact State.Within.trans (by assumption) ((State.setFld_within ..).mono (by rfl))
        · assumption
    · exact (State.notOwner_within ..).mono (by rfl)

theorem State.headerPut_within (s : State) (src : Src) (p : Page) (off v : Nat) : s.Within 0x67ffb3e8ff (s.headerPut src p off v) := by
  unfold State.headerPut
  refine State.Within.ite ?_ ?_
  · exact (State.ctrlWrite_within ..).mono (by rfl)
  · refine State.Within.ite ?_ ?_
    · exact (State.commitWrite_within ..).mono (by rfl)
    · refine State.Within.ite ?_ ?_
      · exact (State.setEvents_within ..).mono (by rfl)
      · refine State.Within.ite ?_ ?_
        · exact (State.evtClr_within ..).mono (by rfl)
        · refine State.Within.ite ?_ ?_
          · refine State.Within.ite ?_ ?_
            · exact (State.errClear_within ..).mono (by rfl)
            · exact State.Within.refl _
          · refine State.Within.ite ?_ ?_
            · refine State.Within.ite ?_ ?_
              · exact (State.snap_within ..).mono (by rfl)
              · exact State.Within.refl _
            · refine State.Within.ite ?_ ?_
              · exact (State.setFld_within ..).mono (by rfl)
              · exact State.Within.refl _

theorem State.eomPut_within (s : State) (i v : Nat) : s.Within 0x4000020009 (s.eomPut i v) := by
  unfold State.eomPut
  extract_lets y1 y2
  have h3 : s.Within 0x4000020009 y2 := by
    unfold y2
    exact (State.setWord_within ..).mono (by rfl)
  clear_value y2
  refine State.Within.ite ?_ ?_
  · refine State.Within.trans ?_ ((State.raise_within ..).mono (by rfl))
    exact State.Within.trans (by assumption) ((State.bump_within ..).mono (by rfl))
  · assumption

theorem State.mpCtrlPut_within (s : State) (src : Src) (m v : Nat) : s.Within 0x4002820009 (s.mpCtrlPut src m v) := by
  unfold State.mpCtrlPut
  extract_lets y1 y2 y3 y4
  have h5 : s.Within 0x4002820009 y2 := by
    unfold y2
    exact (State.setWord_within ..).mono (by rfl)
  clear_value y2
  have h6 : s.Within 0x4002820009 y3 := by
    unfold y3
    refine State.Within.ite ?_ ?_
    · exact State.Within.trans (by assumption) ((State.mpStart_within ..).mono (by rfl))
    · assumption
  clear_value y3
  have h7 : s.Within 0x4002820009 y4 := by
    unfold y4
    refine State.Within.ite ?_ ?_
    · exact State.Within.trans (by assumption) ((State.mpGo_within ..).mono (by rfl))
    · assumption
  clear_value y4
  refine State.Within.ite ?_ ?_
  · exact State.Within.trans (by assumption) ((State.mpFenceReq_within ..).mono (by rfl))
  · assumption

theorem State.mringBasePut_within (s : State) (src : Src) (r v : Nat) : s.Within 0x4000820009 (s.mringBasePut src r v) := by
  unfold State.mringBasePut
  refine State.Within.ite ?_ ?_
  · exact (State.refuse_within ..).mono (by rfl)
  · exact (State.setFld_within ..).mono (by rfl)

theorem State.mringCfgPut_within (s : State) (src : Src) (r v : Nat) : s.Within 0x4000820009 (s.mringCfgPut src r v) := by
  unfold State.mringCfgPut
  extract_lets y1 y2
  have h3 : s.Within 0x4000820009 y2 := by
    unfold y2
    refine State.Within.ite ?_ ?_
    · exact (State.refuse_within ..).mono (by rfl)
    · exact (State.setFld_within ..).mono (by rfl)
  clear_value y2
  exact State.Within.trans (by assumption) ((State.setFld_within ..).mono (by rfl))

theorem State.linkCfgPut_within (s : State) (v : Nat) : s.Within 0x60038308cb (s.linkCfgPut v) := by
  unfold State.linkCfgPut
  extract_lets y1 y2 y3
  have h4 : s.Within 0x60038308cb y3 := by
    unfold y3
    exact (State.setWord_within ..).mono (by rfl)
  clear_value y3
  refine State.Within.ite ?_ ?_
  · exact State.Within.trans (by assumption) ((State.pcieDown_within ..).mono (by rfl))
  · assumption

theorem State.tc10Put_within (s : State) (p v : Nat) : s.Within 0x10001 (s.tc10Put p v) := by
  unfold State.tc10Put
  extract_lets y1 y2
  have h3 : s.Within 0x10001 y2 := by
    unfold y2
    exact (State.setWord_within ..).mono (by rfl)
  clear_value y2
  refine State.Within.ite ?_ ?_
  · exact State.Within.trans (by assumption) ((State.tc10Wake_within ..).mono (by rfl))
  · refine State.Within.ite ?_ ?_
    · exact State.Within.trans (by assumption) ((State.tc10Sleep_within ..).mono (by rfl))
    · assumption

theorem State.pnPut_within (s : State) (n v : Nat) : s.Within 0x400c020009 (s.pnPut n v) := by
  unfold State.pnPut
  extract_lets y1
  have h2 : s.Within 0x400c020009 y1 := by
    unfold y1
    refine State.Within.ite ?_ ?_
    · exact (State.pnWakeReq_within ..).mono (by rfl)
    · refine State.Within.ite ?_ ?_
      · exact (State.pnSleepReq_within ..).mono (by rfl)
      · exact State.Within.refl _
  clear_value y1
  refine State.Within.ite ?_ ?_
  · exact State.Within.trans (by assumption) ((State.canRecover_within ..).mono (by rfl))
  · assumption

theorem State.linPut_within (s : State) (n v : Nat) : s.Within 0x4010000001 (s.linPut n v) := by
  unfold State.linPut
  refine State.Within.ite ?_ ?_
  · exact (State.linWakeReq_within ..).mono (by rfl)
  · refine State.Within.ite ?_ ?_
    · exact (State.linSleepReq_within ..).mono (by rfl)
    · exact State.Within.refl _

theorem State.keyCtrlPut_within (s : State) (v : Nat) : s.Within 0x2400000001 (s.keyCtrlPut v) := by
  unfold State.keyCtrlPut
  extract_lets y1 y2
  have h3 : s.Within 0x2400000001 y1 := by
    unfold y1
    exact (State.setWord_within ..).mono (by rfl)
  clear_value y1
  have h4 : s.Within 0x2400000001 y2 := by
    unfold y2
    refine State.Within.ite ?_ ?_
    · exact State.Within.trans (by assumption) ((State.keyLoad_within ..).mono (by rfl))
    · assumption
  clear_value y2
  refine State.Within.ite ?_ ?_
  · exact State.Within.trans (by assumption) ((State.keyZero_within ..).mono (by rfl))
  · assumption

theorem State.chCtrlPut_within (s : State) (c v : Nat) : s.Within 0x60020308c9 (s.chCtrlPut c v) := by
  unfold State.chCtrlPut
  extract_lets y1 y2
  have h3 : s.Within 0x60020308c9 y1 := by
    unfold y1
    refine State.Within.ite ?_ ?_
    · exact (State.dmaResume_within ..).mono (by rfl)
    · exact State.Within.refl _
  clear_value y1
  have h4 : s.Within 0x60020308c9 y2 := by
    unfold y2
    refine State.Within.ite ?_ ?_
    · exact State.Within.trans (by assumption) ((State.dmaSkip_within ..).mono (by rfl))
    · assumption
  clear_value y2
  refine State.Within.ite ?_ ?_
  · exact State.Within.trans (by assumption) ((State.dmaAbort_within ..).mono (by rfl))
  · assumption

theorem State.wdogPut_within (s : State) (v : Nat) : s.Within 0x4000820009 (s.wdogPut v) := by
  unfold State.wdogPut
  extract_lets y1
  have h2 : s.Within 0x4000820009 y1 := by
    unfold y1
    exact (State.setFld_within ..).mono (by rfl)
  clear_value y1
  refine State.Within.ite ?_ ?_
  · exact State.Within.trans (by assumption) ((State.fwKick_within ..).mono (by rfl))
  · assumption

theorem State.tracePut_within (s : State) (v : Nat) : s.Within 0x1 (s.tracePut v) := by
  unfold State.tracePut
  extract_lets y1
  have h2 : s.Within 0x1 y1 := by
    unfold y1
    exact (State.setFld_within ..).mono (by rfl)
  clear_value y1
  refine State.Within.ite ?_ ?_
  · exact State.Within.trans (by assumption) ((State.traceRelease_within ..).mono (by rfl))
  · assumption

theorem State.mdioPut_within (s : State) (src : Src) (p v : Nat) : s.Within 0x4000830009 (s.mdioPut src p v) := by
  unfold State.mdioPut
  exact (State.mdioCmd_within ..).mono (by rfl)

theorem State.special_within (s : State) (src : Src) (p : Page) (off v : Nat) : s.WithinOpt 0x6ffffffbff (s.special src p off v) := by
  unfold State.special
  extract_lets y1
  split
  · split
    · refine State.WithinOpt.some ?_
      exact (State.routePut_within ..).mono (by rfl)
    · refine State.WithinOpt.ite ?_ ?_
      · refine State.WithinOpt.some ?_
        exact (State.rstCtrl_within ..).mono (by rfl)
      · exact State.WithinOpt.none
  · refine State.WithinOpt.map (fun i => ?_)
    exact (State.islVPut_within ..).mono (by rfl)
  · refine State.WithinOpt.ite ?_ ?_
    · refine State.WithinOpt.some ?_
      exact (State.pwrReq_within ..).mono (by rfl)
    · exact State.WithinOpt.none
  · refine State.WithinOpt.map (fun i => ?_)
    exact (State.eomPut_within ..).mono (by rfl)
  · refine State.WithinOpt.ite ?_ ?_
    · refine State.WithinOpt.some ?_
      exact (State.maskWrite_within ..).mono (by rfl)
    · refine State.WithinOpt.ite ?_ ?_
      · dsimp only [y1]
        refine State.WithinOpt.some ?_
        refine State.Within.ite ?_ ?_
        · exact (State.confirmWake_within ..).mono (by rfl)
        · exact State.Within.refl _
      · exact State.WithinOpt.none
  · refine State.WithinOpt.ite ?_ ?_
    · refine State.WithinOpt.some ?_
      exact (State.nmCfgWrite_within ..).mono (by rfl)
    · refine State.WithinOpt.ite ?_ ?_
      · refine State.WithinOpt.some ?_
        exact (State.holdWrite_within ..).mono (by rfl)
      · exact State.WithinOpt.none
  · refine State.WithinOpt.ite ?_ ?_
    · dsimp only [y1]
      refine State.WithinOpt.some ?_
      refine State.Within.ite ?_ ?_
      · exact (State.otpProgram_within ..).mono (by rfl)
      · exact State.Within.refl _
    · exact State.WithinOpt.none
  · refine State.WithinOpt.ite ?_ ?_
    · refine State.WithinOpt.some ?_
      exact (State.tc10Put_within ..).mono (by rfl)
    · refine State.WithinOpt.ite ?_ ?_
      · refine State.WithinOpt.some ?_
        exact (State.mdioPut_within ..).mono (by rfl)
      · exact State.WithinOpt.none
  · refine State.WithinOpt.ite ?_ ?_
    · dsimp only [y1]
      refine State.WithinOpt.some ?_
      refine State.Within.ite ?_ ?_
      · exact (State.stageClear_within ..).mono (by rfl)
      · exact State.Within.refl _
    · exact State.WithinOpt.none
  · refine State.WithinOpt.ite ?_ ?_
    · refine State.WithinOpt.some ?_
      exact (State.meterClr_within ..).mono (by rfl)
    · exact State.WithinOpt.none
  · refine State.WithinOpt.ite ?_ ?_
    · refine State.WithinOpt.some ?_
      exact (State.slewPut_within ..).mono (by rfl)
    · refine State.WithinOpt.ite ?_ ?_
      · dsimp only [y1]
        refine State.WithinOpt.some ?_
        refine State.Within.ite ?_ ?_
        · exact (State.tsnap_within ..).mono (by rfl)
        · exact State.Within.refl _
      · refine State.WithinOpt.ite ?_ ?_
        · dsimp only [y1]
          refine State.WithinOpt.some ?_
          refine State.Within.ite ?_ ?_
          · exact (State.txtsPop_within ..).mono (by rfl)
          · exact State.Within.refl _
        · split
          · refine State.WithinOpt.some ?_
            exact (State.adjPut_within ..).mono (by rfl)
          · refine State.WithinOpt.some ?_
            refine State.Within.ite ?_ ?_
            · exact (State.domAsk_within ..).mono (by rfl)
            · refine State.Within.ite ?_ ?_
              · exact (State.domAsk_within ..).mono (by rfl)
              · exact State.Within.refl _
          · exact State.WithinOpt.none
  · refine State.WithinOpt.ite ?_ ?_
    · refine State.WithinOpt.some ?_
      exact (State.nodeWrite_within ..).mono (by rfl)
    · exact State.WithinOpt.none
  · refine State.WithinOpt.ite ?_ ?_
    · refine State.WithinOpt.some ?_
      exact (State.wdogPut_within ..).mono (by rfl)
    · refine State.WithinOpt.ite ?_ ?_
      · refine State.WithinOpt.some ?_
        exact (State.roleCmd_within ..).mono (by rfl)
      · refine State.WithinOpt.ite ?_ ?_
        · refine State.WithinOpt.some ?_
          exact (State.tracePut_within ..).mono (by rfl)
        · exact State.WithinOpt.none
  · refine State.WithinOpt.ite ?_ ?_
    · dsimp only [y1]
      refine State.WithinOpt.some ?_
      refine State.Within.ite ?_ ?_
      · exact (State.jobGo_within ..).mono (by rfl)
      · exact State.Within.refl _
    · refine State.WithinOpt.ite ?_ ?_
      · dsimp only [y1]
        refine State.WithinOpt.some ?_
        refine State.Within.ite ?_ ?_
        · exact (State.donePop_within ..).mono (by rfl)
        · exact State.Within.refl _
      · exact State.WithinOpt.none
  · refine State.WithinOpt.ite ?_ ?_
    · refine State.WithinOpt.some ?_
      exact (State.pnPut_within ..).mono (by rfl)
    · refine State.WithinOpt.ite ?_ ?_
      · refine State.WithinOpt.some ?_
        exact (State.refuse_within ..).mono (by rfl)
      · exact State.WithinOpt.none
  · refine State.WithinOpt.ite ?_ ?_
    · refine State.WithinOpt.some ?_
      exact (State.linPut_within ..).mono (by rfl)
    · exact State.WithinOpt.none
  · refine State.WithinOpt.ite ?_ ?_
    · refine State.WithinOpt.some ?_
      exact (State.linkCfgPut_within ..).mono (by rfl)
    · exact State.WithinOpt.none
  · refine State.WithinOpt.ite ?_ ?_
    · dsimp only [y1]
      refine State.WithinOpt.some ?_
      refine State.Within.ite ?_ ?_
      · exact (State.pwPop_within ..).mono (by rfl)
      · exact State.Within.refl _
    · exact State.WithinOpt.none
  · split
    · refine State.WithinOpt.some ?_
      exact (State.ringTail_within ..).mono (by rfl)
    · refine State.WithinOpt.some ?_
      exact (State.ringTail_within ..).mono (by rfl)
    · exact State.WithinOpt.none
  · split
    · refine State.WithinOpt.some ?_
      exact (State.dmaTail_within ..).mono (by rfl)
    · refine State.WithinOpt.some ?_
      exact (State.chCtrlPut_within ..).mono (by rfl)
    · exact State.WithinOpt.none
  · refine State.WithinOpt.ite ?_ ?_
    · refine State.WithinOpt.some ?_
      exact State.Within.refl _
    · refine State.WithinOpt.ite ?_ ?_
      · dsimp only [y1]
        refine State.WithinOpt.some ?_
        refine State.Within.ite ?_ ?_
        · exact (State.mpcRing_within ..).mono (by rfl)
        · exact State.Within.refl _
      · split
        · refine State.WithinOpt.some ?_
          exact (State.mpCtrlPut_within ..).mono (by rfl)
        · split
          · refine State.WithinOpt.some ?_
            exact (State.mringTail_within ..).mono (by rfl)
          · split
            · refine State.WithinOpt.some ?_
              exact (State.mringBasePut_within ..).mono (by rfl)
            · refine State.WithinOpt.some ?_
              exact (State.mringCfgPut_within ..).mono (by rfl)
            · exact State.WithinOpt.none
  · refine State.WithinOpt.ite ?_ ?_
    · dsimp only [y1]
      refine State.WithinOpt.some ?_
      refine State.Within.ite ?_ ?_
      · exact (State.scrRing_within ..).mono (by rfl)
      · exact State.Within.refl _
    · refine State.WithinOpt.ite ?_ ?_
      · refine State.WithinOpt.some ?_
        exact (State.dbSet_within ..).mono (by rfl)
      · exact State.WithinOpt.none
  · refine State.WithinOpt.ite ?_ ?_
    · dsimp only [y1]
      refine State.WithinOpt.some ?_
      refine State.Within.ite ?_ ?_
      · exact (State.chalReq_within ..).mono (by rfl)
      · exact State.Within.refl _
    · refine State.WithinOpt.ite ?_ ?_
      · dsimp only [y1]
        refine State.WithinOpt.some ?_
        refine State.Within.ite ?_ ?_
        · exact (State.dbgSubmit_within ..).mono (by rfl)
        · exact State.Within.refl _
      · exact State.WithinOpt.none
  · refine State.WithinOpt.ite ?_ ?_
    · refine State.WithinOpt.some ?_
      exact (State.keyCtrlPut_within ..).mono (by rfl)
    · refine State.WithinOpt.ite ?_ ?_
      · refine State.WithinOpt.some ?_
        exact (State.setWord_within ..).mono (by rfl)
      · exact State.WithinOpt.none
  · exact State.WithinOpt.none

theorem State.regPut_within (s : State) (src : Src) (p : Page) (off v : Nat) : s.Within 0x6ffffffbff (s.regPut src p off v) := by
  unfold State.regPut
  refine State.Within.ite ?_ ?_
  · exact (State.headerPut_within ..).mono (by rfl)
  · split
    · rename_i x1 e2
      have h3 : s.Within 0x6ffffffbff x1 := by
        exact (State.WithinOpt.elim (State.special_within _ _ _ _ _) e2).mono (by rfl)
      assumption
    · split
      · exact (State.setWord_within ..).mono (by rfl)
      · exact State.Within.refl _

theorem State.pageWrite_within (s : State) (src : Src) (p : Page) (w off v : Nat) : s.Within 0x6ffffffbff (s.pageWrite src p w off v) := by
  unfold State.pageWrite
  extract_lets y1
  refine State.Within.ite ?_ ?_
  · refine (State.arrives_within _ _ _ (fun u => ?_) (by rfl))
    refine State.Within.ite ?_ ?_
    · exact (State.refuse_within ..).mono (by rfl)
    · exact (State.logErr_within ..).mono (by rfl)
  · refine State.Within.ite ?_ ?_
    · refine (State.guardTrusted_within _ _ _ _ _ (fun u => ?_) (by rfl))
      exact State.Within.refl _
    · refine State.Within.ite ?_ ?_
      · refine (State.guard_within _ _ _ _ _ (fun u => ?_) (by rfl))
        extract_lets y2
        exact (State.shadowPut_within ..).mono (by rfl)
      · refine State.Within.ite ?_ ?_
        · exact (State.ownerWrite_within ..).mono (by rfl)
        · refine State.Within.ite ?_ ?_
          · refine (State.guard_within _ _ _ _ _ (fun u => ?_) (by rfl))
            exact (State.tabWrite_within ..).mono (by rfl)
          · split
            · refine (State.guard_within _ _ _ _ _ (fun u => ?_) (by rfl))
              exact State.Within.refl _
            · extract_lets y3
              refine State.Within.ite ?_ ?_
              · refine (State.guardTrusted_within _ _ _ _ _ (fun u => ?_) (by rfl))
                dsimp only [y3]
                refine State.Within.ite ?_ ?_
                · exact State.Within.refl _
                · refine State.Within.ite ?_ ?_
                  · refine State.Within.trans ?_ ((State.follow_within ..).mono (by rfl))
                    exact (State.regPut_within ..).mono (by rfl)
                  · exact (State.regPut_within ..).mono (by rfl)
              · refine State.Within.ite ?_ ?_
                · refine (State.guardOpen_within _ _ _ _ (fun u => ?_) (by rfl))
                  dsimp only [y3]
                  refine State.Within.ite ?_ ?_
                  · exact State.Within.refl _
                  · refine State.Within.ite ?_ ?_
                    · refine State.Within.trans ?_ ((State.follow_within ..).mono (by rfl))
                      exact (State.regPut_within ..).mono (by rfl)
                    · exact (State.regPut_within ..).mono (by rfl)
                · refine State.Within.ite ?_ ?_
                  · refine (State.guardMixed_within _ _ _ _ _ (fun u => ?_) (by rfl))
                    dsimp only [y3]
                    refine State.Within.ite ?_ ?_
                    · exact State.Within.refl _
                    · refine State.Within.ite ?_ ?_
                      · refine State.Within.trans ?_ ((State.follow_within ..).mono (by rfl))
                        exact (State.regPut_within ..).mono (by rfl)
                      · exact (State.regPut_within ..).mono (by rfl)
                  · refine (State.guard_within _ _ _ _ _ (fun u => ?_) (by rfl))
                    dsimp only [y3]
                    refine State.Within.ite ?_ ?_
                    · exact State.Within.refl _
                    · refine State.Within.ite ?_ ?_
                      · refine State.Within.trans ?_ ((State.follow_within ..).mono (by rfl))
                        exact (State.regPut_within ..).mono (by rfl)
                      · exact (State.regPut_within ..).mono (by rfl)

theorem State.pageRead_within (s : State) (src : Src) (p : Page) (off : Nat) : s.Within 0x2000010001 (s.pageRead src p off).2 := by
  unfold State.pageRead
  refine State.Within.itp ?_ ?_
  · dsimp only
    exact State.Within.refl _
  · refine State.Within.itp ?_ ?_
    · refine State.Within.itp ?_ ?_
      · exact (State.draw_within ..).mono (by rfl)
      · dsimp only
        exact State.Within.refl _
    · refine State.Within.itp ?_ ?_
      · refine State.Within.itp ?_ ?_
        · exact (State.tabRead_within ..).mono (by rfl)
        · dsimp only
          exact State.Within.refl _
      · refine State.Within.itp ?_ ?_
        · exact (State.tabRead_within ..).mono (by rfl)
        · refine State.Within.itp ?_ ?_
          · exact (State.peakRead_within ..).mono (by rfl)
          · refine State.Within.itp ?_ ?_
            · exact (State.localRead_within ..).mono (by rfl)
            · split
              · dsimp only
                exact State.Within.refl _
              · split
                · dsimp only
                  exact State.Within.refl _
                · split
                  · dsimp only
                    exact State.Within.refl _
                  · dsimp only
                    exact State.Within.refl _

theorem State.wordRead_within (s : State) (src : Src) (a : Nat) : s.Within 0x2000010001 (s.wordRead src a).2 := by
  unfold State.wordRead
  split
  · refine State.Within.itp ?_ ?_
    · dsimp only
      exact State.Within.refl _
    · exact (State.pageRead_within ..).mono (by rfl)
  · dsimp only
    exact State.Within.refl _
  · dsimp only
    exact State.Within.refl _

theorem State.wordWrite_within (s : State) (src : Src) (a v : Nat) : s.Within 0x6ffffffbff (s.wordWrite src a v) := by
  unfold State.wordWrite
  split
  · exact (State.pageWrite_within ..).mono (by rfl)
  · exact (State.fibWrite_within ..).mono (by rfl)
  · exact (State.gateWrite_within ..).mono (by rfl)
  · exact (State.tsiWrite_within ..).mono (by rfl)
  · exact (State.bankWrite_within ..).mono (by rfl)
  · refine (State.arrives_within _ _ _ (fun u => ?_) (by rfl))
    exact (State.logErr_within ..).mono (by rfl)

theorem State.misaligned_within (s : State) (src : Src) (a : Nat) : s.Within 0x4000820009 (s.misaligned src a) := by
  unfold State.misaligned
  extract_lets y1
  refine State.Within.ite ?_ ?_
  · exact (State.logErr_within ..).mono (by rfl)
  · exact (State.logErr_within ..).mono (by rfl)

theorem State.scratchWrite_within (s : State) (src : Src) (a : Nat) (l : List Byte) : s.Within 0x40028200c9 (s.scratchWrite src a l) := by
  unfold State.scratchWrite
  refine (State.arrives_within _ _ _ (fun u => ?_) (by rfl))
  refine State.Within.ite ?_ ?_
  · refine State.Within.set_scratch ?_ (by rfl)
    exact State.Within.refl _
  · exact (State.logErr_within ..).mono (by rfl)

theorem State.bar0Write_within (s : State) (src : Src) (a : Nat) (l : List Byte) : s.Within 0x6ffffffbff (s.bar0Write src a l) := by
  unfold State.bar0Write
  refine State.Within.ite ?_ ?_
  · exact (State.scratchWrite_within ..).mono (by rfl)
  · refine State.Within.ite ?_ ?_
    · exact (State.wordWrite_within ..).mono (by rfl)
    · refine State.Within.ite ?_ ?_
      · refine State.Within.trans ?_ ((State.wordWrite_within ..).mono (by rfl))
        exact (State.wordWrite_within ..).mono (by rfl)
      · refine State.Within.ite ?_ ?_
        · exact State.Within.refl _
        · refine (State.arrives_within _ _ _ (fun u => ?_) (by rfl))
          exact (State.misaligned_within ..).mono (by rfl)

theorem State.bar0Read_within (s : State) (src : Src) (a size : Nat) : s.Within 0x6000830009 (s.bar0Read src a size).2 := by
  unfold State.bar0Read
  refine State.Within.itp ?_ ?_
  · dsimp only
    exact State.Within.refl _
  · refine State.Within.itp ?_ ?_
    · dsimp only
      exact (State.misaligned_within ..).mono (by rfl)
    · refine State.Within.itp ?_ ?_
      · split
        rename_i x1 e2
        have h3 : s.Within 0x6000830009 x1 := State.Within.of_pair e2 (by exact (State.wordRead_within ..).mono (by rfl))
        split
        rename_i x4 e5
        have h6 : s.Within 0x6000830009 x4 := State.Within.of_pair e5 (by exact State.Within.trans (by assumption) ((State.wordRead_within ..).mono
          (by rfl)))
        dsimp only
        assumption
      · split
        rename_i x7 e8
        have h9 : s.Within 0x6000830009 x7 := State.Within.of_pair e8 (by exact (State.wordRead_within ..).mono (by rfl))
        dsimp only
        assumption

theorem State.eccWord_within (s : State) (src : Src) (a size : Nat) (ecc : EccResult) : s.Within 0x6000830009 (s.eccWord src a size ecc).2 := by
  unfold State.eccWord
  split
  · refine State.Within.trans ?_ ((State.bar0Read_within ..).mono (by rfl))
    refine State.Within.ite ?_ ?_
    · exact (State.tabCorrected_within ..).mono (by rfl)
    · exact State.Within.refl _
  · refine State.Within.itp ?_ ?_
    · split
      rename_i x1 e2
      have h3 : s.Within 0x6000830009 x1 := State.Within.of_pair e2 (by exact (State.tabReadEcc_within ..).mono (by rfl))
      dsimp only
      assumption
    · exact (State.bar0Read_within ..).mono (by rfl)
  · refine State.Within.trans ?_ ((State.bar0Read_within ..).mono (by rfl))
    refine State.Within.ite ?_ ?_
    · exact (State.bump_within ..).mono (by rfl)
    · exact State.Within.refl _
  · exact (State.bar0Read_within ..).mono (by rfl)

theorem State.answer_within (s : State) (src : Src) (a size v : Nat) : s.Within 0x4000000000 (s.answer src a size v) := by
  unfold State.answer
  split
  · exact (State.emit_within ..).mono (by rfl)
  · exact (State.emit_within ..).mono (by rfl)
  · exact (State.emit_within ..).mono (by rfl)

theorem State.masterRead_within (s : State) (src : Src) (a size : Nat) (ecc : EccResult) : s.Within 0x6000830009 (s.masterRead src a size ecc) := by
  unfold State.masterRead
  extract_lets y1 y2 y3
  have h4 : s.Within 0x6000830009 y3 := by
    unfold y3
    refine State.Within.ite ?_ ?_
    · exact (State.bump_within ..).mono (by rfl)
    · exact State.Within.refl _
  clear_value y3
  refine State.Within.ite ?_ ?_
  · exact State.Within.refl _
  · refine State.Within.ite ?_ ?_
    · dsimp only [y1]
      split
      · refine State.Within.trans ?_ ((State.completerAbort_within ..).mono (by rfl))
        exact (State.logErr_within ..).mono (by rfl)
      · refine State.Within.trans ?_ ((State.answer_within ..).mono (by rfl))
        refine State.Within.trans ?_ ((State.draw_within ..).mono (by rfl))
        exact (State.logErr_within ..).mono (by rfl)
    · split
      rename_i x5 e6
      have h7 : s.Within 0x6000830009 x5 := State.Within.of_pair e6 (by exact State.Within.trans (by assumption) ((State.eccWord_within ..).mono (by
        rfl)))
      split
      · exact State.Within.trans (by assumption) ((State.answer_within ..).mono (by rfl))
      · dsimp only [y1]
        refine State.Within.trans ?_ ((State.completerAbort_within ..).mono (by rfl))
        exact State.Within.trans (by assumption) ((State.logErr_within ..).mono (by rfl))
      · dsimp only [y1]
        split
        · exact State.Within.trans (by assumption) ((State.completerAbort_within ..).mono (by rfl))
        · refine State.Within.trans ?_ ((State.answer_within ..).mono (by rfl))
          exact State.Within.trans (by assumption) ((State.draw_within ..).mono (by rfl))

theorem State.bar2Write_within (s : State) (a : Nat) (l : List Byte) : s.Within 0x4000020008 (s.bar2Write a l) := by
  unfold State.bar2Write
  refine State.Within.ite ?_ ?_
  · extract_lets y1
    refine State.Within.ite ?_ ?_
    · dsimp only [y1]
      exact (State.msixWrite_within ..).mono (by rfl)
    · dsimp only [y1]
      refine State.Within.trans ?_ ((State.msixWrite_within ..).mono (by rfl))
      exact (State.msixWrite_within ..).mono (by rfl)
  · exact State.Within.refl _

theorem State.bar2Read_within (s : State) (a size : Nat) : s.Within 0x4000000000 (s.bar2Read a size) := by
  unfold State.bar2Read
  exact (State.emit_within ..).mono (by rfl)

theorem State.anyRead_within (s : State) (src : Src) (bar : Bar) (a size : Nat) (ecc : EccResult) :
    s.Within 0x6000830009 (s.anyRead src bar a size ecc) := by
  unfold State.anyRead
  split
  · exact (State.masterRead_within ..).mono (by rfl)
  · exact (State.bar2Read_within ..).mono (by rfl)
  · exact State.Within.refl _

theorem State.registerWrite_within (s : State) (src : Src) (bar : Bar) (a : Nat) (l : List Byte) :
    s.Within 0x6ffffffbff (s.registerWrite src bar a l) := by
  unfold State.registerWrite
  split
  · exact (State.bar0Write_within ..).mono (by rfl)
  · exact (State.bar2Write_within ..).mono (by rfl)
  · exact State.Within.refl _

/-! ## Machine/Arrivals.lean -/

theorem State.peerWords_within (s : State) (src : Src) (a : Nat) (l : List Byte) (n : Nat) : s.Within 0x6ffffffbff (s.peerWords src a l n) := by
  induction n generalizing s a l with
  | zero => exact State.Within.refl s
  | succ n ih => exact ((State.bar0Write_within ..).mono (by rfl)).trans (ih _ _ _)

theorem State.sendFail_within (s : State) (orig code a : Nat) : s.Within 0x4000800008 (s.sendFail orig code a) := by
  unfold State.sendFail
  exact (State.sendBridge_within ..).mono (by rfl)

theorem State.sendCpl_within (s : State) (orig tag status words a : Nat) (data : List Byte) :
    s.Within 0x4000800008 (s.sendCpl orig tag status words a data) := by
  unfold State.sendCpl
  exact (State.sendBridge_within ..).mono (by rfl)

theorem State.peerWriteIn_within (s : State) (orig a : Nat) (data : List Byte) : s.Within 0x6ffffffbff (s.peerWriteIn orig a data) := by
  unfold State.peerWriteIn
  extract_lets y1 y2 y3 y4
  have h5 : s.Within 0x6ffffffbff y1 := by
    unfold y1
    exact (State.bump_within ..).mono (by rfl)
  clear_value y1
  have h6 : s.Within 0x6ffffffbff y4 := by
    unfold y4
    exact State.Within.trans (by assumption) ((State.peerWords_within ..).mono (by rfl))
  clear_value y4
  refine State.Within.ite ?_ ?_
  · exact State.Within.trans (by assumption) ((State.sendFail_within ..).mono (by rfl))
  · split
    · exact State.Within.trans (by assumption) ((State.sendFail_within ..).mono (by rfl))
    · assumption

theorem State.peerReads_within (s : State) (src : Src) (a n : Nat) : s.Within 0x6000830009 (s.peerReads src a n).2 := by
  induction n generalizing s a with
  | zero => exact State.Within.refl s
  | succ n ih => exact State.Within.trans ((State.bar0Read_within ..).mono (by rfl)) (ih _ _)

theorem State.peerEcc_within (s : State) (orig a : Nat) (ecc : EccResult) : s.Within 0x4000820009 (s.peerEcc orig a ecc) := by
  unfold State.peerEcc
  refine State.Within.ite ?_ ?_
  · exact State.Within.refl _
  · split
    · exact State.Within.refl _
    · exact (State.bump_within ..).mono (by rfl)
    · exact (State.logErr_within ..).mono (by rfl)

theorem State.peerReadIn_within (s : State) (orig tag a words : Nat) (ecc : EccResult) :
    s.Within 0x6000830009 (s.peerReadIn orig tag a words ecc) := by
  unfold State.peerReadIn
  extract_lets y1
  have h2 : s.Within 0x6000830009 y1 := by
    unfold y1
    exact (State.bump_within ..).mono (by rfl)
  clear_value y1
  refine State.Within.ite ?_ ?_
  · exact State.Within.trans (by assumption) ((State.sendCpl_within ..).mono (by rfl))
  · refine State.Within.ite ?_ ?_
    · exact State.Within.trans (by assumption) ((State.sendCpl_within ..).mono (by rfl))
    · refine State.Within.ite ?_ ?_
      · refine State.Within.trans ?_ ((State.sendCpl_within ..).mono (by rfl))
        exact State.Within.trans (by assumption) ((State.misaligned_within ..).mono (by rfl))
      · refine State.Within.ite ?_ ?_
        · refine State.Within.trans ?_ ((State.sendCpl_within ..).mono (by rfl))
          exact State.Within.trans (by assumption) ((State.peerEcc_within ..).mono (by rfl))
        · split
          rename_i x3 e4
          have h5 : s.Within 0x6000830009 x3 := State.Within.of_pair e4 (by
            refine State.Within.trans ?_ ((State.peerReads_within ..).mono (by rfl))
            exact State.Within.trans (by assumption) ((State.peerEcc_within ..).mono (by rfl)))
          exact State.Within.trans (by assumption) ((State.sendCpl_within ..).mono (by rfl))

theorem State.peerCasIn_within (s : State) (orig tag a words : Nat) (data : List Byte) (ecc : EccResult) :
    s.Within 0x4000820049 (s.peerCasIn orig tag a words data ecc) := by
  unfold State.peerCasIn
  extract_lets y1 y2 y3 y4 y5 y6 y7
  have h8 : s.Within 0x4000820049 y1 := by
    unfold y1
    exact (State.bump_within ..).mono (by rfl)
  clear_value y1
  have h9 : s.Within 0x4000820049 y3 := by
    unfold y3
    exact State.Within.trans (by assumption) ((State.peerEcc_within ..).mono (by rfl))
  clear_value y3
  have h10 : s.Within 0x4000820049 y7 := by
    unfold y7
    refine State.Within.ite ?_ ?_
    · refine State.Within.set_scratch ?_ (by rfl)
      assumption
    · assumption
  clear_value y7
  refine State.Within.ite ?_ ?_
  · exact State.Within.trans (by assumption) ((State.sendCpl_within ..).mono (by rfl))
  · refine State.Within.ite ?_ ?_
    · exact State.Within.trans (by assumption) ((State.sendCpl_within ..).mono (by rfl))
    · refine State.Within.ite ?_ ?_
      · exact State.Within.trans (by assumption) ((State.sendCpl_within ..).mono (by rfl))
      · refine State.Within.ite ?_ ?_
        · refine State.Within.trans ?_ ((State.sendCpl_within ..).mono (by rfl))
          exact State.Within.trans (by assumption) ((State.peerEcc_within ..).mono (by rfl))
        · exact State.Within.trans (by assumption) ((State.sendCpl_within ..).mono (by rfl))

theorem State.bridgeIn_within (s : State) (l : List Byte) (ecc : EccResult) : s.Within 0x6ffffffbff (s.bridgeIn l ecc) := by
  unfold State.bridgeIn
  extract_lets y1 y2 y3 y4 y5 y6
  clear_value y6
  clear_value y5
  clear_value y4
  clear_value y3
  clear_value y2
  clear_value y1
  split
  · exact (State.peerWriteIn_within ..).mono (by rfl)
  · exact (State.peerReadIn_within ..).mono (by rfl)
  · exact (State.peerCasIn_within ..).mono (by rfl)
  · exact (State.cplArrives_within ..).mono (by rfl)
  · exact (State.writeFailed_within ..).mono (by rfl)
  · exact State.Within.refl _

theorem State.ctlInOrder_within (s : State) (kind seq : Nat) (last : Bool) (payload : List Byte) (ecc : EccResult) :
    s.Within 0x4002a30089 (s.ctlInOrder kind seq last payload ecc) := by
  unfold State.ctlInOrder
  extract_lets y1 y2
  have h3 : s.Within 0x4002a30089 y1 := by
    unfold y1
    refine State.Within.trans ?_ ((State.bump_within ..).mono (by rfl))
    exact (State.mapCtl_within ..).mono (by rfl)
  clear_value y1
  have h4 : s.Within 0x4002a30089 y2 := by
    unfold y2
    refine State.Within.ite ?_ ?_
    · refine State.Within.ite ?_ ?_
      · exact State.Within.trans (by assumption) ((State.joinFrame_within ..).mono (by rfl))
      · refine State.Within.trans ?_ ((State.fwRecord_within ..).mono (by rfl))
        refine State.Within.ite ?_ ?_
        · exact State.Within.trans (by assumption) ((State.eccSeen_within ..).mono (by rfl))
        · assumption
    · exact State.Within.refl _
  clear_value y2
  exact State.Within.trans (by assumption) ((State.sendPlain_within ..).mono (by rfl))

theorem State.controlIn_within (s : State) (lane : Nat) (l : List Byte) (ecc : EccResult) : s.Within 0x6ffffffbff (s.controlIn lane l ecc) := by
  unfold State.controlIn
  refine State.Within.ite ?_ ?_
  · extract_lets y1
    split
    · exact (State.ctlInOrder_within ..).mono (by rfl)
    · exact (State.ctlInOrder_within ..).mono (by rfl)
    · refine State.Within.trans ?_ ((State.bridgeIn_within ..).mono (by rfl))
      exact (State.bump_within ..).mono (by rfl)
    · refine State.Within.trans ?_ ((State.acked_within ..).mono (by rfl))
      exact (State.bump_within ..).mono (by rfl)
    · exact State.Within.refl _
  · exact State.Within.refl _

theorem State.faultIn_within (s : State) (who : Option (Fin 4)) : s.Within 0x4000000000 (s.faultIn who) := by
  unfold State.faultIn
  exact (State.emit_within ..).mono (by rfl)

theorem State.accessEnds_within (s : State) (who : Option (Fin 4)) (kind : AccessKind) (l : List Byte) :
    s.Within 0x4000000000 (s.accessEnds who kind l) := by
  unfold State.accessEnds
  split
  · exact (State.emit_within ..).mono (by rfl)
  · exact (State.emit_within ..).mono (by rfl)
  · exact (State.emit_within ..).mono (by rfl)

theorem State.eccRead_within (s : State) (who : Option (Fin 4)) (kind : AccessKind) (off : Nat) (ecc : EccResult) (l : List Byte) :
    s.Within 0x4000820009 (s.eccRead who kind off ecc l) := by
  unfold State.eccRead
  split
  · exact (State.accessEnds_within ..).mono (by rfl)
  · refine State.Within.trans ?_ ((State.accessEnds_within ..).mono (by rfl))
    exact (State.bump_within ..).mono (by rfl)
  · refine State.Within.trans ?_ ((State.faultIn_within ..).mono (by rfl))
    exact (State.logErr_within ..).mono (by rfl)

theorem State.locketStore_within (s : State) (via off : Nat) (l : List Byte) : s.Within 0x200 (s.locketStore via off l) := by
  unfold State.locketStore
  extract_lets y1 y2
  refine State.Within.set_locket ?_ (by rfl)
  exact State.Within.refl _

theorem State.locketRead_within (s : State) (kind : AccessKind) (off : Nat) (ecc : EccResult) (l : List Byte) :
    s.Within 0x4000820009 (s.locketRead kind off ecc l) := by
  unfold State.locketRead
  split
  · refine State.Within.trans ?_ ((State.faultIn_within ..).mono (by rfl))
    exact (State.logErr_within ..).mono (by rfl)
  · exact (State.accessEnds_within ..).mono (by rfl)

theorem State.cacheRead_within (s : State) (m : Fin 4) (kind : AccessKind) (off size : Nat) (ecc : EccResult) :
    s.Within 0x6002820009 (s.cacheRead m kind off size ecc) := by
  unfold State.cacheRead
  extract_lets y1 y2
  refine State.Within.ite ?_ ?_
  · exact (State.accessEnds_within ..).mono (by rfl)
  · refine State.Within.ite ?_ ?_
    · exact (State.eccRead_within ..).mono (by rfl)
    · refine State.Within.trans ?_ ((State.eccRead_within ..).mono (by rfl))
      exact (State.fillLine_within ..).mono (by rfl)

theorem State.msramAccess_within (s : State) (who : Option (Fin 4)) (kind : AccessKind) (off size : Nat) (data : List Byte) (ecc : EccResult) :
    s.Within 0x6002820089 (s.msramAccess who kind off size data ecc) := by
  unfold State.msramAccess
  split
  · refine State.Within.ite ?_ ?_
    · exact (State.codeFault_within ..).mono (by rfl)
    · refine State.Within.trans ?_ ((State.accessEnds_within ..).mono (by rfl))
      refine State.Within.trans ?_ ((State.bufferStore_within ..).mono (by rfl))
      exact (State.storeLines_within ..).mono (by rfl)
  · refine State.Within.trans ?_ ((State.accessEnds_within ..).mono (by rfl))
    refine State.Within.trans ?_ ((State.mapMsram_within ..).mono (by rfl))
    exact (State.dropLines_within ..).mono (by rfl)
  · refine State.Within.ite ?_ ?_
    · exact (State.cacheRead_within ..).mono (by rfl)
    · exact (State.faultIn_within ..).mono (by rfl)
  · exact (State.cacheRead_within ..).mono (by rfl)
  · exact (State.eccRead_within ..).mono (by rfl)

theorem State.procReach_within (s : State) (who : Option (Fin 4)) (kind : AccessKind) (a size : Nat) (data : List Byte) (ecc : EccResult) :
    s.Within 0x6ffffffbff (s.procReach who kind a size data ecc) := by
  unfold State.procReach
  extract_lets y1 y2
  split
  · refine State.Within.trans ?_ ((State.faultIn_within ..).mono (by rfl))
    exact (State.logErr_within ..).mono (by rfl)
  · exact (State.msramAccess_within ..).mono (by rfl)
  · split
    · exact (State.winAccess_within ..).mono (by rfl)
    · exact (State.winAccess_within ..).mono (by rfl)
    · exact (State.faultIn_within ..).mono (by rfl)
  · split
    · refine State.Within.trans ?_ ((State.accessEnds_within ..).mono (by rfl))
      exact (State.bar0Write_within ..).mono (by rfl)
    · exact (State.faultIn_within ..).mono (by rfl)
    · split
      rename_i x3 e4
      have h5 : s.Within 0x6ffffffbff x3 := State.Within.of_pair e4 (by exact (State.bar0Read_within ..).mono (by rfl))
      exact State.Within.trans (by assumption) ((State.accessEnds_within ..).mono (by rfl))
    · exact (State.masterRead_within ..).mono (by rfl)
  · split
    · exact (State.accessEnds_within ..).mono (by rfl)
    · split
      rename_i x6 e7
      have h8 : s.Within 0x6ffffffbff x6 := State.Within.of_pair e7 (by exact (State.drawBytes_within ..).mono (by rfl))
      exact State.Within.trans (by assumption) ((State.accessEnds_within ..).mono (by rfl))
  · split
    · refine State.Within.trans ?_ ((State.accessEnds_within ..).mono (by rfl))
      refine State.Within.set_tsram ?_ (by rfl)
      exact State.Within.refl _
    · exact (State.eccRead_within ..).mono (by rfl)
  · split
    · refine State.Within.trans ?_ ((State.accessEnds_within ..).mono (by rfl))
      exact (State.locketStore_within ..).mono (by rfl)
    · exact (State.locketRead_within ..).mono (by rfl)

theorem State.procAccess_within (s : State) (who : Option (Fin 4)) (kind : AccessKind) (a size : Nat) (data : List Byte) (ecc : EccResult) :
    s.Within 0x6ffffffbff (s.procAccess who kind a size data ecc) := by
  unfold State.procAccess
  extract_lets y1
  refine State.Within.ite ?_ ?_
  · exact State.Within.refl _
  · split
    · refine State.Within.trans ?_ ((State.accessEnds_within ..).mono (by rfl))
      exact (State.drainMp_within ..).mono (by rfl)
    · refine State.Within.trans ?_ ((State.accessEnds_within ..).mono (by rfl))
      exact (State.fenceI_within ..).mono (by rfl)
    · exact (State.accessEnds_within ..).mono (by rfl)
    · exact (State.accessEnds_within ..).mono (by rfl)
    · exact (State.procReach_within ..).mono (by rfl)

/-! ## Machine/Pins.lean -/

theorem State.gpioEdge_within (s : State) (i : Nat) (high : Bool) : s.Within 0x4000020009 (s.gpioEdge i high) := by
  unfold State.gpioEdge
  extract_lets y1 y2 y3
  have h4 : s.Within 0x4000020009 y2 := by
    unfold y2
    exact (State.setFld_within ..).mono (by rfl)
  clear_value y2
  refine State.Within.ite ?_ ?_
  · exact State.Within.refl _
  · refine State.Within.ite ?_ ?_
    · exact State.Within.trans (by assumption) ((State.raise_within ..).mono (by rfl))
    · assumption

theorem State.setTap_within (s : State) (t : Tap) : s.Within 0x5000000000 (s.setTap t) := by
  have hp : s.out <+: (s.setTap t).out := by
    unfold State.setTap
    dsimp only
    split
    · exact List.prefix_refl _
    · exact List.prefix_append _ _
  refine ⟨fun p hp => ?_, rfl, hp, Nat.le_refl _, fun _ => Or.inl rfl⟩
  cases p <;> first | rfl | exact absurd hp (by decide)

theorem State.tapSelect_within (s : State) (i : TapInstr) : s.Within 0x5000000000 (s.tapSelect i) := by
  unfold State.tapSelect
  exact (State.setTap_within ..).mono (by rfl)

theorem State.tapBypass_within (s : State) (i : TapInstr) : s.Within 0x5000000000 (s.tapBypass i) := by
  unfold State.tapBypass
  refine State.Within.trans ?_ ((State.emit_within ..).mono (by rfl))
  exact (State.tapSelect_within ..).mono (by rfl)

theorem State.tapGuarded_within (s : State) (i : TapInstr) : s.Within 0x5000000000 (s.tapGuarded i) := by
  unfold State.tapGuarded
  exact (State.tapBypass_within ..).mono (by rfl)

theorem State.boundaryScan_within (s : State) (balls v : Nat) : s.Within 0x5000000000 (s.boundaryScan balls v) := by
  unfold State.boundaryScan
  refine State.Within.trans ?_ ((State.setTap_within ..).mono (by rfl))
  exact (State.emit_within ..).mono (by rfl)

theorem State.samplePreload_within (s : State) (balls v : Nat) : s.Within 0x5000000000 (s.samplePreload balls v) := by
  unfold State.samplePreload
  refine State.Within.trans ?_ ((State.boundaryScan_within ..).mono (by rfl))
  exact (State.tapSelect_within ..).mono (by rfl)

theorem State.tapExtest_within (s : State) (balls v : Nat) : s.Within 0x5000000000 (s.tapExtest balls v) := by
  unfold State.tapExtest
  refine State.Within.ite ?_ ?_
  · refine State.Within.trans ?_ ((State.boundaryScan_within ..).mono (by rfl))
    exact (State.tapSelect_within ..).mono (by rfl)
  · exact (State.tapBypass_within ..).mono (by rfl)

theorem State.dbgAccess_within (s : State) (a : Nat) (v : Option Nat) : s.Within 0x7ffffffbff (s.dbgAccess a v) := by
  unfold State.dbgAccess
  refine State.Within.trans ?_ (State.live_within _ _ (fun u => ?_) (by rfl))
  · exact (State.tapSelect_within ..).mono (by rfl)
  · split
    · exact (State.bar0Write_within ..).mono (by rfl)
    · exact (State.masterRead_within ..).mono (by rfl)

/-! ## Machine/Tick.lean -/

theorem State.aonTick_within (s : State) : s.Within 0x4000000 s.aonTick := by
  unfold State.aonTick
  exact (State.mapPower_within ..).mono (by rfl)

theorem State.timeTick_within (s : State) : s.Within 0xc0000 s.timeTick := by
  unfold State.timeTick
  refine State.Within.ite ?_ ?_
  · refine State.Within.each ?_ (fun u a => ?_)
    · refine State.Within.set_now ?_ (by rfl)
      exact State.Within.refl _
    · exact (State.domTick_within ..).mono (by rfl)
  · exact State.Within.refl _

theorem State.phaseTick_within (s : State) : s.Within 0x1 s.phaseTick := by
  unfold State.phaseTick
  refine State.Within.ite ?_ ?_
  · exact (State.setPhase_within ..).mono (by rfl)
  · exact State.Within.refl _

theorem State.xspiTick_within (s : State) : s.Within 0x4000000000 s.xspiTick := by
  unfold State.xspiTick
  refine State.Within.ite ?_ ?_
  · exact (State.showBalls_within ..).mono (by rfl)
  · exact State.Within.refl _

theorem State.tick_within (s : State) : s.Within 0x40078f0089 s.tick := by
  unfold State.tick
  refine State.Within.ite ?_ ?_
  · exact State.Within.refl _
  · refine State.Within.ite ?_ ?_
    · refine State.Within.trans ?_ ((State.xspiTick_within ..).mono (by rfl))
      exact (State.aonTick_within ..).mono (by rfl)
    · refine State.Within.trans ?_ ((State.follow_within ..).mono (by rfl))
      refine State.Within.trans ?_ ((State.phaseTick_within ..).mono (by rfl))
      refine State.Within.each ?_ (fun u a => ?_)
      · refine State.Within.trans ?_ ((State.creditsTick_within ..).mono (by rfl))
        refine State.Within.trans ?_ ((State.timeTick_within ..).mono (by rfl))
        refine State.Within.trans ?_ ((State.xspiTick_within ..).mono (by rfl))
        exact (State.aonTick_within ..).mono (by rfl)
      · exact (State.releaseOne_within ..).mono (by rfl)

end Sys2Proof.Machine
end

