-- ==== Sys2Proof/Laws/Commands.lean ====
section
/-! SUPPORT. What each command can do: it answers a next state that can come after the one it ran on, and that differs from it only in the
components of a set. -/
namespace Sys2Proof.Machine

theorem execRegisterWrite_moves (src : Src) (bar : Bar) (a : Nat) (bytes : List Byte) (s : State) :
    ∃ u, execRegisterWrite src bar a bytes s = .next u ∧ s.Within 0x6ffffffbff u := by
  refine ⟨_, rfl, ?_⟩
  refine (State.live_within _ _ (fun u => ?_) (by rfl))
  exact (State.registerWrite_within ..).mono (by rfl)
theorem execScratchpadAliasWrite_moves (src : Src) (clear : Bool) (off : Nat) (bytes : List Byte) (s : State) :
    ∃ u, execScratchpadAliasWrite src clear off bytes s = .next u ∧ s.Within 0x40028200c9 u := by
  refine ⟨_, rfl, ?_⟩
  refine (State.live_within _ _ (fun u => ?_) (by rfl))
  exact (State.scratchWrite_within ..).mono (by rfl)
theorem execCtrlEnSet_moves (src : Src) (p : Page) (s : State) :
    ∃ u, execCtrlEnSet src p s = .next u ∧ s.Within 0x67ffb3e8ff u := by
  refine ⟨_, rfl, ?_⟩
  refine (State.live_within _ _ (fun u => ?_) (by rfl))
  exact (State.ctrlBit_within ..).mono (by rfl)
theorem execCtrlEnClear_moves (src : Src) (p : Page) (s : State) :
    ∃ u, execCtrlEnClear src p s = .next u ∧ s.Within 0x67ffb3e8ff u := by
  refine ⟨_, rfl, ?_⟩
  refine (State.live_within _ _ (fun u => ?_) (by rfl))
  exact (State.ctrlBit_within ..).mono (by rfl)
theorem execCtrlDrainSet_moves (src : Src) (p : Page) (s : State) :
    ∃ u, execCtrlDrainSet src p s = .next u ∧ s.Within 0x67ffb3e8ff u := by
  refine ⟨_, rfl, ?_⟩
  refine (State.live_within _ _ (fun u => ?_) (by rfl))
  exact (State.ctrlBit_within ..).mono (by rfl)
theorem execCtrlDrainClear_moves (src : Src) (p : Page) (s : State) :
    ∃ u, execCtrlDrainClear src p s = .next u ∧ s.Within 0x67ffb3e8ff u := by
  refine ⟨_, rfl, ?_⟩
  refine (State.live_within _ _ (fun u => ?_) (by rfl))
  exact (State.ctrlBit_within ..).mono (by rfl)
theorem execBlkrst_moves (src : Src) (p : Page) (s : State) :
    ∃ u, execBlkrst src p s = .next u ∧ s.Within 0x67ffb3e8ff u := by
  refine ⟨_, rfl, ?_⟩
  refine (State.live_within _ _ (fun u => ?_) (by rfl))
  refine (State.guard_within _ _ _ _ _ (fun u => ?_) (by rfl))
  exact (State.ctrlWrite_within ..).mono (by rfl)
theorem execFreezeSet_moves (src : Src) (p : Page) (s : State) :
    ∃ u, execFreezeSet src p s = .next u ∧ s.Within 0x67ffb3e8ff u := by
  refine ⟨_, rfl, ?_⟩
  refine (State.live_within _ _ (fun u => ?_) (by rfl))
  exact (State.ctrlBit_within ..).mono (by rfl)
theorem execFreezeClear_moves (src : Src) (p : Page) (s : State) :
    ∃ u, execFreezeClear src p s = .next u ∧ s.Within 0x67ffb3e8ff u := by
  refine ⟨_, rfl, ?_⟩
  refine (State.live_within _ _ (fun u => ?_) (by rfl))
  exact (State.ctrlBit_within ..).mono (by rfl)
theorem execWorkFinished_moves (p : Page) (s : State) :
    ∃ u, execWorkFinished p s = .next u ∧ s.Within 0x403e8320c9 u := by
  refine ⟨_, rfl, ?_⟩
  refine (State.live_within _ _ (fun u => ?_) (by rfl))
  exact (State.workFinished_within ..).mono (by rfl)
theorem execDrainLimitExpiry_moves (p : Page) (s : State) :
    ∃ u, execDrainLimitExpiry p s = .next u ∧ s.Within 0x64ff83a8cb u := by
  refine ⟨_, rfl, ?_⟩
  refine (State.live_within _ _ (fun u => ?_) (by rfl))
  exact (State.drainLimit_within ..).mono (by rfl)
theorem execBlockFault_moves (p : Page) (code : Nat) (addr : Nat) (s : State) :
    ∃ u, execBlockFault p code addr s = .next u ∧ s.Within 0x64ff83a8cb u := by
  refine ⟨_, rfl, ?_⟩
  refine (State.live_within _ _ (fun u => ?_) (by rfl))
  refine (State.clocked_within _ _ _ (fun u => ?_) (by rfl))
  exact (State.fault_within ..).mono (by rfl)
theorem execShadowWrite_moves (src : Src) (p : Page) (off : Nat) (v : Nat) (s : State) :
    ∃ u, execShadowWrite src p off v s = .next u ∧ s.Within 0x400283008f u := by
  refine ⟨_, rfl, ?_⟩
  refine (State.live_within _ _ (fun u => ?_) (by rfl))
  refine (State.guard_within _ _ _ _ _ (fun u => ?_) (by rfl))
  exact (State.shadowPut_within ..).mono (by rfl)
theorem execCommitRequest_moves (src : Src) (p : Page) (s : State) :
    ∃ u, execCommitRequest src p s = .next u ∧ s.Within 0x6062a3c08b u := by
  refine ⟨_, rfl, ?_⟩
  refine (State.live_within _ _ (fun u => ?_) (by rfl))
  refine (State.guard_within _ _ _ _ _ (fun u => ?_) (by rfl))
  exact (State.request_within ..).mono (by rfl)
theorem execCommitAbandon_moves (src : Src) (p : Page) (s : State) :
    ∃ u, execCommitAbandon src p s = .next u ∧ s.Within 0x404282c08d u := by
  refine ⟨_, rfl, ?_⟩
  refine (State.live_within _ _ (fun u => ?_) (by rfl))
  refine (State.guard_within _ _ _ _ _ (fun u => ?_) (by rfl))
  exact (State.abandon_within ..).mono (by rfl)
theorem execAssayerVerdict_moves (bad : Option Nat) (corr : Nat) (s : State) :
    ∃ u, execAssayerVerdict bad corr s = .next u ∧ s.Within 0x6060a3c00b u := by
  refine ⟨_, rfl, ?_⟩
  refine (State.live_within _ _ (fun u => ?_) (by rfl))
  exact (State.verdict_within ..).mono (by rfl)
theorem execBoundaryApply_moves (p : Page) (s : State) :
    ∃ u, execBoundaryApply p s = .next u ∧ s.Within 0x6060a3c00b u := by
  refine ⟨_, rfl, ?_⟩
  refine (State.live_within _ _ (fun u => ?_) (by rfl))
  exact (State.boundary_within ..).mono (by rfl)
theorem execErrClear_moves (src : Src) (p : Page) (s : State) :
    ∃ u, execErrClear src p s = .next u ∧ s.Within 0x4002820089 u := by
  refine ⟨_, rfl, ?_⟩
  refine (State.live_within _ _ (fun u => ?_) (by rfl))
  refine (State.guard_within _ _ _ _ _ (fun u => ?_) (by rfl))
  exact (State.errClear_within ..).mono (by rfl)
theorem execSnap_moves (src : Src) (p : Page) (s : State) :
    ∃ u, execSnap src p s = .next u ∧ s.Within 0x4002820099 u := by
  refine ⟨_, rfl, ?_⟩
  refine (State.live_within _ _ (fun u => ?_) (by rfl))
  refine (State.guard_within _ _ _ _ _ (fun u => ?_) (by rfl))
  exact (State.snap_within ..).mono (by rfl)
theorem execOwnerWrite_moves (src : Src) (p : Page) (cls : Nat) (s : State) :
    ∃ u, execOwnerWrite src p cls s = .next u ∧ s.Within 0x4002820089 u := by
  refine ⟨_, rfl, ?_⟩
  refine (State.live_within _ _ (fun u => ?_) (by rfl))
  exact (State.ownerWrite_within ..).mono (by rfl)
theorem execOwnerLock_moves (src : Src) (p : Page) (s : State) :
    ∃ u, execOwnerLock src p s = .next u ∧ s.Within 0x4002820089 u := by
  refine ⟨_, rfl, ?_⟩
  refine (State.live_within _ _ (fun u => ?_) (by rfl))
  exact (State.ownerWrite_within ..).mono (by rfl)
theorem execEvtClr_moves (src : Src) (p : Page) (v : Nat) (s : State) :
    ∃ u, execEvtClr src p v s = .next u ∧ s.Within 0x4002820089 u := by
  refine ⟨_, rfl, ?_⟩
  refine (State.live_within _ _ (fun u => ?_) (by rfl))
  refine (State.guard_within _ _ _ _ _ (fun u => ?_) (by rfl))
  exact (State.evtClr_within ..).mono (by rfl)
theorem execEvtRouteWrite_moves (src : Src) (n : Nat) (v : Nat) (s : State) :
    ∃ u, execEvtRouteWrite src n v s = .next u ∧ s.Within 0x4002820089 u := by
  refine ⟨_, rfl, ?_⟩
  refine (State.live_within _ _ (fun u => ?_) (by rfl))
  refine (State.guard_within _ _ _ _ _ (fun u => ?_) (by rfl))
  exact (State.routePut_within ..).mono (by rfl)
theorem execFrameRxStart_moves (p : Nat) (head : List Byte) (frac : Nat) (s : State) :
    ∃ u, execFrameRxStart p head frac s = .next u ∧ s.Within 0x6000030009 u := by
  refine ⟨_, rfl, ?_⟩
  refine (State.live_within _ _ (fun u => ?_) (by rfl))
  exact (State.rxStart_within ..).mono (by rfl)
theorem execFrameRxEnd_moves (p : Nat) (rest : List Byte) (code : Bool) (corr : Nat) (uncorr : Nat) (secBad : Option (Nat × Nat × Nat)) (s : State) :
    ∃ u, execFrameRxEnd p rest code corr uncorr secBad s = .next u ∧ s.Within 0x6000a3000b u := by
  refine ⟨_, rfl, ?_⟩
  refine (State.live_within _ _ (fun u => ?_) (by rfl))
  exact (State.rxEnd_within ..).mono (by rfl)
theorem execCutThroughDecision_moves (p : Nat) (s : State) :
    ∃ u, execCutThroughDecision p s = .next u ∧ s.Within 0x10000 u := by
  refine ⟨_, rfl, ?_⟩
  refine (State.live_within _ _ (fun u => ?_) (by rfl))
  exact (State.cutDecision_within ..).mono (by rfl)
theorem execUpHoldExpiry_moves (p : Nat) (s : State) :
    ∃ u, execUpHoldExpiry p s = .next u ∧ s.Within 0x4000030009 u := by
  refine ⟨_, rfl, ?_⟩
  refine (State.live_within _ _ (fun u => ?_) (by rfl))
  refine (State.clocked_within _ _ _ (fun u => ?_) (by rfl))
  exact (State.upHold_within ..).mono (by rfl)
theorem execPcsLockLoss_moves (p : Nat) (s : State) :
    ∃ u, execPcsLockLoss p s = .next u ∧ s.Within 0x10001 u := by
  refine ⟨_, rfl, ?_⟩
  refine (State.live_within _ _ (fun u => ?_) (by rfl))
  exact (State.pcsLoss_within ..).mono (by rfl)
theorem execDownHoldExpiry_moves (p : Nat) (s : State) :
    ∃ u, execDownHoldExpiry p s = .next u ∧ s.Within 0x4000030009 u := by
  refine ⟨_, rfl, ?_⟩
  refine (State.live_within _ _ (fun u => ?_) (by rfl))
  refine (State.clocked_within _ _ _ (fun u => ?_) (by rfl))
  exact (State.downHoldEnds_within ..).mono (by rfl)
theorem execPcsLockRegained_moves (p : Nat) (s : State) :
    ∃ u, execPcsLockRegained p s = .next u ∧ s.Within 0x10001 u := by
  refine ⟨_, rfl, ?_⟩
  refine (State.live_within _ _ (fun u => ?_) (by rfl))
  refine (State.clocked_within _ _ _ (fun u => ?_) (by rfl))
  exact (State.pcsRegained_within ..).mono (by rfl)
theorem execFaultOrderedSet_moves (p : Nat) (remote : Bool) (s : State) :
    ∃ u, execFaultOrderedSet p remote s = .next u ∧ s.Within 0x4000030009 u := by
  refine ⟨_, rfl, ?_⟩
  refine (State.live_within _ _ (fun u => ?_) (by rfl))
  refine (State.clocked_within _ _ _ (fun u => ?_) (by rfl))
  exact (State.faultSet_within ..).mono (by rfl)
theorem execFaultSetsCease_moves (p : Nat) (s : State) :
    ∃ u, execFaultSetsCease p s = .next u ∧ s.Within 0x4000030009 u := by
  refine ⟨_, rfl, ?_⟩
  refine (State.live_within _ _ (fun u => ?_) (by rfl))
  refine (State.clocked_within _ _ _ (fun u => ?_) (by rfl))
  exact (State.faultEnds_within ..).mono (by rfl)
theorem execSpeedMismatch_moves (p : Nat) (s : State) :
    ∃ u, execSpeedMismatch p s = .next u ∧ s.Within 0x4000030009 u := by
  refine ⟨_, rfl, ?_⟩
  refine (State.live_within _ _ (fun u => ?_) (by rfl))
  refine (State.clocked_within _ _ _ (fun u => ?_) (by rfl))
  exact (State.speedBad_within ..).mono (by rfl)
theorem execSpeedMismatchClear_moves (p : Nat) (s : State) :
    ∃ u, execSpeedMismatchClear p s = .next u ∧ s.Within 0x1 u := by
  refine ⟨_, rfl, ?_⟩
  refine (State.live_within _ _ (fun u => ?_) (by rfl))
  refine (State.clocked_within _ _ _ (fun u => ?_) (by rfl))
  exact (State.speedGood_within ..).mono (by rfl)
theorem execMdioRead_moves (src : Src) (p : Nat) (s : State) :
    ∃ u, execMdioRead src p s = .next u ∧ s.Within 0x4002830089 u := by
  refine ⟨_, rfl, ?_⟩
  refine (State.live_within _ _ (fun u => ?_) (by rfl))
  refine (State.guard_within _ _ _ _ _ (fun u => ?_) (by rfl))
  exact (State.mdioCmd_within ..).mono (by rfl)
theorem execMdioWrite_moves (src : Src) (p : Nat) (s : State) :
    ∃ u, execMdioWrite src p s = .next u ∧ s.Within 0x4002830089 u := by
  refine ⟨_, rfl, ?_⟩
  refine (State.live_within _ _ (fun u => ?_) (by rfl))
  refine (State.guard_within _ _ _ _ _ (fun u => ?_) (by rfl))
  exact (State.mdioCmd_within ..).mono (by rfl)
theorem execMdioFrameDone_moves (m : Nat) (answer : Option Nat) (s : State) :
    ∃ u, execMdioFrameDone m answer s = .next u ∧ s.Within 0x4000830009 u := by
  refine ⟨_, rfl, ?_⟩
  refine (State.liveAon_within _ _ (fun u => ?_) (by rfl))
  exact (State.mdioDone_within ..).mono (by rfl)
theorem execTc10SleepReq_moves (src : Src) (p : Nat) (s : State) :
    ∃ u, execTc10SleepReq src p s = .next u ∧ s.Within 0x4002830089 u := by
  refine ⟨_, rfl, ?_⟩
  refine (State.live_within _ _ (fun u => ?_) (by rfl))
  refine (State.guard_within _ _ _ _ _ (fun u => ?_) (by rfl))
  exact (State.tc10Sleep_within ..).mono (by rfl)
theorem execTc10WakeReq_moves (src : Src) (p : Nat) (s : State) :
    ∃ u, execTc10WakeReq src p s = .next u ∧ s.Within 0x4002830089 u := by
  refine ⟨_, rfl, ?_⟩
  refine (State.live_within _ _ (fun u => ?_) (by rfl))
  refine (State.guard_within _ _ _ _ _ (fun u => ?_) (by rfl))
  exact (State.tc10Wake_within ..).mono (by rfl)
theorem execTc10QueuesEmpty_moves (p : Nat) (s : State) :
    ∃ u, execTc10QueuesEmpty p s = .next u ∧ s.Within 0x10001 u := by
  refine ⟨_, rfl, ?_⟩
  refine (State.live_within _ _ (fun u => ?_) (by rfl))
  refine (State.clocked_within _ _ _ (fun u => ?_) (by rfl))
  exact (State.tc10Empty_within ..).mono (by rfl)
theorem execTc10Timeout_moves (p : Nat) (s : State) :
    ∃ u, execTc10Timeout p s = .next u ∧ s.Within 0x4000830009 u := by
  refine ⟨_, rfl, ?_⟩
  refine (State.live_within _ _ (fun u => ?_) (by rfl))
  refine (State.clocked_within _ _ _ (fun u => ?_) (by rfl))
  exact (State.tc10Timeout_within ..).mono (by rfl)
theorem execPhyTc10Sleep_moves (p : Nat) (s : State) :
    ∃ u, execPhyTc10Sleep p s = .next u ∧ s.Within 0x4000030009 u := by
  refine ⟨_, rfl, ?_⟩
  refine (State.live_within _ _ (fun u => ?_) (by rfl))
  refine (State.clocked_within _ _ _ (fun u => ?_) (by rfl))
  exact (State.phyAsleep_within ..).mono (by rfl)
theorem execTc10RemoteWake_moves (p : Nat) (s : State) :
    ∃ u, execTc10RemoteWake p s = .next u ∧ s.Within 0x4004030009 u := by
  refine ⟨_, rfl, ?_⟩
  refine (State.live_within _ _ (fun u => ?_) (by rfl))
  refine (State.clocked_within _ _ _ (fun u => ?_) (by rfl))
  exact (State.portWake_within ..).mono (by rfl)
theorem execCreditIntervalExpiry_moves (p : Nat) (s : State) :
    ∃ u, execCreditIntervalExpiry p s = .next u ∧ s.Within 0x10000 u := by
  refine ⟨_, rfl, ?_⟩
  refine (State.live_within _ _ (fun u => ?_) (by rfl))
  refine (State.clocked_within _ _ _ (fun u => ?_) (by rfl))
  exact (State.creditInterval'_within ..).mono (by rfl)
theorem execStandaloneCreditSend_moves (p : Nat) (s : State) :
    ∃ u, execStandaloneCreditSend p s = .next u ∧ s.Within 0x4000010008 u := by
  refine ⟨_, rfl, ?_⟩
  refine (State.live_within _ _ (fun u => ?_) (by rfl))
  refine (State.clocked_within _ _ _ (fun u => ?_) (by rfl))
  exact (State.creditSend_within ..).mono (by rfl)
theorem execCreditStall_moves (p : Nat) (c : Nat) (s : State) :
    ∃ u, execCreditStall p c s = .next u ∧ s.Within 0x4000030009 u := by
  refine ⟨_, rfl, ?_⟩
  refine (State.live_within _ _ (fun u => ?_) (by rfl))
  refine (State.clocked_within _ _ _ (fun u => ?_) (by rfl))
  exact (State.creditStall_within ..).mono (by rfl)
theorem execParseWindow_moves (recirc : Bool) (s : State) :
    ∃ u, execParseWindow recirc s = .next u ∧ s.Within 0x4000030009 u := by
  refine ⟨_, rfl, ?_⟩
  refine (State.live_within _ _ (fun u => ?_) (by rfl))
  exact (State.parseWindow_within ..).mono (by rfl)
theorem execClassify_moves (bad : List Nat) (badFib : List Nat) (corr : Nat) (corrFib : Nat) (s : State) :
    ∃ u, execClassify bad badFib corr corrFib s = .next u ∧ s.Within 0x4000830009 u := by
  refine ⟨_, rfl, ?_⟩
  refine (State.live_within _ _ (fun u => ?_) (by rfl))
  exact (State.classifyNext_within ..).mono (by rfl)
theorem execBankWrite_moves (src : Src) (a : Nat) (v : Nat) (s : State) :
    ∃ u, execBankWrite src a v s = .next u ∧ s.Within 0x40028200a9 u := by
  refine ⟨_, rfl, ?_⟩
  refine (State.live_within _ _ (fun u => ?_) (by rfl))
  exact (State.bankWrite_within ..).mono (by rfl)
theorem execFibStageWrite_moves (src : Src) (a : Nat) (v : Nat) (s : State) :
    ∃ u, execFibStageWrite src a v s = .next u ∧ s.Within 0x40028300a9 u := by
  refine ⟨_, rfl, ?_⟩
  refine (State.live_within _ _ (fun u => ?_) (by rfl))
  exact (State.fibWrite_within ..).mono (by rfl)
theorem execFibEntryApply_moves (src : Src) (a : Nat) (v : Nat) (s : State) :
    ∃ u, execFibEntryApply src a v s = .next u ∧ s.Within 0x40028300a9 u := by
  refine ⟨_, rfl, ?_⟩
  refine (State.live_within _ _ (fun u => ?_) (by rfl))
  exact (State.fibWrite_within ..).mono (by rfl)
theorem execStageClr_moves (src : Src) (s : State) :
    ∃ u, execStageClr src s = .next u ∧ s.Within 0x4002830089 u := by
  refine ⟨_, rfl, ?_⟩
  refine (State.live_within _ _ (fun u => ?_) (by rfl))
  refine (State.guard_within _ _ _ _ _ (fun u => ?_) (by rfl))
  exact (State.stageClear_within ..).mono (by rfl)
theorem execRecircExpiry_moves (s : State) :
    ∃ u, execRecircExpiry s = .next u ∧ s.Within 0x4000030009 u := by
  refine ⟨_, rfl, ?_⟩
  refine (State.live_within _ _ (fun u => ?_) (by rfl))
  exact (State.recircExpire_within ..).mono (by rfl)
theorem execRecircCountZero_moves (s : State) :
    ∃ u, execRecircCountZero s = .next u ∧ s.Within 0x400082800b u := by
  refine ⟨_, rfl, ?_⟩
  refine (State.live_within _ _ (fun u => ?_) (by rfl))
  exact (State.recircZero_within ..).mono (by rfl)
theorem execBankCloneDone_moves (s : State) :
    ∃ u, execBankCloneDone s = .next u ∧ s.Within 0x4000020029 u := by
  refine ⟨_, rfl, ?_⟩
  refine (State.live_within _ _ (fun u => ?_) (by rfl))
  exact (State.bankCloned_within ..).mono (by rfl)
theorem execPolice_moves (fabBad : List Nat) (frerBad : Bool) (corrFab : Nat) (corrFrer : Nat) (s : State) :
    ∃ u, execPolice fabBad frerBad corrFab corrFrer s = .next u ∧ s.Within 0x4000a30009 u := by
  refine ⟨_, rfl, ?_⟩
  refine (State.live_within _ _ (fun u => ?_) (by rfl))
  exact (State.policeNext_within ..).mono (by rfl)
theorem execAdmission_moves (s : State) :
    ∃ u, execAdmission s = .next u ∧ s.Within 0x6000030009 u := by
  refine ⟨_, rfl, ?_⟩
  refine (State.live_within _ _ (fun u => ?_) (by rfl))
  exact (State.admitNext_within ..).mono (by rfl)
theorem execLinkMemoryScrub_moves (bad : Nat) (s : State) :
    ∃ u, execLinkMemoryScrub bad s = .next u ∧ s.Within 0x64ff83a8cb u := by
  refine ⟨_, rfl, ?_⟩
  refine (State.live_within _ _ (fun u => ?_) (by rfl))
  refine (State.clocked_within _ _ _ (fun u => ?_) (by rfl))
  exact (State.scrub_within ..).mono (by rfl)
theorem execRngReseed_moves (bits : List Bool) (s : State) :
    ∃ u, execRngReseed bits s = .next u ∧ s.Within 0x4100020009 u := by
  refine ⟨_, rfl, ?_⟩
  refine (State.live_within _ _ (fun u => ?_) (by rfl))
  refine (State.clocked_within _ _ _ (fun u => ?_) (by rfl))
  exact (State.reseed_within ..).mono (by rfl)
theorem execQstatPeakRead_moves (s : State) :
    ∃ u, execQstatPeakRead s = .next u ∧ s.Within 0x4000010000 u := by
  refine ⟨_, rfl, ?_⟩
  refine (State.live_within _ _ (fun u => ?_) (by rfl))
  refine (State.readReg_within _ _ _ _ (fun u => ?_) (by rfl))
  exact (State.peakRead_within ..).mono (by rfl)
theorem execSchedDecision_moves (p : Nat) (wait : Nat) (s : State) :
    ∃ u, execSchedDecision p wait s = .next u ∧ s.Within 0x400003000b u := by
  refine ⟨_, rfl, ?_⟩
  refine (State.live_within _ _ (fun u => ?_) (by rfl))
  exact (State.schedDecision_within ..).mono (by rfl)
theorem execTransmitStart_moves (p :
    Nat) (lead : Nat) (corr : Nat) (corrDesc : Nat) (bad : Option Nat) (secBad : Option (Nat × Nat × Nat)) (s : State) :
    ∃ u, execTransmitStart p lead corr corrDesc bad secBad s = .next u ∧ s.Within 0x6002930089 u := by
  refine ⟨_, rfl, ?_⟩
  refine (State.live_within _ _ (fun u => ?_) (by rfl))
  exact (State.transmitStart_within ..).mono (by rfl)
theorem execTransmitEnd_moves (p : Nat) (corr : Nat) (bad : Option Nat) (s : State) :
    ∃ u, execTransmitEnd p corr bad s = .next u ∧ s.Within 0x6200a3080b u := by
  refine ⟨_, rfl, ?_⟩
  refine (State.live_within _ _ (fun u => ?_) (by rfl))
  exact (State.transmitEnd_within ..).mono (by rfl)
theorem execMeterClr_moves (src : Src) (v : Nat) (s : State) :
    ∃ u, execMeterClr src v s = .next u ∧ s.Within 0x4002830089 u := by
  refine ⟨_, rfl, ?_⟩
  refine (State.live_within _ _ (fun u => ?_) (by rfl))
  refine (State.guard_within _ _ _ _ _ (fun u => ?_) (by rfl))
  exact (State.meterClr_within ..).mono (by rfl)
theorem execLocalNsRead_moves (s : State) :
    ∃ u, execLocalNsRead s = .next u ∧ s.Within 0x4000000001 u := by
  refine ⟨_, rfl, ?_⟩
  refine (State.live_within _ _ (fun u => ?_) (by rfl))
  refine (State.readReg_within _ _ _ _ (fun u => ?_) (by rfl))
  exact (State.localRead_within ..).mono (by rfl)
theorem execTabDataAccess_moves (src : Src) (p : Page) (shadow : Bool) (v : Option Nat) (ecc : EccResult) (s : State) :
    ∃ u, execTabDataAccess src p shadow v ecc s = .next u ∧ s.Within 0x600283008f u := by
  refine ⟨_, rfl, ?_⟩
  refine (State.live_within _ _ (fun u => ?_) (by rfl))
  split
  · refine (State.guard_within _ _ _ _ _ (fun u => ?_) (by rfl))
    exact (State.tabWrite_within ..).mono (by rfl)
  · refine State.Within.ite ?_ ?_
    · split
      rename_i x1 e2
      have h3 : u.Within 0x600283008f x1 := State.Within.of_pair e2 (by exact (State.tabReadEcc_within ..).mono (by rfl))
      exact State.Within.trans (by assumption) ((State.emit_within ..).mono (by rfl))
    · exact (State.emit_within ..).mono (by rfl)
theorem execQschTableScrub_moves (bad : Nat) (s : State) :
    ∃ u, execQschTableScrub bad s = .next u ∧ s.Within 0x64ff83a8cb u := by
  refine ⟨_, rfl, ?_⟩
  refine (State.live_within _ _ (fun u => ?_) (by rfl))
  refine (State.clocked_within _ _ _ (fun u => ?_) (by rfl))
  exact (State.scrub_within ..).mono (by rfl)
theorem execGateEntryStart_moves (p : Nat) (s : State) :
    ∃ u, execGateEntryStart p s = .next u ∧ s.Within 0x10008 u := by
  refine ⟨_, rfl, ?_⟩
  refine (State.live_within _ _ (fun u => ?_) (by rfl))
  refine (State.clocked_within _ _ _ (fun u => ?_) (by rfl))
  exact (State.gateEntry_within ..).mono (by rfl)
theorem execGateListWrite_moves (src : Src) (p : Nat) (b : Nat) (k : Nat) (w : Nat) (v : Nat) (s : State) :
    ∃ u, execGateListWrite src p b k w v s = .next u ∧ s.Within 0x40028300a9 u := by
  refine ⟨_, rfl, ?_⟩
  refine (State.live_within _ _ (fun u => ?_) (by rfl))
  exact (State.gateWrite_within ..).mono (by rfl)
theorem execGateTakeover_moves (p : Nat) (s : State) :
    ∃ u, execGateTakeover p s = .next u ∧ s.Within 0x400083800b u := by
  refine ⟨_, rfl, ?_⟩
  refine (State.live_within _ _ (fun u => ?_) (by rfl))
  refine (State.clocked_within _ _ _ (fun u => ?_) (by rfl))
  exact (State.gateDue_within ..).mono (by rfl)
theorem execGateCloneDone_moves (p : Nat) (s : State) :
    ∃ u, execGateCloneDone p s = .next u ∧ s.Within 0x4000030029 u := by
  refine ⟨_, rfl, ?_⟩
  refine (State.live_within _ _ (fun u => ?_) (by rfl))
  refine (State.clocked_within _ _ _ (fun u => ?_) (by rfl))
  exact (State.gateCloned_within ..).mono (by rfl)
theorem execGateListScrub_moves (p : Nat) (b : Nat) (k : Nat) (bad : Nat) (s : State) :
    ∃ u, execGateListScrub p b k bad s = .next u ∧ s.Within 0x64ff83a8eb u := by
  refine ⟨_, rfl, ?_⟩
  refine (State.live_within _ _ (fun u => ?_) (by rfl))
  refine (State.clocked_within _ _ _ (fun u => ?_) (by rfl))
  exact (State.gateScrub_within ..).mono (by rfl)
theorem execAdjWrite_moves (src : Src) (d : Nat) (v : Nat) (s : State) :
    ∃ u, execAdjWrite src d v s = .next u ∧ s.Within 0x4002820089 u := by
  refine ⟨_, rfl, ?_⟩
  refine (State.live_within _ _ (fun u => ?_) (by rfl))
  refine (State.guard_within _ _ _ _ _ (fun u => ?_) (by rfl))
  exact (State.adjPut_within ..).mono (by rfl)
theorem execSlewCfgWrite_moves (src : Src) (v : Nat) (s : State) :
    ∃ u, execSlewCfgWrite src v s = .next u ∧ s.Within 0x4002820089 u := by
  refine ⟨_, rfl, ?_⟩
  refine (State.live_within _ _ (fun u => ?_) (by rfl))
  refine (State.guardTrusted_within _ _ _ _ _ (fun u => ?_) (by rfl))
  exact (State.slewPut_within ..).mono (by rfl)
theorem execDomainStep_moves (src : Src) (d : Nat) (s : State) :
    ∃ u, execDomainStep src d s = .next u ∧ s.Within 0x40028b808b u := by
  refine ⟨_, rfl, ?_⟩
  refine (State.live_within _ _ (fun u => ?_) (by rfl))
  refine (State.guard_within _ _ _ _ _ (fun u => ?_) (by rfl))
  exact (State.domAsk_within ..).mono (by rfl)
theorem execDomainSet_moves (src : Src) (d : Nat) (s : State) :
    ∃ u, execDomainSet src d s = .next u ∧ s.Within 0x40028b808b u := by
  refine ⟨_, rfl, ?_⟩
  refine (State.live_within _ _ (fun u => ?_) (by rfl))
  refine (State.guard_within _ _ _ _ _ (fun u => ?_) (by rfl))
  exact (State.domAsk_within ..).mono (by rfl)
theorem execTsnap_moves (src : Src) (s : State) :
    ∃ u, execTsnap src s = .next u ∧ s.Within 0x4002820089 u := by
  refine ⟨_, rfl, ?_⟩
  refine (State.live_within _ _ (fun u => ?_) (by rfl))
  refine (State.guard_within _ _ _ _ _ (fun u => ?_) (by rfl))
  exact (State.tsnap_within ..).mono (by rfl)
theorem execTxtsPop_moves (src : Src) (s : State) :
    ∃ u, execTxtsPop src s = .next u ∧ s.Within 0x4002920089 u := by
  refine ⟨_, rfl, ?_⟩
  refine (State.live_within _ _ (fun u => ?_) (by rfl))
  refine (State.guard_within _ _ _ _ _ (fun u => ?_) (by rfl))
  exact (State.txtsPop_within ..).mono (by rfl)
theorem execFailoverScan_moves (p : Nat) (s : State) :
    ∃ u, execFailoverScan p s = .next u ∧ s.Within 0x4000020029 u := by
  refine ⟨_, rfl, ?_⟩
  refine (State.live_within _ _ (fun u => ?_) (by rfl))
  refine (State.clocked_within _ _ _ (fun u => ?_) (by rfl))
  exact (State.failoverScan_within ..).mono (by rfl)
theorem execNodeWrite_moves (src : Src) (id : Nat) (valid : Bool) (s : State) :
    ∃ u, execNodeWrite src id valid s = .next u ∧ s.Within 0x4002820089 u := by
  refine ⟨_, rfl, ?_⟩
  refine (State.live_within _ _ (fun u => ?_) (by rfl))
  refine (State.guard_within _ _ _ _ _ (fun u => ?_) (by rfl))
  exact (State.nodeWrite_within ..).mono (by rfl)
theorem execFrerScan_moves (s : State) :
    ∃ u, execFrerScan s = .next u ∧ s.Within 0x4000620009 u := by
  refine ⟨_, rfl, ?_⟩
  refine (State.live_within _ _ (fun u => ?_) (by rfl))
  refine (State.clocked_within _ _ _ (fun u => ?_) (by rfl))
  exact (State.frerSweep_within ..).mono (by rfl)
theorem execLaneUp_moves (i : Nat) (s : State) :
    ∃ u, execLaneUp i s = .next u ∧ s.Within 0x4000030009 u := by
  refine ⟨_, rfl, ?_⟩
  refine (State.live_within _ _ (fun u => ?_) (by rfl))
  refine (State.clocked_within _ _ _ (fun u => ?_) (by rfl))
  exact (State.laneRises_within ..).mono (by rfl)
theorem execLaneDown_moves (i : Nat) (s : State) :
    ∃ u, execLaneDown i s = .next u ∧ s.Within 0x4000830009 u := by
  refine ⟨_, rfl, ?_⟩
  refine (State.live_within _ _ (fun u => ?_) (by rfl))
  refine (State.clocked_within _ _ _ (fun u => ?_) (by rfl))
  exact (State.laneFalls_within ..).mono (by rfl)
theorem execHeartbeatSend_moves (s : State) :
    ∃ u, execHeartbeatSend s = .next u ∧ s.Within 0x4000810001 u := by
  refine ⟨_, rfl, ?_⟩
  refine (State.live_within _ _ (fun u => ?_) (by rfl))
  refine (State.clocked_within _ _ _ (fun u => ?_) (by rfl))
  refine State.Within.trans ?_ ((State.refreshFence_within ..).mono (by rfl))
  exact (State.sendHeartbeat_within ..).mono (by rfl)
theorem execHeartbeatReceive_moves (lane : Nat) (l : List BeatBlock) (s : State) :
    ∃ u, execHeartbeatReceive lane l s = .next u ∧ s.Within 0x4000830009 u := by
  refine ⟨_, rfl, ?_⟩
  refine (State.live_within _ _ (fun u => ?_) (by rfl))
  refine (State.clocked_within _ _ _ (fun u => ?_) (by rfl))
  exact (State.heartbeat_within ..).mono (by rfl)
theorem execHeartbeatLoss_moves (s : State) :
    ∃ u, execHeartbeatLoss s = .next u ∧ s.Within 0x4000830009 u := by
  refine ⟨_, rfl, ?_⟩
  refine (State.live_within _ _ (fun u => ?_) (by rfl))
  refine (State.clocked_within _ _ _ (fun u => ?_) (by rfl))
  exact (State.heartbeatLost_within ..).mono (by rfl)
theorem execDigestSend_moves (s : State) :
    ∃ u, execDigestSend s = .next u ∧ s.Within 0x4000830009 u := by
  refine ⟨_, rfl, ?_⟩
  refine (State.live_within _ _ (fun u => ?_) (by rfl))
  refine (State.clocked_within _ _ _ (fun u => ?_) (by rfl))
  exact (State.closeWindow_within ..).mono (by rfl)
theorem execDigestReceive_moves (lane : Nat) (l : List BeatBlock) (s : State) :
    ∃ u, execDigestReceive lane l s = .next u ∧ s.Within 0x4000830009 u := by
  refine ⟨_, rfl, ?_⟩
  refine (State.live_within _ _ (fun u => ?_) (by rfl))
  refine (State.clocked_within _ _ _ (fun u => ?_) (by rfl))
  exact (State.digestArrives_within ..).mono (by rfl)
theorem execDigestWaitExpiry_moves (s : State) :
    ∃ u, execDigestWaitExpiry s = .next u ∧ s.Within 0x800008 u := by
  refine ⟨_, rfl, ?_⟩
  refine (State.live_within _ _ (fun u => ?_) (by rfl))
  refine (State.clocked_within _ _ _ (fun u => ?_) (by rfl))
  exact (State.digestMissing_within ..).mono (by rfl)
theorem execFenceRise_moves (s : State) :
    ∃ u, execFenceRise s = .next u ∧ s.Within 0x1 u := by
  refine ⟨_, rfl, ?_⟩
  refine (State.live_within _ _ (fun u => ?_) (by rfl))
  refine (State.clocked_within _ _ _ (fun u => ?_) (by rfl))
  exact (State.fenceRises_within ..).mono (by rfl)
theorem execFenceFall_moves (s : State) :
    ∃ u, execFenceFall s = .next u ∧ s.Within 0x4000830009 u := by
  refine ⟨_, rfl, ?_⟩
  refine (State.live_within _ _ (fun u => ?_) (by rfl))
  refine (State.clocked_within _ _ _ (fun u => ?_) (by rfl))
  exact (State.fenceFalls_within ..).mono (by rfl)
theorem execListenTimeout_moves (s : State) :
    ∃ u, execListenTimeout s = .next u ∧ s.Within 0x4000830009 u := by
  refine ⟨_, rfl, ?_⟩
  refine (State.live_within _ _ (fun u => ?_) (by rfl))
  refine (State.clocked_within _ _ _ (fun u => ?_) (by rfl))
  exact (State.listenTimeout_within ..).mono (by rfl)
theorem execRoleCmdTake_moves (src : Src) (s : State) :
    ∃ u, execRoleCmdTake src s = .next u ∧ s.Within 0x4002830089 u := by
  refine ⟨_, rfl, ?_⟩
  refine (State.live_within _ _ (fun u => ?_) (by rfl))
  refine (State.guard_within _ _ _ _ _ (fun u => ?_) (by rfl))
  exact (State.roleTake_within ..).mono (by rfl)
theorem execRoleCmdYield_moves (src : Src) (s : State) :
    ∃ u, execRoleCmdYield src s = .next u ∧ s.Within 0x4002820089 u := by
  refine ⟨_, rfl, ?_⟩
  refine (State.live_within _ _ (fun u => ?_) (by rfl))
  refine (State.guard_within _ _ _ _ _ (fun u => ?_) (by rfl))
  exact (State.roleYield_within ..).mono (by rfl)
theorem execRoleCmdForce_moves (src : Src) (s : State) :
    ∃ u, execRoleCmdForce src s = .next u ∧ s.Within 0x4002830089 u := by
  refine ⟨_, rfl, ?_⟩
  refine (State.live_within _ _ (fun u => ?_) (by rfl))
  refine (State.guard_within _ _ _ _ _ (fun u => ?_) (by rfl))
  exact (State.roleForce_within ..).mono (by rfl)
theorem execControlFrameReceive_moves (lane : Nat) (bytes : List Byte) (ecc : EccResult) (s : State) :
    ∃ u, execControlFrameReceive lane bytes ecc s = .next u ∧ s.Within 0x6ffffffbff u := by
  refine ⟨_, rfl, ?_⟩
  refine (State.live_within _ _ (fun u => ?_) (by rfl))
  refine (State.clocked_within _ _ _ (fun u => ?_) (by rfl))
  exact (State.controlIn_within ..).mono (by rfl)
theorem execControlRetransmit_moves (kind : Nat) (s : State) :
    ∃ u, execControlRetransmit kind s = .next u ∧ s.Within 0x4000000008 u := by
  refine ⟨_, rfl, ?_⟩
  refine (State.live_within _ _ (fun u => ?_) (by rfl))
  refine (State.clocked_within _ _ _ (fun u => ?_) (by rfl))
  exact (State.retransmit_within ..).mono (by rfl)
theorem execHeldCopyExpiry_moves (q : Nat) (s : State) :
    ∃ u, execHeldCopyExpiry q s = .next u ∧ s.Within 0x10009 u := by
  refine ⟨_, rfl, ?_⟩
  refine (State.live_within _ _ (fun u => ?_) (by rfl))
  refine (State.clocked_within _ _ _ (fun u => ?_) (by rfl))
  exact (State.holdExpires_within ..).mono (by rfl)
theorem execTraceRelease_moves (src : Src) (s : State) :
    ∃ u, execTraceRelease src s = .next u ∧ s.Within 0x4002820089 u := by
  refine ⟨_, rfl, ?_⟩
  refine (State.live_within _ _ (fun u => ?_) (by rfl))
  refine (State.guard_within _ _ _ _ _ (fun u => ?_) (by rfl))
  exact (State.traceRelease_within ..).mono (by rfl)
theorem execFwWdogKick_moves (src : Src) (s : State) :
    ∃ u, execFwWdogKick src s = .next u ∧ s.Within 0x4002820089 u := by
  refine ⟨_, rfl, ?_⟩
  refine (State.live_within _ _ (fun u => ?_) (by rfl))
  refine (State.guard_within _ _ _ _ _ (fun u => ?_) (by rfl))
  exact (State.fwKick_within ..).mono (by rfl)
theorem execFwWatchdogExpiry_moves (s : State) :
    ∃ u, execFwWatchdogExpiry s = .next u ∧ s.Within 0x4000820009 u := by
  refine ⟨_, rfl, ?_⟩
  refine (State.live_within _ _ (fun u => ?_) (by rfl))
  refine (State.clocked_within _ _ _ (fun u => ?_) (by rfl))
  exact (State.fwExpires_within ..).mono (by rfl)
theorem execSelftestPass_moves (i : Nat) (bad : Bool) (s : State) :
    ∃ u, execSelftestPass i bad s = .next u ∧ s.Within 0x4000020009 u := by
  refine ⟨_, rfl, ?_⟩
  refine (State.live_within _ _ (fun u => ?_) (by rfl))
  refine (State.clocked_within _ _ _ (fun u => ?_) (by rfl))
  exact (State.selftest_within ..).mono (by rfl)
theorem execMpStart_moves (src : Src) (m : Nat) (s : State) :
    ∃ u, execMpStart src m s = .next u ∧ s.Within 0x4002820089 u := by
  refine ⟨_, rfl, ?_⟩
  refine (State.live_within _ _ (fun u => ?_) (by rfl))
  refine (State.guard_within _ _ _ _ _ (fun u => ?_) (by rfl))
  exact (State.mpStart_within ..).mono (by rfl)
theorem execMpGo_moves (src : Src) (m : Nat) (s : State) :
    ∃ u, execMpGo src m s = .next u ∧ s.Within 0x4002820089 u := by
  refine ⟨_, rfl, ?_⟩
  refine (State.live_within _ _ (fun u => ?_) (by rfl))
  refine (State.guard_within _ _ _ _ _ (fun u => ?_) (by rfl))
  exact (State.mpGo_within ..).mono (by rfl)
theorem execMpFenceReq_moves (src : Src) (m : Nat) (s : State) :
    ∃ u, execMpFenceReq src m s = .next u ∧ s.Within 0x4002820089 u := by
  refine ⟨_, rfl, ?_⟩
  refine (State.live_within _ _ (fun u => ?_) (by rfl))
  refine (State.guard_within _ _ _ _ _ (fun u => ?_) (by rfl))
  exact (State.mpFenceReq_within ..).mono (by rfl)
theorem execComparatorTestDone_moves (unit : Nat) (bad : Option Nat) (s : State) :
    ∃ u, execComparatorTestDone unit bad s = .next u ∧ s.Within 0x4002820009 u := by
  refine ⟨_, rfl, ?_⟩
  refine (State.live_within _ _ (fun u => ?_) (by rfl))
  refine State.Within.ite ?_ ?_
  · refine (State.clocked_within _ _ _ (fun u => ?_) (by rfl))
    exact (State.mpTested_within ..).mono (by rfl)
  · refine (State.clocked_within _ _ _ (fun u => ?_) (by rfl))
    exact (State.tpTested_within ..).mono (by rfl)
theorem execMpFenceDrained_moves (m : Nat) (s : State) :
    ∃ u, execMpFenceDrained m s = .next u ∧ s.Within 0x4002020089 u := by
  refine ⟨_, rfl, ?_⟩
  refine (State.live_within _ _ (fun u => ?_) (by rfl))
  refine (State.clocked_within _ _ _ (fun u => ?_) (by rfl))
  exact (State.mpDrained_within ..).mono (by rfl)
theorem execLockstepMismatch_moves (m : Nat) (channel : Nat) (pc : Nat) (s : State) :
    ∃ u, execLockstepMismatch m channel pc s = .next u ∧ s.Within 0x4002020089 u := by
  refine ⟨_, rfl, ?_⟩
  refine (State.live_within _ _ (fun u => ?_) (by rfl))
  refine (State.clocked_within _ _ _ (fun u => ?_) (by rfl))
  exact (State.mpMismatch_within ..).mono (by rfl)
theorem execTpMismatch_moves (channel : Nat) (s : State) :
    ∃ u, execTpMismatch channel s = .next u ∧ s.Within 0x4502021209 u := by
  refine ⟨_, rfl, ?_⟩
  refine (State.live_within _ _ (fun u => ?_) (by rfl))
  refine (State.clocked_within _ _ _ (fun u => ?_) (by rfl))
  exact (State.tpMismatched_within ..).mono (by rfl)
theorem execTpRestartDone_moves (corr : Nat × Nat) (s : State) :
    ∃ u, execTpRestartDone corr s = .next u ∧ s.Within 0x41020204c9 u := by
  refine ⟨_, rfl, ?_⟩
  refine (State.live_within _ _ (fun u => ?_) (by rfl))
  refine (State.clocked_within _ _ _ (fun u => ?_) (by rfl))
  exact (State.tpRestarted_within ..).mono (by rfl)
theorem execMpcFence_moves (src : Src) (s : State) :
    ∃ u, execMpcFence src s = .next u ∧ s.Within 0x4002820089 u := by
  refine ⟨_, rfl, ?_⟩
  refine (State.live_within _ _ (fun u => ?_) (by rfl))
  refine (State.guard_within _ _ _ _ _ (fun u => ?_) (by rfl))
  exact State.Within.refl _
theorem execMbxRing_moves (src : Src) (corr : Nat) (s : State) :
    ∃ u, execMbxRing src corr s = .next u ∧ s.Within 0x40028200c9 u := by
  refine ⟨_, rfl, ?_⟩
  refine (State.live_within _ _ (fun u => ?_) (by rfl))
  refine (State.guard_within _ _ _ _ _ (fun u => ?_) (by rfl))
  exact (State.mpcRing_within ..).mono (by rfl)
theorem execMringTail_moves (src : Src) (r : Nat) (v : Nat) (s : State) :
    ∃ u, execMringTail src r v s = .next u ∧ s.Within 0x4002820089 u := by
  refine ⟨_, rfl, ?_⟩
  refine (State.live_within _ _ (fun u => ?_) (by rfl))
  refine (State.guard_within _ _ _ _ _ (fun u => ?_) (by rfl))
  exact (State.mringTail_within ..).mono (by rfl)
theorem execMgmtTxFrame_moves (r : Nat) (ecc : Bool) (corr : Nat) (s : State) :
    ∃ u, execMgmtTxFrame r ecc corr s = .next u ∧ s.Within 0x6002830089 u := by
  refine ⟨_, rfl, ?_⟩
  refine (State.live_within _ _ (fun u => ?_) (by rfl))
  refine (State.clocked_within _ _ _ (fun u => ?_) (by rfl))
  exact (State.mgmtTx_within ..).mono (by rfl)
theorem execMkaKeys_moves (slot : Nat) (s : State) :
    ∃ u, execMkaKeys slot s = .next u ∧ s.Within 0x41020200c9 u := by
  refine ⟨_, rfl, ?_⟩
  refine (State.live_within _ _ (fun u => ?_) (by rfl))
  refine (State.mbxRun_within _ _ _ _ (fun u => ?_) (by rfl))
  exact (State.mkaKeys_within ..).mono (by rfl)
theorem execMkaIcv_moves (slot : Nat) (s : State) :
    ∃ u, execMkaIcv slot s = .next u ∧ s.Within 0x40020200c9 u := by
  refine ⟨_, rfl, ?_⟩
  refine (State.live_within _ _ (fun u => ?_) (by rfl))
  refine (State.mbxRun_within _ _ _ _ (fun u => ?_) (by rfl))
  exact (State.mkaIcv_within ..).mono (by rfl)
theorem execSakNew_moves (slot : Nat) (s : State) :
    ∃ u, execSakNew slot s = .next u ∧ s.Within 0x65020200c9 u := by
  refine ⟨_, rfl, ?_⟩
  refine (State.live_within _ _ (fun u => ?_) (by rfl))
  refine (State.mbxRun_within _ _ _ _ (fun u => ?_) (by rfl))
  exact (State.sakNew_within ..).mono (by rfl)
theorem execSakInstall_moves (slot : Nat) (s : State) :
    ∃ u, execSakInstall slot s = .next u ∧ s.Within 0x65020200c9 u := by
  refine ⟨_, rfl, ?_⟩
  refine (State.live_within _ _ (fun u => ?_) (by rfl))
  refine (State.mbxRun_within _ _ _ _ (fun u => ?_) (by rfl))
  exact (State.sakInstall_within ..).mono (by rfl)
theorem execSlotFree_moves (slot : Nat) (s : State) :
    ∃ u, execSlotFree slot s = .next u ∧ s.Within 0x45020200c9 u := by
  refine ⟨_, rfl, ?_⟩
  refine (State.live_within _ _ (fun u => ?_) (by rfl))
  refine (State.mbxRun_within _ _ _ _ (fun u => ?_) (by rfl))
  exact (State.slotFree_within ..).mono (by rfl)
theorem execCupBind_moves (slot : Nat) (s : State) :
    ∃ u, execCupBind slot s = .next u ∧ s.Within 0x65020200c9 u := by
  refine ⟨_, rfl, ?_⟩
  refine (State.live_within _ _ (fun u => ?_) (by rfl))
  refine (State.mbxRun_within _ _ _ _ (fun u => ?_) (by rfl))
  exact (State.cupBind_within ..).mono (by rfl)
theorem execCupUnbind_moves (slot : Nat) (s : State) :
    ∃ u, execCupUnbind slot s = .next u ∧ s.Within 0x45020200c9 u := by
  refine ⟨_, rfl, ?_⟩
  refine (State.live_within _ _ (fun u => ?_) (by rfl))
  refine (State.mbxRun_within _ _ _ _ (fun u => ?_) (by rfl))
  exact (State.cupUnbind_within ..).mono (by rfl)
theorem execKeyPut_moves (slot : Nat) (s : State) :
    ∃ u, execKeyPut slot s = .next u ∧ s.Within 0x41020204c9 u := by
  refine ⟨_, rfl, ?_⟩
  refine (State.live_within _ _ (fun u => ?_) (by rfl))
  refine (State.mbxRun_within _ _ _ _ (fun u => ?_) (by rfl))
  exact (State.keyPut_within ..).mono (by rfl)
theorem execKeyPutWrapped_moves (slot : Nat) (s : State) :
    ∃ u, execKeyPutWrapped slot s = .next u ∧ s.Within 0x41020204c9 u := by
  refine ⟨_, rfl, ?_⟩
  refine (State.live_within _ _ (fun u => ?_) (by rfl))
  refine (State.mbxRun_within _ _ _ _ (fun u => ?_) (by rfl))
  exact (State.keyPutWrapped_within ..).mono (by rfl)
theorem execKeyDelete_moves (slot : Nat) (s : State) :
    ∃ u, execKeyDelete slot s = .next u ∧ s.Within 0x41020204c9 u := by
  refine ⟨_, rfl, ?_⟩
  refine (State.live_within _ _ (fun u => ?_) (by rfl))
  refine (State.mbxRun_within _ _ _ _ (fun u => ?_) (by rfl))
  exact (State.keyDelete_within ..).mono (by rfl)
theorem execLcChallenge_moves (slot : Nat) (s : State) :
    ∃ u, execLcChallenge slot s = .next u ∧ s.Within 0x61020200c9 u := by
  refine ⟨_, rfl, ?_⟩
  refine (State.live_within _ _ (fun u => ?_) (by rfl))
  refine (State.mbxRun_within _ _ _ _ (fun u => ?_) (by rfl))
  exact (State.lcChallenge_within ..).mono (by rfl)
theorem execLcTransition_moves (slot : Nat) (s : State) :
    ∃ u, execLcTransition slot s = .next u ∧ s.Within 0x4ffffff3ff u := by
  refine ⟨_, rfl, ?_⟩
  refine (State.live_within _ _ (fun u => ?_) (by rfl))
  refine (State.mbxRun_within _ _ _ _ (fun u => ?_) (by rfl))
  exact (State.lcGo_within ..).mono (by rfl)
theorem execImgBegin_moves (slot : Nat) (s : State) :
    ∃ u, execImgBegin slot s = .next u ∧ s.Within 0x41020204c9 u := by
  refine ⟨_, rfl, ?_⟩
  refine (State.live_within _ _ (fun u => ?_) (by rfl))
  refine (State.mbxRun_within _ _ _ _ (fun u => ?_) (by rfl))
  exact (State.imgBegin_within ..).mono (by rfl)
theorem execImgBlock_moves (slot : Nat) (bad : Bool) (s : State) :
    ∃ u, execImgBlock slot bad s = .next u ∧ s.Within 0x61028204c9 u := by
  refine ⟨_, rfl, ?_⟩
  refine (State.live_within _ _ (fun u => ?_) (by rfl))
  refine (State.mbxRun_within _ _ _ _ (fun u => ?_) (by rfl))
  exact (State.imgBlock_within ..).mono (by rfl)
theorem execImgVerify_moves (slot : Nat) (s : State) :
    ∃ u, execImgVerify slot s = .next u ∧ s.Within 0x65020211c9 u := by
  refine ⟨_, rfl, ?_⟩
  refine (State.live_within _ _ (fun u => ?_) (by rfl))
  refine (State.mbxRun_within _ _ _ _ (fun u => ?_) (by rfl))
  exact (State.imgVerify_within ..).mono (by rfl)
theorem execImgStage_moves (slot : Nat) (s : State) :
    ∃ u, execImgStage slot s = .next u ∧ s.Within 0x41020204c9 u := by
  refine ⟨_, rfl, ?_⟩
  refine (State.live_within _ _ (fun u => ?_) (by rfl))
  refine (State.mbxRun_within _ _ _ _ (fun u => ?_) (by rfl))
  exact (State.imgStage_within ..).mono (by rfl)
theorem execImgSignet_moves (slot : Nat) (s : State) :
    ∃ u, execImgSignet slot s = .next u ∧ s.Within 0x41020201c9 u := by
  refine ⟨_, rfl, ?_⟩
  refine (State.live_within _ _ (fun u => ?_) (by rfl))
  refine (State.mbxRun_within _ _ _ _ (fun u => ?_) (by rfl))
  exact (State.imgSignet_within ..).mono (by rfl)
theorem execImgCommit_moves (slot : Nat) (s : State) :
    ∃ u, execImgCommit slot s = .next u ∧ s.Within 0x41020214c9 u := by
  refine ⟨_, rfl, ?_⟩
  refine (State.live_within _ _ (fun u => ?_) (by rfl))
  refine (State.mbxRun_within _ _ _ _ (fun u => ?_) (by rfl))
  exact (State.imgCommit_within ..).mono (by rfl)
theorem execImgAbandon_moves (slot : Nat) (s : State) :
    ∃ u, execImgAbandon slot s = .next u ∧ s.Within 0x41020205c9 u := by
  refine ⟨_, rfl, ?_⟩
  refine (State.live_within _ _ (fun u => ?_) (by rfl))
  refine (State.mbxRun_within _ _ _ _ (fun u => ?_) (by rfl))
  exact (State.imgAbandon_within ..).mono (by rfl)
theorem execRecBegin_moves (slot : Nat) (s : State) :
    ∃ u, execRecBegin slot s = .next u ∧ s.Within 0x41020200c9 u := by
  refine ⟨_, rfl, ?_⟩
  refine (State.live_within _ _ (fun u => ?_) (by rfl))
  refine (State.mbxRun_within _ _ _ _ (fun u => ?_) (by rfl))
  exact (State.recBegin_within ..).mono (by rfl)
theorem execRecBlock_moves (slot : Nat) (bad : Bool) (s : State) :
    ∃ u, execRecBlock slot bad s = .next u ∧ s.Within 0x61028204c9 u := by
  refine ⟨_, rfl, ?_⟩
  refine (State.live_within _ _ (fun u => ?_) (by rfl))
  refine (State.mbxRun_within _ _ _ _ (fun u => ?_) (by rfl))
  exact (State.recBlock_within ..).mono (by rfl)
theorem execRecActivate_moves (slot : Nat) (s : State) :
    ∃ u, execRecActivate slot s = .next u ∧ s.Within 0x41020200c9 u := by
  refine ⟨_, rfl, ?_⟩
  refine (State.live_within _ _ (fun u => ?_) (by rfl))
  refine (State.mbxRun_within _ _ _ _ (fun u => ?_) (by rfl))
  exact (State.recActivate_within ..).mono (by rfl)
theorem execRecRead_moves (slot : Nat) (s : State) :
    ∃ u, execRecRead slot s = .next u ∧ s.Within 0x40020200c9 u := by
  refine ⟨_, rfl, ?_⟩
  refine (State.live_within _ _ (fun u => ?_) (by rfl))
  refine (State.mbxRun_within _ _ _ _ (fun u => ?_) (by rfl))
  exact (State.recRead_within ..).mono (by rfl)
theorem execRecSeal_moves (slot : Nat) (s : State) :
    ∃ u, execRecSeal slot s = .next u ∧ s.Within 0x61020204c9 u := by
  refine ⟨_, rfl, ?_⟩
  refine (State.live_within _ _ (fun u => ?_) (by rfl))
  refine (State.mbxRun_within _ _ _ _ (fun u => ?_) (by rfl))
  exact (State.recSeal_within ..).mono (by rfl)
theorem execAgeSave_moves (slot : Nat) (s : State) :
    ∃ u, execAgeSave slot s = .next u ∧ s.Within 0x40020204c9 u := by
  refine ⟨_, rfl, ?_⟩
  refine (State.live_within _ _ (fun u => ?_) (by rfl))
  refine (State.mbxRun_within _ _ _ _ (fun u => ?_) (by rfl))
  exact (State.ageSave_within ..).mono (by rfl)
theorem execAgeLoad_moves (slot : Nat) (s : State) :
    ∃ u, execAgeLoad slot s = .next u ∧ s.Within 0x40020200c9 u := by
  refine ⟨_, rfl, ?_⟩
  refine (State.live_within _ _ (fun u => ?_) (by rfl))
  refine (State.mbxRun_within _ _ _ _ (fun u => ?_) (by rfl))
  exact (State.ageLoad_within ..).mono (by rfl)
theorem execMgmtReset_moves (slot : Nat) (s : State) :
    ∃ u, execMgmtReset slot s = .next u ∧ s.Within 0x43ffb360df u := by
  refine ⟨_, rfl, ?_⟩
  refine (State.live_within _ _ (fun u => ?_) (by rfl))
  refine (State.mbxRun_within _ _ _ _ (fun u => ?_) (by rfl))
  exact (State.mgmtAsk_within ..).mono (by rfl)
theorem execCanFrameReceived_moves (n : Nat) (f : CanFrame) (dlc : Nat) (ago : Nat) (s : State) :
    ∃ u, execCanFrameReceived n f dlc ago s = .next u ∧ s.Within 0x600c830009 u := by
  refine ⟨_, rfl, ?_⟩
  refine (State.live_within _ _ (fun u => ?_) (by rfl))
  refine (State.clocked_within _ _ _ (fun u => ?_) (by rfl))
  exact (State.canReceived_within ..).mono (by rfl)
theorem execCmacJobDone_moves (n : Nat) (sign : Bool) (s : State) :
    ∃ u, execCmacJobDone n sign s = .next u ∧ s.Within 0x6408830009 u := by
  refine ⟨_, rfl, ?_⟩
  refine (State.live_within _ _ (fun u => ?_) (by rfl))
  refine (State.clocked_within _ _ _ (fun u => ?_) (by rfl))
  exact (State.cmacEnds_within ..).mono (by rfl)
theorem execCmacJobTimeout_moves (n : Nat) (sign : Bool) (s : State) :
    ∃ u, execCmacJobTimeout n sign s = .next u ∧ s.Within 0x6408830009 u := by
  refine ⟨_, rfl, ?_⟩
  refine (State.live_within _ _ (fun u => ?_) (by rfl))
  refine (State.clocked_within _ _ _ (fun u => ?_) (by rfl))
  exact (State.cmacEnds_within ..).mono (by rfl)
theorem execBusEgressFrame_moves (s : State) :
    ∃ u, execBusEgressFrame s = .next u ∧ s.Within 0x4008830009 u := by
  refine ⟨_, rfl, ?_⟩
  refine (State.live_within _ _ (fun u => ?_) (by rfl))
  refine (State.clocked_within _ _ _ (fun u => ?_) (by rfl))
  exact (State.busEgress_within ..).mono (by rfl)
theorem execCanArbitrationStart_moves (n : Nat) (s : State) :
    ∃ u, execCanArbitrationStart n s = .next u ∧ s.Within 0x4008020009 u := by
  refine ⟨_, rfl, ?_⟩
  refine (State.live_within _ _ (fun u => ?_) (by rfl))
  refine (State.clocked_within _ _ _ (fun u => ?_) (by rfl))
  exact (State.canArbitrate_within ..).mono (by rfl)
theorem execCanTxDone_moves (n : Nat) (s : State) :
    ∃ u, execCanTxDone n s = .next u ∧ s.Within 0x4008020009 u := by
  refine ⟨_, rfl, ?_⟩
  refine (State.live_within _ _ (fun u => ?_) (by rfl))
  refine (State.clocked_within _ _ _ (fun u => ?_) (by rfl))
  exact (State.canTxDone_within ..).mono (by rfl)
theorem execCanError_moves (n : Nat) (lec : Nat) (tx : Bool) (big : Bool) (ago : Nat) (s : State) :
    ∃ u, execCanError n lec tx big ago s = .next u ∧ s.Within 0x400c020009 u := by
  refine ⟨_, rfl, ?_⟩
  refine (State.live_within _ _ (fun u => ?_) (by rfl))
  refine (State.clocked_within _ _ _ (fun u => ?_) (by rfl))
  exact (State.canError_within ..).mono (by rfl)
theorem execBoHoldExpiry_moves (n : Nat) (s : State) :
    ∃ u, execBoHoldExpiry n s = .next u ∧ s.Within 0x4008000001 u := by
  refine ⟨_, rfl, ?_⟩
  refine (State.live_within _ _ (fun u => ?_) (by rfl))
  refine (State.clocked_within _ _ _ (fun u => ?_) (by rfl))
  exact (State.boExpires_within ..).mono (by rfl)
theorem execCanRecover_moves (src : Src) (n : Nat) (s : State) :
    ∃ u, execCanRecover src n s = .next u ∧ s.Within 0x400a820089 u := by
  refine ⟨_, rfl, ?_⟩
  refine (State.live_within _ _ (fun u => ?_) (by rfl))
  refine (State.guard_within _ _ _ _ _ (fun u => ?_) (by rfl))
  exact (State.canRecover_within ..).mono (by rfl)
theorem execCanIntegrated_moves (n : Nat) (s : State) :
    ∃ u, execCanIntegrated n s = .next u ∧ s.Within 0x4000000001 u := by
  refine ⟨_, rfl, ?_⟩
  refine (State.live_within _ _ (fun u => ?_) (by rfl))
  refine (State.clocked_within _ _ _ (fun u => ?_) (by rfl))
  exact (State.canIntegrated_within ..).mono (by rfl)
theorem execCanRecovered_moves (n : Nat) (s : State) :
    ∃ u, execCanRecovered n s = .next u ∧ s.Within 0x4000020009 u := by
  refine ⟨_, rfl, ?_⟩
  refine (State.live_within _ _ (fun u => ?_) (by rfl))
  refine (State.clocked_within _ _ _ (fun u => ?_) (by rfl))
  exact (State.canRecovered_within ..).mono (by rfl)
theorem execPnSleepReq_moves (src : Src) (n : Nat) (s : State) :
    ∃ u, execPnSleepReq src n s = .next u ∧ s.Within 0x400a820089 u := by
  refine ⟨_, rfl, ?_⟩
  refine (State.live_within _ _ (fun u => ?_) (by rfl))
  refine (State.guard_within _ _ _ _ _ (fun u => ?_) (by rfl))
  exact (State.pnSleepReq_within ..).mono (by rfl)
theorem execPnWakeReq_moves (src : Src) (n : Nat) (s : State) :
    ∃ u, execPnWakeReq src n s = .next u ∧ s.Within 0x400e820089 u := by
  refine ⟨_, rfl, ?_⟩
  refine (State.live_within _ _ (fun u => ?_) (by rfl))
  refine (State.guard_within _ _ _ _ _ (fun u => ?_) (by rfl))
  exact (State.pnWakeReq_within ..).mono (by rfl)
theorem execPnListenEnter_moves (n : Nat) (s : State) :
    ∃ u, execPnListenEnter n s = .next u ∧ s.Within 0x4008000009 u := by
  refine ⟨_, rfl, ?_⟩
  refine (State.live_within _ _ (fun u => ?_) (by rfl))
  refine (State.clocked_within _ _ _ (fun u => ?_) (by rfl))
  exact (State.pnEnter_within ..).mono (by rfl)
theorem execLinScheduleSlot_moves (n : Nat) (s : State) :
    ∃ u, execLinScheduleSlot n s = .next u ∧ s.Within 0x4010020009 u := by
  refine ⟨_, rfl, ?_⟩
  refine (State.live_within _ _ (fun u => ?_) (by rfl))
  refine (State.clocked_within _ _ _ (fun u => ?_) (by rfl))
  exact (State.linSlot_within ..).mono (by rfl)
theorem execLinHeaderReceived_moves (n : Nat) (id : Nat) (rate : Nat) (parity : Bool) (s : State) :
    ∃ u, execLinHeaderReceived n id rate parity s = .next u ∧ s.Within 0x4010020009 u := by
  refine ⟨_, rfl, ?_⟩
  refine (State.live_within _ _ (fun u => ?_) (by rfl))
  refine (State.clocked_within _ _ _ (fun u => ?_) (by rfl))
  exact (State.linHeaderIn_within ..).mono (by rfl)
theorem execLinResponseReceived_moves (n : Nat) (data : List Byte) (check : Byte) (err : Nat) (ago : Nat) (s : State) :
    ∃ u, execLinResponseReceived n data check err ago s = .next u ∧ s.Within 0x6010030009 u := by
  refine ⟨_, rfl, ?_⟩
  refine (State.live_within _ _ (fun u => ?_) (by rfl))
  refine (State.clocked_within _ _ _ (fun u => ?_) (by rfl))
  exact (State.linResponse_within ..).mono (by rfl)
theorem execLinNoResponse_moves (n : Nat) (s : State) :
    ∃ u, execLinNoResponse n s = .next u ∧ s.Within 0x4010020009 u := by
  refine ⟨_, rfl, ?_⟩
  refine (State.live_within _ _ (fun u => ?_) (by rfl))
  refine (State.clocked_within _ _ _ (fun u => ?_) (by rfl))
  exact (State.linSilent_within ..).mono (by rfl)
theorem execLinSleepReq_moves (src : Src) (n : Nat) (s : State) :
    ∃ u, execLinSleepReq src n s = .next u ∧ s.Within 0x4012820089 u := by
  refine ⟨_, rfl, ?_⟩
  refine (State.live_within _ _ (fun u => ?_) (by rfl))
  refine (State.guard_within _ _ _ _ _ (fun u => ?_) (by rfl))
  exact (State.linSleepReq_within ..).mono (by rfl)
theorem execLinWakeReq_moves (src : Src) (n : Nat) (s : State) :
    ∃ u, execLinWakeReq src n s = .next u ∧ s.Within 0x4012820089 u := by
  refine ⟨_, rfl, ?_⟩
  refine (State.live_within _ _ (fun u => ?_) (by rfl))
  refine (State.guard_within _ _ _ _ _ (fun u => ?_) (by rfl))
  exact (State.linWakeReq_within ..).mono (by rfl)
theorem execLinGoToSleepReceived_moves (n : Nat) (s : State) :
    ∃ u, execLinGoToSleepReceived n s = .next u ∧ s.Within 0x4010020009 u := by
  refine ⟨_, rfl, ?_⟩
  refine (State.live_within _ _ (fun u => ?_) (by rfl))
  refine (State.clocked_within _ _ _ (fun u => ?_) (by rfl))
  exact (State.linSleepIn_within ..).mono (by rfl)
theorem execLinIdleTimeout_moves (n : Nat) (s : State) :
    ∃ u, execLinIdleTimeout n s = .next u ∧ s.Within 0x4010020009 u := by
  refine ⟨_, rfl, ?_⟩
  refine (State.live_within _ _ (fun u => ?_) (by rfl))
  refine (State.clocked_within _ _ _ (fun u => ?_) (by rfl))
  exact (State.linSleepIn_within ..).mono (by rfl)
theorem execLinDominantWake_moves (n : Nat) (s : State) :
    ∃ u, execLinDominantWake n s = .next u ∧ s.Within 0x4014020009 u := by
  refine ⟨_, rfl, ?_⟩
  refine (State.live_within _ _ (fun u => ?_) (by rfl))
  refine (State.clocked_within _ _ _ (fun u => ?_) (by rfl))
  exact (State.linDominant_within ..).mono (by rfl)
theorem execLinScheduleRestart_moves (n : Nat) (s : State) :
    ∃ u, execLinScheduleRestart n s = .next u ∧ s.Within 0x10000000 u := by
  refine ⟨_, rfl, ?_⟩
  refine (State.live_within _ _ (fun u => ?_) (by rfl))
  refine (State.clocked_within _ _ _ (fun u => ?_) (by rfl))
  exact (State.linRestart_within ..).mono (by rfl)
theorem execSlot0Received_moves (n : Nat) (pos : Nat) (scanned : Nat) (frame : List Byte) (s : State) :
    ∃ u, execSlot0Received n pos scanned frame s = .next u ∧ s.Within 0x6020020009 u := by
  refine ⟨_, rfl, ?_⟩
  refine (State.live_within _ _ (fun u => ?_) (by rfl))
  refine (State.clocked_within _ _ _ (fun u => ?_) (by rfl))
  exact (State.slot0_within ..).mono (by rfl)
theorem execMfSearchTimeout_moves (n : Nat) (s : State) :
    ∃ u, execMfSearchTimeout n s = .next u ∧ s.Within 0x4020020009 u := by
  refine ⟨_, rfl, ?_⟩
  refine (State.live_within _ _ (fun u => ?_) (by rfl))
  refine (State.clocked_within _ _ _ (fun u => ?_) (by rfl))
  exact (State.mfTimeout_within ..).mono (by rfl)
theorem execLosRise_moves (n : Nat) (pin : Bool) (zeros : Nat) (s : State) :
    ∃ u, execLosRise n pin zeros s = .next u ∧ s.Within 0x4020020009 u := by
  refine ⟨_, rfl, ?_⟩
  refine (State.live_within _ _ (fun u => ?_) (by rfl))
  refine (State.clocked_within _ _ _ (fun u => ?_) (by rfl))
  exact (State.losRise_within ..).mono (by rfl)
theorem execLosClear_moves (n : Nat) (pin : Bool) (ones : Nat) (s : State) :
    ∃ u, execLosClear n pin ones s = .next u ∧ s.Within 0x4020020009 u := by
  refine ⟨_, rfl, ?_⟩
  refine (State.live_within _ _ (fun u => ?_) (by rfl))
  refine (State.clocked_within _ _ _ (fun u => ?_) (by rfl))
  exact (State.losClear_within ..).mono (by rfl)
theorem execDeviceFrameStart_moves (bits : List Nat) (badConn : List Nat) (badStream : List Nat) (s : State) :
    ∃ u, execDeviceFrameStart bits badConn badStream s = .next u ∧ s.Within 0x607ea360eb u := by
  refine ⟨_, rfl, ?_⟩
  refine (State.live_within _ _ (fun u => ?_) (by rfl))
  exact (State.deviceFrame_within ..).mono (by rfl)
theorem execPerformanceSecond_moves (n : Nat) (s : State) :
    ∃ u, execPerformanceSecond n s = .next u ∧ s.Within 0x4020020009 u := by
  refine ⟨_, rfl, ?_⟩
  refine (State.live_within _ _ (fun u => ?_) (by rfl))
  exact (State.tdmSecond_within ..).mono (by rfl)
theorem execConnPageWrite_moves (src : Src) (a : Nat) (v : Nat) (s : State) :
    ∃ u, execConnPageWrite src a v s = .next u ∧ s.Within 0x40428200a9 u := by
  refine ⟨_, rfl, ?_⟩
  refine (State.live_within _ _ (fun u => ?_) (by rfl))
  exact (State.tsiWrite_within ..).mono (by rfl)
theorem execTsiCloneDone_moves (s : State) :
    ∃ u, execTsiCloneDone s = .next u ∧ s.Within 0x4000020029 u := by
  refine ⟨_, rfl, ?_⟩
  refine (State.live_within _ _ (fun u => ?_) (by rfl))
  exact (State.tsiCloned_within ..).mono (by rfl)
theorem execTdmEgressFrame_moves (s : State) :
    ∃ u, execTdmEgressFrame s = .next u ∧ s.Within 0x4040030009 u := by
  refine ⟨_, rfl, ?_⟩
  refine (State.live_within _ _ (fun u => ?_) (by rfl))
  refine (State.clocked_within _ _ _ (fun u => ?_) (by rfl))
  exact (State.tdmEgress_within ..).mono (by rfl)
theorem execJobGo_moves (src : Src) (n : Nat) (s : State) :
    ∃ u, execJobGo src n s = .next u ∧ s.Within 0x4082820089 u := by
  refine ⟨_, rfl, ?_⟩
  refine (State.live_within _ _ (fun u => ?_) (by rfl))
  refine (State.guard_within _ _ _ _ _ (fun u => ?_) (by rfl))
  exact (State.jobGo_within ..).mono (by rfl)
theorem execCipherJobDone_moves (n :
    Nat) (img : List (Nat × List Byte)) (bad : Option (Nat × Nat)) (zeroFails : Bool) (corr : Nat × Nat) (s : State) :
    ∃ u, execCipherJobDone n img bad zeroFails corr s = .next u ∧ s.Within 0x44828208c9 u := by
  refine ⟨_, rfl, ?_⟩
  refine (State.live_within _ _ (fun u => ?_) (by rfl))
  exact (State.cipJob_within ..).mono (by rfl)
theorem execDonePop_moves (src : Src) (n : Nat) (s : State) :
    ∃ u, execDonePop src n s = .next u ∧ s.Within 0x4082820089 u := by
  refine ⟨_, rfl, ?_⟩
  refine (State.live_within _ _ (fun u => ?_) (by rfl))
  refine (State.guard_within _ _ _ _ _ (fun u => ?_) (by rfl))
  exact (State.donePop_within ..).mono (by rfl)
theorem execKeyLoad_moves (src : Src) (s : State) :
    ∃ u, execKeyLoad src s = .next u ∧ s.Within 0x6402820089 u := by
  refine ⟨_, rfl, ?_⟩
  refine (State.live_within _ _ (fun u => ?_) (by rfl))
  refine (State.guardTrusted_within _ _ _ _ _ (fun u => ?_) (by rfl))
  exact (State.keyLoad_within ..).mono (by rfl)
theorem execKeyZero_moves (src : Src) (s : State) :
    ∃ u, execKeyZero src s = .next u ∧ s.Within 0x4402820089 u := by
  refine ⟨_, rfl, ?_⟩
  refine (State.live_within _ _ (fun u => ?_) (by rfl))
  refine (State.guardTrusted_within _ _ _ _ _ (fun u => ?_) (by rfl))
  exact (State.keyZero_within ..).mono (by rfl)
theorem execSlotRemask_moves (s : State) :
    ∃ u, execSlotRemask s = .next u ∧ s.Within 0x2400000000 u := by
  refine ⟨_, rfl, ?_⟩
  refine (State.live_within _ _ (fun u => ?_) (by rfl))
  exact (State.remask_within ..).mono (by rfl)
theorem execRngSeedTimeout_moves (s : State) :
    ∃ u, execRngSeedTimeout s = .next u ∧ s.Within 0x64ff83a8cb u := by
  refine ⟨_, rfl, ?_⟩
  refine (State.live_within _ _ (fun u => ?_) (by rfl))
  exact (State.seedLost_within ..).mono (by rfl)
theorem execKeyCountSync_moves (s : State) :
    ∃ u, execKeyCountSync s = .next u ∧ s.Within 0x100000400 u := by
  refine ⟨_, rfl, ?_⟩
  refine (State.live_within _ _ (fun u => ?_) (by rfl))
  exact (State.keyCountSync_within ..).mono (by rfl)
theorem execPcieLinkUp_moves (speed : Nat) (width : Nat) (s : State) :
    ∃ u, execPcieLinkUp speed width s = .next u ∧ s.Within 0x6000020009 u := by
  refine ⟨_, rfl, ?_⟩
  refine (State.live_within _ _ (fun u => ?_) (by rfl))
  exact (State.pcieUp_within ..).mono (by rfl)
theorem execPcieLinkDown_moves (s : State) :
    ∃ u, execPcieLinkDown s = .next u ∧ s.Within 0x60038308cb u := by
  refine ⟨_, rfl, ?_⟩
  refine (State.live_within _ _ (fun u => ?_) (by rfl))
  exact (State.pcieDown_within ..).mono (by rfl)
theorem execFlr_moves (s : State) :
    ∃ u, execFlr s = .next u ∧ s.Within 0x60038308cb u := by
  refine ⟨_, rfl, ?_⟩
  refine (State.live_within _ _ (fun u => ?_) (by rfl))
  refine (State.clocked_within _ _ _ (fun u => ?_) (by rfl))
  exact (State.flr_within ..).mono (by rfl)
theorem execHotReset_moves (s : State) :
    ∃ u, execHotReset s = .next u ∧ s.Within 0x60038308cb u := by
  refine ⟨_, rfl, ?_⟩
  refine (State.live_within _ _ (fun u => ?_) (by rfl))
  refine (State.clocked_within _ _ _ (fun u => ?_) (by rfl))
  exact (State.hotReset_within ..).mono (by rfl)
theorem execPerst_moves (s : State) :
    ∃ u, execPerst s = .next u ∧ s.Within 0x6bffb328df u := by
  refine ⟨_, rfl, ?_⟩
  exact (State.perst_within ..).mono (by rfl)
theorem execConfigRequest_moves (r : CfgReg) (v : Option Nat) (s : State) :
    ∃ u, execConfigRequest r v s = .next u ∧ s.Within 0x6001820009 u := by
  refine ⟨_, rfl, ?_⟩
  refine (State.live_within _ _ (fun u => ?_) (by rfl))
  refine (State.clocked_within _ _ _ (fun u => ?_) (by rfl))
  exact (State.cfgRequest_within ..).mono (by rfl)
theorem execCfgReadyTimeout_moves (s : State) :
    ∃ u, execCfgReadyTimeout s = .next u ∧ s.Within 0x1 u := by
  refine ⟨_, rfl, ?_⟩
  refine (State.live_within _ _ (fun u => ?_) (by rfl))
  refine (State.clocked_within _ _ _ (fun u => ?_) (by rfl))
  exact (State.cfgLate_within ..).mono (by rfl)
theorem execHostBar4Read_moves (off : Nat) (size : Nat) (s : State) :
    ∃ u, execHostBar4Read off size s = .next u ∧ s.Within 0x4001820009 u := by
  refine ⟨_, rfl, ?_⟩
  refine (State.live_within _ _ (fun u => ?_) (by rfl))
  refine (State.clocked_within _ _ _ (fun u => ?_) (by rfl))
  exact (State.bar4Read_within ..).mono (by rfl)
theorem execHostBar4Write_moves (off : Nat) (words : List Nat) (s : State) :
    ∃ u, execHostBar4Write off words s = .next u ∧ s.Within 0x4001820009 u := by
  refine ⟨_, rfl, ?_⟩
  refine (State.live_within _ _ (fun u => ?_) (by rfl))
  refine (State.clocked_within _ _ _ (fun u => ?_) (by rfl))
  exact (State.bar4Write_within ..).mono (by rfl)
theorem execHostPoisonedWrite_moves (addr : Nat) (s : State) :
    ∃ u, execHostPoisonedWrite addr s = .next u ∧ s.Within 0x4000820009 u := by
  refine ⟨_, rfl, ?_⟩
  refine (State.live_within _ _ (fun u => ?_) (by rfl))
  refine (State.clocked_within _ _ _ (fun u => ?_) (by rfl))
  exact (State.poisonedWrite_within ..).mono (by rfl)
theorem execHostUnsupportedRequest_moves (s : State) :
    ∃ u, execHostUnsupportedRequest s = .next u ∧ s.Within 0x4000020008 u := by
  refine ⟨_, rfl, ?_⟩
  refine (State.live_within _ _ (fun u => ?_) (by rfl))
  refine (State.clocked_within _ _ _ (fun u => ?_) (by rfl))
  exact (State.unsupportedRequest_within ..).mono (by rfl)
theorem execMsixUnmask_moves (v : Nat) (s : State) :
    ∃ u, execMsixUnmask v s = .next u ∧ s.Within 0x4000020008 u := by
  refine ⟨_, rfl, ?_⟩
  refine (State.live_within _ _ (fun u => ?_) (by rfl))
  refine (State.clocked_within _ _ _ (fun u => ?_) (by rfl))
  exact (State.msixUnmask_within ..).mono (by rfl)
theorem execBridgeWindowAccess_moves (m : Fin 4) (a : Nat) (size : Nat) (store : Option (List Byte)) (s : State) :
    ∃ u, execBridgeWindowAccess m a size store s = .next u ∧ s.Within 0x4001820809 u := by
  refine ⟨_, rfl, ?_⟩
  refine (State.live_within _ _ (fun u => ?_) (by rfl))
  refine (State.fromMp_within _ _ _ (fun u => ?_) (by rfl))
  exact (State.winAccess_within ..).mono (by rfl)
theorem execBridgeLr_moves (m : Fin 4) (a : Nat) (size : Nat) (s : State) :
    ∃ u, execBridgeLr m a size s = .next u ∧ s.Within 0x4001820009 u := by
  refine ⟨_, rfl, ?_⟩
  refine (State.live_within _ _ (fun u => ?_) (by rfl))
  refine (State.fromMp_within _ _ _ (fun u => ?_) (by rfl))
  exact (State.winLr_within ..).mono (by rfl)
theorem execBridgeSc_moves (m : Fin 4) (a : Nat) (size : Nat) (new : Nat) (s : State) :
    ∃ u, execBridgeSc m a size new s = .next u ∧ s.Within 0x4001820009 u := by
  refine ⟨_, rfl, ?_⟩
  refine (State.live_within _ _ (fun u => ?_) (by rfl))
  refine (State.fromMp_within _ _ _ (fun u => ?_) (by rfl))
  exact (State.winSc_within ..).mono (by rfl)
theorem execBridgeAmo_moves (m : Fin 4) (a : Nat) (size : Nat) (op : Amo) (arg : Nat) (s : State) :
    ∃ u, execBridgeAmo m a size op arg s = .next u ∧ s.Within 0x4001820009 u := by
  refine ⟨_, rfl, ?_⟩
  refine (State.live_within _ _ (fun u => ?_) (by rfl))
  refine (State.fromMp_within _ _ _ (fun u => ?_) (by rfl))
  exact (State.winAmo_within ..).mono (by rfl)
theorem execReservationExpiry_moves (m : Fin 4) (s : State) :
    ∃ u, execReservationExpiry m s = .next u ∧ s.Within 0x1000000 u := by
  refine ⟨_, rfl, ?_⟩
  refine (State.live_within _ _ (fun u => ?_) (by rfl))
  exact (State.dropResv_within ..).mono (by rfl)
theorem execBridgeWriteReceived_moves (orig : Nat) (a : Nat) (data : List Byte) (s : State) :
    ∃ u, execBridgeWriteReceived orig a data s = .next u ∧ s.Within 0x6ffffffbff u := by
  refine ⟨_, rfl, ?_⟩
  refine (State.live_within _ _ (fun u => ?_) (by rfl))
  refine (State.clocked_within _ _ _ (fun u => ?_) (by rfl))
  exact (State.peerWriteIn_within ..).mono (by rfl)
theorem execBridgeReadReceived_moves (orig : Nat) (tag : Nat) (a : Nat) (words : Nat) (ecc : EccResult) (s : State) :
    ∃ u, execBridgeReadReceived orig tag a words ecc s = .next u ∧ s.Within 0x6000830009 u := by
  refine ⟨_, rfl, ?_⟩
  refine (State.live_within _ _ (fun u => ?_) (by rfl))
  refine (State.clocked_within _ _ _ (fun u => ?_) (by rfl))
  exact (State.peerReadIn_within ..).mono (by rfl)
theorem execBridgeCasReceived_moves (orig : Nat) (tag : Nat) (a : Nat) (words : Nat) (data : List Byte) (ecc : EccResult) (s : State) :
    ∃ u, execBridgeCasReceived orig tag a words data ecc s = .next u ∧ s.Within 0x4000820049 u := by
  refine ⟨_, rfl, ?_⟩
  refine (State.live_within _ _ (fun u => ?_) (by rfl))
  refine (State.clocked_within _ _ _ (fun u => ?_) (by rfl))
  exact (State.peerCasIn_within ..).mono (by rfl)
theorem execBridgeCplReceived_moves (tag : Nat) (status : Nat) (data : List Byte) (s : State) :
    ∃ u, execBridgeCplReceived tag status data s = .next u ∧ s.Within 0x4001820009 u := by
  refine ⟨_, rfl, ?_⟩
  refine (State.live_within _ _ (fun u => ?_) (by rfl))
  refine (State.clocked_within _ _ _ (fun u => ?_) (by rfl))
  exact (State.cplArrives_within ..).mono (by rfl)
theorem execBridgeWriteFailReceived_moves (orig : Nat) (code : Nat) (addr : Nat) (s : State) :
    ∃ u, execBridgeWriteFailReceived orig code addr s = .next u ∧ s.Within 0x4001020009 u := by
  refine ⟨_, rfl, ?_⟩
  refine (State.live_within _ _ (fun u => ?_) (by rfl))
  refine (State.clocked_within _ _ _ (fun u => ?_) (by rfl))
  exact (State.writeFailed_within ..).mono (by rfl)
theorem execPeerRequestTimeout_moves (tag : Nat) (s : State) :
    ∃ u, execPeerRequestTimeout tag s = .next u ∧ s.Within 0x4001820009 u := by
  refine ⟨_, rfl, ?_⟩
  refine (State.live_within _ _ (fun u => ?_) (by rfl))
  refine (State.clocked_within _ _ _ (fun u => ?_) (by rfl))
  exact (State.peerTimesOut_within ..).mono (by rfl)
theorem execPeerRetryWait_moves (tag : Nat) (s : State) :
    ∃ u, execPeerRetryWait tag s = .next u ∧ s.Within 0x4001800008 u := by
  refine ⟨_, rfl, ?_⟩
  refine (State.live_within _ _ (fun u => ?_) (by rfl))
  refine (State.clocked_within _ _ _ (fun u => ?_) (by rfl))
  exact (State.retryEnds_within ..).mono (by rfl)
theorem execPeerPoll_moves (s : State) :
    ∃ u, execPeerPoll s = .next u ∧ s.Within 0x4001820009 u := by
  refine ⟨_, rfl, ?_⟩
  refine (State.live_within _ _ (fun u => ?_) (by rfl))
  refine (State.clocked_within _ _ _ (fun u => ?_) (by rfl))
  exact (State.peerPoll_within ..).mono (by rfl)
theorem execPwlogPop_moves (src : Src) (s : State) :
    ∃ u, execPwlogPop src s = .next u ∧ s.Within 0x4003820089 u := by
  refine ⟨_, rfl, ?_⟩
  refine (State.live_within _ _ (fun u => ?_) (by rfl))
  refine (State.guard_within _ _ _ _ _ (fun u => ?_) (by rfl))
  exact (State.pwPop_within ..).mono (by rfl)
theorem execRxTailDoorbell_moves (src : Src) (r : Nat) (v : Nat) (s : State) :
    ∃ u, execRxTailDoorbell src r v s = .next u ∧ s.Within 0x4002820089 u := by
  refine ⟨_, rfl, ?_⟩
  refine (State.live_within _ _ (fun u => ?_) (by rfl))
  refine (State.guard_within _ _ _ _ _ (fun u => ?_) (by rfl))
  exact (State.ringTail_within ..).mono (by rfl)
theorem execTxTailDoorbell_moves (src : Src) (r : Nat) (v : Nat) (s : State) :
    ∃ u, execTxTailDoorbell src r v s = .next u ∧ s.Within 0x4002820089 u := by
  refine ⟨_, rfl, ?_⟩
  refine (State.live_within _ _ (fun u => ?_) (by rfl))
  refine (State.guard_within _ _ _ _ _ (fun u => ?_) (by rfl))
  exact (State.ringTail_within ..).mono (by rfl)
theorem execHostTxFrame_moves (img : List (Nat × List Byte)) (bad : Option (Nat × Bool)) (s : State) :
    ∃ u, execHostTxFrame img bad s = .next u ∧ s.Within 0x6200830809 u := by
  refine ⟨_, rfl, ?_⟩
  refine (State.live_within _ _ (fun u => ?_) (by rfl))
  refine State.Within.trans ?_ ((State.hostTxNext_within ..).mono (by rfl))
  exact (State.hostImage_within ..).mono (by rfl)
theorem execRingIrqTimer_moves (tx : Bool) (r : Nat) (s : State) :
    ∃ u, execRingIrqTimer tx r s = .next u ∧ s.Within 0x4200020008 u := by
  refine ⟨_, rfl, ?_⟩
  refine (State.live_within _ _ (fun u => ?_) (by rfl))
  refine (State.clocked_within _ _ _ (fun u => ?_) (by rfl))
  exact (State.ringTimer_within ..).mono (by rfl)
theorem execDmaDoorbell_moves (src : Src) (c : Nat) (v : Nat) (s : State) :
    ∃ u, execDmaDoorbell src c v s = .next u ∧ s.Within 0x4002830089 u := by
  refine ⟨_, rfl, ?_⟩
  refine (State.live_within _ _ (fun u => ?_) (by rfl))
  refine (State.guard_within _ _ _ _ _ (fun u => ?_) (by rfl))
  exact (State.dmaTail_within ..).mono (by rfl)
theorem execDmaDescriptorDone_moves (c : Nat) (img : List (Nat × List Byte)) (bad : Option BadRead) (corr : Nat × Nat) (s : State) :
    ∃ u, execDmaDescriptorDone c img bad corr s = .next u ∧ s.Within 0x60028308c9 u := by
  refine ⟨_, rfl, ?_⟩
  refine (State.live_within _ _ (fun u => ?_) (by rfl))
  refine State.Within.trans ?_ ((State.dmaRun_within ..).mono (by rfl))
  exact (State.hostImage_within ..).mono (by rfl)
theorem execDmaAbort_moves (src : Src) (c : Nat) (rows : Nat) (img : List (Nat × List Byte)) (corr : Nat × Nat) (s : State) :
    ∃ u, execDmaAbort src c rows img corr s = .next u ∧ s.Within 0x60028308c9 u := by
  refine ⟨_, rfl, ?_⟩
  refine (State.live_within _ _ (fun u => ?_) (by rfl))
  refine (State.guard_within _ _ _ _ _ (fun u => ?_) (by rfl))
  refine State.Within.trans ?_ ((State.dmaAbort_within ..).mono (by rfl))
  exact (State.hostImage_within ..).mono (by rfl)
theorem execDmaResume_moves (src : Src) (c : Nat) (s : State) :
    ∃ u, execDmaResume src c s = .next u ∧ s.Within 0x4002830089 u := by
  refine ⟨_, rfl, ?_⟩
  refine (State.live_within _ _ (fun u => ?_) (by rfl))
  refine (State.guard_within _ _ _ _ _ (fun u => ?_) (by rfl))
  exact (State.dmaResume_within ..).mono (by rfl)
theorem execDmaSkip_moves (src : Src) (c : Nat) (s : State) :
    ∃ u, execDmaSkip src c s = .next u ∧ s.Within 0x4002830089 u := by
  refine ⟨_, rfl, ?_⟩
  refine (State.live_within _ _ (fun u => ?_) (by rfl))
  refine (State.guard_within _ _ _ _ _ (fun u => ?_) (by rfl))
  exact (State.dmaSkip_within ..).mono (by rfl)
theorem execScrMbxRing_moves (src : Src) (corr : Nat) (s : State) :
    ∃ u, execScrMbxRing src corr s = .next u ∧ s.Within 0x40028200c9 u := by
  refine ⟨_, rfl, ?_⟩
  refine (State.live_within _ _ (fun u => ?_) (by rfl))
  refine (State.guard_within _ _ _ _ _ (fun u => ?_) (by rfl))
  exact (State.scrRing_within ..).mono (by rfl)
theorem execDbSet_moves (src : Src) (v : Nat) (s : State) :
    ∃ u, execDbSet src v s = .next u ∧ s.Within 0x4002820089 u := by
  refine ⟨_, rfl, ?_⟩
  refine (State.live_within _ _ (fun u => ?_) (by rfl))
  refine (State.guard_within _ _ _ _ _ (fun u => ?_) (by rfl))
  exact (State.dbSet_within ..).mono (by rfl)
theorem execPowerReqRun_moves (src : Src) (s : State) :
    ∃ u, execPowerReqRun src s = .next u ∧ s.Within 0x4006820089 u := by
  refine ⟨_, rfl, ?_⟩
  refine (State.live_within _ _ (fun u => ?_) (by rfl))
  refine (State.guard_within _ _ _ _ _ (fun u => ?_) (by rfl))
  exact (State.pwrReq_within ..).mono (by rfl)
theorem execPowerReqPartial_moves (src : Src) (s : State) :
    ∃ u, execPowerReqPartial src s = .next u ∧ s.Within 0x4006820089 u := by
  refine ⟨_, rfl, ?_⟩
  refine (State.live_within _ _ (fun u => ?_) (by rfl))
  refine (State.guard_within _ _ _ _ _ (fun u => ?_) (by rfl))
  exact (State.pwrReq_within ..).mono (by rfl)
theorem execPowerReqDoze_moves (src : Src) (s : State) :
    ∃ u, execPowerReqDoze src s = .next u ∧ s.Within 0x4006820089 u := by
  refine ⟨_, rfl, ?_⟩
  refine (State.live_within _ _ (fun u => ?_) (by rfl))
  refine (State.guard_within _ _ _ _ _ (fun u => ?_) (by rfl))
  exact (State.pwrReq_within ..).mono (by rfl)
theorem execPowerReqSleep_moves (src : Src) (s : State) :
    ∃ u, execPowerReqSleep src s = .next u ∧ s.Within 0x4006820089 u := by
  refine ⟨_, rfl, ?_⟩
  refine (State.live_within _ _ (fun u => ?_) (by rfl))
  refine (State.guard_within _ _ _ _ _ (fun u => ?_) (by rfl))
  exact (State.pwrReq_within ..).mono (by rfl)
theorem execRaiseDone_moves (s : State) :
    ∃ u, execRaiseDone s = .next u ∧ s.Within 0x4107820009 u := by
  refine ⟨_, rfl, ?_⟩
  refine (State.liveAon_within _ _ (fun u => ?_) (by rfl))
  exact (State.raiseDone_within ..).mono (by rfl)
theorem execPrepareEnd_moves (s : State) :
    ∃ u, execPrepareEnd s = .next u ∧ s.Within 0x1 u := by
  refine ⟨_, rfl, ?_⟩
  refine (State.liveAon_within _ _ (fun u => ?_) (by rfl))
  exact (State.prepareEnd_within ..).mono (by rfl)
theorem execQuiesceDone_moves (s : State) :
    ∃ u, execQuiesceDone s = .next u ∧ s.Within 0x4000001 u := by
  refine ⟨_, rfl, ?_⟩
  refine (State.liveAon_within _ _ (fun u => ?_) (by rfl))
  exact (State.quiesceDone_within ..).mono (by rfl)
theorem execQuiesceLimit_moves (i : Nat) (s : State) :
    ∃ u, execQuiesceLimit i s = .next u ∧ s.Within 0x4004820009 u := by
  refine ⟨_, rfl, ?_⟩
  refine (State.liveAon_within _ _ (fun u => ?_) (by rfl))
  exact (State.quiesceLimit_within ..).mono (by rfl)
theorem execLowerDone_moves (s : State) :
    ∃ u, execLowerDone s = .next u ∧ s.Within 0x67ffffe9ff u := by
  refine ⟨_, rfl, ?_⟩
  refine (State.liveAon_within _ _ (fun u => ?_) (by rfl))
  exact (State.lowerDone_within ..).mono (by rfl)
theorem execThermalTrip_moves (i : Nat) (t : Int) (s : State) :
    ∃ u, execThermalTrip i t s = .next u ∧ s.Within 0x67ffffe9ff u := by
  refine ⟨_, rfl, ?_⟩
  refine (State.liveAon_within _ _ (fun u => ?_) (by rfl))
  exact (State.thermal_within ..).mono (by rfl)
theorem execSupplyAlarm_moves (s : State) :
    ∃ u, execSupplyAlarm s = .next u ∧ s.Within 0x67ffffe9ff u := by
  refine ⟨_, rfl, ?_⟩
  refine (State.liveAon_within _ _ (fun u => ?_) (by rfl))
  exact (State.supplyAlarm_within ..).mono (by rfl)
theorem execForcedCauseClear_moves (s : State) :
    ∃ u, execForcedCauseClear s = .next u ∧ s.Within 0x4004000001 u := by
  refine ⟨_, rfl, ?_⟩
  refine (State.liveAon_within _ _ (fun u => ?_) (by rfl))
  exact (State.causeClears_within ..).mono (by rfl)
theorem execWakeIn_moves (pins : Nat) (s : State) :
    ∃ u, execWakeIn pins s = .next u ∧ s.Within 0x4004020009 u := by
  refine ⟨_, rfl, ?_⟩
  refine (State.liveAon_within _ _ (fun u => ?_) (by rfl))
  exact (State.wakeIn_within ..).mono (by rfl)
theorem execWakeTimer_moves (s : State) :
    ∃ u, execWakeTimer s = .next u ∧ s.Within 0x4004020009 u := by
  refine ⟨_, rfl, ?_⟩
  refine (State.liveAon_within _ _ (fun u => ?_) (by rfl))
  exact (State.wakeTimer_within ..).mono (by rfl)
theorem execWakeComplete_moves (s : State) :
    ∃ u, execWakeComplete s = .next u ∧ s.Within 0x4107820009 u := by
  refine ⟨_, rfl, ?_⟩
  refine (State.liveAon_within _ _ (fun u => ?_) (by rfl))
  exact (State.wakeComplete_within ..).mono (by rfl)
theorem execWakeConfirm_moves (src : Src) (s : State) :
    ∃ u, execWakeConfirm src s = .next u ∧ s.Within 0x4006820089 u := by
  refine ⟨_, rfl, ?_⟩
  refine (State.live_within _ _ (fun u => ?_) (by rfl))
  refine (State.guard_within _ _ _ _ _ (fun u => ?_) (by rfl))
  exact (State.confirmWake_within ..).mono (by rfl)
theorem execConfirmTimeout_moves (s : State) :
    ∃ u, execConfirmTimeout s = .next u ∧ s.Within 0x4004020009 u := by
  refine ⟨_, rfl, ?_⟩
  refine (State.liveAon_within _ _ (fun u => ?_) (by rfl))
  exact (State.confirmTimeout_within ..).mono (by rfl)
theorem execUnmaskTimer_moves (n : Nat) (s : State) :
    ∃ u, execUnmaskTimer n s = .next u ∧ s.Within 0x4000001 u := by
  refine ⟨_, rfl, ?_⟩
  refine (State.liveAon_within _ _ (fun u => ?_) (by rfl))
  exact (State.unmaskTimer_within ..).mono (by rfl)
theorem execCharmReceived_moves (p : Nat) (bytes : List Byte) (s : State) :
    ∃ u, execCharmReceived p bytes s = .next u ∧ s.Within 0x4004020009 u := by
  refine ⟨_, rfl, ?_⟩
  refine (State.live_within _ _ (fun u => ?_) (by rfl))
  exact (State.charm_within ..).mono (by rfl)
theorem execNetTimeout_moves (s : State) :
    ∃ u, execNetTimeout s = .next u ∧ s.Within 0x4004820009 u := by
  refine ⟨_, rfl, ?_⟩
  refine (State.liveAon_within _ _ (fun u => ?_) (by rfl))
  exact (State.netTimeout_within ..).mono (by rfl)
theorem execNmHoldWrite_moves (src : Src) (hold : Bool) (reason : Nat) (s : State) :
    ∃ u, execNmHoldWrite src hold reason s = .next u ∧ s.Within 0x4006820089 u := by
  refine ⟨_, rfl, ?_⟩
  refine (State.live_within _ _ (fun u => ?_) (by rfl))
  refine (State.guard_within _ _ _ _ _ (fun u => ?_) (by rfl))
  exact (State.holdWrite_within ..).mono (by rfl)
theorem execNmEtypeWrite_moves (src : Src) (etype : Nat) (auto : Bool) (sleep : Nat) (s : State) :
    ∃ u, execNmEtypeWrite src etype auto sleep s = .next u ∧ s.Within 0x4006820089 u := by
  refine ⟨_, rfl, ?_⟩
  refine (State.live_within _ _ (fun u => ?_) (by rfl))
  refine (State.guard_within _ _ _ _ _ (fun u => ?_) (by rfl))
  exact (State.nmCfgWrite_within ..).mono (by rfl)
theorem execCharmTxDue_moves (s : State) :
    ∃ u, execCharmTxDue s = .next u ∧ s.Within 0x4000020009 u := by
  refine ⟨_, rfl, ?_⟩
  refine (State.liveAon_within _ _ (fun u => ?_) (by rfl))
  exact (State.charmDue_within ..).mono (by rfl)
theorem execOtpProgram_moves (src : Src) (s : State) :
    ∃ u, execOtpProgram src s = .next u ∧ s.Within 0x4002821089 u := by
  refine ⟨_, rfl, ?_⟩
  refine (State.live_within _ _ (fun u => ?_) (by rfl))
  refine (State.guardTrusted_within _ _ _ _ _ (fun u => ?_) (by rfl))
  exact (State.otpProgram_within ..).mono (by rfl)
theorem execTamperTrip_moves (n : Nat) (s : State) :
    ∃ u, execTamperTrip n s = .next u ∧ s.Within 0x4502021209 u := by
  refine ⟨_, rfl, ?_⟩
  refine (State.live_within _ _ (fun u => ?_) (by rfl))
  exact (State.tamper_within ..).mono (by rfl)
theorem execDbgChalReq_moves (src : Src) (s : State) :
    ∃ u, execDbgChalReq src s = .next u ∧ s.Within 0x6102820089 u := by
  refine ⟨_, rfl, ?_⟩
  refine (State.live_within _ _ (fun u => ?_) (by rfl))
  refine (State.guardOpen_within _ _ _ _ (fun u => ?_) (by rfl))
  exact (State.chalReq_within ..).mono (by rfl)
theorem execDbgTokenSubmit_moves (src : Src) (s : State) :
    ∃ u, execDbgTokenSubmit src s = .next u ∧ s.Within 0x4502821389 u := by
  refine ⟨_, rfl, ?_⟩
  refine (State.live_within _ _ (fun u => ?_) (by rfl))
  refine (State.guardOpen_within _ _ _ _ (fun u => ?_) (by rfl))
  exact (State.dbgSubmit_within ..).mono (by rfl)
theorem execColdBoot_moves (s : State) :
    ∃ u, execColdBoot s = .next u ∧ s.Within 0x65020215c9 u := by
  refine ⟨_, rfl, ?_⟩
  refine (State.live_within _ _ (fun u => ?_) (by rfl))
  exact (State.coldBoot_within ..).mono (by rfl)
theorem execWarmBoot_moves (s : State) :
    ∃ u, execWarmBoot s = .next u ∧ s.Within 0x65020211c9 u := by
  refine ⟨_, rfl, ?_⟩
  refine (State.live_within _ _ (fun u => ?_) (by rfl))
  exact (State.warmBoot_within ..).mono (by rfl)
theorem execMainReady_moves (s : State) :
    ∃ u, execMainReady s = .next u ∧ s.Within 0x4102020089 u := by
  refine ⟨_, rfl, ?_⟩
  refine (State.live_within _ _ (fun u => ?_) (by rfl))
  exact (State.mainReady_within ..).mono (by rfl)
theorem execTrialExpired_moves (s : State) :
    ∃ u, execTrialExpired s = .next u ∧ s.Within 0x4100020409 u := by
  refine ⟨_, rfl, ?_⟩
  refine (State.live_within _ _ (fun u => ?_) (by rfl))
  exact (State.trialExpired_within ..).mono (by rfl)
theorem execAgeSample_moves (l : List Sensor) (s : State) :
    ∃ u, execAgeSample l s = .next u ∧ s.Within 0x67ffffe9ff u := by
  refine ⟨_, rfl, ?_⟩
  refine (State.liveAon_within _ _ (fun u => ?_) (by rfl))
  exact (State.sampled_within ..).mono (by rfl)
theorem execVreqWrite_moves (src : Src) (i : Nat) (v : Nat) (s : State) :
    ∃ u, execVreqWrite src i v s = .next u ∧ s.Within 0x4006820089 u := by
  refine ⟨_, rfl, ?_⟩
  refine (State.live_within _ _ (fun u => ?_) (by rfl))
  refine (State.guard_within _ _ _ _ _ (fun u => ?_) (by rfl))
  exact (State.vreqPut_within ..).mono (by rfl)
theorem execVoltageMoveStep_moves (i : Nat) (x : Sensor) (s : State) :
    ∃ u, execVoltageMoveStep i x s = .next u ∧ s.Within 0x4004820009 u := by
  refine ⟨_, rfl, ?_⟩
  refine (State.liveAon_within _ _ (fun u => ?_) (by rfl))
  exact (State.voltageStep_within ..).mono (by rfl)
theorem execCanaryFail_moves (i : Nat) (s : State) :
    ∃ u, execCanaryFail i s = .next u ∧ s.Within 0x4005820009 u := by
  refine ⟨_, rfl, ?_⟩
  refine (State.liveAon_within _ _ (fun u => ?_) (by rfl))
  exact (State.canaryFail_within ..).mono (by rfl)
theorem execFrequencyGlideDone_moves (i : Nat) (s : State) :
    ∃ u, execFrequencyGlideDone i s = .next u ∧ s.Within 0x400082800b u := by
  refine ⟨_, rfl, ?_⟩
  refine (State.liveAon_within _ _ (fun u => ?_) (by rfl))
  exact (State.glideDone_within ..).mono (by rfl)
theorem execXtalAlarm_moves (s : State) :
    ∃ u, execXtalAlarm s = .next u ∧ s.Within 0x4001820009 u := by
  refine ⟨_, rfl, ?_⟩
  refine (State.liveAon_within _ _ (fun u => ?_) (by rfl))
  exact (State.xtalAlarm_within ..).mono (by rfl)
theorem execColdReset_moves (search : List (List Nat)) (s : State) :
    ∃ u, execColdReset search s = .next u ∧ s.Within 0x7fffffe3ff u := by
  refine ⟨_, rfl, ?_⟩
  exact (State.coldReset_within ..).mono (by rfl)
theorem execPorNLow_moves (s : State) :
    ∃ u, execPorNLow s = .next u ∧ s.Within 0x4fffffe3ff u := by
  refine ⟨_, rfl, ?_⟩
  exact (State.porLow_within ..).mono (by rfl)
theorem execSysRstNLow_moves (s : State) :
    ∃ u, execSysRstNLow s = .next u ∧ s.Within 0x4fffffe3ff u := by
  refine ⟨_, rfl, ?_⟩
  exact (State.sysLow_within ..).mono (by rfl)
theorem execRstCtrlDevice_moves (src : Src) (s : State) :
    ∃ u, execRstCtrlDevice src s = .next u ∧ s.Within 0x4fffffe3ff u := by
  refine ⟨_, rfl, ?_⟩
  refine (State.live_within _ _ (fun u => ?_) (by rfl))
  refine (State.guardTrusted_within _ _ _ _ _ (fun u => ?_) (by rfl))
  exact (State.rstCtrl_within ..).mono (by rfl)
theorem execRstCtrlSystem_moves (src : Src) (s : State) :
    ∃ u, execRstCtrlSystem src s = .next u ∧ s.Within 0x4fffffe3ff u := by
  refine ⟨_, rfl, ?_⟩
  refine (State.live_within _ _ (fun u => ?_) (by rfl))
  refine (State.guardTrusted_within _ _ _ _ _ (fun u => ?_) (by rfl))
  exact (State.rstCtrl_within ..).mono (by rfl)
theorem execRstCtrlMgmt_moves (src : Src) (s : State) :
    ∃ u, execRstCtrlMgmt src s = .next u ∧ s.Within 0x4fffffe3ff u := by
  refine ⟨_, rfl, ?_⟩
  refine (State.live_within _ _ (fun u => ?_) (by rfl))
  refine (State.guardTrusted_within _ _ _ _ _ (fun u => ?_) (by rfl))
  exact (State.rstCtrl_within ..).mono (by rfl)
theorem execBrownOut_moves (s : State) :
    ∃ u, execBrownOut s = .next u ∧ s.Within 0x5fffffe3ff u := by
  refine ⟨_, rfl, ?_⟩
  exact (State.brownOut_within ..).mono (by rfl)
theorem execNoMpTimeout_moves (s : State) :
    ∃ u, execNoMpTimeout s = .next u ∧ s.Within 0x43ffb3609f u := by
  refine ⟨_, rfl, ?_⟩
  refine (State.live_within _ _ (fun u => ?_) (by rfl))
  exact (State.noMp_within ..).mono (by rfl)
theorem execGpioEdge_moves (i : Nat) (high : Bool) (s : State) :
    ∃ u, execGpioEdge i high s = .next u ∧ s.Within 0x4000020009 u := by
  refine ⟨_, rfl, ?_⟩
  refine (State.liveAon_within _ _ (fun u => ?_) (by rfl))
  exact (State.gpioEdge_within ..).mono (by rfl)
theorem execTapReset_moves (s : State) :
    ∃ u, execTapReset s = .next u ∧ s.Within 0x5000000000 u := by
  refine ⟨_, rfl, ?_⟩
  exact (State.tapSelect_within ..).mono (by rfl)
theorem execBypass_moves (s : State) :
    ∃ u, execBypass s = .next u ∧ s.Within 0x5000000000 u := by
  refine ⟨_, rfl, ?_⟩
  exact (State.tapBypass_within ..).mono (by rfl)
theorem execIdcode_moves (s : State) :
    ∃ u, execIdcode s = .next u ∧ s.Within 0x5000000000 u := by
  refine ⟨_, rfl, ?_⟩
  refine State.Within.trans ?_ ((State.emit_within ..).mono (by rfl))
  exact (State.tapSelect_within ..).mono (by rfl)
theorem execSamplePreload_moves (balls : Nat) (v : Nat) (s : State) :
    ∃ u, execSamplePreload balls v s = .next u ∧ s.Within 0x5000000000 u := by
  refine ⟨_, rfl, ?_⟩
  exact (State.samplePreload_within ..).mono (by rfl)
theorem execExtest_moves (balls : Nat) (v : Nat) (s : State) :
    ∃ u, execExtest balls v s = .next u ∧ s.Within 0x5000000000 u := by
  refine ⟨_, rfl, ?_⟩
  exact (State.tapExtest_within ..).mono (by rfl)
theorem execClamp_moves (s : State) :
    ∃ u, execClamp s = .next u ∧ s.Within 0x5000000000 u := by
  refine ⟨_, rfl, ?_⟩
  exact (State.tapGuarded_within ..).mono (by rfl)
theorem execHighz_moves (s : State) :
    ∃ u, execHighz s = .next u ∧ s.Within 0x5000000000 u := by
  refine ⟨_, rfl, ?_⟩
  exact (State.tapGuarded_within ..).mono (by rfl)
theorem execDbgAccess_moves (a : Nat) (v : Option Nat) (s : State) :
    ∃ u, execDbgAccess a v s = .next u ∧ s.Within 0x7ffffffbff u := by
  refine ⟨_, rfl, ?_⟩
  exact (State.dbgAccess_within ..).mono (by rfl)
theorem execPcsLockAcquired_moves (p : Nat) (lane : Nat) (s : State) :
    ∃ u, execPcsLockAcquired p lane s = .next u ∧ s.Within 0x800001 u := by
  refine ⟨_, rfl, ?_⟩
  refine (State.live_within _ _ (fun u => ?_) (by rfl))
  refine (State.clocked_within _ _ _ (fun u => ?_) (by rfl))
  exact (State.lockAcquired_within ..).mono (by rfl)
theorem execHostCompletionReceived_moves (id : Nat) (data : Option (List Byte)) (s : State) :
    ∃ u, execHostCompletionReceived id data s = .next u ∧ s.Within 0x4001820009 u := by
  refine ⟨_, rfl, ?_⟩
  refine (State.live_within _ _ (fun u => ?_) (by rfl))
  refine (State.clocked_within _ _ _ (fun u => ?_) (by rfl))
  exact (State.hostCompletes_within ..).mono (by rfl)
theorem execCompletionTimeout_moves (id : Nat) (s : State) :
    ∃ u, execCompletionTimeout id s = .next u ∧ s.Within 0x4001820009 u := by
  refine ⟨_, rfl, ?_⟩
  refine (State.live_within _ _ (fun u => ?_) (by rfl))
  refine (State.clocked_within _ _ _ (fun u => ?_) (by rfl))
  exact (State.hostTimesOut_within ..).mono (by rfl)
theorem execResetSourceRelease_moves (pin : ResetPin) (s : State) :
    ∃ u, execResetSourceRelease pin s = .next u ∧ s.Within 0x4802000000 u := by
  refine ⟨_, rfl, ?_⟩
  exact (State.pinReleased_within ..).mono (by rfl)
theorem execMisalignedRead_moves (src : Src) (bar : Bar) (a : Nat) (size : Nat) (ecc : EccResult) (s : State) :
    ∃ u, execMisalignedRead src bar a size ecc s = .next u ∧ s.Within 0x6000830009 u := by
  refine ⟨_, rfl, ?_⟩
  refine (State.live_within _ _ (fun u => ?_) (by rfl))
  exact (State.anyRead_within ..).mono (by rfl)
theorem execProcessorMemoryAccess_moves (who :
    Option (Fin 4)) (kind : AccessKind) (a : Nat) (size : Nat) (data : List Byte) (ecc : EccResult) (s : State) :
    ∃ u, execProcessorMemoryAccess who kind a size data ecc s = .next u ∧ s.Within 0x6ffffffbff u := by
  refine ⟨_, rfl, ?_⟩
  refine (State.live_within _ _ (fun u => ?_) (by rfl))
  exact (State.procAccess_within ..).mono (by rfl)
theorem execEccHealthExpiry_moves (s : State) :
    ∃ u, execEccHealthExpiry s = .next u ∧ s.Within 0x4000820009 u := by
  refine ⟨_, rfl, ?_⟩
  refine (State.live_within _ _ (fun u => ?_) (by rfl))
  refine (State.clocked_within _ _ _ (fun u => ?_) (by rfl))
  exact (State.eccAges_within ..).mono (by rfl)

end Sys2Proof.Machine
end

