-- ==== Sys2Proof/Laws/Entered.lean ====
section
/-! SUPPORT. What happens inside a page when its state changes writes none of the words ID, CAPS, CTRL, STATE, OWNER and DRAIN_LIMIT of any page. -/
namespace Sys2Proof.Machine

/-- An address of one of the first five words of a page, or of its DRAIN_LIMIT. -/
abbrev ctlAddr (a : Nat) : Prop := a % 0x4000 < 0x14 ∨ a % 0x4000 = 0x44

/-- An offset of none of those words. -/
abbrev offCtl (o : Nat) : Prop := 0x14 ≤ o % 0x4000 ∧ o % 0x4000 ≠ 0x44

section
variable (s : State) (a : Nat)

theorem State.setWord_ctl (p : Page) (o : Nat) (w : Word) (h : ctlAddr a) (ho : offCtl o) :
    (s.setWord p o w).regs.get a = s.regs.get a := by
  have := p.base_aligned
  simp only [State.setWord_regs]
  refine Sparse.get_set_other _ _ _ _ ?_
  unfold ctlAddr at h
  unfold offCtl at ho
  omega

theorem State.setFld_ctl (p : Page) (f : Fld) (v : Nat) (h : ctlAddr a) (ho : offCtl f.off) :
    (s.setFld p f v).regs.get a = s.regs.get a := s.setWord_ctl a p f.off _ h ho

theorem State.raise_ctl (p : Page) (b : Nat) (h : ctlAddr a) : (s.raise p b).regs.get a = s.regs.get a := by
  have := p.base_aligned
  rw [State.raise_get, if_neg]
  unfold ctlAddr at h
  simp only [Hdr.EVT_RAW_RAW]
  omega

theorem State.each_ctl {α : Type} (l : List α) (f : State → α → State) (h : ∀ u x, (f u x).regs.get a = u.regs.get a) :
    (s.each l f).regs.get a = s.regs.get a := s.each_field (fun u => u.regs.get a) l f h

end

/-- `t` has the first five words and the DRAIN_LIMIT of every page as `s` has them. -/
structure State.CtlKept (s t : State) : Prop where
  get : ∀ a, ctlAddr a → t.regs.get a = s.regs.get a

theorem State.CtlKept.refl (s : State) : s.CtlKept s := ⟨fun _ _ => rfl⟩
theorem State.CtlKept.trans {s t u : State} (h : s.CtlKept t) (k : t.CtlKept u) : s.CtlKept u :=
  ⟨fun a ha => (k.get a ha).trans (h.get a ha)⟩
theorem State.CtlKept.of {s t : State} {m : Nat} (h : s.Within m t) (k : m.testBit 0 = false) : s.CtlKept t :=
  ⟨fun a _ => congrArg (·.get a) (h.same .regs k)⟩
theorem State.CtlKept.ite {s a b : State} {c : Prop} [Decidable c] (ha : s.CtlKept a) (hb : s.CtlKept b) : s.CtlKept (if c then a else b) := by
  split <;> assumption
theorem State.CtlKept.each {s x : State} {α : Type} {l : List α} {f : State → α → State} (hx : s.CtlKept x)
    (h : ∀ (u : State) a, u.CtlKept (f u a)) : s.CtlKept (x.each l f) :=
  ⟨fun a ha => (x.each_field (fun u => u.regs.get a) l f (fun u y => (h u y).get a ha)).trans (hx.get a ha)⟩
theorem State.CtlKept.each_mem {s x : State} {α : Type} {l : List α} {f : State → α → State} (hx : s.CtlKept x)
    (h : ∀ (u : State), ∀ a ∈ l, u.CtlKept (f u a)) : s.CtlKept (x.each l f) := by
  unfold State.each
  induction l generalizing x with
  | nil => exact hx
  | cons a t ih => exact ih (hx.trans (h x a List.mem_cons_self)) (fun u b hb => h u b (List.mem_cons_of_mem _ hb))

theorem offCtl_busy (i : Nat) (h : i < 2) : offCtl (Sys.MDIO_CFG_BUSY i).off := by
  simp only [offCtl, Sys.MDIO_CFG_BUSY]; omega
theorem offCtl_ch (i : Nat) (h : i < 32) : offCtl (Dma.CH_CTRL_ST i).off := by
  simp only [offCtl, Dma.CH_CTRL_ST]; omega

theorem State.setFld_ctlKept (s : State) (p : Page) (f : Fld) (v : Nat) (h : offCtl f.off) : s.CtlKept (s.setFld p f v) :=
  ⟨fun a ha => s.setFld_ctl a p f v ha h⟩
theorem State.setWord_ctlKept (s : State) (p : Page) (o : Nat) (w : Word) (h : offCtl o) : s.CtlKept (s.setWord p o w) :=
  ⟨fun a ha => s.setWord_ctl a p o w ha h⟩
theorem State.raise_ctlKept (s : State) (p : Page) (b : Nat) : s.CtlKept (s.raise p b) := ⟨fun a ha => s.raise_ctl a p b ha⟩

theorem State.clearCredit_ctlKept (s : State) (p : Nat) : s.CtlKept (s.clearCredit p) := by
  unfold State.clearCredit
  refine State.CtlKept.each ?_ (fun u a => ?_)
  · exact State.CtlKept.refl _
  · extract_lets y1
    refine State.CtlKept.trans ?_ (State.setFld_ctlKept (h := by unfold creditFld; split <;> decide) ..)
    exact State.CtlKept.of (State.mapDp_within ..) (by rfl)

theorem State.leaveUp_ctlKept (s : State) (p : Nat) : s.CtlKept (s.leaveUp p) := by
  unfold State.leaveUp
  extract_lets y1 y2
  have h3 : s.CtlKept y1 := by
    unfold y1
    refine State.CtlKept.trans ?_ (State.clearCredit_ctlKept ..)
    exact State.CtlKept.of (State.shapersLinkLost_within ..) (by rfl)
  clear_value y1
  have h4 : s.CtlKept y2 := by
    unfold y2
    exact State.CtlKept.trans (by assumption) (State.CtlKept.of (State.mapDp_within ..) (by rfl))
  clear_value y2
  exact State.CtlKept.trans (by assumption) (State.CtlKept.of (State.mapEgress_within ..) (by rfl))

theorem State.setLst_ctlKept (s : State) (p v : Nat) : s.CtlKept (s.setLst p v) := by
  unfold State.setLst
  exact State.setFld_ctlKept (h := by decide) ..

theorem State.mdioPush_ctlKept (s : State) (r : MdioReq) : s.CtlKept (s.mdioPush r) := by
  unfold State.mdioPush
  extract_lets y1
  refine State.CtlKept.trans ?_ (State.setFld_ctlKept (h := offCtl_busy _ (s.fld_lt _ _)) ..)
  exact State.CtlKept.of (State.mapDp_within ..) (by rfl)

theorem State.askAsleep_ctlKept (s : State) (p : Nat) : s.CtlKept (s.askAsleep p) := by
  unfold State.askAsleep
  refine State.CtlKept.ite ?_ ?_
  · exact State.mdioPush_ctlKept ..
  · exact State.CtlKept.refl _

theorem State.linkDown_ctlKept (s : State) (p : Nat) : s.CtlKept (s.linkDown p) := by
  unfold State.linkDown
  extract_lets y1 y2 y3 y4 y5
  have h6 : s.CtlKept y2 := by
    unfold y2
    refine State.CtlKept.ite ?_ ?_
    · exact State.leaveUp_ctlKept ..
    · exact State.clearCredit_ctlKept ..
  clear_value y2
  have h7 : s.CtlKept y3 := by
    unfold y3
    refine State.CtlKept.trans ?_ (State.CtlKept.of (State.bump_within ..) (by rfl))
    refine State.CtlKept.trans ?_ (State.raise_ctlKept ..)
    exact State.CtlKept.trans (by assumption) (State.setLst_ctlKept ..)
  clear_value y3
  have h8 : s.CtlKept y4 := by
    unfold y4
    exact State.CtlKept.trans (by assumption) (State.CtlKept.of (State.holdDown_within ..) (by rfl))
  clear_value y4
  have h9 : s.CtlKept y5 := by
    unfold y5
    refine State.CtlKept.trans ?_ (State.setFld_ctlKept (h := by decide) ..)
    exact State.CtlKept.trans (by assumption) (State.setFld_ctlKept (h := by decide) ..)
  clear_value y5
  refine State.CtlKept.ite ?_ ?_
  · exact State.CtlKept.trans (by assumption) (State.askAsleep_ctlKept ..)
  · assumption

theorem State.laneLeaves_ctlKept (s : State) (i : Nat) : s.CtlKept (s.laneLeaves i) := by
  unfold State.laneLeaves
  refine State.CtlKept.ite ?_ (State.CtlKept.refl _)
  extract_lets y1 y2 y3
  have h4 : s.CtlKept y1 := by
    unfold y1
    exact State.setFld_ctlKept (h := by split <;> decide) ..
  clear_value y1
  have h5 : s.CtlKept y2 := by
    unfold y2
    refine State.CtlKept.trans ?_ (State.raise_ctlKept ..)
    exact State.CtlKept.trans (by assumption) (State.CtlKept.of (State.bump_within ..) (by rfl))
  clear_value y2
  have h6 : s.CtlKept y3 := by
    unfold y3
    exact State.CtlKept.trans (by assumption) (State.CtlKept.of (State.mapEgress_within ..) (by rfl))
  clear_value y3
  exact State.CtlKept.ite (State.CtlKept.trans (by assumption) (State.linkDown_ctlKept ..)) (by assumption)

theorem State.laneFalls_ctlKept (s : State) (i : Nat) : s.CtlKept (s.laneFalls i) := by
  unfold State.laneFalls
  extract_lets y1
  have h2 : s.CtlKept y1 := by
    unfold y1
    exact State.CtlKept.of (State.mapClasp_within ..) (by rfl)
  clear_value y1
  refine State.CtlKept.trans ?_ (State.laneLeaves_ctlKept ..)
  exact State.CtlKept.trans (by assumption) (State.setFld_ctlKept (h := by decide) ..)

theorem State.lanesOff_ctlKept (s : State) : s.CtlKept s.lanesOff := by
  unfold State.lanesOff
  refine State.CtlKept.each ?_ (fun u a => ?_)
  · exact State.CtlKept.refl _
  · exact State.laneFalls_ctlKept ..

theorem State.linkOn_ctlKept (s : State) (p : Nat) : s.CtlKept (s.linkOn p) := by
  unfold State.linkOn
  refine State.CtlKept.ite ?_ ?_
  · exact State.setLst_ctlKept ..
  · exact State.CtlKept.refl _

theorem State.setTst_ctlKept (s : State) (p v : Nat) : s.CtlKept (s.setTst p v) := by
  unfold State.setTst
  exact State.setFld_ctlKept (h := by decide) ..

theorem State.linkOff_ctlKept (s : State) (p : Nat) : s.CtlKept (s.linkOff p) := by
  unfold State.linkOff
  extract_lets y1 y2 y3 y4 y5
  have h6 : s.CtlKept y2 := by
    unfold y2
    refine State.CtlKept.ite ?_ ?_
    · exact State.leaveUp_ctlKept ..
    · exact State.clearCredit_ctlKept ..
  clear_value y2
  have h7 : s.CtlKept y3 := by
    unfold y3
    refine State.CtlKept.ite ?_ ?_
    · refine State.CtlKept.trans ?_ (State.CtlKept.of (State.bump_within ..) (by rfl))
      exact State.CtlKept.trans (by assumption) (State.raise_ctlKept ..)
    · assumption
  clear_value y3
  have h8 : s.CtlKept y4 := by
    unfold y4
    refine State.CtlKept.trans ?_ (State.setFld_ctlKept (h := by decide) ..)
    exact State.CtlKept.trans (by assumption) (State.setLst_ctlKept ..)
  clear_value y4
  have h9 : s.CtlKept y5 := by
    unfold y5
    refine State.CtlKept.trans ?_ (State.setFld_ctlKept (h := by decide) ..)
    refine State.CtlKept.trans ?_ (State.setFld_ctlKept (h := by decide) ..)
    exact State.CtlKept.trans (by assumption) (State.setFld_ctlKept (h := by decide) ..)
  clear_value y5
  refine State.CtlKept.trans ?_ (State.CtlKept.of (State.holdDown_within ..) (by rfl))
  refine State.CtlKept.trans ?_ (State.CtlKept.of (State.tc10Time_within ..) (by rfl))
  exact State.CtlKept.trans (by assumption) (State.setTst_ctlKept ..)

theorem State.showGate_ctlKept (s : State) : s.CtlKept s.showGate := by
  unfold State.showGate
  exact State.setFld_ctlKept (h := by decide) ..

theorem State.gateMoves_ctlKept (s : State) (old : State) : s.CtlKept (s.gateMoves old) := by
  unfold State.gateMoves
  extract_lets y1
  refine State.CtlKept.trans ?_ (State.showGate_ctlKept ..)
  refine State.CtlKept.ite ?_ ?_
  · exact State.CtlKept.of (State.bump_within ..) (by rfl)
  · exact State.CtlKept.refl _

theorem State.refreshFence_ctlKept (s : State) : s.CtlKept s.refreshFence := by
  unfold State.refreshFence
  exact State.setFld_ctlKept (h := by decide) ..

theorem State.sendHeartbeat_ctlKept (s : State) : s.CtlKept s.sendHeartbeat := by
  unfold State.sendHeartbeat
  refine State.CtlKept.ite ?_ ?_
  · extract_lets y1 y2
    have h3 : s.CtlKept y1 := by
      unfold y1
      refine State.CtlKept.trans ?_ (State.CtlKept.of (State.refreshGrant_within ..) (by rfl))
      exact State.CtlKept.of (State.refreshGrant_within ..) (by rfl)
    clear_value y1
    refine State.CtlKept.trans ?_ (State.CtlKept.of (State.mapClasp_within ..) (by rfl))
    refine State.CtlKept.trans ?_ (State.CtlKept.of (State.sendBeat_within ..) (by rfl))
    exact State.CtlKept.trans (by assumption) (State.setFld_ctlKept (h := by decide) ..)
  · exact State.CtlKept.refl _

theorem State.setRole_ctlKept (s : State) (role cause : Nat) : s.CtlKept (s.setRole role cause) := by
  unfold State.setRole
  extract_lets y1 y2 y3 y4 y5 y6 y7 y8 y9
  have h10 : s.CtlKept y2 := by
    unfold y2
    refine State.CtlKept.trans ?_ (State.setFld_ctlKept (h := by decide) ..)
    refine State.CtlKept.trans ?_ (State.setFld_ctlKept (h := by decide) ..)
    refine State.CtlKept.trans ?_ (State.setFld_ctlKept (h := by decide) ..)
    exact State.setFld_ctlKept (h := by decide) ..
  clear_value y2
  have h11 : s.CtlKept y3 := by
    unfold y3
    refine State.CtlKept.trans ?_ (State.setFld_ctlKept (h := by decide) ..)
    exact State.CtlKept.trans (by assumption) (State.setFld_ctlKept (h := by decide) ..)
  clear_value y3
  have h12 : s.CtlKept y4 := by
    unfold y4
    refine State.CtlKept.ite ?_ ?_
    · exact State.CtlKept.trans (by assumption) (State.setFld_ctlKept (h := by decide) ..)
    · assumption
  clear_value y4
  have h13 : s.CtlKept y5 := by
    unfold y5
    exact State.CtlKept.trans (by assumption) (State.CtlKept.of (State.mapClasp_within ..) (by rfl))
  clear_value y5
  have h14 : s.CtlKept y6 := by
    unfold y6
    refine State.CtlKept.ite ?_ ?_
    · refine State.CtlKept.trans ?_ (State.raise_ctlKept ..)
      exact State.CtlKept.trans (by assumption) (State.CtlKept.of (State.bump_within ..) (by rfl))
    · assumption
  clear_value y6
  have h15 : s.CtlKept y7 := by
    unfold y7
    refine State.CtlKept.ite ?_ ?_
    · refine State.CtlKept.trans ?_ (State.raise_ctlKept ..)
      exact State.CtlKept.trans (by assumption) (State.CtlKept.of (State.bump_within ..) (by rfl))
    · assumption
  clear_value y7
  have h16 : s.CtlKept y8 := by
    unfold y8
    refine State.CtlKept.trans ?_ (State.CtlKept.of (State.digestHold_within ..) (by rfl))
    exact State.CtlKept.trans (by assumption) (State.gateMoves_ctlKept ..)
  clear_value y8
  have h17 : s.CtlKept y9 := by
    unfold y9
    refine State.CtlKept.ite ?_ ?_
    · exact State.CtlKept.trans (by assumption) (State.setFld_ctlKept (h := by decide) ..)
    · refine State.CtlKept.ite ?_ ?_
      · exact State.CtlKept.trans (by assumption) (State.setFld_ctlKept (h := by decide) ..)
      · assumption
  clear_value y9
  refine State.CtlKept.trans ?_ (State.refreshFence_ctlKept ..)
  exact State.CtlKept.trans (by assumption) (State.sendHeartbeat_ctlKept ..)

theorem State.enterListen_ctlKept (s : State) : s.CtlKept s.enterListen := by
  unfold State.enterListen
  refine State.CtlKept.trans ?_ (State.setRole_ctlKept ..)
  exact State.CtlKept.of (State.mapClasp_within ..) (by rfl)

theorem State.clspEnter_ctlKept (s : State) : s.CtlKept s.clspEnter := by
  unfold State.clspEnter
  refine State.CtlKept.ite ?_ ?_
  · exact State.enterListen_ctlKept ..
  · exact State.CtlKept.refl _

theorem State.clspLeave_ctlKept (s : State) : s.CtlKept s.clspLeave := by
  unfold State.clspLeave
  refine State.CtlKept.ite ?_ ?_
  · exact State.CtlKept.refl _
  · exact State.setRole_ctlKept ..

theorem State.setCst_ctlKept (s : State) (n v : Nat) : s.CtlKept (s.setCst n v) := by
  unfold State.setCst
  extract_lets y1
  have h2 : s.CtlKept y1 := by
    unfold y1
    exact State.setFld_ctlKept (h := by decide) ..
  clear_value y1
  refine State.CtlKept.ite ?_ ?_
  · assumption
  · exact State.CtlKept.trans (by assumption) (State.CtlKept.of (State.emit_within ..) (by rfl))

theorem State.canEnter_ctlKept (s : State) (n : Nat) : s.CtlKept (s.canEnter n) := by
  unfold State.canEnter
  extract_lets y1
  have h2 : s.CtlKept y1 := by
    unfold y1
    exact State.CtlKept.of (State.mapCan_within ..) (by rfl)
  clear_value y1
  refine State.CtlKept.ite ?_ ?_
  · exact State.CtlKept.trans (by assumption) (State.setCst_ctlKept ..)
  · assumption

theorem State.canStop_ctlKept (s : State) (n : Nat) : s.CtlKept (s.canStop n) := by
  unfold State.canStop
  extract_lets y1
  have h2 : s.CtlKept y1 := by
    unfold y1
    exact State.CtlKept.of (State.mapCan_within ..) (by rfl)
  clear_value y1
  refine State.CtlKept.trans ?_ (State.setFld_ctlKept (h := by decide) ..)
  refine State.CtlKept.trans ?_ (State.setFld_ctlKept (h := by decide) ..)
  refine State.CtlKept.trans ?_ (State.setFld_ctlKept (h := by decide) ..)
  exact State.CtlKept.trans (by assumption) (State.setCst_ctlKept ..)

theorem State.setLinLst_ctlKept (s : State) (n v : Nat) : s.CtlKept (s.setLinLst n v) := by
  unfold State.setLinLst
  exact State.setFld_ctlKept (h := by decide) ..

theorem State.linEnter_ctlKept (s : State) (n : Nat) : s.CtlKept (s.linEnter n) := by
  unfold State.linEnter
  refine State.CtlKept.ite ?_ ?_
  · exact State.setLinLst_ctlKept ..
  · exact State.CtlKept.refl _

theorem State.linStop_ctlKept (s : State) (n : Nat) : s.CtlKept (s.linStop n) := by
  unfold State.linStop
  refine State.CtlKept.trans ?_ (State.setLinLst_ctlKept ..)
  exact State.CtlKept.of (State.mapLin_within ..) (by rfl)

theorem State.showDefect_ctlKept (s : State) (n : Nat) (f : Fld) (bit : Nat) (v : Bool) (hf : offCtl f.off) : s.CtlKept (s.showDefect n f bit v) := by
  unfold State.showDefect
  refine State.CtlKept.ite ?_ ?_
  · exact State.CtlKept.refl _
  · refine State.CtlKept.trans ?_ (State.raise_ctlKept ..)
    exact State.setFld_ctlKept (h := hf) ..

theorem State.showDefects_ctlKept (s : State) (n : Nat) : s.CtlKept (s.showDefects n) := by
  unfold State.showDefects
  extract_lets y1 y2 y3 y4 y5 y6
  have h7 : s.CtlKept y3 := by
    unfold y3
    refine State.CtlKept.ite ?_ ?_
    · exact State.CtlKept.of (State.mapTdm_within ..) (by rfl)
    · exact State.CtlKept.refl _
  clear_value y3
  have h8 : s.CtlKept y4 := by
    unfold y4
    exact State.CtlKept.trans (by assumption) (State.showDefect_ctlKept (hf := by decide) ..)
  clear_value y4
  have h9 : s.CtlKept y5 := by
    unfold y5
    exact State.CtlKept.trans (by assumption) (State.showDefect_ctlKept (hf := by decide) ..)
  clear_value y5
  have h10 : s.CtlKept y6 := by
    unfold y6
    exact State.CtlKept.trans (by assumption) (State.showDefect_ctlKept (hf := by decide) ..)
  clear_value y6
  exact State.CtlKept.trans (by assumption) (State.showDefect_ctlKept (hf := by decide) ..)

theorem State.setFst_ctlKept (s : State) (n v : Nat) : s.CtlKept (s.setFst n v) := by
  unfold State.setFst
  exact State.setFld_ctlKept (h := by decide) ..

theorem State.toSearch_ctlKept (s : State) (n : Nat) : s.CtlKept (s.toSearch n) := by
  unfold State.toSearch
  refine State.CtlKept.trans ?_ (State.CtlKept.of (State.mapTdm_within ..) (by rfl))
  refine State.CtlKept.trans ?_ (State.setFld_ctlKept (h := by decide) ..)
  exact State.setFst_ctlKept ..

theorem State.tdmStop_ctlKept (s : State) (n : Nat) : s.CtlKept (s.tdmStop n) := by
  unfold State.tdmStop
  refine State.CtlKept.trans ?_ (State.showDefects_ctlKept ..)
  exact State.toSearch_ctlKept ..

theorem State.nmStop_ctlKept (s : State) : s.CtlKept s.nmStop := by
  unfold State.nmStop
  refine State.CtlKept.trans ?_ (State.CtlKept.of (State.mapPower_within ..) (by rfl))
  exact State.setFld_ctlKept (h := by decide) ..

theorem State.setCh_ctlKept (s : State) (c st : Nat) (hc : c < 32) : s.CtlKept (s.setCh c st) := by
  unfold State.setCh
  extract_lets y1 y2
  have h3 : s.CtlKept y2 := by
    unfold y2
    refine State.CtlKept.trans ?_ (State.CtlKept.of (State.mapDp_within ..) (by rfl))
    exact State.setFld_ctlKept (h := offCtl_ch c hc) ..
  clear_value y2
  refine State.CtlKept.ite ?_ ?_
  · refine State.CtlKept.trans ?_ (State.raise_ctlKept ..)
    exact State.CtlKept.trans (by assumption) (State.setFld_ctlKept (h := by decide) ..)
  · exact State.CtlKept.trans (by assumption) (State.setFld_ctlKept (h := by decide) ..)

theorem State.dmaWakes_ctlKept (s : State) : s.CtlKept s.dmaWakes := by
  unfold State.dmaWakes
  refine State.CtlKept.each_mem ?_ (fun u a hm => ?_)
  · exact State.CtlKept.refl _
  · refine State.CtlKept.ite ?_ ?_
    · exact State.setCh_ctlKept (hc := List.mem_range.1 hm) ..
    · exact State.CtlKept.refl _

theorem offCtl_mbxSt (k : Nat) (h : k < 5) : offCtl (Tru.MBX_STATUS_ST k).off := by
  simp only [offCtl, Tru.MBX_STATUS_ST]; omega
theorem offCtl_mbxSeq (k : Nat) (h : k < 5) : offCtl (Tru.MBX_STATUS_SEQ k).off := by
  simp only [offCtl, Tru.MBX_STATUS_SEQ]; omega

theorem State.mbxDone_ctlKept (s : State) (slot status : Nat) (rsp : List Byte) (h : slot < 5) : s.CtlKept (s.mbxDone slot status rsp) := by
  unfold State.mbxDone
  dsimp only
  refine State.CtlKept.trans ?_ (State.raise_ctlKept ..)
  refine State.CtlKept.trans ?_ (State.setFld_ctlKept (h := offCtl_mbxSt _ h) ..)
  exact State.CtlKept.trans (State.CtlKept.of (State.mbxPut_within ..) (by rfl)) (State.CtlKept.of (State.mbxPut_within ..) (by rfl))

theorem State.mbxTake_ctlKept (s : State) (slot : Nat) (h : slot < 5) : s.CtlKept (s.mbxTake slot) := by
  unfold State.mbxTake
  extract_lets l y1 y2
  have h2 : s.CtlKept y2 := by
    refine State.CtlKept.trans ?_ (State.CtlKept.of (State.bump_within ..) (by rfl))
    refine State.CtlKept.trans ?_ (State.setFld_ctlKept (h := offCtl_mbxSeq _ h) ..)
    refine State.CtlKept.trans ?_ (State.setFld_ctlKept (h := offCtl_mbxSt _ h) ..)
    exact State.CtlKept.of (State.mapProcs_within ..) (by rfl)
  exact State.CtlKept.ite h2 (h2.trans (State.mbxDone_ctlKept _ _ _ _ h))

theorem State.takeRung_ctlKept (s : State) : s.CtlKept s.takeRung := by
  refine State.CtlKept.each_mem (State.CtlKept.refl s) (fun u k hk => ?_)
  exact State.CtlKept.ite (State.mbxTake_ctlKept _ _ (by simpa using (List.mem_filter.1 hk).2)) (State.CtlKept.refl u)

theorem State.entered_ctlKept (s : State) (p : Page) (was st : Nat) : s.CtlKept (s.entered p was st) := by
  unfold State.entered
  extract_lets y1
  split
  · refine State.CtlKept.ite ?_ ?_
    · refine State.CtlKept.ite ?_ ?_
      · exact State.lanesOff_ctlKept ..
      · exact State.CtlKept.refl _
    · refine State.CtlKept.ite ?_ ?_
      · exact State.CtlKept.refl _
      · refine State.CtlKept.ite ?_ ?_
        · exact State.linkOn_ctlKept ..
        · refine State.CtlKept.ite ?_ ?_
          · exact State.linkOff_ctlKept ..
          · exact State.CtlKept.refl _
  · refine State.CtlKept.ite ?_ ?_
    · exact State.clspEnter_ctlKept ..
    · refine State.CtlKept.ite ?_ ?_
      · exact State.CtlKept.refl _
      · exact State.clspLeave_ctlKept ..
  · refine State.CtlKept.ite ?_ ?_
    · exact State.canEnter_ctlKept ..
    · refine State.CtlKept.ite ?_ ?_
      · exact State.CtlKept.of (State.canDrain_within ..) (by rfl)
      · refine State.CtlKept.ite ?_ ?_
        · exact State.canStop_ctlKept ..
        · exact State.CtlKept.refl _
  · refine State.CtlKept.ite ?_ ?_
    · exact State.linEnter_ctlKept ..
    · refine State.CtlKept.ite ?_ ?_
      · exact State.linStop_ctlKept ..
      · exact State.CtlKept.refl _
  · refine State.CtlKept.ite ?_ ?_
    · exact State.tdmStop_ctlKept ..
    · exact State.CtlKept.refl _
  · refine State.CtlKept.ite ?_ ?_
    · exact State.nmStop_ctlKept ..
    · exact State.CtlKept.refl _
  · refine State.CtlKept.ite ?_ ?_
    · exact State.dmaWakes_ctlKept ..
    · exact State.CtlKept.refl _
  · refine State.CtlKept.ite ?_ ?_
    · exact State.takeRung_ctlKept ..
    · exact State.CtlKept.refl _
  · exact State.CtlKept.refl _

/-! The end of a plan commit, and the pool after a block reset -/

theorem State.hallmark_ctlKept (s : State) (c : Plan) : s.CtlKept (s.hallmark c) := by
  unfold State.hallmark
  extract_lets y1 y2
  have h3 : s.CtlKept y1 := by
    unfold y1
    refine State.CtlKept.trans ?_ (State.setFld_ctlKept (h := by decide) ..)
    refine State.CtlKept.trans ?_ (State.setFld_ctlKept (h := by decide) ..)
    refine State.CtlKept.trans ?_ (State.setFld_ctlKept (h := by decide) ..)
    refine State.CtlKept.trans ?_ (State.setFld_ctlKept (h := by decide) ..)
    exact State.setFld_ctlKept (h := by decide) ..
  clear_value y1
  exact ⟨h3.get⟩

theorem State.setStatus_ctlKept (s : State) (p : Page) (st detail : Nat) : s.CtlKept (s.setStatus p st detail) := by
  unfold State.setStatus
  extract_lets y1
  have h2 : s.CtlKept y1 := by
    unfold y1
    refine State.CtlKept.trans ?_ (State.setFld_ctlKept (h := by decide) ..)
    exact State.setFld_ctlKept (h := by decide) ..
  clear_value y1
  refine State.CtlKept.ite ?_ ?_
  · exact State.CtlKept.trans (by assumption) (State.raise_ctlKept ..)
  · assumption

theorem State.accept_ctlKept (s : State) (p : Page) (gen : Nat) : s.CtlKept (s.accept p gen) := by
  unfold State.accept
  refine State.CtlKept.trans ?_ (State.setStatus_ctlKept ..)
  refine State.CtlKept.trans ?_ (State.setFld_ctlKept (h := by decide) ..)
  exact State.setFld_ctlKept (h := by decide) ..

theorem State.planDone_ctlKept (s : State) : s.CtlKept s.planDone := by
  unfold State.planDone
  split
  · exact State.CtlKept.refl _
  · refine State.CtlKept.ite ?_ ?_
    · extract_lets y1 y2 y3 y4 y5
      have h6 : s.CtlKept y1 := by
        unfold y1
        exact State.setFld_ctlKept (h := by decide) ..
      clear_value y1
      have h7 : s.CtlKept y2 := by
        unfold y2
        exact State.CtlKept.trans (by assumption) (State.hallmark_ctlKept ..)
      clear_value y2
      have h8 : s.CtlKept y3 := by
        unfold y3
        exact ⟨h7.get⟩
      clear_value y3
      have h9 : s.CtlKept y4 := by
        unfold y4
        refine State.CtlKept.each ?_ (fun u a => ?_)
        · assumption
        · exact State.accept_ctlKept ..
      clear_value y4
      have h10 : s.CtlKept y5 := by
        unfold y5
        refine State.CtlKept.ite ?_ ?_
        · exact State.CtlKept.trans (by assumption) (State.setStatus_ctlKept ..)
        · assumption
      clear_value y5
      refine State.CtlKept.trans ?_ (State.raise_ctlKept ..)
      exact State.CtlKept.trans (by assumption) (State.CtlKept.of (State.digestHold_within ..) (by rfl))
    · exact State.CtlKept.refl _

theorem State.setHeadroom_ctlKept (s : State) (p : Nat) : s.CtlKept (s.setHeadroom p) := by
  unfold State.setHeadroom
  exact State.setFld_ctlKept (h := by decide) ..

theorem State.poolReset_ctlKept (s : State) (p : Page) (was : Nat) : s.CtlKept (s.poolReset p was) := by
  unfold State.poolReset
  extract_lets y1
  have h2 : s.CtlKept y1 := by
    unfold y1
    split
    · refine State.CtlKept.ite ?_ ?_
      · exact State.setHeadroom_ctlKept ..
      · exact State.CtlKept.refl _
    · exact State.setHeadroom_ctlKept ..
    · exact State.CtlKept.refl _
  clear_value y1
  split
  · exact State.CtlKept.trans (by assumption) (State.setFld_ctlKept (h := by decide) ..)
  · exact State.CtlKept.trans (by assumption) (State.setFld_ctlKept (h := by decide) ..)
  · exact State.CtlKept.trans (by assumption) (State.setFld_ctlKept (h := by decide) ..)
  · assumption

section
variable (s : State) (a : Nat)

/-- What a page does when its state has changed writes none of the first five words of a page. -/
theorem State.entered_ctl (p : Page) (was st : Nat) (h : ctlAddr a) : (s.entered p was st).regs.get a = s.regs.get a :=
  (s.entered_ctlKept p was st).get a h

end

section
variable (s : State)

/-- The state of a page after it has gone there (R31). -/
theorem State.st_goSt (p : Page) (n : Nat) (h : n < 8) : (s.goSt p n).st p = n := by
  unfold State.goSt
  split
  · assumption
  · have hp := p.base_aligned
    have e : ((s.setSt p n).entered p (s.st p) n).st p = (s.setSt p n).st p := by
      simp only [State.st, State.fld, State.word]
      rw [State.entered_ctl _ _ _ _ _ (by simp only [Hdr.STATE_ST, ctlAddr]; omega)]
    rw [e, State.st_setSt _ _ _ h]

/-- CTRL, OWNER and DRAIN_LIMIT of every page are as before when a page has gone to a state. -/
theorem State.goSt_word (p q : Page) (n o : Nat) (h : o = 8 ∨ o = 0x10 ∨ o = 0x44) : (s.goSt p n).word q o = s.word q o := by
  unfold State.goSt
  split
  · rfl
  · have hp := p.base_aligned
    have hq := q.base_aligned
    simp only [State.word]
    rw [State.entered_ctl _ _ _ _ _ (by simp only [ctlAddr]; omega)]
    unfold State.setSt
    rw [if_neg (by assumption), State.raise_ctl _ _ _ _ (by simp only [ctlAddr]; omega)]
    simp only [State.setFld_regs]
    exact Sparse.get_set_other _ _ _ _ (by simp only [Hdr.STATE_ST]; omega)

/-- The state of another page is as before when a page has gone to a state. -/
theorem State.st_goSt_other (p q : Page) (n : Nat) (h : p.base ≠ q.base) : (s.goSt p n).st q = s.st q := by
  unfold State.goSt
  split
  · rfl
  · have hp := p.base_aligned
    have hq := q.base_aligned
    simp only [State.st, State.fld, State.word]
    rw [State.entered_ctl _ _ _ _ _ (by simp only [ctlAddr, Hdr.STATE_ST]; omega)]
    unfold State.setSt
    rw [if_neg (by assumption), State.raise_ctl _ _ _ _ (by simp only [ctlAddr, Hdr.STATE_ST]; omega)]
    simp only [State.setFld_regs]
    rw [Sparse.get_set_other _ _ _ _ (by simp only [Hdr.STATE_ST]; omega)]

/-- A page that goes to QUIET is QUIET, or HALTED where FREEZE is stored (R31, R32). -/
theorem State.st_goQuiet (p : Page) : (s.goQuiet p).st p = if s.flag p Hdr.CTRL_FREEZE then 4 else 3 := by
  have e : (s.goSt p 3).flag p Hdr.CTRL_FREEZE = s.flag p Hdr.CTRL_FREEZE := by
    simp only [State.flag, State.fld, State.goSt_word s p p 3 _ (Or.inl rfl), Hdr.CTRL_FREEZE]
  unfold State.goQuiet
  dsimp only
  rw [e]
  split
  · exact State.st_goSt _ _ _ (by decide)
  · exact State.st_goSt _ _ _ (by decide)

theorem State.goQuiet_word (p q : Page) (o : Nat) (h : o = 8 ∨ o = 0x10 ∨ o = 0x44) : (s.goQuiet p).word q o = s.word q o := by
  unfold State.goQuiet
  dsimp only
  split
  · rw [State.goSt_word _ _ _ _ _ h, State.goSt_word _ _ _ _ _ h]
  · rw [State.goSt_word _ _ _ _ _ h]

/-! The timers of DRAIN_LIMIT -/

theorem State.entered_drainTimer (p : Page) (was st : Nat) : (s.entered p was st).drainTimer = s.drainTimer :=
  (s.entered_within p was st).same .drainTimer rfl

theorem State.goSt_drainTimer (p : Page) (n : Nat) : (s.goSt p n).drainTimer = s.drainTimer := by
  unfold State.goSt
  split
  · rfl
  · rw [State.entered_drainTimer, State.setSt_drainTimer]

end

end Sys2Proof.Machine
end

