-- ==== Sys2Proof/Laws/Pages.lean ====
section
/-! SUPPORT. The map of the pages: the page that an address of BAR0 falls in, and what the words of a common header hold after reset. -/
namespace Sys2Proof.Machine

/-- An address of a page falls in that page (R22). -/
theorem Page.ofAddr_base (p : Page) (h : p.ok = true) (o : Nat) (ho : o < 0x4000) : Page.ofAddr (p.base + o) = some p := by
  have hk : p.inst < p.instances := by simpa [Page.ok] using h
  have key (r k : Nat) (a : Nat) (hk : k < 64) (ha : a = 0x100000 * r + 0x4000 * k + o) : Page.ofAddr a = Page.ofRegion r k := by
    have h1 : a / 0x100000 = r := by omega
    have h2 : a % 0x100000 / 0x4000 = k := by omega
    rw [Page.ofAddr, h1, h2]
  cases p with
  | etp n => 
    simp only [Page.inst, Page.instances] at hk
    rw [key 1 n _ (by omega) (by simp only [Page.base])]
    simp [Page.ofRegion, hk]
  | tgate n => 
    simp only [Page.inst, Page.instances] at hk
    rw [key 3 (n + 1) _ (by omega) (by simp only [Page.base]; omega)]
    simp only [Page.ofRegion]
    rw [if_neg (by omega), if_pos (by omega), Nat.add_sub_cancel]
  | cip n => 
    simp only [Page.inst, Page.instances] at hk
    rw [key 5 n _ (by omega) (by simp only [Page.base])]
    simp [Page.ofRegion, hk]
  | can n => 
    simp only [Page.inst, Page.instances] at hk
    rw [key 6 n _ (by omega) (by simp only [Page.base])]
    simp [Page.ofRegion, hk]
  | tdm n => 
    simp only [Page.inst, Page.instances] at hk
    rw [key 7 n _ (by omega) (by simp only [Page.base])]
    simp [Page.ofRegion, hk]
  | lin n => 
    simp only [Page.inst, Page.instances] at hk
    rw [key 10 (n + 1) _ (by omega) (by simp only [Page.base]; omega)]
    simp only [Page.ofRegion]
    rw [if_neg (by omega), if_pos (by omega), Nat.add_sub_cancel]
  | _ =>
    simp only [Page.base]
    first
    | exact key 0 0 _ (by decide) (by omega)
    | exact key 0 1 _ (by decide) (by omega)
    | exact key 0 2 _ (by decide) (by omega)
    | exact key 0 3 _ (by decide) (by omega)
    | exact key 0 4 _ (by decide) (by omega)
    | exact key 0 5 _ (by decide) (by omega)
    | exact key 0 6 _ (by decide) (by omega)
    | exact key 0 7 _ (by decide) (by omega)
    | exact key 0 8 _ (by decide) (by omega)
    | exact key 2 0 _ (by decide) (by omega)
    | exact key 2 1 _ (by decide) (by omega)
    | exact key 2 2 _ (by decide) (by omega)
    | exact key 2 3 _ (by decide) (by omega)
    | exact key 3 0 _ (by decide) (by omega)
    | exact key 3 39 _ (by decide) (by omega)
    | exact key 4 0 _ (by decide) (by omega)
    | exact key 4 1 _ (by decide) (by omega)
    | exact key 4 2 _ (by decide) (by omega)
    | exact key 4 3 _ (by decide) (by omega)
    | exact key 7 16 _ (by decide) (by omega)
    | exact key 8 0 _ (by decide) (by omega)
    | exact key 8 1 _ (by decide) (by omega)
    | exact key 8 2 _ (by decide) (by omega)
    | exact key 8 3 _ (by decide) (by omega)
    | exact key 9 0 _ (by decide) (by omega)
    | exact key 9 1 _ (by decide) (by omega)
    | exact key 9 2 _ (by decide) (by omega)
    | exact key 9 3 _ (by decide) (by omega)
    | exact key 9 4 _ (by decide) (by omega)
    | exact key 10 0 _ (by decide) (by omega)
/-- Two pages that the device has stand at different bases. -/
theorem Page.base_inj (p q : Page) (hp : p.ok = true) (hq : q.ok = true) (h : p.base = q.base) : p = q := by
  have a := p.ofAddr_base hp 0 (by decide)
  have b := q.ofAddr_base hq 0 (by decide)
  rw [h, b] at a
  exact (Option.some.inj a).symm

/-- The reset value of a word of the active view. -/
theorem resetWord_base (p : Page) (h : p.ok = true) (o : Nat) (ho : o < 0x800) :
    resetWord (p.base + o) = BitVec.ofNat 32 (p.resetAt o) := by
  have hb := p.base_aligned
  have hm : (p.base + o) % 0x4000 = o := by omega
  unfold resetWord
  rw [p.ofAddr_base h o (by omega)]
  simp only [hm, ho, if_true]

theorem Page.resetAt_ctrl (p : Page) : p.resetAt 8 = 0 := by
  cases p <;> rfl

theorem Page.resetAt_owner (p : Page) : p.resetAt 0x10 = 2 := by
  cases p <;> rfl

theorem Page.resetAt_state (p : Page) : p.resetAt 0xC = if p = .pwr ∨ p = .clk then 1 else 0 := by
  cases p <;> rfl

end Sys2Proof.Machine
end

