-- ==== Sys2Proof/Laws/Control.lean ====
section
/-! SUPPORT. What a write of CTRL does to the state of a page, and what a block reset leaves (R31, R32). -/
namespace Sys2Proof.Machine

section
variable (s : State)

theorem State.flag_congr {s t : State} {p : Page} {f : Fld} (h : t.word p f.off = s.word p f.off) : t.flag p f = s.flag p f := by
  simp only [State.flag, State.fld, h]

theorem b2n_mod (b : Bool) : b2n b % 2 ^ 1 = b2n b := by cases b <;> rfl

theorem b2n_beq (b : Bool) : (b2n b == 1) = b := by cases b <;> rfl

/-- CTRL as a write has stored it. -/
theorem State.ctrl_stored (p : Page) (e d f : Bool) :
    let t := ((s.setFld p Hdr.CTRL_EN (b2n e)).setFld p Hdr.CTRL_DRAIN (b2n d)).setFld p Hdr.CTRL_FREEZE (b2n f)
    t.flag p Hdr.CTRL_EN = e ∧ t.flag p Hdr.CTRL_DRAIN = d ∧ t.flag p Hdr.CTRL_FREEZE = f ∧ t.st p = s.st p := by
  refine ⟨?_, ?_, ?_, ?_⟩
  · simp only [State.flag]
    rw [State.fld_setFld_apart _ _ _ _ _ (by decide), State.fld_setFld_apart _ _ _ _ _ (by decide), State.fld_setFld_same _ _ _ _ (by decide)]
    simp only [show Hdr.CTRL_EN.width = 1 from rfl, b2n_mod, b2n_beq]
  · simp only [State.flag]
    rw [State.fld_setFld_apart _ _ _ _ _ (by decide), State.fld_setFld_same _ _ _ _ (by decide)]
    simp only [show Hdr.CTRL_DRAIN.width = 1 from rfl, b2n_mod, b2n_beq]
  · simp only [State.flag]
    rw [State.fld_setFld_same _ _ _ _ (by decide)]
    simp only [show Hdr.CTRL_FREEZE.width = 1 from rfl, b2n_mod, b2n_beq]
  · simp only [State.st]
    rw [State.fld_setFld_apart _ _ _ _ _ (by decide), State.fld_setFld_apart _ _ _ _ _ (by decide),
      State.fld_setFld_apart _ _ _ _ _ (by decide)]

/-- One bit of CTRL as a write carries it. -/
theorem ctrl_bits (e d f v : Bool) :
    let w := b2n e + 2 * b2n d + 8 * b2n f
    ((putBit w 0 v).testBit 0 = v ∧ (putBit w 0 v).testBit 1 = d ∧ (putBit w 0 v).testBit 2 = false ∧ (putBit w 0 v).testBit 3 = f) ∧
    ((putBit w 1 v).testBit 0 = e ∧ (putBit w 1 v).testBit 1 = v ∧ (putBit w 1 v).testBit 2 = false ∧ (putBit w 1 v).testBit 3 = f) ∧
    ((putBit w 3 v).testBit 0 = e ∧ (putBit w 3 v).testBit 1 = d ∧ (putBit w 3 v).testBit 2 = false ∧ (putBit w 3 v).testBit 3 = v) := by
  cases e <;> cases d <;> cases f <;> cases v <;> decide

/-- A write of EN by an owner, the other bits of CTRL as they are. -/
theorem State.ctrlBit_en (src : Src) (p : Page) (v : Bool) (h : s.ownerWrites src p)
    (hb : s.ctrlBarred p v (s.flag p Hdr.CTRL_DRAIN) = false) :
    s.ctrlBit src p Hdr.CTRL_EN v = (s.drainFor src).ctrlApply p v (s.flag p Hdr.CTRL_DRAIN) (s.flag p Hdr.CTRL_FREEZE) := by
  have e := s.drainFor_regs src
  have f (g : Fld) : (s.drainFor src).flag p g = s.flag p g := by simp only [State.flag, State.fld_congr e]
  have hb' : (s.drainFor src).ctrlBarred p v (s.flag p Hdr.CTRL_DRAIN) = false := by
    rw [← hb]
    unfold State.ctrlBarred
    cases p <;> simp only [State.flag, State.fld_congr e]
  obtain ⟨h0, h1, h2, h3⟩ := (ctrl_bits (s.flag p Hdr.CTRL_EN) (s.flag p Hdr.CTRL_DRAIN) (s.flag p Hdr.CTRL_FREEZE) v).1
  unfold State.ctrlBit
  rw [s.guard_owner src p _ _ h]
  simp only [State.ctrlWrite, State.ctrlWord, f, show Hdr.CTRL_EN.lsb = 0 from rfl, h0, h1, h2, h3, hb']
  rfl

/-- A write of DRAIN by an owner. -/
theorem State.ctrlBit_drain (src : Src) (p : Page) (v : Bool) (h : s.ownerWrites src p)
    (hb : s.ctrlBarred p (s.flag p Hdr.CTRL_EN) v = false) :
    s.ctrlBit src p Hdr.CTRL_DRAIN v = (s.drainFor src).ctrlApply p (s.flag p Hdr.CTRL_EN) v (s.flag p Hdr.CTRL_FREEZE) := by
  have e := s.drainFor_regs src
  have f (g : Fld) : (s.drainFor src).flag p g = s.flag p g := by simp only [State.flag, State.fld_congr e]
  have hb' : (s.drainFor src).ctrlBarred p (s.flag p Hdr.CTRL_EN) v = false := by
    rw [← hb]
    unfold State.ctrlBarred
    cases p <;> simp only [State.flag, State.fld_congr e]
  obtain ⟨h0, h1, h2, h3⟩ := (ctrl_bits (s.flag p Hdr.CTRL_EN) (s.flag p Hdr.CTRL_DRAIN) (s.flag p Hdr.CTRL_FREEZE) v).2.1
  unfold State.ctrlBit
  rw [s.guard_owner src p _ _ h]
  simp only [State.ctrlWrite, State.ctrlWord, f, show Hdr.CTRL_DRAIN.lsb = 1 from rfl, h0, h1, h2, h3, hb']
  rfl

/-- A write of FREEZE by an owner. -/
theorem State.ctrlBit_freeze (src : Src) (p : Page) (v : Bool) (h : s.ownerWrites src p) :
    s.ctrlBit src p Hdr.CTRL_FREEZE v =
      (s.drainFor src).ctrlApply p (s.flag p Hdr.CTRL_EN) (s.flag p Hdr.CTRL_DRAIN) v := by
  have e := s.drainFor_regs src
  have f (g : Fld) : (s.drainFor src).flag p g = s.flag p g := by simp only [State.flag, State.fld_congr e]
  have hb' : (s.drainFor src).ctrlBarred p (s.flag p Hdr.CTRL_EN) (s.flag p Hdr.CTRL_DRAIN) = false := by
    unfold State.ctrlBarred
    cases p <;> simp [f]
  obtain ⟨h0, h1, h2, h3⟩ := (ctrl_bits (s.flag p Hdr.CTRL_EN) (s.flag p Hdr.CTRL_DRAIN) (s.flag p Hdr.CTRL_FREEZE) v).2.2
  unfold State.ctrlBit
  rw [s.guard_owner src p _ _ h]
  simp only [State.ctrlWrite, State.ctrlWord, f, show Hdr.CTRL_FREEZE.lsb = 3 from rfl, h0, h1, h2, h3, hb']
  rfl

/-- The words CTRL and STATE of a page after its DRAIN_LIMIT timer has started or stopped. -/
@[simp] theorem State.flag_drainTime (p q : Page) (on : Bool) (f : Fld) : (s.drainTime p on).flag q f = s.flag q f := rfl
@[simp] theorem State.st_drainTime (p q : Page) (on : Bool) : (s.drainTime p on).st q = s.st q := rfl

theorem State.flag_goSt (p q : Page) (n : Nat) (f : Fld) (h : f.off = 8 ∨ f.off = 0x10 ∨ f.off = 0x44) : (s.goSt p n).flag q f = s.flag q f :=
  State.flag_congr (s.goSt_word p q n f.off h)

theorem State.flag_goQuiet (p q : Page) (f : Fld) (h : f.off = 8 ∨ f.off = 0x10 ∨ f.off = 0x44) : (s.goQuiet p).flag q f = s.flag q f :=
  State.flag_congr (s.goQuiet_word p q f.off h)

/-- FCODE is as before when a page has gone to a state. -/
theorem State.fcode_goSt (p : Page) (n : Nat) : (s.goSt p n).fld p Hdr.STATE_FCODE = s.fld p Hdr.STATE_FCODE := by
  unfold State.goSt
  split
  · rfl
  · have hp := p.base_aligned
    have e : ((s.setSt p n).entered p (s.st p) n).fld p Hdr.STATE_FCODE = (s.setSt p n).fld p Hdr.STATE_FCODE := by
      simp only [State.fld, State.word]
      rw [State.entered_ctl _ _ _ _ _ (by simp only [Hdr.STATE_FCODE, ctlAddr]; omega)]
    rw [e]
    unfold State.setSt
    rw [if_neg (by assumption), State.fld_raise_off _ _ _ _ (by decide), State.fld_setFld_apart _ _ _ _ _ (by decide)]

/-- A page in OFF whose EN goes to 1 (R31). -/
theorem State.ctrlApply_start (p : Page) (d f : Bool) (h0 : s.st p = 0) (h1 : s.flag p Hdr.CTRL_EN = false) :
    (s.ctrlApply p true d f).st p = (if d then (if f then 4 else 3) else 1) ∧ (s.ctrlApply p true d f).flag p Hdr.CTRL_EN = true := by
  obtain ⟨c0, c1, c2, c3⟩ := s.ctrl_stored p true d f
  unfold State.ctrlApply
  simp only [h0, h1, show ((0 : Nat) == 2) = false from rfl, Bool.false_and, Bool.false_eq_true, if_false, c3, Bool.not_false, and_self,
    if_true]
  cases d
  · simp only [Bool.false_eq_true, if_false]
    exact ⟨State.st_goSt _ _ _ (by decide), by rw [State.flag_goSt _ _ _ _ _ (Or.inl rfl), c0]⟩
  · simp only [if_true]
    exact ⟨by rw [State.st_goQuiet, c2], by rw [State.flag_goQuiet _ _ _ _ (Or.inl rfl), c0]⟩

/-- A page in DRAINING without work of its own, or with a limit that is not 0, passes on, or stays (R31). -/
theorem State.drainOn_st (p : Page) (h : p.instant = true ∨ s.drainTimer.get p.index = false ∨ s.fld p Hdr.DRAIN_LIMIT_LIMIT ≠ 0) :
    (s.drainOn p).st p = if p.instant then (if s.flag p Hdr.CTRL_EN then (if s.flag p Hdr.CTRL_FREEZE then 4 else 3) else 0) else s.st p := by
  unfold State.drainOn
  by_cases hi : p.instant = true
  · simp only [hi, if_true]
    unfold State.workDone
    dsimp only
    by_cases he : s.flag p Hdr.CTRL_EN = true
    · rw [if_pos (show (s.drainTime p false).flag p Hdr.CTRL_EN = true from he), if_pos he, State.st_goQuiet, State.flag_drainTime]
    · rw [if_neg (show ¬ (s.drainTime p false).flag p Hdr.CTRL_EN = true from he), if_neg he]
      exact State.st_goSt _ _ _ (by decide)
  · have hi' : p.instant = false := by simpa using hi
    simp only [hi', Bool.false_eq_true, if_false]
    rw [if_neg]
    rintro ⟨a, b⟩
    rcases h with h | h | h
    · exact hi h
    · rw [h] at a
      cases a
    · exact h b

theorem State.limit_goSt (p : Page) (n : Nat) : (s.goSt p n).fld p Hdr.DRAIN_LIMIT_LIMIT = s.fld p Hdr.DRAIN_LIMIT_LIMIT := by
  simp only [State.fld, Hdr.DRAIN_LIMIT_LIMIT, s.goSt_word p p n 0x44 (Or.inr (Or.inr rfl))]

theorem State.limit_ctrl (p : Page) (e d f : Nat) :
    (((s.setFld p Hdr.CTRL_EN e).setFld p Hdr.CTRL_DRAIN d).setFld p Hdr.CTRL_FREEZE f).fld p Hdr.DRAIN_LIMIT_LIMIT =
      s.fld p Hdr.DRAIN_LIMIT_LIMIT := by
  rw [State.fld_setFld_apart _ _ _ _ _ (by decide), State.fld_setFld_apart _ _ _ _ _ (by decide),
    State.fld_setFld_apart _ _ _ _ _ (by decide)]

/-- A page in RUN whose EN goes to 0 (R31). -/
theorem State.ctrlApply_stop (p : Page) (d f : Bool) (h0 : s.st p = 1) (h1 : s.flag p Hdr.CTRL_EN = true) (hp : p.staysRun = false)
    (h : p.instant = true ∨ s.fld p Hdr.DRAIN_LIMIT_LIMIT ≠ 0) :
    (s.ctrlApply p false d f).st p = if p.instant then 0 else 2 := by
  obtain ⟨c0, c1, c2, c3⟩ := s.ctrl_stored p false d f
  have hl := s.limit_ctrl p (b2n false) (b2n d) (b2n f)
  unfold State.ctrlApply
  simp only [h0, h1, hp, show ((1 : Nat) == 2) = false from rfl, Bool.false_and, Bool.false_eq_true, if_false, c3, Bool.not_false, and_self,
    if_true]
  rw [State.drainOn_st]
  · rw [State.flag_goSt _ _ _ _ _ (Or.inl rfl), State.st_goSt _ _ _ (by decide), State.flag_drainTime, c0]
    simp
  · rcases h with h | h
    · exact Or.inl h
    · refine Or.inr (Or.inr ?_)
      rw [State.limit_goSt]
      exact fun e => h (hl ▸ e)

/-- A page in RUN whose DRAIN goes to 1 while no timer runs (R31). -/
theorem State.ctrlApply_drain (p : Page) (f : Bool) (h0 : s.st p = 1) (h1 : s.flag p Hdr.CTRL_EN = true)
    (h2 : s.flag p Hdr.CTRL_DRAIN = false) (hp : p.staysRun = false) (h : s.drainTimer.get p.index = false) :
    (s.ctrlApply p true true f).st p = if p.instant then (if f then 4 else 3) else 2 := by
  obtain ⟨c0, c1, c2, c3⟩ := s.ctrl_stored p true true f
  unfold State.ctrlApply
  simp only [h0, h1, h2, hp, show ((1 : Nat) == 2) = false from rfl, Bool.false_and, Bool.false_eq_true, if_false, c3, Bool.not_true, and_false,
    Bool.not_false, and_self, if_true]
  rw [State.drainOn_st]
  · rw [State.flag_goSt _ _ _ _ _ (Or.inl rfl), State.st_goSt _ _ _ (by decide), c0, State.flag_goSt _ _ _ _ _ (Or.inl rfl), c2]
    rfl
  · refine Or.inr (Or.inl ?_)
    rw [State.goSt_drainTimer]
    exact h

/-- PWR and CLK store every write of CTRL in RUN and stay there. -/
theorem State.ctrlApply_stays (p : Page) (e d f : Bool) (h0 : s.st p = 1) (hp : p.staysRun = true) :
    s.ctrlApply p e d f =
      ((s.setFld p Hdr.CTRL_EN (b2n e)).setFld p Hdr.CTRL_DRAIN (b2n d)).setFld p Hdr.CTRL_FREEZE (b2n f) := by
  obtain ⟨c0, c1, c2, c3⟩ := s.ctrl_stored p e d f
  unfold State.ctrlApply
  simp only [h0, hp, show ((1 : Nat) == 2) = false from rfl, Bool.false_and, Bool.false_eq_true, if_false, c3, if_true]

/-- A page in QUIET whose DRAIN goes to 0 (R31). -/
theorem State.ctrlApply_resume (p : Page) (f : Bool) (h0 : s.st p = 3) (h1 : s.flag p Hdr.CTRL_EN = true)
    (h2 : s.flag p Hdr.CTRL_DRAIN = true) : (s.ctrlApply p true false f).st p = 1 := by
  obtain ⟨c0, c1, c2, c3⟩ := s.ctrl_stored p true false f
  unfold State.ctrlApply
  simp only [h0, h1, h2, show ((3 : Nat) == 2) = false from rfl, Bool.false_and, Bool.false_eq_true, if_false, c3, Bool.not_true, and_false,
    Bool.not_false, and_self, if_true]
  exact State.st_goSt _ _ _ (by decide)

/-- A page in QUIET whose FREEZE is written as 1 (R31). -/
theorem State.ctrlApply_freeze (p : Page) (e d : Bool) (h0 : s.st p = 3) (h1 : s.flag p Hdr.CTRL_EN = e) (h2 : s.flag p Hdr.CTRL_DRAIN = d) :
    (s.ctrlApply p e d true).st p = 4 := by
  obtain ⟨c0, c1, c2, c3⟩ := s.ctrl_stored p e d true
  unfold State.ctrlApply
  have q1 : ¬ (e = true ∧ (!e) = true) := by cases e <;> simp
  have q2 : ¬ (d = true ∧ (!d) = true ∧ e = true) := by cases d <;> simp
  simp only [h0, h1, h2, show ((3 : Nat) == 2) = false from rfl, Bool.false_and, Bool.false_eq_true, if_false, c3, if_neg q1, if_neg q2,
    if_true]
  exact State.st_goSt _ _ _ (by decide)

/-- A page in HALTED whose FREEZE goes to 0 (R31). -/
theorem State.ctrlApply_thaw (p : Page) (e d : Bool) (h0 : s.st p = 4) (h1 : s.flag p Hdr.CTRL_FREEZE = true) :
    (s.ctrlApply p e d false).st p = 3 := by
  obtain ⟨c0, c1, c2, c3⟩ := s.ctrl_stored p (if (s.st p == 2 && s.drainTimer.get p.index) then s.flag p Hdr.CTRL_EN else e)
    (if (s.st p == 2 && s.drainTimer.get p.index) then s.flag p Hdr.CTRL_DRAIN else d) false
  unfold State.ctrlApply
  simp only [h0, h1, Bool.not_false, and_self, if_true] at c3 ⊢
  rw [c3]
  exact State.st_goSt _ _ _ (by decide)

/-! ## Block reset -/

theorem State.setStatus_ctl (p : Page) (n d a : Nat) (h : ctlAddr a) : (s.setStatus p n d).regs.get a = s.regs.get a :=
  (s.setStatus_ctlKept p n d).get a h

/-- A word of the page of which nothing is kept reads as its reset value after the words of the page have been reset. -/
theorem State.resetWords_get (p : Page) (kept : Nat → Nat) (o : Nat) (ho : o < 0x1000) (hk : kept o = 0) :
    (s.resetWords p kept).regs.get (p.base + o) = resetWord (p.base + o) := by
  unfold State.resetWords
  dsimp only
  rw [Sparse.get_setAll_other]
  · rw [Sparse.get_keep]
    have : (p.base ≤ p.base + o ∧ p.base + o < p.base + 0x1000) := by omega
    simp only [this, and_self, decide_true, Bool.not_true, Bool.false_eq_true, if_false]
  · intro c hc
    simp only [List.mem_map, List.mem_filter, Bool.and_eq_true, decide_eq_true_eq, bne_iff_ne] at hc
    obtain ⟨d, ⟨_, ⟨h1, h2⟩, h3⟩, rfl⟩ := hc
    intro e
    apply h3
    have : d.1 - p.base = o := by
      simp only at e
      omega
    rw [this]
    exact hk

/-- After a block reset CTRL reads 0, and the page is in OFF, but for the two that stay in RUN (R31, R32). -/
theorem State.blkReset_ctl (p : Page) (h : p.ok = true) :
    (s.blkReset p).word p 8 = 0 ∧ (s.blkReset p).st p = if p = .pwr ∨ p = .clk then 1 else 0 := by
  have hb := p.base_aligned
  have key (o : Nat) (ho : o = 8 ∨ o = 0xC) : (s.blkReset p).regs.get (p.base + o) = BitVec.ofNat 32 (p.resetAt o) := by
    have hc : ctlAddr (p.base + o) := by
      unfold ctlAddr
      omega
    have hk : p.keptWord o = 0 := by
      rcases ho with rfl | rfl <;> cases p <;> first | rfl | simp [Page.keptWord, Page.keptBits, Hdr.OWNER_CLASS, Etp.MDIO_CMD_BUSY]
    have h1 (u : State) (b : Prop) [Decidable b] : (if b then u else u.raise p 1).regs.get (p.base + o) = u.regs.get (p.base + o) := by
      split
      · rfl
      · exact u.raise_ctl _ _ _ hc
    have h2 (u : State) (b : Prop) [Decidable b] : (if b then u.setPending p else u).regs.get (p.base + o) = u.regs.get (p.base + o) := by
      split
      · exact u.setFld_ctl _ _ _ _ hc (by decide)
      · rfl
    unfold State.blkReset
    dsimp only
    rw [h1, h2, (State.planDone_ctlKept _).get _ hc]
    dsimp only
    rw [(State.poolReset_ctlKept ..).get _ hc]
    rw [State.resetWords_get _ _ _ _ (by omega) hk, resetWord_base p h o (by omega)]
  refine ⟨?_, ?_⟩
  · simp only [State.word, key 8 (Or.inl rfl), p.resetAt_ctrl]
    rfl
  · simp only [State.st, State.fld, State.word, Hdr.STATE_ST, key 0xC (Or.inr rfl), p.resetAt_state]
    split <;> rfl

end

end Sys2Proof.Machine
end

