-- ==== Sys2Proof/Laws/Router.lean ====
section
/-! SUPPORT. Laws of the header registers that act, of the scratchpad, and of what a write of BAR0 reaches (R24, R28, R30, R39, R42, R43). -/
namespace Sys2Proof.Machine

section
variable (s : State)

/-! ## The header -/

/-- ERR_CODE.CLEAR leaves no error held (R30). -/
theorem State.errClear_clears (p : Page) :
    (s.errClear p).fld p Hdr.ERR_CODE_CODE = 0 ∧ (s.errClear p).word p Hdr.ERR_INFO_SRC.off = 0 := by
  unfold State.errClear
  refine ⟨?_, ?_⟩
  · rw [State.fld_setWord_off _ _ _ _ _ (by decide), State.fld_setWord_off _ _ _ _ _ (by decide),
      State.fld_setWord_off _ _ _ _ _ (by decide), State.fld_setFld_same _ _ _ _ (by decide)]
    rfl
  · rw [State.word_setWord_off _ _ _ _ _ (by decide), State.word_setWord_off _ _ _ _ _ (by decide), State.word_setWord_same]

/-- A write of EVT_CLR clears the RAW bits that it names, and no other (R42). -/
theorem State.evtClr_raw (p : Page) (v : Nat) :
    (s.evtClr p v).word p Hdr.EVT_RAW_RAW.off = s.word p Hdr.EVT_RAW_RAW.off &&& ~~~ BitVec.ofNat 32 v := by
  unfold State.evtClr
  dsimp only
  split
  · rw [State.word_setWord_same]
  · rw [State.word_congr (State.pageMessage_regs _ _), State.word_setWord_same]

/-- A write of EVT_ROUTE stores its fields (R42). -/
theorem State.routePut_word (n v : Nat) :
    (s.routePut n v).word .sys (Sys.EVT_ROUTE_VECTOR n).off = BitVec.ofNat 32 v &&& 0xF3F80FF := by
  unfold State.routePut
  dsimp only
  split
  · split
    · rw [State.word_congr (State.pageMessage_regs _ _), State.word_setWord_same]
    · rw [State.word_setWord_same]
  · rw [State.word_setWord_same]

/-- A store with the listed cells of another written over it. -/
theorem Sparse.get_setAll_cells {α : Type} [DecidableEq α] {d : Nat → α} (m : Sparse α d) (l : List (Nat × α)) (lo : Option Nat) (k : Nat)
    (h : cellsOk d lo l) : (m.setAll l).get k = if k ∈ l.map (fun c => c.1) then cellsGet d l k else m.get k := by
  induction l generalizing m lo with
  | nil => rfl
  | cons c t ih =>
    obtain ⟨k', v⟩ := c
    have ht : cellsOk d (some k') t := by
      cases lo with
      | none => exact h.2
      | some l => exact h.2.2
    have hl : ∀ (t : List (Nat × α)) (k' : Nat), cellsOk d (some k') t → ∀ x ∈ t.map (fun c => c.1), k' < x := by
      intro t
      induction t with
      | nil =>
        intro k' _ x hx
        cases hx
      | cons c u ihu =>
        obtain ⟨k2, v2⟩ := c
        intro k' h x hx
        simp only [List.map_cons, List.mem_cons] at hx
        rcases hx with rfl | hx
        · exact h.1
        · exact Nat.lt_trans h.1 (ihu k2 h.2.2 x hx)
    simp only [Sparse.setAll]
    rw [ih _ (some k') ht]
    by_cases hm : k ∈ t.map (fun c => c.1)
    · have hk : k' < k := hl t k' ht k hm
      have hne : ¬ k = k' := by omega
      have hnl : ¬ k < k' := by omega
      simp only [hm, if_true, List.map_cons, List.mem_cons, or_true, cellsGet, hne, hnl, if_false]
    · by_cases he : k = k'
      · subst he
        simp only [hm, if_false, List.map_cons, List.mem_cons, true_or, if_true, cellsGet, Sparse.get_set_same]
      · simp only [hm, if_false, List.map_cons, List.mem_cons, he, or_self, Sparse.get_set_other _ _ _ _ he]

theorem cellsGet_unlisted {α : Type} (d : Nat → α) (l : List (Nat × α)) (k : Nat) (h : k ∉ l.map (fun c => c.1)) : cellsGet d l k = d k := by
  induction l with
  | nil => rfl
  | cons c t ih =>
    obtain ⟨k', v⟩ := c
    simp only [List.map_cons, List.mem_cons, not_or] at h
    simp only [cellsGet, h.1, if_false]
    split
    · rfl
    · exact ih h.2

/-- SNAP copies every counter of its page into the snapshot and leaves the snapshots of the other pages (R28). -/
theorem State.snap_get (p : Page) (k : Nat) :
    (s.snap p).snapshot.get k = if counterPage k = some p then s.counters.get k else s.snapshot.get k := by
  unfold State.snap
  simp only [State.setFld_snapshot]
  have hf : (s.counters.cells.filter (fun c => counterPage c.1 == some p)) = (s.counters.keep (fun a => counterPage a == some p)).cells := rfl
  rw [hf, Sparse.get_setAll_cells _ _ none _ (s.counters.keep (fun a => counterPage a == some p)).ok, Sparse.get_keep]
  have hg : cellsGet (fun _ => 0) (s.counters.keep (fun a => counterPage a == some p)).cells k =
      if counterPage k == some p then s.counters.get k else 0 := s.counters.get_keep (fun a => counterPage a == some p) k
  by_cases hp : counterPage k = some p
  · simp only [hp, beq_self_eq_true, if_true, Bool.not_true, Bool.false_eq_true, if_false]
    by_cases hm : k ∈ (s.counters.keep (fun a => counterPage a == some p)).cells.map (fun c => c.1)
    · rw [if_pos hm, hg, hp]
      simp
    · rw [if_neg hm]
      have := cellsGet_unlisted (fun _ => 0) _ k hm
      rw [hg, hp] at this
      simp only [beq_self_eq_true, if_true] at this
      exact this.symm
  · have hb : (counterPage k == some p) = false := by simpa using hp
    simp only [hb, Bool.not_false, if_true, hp, if_false]
    rw [if_neg]
    intro hm
    simp only [Sparse.keep, List.mem_map, List.mem_filter] at hm
    obtain ⟨c, ⟨_, h2⟩, rfl⟩ := hm
    rw [hb] at h2
    cases h2

/-- OWNER as the trusted processor writes it while LOCKED is 0 (R39). -/
theorem State.ownerWrite_trusted (src : Src) (p : Page) (off v : Nat) (h : s.trustedWrites src p) (hl : s.flag p Hdr.OWNER_LOCKED = false) :
    (s.ownerWrite src p off v).fld p Hdr.OWNER_CLASS = v % 4 ∧
    (s.ownerWrite src p off v).flag p Hdr.OWNER_LOCKED = v.testBit 8 := by
  have e := s.drainFor_regs src
  have hl' : (s.drainFor src).flag p Hdr.OWNER_LOCKED = false := by
    simp only [State.flag, State.fld_congr e]
    exact hl
  have hc : ((s.drainFor src).setFld p Hdr.OWNER_CLASS v).fld p Hdr.OWNER_CLASS = v % 4 := State.fld_setFld_same _ _ _ _ (by decide)
  have hk : ((s.drainFor src).setFld p Hdr.OWNER_CLASS v).flag p Hdr.OWNER_LOCKED = false := by
    simp only [State.flag] at hl' ⊢
    rw [State.fld_setFld_apart _ _ _ _ _ (by decide), hl']
  have key : s.ownerWrite src p off v = if v.testBit 8 then ((s.drainFor src).setFld p Hdr.OWNER_CLASS v).setFld p Hdr.OWNER_LOCKED 1
      else (s.drainFor src).setFld p Hdr.OWNER_CLASS v := by
    unfold State.ownerWrite
    rw [State.arrives_issues _ _ _ h.1]
    dsimp only
    rw [State.pageOn_congr e (s.drainFor_power src) (s.drainFor_rst src), State.actsTrusted_congr e, State.restarting_congr e, h.2.1, h.2.2.1, h.2.2.2, hl']
    rfl
  rw [key]
  split
  · rename_i hv
    refine ⟨?_, ?_⟩
    · rw [State.fld_setFld_apart _ _ _ _ _ (by decide), hc]
    · simp only [State.flag]
      rw [State.fld_setFld_same _ _ _ _ (by decide), hv]
      rfl
  · rename_i hv
    refine ⟨hc, ?_⟩
    rw [hk]
    simpa using hv

/-! ## The scratchpad (R24) -/

/-- Bytes written one after another to the scratchpad, each at its own offset. -/
theorem scratch_fold (m : Mem) (a n : Nat) (l : List Byte) (g : Byte → Byte → Byte) (base j : Nat) (ha : a = 0x2000000 + 0x200000 * n + base)
    (hb : ∀ (m : Mem) (o : Nat) (b : Byte), o < 0x200000 → scratchByte m (0x2000000 + 0x200000 * n + o) b = m.set o (g (m.get o) b))
    (hfit : base + l.length ≤ 0x200000) :
    (((List.range l.length).zip l).foldl (fun m x => scratchByte m (a + x.1) x.2) m).get j =
      if base ≤ j ∧ j < base + l.length then g (m.get j) (l.getD (j - base) 0) else m.get j := by
  have gen (l : List Byte) (m : Mem) (k : Nat) (hk : base + k + l.length ≤ 0x200000) :
      (((List.range' k l.length).zip l).foldl (fun m x => scratchByte m (a + x.1) x.2) m).get j =
        if base + k ≤ j ∧ j < base + k + l.length then g (m.get j) (l.getD (j - (base + k)) 0) else m.get j := by
    induction l generalizing m k with
    | nil =>
      rw [if_neg (by simp only [List.length_nil]; omega)]
      rfl
    | cons b t ih =>
      simp only [List.length_cons] at hk
      simp only [List.length_cons, List.range'_succ, List.zip_cons_cons, List.foldl_cons]
      have e : a + k = 0x2000000 + 0x200000 * n + (base + k) := by omega
      rw [e, hb m (base + k) b (by omega), ih _ (k + 1) (by omega)]
      simp only [Sparse.get_set]
      by_cases h1 : j = base + k
      · subst h1
        rw [if_neg (by omega), if_pos rfl, if_pos (by omega)]
        simp
      · by_cases h2 : base + (k + 1) ≤ j ∧ j < base + (k + 1) + t.length
        · rw [if_pos h2, if_neg h1, if_pos (by omega)]
          have : j - (base + k) = (j - (base + (k + 1))) + 1 := by omega
          rw [this]
          rfl
        · rw [if_neg h2, if_neg h1, if_neg (by omega)]
  have := gen l m 0 (by omega)
  rw [List.range_eq_range']
  simpa using this

/-- Bytes that a master writes to the scratchpad, through the range that stores, sets or clears (R24). -/
theorem State.scratchWrite_get (src : Src) (n base : Nat) (l : List Byte) (j : Nat) (hn : n < 3) (hi : s.issues src = true)
    (h : s.pageOn .scr = true) (hfit : base + l.length ≤ 0x200000) :
    (s.scratchWrite src (0x2000000 + 0x200000 * n + base) l).mem.scratch.get j =
      if base ≤ j ∧ j < base + l.length then
        scratchMix n (s.mem.scratch.get j) (l.getD (j - base) 0)
      else s.mem.scratch.get j := by
  have e := s.drainFor_regs src
  have hm : (s.drainFor src).mem.scratch = s.mem.scratch := by
    unfold State.drainFor
    split
    · simp only [State.drainMp]
      refine State.each_field (fun u => u.mem.scratch) _ _ _ (fun u _ => ?_)
      unfold State.releaseOne
      split <;> rfl
    · rfl
  have key : (s.scratchWrite src (0x2000000 + 0x200000 * n + base) l).mem.scratch =
      ((List.range l.length).zip l).foldl (fun m x => scratchByte m (0x2000000 + 0x200000 * n + base + x.1) x.2) s.mem.scratch := by
    unfold State.scratchWrite
    rw [State.arrives_issues _ _ _ hi]
    dsimp only
    rw [State.pageOn_congr e (s.drainFor_power src) (s.drainFor_rst src), h]
    simp only [if_true, hm]
  rw [key]
  generalize ha : 0x2000000 + 0x200000 * n + base = a
  have hx : ∀ (m : Mem) (o : Nat) (b : Byte), o < 0x200000 →
      scratchByte m (0x2000000 + 0x200000 * n + o) b = m.set o (scratchMix n (m.get o) b) := ?_
  · exact scratch_fold s.mem.scratch a n l (scratchMix n) base j ha.symm hx hfit
  intro m o b ho
  generalize hx : 0x2000000 + 0x200000 * n + o = x
  have e2 : (x - 0x2000000) % 0x200000 = o := by omega
  have h0 : ¬ (x < 0x2000000 ∨ 0x2600000 ≤ x) := by omega
  have h1 : x < 0x2200000 ↔ n = 0 := by omega
  have h2 : x < 0x2400000 ↔ n < 2 := by omega
  simp only [scratchByte, e2, h0, h1, h2, if_false]
  match n, hn with
  | 0, _ => rfl
  | 1, _ => rfl
  | 2, _ => rfl

/-! ## A write of BAR0 -/

/-- What answers at an address of a page (R22, R26). -/
theorem Place.ofAddr_page (p : Page) (h : p.ok = true) (o : Nat) (ho : o < 0x4000) :
    Place.ofAddr (p.base + o) = .page p (o / 0x1000) (o % 0x1000) := by
  have hb := p.base_aligned
  have hl : p.base < 0xF00000 := by
    have hk : p.inst < p.instances := by simpa [Page.ok] using h
    cases p <;> simp only [Page.base, Page.inst, Page.instances] at hk ⊢ <;> omega
  have e1 : (p.base + o) % 0x4000 = o := by omega
  have e2 : (p.base + o) % 0x1000 = o % 0x1000 := by omega
  unfold Place.ofAddr
  rw [if_pos (by omega), p.ofAddr_base h o ho, e1, e2]

theorem leNat_leBytes (n v : Nat) : leNat (leBytes n v) = v % 256 ^ n := by
  induction n generalizing v with
  | zero => simp [leBytes, leNat, Nat.mod_one]
  | succ n ih =>
    simp only [leBytes, leNat, ih, BitVec.toNat_ofNat]
    show v % 256 + 256 * (v / 256 % 256 ^ n) = v % 256 ^ (n + 1)
    rw [Nat.pow_succ', Nat.mod_mul]

@[simp] theorem leBytes_length (n v : Nat) : (leBytes n v).length = n := by
  induction n generalizing v with
  | zero => rfl
  | succ n ih => simp [leBytes, ih]

theorem Page.spec_limit (p : Page) :
    p.spec 0x44 = some ⟨0x44, 4, 1, 0xFFFFFF, 0x0, 0x0, 0x0, 0x0, 0x0, 0x0, false, 0x3E8⟩ := rfl

theorem Page.tabOff_limit (p : Page) : p.tabOff ≠ some 0x44 := by
  cases p <;> simp [Page.tabOff]

/-- An owner's write of DRAIN_LIMIT is stored (R29). -/
theorem State.limit_write (src : Src) (p : Page) (v : Nat) (h : p.ok = true) (h1 : p ≠ .clsp) (h2 : p ≠ .brg) (h3 : p ≠ .fab)
    (ho : s.ownerWrites src p) :
    s.registerWrite src .bar0 (p.base + 0x44) (leBytes 4 v) = (s.drainFor src).setFld p Hdr.DRAIN_LIMIT_LIMIT (v % 256 ^ 4) := by
  have hb := p.base_aligned
  have hl : p.base < 0xF00000 := by
    have hk : p.inst < p.instances := by simpa [Page.ok] using h
    cases p <;> simp only [Page.base, Page.inst, Page.instances] at hk ⊢ <;> omega
  have hs : scratchAddr (p.base + 0x44) = false := by
    unfold scratchAddr
    simp only [decide_eq_false_iff_not]
    omega
  have hop : p.openReg 0x44 = false := by
    cases p <;> first | rfl | decide
  show s.bar0Write src (p.base + 0x44) (leBytes 4 v) = _
  unfold State.bar0Write
  rw [hs, if_neg (by decide), if_pos ⟨by simp, by omega⟩, leNat_leBytes]
  unfold State.wordWrite
  rw [Place.ofAddr_page p h 0x44 (by decide)]
  simp only
  unfold State.pageWrite
  simp only [show (0x44 : Nat) / 0x1000 = 0 from rfl, show (0x44 : Nat) % 0x1000 = 0x44 from rfl]
  rw [if_neg (by decide), if_neg (by decide), if_neg (by decide), if_neg (by decide), if_neg p.tabOff_limit, p.spec_limit]
  simp only [Bool.false_eq_true, if_false, hop]
  rw [if_neg (fun x => absurd x.2 (by decide)), s.guard_owner src p _ _ ho]
  rw [if_neg (fun x => x.1 rfl), if_neg (by simp [h1, h2, h3])]
  rfl

end

end Sys2Proof.Machine
end

