-- ==== Sys2Proof/Laws/Commit.lean ====
section
/-! SUPPORT. Laws of shadow writes, of tables, and of commits (R35, R37, R112, R172). -/
namespace Sys2Proof.Machine

section
variable (s : State)

theorem State.checking_congr {s t : State} (h : t.regs = s.regs) (p : Page) : t.checking p = s.checking p := by
  simp only [State.checking, State.status, State.fld_congr h]

theorem State.standbyShut_congr {s t : State} (h : t.regs = s.regs) (p : Page) : t.standbyShut p = s.standbyShut p := by
  have h1 : t.flag .cls Cls.BANK_STATUS_CLONE_BUSY = s.flag .cls Cls.BANK_STATUS_CLONE_BUSY := by simp only [State.flag, State.fld_congr h]
  have h2 : t.recircCount (1 - t.activeBank) = s.recircCount (1 - s.activeBank) := by
    rw [show t.activeBank = s.activeBank from State.fld_congr h _ _]
    exact State.fld_congr h _ _
  unfold State.standbyShut
  rw [h1, h2, State.checking_congr h, State.checking_congr h]

theorem State.joins_congr {s t : State} (h : t.regs = s.regs) (hp : t.power = s.power) (hr : t.rst = s.rst) (src : Src) (p : Page) :
    t.joins src p = s.joins src p := by
  simp only [State.joins, State.pageOn_congr h hp hr, State.flag, State.ownerClass, State.fld_congr h]

theorem State.cloning_congr {s t : State} (h : t.regs = s.regs) (p : Page) : t.cloning p = s.cloning p := by
  unfold State.cloning
  split <;> simp only [State.flag, State.fld_congr h]

theorem State.status_congr {s t : State} (h : t.regs = s.regs) (p : Page) : t.status p = s.status p := State.fld_congr h p _

theorem State.pending_setPending (p : Page) : (s.setPending p).flag p Hdr.COMMIT_STATUS_PENDING = true := by
  simp only [State.setPending, State.flag]
  rw [State.fld_setFld_same _ _ _ _ (by decide)]
  rfl

/-- A page that takes part in no rule bank: its shadow register takes the bits that have a shadow copy, and the page is PENDING (R35). -/
theorem State.shadowPut_store (src : Src) (p : Page) (off v : Nat) (ho : 0x800 ≤ off) (ho2 : off < 0xF00) (ht : p.tabOff ≠ some (off - 0x700))
    (hm : p.shadowBits (off - 0x700) ≠ 0)
    (hc : if p = .cls ∨ p = .prs then s.standbyShut p = none else s.checking p = false) :
    (s.shadowPut src p off v).word p off = mixWord (s.word p off) (BitVec.ofNat 32 v) (p.shadowBits (off - 0x700)) ∧
    (s.shadowPut src p off v).flag p Hdr.COMMIT_STATUS_PENDING = true := by
  have hne : off ≠ Hdr.COMMIT_STATUS_PENDING.off := by
    simp only [Hdr.COMMIT_STATUS_PENDING]
    omega
  have e (u : State) : (u.setPending p).word p off = u.word p off := State.word_setFld_off _ _ _ _ _ hne
  unfold State.shadowPut
  rw [if_neg ht]
  dsimp only
  rw [if_neg hm]
  by_cases hp : p = .cls ∨ p = .prs
  · rw [if_pos hp] at hc ⊢
    simp only [hc]
    have hx : ((s.setWord p off (mixWord (s.word p off) (BitVec.ofNat 32 v) (p.shadowBits (off - 0x700)))).setPending p |>.setPending
        .cls).word p off = mixWord (s.word p off) (BitVec.ofNat 32 v) (p.shadowBits (off - 0x700)) := by
      have hb := p.base_aligned
      unfold State.setPending
      rw [State.word_setFld_addr]
      · rw [← State.setPending, e, State.word_setWord_same]
      · rcases hp with rfl | rfl
        · exact fun h => hne (Nat.add_left_cancel h)
        · simp only [Page.base, Hdr.COMMIT_STATUS_PENDING]
          omega
    refine ⟨hx, ?_⟩
    rcases hp with rfl | rfl
    · exact State.pending_setPending _ _
    · simp only [State.flag]
      rw [State.setPending, State.fld_setFld_addr _ _ _ _ _ _ (by decide)]
      exact State.pending_setPending _ _
  · rw [if_neg hp] at hc ⊢
    rw [hc]
    simp only [Bool.false_eq_true, if_false]
    exact ⟨by rw [e, State.word_setWord_same], State.pending_setPending _ _⟩

@[simp] theorem State.tabAdvance_tabs (p : Page) : (s.tabAdvance p).tabs = s.tabs ∧ (s.tabAdvance p).tabsShadow = s.tabsShadow ∧
    (s.tabAdvance p).out = s.out := by
  unfold State.tabAdvance
  dsimp only
  repeat' split
  all_goals exact ⟨rfl, rfl, rfl⟩

/-- A write of TAB_DATA's shadow address stores the word that TAB_ADDR selects in the shadow view of its table (R35, R172). -/
theorem State.tabWrite_shadow (src : Src) (p : Page) (v n width : Nat) (h : p.table (s.tabAt p).1 = some (n, width, .shadowed))
    (he : (s.tabAt p).2.1 < n) (hw : (s.tabAt p).2.2 < width) (hc : s.checking p = false)
    (ha : p = .asy → s.plan = none) :
    (s.tabWrite src p true v).tabSh p (s.tabAt p).1 (s.tabAt p).2.1 (s.tabAt p).2.2 =
      BitVec.ofNat 32 v &&& BitVec.ofNat 32 (p.tabMask (s.tabAt p).1 (s.tabAt p).2.2) := by
  unfold State.tabWrite
  simp only [State.tabSh, (State.tabAdvance_tabs _ _).2.1]
  unfold State.tabPut
  generalize s.tabAt p = z at h he hw ⊢
  obtain ⟨t, e, w⟩ := z
  replace h : p.table t = some (n, width, .shadowed) := h
  replace he : e < n := he
  replace hw : w < width := hw
  simp only [h]
  rw [if_neg (by
    rintro (x | ⟨x, y⟩)
    · rw [hc] at x
      cases x
    · rw [ha x] at y
      cases y), if_neg (by omega), State.setPending, State.setFld_tabsShadow]
  simp only [State.setTabSh_tabsShadow, Sparse.get_set_same]

/-- ABANDON of a page outside CHECKING leaves it IDLE (R37). -/
theorem State.keepView_idle (p : Page) : (s.keepView p).status p = 0 ∧ (s.keepView p).flag p Hdr.COMMIT_STATUS_PENDING = false := by
  have h1 : (((s.keepRegs p).keepTabs p).setFld p Hdr.COMMIT_STATUS_PENDING 0).flag p Hdr.COMMIT_STATUS_PENDING = false := by
    simp only [State.flag]
    rw [State.fld_setFld_same _ _ _ _ (by decide)]
    rfl
  refine ⟨State.status_setStatus _ _ _ _ (by decide), ?_⟩
  have key (u : State) (h : u.flag p Hdr.COMMIT_STATUS_PENDING = false) : (u.setStatus p 0 0).flag p Hdr.COMMIT_STATUS_PENDING = false := by
    have hz : ((u.setFld p Hdr.COMMIT_STATUS_STATUS 0).setFld p Hdr.COMMIT_STATUS_DETAIL 0).flag p Hdr.COMMIT_STATUS_PENDING = false := by
      simp only [State.flag] at h ⊢
      rw [State.fld_setFld_apart _ _ _ _ _ (by decide), State.fld_setFld_apart _ _ _ _ _ (by decide), h]
    unfold State.setStatus
    dsimp only
    split
    · simp only [State.flag] at hz ⊢
      rw [State.fld_raise_off _ _ _ _ (by decide), hz]
    · exact hz
  exact key _ h1

theorem State.status_accept (p : Page) (g : Nat) : (s.accept p g).status p = 2 := State.status_setStatus _ _ _ _ (by decide)

@[simp] theorem State.accept_plan (p : Page) (g : Nat) : (s.accept p g).plan = s.plan := by
  simp only [State.accept, State.setStatus_plan, State.setFld_plan]

@[simp] theorem State.digestHold_plan : s.digestHold.plan = s.plan := by unfold State.digestHold; split <;> rfl

/-- The boundary of a page ends the plan's wait for it (R112). -/
theorem State.arrive_awaits (p : Page) : (s.arrive p).awaits p = false := by
  unfold State.arrive State.planDone
  dsimp only
  cases hs : s.plan with
  | none => simp [State.awaits]
  | some c =>
    simp only [Option.map_some]
    split
    · have hp (u : State) : (u.each c.included (fun s p => s.accept p c.gen)).plan = u.plan :=
        State.each_field (fun u => u.plan) _ _ _ (fun u x => u.accept_plan x c.gen)
      unfold State.awaits
      simp only [State.raise_plan, State.digestHold_plan]
      split
      · rename_i c' hc'
        exfalso
        split at hc'
        · simp only [State.setStatus_plan, hp] at hc'
          cases hc'
        · simp only [hp] at hc'
          cases hc'
      · rfl
    · simp [State.awaits]

/-- A REQUEST on a timing page while no plan commit is under way starts one (R37). -/
theorem State.planRequest_starts (src : Src) (p : Page) (hp : p ≠ .cls) (hj : s.joins src .cls = false) :
    ∃ c, (s.planRequest src p).plan = some c ∧ c.requester = p ∧ c.passed = false := by
  unfold State.planRequest
  dsimp only
  rw [if_neg]
  · exact ⟨_, rfl, rfl, rfl⟩
  · intro ⟨h, _⟩
    split at h
    · simp at h
    · simp only [List.contains_iff_mem, List.mem_filter] at h
      have h2 := h.2
      rw [if_neg (fun e => hp e.symm), hj] at h2
      cases h2

/-- A REQUEST on a page of CAPS.TIMING = 0 whose fields are in range: it waits CHECKING for its boundary (R36, R37). -/
theorem State.ownRequest_waits (src : Src) (p : Page) (hc : s.checking p = false) (hr : s.ownRefusal p = none) (h0 : s.st p ≠ 0)
    (hb : (p.shadowed.isEmpty && p.shadowTables.isEmpty) = false) :
    (s.ownRequest src p).status p = 1 ∧ p ∈ (s.ownRequest src p).applying := by
  have hst : (s.setStatus p 1 0).st p = s.st p := by
    have hb := p.base_aligned
    simp only [State.st, State.fld, State.word]
    rw [State.setStatus_ctl _ _ _ _ _ (by simp only [ctlAddr, Hdr.STATE_ST]; omega)]
  unfold State.ownRequest
  rw [hc]
  simp only [Bool.false_eq_true, if_false, hr]
  have h0' : (s.setStatus p 1 0).st p ≠ 0 := fun h => h0 (hst ▸ h)
  rw [if_neg (fun h => h0' h.2), if_neg]
  · exact ⟨State.status_setStatus s p 1 0 (by decide), by simp⟩
  · rintro ⟨_, _, h | h⟩
    · exact h0' h
    · rw [hb] at h
      cases h

/-- A check that the Assayer refuses, and a verify, raise their events (R37, R221). -/
theorem State.refusePlan_evt (c : Plan) (r : Refuse) : (s.refusePlan c r).evt .asy (if c.verify then 11 else 9) = true := by
  unfold State.refusePlan
  dsimp only
  split
  · exact State.evt_raise _ _ _ (by decide)
  · exact State.evt_raise _ _ _ (by decide)

/-- A list that is not empty: what holds after every change of its last element holds after all. -/
theorem State.each_last {α : Type} (l : List α) (f : State → α → State) (P : State → Prop) (h : ∀ u x, P (f u x)) (hl : l ≠ []) :
    P (s.each l f) := by
  show P (l.foldl f s)
  induction l generalizing s with
  | nil => exact absurd rfl hl
  | cons a t ih =>
    cases t with
    | nil => exact h s a
    | cons b u => exact ih (f s a) (by simp)

end

end Sys2Proof.Machine
end

