-- ==== Sys2Proof/Laws/Reads.lean ====
section
/-! SUPPORT. What a field of a register, an event or a counter reads as after an update that does not write it: one lemma per kind of update,
with a side condition on offsets alone, which holds whatever the pages are. -/
namespace Sys2Proof.Machine

section
variable (s : State)

/-- Two offsets in pages that no two pages bring to one address. -/
def apartOff (a b : Nat) : Bool := a % 0x4000 != b % 0x4000

theorem Page.apart_base (p q : Page) (a b : Nat) (h : apartOff a b = true) : p.base + a ≠ q.base + b := by
  have h1 := p.base_aligned
  have h2 := q.base_aligned
  have h3 : a % 0x4000 ≠ b % 0x4000 := by simpa [apartOff] using h
  omega

theorem State.word_setWord_apart (p q : Page) (o k : Nat) (w : Word) (h : apartOff k o = true) : (s.setWord p o w).word q k = s.word q k :=
  s.word_setWord_addr p q o k w (Page.apart_base q p k o h)
theorem State.fld_setWord_apart (p q : Page) (o : Nat) (g : Fld) (w : Word) (h : apartOff g.off o = true) :
    (s.setWord p o w).fld q g = s.fld q g :=
  s.fld_setWord_addr p q o g w (Page.apart_base q p g.off o h)
theorem State.word_setFld_apart (p q : Page) (f : Fld) (v k : Nat) (h : apartOff k f.off = true) : (s.setFld p f v).word q k = s.word q k :=
  s.word_setFld_addr p q f v k (Page.apart_base q p k f.off h)
theorem State.fld_setFld_else (p q : Page) (f g : Fld) (v : Nat) (h : apartOff g.off f.off = true) :
    (s.setFld p f v).fld q g = s.fld q g :=
  s.fld_setFld_addr p q f g v (Page.apart_base q p g.off f.off h)
theorem State.word_raise_apart (p q : Page) (b k : Nat) (h : apartOff k 0x20 = true) : (s.raise p b).word q k = s.word q k :=
  s.word_raise_addr p q b k (Page.apart_base q p k _ h)
theorem State.fld_raise_apart (p q : Page) (b : Nat) (g : Fld) (h : apartOff g.off 0x20 = true) : (s.raise p b).fld q g = s.fld q g :=
  s.fld_raise_addr p q b g (Page.apart_base q p g.off _ h)
theorem State.evt_setFld_apart (p q : Page) (f : Fld) (v b : Nat) (h : apartOff 0x20 f.off = true) : (s.setFld p f v).evt q b = s.evt q b := by
  unfold State.evt
  rw [s.word_setFld_apart p q f v Hdr.EVT_RAW_RAW.off h]
theorem State.evt_setWord_apart (p q : Page) (o : Nat) (w : Word) (b : Nat) (h : apartOff 0x20 o = true) :
    (s.setWord p o w).evt q b = s.evt q b := by
  unfold State.evt
  rw [s.word_setWord_apart p q o Hdr.EVT_RAW_RAW.off w h]

/-- A field set to a value that it holds reads as the value. -/
theorem State.fld_setFld_val (p : Page) (f : Fld) (v : Nat) (h : f.lsb + f.width ≤ 32 ∧ v < 2 ^ f.width) : (s.setFld p f v).fld p f = v := by
  rw [s.fld_setFld_same p f v h.1, Nat.mod_eq_of_lt h.2]

/-- An offset of none of the words of a header that an error writes. -/
def offErr (o : Nat) : Bool := apartOff o 0x20 && apartOff o 0x30 && apartOff o 0x34 && apartOff o 0x38 && apartOff o 0x3C

theorem State.fld_eccNote (p q : Page) (c : Nat) (g : Fld) : (s.eccNote p c).fld q g = s.fld q g := State.fld_congr (s.eccNote_regs p c) q g

theorem State.fld_logErr_apart (p q : Page) (c r d e : Nat) (g : Fld) (h : offErr g.off = true) : (s.logErr p c r d e).fld q g = s.fld q g := by
  simp only [offErr, Bool.and_eq_true] at h
  obtain ⟨⟨⟨⟨h1, h2⟩, h3⟩, h4⟩, h5⟩ := h
  unfold State.logErr
  dsimp only
  split
  · rw [State.fld_raise_apart _ _ _ _ _ h1, State.fld_setWord_apart _ _ _ Hdr.ERR_ADDR_HI_ADDR.off _ _ h5, State.fld_setWord_apart _ _ _ Hdr.ERR_ADDR_LO_ADDR.off _ _ h4,
      State.fld_setFld_else _ _ _ Hdr.ERR_INFO_DETAIL _ _ h3, State.fld_setFld_else _ _ _ Hdr.ERR_INFO_SRC _ _ h3,
      State.fld_setFld_else _ _ _ Hdr.ERR_CODE_CODE _ _ h2, State.fld_eccNote]
  · rw [State.fld_setFld_else _ _ _ Hdr.ERR_INFO_COUNT _ _ h3, State.fld_eccNote]

/-- After an error the page holds one, where its code is not 0 modulo 256. -/
theorem State.logErr_held (p : Page) (c r d e : Nat) (h : c % 256 ≠ 0) : (s.logErr p c r d e).fld p Hdr.ERR_CODE_CODE ≠ 0 := by
  by_cases h0 : s.fld p Hdr.ERR_CODE_CODE = 0
  · rw [(s.logErr_first p c r d e h0).1]
    exact h
  · rw [State.fld_congr (s.logErr_later p c r d e h0), State.fld_setFld_apart _ _ _ _ _ (by decide)]
    exact h0

theorem State.evt_logErr_first (p : Page) (c r d e : Nat) (h : s.fld p Hdr.ERR_CODE_CODE = 0) : (s.logErr p c r d e).evt p 0 = true :=
  (s.logErr_first p c r d e h).2.2.2.2.2
theorem State.code_logErr_first (p : Page) (c r d e : Nat) (h : s.fld p Hdr.ERR_CODE_CODE = 0) (hc : c < 256) :
    (s.logErr p c r d e).fld p Hdr.ERR_CODE_CODE = c := by
  rw [(s.logErr_first p c r d e h).1, Nat.mod_eq_of_lt hc]

theorem State.fld_ite (c : Prop) [Decidable c] (a b : State) (p : Page) (f : Fld) :
    (if c then a else b).fld p f = if c then a.fld p f else b.fld p f := by split <;> rfl
theorem State.word_ite (c : Prop) [Decidable c] (a b : State) (p : Page) (o : Nat) :
    (if c then a else b).word p o = if c then a.word p o else b.word p o := by split <;> rfl
theorem State.evt_ite (c : Prop) [Decidable c] (a b : State) (p : Page) (o : Nat) :
    (if c then a else b).evt p o = if c then a.evt p o else b.evt p o := by split <;> rfl
theorem State.dp_ite (c : Prop) [Decidable c] (a b : State) : (if c then a else b).dp = if c then a.dp else b.dp := by split <;> rfl
theorem State.cnt_bump_else (p q : Page) (o k n : Nat) (h : apartOff k o = true) : (s.bump p o n).cnt q k = s.cnt q k := by
  simp only [State.cnt, State.bump_counters, Sparse.modify, Sparse.get_set, if_neg (Page.apart_base q p k o h)]

@[simp] theorem State.word_setTab (p : Page) (t e k : Nat) (w : Word) (q : Page) (o : Nat) : (s.setTab p t e k w).word q o = s.word q o := State.word_congr (s.setTab_regs _ _ _ _ _) q o
@[simp] theorem State.fld_setTab (p : Page) (t e k : Nat) (w : Word) (q : Page) (f : Fld) : (s.setTab p t e k w).fld q f = s.fld q f := State.fld_congr (s.setTab_regs _ _ _ _ _) q f
@[simp] theorem State.evt_setTab (p : Page) (t e k : Nat) (w : Word) (q : Page) (o : Nat) : (s.setTab p t e k w).evt q o = s.evt q o := by
  unfold State.evt
  rw [State.word_setTab]
@[simp] theorem State.word_setTabF (p : Page) (t e k hi lo v : Nat) (q : Page) (o : Nat) : (s.setTabF p t e k hi lo v).word q o = s.word q o := State.word_congr (s.setTabF_regs _ _ _ _ _ _ _) q o
@[simp] theorem State.fld_setTabF (p : Page) (t e k hi lo v : Nat) (q : Page) (f : Fld) : (s.setTabF p t e k hi lo v).fld q f = s.fld q f := State.fld_congr (s.setTabF_regs _ _ _ _ _ _ _) q f
@[simp] theorem State.evt_setTabF (p : Page) (t e k hi lo v : Nat) (q : Page) (o : Nat) : (s.setTabF p t e k hi lo v).evt q o = s.evt q o := by
  unfold State.evt
  rw [State.word_setTabF]
@[simp] theorem State.word_setTabSh (p : Page) (t e k : Nat) (w : Word) (q : Page) (o : Nat) : (s.setTabSh p t e k w).word q o = s.word q o := State.word_congr (s.setTabSh_regs _ _ _ _ _) q o
@[simp] theorem State.fld_setTabSh (p : Page) (t e k : Nat) (w : Word) (q : Page) (f : Fld) : (s.setTabSh p t e k w).fld q f = s.fld q f := State.fld_congr (s.setTabSh_regs _ _ _ _ _) q f
@[simp] theorem State.evt_setTabSh (p : Page) (t e k : Nat) (w : Word) (q : Page) (o : Nat) : (s.setTabSh p t e k w).evt q o = s.evt q o := by
  unfold State.evt
  rw [State.word_setTabSh]
@[simp] theorem State.word_bump (p : Page) (off n : Nat) (q : Page) (o : Nat) : (s.bump p off n).word q o = s.word q o := State.word_congr (s.bump_regs _ _ _) q o
@[simp] theorem State.fld_bump (p : Page) (off n : Nat) (q : Page) (f : Fld) : (s.bump p off n).fld q f = s.fld q f := State.fld_congr (s.bump_regs _ _ _) q f
@[simp] theorem State.evt_bump (p : Page) (off n : Nat) (q : Page) (o : Nat) : (s.bump p off n).evt q o = s.evt q o := by
  unfold State.evt
  rw [State.word_bump]
@[simp] theorem State.word_bumpTab (p : Page) (t e k n : Nat) (q : Page) (o : Nat) : (s.bumpTab p t e k n).word q o = s.word q o := State.word_congr (s.bumpTab_regs _ _ _ _ _) q o
@[simp] theorem State.fld_bumpTab (p : Page) (t e k n : Nat) (q : Page) (f : Fld) : (s.bumpTab p t e k n).fld q f = s.fld q f := State.fld_congr (s.bumpTab_regs _ _ _ _ _) q f
@[simp] theorem State.evt_bumpTab (p : Page) (t e k n : Nat) (q : Page) (o : Nat) : (s.bumpTab p t e k n).evt q o = s.evt q o := by
  unfold State.evt
  rw [State.word_bumpTab]
@[simp] theorem State.word_blow (i : Nat) (q : Page) (o : Nat) : (s.blow i).word q o = s.word q o := State.word_congr (s.blow_regs _) q o
@[simp] theorem State.fld_blow (i : Nat) (q : Page) (f : Fld) : (s.blow i).fld q f = s.fld q f := State.fld_congr (s.blow_regs _) q f
@[simp] theorem State.evt_blow (i : Nat) (q : Page) (o : Nat) : (s.blow i).evt q o = s.evt q o := by
  unfold State.evt
  rw [State.word_blow]
@[simp] theorem State.word_emit (o' : Output) (q : Page) (o : Nat) : (s.emit o').word q o = s.word q o := State.word_congr (s.emit_regs _) q o
@[simp] theorem State.fld_emit (o' : Output) (q : Page) (f : Fld) : (s.emit o').fld q f = s.fld q f := State.fld_congr (s.emit_regs _) q f
@[simp] theorem State.evt_emit (o' : Output) (q : Page) (o : Nat) : (s.emit o').evt q o = s.evt q o := by
  unfold State.evt
  rw [State.word_emit]
@[simp] theorem State.word_mapProcs (f' : Procs → Procs) (q : Page) (o : Nat) : (s.mapProcs f').word q o = s.word q o := State.word_congr (s.mapProcs_regs _) q o
@[simp] theorem State.fld_mapProcs (f' : Procs → Procs) (q : Page) (f : Fld) : (s.mapProcs f').fld q f = s.fld q f := State.fld_congr (s.mapProcs_regs _) q f
@[simp] theorem State.evt_mapProcs (f' : Procs → Procs) (q : Page) (o : Nat) : (s.mapProcs f').evt q o = s.evt q o := by
  unfold State.evt
  rw [State.word_mapProcs]
@[simp] theorem State.word_mapMsram (f' : Mem → Mem) (q : Page) (o : Nat) : (s.mapMsram f').word q o = s.word q o := State.word_congr (s.mapMsram_regs _) q o
@[simp] theorem State.fld_mapMsram (f' : Mem → Mem) (q : Page) (f : Fld) : (s.mapMsram f').fld q f = s.fld q f := State.fld_congr (s.mapMsram_regs _) q f
@[simp] theorem State.evt_mapMsram (f' : Mem → Mem) (q : Page) (o : Nat) : (s.mapMsram f').evt q o = s.evt q o := by
  unfold State.evt
  rw [State.word_mapMsram]
@[simp] theorem State.word_drainTime (p : Page) (on : Bool) (q : Page) (o : Nat) : (s.drainTime p on).word q o = s.word q o := State.word_congr (s.drainTime_regs _ _) q o
@[simp] theorem State.fld_drainTime (p : Page) (on : Bool) (q : Page) (f : Fld) : (s.drainTime p on).fld q f = s.fld q f := State.fld_congr (s.drainTime_regs _ _) q f
@[simp] theorem State.evt_drainTime (p : Page) (on : Bool) (q : Page) (o : Nat) : (s.drainTime p on).evt q o = s.evt q o := by
  unfold State.evt
  rw [State.word_drainTime]
@[simp] theorem State.word_setWin (m : Mem) (q : Page) (o : Nat) : (s.setWin m).word q o = s.word q o := State.word_congr (s.setWin_regs _) q o
@[simp] theorem State.fld_setWin (m : Mem) (q : Page) (f : Fld) : (s.setWin m).fld q f = s.fld q f := State.fld_congr (s.setWin_regs _) q f
@[simp] theorem State.evt_setWin (m : Mem) (q : Page) (o : Nat) : (s.setWin m).evt q o = s.evt q o := by
  unfold State.evt
  rw [State.word_setWin]
@[simp] theorem State.word_mapTdm (n : Nat) (f' : TdmLink → TdmLink) (q : Page) (o : Nat) : (s.mapTdm n f').word q o = s.word q o := State.word_congr (s.mapTdm_regs _ _) q o
@[simp] theorem State.fld_mapTdm (n : Nat) (f' : TdmLink → TdmLink) (q : Page) (f : Fld) : (s.mapTdm n f').fld q f = s.fld q f := State.fld_congr (s.mapTdm_regs _ _) q f
@[simp] theorem State.evt_mapTdm (n : Nat) (f' : TdmLink → TdmLink) (q : Page) (o : Nat) : (s.mapTdm n f').evt q o = s.evt q o := by
  unfold State.evt
  rw [State.word_mapTdm]
@[simp] theorem State.word_mapTsi (f' : TsiState → TsiState) (q : Page) (o : Nat) : (s.mapTsi f').word q o = s.word q o := State.word_congr (s.mapTsi_regs _) q o
@[simp] theorem State.fld_mapTsi (f' : TsiState → TsiState) (q : Page) (f : Fld) : (s.mapTsi f').fld q f = s.fld q f := State.fld_congr (s.mapTsi_regs _) q f
@[simp] theorem State.evt_mapTsi (f' : TsiState → TsiState) (q : Page) (o : Nat) : (s.mapTsi f').evt q o = s.evt q o := by
  unfold State.evt
  rw [State.word_mapTsi]
@[simp] theorem State.word_mapBridge (f' : Bridge → Bridge) (q : Page) (o : Nat) : (s.mapBridge f').word q o = s.word q o := State.word_congr (s.mapBridge_regs _) q o
@[simp] theorem State.fld_mapBridge (f' : Bridge → Bridge) (q : Page) (f : Fld) : (s.mapBridge f').fld q f = s.fld q f := State.fld_congr (s.mapBridge_regs _) q f
@[simp] theorem State.evt_mapBridge (f' : Bridge → Bridge) (q : Page) (o : Nat) : (s.mapBridge f').evt q o = s.evt q o := by
  unfold State.evt
  rw [State.word_mapBridge]
@[simp] theorem State.word_mapFrer (n : Nat) (f' : FrerFn → FrerFn) (q : Page) (o : Nat) : (s.mapFrer n f').word q o = s.word q o := State.word_congr (s.mapFrer_regs _ _) q o
@[simp] theorem State.fld_mapFrer (n : Nat) (f' : FrerFn → FrerFn) (q : Page) (f : Fld) : (s.mapFrer n f').fld q f = s.fld q f := State.fld_congr (s.mapFrer_regs _ _) q f
@[simp] theorem State.evt_mapFrer (n : Nat) (f' : FrerFn → FrerFn) (q : Page) (o : Nat) : (s.mapFrer n f').evt q o = s.evt q o := by
  unfold State.evt
  rw [State.word_mapFrer]
@[simp] theorem State.word_mapSec (f' : Sec → Sec) (q : Page) (o : Nat) : (s.mapSec f').word q o = s.word q o := State.word_congr (s.mapSec_regs _) q o
@[simp] theorem State.fld_mapSec (f' : Sec → Sec) (q : Page) (f : Fld) : (s.mapSec f').fld q f = s.fld q f := State.fld_congr (s.mapSec_regs _) q f
@[simp] theorem State.evt_mapSec (f' : Sec → Sec) (q : Page) (o : Nat) : (s.mapSec f').evt q o = s.evt q o := by
  unfold State.evt
  rw [State.word_mapSec]
@[simp] theorem State.word_mapCip (n : Nat) (f' : CipPage → CipPage) (q : Page) (o : Nat) : (s.mapCip n f').word q o = s.word q o := State.word_congr (s.mapCip_regs _ _) q o
@[simp] theorem State.fld_mapCip (n : Nat) (f' : CipPage → CipPage) (q : Page) (f : Fld) : (s.mapCip n f').fld q f = s.fld q f := State.fld_congr (s.mapCip_regs _ _) q f
@[simp] theorem State.evt_mapCip (n : Nat) (f' : CipPage → CipPage) (q : Page) (o : Nat) : (s.mapCip n f').evt q o = s.evt q o := by
  unfold State.evt
  rw [State.word_mapCip]
@[simp] theorem State.word_setSlot (i : Nat) (k : Slot) (q : Page) (o : Nat) : (s.setSlot i k).word q o = s.word q o := State.word_congr (s.setSlot_regs _ _) q o
@[simp] theorem State.fld_setSlot (i : Nat) (k : Slot) (q : Page) (f : Fld) : (s.setSlot i k).fld q f = s.fld q f := State.fld_congr (s.setSlot_regs _ _) q f
@[simp] theorem State.evt_setSlot (i : Nat) (k : Slot) (q : Page) (o : Nat) : (s.setSlot i k).evt q o = s.evt q o := by
  unfold State.evt
  rw [State.word_setSlot]
@[simp] theorem State.word_mapDp (f' : DataPath → DataPath) (q : Page) (o : Nat) : (s.mapDp f').word q o = s.word q o := State.word_congr (s.mapDp_regs _) q o
@[simp] theorem State.fld_mapDp (f' : DataPath → DataPath) (q : Page) (f : Fld) : (s.mapDp f').fld q f = s.fld q f := State.fld_congr (s.mapDp_regs _) q f
@[simp] theorem State.evt_mapDp (f' : DataPath → DataPath) (q : Page) (o : Nat) : (s.mapDp f').evt q o = s.evt q o := by
  unfold State.evt
  rw [State.word_mapDp]
@[simp] theorem State.word_mapHost (f' : Mem → Mem) (q : Page) (o : Nat) : (s.mapHost f').word q o = s.word q o := State.word_congr (s.mapHost_regs _) q o
@[simp] theorem State.fld_mapHost (f' : Mem → Mem) (q : Page) (f : Fld) : (s.mapHost f').fld q f = s.fld q f := State.fld_congr (s.mapHost_regs _) q f
@[simp] theorem State.evt_mapHost (f' : Mem → Mem) (q : Page) (o : Nat) : (s.mapHost f').evt q o = s.evt q o := by
  unfold State.evt
  rw [State.word_mapHost]
@[simp] theorem State.word_mapCan (n : Nat) (f' : CanCh → CanCh) (q : Page) (o : Nat) : (s.mapCan n f').word q o = s.word q o := State.word_congr (s.mapCan_regs _ _) q o
@[simp] theorem State.fld_mapCan (n : Nat) (f' : CanCh → CanCh) (q : Page) (f : Fld) : (s.mapCan n f').fld q f = s.fld q f := State.fld_congr (s.mapCan_regs _ _) q f
@[simp] theorem State.evt_mapCan (n : Nat) (f' : CanCh → CanCh) (q : Page) (o : Nat) : (s.mapCan n f').evt q o = s.evt q o := by
  unfold State.evt
  rw [State.word_mapCan]
@[simp] theorem State.word_mapLin (n : Nat) (f' : LinCh → LinCh) (q : Page) (o : Nat) : (s.mapLin n f').word q o = s.word q o := State.word_congr (s.mapLin_regs _ _) q o
@[simp] theorem State.fld_mapLin (n : Nat) (f' : LinCh → LinCh) (q : Page) (f : Fld) : (s.mapLin n f').fld q f = s.fld q f := State.fld_congr (s.mapLin_regs _ _) q f
@[simp] theorem State.evt_mapLin (n : Nat) (f' : LinCh → LinCh) (q : Page) (o : Nat) : (s.mapLin n f').evt q o = s.evt q o := by
  unfold State.evt
  rw [State.word_mapLin]
@[simp] theorem State.word_tapSelect (i : TapInstr) (q : Page) (o : Nat) : (s.tapSelect i).word q o = s.word q o := State.word_congr (s.tapSelect_regs _) q o
@[simp] theorem State.fld_tapSelect (i : TapInstr) (q : Page) (f : Fld) : (s.tapSelect i).fld q f = s.fld q f := State.fld_congr (s.tapSelect_regs _) q f
@[simp] theorem State.evt_tapSelect (i : TapInstr) (q : Page) (o : Nat) : (s.tapSelect i).evt q o = s.evt q o := by
  unfold State.evt
  rw [State.word_tapSelect]
@[simp] theorem State.word_mapClasp (f' : Clasp → Clasp) (q : Page) (o : Nat) : (s.mapClasp f').word q o = s.word q o := State.word_congr (s.mapClasp_regs _) q o
@[simp] theorem State.fld_mapClasp (f' : Clasp → Clasp) (q : Page) (f : Fld) : (s.mapClasp f').fld q f = s.fld q f := State.fld_congr (s.mapClasp_regs _) q f
@[simp] theorem State.evt_mapClasp (f' : Clasp → Clasp) (q : Page) (o : Nat) : (s.mapClasp f').evt q o = s.evt q o := by
  unfold State.evt
  rw [State.word_mapClasp]
@[simp] theorem State.word_mapPower (f' : Power → Power) (q : Page) (o : Nat) : (s.mapPower f').word q o = s.word q o := State.word_congr (s.mapPower_regs _) q o
@[simp] theorem State.fld_mapPower (f' : Power → Power) (q : Page) (f : Fld) : (s.mapPower f').fld q f = s.fld q f := State.fld_congr (s.mapPower_regs _) q f
@[simp] theorem State.evt_mapPower (f' : Power → Power) (q : Page) (o : Nat) : (s.mapPower f').evt q o = s.evt q o := by
  unfold State.evt
  rw [State.word_mapPower]
@[simp] theorem State.word_msixSend (v : Nat) (q : Page) (o : Nat) : (s.msixSend v).word q o = s.word q o := State.word_congr (s.msixSend_regs _) q o
@[simp] theorem State.fld_msixSend (v : Nat) (q : Page) (f : Fld) : (s.msixSend v).fld q f = s.fld q f := State.fld_congr (s.msixSend_regs _) q f
@[simp] theorem State.evt_msixSend (v : Nat) (q : Page) (o : Nat) : (s.msixSend v).evt q o = s.evt q o := by
  unfold State.evt
  rw [State.word_msixSend]
@[simp] theorem State.word_pageMessage (p : Page) (q : Page) (o : Nat) : (s.pageMessage p).word q o = s.word q o := State.word_congr (s.pageMessage_regs _) q o
@[simp] theorem State.fld_pageMessage (p : Page) (q : Page) (f : Fld) : (s.pageMessage p).fld q f = s.fld q f := State.fld_congr (s.pageMessage_regs _) q f
@[simp] theorem State.evt_pageMessage (p : Page) (q : Page) (o : Nat) : (s.pageMessage p).evt q o = s.evt q o := by
  unfold State.evt
  rw [State.word_pageMessage]
@[simp] theorem State.word_eccNote (p : Page) (c : Nat) (q : Page) (o : Nat) : (s.eccNote p c).word q o = s.word q o := State.word_congr (s.eccNote_regs _ _) q o
@[simp] theorem State.evt_eccNote (p : Page) (c : Nat) (q : Page) (o : Nat) : (s.eccNote p c).evt q o = s.evt q o := by
  unfold State.evt
  rw [State.word_eccNote]
@[simp] theorem State.word_addDiscard (p : Page) (n : Nat) (q : Page) (o : Nat) : (s.addDiscard p n).word q o = s.word q o := State.word_congr (s.addDiscard_regs _ _) q o
@[simp] theorem State.fld_addDiscard (p : Page) (n : Nat) (q : Page) (f : Fld) : (s.addDiscard p n).fld q f = s.fld q f := State.fld_congr (s.addDiscard_regs _ _) q f
@[simp] theorem State.evt_addDiscard (p : Page) (n : Nat) (q : Page) (o : Nat) : (s.addDiscard p n).evt q o = s.evt q o := by
  unfold State.evt
  rw [State.word_addDiscard]
@[simp] theorem State.word_releaseOne (m : Nat) (q : Page) (o : Nat) : (s.releaseOne m).word q o = s.word q o := State.word_congr (s.releaseOne_regs _) q o
@[simp] theorem State.fld_releaseOne (m : Nat) (q : Page) (f : Fld) : (s.releaseOne m).fld q f = s.fld q f := State.fld_congr (s.releaseOne_regs _) q f
@[simp] theorem State.evt_releaseOne (m : Nat) (q : Page) (o : Nat) : (s.releaseOne m).evt q o = s.evt q o := by
  unfold State.evt
  rw [State.word_releaseOne]
@[simp] theorem State.word_drainMp (m : Nat) (q : Page) (o : Nat) : (s.drainMp m).word q o = s.word q o := State.word_congr (s.drainMp_regs _) q o
@[simp] theorem State.fld_drainMp (m : Nat) (q : Page) (f : Fld) : (s.drainMp m).fld q f = s.fld q f := State.fld_congr (s.drainMp_regs _) q f
@[simp] theorem State.evt_drainMp (m : Nat) (q : Page) (o : Nat) : (s.drainMp m).evt q o = s.evt q o := by
  unfold State.evt
  rw [State.word_drainMp]
@[simp] theorem State.word_drainFor (r : Src) (q : Page) (o : Nat) : (s.drainFor r).word q o = s.word q o := State.word_congr (s.drainFor_regs _) q o
@[simp] theorem State.fld_drainFor (r : Src) (q : Page) (f : Fld) : (s.drainFor r).fld q f = s.fld q f := State.fld_congr (s.drainFor_regs _) q f
@[simp] theorem State.evt_drainFor (r : Src) (q : Page) (o : Nat) : (s.drainFor r).evt q o = s.evt q o := by
  unfold State.evt
  rw [State.word_drainFor]

end

end Sys2Proof.Machine
end

