-- ==== Sys2Proof/Laws/Counts.lean ====
section
/-! SUPPORT. What counters and table windows read after the shared operations. -/
namespace Sys2Proof.Machine
section
variable (s : State)

/-! ## Counters -/

/-- A message of a vector counts on PCIE at most. -/
theorem State.cnt_msixSend (v : Nat) (q : Page) (o : Nat) (h : q.base + o ≠ Page.pcie.base + Pcie.CNT_MSIX_DROPPED) :
    (s.msixSend v).cnt q o = s.cnt q o := by
  unfold State.msixSend State.cnt
  split
  · split <;> rfl
  · simp [State.bump, Sparse.get_modify_other _ _ _ _ h]

/-- An event counts on PCIE at most, where its message is dropped. -/
theorem State.cnt_raise (p q : Page) (b o : Nat) (h : q.base + o ≠ Page.pcie.base + Pcie.CNT_MSIX_DROPPED) :
    (s.raise p b).cnt q o = s.cnt q o := by
  unfold State.raise State.setEvents State.pageMessage
  dsimp only
  repeat' split
  all_goals first | rfl | (rw [State.cnt_msixSend _ _ _ _ h]; rfl)

@[simp] theorem State.cnt_setFld (p q : Page) (f : Fld) (v o : Nat) : (s.setFld p f v).cnt q o = s.cnt q o := rfl
@[simp] theorem State.cnt_setWord (p q : Page) (k : Nat) (w : Word) (o : Nat) : (s.setWord p k w).cnt q o = s.cnt q o := rfl

/-! ## Table windows -/

/-- A write buffer that drains touches no table window. -/
@[simp] theorem State.drainFor_win (src : Src) : (s.drainFor src).mem.win = s.mem.win := by
  unfold State.drainFor; split
  · unfold State.drainMp State.each
    generalize s.procs.wbuf.get _ = l
    induction l generalizing s with
    | nil => rfl
    | cons a t ih => simp only [List.foldl_cons]; rw [ih]; unfold State.releaseOne; split <;> rfl
  · rfl

/-- An owner's write of a table window is performed. -/
theorem State.guardWin_owner (src : Src) (p : Page) (a : Nat) (act : State → State) (h : s.ownerWrites src p) :
    s.guardWin src p a act = act (s.drainFor src) := by
  have e := s.drainFor_regs src
  unfold State.guardWin
  rw [State.arrives_issues _ _ _ h.1, State.pageOn_congr e (s.drainFor_power src) (s.drainFor_rst src), State.owns_congr e,
    State.barred_congr e, h.2.1, h.2.2.1, h.2.2.2]
  rfl

@[simp] theorem connMask_length (a : Nat) (l : List Byte) : (connMask a l).length = l.length := by simp [connMask]

end
end Sys2Proof.Machine
end

