-- ==== Sys2Proof/Laws/Links.lean ====
section
/-! SUPPORT. What the operations of a link write: its credit and shapers, and the registers that they leave. -/
namespace Sys2Proof.Machine

section
variable (s : State)

@[simp] theorem State.fld_mapEgress (p : Nat) (f : Egress → Egress) (q : Page) (g : Fld) : (s.mapEgress p f).fld q g = s.fld q g := rfl
@[simp] theorem State.evt_mapEgress (p : Nat) (f : Egress → Egress) (q : Page) (b : Nat) : (s.mapEgress p f).evt q b = s.evt q b := rfl
@[simp] theorem State.fld_setFrame (i : Nat) (f : Frame) (q : Page) (g : Fld) : (s.setFrame i f).fld q g = s.fld q g := rfl
@[simp] theorem State.evt_setFrame (i : Nat) (f : Frame) (q : Page) (b : Nat) : (s.setFrame i f).evt q b = s.evt q b := rfl
@[simp] theorem State.downHold_setFrame (i : Nat) (f : Frame) : (s.setFrame i f).dp.downHold = s.dp.downHold := rfl

theorem creditFld_off (c : Nat) : (creditFld c).off = Etp.CREDIT_STATUS_CREDIT6.off := by unfold creditFld; split <;> rfl

/-- Clearing the credit of a port writes CREDIT_STATUS alone (R59). -/
theorem State.fld_clearCredit (p : Nat) (q : Page) (g : Fld) (h : apartOff g.off Etp.CREDIT_STATUS_CREDIT6.off = true) :
    (s.clearCredit p).fld q g = s.fld q g := by
  simp [State.clearCredit, State.each, State.fld_setFld_else, creditFld_off, h]
theorem State.evt_clearCredit (p : Nat) (q : Page) (b : Nat) : (s.clearCredit p).evt q b = s.evt q b := by
  simp (disch := decide) [State.clearCredit, State.each, State.evt_setFld_apart]
@[simp] theorem State.downHold_clearCredit (p : Nat) : (s.clearCredit p).dp.downHold = s.dp.downHold := by
  simp [State.clearCredit, State.each]

@[simp] theorem State.shapersLinkLost_regs (p : Nat) : (s.shapersLinkLost p).regs = s.regs :=
  (s.shapersLinkLost_within p).same .regs rfl
@[simp] theorem State.fld_shapersLinkLost (p : Nat) (q : Page) (g : Fld) : (s.shapersLinkLost p).fld q g = s.fld q g :=
  State.fld_congr (s.shapersLinkLost_regs p) _ _
@[simp] theorem State.evt_shapersLinkLost (p : Nat) (q : Page) (b : Nat) : (s.shapersLinkLost p).evt q b = s.evt q b := by
  unfold State.evt
  rw [State.word_congr (s.shapersLinkLost_regs p)]

/-- A link that leaves UP writes CREDIT_STATUS alone (R59, R158). -/
theorem State.fld_leaveUp (p : Nat) (q : Page) (g : Fld) (h : apartOff g.off Etp.CREDIT_STATUS_CREDIT6.off = true) :
    (s.leaveUp p).fld q g = s.fld q g := by
  simp [State.leaveUp, State.fld_clearCredit, h]
theorem State.evt_leaveUp (p : Nat) (q : Page) (b : Nat) : (s.leaveUp p).evt q b = s.evt q b := by
  simp [State.leaveUp, State.evt_clearCredit]

end

end Sys2Proof.Machine
end

