-- ==== Sys2Proof/Laws/Mailbox.lean ====
section
/-! SUPPORT. What the mailbox does: a served request runs, and an answer stands in its slot (R319, R320). -/
namespace Sys2Proof.Machine
section
variable (s : State)

/-- A request that is served runs its command. -/
theorem State.mbxRun_serving (slot cmd : Nat) (act : State → State) (h : s.serving slot cmd) : s.mbxRun slot cmd act = act s := by
  obtain ⟨-, h1, h2, h3⟩ := h
  unfold State.mbxRun State.served
  rw [if_pos]
  simp [h1, h2, h3]

/-- A slot that may command updates is served its command. -/
theorem State.updServe_may (slot : Nat) (act : State) (h : s.mayUpdate slot) : s.updServe slot act = act := by
  unfold State.updServe
  exact if_pos ⟨h.2, Or.inr h.1⟩

theorem Sparse.bytes_congr (m m' : Mem) (a n : Nat) (h : ∀ i, i < n → m.get (a + i) = m'.get (a + i)) : m.bytes a n = m'.bytes a n := by
  unfold Sparse.bytes
  refine List.map_congr_left (fun i hi => h i (List.mem_range.mp hi))

/-- Bytes written read back. -/
theorem Sparse.bytes_putBytes_same (m : Mem) (a : Nat) (l : List Byte) : (m.putBytes a l).bytes a l.length = l := by
  unfold Sparse.bytes
  apply List.ext_getElem (by simp)
  intro i h1 h2
  simp only [List.getElem_map, List.getElem_range, Sparse.get_putBytes]
  rw [if_pos (by simp at h1; omega)]
  simp [h2]

/-- The first bytes written read back. -/
theorem Sparse.bytes_putBytes_left (m : Mem) (a : Nat) (l r : List Byte) : (m.putBytes a (l ++ r)).bytes a l.length = l := by
  unfold Sparse.bytes
  apply List.ext_getElem (by simp)
  intro i h1 h2
  simp only [List.getElem_map, List.getElem_range, Sparse.get_putBytes]
  simp at h1
  rw [if_pos (by simp; omega)]
  simp [List.getD, List.getElem?_append_left h1, h1]

/-- Bytes away from those written read as before. -/
theorem Sparse.bytes_putBytes_apart (m : Mem) (a b n : Nat) (l : List Byte) (h : a + l.length ≤ b ∨ b + n ≤ a) :
    (m.putBytes a l).bytes b n = m.bytes b n := by
  apply Sparse.bytes_congr
  intro i hi
  rw [Sparse.get_putBytes, if_neg (by omega)]

theorem State.mbxBytes_put_left (slot k : Nat) (l r : List Byte) : (s.mbxPut slot k (l ++ r)).mbxBytes slot k l.length = l := by
  unfold State.mbxPut State.mbxBytes
  split <;> exact Sparse.bytes_putBytes_left ..

theorem State.mbxBytes_put_apart (slot k b n : Nat) (l : List Byte) (h : k + l.length ≤ b ∨ b + n ≤ k) :
    (s.mbxPut slot k l).mbxBytes slot b n = s.mbxBytes slot b n := by
  unfold State.mbxPut State.mbxBytes
  split <;> exact Sparse.bytes_putBytes_apart _ _ _ _ _ (by omega)

theorem State.mbxBytes_mem {s t : State} (h : t.mem = s.mem) (slot b n : Nat) : t.mbxBytes slot b n = s.mbxBytes slot b n := by
  unfold State.mbxBytes; rw [h]

/-- An answer: the slot is DONE, and STATUS and RSP stand in its block. -/
theorem State.mbxDone_answered (slot status : Nat) (rsp : List Byte) : (s.mbxDone slot status rsp).answered slot status rsp := by
  unfold State.mbxDone State.answered
  dsimp only
  refine ⟨?_, ?_, ?_⟩
  · unfold State.mbxSt
    rw [State.fld_raise_off _ _ _ _ (by show 256 + 4 * slot ≠ 32; omega)]
    exact State.fld_setFld_same _ _ _ _ (by show 0 + 2 ≤ 32; decide)
  · rw [State.mbxBytes_mem (State.raise_mem _ _ _)]
    show State.mbxBytes (State.mbxPut _ _ _ _) _ _ _ = _
    rw [State.mbxBytes_put_apart _ _ _ _ _ _ (by omega)]
    have := State.mbxBytes_put_left s slot 128 (leBytes 2 status) (leBytes 2 (leAt (s.procs.mbx.get slot) 2 2) ++ leBytes 2 rsp.length)
    rw [leBytes_length, ← List.append_assoc] at this
    exact this
  · rw [State.mbxBytes_mem (State.raise_mem _ _ _)]
    exact State.mbxBytes_put_left _ slot 136 rsp _

/-! ## What an answer leaves -/

@[simp] theorem State.mbxPut_sec (slot k : Nat) (l : List Byte) : (s.mbxPut slot k l).sec = s.sec := by
  unfold State.mbxPut; split <;> rfl
@[simp] theorem State.mbxDone_sec (slot st : Nat) (l : List Byte) : (s.mbxDone slot st l).sec = s.sec := by
  simp [State.mbxDone]
@[simp] theorem State.mbxPut_slots (slot k : Nat) (l : List Byte) : (s.mbxPut slot k l).slots = s.slots := by
  unfold State.mbxPut; split <;> rfl
@[simp] theorem State.mbxDone_slots (slot st : Nat) (l : List Byte) : (s.mbxDone slot st l).slots = s.slots := by
  simp [State.mbxDone]
@[simp] theorem State.mbxPut_power (slot k : Nat) (l : List Byte) : (s.mbxPut slot k l).power = s.power := by
  unfold State.mbxPut; split <;> rfl
@[simp] theorem State.mbxDone_power (slot st : Nat) (l : List Byte) : (s.mbxDone slot st l).power = s.power := by
  simp [State.mbxDone]
/-- Bytes written to the mailbox in the SRAM of the MPs leave no line of a data cache that holds them (R307). -/
theorem State.mbxPut_procs (slot k : Nat) (l : List Byte) : ∃ c, (s.mbxPut slot k l).procs = { s.procs with dcache := c } := by
  unfold State.mbxPut
  split
  · exact ⟨_, rfl⟩
  · exact ⟨_, rfl⟩
@[simp] theorem State.mbxPut_tp (slot k : Nat) (l : List Byte) : (s.mbxPut slot k l).procs.tp = s.procs.tp := by
  obtain ⟨c, h⟩ := s.mbxPut_procs slot k l
  rw [h]
@[simp] theorem State.mbxPut_mbx (slot k : Nat) (l : List Byte) : (s.mbxPut slot k l).procs.mbx = s.procs.mbx := by
  obtain ⟨c, h⟩ := s.mbxPut_procs slot k l
  rw [h]
@[simp] theorem State.mbxDone_tp (slot st : Nat) (l : List Byte) : (s.mbxDone slot st l).procs.tp = s.procs.tp := by
  simp [State.mbxDone]
@[simp] theorem State.mbxDone_mbx (slot st : Nat) (l : List Byte) : (s.mbxDone slot st l).procs.mbx = s.procs.mbx := by
  simp [State.mbxDone]
@[simp] theorem State.mbxPut_dp (slot k : Nat) (l : List Byte) : (s.mbxPut slot k l).dp = s.dp := by
  unfold State.mbxPut; split <;> rfl
@[simp] theorem State.mbxDone_dp (slot st : Nat) (l : List Byte) : (s.mbxDone slot st l).dp = s.dp := by
  simp [State.mbxDone]
@[simp] theorem State.mbxPut_clasp (slot k : Nat) (l : List Byte) : (s.mbxPut slot k l).clasp = s.clasp := by
  unfold State.mbxPut; split <;> rfl
@[simp] theorem State.mbxDone_clasp (slot st : Nat) (l : List Byte) : (s.mbxDone slot st l).clasp = s.clasp := by
  simp [State.mbxDone]
@[simp] theorem State.mbxPut_rst (slot k : Nat) (l : List Byte) : (s.mbxPut slot k l).rst = s.rst := by
  unfold State.mbxPut; split <;> rfl
@[simp] theorem State.mbxDone_rst (slot st : Nat) (l : List Byte) : (s.mbxDone slot st l).rst = s.rst := by
  simp [State.mbxDone]
@[simp] theorem State.mbxPut_now (slot k : Nat) (l : List Byte) : (s.mbxPut slot k l).now = s.now := by
  unfold State.mbxPut; split <;> rfl
@[simp] theorem State.mbxDone_now (slot st : Nat) (l : List Byte) : (s.mbxDone slot st l).now = s.now := by
  simp [State.mbxDone]
@[simp] theorem State.mbxPut_tabs (slot k : Nat) (l : List Byte) : (s.mbxPut slot k l).tabs = s.tabs := by
  unfold State.mbxPut; split <;> rfl
@[simp] theorem State.mbxDone_tabs (slot st : Nat) (l : List Byte) : (s.mbxDone slot st l).tabs = s.tabs := by
  simp [State.mbxDone]
@[simp] theorem State.mbxPut_flash (slot k : Nat) (l : List Byte) : (s.mbxPut slot k l).mem.flash = s.mem.flash := by
  unfold State.mbxPut; split <;> rfl
@[simp] theorem State.mbxDone_flash (slot st : Nat) (l : List Byte) : (s.mbxDone slot st l).mem.flash = s.mem.flash := by
  simp [State.mbxDone]
@[simp] theorem State.mbxPut_otp (slot k : Nat) (l : List Byte) : (s.mbxPut slot k l).mem.otp = s.mem.otp := by
  unfold State.mbxPut; split <;> rfl
@[simp] theorem State.mbxDone_otp (slot st : Nat) (l : List Byte) : (s.mbxDone slot st l).mem.otp = s.mem.otp := by
  simp [State.mbxDone]
@[simp] theorem State.mbxPut_win (slot k : Nat) (l : List Byte) : (s.mbxPut slot k l).mem.win = s.mem.win := by
  unfold State.mbxPut; split <;> rfl
@[simp] theorem State.mbxDone_win (slot st : Nat) (l : List Byte) : (s.mbxDone slot st l).mem.win = s.mem.win := by
  simp [State.mbxDone]
@[simp] theorem State.mbxPut_tsram (slot k : Nat) (l : List Byte) : (s.mbxPut slot k l).mem.tsram = s.mem.tsram := by
  unfold State.mbxPut; split <;> rfl
@[simp] theorem State.mbxDone_tsram (slot st : Nat) (l : List Byte) : (s.mbxDone slot st l).mem.tsram = s.mem.tsram := by
  simp [State.mbxDone]
@[simp] theorem State.mbxPut_locket (slot k : Nat) (l : List Byte) : (s.mbxPut slot k l).mem.locket = s.mem.locket := by
  unfold State.mbxPut; split <;> rfl
@[simp] theorem State.mbxDone_locket (slot st : Nat) (l : List Byte) : (s.mbxDone slot st l).mem.locket = s.mem.locket := by
  simp [State.mbxDone]
@[simp] theorem State.mbxPut_host (slot k : Nat) (l : List Byte) : (s.mbxPut slot k l).mem.host = s.mem.host := by
  unfold State.mbxPut; split <;> rfl
@[simp] theorem State.mbxDone_host (slot st : Nat) (l : List Byte) : (s.mbxDone slot st l).mem.host = s.mem.host := by
  simp [State.mbxDone]

end
end Sys2Proof.Machine
end

