-- ==== Sys2Proof/Laws/Passes.lean ====
section
/-! SUPPORT. What the stages of the data path leave alone of the lists between the stages: the windows, the keys and the pass results. -/
namespace Sys2Proof.Machine

/-- The windows, keys and pass results that wait between the stages of the data path are as they were. -/
def State.PassKept (s t : State) : Prop :=
  t.dp.windows = s.dp.windows ∧ t.dp.keys = s.dp.keys ∧ t.dp.results = s.dp.results ∧ t.dp.admits = s.dp.admits
theorem State.PassKept.refl (s : State) : s.PassKept s := ⟨rfl, rfl, rfl, rfl⟩
theorem State.PassKept.trans {s t u : State} (h : s.PassKept t) (k : t.PassKept u) : s.PassKept u :=
  ⟨k.1.trans h.1, k.2.1.trans h.2.1, k.2.2.1.trans h.2.2.1, k.2.2.2.trans h.2.2.2⟩
theorem State.PassKept.of_dp {s t : State} (h : t.dp = s.dp) : s.PassKept t := by
  unfold State.PassKept
  rw [h]
  exact ⟨rfl, rfl, rfl, rfl⟩
theorem State.PassKept.mapDp {s X : State} {f : DataPath → DataPath} (h : s.PassKept X)
    (k : ∀ d, (f d).windows = d.windows ∧ (f d).keys = d.keys ∧ (f d).results = d.results ∧ (f d).admits = d.admits) :
    s.PassKept (X.mapDp f) :=
  State.PassKept.trans h (k X.dp)
theorem State.PassKept.ite {s a b : State} {c : Prop} [Decidable c] (ha : s.PassKept a) (hb : s.PassKept b) : s.PassKept (if c then a else b) := by
  split <;> assumption
theorem State.PassKept.itp {s : State} {α : Type} {a b : α × State} {c : Prop} [Decidable c] (ha : s.PassKept a.2) (hb : s.PassKept b.2) :
    s.PassKept (if c then a else b).2 := by
  split <;> assumption
theorem State.PassKept.itp2 {s : State} {α β : Type} {a b : α × β × State} {c : Prop} [Decidable c] (ha : s.PassKept a.2.2) (hb : s.PassKept b.2.2) :
    s.PassKept (if c then a else b).2.2 := by
  split <;> assumption
theorem State.PassKept.itp3 {s : State} {α β γ : Type} {a b : α × β × γ × State} {c : Prop} [Decidable c] (ha : s.PassKept a.2.2.2) (hb : s.PassKept b.2.2.2) :
    s.PassKept (if c then a else b).2.2.2 := by
  split <;> assumption
theorem State.PassKept.foldl {s : State} {α : Type} (f : State → α → State) (h : ∀ (u : State) a, u.PassKept (f u a)) (l : List α) (x : State)
    (hx : s.PassKept x) : s.PassKept (l.foldl f x) := by
  induction l generalizing x with
  | nil => exact hx
  | cons a t ih => exact ih _ (hx.trans (h x a))
theorem State.PassKept.each {s : State} {α : Type} {x : State} {l : List α} {f : State → α → State} (hx : s.PassKept x)
    (h : ∀ (u : State) a, u.PassKept (f u a)) : s.PassKept (x.each l f) := State.PassKept.foldl f h l x hx
theorem State.PassKept.foldp {s : State} {α β : Type} {f : β × State → α → β × State} {l : List α} {x : β × State} (hx : s.PassKept x.2)
    (h : ∀ (u : β × State) a, u.2.PassKept (f u a).2) : s.PassKept (l.foldl f x).2 := by
  induction l generalizing x with
  | nil => exact hx
  | cons a t ih => exact ih (hx.trans (h x a))
theorem State.PassKept.foldp2 {s : State} {α β γ : Type} {f : β × γ × State → α → β × γ × State} {l : List α} {x : β × γ × State}
    (hx : s.PassKept x.2.2) (h : ∀ (u : β × γ × State) a, u.2.2.PassKept (f u a).2.2) : s.PassKept (l.foldl f x).2.2 := by
  induction l generalizing x with
  | nil => exact hx
  | cons a t ih => exact ih (hx.trans (h x a))
theorem State.PassKept.keep {s X : State} {fregs ftabs ftabsShadow fcounters fsnapshot fmem fdrainTimer fapplying fplan fpcie fnow fdom ftxts ffrer ffrerScan fclasp fbridge fprocs fpower fcans flins ftdms ftsi fcips fsec fringPend fslots frst ftap ffrees fout fpending} (h : s.PassKept X) :
    s.PassKept (State.mk fregs ftabs ftabsShadow fcounters fsnapshot fmem fdrainTimer fapplying fplan X.dp fpcie fnow fdom ftxts ffrer ffrerScan fclasp fbridge fprocs fpower fcans flins ftdms ftsi fcips fsec fringPend fslots frst ftap ffrees fout fpending) := h
theorem State.PassKept.of_pair {s x : State} {α : Type} {v : α × State} {a : α} (h : v = (a, x)) (k : s.PassKept v.2) : s.PassKept x := by
  subst h; exact k
theorem State.PassKept.of_pair2 {s x : State} {α β : Type} {v : α × β × State} {a : α} {b : β} (h : v = (a, b, x)) (k : s.PassKept v.2.2) : s.PassKept x := by
  subst h; exact k
theorem State.PassKept.of_pair3 {s x : State} {α β γ : Type} {v : α × β × γ × State} {a : α} {b : β} {c : γ} (h : v = (a, b, c, x)) (k : s.PassKept v.2.2.2) : s.PassKept x := by
  subst h; exact k

theorem State.setWord_passKept (s : State) (p : Page) (off : Nat) (w : Word) : s.PassKept (s.setWord p off w) := State.PassKept.of_dp (by simp)

theorem State.setFld_passKept (s : State) (p : Page) (f : Fld) (v : Nat) : s.PassKept (s.setFld p f v) := State.PassKept.of_dp (by simp)

theorem State.bump_passKept (s : State) (p : Page) (off : Nat) (n : Nat ) : s.PassKept (s.bump p off n) := State.PassKept.of_dp (by simp)

theorem State.bumpTab_passKept (s : State) (p : Page) (table entry word : Nat) (n : Nat ) : s.PassKept (s.bumpTab p table entry word n) := State.PassKept.of_dp (by simp)

theorem State.draw_passKept (s : State) (n : Nat) : s.PassKept (s.draw n).2 := by
  unfold State.draw
  dsimp only
  refine State.PassKept.keep ?_
  exact State.PassKept.refl _

theorem State.emit_passKept (s : State) (o : Output) : s.PassKept (s.emit o) := State.PassKept.of_dp (by simp)

theorem State.msixSend_passKept (s : State) (v : Nat) : s.PassKept (s.msixSend v) := State.PassKept.of_dp (by simp)

theorem State.pageMessage_passKept (s : State) (p : Page) : s.PassKept (s.pageMessage p) := State.PassKept.of_dp (by simp)

theorem State.setEvents_passKept (s : State) (p : Page) (raw en : Word) : s.PassKept (s.setEvents p raw en) := State.PassKept.of_dp (by simp)

theorem State.raise_passKept (s : State) (p : Page) (bit : Nat) : s.PassKept (s.raise p bit) := State.PassKept.of_dp (by simp)

theorem State.eccNote_passKept (s : State) (p : Page) (code : Nat) : s.PassKept (s.eccNote p code) := State.PassKept.of_dp (by simp)

theorem State.logErr_passKept (s : State) (p : Page) (code src : Nat) (addr : Nat ) (detail : Nat ) : s.PassKept (s.logErr p code src addr detail) := State.PassKept.of_dp (by simp)

theorem State.prsHit_passKept (s : State) (on : Bool) (cnt : Nat) (bit : Option Nat) : s.PassKept (s.prsHit on cnt bit) := by
  unfold State.prsHit
  refine State.PassKept.ite ?_ ?_
  · split
    · refine State.PassKept.trans ?_ (State.raise_passKept ..)
      exact State.bump_passKept ..
    · exact State.bump_passKept ..
  · exact State.PassKept.refl _

theorem State.countFlags_passKept (s : State) (flags : Nat) : s.PassKept (s.countFlags flags) := by
  unfold State.countFlags
  refine State.PassKept.trans ?_ (State.prsHit_passKept ..)
  refine State.PassKept.trans ?_ (State.prsHit_passKept ..)
  refine State.PassKept.trans ?_ (State.prsHit_passKept ..)
  refine State.PassKept.trans ?_ (State.prsHit_passKept ..)
  exact State.prsHit_passKept ..

theorem State.walk_passKept (s : State) (b z t : Nat) (x : List Byte) (len : Option Nat) (bad : List Nat) : s.PassKept (s.walk b z t x len bad).2.2 := by
  unfold State.walk
  dsimp only
  refine State.PassKept.itp2 ?_ ?_
  · dsimp only
    refine State.PassKept.ite ?_ ?_
    · refine State.PassKept.trans ?_ (State.logErr_passKept ..)
      refine State.PassKept.trans ?_ (State.setFld_passKept ..)
      refine State.PassKept.trans ?_ (State.setFld_passKept ..)
      refine State.PassKept.trans ?_ (State.setFld_passKept ..)
      refine State.PassKept.trans ?_ (State.setFld_passKept ..)
      refine State.PassKept.trans ?_ (State.setFld_passKept ..)
      refine State.PassKept.trans ?_ (State.raise_passKept ..)
      exact State.bump_passKept ..
    · refine State.PassKept.trans ?_ (State.setFld_passKept ..)
      refine State.PassKept.trans ?_ (State.setFld_passKept ..)
      refine State.PassKept.trans ?_ (State.setFld_passKept ..)
      refine State.PassKept.trans ?_ (State.setFld_passKept ..)
      refine State.PassKept.trans ?_ (State.setFld_passKept ..)
      refine State.PassKept.trans ?_ (State.raise_passKept ..)
      exact State.bump_passKept ..
  · refine State.PassKept.itp2 ?_ ?_
    · dsimp only
      exact State.PassKept.refl _
    · split
      · dsimp only
        exact State.PassKept.refl _
      · dsimp only
        refine State.PassKept.ite ?_ ?_
        · refine State.PassKept.trans ?_ (State.logErr_passKept ..)
          refine State.PassKept.trans ?_ (State.setFld_passKept ..)
          refine State.PassKept.trans ?_ (State.setFld_passKept ..)
          refine State.PassKept.trans ?_ (State.setFld_passKept ..)
          refine State.PassKept.trans ?_ (State.setFld_passKept ..)
          refine State.PassKept.trans ?_ (State.setFld_passKept ..)
          refine State.PassKept.trans ?_ (State.raise_passKept ..)
          exact State.bump_passKept ..
        · refine State.PassKept.trans ?_ (State.setFld_passKept ..)
          refine State.PassKept.trans ?_ (State.setFld_passKept ..)
          refine State.PassKept.trans ?_ (State.setFld_passKept ..)
          refine State.PassKept.trans ?_ (State.setFld_passKept ..)
          refine State.PassKept.trans ?_ (State.setFld_passKept ..)
          refine State.PassKept.trans ?_ (State.raise_passKept ..)
          exact State.bump_passKept ..
      · refine State.PassKept.itp2 ?_ ?_
        · dsimp only
          refine State.PassKept.ite ?_ ?_
          · refine State.PassKept.trans ?_ (State.logErr_passKept ..)
            refine State.PassKept.trans ?_ (State.setFld_passKept ..)
            refine State.PassKept.trans ?_ (State.setFld_passKept ..)
            refine State.PassKept.trans ?_ (State.setFld_passKept ..)
            refine State.PassKept.trans ?_ (State.setFld_passKept ..)
            refine State.PassKept.trans ?_ (State.setFld_passKept ..)
            refine State.PassKept.trans ?_ (State.raise_passKept ..)
            refine State.PassKept.trans ?_ (State.bump_passKept ..)
            split
            · refine State.PassKept.keep ?_
              exact State.PassKept.refl _
            · refine State.PassKept.keep ?_
              exact State.PassKept.refl _
          · refine State.PassKept.trans ?_ (State.setFld_passKept ..)
            refine State.PassKept.trans ?_ (State.setFld_passKept ..)
            refine State.PassKept.trans ?_ (State.setFld_passKept ..)
            refine State.PassKept.trans ?_ (State.setFld_passKept ..)
            refine State.PassKept.trans ?_ (State.setFld_passKept ..)
            refine State.PassKept.trans ?_ (State.raise_passKept ..)
            refine State.PassKept.trans ?_ (State.bump_passKept ..)
            split
            · refine State.PassKept.keep ?_
              exact State.PassKept.refl _
            · refine State.PassKept.keep ?_
              exact State.PassKept.refl _
        · dsimp only
          split
          · refine State.PassKept.keep ?_
            exact State.PassKept.refl _
          · refine State.PassKept.keep ?_
            exact State.PassKept.refl _

theorem State.spread_passKept (s : State) (b t h : Nat) (x : List Byte) (bad : List Nat) : s.PassKept (s.spread b t h x bad).2 := by
  unfold State.spread
  split
  rename_i x1 e2
  have h3 : s.PassKept x1 := State.PassKept.of_pair e2 (by exact State.PassKept.of_dp ((State.spreadEntry_within ..).same .dp rfl))
  split
  · dsimp only
    assumption
  · refine State.PassKept.itp ?_ ?_
    · dsimp only
      assumption
    · dsimp only
      refine State.PassKept.trans ?_ (State.raise_passKept ..)
      exact State.PassKept.trans (by assumption) (State.bump_passKept ..)

theorem State.fibLookup_passKept (s : State) (b : Nat) (key x : List Byte) (bad : List Nat) : s.PassKept (s.fibLookup b key x bad).2 := by
  unfold State.fibLookup
  refine State.PassKept.itp ?_ ?_
  · dsimp only
    exact State.bump_passKept ..
  · extract_lets y1 y2 y3 y4 y5 y6 y7 y8
    have h9 : s.PassKept y1 := by
      unfold y1
      exact State.bump_passKept ..
    clear_value y1
    have h10 : s.PassKept y8 := by
      unfold y8
      exact State.PassKept.trans (by assumption) (State.bump_passKept ..)
    clear_value y8
    split
    · dsimp only
      exact State.PassKept.trans (by assumption) (State.logErr_passKept ..)
    · refine State.PassKept.itp ?_ ?_
      · dsimp only
        refine State.PassKept.trans ?_ (State.raise_passKept ..)
        exact State.PassKept.trans (by assumption) (State.bump_passKept ..)
      · refine State.PassKept.itp ?_ ?_
        · dsimp only
          refine State.PassKept.trans ?_ (State.raise_passKept ..)
          exact State.PassKept.trans (by assumption) (State.bump_passKept ..)
        · refine State.PassKept.itp ?_ ?_
          · dsimp only
            exact State.PassKept.trans (by assumption) (State.logErr_passKept ..)
          · split
            · refine State.PassKept.itp ?_ ?_
              · dsimp only
                exact State.PassKept.trans (by assumption) (State.bump_passKept ..)
              · dsimp only
                exact State.PassKept.trans (by assumption) (State.bump_passKept ..)
            · extract_lets y11
              split
              rename_i x12 e13
              have h14 : s.PassKept x12 := State.PassKept.of_pair e13 (by
                split
                · dsimp only
                  assumption
                · dsimp only
                  assumption
                · exact State.PassKept.trans (by assumption) (State.spread_passKept ..)
                · dsimp only
                  assumption)
              dsimp only
              assumption

theorem State.threeTrees_passKept (s : State) (b zone : Nat) (key : List Byte) (len : Option Nat) (bad : List Nat) : s.PassKept (s.threeTrees b zone key len bad).2.2 := by
  unfold State.threeTrees
  split
  rename_i x2 e3
  have h4 : State.PassKept s x2 := State.PassKept.of_pair2 e3 (by
    exact State.walk_passKept ..)
  extract_lets y14
  split
  rename_i x15 e16
  have h17 : State.PassKept s x15 := State.PassKept.of_pair2 e16 (by
    exact State.PassKept.trans (by assumption) (State.walk_passKept ..))
  extract_lets y19
  split
  rename_i x20 e21
  have h22 : State.PassKept s x20 := State.PassKept.of_pair2 e21 (by
    exact State.PassKept.trans (by assumption) (State.walk_passKept ..))
  dsimp only
  assumption

theorem State.disposition_passKept (s : State) (b zone : Nat) (v : Verdict) : s.PassKept (s.disposition b zone v).2 := by
  unfold State.disposition
  split
  · refine State.PassKept.itp ?_ ?_
    · dsimp only
      refine State.PassKept.trans ?_ (State.raise_passKept ..)
      exact State.bump_passKept ..
    · refine State.PassKept.itp ?_ ?_
      · dsimp only
        exact State.bump_passKept ..
      · refine State.PassKept.itp ?_ ?_
        · dsimp only
          exact State.PassKept.refl _
        · dsimp only
          exact State.bump_passKept ..
  · refine State.PassKept.itp ?_ ?_
    · dsimp only
      exact State.bump_passKept ..
    · refine State.PassKept.itp ?_ ?_
      · dsimp only
        exact State.PassKept.refl _
      · dsimp only
        exact State.bump_passKept ..

theorem State.forward_passKept (s : State) (b : Nat) (key x : List Byte) (v : Verdict) (bad : List Nat) : s.PassKept (s.forward b key x v bad).2 := by
  unfold State.forward
  split
  · dsimp only
    exact State.PassKept.refl _
  · split
    · dsimp only
      exact State.PassKept.refl _
    · exact State.spread_passKept ..
    · exact State.fibLookup_passKept ..

theorem State.pruneSelf_passKept (s : State) (b port : Nat) (dests : List Nat) : s.PassKept (s.pruneSelf b port dests).2 := by
  unfold State.pruneSelf
  refine State.PassKept.itp ?_ ?_
  · dsimp only
    exact State.bump_passKept ..
  · dsimp only
    exact State.PassKept.refl _

theorem State.efw_passKept (s : State) (b zone : Nat) (key : List Byte) (v : Verdict) (dests : List Nat) (len : Option Nat) (bad : List Nat) : s.PassKept (s.efw b zone key v dests len bad).2.2.2 := by
  unfold State.efw
  refine State.PassKept.itp3 ?_ ?_
  · dsimp only
    exact State.PassKept.refl _
  · split
    rename_i x5 e6
    have h7 : State.PassKept s x5 := State.PassKept.of_pair2 e6 (by
      exact State.walk_passKept ..)
    extract_lets y9 y10 y11
    refine State.PassKept.itp3 ?_ ?_
    · dsimp only
      exact State.PassKept.trans (by assumption) (State.bump_passKept ..)
    · dsimp only
      assumption

theorem State.classify_passKept (s : State) (k : Pass) (len : Option Nat) (bad : List Nat) : s.PassKept (s.classify k len bad).2.2 := by
  unfold State.classify
  extract_lets y1 y2 y3 y4
  have h5 : s.PassKept y4 := by
    unfold y4
    exact State.bump_passKept ..
  clear_value y4
  split
  rename_i x6 e7
  have h8 : s.PassKept x6 := State.PassKept.of_pair2 e7 (by exact State.PassKept.trans (by assumption) (State.threeTrees_passKept ..))
  extract_lets y9 y10 y11 y12
  have h13 : s.PassKept y11 := by
    unfold y11
    split
    · refine State.PassKept.ite ?_ ?_
      · extract_lets y14
        have h15 : s.PassKept y14 := by
          unfold y14
          refine State.PassKept.keep ?_
          assumption
        clear_value y14
        split
        · refine State.PassKept.keep ?_
          assumption
        · assumption
      · assumption
    · assumption
  clear_value y11
  split
  rename_i x16 e17
  have h18 : s.PassKept x16 := State.PassKept.of_pair e17 (by
    refine State.PassKept.itp ?_ ?_
    · dsimp only
      assumption
    · exact State.PassKept.trans (by assumption) (State.disposition_passKept ..))
  split
  rename_i x19 e20
  have h21 : s.PassKept x19 := State.PassKept.of_pair e20 (by
    split
    · dsimp only
      assumption
    · refine State.PassKept.itp ?_ ?_
      · dsimp only
        assumption
      · exact State.PassKept.trans (by assumption) (State.forward_passKept ..))
  extract_lets y22
  split
  rename_i x23 e24
  have h25 : s.PassKept x23 := State.PassKept.of_pair e24 (by
    refine State.PassKept.itp ?_ ?_
    · dsimp only
      assumption
    · refine State.PassKept.itp ?_ ?_
      · dsimp only
        assumption
      · exact State.PassKept.trans (by assumption) (State.pruneSelf_passKept ..))
  split
  rename_i x26 e27
  have h28 : s.PassKept x26 := State.PassKept.of_pair3 e27 (by
    refine State.PassKept.itp3 ?_ ?_
    · dsimp only
      assumption
    · refine State.PassKept.itp3 ?_ ?_
      · dsimp only
        assumption
      · exact State.PassKept.trans (by assumption) (State.efw_passKept ..))
  extract_lets y29 y30 y31 y32 y33
  have h34 : s.PassKept y31 := by
    unfold y31
    exact State.PassKept.trans (by assumption) (State.prsHit_passKept ..)
  clear_value y31
  split
  rename_i x35 e36
  have h37 : s.PassKept x35 := State.PassKept.of_pair e36 (by
    split
    · dsimp only
      assumption
    · refine State.PassKept.itp ?_ ?_
      · exact State.PassKept.trans (by assumption) (State.PassKept.of_dp ((State.hostRingRead_within ..).same .dp rfl))
      · dsimp only
        assumption)
  extract_lets y38 y39 y40 y41 y42 y43 y44 y45
  have h46 : s.PassKept y38 := by
    unfold y38
    refine State.PassKept.ite ?_ ?_
    · refine State.PassKept.trans ?_ (State.raise_passKept ..)
      exact State.PassKept.trans (by assumption) (State.bump_passKept ..)
    · assumption
  clear_value y38
  have h47 : s.PassKept y43 := by
    unfold y43
    refine State.PassKept.ite ?_ ?_
    · exact State.PassKept.trans (by assumption) (State.bump_passKept ..)
    · assumption
  clear_value y43
  dsimp only
  assumption

theorem State.setFrame_passKept (s : State) (i : Nat) (f : Frame) : s.PassKept (s.setFrame i f) := by
  unfold State.setFrame
  refine State.PassKept.mapDp ?_ (fun d => ⟨rfl, rfl, rfl, rfl⟩)
  exact State.PassKept.refl _

theorem State.mapQueue_passKept (s : State) (q : Nat) (f : Queue → Queue) : s.PassKept (s.mapQueue q f) := by
  unfold State.mapQueue
  refine State.PassKept.mapDp ?_ (fun d => ⟨rfl, rfl, rfl, rfl⟩)
  exact State.PassKept.refl _

theorem State.freeHeadroom_passKept (s : State) (f : Frame) : s.PassKept (s.freeHeadroom f) := by
  unfold State.freeHeadroom
  split
  · exact State.PassKept.refl _
  · refine State.PassKept.mapDp ?_ (fun d => ⟨rfl, rfl, rfl, rfl⟩)
    exact State.PassKept.refl _

theorem State.freeFrame_passKept (s : State) (i : Nat) : s.PassKept (s.freeFrame i) := by
  unfold State.freeFrame
  extract_lets y1 y2
  have h3 : State.PassKept s y2 := by
    exact State.freeHeadroom_passKept ..
  clear_value y2
  refine State.PassKept.ite ?_ ?_
  · exact State.PassKept.trans (by assumption) (State.setFrame_passKept ..)
  · exact State.PassKept.trans (by assumption) (State.setFrame_passKept ..)

theorem State.recircLeave_passKept (s : State) (bank : Nat) : s.PassKept (s.recircLeave bank) := by
  unfold State.recircLeave
  extract_lets y1
  exact State.setFld_passKept ..

theorem State.recircJoin_passKept (s : State) (bank : Nat) : s.PassKept (s.recircJoin bank) := by
  unfold State.recircJoin
  extract_lets y2
  exact State.setFld_passKept ..

theorem State.red_passKept (s : State) (f : Frame) (r : Pass) (q colour : Nat) : s.PassKept (s.red f r q colour).2 := by
  unfold State.red
  split
  rename_i x5 e6
  have h7 : State.PassKept s x5 := State.PassKept.of_pair e6 (by
    exact State.draw_passKept ..)
  refine State.PassKept.itp ?_ ?_
  · refine State.PassKept.itp ?_ ?_
    · refine State.PassKept.itp ?_ ?_
      · dsimp only
        assumption
      · dsimp only
        assumption
    · dsimp only
      assumption
  · dsimp only
    assumption

theorem State.enqueue_passKept (s : State) (r : Pass) (kind : CopyKind) (p q charge : Nat) (mark : Bool) :
    s.PassKept (s.enqueue r kind p q charge mark) := by
  unfold State.enqueue
  extract_lets y1 y2 y3 y4 y5 y6
  have h7 : s.PassKept y3 := by
    unfold y3
    exact State.mapQueue_passKept ..
  clear_value y3
  have h8 : s.PassKept y4 := by
    unfold y4
    refine State.PassKept.ite ?_ ?_
    · exact State.PassKept.trans (by assumption) (State.raise_passKept ..)
    · assumption
  clear_value y4
  have h9 : s.PassKept y5 := by
    unfold y5
    exact State.PassKept.trans (by assumption) (State.setFrame_passKept ..)
  clear_value y5
  have h10 : s.PassKept y6 := by
    unfold y6
    refine State.PassKept.ite ?_ ?_
    · exact State.PassKept.trans (by assumption) (State.recircJoin_passKept ..)
    · assumption
  clear_value y6
  refine State.PassKept.trans ?_ (State.bumpTab_passKept ..)
  exact State.PassKept.trans (by assumption) (State.bump_passKept ..)

theorem State.admitCopy_passKept (s : State) (r : Pass) (kind : CopyKind) (p : Nat) : s.PassKept (s.admitCopy r kind p).2 := by
  unfold State.admitCopy
  dsimp only
  refine State.PassKept.itp ?_ ?_
  · dsimp only
    exact State.bump_passKept ..
  · refine State.PassKept.itp ?_ ?_
    · dsimp only
      exact State.bump_passKept ..
    · refine State.PassKept.itp ?_ ?_
      · dsimp only
        refine State.PassKept.trans ?_ (State.bumpTab_passKept ..)
        refine State.PassKept.trans ?_ (State.bumpTab_passKept ..)
        exact State.bump_passKept ..
      · refine State.PassKept.itp ?_ ?_
        · dsimp only
          exact State.enqueue_passKept ..
        · split
          · dsimp only
            refine State.PassKept.trans ?_ (State.enqueue_passKept ..)
            exact State.red_passKept ..
          · dsimp only
            refine State.PassKept.trans ?_ (State.enqueue_passKept ..)
            refine State.PassKept.trans ?_ (State.bumpTab_passKept ..)
            refine State.PassKept.trans ?_ (State.bumpTab_passKept ..)
            refine State.PassKept.trans ?_ (State.bump_passKept ..)
            exact State.red_passKept ..
          · dsimp only
            refine State.PassKept.trans ?_ (State.bumpTab_passKept ..)
            refine State.PassKept.trans ?_ (State.bumpTab_passKept ..)
            refine State.PassKept.trans ?_ (State.bump_passKept ..)
            exact State.red_passKept ..

theorem State.admitLossless_passKept (s : State) (r : Pass) (cls : Nat) : s.PassKept (s.admitLossless r cls).2 := by
  unfold State.admitLossless
  extract_lets y1 y2 y3 y4 y5 y6 y7 y8
  have h9 : State.PassKept s y3 := by
    unfold y3
    refine State.PassKept.each ?_ (fun u a => ?_)
    · exact State.PassKept.refl _
    · refine State.PassKept.trans ?_ (State.bump_passKept ..)
      exact State.PassKept.refl _
  clear_value y3
  have h16 : State.PassKept s y6 := by
    exact State.PassKept.trans (by assumption) (State.setFrame_passKept ..)
  clear_value y6
  have h17 : State.PassKept s y7 := by
    unfold y7
    refine State.PassKept.mapDp ?_ (fun d => ⟨rfl, rfl, rfl, rfl⟩)
    assumption
  clear_value y7
  have h18 : State.PassKept s y8 := by
    exact State.PassKept.trans (by assumption) (State.bump_passKept ..)
  clear_value y8
  refine State.PassKept.itp ?_ ?_
  · refine State.PassKept.foldp ?_ (fun u a => ?_)
    · dsimp only
      assumption
    · split
      refine State.PassKept.itp ?_ ?_
      · dsimp only
        exact State.bump_passKept ..
      · dsimp only
        exact State.enqueue_passKept ..
  · refine State.PassKept.foldp ?_ (fun u a => ?_)
    · dsimp only
      assumption
    · split
      refine State.PassKept.itp ?_ ?_
      · dsimp only
        exact State.bump_passKept ..
      · dsimp only
        exact State.enqueue_passKept ..

theorem State.admitPlain_passKept (s : State) (r : Pass) : s.PassKept (s.admitPlain r).2 := by
  unfold State.admitPlain
  exact State.PassKept.foldp (State.PassKept.refl s) (fun u c => State.admitCopy_passKept ..)

theorem State.mirrorCopy_passKept (s : State) (r : Pass) (m : Nat) : s.PassKept (s.mirrorCopy r m) := by
  unfold State.mirrorCopy
  extract_lets y1 y2
  refine State.PassKept.ite ?_ ?_
  · exact State.bump_passKept ..
  · refine State.PassKept.ite ?_ ?_
    · refine State.PassKept.trans ?_ (State.raise_passKept ..)
      exact State.bump_passKept ..
    · refine State.PassKept.ite ?_ ?_
      · refine State.PassKept.trans ?_ (State.raise_passKept ..)
        exact State.bump_passKept ..
      · split
        rename_i x3 e4
        have h5 : State.PassKept s x3 := State.PassKept.of_pair e4 (by
          exact State.admitCopy_passKept ..)
        exact State.PassKept.trans (by assumption) (State.bump_passKept ..)

theorem State.loupeReload_passKept (s : State)  : s.PassKept (s.loupeReload).2 := by
  unfold State.loupeReload
  extract_lets y1
  refine State.PassKept.itp ?_ ?_
  · dsimp only
    exact State.PassKept.refl _
  · split
    rename_i x2 e3
    have h4 : State.PassKept s x2 := State.PassKept.of_pair e3 (by
      exact State.draw_passKept ..)
    dsimp only
    assumption

theorem State.sampleCopy_passKept (s : State) (r : Pass) : s.PassKept (s.sampleCopy r) := by
  unfold State.sampleCopy
  extract_lets y1 y2
  refine State.PassKept.ite ?_ ?_
  · refine State.PassKept.trans ?_ (State.raise_passKept ..)
    exact State.bump_passKept ..
  · split
    rename_i x1 e2
    have h3 : State.PassKept s x1 := State.PassKept.of_pair e2 (by
      exact State.admitCopy_passKept ..)
    refine State.PassKept.ite ?_ ?_
    · assumption
    · exact State.PassKept.trans (by assumption) (State.bump_passKept ..)

theorem State.loupe_passKept (s : State) (r : Pass) : s.PassKept (s.loupe r) := by
  unfold State.loupe
  extract_lets y4 y5
  have h6 : State.PassKept s y4 := by
    exact State.bump_passKept ..
  clear_value y4
  refine State.PassKept.ite ?_ ?_
  · assumption
  · refine State.PassKept.ite ?_ ?_
    · split
      rename_i x5 e6
      have h7 : State.PassKept s x5 := State.PassKept.of_pair e6 (by
        exact State.PassKept.trans (by assumption) (State.loupeReload_passKept ..))
      refine State.PassKept.trans ?_ (State.sampleCopy_passKept ..)
      refine State.PassKept.trans ?_ (State.bump_passKept ..)
      exact State.PassKept.trans (by assumption) (State.setFld_passKept ..)
    · exact State.PassKept.trans (by assumption) (State.setFld_passKept ..)

theorem State.admitted_passKept (s : State) (r : Pass) : s.PassKept (s.admitted r) := by
  unfold State.admitted
  dsimp only
  refine State.PassKept.ite ?_ ?_
  · refine State.PassKept.trans ?_ (State.freeFrame_passKept ..)
    refine State.PassKept.ite ?_ ?_
    · refine State.PassKept.trans ?_ (State.loupe_passKept ..)
      refine State.PassKept.each ?_ (fun u a => ?_)
      · refine State.PassKept.each ?_ (fun u a => ?_)
        · split
          · refine State.PassKept.trans ?_ (State.admitLossless_passKept ..)
            exact State.setFrame_passKept ..
          · refine State.PassKept.trans ?_ (State.admitPlain_passKept ..)
            exact State.setFrame_passKept ..
        · refine State.PassKept.trans ?_ (State.mirrorCopy_passKept ..)
          exact State.PassKept.refl _
      · refine State.PassKept.each ?_ (fun u a => ?_)
        · exact State.PassKept.refl _
        · refine State.PassKept.trans ?_ (State.mirrorCopy_passKept ..)
          exact State.PassKept.refl _
    · refine State.PassKept.each ?_ (fun u a => ?_)
      · refine State.PassKept.each ?_ (fun u a => ?_)
        · split
          · refine State.PassKept.trans ?_ (State.admitLossless_passKept ..)
            exact State.setFrame_passKept ..
          · refine State.PassKept.trans ?_ (State.admitPlain_passKept ..)
            exact State.setFrame_passKept ..
        · refine State.PassKept.trans ?_ (State.mirrorCopy_passKept ..)
          exact State.PassKept.refl _
      · refine State.PassKept.each ?_ (fun u a => ?_)
        · exact State.PassKept.refl _
        · refine State.PassKept.trans ?_ (State.mirrorCopy_passKept ..)
          exact State.PassKept.refl _
  · refine State.PassKept.ite ?_ ?_
    · refine State.PassKept.trans ?_ (State.loupe_passKept ..)
      refine State.PassKept.each ?_ (fun u a => ?_)
      · refine State.PassKept.each ?_ (fun u a => ?_)
        · split
          · refine State.PassKept.trans ?_ (State.admitLossless_passKept ..)
            exact State.setFrame_passKept ..
          · refine State.PassKept.trans ?_ (State.admitPlain_passKept ..)
            exact State.setFrame_passKept ..
        · refine State.PassKept.trans ?_ (State.mirrorCopy_passKept ..)
          exact State.PassKept.refl _
      · refine State.PassKept.each ?_ (fun u a => ?_)
        · exact State.PassKept.refl _
        · refine State.PassKept.trans ?_ (State.mirrorCopy_passKept ..)
          exact State.PassKept.refl _
    · refine State.PassKept.each ?_ (fun u a => ?_)
      · refine State.PassKept.each ?_ (fun u a => ?_)
        · split
          · refine State.PassKept.trans ?_ (State.admitLossless_passKept ..)
            exact State.setFrame_passKept ..
          · refine State.PassKept.trans ?_ (State.admitPlain_passKept ..)
            exact State.setFrame_passKept ..
        · refine State.PassKept.trans ?_ (State.mirrorCopy_passKept ..)
          exact State.PassKept.refl _
      · refine State.PassKept.each ?_ (fun u a => ?_)
        · exact State.PassKept.refl _
        · refine State.PassKept.trans ?_ (State.mirrorCopy_passKept ..)
          exact State.PassKept.refl _

theorem State.pruneCopies_passKept (s : State) (r : Pass) (cnt : Nat) (bad : Nat → Bool) : s.PassKept (s.pruneCopies r cnt bad).2 := by
  unfold State.pruneCopies
  extract_lets y1
  dsimp only
  refine State.PassKept.ite ?_ ?_
  · exact State.PassKept.refl _
  · exact State.bump_passKept ..

theorem State.fabricRoutes_passKept (s : State) (f : Frame) (r : Pass) (bad : List Nat) : s.PassKept (s.fabricRoutes f r bad).2 := by
  unfold State.fabricRoutes
  extract_lets y4 y5 y6 y7 y8
  have h9 : State.PassKept s y7 := by
    unfold y7
    refine State.PassKept.ite ?_ ?_
    · exact State.raise_passKept ..
    · exact State.PassKept.refl _
  clear_value y7
  refine State.PassKept.itp ?_ ?_
  · dsimp only
    refine State.PassKept.trans ?_ (State.raise_passKept ..)
    exact State.bump_passKept ..
  · split
    rename_i x16 e17
    have h18 : State.PassKept s x16 := State.PassKept.of_pair e17 (by
      exact State.PassKept.trans (by assumption) (State.pruneCopies_passKept ..))
    split
    rename_i x19 e20
    have h21 : State.PassKept s x19 := State.PassKept.of_pair e20 (by
      exact State.PassKept.trans (by assumption) (State.pruneCopies_passKept ..))
    extract_lets y22
    have h23 : State.PassKept s y22 := by
      unfold y22
      refine State.PassKept.each ?_ (fun u a => ?_)
      · assumption
      · refine State.PassKept.trans ?_ (State.logErr_passKept ..)
        exact State.PassKept.refl _
    clear_value y22
    split
    rename_i x39 e40
    have h41 : State.PassKept s x39 := State.PassKept.of_pair e40 (by
      exact State.PassKept.trans (by assumption) (State.pruneCopies_passKept ..))
    exact State.PassKept.trans (by assumption) (State.pruneCopies_passKept ..)

theorem State.fabricCheck_passKept (s : State) (r : Pass) (bad : List Nat) : s.PassKept (s.fabricCheck r bad).2 := by
  unfold State.fabricCheck
  extract_lets y1 y2 y3 y4 y5 y6 y7 y8 y9 y10 y11 y12 y13
  have h14 : State.PassKept s y7 := by
    unfold y7
    refine State.PassKept.ite ?_ ?_
    · exact State.bump_passKept ..
    · exact State.PassKept.refl _
  clear_value y7
  have h15 : State.PassKept s y11 := by
    unfold y11
    refine State.PassKept.ite ?_ ?_
    · unfold y9
      refine State.PassKept.trans ?_ (State.raise_passKept ..)
      exact State.PassKept.trans (by assumption) (State.bump_passKept ..)
    · assumption
  clear_value y11
  refine State.PassKept.itp ?_ ?_
  · dsimp only
    assumption
  · refine State.PassKept.itp ?_ ?_
    · dsimp only
      unfold y9
      refine State.PassKept.trans ?_ (State.raise_passKept ..)
      exact State.PassKept.trans (by assumption) (State.bump_passKept ..)
    · refine State.PassKept.itp ?_ ?_
      · dsimp only
        assumption
      · refine State.PassKept.itp ?_ ?_
        · dsimp only
          assumption
        · refine State.PassKept.itp ?_ ?_
          · dsimp only
            assumption
          · exact State.PassKept.trans (by assumption) (State.fabricRoutes_passKept ..)

theorem State.frerCount_passKept (s : State) (n i : Nat) (k : Nat ) : s.PassKept (s.frerCount n i k) := by
  unfold State.frerCount
  exact State.bumpTab_passKept ..

theorem State.mapFrer_passKept (s : State) (n : Nat) (f : FrerFn → FrerFn) : s.PassKept (s.mapFrer n f) := State.PassKept.of_dp (by simp)

theorem State.frerPass_passKept (s : State) (n : Nat) (f : FrerFn → FrerFn) : s.PassKept (s.frerPass n f) := by
  unfold State.frerPass
  refine State.PassKept.trans ?_ (State.frerCount_passKept ..)
  exact State.mapFrer_passKept ..

theorem State.frerDiscard_passKept (s : State) (n i : Nat) : s.PassKept (s.frerDiscard n i) := by
  unfold State.frerDiscard
  refine State.PassKept.trans ?_ (State.frerCount_passKept ..)
  exact State.mapFrer_passKept ..

theorem State.frerVector_passKept (s : State) (n seq : Nat) : s.PassKept (s.frerVector n seq).2 := by
  unfold State.frerVector
  extract_lets y1 y2 y3 y4 y5
  have h6 : State.PassKept s y5 := by
    unfold y5
    refine State.PassKept.ite ?_ ?_
    · exact State.PassKept.refl _
    · exact State.frerCount_passKept ..
  clear_value y5
  refine State.PassKept.itp ?_ ?_
  · dsimp only
    exact State.frerPass_passKept ..
  · refine State.PassKept.itp ?_ ?_
    · dsimp only
      refine State.PassKept.trans ?_ (State.raise_passKept ..)
      exact State.frerDiscard_passKept ..
    · refine State.PassKept.itp ?_ ?_
      · refine State.PassKept.itp ?_ ?_
        · dsimp only
          exact State.frerDiscard_passKept ..
        · dsimp only
          refine State.PassKept.trans ?_ (State.frerCount_passKept ..)
          exact State.frerPass_passKept ..
      · dsimp only
        exact State.PassKept.trans (by assumption) (State.frerPass_passKept ..)

theorem State.frerMatch_passKept (s : State) (n seq : Nat) : s.PassKept (s.frerMatch n seq).2 := by
  unfold State.frerMatch
  extract_lets y1 y2
  have h3 : State.PassKept s y2 := by
    unfold y2
    refine State.PassKept.ite ?_ ?_
    · exact State.frerCount_passKept ..
    · exact State.PassKept.refl _
  clear_value y2
  refine State.PassKept.itp ?_ ?_
  · dsimp only
    exact State.frerDiscard_passKept ..
  · dsimp only
    exact State.PassKept.trans (by assumption) (State.frerPass_passKept ..)

theorem State.frerReset_passKept (s : State) (n : Nat) (counts : Bool) : s.PassKept (s.frerReset n counts) := by
  unfold State.frerReset
  exact State.mapFrer_passKept ..

theorem State.frerDecide_passKept (s : State) (r : Pass) (n : Nat) : s.PassKept (s.frerDecide r n).2 := by
  unfold State.frerDecide
  extract_lets y1 y2 y3 y4 y5
  have h6 : s.PassKept y5 := by
    unfold y5
    refine State.PassKept.trans ?_ (State.bump_passKept ..)
    exact State.mapFrer_passKept ..
  clear_value y5
  split
  · dsimp only
    exact State.PassKept.refl _
  · dsimp only
    exact State.PassKept.refl _
  · dsimp only
    exact State.PassKept.trans (by assumption) (State.setFrame_passKept ..)
  · refine State.PassKept.itp ?_ ?_
    · dsimp only [y3]
      refine State.PassKept.ite ?_ ?_
      · refine State.PassKept.trans ?_ (State.setFrame_passKept ..)
        exact State.frerCount_passKept ..
      · exact State.frerCount_passKept ..
    · dsimp only
      exact State.frerDiscard_passKept ..
  · split
    rename_i x7 e8
    have h9 : s.PassKept x7 := State.PassKept.of_pair e8 (by exact State.frerVector_passKept ..)
    dsimp only [y3]
    refine State.PassKept.ite ?_ ?_
    · exact State.PassKept.trans (by assumption) (State.setFrame_passKept ..)
    · assumption
  · split
    rename_i x10 e11
    have h12 : s.PassKept x10 := State.PassKept.of_pair e11 (by exact State.frerMatch_passKept ..)
    dsimp only [y3]
    refine State.PassKept.ite ?_ ?_
    · exact State.PassKept.trans (by assumption) (State.setFrame_passKept ..)
    · assumption

theorem State.frerRun_passKept (s : State) (r : Pass) (n : Nat) (bad : Bool) : s.PassKept (s.frerRun r n bad).2 := by
  unfold State.frerRun
  extract_lets y2
  have h3 : State.PassKept s y2 := by
    unfold y2
    refine State.PassKept.ite ?_ ?_
    · refine State.PassKept.trans ?_ (State.logErr_passKept ..)
      refine State.PassKept.trans ?_ (State.frerCount_passKept ..)
      exact State.frerReset_passKept ..
    · exact State.PassKept.refl _
  clear_value y2
  split
  · refine State.PassKept.itp ?_ ?_
    · dsimp only
      assumption
    · exact State.PassKept.trans (by assumption) (State.frerDecide_passKept ..)
  · exact State.PassKept.trans (by assumption) (State.frerDecide_passKept ..)

theorem State.creditReceived_passKept (s : State) (f : Frame) : s.PassKept (s.creditReceived f) := by
  unfold State.creditReceived
  split
  · exact State.PassKept.refl _
  · refine State.PassKept.mapDp ?_ (fun d => ⟨rfl, rfl, rfl, rfl⟩)
    exact State.PassKept.refl _

theorem State.mapMeter_passKept (s : State) (m : Nat) (f : Meter → Meter) : s.PassKept (s.mapMeter m f) := by
  unfold State.mapMeter
  refine State.PassKept.mapDp ?_ (fun d => ⟨rfl, rfl, rfl, rfl⟩)
  exact State.PassKept.refl _

theorem State.meter_passKept (s : State) (m len col : Nat) : s.PassKept (s.meter m len col).2.2 := by
  unfold State.meter
  extract_lets y1 y2 y3
  refine State.PassKept.itp2 ?_ ?_
  · dsimp only
    exact State.mapMeter_passKept ..
  · refine State.PassKept.itp2 ?_ ?_
    · dsimp only
      exact State.mapMeter_passKept ..
    · refine State.PassKept.itp2 ?_ ?_
      · dsimp only
        exact State.mapMeter_passKept ..
      · dsimp only
        exact State.mapMeter_passKept ..

theorem State.bumpCtx_passKept (s : State) (n o : Nat) : s.PassKept (s.bumpCtx n o) := by
  unfold State.bumpCtx
  refine State.PassKept.keep ?_
  exact State.PassKept.refl _

theorem State.countSdu_passKept (s : State) (n : Nat) : s.PassKept (s.countSdu n) := by
  unfold State.countSdu
  refine State.PassKept.trans ?_ (State.raise_passKept ..)
  refine State.PassKept.trans ?_ (State.bump_passKept ..)
  exact State.bumpCtx_passKept ..

theorem State.policeMeter_passKept (s : State) (r : Pass) (n : Nat) : s.PassKept (s.policeMeter r n).2.2 := by
  unfold State.policeMeter
  refine State.PassKept.itp2 ?_ ?_
  · dsimp only
    exact State.PassKept.refl _
  · extract_lets y1 y2 y3
    split
    rename_i x4 e5
    have h6 : State.PassKept s x4 := State.PassKept.of_pair2 e5 (by
      exact State.meter_passKept ..)
    extract_lets y7 y8 y9 y10
    have h11 : State.PassKept s y7 := by
      unfold y7
      refine State.PassKept.ite ?_ ?_
      · assumption
      · exact State.PassKept.trans (by assumption) (State.setFrame_passKept ..)
    clear_value y7
    have h19 : State.PassKept s y8 := by
      exact State.PassKept.trans (by assumption) (State.bumpTab_passKept ..)
    clear_value y8
    have h21 : State.PassKept s y10 := by
      unfold y10
      refine State.PassKept.ite ?_ ?_
      · refine State.PassKept.trans ?_ (State.raise_passKept ..)
        exact State.PassKept.trans (by assumption) (State.mapMeter_passKept ..)
      · assumption
    clear_value y10
    refine State.PassKept.itp2 ?_ ?_
    · dsimp only
      refine State.PassKept.trans ?_ (State.bump_passKept ..)
      exact State.PassKept.trans (by assumption) (State.bumpCtx_passKept ..)
    · dsimp only
      assumption

theorem State.police_passKept (s : State) (r : Pass) : s.PassKept (s.police r).2.2 := by
  unfold State.police
  split
  · dsimp only
    exact State.PassKept.refl _
  · extract_lets y1 y2 y3 y4
    have h5 : s.PassKept y4 := by
      unfold y4
      refine State.PassKept.ite ?_ ?_
      · exact State.PassKept.refl _
      · exact State.setFrame_passKept ..
    clear_value y4
    refine State.PassKept.itp2 ?_ ?_
    · dsimp only
      exact State.PassKept.refl _
    · refine State.PassKept.itp2 ?_ ?_
      · dsimp only
        exact State.countSdu_passKept ..
      · exact State.PassKept.trans (by assumption) (State.policeMeter_passKept ..)

theorem State.digRecord_passKept (s : State) (r : DigRec) (w : Nat) : s.PassKept (s.digRecord r w) := by
  unfold State.digRecord
  extract_lets y1 y2 y3 y4 y5 y6
  have h7 : State.PassKept s y4 := by
    unfold y4
    refine State.PassKept.ite ?_ ?_
    · exact State.PassKept.refl _
    · refine State.PassKept.keep ?_
      exact State.PassKept.refl _
  clear_value y4
  refine State.PassKept.ite ?_ ?_
  · exact State.PassKept.trans (by assumption) (State.bump_passKept ..)
  · refine State.PassKept.keep ?_
    assumption

theorem State.digest_passKept (s : State) (r : Pass) (dests : List Nat) (outcome : Nat) : s.PassKept (s.digest r dests outcome) := by
  unfold State.digest
  extract_lets y1 y2 y3 y4
  refine State.PassKept.ite ?_ ?_
  · exact State.digRecord_passKept ..
  · exact State.PassKept.refl _

theorem State.creditOwed_passKept (s : State) (f : Frame) (len : Nat) : s.PassKept (s.creditOwed f len) := by
  unfold State.creditOwed
  refine State.PassKept.keep ?_
  exact State.PassKept.refl _

/-- The policer leaves the lists alone but for one pass result that goes on to admission (R164). -/
theorem State.provision_passKept (s : State) (r : Pass) : s.PassKept (s.provision r) := by
  unfold State.provision
  dsimp only
  split
  · exact State.PassKept.ite (State.PassKept.refl _) (State.setFrame_passKept ..)
  · exact State.PassKept.refl _

theorem State.policePass_kept (s : State) (r : Pass) (fabBad : List Nat) (frerBad : Bool) :
    ∃ u q, s.PassKept u ∧ s.policePass r fabBad frerBad = u.mapDp (fun d => { d with admits := d.admits ++ [q] }) := by
  unfold State.policePass
  dsimp only
  refine ⟨_, _, ?_, rfl⟩
  refine State.PassKept.trans ?_ (State.digest_passKept ..)
  refine State.PassKept.itp2 ?_ ?_
  · dsimp only
    split
    · refine State.PassKept.itp ?_ ?_
      · refine State.PassKept.trans ?_ (State.frerRun_passKept ..)
        exact (State.provision_passKept ..).trans (State.fabricCheck_passKept ..)
      · dsimp only
        exact (State.provision_passKept ..).trans (State.fabricCheck_passKept ..)
    · dsimp only
      exact (State.provision_passKept ..).trans (State.fabricCheck_passKept ..)
  · refine State.PassKept.itp2 ?_ ?_
    · dsimp only
      split
      · refine State.PassKept.itp ?_ ?_
        · refine State.PassKept.trans ?_ (State.frerRun_passKept ..)
          exact (State.provision_passKept ..).trans (State.fabricCheck_passKept ..)
        · dsimp only
          exact (State.provision_passKept ..).trans (State.fabricCheck_passKept ..)
      · dsimp only
        exact (State.provision_passKept ..).trans (State.fabricCheck_passKept ..)
    · dsimp only
      refine State.PassKept.trans ?_ (State.police_passKept ..)
      split
      · refine State.PassKept.itp ?_ ?_
        · refine State.PassKept.trans ?_ (State.frerRun_passKept ..)
          exact (State.provision_passKept ..).trans (State.fabricCheck_passKept ..)
        · dsimp only
          exact (State.provision_passKept ..).trans (State.fabricCheck_passKept ..)
      · dsimp only
        exact (State.provision_passKept ..).trans (State.fabricCheck_passKept ..)

end Sys2Proof.Machine
end

