-- ==== Sys2Proof/WellFormed.lean ====
section
/-! DEFINITION. Which commands are well formed: the pages, ports, channels, slots and registers they name exist, and words have their
width. A command that is not well formed is one that no master can make. -/
namespace Sys2Proof
open Machine

/-- The size of BAR0 (R22). -/
def bar0Size : Nat := 0x4000000

/-- A word of the MSEC tables that the handling of a frame reads (R383). -/
def secWordOk (x : Nat × Nat × Nat) : Bool := decide (x.1 < 4 ∧ x.2.1 < 512 ∧ x.2.2 < 4)

/-- Operands in range. -/
def Instr.wf : Instr → Bool
  | .registerWrite _ _ a _ => decide (a < bar0Size)
  | .scratchpadAliasWrite _ _ off _ => decide (off < 0x200000)
  | .ctrlEnSet _ p => p.ok
  | .ctrlEnClear _ p => p.ok
  | .ctrlDrainSet _ p => p.ok
  | .ctrlDrainClear _ p => p.ok
  | .blkrst _ p => p.ok
  | .freezeSet _ p => p.ok
  | .freezeClear _ p => p.ok
  | .workFinished p => p.ok
  | .drainLimitExpiry p => p.ok
  | .blockFault p code _ => p.ok && decide (code < 256)
  | .shadowWrite _ p off v => p.ok && decide (0x800 ≤ off ∧ off < 0xF00 ∧ off % 4 = 0) && decide (v < 2 ^ 32)
  | .commitRequest _ p => p.ok
  | .commitAbandon _ p => p.ok
  | .assayerVerdict _ _ => true
  | .boundaryApply p => p.ok
  | .errClear _ p => p.ok
  | .snap _ p => p.ok
  | .ownerWrite _ p cls => p.ok && decide (cls < 4)
  | .ownerLock _ p => p.ok
  | .evtClr _ p v => p.ok && decide (v < 2 ^ 32)
  | .evtRouteWrite _ n v => decide (n < 266) && decide (v < 2 ^ 32)
  | .frameRxStart p _ _ => decide (p < 38)
  | .frameRxEnd p _ _ _ _ secBad => decide (p < 38) && secBad.all secWordOk
  | .cutThroughDecision p => decide (p < 38)
  | .upHoldExpiry p => decide (p < 38)
  | .pcsLockLoss p => decide (p < 38)
  | .downHoldExpiry p => decide (p < 38)
  | .pcsLockRegained p => decide (p < 38)
  | .faultOrderedSet p _ => decide (p < 38)
  | .faultSetsCease p => decide (p < 38)
  | .speedMismatch p => decide (p < 38)
  | .speedMismatchClear p => decide (p < 38)
  | .mdioRead _ p => decide (p < 38)
  | .mdioWrite _ p => decide (p < 38)
  | .mdioFrameDone m answer => decide (m < 2) && answer.all (fun x => decide (x < 65536))
  | .tc10SleepReq _ p => decide (p < 38)
  | .tc10WakeReq _ p => decide (p < 38)
  | .tc10QueuesEmpty p => decide (p < 38)
  | .tc10Timeout p => decide (p < 38)
  | .phyTc10Sleep p => decide (p < 38)
  | .tc10RemoteWake p => decide (p < 38)
  | .creditIntervalExpiry p => decide (p < 38)
  | .standaloneCreditSend p => decide (p < 38)
  | .creditStall p c => decide (p < 38) && decide (c < 8)
  | .parseWindow _ => true
  | .classify _ _ _ _ => true
  | .bankWrite _ a v => decide (a < bar0Size) && decide (v < 2 ^ 32)
  | .fibStageWrite _ a v => decide (a < bar0Size) && decide (v < 2 ^ 32)
  | .fibEntryApply _ a v => decide (a < bar0Size) && decide (v < 2 ^ 32)
  | .stageClr _ => true
  | .recircExpiry => true
  | .recircCountZero => true
  | .bankCloneDone => true
  | .police _ _ _ _ => true
  | .admission => true
  | .linkMemoryScrub bad => decide (bad < 3)
  | .rngReseed _ => true
  | .qstatPeakRead => true
  | .schedDecision p _ => decide (p < 38)
  | .transmitStart p _ _ _ _ secBad => decide (p < 38) && secBad.all secWordOk
  | .transmitEnd p _ _ => decide (p < 38)
  | .meterClr _ v => decide (v < 2 ^ 32)
  | .localNsRead => true
  | .tabDataAccess _ p _ v _ => p.ok && p.tabOff.isSome && v.all (fun x => decide (x < 2 ^ 32))
  | .qschTableScrub bad => decide (bad < 3)
  | .gateEntryStart p => decide (p < 38)
  | .gateListWrite _ p b k w v => decide (p < 38) && decide (b < 2) && decide (k < 1024) && decide (w < 2) && decide (v < 2 ^ 32)
  | .gateTakeover p => decide (p < 38)
  | .gateCloneDone p => decide (p < 38)
  | .gateListScrub p b k bad => decide (p < 38) && decide (b < 2) && decide (k < 1024) && decide (bad < 3)
  | .adjWrite _ d v => decide (d < 4) && decide (v < 2 ^ 32)
  | .slewCfgWrite _ v => decide (v < 2 ^ 32)
  | .domainStep _ d => decide (d < 4)
  | .domainSet _ d => decide (d < 4)
  | .tsnap _ => true
  | .txtsPop _ => true
  | .failoverScan p => decide (p < 38)
  | .nodeWrite _ id _ => decide (id < 65536)
  | .frerScan => true
  | .laneUp i => decide (i < 2)
  | .laneDown i => decide (i < 2)
  | .heartbeatSend => true
  | .heartbeatReceive lane _ => decide (lane < 2)
  | .heartbeatLoss => true
  | .digestSend => true
  | .digestReceive lane _ => decide (lane < 2)
  | .digestWaitExpiry => true
  | .fenceRise => true
  | .fenceFall => true
  | .listenTimeout => true
  | .roleCmdTake _ => true
  | .roleCmdYield _ => true
  | .roleCmdForce _ => true
  | .controlFrameReceive lane _ _ => decide (lane < 2)
  | .controlRetransmit kind => decide (kind < 5)
  | .heldCopyExpiry q => decide (q < 4096)
  | .traceRelease _ => true
  | .fwWdogKick _ => true
  | .fwWatchdogExpiry => true
  | .selftestPass i _ => decide (i < 9)
  | .mpStart _ m => decide (m < 4)
  | .mpGo _ m => decide (m < 4)
  | .mpFenceReq _ m => decide (m < 4)
  | .comparatorTestDone unit _ => decide (unit < 5)
  | .mpFenceDrained m => decide (m < 4)
  | .lockstepMismatch m channel _ => decide (m < 4) && decide (channel < 3)
  | .tpMismatch channel => decide (channel < 3)
  | .tpRestartDone _ => true
  | .mpcFence _ => true
  | .mbxRing _ _ => true
  | .mringTail _ r v => decide (r < 16) && decide (v < 2 ^ 32)
  | .mgmtTxFrame r _ _ => decide (r < 8)
  | .mkaKeys slot => decide (slot < 5)
  | .mkaIcv slot => decide (slot < 5)
  | .sakNew slot => decide (slot < 5)
  | .sakInstall slot => decide (slot < 5)
  | .slotFree slot => decide (slot < 5)
  | .cupBind slot => decide (slot < 5)
  | .cupUnbind slot => decide (slot < 5)
  | .keyPut slot => decide (slot < 5)
  | .keyPutWrapped slot => decide (slot < 5)
  | .keyDelete slot => decide (slot < 5)
  | .lcChallenge slot => decide (slot < 5)
  | .lcTransition slot => decide (slot < 5)
  | .imgBegin slot => decide (slot < 5)
  | .imgBlock slot _ => decide (slot < 5)
  | .imgVerify slot => decide (slot < 5)
  | .imgStage slot => decide (slot < 5)
  | .imgSignet slot => decide (slot < 5)
  | .imgCommit slot => decide (slot < 5)
  | .imgAbandon slot => decide (slot < 5)
  | .recBegin slot => decide (slot < 5)
  | .recBlock slot _ => decide (slot < 5)
  | .recActivate slot => decide (slot < 5)
  | .recRead slot => decide (slot < 5)
  | .recSeal slot => decide (slot < 5)
  | .ageSave slot => decide (slot < 5)
  | .ageLoad slot => decide (slot < 5)
  | .mgmtReset slot => decide (slot < 5)
  | .canFrameReceived n _ _ _ => decide (n < 64)
  | .cmacJobDone n _ => decide (n < 64)
  | .cmacJobTimeout n _ => decide (n < 64)
  | .busEgressFrame => true
  | .canArbitrationStart n => decide (n < 64)
  | .canTxDone n => decide (n < 64)
  | .canError n lec _ _ _ => decide (n < 64) && decide (lec < 8)
  | .boHoldExpiry n => decide (n < 64)
  | .canRecover _ n => decide (n < 64)
  | .canIntegrated n => decide (n < 64)
  | .canRecovered n => decide (n < 64)
  | .pnSleepReq _ n => decide (n < 64)
  | .pnWakeReq _ n => decide (n < 64)
  | .pnListenEnter n => decide (n < 64)
  | .linScheduleSlot n => decide (n < 16)
  | .linHeaderReceived n id _ _ => decide (n < 16) && decide (id < 64)
  | .linResponseReceived n _ _ _ _ => decide (n < 16)
  | .linNoResponse n => decide (n < 16)
  | .linSleepReq _ n => decide (n < 16)
  | .linWakeReq _ n => decide (n < 16)
  | .linGoToSleepReceived n => decide (n < 16)
  | .linIdleTimeout n => decide (n < 16)
  | .linDominantWake n => decide (n < 16)
  | .linScheduleRestart n => decide (n < 16)
  | .slot0Received n _ _ _ => decide (n < 16)
  | .mfSearchTimeout n => decide (n < 16)
  | .losRise n _ _ => decide (n < 16)
  | .losClear n _ _ => decide (n < 16)
  | .deviceFrameStart _ _ _ => true
  | .performanceSecond n => decide (n < 16)
  | .connPageWrite _ a v => decide (a < bar0Size) && decide (v < 2 ^ 32)
  | .tsiCloneDone => true
  | .tdmEgressFrame => true
  | .jobGo _ n => decide (n < 64)
  | .cipherJobDone n _ _ _ _ => decide (n < 64)
  | .donePop _ n => decide (n < 64)
  | .keyLoad _ => true
  | .keyZero _ => true
  | .slotRemask => true
  | .rngSeedTimeout => true
  | .keyCountSync => true
  | .pcieLinkUp speed width => decide (1 ≤ speed ∧ speed ≤ 4) && (width == 1 || width == 2 || width == 4)
  | .pcieLinkDown => true
  | .flr => true
  | .hotReset => true
  | .perst => true
  | .configRequest _ v => v.all (fun x => decide (x < 2 ^ 32))
  | .cfgReadyTimeout => true
  | .hostBar4Read off size => decide (0 < size ∧ size ≤ 4096 ∧ off + size ≤ 0x4000000)
  | .hostBar4Write off words => decide (off % 4 = 0 ∧ off + 4 * words.length ≤ 0x4000000) && words.all (fun v => decide (v < 2 ^ 32))
  | .hostPoisonedWrite _ => true
  | .hostUnsupportedRequest => true
  | .msixUnmask v => decide (v < 256)
  | .bridgeWindowAccess _ _ _ _ => true
  | .bridgeLr _ _ _ => true
  | .bridgeSc _ _ _ _ => true
  | .bridgeAmo _ _ _ _ _ => true
  | .reservationExpiry _ => true
  | .bridgeWriteReceived orig a _ => decide (orig < 16) && decide (a < bar0Size)
  | .bridgeReadReceived orig tag a words _ => decide (orig < 16) && decide (tag < 64) && decide (a < bar0Size) && decide (words < 65)
  | .bridgeCasReceived orig tag a words _ _ => decide (orig < 16) && decide (tag < 64) && decide (a < bar0Size) && decide (words < 3)
  | .bridgeCplReceived tag status _ => decide (tag < 64) && decide (status < 3)
  | .bridgeWriteFailReceived orig code _ => decide (orig < 16) && decide (code < 256)
  | .peerRequestTimeout tag => decide (tag < 64)
  | .peerRetryWait tag => decide (tag < 64)
  | .peerPoll => true
  | .pwlogPop _ => true
  | .rxTailDoorbell _ r v => decide (r < 64) && decide (v < 2 ^ 32)
  | .txTailDoorbell _ r v => decide (r < 64) && decide (v < 2 ^ 32)
  | .hostTxFrame _ _ => true
  | .ringIrqTimer _ r => decide (r < 64)
  | .dmaDoorbell _ c v => decide (c < 32) && decide (v < 2 ^ 32)
  | .dmaDescriptorDone c _ _ _ => decide (c < 32)
  | .dmaAbort _ c _ _ _ => decide (c < 32)
  | .dmaResume _ c => decide (c < 32)
  | .dmaSkip _ c => decide (c < 32)
  | .scrMbxRing _ _ => true
  | .dbSet _ v => decide (v < 2 ^ 32)
  | .powerReqRun _ => true
  | .powerReqPartial _ => true
  | .powerReqDoze _ => true
  | .powerReqSleep _ => true
  | .raiseDone => true
  | .prepareEnd => true
  | .quiesceDone => true
  | .quiesceLimit i => decide (i < 14)
  | .lowerDone => true
  | .thermalTrip i _ => decide (i < 14)
  | .supplyAlarm => true
  | .forcedCauseClear => true
  | .wakeIn pins => decide (pins < 65536)
  | .wakeTimer => true
  | .wakeComplete => true
  | .wakeConfirm _ => true
  | .confirmTimeout => true
  | .unmaskTimer n => decide (n < 21)
  | .charmReceived p _ => decide (p < 38)
  | .netTimeout => true
  | .nmHoldWrite _ _ reason => decide (reason < 256)
  | .nmEtypeWrite _ etype _ sleep => decide (etype < 65536) && decide (sleep < 4)
  | .charmTxDue => true
  | .otpProgram _ => true
  | .tamperTrip n => decide (n < 7)
  | .dbgChalReq _ => true
  | .dbgTokenSubmit _ => true
  | .coldBoot => true
  | .warmBoot => true
  | .mainReady => true
  | .trialExpired => true
  | .ageSample _ => true
  | .vreqWrite _ i v => decide (i < 14) && decide (v < 2 ^ 32)
  | .voltageMoveStep i _ => decide (i < 14)
  | .canaryFail i => decide (i < 14)
  | .frequencyGlideDone i => decide (i < 14)
  | .xtalAlarm => true
  | .coldReset _ => true
  | .porNLow => true
  | .sysRstNLow => true
  | .rstCtrlDevice _ => true
  | .rstCtrlSystem _ => true
  | .rstCtrlMgmt _ => true
  | .brownOut => true
  | .noMpTimeout => true
  | .gpioEdge i _ => decide (i < 16)
  | .tapReset => true
  | .bypass => true
  | .idcode => true
  | .samplePreload _ _ => true
  | .extest _ _ => true
  | .clamp => true
  | .highz => true
  | .dbgAccess a v => decide (a < bar0Size) && v.all (fun x => decide (x < 2 ^ 32))
  | .pcsLockAcquired p lane => decide (p < 38) && decide (lane < 4)
  | .hostCompletionReceived _ _ => true
  | .completionTimeout _ => true
  | .resetSourceRelease _ => true
  | .misalignedRead _ bar a _ _ => decide (a < (match bar with | .bar0 => bar0Size | .bar2 => 0x4000))
  | .processorMemoryAccess _ _ _ _ _ _ => true
  | .eccHealthExpiry => true

end Sys2Proof
end

