-- ==== Sys2Proof/Tests/Slice0.lean ====
section
/-! SUPPORT. Tests: well-formedness, values from outside the model, single commands, and for every statement with hypotheses a state and
operands that meet them, clause by clause. -/
namespace Sys2Proof.Tests
open Machine

set_option Elab.async false
set_option linter.unusedVariables false

/-! ## Well-formedness: for each check a command that breaks it alone -/

theorem test_wf_1 : ((
  [.registerWrite .tp .bar0 bar0Size [], .scratchpadAliasWrite .tp false 0x200000 [], .ctrlEnSet .tp (.etp 38), .ctrlEnClear .tp (.etp 38),
    .ctrlDrainSet .tp (.etp 38), .ctrlDrainClear .tp (.etp 38), .blkrst .tp (.etp 38), .freezeSet .tp (.etp 38), .freezeClear .tp (.etp 38),
    .workFinished (.etp 38), .drainLimitExpiry (.etp 38), .blockFault (.etp 38) 0 0, .blockFault .sys 256 0, .shadowWrite .tp (.etp 38) 0x800 0,
    .shadowWrite .tp .sys 0x7FC 0, .shadowWrite .tp .sys 0xF00 0, .shadowWrite .tp .sys 0x802 0, .shadowWrite .tp .sys 0x800 (2 ^ 32),
    .commitRequest .tp (.etp 38), .commitAbandon .tp (.etp 38), .boundaryApply (.etp 38), .errClear .tp (.etp 38), .snap .tp (.etp 38),
    .ownerWrite .tp (.etp 38) 0] : List Instr).all (fun c => !c.wf)) = true := by decide

theorem test_wf_2 : ((
  [.ownerWrite .tp .sys 4, .ownerLock .tp (.etp 38), .evtClr .tp (.etp 38) 0, .evtClr .tp .sys (2 ^ 32), .evtRouteWrite .tp 266 0,
    .evtRouteWrite .tp 0 (2 ^ 32), .frameRxStart 38 [] 0, .frameRxEnd 38 [] false 0 0 none, .frameRxEnd 0 [] false 0 0 (some (4, 0, 0)), .cutThroughDecision 38, .upHoldExpiry 38,
    .pcsLockLoss 38, .downHoldExpiry 38, .pcsLockRegained 38, .faultOrderedSet 38 false, .faultSetsCease 38, .speedMismatch 38,
    .speedMismatchClear 38, .mdioRead .tp 38, .mdioWrite .tp 38, .mdioFrameDone 2 none, .mdioFrameDone 0 (some (65536)), .tc10SleepReq .tp 38,
    .tc10WakeReq .tp 38, .tc10QueuesEmpty 38] : List Instr).all (fun c => !c.wf)) = true := by decide

theorem test_wf_3 : ((
  [.tc10Timeout 38, .phyTc10Sleep 38, .tc10RemoteWake 38, .creditIntervalExpiry 38, .standaloneCreditSend 38, .creditStall 38 0,
    .creditStall 0 8, .bankWrite .tp bar0Size 0, .bankWrite .tp 0 (2 ^ 32), .fibStageWrite .tp bar0Size 0,
    .fibStageWrite .tp 0 (2 ^ 32), .fibEntryApply .tp bar0Size 0, .fibEntryApply .tp 0 (2 ^ 32), .linkMemoryScrub 3, .schedDecision 38 0,
    .transmitStart 38 0 0 0 none none, .transmitStart 0 0 0 0 none (some (0, 512, 0)), .transmitEnd 38 0 none, .meterClr .tp (2 ^ 32), .tabDataAccess .tp (.etp 38) false none .clean,
    .tabDataAccess .tp .sys false none .clean, .tabDataAccess .tp .qsch false (some (2 ^ 32)) .clean, .qschTableScrub 3, .gateEntryStart 38] : List Instr).all (fun c => !c.wf)) = true := by decide

theorem test_wf_4 : ((
  [.gateListWrite .tp 38 0 0 0 0, .gateListWrite .tp 0 2 0 0 0, .gateListWrite .tp 0 0 1024 0 0, .gateListWrite .tp 0 0 0 2 0,
    .gateListWrite .tp 0 0 0 0 (2 ^ 32), .gateTakeover 38, .gateCloneDone 38, .gateListScrub 38 0 0 0, .gateListScrub 0 2 0 0,
    .gateListScrub 0 0 1024 0, .gateListScrub 0 0 0 3, .adjWrite .tp 4 0, .adjWrite .tp 0 (2 ^ 32), .slewCfgWrite .tp (2 ^ 32),
    .domainStep .tp 4, .domainSet .tp 4, .failoverScan 38, .nodeWrite .tp 65536 false, .laneUp 2, .laneDown 2, .heartbeatReceive 2 [],
    .digestReceive 2 [], .controlFrameReceive 2 [] .clean, .controlRetransmit 5] : List Instr).all (fun c => !c.wf)) = true := by decide

theorem test_wf_5 : ((
  [.heldCopyExpiry 4096, .selftestPass 9 false, .mpStart .tp 4, .mpGo .tp 4, .mpFenceReq .tp 4, .comparatorTestDone 5 none, .mpFenceDrained 4,
    .lockstepMismatch 4 0 0, .lockstepMismatch 0 4 0, .tpMismatch 4, .mringTail .tp 16 0, .mringTail .tp 0 (2 ^ 32), .mgmtTxFrame 8 false 0,
    .mkaKeys 5, .mkaIcv 5, .sakNew 5, .sakInstall 5, .slotFree 5, .cupBind 5, .cupUnbind 5, .keyPut 5, .keyPutWrapped 5, .keyDelete 5,
    .lcChallenge 5] : List Instr).all (fun c => !c.wf)) = true := by decide

theorem test_wf_6 : ((
  [.lcTransition 5, .imgBegin 5, .imgBlock 5 false, .imgVerify 5, .imgStage 5, .imgSignet 5, .imgCommit 5, .imgAbandon 5, .recBegin 5,
    .recBlock 5 false, .recActivate 5, .recRead 5, .recSeal 5, .ageSave 5, .ageLoad 5, .mgmtReset 5, .canFrameReceived 64 ({ id := 0 }) 0 0,
    .cmacJobDone 64 false, .cmacJobTimeout 64 false, .canArbitrationStart 64, .canTxDone 64, .canError 64 0 false false 0,
    .canError 0 8 false false 0, .boHoldExpiry 64] : List Instr).all (fun c => !c.wf)) = true := by decide

theorem test_wf_7 : ((
  [.canRecover .tp 64, .canIntegrated 64, .canRecovered 64, .pnSleepReq .tp 64, .pnWakeReq .tp 64, .pnListenEnter 64, .linScheduleSlot 16,
    .linHeaderReceived 16 0 0 false, .linHeaderReceived 0 64 0 false, .linResponseReceived 16 [] 0 0 0, .linNoResponse 16, .linSleepReq .tp 16,
    .linWakeReq .tp 16, .linGoToSleepReceived 16, .linIdleTimeout 16, .linDominantWake 16, .linScheduleRestart 16, .slot0Received 16 0 0 [],
    .mfSearchTimeout 16, .losRise 16 false 0, .losClear 16 false 0, .performanceSecond 16, .connPageWrite .tp bar0Size 0, .connPageWrite .tp 0 (2 ^ 32)] : List Instr).all (fun c => !c.wf)) = true := by decide

theorem test_wf_8 : ((
  [.jobGo .tp 64, .cipherJobDone 64 [] none false (0, 0), .donePop .tp 64, .pcieLinkUp 8 0, .pcieLinkUp 0 8,
    .configRequest .vendorDevice (some (2 ^ 32)), .msixUnmask 256, .bridgeWriteReceived 16 0 [], .bridgeWriteReceived 0 bar0Size [],
    .bridgeReadReceived 16 0 0 0 .clean, .bridgeReadReceived 0 64 0 0 .clean, .bridgeReadReceived 0 0 bar0Size 0 .clean, .bridgeReadReceived 0 0 0 65 .clean,
    .bridgeCasReceived 16 0 0 0 [] .clean, .bridgeCasReceived 0 64 0 0 [] .clean, .bridgeCasReceived 0 0 bar0Size 0 [] .clean, .bridgeCasReceived 0 0 0 3 [] .clean,
    .bridgeCplReceived 64 0 [], .bridgeCplReceived 0 3 [], .bridgeWriteFailReceived 16 0 0, .bridgeWriteFailReceived 0 256 0,
    .peerRequestTimeout 64, .peerRetryWait 64, .rxTailDoorbell .tp 64 0] : List Instr).all (fun c => !c.wf)) = true := by decide

theorem test_wf_9 : ((
  [.rxTailDoorbell .tp 0 (2 ^ 32), .txTailDoorbell .tp 64 0, .txTailDoorbell .tp 0 (2 ^ 32), .ringIrqTimer false 64,
    .dmaDoorbell .tp 32 0, .dmaDoorbell .tp 0 (2 ^ 32), .dmaDescriptorDone 32 [] none (0, 0), .dmaAbort .tp 32 0 [] (0, 0), .dmaResume .tp 32,
    .dmaSkip .tp 32, .dbSet .tp (2 ^ 32), .quiesceLimit 14, .thermalTrip 14 0, .wakeIn 65536, .unmaskTimer 21, .charmReceived 38 [],
    .nmHoldWrite .tp false 256, .nmEtypeWrite .tp 65536 false 0, .nmEtypeWrite .tp 0 false 4, .tamperTrip 7, .vreqWrite .tp 14 0,
    .vreqWrite .tp 0 (2 ^ 32), .voltageMoveStep 14 {}] : List Instr).all (fun c => !c.wf)) = true := by decide

theorem test_wf_10 : ((
  [.canaryFail 14, .frequencyGlideDone 14, .gpioEdge 16 false, .dbgAccess bar0Size none, .dbgAccess 0 (some (2 ^ 32)), .pcsLockAcquired 38 0,
    .pcsLockAcquired 0 4, .misalignedRead .tp .bar0 bar0Size 0 .clean, .misalignedRead .host .bar2 0x4000 0 .clean] : List Instr).all (fun c => !c.wf)) = true := by decide

/-! ## States for the tests -/

/-- The reset state with the TP executing, so that its accesses leave it. -/
def base : State := State.reset.setTp 3
/-- A state of the tests: `base` with fields set. -/
def S (l : List (Page × Fld × Nat)) (s : State := base) : State := l.foldl (fun s x => s.setFld x.1 x.2.1 x.2.2) s
/-- `base` with MP 3 in RUN, and fields set. -/
def mp3 (l : List (Page × Fld × Nat) := []) : State := S ((.mpc, Mpc.MP_STATUS_ST 3, 2) :: l)
/-- A frame of 64 bytes with a good FCS. -/
def good64 : List Byte := let l : List Byte := [1, 2, 3, 4, 5, 6, 7, 8, 9, 10, 11, 12, 0x88, 0xB5] ++ List.replicate 46 7; l ++ fcsBytes l
/-- A state whose port 3 is in RUN and UP, with BUF and QSCH in RUN. -/
def up (p : Nat) (s : State := base) : State :=
  S [(.etp p, Hdr.STATE_ST, 1), (.etp p, Etp.LINK_STATUS_LST, 2), (.buf, Hdr.STATE_ST, 1), (.qsch, Hdr.STATE_ST, 1), (.prs, Hdr.STATE_ST, 1),
     (.cls, Hdr.STATE_ST, 1)] s
/-- The blocks of a heartbeat (kind 1, 3 blocks) or digest (kind 2, 4 blocks) of the partner. -/
def beat (kind blocks : Nat) (l : List Byte) : List BeatBlock :=
  let x := BitVec.ofNat 8 (16 * kind + blocks) :: (l ++ List.replicate (7 * blocks - 3 - l.length) 0)
  let x := x ++ beBytes 2 (crc16 x)
  (List.range blocks).map (fun i => ⟨2, if i = 0 then 0xC3 else 0x3C, (x.drop (7 * i)).take 7⟩)
/-- The pair in RUN with lane 0 UP and a role. -/
def pair (role : Nat) (l : List (Page × Fld × Nat) := []) : State :=
  S ([(.clsp, Hdr.STATE_ST, 1), (.clsp, Clsp.ROLE_STATUS_LANE0_UP, 1), (.clsp, Clsp.ROLE_STATUS_ROLE, role)] ++ l)
/-- A control frame of a kind with a payload. -/
def ctlF (kind seq : Nat) (payload : List Byte) : List Byte :=
  let e := State.reset.fld .clsp Clsp.PAIR_CFG_CTL_ETYPE
  let l : List Byte := List.replicate 12 1 ++ beBytes 2 e ++ [BitVec.ofNat 8 (16 * kind + 1), 1] ++ beBytes 2 seq ++ beBytes 2 payload.length ++ payload
  let l := l ++ List.replicate (60 - l.length) 0
  l ++ fcsBytes l
/-- Fuses programmed. -/
def blown (l : List Nat) (s : State := base) : State := l.foldl State.blow s
/-- The life-cycle state `n`. -/
def life (n : Nat) (s : State := base) : State := blown ((List.range (3 * n)).map (80 + ·)) s
/-- A request in work at a slot, with Signet running. -/
def ask (slot cmd : Nat) (arg : List Byte) (s : State := base) : State :=
  (S [(.tru, Tru.TP_STATUS_RUNNING, 1), (.tru, Tru.MBX_STATUS_ST slot, 1)] s).mapProcs (fun p =>
    { p with mbx := p.mbx.set slot (leBytes 2 cmd ++ [7, 0] ++ leBytes 2 arg.length ++ [0, 0] ++ arg), tp := 3 })
/-- CAN channel 63 in RUN with a state CST. -/
def can63 (cst : Nat) (l : List (Page × Fld × Nat) := []) : State := S ([(.can 63, Hdr.STATE_ST, 1), (.can 63, Can.STATUS_CST, cst)] ++ l)
/-- LIN channel 15 in RUN and ACTIVE. -/
def lin15 (l : List (Page × Fld × Nat) := []) : State := S ([(.lin 15, Hdr.STATE_ST, 1), (.lin 15, Lin.STATUS_LST, 1)] ++ l)
/-- The host's link up with Bus Master Enable, and more fields. -/
def host (l : List (Page × Fld × Nat) := []) : State := mp3 ([(.pcie, Pcie.LINK_STATUS_DL_UP, 1), (.pcie, Pcie.LINK_STATUS_BME, 1)] ++ l)
/-- The bridge in RUN with window 15 enabled, to the host or (TARGET) the partner, the path up on lane 0. -/
def brg (l : List (Page × Fld × Nat) := []) : State :=
  host ([(.brg, Hdr.STATE_ST, 1), (.brg, Brg.WIN_CFG_EN 15, 1), (.brg, Brg.WIN_CFG_LOG2 15, 16), (.brg, Brg.PEER_CFG_EN, 1),
    (.brg, Brg.PEER_STATUS_PATH_UP, 1), (.clsp, Hdr.STATE_ST, 1), (.clsp, Clsp.ROLE_STATUS_LANE0_UP, 1), (.clsp, Clsp.ROLE_STATUS_ROLE, 4)] ++ l)
/-- Transmit ring 63 of 16 descriptors with one frame of 64 bytes. -/
def ring63 (w2 : Nat) : State :=
  let s := (up 32 (host [(.ring, Hdr.STATE_ST, 1), (.ring, Ring.TX_TAIL_TAIL 63, 1)])).setTab .ring 1 63 2 (BitVec.ofNat 32 (4 + 256))
  { s with mem := { s.mem with host := s.mem.host.putBytes 0 (leBytes 8 0x1000 ++ leBytes 4 w2) } }
/-- DMA channel 31 BUSY in management SRAM with one descriptor of 2 rows of 8 bytes. -/
def dma31 (dst : Nat) : State :=
  ((host [(.dma, Hdr.STATE_ST, 1), (.dma, Dma.CH_CTRL_ST 31, 2), (.dma, Dma.TAIL_TAIL 31, 1), (.dma, Dma.MS_WIN_LIMIT_OFFSET, 0xFFFF), (.dma, Dma.MS_WIN_BASE_OFFSET, 0)]).setTab
    .dma 0 31 2 (BitVec.ofNat 32 (2 + 16 + 256))).mapMsram (fun m =>
      m.putBytes 0 (leBytes 8 0x1000 ++ leBytes 8 dst ++ leBytes 4 8 ++ leBytes 4 2 ++ leBytes 4 16 ++ leBytes 4 16 ++ leBytes 4 5))
/-- A frame for the gateway with one ACF message, a CAN frame of 8 bytes, whose FCS is not looked at. -/
def acfFrame : List Byte :=
  [1, 2, 3, 4, 5, 6, 7, 8, 9, 10, 11, 12, 0x22, 0xF0, 0x82, 0, 24] ++ List.replicate 9 0 ++ [2, 6, 0, 0] ++ List.replicate 8 0 ++ [0, 0, 0, 5] ++
    [1, 2, 3, 4, 5, 6, 7, 8] ++ List.replicate 14 0
/-- TSI with the playback stream 0 of one channel enabled, and a frame for it. -/
def tsi0 : State := (S []).setTab .tsi 1 0 0 1
def aafIn : List Byte := [1, 2, 3, 4, 5, 6, 7, 8, 9, 10, 11, 12, 0x22, 0xF0] ++ tsi0.aafHeader 1 0 0 ++ [0x55, 0, 0, 0, 0]
/-- NM in RUN with an EtherType, on port 31. -/
def nm (l : List (Page × Fld × Nat) := []) : State :=
  S ([(.nm, Hdr.STATE_ST, 1), (.nm, Nm.NM_CFG_ETYPE, 0x88B5), (.nm, Nm.PORTS_LO_PORTS, 2 ^ 31)] ++ l)
/-- A Charm frame of a kind for the destination of the reset state. -/
def charm (kind : Nat) : List Byte :=
  beBytes 6 (State.reset.fld .nm Nm.CHARM_DA_LO_DA + 2 ^ 32 * State.reset.fld .nm Nm.CHARM_DA_HI_DA) ++ [1, 2, 3, 4, 5, 6, 0x88, 0xB5] ++
    [BitVec.ofNat 8 (16 + kind), 9, 0x12, 0x34, 0, 0]
/-- Signet and debug waiting in a life-cycle state. -/
def dbg (n : Nat) (l : List (Page × Fld × Nat) := []) : State := life n (S ([(.tru, Tru.TP_STATUS_RUNNING, 1)] ++ l))

/-- Words of the table windows: address, bytes, value. -/
def winPut (l : List (Nat × Nat × Nat)) (s : State) : State :=
  l.foldl (fun s x => { s with mem := { s.mem with win := s.mem.win.putNum x.1 x.2.1 x.2.2 } }) s
/-- A boot header in the first copy: SEQ, the states of slots A and B, TRIES. -/
def hdr (seq a b tries : Nat) (s : State) : State := s.putFlash 0 (⟨seq, a, b, tries⟩ : BootHdr).bytes
/-- A pass of a frame of port 31 at the classifier, with a key of zeros. -/
def atCls (l : List (Page × Fld × Nat)) : State :=
  (S l (up 31)).mapDp (fun d =>
    { d with keys := [{ frame := 1, key := List.replicate 60 0 }], frames := d.frames.set 1 { ingress := 31, bytes := good64, ended := true, parsed := true } })
/-- A result of context 5 at the policer, with word 0 of the context. -/
def atPolicer (w0 : Nat) (r : Pass) : State :=
  winPut [(0x1A00500, 4, w0), (0x1A00504, 4, 7 * 2 ^ 16 + 9)] ((up 31).mapDp (fun d =>
    { d with results := [r], frames := d.frames.set 1 { ingress := 31, bytes := good64, ended := true, parsed := true, flags := 8 } }))
/-- A protected frame without confidentiality, PN 1, of an integrity key of 16 ones, and port 31 with that key in reception of it. -/
def secHead : List Byte := [1, 2, 3, 4, 5, 6, 7, 8, 9, 10, 11, 12, 0x88, 0xE5, 0, 0, 0, 0, 0, 1]
def secData : List Byte := [0x88, 0xB5] ++ List.replicate 58 7
def secFrame : List Byte := refcs (secHead ++ secData ++ gcmTag (List.replicate 16 1) (secIv false 0 0 1 []) (secHead ++ secData) [])
def secured31 : State :=
  { (((S [(.msec, Hdr.STATE_ST, 1)] (up 31)).setTab .msec 0 31 0 2).setTab .msec 3 496 0 (BitVec.ofNat 32 (2 ^ 31 + 5))).mapDp (fun d =>
      { d with rx := d.rx.set 31 1, nextFrame := 2, frames := d.frames.set 1 { ingress := 31, current := 31, provLen := 1518, secured := true } }) with
    slots := State.reset.slots.set 5 { key := List.replicate 16 1, bind := 1, loaded := true } }
/-- Queues attached to service node 6 of port 3, one frame waiting in each. -/
def atSched (l : List Nat) : State :=
  (l.foldl (fun s q => s.setTab .qsch 0 q 0 (BitVec.ofNat 32 (3 + 6 * 2 ^ 8 + 2 * 2 ^ 16))) (up 3)).mapDp (fun d =>
    { d with
      queues := l.foldl (fun m q => m.set q { copies := [{ frame := 1, port := 3, queue := q, charge := 1 }], used := 1 }) d.queues
      frames := d.frames.set 1 { ingress := 31, bytes := good64, ended := true, parsed := true, decided := true, refs := l.length } })

/-- Without GATE_EN no member is too long for a window. -/
theorem gateOversize_off (s : State) (p cls len : Nat) (h : s.flag (.tgate p) Tgate.GATE_CFG_GATE_EN = false) : s.gateOversize p cls len = false := by
  unfold State.gateOversize
  split
  · simp [h]
  · rfl
theorem gateAdmits_free (s : State) (p cls len ts : Nat) (h : s.gateMode p = .free) : s.gateAdmits p cls len ts = true := by
  unfold State.gateAdmits
  rw [h]

/-! ## Signed objects: a key whose private key is 1, an image, a token -/

/-- The public key of the private key 1: the base point of P-384; its bit `i` as the fuses hold it. -/
def baseKey : List Byte := beBytes 48 p384Gx ++ beBytes 48 p384Gy
def baseBit (i : Nat) : Bool := (byteAt baseKey (i / 8)).testBit (i % 8)
/-- That key in the fuses of key `k`. -/
def keyed (k : Nat) (s : State) : State :=
  { s with mem := { s.mem with otp := s.mem.otp.putBytes (keyFuse k) ((List.range 768).map (fun i => if baseBit i then 1 else 0)) } }
/-- The r of the signatures below, made with the private key 1 and the nonce 2. -/
def sigR : Nat := 0x8D999057BA3D2D969260045C55B97F089025959A6F434D651D207D19FB96E9E4FE0E86EBE0E64F85B96A9C75295DF61
/-- The header of an image of three components of length 0, KEY_IDX 0, signed. -/
def imageHead : List Byte :=
  leBytes 4 0x4B565249 ++ [1, 0, 0x30, 1] ++ List.replicate 20 0 ++ (List.replicate 3 (List.replicate 12 0 ++ sha384 [])).flatten ++
    beBytes 48 sigR ++ beBytes 48 0xA29C1DD9E4681DF56C87184C1EE895A9E0475866271E6D26139263F03A77B86B6CBD7B8DD0DDBFD1A43B8DEAC5F76C4E
/-- That image in slot A, its key in the fuses of ROOT_KEY0. -/
def withImage (s : State) : State := { s with mem := { s.mem with flash := s.mem.flash.putBytes (imgBase 0) imageHead } }
def imageA (s : State) : State := keyed 0 (withImage s)
/-- A token for opening debug under DEBUG_KEY, for serial number 0 and a nonce of zeros, signed. -/
def debugToken : List Byte := [8, 4] ++ List.replicate 22 0 ++ beBytes 48 sigR ++
  beBytes 48 0xE00499B84D0555DF7491C014BC3D657EF33D8EA6BABB007E8D95D344514289F9F4E207C588B0C22A4EB7A09F606A763E

theorem keyed_fuse (k : Nat) (s : State) (i : Nat) :
    (keyed k s).fuse i = if keyFuse k ≤ i ∧ i < keyFuse k + 768 then baseBit (i - keyFuse k) else s.fuse i := by
  simp only [keyed, State.fuse, Sparse.get_putBytes, List.length_map, List.length_range]
  split
  · rename_i h
    have : i - keyFuse k < 768 := by omega
    simp [List.getD, this]
    cases baseBit (i - keyFuse k) <;> simp
  · rfl

theorem keyed_fuse_at (k : Nat) (s : State) (i : Nat) (h : i < 768) : (keyed k s).fuse (keyFuse k + i) = baseBit i := by
  rw [keyed_fuse, if_pos (by omega), Nat.add_sub_cancel_left]

theorem keyFuse_low (k : Nat) : 256 ≤ keyFuse k := by
  unfold keyFuse
  split
  · omega
  · split <;> decide

theorem keyed_fuse_low (k : Nat) (s : State) (i : Nat) (h : i < 256) : (keyed k s).fuse i = s.fuse i := by
  have := keyFuse_low k
  rw [keyed_fuse, if_neg (by omega)]

theorem keyed_fuseCount_low (k : Nat) (s : State) (i n : Nat) (h : i + n ≤ 256) : (keyed k s).fuseCount i n = s.fuseCount i n := by
  unfold State.fuseCount
  exact congrArg List.length (List.filter_congr (fun j hj => keyed_fuse_low k s _ (by have := List.mem_range.mp hj; omega)))

theorem fuses_congr (s t : State) (i n : Nat) (h : ∀ j, j < n → s.fuse (i + j) = t.fuse (i + j)) : s.fuses i n = t.fuses i n := by
  have : ∀ l : List Nat, (∀ j ∈ l, j < n) → l.foldr (fun k v => (if s.fuse (i + k) then 1 else 0) + 2 * v) 0 =
      l.foldr (fun k v => (if t.fuse (i + k) then 1 else 0) + 2 * v) 0 := by
    intro l
    induction l with
    | nil => intro _; rfl
    | cons a l ih =>
      intro hl
      simp only [List.foldr_cons, ih (fun j hj => hl j (List.mem_cons_of_mem _ hj)), h a (hl a (List.mem_cons_self ..))]
  exact this _ (fun j hj => List.mem_range.mp hj)

theorem keyed_pubKey (k : Nat) (s : State) : (keyed k s).pubKey k = baseKey := by
  have h : (List.range 96).map (fun i => BitVec.ofNat 8
      ((List.range 8).foldr (fun j v => (if baseBit (8 * i + j) then 1 else 0) + 2 * v) 0)) = baseKey := by decide +kernel
  refine Eq.trans (List.map_congr_left (fun i hi => ?_)) h
  have hi := List.mem_range.mp hi
  have hb (j : Nat) (hj : j < 8) : (keyed k s).fuse (keyFuse k + 8 * i + j) = baseBit (8 * i + j) := by
    rw [Nat.add_assoc]
    exact keyed_fuse_at _ _ _ (by omega)
  simp only [State.fuses, List.range, List.range.loop, List.foldr_cons, List.foldr_nil, hb 0 (by decide), hb 1 (by decide), hb 2 (by decide),
    hb 3 (by decide), hb 4 (by decide), hb 5 (by decide), hb 6 (by decide), hb 7 (by decide)]

theorem keyed_keyUsable (k : Nat) (s : State) (h : s.fuse (192 + k) = false) (hk : k < 64) : (keyed k s).keyUsable k = true := by
  have hc : 0 < (keyed k s).fuseCount (keyFuse k) 768 := by
    unfold State.fuseCount
    refine List.length_pos_of_mem (a := 1) (List.mem_filter.mpr ⟨List.mem_range.mpr (by decide), ?_⟩)
    exact (by rw [keyed_fuse_at _ _ _ (by decide)]; decide +kernel)
  simp [State.keyUsable, State.keyPresent, hc, keyed_fuse_low k s (192 + k) (by omega), h]

theorem imageHead_length : imageHead.length = 304 := by decide +kernel

theorem imageA_flash (s : State) : (imageA s).mem.flash = s.mem.flash.putBytes (imgBase 0) imageHead := by
  simp only [imageA, keyed, withImage]

theorem withImage_fuse (s : State) (i : Nat) : (withImage s).fuse i = s.fuse i := by simp only [withImage, State.fuse]

theorem bytes_putBytes_within (m : Mem) (b off n : Nat) (l : List Byte) (h : off + n ≤ l.length) :
    (m.putBytes b l).bytes (b + off) n = (l.drop off).take n := by
  unfold Sparse.bytes
  apply List.ext_getElem (by simp; omega)
  intro i h1 h2
  simp at h1
  simp only [List.getElem_map, List.getElem_range, Sparse.get_putBytes]
  rw [if_pos (by omega)]
  have : b + off + i - b = off + i := by omega
  rw [this]
  simp [List.getD, List.getElem?_eq_getElem (show off + i < l.length by omega)]

theorem imageA_bytes (s : State) (off n : Nat) (h : off + n ≤ 304) : (imageA s).imgBytes 0 off n = (imageHead.drop off).take n := by
  unfold State.imgBytes
  rw [imageA_flash, bytes_putBytes_within _ _ _ _ _ (by rw [imageHead_length]; exact h)]

theorem imageA_num (s : State) (off n : Nat) (h : off + n ≤ 304) : (imageA s).img 0 off n = leNat ((imageHead.drop off).take n) :=
  congrArg leNat (imageA_bytes s off n h)

/-- Its three components are empty and lie at offset 0. -/
theorem imageA_comp (s : State) : ∀ c ∈ [0, 1, 2], (imageA s).compLen 0 c = 0 ∧ (imageA s).compOff 0 c = 0 := by
  have hc : ∀ c ∈ [0, 1, 2], leNat ((imageHead.drop (32 + 60 * c)).take 4) = 0 ∧ leNat ((imageHead.drop (28 + 60 * c)).take 4) = 0 := by
    decide +kernel
  intro c hm
  have : c < 3 := by simp at hm; omega
  simp only [State.compLen, State.compOff]
  rw [imageA_num _ _ _ (by omega), imageA_num _ _ _ (by omega)]
  exact hc c hm

theorem imageA_imgCheck (s : State) (h : s.fuse 192 = false) :
    (imageA s).imgCheck 0 = if 0 < s.secVersion then some 9 else none := by
  have hk : (imageA s).keyUsable 0 = true := keyed_keyUsable 0 _ ((withImage_fuse s 192).trans h) (by decide)
  have hp : (imageA s).pubKey 0 = baseKey := keyed_pubKey 0 _
  have hv : (imageA s).secVersion = s.secVersion := by
    refine (keyed_fuseCount_low 0 (withImage s) 128 64 (by decide)).trans ?_
    simp only [State.secVersion, State.fuseCount, withImage_fuse]
  have hn : leNat ((imageHead.drop 17).take 1) = 0 := by decide +kernel
  have hs : leNat ((imageHead.drop 16).take 1) = 0 := by decide +kernel
  have h5 : (decide (leNat ((imageHead.drop 0).take 4) ≠ 0x4B565249 ∨ leNat ((imageHead.drop 4).take 2) ≠ 1 ∨
      leNat ((imageHead.drop 6).take 2) ≠ 304)) = false := by decide +kernel
  have hf := imageA_comp s
  have he : ecdsaP384 baseKey (sha384 ((imageHead.drop 0).take 208)) ((imageHead.drop 208).take 96) = true := by decide +kernel
  simp only [ne_eq, decide_eq_false_iff_not, not_or, Decidable.not_not] at h5
  unfold State.imgCheck
  simp only [imageA_num _ 0 4 (by decide), imageA_num _ 4 2 (by decide), imageA_num _ 6 2 (by decide), imageA_num _ 16 1 (by decide),
    imageA_num _ 17 1 (by decide), imageA_bytes _ 0 208 (by decide), imageA_bytes _ 208 96 (by decide), hn, hs, hk, hp, hv, he, h5.1, h5.2.1, h5.2.2,
    hf 0 (by decide), hf 1 (by decide), hf 2 (by decide)]
  simp [compMax]

theorem imageA_compOk (s : State) (c : Nat) (h : c < 3) : (imageA s).compOk 0 c = true := by
  have hl : ∀ c, c < 3 → leNat ((imageHead.drop (32 + 60 * c)).take 4) = 0 := by decide +kernel
  have hd : ∀ c, c < 3 → (imageHead.drop (40 + 60 * c)).take 48 = sha384 [] := by decide +kernel
  have hb : (imageA s).compBytes 0 c = [] := by
    unfold State.compBytes State.compLen
    rw [imageA_num _ _ _ (by omega), hl c h]
    rfl
  unfold State.compOk
  rw [hb, imageA_bytes _ _ _ (by omega), hd c h]
  exact beq_self_eq_true _

/-- The image passes while SEC_VERSION is 0, and is too old afterwards. -/
theorem imageA_reason (s : State) (h : s.fuse 192 = false) :
    (imageA s).imgReason 0 = if 0 < s.secVersion then some 9 else none := by
  unfold State.imgReason
  rw [imageA_imgCheck s h]
  by_cases hv : 0 < s.secVersion <;> simp [hv, imageA_compOk]

theorem imageA_verifyReason (s : State) (d : Delivery) (hd : d.slot = 0) (hc : d.complete = true) (h : s.fuse 192 = false) (hv : s.secVersion = 0)
    (hs : (imageA s).slotIn 1 = none) : (imageA s).verifyReason d = none := by
  unfold State.verifyReason
  have hf := imageA_comp s
  simp [hd, imageA_reason s h, hs, hc, hv, List.range, List.range.loop, hf 0 (by decide), hf 1 (by decide), hf 2 (by decide)]

theorem imageA_fuse_low (s : State) (i : Nat) (h : i < 256) : (imageA s).fuse i = s.fuse i :=
  (keyed_fuse_low 0 _ i h).trans (withImage_fuse s i)

theorem imageA_lc (s : State) : (imageA s).lc = s.lc := by
  have h (k : Nat) (hk : k < 6) : (imageA s).lcFuse k = s.lcFuse k := by
    unfold State.lcFuse
    rw [show (imageA s).fuseCount (80 + 3 * k) 3 = s.fuseCount (80 + 3 * k) 3 from
      (keyed_fuseCount_low 0 _ _ 3 (by omega)).trans (by simp only [State.fuseCount, withImage_fuse])]
  unfold State.lc
  rw [List.filter_congr (fun k hk => h k (List.mem_range.mp hk))]

theorem imageA_hdrBytes (s : State) (a n : Nat) (h : a + n ≤ imgBase 0) : (imageA s).mem.flash.bytes a n = s.mem.flash.bytes a n := by
  rw [imageA_flash, Sparse.bytes_putBytes_apart _ _ _ _ _ (.inr h)]

/-- An image leaves the boot header as it is. -/
theorem imageA_bootHdr (s : State) : (imageA s).bootHdr = s.bootHdr := by
  have hn (c off n : Nat) (h : hdrBase c + off + n ≤ imgBase 0) : (imageA s).hdrNum c off n = s.hdrNum c off n := by
    unfold State.hdrNum Sparse.num
    rw [imageA_hdrBytes s _ _ h]
  have hr (c : Nat) (h : hdrBase c + 12 ≤ imgBase 0) : (imageA s).hdrRank c = s.hdrRank c := by
    unfold State.hdrRank State.hdrOk
    rw [hn c 0 4 (by omega), hn c 8 4 (by omega), imageA_hdrBytes s _ _ (by omega)]
  have hc (c : Nat) (h : hdrBase c + 12 ≤ imgBase 0) : (imageA s).hdrCopy c = s.hdrCopy c := by
    unfold State.hdrCopy
    rw [hn c 0 4 (by omega), hn c 4 1 (by omega), hn c 5 1 (by omega), hn c 6 1 (by omega)]
  unfold State.bootHdr
  rw [hr 0 (by decide), hr 1 (by decide)]
  split
  · rfl
  · split <;> exact hc _ (by decide)

theorem imageA_slotIn (s : State) (v : Nat) : (imageA s).slotIn v = s.slotIn v := by unfold State.slotIn; rw [imageA_bootHdr]

theorem imageA_secVersion (s : State) : (imageA s).secVersion = s.secVersion :=
  (keyed_fuseCount_low 0 _ 128 64 (by decide)).trans (by simp only [State.secVersion, State.fuseCount, withImage_fuse])

theorem keyed_lc (k : Nat) (s : State) : (keyed k s).lc = s.lc := by
  have h (j : Nat) (hj : j < 6) : (keyed k s).lcFuse j = s.lcFuse j := by
    unfold State.lcFuse
    rw [keyed_fuseCount_low k s _ 3 (by omega)]
  unfold State.lc
  rw [List.filter_congr (fun k hk => h k (List.mem_range.mp hk))]

/-- The token is valid under DEBUG_KEY while the serial number is 0 and the nonce is zeros. -/
theorem debugToken_ok (s : State) (h : s.fuses 0 56 = 0) (hu : s.fuse 196 = false) (hn : s.sec.nonce = some (List.replicate 12 0)) :
    (keyed 4 s).tokenOk debugToken 8 4 = true := by
  have hs : (keyed 4 s).fuses 0 56 = 0 := (fuses_congr _ _ _ _ (fun j hj => keyed_fuse_low 4 s _ (by omega))).trans h
  have ht : (byteAt debugToken 0 == 8 && byteAt debugToken 1 == 4 && (beAt debugToken 4 8 == 0) &&
      (some (List.replicate 12 0) == some ((debugToken.drop 12).take 12)) &&
      ecdsaP384 baseKey (sha384 (debugToken.take 24)) ((debugToken.drop 24).take 96)) = true := by decide +kernel
  simp only [Bool.and_eq_true] at ht
  have hn' : (keyed 4 s).sec.nonce = some (List.replicate 12 0) := hn
  simp only [State.tokenOk, keyed_pubKey, keyed_keyUsable 4 s hu (by decide), hs, hn', ht]
  decide

/-- The head of a migrated record of 4096 zero bytes with SEQ 5, a CRC `x` and a MAC `m`; that record in slot 3, over flash `f`. -/
def recHead (x : Nat) (m : List Byte) : List Byte :=
  leBytes 4 0x4B565243 ++ [1, 0, 1, 0] ++ leBytes 4 5 ++ [0, 0, 0, 0] ++ leBytes 4 4096 ++ leBytes 4 x ++ m
def recordOf (z : List Byte) (s : State) : State :=
  let x := crc32c 0xFFFFFFFF z
  { s with mem := { s.mem with flash := (Sparse.empty : Mem).putBytes (recBase 3) (recHead x
      (aesCmac ((List.range 16).map (Config.hukKey s.huk 1)) (recInput (recHead x []) z))) } }
def record3 (s : State) : State := recordOf (List.replicate 4096 0) s

theorem crcBit_lt (poly c : Nat) (hp : poly < 2 ^ 32) (hc : c < 2 ^ 32) : crcBit poly c < 2 ^ 32 := by
  unfold crcBit
  split
  · exact Nat.xor_lt_two_pow (by omega) hp
  · omega

theorem crc32c_lt (c : Nat) (l : List Byte) (hc : c < 2 ^ 32) : crc32c c l < 2 ^ 32 := by
  have h : ∀ (l : List Byte) (c : Nat), c < 2 ^ 32 → l.foldl (crcByte 0x82F63B78) c < 2 ^ 32 := by
    intro l
    induction l with
    | nil => intro c hc; exact hc
    | cons b l ih =>
      intro c hc
      refine ih _ ?_
      unfold crcByte
      repeat refine crcBit_lt _ _ (by decide) ?_
      exact Nat.xor_lt_two_pow hc (Nat.lt_of_lt_of_le b.isLt (by decide))
  exact Nat.xor_lt_two_pow (h l c hc) (by decide)

theorem aesCmac_length (key msg : List Byte) : (aesCmac key msg).length = 16 := by
  have h : ∀ (f : List Byte → Nat × Nat → List Byte) (l : List (Nat × Nat)) (c : List Byte), c.length = 16 →
      (l.foldl (fun c x => aesBlock key (f c x)) c).length = 16 := by
    intro f l
    induction l with
    | nil => intro c hc; exact hc
    | cons a l ih => intro c hc; exact ih _ (by simp [aesBlock, aesBytes])
  unfold aesCmac
  exact h (fun c ib => beBytes 16 (beNat c ^^^ ib.2 ^^^ (if ib.1 + 1 = _ then _ else 0))) _ _ (by simp)

theorem recordOf_flash (z : List Byte) (s : State) : ∃ x m, x < 2 ^ 32 ∧ m.length = 16 ∧ x = crc32c 0xFFFFFFFF z ∧
    m = aesCmac s.recKey (recInput (recHead x []) z) ∧
    (recordOf z s).mem.flash = (Sparse.empty : Mem).putBytes (recBase 3) (recHead x m) :=
  ⟨_, _, crc32c_lt 0xFFFFFFFF z (by decide), aesCmac_length _ _, rfl, rfl, by simp only [recordOf, State.recKey]⟩

theorem record3_flash (s : State) : ∃ x m, x < 2 ^ 32 ∧ m.length = 16 ∧ x = crc32c 0xFFFFFFFF (List.replicate 4096 0) ∧
    m = aesCmac s.recKey (recInput (recHead x []) (List.replicate 4096 0)) ∧
    (record3 s).mem.flash = (Sparse.empty : Mem).putBytes (recBase 3) (recHead x m) :=
  recordOf_flash _ s

theorem record3_recKey (s : State) : (record3 s).recKey = s.recKey := by
  unfold State.recKey State.huk State.fuses State.fuse record3 recordOf
  rfl

theorem recHead_facts (x : Nat) (m : List Byte) (hm : m.length = 16) :
    leNat (((recHead x m).drop 0).take 4) = 0x4B565243 ∧ leNat (((recHead x m).drop 6).take 1) = 1 ∧ leNat (((recHead x m).drop 8).take 4) = 5 ∧
      leNat (((recHead x m).drop 16).take 4) = 4096 ∧ leNat (((recHead x m).drop 20).take 4) = x % 2 ^ 32 ∧
      ((recHead x m).drop 24).take 16 = m ∧ ((recHead x m).drop 0).take 24 = recHead x [] := by
  have hA : recHead 0 [] = ([0x43, 0x52, 0x56, 0x4B, 1, 0, 1, 0, 5, 0, 0, 0, 0, 0, 0, 0, 0, 16, 0, 0] : List Byte) ++ leBytes 4 0 ++ [] := by decide +kernel
  unfold recHead at hA
  have hA := List.append_cancel_right (List.append_cancel_right hA)
  unfold recHead
  rw [hA]
  generalize hB : ([0x43, 0x52, 0x56, 0x4B, 1, 0, 1, 0, 5, 0, 0, 0, 0, 0, 0, 0, 0, 16, 0, 0] : List Byte) = A
  have hl : A.length = 20 := by rw [← hB]; rfl
  have h (i n : Nat) (hi : i + n ≤ 20) : ((A ++ leBytes 4 x ++ m).drop i).take n = (A.drop i).take n := by
    rw [List.append_assoc, List.drop_append_of_le_length (by omega), List.take_append_of_le_length (by simp; omega)]
  have hx (r : List Byte) : (A ++ leBytes 4 x ++ r).drop 20 = leBytes 4 x ++ r := by
    rw [List.append_assoc, ← hl, List.drop_left]
  refine ⟨?_, ?_, ?_, ?_, ?_, ?_, ?_⟩
  · rw [h 0 4 (by decide), ← hB]; decide +kernel
  · rw [h 6 1 (by decide), ← hB]; decide +kernel
  · rw [h 8 4 (by decide), ← hB]; decide +kernel
  · rw [h 16 4 (by decide), ← hB]; decide +kernel
  · rw [hx, List.take_left' (leBytes_length 4 x), leNat_leBytes, show (256 : Nat) ^ 4 = 2 ^ 32 from rfl]
  · have : (A ++ leBytes 4 x ++ m).drop 24 = m := List.drop_left' (by rw [List.length_append, hl, leBytes_length])
    rw [this, ← hm, List.take_length]
  · rw [List.append_nil, List.drop_zero]
    exact List.take_left' (by rw [List.length_append, hl, leBytes_length])

theorem record3_num (s : State) (i off n : Nat) (h : i ≠ 3) (hi : i < 4) (hn : off + n ≤ 0x800000) : (record3 s).recNum i off n =
    leNat (List.replicate n 0) := by
  obtain ⟨x, m, _, hm, _, _, hf⟩ := record3_flash s
  unfold State.recNum Sparse.num
  rw [hf, Sparse.bytes_putBytes_apart _ _ _ _ _ (by simp only [recHead, List.length_append, leBytes_length, hm, List.length_cons, List.length_nil]; unfold recBase; omega)]
  congr 1
  apply List.ext_getElem (by simp [Sparse.bytes])
  intro j h1 h2
  simp [Sparse.bytes]

/-- The record is valid, its SEQ is 5, the highest, and its length is 4096. -/
theorem record3_reason (s : State) :
    (record3 s).recReason 3 = none ∧ (record3 s).recNum 3 8 4 = 5 ∧ (record3 s).recNum 3 16 4 = 4096 := by
  obtain ⟨x, m, hx, hm, hxe, hme, hf⟩ := record3_flash s
  have hl : (recHead x m).length = 40 := by simp [recHead, hm]
  have hb (off n : Nat) (h : off + n ≤ 40) : (record3 s).recBytes 3 off n = ((recHead x m).drop off).take n := by
    unfold State.recBytes
    rw [hf, bytes_putBytes_within _ _ _ _ _ (by rw [hl]; exact h)]
  have hn (off n : Nat) (h : off + n ≤ 40) : (record3 s).recNum 3 off n = leNat (((recHead x m).drop off).take n) := congrArg leNat (hb off n h)
  have h0 (off n : Nat) (h : 40 ≤ off) : (record3 s).recBytes 3 off n = List.replicate n 0 := by
    unfold State.recBytes
    rw [hf, Sparse.bytes_putBytes_apart _ _ _ _ _ (by rw [hl]; omega)]
    apply List.ext_getElem (by simp [Sparse.bytes])
    intro j h1 h2
    simp [Sparse.bytes]
  obtain ⟨hm0, h6, h8, h16, h20, h24, hh⟩ := recHead_facts x m hm
  rw [Nat.mod_eq_of_lt hx] at h20
  have hz := h0 128 4096 (by decide)
  generalize List.replicate 4096 (0 : Byte) = z at hz hxe hme
  have h40 := h0 40 80 (by decide)
  refine ⟨?_, ?_, ?_⟩
  · unfold State.recReason
    simp only [hn 16 4 (by decide), hn 0 4 (by decide), hn 6 1 (by decide), hn 20 4 (by decide), hb 24 16 (by decide), hb 0 24 (by decide), h16, hz,
      hm0, h6, h20, h24, hh, record3_recKey, ← hxe, ← hme, h40]
    rw [if_neg (by decide), if_neg (by simp), if_neg (by decide), if_pos ⟨trivial, trivial, by decide⟩]
  · rw [hn 8 4 (by decide), h8]
  · rw [hn 16 4 (by decide), h16]

/-! ## Values from outside the model -/

/-- The state after a command. -/
def after (c : Instr) (s : State) : State := match exec c s with | .next t => t | _ => s

/-- The nine characters of the usual CRC check. -/
def digits : List Byte := [0x31, 0x32, 0x33, 0x34, 0x35, 0x36, 0x37, 0x38, 0x39]

/-- The check values of CRC-32C and CRC-32 in the catalogues of CRCs. -/
theorem test_crc32c : crc32c 0xFFFFFFFF digits = 0xE3069283 := by decide +kernel
theorem test_crc32 : fcsNat digits = 0xCBF43926 := by decide +kernel
/-- FIPS 197, appendices C.1 and C.3. -/
theorem test_aes128 : beNat (aesBlock (beBytes 16 0x000102030405060708090A0B0C0D0E0F) (beBytes 16 0x00112233445566778899AABBCCDDEEFF)) =
    0x69C4E0D86A7B0430D8CDB78070B4C55A := by decide +kernel
theorem test_aes256 : beNat (aesBlock (beBytes 32 0x000102030405060708090A0B0C0D0E0F101112131415161718191A1B1C1D1E1F)
    (beBytes 16 0x00112233445566778899AABBCCDDEEFF)) = 0x8EA2B7CA516745BFEAFC49904B496089 := by decide +kernel
theorem test_aes_inverse : beNat (aesInvBlock (beBytes 16 0x000102030405060708090A0B0C0D0E0F) (beBytes 16 0x69C4E0D86A7B0430D8CDB78070B4C55A)) =
    0x00112233445566778899AABBCCDDEEFF := by decide +kernel
/-- FIPS 180-4's example "abc". -/
theorem test_sha384 : beNat (sha384 [0x61, 0x62, 0x63]) =
    0xCB00753F45A35E8BB5A03D699AC65007272C32AB0EDED1631A8B605A43FF5BED8086072BA1E7CC2358BAECA134C825A7 := by decide +kernel
/-- RFC 4493, example 1: the CMAC of the empty message. -/
theorem test_cmac : beNat (aesCmac (beBytes 16 0x2B7E151628AED2A6ABF7158809CF4F3C) []) = 0xBB1D6929E95937287FA37D129B756746 := by decide +kernel
/-- RFC 3394, 4.1. -/
theorem test_key_wrap : beNat (keyWrap (beBytes 16 0x000102030405060708090A0B0C0D0E0F) (beBytes 16 0x00112233445566778899AABBCCDDEEFF)) =
    0x1FA68B0A8112B447AEF34BD8FB5A7B829D3E862371D2CFE5 := by decide +kernel
/-- A signature under the private key 1 holds for its message and for no other. -/
theorem test_signature : ecdsaP384 baseKey (sha384 (debugToken.take 24)) (debugToken.drop 24) = true ∧
    ecdsaP384 baseKey (sha384 [0]) (debugToken.drop 24) = false := by decide +kernel

/-! ## Single commands, the expected result read from the rule named -/

/-- R31: EN takes a page from IDLE to RUN. -/
theorem test_en : (after (.ctrlEnSet .tp (.can 63)) base).st (.can 63) = 1 := by decide +kernel
/-- R31: DRAIN takes a page from RUN to DRAINING; when no work is left it goes on to QUIET while EN is 1. -/
theorem test_drain : (after (.ctrlDrainSet .tp (.can 63)) (S [(.can 63, Hdr.STATE_ST, 1), (.can 63, Hdr.CTRL_EN, 1)])).st (.can 63) = 2 ∧
    (after (.workFinished (.can 63)) (S [(.can 63, Hdr.STATE_ST, 2), (.can 63, Hdr.CTRL_EN, 1)])).st (.can 63) = 3 := by decide +kernel
/-- R444: in RAW fuse 5 is programmed; programmed again it fails. -/
theorem test_otp : (after (.otpProgram .tp) (S [(.otp, Otp.PROG_ADDR_BIT, 5)])).fuse 5 = true ∧
    (after (.otpProgram .tp) (blown [5] (S [(.otp, Otp.PROG_ADDR_BIT, 5)]))).fld .otp Otp.PROG_STATUS_FAIL = 1 := by decide +kernel
/-- R40: a reset OWNER is CLASS 2; OWNER is written by a trusted master. -/
theorem test_owner : State.reset.ownerClass (.can 3) = 2 ∧ (after (.ownerWrite .tp (.can 3) 0) base).ownerClass (.can 3) = 0 := by decide +kernel
/-- R24: the set and clear ranges of the scratchpad. -/
theorem test_scratchpad : ((after (.scratchpadAliasWrite .tp true 0 [2]) (after (.scratchpadAliasWrite .tp false 0 [6]) base)).mem.scratch.get 0) = 4 := by
  decide +kernel

/-! ## Witnesses: the hypotheses of each clause of a statement, met together -/

theorem witness_StepRunsFrontCommand :
  ∃ (s : Machine.State) (c : Instr) (rest : List Instr), s.pending = c :: rest :=
  ⟨({ State.reset with pending := [.coldBoot] }), Instr.coldBoot, (([] : List Instr)), by decide +kernel⟩

theorem witness_EmptyQueueTicks :
  ∃ (s : Machine.State), s.pending = [] :=
  ⟨State.reset, by decide +kernel⟩

theorem witness_CtrlWritesMoveThePage :
  (∃ (s : Machine.State) (src : Src) (p : Page), s.ownerWrites src p ∧ s.st p = 0 ∧ s.flag p Hdr.CTRL_EN = false) ∧
  (∃ (s : Machine.State) (src : Src) (p : Page), (∀ n, p = .tgate n → s.flag p Tgate.GATE_CFG_GATE_EN = false ∧
      s.flag p Tgate.LIST_STATUS_CHANGE_PENDING = false) ∧ s.ownerWrites src p ∧ (s.st p = 1 ∨ s.st p = 2 ∧ s.drainTimer.get p.index = false ∨ s.st p
      = 3) ∧ s.flag p Hdr.CTRL_EN = true ∧ p.staysRun = false) ∧
  (∃ (s : Machine.State) (src : Src) (p : Page), (∀ n, p = .tgate n → s.flag p Tgate.GATE_CFG_GATE_EN = false ∧
      s.flag p Tgate.LIST_STATUS_CHANGE_PENDING = false) ∧ s.ownerWrites src p ∧ s.st p = 1 ∧ s.flag p Hdr.CTRL_EN = true ∧
      s.flag p Hdr.CTRL_DRAIN = false ∧ p.staysRun = false ∧ s.drainTimer.get p.index = false) ∧
  (∃ (s : Machine.State) (src : Src) (p : Page), s.ownerWrites src p ∧ (s.st p = 2 ∧ s.drainTimer.get p.index = false ∨ s.st p = 3) ∧
      s.flag p Hdr.CTRL_EN = true ∧ s.flag p Hdr.CTRL_DRAIN = true) ∧
  (∃ (s : Machine.State) (src : Src) (p : Page), s.ownerWrites src p ∧ (s.st p = 1 ∨ s.st p = 2 ∨ s.st p = 3)) ∧
  (∃ (s : Machine.State) (src : Src) (p : Page), s.ownerWrites src p ∧ s.st p = 4 ∧ s.flag p Hdr.CTRL_FREEZE = true) ∧
  (∃ (s : Machine.State) (src : Src) (p : Page) (c : Instr), s.ownerWrites src p ∧ p.staysRun = true ∧ s.st p = 1 ∧ c ∈ [Instr.ctrlEnSet src p,
      .ctrlEnClear src p, .ctrlDrainSet src p, .ctrlDrainClear src p]) :=
  ⟨⟨(S [(.etp 3, Hdr.CTRL_DRAIN, 1), (.etp 3, Hdr.CTRL_FREEZE, 1)]), Src.tp, (Page.etp 3), by unfold State.ownerWrites; decide +kernel⟩,
  ⟨(S [(.cip 63, Hdr.STATE_ST, 1), (.cip 63, Hdr.CTRL_EN, 1), (.cip 63, Hdr.DRAIN_LIMIT_LIMIT, 1)]), Src.tp, (Page.cip 63),
      fun _ h => Page.noConfusion h, by unfold State.ownerWrites; decide +kernel⟩,
  ⟨(S [(.tgate 37, Hdr.STATE_ST, 1), (.tgate 37, Hdr.CTRL_EN, 1)]), Src.tp, (Page.tgate 37), fun _ _ => by decide +kernel,
      by unfold State.ownerWrites; decide +kernel⟩,
  ⟨(S [(.can 0, Hdr.STATE_ST, 3), (.can 0, Hdr.CTRL_EN, 1), (.can 0, Hdr.CTRL_DRAIN, 1)]), Src.tp, (Page.can 0),
      by unfold State.ownerWrites; decide +kernel⟩,
  ⟨(S [(.can 0, Hdr.STATE_ST, 3), (.can 0, Hdr.CTRL_EN, 1), (.can 0, Hdr.CTRL_DRAIN, 1)]), Src.tp, (Page.can 0),
      by unfold State.ownerWrites; decide +kernel⟩,
  ⟨(S [(.dma, Hdr.STATE_ST, 4), (.dma, Hdr.CTRL_EN, 1), (.dma, Hdr.CTRL_DRAIN, 1), (.dma, Hdr.CTRL_FREEZE, 1)]), Src.tp, Page.dma,
      by unfold State.ownerWrites; decide +kernel⟩,
  ⟨S [], .tp, .pwr, Instr.ctrlEnClear Src.tp .pwr, by unfold State.ownerWrites; decide +kernel⟩⟩

theorem witness_WorkEndsAndBlockReset :
  (∃ (s : Machine.State) (p : Page), (∀ n, p ≠ .tdm n) ∧ s.st p = 2 ∧ s.work p = 0) ∧
  (∃ (s : Machine.State) (p : Page), s.st p = 2 ∧ s.drainTimer.get p.index = true ∧ s.work p ≠ 0) ∧
  (∃ (s : Machine.State) (p : Page) (code addr : Nat), s.pageOn p = true ∧ code < 256) ∧
  (∃ (s : Machine.State) (src : Src) (p : Page), p.ok = true ∧ s.ownerWrites src p ∧ s.st p ≠ 1 ∧ s.st p ≠ 2) ∧
  (∃ (s : Machine.State) (src : Src) (p : Page), s.ownerWrites src p ∧ (s.st p = 1 ∨ s.st p = 2) ∧ s.fld p Hdr.ERR_CODE_CODE = 0) :=
  ⟨⟨(S [(.dma, Hdr.STATE_ST, 2), (.dma, Hdr.CTRL_EN, 1), (.dma, Hdr.CTRL_DRAIN, 1), (.dma, Hdr.CTRL_FREEZE, 1)]), Page.dma,
      fun _ h => Page.noConfusion h, by decide +kernel⟩,
  ⟨({ S [(.can 5, Hdr.STATE_ST, 2)] with cans := State.reset.cans.set 5 { txq := [⟨{ id := 7 }, 0⟩] }, drainTimer := State.reset.drainTimer.set (Page.can 5).index true }),
      (Page.can 5), by decide +kernel⟩,
  ⟨(S []), (Page.can 63), 255, 0, by decide +kernel⟩,
  ⟨(S [(.can 63, Hdr.STATE_ST, 5), (.can 63, Hdr.CTRL_EN, 1)]), Src.tp, (Page.can 63), by unfold State.ownerWrites; decide +kernel⟩,
  ⟨S [(.can 63, Hdr.STATE_ST, 2)], .tp, .can 63, by unfold State.ownerWrites; decide +kernel⟩⟩

theorem witness_HeaderCommands :
  (∃ (s : Machine.State) (src : Src) (p : Page), s.ownerWrites src p) ∧
  (∃ (s : Machine.State) (src : Src) (p : Page), s.ownerWrites src p) ∧
  (∃ (s : Machine.State) (src : Src) (p : Page) (cls : Nat), s.trustedWrites src p ∧ s.flag p Hdr.OWNER_LOCKED = false) ∧
  (∃ (s : Machine.State) (src : Src) (p : Page), s.trustedWrites src p ∧ s.flag p Hdr.OWNER_LOCKED = false) ∧
  (∃ (s : Machine.State) (src : Src) (p : Page) (v : Nat), s.ownerWrites src p) ∧
  (∃ (s : Machine.State) (src : Src) (n v : Nat), s.ownerWrites src .sys) :=
  ⟨⟨(S [(.can 63, Hdr.ERR_CODE_CODE, 5)]), Src.tp, (Page.can 63), by unfold State.ownerWrites; decide +kernel⟩,
  ⟨((S []).bump (.can 63) Can.CNT_RX_ERRORS), Src.tp, (Page.can 63), by unfold State.ownerWrites; decide +kernel⟩,
  ⟨(S []), Src.tp, (Page.can 63), 7, by unfold State.trustedWrites; decide +kernel⟩,
  ⟨(S []), Src.tp, (Page.can 63), by unfold State.trustedWrites; decide +kernel⟩,
  ⟨(S [(.can 63, Hdr.EVT_RAW_RAW, 0xFFFF), (.can 63, Hdr.EVT_EN_EN, 0xFFFF)]), Src.tp, (Page.can 63), 0x0F0F,
      by unfold State.ownerWrites; decide +kernel⟩,
  ⟨(S [(.can 63, Hdr.EVT_RAW_RAW, 0xFFFF), (.can 63, Hdr.EVT_EN_EN, 0xFFFF)]), Src.tp, 265, 0xFFFFFFFF, by unfold State.ownerWrites; decide +kernel⟩⟩

theorem witness_AccessesOfBar0 :
  (∃ (s : Machine.State) (src : Src) (off : Nat) (bytes : List Byte), s.issues src = true ∧ s.pageOn .scr = true ∧ off < 0x200000 ∧
      off + bytes.length ≤ 0x200000) ∧
  (∃ (s : Machine.State) (src : Src) (clear : Bool) (off : Nat) (bytes : List Byte), s.issues src = true ∧ s.pageOn .scr = true ∧
      off + bytes.length ≤ 0x200000) ∧
  (∃ (s : Machine.State) (src : Src) (p : Page) (v : Nat), p.ok = true ∧ s.ownerWrites src p) ∧
  (∃ (s : Machine.State) (src : Src) (p : Page) (v : Nat), p.ok = true ∧ s.issues src = true ∧ s.pageOn p = true ∧ s.owns src p = false ∧
      s.fld p Hdr.ERR_CODE_CODE = 0) ∧
  (∃ (s : Machine.State) (src : Src) (a size : Nat) (ecc : EccResult), s.issues src = true ∧ a < 0x2000000 ∧ 4 < a % 4 + size ∧
      (size ≠ 8 ∨ a % 8 ≠ 0) ∧ s.pageOn (misalignedPage a) = true ∧ s.fld (misalignedPage a) Hdr.ERR_CODE_CODE = 0) :=
  ⟨⟨(S []), Src.host, 0x1FFFFC, (([1, 2, 3, 4] : List Byte)), by decide +kernel⟩,
  ⟨((S []).registerWrite .host .bar0 0x2000000 [0xFF, 0xFF, 0xFF, 0xFF]), Src.host, true, 0, (([1, 2, 3] : List Byte)), by decide +kernel⟩,
  ⟨(S []), Src.tp, (Page.can 63), 0xFFFFFFFF, by unfold State.ownerWrites; decide +kernel⟩,
  ⟨S [], .host, .can 63, 5, by decide +kernel⟩,
  ⟨S [], .host, 2, 4, .clean, by decide +kernel⟩⟩

theorem witness_ShadowAndTableAccesses :
  (∃ (s : Machine.State) (src : Src) (p : Page) (off v : Nat), s.ownerWrites src p ∧ 0x800 ≤ off ∧ off < 0xF00 ∧ p.tabOff ≠ some (off - 0x700) ∧
      p.shadowBits (off - 0x700) ≠ 0 ∧ (if p = .cls ∨ p = .prs then s.standbyShut p = none else s.checking p = false)) ∧
  (∃ (s : Machine.State) (src : Src) (p : Page) (off v : Nat), s.ownerWrites src p ∧ 0x800 ≤ off ∧ off < 0xF00 ∧ p.tabOff ≠ some (off - 0x700) ∧
      p.shadowBits (off - 0x700) ≠ 0 ∧ p ≠ .cls ∧ p ≠ .prs ∧ s.checking p = true ∧ s.fld p Hdr.ERR_CODE_CODE = 0) ∧
  (∃ (s : Machine.State) (src : Src) (p : Page) (v n width : Nat), s.ownerWrites src p ∧ p.table (s.tabAt p).1 = some (n, width, .shadowed) ∧
      (s.tabAt p).2.1 < n ∧ (s.tabAt p).2.2 < width ∧ s.checking p = false ∧ (p = .asy → s.plan = none)) ∧
  (∃ (s : Machine.State) (src : Src) (p : Page) (shadow : Bool) (ecc : EccResult), s.pageOn p = true ∧ ecc = .lost ∧ p.eccTab (s.tabAt p).1 ≠ none) ∧
  (∃ (s : Machine.State) (src : Src) (p : Page) (shadow : Bool) (ecc : EccResult), s.pageOn p = true ∧ (ecc ≠ .lost ∨ p.eccTab (s.tabAt p).1 = none)) :=
  ⟨⟨(S []), Src.tp, (Page.can 63), 0x80C, 0xFFFFFFFF, by unfold State.ownerWrites; decide +kernel⟩,
  ⟨S [(.can 63, Hdr.COMMIT_STATUS_STATUS, 1)], .tp, .can 63, 0x80C, 1, by unfold State.ownerWrites; decide +kernel⟩,
  ⟨(S []), Src.tp, Page.frer, 0xFFFFFFFF, 4096, 4, by unfold State.ownerWrites; decide +kernel⟩,
  ⟨S [(.frer, Frer.TAB_ADDR_TABLE, 1)], Src.tp, Page.frer, true, EccResult.lost, by decide +kernel⟩,
  ⟨(S []), Src.tp, Page.frer, true, EccResult.corrected, by decide +kernel⟩⟩

theorem witness_CommitCommands :
  (∃ (s : Machine.State) (src : Src) (p : Page), (∀ n, p = .tgate n → s.cloning p = false) ∧ s.ownerWrites src p ∧ p.timing = true ∧ s.plan = none ∧
      (p = .cls ∨ s.joins src .cls = true → s.cloning .cls = false ∧ s.badRoot = none)) ∧
  (∃ (s : Machine.State) (src : Src) (p : Page), s.ownerWrites src p ∧ p.timing = false ∧ s.plan = none ∧ s.checking p = false ∧
      (s.drainFor src).ownRefusal p = none ∧ s.st p ≠ 0 ∧ (p.shadowed.isEmpty && p.shadowTables.isEmpty) = false) ∧
  (∃ (s : Machine.State) (src : Src) (p : Page), s.ownerWrites src p ∧ s.plan.isSome = true ∧ s.checking p = false) ∧
  (∃ (s : Machine.State) (src : Src) (p : Page), (∀ n, p = .tgate n → s.cloning p = false) ∧ s.ownerWrites src p ∧ s.checking p = false ∧ p ≠ .cls ∧
      (p = .prs → s.standbyShut .prs = none) ∧ (p = .tsi → s.cloning p = false)) ∧
  (∃ (s : Machine.State) (src : Src), s.ownerWrites src .cls ∧ s.checking .cls = false ∧ s.cloning .cls = false ∧
      s.recircCount (1 - s.activeBank) = 0) ∧
  (∃ (s : Machine.State) (src : Src) (p : Page) (c : Plan), s.ownerWrites src p ∧ p.timing = true ∧ s.checking p = true ∧ s.plan = some c ∧
      c.passed = false) ∧
  (∃ (s : Machine.State) (c : Plan) (bad : Option Nat) (corr : Nat) (r : Refuse), s.plan = some c ∧ c.passed = false ∧ c.verify = false ∧
      s.assay c bad = .refused r) ∧
  (∃ (s : Machine.State) (c : Plan) (bad : Option Nat) (corr digest paths streams : Nat) (table : List (Nat × Word)), (∀ q ∈ c.included, q ≠ .cls ∧
      q ≠ .qsch ∧ (∀ n, q ≠ .tgate n) ∧ (q = .clk ∨ s.st q ≠ 0)) ∧ s.plan = some c ∧ c.passed = false ∧ c.verify = false ∧
      s.assay c bad = .passed digest paths streams table ∧ c.included ≠ []) ∧
  (∃ (s : Machine.State) (c : Plan) (bad : Option Nat) (corr : Nat), s.plan = some c ∧ c.passed = false ∧ c.verify = true) ∧
  (∃ (s : Machine.State) (p : Page), (∀ n, p ≠ .tdm n) ∧ (s.st p = 0 ∨ (∀ off, s.regHeld p off = false) ∧ (∀ k, s.tabHeld p k = 0)) ∧
      p.timing = false ∧ p ≠ .prs ∧ p ≠ .tsi ∧ p ∈ s.applying) ∧
  (∃ (s : Machine.State) (p : Page), (∀ n, p ≠ .tgate n) ∧ (s.st p = 0 ∨ (∀ off, s.regHeld p off = false) ∧ (∀ k, s.tabHeld p k = 0)) ∧
      p.timing = true ∧ p ≠ .cls ∧ p ≠ .clk ∧ p ∉ s.applying ∧ s.awaits p = true) ∧
  (∃ (s : Machine.State) (c : Plan), s.plan = some c ∧ c.passed = true ∧ c.waiting = [.cls] ∧ s.recircCount (1 - s.activeBank) = 0) ∧
  (∃ (s : Machine.State) (old : List Copy), old = (s.copiesAt 36).filter (fun c => c.isRecirc && (s.frame c.frame).bank == 1 - s.activeBank) ∧
      old ≠ []) ∧
  (∃ (s : Machine.State) (k : Nat), s.fld .clk (Clk.ISL_F_K k) ≠ s.fld .clk (Clk.ISL_F_KNOW k) ∧ s.awaits .clk = false) ∧
  (∃ (s : Machine.State) (c : Plan) (k : Nat), k < 14 ∧ s.fld .clk (Clk.ISL_F_K k) ≠ s.fld .clk (Clk.ISL_F_KNOW k) ∧ (∀ i,
      i < 14 → i ≠ k → s.fld .clk (Clk.ISL_F_K i) = s.fld .clk (Clk.ISL_F_KNOW i)) ∧ s.plan = some c ∧ c.passed = true ∧ c.waiting = [.clk]) :=
  ⟨⟨(S []), Src.tp, Page.buf, fun _ h => Page.noConfusion h, by unfold State.ownerWrites; decide +kernel⟩,
  ⟨(S [(.can 63, Hdr.STATE_ST, 1)]), Src.tp, (Page.can 63), by unfold State.ownerWrites; decide +kernel⟩,
  ⟨{ S [(.can 63, Hdr.COMMIT_STATUS_PENDING, 1)] with plan := some { requester := .buf, included := [.buf], verify := false, asyOk := false } },
      Src.tp, (Page.can 63), by unfold State.ownerWrites; decide +kernel⟩,
  ⟨S [(.can 63, Hdr.COMMIT_STATUS_PENDING, 1)], .tp, .can 63, fun _ h => Page.noConfusion h, by unfold State.ownerWrites; decide +kernel⟩,
  ⟨S [], .tp, by unfold State.ownerWrites; decide +kernel⟩,
  ⟨{ S [(.buf, Hdr.COMMIT_STATUS_STATUS, 1)] with plan := some { requester := .buf, included := [.buf], verify := false, asyOk := false } }, .tp,
      .buf, { requester := .buf, included := [.buf], verify := false, asyOk := false }, by unfold State.ownerWrites; decide +kernel⟩,
  ⟨{ S [] with plan := some { requester := .buf, included := [.buf], verify := false, asyOk := false } },
      { requester := .buf, included := [.buf], verify := false, asyOk := false }, none, 0,
      match ({ S [] with plan := some { requester := .buf, included := [.buf], verify := false, asyOk := false } } : Machine.State).assay
      { requester := .buf, included := [.buf], verify := false, asyOk := false } none with | .refused r => r | _ => { detail := 0 },
      by decide +kernel⟩,
  ⟨{ S [(.buf, Hdr.STATE_ST, 1)] with plan := some { requester := .buf, included := [.buf], verify := false, asyOk := true } },
      { requester := .buf, included := [.buf], verify := false, asyOk := true }, none, 0,
      match (({ S [(.buf, Hdr.STATE_ST, 1)] with plan := some { requester := .buf, included := [.buf], verify := false, asyOk := true } } :
      Machine.State).assay { requester := .buf, included := [.buf], verify := false, asyOk := true } none) with | .passed x _ _ _ => x | _ => 0,
      match (({ S [(.buf, Hdr.STATE_ST, 1)] with plan := some { requester := .buf, included := [.buf], verify := false, asyOk := true } } :
      Machine.State).assay { requester := .buf, included := [.buf], verify := false, asyOk := true } none) with | .passed _ x _ _ => x | _ => 0,
      match (({ S [(.buf, Hdr.STATE_ST, 1)] with plan := some { requester := .buf, included := [.buf], verify := false, asyOk := true } } :
      Machine.State).assay { requester := .buf, included := [.buf], verify := false, asyOk := true } none) with | .passed _ _ x _ => x | _ => 0,
      match (({ S [(.buf, Hdr.STATE_ST, 1)] with plan := some { requester := .buf, included := [.buf], verify := false, asyOk := true } } :
      Machine.State).assay { requester := .buf, included := [.buf], verify := false, asyOk := true } none) with | .passed _ _ _ x => x | _ => [],
      fun q hq => by rw [List.mem_singleton.mp hq]; exact ⟨by decide, by decide, fun _ h => Page.noConfusion h, .inr (by decide +kernel)⟩,
      by decide +kernel⟩,
  ⟨{ S [] with plan := some { requester := .asy, included := [.asy], verify := true, asyOk := true } },
      { requester := .asy, included := [.asy], verify := true, asyOk := true }, none, 0, by decide +kernel⟩,
  ⟨({ S [(.can 63, Hdr.COMMIT_STATUS_STATUS, 1)] with applying := [.can 63] }), (Page.can 63), fun _ h => Page.noConfusion h,
      .inl (by decide +kernel), by decide +kernel⟩,
  ⟨{ S [] with plan := some { requester := .cls, included := [.cls], verify := false, asyOk := true, passed := true, waiting := [.cls, .buf] } },
      .buf, fun _ h => Page.noConfusion h, .inl (by decide +kernel), by decide +kernel⟩,
  ⟨{ S [] with plan := some { requester := .cls, included := [.cls], verify := false, asyOk := true, passed := true, waiting := [.cls] } },
      { requester := .cls, included := [.cls], verify := false, asyOk := true, passed := true, waiting := [.cls] }, by decide +kernel⟩,
  ⟨(S []).mapDp
      (fun d => { d with queues := d.queues.set 5 { copies := [{ frame := 1, port := 36, queue := 5, kind := .recirc 0 }] }, frames := d.frames.set 1 { bank := 1 } }),
      _, rfl, by decide +kernel⟩,
  ⟨(S [(.clk, Clk.ISL_F_K 13, 3), (.clk, Clk.ISL_F_KNOW 13, 2)]), 13, by decide +kernel⟩,
  ⟨{ S [(.clk, Clk.ISL_F_K 13, 3), (.clk, Clk.ISL_F_KNOW 13, 2)] with plan := some { requester := .clk, included := [.clk], verify := false, asyOk := true, passed := true, waiting := [.clk] } },
      { requester := .clk, included := [.clk], verify := false, asyOk := true, passed := true, waiting := [.clk] }, 13, by decide +kernel⟩⟩

theorem witness_LinkStates :
  (∃ (s : Machine.State) (p : Nat), p < 32 ∧ s.pageOn (.etp p) = true ∧ s.lst p = 1 ∧ s.flag (.etp p) Etp.LINK_STATUS_PCS_LOCK = true ∧
      s.flag (.etp p) Etp.LINK_STATUS_SPEED_MISMATCH = false) ∧
  (∃ (s : Machine.State) (p lane : Nat), p < 32 ∧ s.pageOn (.etp p) = true ∧ s.lst p = 1) ∧
  (∃ (s : Machine.State) (lane : Nat), s.pageOn (.etp 37) = true ∧ s.st (.etp 37) ≠ 0) ∧
  (∃ (s : Machine.State) (p : Nat), p < 32 ∧ (s.lst p = 2 ∨ s.lst p = 3)) ∧
  (∃ (s : Machine.State) (p : Nat), p < 32 ∧ s.pageOn (.etp p) = true ∧ s.dp.downHold.get p = true) ∧
  (∃ (s : Machine.State) (p : Nat), p < 32 ∧ s.pageOn (.etp p) = true ∧ s.dp.downHold.get p = true ∧ s.lst p ≠ 2 ∧ s.lst p ≠ 3) ∧
  (∃ (s : Machine.State) (p : Nat), p < 32 ∧ s.pageOn (.etp p) = true ∧ s.dp.downHold.get p = true ∧ (s.lst p = 2 ∨ s.lst p = 3)) ∧
  (∃ (s : Machine.State) (p : Nat), p < 32 ∧ s.pageOn (.etp p) = true ∧ s.lst p = 2) ∧
  (∃ (s : Machine.State) (p : Nat), p < 32 ∧ s.pageOn (.etp p) = true ∧ s.lst p = 2) ∧
  (∃ (s : Machine.State) (p : Nat), p < 32 ∧ s.pageOn (.etp p) = true ∧ s.lst p = 3) ∧
  (∃ (s : Machine.State) (p : Nat), p < 32 ∧ s.pageOn (.etp p) = true ∧ s.fld (.etp p) Etp.MODE_MODE = 0) ∧
  (∃ (s : Machine.State) (p : Nat), p < 32 ∧ s.pageOn (.etp p) = true) ∧
  (∃ (s : Machine.State) (p : Nat), p < 32 ∧ s.pageOn (.etp p) = true ∧ s.lst p = 2) :=
  ⟨⟨(S [(.etp 31, Etp.LINK_STATUS_LST, 1), (.etp 31, Etp.LINK_STATUS_PCS_LOCK, 1), (.etp 31, Hdr.STATE_ST, 1)]), 31, by decide +kernel⟩,
  ⟨(S [(.etp 31, Etp.LINK_STATUS_LST, 1)]), 31, 0, by decide +kernel⟩,
  ⟨S [(.etp 37, Hdr.STATE_ST, 1)], 0, by decide +kernel⟩,
  ⟨S [(.etp 31, Etp.LINK_STATUS_LST, 3), (.etp 31, Etp.LINK_STATUS_PCS_LOCK, 1)], 31, by decide +kernel⟩,
  ⟨((S [(.etp 31, Etp.LINK_STATUS_LST, 2)]).holdDown 31 true), 31, by decide +kernel⟩,
  ⟨((S [(.etp 31, Etp.LINK_STATUS_LST, 4)]).holdDown 31 true), 31, by decide +kernel⟩,
  ⟨((S [(.etp 31, Etp.LINK_STATUS_LST, 2)]).holdDown 31 true), 31, by decide +kernel⟩,
  ⟨(S [(.etp 31, Etp.LINK_STATUS_LST, 2)]), 31, by decide +kernel⟩,
  ⟨(S [(.etp 31, Etp.LINK_STATUS_LST, 2)]), 31, by decide +kernel⟩,
  ⟨(S [(.etp 31, Etp.LINK_STATUS_LST, 3), (.etp 31, Etp.LINK_STATUS_LOCAL_FAULT, 1), (.etp 31, Etp.LINK_STATUS_REMOTE_FAULT, 1)]), 31,
      by decide +kernel⟩,
  ⟨(S [(.etp 31, Etp.LINK_STATUS_LST, 3), (.etp 31, Etp.MODE_MODE, 0)]), 31, by decide +kernel⟩,
  ⟨(S [(.etp 31, Etp.LINK_STATUS_LST, 2), (.etp 31, Etp.TC10_STATUS_TST, 1)]), 31, by decide +kernel⟩,
  ⟨S [(.etp 31, Etp.LINK_STATUS_LST, 2)], 31, by decide +kernel⟩⟩

theorem witness_MdioCommands :
  (∃ (s : Machine.State) (src : Src) (p : Nat), p < 32 ∧ s.ownerWrites src (.etp p) ∧ s.flag (.etp p) Etp.MDIO_CMD_BUSY = false) ∧
  (∃ (s : Machine.State) (src : Src) (p : Nat), p < 32 ∧ s.ownerWrites src (.etp p) ∧ s.flag (.etp p) Etp.MDIO_CMD_BUSY = false) ∧
  (∃ (s : Machine.State) (m : Nat) (answer : Option Nat) (r : MdioReq) (rest : List MdioReq), m < 2 ∧ s.dp.mdio.get m = r :: rest ∧ r.use = .soft) :=
  ⟨⟨(S [(.etp 31, Etp.MDIO_ADDR_DEVAD, 3), (.etp 31, Etp.MDIO_ADDR_REG, 0x1234), (.etp 31, Etp.PHY_BUS, 1)]), Src.tp, 31,
      by unfold State.ownerWrites; decide +kernel⟩,
  ⟨(S [(.etp 31, Etp.MDIO_ADDR_DEVAD, 3), (.etp 31, Etp.MDIO_ADDR_REG, 0x1234), (.etp 31, Etp.MDIO_ADDR_CL45, 1), (.etp 31, Etp.MDIO_DATA_DATA,
      0xABCD)]), Src.tp, 31, by unfold State.ownerWrites; decide +kernel⟩,
  ⟨((S [(.etp 31, Etp.MDIO_CMD_BUSY, 1), (.etp 31, Etp.PHY_BUS,
      1)]).mapDp
      (fun d => { d with mdio := d.mdio.set 1 ((({ port := 31, use := .soft, write := false, cl45 := true, devad := 1, reg := 2, data := 0 } : MdioReq)) :: ([({ port := 3, use := .soft, write := false, cl45 := true, devad := 1, reg := 2, data := 0 } : MdioReq)])) })),
      1, ((none : Option Nat)), (({ port := 31, use := .soft, write := false, cl45 := true, devad := 1, reg := 2, data := 0 } : MdioReq)),
      ([({ port := 3, use := .soft, write := false, cl45 := true, devad := 1, reg := 2, data := 0 } : MdioReq)]), by decide +kernel⟩⟩

theorem witness_Tc10Commands :
  (∃ (s : Machine.State) (src : Src) (p : Nat), p < 32 ∧ s.ownerWrites src (.etp p) ∧ s.tst p = 0) ∧
  (∃ (s : Machine.State) (src : Src) (p : Nat), p < 32 ∧ s.ownerWrites src (.etp p) ∧ s.tst p = 2) ∧
  (∃ (s : Machine.State) (src : Src) (p : Nat), p < 32 ∧ s.ownerWrites src (.etp p) ∧ s.tst p = 1) ∧
  (∃ (s : Machine.State) (p : Nat), p < 32 ∧ s.pageOn (.etp p) = true ∧ s.tst p = 1 ∧ s.copiesAt p = []) ∧
  (∃ (s : Machine.State) (p : Nat), p < 32 ∧ s.pageOn (.etp p) = true ∧ s.tst p = 1) ∧
  (∃ (s : Machine.State) (p : Nat), p < 32 ∧ s.pageOn (.etp p) = true ∧ s.tst p = 3) ∧
  (∃ (s : Machine.State) (p : Nat), p < 32 ∧ s.pageOn (.etp p) = true ∧ s.tst p = 2) :=
  ⟨⟨(S []), Src.tp, 31, by unfold State.ownerWrites; decide +kernel⟩,
  ⟨(S [(.etp 31, Etp.LINK_STATUS_LST, 4), (.etp 31, Etp.TC10_STATUS_TST, 2)]), Src.tp, 31, by unfold State.ownerWrites; decide +kernel⟩,
  ⟨S [(.etp 31, Etp.TC10_STATUS_TST, 1)], .tp, 31, by unfold State.ownerWrites; decide +kernel⟩,
  ⟨(S [(.etp 31, Etp.TC10_STATUS_TST, 1)]), 31, by decide +kernel⟩,
  ⟨(S [(.etp 31, Etp.TC10_STATUS_TST, 1)]), 31, by decide +kernel⟩,
  ⟨S [(.etp 31, Etp.TC10_STATUS_TST, 3), (.etp 31, Etp.LINK_STATUS_LST, 4)], 31, by decide +kernel⟩,
  ⟨S [(.etp 31, Etp.TC10_STATUS_TST, 2), (.etp 31, Etp.LINK_STATUS_LST, 4)], 31, by decide +kernel⟩⟩

theorem witness_CreditCommands :
  (∃ (s : Machine.State) (p : Nat), p < 32 ∧ s.pageOn (.etp p) = true ∧ s.fabricPort p = true ∧ s.lst p = 2) ∧
  (∃ (s : Machine.State) (p : Nat), p < 32 ∧ s.pageOn (.etp p) = true ∧ s.dp.creditDue.get p = true ∧ s.lst p = 2 ∧ s.creditMaySend p = true) ∧
  (∃ (s : Machine.State) (p c : Nat), s.pageOn (.etp p) = true ∧ s.fabricPort p = true ∧ (s.busyQueues (8 * p + c)).isEmpty = false ∧
      s.fld (.etp p) (creditFld c) = 0 ∧ s.dp.stalled.get (creditKey p c) = false) :=
  ⟨⟨(S [(.etp 31, Etp.MODE_ROLE, 1), (.etp 31, Etp.LINK_STATUS_LST, 2)]), 31, by decide +kernel⟩,
  ⟨((S [(.etp 31, Etp.MODE_ROLE, 1), (.etp 31, Etp.LINK_STATUS_LST, 2), (.etp 31, Hdr.STATE_ST,
      1)]).mapDp (fun d => { d with creditDue := d.creditDue.set 31 true })), 31, by decide +kernel⟩,
  ⟨(((S [(.etp 31, Etp.MODE_ROLE, 1)]).setTab .qsch 0 100 0 (BitVec.ofNat 32 (31 + 7 * 256))).mapDp
      (fun d => { d with queues := d.queues.set 100 { copies := [{ frame := 1, port := 31, queue := 100 }] } })), 31, 7, by decide +kernel⟩⟩

theorem witness_ReceptionCommands :
  (∃ (s : Machine.State) (p : Nat) (head : List Byte) (frac : Nat), s.inRun (.etp p) = true ∧ s.fld (.etp p) Etp.LINK_STATUS_LST = 2 ∧
      s.dp.rx.get p = 0 ∧ s.inRun .buf = true ∧ s.looped p = false ∧ s.rxProtected p = false ∧ (p < 32 → s.isCredit head = false)) ∧
  (∃ (s : Machine.State) (p i : Nat) (rest : List Byte) (corr : Nat) (l : List Byte) (secBad : Option (Nat × Nat × Nat)),
      l = ((s.frame i).bytes ++ rest).take (s.fld (.etp p) Etp.MAX_LEN_LEN + 1) ∧ s.dp.rx.get p = i ∧ i ≠ 0 ∧ s.rxError p l (s.frame i).code = none ∧
      (p < 32 → s.isCredit l = false) ∧ s.rxProtected p = false ∧ ((s.frame i).decided = true → s.copiesOf i = []) ∧ (s.frame i).gone = false ∧
      (s.frame i).refused = false ∧ (s.frame i).deferred = none ∧ (s.frame i).loop = false ∧ (s.frame i).wire = [] ∧ (s.frame i).headroom = none ∧
      (s.frame i).owed = [] ∧ (s.frame i).ctx = none ∧ (s.frame i).meter = none ∧ l.length ≤ (s.frame i).provLen ∧ i ∉ s.dp.windows) ∧
  (∃ (s : Machine.State) (p i : Nat) (rest : List Byte) (code : Bool) (corr uncorr : Nat) (l : List Byte) (secBad : Option (Nat × Nat × Nat)) (cnt :
      Nat), l = ((s.frame i).bytes ++ rest).take (s.fld (.etp p) Etp.MAX_LEN_LEN + 1) ∧ s.dp.rx.get p = i ∧ i ≠ 0 ∧
      s.rxError p l (code || (s.frame i).code) = some cnt ∧ (s.frame i).refused = false ∧ (s.frame i).loop = false ∧ (s.frame i).wire = [] ∧
      (s.frame i).owed = []) ∧
  (∃ (s : Machine.State) (p : Nat) (c : Copy), s.dp.rx.get p ≠ 0 ∧ (s.frame (s.dp.rx.get p)).ended = false ∧ (s.frame (s.dp.rx.get p)).decided = true
      ∧ 256 ≤ (s.frame (s.dp.rx.get p)).bytes.length ∧ c ∈ (s.queue c.queue).copies ∧ c.frame = s.dp.rx.get p ∧ c.cut = none) ∧
  (∃ (s : Machine.State) (p i : Nat) (rest : List Byte) (corr : Nat) (l m : List Byte) (sa : Option (Nat × Nat × Nat)),
      l = ((s.frame i).received ++ rest).take (s.fld (.etp p) Etp.MAX_LEN_LEN + 1) ∧ s.dp.rx.get p = i ∧ i ≠ 0 ∧ p < 32 ∧
      s.rxError p l (s.frame i).code = none ∧ s.isCredit l = false ∧ s.isCredit m = false ∧ s.rxProtected p = true ∧
      s.rxSecurity p l (s.frame i).secured none = (.decrypted m, sa) ∧ (s.frame i).decided = false ∧ (s.frame i).gone = false ∧
      (s.frame i).refused = false ∧ (s.frame i).deferred = none ∧ (s.frame i).loop = false ∧ (s.frame i).headroom = none ∧ (s.frame i).owed = [] ∧
      (s.frame i).ctx = none ∧ (s.frame i).meter = none ∧ m.length ≤ (s.frame i).provLen ∧ i ∉ s.dp.windows) :=
  ⟨⟨(up 31), 31, ((List.replicate 192 5 : List Byte)), 0, by decide +kernel⟩,
  ⟨(up 31).mapDp
      (fun d => { d with rx := d.rx.set 31 1, nextFrame := 2, frames := d.frames.set 1 { ingress := 31, current := 31, provLen := 1518 } }), 31, 1,
      good64, 0, _, none, rfl, by decide +kernel⟩,
  ⟨(up 31).mapDp
      (fun d => { d with rx := d.rx.set 31 1, nextFrame := 2, frames := d.frames.set 1 { ingress := 31, current := 31, provLen := 1518 } }), 31, 1,
      good64, true, 0, 0, _, none, Etp.CNT_RX_FCS_ERR, rfl, by decide +kernel⟩,
  ⟨((up 31).mapDp
      (fun d => { d with rx := d.rx.set 31 1, frames := d.frames.set 1 { ingress := 31, decided := true, bytes := List.replicate 256 1 }, queues := d.queues.set 9 { copies := [(({ frame := 1, port := 3, queue := 9 } : Copy))] } })),
      31, (({ frame := 1, port := 3, queue := 9 } : Copy)), by decide +kernel⟩,
  ⟨secured31, 31, 1, secFrame, 0, _, refcs (secHead.take 12 ++ secData), some (0, 496, 1), rfl, by decide +kernel⟩⟩

theorem witness_PassCommands :
  (∃ (s : Machine.State) (recirc : Bool) (p i b : Nat) (r : Parsed), b = (if (s.frame i).pass = 1 then (s.frame i).bank else s.activeBank) ∧
      r = parse (s.prsCfg b) (s.barostPort (s.frame i).ingress) (s.frame i).prot (s.frame i).ended (s.frame i).ingress (s.frame i).pass b (s.frame
      i).bytes ∧ s.grantPort recirc = some p ∧ s.dp.windows.find? (fun j => (s.frame j).current == p) = some i ∧ s.inRun .prs = true ∧
      dropCause (s.prsCfg b) r.flags = 0) ∧
  (∃ (s : Machine.State) (k : Pass) (rest : List Pass) (bad badFib : List Nat) (corr corrFib : Nat), s.dp.keys = k :: rest ∧ s.inRun .cls = true) ∧
  (∃ (s : Machine.State) (r : Pass) (rest : List Pass) (fabBad : List Nat) (frerBad : Bool) (corrFab corrFrer : Nat), s.dp.results = r :: rest ∧
      s.inRun .buf = true) ∧
  (∃ (s : Machine.State) (r : Pass) (rest : List Pass), s.dp.admits = r :: rest) ∧
  (∃ (s : Machine.State) (r : Pass) (rest : List Pass) (p q : Nat) (f : Frame),
      f = { s.frame r.frame with decided := true, lossless := none, ctx := r.ctx } ∧ q = s.queueFor r .dest p ∧ s.dp.admits = r :: rest ∧
      passCopies r = [(p, .dest)] ∧ r.mirrors = [] ∧ r.sample = false ∧ s.losslessClass (s.frame r.frame) r = none ∧
      s.portRefuses f .dest p = false ∧ s.plainDescs < 262144 - 8192 ∧ s.freeDescs ≠ 0 ∧ s.tiers q (chargeOf f .dest) = true ∧
      s.redProb q r.colour = 0 ∧ (∀ m, m < 4 → s.fld .buf (Buf.MIR_CFG_EN m) = 0)) ∧
  (∃ (s : Machine.State) (k : Pass) (rest : List Pass) (b : Nat) (key : List Byte) (port : Nat) (x : List Byte) (p w n l a : Nat) (dests : List Nat)
      (corr corrFib : Nat), x = extKey key (s.zoneOf b port) {} 0 0 ∧ p = s.root b (s.zoneOf b port) 0 ∧ w = s.treeWord b p ∧ l = s.treeWord b n ∧
      a = bitsOf l 127 64 ∧ dests = (portsOf (s.portSet b (bitsOf a 63 48 % 1024))).filter (fun e => e != 36 && (e != port || s.bankFld .cls
      (Cls.PORT_CFG_HAIRPIN port) b != 0)) ∧ s.firstKey k rest b key port ∧ s.root b (s.zoneOf b port) 1 = 0 ∧ s.root b (s.zoneOf b port) 2 = 0 ∧
      s.root b (s.zoneOf b port) 3 = 0 ∧ 544 ≤ p ∧ p ≤ 262143 ∧ (w % 4 = 1 ∧ n = bitsOf w 113 96 + (if nodeTest w (nodeField x (bitsOf w 10 4)
      (bitsOf w 15 11) (bitsOf w 20 16)) then 1 else 0) ∨ w % 4 = 2 ∧ bitsOf w 20 16 ≤ 7 ∧ n = bitsOf w 113 96 + nodeField x (bitsOf w 10 4) (bitsOf
      w 15 11) (bitsOf w 20 16)) ∧ 544 ≤ n ∧ n ≤ 262143 ∧ l % 4 = 3 ∧ actionReserved a = false ∧ bitsOf a 1 0 = 1 ∧ bitsOf a 4 2 = 2 ∧
      a.testBit 9 = false ∧ a.testBit 14 = false ∧ 32 ∉ dests) ∧
  (∃ (s : Machine.State) (k : Pass) (rest : List Pass) (b : Nat) (key : List Byte) (port corr corrFib : Nat), s.firstKey k rest b key port ∧
      s.root b (s.zoneOf b port) 1 = 0 ∧ s.root b (s.zoneOf b port) 2 = 0 ∧ 0 < s.root b (s.zoneOf b port) 0 ∧ s.root b (s.zoneOf b port) 0 < 544 ∧
      s.bankFld .cls Cls.WALK_ERR_ACT_LO_ACT b % 4 = 2 ∧ s.bankFld .cls Cls.WALK_ERR_ACT_LO_ACT b / 2 ^ 8 % 4 = 0 ∧
      s.bankFld .cls Cls.WALK_ERR_ACT_LO_ACT b / 2 ^ 14 % 2 = 0) ∧
  (∃ (s : Machine.State) (k : Pass) (rest : List Pass) (b : Nat) (key : List Byte) (port corr corrFib : Nat), s.firstKey k rest b key port ∧ (∀ i,
      i < 3 → s.root b (s.zoneOf b port) i = 0) ∧ s.bankFld .cls (Cls.ZONE_CFG_DEFAULT (s.zoneOf b port)) b = 0) ∧
  (∃ (s : Machine.State) (k : Pass) (rest : List Pass) (b : Nat) (key : List Byte) (port vid v corr corrFib : Nat), vid = s.lookupVid b key ∧
      v = s.vlanEntry vid ∧ s.firstKey k rest b key port ∧ (∀ i, i < 4 → s.root b (s.zoneOf b port) i = 0) ∧
      s.bankFld .cls (Cls.ZONE_CFG_DEFAULT (s.zoneOf b port)) b = 1 ∧ s.inRun .fib = true ∧ (v.testBit 64 = false ∨ v.testBit 66 = true ∧
      v.testBit port = false)) ∧
  (∃ (s : Machine.State) (k : Pass) (rest : List Pass) (b : Nat) (key : List Byte) (port vid v : Nat) (match' : Nat → Nat) (found : Option Nat)
      (dests : List Nat) (corr corrFib : Nat), vid = s.lookupVid b key ∧ v = s.vlanEntry vid ∧ match' = (fun e => s.macEntry (4 * fibBucket vid
      ((key.drop 4).take 6) + e)) ∧ (found = none ∧ (∀ e, e < 4 → ((match' e).testBit 63 && bitsOf (match' e) 47 0 == beAt key 4 6 && bitsOf (match'
      e) 59 48 == vid) = false) ∧ dests = (if v.testBit 65 then portsOf (bitsOf v 37 0) else []) ∨ ∃ e, found = some e ∧ e < 4 ∧
      (match' e).testBit 63 = true ∧ bitsOf (match' e) 47 0 = beAt key 4 6 ∧ bitsOf (match' e) 59 48 = vid ∧ (∀ i,
      i < e → ((match' i).testBit 63 && bitsOf (match' i) 47 0 == beAt key 4 6 && bitsOf (match' i) 59 48 == vid) = false) ∧
      bitsOf (match' e) 65 64 ≠ 2 ∧ dests = (if bitsOf (match' e) 65 64 = 0 then portsOf (2 ^ (bitsOf (match' e) 95 80 % 64)) else if bitsOf (match'
      e) 65 64 = 1 then portsOf (s.portSet b (bitsOf (match' e) 95 80 % 1024)) else [])) ∧ s.firstKey k rest b key port ∧ (∀ i,
      i < 4 → s.root b (s.zoneOf b port) i = 0) ∧ s.bankFld .cls (Cls.ZONE_CFG_DEFAULT (s.zoneOf b port)) b = 1 ∧ s.inRun .fib = true ∧
      v.testBit 64 = true ∧ (v.testBit 66 = false ∨ v.testBit port = true) ∧ 32 ∉ dests) ∧
  (∃ (s : Machine.State) (r : Pass) (rest : List Pass) (n m len : Nat) (x : Meter) (ct et corrFab corrFrer : Nat), m = s.ctxF n r.bank 1 10 0 ∧
      len = (if (s.frame r.frame).ended then (s.frame r.frame).bytes.length else (s.frame r.frame).provLen) ∧ x = s.dp.meters.get m ∧
      ct = min (x.ct + s.meterF m 0 24 0 * (s.now - x.last)) (s.cbs m) ∧ et = min (x.et + s.meterF m 1 24 0 * (s.now - x.last) + (if s.meterF m 0 28
      28 = 1 then x.ct + s.meterF m 0 24 0 * (s.now - x.last) - s.cbs m else 0)) (s.ebs m) ∧ s.plainPass r rest n ∧ s.ctxF n r.bank 0 2 2 = 0 ∧
      s.ctxF n r.bank 0 1 1 = 1 ∧ s.ctxF n r.bank 2 13 0 = 0) ∧
  (∃ (s : Machine.State) (r : Pass) (rest : List Pass) (n fn seq : Nat) (f : FrerFn) (d : Int) (corrFab corrFrer : Nat),
      fn = s.ctxF n r.bank 1 28 16 % 4096 ∧ seq = beAt r.key 24 2 ∧ f = s.frerFn fn ∧ d = (((seq + 65536 - f.recov) % 65536 : Nat) : Int) ∧
      s.plainPass r rest n ∧ s.ctxF n r.bank 0 2 2 = 1 ∧ s.ctxF n r.bank 0 1 1 = 0 ∧ s.ctxF n r.bank 2 13 0 = 0 ∧ s.inRun .frer = true ∧
      s.frerMode fn = 2 ∧ (s.frame r.frame).hasRtag = true ∧ (s.frame r.frame).frer = none ∧ f.takeAny = false) :=
  ⟨⟨(up 31).mapDp
      (fun d => { d with windows := [1, 2], prsLast := 7, frames := d.frames.set 1 { ingress := 31, current := 31, bytes := good64, ended := true } }),
      false, 31, 1, _, _, rfl, rfl, by decide +kernel⟩,
  ⟨(up 31).mapDp
      (fun d => { d with keys := [{ frame := 1, key := List.replicate 60 0 }], frames := d.frames.set 1 { ingress := 31, bytes := good64, ended := true, parsed := true } }),
      { frame := 1, key := List.replicate 60 0 }, [], [], [], 0, 0, by decide +kernel⟩,
  ⟨(up 31).mapDp
      (fun d => { d with results := [{ frame := 1 }], frames := d.frames.set 1 { ingress := 31, bytes := good64, ended := true, parsed := true } }),
      { frame := 1 }, [], [], false, 0, 0, by decide +kernel⟩,
  ⟨((up 31 (up 3)).mapDp
      (fun d => { d with admits := [(({ frame := 1, dests := [3] } : Pass))], frames := d.frames.set 1 { ingress := 31, bytes := good64, ended := true, parsed := true } })),
      (({ frame := 1, dests := [3] } : Pass)), (([] : List Pass)), by decide +kernel⟩,
  ⟨(up 31 (up 3)).mapDp
      (fun d => { d with admits := [{ frame := 1, dests := [3] }], frames := d.frames.set 1 { ingress := 31, bytes := good64, ended := true, parsed := true, provLen := 64 } }),
      { frame := 1, dests := [3] }, [], 3, _, _, rfl, rfl, by decide +kernel⟩,
  ⟨winPut [(0x1000000, 16, 544), (0x1002200, 16, 1 + 545 * 2 ^ 96), (0x1002220, 16, 3 + (9 + 5 * 2 ^ 48) * 2 ^ 64), (0x1000228, 8, 8)] (atCls []),
      { frame := 1, key := List.replicate 60 0 }, [], 0, List.replicate 60 0, 0, _, _, _, 546, _, _, _, 0, 0, rfl, rfl, rfl, rfl, rfl, rfl,
      by unfold State.firstKey; decide +kernel⟩,
  ⟨winPut [(0x1000000, 16, 543)] (atCls [(.cls, Cls.WALK_ERR_ACT_LO_ACT, 2)]), { frame := 1, key := List.replicate 60 0 }, [], 0,
      List.replicate 60 0, 0, 0, 0, by unfold State.firstKey; decide +kernel⟩,
  ⟨atCls [(.cls, Cls.ZONE_CFG_DEFAULT 0, 0)], { frame := 1, key := List.replicate 60 0 }, [], 0, List.replicate 60 0, 0, 0, 0,
      by unfold State.firstKey; decide +kernel⟩,
  ⟨atCls [(.cls, Cls.ZONE_CFG_DEFAULT 0, 1), (.fib, Hdr.STATE_ST, 1)], { frame := 1, key := List.replicate 60 0 }, [], 0, List.replicate 60 0, 0, _,
      _, 0, 0, rfl, rfl, by unfold State.firstKey; decide +kernel⟩,
  ⟨winPut [(0x1900018, 8, 1), (0x1800000 + 64 * fibBucket 1 (List.replicate 6 0) + 32, 16, 2 ^ 63 + 2 ^ 48 + 3 * 2 ^ 80)] (atCls [(.cls,
      Cls.ZONE_CFG_DEFAULT 0, 1), (.fib, Hdr.STATE_ST, 1)]), { frame := 1, key := List.replicate 60 0 }, [], 0, List.replicate 60 0, 0, _, _, _,
      some 2, [3], 0, 0, rfl, rfl, rfl, .inr ⟨2, rfl, by decide +kernel⟩, by unfold State.firstKey; decide +kernel⟩,
  ⟨atPolicer 2 { frame := 1, ctx := some 5, dests := [3] }, { frame := 1, ctx := some 5, dests := [3] }, [], 5, _, _, _, _, _, 0, 0, rfl, rfl, rfl,
      rfl, rfl, by unfold State.plainPass; decide +kernel⟩,
  ⟨{ (S [(.frer, Hdr.STATE_ST, 1)] (atPolicer 4 { frame := 1, ctx := some 5, dests := [3], key := List.replicate 24 0 ++ [0, 11] })).setTab .frer 0 7 0 2 with frer := State.reset.frer.set 7 { recov := 10, takeAny := false } },
      { frame := 1, ctx := some 5, dests := [3], key := List.replicate 24 0 ++ [0, 11] }, [], 5, _, _, _, _, 0, 0, rfl, rfl, rfl, rfl,
      by unfold State.plainPass; decide +kernel⟩⟩

theorem witness_TransmissionCommands :
  (∃ (s : Machine.State) (p wait k : Nat) (c : Copy) (ms : List Member) (gms : Option (List Member)), (∀ j len, s.gateOversize p j len = false) ∧
      (s.egress p).selected = none ∧ s.portEligible p = true ∧ s.choose p (s.startPs p ((s.egress p).sending.map (fun _ => wait))) = some (k, c, ms,
      gms) ∧ s.txProtected c.port = false) ∧
  (∃ (s : Machine.State) (p : Nat) (c : Copy) (lead corr corrDesc : Nat) (secBad : Option (Nat × Nat × Nat)), (s.egress p).selected = some c ∧
      (s.egress p).sending = none ∧ c ∈ (s.queue c.queue).copies ∧ c.port = p ∧ s.linkReady p = true ∧ s.takerReady c = true ∧
      s.startCovered c = true ∧ s.sealFails c secBad = none) ∧
  (∃ (s : Machine.State) (p : Nat) (c : Copy) (corr : Nat), (s.egress p).sending = some c ∧ ((s.egress p).early = true → (s.frame c.frame).ended =
      true)) ∧
  (∃ (s : Machine.State) (p wait k q : Nat) (c : Copy) (ts : Nat), ts = s.startPs p ((s.egress p).sending.map (fun _ => wait)) ∧ (∀ j len,
      s.gateOversize p j len = false) ∧ (∀ j, k < j → j < 8 → s.heldBack p j ts) ∧ (s.egress p).selected = none ∧ s.portEligible p = true ∧
      s.tabF .qsch 2 p 0 7 0 = 0 ∧ s.fabricPort p = false ∧ p < 38 ∧ k < 8 ∧ s.busyQueues (8 * p + k) = [q] ∧ (s.queue q).copies.head? = some c ∧
      c.queue = q ∧ s.queueEligible q = true ∧ s.txProtected c.port = false ∧ s.headLen c ≤ 64 * s.tabF .qsch 0 q 0 23 16 ∧
      (s.shape (8 * p + k) = 0 ∨ 0 ≤ s.nTokens (8 * p + k)) ∧ s.gateAdmits p k (s.headLen c) ts = true) ∧
  (∃ (s : Machine.State) (p wait k q1 q2 : Nat) (c1 c2 : Copy) (ts : Nat), ts = s.startPs p ((s.egress p).sending.map (fun _ => wait)) ∧ (∀ j len,
      s.gateOversize p j len = false) ∧ (∀ j, k < j → j < 8 → s.heldBack p j ts) ∧ (∀ len, s.gateAdmits p k len ts = true) ∧
      (s.egress p).selected = none ∧ s.portEligible p = true ∧ s.tabF .qsch 2 p 0 7 0 = 0 ∧ s.fabricPort p = false ∧ p < 38 ∧ k < 8 ∧ q1 < q2 ∧
      s.busyQueues (8 * p + k) = [q1, q2] ∧ (s.queue q1).copies.head? = some c1 ∧ (s.queue q2).copies.head? = some c2 ∧ c1.queue = q1 ∧
      c2.queue = q2 ∧ s.queueEligible q1 = true ∧ s.queueEligible q2 = true ∧ s.txProtected c1.port = false ∧ s.txProtected c2.port = false ∧
      s.headLen c2 ≤ 64 * s.tabF .qsch 0 q2 0 23 16 ∧ (s.shape (8 * p + k) = 0 ∨ 0 ≤ s.nTokens (8 * p + k)) ∧ (s.svc (8 * p + k)).ptr = q1) ∧
  (∃ (s : Machine.State) (p wait : Nat) (c : Copy), (s.egress p).selected = some c) :=
  ⟨⟨(((up 3).setTab .qsch 0 3 0 (BitVec.ofNat 32 (3 + 2 * 2 ^ 16))).mapDp
      (fun d => { d with queues := d.queues.set 3 { copies := [(({ frame := 1, port := 3, queue := 3, charge := 1 } : Copy))], used := 1 }, frames := d.frames.set 1 { ingress := 31, bytes := good64, ended := true, parsed := true, decided := true, refs := 1 } })),
      3, 0, 0, (({ frame := 1, port := 3, queue := 3, charge := 1 } : Copy)), (([{ id := 3, quantum := 128, dc := 128, len := 64 }] : List Member)),
      ((none : Option (List Member))), fun j len => gateOversize_off _ 3 j len (by decide +kernel), by decide +kernel⟩,
  ⟨(up 3).mapDp
      (fun d => { d with queues := d.queues.set 3 { copies := [{ frame := 1, port := 3, queue := 3, charge := 1 }], used := 1 }, frames := d.frames.set 1 { ingress := 31, bytes := good64, ended := true, parsed := true, decided := true, refs := 1 }, egress := d.egress.set 3 { selected := some { frame := 1, port := 3, queue := 3, charge := 1 } } }),
      3, { frame := 1, port := 3, queue := 3, charge := 1 }, 0, 0, 0, none, by decide +kernel⟩,
  ⟨((up 37).mapDp
      (fun d => { d with frames := d.frames.set 1 { ingress := 31, bytes := good64, ended := true, parsed := true, decided := true, refs := 1 }, egress := d.egress.set 37 { sending := some (({ frame := 1, port := 37, queue := 3, charge := 1 } : Copy)) } })),
      37, (({ frame := 1, port := 37, queue := 3, charge := 1 } : Copy)), 0, by decide +kernel⟩,
  ⟨atSched [9], 3, 0, 6, 9, { frame := 1, port := 3, queue := 9, charge := 1 }, _, rfl, fun j len => gateOversize_off _ 3 j len (by decide +kernel),
      fun j h1 h2 => by obtain rfl : j = 7 := (by omega); exact .inl (by decide +kernel), by decide +kernel⟩,
  ⟨(atSched [9, 11]).mapDp (fun d => { d with svcs := d.svcs.set 30 { ptr := 9 } }), 3, 0, 6, 9, 11,
      { frame := 1, port := 3, queue := 9, charge := 1 }, { frame := 1, port := 3, queue := 11, charge := 1 }, _, rfl,
      fun j len => gateOversize_off _ 3 j len (by decide +kernel),
      fun j h1 h2 => by obtain rfl : j = 7 := (by omega); exact .inl (by decide +kernel), fun len => gateAdmits_free _ _ _ _ _ (by decide +kernel),
      by decide +kernel⟩,
  ⟨(atSched [9]).mapDp (fun d => { d with egress := d.egress.set 3 { selected := some { frame := 1, port := 3, queue := 9, charge := 1 } } }), 3, 0,
      { frame := 1, port := 3, queue := 9, charge := 1 }, by decide +kernel⟩⟩

theorem witness_TableWindowWrites :
  (∃ (s : Machine.State) (src : Src) (a v : Nat), s.ownerWrites src .cls ∧ 0x1000000 ≤ a ∧ a < 0x1800000 ∧ (a - 0x1000000) / 0x400000 ≠ s.activeBank
      ∧ s.standbyShut .cls = none) ∧
  (∃ (s : Machine.State) (src : Src) (a v : Nat), s.ownerWrites src .cls ∧ 0x1A00000 ≤ a ∧ a < 0x1C00000 ∧ a % 256 < 64 ∧
      a % 256 / 32 ≠ s.activeBank ∧ s.standbyShut .cls = none) ∧
  (∃ (s : Machine.State) (src : Src) (a v : Nat), s.pageOn .cls = true ∧ 0x1A00000 ≤ a ∧ 128 ≤ a % 256) ∧
  (∃ (s : Machine.State) (src : Src) (a v : Nat), s.ownerWrites src .fib ∧ a < 0x1910000 ∧ a / 4 % 4 < 3) ∧
  (∃ (s : Machine.State) (src : Src) (a v : Nat), s.ownerWrites src .fib ∧ 12 ≤ a ∧ a < 0x1910000 ∧ a % 16 = 12) ∧
  (∃ (s : Machine.State) (src : Src), s.ownerWrites src .fib) ∧
  (∃ (s : Machine.State), s.cloning .cls = true) ∧
  (∃ (s : Machine.State) (src : Src) (a v : Nat), s.ownerWrites src .tsi ∧ 0x1E00000 ≤ a ∧ a < 0x1E02000 ∧ a % 4 = 0 ∧
      (a - 0x1E00000) / 0x1000 ≠ s.bankOf .tsi ∧ s.cloning .tsi = false ∧ s.checking .tsi = false) ∧
  (∃ (s : Machine.State), s.cloning .tsi = true) :=
  ⟨⟨(S []), Src.tp, 0x1400000, 0xFFFFFFFF, by unfold State.ownerWrites; decide +kernel⟩,
  ⟨(S []), Src.tp, 0x1BFFF3C, 0xFFFFFFFF, by unfold State.ownerWrites; decide +kernel⟩,
  ⟨(S []), Src.host, 0x1BFFF80, 0xFFFFFFFF, by decide +kernel⟩,
  ⟨(S []), Src.tp, 0x190FFF8, 0xFFFFFFFF, by unfold State.ownerWrites; decide +kernel⟩,
  ⟨(((S []).fibWrite .tp 0x1900000 0x12345678).fibWrite .tp 0x1900008 0xCAFEBABE), Src.tp, 0x190FFFC, 0xFFFFFFFF,
      by unfold State.ownerWrites; decide +kernel⟩,
  ⟨(((S []).fibWrite .tp 0x1900000 0x12345678).fibWrite .tp 0x1900008 0xCAFEBABE), Src.tp, by unfold State.ownerWrites; decide +kernel⟩,
  ⟨(S [(.cls, Cls.BANK_STATUS_CLONE_BUSY, 1), (.cls, Hdr.COMMIT_STATUS_PENDING, 1)]), by decide +kernel⟩,
  ⟨(S []), Src.tp, 0x1E01FFC, 0xFFFFFFFF, by unfold State.ownerWrites; decide +kernel⟩,
  ⟨(S [(.tsi, Tsi.TSI_STATUS_CLONE_BUSY, 1)]), by decide +kernel⟩⟩

theorem witness_BufferAndSchedulerCommands :
  (∃ (s : Machine.State), s.pageOn .buf = true) ∧
  (∃ (s : Machine.State), s.pageOn .buf = true) ∧
  (∃ (s : Machine.State), s.pageOn .qsch = true) ∧
  (∃ (s : Machine.State), s.pageOn .qsch = true) ∧
  (∃ (s : Machine.State) (bits : List Bool) (x : Trng), s.pageOn .trng = true ∧ bits.foldl (Trng.sample (s.fld .trng Trng.HEALTH_CFG_RCT_CUTOFF)
      (s.fld .trng Trng.HEALTH_CFG_APT_CUTOFF)) (s.sec.trng, false, false) = (x, false, false) ∧ x.seen = 1024 ∧ seedBits ≤ bits.length) ∧
  (∃ (s : Machine.State) (b : Bool) (n : Nat), s.pageOn .trng = true ∧ 0 < n ∧ s.fld .trng Trng.HEALTH_CFG_RCT_CUTOFF ≤ n) ∧
  (∃ (s : Machine.State) (bits : List Bool), s.pageOn .trng = true ∧ bits.length < seedBits) ∧
  (∃ (s : Machine.State) (q : Nat), q = s.fld .buf Buf.QSTAT_SEL_QUEUE ∧ s.pageOn .buf = true) ∧
  (∃ (s : Machine.State) (src : Src) (v : Nat), s.ownerWrites src .qsch ∧ v.testBit 31 = true) ∧
  (∃ (s : Machine.State), s.pageOn .qsch = true) :=
  ⟨⟨({ S [] with now := 0x123456789ABC }), by decide +kernel⟩,
  ⟨base, by decide +kernel⟩,
  ⟨base, by decide +kernel⟩,
  ⟨base, by decide +kernel⟩,
  ⟨S [(.trng, Trng.HEALTH_CFG_RCT_CUTOFF, 32), (.trng, Trng.HEALTH_CFG_APT_CUTOFF, 800)], (List.range 1024).map (fun i => i % 2 == 0),
      (((List.range 1024).map (fun i => i % 2 == 0)).foldl (Trng.sample 32 800) (({} : Machine.Trng), false, false)).1, by decide +kernel⟩,
  ⟨base, false, 4096, by decide +kernel⟩,
  ⟨(S [(.trng, Trng.STATUS_HEALTHY, 1)]), [], by decide +kernel⟩,
  ⟨((S [(.buf, Buf.QSTAT_SEL_QUEUE, 4095)]).mapDp (fun d => { d with queues := d.queues.set 4095 { used := 5, peak := 9 } })), _, rfl,
      by decide +kernel⟩,
  ⟨((S []).mapMeter 2047 (fun m => { m with marked := true })), Src.tp, (0x80000000 + 2047), by unfold State.ownerWrites; decide +kernel⟩,
  ⟨S [], by decide +kernel⟩⟩

theorem witness_GateListCommands :
  (∃ (s : Machine.State) (p : Nat), p < 38 ∧ s.pageOn (.tgate p) = true ∧ s.inRun (.tgate p) = true ∧ (s.sched p false).en = true ∧
      s.gateCt p = none ∧ ((s.sched p false).atPos ((s.sched p false).pos (s.domNs (s.gateDom p)))).2 = 0 ∧
      (s.gate p).cycle ≠ some ((s.sched p false).index (s.domNs (s.gateDom p)))) ∧
  (∃ (s : Machine.State) (src : Src) (p b k w v : Nat), s.ownerWrites src (.tgate p) ∧ b < 2 ∧ k < 1024 ∧ w < 2 ∧
      b ≠ s.fld (.tgate p) Tgate.LIST_STATUS_ACTIVE ∧ s.cloning (.tgate p) = false ∧ s.checking (.tgate p) = false) ∧
  (∃ (s : Machine.State) (p ct : Nat), p < 38 ∧ s.pageOn (.tgate p) = true ∧ s.gateCt p = some ct ∧ ct ≤ s.domNs (s.gateDom p)) ∧
  (∃ (s : Machine.State) (p : Nat), p < 38 ∧ s.pageOn (.tgate p) = true ∧ s.cloning (.tgate p) = true) ∧
  (∃ (s : Machine.State) (p b k : Nat), p < 38 ∧ s.pageOn (.tgate p) = true) ∧
  (∃ (s : Machine.State) (p k : Nat), p < 38 ∧ s.pageOn (.tgate p) = true) ∧
  (∃ (s : Machine.State) (p b k : Nat), p < 38 ∧ s.pageOn (.tgate p) = true ∧ b ≠ s.fld (.tgate p) Tgate.LIST_STATUS_ACTIVE) :=
  ⟨⟨(((S [(.tgate 37, Hdr.STATE_ST, 1), (.tgate 37, Tgate.GATE_CFG_GATE_EN, 1), (.tgate 37, Tgate.CYCLE_TIME_NS, 1000000), (.tgate 37,
      Tgate.LIST_LEN_LEN, 1)]))), 37, by decide +kernel⟩,
  ⟨(S []), Src.tp, 37, 1, 1023, 1, 0xFFFFFFFF, by unfold State.ownerWrites; decide +kernel⟩,
  ⟨((S [(.tgate 37, Tgate.LIST_STATUS_CHANGE_PENDING, 1)]).mapDp (fun d => { d with gates := d.gates.set 37 { ct := some 0 } })), 37, 0,
      by decide +kernel⟩,
  ⟨(S [(.tgate 37, Tgate.LIST_STATUS_CLONE_BUSY, 1)]), 37, by decide +kernel⟩,
  ⟨(S []), 37, 0, 1023, by decide +kernel⟩,
  ⟨S [], 31, 5, by decide +kernel⟩,
  ⟨(S []), 37, 1, 1023, by decide +kernel⟩⟩

theorem witness_ClockCommands :
  (∃ (s : Machine.State) (src : Src) (d v : Nat), s.ownerWrites src .time ∧ s.inRun .time = true ∧ v < 2 ^ 32 ∧
      (signed 32 v).natAbs ≤ slewLimit (s.fld .time Time.SLEW_CFG_MAX_PPM)) ∧
  (∃ (s : Machine.State) (src : Src) (d v : Nat), d < 4 ∧ s.ownerWrites src .time ∧ s.inRun .time = true ∧
      slewLimit (s.fld .time Time.SLEW_CFG_MAX_PPM) < signed 32 v) ∧
  (∃ (s : Machine.State) (src : Src) (v : Nat), s.trustedWrites src .time) ∧
  (∃ (s : Machine.State) (src : Src) (d : Nat), d < 4 ∧ s.ownerWrites src .time ∧ s.inRun .time = true ∧ s.flag .time (Time.DOM_CTRL_STEP d) = false
      ∧ s.flag .time (Time.DOM_CTRL_SET d) = false) ∧
  (∃ (s : Machine.State) (src : Src) (d : Nat), d < 4 ∧ s.ownerWrites src .time ∧ s.inRun .time = true ∧ s.flag .time (Time.DOM_CTRL_STEP d) = false
      ∧ s.flag .time (Time.DOM_CTRL_SET d) = false ∧ s.fld .time (Time.DOM_SET_NS_NS d) < 10 ^ 9) ∧
  (∃ (s : Machine.State) (src : Src), s.ownerWrites src .time) ∧
  (∃ (s : Machine.State) (src : Src) (p : Nat), s.ownerWrites src .time ∧ s.fld .time Time.TXTS_SEL_PORT = p ∧ (p < 32 ∨ p = 37)) :=
  ⟨⟨(S [(.time, Hdr.STATE_ST, 1)]), Src.tp, 3, 0xFFFFFFFF, by unfold State.ownerWrites; decide +kernel⟩,
  ⟨S [(.time, Hdr.STATE_ST, 1)], .tp, 3, 0x7FFFFFFF, by unfold State.ownerWrites; decide +kernel⟩,
  ⟨(S []), Src.tp, 511, by unfold State.trustedWrites; decide +kernel⟩,
  ⟨S [(.time, Hdr.STATE_ST, 1), (.time, Time.DOM_STEP_NS_NS 3, 4294967295), (.time, Time.DOM_CTRL_STEPS 3,
      65535)] { base with dom := State.reset.dom.set 3 { frac := 5 } }, Src.tp, 3, by unfold State.ownerWrites; decide +kernel⟩,
  ⟨S [(.time, Hdr.STATE_ST, 1), (.time, Time.DOM_SET_NS_NS 3, 999999999), (.time, Time.DOM_SET_S_HI_S 3, 65535), (.time, Time.DOM_SET_S_LO_S 3,
      4294967295)] { base with dom := State.reset.dom.set 3 { frac := 5 } }, Src.tp, 3, by unfold State.ownerWrites; decide +kernel⟩,
  ⟨({ S [] with now := 0x123456789ABC, dom := State.reset.dom.set 3 { ns := 5000000007, frac := 5 } }), Src.tp,
      by unfold State.ownerWrites; decide +kernel⟩,
  ⟨({ S [(.time, Time.TXTS_SEL_PORT, 37)] with txts := State.reset.txts.set 37 [⟨1, 2, 3, 4, 5, 6⟩, ⟨2, 2, 3, 4, 5, 6⟩] }), Src.tp, 37,
      by unfold State.ownerWrites; decide +kernel⟩⟩

theorem witness_FabricCommands :
  (∃ (s : Machine.State) (p : Nat), p < 32 ∧ s.pageOn .fab = true ∧ s.fabricPort p = true ∧ s.portUp p = false ∧
      s.flag .fab Fab.FAB_CFG_FAILOVER_EN = true) ∧
  (∃ (s : Machine.State) (src : Src) (id : Nat) (valid : Bool), s.ownerWrites src .fab ∧ (s.fld .fab Fab.NODE_ID ≠ id % 16 ∨ s.flag .fab
      Fab.NODE_VALID ≠ valid)) ∧
  (∃ (s : Machine.State), s.pageOn .frer = true) ∧
  (∃ (s : Machine.State) (n : Nat), s.pageOn .frer = true ∧ n ∈ s.frer.keys ∧ 2 ≤ s.frerMode n ∧ (s.frerFn n).last + 1000000 * s.tabF .frer 0 n 1 15
      0 ≤ s.now ∧ (s.frerFn n).takeAny = false) :=
  ⟨⟨(S [(.etp 31, Etp.MODE_ROLE, 1), (.fab, Fab.FAB_CFG_FAILOVER_EN, 1)]), 31, by decide +kernel⟩,
  ⟨(S []), Src.tp, 15, true, by unfold State.ownerWrites; decide +kernel⟩,
  ⟨base, by decide +kernel⟩,
  ⟨({ (S []).setTab .frer 0 4095 0 2 with now := 20000000, frer := State.reset.frer.set 4095 { takeAny := false } }), 4095, by decide +kernel⟩⟩

theorem witness_PairLanesAndBeats :
  (∃ (s : Machine.State) (i : Nat), i < 2 ∧ s.pageOn .clsp = true ∧ s.clasp.lock.get i = true ∧ s.laneUp i = false) ∧
  (∃ (s : Machine.State) (i : Nat), i < 2 ∧ s.pageOn .clsp = true ∧ s.laneUp i = true) ∧
  (∃ (s : Machine.State), s.pageOn .clsp = true ∧ s.beating = true ∧ s.lanesUp ≠ []) ∧
  (∃ (s : Machine.State) (lane : Nat) (blocks : List BeatBlock) (l : List Byte), l = beatPayload blocks ∧ s.pageOn .clsp = true ∧ s.clspOn = true ∧
      s.laneUp lane = true ∧ beatFramed blocks = true ∧ beatValid 1 3 l = true ∧ s.clasp.heard.contains (beAt l 2 2) = false ∧
      byteAt l 1 / 128 ≠ s.fld .clsp Clsp.PAIR_CFG_PAIR_ID) ∧
  (∃ (s : Machine.State) (lane : Nat) (blocks : List BeatBlock), s.pageOn .clsp = true ∧ s.clspOn = true ∧ s.laneUp lane = true ∧
      (beatFramed blocks && beatValid 1 3 (beatPayload blocks)) = false) ∧
  (∃ (s : Machine.State) (t0 : Nat), s.pageOn .clsp = true ∧ s.domNs (s.fld .clsp Clsp.PAIR_CFG_DIG_DOMAIN) = t0 ∧ 5000 ≤ t0 ∧ (∀ c,
      s.clasp.closed = some c → c < (t0 - 5000) / 2000) ∧ s.beating = true) ∧
  (∃ (s : Machine.State) (lane : Nat) (blocks : List BeatBlock) (l : List Byte) (w : Nat), l = beatPayload blocks ∧ w = s.fullWindow (beAt l 1 2) ∧
      s.pageOn .clsp = true ∧ s.clspOn = true ∧ s.laneUp lane = true ∧ beatFramed blocks = true ∧ beatValid 2 4 l = true ∧ (∀ c,
      s.clasp.closed = some c → c < w) ∧ s.clasp.partner.any (fun x => x.w == w) = false) ∧
  (∃ (s : Machine.State) (lane : Nat) (blocks : List BeatBlock) (l : List Byte) (w c : Nat) (a : DigWin), l = beatPayload blocks ∧
      w = s.fullWindow (beAt l 1 2) ∧ s.pageOn .clsp = true ∧ s.clspOn = true ∧ s.laneUp lane = true ∧ beatFramed blocks = true ∧
      beatValid 2 4 l = true ∧ s.clasp.closed = some c ∧ w ≤ c ∧ s.clasp.own = [a] ∧ a.w = w ∧ s.clasp.partner = [] ∧ s.digestOff = false ∧
      s.clasp.skip = 0 ∧ s.clasp.dC = 0 ∧ s.clasp.d = List.replicate 8 0 ∧ a.count = beAt l 3 2 ∧ a.sums = (List.range 8).map (fun j => beAt l (5 + 2
      * j) 2)) ∧
  (∃ (s : Machine.State) (c : Nat) (a : DigWin), s.pageOn .clsp = true ∧ s.clasp.closed = some c ∧ s.clasp.own = [a] ∧ a.w ≤ c) ∧
  (∃ (s : Machine.State) (lane : Nat) (blocks : List BeatBlock) (l : List Byte), l = beatPayload blocks ∧ s.pageOn .clsp = true ∧ s.clspOn = true ∧
      s.laneUp lane = true ∧ beatFramed blocks = true ∧ beatValid 1 3 l = true ∧ s.clasp.heard.contains (beAt l 2 2) = false ∧
      byteAt l 1 / 128 = s.fld .clsp Clsp.PAIR_CFG_PAIR_ID ∧ s.fld .clsp Hdr.ERR_CODE_CODE = 0) :=
  ⟨⟨((S [(.etp 37, Hdr.STATE_ST, 1)]).mapClasp (fun c => { c with lock := c.lock.set 1 true })), 1, by decide +kernel⟩,
  ⟨((pair 4).mapClasp (fun c => { c with lock := c.lock.set 0 true })), 0, by decide +kernel⟩,
  ⟨(pair 1 [(.clsp, Clsp.HB_SEQ_TX, 65535), (.clsp, Clsp.ROLE_STATUS_LANE1_UP, 1)]), by decide +kernel⟩,
  ⟨pair 1 [(.clsp, Clsp.PAIR_CFG_PAIR_ID, 0)], 0, beat 1 3 [0x84, 0x12, 0x34], _, rfl, by decide +kernel⟩,
  ⟨pair 1, 0, [⟨2, 0x3C, [0x13]⟩], by decide +kernel⟩,
  ⟨(pair 4 [(.clsp, Clsp.PAIR_CFG_DIG_EN, 1)] |> fun (s : State) => { s with dom := s.dom.set 0 { ns := 5000 } }), ((pair 4 [(.clsp,
      Clsp.PAIR_CFG_DIG_EN, 1)] |> fun (s : State) => { s with dom := s.dom.set 0 { ns := 5000 } }).domNs ((pair 4 [(.clsp, Clsp.PAIR_CFG_DIG_EN,
      1)] |> fun (s : State) => { s with dom := s.dom.set 0 { ns := 5000 } }).fld .clsp Clsp.PAIR_CFG_DIG_DOMAIN)), by decide +kernel⟩,
  ⟨pair 1, 0, beat 2 4 [0, 7, 0, 1], _, _, rfl, rfl, by decide +kernel⟩,
  ⟨(pair 4 [(.clsp, Clsp.PAIR_CFG_DIG_EN,
      1)]).mapClasp
      (fun c => { c with closed := some 0, own := [{ w := 0, count := 1 }], peer := some { role := 3, digest := base.fld .asy Asy.HALLMARK_DIGEST_DIGEST } }),
      0, beat 2 4 [0, 0, 0, 1], _, _, 0, { w := 0, count := 1 }, rfl, rfl, by decide +kernel⟩,
  ⟨((pair 4).mapClasp (fun c => { c with closed := some 5, own := [{ w := 5 }] })), 5, (({ w := 5 } : DigWin)), by decide +kernel⟩,
  ⟨pair 4 [(.clsp, Clsp.PAIR_CFG_PAIR_ID, 1)], 0, beat 1 3 [0x80, 0, 5], _, rfl, by decide +kernel⟩⟩

theorem witness_RoleCommands :
  (∃ (s : Machine.State), s.pageOn .clsp = true ∧ s.role = 3 ∧ s.beating = true ∧ s.flag .clsp Clsp.ROLE_STATUS_HB_OK = true) ∧
  (∃ (s : Machine.State), s.pageOn .clsp = true ∧ s.role = 4 ∧ s.beating = true ∧ s.flag .clsp Clsp.ROLE_STATUS_HB_OK = true ∧
      s.flag .clsp Clsp.ROLE_STATUS_TOOK = false) ∧
  (∃ (s : Machine.State), s.pageOn .clsp = true ∧ s.role = 2 ∧ s.beating = true ∧ s.flag .clsp Clsp.ROLE_STATUS_HB_OK = true) ∧
  (∃ (s : Machine.State), s.pageOn .clsp = true) ∧
  (∃ (s : Machine.State), s.pageOn .clsp = true ∧ s.flag .clsp Clsp.ROLE_STATUS_FENCE_IN = true ∧ (s.role = 6 ∨ s.role = 3 ∨ s.role = 2)) ∧
  (∃ (s : Machine.State), s.pageOn .clsp = true ∧ s.role = 1 ∧ (s.flag .clsp Clsp.ROLE_STATUS_FENCE_IN = true ∨ s.flag .clsp Clsp.PAIR_CFG_PREFER =
      true ∨ 1 ≤ s.clasp.expiries)) ∧
  (∃ (s : Machine.State), s.pageOn .clsp = true ∧ s.role = 1 ∧ s.flag .clsp Clsp.ROLE_STATUS_FENCE_IN = false ∧
      s.flag .clsp Clsp.PAIR_CFG_PREFER = false ∧ s.clasp.expiries = 0) ∧
  (∃ (s : Machine.State) (src : Src), s.ownerWrites src .clsp ∧ s.role ≠ 3 ∧ s.fld .clsp Hdr.ERR_CODE_CODE = 0) ∧
  (∃ (s : Machine.State) (src : Src), s.ownerWrites src .clsp ∧ s.role = 3) ∧
  (∃ (s : Machine.State) (src : Src) (b : PeerBeat), s.ownerWrites src .clsp ∧ s.role = 4 ∧ s.clasp.peer = some b ∧ b.role = 3) ∧
  (∃ (s : Machine.State) (src : Src), s.ownerWrites src .clsp ∧ (s.role = 1 ∨ s.role = 6)) :=
  ⟨⟨(pair 3 [(.clsp, Clsp.ROLE_STATUS_HB_OK, 1)]), by decide +kernel⟩,
  ⟨(pair 4 [(.clsp, Clsp.ROLE_STATUS_HB_OK, 1), (.clsp, Clsp.ROLE_STATUS_FENCE_IN, 1)]), by decide +kernel⟩,
  ⟨(pair 2 [(.clsp, Clsp.ROLE_STATUS_HB_OK, 1)]), by decide +kernel⟩,
  ⟨(pair 6 [(.clsp, Clsp.ROLE_STATUS_FENCE_IN, 1)]), by decide +kernel⟩,
  ⟨pair 6 [(.clsp, Clsp.ROLE_STATUS_FENCE_IN, 1)], by decide +kernel⟩,
  ⟨pair 1 [(.clsp, Clsp.PAIR_CFG_PREFER, 1)], by decide +kernel⟩,
  ⟨pair 1, by decide +kernel⟩,
  ⟨pair 1, Src.tp, by unfold State.ownerWrites; decide +kernel⟩,
  ⟨pair 3, Src.tp, by unfold State.ownerWrites; decide +kernel⟩,
  ⟨((pair 4).mapClasp (fun c => { c with peer := some (({ role := 3 } : PeerBeat)) })), Src.tp, (({ role := 3 } : PeerBeat)),
      by unfold State.ownerWrites; decide +kernel⟩,
  ⟨pair 1, .tp, by unfold State.ownerWrites; decide +kernel⟩⟩

theorem witness_PairServices :
  (∃ (s : Machine.State) (kind lane : Nat), s.pageOn .clsp = true ∧ s.ctlLane = some lane) ∧
  (∃ (s : Machine.State) (lane : Nat) (l payload : List Byte) (ecc : EccResult), payload = (l.drop 20).take (beAt l 18 2) ∧ s.pageOn .clsp = true ∧
      s.clspOn = true ∧ s.laneUp lane = true ∧ s.ctlFrame l = true ∧ byteAt l 14 / 16 = 4 ∧ (s.ctlKind (byteAt payload 0)).wait = []) ∧
  (∃ (s : Machine.State) (lane : Nat) (l : List Byte) (kind : Nat) (ecc : EccResult), kind = byteAt l 14 / 16 ∧ s.pageOn .clsp = true ∧
      s.clspOn = true ∧ s.laneUp lane = true ∧ s.ctlFrame l = true ∧ (kind = 1 ∨ kind = 2) ∧ beAt l 16 2 = (s.ctlKind kind).rxSeq) ∧
  (∃ (s : Machine.State) (q : Nat) (c : Copy) (rest : List Copy), s.pageOn .clsp = true ∧ (s.queue q).copies = c :: rest ∧ c ∉ rest ∧ c.queue = q ∧
      s.gated c = true ∧ s.pairGate = false ∧ (s.frame c.frame).tsLocal + ((s.fld .clsp Clsp.HOLD_CFG_HOLD_NS * 65536 : Nat) : Int) < ((s.now * 65536
      : Nat) : Int)) ∧
  (∃ (s : Machine.State) (src : Src), s.ownerWrites src .clsp) ∧
  (∃ (s : Machine.State) (src : Src), s.ownerWrites src .clsp) ∧
  (∃ (s : Machine.State), s.pageOn .clsp = true ∧ s.fld .clsp Clsp.FW_WDOG_LIMIT_US ≠ 0) ∧
  (∃ (s : Machine.State) (i : Nat), s.pageOn .clsp = true) ∧
  (∃ (s : Machine.State), s.pageOn .clsp = true) :=
  ⟨⟨((pair 4).mapClasp (fun c => { c with ctl := c.ctl.set 3 { sent := [⟨4, true, [1, 2]⟩, ⟨5, false, []⟩] } })), 3, 0, by decide +kernel⟩,
  ⟨((pair 4).mapClasp (fun c => { c with ctl := c.ctl.set 2 { sent := [⟨4, true, [1, 2]⟩, ⟨5, false, []⟩] } })), 0, (ctlF 4 0 [2, 0, 0, 5]), _,
      EccResult.clean, rfl, by decide +kernel⟩,
  ⟨((pair 4).mapClasp (fun c => { c with ctl := c.ctl.set 2 { rxSeq := 65535 } })), 0, (ctlF 2 65535 [0, 0, 0, 0, 0, 0, 0, 0]), _, EccResult.lost,
      rfl, by decide +kernel⟩,
  ⟨({ (pair 3 [(.clsp, Clsp.PAIR_CFG_PAIR_EN, 1)]).mapDp (fun d => { d with queues := d.queues.set 9 { copies := [(({ frame := 1, port := 3, queue := 9, paired := true } : Copy))], used := 1 }, frames := d.frames.set 1 { ended := true, refs := 1, bytes := good64 } }) with now := 100000000000 }),
      9, (({ frame := 1, port := 3, queue := 9, paired := true } : Copy)), (([] : List Copy)), by decide +kernel⟩,
  ⟨(pair 3 [(.clsp, Clsp.DIV_STATUS_DIVERGED, 1), (.clsp, Clsp.TRACE_CTRL_FROZEN, 1)]), Src.tp, by unfold State.ownerWrites; decide +kernel⟩,
  ⟨((pair 3).mapClasp (fun c => { c with fwLate := true })), Src.tp, by unfold State.ownerWrites; decide +kernel⟩,
  ⟨(pair 3 [(.clsp, Clsp.FW_WDOG_LIMIT_US, 5)]), by decide +kernel⟩,
  ⟨base, 0, by decide +kernel⟩,
  ⟨base, by decide +kernel⟩⟩

theorem witness_ProcessorCommands :
  (∃ (s : Machine.State) (src : Src) (m : Nat), m < 4 ∧ s.ownerWrites src .mpc ∧ (s.mpSt m = 0 ∨ s.mpSt m = 5)) ∧
  (∃ (s : Machine.State) (src : Src) (m : Nat), m < 4 ∧ s.ownerWrites src .mpc ∧ s.mpSt m = 3) ∧
  (∃ (s : Machine.State) (src : Src) (m k : Nat), m < 4 ∧ k < 4 ∧ k ≠ m ∧ s.ownerWrites src .mpc ∧ s.mpSt m = 2 ∧ s.mpSt k = 2) ∧
  (∃ (s : Machine.State) (m : Nat), m < 4 ∧ s.pageOn .mpc = true ∧ s.mpSt m = 1) ∧
  (∃ (s : Machine.State) (m c : Nat), m < 4 ∧ s.pageOn .mpc = true ∧ s.mpSt m = 1) ∧
  (∃ (s : Machine.State), s.pageOn .tru = true ∧ s.procs.tp = 1) ∧
  (∃ (s : Machine.State) (c : Nat), s.pageOn .tru = true ∧ s.procs.tp = 1 ∧ s.fld .tru Hdr.ERR_CODE_CODE = 0) ∧
  (∃ (s : Machine.State) (m : Nat), m < 4 ∧ s.pageOn .mpc = true ∧ s.mpSt m = 4 ∧ s.mpWaits m = false) ∧
  (∃ (s : Machine.State) (m ch pc : Nat), m < 4 ∧ s.pageOn .mpc = true ∧ (s.mpSt m = 2 ∨ s.mpSt m = 3 ∨ s.mpSt m = 4)) ∧
  (∃ (s : Machine.State) (ch : Nat), s.pageOn .tru = true ∧ s.signet = true ∧ (s.sec.mismatches.filter (fun x => decide (s.power.aonNs < x + 10 ^
      9))).length < 2) ∧
  (∃ (s : Machine.State) (ch : Nat), s.pageOn .tru = true ∧ s.signet = true ∧ 2 ≤ (s.sec.mismatches.filter (fun x => decide (s.power.aonNs < x + 10 ^
      9))).length ∧ (s.fld .lck Lck.TAMPER_EN_EN).testBit 5 = true) ∧
  (∃ (s : Machine.State) (corr : Nat × Nat), s.pageOn .tru = true ∧ s.restarting = true ∧ s.procs.tp = 2 ∧ s.signetSound = true ∧
      s.sec.onRestart = none ∧ s.procs.rung = []) :=
  ⟨⟨(S []), Src.tp, 3, by unfold State.ownerWrites; decide +kernel⟩,
  ⟨(S [(.mpc, Mpc.MP_STATUS_ST 3, 3)]), Src.tp, 3, by unfold State.ownerWrites; decide +kernel⟩,
  ⟨(S [(.mpc, Mpc.MP_STATUS_ST 3, 2), (.mpc, Mpc.MP_STATUS_ST 0, 2)]), Src.tp, 3, 0, by unfold State.ownerWrites; decide +kernel⟩,
  ⟨(S [(.mpc, Mpc.MP_STATUS_ST 3, 1), (.mpc, Mpc.MP_CTRL_SPARE 3, 1)]), 3, by decide +kernel⟩,
  ⟨(S [(.mpc, Mpc.MP_STATUS_ST 3, 1)]), 3, 1, by decide +kernel⟩,
  ⟨((S []).setTp 1), by decide +kernel⟩,
  ⟨(S []).setTp 1, 0, by decide +kernel⟩,
  ⟨(S [(.mpc, Mpc.MP_STATUS_ST 3, 4)]), 3, by decide +kernel⟩,
  ⟨(S [(.mpc, Mpc.MP_STATUS_ST 3, 3)]), 3, 1, 0x80000000, by decide +kernel⟩,
  ⟨(S [(.tru, Tru.TP_STATUS_RUNNING, 1)]), 1, by decide +kernel⟩,
  ⟨(S [(.tru, Tru.TP_STATUS_RUNNING, 1), (.lck, Lck.TAMPER_EN_EN, 32)]).mapSec (fun x => { x with mismatches := [1, 2] }), 0, by decide +kernel⟩,
  ⟨withImage ((S [(.tru, Tru.TP_STATUS_RESTARTING, 1)]).setTp 2), (0, 0), by decide +kernel⟩⟩

theorem witness_ProcessorRings :
  (∃ (s : Machine.State) (src : Src), s.ownerWrites src .mpc) ∧
  (∃ (s : Machine.State) (m : Fin 4) (corr : Nat), s.ownerWrites (.mp m) .mpc ∧ s.signet = true ∧ s.mailOpen = true ∧ s.mbxSt (m.val + 1) ≠ 1) ∧
  (∃ (s : Machine.State) (src : Src) (r v : Nat), r < 16 ∧ v < 4096 ∧ s.ownerWrites src .mpc) ∧
  (∃ (s : Machine.State) (r w0 w1 corr : Nat), w0 = s.mword (s.mringDesc r) 0 ∧ w1 = s.mword (s.mringDesc r) 1 ∧ r < 8 ∧ s.pageOn .mpc = true ∧
      s.mringReady r = true ∧ s.mtxCause w0 w1 false = 0) ∧
  (∃ (s : Machine.State) (r w0 w1 : Nat) (ecc : Bool) (corr : Nat), w0 = s.mword (s.mringDesc r) 0 ∧ w1 = s.mword (s.mringDesc r) 1 ∧ r < 8 ∧
      s.pageOn .mpc = true ∧ s.mringReady r = true ∧ s.mtxCause w0 w1 ecc ≠ 0) ∧
  (∃ (s : Machine.State) (m : Fin 4) (corr : Nat), s.ownerWrites (.mp m) .mpc ∧ s.mbxSt (m.val + 1) ≠ 1 ∧ s.mailOpen = false) :=
  ⟨⟨(S []), Src.tp, by unfold State.ownerWrites; decide +kernel⟩,
  ⟨mp3 [(.mpc, Hdr.OWNER_CLASS, 1), (.tru, Tru.TP_STATUS_RUNNING, 1)], (3 : Fin 4), 0, by unfold State.ownerWrites; decide +kernel⟩,
  ⟨(S []), Src.tp, 15, 4095, by unfold State.ownerWrites; decide +kernel⟩,
  ⟨((up 33 (S [(.mpc, Hdr.STATE_ST, 1), (.mpc, Mpc.MRING_CFG_EN 7, 1), (.mpc, Mpc.MRING_TAIL_TAIL 7, 1)])).mapMsram (fun m => m.putBytes 4 (leBytes 4
      100))), 7, _, _, 0, rfl, rfl, by decide +kernel⟩,
  ⟨((up 33 (S [(.mpc, Hdr.STATE_ST, 1), (.mpc, Mpc.MRING_CFG_EN 7, 1), (.mpc, Mpc.MRING_TAIL_TAIL 7, 1)])).mapMsram (fun m => m.putBytes 4 (leBytes 4
      100))), 7, _, _, true, 0, rfl, rfl, by decide +kernel⟩,
  ⟨mp3 [(.mpc, Hdr.OWNER_CLASS, 1), (.tru, Hdr.STATE_ST, 3)], (3 : Fin 4), 0, by unfold State.ownerWrites; decide +kernel⟩⟩

theorem witness_MacsecKeyCommands :
  (∃ (s : Machine.State) (slot : Nat) (a : List Byte) (r : KeyRec) (n h : Nat), a = s.mbxArg slot ∧ n = byteAt a 4 ∧ s.serving slot 0xC01 ∧
      slot ≠ 0 ∧ s.keysShut = false ∧ s.keyRec (leAt a 0 4) = some r ∧ r.usage = 0 ∧ n ≠ 0 ∧ n ≤ 32 ∧ n + 5 ≤ a.length ∧
      freeHandle (s.sec.handles.filter (fun y => y.ckn != (a.drop 5).take n)) s.sec.nextHandle = some h) ∧
  (∃ (s : Machine.State) (slot : Nat) (a : List Byte) (m : MkaHandle), a = s.mbxArg slot ∧ s.serving slot 0xC02 ∧ slot ≠ 0 ∧ s.keysShut = false ∧
      s.mka (leAt a 0 2) = some m ∧ 0 < leAt a 6 2 ∧ leAt a 6 2 ≤ 1500 ∧ leAt a 2 4 + leAt a 6 2 ≤ msramSize) ∧
  (∃ (s : Machine.State) (slot : Nat) (a : List Byte) (m : MkaHandle) (i : Nat), a = s.mbxArg slot ∧ s.serving slot 0xC03 ∧ slot ≠ 0 ∧
      s.keysShut = false ∧ s.mka (leAt a 0 2) = some m ∧ byteAt a 2 ≤ 3 ∧ s.freeSlot = some i) ∧
  (∃ (s : Machine.State) (slot : Nat) (a : List Byte) (m : MkaHandle) (n i : Nat) (sak : List Byte), a = s.mbxArg slot ∧
      n = (if byteAt a 2 % 2 = 1 then 40 else 24) ∧ s.serving slot 0xC04 ∧ slot ≠ 0 ∧ s.keysShut = false ∧ s.mka (leAt a 0 2) = some m ∧
      byteAt a 2 ≤ 3 ∧ n + 3 ≤ a.length ∧ keyUnwrap m.kek ((a.drop 3).take n) = some sak ∧ s.freeSlot = some i) ∧
  (∃ (s : Machine.State) (slot i : Nat), i = leAt (s.mbxArg slot) 0 2 ∧ s.serving slot 0xC05 ∧ slot ≠ 0 ∧ s.keysShut = false ∧ i < 1024 ∧
      (s.slot i).bind ≠ 2 ∧ s.saNames i = false) :=
  ⟨⟨((ask 4 0xC01 (leBytes 4 9 ++ [2, 5,
      6])).mapSec (fun x => { x with keys := [{ id := 9, usage := 0, key := List.replicate 16 1 }], nextHandle := 65535 })), 4, _,
      (({ id := 9, usage := 0, key := List.replicate 16 1 } : KeyRec)), _, 65535, rfl, rfl, by unfold State.serving; decide +kernel⟩,
  ⟨((ask 4 0xC02 (leBytes 2 3 ++ leBytes 4 0x1000 ++ leBytes 2 20)).mapSec
      (fun x => { x with handles := [(({ handle := 3, ckn := [1], ick := List.replicate 16 2, kek := List.replicate 16 3 } : MkaHandle))] })), 4, _,
      (({ handle := 3, ckn := [1], ick := List.replicate 16 2, kek := List.replicate 16 3 } : MkaHandle)), rfl,
      by unfold State.serving; decide +kernel⟩,
  ⟨((ask 4 0xC03 (leBytes 2 3 ++ [3])).mapSec
      (fun x => { x with handles := [(({ handle := 3, ckn := [1], ick := List.replicate 16 2, kek := List.replicate 16 3 } : MkaHandle))] })), 4, _,
      (({ handle := 3, ckn := [1], ick := List.replicate 16 2, kek := List.replicate 16 3 } : MkaHandle)), 0, rfl,
      by unfold State.serving; decide +kernel⟩,
  ⟨((ask 4 0xC04 (leBytes 2 3 ++ [0] ++ beBytes 24 0xA49B5003A00F6335340929C3ED4B809F2A356550677EE6E4)).mapSec
      (fun x => { x with handles := [(({ handle := 3, ckn := [1], ick := List.replicate 16 2, kek := List.replicate 16 3 } : MkaHandle))] })), 4, _,
      (({ handle := 3, ckn := [1], ick := List.replicate 16 2, kek := List.replicate 16 3 } : MkaHandle)), _, 0, ((List.replicate 16 9 : List Byte)),
      rfl, rfl, by unfold State.serving; decide +kernel⟩,
  ⟨({ ask 4 0xC05 (leBytes 2 1023) with slots := State.reset.slots.set 1023 { bind := 1, loaded := true, key := [1] } }), 4, _, rfl,
      by unfold State.serving; decide +kernel⟩⟩

theorem witness_KeyStoreCommands :
  (∃ (s : Machine.State) (slot : Nat) (a : List Byte) (r : KeyRec) (i : Nat), a = s.mbxArg slot ∧ s.serving slot 0xC10 ∧ s.keysShut = false ∧
      byteAt a 0 < 64 ∧ s.slotOwnsCip slot (byteAt a 0) = true ∧ s.flag (.cip (byteAt a 0)) Cip.KEY_BIND_BOUND = false ∧
      s.keyRec (leAt a 1 4) = some r ∧ r.usage = 1 ∧ s.freeSlot = some i) ∧
  (∃ (s : Machine.State) (slot : Nat) (a : List Byte), a = s.mbxArg slot ∧ s.serving slot 0xC11 ∧ s.keysShut = false ∧ byteAt a 0 < 64 ∧
      s.slotOwnsCip slot (byteAt a 0) = true) ∧
  (∃ (s : Machine.State) (slot : Nat) (a : List Byte), a = s.mbxArg slot ∧ s.serving slot 0xE10 ∧ s.mayUpdate slot ∧ s.keysShut = false ∧ s.lc = 2 ∧
      s.epoch ≠ 32 ∧ byteAt a 4 ≤ 2 ∧ byteAt a 5 = 0 ∧ a.length = 24 ∧ s.sec.keys.length < 2048) ∧
  (∃ (s : Machine.State) (slot : Nat) (a : List Byte) (w : KeyRec) (k : List Byte), a = s.mbxArg slot ∧ s.serving slot 0xE11 ∧ s.mayUpdate slot ∧
      s.keysShut = false ∧ s.lc = 3 ∧ s.epoch ≠ 32 ∧ byteAt a 4 ≤ 2 ∧ byteAt a 5 = 0 ∧ 36 ≤ a.length ∧ s.sec.keys.length < 2048 ∧
      s.keyRec (leAt a 8 4) = some w ∧ w.usage = 2 ∧ keyUnwrap w.key ((a.drop 12).take 24) = some k) ∧
  (∃ (s : Machine.State) (slot : Nat) (a : List Byte) (r : KeyRec), a = s.mbxArg slot ∧ s.serving slot 0xE12 ∧ s.mayUpdate slot ∧
      s.keysShut = false ∧ (s.lc = 2 ∨ s.lc = 3) ∧ s.keyRec (leAt a 0 4) = some r ∧ s.sec.bound.any (fun b => b.2 == leAt a 0 4 && (s.slot
      b.1).loaded) = false) ∧
  (∃ (s : Machine.State) (slot : Nat), s.serving slot 0xE01 ∧ s.mayUpdate slot) :=
  ⟨⟨((S [(.cip 63, Hdr.OWNER_CLASS, 3)] (ask 2 0xC10 (63 :: leBytes 4 9))).mapSec
      (fun x => { x with keys := [{ id := 9, usage := 1, key := List.replicate 16 1 }] })), 2, _,
      (({ id := 9, usage := 1, key := List.replicate 16 1 } : KeyRec)), 0, rfl, by unfold State.serving; decide +kernel⟩,
  ⟨({ S [(.cip 63, Hdr.OWNER_CLASS, 3), (.cip 63, Cip.KEY_BIND_BOUND, 1), (.cip 63, Cip.KEY_BIND_SLOT, 1023)] (ask 2 0xC11 [63]) with slots := State.reset.slots.set 1023 { bind := 2, page := 63, loaded := true, key := [1] } }),
      2, _, rfl, by unfold State.serving; decide +kernel⟩,
  ⟨(life 2 (ask 1 0xE10 (leBytes 4 9 ++ [2, 0, 0, 0] ++ List.replicate 16 5))), 1, _, rfl, by unfold State.serving State.mayUpdate; decide +kernel⟩,
  ⟨((life 3 (ask 1 0xE11 (leBytes 4 9 ++ [1, 0, 0, 0] ++ leBytes 4 8 ++ beBytes 24 0xA9669B3004795875979AD1F7D2AEAA115AA617AA3DE3C189))).mapSec
      (fun x => { x with keys := [(({ id := 8, usage := 2, key := List.replicate 16 4 } : KeyRec))] })), 1, _,
      (({ id := 8, usage := 2, key := List.replicate 16 4 } : KeyRec)), ((List.replicate 16 5 : List Byte)), rfl,
      by unfold State.serving State.mayUpdate; decide +kernel⟩,
  ⟨((life 3 (ask 1 0xE12 (leBytes 4 9))).mapSec (fun x => { x with keys := [(({ id := 9, usage := 2, key := List.replicate 16 4 } : KeyRec))] })), 1,
      _, (({ id := 9, usage := 2, key := List.replicate 16 4 } : KeyRec)), rfl, by unfold State.serving State.mayUpdate; decide +kernel⟩,
  ⟨(ask 4 0xE01 []), 4, by unfold State.serving State.mayUpdate; decide +kernel⟩⟩

theorem witness_ImageCommands :
  (∃ (s : Machine.State) (slot k : Nat), s.serving slot 0xD01 ∧ s.mayUpdate slot ∧ leAt (s.mbxArg slot) 0 4 ≤ 0xF00000 ∧ [0,
      1].find? (fun k => s.bootHdr.slot k != 1 && s.bootHdr.slot k != 2) = some k ∧ s.bootHdr.seq + 1 < 2 ^ 32) ∧
  (∃ (s : Machine.State) (slot : Nat) (d : Delivery) (a l : List Byte), a = s.mbxArg slot ∧ l = s.blockBytes a ∧ s.serving slot 0xD02 ∧
      s.mayUpdate slot ∧ s.sec.img = some d ∧ s.sec.staged = none ∧ blockRanges a d.length = true ∧ crc32c 0xFFFFFFFF l = leAt a 8 4) ∧
  (∃ (s : Machine.State) (slot : Nat) (d : Delivery), s.mayUpdate slot ∧ s.verifyReason d = none ∧ s.serving slot 0xD03 ∧ s.sec.recovery = false ∧
      s.sec.img = some d ∧ s.sec.staged = none) ∧
  (∃ (s : Machine.State) (slot : Nat) (d : Delivery) (r : Nat), s.serving slot 0xD03 ∧ s.mayUpdate slot ∧ s.sec.img = some d ∧ s.sec.staged = none ∧
      s.verifyReason d = some r) ∧
  (∃ (s : Machine.State) (slot : Nat) (d : Delivery), s.serving slot 0xD04 ∧ s.mayUpdate slot ∧ s.sec.img = some d ∧ d.verified = true ∧ d.slot < 2 ∧
      s.sec.staged = none ∧ s.bootHdr.seq + 1 < 2 ^ 32) ∧
  (∃ (s : Machine.State) (slot k : Nat), s.serving slot 0xD05 ∧ s.mayUpdate slot ∧ s.sec.staged = some k ∧ s.sec.signetNew = false) ∧
  (∃ (s : Machine.State) (slot : Nat) (corr : Nat × Nat), slot < 5 ∧ s.pageOn .tru = true ∧ s.restarting = true ∧ s.procs.tp = 2 ∧
      s.signetSound = true ∧ s.sec.onRestart = some (slot, false) ∧ s.procs.rung = []) ∧
  (∃ (s : Machine.State) (slot k : Nat), s.serving slot 0xD06 ∧ s.mayUpdate slot ∧ s.sec.staged = some k ∧ k < 2 ∧ s.sec.signetNew = true ∧
      s.bootHdr.seq + 1 < 2 ^ 32) ∧
  (∃ (s : Machine.State) (slot k : Nat), s.serving slot 0xD07 ∧ s.mayUpdate slot ∧ s.sec.staged = some k ∧ s.sec.signetNew = false ∧
      s.bootHdr.seq + 1 < 2 ^ 32) ∧
  (∃ (s : Machine.State) (slot k a : Nat), s.serving slot 0xD07 ∧ s.mayUpdate slot ∧ s.sec.staged = some k ∧ s.sec.signetNew = true ∧
      s.slotIn 1 = some a) ∧
  (∃ (s : Machine.State) (slot : Nat) (d : Delivery), s.serving slot 0xD07 ∧ s.mayUpdate slot ∧ s.sec.staged = none ∧ s.sec.img = some d ∧
      s.bootHdr.seq + 1 < 2 ^ 32) ∧
  (∃ (s : Machine.State) (slot k : Nat) (corr : Nat × Nat), slot < 5 ∧ s.pageOn .tru = true ∧ s.restarting = true ∧ s.procs.tp = 2 ∧
      s.signetSound = true ∧ s.sec.onRestart = some (slot, true) ∧ s.sec.staged = some k ∧ s.procs.rung = [] ∧ s.bootHdr.seq + 1 < 2 ^ 32) ∧
  (∃ (s : Machine.State) (slot k : Nat), s.serving slot 0xD07 ∧ s.mayUpdate slot ∧ s.sec.staged = none ∧ s.sec.img = none ∧ s.slotIn 2 = some k ∧
      s.sec.runSlot ≠ k ∧ s.bootHdr.seq + 1 < 2 ^ 32) ∧
  (∃ (s : Machine.State) (slot k : Nat), s.serving slot 0xD06 ∧ s.mayUpdate slot ∧ s.sec.staged = none ∧ s.fld .lck Lck.BOOT_STATUS_SLOT = k ∧
      k < 2 ∧ s.bootHdr.slot k = 2 ∧ s.bootHdr.seq + 1 < 2 ^ 32) :=
  ⟨⟨(ask 0 0xD01 (leBytes 4 0xF00000)), 0, 0, by unfold State.serving State.mayUpdate; decide +kernel⟩,
  ⟨(((ask 1 0xD02 (leBytes 4 0 ++ leBytes 4 5 ++ leBytes 4 (crc32c 0xFFFFFFFF [1, 2, 3, 4, 5]) ++ [1, 0, 0,
      0] ++ leBytes 4 0x2000)).mapMsram (fun m => m.putBytes 0x2000 [1, 2, 3, 4,
      5])).mapSec (fun x => { x with img := some (({ slot := 1, length := 5 } : Delivery)) })), 1, (({ slot := 1, length := 5 } : Delivery)), _, _,
      rfl, rfl, by unfold State.serving State.mayUpdate; decide +kernel⟩,
  ⟨(imageA ((ask 1 0xD03 []).mapSec (fun x => { x with img := some (({ slot := 0, length := 0 } : Delivery)) }))), 1,
      (({ slot := 0, length := 0 } : Delivery)), ⟨by decide +kernel, by rw [imageA_lc]; decide +kernel⟩,
      imageA_verifyReason _ _ rfl (by decide +kernel) (by decide +kernel) (by decide +kernel) (by rw [imageA_slotIn]; decide +kernel),
      by unfold State.serving; decide +kernel⟩,
  ⟨((ask 1 0xD03 []).mapSec (fun x => { x with img := some (({ slot := 0, length := 0 } : Delivery)) })), 1,
      (({ slot := 0, length := 0 } : Delivery)), 5, by unfold State.serving State.mayUpdate; decide +kernel⟩,
  ⟨hdr 3 1 0 0 ((ask 1 0xD04 []).mapSec (fun x => { x with img := some (({ slot := 1, length := 0, verified := true } : Delivery)) })), 1,
      (({ slot := 1, length := 0, verified := true } : Delivery)), by unfold State.serving State.mayUpdate; decide +kernel⟩,
  ⟨((ask 1 0xD05 []).mapSec (fun x => { x with staged := some 1 })), 1, 1, by unfold State.serving State.mayUpdate; decide +kernel⟩,
  ⟨(withImage ((S [(.tru, Tru.TP_STATUS_RESTARTING, 1)]).setTp 2)).mapSec (fun x => { x with onRestart := some (4, false) }), 4, (0, 0),
      by decide +kernel⟩,
  ⟨hdr 3 1 2 1 ((ask 1 0xD06 []).mapSec (fun x => { x with staged := some 1, signetNew := true })), 1, 1,
      by unfold State.serving State.mayUpdate; decide +kernel⟩,
  ⟨(ask 1 0xD07 []).mapSec (fun x => { x with staged := some 1 }), 1, 1, by unfold State.serving State.mayUpdate; decide +kernel⟩,
  ⟨hdr 3 1 2 1 ((ask 1 0xD07 []).mapSec (fun x => { x with staged := some 1, signetNew := true })), 1, 1, 0,
      by unfold State.serving State.mayUpdate; decide +kernel⟩,
  ⟨hdr 3 1 0 0 ((ask 1 0xD07 []).mapSec (fun x => { x with img := some (({ slot := 1, length := 0, verified := true } : Delivery)) })), 1,
      (({ slot := 1, length := 0, verified := true } : Delivery)), by unfold State.serving State.mayUpdate; decide +kernel⟩,
  ⟨hdr 3 1 2 1 ((withImage ((S [(.tru, Tru.TP_STATUS_RESTARTING,
      1)]).setTp 2)).mapSec (fun x => { x with onRestart := some (4, true), staged := some 1 })), 4, 1, (0, 0), by decide +kernel⟩,
  ⟨hdr 3 1 2 1 (ask 1 0xD07 []), 1, 1, by unfold State.serving State.mayUpdate; decide +kernel⟩,
  ⟨hdr 3 3 2 1 (S [(.lck, Lck.BOOT_STATUS_SLOT, 1)] (ask 1 0xD06 [])), 1, 1, by unfold State.serving State.mayUpdate; decide +kernel⟩⟩

theorem witness_RecordCommands :
  (∃ (s : Machine.State) (slot : Nat), s.serving slot 0xD10 ∧ s.mayUpdate slot ∧ leAt (s.mbxArg slot) 0 4 ≤ 0x800000) ∧
  (∃ (s : Machine.State) (slot : Nat) (d : Delivery) (a l : List Byte), a = s.mbxArg slot ∧ l = s.blockBytes a ∧ s.serving slot 0xD11 ∧
      s.mayUpdate slot ∧ s.sec.recDel = some d ∧ blockRanges a d.length = true ∧ crc32c 0xFFFFFFFF l = leAt a 8 4) ∧
  (∃ (s : Machine.State) (slot : Nat) (d : Delivery), s.recReason d.slot = none ∧ 128 + s.recNum d.slot 16 4 ≤ d.length ∧ (∀ i,
      i < 4 → i ≠ d.slot → s.recReason i = none → s.recNum i 8 4 < s.recNum d.slot 8 4) ∧ s.serving slot 0xD12 ∧ s.mayUpdate slot ∧
      s.sec.recDel = some d ∧ d.complete = true) ∧
  (∃ (s : Machine.State) (slot : Nat) (a : List Byte) (j : Nat), a = s.mbxArg slot ∧ s.serving slot 0xD13 ∧ s.mayUpdate slot ∧
      s.sec.recSlot = some j ∧ 4096 + leAt a 0 4 + leAt a 4 4 ≤ s.recNum j 16 4 ∧ byteAt a 8 = 2 ∧ leAt a 12 4 + leAt a 4 4 ≤ 0x1FFF00) ∧
  (∃ (s : Machine.State) (slot : Nat) (a : List Byte) (j : Nat), a = s.mbxArg slot ∧ s.serving slot 0xD14 ∧ s.mayUpdate slot ∧
      s.sec.recSlot = some j ∧ 4096 + leAt a 8 4 ≤ 0x800000 - 128 ∧ spaceFits (byteAt a 0) (leAt a 4 4) (leAt a 8 4) = true) ∧
  (∃ (s : Machine.State) (slot : Nat) (a : List Byte) (c : Nat), a = s.mbxArg slot ∧ c = (if s.ageRank 0 ≤ s.ageRank 1 then 0 else 1) ∧
      s.serving slot 0xE20 ∧ s.mayUpdate slot ∧ leAt a 4 4 % 16 = 0 ∧ leAt a 4 4 ≤ 65536 ∧ leAt a 0 4 + leAt a 4 4 ≤ msramSize) ∧
  (∃ (s : Machine.State) (slot : Nat) (a : List Byte) (c : Nat), a = s.mbxArg slot ∧ c = (if s.ageRank 0 ≤ s.ageRank 1 then 1 else 0) ∧
      s.serving slot 0xE21 ∧ s.mayUpdate slot ∧ s.ageRank c ≠ 0 ∧ leAt a 0 4 + 32 + 16 * s.ageNum c 12 ≤ 0xBFF000) :=
  ⟨⟨(ask 1 0xD10 (leBytes 4 0x800000)), 1, by unfold State.serving State.mayUpdate; decide +kernel⟩,
  ⟨(((ask 1 0xD11 (leBytes 4 0 ++ leBytes 4 5 ++ leBytes 4 (crc32c 0xFFFFFFFF [1, 2, 3, 4, 5]) ++ [1, 0, 0,
      0] ++ leBytes 4 0x2000)).mapMsram (fun m => m.putBytes 0x2000 [1, 2, 3, 4,
      5])).mapSec (fun x => { x with recDel := some (({ slot := 3, length := 5 } : Delivery)) })), 1, (({ slot := 3, length := 5 } : Delivery)), _,
      _, rfl, rfl, by unfold State.serving State.mayUpdate; decide +kernel⟩,
  ⟨record3 ((ask 1 0xD12 []).mapSec (fun x => { x with recDel := some { slot := 3, length := 4224, blocks := [(0, 4096), (4096, 128)] } })), 1,
      { slot := 3, length := 4224, blocks := [(0, 4096), (4096, 128)] }, (record3_reason _).1, by dsimp only; rw [(record3_reason _).2.2] <;> decide,
      fun i hi hne _ => by show State.recNum (record3 _) i 8 4 < State.recNum (record3 _) 3 8 4; rw [(record3_reason _).2.1, record3_num _ i 8 4 hne hi (by omega)]; decide +kernel,
      by unfold State.serving State.mayUpdate; decide +kernel⟩,
  ⟨((ask 1 0xD13 (leBytes 4 2 ++ leBytes 4 3 ++ [2, 0, 0, 0] ++ leBytes 4 0x1FFEFD)).mapSec (fun x => { x with recSlot := some 3 }) |> fun (s :
      State) => { s with mem := { s.mem with flash := (s.mem.flash.putBytes (recBase 3 + 16) (leBytes 4 4101)).putBytes (recBase 3 + 128 + 4096 + 2) [7, 8, 9] } }),
      1, _, 3, rfl, by unfold State.serving State.mayUpdate; decide +kernel⟩,
  ⟨((ask 1 0xD14 ([1, 0, 0, 0] ++ leBytes 4 0x100 ++ leBytes 4 4 ++ leBytes 4 0)).mapSec (fun x => { x with recSlot := some 3 }) |> fun (s :
      State) => { s with mem := { s.mem with flash := (s.mem.flash.putBytes (recBase 3 + 16) (leBytes 4 4101)).putBytes (recBase 3 + 128 + 4096 + 2) [7, 8, 9] } }),
      1, _, 3, rfl, by unfold State.serving State.mayUpdate; decide +kernel⟩,
  ⟨((ask 1 0xE20 (leBytes 4 0x40 ++ leBytes 4 32)).mapMsram (fun m => m.putBytes 0x40 [1, 2, 3])), 1, _, _, rfl, rfl,
      by unfold State.serving State.mayUpdate; decide +kernel⟩,
  ⟨((ask 1 0xE21 (leBytes 4 0x40)) |> fun (s :
      State) => { s with mem := { s.mem with flash := ((s.mem.flash.putBytes (ageBase 1) (leBytes 4 0x4B564147 ++ leBytes 4 5 ++ leBytes 4 0 ++ leBytes 4 1 ++ leBytes 4 (crc32c 0xFFFFFFFF ([7, 8, 9] ++ List.replicate 13 0)))).putBytes (ageBase 1 + 32) [7, 8, 9]) } }),
      1, _, _, rfl, rfl, by unfold State.serving State.mayUpdate; decide +kernel⟩⟩

theorem witness_CanTraffic :
  (∃ (s : Machine.State) (n : Nat) (f : CanFrame) (dlc ago : Nat), n < 64 ∧ s.pageOn (.can n) = true ∧ s.canOnBus n = true ∧
      s.canHears n ago = true ∧ (s.st (.can n) = 1 ∨ s.st (.can n) = 2) ∧ s.rec' n ≤ 127) ∧
  (∃ (s : Machine.State) (n : Nat) (f : CanFrame) (dlc ago : Nat), n < 64 ∧ s.pageOn (.can n) = true ∧ s.canOnBus n = true ∧
      s.canHears n ago = true ∧ (s.st (.can n) = 1 ∨ s.st (.can n) = 2) ∧ s.rec' n ≤ 127 ∧ s.flag (.can n) Can.GW_CFG_RX_EN = true ∧
      (s.cans.get n).rxq = [] ∧ s.verifier n f = none ∧ s.inRun .buf = true ∧ f.xl = false ∧ f.data.length ≤ 64 ∧
      200 ≤ s.fld (.etp 34) Etp.MAX_LEN_LEN) ∧
  (∃ (s : Machine.State) (n : Nat) (f : CanFrame) (dlc ago : Nat), n < 64 ∧ s.pageOn (.can n) = true ∧ s.canHears n ago = true ∧ s.cst n = 6 ∧
      f.fdf = false ∧ f.xl = false ∧ s.pnMatch n f dlc = true) ∧
  (∃ (s : Machine.State) (n : Nat) (f : CanFrame) (dlc ago : Nat), n < 64 ∧ s.pageOn (.can n) = true ∧ s.canHears n ago = true ∧ s.cst n = 6 ∧
      f.fdf = false ∧ f.xl = false ∧ s.pnMatch n f dlc = false) ∧
  (∃ (s : Machine.State) (n : Nat) (x : CanTx), n < 64 ∧ s.pageOn (.can n) = true ∧ s.canOnBus n = true ∧ (s.st (.can n) = 1 ∨ s.st (.can n) = 2) ∧
      s.flag (.can n) Can.MODE_LISTEN_ONLY = false ∧ s.fld (.can n) Can.TX_TTL_MS = 0 ∧ (s.cans.get n).inTx = none ∧
      canWinner (s.cans.get n).txq = some x) ∧
  (∃ (s : Machine.State) (n : Nat), n < 64 ∧ s.pageOn (.can n) = true ∧ s.canOnBus n = true ∧ (s.st (.can n) = 1 ∨ s.st (.can n) = 2) ∧
      s.flag (.can n) Can.MODE_LISTEN_ONLY = false ∧ s.fld (.can n) Can.TX_TTL_MS ≠ 0 ∧ (s.cans.get n).inTx = none ∧ (s.cans.get n).txq ≠ [] ∧
      (∀ x ∈ (s.cans.get n).txq, s.fld (.can n) Can.TX_TTL_MS * 10 ^ 6 < s.now - x.at')) ∧
  (∃ (s : Machine.State) (n : Nat) (x : CanTx), n < 64 ∧ s.pageOn (.can n) = true ∧ (s.cans.get n).inTx = some x) ∧
  (∃ (s : Machine.State) (n lec : Nat) (big : Bool) (ago : Nat), n < 64 ∧ s.pageOn (.can n) = true ∧ lec < 8 ∧
      (s.canHears n ago = true ∨ s.st (.can n) = 2) ∧ s.canOnBus n = true ∧ s.tec n ≤ 255 ∧ (big = true ∨ (lec ≠ 1 ∧ (lec = 3 → s.cst n ≠ 3)))) ∧
  (∃ (s : Machine.State) (n lec ago : Nat), n < 64 ∧ s.pageOn (.can n) = true ∧ (s.canHears n ago = true ∨ s.st (.can n) = 2) ∧ s.canOnBus n = true ∧
      (lec = 1 ∨ lec = 3 ∧ s.cst n = 3)) ∧
  (∃ (s : Machine.State) (n lec : Nat) (big : Bool) (ago : Nat), n < 64 ∧ s.pageOn (.can n) = true ∧ lec < 8 ∧ s.canHears n ago = true ∧
      s.canOnBus n = true ∧ s.rec' n ≤ 247) :=
  ⟨⟨(can63 3 [(.can 63, Can.ERRCNT_REC, 127)]), 63, (({ id := 5 } : CanFrame)), 0, 0, by decide +kernel⟩,
  ⟨(up 34 (can63 2 [(.can 63, Can.GW_CFG_RX_EN, 1)])), 63, (({ id := 5, data := [1, 2, 3] } : CanFrame)), 3, 0, by decide +kernel⟩,
  ⟨(can63 6 [(.can 63, Can.PN_ID_ID, 5), (.can 63, Can.PN_IDMASK_MASK, 0x7FF), (.can 63, Can.ERRCNT_TEC, 128)]), 63,
      (({ id := 5, data := [1, 2, 3] } : CanFrame)), 3, 0, by decide +kernel⟩,
  ⟨(can63 6 [(.can 63, Can.PN_ID_ID, 5), (.can 63, Can.PN_IDMASK_MASK, 0x7FF), (.can 63, Can.ERRCNT_FEC, 4)]), 63,
      (({ id := 4, data := [1, 2, 3] } : CanFrame)), 3, 0, by decide +kernel⟩,
  ⟨((can63 2).mapCan 63 (fun c => { c with txq := [⟨{ id := 7 }, 1⟩, ((⟨{ id := 5 }, 3⟩ : CanTx))] })), 63, ((⟨{ id := 5 }, 3⟩ : CanTx)),
      by decide +kernel⟩,
  ⟨{ (can63 2 [(.can 63, Can.TX_TTL_MS, 1)]).mapCan 63 (fun c => { c with txq := [⟨{ id := 7 }, 1⟩] }) with now := 10 ^ 9 }, 63, by decide +kernel⟩,
  ⟨((can63 2 [(.can 63, Can.ERRCNT_TEC, 8)]).mapCan 63 (fun c => { c with inTx := some ((⟨{ id := 5 }, 3⟩ : CanTx)) })), 63, ((⟨{ id := 5 },
      3⟩ : CanTx)), by decide +kernel⟩,
  ⟨(can63 3 [(.can 63, Can.ERRCNT_TEC, 248)]), 63, 7, false, 0, by decide +kernel⟩,
  ⟨can63 3 [(.can 63, Can.ERRCNT_TEC, 248)], 63, 3, 0, by decide +kernel⟩,
  ⟨(can63 3 [(.can 63, Can.ERRCNT_REC, 247)]), 63, 7, true, 0, by decide +kernel⟩⟩

theorem witness_CanStates :
  (∃ (s : Machine.State) (n : Nat), n < 64 ∧ s.pageOn (.can n) = true ∧ s.cst n = 4 ∧ (s.cans.get n).boHold = true) ∧
  (∃ (s : Machine.State) (src : Src) (n : Nat), n < 64 ∧ s.ownerWrites src (.can n) ∧ s.cst n = 4) ∧
  (∃ (s : Machine.State) (n : Nat), n < 64 ∧ s.pageOn (.can n) = true ∧ s.cst n = 1) ∧
  (∃ (s : Machine.State) (n : Nat), n < 64 ∧ s.pageOn (.can n) = true ∧ s.cst n = 5) ∧
  (∃ (s : Machine.State) (src : Src) (n : Nat), n < 64 ∧ s.ownerWrites src (.can n) ∧ s.cst n ≠ 0 ∧ s.cst n ≠ 6) ∧
  (∃ (s : Machine.State) (src : Src) (n : Nat), n < 64 ∧ s.ownerWrites src (.can n) ∧ s.cst n = 6) ∧
  (∃ (s : Machine.State) (src : Src) (n : Nat), n < 64 ∧ s.ownerWrites src (.can n) ∧ s.cst n ≠ 6) ∧
  (∃ (s : Machine.State) (n : Nat), n < 64 ∧ s.pageOn (.can n) = true ∧ s.canOnBus n = true ∧ (s.cans.get n).sleepPend = true) ∧
  (∃ (s : Machine.State) (n : Nat) (r : CanRx) (k c cup i : Nat), cup = s.fld (.can n) (Can.AUTH_CFG_CUP k) ∧
      i = s.fld (.cip cup) Cip.KEY_BIND_SLOT ∧ n < 64 ∧ s.pageOn (.can n) = true ∧ (s.cans.get n).rxq = [r] ∧ r.job = some (k, c) ∧ c < 2 ^ 64 ∧
      k < 8 ∧ s.inRun (.cip cup) = true ∧ s.flag (.cip cup) Cip.KEY_BIND_BOUND = true ∧ (s.slot i).bind = 2 ∧ (s.slot i).page = cup ∧
      (s.slot i).cmac < 2 ^ 48 ∧ (aesCmac (s.slot i).key (s.authInput n r.frame (r.frame.data.take (s.authData n k)) c)).take (s.authMac n k) =
      r.frame.data.drop (s.authData n k + s.authFv n k)) ∧
  (∃ (s : Machine.State) (n : Nat) (j : CanSign) (rest : List CanSign) (cup i v : Nat) (l : List Byte),
      cup = s.fld (.can n) (Can.AUTH_CFG_CUP j.entry) ∧ i = s.fld (.cip cup) Cip.KEY_BIND_SLOT ∧ v = s.authFv n j.entry ∧
      l = j.frame.data ++ beBytes v (j.fresh % 2 ^ (8 * v)) ++ (aesCmac (s.slot i).key (s.authInput n j.frame j.frame.data j.fresh)).take (s.authMac
      n j.entry) ∧ n < 64 ∧ s.pageOn (.can n) = true ∧ (s.cans.get n).signq = j :: rest ∧ s.inRun (.cip cup) = true ∧
      s.flag (.cip cup) Cip.KEY_BIND_BOUND = true ∧ (s.slot i).bind = 2 ∧ (s.slot i).page = cup ∧ (s.slot i).cmac < 2 ^ 48 ∧
      (s.cans.get n).held.length < 32 ∧ (s.cans.get n).bytes + l.length ≤ 4096) ∧
  (∃ (s : Machine.State) (n : Nat) (r : CanRx) (j : Nat × Nat), n < 64 ∧ s.pageOn (.can n) = true ∧ (s.cans.get n).rxq = [r] ∧ r.job = some j) ∧
  (∃ (s : Machine.State) (n : Nat) (j : CanSign) (rest : List CanSign), n < 64 ∧ s.pageOn (.can n) = true ∧ (s.cans.get n).signq = j :: rest) :=
  ⟨⟨((can63 4 [(.can 63, Can.MODE_BO_AUTO, 1)]).mapCan 63 (fun c => { c with boHold := true })), 63, by decide +kernel⟩,
  ⟨(can63 4), Src.tp, 63, by unfold State.ownerWrites; decide +kernel⟩,
  ⟨(can63 1), 63, by decide +kernel⟩,
  ⟨(can63 5 [(.can 63, Can.ERRCNT_TEC, 255), (.can 63, Can.ERRCNT_REC, 128)]), 63, by decide +kernel⟩,
  ⟨(can63 4), Src.tp, 63, by unfold State.ownerWrites; decide +kernel⟩,
  ⟨(can63 6), Src.tp, 63, by unfold State.ownerWrites; decide +kernel⟩,
  ⟨can63 2, .tp, 63, by unfold State.ownerWrites; decide +kernel⟩,
  ⟨((can63 3).mapCan 63 (fun c => { c with sleepPend := true, txq := [⟨{ id := 7 }, 1⟩], inTx := some ⟨{ id := 8 }, 1⟩ })), 63, by decide +kernel⟩,
  ⟨({ (can63 2 [(.can 63, Can.AUTH_CFG_CUP 7, 63), (.can 63, Can.AUTH_CFG_MAC_LEN 7, 0), (.can 63, Can.AUTH_CFG_DATA_LEN 7, 0), (.can 63, Can.AUTH_CFG_FV_BYTES 7, 0), (.cip 63, Hdr.STATE_ST, 1), (.cip 63, Cip.KEY_BIND_BOUND, 1), (.cip 63, Cip.KEY_BIND_SLOT, 1023)]).mapCan 63 (fun ch => { ch with rxq := [{ frame := { id := 5 }, ts := 1, job := some (7, 2 ^ 64 - 1) }] }) with slots := State.reset.slots.set 1023 { bind := 2, page := 63, loaded := true, key := List.replicate 16 1 } }),
      63, (({ frame := { id := 5 }, ts := 1, job := some (7, 2 ^ 64 - 1) } : CanRx)), 7, (2 ^ 64 - 1), _, _, rfl, rfl, by decide +kernel⟩,
  ⟨{ (can63 2 [(.can 63, Can.AUTH_CFG_CUP 7, 63), (.can 63, Can.AUTH_CFG_MAC_LEN 7, 4), (.can 63, Can.AUTH_CFG_FV_BYTES 7, 2), (.cip 63, Hdr.STATE_ST, 1), (.cip 63, Cip.KEY_BIND_BOUND, 1), (.cip 63, Cip.KEY_BIND_SLOT, 1023)]).mapCan 63 (fun ch => { ch with signq := [{ frame := { id := 5 }, entry := 7, fresh := 9 }] }) with slots := State.reset.slots.set 1023 { bind := 2, page := 63, loaded := true, key := List.replicate 16 1 } },
      63, { frame := { id := 5 }, entry := 7, fresh := 9 }, [], _, _, _, _, rfl, rfl, rfl, rfl, by decide +kernel⟩,
  ⟨((can63 2).mapCan 63 (fun ch => { ch with rxq := [{ frame := { id := 5 }, ts := 1, job := some (7, 5) }] })), 63,
      (({ frame := { id := 5 }, ts := 1, job := some (7, 5) } : CanRx)), ((7, 5)), by decide +kernel⟩,
  ⟨((can63 2).mapCan 63 (fun ch => { ch with signq := [⟨{ id := 5 }, 7, 5⟩, ⟨{ id := 6 }, 7, 6⟩] })), 63, ((⟨{ id := 5 }, 7, 5⟩ : CanSign)),
      (([⟨{ id := 6 }, 7, 6⟩] : List CanSign)), by decide +kernel⟩⟩

theorem witness_LinCommands :
  (∃ (s : Machine.State) (n k len i : Nat), len = min 64 (s.fld (.lin n) Lin.SCHED_CFG_SCHED_LEN) ∧ k = (s.lins.get n).next % len ∧
      i = s.fld (.lin n) (Lin.SCHED_ID k) ∧ n < 16 ∧ s.pageOn (.lin n) = true ∧ s.linOn n = true ∧ s.linCommander n = true ∧
      (s.lins.get n).restart = false ∧ (s.lins.get n).sleepReq = false ∧ len ≠ 0 ∧ (s.fld (.lin n) (Lin.ID_DIR i) ≠ 1 ∨ s.linLoaded n i = true)) ∧
  (∃ (s : Machine.State) (n : Nat), n < 16 ∧ s.pageOn (.lin n) = true ∧ s.linOn n = true ∧ s.linCommander n = true ∧ (s.lins.get n).restart = false ∧
      (s.lins.get n).sleepReq = true) ∧
  (∃ (s : Machine.State) (n i rate : Nat), n < 16 ∧ s.pageOn (.lin n) = true ∧ s.linOn n = true ∧ s.linCommander n = false ∧
      85 * s.fld (.lin n) Lin.MODE_BAUD ≤ 100 * rate ∧ 100 * rate ≤ 115 * s.fld (.lin n) Lin.MODE_BAUD ∧ s.fld (.lin n) (Lin.ID_DIR i) = 1 ∧
      s.linLoaded n i = true) ∧
  (∃ (s : Machine.State) (n i rate : Nat), n < 16 ∧ s.pageOn (.lin n) = true ∧ s.linOn n = true ∧ s.linCommander n = false) ∧
  (∃ (s : Machine.State) (n i : Nat) (data : List Byte) (check : Byte) (ago : Nat), n < 16 ∧ s.pageOn (.lin n) = true ∧ (s.lins.get n).hdr = some (i,
      true)) ∧
  (∃ (s : Machine.State) (n i : Nat) (data : List Byte) (ago : Nat), n < 16 ∧ s.pageOn (.lin n) = true ∧ (s.lins.get n).hdr = some (i, false) ∧
      s.fld (.lin n) (Lin.ID_DIR i) = 2 ∧ data.length = s.fld (.lin n) (Lin.ID_LEN i) ∧ s.flag (.lin n) Lin.GW_CFG_RX_EN = true ∧
      s.inRun .buf = true ∧ 200 ≤ s.fld (.etp 34) Etp.MAX_LEN_LEN) ∧
  (∃ (s : Machine.State) (n i : Nat) (data : List Byte) (check : Byte) (ago : Nat), n < 16 ∧ s.pageOn (.lin n) = true ∧ (s.lins.get n).hdr = some (i,
      false) ∧ check ≠ s.linChecksum n i data) ∧
  (∃ (s : Machine.State) (n i : Nat), n < 16 ∧ s.pageOn (.lin n) = true ∧ (s.lins.get n).hdr = some (i, false)) ∧
  (∃ (s : Machine.State) (src : Src) (n : Nat), n < 16 ∧ s.ownerWrites src (.lin n) ∧ s.linLst n = 1 ∧ s.linCommander n = true) ∧
  (∃ (s : Machine.State) (src : Src) (n : Nat), n < 16 ∧ s.ownerWrites src (.lin n) ∧ s.linLst n = 2) ∧
  (∃ (s : Machine.State) (n : Nat), n < 16 ∧ s.pageOn (.lin n) = true ∧ s.linOn n = true ∧ s.linCommander n = false) ∧
  (∃ (s : Machine.State) (n : Nat), n < 16 ∧ s.pageOn (.lin n) = true ∧ s.linOn n = true ∧ s.linCommander n = false) ∧
  (∃ (s : Machine.State) (n : Nat), n < 16 ∧ s.pageOn (.lin n) = true ∧ s.linLst n = 2) ∧
  (∃ (s : Machine.State) (n : Nat), n < 16 ∧ s.pageOn (.lin n) = true ∧ (s.lins.get n).restart = true) ∧
  (∃ (s : Machine.State) (l : List Byte) (rest : List (List Byte)), s.pageOn (.can 0) = true ∧ s.dp.busIn = l :: rest) ∧
  (∃ (s : Machine.State) (l : List Byte) (rest : List (List Byte)) (x : List Byte) (m n : Nat) (f : CanFrame), x = dropFcs l ∧
      s.pageOn (.can 0) = true ∧ s.dp.busIn = l :: rest ∧ s.busMessages x = some [m] ∧ beAt x m 2 / 512 = 1 ∧
      s.egChannels ((List.range 64).map Page.can) (byteAt x (m + 3) % 32) (beAt x 6 6) = [.can n] ∧ canOf false false (acfLen (s.fld (.can 0)
      Can.GW_XL_TYPE_TYPE) x m) x m = (f, true) ∧ s.inRun (.can n) = true ∧ s.cst n ≠ 6 ∧ s.flag (.can n) Can.MODE_LISTEN_ONLY = false ∧
      (f.fdf = true → s.fld (.can n) Can.MODE_PROTO ≠ 0) ∧ canLenOk f.fdf f.data.length = true ∧ s.signer n f = none ∧
      (s.cans.get n).held.length < 32 ∧ (s.cans.get n).bytes + f.data.length ≤ 4096) ∧
  (∃ (s : Machine.State) (n i : Nat) (mine : Bool) (data : List Byte) (check : Byte) (ago : Nat), n < 16 ∧ s.pageOn (.lin n) = true ∧
      (s.lins.get n).hdr = some (i, mine)) ∧
  (∃ (s : Machine.State) (n i : Nat) (data : List Byte) (check : Byte) (ago : Nat), n < 16 ∧ s.pageOn (.lin n) = true ∧ (s.lins.get n).hdr = some (i,
      true)) :=
  ⟨⟨(lin15 [(.lin 15, Lin.SCHED_CFG_SCHED_LEN, 127), (.lin 15, Lin.SCHED_ID 63,
      9)] |> fun (s : State) => s.mapLin 15 (fun c => { c with next := 63 })), 15, _, _, _, rfl, rfl, rfl, by decide +kernel⟩,
  ⟨((lin15).mapLin 15 (fun c => { c with sleepReq := true })), 15, by decide +kernel⟩,
  ⟨(lin15 [(.lin 15, Lin.MODE_ROLE, 1), (.lin 15, Lin.MODE_BAUD, 100), (.lin 15, Lin.ID_DIR 63, 1), (.lin 15, Lin.ID_LEN 63, 8), (.lin 15,
      Lin.LOADED_MAP 1, 2 ^ 31)]), 15, 63, 115, by decide +kernel⟩,
  ⟨(lin15 [(.lin 15, Lin.MODE_ROLE, 1)]), 15, 63, 115, by decide +kernel⟩,
  ⟨((lin15).mapLin 15 (fun c => { c with hdr := some (63, true) })), 15, 63, (([1, 2] : List Byte)), 0, 0, by decide +kernel⟩,
  ⟨up 34 ((lin15 [(.lin 15, Lin.ID_DIR 5, 2), (.lin 15, Lin.ID_LEN 5, 2), (.lin 15, Lin.GW_CFG_RX_EN,
      1)]).mapLin 15 (fun c => { c with hdr := some (5, false) })), 15, 5, [1, 2], 0, by decide +kernel⟩,
  ⟨((lin15).mapLin 15 (fun c => { c with hdr := some (63, false) })), 15, 63, (([1, 2] : List Byte)), 0, 0, by decide +kernel⟩,
  ⟨((lin15).mapLin 15 (fun c => { c with hdr := some (63, false) })), 15, 63, by decide +kernel⟩,
  ⟨lin15, Src.tp, 15, by unfold State.ownerWrites; decide +kernel⟩,
  ⟨(lin15 [(.lin 15, Lin.STATUS_LST, 2)]), Src.tp, 15, by unfold State.ownerWrites; decide +kernel⟩,
  ⟨(lin15 [(.lin 15, Lin.MODE_ROLE, 1)]), 15, by decide +kernel⟩,
  ⟨(lin15 [(.lin 15, Lin.MODE_ROLE, 1)]), 15, by decide +kernel⟩,
  ⟨(lin15 [(.lin 15, Lin.STATUS_LST, 2)]), 15, by decide +kernel⟩,
  ⟨((lin15).mapLin 15 (fun c => { c with restart := true, next := 5 })), 15, by decide +kernel⟩,
  ⟨((S []).mapDp (fun d => { d with busIn := [good64, [1]] })), good64, (([[1]] : List (List Byte))), by decide +kernel⟩,
  ⟨(can63 2 [(.can 63, Can.EG_IDS_IDS, 1)]).mapDp (fun d => { d with busIn := [acfFrame] }), acfFrame, [], _, 26, 63,
      { id := 5, data := [1, 2, 3, 4, 5, 6, 7, 8] }, rfl, by decide +kernel⟩,
  ⟨((lin15).mapLin 15 (fun c => { c with hdr := some (63, false) })), 15, 63, false, (([1, 2] : List Byte)), 0, 0, by decide +kernel⟩,
  ⟨((lin15).mapLin 15 (fun c => { c with hdr := some (63, true) })), 15, 63, (([1, 2] : List Byte)), 0, 0, by decide +kernel⟩⟩

theorem witness_TdmCommands :
  (∃ (s : Machine.State) (n pos k : Nat) (frame : List Byte), n < 16 ∧ pos < 256 ∧ s.pageOn (.tdm n) = true ∧ s.inRun (.tdm n) = true ∧
      (s.link n).los = false ∧ s.fst n = 0 ∧ byteAt frame 0 % 128 = 0x1B ∧ (s.link n).excl = none) ∧
  (∃ (s : Machine.State) (n pos k : Nat) (frame : List Byte), n < 16 ∧ s.pageOn (.tdm n) = true ∧ s.inRun (.tdm n) = true ∧ (s.link n).los = false ∧
      s.fst n = 1) ∧
  (∃ (s : Machine.State) (n pos k : Nat) (frame : List Byte), n < 16 ∧ s.pageOn (.tdm n) = true ∧ s.inRun (.tdm n) = true ∧ (s.link n).los = false ∧
      s.fst n = 2) ∧
  (∃ (s : Machine.State) (n pos k : Nat) (frame : List Byte), n < 16 ∧ s.pageOn (.tdm n) = true ∧ s.inRun (.tdm n) = true ∧ (s.link n).los = false ∧
      s.fst n = 4 ∧ (s.link n).fas = true ∧ (s.link n).fasRun = 2 ∧ byteAt frame 0 % 128 ≠ 0x1B) ∧
  (∃ (s : Machine.State) (n : Nat), n < 16 ∧ s.pageOn (.tdm n) = true ∧ s.fst n = 3) ∧
  (∃ (s : Machine.State) (n : Nat) (pin : Bool) (zeros : Nat), n < 16 ∧ s.pageOn (.tdm n) = true ∧ (pin = true ∨ s.fld (.tdm n) Tdm.LINK_CFG_LOS_N ≤
      zeros)) ∧
  (∃ (s : Machine.State) (n ones : Nat), n < 16 ∧ s.pageOn (.tdm n) = true ∧ s.fld (.tdm n) Tdm.LINK_CFG_LOS_N ≤ 8 * ones) ∧
  (∃ (s : Machine.State) (bits b1 b2 : List Nat), s.islandCond 12 = 2 ∧ (∀ p ∈ s.applying, p.ok = true)) ∧
  (∃ (s : Machine.State) (n : Nat), n < 16 ∧ s.st (.tdm n) ≠ 4 ∧ s.pageOn (.tdm n) = true ∧ (s.link n).secs.length < 10) ∧
  (∃ (s : Machine.State) (n b : Nat) (rest : List (Bool × Bool × Nat)), n < 16 ∧ s.st (.tdm n) ≠ 4 ∧ s.pageOn (.tdm n) = true ∧
      (s.link n).secs = (true, false, b) :: rest ∧ rest.length = 9 ∧ s.flag (.tdm n) Tdm.STATUS_UAS = false) ∧
  (∃ (s : Machine.State) (l : List Byte) (rest : List (List Byte)), s.pageOn .tsi = true ∧ s.dp.tdmIn = l :: rest) ∧
  (∃ (s : Machine.State) (l : List Byte) (rest : List (List Byte)) (x : List Byte) (h i : Nat) (w : List Byte) (target : Int), x = dropFcs l ∧
      h = s.etypeAt x + 2 ∧ w = s.aafHeader 1 i 0 ∧ target = s.playTarget i ((byteAt x (h + 1)).testBit 0) (beAt x (h + 12) 4) ∧
      s.pageOn .tsi = true ∧ s.dp.tdmIn = l :: rest ∧ beAt x (s.etypeAt x) 2 = 0x22F0 ∧ byteAt x h = 2 ∧ (List.range 32).find? (fun i => s.strEn 1 i
      && s.strId 1 i == beAt x (h + 4) 8) = some i ∧ 128 ≤ byteAt x (h + 1) ∧ (x.drop (h + 16)).take 1 = (w.drop 16).take 1 ∧
      beAt x (h + 17) 2 / 4096 = 1 ∧ beAt x (h + 17) 2 % 1024 = s.strCh 1 i ∧ byteAt x (h + 19) = byteAt w 19 ∧ beAt x (h + 20) 2 = s.strLen 1 i ∧
      h + 24 + s.strLen 1 i ≤ x.length ∧ (s.frameCount : Int) ≤ target ∧ target ≤ (s.frameCount : Int) + 63) :=
  ⟨⟨(S [(.tdm 15, Hdr.STATE_ST, 1)]), 15, 255, 7, (([0x9B] : List Byte)), by decide +kernel⟩,
  ⟨(S [(.tdm 15, Hdr.STATE_ST, 1), (.tdm 15, Tdm.STATUS_FST, 1)]), 15, 255, 7, (([0x40] : List Byte)), by decide +kernel⟩,
  ⟨(S [(.tdm 15, Hdr.STATE_ST, 1), (.tdm 15, Tdm.STATUS_FST, 2), (.tdm 15, Tdm.LINK_CFG_CRC4_EN, 1)]), 15, 255, 7, (([0x1B] : List Byte)),
      by decide +kernel⟩,
  ⟨(S [(.tdm 15, Hdr.STATE_ST, 1), (.tdm 15, Tdm.STATUS_FST, 4)]).mapTdm 15 (fun x => { x with fas := true, fasRun := 2 }), 15, 255, 7, [0],
      by decide +kernel⟩,
  ⟨(S [(.tdm 15, Hdr.STATE_ST, 1), (.tdm 15, Tdm.STATUS_FST, 3)]), 15, by decide +kernel⟩,
  ⟨(S [(.tdm 15, Hdr.STATE_ST, 1), (.tdm 15, Tdm.STATUS_FST, 4)]), 15, false, 255, by decide +kernel⟩,
  ⟨((S [(.tdm 15, Hdr.STATE_ST, 1), (.tdm 15, Tdm.STATUS_LOS, 1)]).mapTdm 15 (fun x => { x with los := true })), 15, 32, by decide +kernel⟩,
  ⟨(S [(.tsi, Tsi.FRAME_COUNT_COUNT, 0xFFFFFFFF), (.tsi, Hdr.STATE_ST, 1), (.tdm 15, Hdr.STATE_ST, 1)]), (([0xFFFF] : List Nat)), (([] : List Nat)),
      (([] : List Nat)), by decide +kernel⟩,
  ⟨((S [(.tdm 15, Hdr.STATE_ST, 1)]).mapTdm 15 (fun x => { x with blocks := 5, fasErrs := 7 })), 15, by decide +kernel⟩,
  ⟨(S [(.tdm 15, Hdr.STATE_ST, 1)]).mapTdm 15 (fun x => { x with secs := List.replicate 10 (true, false, 1) }), 15, 1, List.replicate 9 (true, false,
      1), by decide +kernel⟩,
  ⟨((S []).mapDp (fun d => { d with tdmIn := [good64, [1]] })), good64, (([[1]] : List (List Byte))), by decide +kernel⟩,
  ⟨tsi0.mapDp (fun d => { d with tdmIn := [aafIn] }), aafIn, [], _, _, 0, _, _, rfl, rfl, rfl, rfl, by decide +kernel⟩⟩

theorem witness_CipherCommands :
  (∃ (s : Machine.State) (src : Src) (n : Nat), n < 64 ∧ s.ownerWrites src (.cip n) ∧ s.inRun (.cip n) = true ∧ (s.cip n).jobs.length < 8 ∧
      (s.cip n).done.length < 8) ∧
  (∃ (s : Machine.State) (src : Src) (n : Nat), n < 64 ∧ s.ownerWrites src (.cip n) ∧ s.inRun (.cip n) = true ∧
      (8 ≤ (s.cip n).jobs.length ∨ 8 ≤ (s.cip n).done.length) ∧ s.fld (.cip n) Hdr.ERR_CODE_CODE = 0) ∧
  (∃ (s : Machine.State) (n : Nat) (img : List (Nat × List Byte)) (corr : Nat × Nat) (j : CipJob) (rest : List CipJob) (i : Nat) (l iv : List Byte)
      (o : List Byte × Bool), l = ((s.hostImage img).spaceMem j.srcSpace).bytes j.src j.srcLen ∧ (iv = (if j.gcm ∧
      j.ivGen then leBytes 4 (s.fld (.cip n) Cip.IV_FIXED_FIXED) ++ beBytes 8 (s.slot i).gcm else j.iv.take 12)) ∧ o = j.output (s.slot i).key iv l ∧
      n < 64 ∧ (s.cip n).jobs = j :: rest ∧ (s.st (.cip n) = 1 ∨ s.st (.cip n) = 2) ∧ s.cipFull n = false ∧ s.cipRangeBad n j = false ∧
      s.cipSlot n = some i ∧ (s.slot i).bind = 2 ∧ (s.slot i).page = n ∧ (s.slot i).gcm < 2 ^ 32 ∧ (s.slot i).cmac < 2 ^ 48 ∧ s.hostUp = true ∧
      spaceEnds j.srcSpace j.src j.srcLen = false ∧ spaceEnds j.dstSpace j.dst j.dstLen = false) ∧
  (∃ (s : Machine.State) (n : Nat) (img : List (Nat × List Byte)) (bad : Option (Nat × Nat)) (z : Bool) (corr : Nat × Nat) (j : CipJob) (rest : List
      CipJob), n < 64 ∧ (s.cip n).jobs = j :: rest ∧ (s.st (.cip n) = 1 ∨ s.st (.cip n) = 2) ∧ s.cipFull n = false ∧ s.cipRangeBad n j = true) ∧
  (∃ (s : Machine.State) (src : Src) (n : Nat), n < 64 ∧ s.ownerWrites src (.cip n)) ∧
  (∃ (s : Machine.State) (src : Src) (i : Nat), i = s.fld .msec Msec.KEY_SEL_SLOT ∧ s.trustedWrites src .msec) ∧
  (∃ (s : Machine.State) (src : Src) (i : Nat), i = s.fld .msec Msec.KEY_SEL_SLOT ∧ s.trustedWrites src .msec) ∧
  (∃ (s : Machine.State), s.islandCond 7 = 2) ∧
  (∃ (s : Machine.State), s.sec.trng.starved = true) ∧
  (∃ (s : Machine.State), s.signet = true ∧ s.sec.bound ≠ [] ∧ s.epoch < 32 ∧ s.sec.keys.length ≤ 2048 ∧ s.sealRank 0 < 2 ^ 32 ∧
      s.sealRank 1 < 2 ^ 32) :=
  ⟨⟨(S [(.cip 63, Hdr.STATE_ST, 1), (.cip 63, Cip.JOB_W0_OP, 7), (.cip 63, Cip.JOB_W0_TAG, 255), (.cip 63, Cip.JOB_LEN_DATA_LEN, 65535)]), Src.tp, 63,
      by unfold State.ownerWrites; decide +kernel⟩,
  ⟨{ S [(.cip 63, Hdr.STATE_ST, 1)] with cips := State.reset.cips.set 63 { done := List.replicate 8 ⟨1, 0, false, []⟩ } }, Src.tp, 63,
      by unfold State.ownerWrites; decide +kernel⟩,
  ⟨{ S [(.cip 63, Hdr.STATE_ST, 1), (.cip 63, Cip.KEY_BIND_BOUND, 1), (.cip 63, Cip.KEY_BIND_SLOT, 1023), (.pcie, Pcie.LINK_STATUS_DL_UP, 1), (.pcie, Pcie.LINK_STATUS_BME, 1), (.cip 63, Cip.WIN_LIMIT_LO_ADDR 1, 0xFFFFFF)] with slots := State.reset.slots.set 1023 { bind := 2, page := 63, loaded := true, key := List.replicate 16 1, gcm := 2 ^ 32 - 1 }, cips := State.reset.cips.set 63 { jobs := [{ op := 0, srcSpace := 1, dstSpace := 1, ivGen := true, irq := true, tagLen := 16, tag := 9, src := 0x1000, dst := 0x2000, len := 20, aad := 4, iv := [] }] } },
      63, [], (0, 0),
      { op := 0, srcSpace := 1, dstSpace := 1, ivGen := true, irq := true, tagLen := 16, tag := 9, src := 0x1000, dst := 0x2000, len := 20, aad := 4, iv := [] },
      [], 1023, _, _, _, rfl, rfl, rfl, by decide +kernel⟩,
  ⟨({ (S [(.cip 63, Hdr.STATE_ST, 1)]) with cips := State.reset.cips.set 63 { jobs := [(({ op := 7, srcSpace := 1, dstSpace := 1, ivGen := true, irq := true, tagLen := 16, tag := 9, src := 0x1000, dst := 0x2000, len := 20, aad := 4, iv := [] } : CipJob))] } }),
      63, (([] : List (Nat × List Byte))), ((none : Option (Nat × Nat))), false, (0, 0),
      (({ op := 7, srcSpace := 1, dstSpace := 1, ivGen := true, irq := true, tagLen := 16, tag := 9, src := 0x1000, dst := 0x2000, len := 20, aad := 4, iv := [] }
      : CipJob)), (([] : List CipJob)), by decide +kernel⟩,
  ⟨{ S [(.cip 63, Hdr.STATE_ST, 1)] with cips := State.reset.cips.set 63 { done := [⟨1, 0, false, []⟩, ⟨2, 0, false, []⟩] } }, .tp, 63,
      by unfold State.ownerWrites; decide +kernel⟩,
  ⟨(S [(.msec, Msec.KEY_SEL_SLOT, 1023), (.msec, Msec.KEY_CTRL_BIND, 2), (.msec, Msec.KEY_W_KEY 0, 0x11223344), (.msec, Msec.KEY_W_KEY 7, 0x55)]),
      Src.tp, _, rfl, by unfold State.trustedWrites; decide +kernel⟩,
  ⟨({ S [(.msec, Msec.KEY_SEL_SLOT, 1023), (.msec, Msec.KEY_W_KEY 0, 0x11223344), (.msec, Msec.KEY_W_KEY 7, 0x55)] with slots := State.reset.slots.set 1023 { bind := 2, page := 63, loaded := true, key := List.replicate 16 1 } }),
      Src.tp, _, rfl, by unfold State.trustedWrites; decide +kernel⟩,
  ⟨(S [(.msec, Hdr.STATE_ST, 1)]), by decide +kernel⟩,
  ⟨(S [(.msec, Hdr.STATE_ST, 1)]).mapSec (fun x => { x with trng := { x.trng with starved := true } }), by decide +kernel⟩,
  ⟨(S [(.tru, Tru.TP_STATUS_RUNNING, 1)]).mapSec (fun x => { x with bound := [(3, 9)], keys := [{ id := 9, usage := 1, key := [1] }] }),
      by decide +kernel⟩⟩

theorem witness_HostPortCommands :
  (∃ (s : Machine.State) (speed width : Nat), s.pageOn .pcie = true ∧ s.flag .pcie Pcie.LINK_CFG_LINK_EN = true ∧
      s.flag .pcie Pcie.LINK_STATUS_DL_UP = false ∧ speed < 8 ∧ width < 8) ∧
  (∃ (s : Machine.State), s.flag .pcie Pcie.LINK_STATUS_DL_UP = true) ∧
  (∃ (s : Machine.State), s.pageOn .pcie = true) ∧
  (∃ (s : Machine.State), s.pageOn .pcie = true) ∧
  (∃ (s : Machine.State), s.resetHeld = false ∧ s.rst.perst = false) ∧
  (∃ (s : Machine.State) (c : Instr), (s.resetHeld = true ∨ s.rst.perst = true) ∧ (c = .flr ∨ c = .hotReset)) ∧
  (∃ (s : Machine.State), s.resetHeld = true) ∧
  (∃ (s : Machine.State) (r : CfgReg) (v : Option Nat), s.pageOn .pcie = true ∧ s.flag .pcie Pcie.LINK_CFG_CFG_READY = false) ∧
  (∃ (s : Machine.State), s.pageOn .pcie = true ∧ s.flag .pcie Pcie.LINK_CFG_CFG_READY = true) ∧
  (∃ (s : Machine.State) (v : Nat), s.pageOn .pcie = true ∧ s.flag .pcie Pcie.LINK_CFG_CFG_READY = true) ∧
  (∃ (s : Machine.State), s.pageOn .pcie = true ∧ s.flag .pcie Pcie.LINK_CFG_CFG_READY = false) ∧
  (∃ (s : Machine.State) (a : Nat), s.pageOn .pcie = true ∧ s.fld .pcie Hdr.ERR_CODE_CODE = 0) ∧
  (∃ (s : Machine.State), s.pageOn .pcie = true) ∧
  (∃ (s : Machine.State) (v : Nat), s.pageOn .pcie = true ∧ s.pcie.pba.get v = true ∧ s.pcie.msixFuncMask = false ∧
      s.flag .pcie Pcie.LINK_STATUS_MSIX_EN = true ∧ s.flag .pcie Pcie.LINK_STATUS_BME = true ∧ s.flag .pcie Pcie.LINK_STATUS_DL_UP = true) ∧
  (∃ (s : Machine.State) (v : Nat), s.pageOn .pcie = true ∧ s.flag .pcie Pcie.LINK_CFG_CFG_READY = true) ∧
  (∃ (s : Machine.State) (v : Nat), s.pageOn .pcie = true ∧ s.flag .pcie Pcie.LINK_CFG_CFG_READY = true) ∧
  (∃ (s : Machine.State), s.pageOn .pcie = true ∧ s.flag .pcie Pcie.LINK_CFG_CFG_READY = true) :=
  ⟨⟨(S [(.pcie, Pcie.LINK_CFG_LINK_EN, 1)]), 7, 7, by decide +kernel⟩,
  ⟨host, by decide +kernel⟩,
  ⟨host, by decide +kernel⟩,
  ⟨host, by decide +kernel⟩,
  ⟨(host [(.ring, Hdr.STATE_ST, 1), (.dma, Hdr.STATE_ST, 1)]), by decide +kernel⟩,
  ⟨({ S [] with rst := { por := true } }), Instr.flr, by decide +kernel⟩,
  ⟨{ base with rst := { base.rst with sys := true } }, by decide +kernel⟩,
  ⟨(S []), CfgReg.command, (some 5), by decide +kernel⟩,
  ⟨(S [(.pcie, Pcie.LINK_CFG_CFG_READY, 1)]), by decide +kernel⟩,
  ⟨(host [(.pcie, Pcie.LINK_CFG_CFG_READY, 1)]), 0xFFFFFFFB, by decide +kernel⟩,
  ⟨(S []), by decide +kernel⟩,
  ⟨(S []), 0x1000, by decide +kernel⟩,
  ⟨base, by decide +kernel⟩,
  ⟨(host [(.pcie, Pcie.LINK_STATUS_MSIX_EN, 1)] |> fun (s : State) => { s with pcie := { s.pcie with pba := s.pcie.pba.set 511 true } }), 511,
      by decide +kernel⟩,
  ⟨host [(.pcie, Pcie.LINK_CFG_CFG_READY, 1)], 5, by decide +kernel⟩,
  ⟨host [(.pcie, Pcie.LINK_CFG_CFG_READY, 1)], 5, by decide +kernel⟩,
  ⟨host [(.pcie, Pcie.LINK_CFG_CFG_READY, 1)], by decide +kernel⟩⟩

theorem witness_WindowCommands :
  (∃ (s : Machine.State) (m : Fin 4) (a size : Nat) (l : Option (List Byte)), s.issues (.mp m) = true ∧ s.winCheck a size = none) ∧
  (∃ (s : Machine.State) (m : Fin 4) (a size w o : Nat), s.issues (.mp m) = true ∧ s.winCheck a size = some (w, o) ∧ s.winPeer w = false ∧
      s.hostUp = true ∧ s.bridge.hostOpen.length < 256) ∧
  (∃ (s : Machine.State) (m : Fin 4) (a size : Nat) (l : List Byte) (w o : Nat), s.issues (.mp m) = true ∧ s.winCheck a size = some (w, o) ∧
      s.winPeer w = false ∧ s.hostUp = true ∧ l.length = size) ∧
  (∃ (s : Machine.State) (m : Fin 4) (a size : Nat) (l : List Byte) (w o : Nat), s.issues (.mp m) = true ∧ s.winCheck a size = some (w, o) ∧
      s.winPeer w = true ∧ s.pathUp = true ∧ l.length = size ∧ 4 ≤ size) ∧
  (∃ (s : Machine.State) (m : Fin 4) (a size w o : Nat), s.issues (.mp m) = true ∧ s.winCheck a size = some (w, o) ∧ s.winPeer w = false ∧
      s.hostUp = true ∧ s.bridge.hostOpen.length < 256) ∧
  (∃ (s : Machine.State) (m : Fin 4) (a size new w o : Nat), s.issues (.mp m) = true ∧ s.winCheck a size = some (w, o) ∧
      s.casWorks w (s.winTarget w o size) = true ∧ s.bridge.resv.get m.val = none) ∧
  (∃ (s : Machine.State) (m : Fin 4) (a size new w o v : Nat), s.issues (.mp m) = true ∧ s.winCheck a size = some (w, o) ∧
      s.casWorks w (s.winTarget w o size) = true ∧ s.winPeer w = false ∧ s.hostUp = true ∧ s.bridge.resv.get m.val = some ⟨a, size, v⟩ ∧
      s.bridge.hostOpen.length < 256) ∧
  (∃ (s : Machine.State) (m : Fin 4) (a size : Nat) (op : Amo) (arg w o : Nat), s.issues (.mp m) = true ∧ s.winCheck a size = some (w, o) ∧
      s.casWorks w (s.winTarget w o size) = true ∧ s.winPeer w = false ∧ s.hostUp = true ∧ s.bridge.hostOpen.length < 256) ∧
  (∃ (s : Machine.State) (id m a size addr n : Nat) (c : Option (Nat × Nat)) (v : WinView) (l : List Byte), s.pageOn .brg = true ∧
      s.bridge.hostWait = [] ∧ v.peer = false ∧ s.bridge.hostOpen.find? (fun r => r.id == id) = some ⟨id, .load m a size, addr, n, c, v⟩) ∧
  (∃ (s : Machine.State) (id m a size addr n : Nat) (c : Option (Nat × Nat)) (v : WinView) (l : List Byte), s.pageOn .brg = true ∧
      s.bridge.hostWait = [] ∧ v.peer = false ∧ s.bridge.hostOpen.find? (fun r => r.id == id) = some ⟨id, .lr m a size, addr, n, c, v⟩) ∧
  (∃ (s : Machine.State) (id m a size expect addr n : Nat) (c : Option (Nat × Nat)) (v : WinView) (l : List Byte), s.pageOn .brg = true ∧
      s.bridge.hostWait = [] ∧ s.bridge.hostOpen.find? (fun r => r.id == id) = some ⟨id, .sc m a size expect, addr, n, c, v⟩) ∧
  (∃ (s : Machine.State) (id m a size : Nat) (op : Amo) (arg tries expect addr n : Nat) (c : Option (Nat × Nat)) (v : WinView) (l : List Byte),
      s.pageOn .brg = true ∧ s.bridge.hostWait = [] ∧ s.bridge.hostOpen.find? (fun r => r.id == id) = some ⟨id, .amoCas m a size op arg tries expect,
      addr, n, c, v⟩ ∧ leNat (swapData v.unit (l.take size)) = expect) ∧
  (∃ (s : Machine.State) (id m a size : Nat) (op : Amo) (arg tries expect addr n : Nat) (c : Option (Nat × Nat)) (v : WinView) (l : List Byte),
      s.pageOn .brg = true ∧ s.bridge.hostWait = [] ∧ s.bridge.hostOpen.find? (fun r => r.id == id) = some ⟨id, .amoCas m a size op arg tries expect,
      addr, n, c, v⟩ ∧ leNat (swapData v.unit (l.take size)) ≠ expect ∧ 8 ≤ tries) ∧
  (∃ (s : Machine.State) (id m a size addr n : Nat) (c : Option (Nat × Nat)) (v : WinView), s.pageOn .brg = true ∧ s.bridge.hostWait = [] ∧
      s.bridge.hostOpen.find? (fun r => r.id == id) = some ⟨id, .load m a size, addr, n, c, v⟩ ∧ s.fld .brg Hdr.ERR_CODE_CODE = 0) ∧
  (∃ (s : Machine.State) (id m a size addr n : Nat) (c : Option (Nat × Nat)) (v : WinView), s.pageOn .brg = true ∧ s.bridge.hostWait = [] ∧
      s.bridge.hostOpen.find? (fun r => r.id == id) = some ⟨id, .load m a size, addr, n, c, v⟩ ∧ s.fld .brg Hdr.ERR_CODE_CODE = 0 ∧
      s.pcie.noTimeout = false) ∧
  (∃ (s : Machine.State) (m : Fin 4) (a size w o : Nat), s.issues (.mp m) = true ∧ s.winCheck a size = some (w, o) ∧ s.winPeer w = false ∧
      s.hostUp = true ∧ 256 ≤ s.bridge.hostOpen.length) ∧
  (∃ (s : Machine.State) (id m a size addr n : Nat) (c : Option (Nat × Nat)) (v : WinView) (q : HostReq) (rest : List HostReq),
      s.pageOn .brg = true ∧ s.bridge.hostOpen.find? (fun r => r.id == id) = some ⟨id, .load m a size, addr, n, c, v⟩ ∧
      s.bridge.hostWait = q :: rest ∧ s.bridge.hostOpen.length ≤ 256) :=
  ⟨⟨brg, (3 : Fin 4), 0x1000000004, 8, ((none : Option (List Byte))), by decide +kernel⟩,
  ⟨(brg [(.brg, Brg.WIN_CFG_SWAP 15, 3), (.brg, Brg.WIN_REMOTE_HI_ADDR 15, 1)]), (3 : Fin 4), (0x100000FFF8 + 15 * 2 ^ 36), 8, 15, 0xFFF8,
      by decide +kernel⟩,
  ⟨(brg [(.brg, Brg.WIN_CFG_SWAP 15, 3), (.brg, Brg.WIN_REMOTE_HI_ADDR 15, 1)]), (3 : Fin 4), (0x100000FFFC + 15 * 2 ^ 36), 4, (([1, 2, 3,
      4] : List Byte)), 15, 0xFFFC, by decide +kernel⟩,
  ⟨(brg [(.brg, Brg.WIN_CFG_TARGET 15, 1), (.brg, Brg.WIN_REMOTE_LO_ADDR 15, 0x2000)]), (3 : Fin 4), (0x100000FFFC + 15 * 2 ^ 36), 4, (([1, 2, 3,
      4] : List Byte)), 15, 0xFFFC, by decide +kernel⟩,
  ⟨(brg [(.brg, Brg.WIN_CFG_ATOMIC 15, 1), (.pcie, Pcie.LINK_STATUS_ATOMIC_EN, 1)]), (3 : Fin 4), (0x100000FFFC + 15 * 2 ^ 36), 4, 15, 0xFFFC,
      by decide +kernel⟩,
  ⟨(brg [(.brg, Brg.WIN_CFG_ATOMIC 15, 1), (.pcie, Pcie.LINK_STATUS_ATOMIC_EN, 1)]), (3 : Fin 4), (0x100000FFFC + 15 * 2 ^ 36), 4, 7, 15, 0xFFFC,
      by decide +kernel⟩,
  ⟨(brg [(.brg, Brg.WIN_CFG_ATOMIC 15, 1), (.pcie, Pcie.LINK_STATUS_ATOMIC_EN,
      1)]).mapBridge (fun b => { b with resv := b.resv.set 3 (some ⟨0x100000FFFC + 15 * 2 ^ 36, 4, 9⟩) }), (3 : Fin 4), (0x100000FFFC + 15 * 2 ^ 36),
      4, 7, 15, 0xFFFC, 9, by decide +kernel⟩,
  ⟨(brg [(.brg, Brg.WIN_CFG_ATOMIC 15, 1), (.pcie, Pcie.LINK_STATUS_ATOMIC_EN, 1)]), (3 : Fin 4), (0x100000FFFC + 15 * 2 ^ 36), 4, Amo.smin, 9, 15,
      0xFFFC, by decide +kernel⟩,
  ⟨((brg).mapBridge
      (fun b => { b with hostOpen := [{ id := 4, use := .load 1 (0x100000FFFC + 15 * 2 ^ 36) 4, addr := 0x77, size := 4 }, { id := 5, use := .load 3 (0x100000FFFC + 15 * 2 ^ 36) 4, addr := 0x77, size := 4 }] })),
      5, 3, (0x100000FFFC + 15 * 2 ^ 36), 4, 0x77, 4, none, {}, (([1, 2, 3, 4] : List Byte)), by decide +kernel⟩,
  ⟨brg.mapBridge (fun b => { b with hostOpen := [{ id := 5, use := .lr 3 (0x100000FFFC + 15 * 2 ^ 36) 4, addr := 0x77, size := 4 }] }), 5, 3,
      0x100000FFFC + 15 * 2 ^ 36, 4, 0x77, 4, none, {}, [1, 2, 3, 4], by decide +kernel⟩,
  ⟨brg.mapBridge (fun b => { b with hostOpen := [{ id := 5, use := .sc 3 (0x100000FFFC + 15 * 2 ^ 36) 4 9, addr := 0x77, size := 4 }] }), 5, 3,
      0x100000FFFC + 15 * 2 ^ 36, 4, 9, 0x77, 4, none, {}, [9, 0, 0, 0], by decide +kernel⟩,
  ⟨brg.mapBridge
      (fun b => { b with hostOpen := [{ id := 5, use := .amoCas 3 (0x100000FFFC + 15 * 2 ^ 36) 4 .add 1 0 9, addr := 0x77, size := 4 }] }), 5, 3,
      0x100000FFFC + 15 * 2 ^ 36, 4, .add, 1, 0, 9, 0x77, 4, none, {}, [9, 0, 0, 0], by decide +kernel⟩,
  ⟨brg.mapBridge
      (fun b => { b with hostOpen := [{ id := 5, use := .amoCas 3 (0x100000FFFC + 15 * 2 ^ 36) 4 .add 1 8 9, addr := 0x77, size := 4 }] }), 5, 3,
      0x100000FFFC + 15 * 2 ^ 36, 4, .add, 1, 8, 9, 0x77, 4, none, {}, [8, 0, 0, 0], by decide +kernel⟩,
  ⟨((brg).mapBridge
      (fun b => { b with hostOpen := [{ id := 4, use := .load 1 (0x100000FFFC + 15 * 2 ^ 36) 4, addr := 0x77, size := 4 }, { id := 5, use := .load 3 (0x100000FFFC + 15 * 2 ^ 36) 4, addr := 0x77, size := 4 }] })),
      5, 3, (0x100000FFFC + 15 * 2 ^ 36), 4, 0x77, 4, none, {}, by decide +kernel⟩,
  ⟨brg.mapBridge (fun b => { b with hostOpen := [{ id := 5, use := .load 3 (0x100000FFFC + 15 * 2 ^ 36) 4, addr := 0x77, size := 4 }] }), 5, 3,
      0x100000FFFC + 15 * 2 ^ 36, 4, 0x77, 4, none, {}, by decide +kernel⟩,
  ⟨brg.mapBridge
      (fun b => { b with hostOpen := (List.range 256).map (fun i => { id := i, use := .load 1 (0x100000FFFC + 15 * 2 ^ 36) 4, addr := 0x77, size := 4 }) }),
      (3 : Fin 4), (0x100000FFFC + 15 * 2 ^ 36), 4, 15, 0xFFFC, by decide +kernel⟩,
  ⟨brg.mapBridge
      (fun b => { b with hostOpen := [{ id := 5, use := .load 3 (0x100000FFFC + 15 * 2 ^ 36) 4, addr := 0x77, size := 4 }], hostWait := [{ id := 0, use := .load 2 (0x100000FFF8 + 15 * 2 ^ 36) 4, addr := 0x78, size := 4 }] }),
      5, 3, (0x100000FFFC + 15 * 2 ^ 36), 4, 0x77, 4, none, {}, { id := 0, use := .load 2 (0x100000FFF8 + 15 * 2 ^ 36) 4, addr := 0x78, size := 4 },
      [], by decide +kernel⟩⟩

theorem witness_PartnerCommands :
  (∃ (s : Machine.State) (off size tag : Nat), s.pageOn .pcie = true ∧ s.inRun .brg = true ∧ s.pathUp = true ∧ off + size ≤ 0x4000000 ∧ 0 < size ∧
      s.freeTag = some tag) ∧
  (∃ (s : Machine.State) (off size : Nat), s.pageOn .pcie = true ∧ (s.inRun .brg = false ∨ s.pathUp = false)) ∧
  (∃ (s : Machine.State) (off w : Nat), s.pageOn .pcie = true ∧ s.inRun .brg = true ∧ s.pathUp = true) ∧
  (∃ (s : Machine.State) (off w : Nat), s.pageOn .pcie = true ∧ (s.inRun .brg = false ∨ s.pathUp = false) ∧ s.bridge.pwlog.length < 16) ∧
  (∃ (s : Machine.State) (a : Nat) (d : List Byte), s.pageOn .brg = true ∧ a % 4 = 0 ∧ 0x2000000 ≤ a ∧ a < 0x2200000 ∧ d.length = 4 ∧
      s.pageOn .scr = true) ∧
  (∃ (s : Machine.State) (orig tag a words : Nat) (ecc : EccResult), s.pageOn .brg = true ∧ s.flag .brg Brg.PEER_CFG_EN = true ∧ s.contends = true) ∧
  (∃ (s : Machine.State) (orig tag a : Nat) (ecc : EccResult), s.pageOn .brg = true ∧ ecc ≠ .lost ∧ s.flag .brg Brg.PEER_CFG_EN = true ∧
      s.contends = false ∧ a % 4 = 0 ∧ 0x2000000 ≤ a ∧ a < 0x2200000 ∧ s.pageOn .scr = true) ∧
  (∃ (s : Machine.State) (orig tag a : Nat) (d : List Byte) (ecc : EccResult), s.pageOn .brg = true ∧ ecc ≠ .lost ∧
      s.flag .brg Brg.PEER_CFG_EN = true ∧ orig < 6 ∧ s.contends = false ∧ a % 4 = 0 ∧ 0x2000000 ≤ a ∧ a < 0x2200000 ∧ s.pageOn .scr = true) ∧
  (∃ (s : Machine.State) (tag : Nat) (d : List Byte), s.pageOn .brg = true ∧ s.bridge.peerOpen.find? (fun r => r.tag == tag && !r.parked) = none) ∧
  (∃ (s : Machine.State) (tag : Nat) (d : List Byte) (r : PeerReq) (m a size : Nat), s.pageOn .brg = true ∧
      s.bridge.peerOpen.find? (fun r => r.tag == tag && !r.parked) = some r ∧ r.use = .load m a size ∧ r.cas = false ∧ r.win.peer = true ∧
      s.bridge.peerWait = []) ∧
  (∃ (s : Machine.State) (tag : Nat) (d : List Byte) (r : PeerReq) (off size : Nat), s.pageOn .brg = true ∧
      s.bridge.peerOpen.find? (fun r => r.tag == tag && !r.parked) = some r ∧ r.use = .hostRead off size [] ∧ r.cas = false ∧
      s.bridge.peerWait = [] ∧ off % 4 + size ≤ (bridgeBytes d).length) ∧
  (∃ (s : Machine.State) (tag : Nat) (d : List Byte) (r : PeerReq), s.pageOn .brg = true ∧ s.bridge.peerOpen.find? (fun r => r.tag == tag &&
      !r.parked) = some r ∧ r.use = .poll ∧ r.cas = false ∧ s.bridge.peerWait = [] ∧ d.length = 36) ∧
  (∃ (s : Machine.State) (tag : Nat) (d : List Byte) (r : PeerReq), s.pageOn .brg = true ∧ s.bridge.peerOpen.find? (fun r => r.tag == tag &&
      !r.parked) = some r ∧ r.retries < 16) ∧
  (∃ (s : Machine.State) (orig code a : Nat), s.pageOn .brg = true ∧ s.bridge.pwlog.length < 16) ∧
  (∃ (s : Machine.State) (src : Src), s.ownerWrites src .brg) ∧
  (∃ (s : Machine.State) (tag : Nat) (r : PeerReq), s.pageOn .brg = true ∧ s.bridge.peerOpen.find? (fun r => r.tag == tag) = some r ∧
      s.bridge.peerWait = []) ∧
  (∃ (s : Machine.State) (tag : Nat) (r : PeerReq), s.pageOn .brg = true ∧ s.bridge.peerOpen.find? (fun r => r.tag == tag && r.parked) = some r) ∧
  (∃ (s : Machine.State) (tag : Nat), s.pageOn .brg = true ∧ s.inRun .brg = true ∧ s.fld .brg Brg.PEER_CFG_POLL_US ≠ 0 ∧ s.pathUp = true ∧
      s.freeTag = some tag) ∧
  (∃ (s : Machine.State) (orig tag a words : Nat), s.pageOn .brg = true ∧ s.flag .brg Brg.PEER_CFG_EN = true ∧ s.contends = false ∧ a % 4 = 0 ∧
      0x2000000 ≤ a ∧ a < 0x2200000 ∧ s.pageOn .scr = true ∧ s.fld .scr Hdr.ERR_CODE_CODE = 0) :=
  ⟨⟨((brg).mapBridge (fun b => { b with peerOpen := [⟨0, .poll, false, 7, 0x100, 9, 0, 0, 0, false, {}⟩] })), 0x3FFFFF8, 8, 1, by decide +kernel⟩,
  ⟨(brg [(.brg, Brg.PEER_STATUS_PATH_UP, 0)]), 0x3FFFFF8, 8, by decide +kernel⟩,
  ⟨brg, 0x3FFFFFC, 0xFFFFFFFF, by decide +kernel⟩,
  ⟨((brg [(.brg, Hdr.STATE_ST, 0)]).mapBridge (fun b => { b with pwlog := List.replicate 15 ⟨1, 2, 3, 4, 5, 6⟩ })), 0x3FFFFFC, 0xFFFFFFFF,
      by decide +kernel⟩,
  ⟨brg, 0x21FFFFC, (([1, 2, 3, 4] : List Byte)), by decide +kernel⟩,
  ⟨((brg).mapBridge (fun b => { b with peerOpen := [⟨0, .poll, false, 7, 0x100, 9, 0, 0, 0, false, {}⟩] })), 3, 9, 0x2000000, 8, EccResult.clean,
      by decide +kernel⟩,
  ⟨((brg).scratchWrite .host 0x2000000 [1, 2, 3, 4, 5]), 3, 9, 0x2000000, EccResult.corrected, by decide +kernel⟩,
  ⟨brg, 5, 9, 0x2000000, (([0, 0, 0, 0, 1, 2, 3, 4] : List Byte)), EccResult.clean, by decide +kernel⟩,
  ⟨brg, 9, (([] : List Byte)), by decide +kernel⟩,
  ⟨((brg).mapBridge
      (fun b => { b with peerOpen := [⟨9, .load 3 (0x100000FFFC + 15 * 2 ^ 36) 4, false, 3, 0x20, 1, 0, 0, 0, false, { peer := true }⟩] })), 9, (([1,
      2, 3, 4] : List Byte)), ((⟨9, .load 3 (0x100000FFFC + 15 * 2 ^ 36) 4, false, 3, 0x20, 1, 0, 0, 0, false, { peer := true }⟩ : PeerReq)), 3,
      (0x100000FFFC + 15 * 2 ^ 36), 4, by decide +kernel⟩,
  ⟨brg.mapBridge (fun b => { b with peerOpen := [⟨9, .hostRead 2 4 [], false, 0, 0x20, 2, 0, 0, 15, false, {}⟩] }), 9, [1, 2, 3, 4, 5, 6, 7, 8], ⟨9,
      .hostRead 2 4 [], false, 0, 0x20, 2, 0, 0, 15, false, {}⟩, 2, 4, by decide +kernel⟩,
  ⟨brg.mapBridge (fun b => { b with peerOpen := [⟨9, .poll, false, 3, 0x20, 9, 0, 0, 15, false, {}⟩] }), 9, List.replicate 36 1, ⟨9, .poll, false, 3,
      0x20, 9, 0, 0, 15, false, {}⟩, by decide +kernel⟩,
  ⟨brg.mapBridge (fun b => { b with peerOpen := [⟨9, .load 3 (0x100000FFFC + 15 * 2 ^ 36) 4, false, 3, 0x20, 1, 0, 0, 15, false, {}⟩] }), 9, [], ⟨9,
      .load 3 (0x100000FFFC + 15 * 2 ^ 36) 4, false, 3, 0x20, 1, 0, 0, 15, false, {}⟩, by decide +kernel⟩,
  ⟨brg, 3, 1, 0x2000, by decide +kernel⟩,
  ⟨((brg).mapBridge (fun b => { b with pwlog := [⟨1, 2, 3, 4, 5, 6⟩, ⟨2, 2, 3, 4, 5, 6⟩] })), Src.tp, by unfold State.ownerWrites; decide +kernel⟩,
  ⟨((brg).mapBridge (fun b => { b with peerOpen := [⟨9, .load 3 (0x100000FFFC + 15 * 2 ^ 36) 4, false, 3, 0x20, 1, 0, 0, 15, false, {}⟩] })), 9,
      ((⟨9, .load 3 (0x100000FFFC + 15 * 2 ^ 36) 4, false, 3, 0x20, 1, 0, 0, 15, false, {}⟩ : PeerReq)), by decide +kernel⟩,
  ⟨((brg).mapBridge (fun b => { b with peerOpen := [⟨9, .load 3 (0x100000FFFC + 15 * 2 ^ 36) 4, false, 3, 0x20, 1, 0, 0, 15, true, {}⟩] })), 9, ((⟨9,
      .load 3 (0x100000FFFC + 15 * 2 ^ 36) 4, false, 3, 0x20, 1, 0, 0, 15, true, {}⟩ : PeerReq)), by decide +kernel⟩,
  ⟨(brg [(.brg, Brg.PEER_CFG_POLL_US, 5)]), 0, by decide +kernel⟩,
  ⟨brg, 3, 9, 0x2000000, 8, by decide +kernel⟩⟩

theorem witness_RingCommands :
  (∃ (s : Machine.State) (src : Src) (r v : Nat), r < 64 ∧ s.ownerWrites src .ring) ∧
  (∃ (s : Machine.State) (src : Src) (r v : Nat), r < 64 ∧ s.ownerWrites src .ring) ∧
  (∃ (s u : Machine.State) (r : Nat) (img : List (Nat × List Byte)) (n : Nat) (ds : List TxDesc), u = s.hostImage img ∧
      ds = (List.range n).map (u.txDesc r) ∧ s.inRun .ring = true ∧ s.hostUp = true ∧ u.txGrant = some r ∧ u.txFrameLen r = some n ∧
      txCause ds false = 0 ∧ s.inRun .buf = true) ∧
  (∃ (s u : Machine.State) (r : Nat) (img : List (Nat × List Byte)) (n : Nat) (ds : List TxDesc) (bad : Option (Nat × Bool)), u = s.hostImage img ∧
      ds = (List.range n).map (u.txDesc r) ∧ s.inRun .ring = true ∧ s.hostUp = true ∧ u.txGrant = some r ∧ u.txFrameLen r = some n ∧
      txCause ds bad.isSome ≠ 0) ∧
  (∃ (s : Machine.State) (tx : Bool) (r : Nat), r < 64 ∧ s.pageOn .ring = true ∧ s.ringPend.get (ringKey tx r) ≠ 0 ∧ s.ringF tx r 3 8 8 = 1 ∧
      s.ringF tx r 3 31 24 ≠ 0 ∧ s.flag .pcie Pcie.LINK_STATUS_MSIX_EN = true ∧ s.flag .pcie Pcie.LINK_STATUS_BME = true ∧
      s.flag .pcie Pcie.LINK_STATUS_DL_UP = true ∧ s.msixMasked (s.ringF tx r 3 7 0) = false) :=
  ⟨⟨(S []), Src.tp, 63, 0xFFFFFFFF, by unfold State.ownerWrites; decide +kernel⟩,
  ⟨(S []), Src.tp, 63, 0xFFFFFFFF, by unfold State.ownerWrites; decide +kernel⟩,
  ⟨(ring63 (64 + 0x30000)), _, 63, (([(0x1000, good64)] : List (Nat × List Byte))), 1, _, rfl, rfl, by decide +kernel⟩,
  ⟨(ring63 (64 + 0x30000)), _, 63, (([(0x1000, good64)] : List (Nat × List Byte))), 1, _, (0x1000, true), rfl, rfl, by decide +kernel⟩,
  ⟨{ (host [(.pcie, Pcie.LINK_STATUS_MSIX_EN, 1)]).setTab .ring 1 63 3 (BitVec.ofNat 32 (5 + 256 + 2 ^ 24)) with pcie := { msix := base.pcie.msix.set (msixKey 5 3) 0 }, ringPend := State.reset.ringPend.set (ringKey true 63) 3 },
      true, 63, by decide +kernel⟩⟩

theorem witness_DmaCommands :
  (∃ (s : Machine.State) (src : Src) (c v : Nat), c < 32 ∧ s.ownerWrites src .dma ∧ s.inRun .dma = true ∧ s.chSt c = 1 ∧
      v % 1024 % s.chSize c ≠ s.chHead c) ∧
  (∃ (s u : Machine.State) (c : Nat) (d : DmaDesc) (img : List (Nat × List Byte)) (corr : Nat × Nat), u = s.hostImage img ∧ d = u.dmaDesc c ∧
      c < 32 ∧ s.chSt c = 2 ∧ s.chEn c = true ∧ s.chSpace c ≠ 3 ∧ s.hostUp = true ∧ u.dmaCheck d = 0) ∧
  (∃ (s u : Machine.State) (c : Nat) (img : List (Nat × List Byte)) (corr : Nat × Nat), u = s.hostImage img ∧ c < 32 ∧ s.chSt c = 2 ∧
      s.hostUp = true ∧ u.dmaCheck (u.dmaDesc c) = 3) ∧
  (∃ (s : Machine.State) (src : Src) (c rows : Nat) (img : List (Nat × List Byte)) (corr : Nat × Nat), c < 32 ∧ s.ownerWrites src .dma ∧ s.chSt c = 2) ∧
  (∃ (s : Machine.State) (src : Src) (c : Nat), c < 32 ∧ s.ownerWrites src .dma ∧ s.dmaRuns = true ∧ s.chSt c = 3) ∧
  (∃ (s : Machine.State) (src : Src) (c : Nat), c < 32 ∧ s.ownerWrites src .dma ∧ s.dmaRuns = true ∧ s.chSt c = 3) ∧
  (∃ (s : Machine.State) (corr : Nat), s.ownerWrites .host .scr ∧ s.mbxSt 0 ≠ 1 ∧ s.served 0 = false) ∧
  (∃ (s : Machine.State) (corr : Nat), s.ownerWrites .host .scr ∧ s.mbxSt 0 ≠ 1 ∧ s.served 0 = true ∧ s.mailOpen = true) ∧
  (∃ (s : Machine.State) (src : Src) (v : Nat), s.ownerWrites src .scr) ∧
  (∃ (s : Machine.State) (c : Nat) (img : List (Nat × List Byte)) (corr : Nat × Nat) (a : Nat) (tmo : Bool), c < 32 ∧ s.chSt c = 2 ∧
      s.chEn c = true ∧ s.chSpace c ≠ 3 ∧ s.hostUp = true) ∧
  (∃ (s : Machine.State) (src : Src) (corr : Nat), s.ownerWrites src .scr ∧ src ≠ .host ∧ s.fld .scr Hdr.ERR_CODE_CODE = 0) :=
  ⟨⟨(S [(.dma, Hdr.STATE_ST, 1), (.dma, Dma.CH_CTRL_ST 31, 1)]), Src.tp, 31, 0xFFFFFFFF, by unfold State.ownerWrites; decide +kernel⟩,
  ⟨dma31 0x2000, _, 31, _, [], (0, 0), rfl, rfl, by decide +kernel⟩,
  ⟨dma31 0xFFF8, _, 31, (([] : List (Nat × List Byte))), (0, 0), rfl, by decide +kernel⟩,
  ⟨(dma31 0x2000), Src.tp, 31, 1, (([] : List (Nat × List Byte))), (0, 0), by unfold State.ownerWrites; decide +kernel⟩,
  ⟨(S [(.dma, Dma.HALT_MAP_MAP, 2 ^ 31)] (S [(.dma, Dma.CH_CTRL_ST 31, 3)] (dma31 0x2000))), Src.tp, 31, by unfold State.ownerWrites; decide +kernel⟩,
  ⟨(S [(.dma, Dma.HALT_MAP_MAP, 2 ^ 31)] (S [(.dma, Dma.CH_CTRL_ST 31, 3)] (dma31 0x2000))), Src.tp, 31, by unfold State.ownerWrites; decide +kernel⟩,
  ⟨(S [(.scr, Hdr.OWNER_CLASS, 0)]), 0, by unfold State.ownerWrites; decide +kernel⟩,
  ⟨(S [(.scr, Hdr.OWNER_CLASS, 0), (.tru, Tru.TP_STATUS_RUNNING, 1)]), 0, by unfold State.ownerWrites; decide +kernel⟩,
  ⟨(S []), Src.tp, 0xFFFFFFFF, by unfold State.ownerWrites; decide +kernel⟩,
  ⟨dma31 0x2000, 31, [], (0, 0), 0, true, by decide +kernel⟩,
  ⟨base, Src.tp, 0, by unfold State.ownerWrites; decide +kernel⟩⟩

theorem witness_PowerRequests :
  (∃ (s : Machine.State) (src : Src), s.ownerWrites src .pwr ∧ s.phase = 0 ∧ s.pwrSt ≠ 4 ∧ s.pwrSt ≠ 0) ∧
  (∃ (s : Machine.State) (src : Src), s.ownerWrites src .pwr ∧ s.phase = 0 ∧ s.pwrSt ≠ 4 ∧ s.pwrSt ≠ 1 ∧ s.badIsland = none) ∧
  (∃ (s : Machine.State) (src : Src), s.ownerWrites src .pwr ∧ s.phase = 0 ∧ s.pwrSt ≠ 4 ∧ s.pwrSt ≠ 2) ∧
  (∃ (s : Machine.State) (src : Src), s.ownerWrites src .pwr ∧ s.phase = 0 ∧ s.pwrSt ≠ 4 ∧ s.pwrSt ≠ 3) ∧
  (∃ (s : Machine.State) (src : Src) (st : Nat) (c : Instr), (c, st) ∈ [(Instr.powerReqRun src, 0), (.powerReqDoze src, 2), (.powerReqSleep src,
      3)] ∧ s.ownerWrites src .pwr ∧ s.phase = 0 ∧ s.pwrSt = st) ∧
  (∃ (s : Machine.State) (src : Src) (i : Nat), s.ownerWrites src .pwr ∧ s.phase = 0 ∧ s.badIsland = some i) ∧
  (∃ (s : Machine.State) (src : Src) (st : Nat) (c : Instr), (c, st) ∈ [(Instr.powerReqRun src, 0), (.powerReqPartial src, 1), (.powerReqDoze src,
      2), (.powerReqSleep src, 3)] ∧ s.ownerWrites src .pwr ∧ s.phase ≠ 0 ∧ s.fld .pwr Hdr.ERR_CODE_CODE = 0) :=
  ⟨⟨S [(.pwr, Pwr.STATUS_ST, 2)], .tp, by unfold State.ownerWrites; decide +kernel⟩,
  ⟨S [], .tp, by unfold State.ownerWrites; decide +kernel⟩,
  ⟨S [], .tp, by unfold State.ownerWrites; decide +kernel⟩,
  ⟨S [], .tp, by unfold State.ownerWrites; decide +kernel⟩,
  ⟨(S []), Src.tp, 0, Instr.powerReqRun Src.tp, by unfold State.ownerWrites; decide +kernel⟩,
  ⟨(S [(.pwr, ⟨Pwr.PARTIAL_MAP_MAP.off, 0, 32⟩, 0xCAAAAAA)]), Src.tp, ((S [(.pwr, ⟨Pwr.PARTIAL_MAP_MAP.off, 0, 32⟩, 0xCAAAAAA)]).badIsland.getD 99),
      by unfold State.ownerWrites; decide +kernel⟩,
  ⟨S [(.pwr, Pwr.STATUS_PHASE, 3)], Src.tp, 2, Instr.powerReqDoze Src.tp, by unfold State.ownerWrites; decide +kernel⟩⟩

theorem witness_PowerPhases :
  (∃ (s : Machine.State), s.phase = 1 ∧ s.power.waking = false ∧ s.power.occurred = 0) ∧
  (∃ (s : Machine.State), s.phase = 2) ∧
  (∃ (s : Machine.State), s.phase = 3 ∧ (∀ i, i ∈ s.islandsDown → s.working i = [])) ∧
  (∃ (s : Machine.State) (i : Nat), s.phase = 3 ∧ i ∈ s.islandsDown ∧ s.working i ≠ []) ∧
  (∃ (s : Machine.State), (s.phase = 4 ∨ s.phase = 5) ∧ s.power.occurred = 0) ∧
  (∃ (s : Machine.State) (i : Nat) (temp : Int), i < 14 ∧ temp ≤ s.fld .pwr Pwr.THERM_TRIP) ∧
  (∃ (s : Machine.State) (i : Nat) (temp : Int), (s.fld .pwr Pwr.THERM_TRIP : Int) < temp ∧ (s.pwrSt ≠ 4 ∨ s.phase ≠ 0) ∧ i < 14) ∧
  (∃ (s : Machine.State), (s.pwrSt ≠ 4 ∨ s.phase ≠ 0)) ∧
  (∃ (s : Machine.State), s.pwrSt = 4 ∧ s.power.stands = true ∧ s.cooled = true ∧ s.power.occurred = 0) ∧
  (∃ (s : Machine.State) (n : Nat), s.pwrSt = 4 ∧ s.power.stands = true ∧ s.cooled = true ∧ s.phase = 0 ∧ s.power.occurred = 2 ^ n ∧
      s.power.first = 2 ^ n ∧ n < 21) ∧
  (∃ (s : Machine.State) (i : Nat), i ∈ s.power.hot ∧ (s.fld .pwr Pwr.THERM_RESUME : Int) ≤ signed 9 (s.fld .clk (Clk.TEMP_T i))) ∧
  (∃ (s : Machine.State) (n : Nat), (s.phase = 4 ∨ s.phase = 5) ∧ s.power.occurred = 2 ^ n ∧ s.power.first = 2 ^ n ∧ n < 21) ∧
  (∃ (s : Machine.State) (p : Page) (src : Src) (off v : Nat), p.ok = true ∧ s.islandCond p.island = 2 ∧ s.phase = 4 ∧
      mapCond s.power.goal p.island < 2 ∧ s.issues src = true ∧ s.fld .sys Hdr.ERR_CODE_CODE = 0 ∧ off % 4 = 0 ∧ off < 4096) :=
  ⟨⟨(S [(.pwr, Pwr.STATUS_PHASE, 1), (.pwr, Pwr.STATUS_ST, 3), (.pwr, ⟨Pwr.ISLAND_STATE_MAP.off, 0, 32⟩, 0)]), by decide +kernel⟩,
  ⟨(S [(.pwr, Pwr.STATUS_PHASE, 2)]), by decide +kernel⟩,
  ⟨(S [(.pwr, Pwr.STATUS_PHASE, 3), (.pwr, Pwr.STATUS_TARGET, 3)] { State.reset with power := { aonNs := 77 } }), by decide +kernel⟩,
  ⟨(S [(.pwr, Pwr.STATUS_PHASE, 3), (.pwr, Pwr.STATUS_TARGET, 3), (.prs, Hdr.STATE_ST, 1)]), 4, by decide +kernel⟩,
  ⟨(S [(.pwr, Pwr.STATUS_PHASE, 5), (.pwr, Pwr.STATUS_TARGET, 3)]), by decide +kernel⟩,
  ⟨(S [(.pwr, Pwr.THERM_TRIP, 100)]), 13, ((100 : Int)), by decide +kernel⟩,
  ⟨(S [(.pwr, Pwr.THERM_TRIP, 100)]), 13, ((101 : Int)), by decide +kernel⟩,
  ⟨(S [(.pwr, Pwr.STATUS_ST, 3)]), by decide +kernel⟩,
  ⟨(S [(.pwr, Pwr.STATUS_ST, 4)] { State.reset with power := { stands := true } }), by decide +kernel⟩,
  ⟨(S [(.pwr, Pwr.STATUS_ST, 4)] { State.reset with power := { stands := true, occurred := 2 ^ 20, first := 2 ^ 20 } }), 20, by decide +kernel⟩,
  ⟨(S [(.pwr, Pwr.STATUS_ST, 4), (.pwr, Pwr.THERM_RESUME, 80), (.clk, Clk.TEMP_T 3,
      81)] { State.reset with power := { stands := true, hot := [3] } }), 3, by decide +kernel⟩,
  ⟨(S [(.pwr, Pwr.STATUS_PHASE, 5), (.pwr, Pwr.STATUS_TARGET, 3)] { State.reset with power := { occurred := 2 ^ 20, first := 2 ^ 20 } }), 20,
      by decide +kernel⟩,
  ⟨S [(.pwr, Pwr.STATUS_PHASE, 4)], Page.can 63, Src.tp, 4092, 1, by decide +kernel⟩⟩

theorem witness_WakeCommands :
  (∃ (s : Machine.State) (n : Nat), n < 16 ∧ s.flag .wake (Wake.PIN_CFG_EN n) = true ∧ (s.fld .wake Wake.MASK_SRC).testBit n = false ∧ s.phase = 0 ∧
      s.pwrSt ≠ 0 ∧ s.pwrSt ≠ 4) ∧
  (∃ (s : Machine.State) (n : Nat), n < 16 ∧ s.flag .wake (Wake.PIN_CFG_EN n) = false) ∧
  (∃ (s : Machine.State), s.fld .wake Wake.TIMER_S_S ≠ 0 ∧ (s.fld .wake Wake.MASK_SRC).testBit 19 = false ∧ s.phase = 0 ∧ s.pwrSt ≠ 0 ∧ s.pwrSt ≠ 4) ∧
  (∃ (s : Machine.State), s.phase = 1 ∧ s.power.waking = true) ∧
  (∃ (s : Machine.State) (src : Src), s.ownerWrites src .wake) ∧
  (∃ (s : Machine.State) (n : Nat) (rest : List Nat), n < 21 ∧ s.power.unconfirmed = 2 ^ n :: rest) ∧
  (∃ (s : Machine.State) (n : Nat), n < 21 ∧ s.power.autoMasked.testBit n = true ∧ s.fld .wake Wake.UNMASK_S_S ≠ 0) :=
  ⟨⟨(S [(.pwr, Pwr.STATUS_ST, 3), (.wake, Wake.PIN_CFG_EN 15, 1), (.wake, Wake.MASK_SRC, 0)]), 15, by decide +kernel⟩,
  ⟨(S [(.pwr, Pwr.STATUS_ST, 3), (.wake, Wake.PIN_CFG_EN 15, 0)]), 15, by decide +kernel⟩,
  ⟨(S [(.pwr, Pwr.STATUS_ST, 3), (.wake, Wake.TIMER_S_S, 1), (.wake, Wake.MASK_SRC, 0)]), by decide +kernel⟩,
  ⟨(S [(.pwr, Pwr.STATUS_ST, 3), (.pwr, Pwr.STATUS_PHASE, 1), (.pwr, ⟨Pwr.ISLAND_STATE_MAP.off, 0, 32⟩,
      0)] { State.reset with power := { waking := true, wakeSrcs := 2 } }), by decide +kernel⟩,
  ⟨S [(.wake, Wake.CONSEC_COUNT 20, 9)] { base with power := { unconfirmed := [2 ^ 20 + 1, 4] } }, Src.tp,
      by unfold State.ownerWrites; decide +kernel⟩,
  ⟨(S [(.wake, Wake.CONSEC_COUNT 20, 255)] { State.reset with power := { unconfirmed := [2 ^ 20, 4] } }), 20, [4], by decide +kernel⟩,
  ⟨(S [(.wake, Wake.UNMASK_S_S, 1), (.wake, Wake.MASK_SRC, 2 ^ 20)] { State.reset with power := { autoMasked := 2 ^ 20 + 1 } }), 20,
      by decide +kernel⟩⟩

theorem witness_NetworkCommands :
  (∃ (s : Machine.State) (p : Nat) (l : List Byte) (da : Nat), da = s.fld .nm Nm.CHARM_DA_LO_DA + 2 ^ 32 * s.fld .nm Nm.CHARM_DA_HI_DA ∧
      s.nmOn = true ∧ s.islandCond 4 = 2 ∧ s.nmPort p = true ∧ beAt l 0 6 = da ∧ beAt l 12 2 = s.fld .nm Nm.NM_CFG_ETYPE ∧ byteAt l 14 = 0x11) ∧
  (∃ (s : Machine.State) (p : Nat) (l : List Byte) (da : Nat), da = s.fld .nm Nm.CHARM_DA_LO_DA + 2 ^ 32 * s.fld .nm Nm.CHARM_DA_HI_DA ∧
      s.nmOn = true ∧ s.islandCond 4 = 2 ∧ s.nmPort p = true ∧ beAt l 0 6 = da ∧ beAt l 12 2 = s.fld .nm Nm.NM_CFG_ETYPE ∧ byteAt l 14 = 0x12) ∧
  (∃ (s : Machine.State), s.nmOn = true ∧ s.power.ntRun = true ∧ s.flag .nm Nm.STATUS_NMS = false ∧ s.flag .nm Nm.HOLD_HOLD = false ∧
      s.flag .nm Nm.NM_CFG_AUTO = false) ∧
  (∃ (s : Machine.State) (st : Nat), st = s.fld .nm Nm.NM_CFG_SLEEP_STATE ∧ s.nmOn = true ∧ s.power.ntRun = true ∧ s.flag .nm Nm.STATUS_NMS = false ∧
      s.flag .nm Nm.HOLD_HOLD = false ∧ s.flag .nm Nm.NM_CFG_AUTO = true ∧ s.phase = 0) ∧
  (∃ (s : Machine.State), s.nmOn = true ∧ s.power.ntRun = true ∧ s.flag .nm Nm.STATUS_NMS = false ∧ s.flag .nm Nm.HOLD_HOLD = true) ∧
  (∃ (s : Machine.State) (src : Src) (hold : Bool) (reason : Nat), reason < 256 ∧ s.ownerWrites src .nm) ∧
  (∃ (s : Machine.State) (src : Src) (e : Nat) (auto : Bool) (sl : Nat), e < 65536 ∧ sl < 8 ∧ s.ownerWrites src .nm ∧ (e = 0 ∨ 0x600 ≤ e ∧
      s.etypeTaken.contains e = false)) ∧
  (∃ (s : Machine.State) (src : Src) (e : Nat) (auto : Bool) (sl : Nat), s.ownerWrites src .nm ∧ e ≠ 0 ∧ (e < 0x600 ∨ s.etypeTaken.contains e = true)
      ∧ s.fld .nm Hdr.ERR_CODE_CODE = 0) ∧
  (∃ (s : Machine.State), s.nmOn = true ∧ s.flag .nm Nm.HOLD_HOLD = true) :=
  ⟨⟨nm, 31, (charm 1), _, rfl, by decide +kernel⟩,
  ⟨nm, 31, (charm 2), _, rfl, by decide +kernel⟩,
  ⟨((nm [(.nm, Nm.NM_CFG_AUTO, 0), (.nm, Nm.STATUS_NMS, 0)]).mapPower (fun p => { p with ntRun := true })), by decide +kernel⟩,
  ⟨(nm [(.nm, Nm.NM_CFG_AUTO, 1), (.nm, Nm.STATUS_NMS, 0)]).mapPower (fun p => { p with ntRun := true }), _, rfl, by decide +kernel⟩,
  ⟨((nm [(.nm, Nm.HOLD_HOLD, 1), (.nm, Nm.STATUS_NMS, 0)]).mapPower (fun p => { p with ntRun := true, aonNs := 9 })), by decide +kernel⟩,
  ⟨((nm).mapPower (fun p => { p with aonNs := 9 })), Src.tp, true, 255, by unfold State.ownerWrites; decide +kernel⟩,
  ⟨nm, Src.tp, 0xFFFE, true, 7, by unfold State.ownerWrites; decide +kernel⟩,
  ⟨nm, Src.tp, 0x5FF, true, 7, by unfold State.ownerWrites; decide +kernel⟩,
  ⟨(nm [(.nm, Nm.HOLD_HOLD, 1)]), by decide +kernel⟩⟩

theorem witness_SecurityCommands :
  (∃ (s : Machine.State) (src : Src) (i : Nat), i = s.fld .otp Otp.PROG_ADDR_BIT ∧ s.trustedWrites src .otp ∧ s.fuseAllowed i = true ∧
      s.fuse i = false) ∧
  (∃ (s : Machine.State) (src : Src) (i : Nat), i = s.fld .otp Otp.PROG_ADDR_BIT ∧ s.trustedWrites src .otp ∧
      (s.fuseAllowed i = false ∨ s.fuse i = true) ∧ s.fld .otp Hdr.ERR_CODE_CODE = 0) ∧
  (∃ (s : Machine.State) (n : Nat), n < 7 ∧ (s.fld .lck Lck.TAMPER_EN_EN).testBit n = true) ∧
  (∃ (s : Machine.State) (n : Nat), (s.fld .lck Lck.TAMPER_EN_EN).testBit n = false) ∧
  (∃ (s : Machine.State), s.pageOn .dbg = true ∧ s.fld .dbg Dbg.STATE_ST = 0 ∧ s.signet = true) ∧
  (∃ (s : Machine.State) (k : Nat), (s.lc = 2 ∧ k = 5 ∨ s.lc = 3 ∧ k = 4) ∧ s.tokenOk s.dbgToken 8 k = true ∧ s.pageOn .dbg = true ∧
      s.fld .dbg Dbg.STATE_ST = 0 ∧ s.signet = true ∧ s.sec.locked = false) ∧
  (∃ (s : Machine.State) (k : Nat), s.pageOn .dbg = true ∧ s.fld .dbg Dbg.STATE_ST = 0 ∧ s.signet = true ∧ (s.lc = 2 ∧ k = 5 ∨ s.lc = 3 ∧ k = 4) ∧
      s.sec.locked = false ∧ s.tokenOk s.dbgToken 8 k = false) :=
  ⟨⟨(S [(.otp, Otp.PROG_ADDR_BIT, 195)]), Src.tp, _, rfl, by unfold State.trustedWrites; decide +kernel⟩,
  ⟨(S [(.otp, Otp.PROG_ADDR_BIT, 8191)]), Src.tp, _, rfl, by unfold State.trustedWrites; decide +kernel⟩,
  ⟨({ (S [(.tru, Tru.TP_STATUS_RUNNING, 1)]).mapSec (fun x => { x with keys := [{ id := 9, usage := 1, key := [1] }] }) with mem := { State.reset.mem with locket := State.reset.mem.locket.set 5 1 } }
      |> S [(.lck, Lck.TAMPER_EN_EN, 127)]), 5, by decide +kernel⟩,
  ⟨(S []), 7, by decide +kernel⟩,
  ⟨(dbg 3), by decide +kernel⟩,
  ⟨(keyed 4 ((dbg 3 ((List.range 30).map (fun i => (Page.dbg, Dbg.TOKEN_W_TOKEN i,
      leAt debugToken (4 * i) 4)))).mapSec (fun x => { x with nonce := some (List.replicate 12 0) }))), (4 : Nat),
      .inr ⟨by rw [keyed_lc]; decide +kernel, rfl⟩, Eq.trans (congrArg (fun x => State.tokenOk _ x 8 4)
      (by decide +kernel : State.dbgToken _ = debugToken)) (debugToken_ok _ (by decide +kernel) (by decide +kernel) rfl), by decide +kernel⟩,
  ⟨(dbg 2 |> fun (s : State) => s.mapSec (fun x => { x with nonce := some (List.replicate 12 0) })), (5 : Nat), by decide +kernel⟩⟩

theorem witness_BootCommands :
  (∃ (s : Machine.State), s.bootHdr.slot 0 = 1 ∧ s.bootHdr.slot 1 ≠ 1 ∧ s.imgReason 0 = none ∧ s.romWaits = true ∧ s.warmDue = false ∧
      s.bootHdr.tries ≠ 1) ∧
  (∃ (s : Machine.State), s.romWaits = true ∧ s.warmDue = false ∧ s.bootHdr.tries ≠ 1 ∧ (∀ k, k < 2 → s.bootHdr.slot k ≠ 1 ∧ s.bootHdr.slot k ≠ 3) ∧
      s.procs.rung = []) ∧
  (∃ (s : Machine.State) (w : WakeSeal), s.romWaits = true ∧ s.warmDue = true ∧ s.sec.wakeSeal = some w) ∧
  (∃ (s : Machine.State) (w : WakeSeal) (a n : Nat), s.sec.wakeSeal = some w ∧ s.sec.mainDue = true ∧ partAt w.parts 2 = (a, n)) ∧
  (∃ (s : Machine.State) (a : Nat), s.sec.trialAt = some a ∧ s.signet = true ∧ s.bootHdr.seq + 1 < 2 ^ 32) :=
  ⟨⟨(imageA (hdr 3 1 0 0 (State.reset.setTp 2))), by rw [imageA_bootHdr]; decide +kernel, by rw [imageA_bootHdr]; decide +kernel,
      by rw [imageA_reason _ (by decide +kernel)]; decide +kernel, by decide +kernel⟩,
  ⟨((S []).setTp 2), by decide +kernel⟩,
  ⟨(((S []).setTp 2).mapSec (fun x => { x with wakeSeal := some { parts := [], digests := [], entry := 0 }, fromSleep := true })),
      (({ parts := [], digests := [], entry := 0 } : WakeSeal)), by decide +kernel⟩,
  ⟨(S []).mapSec (fun x => { x with wakeSeal := some { parts := [], digests := [], entry := 0 }, mainDue := true }),
      { parts := [], digests := [], entry := 0 }, 0, 0, by decide +kernel⟩,
  ⟨((S [(.tru, Tru.TP_STATUS_RUNNING, 1)]).mapSec (fun x => { x with trialAt := some 5 })), 5, by decide +kernel⟩⟩

theorem witness_ResetCommands :
  (∃ (s : Machine.State) (l : List (List Nat)), s.rst.off = true) ∧
  (∃ (s : Machine.State) (l : List (List Nat)), s.rst.off = false) ∧
  (∃ (s : Machine.State), s.rst.off = false ∧ s.rst.por = false) ∧
  (∃ (s : Machine.State), s.rst.off = false ∧ s.rst.sys = false ∧ s.rst.por = false) ∧
  (∃ (s : Machine.State), s.rst.off = false ∧ s.rst.sys = false ∧ s.rst.por = true) ∧
  (∃ (s : Machine.State), s.rst.off = false ∧ s.rst.por = true ∧ s.rst.sys = false) ∧
  (∃ (s : Machine.State), s.rst.off = false ∧ s.rst.sys = true ∧ s.rst.por = false) ∧
  (∃ (s : Machine.State) (src : Src), s.trustedWrites src .sys ∧ s.resetHeld = false) ∧
  (∃ (s : Machine.State) (src : Src), s.trustedWrites src .sys ∧ s.resetHeld = false) ∧
  (∃ (s : Machine.State) (src : Src), s.trustedWrites src .sys ∧ s.resetHeld = false) ∧
  (∃ (s : Machine.State), s.signet = true ∧ (∀ m, m < 4 → s.mpSt m ≠ 2) ∧ s.resetHeld = false) ∧
  (∃ (s : Machine.State) (slot : Nat), s.serving slot 0xE30 ∧ s.mayUpdate slot ∧ s.resetHeld = false) ∧
  (∃ (s : Machine.State) (slot goal : Nat), goal = byteAt (s.mbxArg slot) 0 ∧ s.serving slot 0xE02 ∧ s.mayUpdate slot ∧ s.sec.locked = false ∧
      (s.mbxArg slot).length = 120 ∧ s.lcAllowed (s.mbxArg slot) goal = true ∧ (s.lc = 2 → goal = 3 → s.hukSet = true)) ∧
  (∃ (s : Machine.State), s.rst.perst = true) ∧
  (∃ (s : Machine.State) (c : Instr) (src : Src) (bar : Bar) (a : Nat) (l : List Byte) (who : Option (Fin 4)) (kind : AccessKind) (size : Nat) (ecc :
      EccResult), s.resetHeld = true ∧ c ∈ [Instr.registerWrite src bar a l, .misalignedRead src bar a size ecc,
      .processorMemoryAccess who kind a size l ecc, .hostTxFrame [] none, .coldBoot]) :=
  ⟨⟨({ blown [5] with rst := { brown := true } }), (([] : List (List Nat))), by decide +kernel⟩,
  ⟨({ S [] with rst := { off := false } }), (([] : List (List Nat))), by decide +kernel⟩,
  ⟨({ S [(.pwr, Pwr.STATUS_ST, 3), (.pwr, Pwr.STATUS_PHASE, 2)] with rst := { off := false } }), by decide +kernel⟩,
  ⟨{ S [(.pwr, Pwr.STATUS_ST, 3)] with rst := { off := false } }, by decide +kernel⟩,
  ⟨({ S [] with rst := { off := false, por := true } }), by decide +kernel⟩,
  ⟨{ S [] with rst := { off := false, por := true } }, by decide +kernel⟩,
  ⟨{ S [(.tru, Tru.TP_STATUS_RUNNING, 1)] with rst := { off := false, sys := true } }, by decide +kernel⟩,
  ⟨({ S [] with rst := { off := false } }), Src.tp, by unfold State.trustedWrites; decide +kernel⟩,
  ⟨({ S [] with rst := { off := false } }), Src.tp, by unfold State.trustedWrites; decide +kernel⟩,
  ⟨({ S [] with rst := { off := false } }), Src.tp, by unfold State.trustedWrites; decide +kernel⟩,
  ⟨{ S [(.tru, Tru.TP_STATUS_RUNNING, 1)] with rst := { off := false } }, by decide +kernel⟩,
  ⟨({ ask 1 0xE30 [] with rst := { off := false } }), 1, by unfold State.serving State.mayUpdate; decide +kernel⟩,
  ⟨(ask 1 0xE02 (5 :: List.replicate 119 0)), 1, _, rfl, by unfold State.serving State.mayUpdate; decide +kernel⟩,
  ⟨{ base with rst := { base.rst with perst := true } }, by decide +kernel⟩,
  ⟨{ base with rst := { base.rst with sys := true } }, .coldBoot, Src.tp, Bar.bar0, 0, [], none, AccessKind.load, 4, EccResult.clean,
      by decide +kernel⟩⟩

theorem witness_SiliconCommands :
  (∃ (s : Machine.State) (src : Src) (i v : Nat), i < 14 ∧ s.ownerWrites src .clk ∧ v ≤ s.vCeil i ∧ v ≤ 24) ∧
  (∃ (s : Machine.State) (src : Src) (i v : Nat), s.ownerWrites src .clk ∧ (s.vCeil i < v ∨ 24 < v) ∧ s.fld .clk Hdr.ERR_CODE_CODE = 0) ∧
  (∃ (s : Machine.State) (i : Nat) (x : Sensor) (g : Nat), i < 14 ∧ s.power.vMove.get i = some g ∧ s.vNow i < g ∧ g < 32) ∧
  (∃ (s : Machine.State) (i : Nat) (x : Sensor) (g : Nat), i < 14 ∧ s.power.vMove.get i = some g ∧ g < s.vNow i ∧
      s.mMin ≤ s.marginWc i x.margin x.temp) ∧
  (∃ (s : Machine.State) (i : Nat) (x : Sensor) (g : Nat), i < 14 ∧ s.power.vMove.get i = some g ∧ g < s.vNow i ∧
      s.marginWc i x.margin x.temp < s.mMin ∧ s.fld .clk Hdr.ERR_CODE_CODE = 0) ∧
  (∃ (s : Machine.State) (i : Nat), i < 14 ∧ s.vNow i < s.vCeil i) ∧
  (∃ (s : Machine.State) (i : Nat), i < 14 ∧ s.fld .clk (Clk.ISL_F_K i) ≠ s.fld .clk (Clk.ISL_F_KNOW i) ∧ s.awaits .clk = false) ∧
  (∃ (s : Machine.State) (i : Nat) (high : Bool), i < 16 ∧ (s.fld .gpio Gpio.IN_LEVEL).testBit i ≠ high) ∧
  (∃ (s : Machine.State) (off v : Nat), s.pageOn .scr = true ∧ off + 4 ≤ 0x200000) ∧
  (∃ (s : Machine.State) (off : Nat), s.pageOn .scr = true ∧ off + 4 ≤ 0x200000) :=
  ⟨⟨(S [(.clk, Clk.ISL_V_V_CEIL 13, 24), (.clk, Clk.ISL_V_VNOW 13, 3)]), Src.tp, 13, 24, by unfold State.ownerWrites; decide +kernel⟩,
  ⟨(S [(.clk, Clk.ISL_V_V_CEIL 13, 31)]), Src.tp, 13, 25, by unfold State.ownerWrites; decide +kernel⟩,
  ⟨(S [(.clk, Clk.ISL_V_VNOW 13, 23)] { State.reset with power := { vMove := State.reset.power.vMove.set 13 (some 24) } }), 13, ({} : Sensor), 24,
      by decide +kernel⟩,
  ⟨S [(.clk, Clk.ISL_V_VNOW 13, 23)] { base with power := { vMove := State.reset.power.vMove.set 13 (some 22) } }, 13,
      { margin := 1023, temp := 25 }, 22, by decide +kernel⟩,
  ⟨S [(.clk, Clk.ISL_V_VNOW 13, 23), (.age, Age.CFG_M_MIN, 5)] { base with power := { vMove := State.reset.power.vMove.set 13 (some 22) } }, 13, {},
      22, by decide +kernel⟩,
  ⟨(S [(.clk, Clk.ISL_V_VNOW 13, 3), (.clk, Clk.ISL_V_V_CEIL 13, 24)]), 13, by decide +kernel⟩,
  ⟨(S [(.clk, Clk.ISL_F_K 13, 3), (.clk, Clk.ISL_F_KNOW 13, 2)]), 13, by decide +kernel⟩,
  ⟨(S [(.gpio, Gpio.RISE_EN, 0x8000)]), 15, true, by decide +kernel⟩,
  ⟨(S []), 0x1FFFFC, 0x11223344, by decide +kernel⟩,
  ⟨((S []).scratchWrite .host 0x21FFFFC [1, 2, 3, 4]), 0x1FFFFC, by decide +kernel⟩⟩

theorem witness_ProcessorAccesses :
  (∃ (s : Machine.State) (off size : Nat), s.tpRuns = true ∧ 0 < size ∧ off + size ≤ 0x60000) ∧
  (∃ (s : Machine.State) (off : Nat) (d : List Byte), s.tpRuns = true ∧ d ≠ [] ∧ off + d.length ≤ 0x60000) ∧
  (∃ (s : Machine.State) (m : Fin 4) (off size : Nat), s.mpRuns m.val = true ∧ 0 < size ∧ off + size ≤ 0xC00000) ∧
  (∃ (s : Machine.State) (m : Fin 4) (off size : Nat), s.mpRuns m.val = true ∧ 0 < size ∧ off + size ≤ 0xC00000 ∧ s.cached false m.val off = false ∧
      s.fld .mpc Hdr.ERR_CODE_CODE = 0) ∧
  (∃ (s : Machine.State) (m : Fin 4) (a size : Nat), s.mpRuns m.val = true ∧ 0 < size ∧ 0x104000000 ≤ a ∧ a < 0x1000000000 ∧
      s.fld .mpc Hdr.ERR_CODE_CODE = 0) ∧
  (∃ (s : Machine.State) (m : Fin 4) (a size : Nat) (d : List Byte) (ecc : EccResult), s.mpRuns m.val = true) ∧
  (∃ (s : Machine.State) (m : Fin 4) (a size : Nat) (d : List Byte) (ecc : EccResult), s.mpRuns m.val = true) ∧
  (∃ (s : Machine.State) (off size : Nat), s.tpRuns = true ∧ 0 < size ∧ off + size ≤ 0x40000 ∧ s.fld .tru Hdr.ERR_CODE_CODE = 0) ∧
  (∃ (s : Machine.State) (off size : Nat), s.tpRuns = true ∧ 0 < size ∧ off + size ≤ 0x40000) :=
  ⟨⟨(S []), 0x5FFF8, 8, by decide +kernel⟩,
  ⟨(S []), 0x5FFFC, (([1, 2, 3, 4] : List Byte)), by decide +kernel⟩,
  ⟨mp3, (3 : Fin 4), 0xBFFFF8, 8, by decide +kernel⟩,
  ⟨mp3, (3 : Fin 4), 0xBFFFF8, 8, by decide +kernel⟩,
  ⟨mp3, (3 : Fin 4), 0xFFFFFFFF8, 8, by decide +kernel⟩,
  ⟨mp3, 3, 0, 4, [], .clean, by decide +kernel⟩,
  ⟨mp3, 3, 0, 4, [], .clean, by decide +kernel⟩,
  ⟨base, 0x3FFF8, 8, by decide +kernel⟩,
  ⟨base, 0x3FFF8, 8, by decide +kernel⟩⟩

theorem witness_StepKeepsInvariant :
  ∃ (s t : Machine.State), s.Inv ∧ step s = .next t :=
  ⟨({ State.reset with pending := [.coldBoot] }), _, ⟨by decide +kernel, fun _ => Or.inl rfl⟩, rfl⟩

theorem witness_FusesNeverClear :
  ∃ (s t : Machine.State) (i : Nat), step s = .next t ∧ s.mem.otp.get i = 1 :=
  ⟨({ blown [5] with pending := [.coldBoot] }), _, 5, rfl, by decide +kernel⟩

theorem witness_StepConsumesTheFront :
  ∃ (s t : Machine.State), step s = .next t :=
  ⟨({ State.reset with pending := [.coldBoot] }), _, rfl⟩

theorem witness_FrameOfEveryCommand :
  (∃ (c : Instr) (s t : Machine.State) (q : Component), exec c s = .next t ∧ q ∉ mayChange c) ∧
  (∃ (s t : Machine.State) (src : Src) (a v p b k w : Nat) (c : Instr) (at' x : Nat), exec c s = .next t ∧ (c, at') ∈ [(Instr.bankWrite src a v, a),
      (.gateListWrite src p b k w v, gateAddr p b k + 4 * w), (.connPageWrite src a v, a)] ∧ (x < at' ∨ at' + 4 ≤ x)) ∧
  (∃ (s t : Machine.State) (src : Src) (p : Page) (off v n : Nat) (shadow : Bool) (x : Option Nat) (ecc : EccResult) (c : Instr) (a : Nat),
      exec c s = .next t ∧ c ∈ [Instr.shadowWrite src p off v, .tabDataAccess src p shadow x ecc, .commitRequest src p, .commitAbandon src p,
      .errClear src p, .snap src p, .ownerWrite src p n, .ownerLock src p, .evtClr src p v, .evtRouteWrite src n v, .mdioRead src n,
      .mdioWrite src n, .tc10SleepReq src n, .tc10WakeReq src n, .bankWrite src off v, .fibStageWrite src off v, .fibEntryApply src off v,
      .stageClr src, .meterClr src v, .adjWrite src n v, .slewCfgWrite src v, .domainStep src n, .domainSet src n, .tsnap src, .txtsPop src,
      .nodeWrite src n shadow, .roleCmdTake src, .roleCmdYield src, .roleCmdForce src, .traceRelease src, .fwWdogKick src, .mpStart src n,
      .mpGo src n, .mringTail src n v, .canRecover src n, .pnSleepReq src n, .pnWakeReq src n, .linSleepReq src n, .linWakeReq src n,
      .connPageWrite src off v, .jobGo src n, .donePop src n, .keyLoad src, .keyZero src, .pwlogPop src, .rxTailDoorbell src n v,
      .txTailDoorbell src n v, .dmaDoorbell src n v, .dmaResume src n, .dmaSkip src n, .dbSet src v, .powerReqRun src, .powerReqPartial src,
      .powerReqDoze src, .powerReqSleep src, .wakeConfirm src, .nmHoldWrite src shadow v, .nmEtypeWrite src n shadow v, .otpProgram src,
      .dbgChalReq src, .vreqWrite src n v] ∧ (∀ m, src = .mp m → ∀ e ∈ s.procs.wbuf.get m.val, ∀ b ∈ e.bytes, b.1 ≠ a)) ∧
  (∃ (s t : Machine.State) (src : Src) (n : Nat) (c : Instr) (a : Nat), exec c s = .next t ∧ (∀ m, ∀ e ∈ s.procs.wbuf.get m, ∀ b ∈ e.bytes,
      b.1 ≠ a) ∧ c ∈ [Instr.mpFenceReq src n, .mpFenceDrained n, .mpcFence src]) ∧
  (∃ (s t : Machine.State) (slot : Nat) (w : Nat × Nat) (c : Instr) (a : Nat), exec c s = .next t ∧ c ∈ [Instr.imgBegin slot, .imgStage slot,
      .imgCommit slot, .imgAbandon slot, .tpRestartDone w, .trialExpired, .coldBoot] ∧ (∀ k, k < 2 → a < hdrBase k ∨ hdrBase k + 12 ≤ a)) ∧
  (∃ (s t : Machine.State) (slot : Nat) (c : Instr) (a : Nat), exec c s = .next t ∧ c ∈ [Instr.keyPut slot, .keyPutWrapped slot, .keyDelete slot,
      .keyCountSync] ∧ s.sec.keys.length ≤ 2048 ∧ (a < sealBase 0 ∨ sealBase 2 ≤ a)) ∧
  (∃ (s t : Machine.State) (slot : Nat) (bad : Bool) (c : Instr) (d : Option Delivery) (base : Nat → Nat) (a : Nat), (c, d,
      base) ∈ [(Instr.imgBlock slot bad, s.sec.img, imgBase), (.recBlock slot bad, s.sec.recDel, recBase)] ∧ exec c s = .next t ∧ (∀ e,
      d = some e → a < base e.slot + leAt (s.mbxArg slot) 0 4 ∨ base e.slot + leAt (s.mbxArg slot) 0 4 + leAt (s.mbxArg slot) 4 4 ≤ a)) ∧
  (∃ (s t : Machine.State) (slot a : Nat), exec (.recSeal slot) s = .next t ∧ (a < recBase s.recTarget ∨ recBase (s.recTarget + 1) ≤ a)) ∧
  (∃ (s t : Machine.State) (slot a : Nat), exec (.ageSave slot) s = .next t ∧ (a < ageBase 0 ∨ ageBase 2 ≤ a)) :=
  ⟨⟨Instr.coldBoot, base, _, .tap, rfl, by decide +kernel⟩,
  ⟨base, _, Src.tp, 0x1000000, 1, 0, 0, 0, 0, .bankWrite Src.tp 0x1000000 1, 0x1000000, 0x1000004, rfl, by decide +kernel⟩,
  ⟨(mp3).mapProcs (fun p => { p with wbuf := p.wbuf.set 3 [⟨1, [(8, 7)]⟩] }), _, Src.mp 3, Page.sys, 0x800, 1, 0, true, none, EccResult.clean,
      .errClear (Src.mp 3) Page.sys, 9, rfl, by decide +kernel⟩,
  ⟨base, _, Src.tp, 3, .mpFenceDrained 3, 5, rfl, fun m e he => (nomatch he), by decide +kernel⟩,
  ⟨base, _, 4, (0, 0), .trialExpired, 12, rfl, by decide +kernel⟩,
  ⟨base, _, 4, .keyCountSync, 0xA0000, rfl, by decide +kernel⟩,
  ⟨(ask 4 0xD02 []).mapSec (fun x => { x with img := some (({ slot := 1, length := 5 } : Delivery)) }), _, 4, false, .imgBlock 4 false,
      some { slot := 1, length := 5 }, imgBase, 5, List.Mem.head _, rfl, fun e h => by cases h; decide +kernel⟩,
  ⟨base, _, 4, 5, rfl, by decide +kernel⟩,
  ⟨base, _, 4, 5, rfl, by decide +kernel⟩⟩

theorem witness_FrameOfRegisterCommands :
  (∃ (s : Machine.State) (src : Src) (p : Page) (v : Nat) (c : Instr) (offs : List Nat) (parts : List Component), (c, offs,
      parts) ∈ [(Instr.errClear src p, [Hdr.ERR_CODE_CODE.off, Hdr.ERR_INFO_SRC.off, Hdr.ERR_ADDR_LO_ADDR.off, Hdr.ERR_ADDR_HI_ADDR.off],
      [Component.regs]), (.snap src p, [Hdr.SNAP_TIME_NS.off], [.regs, .snapshot]), (.evtClr src p v, [Hdr.EVT_RAW_RAW.off], [.regs, .counters,
      .pcie, .out])] ∧ s.ownerWrites src p) ∧
  (∃ (s : Machine.State) (src : Src) (p : Page) (cls : Nat) (c : Instr), (c = Instr.ownerWrite src p cls ∨ c = .ownerLock src p) ∧
      s.trustedWrites src p ∧ s.flag p Hdr.OWNER_LOCKED = false) ∧
  (∃ (s : Machine.State) (src : Src) (k v : Nat) (p : Page) (c : Instr) (offs : List Nat) (parts : List Component), (p, c, offs, parts) ∈ [(Page.sys,
      Instr.evtRouteWrite src k v, [(Sys.EVT_ROUTE_VECTOR k).off], [Component.regs, .counters, .pcie, .out]), (.time, .tsnap src,
      [Time.TSNAP_LOCAL_LO_NS.off, Time.TSNAP_LOCAL_HI_NS.off] ++ (List.range 4).flatMap (fun d => [(Time.TSNAP_D_NS_NS d).off,
      (Time.TSNAP_D_S_LO_S d).off, (Time.TSNAP_D_S_HI_S d).off]), [.regs]), (.mpc, .mringTail src k v, [(Mpc.MRING_TAIL_TAIL k).off], [.regs]),
      (.ring, .rxTailDoorbell src k v, [(Ring.RX_TAIL_TAIL k).off], [.regs]), (.ring, .txTailDoorbell src k v, [(Ring.TX_TAIL_TAIL k).off], [.regs]),
      (.scr, .dbSet src v, [Hdr.EVT_RAW_RAW.off], [.regs, .counters, .pcie, .out])] ∧ s.ownerWrites src p) :=
  ⟨⟨base, Src.tp, Page.clk, 1, (Instr.errClear Src.tp Page.clk), [Hdr.ERR_CODE_CODE.off, Hdr.ERR_INFO_SRC.off, Hdr.ERR_ADDR_LO_ADDR.off,
      Hdr.ERR_ADDR_HI_ADDR.off], [Component.regs], List.Mem.head _, by unfold State.ownerWrites; decide +kernel⟩,
  ⟨(S []), Src.tp, Page.clk, 1, (Instr.ownerLock Src.tp Page.clk), .inr rfl, by unfold State.trustedWrites; decide +kernel⟩,
  ⟨base, Src.tp, 265, 1, Page.sys, (Instr.evtRouteWrite Src.tp 265 1), [(Sys.EVT_ROUTE_VECTOR 265).off], [.regs, .counters, .pcie, .out],
      List.Mem.head _, by unfold State.ownerWrites; decide +kernel⟩⟩

theorem witness_ChannelsKeepApart :
  (∃ (s t : Machine.State) (n m : Nat) (f : CanFrame) (dlc ago lec : Nat) (tx big sign : Bool) (src : Src), (∃ c,
      c ∈ [Instr.canFrameReceived n f dlc ago, .canArbitrationStart n, .canTxDone n, .canError n lec tx big ago, .boHoldExpiry n, .canRecover src n,
      .canIntegrated n, .canRecovered n, .pnSleepReq src n, .pnWakeReq src n, .pnListenEnter n, .cmacJobDone n sign, .cmacJobTimeout n sign] ∧
      exec c s = .next t) ∧ n ≠ m) ∧
  (∃ (s t : Machine.State) (n m i rate : Nat) (ok : Bool) (data : List Byte) (check : Byte) (k ago : Nat) (src : Src), (∃ c,
      c ∈ [Instr.linScheduleSlot n, .linHeaderReceived n i rate ok, .linResponseReceived n data check k ago, .linNoResponse n, .linSleepReq src n,
      .linWakeReq src n, .linGoToSleepReceived n, .linIdleTimeout n, .linDominantWake n, .linScheduleRestart n] ∧ exec c s = .next t) ∧ n ≠ m) ∧
  (∃ (s t : Machine.State) (n m pos k : Nat) (frame : List Byte) (pin : Bool) (x : Nat), (∃ c, c ∈ [Instr.slot0Received n pos k frame,
      .mfSearchTimeout n, .losRise n pin x, .losClear n pin x, .performanceSecond n] ∧ exec c s = .next t) ∧ n ≠ m) ∧
  (∃ (s t : Machine.State) (n m : Nat) (img : List (Nat × List Byte)) (bad : Option (Nat × Nat)) (z : Bool) (corr : Nat × Nat) (src : Src), (∃ c,
      c ∈ [Instr.jobGo src n, .cipherJobDone n img bad z corr, .donePop src n] ∧ exec c s = .next t) ∧ n ≠ m) :=
  ⟨⟨State.reset, _, 1, 2, ({ id := 0 } : CanFrame), 0, 0, 0, false, false, false, Src.tp, ⟨.boHoldExpiry 1, by decide +kernel, rfl⟩, by decide +kernel⟩,
  ⟨State.reset, _, 1, 2, 0, 0, false, [], 0, 0, 0, Src.tp, ⟨.linScheduleSlot 1, by decide +kernel, rfl⟩, by decide +kernel⟩,
  ⟨State.reset, _, 1, 2, 0, 0, [], true, 0, ⟨.losRise 1 true 0, by decide +kernel, rfl⟩, by decide +kernel⟩,
  ⟨State.reset, _, 1, 2, [], none, false, (0, 0), Src.tp, ⟨.jobGo Src.tp 1, by decide +kernel, rfl⟩, by decide +kernel⟩⟩

theorem witness_WakePattern :
  ∃ (s : Machine.State) (n : Nat) (f : CanFrame) (dlc pat : Nat), pat = s.fld (.can n) Can.PN_DATA_LO_MASK + 2 ^ 32 * s.fld (.can n)
      Can.PN_DATA_HI_MASK :=
  ⟨(S [(.can 63, Can.PN_DATA_LO_MASK, 1)]), 63, (({ id := 0 } : CanFrame)), 8, _, rfl⟩

theorem witness_ImageVersionRules :
  (∃ (s : Machine.State) (slot : Nat) (d : Delivery), s.serving slot 0xD03 ∧ s.mayUpdate slot ∧ s.sec.img = some d) ∧
  (∃ (s : Machine.State) (slot : Nat) (d : Delivery), s.mayUpdate slot ∧ (s.imgReason d.slot = none ∨ s.imgReason d.slot = some 9) ∧
      ¬s.versionsHold d.slot ∧ s.serving slot 0xD03 ∧ s.sec.img = some d ∧ s.sec.staged = none ∧ d.complete = true ∧ (∀ c,
      c < 3 → s.compOff d.slot c + s.compLen d.slot c ≤ d.length)) :=
  ⟨⟨((ask 1 0xD03 []).mapSec (fun x => { x with img := some (({ slot := 0, length := 0 } : Delivery)) })), 1,
      (({ slot := 0, length := 0 } : Delivery)), by unfold State.serving State.mayUpdate; decide +kernel⟩,
  ⟨(imageA ((blown [128] (ask 1 0xD03 [])).mapSec (fun x => { x with img := some (({ slot := 0, length := 0 } : Delivery)) }))), 1,
      (({ slot := 0, length := 0 } : Delivery)), ⟨by decide +kernel, by rw [imageA_lc]; decide +kernel⟩,
      .inr (by rw [imageA_reason _ (by decide +kernel)]; decide +kernel),
      fun h => absurd h.1 (by rw [imageA_secVersion, imageA_num _ 16 1 (by decide)]; decide +kernel), by unfold State.serving; decide +kernel⟩⟩

theorem witness_CorrectedMargin :
  ∃ (s : Machine.State) (l : List Sensor), (∀ r ∈ l, r.margin < 1024 ∧ -256 ≤ r.temp ∧ r.temp < 256) :=
  ⟨State.reset, (([{ margin := 5, cu := 5, cs := 4, temp := 25 }] : List Sensor)), by decide +kernel⟩

theorem witness_MatchRecovery :
  ∃ (s : Machine.State) (n seq : Nat) (f g : FrerFn) (t : Machine.State), f = s.frerFn n ∧ t = (s.frerMatch n seq).2 ∧ g = t.frerFn n :=
  ⟨State.reset, 2047, 5, _, _, _, rfl, rfl, rfl⟩

end Sys2Proof.Tests
end

/-! Sequence recovery (R263–R268): what the counts, passes and discards of a function do to its record and its counters, and the match algorithm
of R266 branch by branch. -/
namespace Sys2Proof.Machine
section
variable (s : State) (n : Nat)

/-! ## The counters and the record of a recovery function -/

/-- A count under `i` is seen by that counter of the function and by no other of it. -/
theorem State.cntTab_frerCount (i j k : Nat) :
    (s.frerCount n i k).cntTab .frer 2 n j = s.cntTab .frer 2 n j + if j = i then k else 0 := by
  unfold State.frerCount State.cntTab
  rw [State.bumpTab_counters]
  by_cases h : j = i
  · rw [h, Sparse.get_modify_same, if_pos rfl]
  · have hkey : 2 ^ 32 + tabKey .frer 2 n j ≠ 2 ^ 32 + tabKey .frer 2 n i := by unfold tabKey; omega
    rw [Sparse.get_modify_other _ _ _ _ hkey, if_neg h, Nat.add_zero]

@[simp] theorem State.frerFn_frerCount (i k m : Nat) : (s.frerCount n i k).frerFn m = s.frerFn m := rfl

@[simp] theorem State.frerCount_now (i k : Nat) : (s.frerCount n i k).now = s.now := rfl

@[simp] theorem State.frerFn_mapFrer_same (f : FrerFn → FrerFn) : (s.mapFrer n f).frerFn n = f (s.frerFn n) :=
  Sparse.get_modify_same s.frer n f

@[simp] theorem State.cntTab_mapFrer (f : FrerFn → FrerFn) (p : Page) (t e k : Nat) : (s.mapFrer n f).cntTab p t e k = s.cntTab p t e k := rfl

/-! ## A pass and a discard -/

@[simp] theorem State.frerFn_frerPass (f : FrerFn → FrerFn) :
    (s.frerPass n f).frerFn n = { f (s.frerFn n) with last := s.now, passed := ((s.frerFn n).passed + 1) % 65536 } := by
  simp [State.frerPass]

theorem State.cntTab_frerPass (f : FrerFn → FrerFn) (j : Nat) :
    (s.frerPass n f).cntTab .frer 2 n j = s.cntTab .frer 2 n j + if j = 0 then 1 else 0 := by
  rw [State.frerPass, State.cntTab_frerCount, State.cntTab_mapFrer]

@[simp] theorem State.frerFn_frerDiscard (i : Nat) :
    (s.frerDiscard n i).frerFn n = { s.frerFn n with discarded := ((s.frerFn n).discarded + 1) % 65536 } := by
  simp [State.frerDiscard]

theorem State.cntTab_frerDiscard (i j : Nat) :
    (s.frerDiscard n i).cntTab .frer 2 n j = s.cntTab .frer 2 n j + if j = i then 1 else 0 := by
  rw [State.frerDiscard, State.cntTab_frerCount, State.cntTab_mapFrer]

/-! ## The match algorithm (R266) -/

/-- The out-of-order count of R266, which the algorithm makes before the pass: OUT_OF_ORDER counts where the function knows a number and `seq`
does not follow it. -/
def State.frerOrder (seq : Nat) : State :=
  if (s.frerFn n).takeAny = false ∧ seq ≠ ((s.frerFn n).recov + 1) % 65536 then s.frerCount n 2 else s

@[simp] theorem State.frerFn_frerOrder (seq m : Nat) : (s.frerOrder n seq).frerFn m = s.frerFn m := by
  unfold State.frerOrder; split <;> rfl

@[simp] theorem State.frerOrder_now (seq : Nat) : (s.frerOrder n seq).now = s.now := by
  unfold State.frerOrder; split <;> rfl

theorem State.cntTab_frerOrder_passed (seq : Nat) : (s.frerOrder n seq).cntTab .frer 2 n 0 = s.cntTab .frer 2 n 0 := by
  unfold State.frerOrder
  split
  · rw [State.cntTab_frerCount, if_neg (by decide), Nat.add_zero]
  · rfl

theorem State.cntTab_frerOrder_outOfOrder (seq : Nat) : (s.frerOrder n seq).cntTab .frer 2 n 2 = s.cntTab .frer 2 n 2 +
    if (s.frerFn n).takeAny = false ∧ seq ≠ ((s.frerFn n).recov + 1) % 65536 then 1 else 0 := by
  unfold State.frerOrder
  split
  · rw [State.cntTab_frerCount, if_pos rfl]
  · rfl

/-- A repeat of RECOV is discarded. -/
theorem State.frerMatch_of_repeat {seq : Nat} (ha : (s.frerFn n).takeAny = false) (hs : seq = (s.frerFn n).recov) :
    s.frerMatch n seq = (false, s.frerDiscard n 1) := by
  simp [State.frerMatch, ha, hs]

/-- Any other number, and the first one under TAKE_ANY, is passed and taken as RECOV. -/
theorem State.frerMatch_of_fresh {seq : Nat} (h : (s.frerFn n).takeAny = true ∨ seq ≠ (s.frerFn n).recov) :
    s.frerMatch n seq = (true, (s.frerOrder n seq).frerPass n (fun x => { x with recov := seq, takeAny := false })) := by
  have hfresh : ¬((s.frerFn n).takeAny = false ∧ seq = (s.frerFn n).recov) := by
    rintro ⟨hany, hseq⟩
    rcases h with hfirst | hnew
    · rw [hany] at hfirst
      contradiction
    · exact hnew hseq
  simp only [State.frerMatch, State.frerOrder, Bool.not_eq_true', if_neg hfresh]
end

/-- Settles O60: a repeat of RECOV is the algorithm's discard, every other pass its out-of-order count and then its pass. -/
theorem matchRecovery : Obligations.MatchRecovery := by
  unfold Obligations.MatchRecovery
  rintro s n seq f g t rfl rfl rfl
  constructor
  · intro hany hseq
    rw [State.frerMatch_of_repeat s n hany hseq]
    exact ⟨rfl, s.frerFn_frerDiscard n 1, s.cntTab_frerDiscard n 1 1⟩
  · intro hfresh
    rw [State.frerMatch_of_fresh s n hfresh]
    refine ⟨rfl, by rw [State.frerFn_frerPass, State.frerFn_frerOrder, State.frerOrder_now], ?_, ?_⟩
    · rw [State.cntTab_frerPass, State.cntTab_frerOrder_passed, if_pos rfl]
    · rw [State.cntTab_frerPass, if_neg (by decide : ¬2 = 0), Nat.add_zero, State.cntTab_frerOrder_outOfOrder]

end Sys2Proof.Machine

/-! The wake pattern of a CAN channel (R336): the model compares the frame's first eight data bytes with PN_DATA as one little-endian number, and
the rule speaks of byte j and PN_DATA bits [8j + 7:8j]. -/
namespace Sys2Proof.Machine

/-! ## Bits in common, byte by byte -/

theorem byteAt_lt (l : List Byte) (i : Nat) : byteAt l i < 256 := (l.getD i 0).isLt

@[simp] theorem leAt_zero (l : List Byte) (i : Nat) : leAt l i 0 = 0 := rfl

/-- The first byte of a little-endian number is its lowest, and the bytes after it are the rest. -/
theorem leAt_succ (l : List Byte) (i n : Nat) : leAt l i (n + 1) = byteAt l i + 256 * leAt l (i + 1) n := by
  simp only [leAt, leNat, byteAt, List.range_succ_eq_map, List.map_cons, List.map_map, Function.comp_def, Nat.add_zero, Nat.succ_eq_add_one,
    Nat.add_assoc, Nat.add_comm 1]

/-- Two numbers have a bit in common in their lowest bytes or above them. -/
theorem and_ne_zero_iff_low_or_high (x y : Nat) : x &&& y ≠ 0 ↔ x % 256 &&& y % 256 ≠ 0 ∨ x / 256 &&& y / 256 ≠ 0 := by
  have hlow : (x &&& y) % 256 = x % 256 &&& y % 256 := @Nat.and_mod_two_pow x y 8
  have hhigh : (x &&& y) / 256 = x / 256 &&& y / 256 := @Nat.and_div_two_pow x y 8
  rw [← hlow, ← hhigh]
  omega

/-- A little-endian number has a bit in common with `pat` exactly where one of its bytes has one with its byte of `pat`. -/
theorem leAt_and_ne_zero_iff (l : List Byte) (i n pat : Nat) :
    leAt l i n &&& pat ≠ 0 ↔ ∃ j, j < n ∧ byteAt l (i + j) &&& (pat / 2 ^ (8 * j) % 256) ≠ 0 := by
  induction n generalizing i pat with
  | zero => simp
  | succ n ih =>
    have hlow : leAt l i (n + 1) % 256 = byteAt l i := by
      rw [leAt_succ, Nat.add_mul_mod_self_left, Nat.mod_eq_of_lt (byteAt_lt l i)]
    have hhigh : leAt l i (n + 1) / 256 = leAt l (i + 1) n := by
      rw [leAt_succ, Nat.add_mul_div_left _ _ (by decide), Nat.div_eq_of_lt (byteAt_lt l i), Nat.zero_add]
    have hshift : ∀ j, pat / 256 / 2 ^ (8 * j) = pat / 2 ^ (8 * (j + 1)) := fun j => by
      rw [Nat.div_div_eq_div_mul, Nat.mul_add, Nat.pow_add, Nat.mul_comm]
    rw [and_ne_zero_iff_low_or_high, hlow, hhigh, ih, Nat.exists_lt_succ_left]
    simp only [hshift, Nat.mul_zero, Nat.pow_zero, Nat.div_one, Nat.add_zero, Nat.add_assoc, Nat.add_comm 1]

/-! ## The rule -/

/-- The data line of R336: a PN_DATA of 0 asks for nothing, and any other for a data byte with a bit of its own. -/
theorem wakeData_iff (l : List Byte) (pat : Nat) :
    (pat == 0 || leAt l 0 8 &&& pat != 0) = true ↔ (pat ≠ 0 → ∃ j, j < 8 ∧ byteAt l j &&& (pat / 2 ^ (8 * j) % 256) ≠ 0) := by
  rw [Bool.or_eq_true, beq_iff_eq, bne_iff_ne, leAt_and_ne_zero_iff, Decidable.or_iff_not_imp_left]
  simp only [Nat.zero_add, ne_eq]

/-- Settles O57: the model's test is the conjunction of the rule's lines, and its data line is the rule's byte by byte. -/
theorem wakePattern : Obligations.WakePattern := by
  unfold Obligations.WakePattern
  rintro s n f dlc pat rfl
  have hdlc : (!s.flag (.can n) Can.PN_CFG_DLC_EN || dlc == s.fld (.can n) Can.PN_CFG_DLC) = true ↔
      (s.flag (.can n) Can.PN_CFG_DLC_EN = true → dlc = s.fld (.can n) Can.PN_CFG_DLC) := by
    rw [Bool.or_eq_true, Bool.not_eq_true', beq_iff_eq, ← Bool.not_eq_true, ← Decidable.imp_iff_not_or]
  simp only [State.pnMatch, Bool.and_eq_true, Bool.not_eq_true', beq_iff_eq, hdlc, wakeData_iff, and_assoc, @eq_comm _ f.eff]

end Sys2Proof.Machine

/-! The version rules of an image (R461): IMG_VERIFY looks for a REASON in the order of the checks, the fuses' SEC_VERSION among those of the boot
ROM, and compares the versions of the new image and the running one last. -/
namespace Sys2Proof.Machine
section
variable {s : State} {d : Delivery} {slot r : Nat}

/-! ## What the REASON of a delivered image says of its versions -/

/-- An image in which the boot ROM's checks find no fault has a security version that the fuses allow. -/
theorem State.secVersion_le_of_imgReason_none {k : Nat} (h : s.imgReason k = none) : s.secVersion ≤ s.img k 16 1 := by
  have hcheck : s.imgCheck k = none := by
    unfold State.imgReason at h
    split at h
    · contradiction
    · assumption
  simp only [State.imgCheck] at hcheck
  split at hcheck
  next => exact nomatch hcheck
  split at hcheck
  next => exact nomatch hcheck
  split at hcheck
  next => exact nomatch hcheck
  split at hcheck
  next => exact nomatch hcheck
  next hallowed => exact Nat.not_lt.mp hallowed

/-- What the boot ROM's checks find comes before the comparison of versions. -/
theorem State.verifyReason_of_rejected (hc : d.complete = true) (h : s.imgReason d.slot = some r) : s.verifyReason d = some r := by
  simp [State.verifyReason, hc, h]

/-- A whole image in which the boot ROM's checks find no fault can fail for its versions alone. -/
theorem State.verifyReason_of_checked (hc : d.complete = true) (hfit : ∀ c, c < 3 → s.compOff d.slot c + s.compLen d.slot c ≤ d.length)
    (h : s.imgReason d.slot = none) : s.verifyReason d = none ∨ s.verifyReason d = some 10 := by
  have hin : ¬∃ c, c < 3 ∧ d.length < s.compOff d.slot c + s.compLen d.slot c := fun ⟨c, hlt, hout⟩ => Nat.not_le_of_lt hout (hfit c hlt)
  simp only [State.verifyReason, hc, h, List.any_eq_true, List.mem_range, decide_eq_true_eq, hin, Bool.not_true, Bool.false_eq_true, if_false]
  split
  · exact .inl rfl
  · split
    · exact .inr rfl
    · exact .inl rfl

/-- An image in which no fault is found meets the three conditions of R461. -/
theorem State.versionsHold_of_verifyReason_none (h : s.verifyReason d = none) : s.versionsHold d.slot := by
  unfold State.verifyReason at h
  split at h
  · contradiction
  · split at h
    · contradiction
    next hrom =>
      refine ⟨State.secVersion_le_of_imgReason_none hrom, fun a hrun => ?_⟩
      rw [hrun] at h
      split at h
      · contradiction
      · simp only [ite_eq_right_iff, reduceCtorEq, imp_false, not_or, Nat.not_lt] at h
        exact h

/-! ## What IMG_VERIFY answers -/

/-- What holds after `imgVerify` holds after the command, where the slot is served its IMG_VERIFY. -/
theorem completes_imgVerify {post : State → Prop} (hserv : s.serving slot 0xD03) (h : post (s.imgVerify slot)) :
    Completes (.imgVerify slot) s post :=
  ⟨_, rfl, fun hrun => by rw [State.live_runs s _ hrun, State.mbxRun_serving s _ _ _ hserv]; exact h⟩

/-- A block holds one STATUS: a request answered with BAD_ARG is not answered with OK. -/
theorem State.answered_badArg_not_ok {l m : List Byte} (h : s.answered slot 2 l) : ¬s.answered slot 0 m := by
  rintro ⟨-, hok, -⟩
  obtain ⟨-, hbad, -⟩ := h
  exact absurd (hok.symm.trans hbad) (by decide)

/-- While an image is staged IMG_VERIFY answers STATE. -/
theorem State.imgVerify_of_staged (hu : s.mayUpdate slot) (hd : s.sec.img = some d) (hs : s.sec.staged.isSome = true) :
    (s.imgVerify slot).answered slot 2 [13] := by
  simp only [State.imgVerify, State.updServe_may s _ _ hu, hd, hs, if_true]
  exact s.mbxDone_answered slot 2 _

/-- An image that fails is answered with its REASON. -/
theorem State.imgVerify_of_reason (hu : s.mayUpdate slot) (hd : s.sec.img = some d) (hs : s.sec.staged = none) (hr : s.verifyReason d = some r) :
    (s.imgVerify slot).answered slot 2 [BitVec.ofNat 8 r] := by
  simp only [State.imgVerify, State.updServe_may s _ _ hu, hd, hs, hr, Option.isSome_none, Bool.false_eq_true, if_false]
  exact (s.bump .lck Lck.CNT_VERIFY_FAILS).mbxDone_answered slot 2 _

/-- IMG_VERIFY answers OK only where it finds no fault. -/
theorem State.verifyReason_none_of_imgVerify_ok (hu : s.mayUpdate slot) (hd : s.sec.img = some d) {l : List Byte}
    (h : (s.imgVerify slot).answered slot 0 l) : s.verifyReason d = none := by
  cases hs : s.sec.staged with
  | some k => exact absurd h (State.answered_badArg_not_ok (State.imgVerify_of_staged hu hd (by rw [hs]; rfl)))
  | none =>
    cases hr : s.verifyReason d with
    | none => rfl
    | some r => exact absurd h (State.answered_badArg_not_ok (State.imgVerify_of_reason hu hd hs hr))
end

/-- Settles O58: OK means that no fault was found, and one was found where the conditions fail: the boot ROM's ROLLBACK, or else COMPAT. -/
theorem imageVersionRules : Obligations.ImageVersionRules := by
  unfold Obligations.ImageVersionRules
  constructor
  · intro s slot d hserv hu hd
    refine completes_imgVerify hserv fun ⟨l, hok⟩ => ?_
    exact State.versionsHold_of_verifyReason_none (State.verifyReason_none_of_imgVerify_ok hu hd hok)
  · intro s slot d hserv hu hd hs hc hfit hrom hfail
    apply completes_imgVerify hserv
    rcases hrom with hpass | hold
    · rcases State.verifyReason_of_checked hc hfit hpass with hnone | hcompat
      · exact absurd (State.versionsHold_of_verifyReason_none hnone) hfail
      · exact .inr (State.imgVerify_of_reason hu hd hs hcompat)
    · exact .inl (State.imgVerify_of_reason hu hd hs (State.verifyReason_of_rejected hc hold))

end Sys2Proof.Machine

/-! The registers that a sample of the islands writes (R475), and that a forced power-down after it (R430) leaves them: what it does reaches no page
of AON but SYS, PWR and CLK's alarms, and of the other pages only registers that stand above AON's. -/
namespace Sys2Proof.Machine

/-! ## The registers of a sample -/

/-- An address of CLK.TEMPi (R486), or of a register of AGE that stands once per island (R488). -/
def sampleAddr (a : Nat) : Bool := decide (0x41C0 ≤ a ∧ a < 0x41F8 ∨ 0xC100 ≤ a ∧ a < 0xC2C0)

/-- What the registers of a sample hold; 0 at every other address. -/
def sampleRegs (r : Sparse Word resetWord) (a : Nat) : Word := if sampleAddr a then r.get a else 0

theorem sampleRegs_ext {r q : Sparse Word resetWord} (h : ∀ a, sampleAddr a = true → r.get a = q.get a) : sampleRegs r = sampleRegs q := by
  funext a
  unfold sampleRegs
  split
  next ha => exact h a ha
  next => rfl

theorem get_of_sampleRegs {r q : Sparse Word resetWord} (h : sampleRegs r = sampleRegs q) {a : Nat} (ha : sampleAddr a = true) :
    r.get a = q.get a := by
  have e := congrFun h a
  rwa [sampleRegs, sampleRegs, if_pos ha, if_pos ha] at e

/-- No register of a sample stands in a page's common header. -/
theorem offHeader_of_sampleAddr {a : Nat} (p : Page) (ha : sampleAddr a = true) : p.offHeader a := by
  have hp := p.base_aligned
  simp only [sampleAddr, decide_eq_true_eq] at ha
  unfold Page.offHeader
  omega

/-- The pages of the islands that are not AON's, and of AON those above AGE, stand above every register of a sample. -/
theorem sampleAddr_above (p : Page) (o : Nat) (h : p ∉ [Page.sys, .clk, .pwr, .age]) : sampleAddr (p.base + o) = false := by
  have hb : 0x10000 ≤ p.base := by
    cases p with
    | sys | clk | pwr | age => exact absurd h (by decide)
    | etp n | tgate n | cip n | can n | tdm n | lin n => simp only [Page.base]; omega
    | _ => decide
  simp only [sampleAddr, decide_eq_false_iff_not]
  omega

@[simp] theorem sampleRegs_set_above (r : Sparse Word resetWord) (p : Page) (o : Nat) (w : Word) (h : p ∉ [Page.sys, .clk, .pwr, .age]) :
    sampleRegs (r.set (p.base + o) w) = sampleRegs r :=
  sampleRegs_ext fun a ha => Sparse.get_set_other _ _ _ _ fun e => by rw [e, sampleAddr_above p o h] at ha; exact nomatch ha

@[simp] theorem sampleRegs_set_pwr (r : Sparse Word resetWord) (o : Nat) (w : Word) (h : o < 0x4000) :
    sampleRegs (r.set (Page.pwr.base + o) w) = sampleRegs r :=
  sampleRegs_ext fun a ha => Sparse.get_set_other _ _ _ _ fun e => by
    simp only [sampleAddr, decide_eq_true_eq, e, Page.base] at ha
    omega

@[simp] theorem sampleRegs_ite {c : Prop} [Decidable c] (s t : State) :
    sampleRegs (if c then s else t).regs = if c then sampleRegs s.regs else sampleRegs t.regs := apply_ite (fun u : State => sampleRegs u.regs) ..

theorem sampleRegs_each {α : Type} (s : State) (l : List α) (f : State → α → State) (h : ∀ u x, sampleRegs (f u x).regs = sampleRegs u.regs) :
    sampleRegs (s.each l f).regs = sampleRegs s.regs := s.each_field (fun u => sampleRegs u.regs) l f h

section
variable (s : State)

/-! ## Operations that write no register -/

@[simp] theorem State.draw_regs (n : Nat) : (s.draw n).2.regs = s.regs := rfl
@[simp] theorem State.drawBytes_regs (n : Nat) : (s.drawBytes n).2.regs = s.regs := rfl
@[simp] theorem State.mapEgress_regs (p : Nat) (f : Egress → Egress) : (s.mapEgress p f).regs = s.regs := (s.mapEgress_within p f).same .regs rfl
@[simp] theorem State.holdDown_regs (p : Nat) (on : Bool) : (s.holdDown p on).regs = s.regs := rfl
@[simp] theorem State.tc10Time_regs (p : Nat) (on : Bool) : (s.tc10Time p on).regs = s.regs := rfl
@[simp] theorem State.touchRx_regs (p : Nat) : (s.touchRx p).regs = s.regs := (s.touchRx_within p).same .regs rfl
@[simp] theorem State.completerAbort_regs (a : Nat) : (s.completerAbort a).regs = s.regs := (s.completerAbort_within a).same .regs rfl
@[simp] theorem State.sendBridge_regs (l : List Byte) : (s.sendBridge l).regs = s.regs := (s.sendBridge_within l).same .regs rfl
@[simp] theorem State.hostTaken_regs (c : Copy) : (s.hostTaken c).regs = s.regs := (s.hostTaken_within c).same .regs rfl
@[simp] theorem State.spacePut_regs (k a : Nat) (l : List Byte) (ns : Bool) : (s.spacePut k a l ns).regs = s.regs :=
  (s.spacePut_within k a l ns).same .regs rfl
@[simp] theorem State.eccSeen_regs (m k : Nat) : (s.eccSeen m k).regs = s.regs := rfl
@[simp] theorem State.dmaTo_regs (c rows : Nat) : (s.dmaTo c rows).regs = s.regs := (s.dmaTo_within c rows).same .regs rfl
@[simp] theorem State.cipPut_regs (j : CipJob) (l : List Byte) : (s.cipPut j l).regs = s.regs := (s.cipPut_within j l).same .regs rfl
@[simp] theorem State.cipDrop_regs (n : Nat) : (s.cipDrop n).regs = s.regs := (s.cipDrop_within n).same .regs rfl
@[simp] theorem State.setFrame_regs (i : Nat) (f : Frame) : (s.setFrame i f).regs = s.regs := rfl
@[simp] theorem State.freeFrame_regs (i : Nat) : (s.freeFrame i).regs = s.regs := (s.freeFrame_within i).same .regs rfl
@[simp] theorem State.dropRef_regs (c : Copy) : (s.dropRef c).regs = s.regs := (s.dropRef_within c).same .regs rfl
@[simp] theorem State.unlink_regs (c : Copy) : (s.unlink c).regs = s.regs := (s.unlink_within c).same .regs rfl
@[simp] theorem State.releaseCharge_regs (c : Copy) : (s.releaseCharge c).regs = s.regs := (s.releaseCharge_within c).same .regs rfl
@[simp] theorem State.refund_regs (i : Nat) : (s.refund i).regs = s.regs := (s.refund_within i).same .regs rfl
@[simp] theorem State.stompCopies_regs (i : Nat) : (s.stompCopies i).regs = s.regs := (s.stompCopies_within i).same .regs rfl
@[simp] theorem State.saSettle_regs (p : Nat) : (s.saSettle p).regs = s.regs := (s.saSettle_within p).same .regs rfl
@[simp] theorem State.discardHanded_regs (n : Nat) : (s.discardHanded n).regs = s.regs := rfl
@[simp] theorem State.tsiDrop_regs : s.tsiDrop.regs = s.regs := s.tsiDrop_within.same .regs rfl
@[simp] theorem State.refreshGrant_regs (p c : Nat) : (s.refreshGrant p c).regs = s.regs := (s.refreshGrant_within p c).same .regs rfl
@[simp] theorem State.sendBeat_regs (l : List Byte) : (s.sendBeat l).regs = s.regs := (s.sendBeat_within l).same .regs rfl
@[simp] theorem State.digestHold_regs : s.digestHold.regs = s.regs := s.digestHold_within.same .regs rfl
@[simp] theorem State.mbxPut_regs (k a : Nat) (l : List Byte) : (s.mbxPut k a l).regs = s.regs := (s.mbxPut_within k a l).same .regs rfl
@[simp] theorem State.showBalls_regs (l : List Ball) : (s.showBalls l).regs = s.regs := (s.showBalls_within l).same .regs rfl

/-! ## Headers: events, errors, states and commit status -/

@[simp] theorem State.raise_sampleRegs (p : Page) (b : Nat) : sampleRegs (s.raise p b).regs = sampleRegs s.regs :=
  sampleRegs_ext fun a ha => s.raise_outside p b a (offHeader_of_sampleAddr p ha)

@[simp] theorem State.logErr_sampleRegs (p : Page) (c r d e : Nat) : sampleRegs (s.logErr p c r d e).regs = sampleRegs s.regs :=
  sampleRegs_ext fun a ha => s.logErr_outside p c r d e a (offHeader_of_sampleAddr p ha)

@[simp] theorem State.setSt_sampleRegs (p : Page) (n : Nat) : sampleRegs (s.setSt p n).regs = sampleRegs s.regs :=
  sampleRegs_ext fun a ha => s.setSt_outside p n a (offHeader_of_sampleAddr p ha)

@[simp] theorem State.setStatus_sampleRegs (p : Page) (n d : Nat) : sampleRegs (s.setStatus p n d).regs = sampleRegs s.regs :=
  sampleRegs_ext fun a ha => s.setStatus_outside p n d a (offHeader_of_sampleAddr p ha)

theorem State.setFld_header_sampleRegs (p : Page) (f : Fld) (v : Nat) (h : f.off < 0x54) :
    sampleRegs (s.setFld p f v).regs = sampleRegs s.regs :=
  sampleRegs_ext fun a ha => s.setFld_outside p f v a h (offHeader_of_sampleAddr p ha)

@[simp] theorem State.clocked_sampleRegs (p : Page) (act : State → State) (h : ∀ u, sampleRegs (act u).regs = sampleRegs u.regs) :
    sampleRegs (s.clocked p act).regs = sampleRegs s.regs := by
  unfold State.clocked
  split
  · exact h s
  · rfl

/-! ## Ports and their links -/

@[simp] theorem State.clearCredit_sampleRegs (p : Nat) : sampleRegs (s.clearCredit p).regs = sampleRegs s.regs :=
  sampleRegs_each _ _ _ fun _ _ => by simp

@[simp] theorem State.leaveUp_sampleRegs (p : Nat) : sampleRegs (s.leaveUp p).regs = sampleRegs s.regs := by
  simp [State.leaveUp]

@[simp] theorem State.mdioPush_sampleRegs (r : MdioReq) : sampleRegs (s.mdioPush r).regs = sampleRegs s.regs := by
  have hm : s.mdioMaster r.port < 2 := s.fld_lt _ _
  have hoff : sampleAddr (Page.sys.base + (Sys.MDIO_CFG_BUSY (s.mdioMaster r.port)).off) = false := by
    refine decide_eq_false_iff_not.mpr ?_
    simp only [Page.base, Sys.MDIO_CFG_BUSY]
    omega
  refine sampleRegs_ext fun a ha => Sparse.get_set_other _ _ _ _ fun e => ?_
  rw [e, hoff] at ha
  exact nomatch ha

@[simp] theorem State.askAsleep_sampleRegs (p : Nat) : sampleRegs (s.askAsleep p).regs = sampleRegs s.regs := by
  simp [State.askAsleep]

@[simp] theorem State.linkDown_sampleRegs (p : Nat) : sampleRegs (s.linkDown p).regs = sampleRegs s.regs := by
  simp [State.linkDown, State.setLst]

@[simp] theorem State.linkOn_sampleRegs (p : Nat) : sampleRegs (s.linkOn p).regs = sampleRegs s.regs := by
  simp [State.linkOn, State.setLst]

@[simp] theorem State.linkOff_sampleRegs (p : Nat) : sampleRegs (s.linkOff p).regs = sampleRegs s.regs := by
  simp [State.linkOff, State.setLst, State.setTst]

@[simp] theorem State.pcsLoss_sampleRegs (p : Nat) : sampleRegs (s.pcsLoss p).regs = sampleRegs s.regs := by
  simp [State.pcsLoss]

@[simp] theorem State.laneLeaves_sampleRegs (i : Nat) : sampleRegs (s.laneLeaves i).regs = sampleRegs s.regs := by
  simp [State.laneLeaves]

@[simp] theorem State.laneFalls_sampleRegs (i : Nat) : sampleRegs (s.laneFalls i).regs = sampleRegs s.regs := by
  simp [State.laneFalls]

@[simp] theorem State.lanesOff_sampleRegs : sampleRegs s.lanesOff.regs = sampleRegs s.regs :=
  sampleRegs_each _ _ _ fun u i => u.laneFalls_sampleRegs i

/-! ## Clasp -/

@[simp] theorem State.refreshHealth_sampleRegs : sampleRegs s.refreshHealth.regs = sampleRegs s.regs := by
  simp [State.refreshHealth]

@[simp] theorem State.refreshFence_sampleRegs : sampleRegs s.refreshFence.regs = sampleRegs s.regs := by
  simp [State.refreshFence]

@[simp] theorem State.showGate_sampleRegs : sampleRegs s.showGate.regs = sampleRegs s.regs := by
  simp [State.showGate]

@[simp] theorem State.gateMoves_sampleRegs (old : State) : sampleRegs (s.gateMoves old).regs = sampleRegs s.regs := by
  simp [State.gateMoves]

@[simp] theorem State.sendHeartbeat_sampleRegs : sampleRegs s.sendHeartbeat.regs = sampleRegs s.regs := by
  simp [State.sendHeartbeat]

@[simp] theorem State.setRole_sampleRegs (role cause : Nat) : sampleRegs (s.setRole role cause).regs = sampleRegs s.regs := by
  simp [State.setRole]

@[simp] theorem State.clspEnter_sampleRegs : sampleRegs s.clspEnter.regs = sampleRegs s.regs := by
  simp [State.clspEnter, State.enterListen]

@[simp] theorem State.clspLeave_sampleRegs : sampleRegs s.clspLeave.regs = sampleRegs s.regs := by
  simp [State.clspLeave]

/-! ## The bridge, the rings and the DMA channels -/

@[simp] theorem State.useFails_sampleRegs (u : BridgeUse) (code : Nat) : sampleRegs (s.useFails u code).regs = sampleRegs s.regs := by
  cases u <;> simp [State.useFails, State.mpFault]

@[simp] theorem State.peerOpenFail_sampleRegs : sampleRegs s.peerOpenFail.regs = sampleRegs s.regs :=
  sampleRegs_each _ _ _ fun u x => u.useFails_sampleRegs x 3

@[simp] theorem State.hostOpenFail_sampleRegs : sampleRegs s.hostOpenFail.regs = sampleRegs s.regs :=
  sampleRegs_each _ _ _ fun u x => u.useFails_sampleRegs x 3

@[simp] theorem State.openLost_sampleRegs : sampleRegs s.openLost.regs = sampleRegs s.regs :=
  sampleRegs_each _ _ _ fun u x => u.useFails_sampleRegs x 6

@[simp] theorem State.refreshPath_sampleRegs : sampleRegs s.refreshPath.regs = sampleRegs s.regs := by
  simp [State.refreshPath]

@[simp] theorem State.follow_sampleRegs : sampleRegs s.follow.regs = sampleRegs s.regs := by
  simp [State.follow]

@[simp] theorem State.peerServe_sampleRegs : sampleRegs s.peerServe.regs = sampleRegs s.regs := by
  unfold State.peerServe
  split
  · simp only [State.peerOpenReq, sampleRegs_ite, State.useFails_sampleRegs, State.mapBridge_regs]
    split
    · rfl
    · split <;> simp
  · rfl

@[simp] theorem State.hostPathDrop_sampleRegs : sampleRegs s.hostPathDrop.regs = sampleRegs s.regs := by
  simp [State.hostPathDrop]

@[simp] theorem State.hostCut_sampleRegs : sampleRegs s.hostCut.regs = sampleRegs s.regs := by
  unfold State.hostCut
  split <;> simp

@[simp] theorem State.txCut_sampleRegs : sampleRegs s.txCut.regs = sampleRegs s.regs := by
  simp [State.txCut]

@[simp] theorem State.setCh_sampleRegs (c st : Nat) : sampleRegs (s.setCh c st).regs = sampleRegs s.regs := by
  simp [State.setCh]

@[simp] theorem State.dmaResult_sampleRegs (c r rows : Nat) (irq : Bool) : sampleRegs (s.dmaResult c r rows irq).regs = sampleRegs s.regs := by
  simp [State.dmaResult]

@[simp] theorem State.dmaHalt_sampleRegs (c r rows : Nat) (irq : Bool) : sampleRegs (s.dmaHalt c r rows irq).regs = sampleRegs s.regs := by
  simp [State.dmaHalt]

@[simp] theorem State.dmaAbort_sampleRegs (c rows : Nat) (corr : Nat × Nat) : sampleRegs (s.dmaAbort c rows corr).regs = sampleRegs s.regs := by
  simp [State.dmaAbort]

@[simp] theorem State.dmaWakes_sampleRegs : sampleRegs s.dmaWakes.regs = sampleRegs s.regs :=
  sampleRegs_each _ _ _ fun _ _ => by simp

@[simp] theorem State.ringsStop_sampleRegs : sampleRegs s.ringsStop.regs = sampleRegs s.regs := by
  unfold State.ringsStop
  rw [sampleRegs_each _ _ _ fun _ _ => by simp, sampleRegs_each _ _ _ fun _ _ => sampleRegs_each _ _ _ fun _ _ => by simp]
  simp

@[simp] theorem State.hostLost_sampleRegs : sampleRegs s.hostLost.regs = sampleRegs s.regs := by
  unfold State.hostLost
  rw [sampleRegs_each _ _ _ fun u _ => u.peerServe_sampleRegs]
  simp

@[simp] theorem State.cfgBit_sampleRegs (f : Fld) (b : Bool) : sampleRegs (s.cfgBit f b).regs = sampleRegs s.regs := by
  simp [State.cfgBit]

@[simp] theorem State.pcieDown_sampleRegs : sampleRegs s.pcieDown.regs = sampleRegs s.regs := by
  simp [State.pcieDown, State.cfgReset]

/-! ## The units behind the other pages -/

@[simp] theorem State.canEnter_sampleRegs (n : Nat) : sampleRegs (s.canEnter n).regs = sampleRegs s.regs := by
  simp [State.canEnter, State.setCst]

@[simp] theorem State.canStop_sampleRegs (n : Nat) : sampleRegs (s.canStop n).regs = sampleRegs s.regs := by
  simp [State.canStop, State.setCst]

@[simp] theorem State.linEnter_sampleRegs (n : Nat) : sampleRegs (s.linEnter n).regs = sampleRegs s.regs := by
  simp [State.linEnter, State.setLinLst]

@[simp] theorem State.linStop_sampleRegs (n : Nat) : sampleRegs (s.linStop n).regs = sampleRegs s.regs := by
  simp [State.linStop, State.setLinLst]

@[simp] theorem State.showDefect_sampleRegs (n : Nat) (f : Fld) (b : Nat) (v : Bool) :
    sampleRegs (s.showDefect n f b v).regs = sampleRegs s.regs := by
  simp [State.showDefect]

@[simp] theorem State.showDefects_sampleRegs (n : Nat) : sampleRegs (s.showDefects n).regs = sampleRegs s.regs := by
  simp [State.showDefects]

@[simp] theorem State.tdmStop_sampleRegs (n : Nat) : sampleRegs (s.tdmStop n).regs = sampleRegs s.regs := by
  simp [State.tdmStop, State.toSearch, State.setFst]

@[simp] theorem State.nmStop_sampleRegs : sampleRegs s.nmStop.regs = sampleRegs s.regs := by
  simp [State.nmStop]

@[simp] theorem State.mbxTake_sampleRegs (slot : Nat) : sampleRegs (s.mbxTake slot).regs = sampleRegs s.regs := by
  simp [State.mbxTake, State.mbxDone]

@[simp] theorem State.takeRung_sampleRegs : sampleRegs s.takeRung.regs = sampleRegs s.regs :=
  sampleRegs_each _ _ _ fun _ _ => by simp

@[simp] theorem State.cipComplete_sampleRegs (n : Nat) (j : CipJob) (r : Nat) (z : Bool) (iv : List Byte) :
    sampleRegs (s.cipComplete n j r z iv).regs = sampleRegs s.regs := by
  simp [State.cipComplete]

@[simp] theorem State.cipStart_sampleRegs (n : Nat) (j : CipJob) : sampleRegs (s.cipStart n j).2.regs = sampleRegs s.regs := by
  unfold State.cipStart
  split
  · rfl
  · split
    · rfl
    · dsimp only
      split
      · simp
      · split <;> rfl

@[simp] theorem State.cipStop_sampleRegs (n : Nat) (j : CipJob) : sampleRegs (s.cipStop n j).2.regs = sampleRegs s.regs := by
  unfold State.cipStop
  split
  · simp [State.cipZero]
  · rfl

@[simp] theorem State.cipAbort_sampleRegs (n : Nat) : sampleRegs (s.cipAbort n).2.regs = sampleRegs s.regs := by
  unfold State.cipAbort
  split
  · rfl
  next j _ _ =>
    have hstart := s.cipStart_sampleRegs n j
    split
    · simp
    · split
      next e => simpa [e] using hstart
      next e => simpa [e] using hstart

@[simp] theorem State.cipFault_sampleRegs (n : Nat) (lost : Bool) : sampleRegs (s.cipFault n lost).2.regs = sampleRegs s.regs := by
  unfold State.cipFault
  split
  · rfl
  next j _ _ =>
    have hstart := s.cipStart_sampleRegs n j
    split
    · simp
    · split
      next e => split <;> simpa [e] using hstart
      next e => split <;> simpa [e] using hstart

/-! ## The frames of the store -/

@[simp] theorem State.recircLeave_sampleRegs (bank : Nat) : sampleRegs (s.recircLeave bank).regs = sampleRegs s.regs := by
  simp [State.recircLeave]

@[simp] theorem State.discardCopy_sampleRegs (c : Copy) : sampleRegs (s.discardCopy c).regs = sampleRegs s.regs := by
  simp [State.discardCopy]

@[simp] theorem State.discardHeld_sampleRegs (i : Nat) : sampleRegs (s.discardHeld i).regs = sampleRegs s.regs := by
  unfold State.discardHeld
  simp only [State.freeFrame_regs, State.mapDp_regs]
  rw [sampleRegs_each _ _ _ fun u c => u.discardCopy_sampleRegs c]
  simp

@[simp] theorem State.discardRx_sampleRegs (n : Nat) : sampleRegs (s.discardRx n).regs = sampleRegs s.regs := by
  simp [State.discardRx]

@[simp] theorem State.dropKey_sampleRegs (r : Pass) : sampleRegs (s.dropKey r).regs = sampleRegs s.regs := by
  simp [State.dropKey]

@[simp] theorem State.stopCheck_sampleRegs : sampleRegs s.stopCheck.regs = sampleRegs s.regs := by
  unfold State.stopCheck
  split
  · rfl
  · exact sampleRegs_each _ _ _ fun u q => u.setStatus_sampleRegs q 0 0

/-! ## A forced power-down (R430) -/

@[simp] theorem State.discardWork_sampleRegs (p : Page) (fault lost : Bool) :
    sampleRegs (s.discardWork p fault lost).2.regs = sampleRegs s.regs := by
  have hheld (l : List Nat) (t : State) : sampleRegs (t.each l State.discardHeld).regs = sampleRegs t.regs :=
    sampleRegs_each _ _ _ fun u i => u.discardHeld_sampleRegs i
  have hcopies (l : List Copy) : sampleRegs (s.each l State.discardCopy).regs = sampleRegs s.regs :=
    sampleRegs_each _ _ _ fun u c => u.discardCopy_sampleRegs c
  cases p with
  | etp k => simp [State.discardWork, hheld, hcopies]
  | prs => exact sampleRegs_each _ _ _ fun u r => u.dropKey_sampleRegs r
  | cls => exact sampleRegs_each _ _ _ fun u i => congrArg sampleRegs (u.freeFrame_regs i)
  | buf => exact hheld _ _
  | qsch => exact hcopies _
  | msec =>
    refine (sampleRegs_each _ _ _ fun _ _ => by simp).trans ?_
    exact sampleRegs_each _ _ _ fun _ _ => by simp
  | cip k => cases fault <;> simp [State.discardWork]
  | dma => exact sampleRegs_each _ _ _ fun u c => u.dmaAbort_sampleRegs c 0 (0, 0)
  | tru => exact sampleRegs_each _ _ _ fun u k => by simp
  | _ => simp [State.discardWork]

@[simp] theorem State.entered_sampleRegs (p : Page) (was st : Nat) : sampleRegs (s.entered p was st).regs = sampleRegs s.regs := by
  cases p <;> simp [State.entered, State.canDrain]

@[simp] theorem State.goSt_sampleRegs (p : Page) (st : Nat) : sampleRegs (s.goSt p st).regs = sampleRegs s.regs := by
  simp [State.goSt]

@[simp] theorem State.fault_sampleRegs (p : Page) (code : Nat) (lost : Bool) (addr : Nat) :
    sampleRegs (s.fault p code lost addr).regs = sampleRegs s.regs := by
  simp only [State.fault, State.goSt_sampleRegs]
  rw [State.setFld_header_sampleRegs _ _ _ _ (by decide)]
  simp

@[simp] theorem State.setFld_pwr_sampleRegs (f : Fld) (v : Nat) (h : f.off < 0x4000) :
    sampleRegs (s.setFld .pwr f v).regs = sampleRegs s.regs := by
  simp [h]

/-- An island that goes to RET keeps its registers (R422). -/
@[simp] theorem State.lowerIsland_ret_sampleRegs (i : Nat) : sampleRegs (s.lowerIsland i 1).regs = sampleRegs s.regs := by
  have hloss (t : State) (l : List Nat) : sampleRegs (t.each l (fun s k => s.pcsLoss (8 * i + k))).regs = sampleRegs t.regs :=
    sampleRegs_each _ _ _ fun u k => u.pcsLoss_sampleRegs _
  simp [State.lowerIsland, State.setIsland, hloss, Pwr.ISLAND_STATE_MAP]

@[simp] theorem State.forced_sampleRegs (cause : Nat) : sampleRegs (s.forced cause).regs = sampleRegs s.regs := by
  have hfault (t : State) (l : List Page) : sampleRegs (t.each l (fun s p => s.fault p 6 true)).regs = sampleRegs t.regs :=
    sampleRegs_each _ _ _ fun u p => u.fault_sampleRegs p 6 true 0
  have hlower (t : State) (l : List Nat) : sampleRegs (t.each l (fun s i => s.lowerIsland i 1)).regs = sampleRegs t.regs :=
    sampleRegs_each _ _ _ fun u i => u.lowerIsland_ret_sampleRegs i
  simp [State.forced, State.setPhase, State.setResult, hfault, hlower, Pwr.STATUS_PHASE, Pwr.STATUS_RESULT, Pwr.STATUS_ST,
    Pwr.FORCED_LOG_CAUSE, Pwr.FORCED_LOG_ISLANDS, Pwr.FORCED_TIME_NS]

@[simp] theorem State.powerFails_sampleRegs (cause : Nat) : sampleRegs (s.powerFails cause).regs = sampleRegs s.regs := by
  simp [State.powerFails]
end

end Sys2Proof.Machine

/-! The sample of an island (R475): what its registers show of a reading, that neither the samples of the other islands nor a forced power-down
change it, and the bounds of R474's correction. -/
namespace Sys2Proof.Machine

/-! ## Signed fields, and a field written with its own value -/

theorem signed_unsigned {n : Nat} {t : Int} (hlo : -2 ^ n ≤ t) (hhi : t < 2 ^ n) : signed (n + 1) (unsigned (n + 1) t) = t := by
  have hpow : (2 : Int) ^ (n + 1) = 2 * 2 ^ n := by rw [Int.pow_succ, Int.mul_comm]
  have hnat : ((2 ^ n : Nat) : Int) = 2 ^ n := by push_cast; rfl
  unfold signed unsigned
  simp only [Nat.add_sub_cancel, hpow]
  rcases Int.lt_or_le t 0 with hneg | hpos
  · have hmod : t % (2 * 2 ^ n) = t + 2 * 2 ^ n := by
      rw [← Int.add_emod_right, Int.emod_eq_of_lt (by omega) (by omega)]
    rw [hmod, if_neg (by omega)]
    omega
  · rw [Int.emod_eq_of_lt hpos (by omega), if_pos (by omega)]
    omega

theorem unsigned_signed {n v : Nat} (h : v < 2 ^ (n + 1)) : unsigned (n + 1) (signed (n + 1) v) = v := by
  have hpow : (2 : Int) ^ (n + 1) = ((2 ^ (n + 1) : Nat) : Int) := by push_cast; rfl
  unfold signed unsigned
  rw [hpow]
  split
  · rw [Int.emod_eq_of_lt (by omega) (by omega)]
    rfl
  · rw [Int.sub_emod_right, Int.emod_eq_of_lt (by omega) (by omega)]
    rfl

theorem Fld.ins_ex (f : Fld) (w : Word) : f.ins w (f.ex w) = w := by
  refine BitVec.eq_of_getLsbD_eq fun i hi => ?_
  rw [← BitVec.testBit_toNat, ← BitVec.testBit_toNat, Fld.ins_testBit f w _ i hi]
  split
  next h =>
    rw [Fld.ex_testBit, decide_eq_true (by omega), Bool.true_and, Nat.sub_add_cancel h.1]
  next => rfl

theorem State.setFld_fld_get (s : State) (p : Page) (f : Fld) (a : Nat) : (s.setFld p f (s.fld p f)).regs.get a = s.regs.get a := by
  rw [State.setFld_regs, Sparse.get_set, State.fld, Fld.ins_ex]
  split
  next h => rw [h]; rfl
  next => rfl

section
variable (s : State)

/-! ## What a monitor above TRIP leaves of a sample -/

@[simp] theorem State.setAlarm_sampleRegs (v : Nat) : sampleRegs (s.setFld .clk Clk.ALARM_THERM v).regs = sampleRegs s.regs :=
  sampleRegs_ext fun _ ha => Sparse.get_set_other _ _ _ _ fun e => absurd (e ▸ ha) (by decide)

/-- A monitor that reads what TEMP shows leaves the registers of the sample, whether or not the device is powered down (R430). -/
theorem State.thermal_shown_sampleRegs (i : Nat) :
    sampleRegs (s.thermal i (signed 9 (s.fld .clk (Clk.TEMP_T i)))).regs = sampleRegs s.regs := by
  have hself : sampleRegs (s.setFld .clk (Clk.TEMP_T i) (s.fld .clk (Clk.TEMP_T i))).regs = sampleRegs s.regs :=
    sampleRegs_ext fun a _ => s.setFld_fld_get .clk (Clk.TEMP_T i) a
  have hval : unsigned 9 (signed 9 (s.fld .clk (Clk.TEMP_T i))) = s.fld .clk (Clk.TEMP_T i) := unsigned_signed (s.fld_lt .clk (Clk.TEMP_T i))
  simp only [State.thermal, hval, sampleRegs_ite, State.powerFails_sampleRegs, State.mapPower_regs, State.raise_sampleRegs,
    State.setAlarm_sampleRegs, hself, ite_self]

theorem State.sampled_sampleRegs (l : List Sensor) : sampleRegs (s.sampled l).regs = sampleRegs (s.ageSample l).regs := by
  refine sampleRegs_each _ _ _ fun u i => ?_
  simp only [sampleRegs_ite, State.thermal_shown_sampleRegs, ite_self]

theorem State.fld_of_sampleRegs {s t : State} (h : sampleRegs t.regs = sampleRegs s.regs) (p : Page) (f : Fld)
    (ha : sampleAddr (p.base + f.off) = true) : t.fld p f = s.fld p f := by
  simp only [State.fld, State.word, get_of_sampleRegs h ha]

/-! ## The sample of one island -/

/-- The registers that the sample of island `i` writes: TEMP, MARGIN, DEGRADE and SAMPLE_S (R486, R488). -/
def islandSample (i : Nat) : List Nat :=
  [Page.clk.base + (Clk.TEMP_T i).off, Page.age.base + (Age.MARGIN_MARGIN i).off, Page.age.base + (Age.DEGRADE_D_PPM i).off,
    Page.age.base + (Age.SAMPLE_S_S i).off]

theorem State.dPpm_regs (x : Sensor) : (s.dPpm x).2.regs = s.regs := (s.dPpm_within x).same .regs rfl

theorem State.fld_sampleIsland_else (i : Nat) (x : Sensor) (p : Page) (g : Fld) (h : p.base + g.off ∉ islandSample i) :
    (s.sampleIsland i x).fld p g = s.fld p g := by
  simp only [islandSample, List.mem_cons, List.not_mem_nil, or_false, not_or] at h
  obtain ⟨htemp, hmargin, hppm, hsec⟩ := h
  unfold State.sampleIsland
  dsimp only
  rw [State.fld_setFld_addr _ _ _ _ _ _ hsec, State.fld_setFld_addr _ _ _ _ _ _ hppm, State.fld_setFld_addr _ _ _ (Age.MARGIN_MARGIN_WC i) _ _ hmargin,
    State.fld_setFld_addr _ _ _ _ _ _ hmargin, State.fld_setFld_addr _ _ _ _ _ _ htemp]
  exact State.fld_congr (s.dPpm_regs x) p g

/-- The registers that a sample of island `k` writes are none that the sample of another writes, nor the calibration of any. -/
theorem islandSample_disjoint {i k a : Nat} (hi : i < 14) (hk : k < 14) (hne : k ≠ i) (ha : a ∈ islandSample i) : a ∉ islandSample k := by
  simp only [islandSample, Page.base, Clk.TEMP_T, Age.MARGIN_MARGIN, Age.DEGRADE_D_PPM, Age.SAMPLE_S_S, List.mem_cons, List.not_mem_nil,
    or_false] at ha ⊢
  omega

theorem cal_not_mem_islandSample {i k : Nat} (hk : k < 14) : Page.age.base + (Age.CAL_TC_HOT i).off ∉ islandSample k := by
  simp only [islandSample, Page.base, Clk.TEMP_T, Age.MARGIN_MARGIN, Age.DEGRADE_D_PPM, Age.SAMPLE_S_S, Age.CAL_TC_HOT, List.mem_cons,
    List.not_mem_nil, or_false]
  omega

theorem sampleAddr_of_islandSample {i a : Nat} (hi : i < 14) (ha : a ∈ islandSample i) : sampleAddr a = true := by
  simp only [islandSample, Page.base, Clk.TEMP_T, Age.MARGIN_MARGIN, Age.DEGRADE_D_PPM, Age.SAMPLE_S_S, List.mem_cons, List.not_mem_nil,
    or_false] at ha
  simp only [sampleAddr, decide_eq_true_eq]
  omega

/-! ## The corrected margin (R474) -/

theorem ceilInt_bounds (x : Int) : x ≤ 16 * ceilInt x 16 ∧ 16 * ceilInt x 16 < x + 16 := by
  unfold ceilInt
  omega

/-- Whatever the temperature, it is not beyond both ends of the range, so the correction is never below 0. -/
theorem correction_nonneg (hot cold : Nat) (t : Int) : 0 ≤ max ((hot : Int) * (125 - t)) ((cold : Int) * (t + 40)) := by
  rcases Int.le_total t 125 with h | h
  · exact Int.le_trans (Int.mul_nonneg (Int.natCast_nonneg hot) (by omega)) (Int.le_max_left _ _)
  · exact Int.le_trans (Int.mul_nonneg (Int.natCast_nonneg cold) (by omega)) (Int.le_max_right _ _)

/-- The correction of island `i` at a temperature. -/
def State.correction (i : Nat) (t : Int) : Int :=
  ceilInt (max ((s.fld .age (Age.CAL_TC_HOT i) : Int) * (125 - t)) ((s.fld .age (Age.CAL_TC_COLD i) : Int) * (t + 40))) 16

theorem State.marginWc_eq (i m : Nat) (t : Int) : (s.marginWc i m t : Int) = max 0 ((min m 1023 : Nat) - s.correction i t) := by
  rw [Int.max_comm]
  exact Int.toNat_eq_max _

theorem State.marginWc_le (i m : Nat) (t : Int) : s.marginWc i m t ≤ 1023 := by
  have heq := s.marginWc_eq i m t
  have hpos := correction_nonneg (s.fld .age (Age.CAL_TC_HOT i)) (s.fld .age (Age.CAL_TC_COLD i)) t
  have hceil := Int.le_trans hpos (ceilInt_bounds _).1
  have hcorr : 0 ≤ s.correction i t := by unfold State.correction; omega
  omega

/-! ## What a sample shows of an island -/

/-- In `t` the registers of island `i` show the reading `x`, corrected by the calibration that `s` holds. -/
structure State.Shows (s t : State) (i : Nat) (x : Sensor) : Prop where
  temp : t.fld .clk (Clk.TEMP_T i) = unsigned 9 x.temp
  margin : t.fld .age (Age.MARGIN_MARGIN i) = min x.margin 1023
  wc : t.fld .age (Age.MARGIN_MARGIN_WC i) = s.marginWc i x.margin x.temp

theorem State.sampleIsland_shows {i : Nat} (hi : i < 14) (x : Sensor) : s.Shows (s.sampleIsland i x) i x := by
  have hppm : Page.age.base + (Age.MARGIN_MARGIN i).off ≠ Page.age.base + (Age.DEGRADE_D_PPM i).off := by
    simp only [Age.MARGIN_MARGIN, Age.DEGRADE_D_PPM]; omega
  have hsec : Page.age.base + (Age.MARGIN_MARGIN i).off ≠ Page.age.base + (Age.SAMPLE_S_S i).off := by
    simp only [Age.MARGIN_MARGIN, Age.SAMPLE_S_S]; omega
  have hclk (o : Nat) : Page.clk.base + (Clk.TEMP_T i).off ≠ Page.age.base + o := by
    simp only [Page.base, Clk.TEMP_T]; omega
  have hword : (Age.MARGIN_MARGIN_WC i).apart (Age.MARGIN_MARGIN i) = true := by simp [Fld.apart, Age.MARGIN_MARGIN, Age.MARGIN_MARGIN_WC]
  constructor <;> unfold State.sampleIsland <;> dsimp only
  case temp =>
    rw [State.fld_setFld_addr _ _ _ _ _ _ (hclk _), State.fld_setFld_addr _ _ _ _ _ _ (hclk _), State.fld_setFld_addr _ _ _ _ _ _ (hclk _),
      State.fld_setFld_addr _ _ _ _ _ _ (hclk _)]
    refine State.fld_setFld_val _ _ _ _ ⟨by simp [Clk.TEMP_T], ?_⟩
    show unsigned 9 x.temp < 2 ^ 9
    unfold unsigned
    omega
  case margin =>
    rw [State.fld_setFld_addr _ _ _ _ _ _ hsec, State.fld_setFld_addr _ _ _ _ _ _ hppm, State.fld_setFld_apart _ _ _ _ _ hword]
    refine State.fld_setFld_val _ _ _ _ ⟨by simp [Age.MARGIN_MARGIN], ?_⟩
    show min x.margin 1023 < 2 ^ 10
    omega
  case wc =>
    rw [State.fld_setFld_addr _ _ _ _ (Age.MARGIN_MARGIN_WC i) _ hsec, State.fld_setFld_addr _ _ _ _ (Age.MARGIN_MARGIN_WC i) _ hppm]
    exact State.fld_setFld_val _ _ _ _ ⟨by simp [Age.MARGIN_MARGIN_WC], Nat.lt_succ_of_le (s.marginWc_le i x.margin x.temp)⟩

/-- What shows a reading shows it still after a change that keeps the registers of the island's sample. -/
theorem State.Shows.congr {s t u : State} {i : Nat} {x : Sensor} (h : s.Shows t i x)
    (hk : ∀ p g, p.base + g.off ∈ islandSample i → u.fld p g = t.fld p g) : s.Shows u i x where
  temp := (hk .clk (Clk.TEMP_T i) (by simp [islandSample])).trans h.temp
  margin := (hk .age (Age.MARGIN_MARGIN i) (by simp [islandSample])).trans h.margin
  wc := (hk .age (Age.MARGIN_MARGIN_WC i) (by simp [islandSample, Age.MARGIN_MARGIN_WC, Age.MARGIN_MARGIN])).trans h.wc

/-- `t` has the calibration of island `i` as `s` has it. -/
def State.SameCal (s t : State) (i : Nat) : Prop := ∀ g : Fld, g.off = (Age.CAL_TC_HOT i).off → t.fld .age g = s.fld .age g

/-- A reading is corrected by the calibration alone. -/
theorem State.Shows.of_sameCal {s v t : State} {i : Nat} {x : Sensor} (h : v.Shows t i x) (hc : s.SameCal v i) : s.Shows t i x where
  temp := h.temp
  margin := h.margin
  wc := by rw [h.wc, State.marginWc, State.marginWc, hc (Age.CAL_TC_HOT i) rfl, hc (Age.CAL_TC_COLD i) rfl]

theorem State.SameCal.sampleIsland {s t : State} {i k : Nat} (h : s.SameCal t i) (hk : k < 14) (x : Sensor) : s.SameCal (t.sampleIsland k x) i :=
  fun g hg => (t.fld_sampleIsland_else k x .age g (by rw [hg]; exact cal_not_mem_islandSample hk)).trans (h g hg)

/-- A sample of islands shows of each of them its reading: a sample of another island writes none of its registers. -/
theorem State.each_sampleIsland_shows {s u : State} {i : Nat} (l : List Sensor) (on : List Nat) (hi : i < 14) (hon : ∀ k ∈ on, k < 14)
    (hcal : s.SameCal u i) (h : i ∈ on ∨ s.Shows u i (l.getD i {})) :
    s.Shows (u.each on (fun s k => s.sampleIsland k (l.getD k {}))) i (l.getD i {}) := by
  induction on generalizing u with
  | nil => exact h.resolve_left List.not_mem_nil
  | cons k ks ih =>
    have hk : k < 14 := hon k List.mem_cons_self
    refine ih (fun j hj => hon j (List.mem_cons_of_mem k hj)) (hcal.sampleIsland hk _) ?_
    by_cases hki : k = i
    · subst hki
      exact .inr ((u.sampleIsland_shows hi _).of_sameCal hcal)
    · refine h.imp (fun hmem => (List.mem_cons.mp hmem).resolve_left (Ne.symm hki)) fun hu => ?_
      exact hu.congr fun p g hg => u.fld_sampleIsland_else k _ p g (islandSample_disjoint hi hk hki hg)

theorem State.ageSample_shows (l : List Sensor) {i : Nat} (hi : i < 14) (hon : s.islandCond i = 2) :
    s.Shows (s.ageSample l) i (l.getD i {}) := by
  have hshow := State.each_sampleIsland_shows (s := s) l ((List.range 14).filter (fun k => s.islandCond k == 2)) hi
    (fun k hk => List.mem_range.mp (List.mem_filter.mp hk).1) (fun _ _ => rfl) (.inl (by simp [hi, hon]))
  refine hshow.congr fun p g hg => State.fld_of_sampleRegs ?_ p g (sampleAddr_of_islandSample hi hg)
  unfold State.ageSample
  simp only [sampleRegs_ite, State.raise_sampleRegs, State.bump_regs, ite_self]

/-- After the command each island that is ON shows its reading, a monitor above TRIP or not. -/
theorem State.sampled_shows (l : List Sensor) {i : Nat} (hi : i < 14) (hon : s.islandCond i = 2) : s.Shows (s.sampled l) i (l.getD i {}) :=
  (s.ageSample_shows l hi hon).congr fun p g hg => State.fld_of_sampleRegs (s.sampled_sampleRegs l) p g (sampleAddr_of_islandSample hi hg)
end

/-- An island for which no reading is given reads 0 °C. -/
theorem temp_getD_range {l : List Sensor} (hl : ∀ r ∈ l, r.margin < 1024 ∧ -256 ≤ r.temp ∧ r.temp < 256) (i : Nat) :
    -256 ≤ (l.getD i {}).temp ∧ (l.getD i {}).temp < 256 := by
  rw [List.getD_eq_getElem?_getD]
  cases h : l[i]? with
  | none => decide
  | some r => exact (hl r (List.mem_of_getElem? h)).2

/-- Settles O59: an island that is ON shows its reading with R474's correction, whose quotient is the one that bounds a sixteenth from above. -/
theorem correctedMargin : Obligations.CorrectedMargin := by
  unfold Obligations.CorrectedMargin
  intro s l hl
  refine ⟨_, rfl, fun hrun i temp x hi hon htemp hx => ?_⟩
  rw [State.liveAon_runs s _ hrun] at htemp ⊢
  have hshow := s.sampled_shows l hi hon
  have hread : temp = (l.getD i {}).temp := by
    rw [htemp, hshow.temp]
    obtain ⟨hlo, hhi⟩ := temp_getD_range hl i
    exact signed_unsigned (n := 8) hlo hhi
  subst hread
  refine ⟨s.correction i (l.getD i {}).temp, ?_, ?_, ?_⟩
  · rw [hx]; exact (ceilInt_bounds _).1
  · rw [hx]; exact (ceilInt_bounds _).2
  · rw [hshow.wc, hshow.margin]
    exact s.marginWc_eq i _ _

end Sys2Proof.Machine
